-- ==== Sys2Proof/Word.lean ====
section
/-!
DEFINITION. The words of the EW7416 and the plainest arithmetic on them: machine words, bytes, bit slices read as
numbers, little-endian and big-endian byte lists (R13).
-/

namespace Sys2Proof

/-- A control register, a table word, a lane component: 32 bits (R14). -/
abbrev Word := BitVec 32

/-- A scalar register, a 64-bit counter, a Short Grid Time. -/
abbrev DWord := BitVec 64

/-- One byte of a frame or of memory. -/
abbrev Byte := BitVec 8

/-- A queue entry or a task descriptor: 32 bytes (R435, R445). -/
abbrev Entry := BitVec 256

/-- Bits `[hi:lo]` of a natural number. -/
def bitsOf (v hi lo : Nat) : Nat := (v >>> lo) % 2 ^ (hi + 1 - lo)

/-- `v` with bits `[hi:lo]` replaced by `x`. -/
def putBits (v hi lo x : Nat) : Nat :=
  v - (bitsOf v hi lo) * 2 ^ lo + (x % 2 ^ (hi + 1 - lo)) * 2 ^ lo

/-- One bit of a natural number. -/
def bitOf (v n : Nat) : Bool := v.testBit n

/-- A truth value as a bit. -/
def b2n (b : Bool) : Nat := if b then 1 else 0

/-- The `n` low bytes of `v`, least significant first (R13). -/
def leBytes : Nat → Nat → List Byte
  | 0, _ => []
  | n + 1, v => BitVec.ofNat 8 v :: leBytes n (v / 256)

/-- The `n` low bytes of `v`, most significant first (network order, R13). -/
def beBytes (n v : Nat) : List Byte := (leBytes n v).reverse

/-- The number a little-endian byte list spells. -/
def leNat : List Byte → Nat
  | [] => 0
  | b :: t => b.toNat + 256 * leNat t

/-- The number a big-endian byte list spells. -/
def beNat (l : List Byte) : Nat := leNat l.reverse

/-- `n` bytes of `l` from position `off`, short where `l` ends. -/
def slice (l : List Byte) (off n : Nat) : List Byte := (l.drop off).take n

/-- The big-endian number in `n` bytes of `l` at `off`. -/
def beAt (l : List Byte) (off n : Nat) : Nat := beNat (slice l off n)

/-- The little-endian number in `n` bytes of `l` at `off`. -/
def leAt (l : List Byte) (off n : Nat) : Nat := leNat (slice l off n)

/-- The low 32 bits of a number as a word. -/
def w32 (n : Nat) : Word := BitVec.ofNat 32 n

/-- The low 64 bits of a number as a doubleword. -/
def w64 (n : Nat) : DWord := BitVec.ofNat 64 n

/-- Two's complement value of the low `n` bits of `v`. -/
def signedOf (n v : Nat) : Int :=
  if (v % 2 ^ n) * 2 < 2 ^ n then ((v % 2 ^ n : Nat) : Int) else ((v % 2 ^ n : Nat) : Int) - (2 ^ n : Nat)

/-- The low `n` bits of an integer's two's complement. -/
def wrapInt (n : Nat) (i : Int) : Nat := (i % ((2 ^ n : Nat) : Int)).toNat

end Sys2Proof
end

