-- ==== Sys2Proof/Config.lean ====
section
/-!
DEFINITION. What an implementation fixes and the spec leaves open: opaque constants that nothing in Lean can evaluate.
Each is listed in a row of notes/assumptions.
-/

namespace Sys2Proof.Config

/-- A fresh 64-bit value for the n-th open value of a run (log 6). -/
opaque freeWord : Nat → DWord

/-- The n-th random bit string of the random bit generator (R567, log 6). -/
opaque randomBits : Nat → BitVec 256

/-- SHA-256 of the mask ROM (R553; its content is not given, log 29). -/
opaque romDigest : BitVec 256

/-- Sign and payload of the NaN an operation delivers for its operand bits (R373 names IEEE 754, which leaves them open;
log 13). -/
opaque nanBits : Nat → Nat → BitVec 23

/-- Tininess is detected after rounding, else before (IEEE 754 leaves the choice; log 13). -/
opaque tinyAfterRounding : Bool

/-- Fixed internal latency of a port's PCS loopback in 2^-32 s (R74 gives no figure; log 18). -/
opaque loopLatency : Nat → BitVec 16

/-- TQ_CODE that the five accuracy bits of an R-SV quality byte give (R122 names the bits and no mapping; log 22). -/
opaque rsvTqCode : BitVec 5 → BitVec 4

/-! Results of the Mode Engine that R238 to R251 leave open (log 23): the running mean, the solution of the eigenproblem by an algorithm
that is not given, a mode's contributions, and values at corners where a formula has no result. Operands are binary64 and binary32
patterns, listed by the caller. -/

/-- The running mean of a tracker input from λ, the old mean and the sample (binary64). -/
opaque runMean : Nat → Nat → Nat → BitVec 64

/-- Eigenvalue `i` of a tracker's state matrix: real and imaginary part (binary64). -/
opaque eigRe : List Nat → Nat → BitVec 64
opaque eigIm : List Nat → Nat → BitVec 64

/-- Entry `k` of the eigenvector of eigenvalue `i` (binary64). -/
opaque eigVecRe : List Nat → Nat → Nat → BitVec 64
opaque eigVecIm : List Nat → Nat → Nat → BitVec 64

/-- Entry of the leading eigenvector `k` for an input at lag 0 (U0, binary64). -/
opaque leadVec : List Nat → Nat → Nat → BitVec 64

/-- Contribution of the mode of eigenvalue `i` to the shape-reference input at the u-th of the last REPORT updates (binary64). -/
opaque modeContrib : List Nat → Nat → Nat → BitVec 64

/-- A result where the formula has none: 0 ENERGY with no contribution at all, 1 shape entry with a reference entry of zero, 2 bin
amplitude with wsum zero, 3 RATIO of a power or background of zero, 4 FREQ with a neighbour of no power. -/
opaque openNumber : Nat → List Nat → Nat → BitVec 64

end Sys2Proof.Config
end

