-- ==== Sys2Proof/Machine/Flags.lean ====
section
/-!
DEFINITION. Floating-point arithmetic with its flag conditions (R373): exact values, round to nearest even, the five
conditions, and the correctly rounded square root, argument, sine and cosine of R131 and R415.
-/

namespace Sys2Proof.Machine

/-! ## Formats and values -/

/-- A binary format: fraction bits and exponent bits. -/
structure FFmt where
  mant : Nat
  eb : Nat

/-- binary32. -/
def f32 : FFmt := ⟨23, 8⟩
/-- binary64. -/
def f64 : FFmt := ⟨52, 11⟩

def FFmt.bias (f : FFmt) : Nat := 2 ^ (f.eb - 1) - 1
/-- Exponent of the last place of a subnormal. -/
def FFmt.qmin (f : FFmt) : Int := 1 - f.bias - f.mant
def FFmt.signBit (f : FFmt) : Nat := f.mant + f.eb

/-- A value: NaN (signalling or quiet), an infinity, or the finite ±m·2^e. -/
inductive FVal where
  | nan (signalling : Bool)
  | inf (neg : Bool)
  | fin (neg : Bool) (m : Nat) (e : Int)

/-- The value a bit pattern spells. -/
def fdec (f : FFmt) (x : Nat) : FVal :=
  let neg := bitOf x f.signBit
  let ex := bitsOf x (f.signBit - 1) f.mant
  let fr := x % 2 ^ f.mant
  if ex = 2 ^ f.eb - 1 then (if fr = 0 then .inf neg else .nan (!bitOf x (f.mant - 1)))
  else if ex = 0 then .fin neg fr f.qmin
  else .fin neg (2 ^ f.mant + fr) (f.qmin + ex - 1)

/-- Condition bits of FFLAGS (R380). -/
def fInvalid : Nat := 16
def fDivZero : Nat := 8
def fOverflow : Nat := 4
def fUnderflow : Nat := 2
def fInexact : Nat := 1

/-- A result: its bits, and the conditions raised. -/
structure FRes where
  bits : Nat
  flags : Nat

def fsign (f : FFmt) (neg : Bool) : Nat := b2n neg * 2 ^ f.signBit
def finf (f : FFmt) (neg : Bool) : Nat := fsign f neg + (2 ^ f.eb - 1) * 2 ^ f.mant

/-- The NaN delivered for operand bits. -/
def fnan (f : FFmt) (a b : Nat) : Nat :=
  let p := (Config.nanBits a b).toNat
  (p / 2 ^ 22) * 2 ^ f.signBit + (2 ^ f.eb - 1) * 2 ^ f.mant + 2 ^ (f.mant - 1) + p % 2 ^ (min 22 (f.mant - 1))

/-- `m` shifted right by `sh` places, rounded to nearest even; `sticky` says that the true value lies above `m`. -/
def rneShift (m sh : Nat) (sticky : Bool) : Nat × Bool :=
  match sh with
  | 0 => (m, sticky)
  | k + 1 =>
    let kept := m / 2 ^ (k + 1)
    let rem := m % 2 ^ (k + 1)
    let half := 2 ^ k
    let up := decide (half < rem) || (rem = half && (sticky || kept % 2 = 1))
    (kept + b2n up, rem != 0 || sticky)

/-- Round ±m·2^e (plus less than one unit of m when `sticky`) to the format, to nearest even, with its conditions. -/
def froundTo (f : FFmt) (neg : Bool) (m : Nat) (e : Int) (sticky : Bool) : FRes :=
  if m = 0 ∧ sticky = false then ⟨fsign f neg, 0⟩
  else
    let top : Int := (Nat.log2 m : Int) + e
    let q := max (top - f.mant) f.qmin
    let r := if q ≤ e then (m * 2 ^ (e - q).toNat, sticky) else rneShift m (q - e).toNat sticky
    let carried := decide (2 ^ (f.mant + 1) ≤ r.1)
    let kept := if carried then r.1 / 2 else r.1
    let q' := if carried then q + 1 else q
    let field := if kept < 2 ^ f.mant then 0 else q' - f.qmin + 1
    if (2 ^ f.eb - 1 : Nat) ≤ field then ⟨finf f neg, fOverflow + fInexact⟩
    else
      let bits := fsign f neg + (if kept < 2 ^ f.mant then kept else field.toNat * 2 ^ f.mant + (kept - 2 ^ f.mant))
      let tinyBefore := decide (top < f.qmin + f.mant)
      let u := rneShift m (top - f.mant - e).toNat sticky
      let tinyAfter := tinyBefore && !(decide (top = f.qmin + f.mant - 1) && decide (2 ^ (f.mant + 1) ≤ u.1))
      let tiny := if Config.tinyAfterRounding then tinyAfter else tinyBefore
      ⟨bits, (if r.2 then fInexact else 0) + (if r.2 && tiny then fUnderflow else 0)⟩

def fisSnan : FVal → Bool | .nan s => s | _ => false

/-- A NaN result, invalid when an operand is signalling or `bad`. -/
def fnanRes (f : FFmt) (a b : Nat) (bad : Bool) : FRes :=
  ⟨fnan f a b, if bad || fisSnan (fdec f a) || fisSnan (fdec f b) then fInvalid else 0⟩

/-! ## Arithmetic -/

/-- ±m·2^e as an integer multiple of 2^q, for q at or below e. -/
def scaled (neg : Bool) (m : Nat) (e q : Int) : Int :=
  let v : Int := (m * 2 ^ (e - q).toNat : Nat)
  if neg then -v else v

/-- Round an exact integer multiple of 2^q; an exact zero has the sign given. -/
def froundInt (f : FFmt) (v q : Int) (zeroNeg : Bool) : FRes :=
  if v = 0 then ⟨fsign f zeroNeg, 0⟩ else froundTo f (decide (v < 0)) v.natAbs q false

/-- Sum. -/
def fadd (f : FFmt) (a b : Nat) : FRes :=
  match fdec f a, fdec f b with
  | .inf s, .inf t => if s = t then ⟨finf f s, 0⟩ else fnanRes f a b true
  | .inf s, .fin .. => ⟨finf f s, 0⟩
  | .fin .., .inf t => ⟨finf f t, 0⟩
  | .fin s m e, .fin t n g =>
    let q := min e g
    froundInt f (scaled s m e q + scaled t n g q) q (s && t)
  | _, _ => fnanRes f a b false

/-- Sign inverted. -/
def fneg (f : FFmt) (a : Nat) : Nat := if bitOf a f.signBit then a - 2 ^ f.signBit else a + 2 ^ f.signBit

/-- Difference. -/
def fsub (f : FFmt) (a b : Nat) : FRes :=
  match fdec f b with
  | .nan _ => fnanRes f a b false
  | _ => fadd f a (fneg f b)

/-- Product. -/
def fmul (f : FFmt) (a b : Nat) : FRes :=
  match fdec f a, fdec f b with
  | .inf s, .inf t => ⟨finf f (s != t), 0⟩
  | .inf s, .fin t n _ => if n = 0 then fnanRes f a b true else ⟨finf f (s != t), 0⟩
  | .fin s m _, .inf t => if m = 0 then fnanRes f a b true else ⟨finf f (s != t), 0⟩
  | .fin s m e, .fin t n g => froundTo f (s != t) (m * n) (e + g) false
  | _, _ => fnanRes f a b false

/-- Quotient. -/
def fdiv (f : FFmt) (a b : Nat) : FRes :=
  match fdec f a, fdec f b with
  | .inf _, .inf _ => fnanRes f a b true
  | .inf s, .fin t _ _ => ⟨finf f (s != t), 0⟩
  | .fin s _ _, .inf t => ⟨fsign f (s != t), 0⟩
  | .fin s m e, .fin t n g =>
    if n = 0 then (if m = 0 then fnanRes f a b true else ⟨finf f (s != t), fDivZero⟩)
    else
      let k := Nat.log2 n + 2 * f.mant + 8
      froundTo f (s != t) (m * 2 ^ k / n) (e - g - k) (m * 2 ^ k % n != 0)
  | _, _ => fnanRes f a b false

/-- Integer square root, `r` the part found so far, from bit `i` down. -/
def isqrtFrom (n : Nat) : Nat → Nat → Nat
  | 0, r => r
  | i + 1, r => if (r + 2 ^ i) * (r + 2 ^ i) ≤ n then isqrtFrom n i (r + 2 ^ i) else isqrtFrom n i r

/-- Integer square root. -/
def isqrt (n : Nat) : Nat := isqrtFrom n (Nat.log2 n / 2 + 1) 0

/-- Correctly rounded square root of an exact m·2^e. -/
def fsqrtExact (f : FFmt) (m : Nat) (e : Int) : FRes :=
  if m = 0 then ⟨0, 0⟩
  else
    let k := f.mant + 8
    let odd := e % 2 != 0
    let m1 := (if odd then m * 2 else m) * 2 ^ (2 * k)
    let e1 := (if odd then e - 1 else e) - 2 * k
    let r := isqrt m1
    froundTo f false r (e1 / 2) (r * r != m1)

/-- Square root. -/
def fsqrt (f : FFmt) (a : Nat) : FRes :=
  match fdec f a with
  | .nan _ => fnanRes f a 0 false
  | .inf s => if s then fnanRes f a 0 true else ⟨finf f false, 0⟩
  | .fin s m e => if m = 0 then ⟨a, 0⟩ else if s then fnanRes f a 0 true else fsqrtExact f m e

/-- sqrt(a² + b²), correctly rounded with no intermediate overflow or underflow (R414). -/
def fhypot (f : FFmt) (a b : Nat) : FRes :=
  match fdec f a, fdec f b with
  | .nan _, _ => fnanRes f a b false
  | _, .nan _ => fnanRes f a b false
  | .inf _, _ => ⟨finf f false, 0⟩
  | _, .inf _ => ⟨finf f false, 0⟩
  | .fin _ m e, .fin _ n g =>
    let q := min e g
    let x := m * 2 ^ (e - q).toNat
    let y := n * 2 ^ (g - q).toNat
    fsqrtExact f (x * x + y * y) (2 * q)

/-- Order of two values that are not NaN: the sign of a - b. -/
def fcmp (f : FFmt) (a b : Nat) : Option Int :=
  match fdec f a, fdec f b with
  | .inf s, .inf t => some (if s = t then 0 else if s then -1 else 1)
  | .inf s, .fin .. => some (if s then -1 else 1)
  | .fin .., .inf t => some (if t then 1 else -1)
  | .fin s m e, .fin t n g =>
    let q := min e g
    some (scaled s m e q - scaled t n g q)
  | _, _ => none

def flt (f : FFmt) (a b : Nat) : Bool := match fcmp f a b with | some d => decide (d < 0) | none => false
def fle (f : FFmt) (a b : Nat) : Bool := match fcmp f a b with | some d => decide (d ≤ 0) | none => false
def feq (f : FFmt) (a b : Nat) : Bool := match fcmp f a b with | some d => decide (d = 0) | none => false

/-- The smaller, NaN if either is NaN, -0 below +0 (R414). -/
def fmin (f : FFmt) (a b : Nat) : FRes :=
  match fcmp f a b with
  | none => fnanRes f a b false
  | some d => if d < 0 then ⟨a, 0⟩ else if 0 < d then ⟨b, 0⟩ else ⟨if bitOf a f.signBit then a else b, 0⟩

/-- The larger, NaN if either is NaN, -0 below +0 (R414). -/
def fmax (f : FFmt) (a b : Nat) : FRes :=
  match fcmp f a b with
  | none => fnanRes f a b false
  | some d => if 0 < d then ⟨a, 0⟩ else if d < 0 then ⟨b, 0⟩ else ⟨if bitOf a f.signBit then b else a, 0⟩

/-! ## Integers -/

/-- An integer times 2^-s, rounded (R419). -/
def fofInt (f : FFmt) (v : Int) (s : Nat) : FRes := froundInt f v (-(s : Int)) false

/-- ±m·2^e rounded to the nearest integer, ties to even. -/
def frneInt (neg : Bool) (m : Nat) (e : Int) : Int :=
  let v : Nat := if 0 ≤ e then m * 2 ^ e.toNat else (rneShift m (-e).toNat false).1
  if neg then -(v : Int) else v

/-- A value times 2^s as an `n`-bit signed integer, rounded to nearest even and saturated; NaN gives 0 (R414, R419). -/
def ftoInt (f : FFmt) (a s n : Nat) : Int × Nat :=
  let hi : Int := (2 ^ (n - 1) : Nat) - 1
  let lo : Int := -((2 ^ (n - 1) : Nat) : Int)
  match fdec f a with
  | .nan _ => (0, fInvalid)
  | .inf neg => (if neg then lo else hi, fInvalid)
  | .fin neg m e =>
    let v := frneInt neg m (e + s)
    if hi < v then (hi, fInvalid) else if v < lo then (lo, fInvalid) else (v, 0)

/-! ## Transcendental functions, in fixed point with `fixBits` fractional bits -/

/-- Fractional bits of the fixed-point computations. -/
def fixBits : Nat := 1216

/-- arctan(1/n) in fixed point: terms from `p` = 1/n^(2k+1) on, with fuel. -/
def atanInvFrom (n : Nat) : Nat → Nat → Nat → Int
  | 0, _, _ => 0
  | fuel + 1, k, p =>
    if p = 0 then 0
    else (if k % 2 = 0 then ((p / (2 * k + 1) : Nat) : Int) else -((p / (2 * k + 1) : Nat) : Int))
      + atanInvFrom n fuel (k + 1) (p / (n * n))

/-- π in fixed point, by Machin's formula. -/
def piFix : Nat :=
  (4 * (4 * atanInvFrom 5 400 0 (2 ^ fixBits / 5) - atanInvFrom 239 400 0 (2 ^ fixBits / 239))).toNat

/-- Euler's series of arctan z, for 0 ≤ z ≤ 1 in fixed point: `t` the present term, `w` = z²/(1+z²). -/
def atanFrom (w : Nat) : Nat → Nat → Nat → Nat
  | 0, _, _ => 0
  | fuel + 1, n, t =>
    if t = 0 then 0 else t + atanFrom w fuel (n + 1) (t * (2 * n) / (2 * n + 1) * w / 2 ^ fixBits)

/-- arctan(y/x) in fixed point for 0 < y ≤ x, given as integers of one scale. -/
def atanRatio (y x : Nat) : Nat :=
  let d := x * x + y * y
  atanFrom (y * y * 2 ^ fixBits / d) 1400 1 (x * y * 2 ^ fixBits / d)

/-- Argument of (x, y) in fixed point for positive y and nonzero x of sign `xneg`. -/
def argFix (xneg : Bool) (x y : Nat) : Nat :=
  let a := if y ≤ x then atanRatio y x else piFix / 2 - atanRatio x y
  if xneg then piFix - a else a

/-- Round a positive irrational in fixed point. -/
def froundFix (f : FFmt) (neg : Bool) (v : Nat) : FRes := froundTo f neg v (-(fixBits : Int)) true

/-- A rounded argument: -π_f is returned as π_f (R415). -/
def argRound (f : FFmt) (neg : Bool) (v : Nat) : FRes :=
  let r := froundFix f neg v
  let pi := froundFix f false piFix
  if r.bits = fneg f pi.bits then ⟨pi.bits, r.flags⟩ else r

/-- arg(re + j im), correctly rounded (R415). -/
def farg (f : FFmt) (re im : Nat) : FRes :=
  match fdec f re, fdec f im with
  | .nan _, _ => fnanRes f re im false
  | _, .nan _ => fnanRes f re im false
  | .inf s, .inf t => argRound f t (if s then piFix / 4 * 3 else piFix / 4)
  | .inf s, .fin t _ _ => if s then argRound f t piFix else ⟨fsign f t, 0⟩
  | .fin .., .inf t => argRound f t (piFix / 2)
  | .fin s m e, .fin t n g =>
    if n = 0 then (if m = 0 then ⟨0, 0⟩ else if s then argRound f t piFix else ⟨fsign f t, 0⟩)
    else if m = 0 then argRound f t (piFix / 2)
    else
      let q := min e g
      argRound f t (argFix s (m * 2 ^ (e - q).toNat) (n * 2 ^ (g - q).toNat))

/-- Taylor series in fixed point: term `t`, next divisor k(k+1), alternating, of a square `x2`. -/
def taylorFrom (x2 : Nat) : Nat → Nat → Nat → Int
  | 0, _, _ => 0
  | fuel + 1, k, t =>
    if t = 0 then 0 else (t : Int) - taylorFrom x2 fuel (k + 2) (t * x2 / 2 ^ fixBits / (k * (k + 1)))

/-- sin and cos in fixed point of an angle in [0, π/4]. -/
def sinFix (x : Nat) : Int := taylorFrom (x * x / 2 ^ fixBits) 400 2 x
def cosFix (x : Nat) : Int := taylorFrom (x * x / 2 ^ fixBits) 400 1 (2 ^ fixBits)

/-- (cos, sin) in fixed point of a nonnegative angle m·2^e, by octants. -/
def cosSinFix (m : Nat) (e : Int) : Int × Int :=
  let x := if 0 ≤ e + fixBits then m * 2 ^ (e + fixBits).toNat else m / 2 ^ (-(e + fixBits)).toNat
  let r := x % (2 * piFix)
  let oct := r / (piFix / 4)
  let h := piFix / 2
  match oct with
  | 0 => (cosFix r, sinFix r)
  | 1 => (sinFix (h - r), cosFix (h - r))
  | 2 => (-sinFix (r - h), cosFix (r - h))
  | 3 => (-cosFix (piFix - r), sinFix (piFix - r))
  | 4 => (-cosFix (r - piFix), -sinFix (r - piFix))
  | 5 => (-sinFix (3 * h - r), -cosFix (3 * h - r))
  | 6 => (sinFix (r - 3 * h), -cosFix (r - 3 * h))
  | _ => (cosFix (2 * piFix - r), -sinFix (2 * piFix - r))

/-- Round a signed fixed-point irrational. -/
def froundSFix (f : FFmt) (v : Int) : FRes := froundFix f (decide (v < 0)) v.natAbs

/-- cos θ and sin θ, each correctly rounded (R415). -/
def fcos (f : FFmt) (a : Nat) : FRes :=
  match fdec f a with
  | .fin _ m e => if m = 0 then froundTo f false 1 0 false else froundSFix f (cosSinFix m e).1
  | .inf _ => fnanRes f a 0 true
  | .nan _ => fnanRes f a 0 false

def fsin (f : FFmt) (a : Nat) : FRes :=
  match fdec f a with
  | .fin s m e => if m = 0 then ⟨a, 0⟩ else froundSFix f (if s then -(cosSinFix m e).2 else (cosSinFix m e).2)
  | .inf _ => fnanRes f a 0 true
  | .nan _ => fnanRes f a 0 false

/-! ## Wrapped angle differences (R415) -/

/-- π_f, 2π_f and r2π_f of binary32 (chapter 14). -/
def piF : Nat := 0x40490FDB
def twoPiF : Nat := 0x40C90FDB
def r2piF : Nat := 0x3E22F983

/-- A result with the conditions of earlier steps. -/
def FRes.also (r : FRes) (fl : Nat) : FRes := ⟨r.bits, r.flags ||| fl⟩

/-- The wrap of a difference of two arguments (R415). -/
def fwrap (d : FRes) : FRes :=
  if flt f32 piF d.bits then (fsub f32 d.bits twoPiF).also d.flags
  else if fle f32 d.bits (fneg f32 piF) then (fadd f32 d.bits twoPiF).also d.flags
  else d

/-- The wrapped difference of two angles. -/
def fwrapDiff (a b : Nat) : FRes := fwrap (fsub f32 a b)

/-- A complex result: its components and the conditions raised. -/
structure LaneRes where
  re : Nat
  im : Nat
  flags : Nat

/-- (a + jb)(c + jd), every product and the sums rounded (R373). -/
def cMulNat (a b c d : Nat) : LaneRes :=
  let ac := fmul f32 a c
  let bd := fmul f32 b d
  let ad := fmul f32 a d
  let bc := fmul f32 b c
  let re := fsub f32 ac.bits bd.bits
  let im := fadd f32 ad.bits bc.bits
  ⟨re.bits, im.bits, ac.flags ||| bd.flags ||| ad.flags ||| bc.flags ||| re.flags ||| im.flags⟩

end Sys2Proof.Machine
end

