-- ==== Sys2Proof/Machine/Crypto.lean ====
section
/-!
DEFINITION. The cryptographic functions the spec names by their standards (log 15): SHA-256 (FIPS 180-4), HMAC-SHA256
(FIPS 198-1), AES-256 in GCM (FIPS 197, SP 800-38D) and ECDSA on P-256 (FIPS 186-5).
-/

namespace Sys2Proof

/-! ## SHA-256 -/

/-- Round constants. -/
def shaK : List Nat :=
  [0x428A2F98, 0x71374491, 0xB5C0FBCF, 0xE9B5DBA5, 0x3956C25B, 0x59F111F1, 0x923F82A4, 0xAB1C5ED5,
   0xD807AA98, 0x12835B01, 0x243185BE, 0x550C7DC3, 0x72BE5D74, 0x80DEB1FE, 0x9BDC06A7, 0xC19BF174,
   0xE49B69C1, 0xEFBE4786, 0x0FC19DC6, 0x240CA1CC, 0x2DE92C6F, 0x4A7484AA, 0x5CB0A9DC, 0x76F988DA,
   0x983E5152, 0xA831C66D, 0xB00327C8, 0xBF597FC7, 0xC6E00BF3, 0xD5A79147, 0x06CA6351, 0x14292967,
   0x27B70A85, 0x2E1B2138, 0x4D2C6DFC, 0x53380D13, 0x650A7354, 0x766A0ABB, 0x81C2C92E, 0x92722C85,
   0xA2BFE8A1, 0xA81A664B, 0xC24B8B70, 0xC76C51A3, 0xD192E819, 0xD6990624, 0xF40E3585, 0x106AA070,
   0x19A4C116, 0x1E376C08, 0x2748774C, 0x34B0BCB5, 0x391C0CB3, 0x4ED8AA4A, 0x5B9CCA4F, 0x682E6FF3,
   0x748F82EE, 0x78A5636F, 0x84C87814, 0x8CC70208, 0x90BEFFFA, 0xA4506CEB, 0xBEF9A3F7, 0xC67178F2]

/-- Initial hash value. -/
def shaH : List Nat := [0x6A09E667, 0xBB67AE85, 0x3C6EF372, 0xA54FF53A, 0x510E527F, 0x9B05688C, 0x1F83D9AB, 0x5BE0CD19]

/-- Rotation of a 32-bit word to the right: the word twice over, shifted. -/
def rotr32 (x n : Nat) : Nat := ((x * 0x100000001) >>> n) % 0x100000000

/-- Message words as big-endian numbers. -/
def words32 : List Byte → List Nat
  | a :: b :: c :: d :: t => (a.toNat * 2 ^ 24 + b.toNat * 2 ^ 16 + c.toNat * 2 ^ 8 + d.toNat) :: words32 t
  | _ => []

/-- Message schedule, newest word first, extended by `n` words. -/
def shaExtend : Nat → List Nat → List Nat
  | n + 1, a :: b :: c :: d :: e :: f :: g :: h :: i :: j :: k :: l :: m :: o :: p :: q :: t =>
    let s0 := rotr32 p 7 ^^^ rotr32 p 18 ^^^ (p >>> 3)
    let s1 := rotr32 b 17 ^^^ rotr32 b 19 ^^^ (b >>> 10)
    shaExtend n
      (((q + s0 + g + s1) % 0x100000000) :: a :: b :: c :: d :: e :: f :: g :: h :: i :: j :: k :: l :: m :: o :: p :: q :: t)
  | _, w => w

/-- One round. -/
def shaRound (s : List Nat) (k w : Nat) : List Nat :=
  match s with
  | [a, b, c, d, e, f, g, h] =>
    let s1 := rotr32 e 6 ^^^ rotr32 e 11 ^^^ rotr32 e 25
    let ch := (e &&& f) ^^^ ((0xFFFFFFFF - e) &&& g)
    let t1 := h + s1 + ch + k + w
    let s0 := rotr32 a 2 ^^^ rotr32 a 13 ^^^ rotr32 a 22
    let mj := (a &&& b) ^^^ (a &&& c) ^^^ (b &&& c)
    [(t1 + s0 + mj) % 0x100000000, a, b, c, (d + t1) % 0x100000000, e, f, g]
  | _ => s

def shaRounds : List Nat → List Nat → List Nat → List Nat
  | k :: ks, w :: ws, s => shaRounds ks ws (shaRound s k w)
  | _, _, s => s

/-- One 64-byte block. -/
def shaBlock (h : List Nat) (b : List Byte) : List Nat :=
  let w := (shaExtend 48 (words32 b).reverse).reverse
  List.zipWith (fun x y => (x + y) % 0x100000000) h (shaRounds shaK w h)

/-- Blocks in order; `fuel` bounds their number. -/
def shaBlocks : Nat → List Nat → List Byte → List Nat
  | 0, h, _ => h
  | n + 1, h, m => if m.isEmpty then h else shaBlocks n (shaBlock h (m.take 64)) (m.drop 64)

/-- SHA-256 of a byte list: 32 bytes. -/
def sha256 (m : List Byte) : List Byte :=
  let pad := (64 - (m.length + 9) % 64) % 64
  let p := m ++ [0x80] ++ List.replicate pad 0 ++ beBytes 8 (8 * m.length)
  (shaBlocks (p.length / 64) shaH p).flatMap (beBytes 4)

/-- HMAC-SHA256. -/
def hmac256 (key m : List Byte) : List Byte :=
  let k0 := if key.length ≤ 64 then key else sha256 key
  let k := k0 ++ List.replicate (64 - k0.length) 0
  sha256 (k.map (· ^^^ 0x5C) ++ sha256 (k.map (· ^^^ 0x36) ++ m))

/-! ## AES-256 -/

/-- Multiplication by x in GF(2^8). -/
def xtime (a : Nat) : Nat := if a < 128 then 2 * a else (2 * a) % 256 ^^^ 0x1B

/-- The S-box of FIPS 197: row r holds the bytes of 32 r to 32 r + 31, the first in the lowest place. -/
def aesBox : List Nat :=
  [0xC072A49CAFA2D4ADF04759FA7DC982CA76ABD7FE2B670130C56F6BF27B777C63,
   0x75B227EBE28012079A059618C323C7041531D871F1E5A534CCF73F362693FDB7,
   0xCF584C4A39BECB6A5BB1FC20ED00D153842FE329B3D63B52A05A6E1B1A2C8309,
   0xD2F3FF1021DAB6BCF5389D928F40A351A89F3C507F02F94585334D43FBAAEFD0,
   0xDB0B5EDE14B8EE4688902A22DC4F816073195D643D7EA7C41744975FEC130CCD,
   0x08AE7A65EAF4566CA94ED58D6D37C8E779E4959162ACD3C25C2406490A3A32E0,
   0x9E1DC186B95735610EF6034866B53E708A8BBD4B1F74DDE8C6B4A61C2E2578BA,
   0x16BB54B00F2D99416842E6BF0D89A18CDF2855CEE9871E9B948ED9691198F8E1]

/-- A byte through the S-box. -/
def aesSub (a : Nat) : Nat := ((aesBox.getD (a / 32) 0) >>> (8 * (a % 32))) % 256

/-- Bytes of a 4-byte word list. -/
def xorL (a b : List Nat) : List Nat := List.zipWith (· ^^^ ·) a b

/-- Key schedule: `n` further words of 4 bytes, newest first; `i` is the next word's number. -/
def aesExpand : Nat → Nat → Nat → List (List Nat) → List (List Nat)
  | 0, _, _, w => w
  | n + 1, i, rc, w =>
    let prev := w.getD 0 []
    let old := w.getD 7 []
    let t :=
      if i % 8 = 0 then
        (match prev with
        | [a, b, c, d] => [aesSub b ^^^ rc, aesSub c, aesSub d, aesSub a]
        | x => x)
      else if i % 8 = 4 then prev.map aesSub else prev
    aesExpand n (i + 1) (if i % 8 = 0 then xtime rc else rc) (xorL old t :: w)

/-- Groups of four bytes. -/
def quads : List Nat → List (List Nat)
  | a :: b :: c :: d :: t => [a, b, c, d] :: quads t
  | _ => []

/-- The 15 round keys of 16 bytes. -/
def aesKeys (key : List Byte) : List (List Nat) :=
  let w := (aesExpand 52 8 1 (quads (key.map (·.toNat))).reverse).reverse
  (List.range 15).map fun r => ((w.drop (4 * r)).take 4).flatten

/-- ShiftRows on 16 bytes in column order. -/
def aesShift (s : List Nat) : List Nat := (List.range 16).map fun i => s.getD ((i + 4 * (i % 4)) % 16) 0

def mixCol : List Nat → List Nat
  | [a, b, c, d] =>
    [xtime a ^^^ (xtime b ^^^ b) ^^^ c ^^^ d, a ^^^ xtime b ^^^ (xtime c ^^^ c) ^^^ d,
     a ^^^ b ^^^ xtime c ^^^ (xtime d ^^^ d), (xtime a ^^^ a) ^^^ b ^^^ c ^^^ xtime d]
  | x => x

/-- Rounds from the first round key on; the last one mixes no columns. -/
def aesRounds : List (List Nat) → List Nat → List Nat
  | [], s => s
  | [k], s => xorL (aesShift (s.map aesSub)) k
  | k :: ks, s => aesRounds ks (xorL ((quads (aesShift (s.map aesSub))).flatMap mixCol) k)

/-- AES-256 encryption of one 16-byte block. -/
def aes256 (key blk : List Byte) : List Byte :=
  match aesKeys key with
  | [] => blk
  | k :: ks => (aesRounds ks (xorL (blk.map (·.toNat)) k)).map (BitVec.ofNat 8)

/-! ## GCM -/

/-- Product in GF(2^128), bits in GCM order (the most significant bit is x^0). -/
def gcmMulFrom : Nat → Nat → Nat → Nat → Nat
  | 0, _, _, z => z
  | n + 1, x, v, z =>
    gcmMulFrom n x (if v % 2 = 1 then (v / 2) ^^^ (0xE1 * 2 ^ 120) else v / 2) (if x.testBit n then z ^^^ v else z)
def gcmMul (x y : Nat) : Nat := gcmMulFrom 128 x y 0

/-- Bytes padded to whole blocks. -/
def pad16 (l : List Byte) : List Byte := l ++ List.replicate ((16 - l.length % 16) % 16) 0

/-- GHASH over whole blocks; `fuel` bounds their number. -/
def ghash (h : Nat) : Nat → Nat → List Byte → Nat
  | 0, y, _ => y
  | n + 1, y, m => if m.isEmpty then y else ghash h n (gcmMul (y ^^^ beNat (m.take 16)) h) (m.drop 16)

/-- Counter mode from a counter block's number on. -/
def gcmCtr (key iv : List Byte) : Nat → Nat → List Byte → List Byte
  | 0, _, _ => []
  | n + 1, c, m =>
    if m.isEmpty then []
    else List.zipWith (· ^^^ ·) (m.take 16) (aes256 key (iv ++ beBytes 4 c)) ++ gcmCtr key iv n (c + 1) (m.drop 16)

/-- The tag over additional data and ciphertext, for a 96-bit IV. -/
def gcmTag (key iv aad ct : List Byte) : List Byte :=
  let h := beNat (aes256 key (List.replicate 16 0))
  let m := pad16 aad ++ pad16 ct ++ beBytes 8 (8 * aad.length) ++ beBytes 8 (8 * ct.length)
  beBytes 16 (ghash h (m.length / 16) 0 m ^^^ beNat (aes256 key (iv ++ beBytes 4 1)))

/-- Encryption: the ciphertext and its tag. -/
def gcmSeal (key iv aad pt : List Byte) : List Byte × List Byte :=
  let ct := gcmCtr key iv (pt.length / 16 + 1) 2 pt
  (ct, gcmTag key iv aad ct)

/-- Decryption, none when the tag is wrong. -/
def gcmOpen (key iv aad ct tag : List Byte) : Option (List Byte) :=
  if gcmTag key iv aad ct = tag then some (gcmCtr key iv (ct.length / 16 + 1) 2 ct) else none

/-! ## P-256 -/

def p256P : Nat := 0xFFFFFFFF00000001000000000000000000000000FFFFFFFFFFFFFFFFFFFFFFFF
def p256N : Nat := 0xFFFFFFFF00000000FFFFFFFFFFFFFFFFBCE6FAADA7179E84F3B9CAC2FC632551
def p256B : Nat := 0x5AC635D8AA3A93E7B3EBBD55769886BC651D06B0CC53B0F63BCE3C3E27D2604B
def p256G : Nat × Nat :=
  (0x6B17D1F2E12C4247F8BCE6E563A440F277037D812DEB33A0F4A13945D898C296,
   0x4FE342E2FE1A7F9B8EE7EB4A7C0F9E162BCE33576B315ECECBB6406837BF51F5)

/-- Power modulo `m`, over the low `n` bits of the exponent. -/
def powMod (m : Nat) : Nat → Nat → Nat → Nat
  | 0, _, _ => 1
  | n + 1, b, e => (if e % 2 = 1 then b * powMod m n (b * b % m) (e / 2) else powMod m n (b * b % m) (e / 2)) % m

/-- Inverse modulo a prime. -/
def invMod (p a : Nat) : Nat := powMod p 256 (a % p) (p - 2)

/-- Points in Jacobian coordinates (z zero: infinity). -/
structure EcPt where
  x : Nat
  y : Nat
  z : Nat
  deriving DecidableEq, Repr

/-- Difference modulo p. -/
def psub (a b : Nat) : Nat := (a + p256P - b % p256P) % p256P

def ecDouble (a : EcPt) : EcPt :=
  if a.z = 0 then a
  else
    let p := p256P
    let d := a.z * a.z % p
    let g := a.y * a.y % p
    let b := a.x * g % p
    let al := 3 * (psub a.x d * ((a.x + d) % p) % p) % p
    let x := psub (al * al % p) (8 * b % p)
    let z := psub (psub ((a.y + a.z) * (a.y + a.z) % p) g) d
    ⟨x, psub (al * psub (4 * b % p) x % p) (8 * (g * g % p) % p), z⟩

def ecAdd (a b : EcPt) : EcPt :=
  if a.z = 0 then b
  else if b.z = 0 then a
  else
    let p := p256P
    let z1 := a.z * a.z % p
    let z2 := b.z * b.z % p
    let u1 := a.x * z2 % p
    let u2 := b.x * z1 % p
    let s1 := a.y * b.z % p * z2 % p
    let s2 := b.y * a.z % p * z1 % p
    if u1 = u2 then (if s1 = s2 then ecDouble a else ⟨1, 1, 0⟩)
    else
      let h := psub u2 u1
      let r := psub s2 s1
      let h2 := h * h % p
      let h3 := h * h2 % p
      let v := u1 * h2 % p
      let x := psub (psub (r * r % p) h3) (2 * v % p)
      ⟨x, psub (r * psub v x % p) (s1 * h3 % p), h * a.z % p * b.z % p⟩

/-- k times a point, over the low `n` bits of `k`. -/
def ecMul : Nat → Nat → EcPt → EcPt
  | 0, _, _ => ⟨1, 1, 0⟩
  | n + 1, k, a =>
    let r := ecMul n (k / 2) (ecDouble a)
    if k % 2 = 1 then ecAdd r a else r

/-- Affine coordinates of a point that is not infinity. -/
def ecAffine (a : EcPt) : Nat × Nat :=
  let i := invMod p256P a.z
  let i2 := i * i % p256P
  (a.x * i2 % p256P, a.y * i2 % p256P * i % p256P)

def ecBase : EcPt := ⟨p256G.1, p256G.2, 1⟩

/-- The point of a public key of 64 bytes, X then Y, big-endian; none off the curve. -/
def ecPoint (pub : List Byte) : Option EcPt :=
  let x := beNat (pub.take 32)
  let y := beNat ((pub.drop 32).take 32)
  if pub.length = 64 ∧ x < p256P ∧ y < p256P ∧ (y * y) % p256P = (x * x * x + (p256P - 3) * x + p256B) % p256P then
    some ⟨x, y, 1⟩
  else none

/-- The public key of a private scalar. -/
def ecPublic (d : Nat) : List Byte :=
  let q := ecAffine (ecMul 256 d ecBase)
  beBytes 32 q.1 ++ beBytes 32 q.2

/-- ECDSA verification of a 32-byte digest; the signature is r then s, big-endian. -/
def ecdsaVerify (pub digest sig : List Byte) : Bool :=
  match ecPoint pub with
  | none => false
  | some q =>
    let r := beNat (sig.take 32)
    let s := beNat ((sig.drop 32).take 32)
    if sig.length = 64 ∧ 0 < r ∧ r < p256N ∧ 0 < s ∧ s < p256N then
      let w := invMod p256N s
      let pt := ecAdd (ecMul 256 (beNat digest * w % p256N) ecBase) (ecMul 256 (r * w % p256N) q)
      decide (pt.z ≠ 0) && (ecAffine pt).1 % p256N = r
    else false

/-- ECDSA signature of a digest with private scalar `d` and per-message secret `k`. -/
def ecdsaSign (d k : Nat) (digest : List Byte) : List Byte :=
  let k1 := k % (p256N - 1) + 1
  let r := (ecAffine (ecMul 256 k1 ecBase)).1 % p256N
  let s := invMod p256N k1 * (beNat digest + r * d) % p256N
  beBytes 32 r ++ beBytes 32 s

end Sys2Proof
end

