-- ==== Sys2Proof/Machine/Parts.lean ====
section
/-!
DEFINITION. The state of the engines that run on the arrival journal, as plain data, and the join image that carries it to a
peer (R499).
-/

namespace Sys2Proof.Machine

/-- A sparse map in canonical form: keys rising, nothing listed that an unlisted key reads as. -/
abbrev SMap (α : Type) := List (Nat × α)

/-- A queue entry with its packet marks (R437); a gap marker has its own flag (R450). -/
structure QEntry where
  data : Entry
  first : Bool
  last : Bool
  /-- the entry ends its packet -/
  pktEnd : Bool
  marker : Bool
  /-- journal entry from which it was pushed, for the copy of R500 -/
  eseq : Nat
  deriving DecidableEq, Repr

/-- A queue's own state beside its table entry (R445 to R450). -/
structure Queue where
  entries : List QEntry
  /-- a packet is open at the tail -/
  openPkt : Bool
  /-- the head packet has been partly popped -/
  midPop : Bool
  /-- a reset is running -/
  resetting : Bool
  /-- a flush waits for the open packet's LAST -/
  flushWait : Bool
  /-- backpressure raised -/
  bp : Bool
  /-- complete packets pushed and not yet taken as triggers: the journal entry that caused each, oldest first -/
  trigs : List Nat
  /-- head and tail pointers, and their second copies (R448) -/
  head : Nat
  tail : Nat
  headCopy : Nat
  tailCopy : Nat
  deriving DecidableEq, Repr

/-- Triggers that wait. -/
def Queue.trig (q : Queue) : Nat := q.trigs.length

/-- A save of the accounting state (R360): KIND 0 periodic, 1 power-fail; accumulators in 2^-32 units; residual and DUE of
each pulse output. -/
structure AccSave where
  seq : Nat
  kind : Nat
  sums : SMap Nat
  outs : List (Nat × Nat)
  deriving DecidableEq, Repr

/-- A frame delivered to the parser and not yet taken by stage A (R85, R113). -/
structure EthIn where
  port : Nat
  bytes : List Byte
  truncated : Bool
  /-- arrival Grid Time, 80 bits -/
  arrival : Nat
  deriving DecidableEq, Repr

/-- A frame in the pending buffer between stages B and C (R111). -/
structure PendFrame where
  /-- Boulevard clk in which its checks completed (R37) -/
  clk : Nat
  port : Nat
  arrival : Nat
  source : Nat
  /-- directory index of the entry at PMU_INDEX 0 -/
  entry : Nat
  rsv : Bool
  data : Bool
  bytes : List Byte
  /-- positions of the blocks held -/
  blocks : List Nat
  deriving DecidableEq, Repr

/-- A TCP connection's receive state (R116, R117). -/
structure TcpConn where
  held : List Byte
  /-- arrival of the held bytes: (bytes, stamp of the frame that carried them), in order -/
  stamps : List (Nat × Nat)
  /-- scanning for the next good frame after one that failed -/
  scanning : Bool
  /-- in-order segments received since the last acknowledgement -/
  unacked : Nat
  /-- clk of the first of them -/
  since : Nat
  /-- port and Ethernet and IP addresses of the last segment, for acknowledgements -/
  port : Nat
  hdr : List Byte
  deriving DecidableEq, Repr

/-- An entry of the R-SV key table (R121). -/
structure RsvKey where
  kid : Nat
  source : Nat
  key : List Byte
  deriving DecidableEq, Repr

/-- The ingest parser's own state (chapter 04). -/
structure Ing where
  eth : List EthIn
  pend : List PendFrame
  conns : SMap TcpConn
  /-- LAST_TTAG of each stream, plus one (0: none accepted) -/
  lastTag : SMap Nat
  rsvKeys : SMap (Option RsvKey)
  /-- last SPDU number accepted from each source, plus one -/
  rsvLast : SMap Nat
  /-- JSEQ of the next accepted frame (R36) -/
  jseq : Nat
  deriving DecidableEq, Repr

/-- A member of a running Grove (R177). -/
structure GMember where
  stream : Nat
  numCh : Nat
  weight : Nat
  expected : Bool
  /-- offset of its slot in the Set record -/
  off : Nat
  deriving DecidableEq, Repr

/-- What the Glade keeps on chip of a placed slot (R185, R192). -/
structure SlotInfo where
  present : DWord
  quality : Nat
  stage : Bool
  filled : Bool
  suspect : Bool
  deriving DecidableEq, Repr

/-- An unclosed Set (R205). -/
structure GSet where
  ttag : Nat
  seq : Nat
  opened : Bool
  slots : SMap SlotInfo
  first : Bool
  restart : Bool
  prov : Bool
  final : Bool
  provCause : Nat
  finalCause : Nat
  orderHeld : Bool
  late : Bool
  epoch : Nat
  tqProv : Nat
  tqFinal : Nat
  coverProv : Nat
  coverFinal : Nat
  nPlacedProv : Nat
  jposProv : Nat
  jposFinal : Nat
  t0Prov : Nat
  t1Prov : Nat
  t0Final : Nat
  t1Final : Nat
  amend : Nat
  closed : Bool
  closeFlags : Nat
  deriving DecidableEq, Repr

/-- Run state of a Grove (R70, R179). -/
inductive GRun where
  | stopped
  /-- RUN written to one, the start mark not yet in the journal -/
  | starting
  | running
  /-- RUN written to zero, the boundary not yet finally released -/
  | stopping
  deriving DecidableEq, Repr

/-- A Grove (chapter 06). -/
structure GroveSt where
  run : GRun
  /-- has run and stopped since the unit reset -/
  ran : Bool
  members : List GMember
  /-- first permitted time-tag of the latest start -/
  firstTag : Nat
  /-- stop boundary -/
  boundary : Nat
  /-- F of R181 -/
  front : Nat
  /-- SETSEQ of the earliest instant not yet finally released -/
  nextSeq : Nat
  /-- unclosed Sets in time-tag order -/
  sets : List GSet
  /-- Grid Time of t1 of the last release delivered -/
  lastT1 : Nat
  /-- amendment records written since the start of the ring -/
  amendAt : Nat
  /-- its first final release after ts of a takeover is made (R506) -/
  pastTg : Bool
  deriving DecidableEq, Repr

/-- A notice decided and not yet delivered: kind 0 to 3 of R208. -/
structure Pend where
  grove : Nat
  kind : Nat
  ttag : Nat
  seq : Nat
  addr : Nat
  epoch : Nat
  flags : Nat
  /-- t0 of a release; none when it is its predecessor's release -/
  t0 : Option Nat
  deriving DecidableEq, Repr

/-- The Glade's own state, and the waiting lists of the engines it feeds (chapter 06, R209). -/
structure Gld where
  groves : SMap GroveSt
  /-- streams whose previous accepted block was counted too late -/
  tooLate : SMap Bool
  /-- notices decided and not yet delivered, oldest first -/
  pend : List Pend
  fltWait : List Entry
  islWait : List Entry
  capWait : List Entry
  accWait : List Entry
  deriving DecidableEq, Repr

/-- One moving-average stage of one component (R218): the inputs held, newest first, and the running sum, in 2^-48. -/
structure FStage where
  hist : List Int
  sum : Int
  deriving DecidableEq, Repr

/-- A bank of a filter channel: the four stages of RE and of IM, and the present samples taken since its reset (R220). -/
structure FBank where
  re : List FStage
  im : List FStage
  count : Nat
  deriving DecidableEq, Repr

/-- A filter channel's state (R222, R224). -/
structure FChan where
  /-- the bank that produces outputs: 0 A, 1 B -/
  bank : Nat
  main : FBank
  /-- the new bank of a cross-fade, and the fade outputs made -/
  fade : Option FBank
  faded : Nat
  /-- SETSEQ and EPOCH of the previous sample -/
  seq : Option Nat
  epoch : Nat
  /-- unwrapped value (binary64) and previous wrapped difference (binary32), none after a reset (R216) -/
  unwrap : Option (Nat × Nat)
  /-- notices accepted when ACTIVE was inverted -/
  changeAt : Nat
  /-- a reset by a table write or a block reset, before the next sample -/
  resetDue : Bool
  deriving DecidableEq, Repr

/-- One output of a pass (R228). -/
structure FltOut where
  channel : Nat
  re : Nat
  im : Nat
  delay : Nat
  flags : Nat
  /-- decimation exponent of the producing bank -/
  n : Nat
  deriving DecidableEq, Repr

/-- A pass: its Set, and the outputs (R228, R229). -/
structure FPass where
  ttag : Nat
  seq : Nat
  epoch : Nat
  grove : Nat
  /-- UNIT_TQ_FINAL and WORST_TQ of the Set -/
  tq : Nat
  worst : Nat
  outs : List FltOut
  deriving DecidableEq, Repr

/-- The pass in progress (R226, R227): the outputs of the slots taken so far, the Set record, FIRST or RESTART of the Set, the number of
the pass, the next channel slot, and the clk that slot 0 was taken at, had the pass run without a stop. -/
structure FRun where
  pass : FPass
  addr : Nat
  broken : Bool
  no : Nat
  next : Nat
  since : Nat
  deriving DecidableEq, Repr

/-- The Filter Engine (chapter 07). -/
structure Flt where
  chans : SMap FChan
  /-- passes started -/
  taken : Nat
  /-- records ever written -/
  outIdx : Nat
  cur : Option FRun
  deriving DecidableEq, Repr

/-- A rule's state and counts (R247). -/
structure RuleSt where
  state : Nat
  set : Nat
  clr : Nat
  deriving DecidableEq, Repr

/-- A mode of a report (R240, R242). -/
structure ModeRec where
  /-- eigenvalue it comes from -/
  eig : Nat
  freq : Nat
  damp : Nat
  amp : Nat
  energy : Nat
  id : Nat
  age : Nat
  isNew : Bool
  deriving DecidableEq, Repr

/-- A mode tracker (R238 to R244). -/
structure Tracker where
  /-- decimation exponent of input 0's bank at the last reset; none until the first update since -/
  n : Option Nat
  seq : Option Nat
  epoch : Nat
  /-- last samples of each input (binary64 plus one, 0 absent), newest first, by update -/
  recent : List (List Nat)
  /-- running means, binary64 -/
  mean : List Nat
  /-- covariance entries by 1,024 a + b, binary64 -/
  cov : SMap Nat
  effN : Nat
  updates : Nat
  /-- usable inputs at the last due updates, newest first -/
  usable : List Nat
  /-- consecutive skipped updates, and those skipped since the previous record -/
  skips : Nat
  skipped : Nat
  reports : Nat
  nextId : Nat
  modes : List ModeRec
  rules : SMap RuleSt
  /-- RULE_STATE of the previous record -/
  lastRules : Nat
  frozen : Bool
  /-- the next record carries RESET -/
  resetMark : Bool
  deriving DecidableEq, Repr

/-- A bank slot (R250 to R253). -/
structure BankSlot where
  n : Option Nat
  seq : Option Nat
  epoch : Nat
  /-- samples, newest first: RE, IM, presence -/
  win : List (Nat × Nat × Bool)
  count : Nat
  rule : RuleSt
  lastState : Nat
  /-- peaks of the previous spectrum: bin and PERSIST -/
  peaks : List (Nat × Nat)
  frozen : Bool
  resetMark : Bool
  deriving DecidableEq, Repr

/-- A pass at the Mode Engine: its number, and the trackers and slots whose records are due. -/
structure OscRun where
  pass : FPass
  no : Nat
  trk : List Nat
  slots : List Nat
  deriving DecidableEq, Repr

/-- The Mode Engine (chapter 08). -/
structure Osc where
  wait : List FPass
  /-- passes accepted -/
  arrived : Nat
  cur : Option OscRun
  trackers : SMap Tracker
  slots : SMap BankSlot
  /-- records ever written to the tracker ring and to the bank ring -/
  trkIdx : Nat
  foIdx : Nat
  /-- LIVE table words before writes that later passes take (R249): passes accepted at the write, key, old word -/
  old : List (Nat × Nat × Word)
  deriving DecidableEq, Repr

/-- A branch's own state (R272 to R275). -/
structure BranchSt where
  /-- last effective state: 0 INIT still, 1 open, 2 closed -/
  st : Nat
  seen : Bool
  stale : Bool
  /-- run of final notices that found the status absent -/
  absentRun : Nat
  deriving DecidableEq, Repr

/-- A monitor's own state (R281 to R284). -/
structure MonSt where
  /-- committed state and counts -/
  com : RuleSt
  /-- state last published -/
  pub : Nat
  /-- EPOCH of the previous notice -/
  epoch : Option Nat
  /-- angle difference and SETSEQ at the last final notice with both phasors -/
  prev : Option (Nat × Nat)
  poles : Nat
  deriving DecidableEq, Repr

/-- A separation policy's own state (R285). -/
structure PolSt where
  state : Nat
  topo : Bool
  elec : Bool
  topoTt : Option Nat
  elecTt : Option Nat
  deriving DecidableEq, Repr

/-- An entry of a result record (R287). -/
structure IslEntry where
  cls : Nat
  state : Nat
  prev : Nat
  flags : Nat
  idx : Nat
  val : Nat
  val2 : Nat
  deriving DecidableEq, Repr

/-- A notice in progress at the Connectivity Engine, its recomputation still to come. -/
structure IslRun where
  notice : Entry
  mons : List IslEntry
  branches : List IslEntry
  /-- Grid Time at which the statuses were applied -/
  tStatus : Nat
  /-- number of the notice, from 0 -/
  no : Nat
  deriving DecidableEq, Repr

/-- The Connectivity Engine (chapter 09). -/
structure Isl where
  branches : SMap BranchSt
  /-- monitors by class x 4,096 + index -/
  mons : SMap MonSt
  pols : SMap PolSt
  /-- island ID of each node; default 0xFFFF -/
  islands : SMap Nat
  nIslands : Nat
  /-- records ever written to the result ring and to the map ring -/
  resIdx : Nat
  mapIdx : Nat
  cur : Option IslRun
  /-- a START record of R278 is due -/
  startDue : Bool
  /-- nodes or branches written since the engine last started, and the branches among them -/
  tableWritten : Bool
  written : SMap Bool
  /-- streams whose directory entry was written since the engine last started -/
  dirWritten : SMap Bool
  /-- notices taken -/
  taken : Nat
  /-- LIVE words before writes that later notices take (R72): notices that reached the engine, key, old word -/
  old : List (Nat × Nat × Word)
  deriving DecidableEq, Repr

/-- An alarm point's own state (R298, R303). -/
structure AlmPoint where
  /-- [3] PROV, [2] ACKED, [1] LATCHED, [0] ACTIVE -/
  status : Nat
  /-- provisional mark: Grove, SETSEQ and value of the batch that set it -/
  mark : Option (Nat × Nat × Nat)
  /-- Grove of the last decision recorded -/
  grove : Nat
  deriving DecidableEq, Repr

/-- A requester's open batch: decisions written, and the last value of each point plus one (R299). -/
structure AlmBatch where
  count : Nat
  dec : SMap Nat
  deriving DecidableEq, Repr

/-- An alarm record whose T4 is not yet known (R305). -/
structure AlmRec where
  addr : Nat
  /-- ALARM_SEQ -/
  aseq : Nat
  ttag : Nat
  setseq : Nat
  epoch : Nat
  grove : Nat
  rflags : Nat
  t0 : Nat
  t4 : Nat
  /-- TX_PAUSED_NS growth during the wait of the frame that set T4 -/
  paused : Nat
  /-- ports and targets of its first copies, with TX_PAUSED_NS when submitted -/
  frames : List (Nat × Nat × Nat)
  /-- counters that rise with its notice (R316) -/
  counts : List Nat
  deriving DecidableEq, Repr

/-- What a batch or an acknowledgement gives its records. -/
structure AlmCtx where
  ttag : Nat
  setseq : Nat
  grove : Nat
  basis : Nat
  t0 : Nat
  t3 : Nat
  tq : Nat
  worst : Nat
  deriving DecidableEq, Repr

/-- What waits for a stopped alarm block: a closed batch with its context, or an acknowledgement of a point (R317, log 55). -/
inductive AlmWait where
  | batch (b : AlmBatch) (x : AlmCtx)
  | ack (p : Nat)
  deriving DecidableEq, Repr

/-- Copies of an alarm frame still to be sent (R311). -/
structure AlmRepeat where
  port : Nat
  bytes : List Byte
  left : Nat
  dueAt : Nat
  deriving DecidableEq, Repr

/-- An output channel (R307, R308): asserted, since when, and energised. -/
structure OutCh where
  asserted : Bool
  since : Nat
  level : Bool
  deriving DecidableEq, Repr

/-- A publish stream (R314, R505): SOC and FRACSEC of its last data frame plus one, and the takeover hold. -/
structure PubSt where
  last : Nat
  hold : List (Nat × Entry)
  deriving DecidableEq, Repr

/-- The alarm block and publisher (chapter 10). -/
structure Alm where
  points : SMap AlmPoint
  batches : SMap AlmBatch
  /-- SETSEQ of the last batch applied plus one, by Grove x 4 + basis -/
  lastSeq : SMap Nat
  /-- ALARM_SEQ of the next record -/
  aseq : Nat
  recs : List AlmRec
  repeats : List AlmRepeat
  outs : SMap OutCh
  /-- energy pulses asserted, by output (R356) -/
  pulses : SMap Bool
  /-- alarm frames of each target (R311) -/
  fseq : SMap Nat
  /-- clk of the last keepalives -/
  keepAt : Nat
  pubs : SMap PubSt
  /-- alarm frames held by a shadow: target, FRAME_SEQ, port, bytes (R506) -/
  held : List (Nat × Nat × Nat × List Byte)
  /-- highest FRAME_SEQ marked by the peer, by target (R505) -/
  marked : SMap Nat
  /-- batches and acknowledgements that came while the block was stopped -/
  waiting : List AlmWait
  deriving DecidableEq, Repr

/-- A sequencer's sample of a final Set (R322, R340). -/
structure CapSamp where
  seq : Nat
  ttag : Nat
  tq : Nat
  worst : Nat
  void : Bool
  present : Nat
  vals : List (Nat × Nat)
  deriving DecidableEq, Repr

/-- An averaging interval in progress (R330): binary64 sums of each signal (or the OR of a digital word) and counts. -/
structure CapAvg where
  start : Nat
  ttag : Nat
  n : Nat
  sums : List (Nat × Nat)
  counts : List Nat
  worst : Nat
  tq : Nat
  /-- runs of consecutive Sets taken: cause 1, first Set, count -/
  runs : List (Nat × Nat × Nat)
  deriving DecidableEq, Repr

/-- An open capture (R327 to R334). -/
structure Capture where
  id : Nat
  /-- trigger Set and its time-tag -/
  trig : Nat
  ttag : Nat
  /-- E of R327 -/
  last : Nat
  epoch : Nat
  recSeq : Nat
  /-- SETSEQ of the next Set to cover -/
  next : Nat
  triggers : List Nat
  extra : Nat
  records : Nat
  samples : Nat
  gapped : Nat
  /-- gaps not yet written, in SETSEQ order: cause, first Set, count -/
  gaps : List (Nat × Nat × Nat)
  avg : Option CapAvg
  deriving DecidableEq, Repr

/-- A trigger sequencer (R325, R326). -/
structure CapSeq where
  phase : Nat
  state : Nat
  count : Nat
  timer : Nat
  /-- program trigger pending -/
  pend : Bool
  /-- values of the eight conditions at the previous step, plus one (0 absent) -/
  prev : List Nat
  /-- pre ring, oldest first -/
  pre : List CapSamp
  /-- SETSEQ of the first final Set since the pre ring was last emptied -/
  first : Option Nat
  /-- final Sets of holdoff left -/
  hold : Nat
  cap : Option Capture
  /-- SETSEQ and EPOCH of the last final notice -/
  seen : Option (Nat × Nat)
  /-- Sets stepped at their provisional notice, and whether they triggered -/
  early : List (Nat × Bool)
  /-- last Set covered by the previous capture -/
  prevLast : Option Nat
  deriving DecidableEq, Repr

/-- The Capture Engine (chapter 11). -/
structure Cap where
  seqs : SMap CapSeq
  /-- CAPTURE_ID of the next capture -/
  nextId : Nat
  /-- notices taken -/
  taken : Nat
  /-- LEVEL words before writes that later notices take (R323): notices that reached the engine, key, old word -/
  old : List (Nat × Nat × Word)
  /-- program triggers behind notices that wait (R324): notices taken before each, and its mask -/
  trigs : List (Nat × Nat)
  /-- CAP_RELEASE_LO written and not yet in effect -/
  relLo : Word
  deriving DecidableEq, Repr

/-- A pulse output (R355 to R357): residual in 2^-32 units, backlog, clk at which the pulse began, clk at which its gap ends,
clk at which the outputs froze. -/
structure AccOut where
  resid : Nat
  backlog : Nat
  on : Option Nat
  gapUntil : Nat
  frozenAt : Option Nat
  deriving DecidableEq, Repr

/-- A pulse input's cross-check (R359). -/
structure AccIn where
  /-- end of the present window, in TAI seconds -/
  wEnd : Option Nat
  /-- additions of the window in 2^-32 units -/
  sum : Nat
  /-- a Set of the window was taken; the window cannot be judged -/
  taken : Bool
  bad : Bool
  /-- stamps of the pulses of this and later windows -/
  stamps : List Nat
  mismatch : Bool
  deriving DecidableEq, Repr

/-- The Accounting Engine (chapter 12). -/
structure Acc where
  /-- accumulators: COUNT above REMAINDER, in 2^-32 units -/
  sums : SMap Nat
  /-- SETSEQ and EPOCH of the last final Set of each tie-line since EN was set -/
  lines : SMap (Option (Nat × Nat))
  outs : SMap AccOut
  ins : SMap AccIn
  /-- values of the marks with STEP -/
  steps : List Nat
  /-- save being written and its copy -/
  saving : Option (AccSave × Nat)
  /-- SEQ of the next save -/
  saveSeq : Nat
  /-- whole seconds of Grid Time up to which a periodic save was begun -/
  savedSec : Nat
  /-- the power-fail snapshot is taken -/
  afterSnap : Bool
  /-- notices taken -/
  taken : Nat
  /-- NOLOAD words before writes that notices still waiting take (R72): notices that reached the engine, tie-line, old word -/
  old : List (Nat × Nat × Word)
  deriving DecidableEq, Repr

/-- The join image (R499): counters of sequence, state of ingest, Glade and engines, the registers, tables and counters of the
journalled blocks, the bytes of the rings and carried regions, and the carried queues, as they stand after the join mark. -/
structure JoinImage where
  eseq : Nat
  epoch : Nat
  /-- value and quality word of the join mark -/
  mark : Nat
  markTq : Nat
  ing : Ing
  gld : Gld
  flt : Flt
  osc : Osc
  isl : Isl
  alm : Alm
  cap : Cap
  acc : Acc
  regs : SMap (BitVec 32)
  wide : SMap (BitVec 64)
  tbl : SMap (BitVec 32)
  mem : List Host.Cell
  queues : SMap Queue
  deriving DecidableEq, Repr

end Sys2Proof.Machine
end

