-- ==== Sys2Proof/Syntax.lean ====
section
/-!
DEFINITION. The commands the unit takes, one constructor per row of the table, and the operand types they use.
-/

namespace Sys2Proof

/-- A core by requester ID: 0-15 Stream Engines, 16-19 Supervisor Cores, 20 the Keeper Core (R434). -/
abbrev CoreId := Fin 21

/-- A data or management port: 0-3 NET0-NET3, 4 MGT0, 5 MGT1. -/
abbrev Port := Fin 6

/-- A Grove (R5). -/
abbrev Grove := Fin 64

/-- A mailbox (R453). -/
abbrev Mailbox := Fin 24

/-- A register field of a Sapor instruction (R402). -/
abbrev Rg := BitVec 5

/-- A predicate field of a Sapor instruction. -/
abbrev Pr := BitVec 3

/-- Who makes a register access: the host, or a core at its present level (R434). -/
inductive Req where
  | host
  | core (c : CoreId)
  deriving DecidableEq, Repr

/-- The requester ID of R434. -/
def Req.id : Req → Nat
  | .host => 24
  | .core c => c.val

/-- What the SECDED check finds in a flit that leaves the ring (R32). -/
inductive FlitErr where
  | clean
  | single
  | double
  deriving DecidableEq, Repr

/-- A block with a run control of its own (R68). -/
inductive BlockId where
  | port (p : Port)
  | flt | osc | isl | cap | acc
  | ing | gld | tim | alm | xng
  deriving DecidableEq, Repr

/-- The queue field of a queue instruction: a number, or the register that holds it (R425). -/
inductive QSel where
  | imm (n : Byte)
  | reg (r : Rg)
  deriving DecidableEq, Repr

/-- An interrupt source: private of a core, or shared (R465). -/
inductive IcRef where
  | priv (c : CoreId) (n : BitVec 6)
  | shared (n : BitVec 9)
  deriving DecidableEq, Repr

/-- A code element of an IRIG-B frame (R159). -/
inductive IrigSym where
  | zero
  | one
  | mark
  deriving DecidableEq, Repr


inductive Instr where
  /-- `REGISTER_WRITE` (R20). A write by the host or a core to a control register that has no row of its own is accepted, refused or partly applied under the access and run-control rules. -/
  | registerWrite (q : Req) (off : Nat) (v : Word)
  /-- `BAD_WIDTH_ACCESS` (R14). A control register access of the wrong width or alignment changes nothing; the host gets Unsupported Request and a core takes a bus error. -/
  | badWidthAccess (q : Req) (addr width : Nat) (write : Bool)
  /-- `RC_READ` (R17). A read of an RC field returns its value and then clears it, whatever the requester and path. -/
  | rcRead (q : Req) (off : Nat)
  /-- `LO_READ_LATCH` (R22). A read of a _LO register latches the _HI half for that requester in the same Boulevard clk. -/
  | loReadLatch (q : Req) (off : Nat)
  /-- `FLIT_DELIVERED` (R32). A flit leaves the ring at its stop; single-bit errors are corrected and counted, double-bit errors are reported and the flit is not delivered. -/
  | flitDelivered (req : Byte) (addr : Nat) (err : FlitErr)
  /-- `PLL_STOP` (R34). When all Stream Engines have been in WAIT for 500 µs the Stream Engine PLL is stopped. -/
  | pllStop (dt : Nat)
  /-- `PLL_RESTART_DONE` (R34). The Stream Engine PLL restart requested at a release condition completes within 40 µs. -/
  | pllRestartDone (dt : Nat)
  /-- `MAINS_IN_RANGE` (R57). Mains in range for 50 ms takes the unit from M0 Keep into a power-on reset and M1 Boot. -/
  | mainsInRange (dt : Nat)
  /-- `RAILS_UP` (R63). Main rails ramp and power-good is asserted, step t1 of the cold start. -/
  | railsUp
  /-- `KEEPER_RESET_RELEASE` (R63). The Keeper Core leaves reset, M1 Boot is entered, EPOCH is incremented and the journal sequence number set to zero, step t2. -/
  | keeperResetRelease
  /-- `SELF_TESTS_DONE` (R553). The Keeper power-up self-tests complete, the Lockdown latch is read and the key slots are opened, step t3. -/
  | selfTestsDone (ok : Bool)
  /-- `DRAM_TRAINED` (R63). DRAM is trained and filled with valid ECC and SRAM filled, step t4. -/
  | dramTrained
  /-- `FIRMWARE_VERIFIED` (R553). The firmware image is read and verified, or the alternate slot tried, and SV0 is released, step t5. -/
  | firmwareVerified
  /-- `IMAGES_VERIFIED` (R396). The Supervisor and Stream Engine images are verified and loaded and measurement registers extended, step t6. -/
  | imagesVerified
  /-- `CONFIG_LOADED` (R63). Configuration is copied from MRAM into every block, Grid Time is seeded, accumulators restored, and the boot mode chosen, step t7. -/
  | configLoaded
  /-- `MODE_REQUEST` (R59). A host write of SYS_MODE_REQ requests a mode transition, which is begun or refused with a result in SYS_MODE_STATUS. -/
  | modeRequest (q : Req) (v : Word)
  /-- `MODE_ENTRY` (R61). A transition completes: the new mode is entered, a Ring Log record written, SYS_MODE_ENTRY latched and the mode-change interrupt raised. -/
  | modeEntry
  /-- `POWER_FAIL_WARNING` (R65). The power-fail warning is latched: DUTY lines drop, accumulators saved, key updates and MRAM writes finished, capture closed. -/
  | powerFailWarning
  /-- `POWER_FAIL_OUTPUTS_SAFE` (R65). At 50 ms after the warning the outputs go to the safe state and engines and cores stop. -/
  | powerFailOutputsSafe (dt : Nat)
  /-- `POWER_GOOD_LOST` (R628). At the warning plus 70 ms the main rails are switched off, power-good falls and M0 Keep is entered. -/
  | powerGoodLost (dt : Nat)
  /-- `UNIT_RESET` (R67). A write of SYS_RESET with the key and KIND 0b01 makes a commanded unit reset and a new Boot. -/
  | unitReset (q : Req) (v : Word)
  /-- `BACKUP_LOSS_RESET` (R67). Power-up after loss of both mains and backup clears every register including U fields and marks the calendar invalid. -/
  | backupLossReset
  /-- `CORE_RESET` (R526). A write of SYS_CORE_RESET by the recovery Supervisor resets named cores, aborting tasks, releasing locks and clearing active sources. -/
  | coreReset (q : Req) (v : Word)
  /-- `BLOCK_RESET` (R67). A block's own reset field, written while stopped, returns its registers to reset values and reloads C fields. -/
  | blockReset (q : Req) (b : BlockId)
  /-- `BLOCK_STOP` (R68). A write of zero to a block's run control starts its stop at the block's stop point, refusing non-LIVE writes meanwhile. -/
  | blockStop (q : Req) (b : BlockId)
  /-- `BLOCK_STOPPED` (R68). The block reaches its stop point and sets STOPPED; a named resource in M4 takes the unit to M7. -/
  | blockStopped (b : BlockId)
  /-- `BLOCK_START` (R68). A write of one to a block's run control restarts it; restarting the last named resource returns the unit to M4. -/
  | blockStart (q : Req) (b : BlockId)
  /-- `GROVE_STOP` (R70). A write of zero to a Grove's RUN fixes its stop boundary and starts rejecting later time-tags as Grove stopped. -/
  | groveStop (q : Req) (g : Grove)
  /-- `GROVE_RUN` (R179). A write of one to a Grove's RUN inserts a start mark that fixes the first permitted time-tag and the member list. -/
  | groveRun (q : Req) (g : Grove)
  /-- `INJECT_DESCRIPTOR` (R73). In M8 with INJ_EN set the device takes an injection descriptor from the injection queue, discarding a bad one. -/
  | injectDescriptor
  /-- `INJECT_FRAME` (R73). At T_AT the held descriptor's frame is placed in the port receive path with its FCS and computed arrival stamp. -/
  | injectFrame (dt : Nat)
  /-- `TEST_WDOG_KICK` (R75). A write of one to SYS_TEST_WDOG.KICK restarts the test-session watchdog. -/
  | testWdogKick (q : Req) (v : Word)
  /-- `TEST_WDOG_EXPIRE` (R75). The test-session watchdog expires and the unit leaves M8 for M3, removing injections, loops and forces. -/
  | testWdogExpire (dt : Nat)
  /-- `RX_FRAME` (R83). A frame stored whole in a port's receive buffer is checked in order, counted, and delivered to the timebase or the parser. -/
  | rxFrame (p : Port) (pcsError : Bool) (wire : List Byte) (dt : Nat)
  /-- `PAUSE_TIMER_EXPIRE` (R88). The port's pause timer reaches zero and the transmitter may start its next frame. -/
  | pauseTimerExpire (p : Port) (dt : Nat)
  /-- `PAUSE_REFRESH` (R91). While backpressure stays raised a pause frame is sent again every NET_PAUSE.REFRESH µs. -/
  | pauseRefresh (p : Port) (dt : Nat)
  /-- `TX_SUBMIT` (R92). A submitter hands a frame to a port's transmit buffer in its priority class. -/
  | txSubmit (p : Port) (cls : Fin 5) (frame : List Byte)
  /-- `TX_START` (R93). The port starts transmitting the head frame of the highest-priority non-empty class, or discards it without link. -/
  | txStart (p : Port) (dt : Nat)
  /-- `TX_DONE` (R94). A frame finishes transmission and its transmit stamp is counted or returned to the submitter. -/
  | txDone (p : Port) (dt : Nat)
  /-- `TX_FLUSH` (R95). A write of one to NET_CTRL.TX_FLUSH while stopped discards untransmitted frames and counts them. -/
  | txFlush (q : Req) (p : Port)
  /-- `LINK_CHANGE` (R650). A port's physical layer trains or loses link and LINK and FEC_LOCK follow. -/
  | linkChange (p : Port) (up fec : Bool)
  /-- `MODULE_INSERT` (R632). An SFP28 or QSFP28 module is inserted or removed and its identification memory is read and judged. -/
  | moduleInsert (p : Port) (present fits : Bool)
  /-- `PARSER_FRAME_IN` (R113). The parser takes an Ethernet frame from the Frame MAC and classifies it in stage A. -/
  | parserFrameIn (dt : Nat)
  /-- `TCP_ACK_TIMER` (R116). 200 µs after in-order data the engine sends its acknowledgement. -/
  | tcpAckTimer (c : BitVec 11) (dt : Nat)
  /-- `FRAME_ACCEPT` (R139). A pending frame's blocks are checked in acceptance order, converted, and the frame is accepted and journalled at the acceptance point. -/
  | frameAccept (dt : Nat)
  /-- `PASS_RELEASE` (R648). A write of ING_PASS_RELEASE returns pass buffer space, or is refused if backward or beyond ING_PASS_WRITE. -/
  | passRelease (q : Req) (v : Word)
  /-- `TABLE_READ` (R148). A TBL_CMD write with OP read copies a table entry or counters into the data registers. -/
  | tableRead (q : Req) (block : BitVec 5)
  /-- `TABLE_WRITE` (R148). A TBL_CMD write with OP write takes an entry from the data registers under the table's rules, or refuses it. -/
  | tableWrite (q : Req) (block : BitVec 5)
  /-- `PTP_MESSAGE` (R157). The timebase handles a received PTP message: Announce ranking, Sync/Follow_Up sample, Pdelay exchange or discard. -/
  | ptpMessage
  /-- `PDELAY_REQ_TIMER` (R157). Every 1 s a Pdelay_Req is sent on each enabled PTP port. -/
  | pdelayReqTimer (p : Port) (dt : Nat)
  /-- `FOLLOW_UP_TIMEOUT` (R157). A Sync whose Follow_Up has not arrived within 1 s forms no sample. -/
  | followUpTimeout (p : Port) (dt : Nat)
  /-- `PTP_SOURCE_LOST` (R157). After 3 Announce intervals without a message the PTP source is lost. -/
  | ptpSourceLost (dt : Nat)
  /-- `PPS_EDGE` (R158). A PPS input edge is stamped and forms a sample if its seconds are usable, or counts in TIM_PPS_BAD. -/
  | ppsEdge (dt : Nat)
  /-- `IRIG_FRAME` (R159). An IRIG-B frame is decoded and, if good and consecutive, forms a sample. -/
  | irigFrame (f : List IrigSym) (ago dt : Nat)
  /-- `SRC_TIMEOUT` (R162). No sample applied for TIM_SRC_TIMEOUT in ACQUIRE or LOCKED takes the servo to HOLDOVER. -/
  | srcTimeout (dt : Nat)
  /-- `STEP_ARM_LAPSE` (R164). STEP_ARMED lapses 60 s after it was set. -/
  | stepArmLapse (dt : Nat)
  /-- `TIME_MARK` (R165). The timebase inserts a time mark into the journal when Grid Time passes the earliest deadline, each 1 ms, or at a step or quality change. -/
  | timeMark (dt : Nat)
  /-- `TIME_QUALITY_CHANGE` (R168). The time since LOCKED crosses 10 s, 100 s or 1,000 s and the unit time quality word changes. -/
  | timeQualityChange (dt : Nat)
  /-- `LEAP_SECOND` (R170). At TIM_LEAP_AT the offset in force changes and TIM_UTC.OFFSET is adjusted and LEAP cleared. -/
  | leapSecond (dt : Nat)
  /-- `CALENDAR_SYNC` (R155). At first LOCKED and every 3,600 s after, the timebase writes UTC into the Understory calendar. -/
  | calendarSync (dt : Nat)
  /-- `PPS_OUT_PULSE` (R172). PPS out rises as Grid Time crosses a whole second not yet pulsed. -/
  | ppsOutPulse (dt : Nat)
  /-- `PPS_OUT_END` (R172). PPS out falls after WIDTH_MS. -/
  | ppsOutEnd (dt : Nat)
  /-- `CMP_FIRE` (R173). An armed compare channel fires when Grid Time reaches its value, clearing ARM and setting FIRED and possibly LATE. -/
  | cmpFire (n : BitVec 4) (dt : Nat)
  /-- `SET_RELEASED` (R192). The release notice is pushed to the release queue and delivered to every fed engine (t1). -/
  | setReleased (dt : Nat)
  /-- `FILTER_PASS` (R226). The Filter Engine starts a pass for the next waiting final notice, taking samples channel by channel. -/
  | filterPass (dt : Nat)
  /-- `FILTER_PASS_DONE` (R229). A pass ends, its output records written and its output notice pushed. -/
  | filterPassDone (dt : Nat)
  /-- `MODE_ENGINE_PASS` (R258). The Mode Engine starts a pass on a Filter Engine pass, updating due trackers and bank slots. -/
  | modeEnginePass (dt : Nat)
  /-- `TRACKER_REPORT` (R239). A tracker report is estimated, its rules stepped, its record written and notice pushed. -/
  | trackerReport (dt : Nat)
  /-- `SPECTRUM_DONE` (R250). A bank slot spectrum is computed, peaks found, FO_STATE stepped and the record and notice written. -/
  | spectrumDone (dt : Nat)
  /-- `ISL_NOTICE_TAKEN` (R268). The Connectivity Engine takes the next notice, evaluates monitors and applies branch statuses. -/
  | islNoticeTaken (dt : Nat)
  /-- `ISLAND_RECOMPUTE_DONE` (R276). Recomputation of islands completes and a map record is written if the partition changed. -/
  | islandRecomputeDone (dt : Nat)
  /-- `DECISION_CONTEXT` (R302). A write of ALM_DEC_CTX or ALM_DEC_SEQ sets the batch context, discarding a batch in progress. -/
  | decisionContext (c : CoreId) (w : Fin 5) (v : Word)
  /-- `DECIDE` (R299). A write of ALM_DECIDE without DONE adds a raise or clear of a point to the requester's batch. -/
  | decide (c : CoreId) (value : Bool) (point : BitVec 9)
  /-- `DECISION_BATCH_DONE` (R301). A write of ALM_DECIDE with DONE submits the batch, which is applied or refused at t3. -/
  | decisionBatchDone (c : CoreId)
  /-- `ALARM_ACK` (R304). A write of ALM_ACK is journalled and applied at its journal position to the point's status. -/
  | alarmAck (q : Req) (p : BitVec 9)
  /-- `ALARM_RECORD_NOTICE` (R305). Once T4 is known the alarm record's notice is pushed. -/
  | alarmRecordNotice (dt : Nat)
  /-- `ALARM_REPEAT` (R311). An alarm frame copy is sent again at 1 ms spacing, REPEAT times. -/
  | alarmRepeat (dt : Nat)
  /-- `ALARM_KEEPALIVE` (R311). Every ALM_KEEPALIVE ms a keepalive frame is sent to every enabled target while holding duty. -/
  | alarmKeepalive (dt : Nat)
  /-- `MIN_ON_EXPIRE` (R308). An asserted output whose points have cleared is released after MIN_ON_MS. -/
  | minOnExpire (dt : Nat)
  /-- `PUBLISH_FRAME` (R314). The publisher takes a submitted frame, checks mode, format and order, computes CHK and sends or returns it. -/
  | publishFrame (k : BitVec 5) (dt : Nat)
  /-- `CAPTURE_NOTICE` (R320). The Capture Engine takes a notice and steps its sequencers, triggering and writing capture records. -/
  | captureNotice (dt : Nat)
  /-- `CAPTURE_TRIGGER` (R324). A write of CAP_TRIGGER is journalled and sets the pending flag of named sequencers. -/
  | captureTrigger (q : Req) (v : Word)
  /-- `CAPTURE_RELEASE` (R333). A write of CAP_RELEASE_HI releases capture ring space, or is refused if out of range. -/
  | captureRelease (q : Req) (v : Word)
  /-- `ACC_NOTICE` (R348). The Accounting Engine takes a final notice and integrates each tie-line of the Grove. -/
  | accNotice (dt : Nat)
  /-- `PULSE_START` (R356). With outputs driven and BACKLOG above zero a pulse output asserts for WIDTH_MS. -/
  | pulseStart (n : BitVec 3) (dt : Nat)
  /-- `PULSE_END` (R356). A pulse ends after WIDTH_MS and the gap of GAP_MS begins. -/
  | pulseEnd (n : BitVec 3) (dt : Nat)
  /-- `S0_PULSE` (R358). An S0 input held active for MIN_MS counts a stamped pulse, or a shorter activation counts in SHORT. -/
  | s0Pulse (n : BitVec 4) (samples dt : Nat)
  /-- `PERIODIC_SAVE` (R361). At each whole second the accounting state is snapshotted for a periodic save to MRAM. -/
  | periodicSave (dt : Nat)
  /-- `SAVE_DONE` (R361). A periodic or power-fail save finishes writing its copy, or fails with an MRAM error. -/
  | saveDone (ok : Bool) (dt : Nat)
  /-- `TASK_BEGIN` (R383). A dispatched task begins on a core at P with its registers initialised. -/
  | taskBegin (c : CoreId)
  /-- `TASK_END` (R384). SYSCALL with immediate 0 at P ends the task and returns its credit. -/
  | taskEnd (c : CoreId)
  /-- `ILLEGAL_INSTRUCTION` (R403). A reserved or malformed instruction word raises the illegal-instruction exception. -/
  | illegalInstruction (c : CoreId) (word : Word)
  /-- `INTERRUPT_TAKEN` (R389). A presented interrupt is taken at an instruction boundary and the core enters at EVEC plus 0x40. -/
  | interruptTaken (c : CoreId)
  /-- `ADD` (R406). s[rd] = s[rs1] + s[rs2]. -/
  | add (c : CoreId) (rd rs1 rs2 : Rg)
  /-- `SUB` (R406). s[rd] = s[rs1] - s[rs2]. -/
  | sub (c : CoreId) (rd rs1 rs2 : Rg)
  /-- `AND` (R406). Bitwise and of two scalars. -/
  | andS (c : CoreId) (rd rs1 rs2 : Rg)
  /-- `OR` (R406). Bitwise or of two scalars. -/
  | orS (c : CoreId) (rd rs1 rs2 : Rg)
  /-- `XOR` (R406). Bitwise exclusive or of two scalars. -/
  | xorS (c : CoreId) (rd rs1 rs2 : Rg)
  /-- `ANDN` (R406). rs1 and not rs2. -/
  | andn (c : CoreId) (rd rs1 rs2 : Rg)
  /-- `SHLL` (R406). Logical shift left by a register count. -/
  | shll (c : CoreId) (rd rs1 rs2 : Rg)
  /-- `SHRL` (R406). Logical shift right by a register count. -/
  | shrl (c : CoreId) (rd rs1 rs2 : Rg)
  /-- `SHRA` (R406). Arithmetic shift right by a register count. -/
  | shra (c : CoreId) (rd rs1 rs2 : Rg)
  /-- `LTS` (R406). Signed less-than giving 1 or 0. -/
  | lts (c : CoreId) (rd rs1 rs2 : Rg)
  /-- `LTU` (R406). Unsigned less-than giving 1 or 0. -/
  | ltu (c : CoreId) (rd rs1 rs2 : Rg)
  /-- `MIN` (R406). Signed minimum. -/
  | minS (c : CoreId) (rd rs1 rs2 : Rg)
  /-- `MAX` (R406). Signed maximum. -/
  | maxS (c : CoreId) (rd rs1 rs2 : Rg)
  /-- `MINU` (R406). Unsigned minimum. -/
  | minu (c : CoreId) (rd rs1 rs2 : Rg)
  /-- `MAXU` (R406). Unsigned maximum. -/
  | maxu (c : CoreId) (rd rs1 rs2 : Rg)
  /-- `MUL` (R406). Low 64 bits of the product. -/
  | mul (c : CoreId) (rd rs1 rs2 : Rg)
  /-- `MULHIS` (R406). High 64 bits of the signed product. -/
  | mulhis (c : CoreId) (rd rs1 rs2 : Rg)
  /-- `MULHIU` (R406). High 64 bits of the unsigned product. -/
  | mulhiu (c : CoreId) (rd rs1 rs2 : Rg)
  /-- `QUOS` (R407). Signed quotient toward zero, saturating and setting DIVSAT. -/
  | quos (c : CoreId) (rd rs1 rs2 : Rg)
  /-- `QUOU` (R407). Unsigned quotient, saturating by zero. -/
  | quou (c : CoreId) (rd rs1 rs2 : Rg)
  /-- `MODS` (R407). Signed remainder with the dividend's sign; zero for a zero divisor. -/
  | mods (c : CoreId) (rd rs1 rs2 : Rg)
  /-- `MODU` (R407). Unsigned remainder; zero for a zero divisor. -/
  | modu (c : CoreId) (rd rs1 rs2 : Rg)
  /-- `CLZ` (R406). Count leading zeros. -/
  | clz (c : CoreId) (rd rs1 : Rg)
  /-- `CTZ` (R406). Count trailing zeros. -/
  | ctz (c : CoreId) (rd rs1 : Rg)
  /-- `POPC` (R406). Count set bits. -/
  | popc (c : CoreId) (rd rs1 : Rg)
  /-- `ADDI` (R408). Add a sign-extended immediate. -/
  | addi (c : CoreId) (rd rs1 : Rg) (imm : BitVec 14)
  /-- `ANDI` (R408). And with a zero-extended immediate. -/
  | andi (c : CoreId) (rd rs1 : Rg) (imm : BitVec 14)
  /-- `ORI` (R408). Or with a zero-extended immediate. -/
  | ori (c : CoreId) (rd rs1 : Rg) (imm : BitVec 14)
  /-- `XORI` (R408). Exclusive or with a zero-extended immediate. -/
  | xori (c : CoreId) (rd rs1 : Rg) (imm : BitVec 14)
  /-- `SHLLI` (R408). Logical shift left by an immediate. -/
  | shlli (c : CoreId) (rd rs1 : Rg) (sh : BitVec 6)
  /-- `SHRLI` (R408). Logical shift right by an immediate. -/
  | shrli (c : CoreId) (rd rs1 : Rg) (sh : BitVec 6)
  /-- `SHRAI` (R408). Arithmetic shift right by an immediate. -/
  | shrai (c : CoreId) (rd rs1 : Rg) (sh : BitVec 6)
  /-- `LTSI` (R408). Signed compare with an immediate. -/
  | ltsi (c : CoreId) (rd rs1 : Rg) (imm : BitVec 14)
  /-- `LTUI` (R408). Unsigned compare with an immediate. -/
  | ltui (c : CoreId) (rd rs1 : Rg) (imm : BitVec 14)
  /-- `LDHI` (R408). Load a sign-extended 19-bit immediate times 2^13. -/
  | ldhi (c : CoreId) (rd : Rg) (imm : BitVec 19)
  /-- `PCHI` (R408). As LDHI plus the address of the instruction. -/
  | pchi (c : CoreId) (rd : Rg) (imm : BitVec 19)
  /-- `JALR` (R409). Jump to a register plus offset, writing the link. -/
  | jalr (c : CoreId) (rd rs1 : Rg) (imm : BitVec 14)
  /-- `CVTIF` (R419). Convert a fixed-point int64 to binary32. -/
  | cvtif (c : CoreId) (rd rs1 : Rg) (f : BitVec 5)
  /-- `CVTFI` (R419). Convert binary32 to a saturated fixed-point int64. -/
  | cvtfi (c : CoreId) (rd rs1 : Rg) (f : BitVec 5)
  /-- `TCMP` (R420). Compare two Short Grid Times giving +1, 0 or -1. -/
  | tcmp (c : CoreId) (rd rs1 rs2 : Rg)
  /-- `TADD` (R420). Add a duration in 2^-32 s to a Short Grid Time. -/
  | tadd (c : CoreId) (rd rs1 rs2 : Rg)
  /-- `TADDNS` (R420). Add a duration in ns to a Short Grid Time. -/
  | taddns (c : CoreId) (rd rs1 rs2 : Rg)
  /-- `TADDUS` (R420). Add a duration in µs to a Short Grid Time. -/
  | taddus (c : CoreId) (rd rs1 rs2 : Rg)
  /-- `BZ` (R409). Branch if a scalar is zero. -/
  | bz (c : CoreId) (rs : Rg) (off : BitVec 20)
  /-- `BNZ` (R409). Branch if a scalar is not zero. -/
  | bnz (c : CoreId) (rs : Rg) (off : BitVec 20)
  /-- `BLTZ` (R409). Branch if a scalar is negative. -/
  | bltz (c : CoreId) (rs : Rg) (off : BitVec 20)
  /-- `BGEZ` (R409). Branch if a scalar is not negative. -/
  | bgez (c : CoreId) (rs : Rg) (off : BitVec 20)
  /-- `BP` (R409). Branch on ANY or ALL bits of a predicate, optionally negated. -/
  | bp (c : CoreId) (all neg : Bool) (p : Pr) (off : BitVec 20)
  /-- `JAL` (R409). Jump and link. -/
  | jal (c : CoreId) (rd : Rg) (off : BitVec 20)
  /-- `LD8S` (R411). Load a byte sign-extended. -/
  | ld8s (c : CoreId) (rt rb : Rg) (off : BitVec 12)
  /-- `LD16S` (R411). Load a halfword sign-extended. -/
  | ld16s (c : CoreId) (rt rb : Rg) (off : BitVec 12)
  /-- `LD32S` (R411). Load a word sign-extended. -/
  | ld32s (c : CoreId) (rt rb : Rg) (off : BitVec 12)
  /-- `LD64` (R411). Load a doubleword. -/
  | ld64 (c : CoreId) (rt rb : Rg) (off : BitVec 12)
  /-- `LD8U` (R411). Load a byte zero-extended. -/
  | ld8u (c : CoreId) (rt rb : Rg) (off : BitVec 12)
  /-- `LD16U` (R411). Load a halfword zero-extended. -/
  | ld16u (c : CoreId) (rt rb : Rg) (off : BitVec 12)
  /-- `LD32U` (R411). Load a word zero-extended. -/
  | ld32u (c : CoreId) (rt rb : Rg) (off : BitVec 12)
  /-- `ST8` (R411). Store a byte. -/
  | st8 (c : CoreId) (rt rb : Rg) (off : BitVec 12)
  /-- `ST16` (R411). Store a halfword. -/
  | st16 (c : CoreId) (rt rb : Rg) (off : BitVec 12)
  /-- `ST32` (R411). Store a word. -/
  | st32 (c : CoreId) (rt rb : Rg) (off : BitVec 12)
  /-- `ST64` (R411). Store a doubleword. -/
  | st64 (c : CoreId) (rt rb : Rg) (off : BitVec 12)
  /-- `VLD` (R411). Load 8 lanes, all present. -/
  | vld (c : CoreId) (vt rb : Rg) (off : BitVec 12)
  /-- `VST` (R411). Store 8 lanes without presence. -/
  | vst (c : CoreId) (vt rb : Rg) (off : BitVec 12)
  /-- `CADD` (R414). Complex add per lane. -/
  | cadd (c : CoreId) (vd va vb : Rg) (pg : Pr)
  /-- `CSUB` (R414). Complex subtract per lane. -/
  | csub (c : CoreId) (vd va vb : Rg) (pg : Pr)
  /-- `CMUL` (R414). Complex multiply per lane. -/
  | cmul (c : CoreId) (vd va vb : Rg) (pg : Pr)
  /-- `CMAC` (R414). Complex multiply-accumulate, not fused. -/
  | cmac (c : CoreId) (vd va vb : Rg) (pg : Pr)
  /-- `CCONJ` (R414). Complex conjugate. -/
  | cconj (c : CoreId) (vd va : Rg) (pg : Pr)
  /-- `CNEG` (R414). Complex negate. -/
  | cneg (c : CoreId) (vd va : Rg) (pg : Pr)
  /-- `CABS` (R414). Correctly rounded magnitude. -/
  | cabs (c : CoreId) (vd va : Rg) (pg : Pr)
  /-- `CARG` (R415). Correctly rounded argument in (-pi, pi]. -/
  | carg (c : CoreId) (vd va : Rg) (pg : Pr)
  /-- `CROT` (R415). Rotate by an angle. -/
  | crot (c : CoreId) (vd va vb : Rg) (pg : Pr)
  /-- `ADIFF` (R415). Wrapped angle difference. -/
  | adiff (c : CoreId) (vd va vb : Rg) (pg : Pr)
  /-- `FDEV` (R415). Frequency deviation from two phasors and a rate. -/
  | fdev (c : CoreId) (vd va vb : Rg) (pg : Pr)
  /-- `RDIV` (R414). Real division. -/
  | rdiv (c : CoreId) (vd va vb : Rg) (pg : Pr)
  /-- `RMIN` (R414). Real minimum. -/
  | rmin (c : CoreId) (vd va vb : Rg) (pg : Pr)
  /-- `RMAX` (R414). Real maximum. -/
  | rmax (c : CoreId) (vd va vb : Rg) (pg : Pr)
  /-- `VCVTIF` (R414). Lane int32 fixed-point to binary32. -/
  | vcvtif (c : CoreId) (vd va : Rg) (f : BitVec 5) (pg : Pr)
  /-- `VCVTFI` (R414). Lane binary32 to saturated int32 fixed-point. -/
  | vcvtfi (c : CoreId) (vd va : Rg) (f : BitVec 5) (pg : Pr)
  /-- `VCLT` (R414). Predicate of lane less-than. -/
  | vclt (c : CoreId) (pd : Pr) (va vb : Rg) (pg : Pr)
  /-- `VCLE` (R414). Predicate of lane less-or-equal. -/
  | vcle (c : CoreId) (pd : Pr) (va vb : Rg) (pg : Pr)
  /-- `VCEQ` (R414). Predicate of lane equality. -/
  | vceq (c : CoreId) (pd : Pr) (va vb : Rg) (pg : Pr)
  /-- `VMOV` (R417). Move lanes with presence. -/
  | vmov (c : CoreId) (vd va : Rg) (pg : Pr)
  /-- `VBCAST` (R417). Broadcast a scalar to present lanes. -/
  | vbcast (c : CoreId) (vd sa : Rg) (pg : Pr)
  /-- `VINS` (R417). Insert a scalar into one lane. -/
  | vins (c : CoreId) (vd sa : Rg) (lane : BitVec 3)
  /-- `VEXT` (R417). Extract one lane and its presence. -/
  | vext (c : CoreId) (sd va : Rg) (lane : BitVec 3) (pg : Pr)
  /-- `PGETP` (R417). Predicate from lane presence. -/
  | pgetp (c : CoreId) (pd : Pr) (va : Rg) (pg : Pr)
  /-- `PSETP` (R417). Set lane presence from a predicate. -/
  | psetp (c : CoreId) (vd : Rg) (pa : Pr) (pg : Pr)
  /-- `PAND` (R417). Predicate and. -/
  | pand (c : CoreId) (pd pa pb : Pr)
  /-- `POR` (R417). Predicate or. -/
  | por (c : CoreId) (pd pa pb : Pr)
  /-- `PXOR` (R417). Predicate exclusive or. -/
  | pxor (c : CoreId) (pd pa pb : Pr)
  /-- `PANDN` (R417). Predicate and-not. -/
  | pandn (c : CoreId) (pd pa pb : Pr)
  /-- `PMOVS` (R417). Predicate to scalar. -/
  | pmovs (c : CoreId) (sd : Rg) (pa : Pr)
  /-- `PMOVP` (R417). Scalar to predicate. -/
  | pmovp (c : CoreId) (pd : Pr) (sa : Rg)
  /-- `CRSUM` (R418). Complex sum reduction over present lanes, with count. -/
  | crsum (c : CoreId) (vd va sb : Rg) (pg : Pr)
  /-- `RRMAX` (R418). Real maximum reduction, with count. -/
  | rrmax (c : CoreId) (vd va sb : Rg) (pg : Pr)
  /-- `RRMIN` (R418). Real minimum reduction, with count. -/
  | rrmin (c : CoreId) (vd va sb : Rg) (pg : Pr)
  /-- `SETLD` (R421). Load lanes from the bound Set through its view, with presence. -/
  | setld (c : CoreId) (vd sa : Rg) (pg : Pr)
  /-- `SETQ` (R422). Read a stream's slot summary from the bound Set. -/
  | setq (c : CoreId) (sd sa : Rg)
  /-- `QPUSH` (R425). Push a 32-byte entry to a queue, with status result. -/
  | qpush (c : CoreId) (rd rs : Rg) (n : QSel) (first last : Bool)
  /-- `QPOP` (R425). Pop the head entry of a queue, with status result. -/
  | qpop (c : CoreId) (rd rs : Rg) (n : QSel)
  /-- `QPEEK` (R425). Copy the head entry of a queue without removing it. -/
  | qpeek (c : CoreId) (rd rs : Rg) (n : QSel)
  /-- `DBELL` (R427). Post a value to a mailbox and set a doorbell bit. -/
  | dbell (c : CoreId) (rd rs : Rg) (n : Byte) (b : BitVec 5)
  /-- `WAITEV_D` (R428). Wait for an unmasked doorbell bit of the core's mailbox. -/
  | waitevD (c : CoreId) (rd rs : Rg)
  /-- `WAITEV_Q` (R428). Wait for a queue to become non-empty. -/
  | waitevQ (c : CoreId) (rd rs : Rg) (n : Byte)
  /-- `WAITEV_EVENT` (R428). The awaited event reaches a waiting core and WAITEV completes with result 0. -/
  | waitevEvent (c : CoreId)
  /-- `WAITEV_TIMEOUT` (R428). The WAITEV timeout expires and it completes with result 2. -/
  | waitevTimeout (c : CoreId) (dt : Nat)
  /-- `CWR` (R429). Read a control word. -/
  | cwr (c : CoreId) (rd : Rg) (cw : BitVec 10)
  /-- `CWW` (R429). Write a control word; a SETBASE write binds a Set record. -/
  | cww (c : CoreId) (rs1 : Rg) (cw : BitVec 10)
  /-- `SYSCALL` (R430). SYSCALL with a nonzero code, or at S, raises the SYSCALL exception. -/
  | syscall (c : CoreId) (code : BitVec 14)
  /-- `ERET` (R387). Return from exception, restoring PC and STATUS or tail-chaining. -/
  | eret (c : CoreId)
  /-- `MODEREQ` (R431). A Supervisor requests a mode transition and receives the RESULT code. -/
  | modereq (c : CoreId) (rd rs1 : Rg)
  /-- `FENCE_MEM` (R392). Order loads and stores. -/
  | fenceMem (c : CoreId)
  /-- `FENCE_ST` (R392). Order stores. -/
  | fenceSt (c : CoreId)
  /-- `FENCE_LD` (R392). Order loads. -/
  | fenceLd (c : CoreId)
  /-- `FENCE_CTL` (R392). Order control register accesses before all later accesses. -/
  | fenceCtl (c : CoreId)
  /-- `FENCE_ALL` (R392). Order every access. -/
  | fenceAll (c : CoreId)
  /-- `FENCE_EXEC` (R392). Order every access and resynchronise instruction fetch. -/
  | fenceExec (c : CoreId)
  /-- `TASK_SUBMIT` (R438). The Roundabout takes a descriptor from a submission queue when credit and room allow and makes the task ready. -/
  | taskSubmit
  /-- `TASK_TRIGGER` (R437). The Roundabout takes a pending trigger from a trigger queue and submits the template descriptor. -/
  | taskTrigger
  /-- `TASK_DISPATCH` (R441). The Roundabout gives a ready head-of-key task to an idle eligible core. -/
  | taskDispatch
  /-- `AFFINITY_WAIT_EXPIRE` (R441). A head task's affinity wait expires and it may go to the lowest idle eligible core. -/
  | affinityWaitExpire (dt : Nat)
  /-- `TASK_CANCEL` (R442). A write of RBT_CANCEL removes ready tasks of a key and matching tag. -/
  | taskCancel (q : Req) (v : Word)
  /-- `QUEUE_FLUSH` (R449). RBT_QCMD OP flush discards entries to the next packet boundary and places a gap marker. -/
  | queueFlush (q : Req) (n : Byte)
  /-- `QUEUE_RESET` (R448). RBT_QCMD OP reset empties a queue, leaving a gap marker. -/
  | queueReset (q : Req) (n : Byte)
  /-- `QUEUE_RESET_DONE` (R448). A queue reset completes and operations are accepted again. -/
  | queueResetDone (n : Byte)
  /-- `HOST_QUEUE_PUSH` (R461). RBT_HQ_CMD OP push pushes the host data registers to a queue. -/
  | hostQueuePush (n : Byte) (first last : Bool)
  /-- `HOST_QUEUE_POP` (R461). RBT_HQ_CMD OP pop pops a queue entry into the host data registers. -/
  | hostQueuePop (n : Byte)
  /-- `HOST_QUEUE_PEEK` (R461). RBT_HQ_CMD OP peek copies the head entry into the host data registers. -/
  | hostQueuePeek (n : Byte)
  /-- `HOST_MAILBOX_POST` (R463). A write of MBX_HOST_CMD posts the host value to a mailbox. -/
  | hostMailboxPost (m b : BitVec 5)
  /-- `MAILBOX_POP` (R455). A write of MBX_RX_POP by the reader removes the oldest message and may raise empty status. -/
  | mailboxPop (q : Req) (m : Mailbox) (v : Word)
  /-- `LOCK_ACQUIRE` (R458). A read of MBX_LOCKn acquires a free lock or returns BUSY and the owner. -/
  | lockAcquire (q : Req) (n : BitVec 6)
  /-- `LOCK_RELEASE` (R459). A write of zero by the owner releases a lock. -/
  | lockRelease (q : Req) (n : BitVec 6) (v : Word)
  /-- `LOCK_FORCE` (R459). A write of MBX_LOCK_FORCE by the recovery Supervisor releases any lock. -/
  | lockForce (q : Req) (v : Word)
  /-- `SOURCE_INPUT` (R468). An interrupt source input changes and PENDING is updated by its sense. -/
  | sourceInput (id : IcRef)
  /-- `MODERATION_RELEASE` (R472). A held moderated source is released by count, time or its core waiting. -/
  | moderationRelease (id : IcRef) (dt : Nat)
  /-- `INTERRUPT_CLAIM` (R473). A read of IC_CLAIM by its core claims the winning eligible source. -/
  | interruptClaim (q : Req) (c : CoreId)
  /-- `INTERRUPT_COMPLETE` (R474). A write of IC_COMPLETE clears a source's ACTIVE and recomputes running priority. -/
  | interruptComplete (q : Req) (c : CoreId) (v : Word)
  /-- `WAKE_SOURCE_FIRED` (R481). An armed wake-watcher slot reaches COUNT_N events, is recorded, and in M11 starts a wake. -/
  | wakeSourceFired (slot : BitVec 4)
  /-- `XNG_FRAME` (R487). A Crossing frame is received, acknowledged in sequence or discarded. -/
  | xngFrame (seq ack : Nat) (good : Bool) (msgs : List (Nat × List Byte))
  /-- `XNG_RETRANSMIT` (R487). The sender retransmits from the first unacknowledged frame. -/
  | xngRetransmit
  /-- `HEARTBEAT_SEND` (R490). Every 1 ms a heartbeat is sent over the Crossing and the heartbeat port. -/
  | heartbeatSend (dt : Nat)
  /-- `HEARTBEAT_RX` (R490). A heartbeat from the peer arrives on a path. -/
  | heartbeatRx (xpath : Bool)
  /-- `PATH_DOWN` (R491). A path goes down after 3.1 ms without a heartbeat. -/
  | pathDown (dt : Nat)
  /-- `DUTY_INPUT_CHANGE` (R489). A peer DUTY input changes state. -/
  | dutyInputChange (a b : Bool)
  /-- `PAIR_EVALUATE` (R494). Every 100 µs the unit evaluates paths and peer DUTY inputs and acts by the first matching row. -/
  | pairEvaluate (dt : Nat)
  /-- `JOURNAL_APPLY` (R497). The shadow applies the next received journal entry in ESEQ order. -/
  | journalApply (dt : Nat)
  /-- `JOIN_START` (R501). A join begins: digests compared, join mark named and image and journal sent. -/
  | joinStart
  /-- `JOIN_IMAGE_LOADED` (R501). The join image is loaded and the shadow enters CATCHING_UP. -/
  | joinImageLoaded (img : Machine.JoinImage)
  /-- `JOIN_IN_STEP` (R501). Lag stays within 2 ms for 1 s and the shadow enters IN_STEP. -/
  | joinInStep (dt : Nat)
  /-- `JOIN_TIMEOUT` (R501). A join not IN_STEP within JOIN_S fails and sets JOIN_FAIL. -/
  | joinTimeout (dt : Nat)
  /-- `JOIN_RETRY` (R501). 10 s after a failed join or divergence the join is started again. -/
  | joinRetry (dt : Nat)
  /-- `DIGEST_RX` (R503). A peer digest is matched against the unit's own; a mismatch makes the shadow DIVERGED. -/
  | digestRx
  /-- `DIGEST_TIMEOUT` (R503). An item not matched within DIGEST_MS is counted timed out and reported. -/
  | digestTimeout (dt : Nat)
  /-- `OUTPUT_MARK_RX` (R505). The shadow records a received output mark for a target or publish stream. -/
  | outputMarkRx
  /-- `TAKEOVER_APPLIED` (R506). Every received entry is applied, own-port ingest starts, a takeover mark is written and DUTY asserted. -/
  | takeoverApplied
  /-- `TAKEOVER_OUTPUTS` (R506). Outputs are driven and held frames after the marks are sent. -/
  | takeoverOutputs
  /-- `REVERT_REQUEST` (R509). The home unit IN_STEP for REVERT_S asks for duty and a handover time is announced. -/
  | revertRequest (dt : Nat)
  /-- `HANDOVER_TIME` (R509). At the first mark at or after tH the holder writes a handover mark, holds outputs and drops duty. -/
  | handoverTime (dt : Nat)
  /-- `GUARD_EXPIRE` (R510). GUARD_MS after the decision the home unit in M5 takes duty by R508. -/
  | guardExpire (dt : Nat)
  /-- `PEER_POST` (R511). A write of XNG_POST_CMD posts a value to the peer's mailbox 23. -/
  | peerPost (q : Req) (bit : BitVec 5)
  /-- `PEER_POST_RX` (R511). A peer post arrives and is delivered to mailbox 23 with sender ID 25. -/
  | peerPostRx
  /-- `FAULT_REPORT` (R518). A detected fault reaches the fault collector, is logged and contained by its class. -/
  | faultReport (ext : Option (Byte × Nat × Byte))
  /-- `WATCHDOG_KICK` (R519). An S-level write of ERR_KICK restarts the writer's watchdog. -/
  | watchdogKick (q : Req) (v : Word)
  /-- `WATCHDOG_WARNING` (R519). At half PERIOD_US the core watchdog raises private source 3. -/
  | watchdogWarning (c : CoreId) (dt : Nat)
  /-- `WATCHDOG_EXPIRE` (R519). At PERIOD_US the core watchdog reports fault 0x10. -/
  | watchdogExpire (c : CoreId) (dt : Nat)
  /-- `SCRUB` (R520). The scrubber reads a word, correcting or poisoning it. -/
  | scrub (addr : Nat) (e : Option FlitErr)
  /-- `STREAM_RELOAD_DONE` (R521). A contained stream's entries are reloaded from MRAM and the stream released. -/
  | streamReloadDone (k : BitVec 14)
  /-- `FAULT_LOG_POP` (R522). A write of ERR_LOG_POP removes the oldest fault record. -/
  | faultLogPop (q : Req) (v : Word)
  /-- `EPOCH_BREAK` (R525). ERR_RECOVER ACTION epoch break releases and closes open Sets, increments EPOCH and restarts Groves. -/
  | epochBreak (q : Req) (key : BitVec 16)
  /-- `RECOVERY_EXIT` (R528). ERR_RECOVER ACTION exit leaves M9 for the target mode and resumes acceptance. -/
  | recoveryExit (q : Req) (key : BitVec 16)
  /-- `RSV_KICK` (R529). A write of ERR_RSV_KICK by the holder restarts the recovery role watchdog. -/
  | rsvKick (q : Req) (v : Word)
  /-- `RSV_TIMEOUT` (R529). A missed kick or RECOVERY_MS overrun records 0x1A and passes the recovery role. -/
  | rsvTimeout (dt : Nat)
  /-- `TASK_ABORT` (R526). An S-level write of ERR_ABORT ends the writer's task as aborted. -/
  | taskAbort (q : Req) (v : Word)
  /-- `CORE_UP` (R526). A write of ERR_CORE_UP brings a reset core back from named out. -/
  | coreUp (q : Req) (v : Word)
  /-- `LAST_RESORT_RESET` (R530). After LR_HOLD_MS, or at once without a Pair, the Understory makes a power-on reset. -/
  | lastResortReset (dt : Nat)
  /-- `KEEPER_REQUEST` (R537). The Keeper takes the next request block from mailbox 20 and copies it. -/
  | keeperRequest
  /-- `STATUS` (R540). Keeper command 0x01 writes serial, SEC_STATUS, slot bitmap and origins. -/
  | status
  /-- `SELF_TEST` (R566). Keeper command 0x02 runs the power-up tests. -/
  | selfTest (ok : Bool)
  /-- `ATTEST` (R558). Keeper command 0x03 writes a signed attestation statement. -/
  | attest
  /-- `EXTEND` (R554). Keeper command 0x04 extends MR8 to MR15. -/
  | extend
  /-- `RING_READ` (R590). Keeper command 0x05 copies Ring Log records from a sequence number. -/
  | ringRead
  /-- `HASH` (R540). Keeper command 0x06 computes SHA-256 of the input. -/
  | hash
  /-- `VERIFY` (R540). Keeper command 0x07 verifies an ECDSA P-256 signature. -/
  | verify
  /-- `GEN_IDENTITY` (R542). Keeper command 0x10 generates slots 0 and 15. -/
  | genIdentity
  /-- `INSTALL_OWNER` (R542). Keeper command 0x11 writes the owner public key to slot 2. -/
  | installOwner
  /-- `PROVISION_DONE` (R540). Keeper command 0x12 takes the unit from M2 to M3. -/
  | provisionDone
  /-- `LOAD_CLEAR` (R551). Keeper command 0x20 loads a key in the clear. -/
  | loadClear
  /-- `LOAD_WRAPPED` (R550). Keeper command 0x21 loads a wrapped key into a slot. -/
  | loadWrapped
  /-- `ERASE_SLOT` (R549). Keeper command 0x22 zeroizes one slot. -/
  | eraseSlot
  /-- `INSTALL_SAK` (R552). Keeper command 0x23 installs a wrapped SAK into a port. -/
  | installSak
  /-- `REMOVE_SAK` (R540). Keeper command 0x24 zeroizes a port association. -/
  | removeSak
  /-- `LOAD_RSV` (R552). Keeper command 0x25 loads a wrapped R-SV key into the key table. -/
  | loadRsv
  /-- `REMOVE_RSV` (R540). Keeper command 0x26 zeroizes an R-SV key-table entry. -/
  | removeRsv
  /-- `SIGN` (R540). Keeper command 0x27 signs a digest with a service key. -/
  | sign
  /-- `MAC` (R540). Keeper command 0x28 computes HMAC-SHA256 with a service key. -/
  | mac
  /-- `LOAD_IMAGE` (R555). Keeper command 0x30 verifies an image and writes it to a flash image slot. -/
  | loadImage
  /-- `SET_FLOOR` (R555). Keeper command 0x31 raises the IMAGE_SEQ floor of a target. -/
  | setFloor
  /-- `COMMIT_CONFIG` (R557). Keeper command 0x32 commits the configuration to MRAM and extends MR4. -/
  | commitConfig
  /-- `SECURITY_POLICY` (R561). Keeper command 0x33 sets tamper grades, temperature limits and re-mask period. -/
  | securityPolicy
  /-- `MODE_AUTH` (R541). Keeper command 0x40 authorises a mode request to M3 or M11. -/
  | modeAuth
  /-- `MODE_AUTH_EXPIRE` (R541). A held MODE_AUTH lapses after 10 s unused. -/
  | modeAuthExpire (dt : Nat)
  /-- `ADMIT_STEP` (R164). Keeper command 0x41 sets TIM_STATUS.STEP_ARMED. -/
  | admitStep
  /-- `RING_CLEAR` (R592). Keeper command 0x42 starts a Ring Log clear, or refuses it if the head differs. -/
  | ringClear
  /-- `RING_CLEAR_DONE` (R592). The erase completes, the clear record is written at SEQ 0 and the intent cleared. -/
  | ringClearDone
  /-- `ZEROIZE` (R563). Keeper command 0x43 zeroizes and makes a commanded unit reset. -/
  | zeroize
  /-- `REMASK` (R544). Each SEC_REMASK period the Keeper re-masks the shares of each occupied slot. -/
  | remask (dt : Nat)
  /-- `TAMPER_FIRE` (R560). A tamper sensor fires, is latched and recorded, and its grade acts by mode. -/
  | tamperFire (n : Fin 7)
  /-- `BACKUP_SWITCH` (R573). The Understory switches between mains standby, BAT and CAP by availability and floors. -/
  | backupSwitch (mains : Bool) (bat cap : Nat)
  /-- `BACKUP_MEASURE` (R594). Every 10 s the BAT and CAP voltages are measured. -/
  | backupMeasure (bat cap dt : Nat)
  /-- `FIRST_BAT_CLEAR` (R574). A write of UND_FIRST_BAT_CLR with the key clears the first-BAT stamp and seconds. -/
  | firstBatClear (q : Req) (v : Word)
  /-- `CHARGE_LEVEL` (R575). CAP reaching CHG_V stops the charger, and falling 100 mV below resumes it. -/
  | chargeLevel (cap : Nat)
  /-- `CALENDAR_TICK` (R577). The calendar second rolls over, advancing date, weekday and possibly the range rollover and alarm. -/
  | calendarTick (dt : Nat)
  /-- `CALENDAR_READ` (R578). A read of UND_RTC_SUBSEC latches the calendar for the requester. -/
  | calendarRead (q : Req)
  /-- `CALENDAR_COMMIT` (R579). A write of UND_RTC_SET_SEC commits the staged calendar, or refuses it whole. -/
  | calendarCommit (q : Req) (v : Word)
  /-- `PERIODIC_WAKE` (R585). The periodic wake fires every 2^(EXP-10) s. -/
  | periodicWake (dt : Nat)
  /-- `RING_LOG_WRITE` (R589). The record at the head of the pending buffer is written to MRAM. -/
  | ringLogWrite
  /-- `RING_LOG_COPY` (R590). A write of UND_RL_INDEX copies a place into UND_RL_DATA. -/
  | ringLogCopy (q : Req) (v : Word)
  /-- `RING_LOG_APPEND` (R591). A write of UND_RL_APP_CMD appends a program record. -/
  | ringLogAppend (q : Req) (v : Word)
  /-- `PERF_FREEZE` (R600). A write of PRF_CTRL.FREEZE stops or resumes counting and holds block views. -/
  | perfFreeze (q : Req) (on : Bool)
  /-- `PERF_SNAP` (R600). A write of PRF_CTRL.SNAP copies counters to SNAP registers and holds block views. -/
  | perfSnap (q : Req)
  /-- `PERF_RELEASE` (R600). A write of PRF_CTRL.RELEASE releases held block views. -/
  | perfRelease (q : Req)
  /-- `PERF_COUNTER_PRESET` (R598). A write of PRF_CNT_HI commits a preset count. -/
  | perfCounterPreset (q : Req) (c : Option CoreId) (k : BitVec 5) (v : Word)
  /-- `HOST_REQUEST` (R609). A host memory request through BAR0 is carried out as 32-bit accesses or refused. -/
  | hostRequest (write : Bool) (off n : Nat) (partialBe : Bool) (data : List Word)
  /-- `HOST_RESET` (R611). A Function Level Reset, hot reset or link-down resets the endpoint's host-facing state. -/
  | hostReset (down : Bool)
  /-- `HOST_WAKE` (R613). A write of HST_WAKE with the key in M11 raises wake code 10. -/
  | hostWake (v : Word)
  /-- `DP_DATA_ACCESS` (R616). An access to HST_DP_DATA or HST_DP_FIFO moves one word of the data port. -/
  | dpDataAccess (q : Req) (fifo : Option (BitVec 10)) (write : Bool) (v : Word)
  /-- `DP_READ_BURST` (R616). A write of HST_DP_BURST with DIR read starts a read burst. -/
  | dpReadBurst (q : Req) (count : BitVec 17) (irq : Bool)
  /-- `DP_WRITE_BURST` (R616). A write of HST_DP_BURST with DIR write starts a write burst. -/
  | dpWriteBurst (q : Req) (count : BitVec 17) (irq : Bool)
  /-- `DP_BURST_CANCEL` (R619). A write of HST_DP_BURST with COUNT zero ends any burst. -/
  | dpBurstCancel (q : Req)
  /-- `DP_BURST_DONE` (R616). A burst ends and BUSY falls, setting DP_DONE if IRQ was set. -/
  | dpBurstDone (k : Fin 5)
  /-- `FLASH_PAGE_PROGRAMMED` (R617). A 16 KiB flash page finishes programming and is durable. -/
  | flashPageProgrammed (k : Fin 5)
  /-- `DP_ERASE` (R618). A write of HST_DP_ERASE starts erasing a 4 MiB archive block. -/
  | dpErase (q : Req) (block : BitVec 17)
  /-- `DP_ERASE_DONE` (R618). The archive block erase completes and BUSY falls. -/
  | dpEraseDone (k : Fin 5)
  /-- `BOOT_TIMEWAIT_EXPIRE` (R62). SYS_BOOT_TIMEWAIT expires without servo lock, so the Glade is started and the unit may leave M1 Boot for M4 Service with unlocked time quality. -/
  | bootTimewaitExpire (dt : Nat)
  /-- `PAIR_BOOT_WAIT_EXPIRE` (R493). BOOT_WAIT_S passes after t7 with no heartbeat on either path, and the paired unit takes M4 Service alone. -/
  | pairBootWaitExpire (dt : Nat)
  /-- `CROSSING_LINK_CHANGE` (R491). The QSFP28 Crossing link comes up or goes down, changing XNG_STATUS.LINK and taking the Crossing path down while the link is down. -/
  | crossingLinkChange (up : Bool)
  /-- `PEER_POST_RESULT` (R511). The result of a peer post returns over the Crossing, clearing XNG_POST_RESULT.BUSY and writing its RESULT. -/
  | peerPostResult
  /-- `HOST_LINK_UP` (R623). The PCIe link trains, setting HST_STATUS.LINK, WIDTH and SPEED and setting HST_INT_STATUS.LINK. -/
  | hostLinkUp (width gen : Nat)
  /-- `TAMPER_SENSOR_CLEAR` (R560). A tamper sensor stops firing, so its SEC_TAMPER_LATCH.NOW bit clears and the condition for exit from M10 Lockdown can hold. -/
  | tamperSensorClear (n : Fin 7)
  deriving DecidableEq, Repr

end Sys2Proof
end

