-- ==== Sys2Proof/Machine/State.lean ====
section
/-!
DEFINITION. The state of the unit: every register, table, counter, queue and engine state the spec names, as plain data.
Sparse parts are lists of (key, value) pairs in one canonical form (keys strictly rising, no value equal to what an
unlisted key reads as), so that equal states are equal data. The journalled engines' part stands in Parts.
-/

namespace Sys2Proof.Machine

/-- The twelve modes (R54). -/
inductive Mode where
  | keep | boot | provision | commission | service | shadow
  | takeover | degraded | test | recovery | lockdown | dormant
  deriving DecidableEq, Repr

/-- A mode transition that has begun and has not yet reached its entry (R60). -/
structure Trans where
  /-- the mode to enter -/
  target : Mode
  /-- made by a request of R59, whose result is still in progress -/
  requested : Bool
  /-- the cause written to the Ring Log record (R61) -/
  cause : Nat
  deriving DecidableEq, Repr

/-- The Stream Engine PLL (R34). -/
inductive Pll where
  | running
  | stopped
  | restarting (since : Nat)
  deriving DecidableEq, Repr

/-- Mode control and the power sequence (chapter 02). -/
structure Sys where
  mode : Mode
  prevMode : Mode
  /-- transition in progress -/
  trans : Option Trans
  duty : Bool
  isolated : Bool
  /-- last cold-start step completed, t0 to t7 (R63) -/
  bootStep : Nat
  /-- this Boot began with a wake from M11 (R64) -/
  bootFromWake : Bool
  /-- clk of the end of t7 -/
  t7At : Option Nat
  /-- the Glade has been started under R62 since the unit reset -/
  gladeUp : Bool
  /-- SYS_BOOT_TIMEWAIT has expired without lock (R62); BOOT_WAIT_S has passed without a heartbeat (R493) -/
  timeWaitUp : Bool
  pairWaitUp : Bool
  /-- clk of the latched power-fail warning (R65) -/
  warnAt : Option Nat
  /-- step 6 of R65 done: outputs safe, engines and cores stopped -/
  coresOff : Bool
  /-- main rails present (power-good) -/
  powerGood : Bool
  /-- mode before M9 (R57) -/
  preRecovery : Mode
  pll : Pll
  /-- clk at which the PLL last came to run -/
  pllUpAt : Nat
  /-- clk at which the test-session watchdog was last started (R75) -/
  testWdogAt : Nat
  /-- injection descriptor held for its T_AT (R73) -/
  injHeld : Option Entry
  /-- entry addresses of the images loaded: 0 Stream Engines, 1 Supervisor Cores, 2 firmware (R397) -/
  entries : SMap DWord
  /-- 60 Hz nominal frequency, else 50 Hz (R6) -/
  nominal60 : Bool
  deriving DecidableEq, Repr

/-- One lane of a vector register: re, im and its presence bit (R371, R372). -/
structure Lane where
  re : Word
  im : Word
  present : Bool
  deriving DecidableEq, Repr

/-- What a core is doing. -/
inductive CoreRun where
  /-- held in reset, or power gated -/
  | off
  /-- executing instructions -/
  | run
  /-- in WAIT, with no task -/
  | wait
  /-- in WAITEV.D since `t0`, with a timeout in µs (0: none), the register that takes the result and the word of the
  instruction -/
  | waitD (t0 timeout : Nat) (rd : Rg) (word : Word)
  /-- in WAITEV.Q on a queue -/
  | waitQ (n : Nat) (t0 timeout : Nat) (rd : Rg) (word : Word)
  /-- stopped by a double fault (R388) -/
  | halted
  deriving DecidableEq, Repr

/-- A task descriptor the Roundabout has taken (R435). -/
structure Task where
  handler : Nat
  arg : DWord
  nokey : Bool
  key : Nat
  pref : Nat
  cls : Nat
  prio : Nat
  tag : Nat
  /-- made ready from a journal entry up to this ESEQ (R500) -/
  eseq : Nat
  /-- clk at which the task came to the head of its key -/
  headAt : Option Nat
  /-- DET of its class when it was dispatched (R461) -/
  det : Bool
  deriving DecidableEq, Repr

/-- One Sapor core (R371, R380). Register files are sparse with default 0, absent and 0. -/
structure Core where
  run : CoreRun
  pc : DWord
  s : SMap DWord
  v : SMap Lane
  p : SMap Byte
  status : Word
  estatus : Word
  epc : DWord
  cause : Word
  eval : DWord
  evec : DWord
  scratch0 : DWord
  scratch1 : DWord
  epoch : Word
  ttag : DWord
  setbase : DWord
  setctx : Word
  /-- a Set is bound through SETBASE: its Grove and SETSEQ place in the ring (R378) -/
  bound : Bool
  taskarg : DWord
  taskkey : Word
  fflags : Word
  region : SMap DWord
  /-- the task running on the core -/
  task : Option Task
  /-- a task given to the core and not yet begun (R441) -/
  given : Option Task
  /-- clk at which the core left reset (CLK counts from it) -/
  upAt : Nat
  /-- clk at which the core last came to WAIT (R34) -/
  waitAt : Nat
  /-- clk of the last watchdog kick (R519) -/
  kickAt : Nat
  /-- watchdog warning raised, or expired -/
  wdogWarned : Bool
  wdogExpired : Bool
  /-- corrected ECC error in the core's caches, private source 4 (R466) -/
  eccCorrected : Bool
  /-- selected instructions since S_EN was set or PERIOD written (R602) -/
  sampleRun : Nat
  deriving DecidableEq, Repr

/-- A serial key's state (R441, R461). -/
structure KeyState where
  running : Bool
  /-- core that last ran the key; 0xFF for none -/
  last : Nat
  deriving DecidableEq, Repr

/-- A message held in a mailbox (R454). -/
structure Msg where
  val : DWord
  sender : Nat
  bit : Nat
  deriving DecidableEq, Repr

/-- A mailbox: messages oldest first, and who posted since it was last empty (R454, R456). -/
structure Mbox where
  msgs : List Msg
  posters : List Nat
  deriving DecidableEq, Repr

/-- The Roundabout, queues, mailboxes and locks (chapter 15). -/
structure Rbt where
  queues : SMap Queue
  /-- ready tasks, in the order made ready -/
  ready : List Task
  keys : SMap KeyState
  /-- queue number after which the next round-robin take starts -/
  rr : Nat
  boxes : SMap Mbox
  /-- owner of each held lock, plus one (0: free) -/
  locks : SMap Nat
  deriving DecidableEq, Repr

/-- An interrupt source's state beside its registers (R468, R472). -/
structure Src where
  pending : Bool
  active : Bool
  held : Bool
  input : Bool
  /-- core on which the source is active -/
  activeOn : Nat
  /-- events held, and clk of the first -/
  events : Nat
  since : Nat
  deriving DecidableEq, Repr

/-- A digest of an item, own or the peer's (R502). -/
structure DigestRec where
  kind : Nat
  idx : Nat
  seq : Nat
  digest : BitVec 128
  /-- clk at which it was made or received -/
  clk : Nat
  deriving DecidableEq, Repr

/-- What the peer's last heartbeat carried (R490). -/
structure HbInfo where
  unitId : Nat
  seq : Nat
  mode : Nat
  state : Nat
  duty : Bool
  home : Bool
  releasing : Bool
  epoch : Nat
  sent : Nat
  applied : Nat
  cfg : Nat
  deriving DecidableEq, Repr

/-- The Crossing and the Pair (chapter 17). -/
structure Xng where
  /-- ESEQ of the last journal entry made or applied (R495) -/
  eseq : Nat
  /-- own digests that await the peer's -/
  own : List DigestRec
  /-- peer's digests that await the unit's own -/
  peer : List DigestRec
  /-- link sequence numbers last sent and last received in order; messages sent and not acknowledged: number, kind, payload
  (R487) -/
  txSeq : Nat
  rxSeq : Nat
  unacked : List (Nat × Nat × List Byte)
  /-- messages received and not yet taken: kind and payload; journal entries received and not yet applied -/
  msgs : List (Nat × List Byte)
  rx : List (List Byte)
  /-- heartbeats passed by the parser and not yet taken (R113 rule 3) -/
  hbIn : List (List Byte)
  /-- steps ts and to of R506 done in this takeover -/
  tsDone : Bool
  toDone : Bool
  /-- the peer's last heartbeat, and clk of the last on the Crossing and on the data path (R490, R491) -/
  hb : Option HbInfo
  hbX : Option Nat
  hbD : Option Nat
  /-- heartbeats sent since the unit reset, and clk of the last; transmit stamp of the last one sent on the data path (R94) -/
  hbSeq : Nat
  hbAt : Nat
  hbStamp : Nat
  /-- last row of R494 acted on; clk of the last report of row 3; clk of the decision of R510 -/
  row : Nat
  row3At : Option Nat
  guardAt : Option Nat
  /-- duty is being given up under R531; the recovery is one of R508 -/
  releasing : Bool
  via508 : Bool
  /-- a join is in progress since; started again at; since when lag is within 2 ms; clk of the last entry to IN_STEP or
  Pair fault; divergences, newest first -/
  joinAt : Option Nat
  retryAt : Option Nat
  lagOkAt : Option Nat
  inStepAt : Nat
  divs : List Nat
  /-- a shadow has asked for the join image (R501): the next mark is the join mark -/
  joinWant : Bool
  /-- the image taken at the join mark, and the carry entries not yet copied into it (R499, R500) -/
  cut : Option (JoinImage × List Nat)
  /-- handover time announced, and the mode the holder takes then (R509) -/
  handover : Option (Nat × Mode)
  deriving DecidableEq, Repr

/-- The interrupt controller (chapter 16). -/
structure Ic where
  srcs : SMap Src
  /-- claim ID last claimed by each core; default 0x3FF -/
  last : SMap Nat
  deriving DecidableEq, Repr

/-- A data port context (R614 to R621). -/
structure DpCtx where
  addr : Nat
  space1 : Bool
  busy : Bool
  dirWrite : Bool
  irq : Bool
  left : Nat
  error : Nat
  /-- words accepted and not yet committed, oldest first -/
  buf : List Word
  /-- words read ahead, oldest first -/
  ahead : List Word
  /-- erase running on this block number -/
  erasing : Option Nat
  /-- flash page being programmed -/
  page : Option Nat
  deriving DecidableEq, Repr

/-- The host endpoint (chapter 22). -/
structure Hst where
  ctx : SMap DpCtx
  /-- flash bytes other than 0xFF -/
  flash : SMap Byte
  /-- flash pages programmed since their erase block was last erased -/
  programmed : SMap Bool
  /-- images in the flash image area, by 2 x TARGET, plus 1 for the alternate slot (R615) -/
  images : SMap (List Byte)
  /-- targets whose alternate slot the next Boot tries first: a LOAD_IMAGE wrote it last (R555) -/
  altFirst : SMap Bool
  /-- erase blocks that a cut erase left partly erased (R618) -/
  torn : SMap Bool
  deriving DecidableEq, Repr

/-- A fault record (R522). -/
structure FaultRec where
  seq : Nat
  tDetect : Nat
  whereF : Nat
  epoch : Nat
  code : Nat
  cls : Nat
  req : Nat
  count : Nat
  deriving DecidableEq, Repr

/-- A fault detected in the unit and not yet at the collector: its code, place and requester, and the clk, Grid Time and EPOCH of its
detection (R518, R522). -/
structure Found where
  code : Nat
  whereF : Nat
  req : Nat
  clk : Nat
  time : Nat
  epoch : Nat
  deriving DecidableEq, Repr

/-- The fault collector and the recovery role (chapter 18). -/
structure Err where
  /-- fault records, oldest first -/
  log : List FaultRec
  /-- faults recorded since unit reset -/
  seq : Nat
  holder : Nat
  recovering : Bool
  /-- a fault of this recovery damaged the Glade's own state (R525) -/
  gladeBad : Bool
  /-- the overrun of RECOVERY_MS has been acted on -/
  overrun : Bool
  /-- clk of tf, and of the holder's last kick -/
  tf : Nat
  rsvAt : Nat
  /-- poisoned 64-bit words by address / 8 (R520) -/
  poison : SMap Bool
  /-- clk at which a pending last resort makes its reset -/
  lastResort : Option Nat
  /-- streams contained under R521, and from 0x8000 the Source Table entries that contain theirs -/
  contained : SMap Bool
  /-- faults detected in the unit and not yet at the collector -/
  detected : List Found
  deriving DecidableEq, Repr

/-- The calendar (R577). -/
structure Cal where
  year : Nat
  month : Nat
  day : Nat
  wday : Nat
  hour : Nat
  min : Nat
  sec : Nat
  deriving DecidableEq, Repr

/-- A Ring Log record before its SEQ and CRC are given (R587). -/
structure RingRec where
  gridTime : Nat
  noGrid : Bool
  cal : Nat
  calInvalid : Bool
  epoch : Nat
  type : Nat
  origin : Nat
  interrupted : Bool
  data : List Byte
  /-- Understory clk of the event (R589) -/
  tick : Nat
  deriving DecidableEq, Repr

/-- The Understory: everything here lives through every reset but a backup-loss reset (R571). -/
structure Und where
  cal : Cal
  invalid : Bool
  /-- packed calendar latched per requester by a read of UND_RTC_SUBSEC (R578) -/
  calLatch : SMap Nat
  /-- clk at which the present second began: the sub-second count runs from it (R577) -/
  secAt : Nat
  /-- CAP reached CHG_V and has not yet fallen 100 mV below it -/
  chargeFull : Bool
  /-- clk from which the periodic wake counts (R585) -/
  wakeAt : Nat
  /-- clk of the last measurement of the backup voltages (R594) -/
  measuredAt : Nat
  /-- Ring Log records waiting, oldest first (R589) -/
  pending : List RingRec
  /-- records lost since the last type 0x0012 record -/
  lost : Nat
  /-- a clear is running: operator slot, command counter, digest bytes (R592) -/
  clearing : Option (List Byte)
  /-- the clear was interrupted by a power loss -/
  clearCut : Bool
  /-- wake watcher armed (R481) -/
  armed : Bool
  storageKey : Bool
  /-- storage keys generated so far -/
  keyGen : Nat
  deriving DecidableEq, Repr

/-- A key image in MRAM (R545): the key, what it is (0 public key, 1 AES-256, 2 HMAC, 3 P-256 private key), and for a secret
key the storage key that seals it. -/
structure KeyImage where
  bytes : List Byte
  kind : Nat
  gen : Nat
  deriving DecidableEq, Repr

/-- A slot of the key-store commit area (R546): commit word and the two images. -/
structure KeyStore where
  occupied : Bool
  sel : Bool
  origin : Nat
  seq : Nat
  imgA : Option KeyImage
  imgB : Option KeyImage
  deriving DecidableEq, Repr

/-- MRAM (R35): Ring Log places, saves and the committed configuration. -/
structure Mram where
  /-- SEQ of the newest record plus one (0: none yet) -/
  rlNext : Nat
  /-- Ring Log places that hold a record -/
  ring : SMap (List Byte)
  /-- committed configuration: register words and table words -/
  cfgRegs : SMap Word
  cfgTbl : SMap Word
  committed : Bool
  epoch : Nat
  /-- unit serial number -/
  serial : BitVec 128
  /-- key slots, command counters by slot, IMAGE_SEQ floors by target (R546) -/
  keys : SMap KeyStore
  counters : SMap Nat
  floors : SMap Nat
  /-- valid accounting copies, and the intent word (R360) -/
  acc0 : Option AccSave
  acc1 : Option AccSave
  accIntent : Option Nat
  deriving DecidableEq, Repr

/-- Who takes the transmit stamp of a frame (R94). -/
inductive TxTag where
  | plain
  /-- an alarm frame of a record of the alarm ring, to a target -/
  | alarm (record target : Nat)
  /-- a Pdelay_Req -/
  | pdelayReq
  /-- a one-step Pdelay_Resp to a request stamped `t2` -/
  | pdelayResp (t2 : Nat)
  | heartbeat
  /-- a pause frame of the port itself (R91), with its quanta -/
  | pause (quanta : Nat)
  deriving DecidableEq, Repr

/-- A frame in a port's transmit buffer: its class (R93) and its bytes without FCS. -/
structure TxFrame where
  cls : Nat
  bytes : List Byte
  tag : TxTag
  deriving DecidableEq, Repr

/-- An installed MACsec secure association (R99). -/
structure MacSa where
  rx : Bool
  /-- receive channel, 0 to 15 -/
  chan : Nat
  an : Nat
  key : BitVec 256
  /-- next packet number: to send, or expected -/
  nextPn : Nat
  deriving DecidableEq, Repr

/-- A port's own state beside its registers (chapter 03). -/
structure NetPort where
  /-- clk at which the next pause refresh of R91 is due; none while backpressure is low -/
  refreshAt : Option Nat
  /-- clk at which the pause timer of R88 reaches zero -/
  pauseUntil : Nat
  /-- clk from which a frame has waited under the timer (R90) -/
  holdFrom : Option Nat
  /-- frames not started, in the order submitted -/
  tx : List TxFrame
  /-- the frame in transmission, and its transmit stamp (80-bit Grid Time) -/
  cur : Option TxFrame
  curStamp : Nat
  sas : List MacSa
  /-- physical state (R650): module present and acceptable (R632), link, FEC in lock -/
  moduleIn : Bool
  moduleOk : Bool
  link : Bool
  fecLock : Bool
  deriving DecidableEq, Repr

/-- A PTP message in the timebase's engine (R174). -/
structure PtpIn where
  port : Nat
  /-- receive stamp, 80-bit Grid Time -/
  stamp : Nat
  bytes : List Byte
  deriving DecidableEq, Repr

/-- A foreign transmitter of PTP Announce messages (R157). -/
structure Foreign where
  port : Nat
  /-- source port identity, 80 bits -/
  id : Nat
  prio1 : Nat
  clkClass : Nat
  accuracy : Nat
  variance : Nat
  prio2 : Nat
  gm : Nat
  steps : Nat
  flags : Nat
  utcOffset : Nat
  /-- clk of the last and of the one before -/
  clk : Nat
  before : Option Nat
  deriving DecidableEq, Repr

/-- A two-step Sync that waits for its Follow_Up. -/
structure SyncWait where
  seq : Nat
  id : Nat
  stamp : Nat
  corr : Int
  clk : Nat
  deriving DecidableEq, Repr

/-- A port's PTP state (R157). Times in 2^-24 ns where signed. -/
structure PtpPort where
  sync : Option SyncWait
  /-- sequence number of the next Pdelay_Req -/
  reqSeq : Nat
  /-- transmit stamp of the Pdelay_Req in flight -/
  reqTx : Option Nat
  /-- two-step response held: responder, request receipt time, receive stamp, correction -/
  resp : Option (Nat × Int × Nat × Int)
  /-- mean link delay -/
  delay : Int
  /-- clk of the last Pdelay_Req -/
  reqAt : Option Nat
  deriving DecidableEq, Repr

/-- Grid Time and the servo (chapter 05). -/
structure Tim where
  /-- Grid Time in 2^-32 s (R152) -/
  grid : Nat
  /-- phase below 2^-32 s, in units of 1 / (1.2 x 10^9 x 2^44) of it (R154) -/
  phase : Nat
  /-- the counter has been seeded and runs (R154) -/
  running : Bool
  /-- value and unit time quality word of the latest mark (R165); none inserted yet since reset -/
  marked : Bool
  mark : Nat
  markTq : Nat
  /-- clk of the latest mark -/
  markAt : Nat
  /-- marks of R165 to be inserted: at a step, at a change of the time quality word -/
  stepMark : Bool
  tqMark : Bool
  /-- marks carry RELEASE_HOLD until Grid Time passes this (R167) -/
  holdUntil : Option Nat
  /-- integral term, in units of 2^-40 x 10^-9 / (1.2 x 10^9) -/
  integral : Int
  /-- clk of the previous applied sample; none after a reset or a step -/
  appliedAt : Option Nat
  /-- clk of the last applied sample or entry to ACQUIRE, for TIM_SRC_TIMEOUT -/
  freshAt : Nat
  lockRun : Nat
  /-- TIM_FREQ_ADJ at the last applied samples taken in LOCKED, newest first, at most 64 -/
  adjHist : List Int
  /-- |d| of the last 8 applied samples, newest first, in 2^-24 ns -/
  dHist : List Nat
  /-- servo has been LOCKED since the unit reset -/
  everLocked : Bool
  /-- clk of the last exit from LOCKED, and the estimate then in 2^-24 ns -/
  leftLock : Nat
  leftEst : Nat
  /-- clk at which STEP_ARMED was set -/
  armedAt : Nat
  /-- the last refused d, in 2^-24 ns -/
  refusedD : Int
  ptpQ : List PtpIn
  foreign : List Foreign
  /-- port and identity of the selected transmitter -/
  best : Option (Nat × Nat)
  /-- clockAccuracy of the transmitter last selected (R168) -/
  srcAcc : Option Nat
  ptp : SMap PtpPort
  /-- second (TAI) and stamp named by the last PTP Sync of the source, and its clk -/
  ptpSec : Option (Nat × Nat)
  ptpAt : Nat
  /-- time (TAI seconds) and on-time stamp of the last good IRIG-B frame, and of the last frame if it was good -/
  irig : Option (Nat × Nat)
  irigPrev : Option Nat
  /-- control functions of the last good frame: time quality, leap warning (0 none, 1 insertion, 2 deletion) -/
  irigTq : Nat
  irigLeap : Nat
  /-- a PPS edge that waits for its IRIG-B frame: its stamp -/
  ppsHeld : Option Nat
  /-- last second pulsed on PPS out, plus one; clk at which the pulse began -/
  pulsed : Nat
  ppsOn : Option Nat
  /-- clk of the last write of the calendar (R155) -/
  calAt : Option Nat
  /-- compare channels that fire late: armed with a value not ahead of Grid Time within half its range, or passed by a forward
  step (R173) -/
  cmpLate : List Nat
  /-- by Grove, the earliest pending deadline, plus one, that has had its mark of R190 -/
  told : SMap Nat
  /-- last leap second: TAI second, offset before, offset after -/
  leapDone : Option (Nat × Nat × Nat)
  deriving DecidableEq, Repr

/-- An opened slot in the Heartwood region (R544): the two shares and their places, and clk of the last visit. -/
structure KeyShares where
  mask : List Byte
  other : List Byte
  place1 : Nat
  place2 : Nat
  kind : Nat
  origin : Nat
  visited : Nat
  deriving DecidableEq, Repr

/-- A request the Keeper has copied (R537). -/
structure KReq where
  cmd : Nat
  replyBit : Nat
  rsv : Bool
  block : Nat
  input : List Byte
  outAddr : Nat
  outLen : Nat
  inLen : Nat
  /-- requester of the post -/
  req : Nat
  deriving DecidableEq, Repr

/-- An image booted (R553): alternate slot, IMAGE_SEQ and digest. -/
structure Booted where
  alt : Bool
  seq : Nat
  digest : List Byte
  deriving DecidableEq, Repr

/-- The Keeper Core and Heartwood (chapter 19). -/
structure Sec where
  slots : SMap (Option KeyShares)
  req : Option KReq
  /-- measurement registers MR0 to MR15; default 32 zero bytes -/
  mr : SMap (List Byte)
  /-- held MODE_AUTHs: target, requester, clk (R541) -/
  auths : List (Nat × Nat × Nat)
  /-- images booted by target, and slots of each target that failed: 1 primary, 2 alternate, 3 both -/
  booted : SMap (Option Booted)
  failed : SMap Nat
  /-- tamper records not yet in MR7: sensor, grade, calendar (R554) -/
  mr7 : List (Nat × Nat × Nat)
  /-- random numbers drawn -/
  drawn : Nat
  /-- key commands whose R-SV key is shorter than 14 bytes: entries of the key table (R568) -/
  short : SMap Bool
  deriving DecidableEq, Repr

/-- What has left the unit (the model's own list, newest first, log 7). -/
inductive Output where
  /-- first bit of a frame at a port's reference plane -/
  | frame (p : Nat) (bytes : List Byte)
  /-- a pause frame with a time value -/
  | pause (p : Nat) (quanta : Nat)
  /-- a message over the Crossing: kind code and payload -/
  | crossing (kind : Nat) (payload : List Byte)
  /-- the join image sent over the Crossing -/
  | joinImage (img : JoinImage)
  /-- levels of the DUTY lines -/
  | dutyLines (on : Bool)
  /-- an MSI-X vector raised to the host -/
  | msix (vector : Nat)
  /-- a completion to the host: data, or Unsupported Request -/
  | completion (data : List Word)
  | unsupported
  /-- a value returned to a requester's register read -/
  | readData (req : Nat) (v : Word)
  /-- levels of the solid-state outputs (bits 7-0) and relays (bits 11-8) -/
  | outputs (levels : Nat)
  /-- the PPS output pin -/
  | ppsOut (level : Bool)
  /-- the FLOW pins -/
  | flow (pins : Nat)
  deriving DecidableEq, Repr

/-- Why a step stops without a next state. No meaning of this model ends so. -/
inductive Fault where
  /-- raised by no meaning: every effect of the spec is a next state (safe) -/
  | none
  deriving DecidableEq, Repr

/-- Why a command has no meaning in the model. -/
inductive Refusal where
  /-- raised by a dispatch arm whose meaning is not written yet (safe) -/
  | notModelled (mnemonic : String)
  deriving DecidableEq, Repr

/-- The whole state of the unit and the queue of commands that wait. -/
structure State where
  /-- control registers by byte offset, cleared by a unit reset; default `regReset` -/
  regs : SMap Word
  /-- control registers held by the Understory (reset mark U) -/
  uregs : SMap Word
  /-- banked control registers, keyed by requester and offset -/
  bank : SMap Word
  /-- each requester's latched high halves (R22) -/
  latch : SMap Word
  /-- 64-bit counters and value pairs, by the offset of their low half or by table key -/
  wide : SMap DWord
  /-- 64-bit counters held by the Understory (R595) -/
  uwide : SMap DWord
  /-- configuration table words, by table, index and word -/
  tbl : SMap Word
  /-- blocks whose counter-saturated flag is set (R23), by block number -/
  saturated : SMap Bool
  /-- counter and gauge values held by a freeze or snapshot (R600) -/
  held : Option (SMap DWord)
  /-- a snapshot holds the views (R600) -/
  snapHeld : Bool
  /-- SRAM and DRAM bytes other than 0 (R604) -/
  mem : List Host.Cell
  mram : Mram
  /-- Boulevard clk since power-on -/
  now : Nat
  sys : Sys
  tim : Tim
  ing : Ing
  gld : Gld
  flt : Flt
  osc : Osc
  isl : Isl
  alm : Alm
  cap : Cap
  acc : Acc
  cores : SMap Core
  net : SMap NetPort
  rbt : Rbt
  xng : Xng
  ic : Ic
  hst : Hst
  err : Err
  und : Und
  sec : Sec
  /-- index of the next free value -/
  free : Nat
  out : List Output
  pending : List Instr
  deriving DecidableEq, Repr

/-- What every command answers. -/
abbrev Out := Host.Outcome State Fault Refusal

/-! ## Reset

Registers and tables read their Reset column where nothing is listed, so a reset lists nothing. -/

/-- U registers after a backup-loss reset: the cause of the last reset, and the factory tamper grades and temperature limits
(R76, R561, R569). -/
def uregsReset (cause : Nat) : SMap Word :=
  [(0x14, BitVec.ofNat 32 cause), (0x100020, 0x256A), (0x100028, 0x73CE)]

/-- The calendar after a backup-loss reset (R577). -/
def calReset : Cal := { year := 2000, month := 1, day := 1, wday := 0, hour := 0, min := 0, sec := 0 }

/-- Mode control after a unit reset: M1, with t1 of R63 reached. -/
def Sys.reset : Sys :=
  { mode := .boot, prevMode := .keep, trans := none, duty := false, isolated := false, bootStep := 1, bootFromWake := false,
    t7At := none, gladeUp := false, timeWaitUp := false, pairWaitUp := false, warnAt := none, coresOff := false,
    powerGood := true, preRecovery := .keep, pll := .running, pllUpAt := 0, testWdogAt := 0, injHeld := none,
    entries := [], nominal60 := false }

/-- Grid Time after a unit reset: it does not run until it is seeded (R154). -/
def Tim.reset : Tim :=
  { grid := 0, phase := 0, running := false, marked := false, mark := 0, markTq := 0, markAt := 0, stepMark := false,
    tqMark := false, holdUntil := none, integral := 0, appliedAt := none, freshAt := 0, lockRun := 0, adjHist := [],
    dHist := [], everLocked := false, leftLock := 0, leftEst := 0, armedAt := 0, refusedD := 0, ptpQ := [], foreign := [],
    best := none, srcAcc := none, ptp := [], ptpSec := none, ptpAt := 0, irig := none, irigPrev := none, irigTq := 0, irigLeap := 0,
    ppsHeld := none, pulsed := 0, ppsOn := none, calAt := none, cmpLate := [], told := [], leapDone := none }

def Ing.reset : Ing :=
  { eth := [], pend := [], conns := [], lastTag := [], rsvKeys := [], rsvLast := [], jseq := 0 }

def Gld.reset : Gld :=
  { groves := [], tooLate := [], pend := [], fltWait := [], islWait := [], capWait := [], accWait := [] }

def Flt.reset : Flt := { chans := [], taken := 0, outIdx := 0, cur := none }

def Osc.reset : Osc :=
  { wait := [], arrived := 0, cur := none, trackers := [], slots := [], trkIdx := 0, foIdx := 0, old := [] }

def Isl.reset : Isl :=
  { branches := [], mons := [], pols := [], islands := [], nIslands := 0, resIdx := 0, mapIdx := 0, cur := none,
    startDue := false, tableWritten := false, written := [], dirWritten := [], taken := 0, old := [] }

def Alm.reset : Alm :=
  { points := [], batches := [], lastSeq := [], aseq := 0, recs := [], repeats := [], outs := [], pulses := [], fseq := [],
    keepAt := 0, pubs := [], held := [], marked := [], waiting := [] }

def Cap.reset : Cap := { seqs := [], nextId := 0, taken := 0, old := [], trigs := [], relLo := 0 }

def Acc.reset : Acc :=
  { sums := [], lines := [], outs := [], ins := [], steps := [], saving := none, saveSeq := 0, savedSec := 0,
    afterSnap := false, taken := 0, old := [] }

def Rbt.reset : Rbt := { queues := [], ready := [], keys := [], rr := 0, boxes := [], locks := [] }

def Xng.reset : Xng :=
  { eseq := 0, own := [], peer := [], txSeq := 0, rxSeq := 0, unacked := [], msgs := [], rx := [], hbIn := [],
    tsDone := false, toDone := false, hb := none, hbX := none, hbD := none, hbSeq := 0, hbAt := 0, hbStamp := 0, row := 0,
    row3At := none, guardAt := none, releasing := false, via508 := false, joinAt := none, retryAt := none,
    lagOkAt := none, inStepAt := 0, divs := [], joinWant := false, cut := none, handover := none }

/-- The recovery role is with SV0 at a unit reset (R524). -/
def Err.reset : Err :=
  { log := [], seq := 0, holder := 16, recovering := false, gladeBad := false, overrun := false, tf := 0, rsvAt := 0,
    poison := [], lastResort := none, contained := [], detected := [] }

/-- The Understory's own state after a backup-loss reset. -/
def Und.reset : Und :=
  { cal := calReset, invalid := true, calLatch := [], secAt := 0, chargeFull := false, wakeAt := 0, measuredAt := 0,
    pending := [], lost := 0, clearing := none, clearCut := false, armed := false, storageKey := false,
    keyGen := 0 }

def Sec.reset : Sec :=
  { slots := [], req := none, mr := [], auths := [], booted := [], failed := [], mr7 := [], drawn := 0, short := [] }

/-- An MRAM that nothing has written. -/
def Mram.reset : Mram :=
  { rlNext := 0, ring := [], cfgRegs := [], cfgTbl := [], committed := false, epoch := 0, serial := 0, keys := [],
    counters := [], floors := [], acc0 := none, acc1 := none, accIntent := none }

/-- The unit right after its first power-on reset: M1 Boot, t1 of R63 reached, every register at its Reset column, memory
empty; MRAM, flash and the Understory never written (log 3, 4, 5). -/
def State.reset : State :=
  { regs := [], uregs := uregsReset 1, bank := [], latch := [], wide := [], uwide := [], tbl := [], saturated := [],
    held := none, snapHeld := false, mem := [], mram := Mram.reset, now := 0, sys := Sys.reset, tim := Tim.reset, ing := Ing.reset,
    gld := Gld.reset, flt := Flt.reset, osc := Osc.reset, isl := Isl.reset, alm := Alm.reset, cap := Cap.reset,
    acc := Acc.reset, cores := [], net := [], rbt := Rbt.reset, xng := Xng.reset, ic := { srcs := [], last := [] },
    hst := { ctx := [], flash := [], programmed := [], images := [], altFirst := [], torn := [] }, err := Err.reset, und := Und.reset, sec := Sec.reset,
    free := 0, out := [], pending := [] }

end Sys2Proof.Machine
end

