-- ==== Sys2Proof/Machine/Regs.lean ====
section
/-!
DEFINITION. The control registers of the twenty blocks: offsets, fields, access codes, reset values and reserved values,
written from the register tables of the chapters (R16 to R22, R607), and the layouts of the table entries.
-/

namespace Sys2Proof.Machine

/-- Access codes (R16). -/
inductive Access where
  | rw | ro | wo | w1c | w1s | rc | rl | live
  deriving DecidableEq, Repr

/-- Which values of a field are not reserved by its Effect column (R19). -/
inductive Legal where
  | any
  | nonzero
  | range (lo hi : Nat)
  | outside (lo hi : Nat)
  | signed (lo hi : Int)
  | rate
  | perfEvent
  deriving DecidableEq, Repr

/-- One field of a register: its bits, access and legal values. -/
structure FieldD where
  hi : Nat
  lo : Nat
  acc : Access
  legal : Legal
  deriving DecidableEq, Repr

/-- What stands behind a register's address. -/
inductive RegKind where
  /-- a stored word -/
  | plain
  /-- a word per requester -/
  | banked
  /-- a 64-bit event counter, read under R22 -/
  | counter
  /-- a 64-bit gauge computed from the state -/
  | gauge
  /-- a 64-bit read-only value that is no counter -/
  | pair
  deriving DecidableEq, Repr

/-- A register, or an array of them (two counts and strides). -/
structure RegD where
  off : Nat
  n1 : Nat
  s1 : Nat
  n2 : Nat
  s2 : Nat
  kind : RegKind
  fields : List FieldD
  deriving DecidableEq, Repr

/-- A field of a register at a byte offset from 0x00_8000_0000. -/
structure Fld where
  off : Nat
  hi : Nat
  lo : Nat
  deriving DecidableEq, Repr

/-- The same field of an array member at a further offset. -/
def Fld.at (f : Fld) (d : Nat) : Fld := { f with off := f.off + d }

/-! Offsets from 0x00_8000_0000 (a port's registers: of NET0, the others by `netWin`). -/
def R.SYS_MODE : Nat := 0x000000
def R.SYS_MODE_REQ : Nat := 0x000004
def R.SYS_MODE_STATUS : Nat := 0x000008
def R.SYS_RESET : Nat := 0x00000C
def R.SYS_CORE_RESET : Nat := 0x000010
def R.SYS_RESET_CAUSE : Nat := 0x000014
def R.SYS_BOOT_TIMEWAIT : Nat := 0x000018
def R.SYS_BOOT_TARGET : Nat := 0x00001C
def R.SYS_REFUSED_COUNT : Nat := 0x000020
def R.SYS_REFUSED_ADDR : Nat := 0x000028
def R.SYS_DEGRADED : Nat := 0x00002C
def R.SYS_MODE_ENTRY : Nat := 0x000030
def R.SYS_INT_EN : Nat := 0x000038
def R.SYS_INT_STATUS : Nat := 0x00003C
def R.SYS_TEST_CTRL : Nat := 0x000040
def R.SYS_TEST_WDOG : Nat := 0x000044
def R.SYS_TEST_INJECTED : Nat := 0x000048
def R.SYS_TEST_BAD : Nat := 0x000050
def R.IC_P_SRC_CTRL : Nat := 0x010000
def R.IC_P_SRC_MOD : Nat := 0x010004
def R.IC_S_SRC_CTRL : Nat := 0x018000
def R.IC_S_SRC_MOD : Nat := 0x018004
def R.IC_CLAIM : Nat := 0x010200
def R.IC_COMPLETE : Nat := 0x010204
def R.IC_THRESHOLD : Nat := 0x010208
def R.IC_RUNNING : Nat := 0x01020C
def R.IC_SWI_SET : Nat := 0x010210
def R.IC_SWI_CLR : Nat := 0x010214
def R.IC_PEND_LO : Nat := 0x010218
def R.IC_PEND_HI : Nat := 0x01021C
def R.IC_SSWI_SET : Nat := 0x01A000
def R.IC_SSWI_CLR : Nat := 0x01A004
def R.IC_WAKE_CAUSE : Nat := 0x01B000
def R.IC_WAKE_SLOT : Nat := 0x01B040
def R.IC_U_CLAIM_READS : Nat := 0x01C000
def R.IC_U_CLAIMS : Nat := 0x01C008
def R.IC_U_SPURIOUS : Nat := 0x01C010
def R.IC_U_MERGED : Nat := 0x01C018
def R.IC_U_COMPLETE_WRITES : Nat := 0x01C020
def R.IC_U_COMPLETES : Nat := 0x01C028
def R.IC_U_BAD_COMPLETES : Nat := 0x01C030
def R.IC_U_RESET_CLEARED : Nat := 0x01C038
def R.IC_U_ACTIVE : Nat := 0x01C040
def R.IC_U_TAILCHAINS : Nat := 0x01C048
def R.IC_U_MOD_RELEASES : Nat := 0x01C050
def R.RBT_STATUS : Nat := 0x020000
def R.RBT_INT_EN : Nat := 0x020004
def R.RBT_INT_STATUS : Nat := 0x020008
def R.RBT_CANCEL : Nat := 0x02000C
def R.RBT_QCMD : Nat := 0x020010
def R.RBT_TSPILL : Nat := 0x020014
def R.RBT_TBL_ADDR : Nat := 0x020020
def R.RBT_TBL_CMD : Nat := 0x020024
def R.RBT_TBL_STATUS : Nat := 0x020028
def R.RBT_QEVENT : Nat := 0x020040
def R.RBT_TBL_DATA : Nat := 0x020100
def R.RBT_CLASS : Nat := 0x020200
def R.RBT_CREDIT : Nat := 0x020204
def R.RBT_HQ_CMD : Nat := 0x020300
def R.RBT_HQ_RESULT : Nat := 0x020304
def R.RBT_HQ_DATA : Nat := 0x020320
def R.RBT_U_TAKEN : Nat := 0x020400
def R.RBT_U_INVALID : Nat := 0x020408
def R.RBT_U_CANCEL_NONE : Nat := 0x020410
def R.RBT_U_TSPILLED : Nat := 0x020418
def R.RBT_U_INTEGRITY_RESETS : Nat := 0x020420
def R.MBX_DB : Nat := 0x030000
def R.MBX_MASK : Nat := 0x030004
def R.MBX_RX_INFO : Nat := 0x030008
def R.MBX_RX_VAL : Nat := 0x03000C
def R.MBX_RX_POP : Nat := 0x030014
def R.MBX_POSTS : Nat := 0x030020
def R.MBX_POPS : Nat := 0x030028
def R.MBX_FULL : Nat := 0x030030
def R.MBX_SIGNALS : Nat := 0x030038
def R.MBX_HOST_VAL_LO : Nat := 0x030600
def R.MBX_HOST_VAL_HI : Nat := 0x030604
def R.MBX_HOST_CMD : Nat := 0x030608
def R.MBX_HOST_RESULT : Nat := 0x03060C
def R.MBX_EMPTY_STATUS : Nat := 0x030610
def R.MBX_EMPTY_EN : Nat := 0x030614
def R.MBX_LOCK : Nat := 0x030800
def R.MBX_LOCK_FORCE : Nat := 0x030900
def R.MBX_U_LOCK_ACQUIRED : Nat := 0x030A00
def R.MBX_U_LOCK_BUSY : Nat := 0x030A08
def R.MBX_U_LOCK_RELEASED : Nat := 0x030A10
def R.MBX_U_LOCK_FORCED : Nat := 0x030A18
def R.MBX_U_LOCK_BAD_RELEASE : Nat := 0x030A20
def R.MBX_U_LOCK_RESET_RELEASED : Nat := 0x030A28
def R.MBX_U_LOCKS_HELD : Nat := 0x030A30
def R.MBX_U_BAD_POP : Nat := 0x030A38
def R.NET_CTRL : Nat := 0x040000
def R.NET_STATUS : Nat := 0x040004
def R.NET_MAXLEN : Nat := 0x040008
def R.NET_STATION_LO : Nat := 0x04000C
def R.NET_STATION_HI : Nat := 0x040010
def R.NET_RX_DELAY : Nat := 0x040014
def R.NET_TX_DELAY : Nat := 0x040018
def R.NET_PAUSE : Nat := 0x04001C
def R.NET_INT_EN : Nat := 0x040020
def R.NET_INT_STATUS : Nat := 0x040024
def R.NET_VLAN : Nat := 0x040100
def R.NET_MACSEC_CTRL : Nat := 0x041000
def R.NET_MACSEC_PN_THRESH : Nat := 0x041004
def R.NET_MACSEC_SCI_LO : Nat := 0x041100
def R.NET_MACSEC_SCI_HI : Nat := 0x041104
def R.NET_RX_SEEN : Nat := 0x040400
def R.NET_RX_TO_PARSER : Nat := 0x040408
def R.NET_RX_TO_TIMEBASE : Nat := 0x040410
def R.NET_RX_PCS_ERROR : Nat := 0x040418
def R.NET_RX_RUNT : Nat := 0x040420
def R.NET_RX_FCS_ERROR : Nat := 0x040428
def R.NET_RX_OVERFLOW : Nat := 0x040430
def R.NET_RX_PAUSE_HONOURED : Nat := 0x040438
def R.NET_RX_PAUSE_IGNORED : Nat := 0x040440
def R.NET_RX_CONTROL_OTHER : Nat := 0x040448
def R.NET_RX_ADDR_FILTERED : Nat := 0x040450
def R.NET_RX_MACSEC_DROPPED : Nat := 0x040458
def R.NET_RX_VLAN_FILTERED : Nat := 0x040460
def R.NET_RX_IN_BUFFER : Nat := 0x040468
def R.NET_RX_TRUNCATED : Nat := 0x040470
def R.NET_RX_MACSEC_UNTAGGED : Nat := 0x040478
def R.NET_RX_MACSEC_NO_SC : Nat := 0x040480
def R.NET_RX_MACSEC_ICV : Nat := 0x040488
def R.NET_RX_MACSEC_REPLAY : Nat := 0x040490
def R.NET_TX_SUBMITTED : Nat := 0x040500
def R.NET_TX_SENT : Nat := 0x040508
def R.NET_TX_LINK_DOWN : Nat := 0x040510
def R.NET_TX_FLUSHED : Nat := 0x040518
def R.NET_TX_PN_EXHAUSTED : Nat := 0x040520
def R.NET_TX_IN_BUFFER : Nat := 0x040528
def R.NET_TX_PAUSE_SENT : Nat := 0x040530
def R.NET_TX_PAUSED_NS : Nat := 0x040538
def R.NET_RX_INJECTED : Nat := 0x040540
def R.NET_MCAST_LO : Nat := 0x04E000
def R.NET_MCAST_HI : Nat := 0x04E004
def R.ING_CTRL : Nat := 0x050000
def R.ING_STATUS : Nat := 0x050004
def R.ING_GRID_TOL : Nat := 0x050008
def R.ING_FUTURE_LIMIT : Nat := 0x05000C
def R.ING_SV_QUEUE : Nat := 0x050010
def R.ING_INT_EN : Nat := 0x050014
def R.ING_INT_STATUS : Nat := 0x050018
def R.ING_PASS_BASE : Nat := 0x05001C
def R.ING_TBL_ADDR : Nat := 0x050020
def R.ING_TBL_CMD : Nat := 0x050024
def R.ING_TBL_STATUS : Nat := 0x050028
def R.ING_PASS_WRITE : Nat := 0x05002C
def R.ING_PASS_RELEASE : Nat := 0x050030
def R.ING_TBL_DATA : Nat := 0x050100
def R.ING_U_FROM_MAC : Nat := 0x050400
def R.ING_U_TO_SUPERVISOR : Nat := 0x050408
def R.ING_U_PASS_DROPPED : Nat := 0x050410
def R.ING_U_TO_CROSSING : Nat := 0x050418
def R.ING_U_NOT_INGESTING : Nat := 0x050420
def R.ING_U_TRUNCATED : Nat := 0x050428
def R.ING_U_IP_ERROR : Nat := 0x050430
def R.ING_U_FRAGMENT : Nat := 0x050438
def R.ING_U_TCP_SEGMENTS : Nat := 0x050440
def R.ING_U_MEAS_DATAGRAMS : Nat := 0x050448
def R.ING_U_ETH_IN_PARSER : Nat := 0x050450
def R.ING_U_TCP_FRAMES : Nat := 0x050458
def R.ING_U_IDENTIFIED : Nat := 0x050460
def R.ING_U_REJ_SYNC : Nat := 0x050468
def R.ING_U_REJ_VERSION : Nat := 0x050470
def R.ING_U_REJ_SIZE : Nat := 0x050478
def R.ING_U_REJ_CRC : Nat := 0x050480
def R.ING_U_REJ_RSV_ENCRYPTED : Nat := 0x050488
def R.ING_U_REJ_RSV_AUTH : Nat := 0x050490
def R.ING_U_REJ_RSV_REPLAY : Nat := 0x050498
def R.ING_U_REJ_UNKNOWN : Nat := 0x0504A0
def R.ING_U_FRAME_IN_PARSER : Nat := 0x0504A8
def R.ING_U_NONDATA : Nat := 0x0504B0
def R.ING_U_DATA_FRAMES : Nat := 0x0504B8
def R.ING_U_DATA_BLOCKS : Nat := 0x0504C0
def R.ING_U_BLOCKS_UNMAPPED : Nat := 0x0504C8
def R.ING_U_JOURNALLED : Nat := 0x0504D0
def R.ING_U_TCP_OUT_OF_ORDER : Nat := 0x0504D8
def R.ING_U_TCP_RESYNC_BYTES : Nat := 0x0504E0
def R.ING_U_NONDATA_UNQUEUED : Nat := 0x0504E8
def R.ING_U_NONDATA_OVERFLOW : Nat := 0x0504F0
def R.ING_U_CFG_MALFORMED : Nat := 0x0504F8
def R.TIM_CTRL : Nat := 0x060000
def R.TIM_STATUS : Nat := 0x060004
def R.TIM_NOW_LO : Nat := 0x060008
def R.TIM_NOW_HI : Nat := 0x06000C
def R.TIM_NOW_TOP : Nat := 0x060010
def R.TIM_JUMP_LIMIT : Nat := 0x060014
def R.TIM_KP_ACQ : Nat := 0x060018
def R.TIM_KI_ACQ : Nat := 0x06001C
def R.TIM_KP_LOCK : Nat := 0x060020
def R.TIM_KI_LOCK : Nat := 0x060024
def R.TIM_LOCK : Nat := 0x060028
def R.TIM_SRC_TIMEOUT : Nat := 0x06002C
def R.TIM_FREQ_ADJ : Nat := 0x060030
def R.TIM_OFFSET : Nat := 0x060034
def R.TIM_REFUSED : Nat := 0x060038
def R.TIM_TQ : Nat := 0x060040
def R.TIM_HOLD_DRIFT : Nat := 0x060044
def R.TIM_UTC : Nat := 0x060048
def R.TIM_UTC_NOW : Nat := 0x06004C
def R.TIM_LEAP_AT : Nat := 0x060050
def R.TIM_DELAY_PPS_IN : Nat := 0x060054
def R.TIM_DELAY_IRIG : Nat := 0x060058
def R.TIM_DELAY_PPS_OUT : Nat := 0x06005C
def R.TIM_PPS_OUT : Nat := 0x060060
def R.TIM_XCHK_LIMIT : Nat := 0x060064
def R.TIM_PTP : Nat := 0x060068
def R.TIM_SRC_ACCURACY : Nat := 0x06006C
def R.TIM_INT_EN : Nat := 0x060070
def R.TIM_INT_STATUS : Nat := 0x060074
def R.TIM_ASYM : Nat := 0x060080
def R.TIM_CMP_CTRL : Nat := 0x060100
def R.TIM_CMP_LO : Nat := 0x060104
def R.TIM_CMP_HI : Nat := 0x060108
def R.TIM_SAMPLES : Nat := 0x060400
def R.TIM_SAMPLES_APPLIED : Nat := 0x060408
def R.TIM_JUMPS_REFUSED : Nat := 0x060410
def R.TIM_STEPS : Nat := 0x060418
def R.TIM_XCHK_DISCARDED : Nat := 0x060420
def R.TIM_XCHK_FAILS : Nat := 0x060428
def R.TIM_HOLDOVER_ENTRIES : Nat := 0x060430
def R.TIM_PTP_RX : Nat := 0x060438
def R.TIM_PTP_USED : Nat := 0x060440
def R.TIM_PTP_WRONG_PROFILE : Nat := 0x060450
def R.TIM_PTP_MALFORMED : Nat := 0x060458
def R.TIM_PTP_IN_ENGINE : Nat := 0x060460
def R.TIM_PTP_TX : Nat := 0x060468
def R.TIM_IRIG_GOOD : Nat := 0x060470
def R.TIM_IRIG_BAD : Nat := 0x060478
def R.TIM_PPS_EDGES : Nat := 0x060480
def R.TIM_PPS_BAD : Nat := 0x060488
def R.TIM_MARKS : Nat := 0x060490
def R.TIM_CMP_LATE : Nat := 0x060498
def R.GLD_CTRL : Nat := 0x070000
def R.GLD_STATUS : Nat := 0x070004
def R.GLD_LAST_REL : Nat := 0x070008
def R.GLD_INT_EN : Nat := 0x070010
def R.GLD_INT_STATUS : Nat := 0x070014
def R.GLD_TBL_ADDR : Nat := 0x070020
def R.GLD_TBL_CMD : Nat := 0x070024
def R.GLD_TBL_STATUS : Nat := 0x070028
def R.GLD_TBL_DATA : Nat := 0x070100
def R.GLD_U_BLOCKS : Nat := 0x070400
def R.GLD_U_CAPACITY_RELEASES : Nat := 0x070408
def R.GLD_U_CAPACITY_LATE : Nat := 0x070410
def R.GLD_G_CTRL : Nat := 0x071000
def R.GLD_G_STATUS : Nat := 0x071004
def R.GLD_WINDOW : Nat := 0x071008
def R.GLD_HORIZON : Nat := 0x07100C
def R.GLD_QUORUM : Nat := 0x071010
def R.GLD_G_QUEUE : Nat := 0x071014
def R.GLD_STORE_BASE : Nat := 0x071018
def R.GLD_STORE_RECORDS : Nat := 0x07101C
def R.GLD_AMEND_BASE : Nat := 0x071020
def R.GLD_AMEND_RECORDS : Nat := 0x071024
def R.GLD_RECSIZE : Nat := 0x071028
def R.GLD_TOTALS : Nat := 0x07102C
def R.GLD_SETSEQ : Nat := 0x071030
def R.GLD_FRONTIER : Nat := 0x071038
def R.FLT_CTRL : Nat := 0x080000
def R.FLT_STATUS : Nat := 0x080004
def R.FLT_OUT_QUEUE : Nat := 0x080008
def R.FLT_OUT_BASE_LO : Nat := 0x08000C
def R.FLT_OUT_BASE_HI : Nat := 0x080010
def R.FLT_OUT_RECORDS : Nat := 0x080014
def R.FLT_INT_EN : Nat := 0x080018
def R.FLT_INT_STATUS : Nat := 0x08001C
def R.FLT_TBL_ADDR : Nat := 0x080020
def R.FLT_TBL_CMD : Nat := 0x080024
def R.FLT_TBL_STATUS : Nat := 0x080028
def R.FLT_TBL_DATA : Nat := 0x080100
def R.FLT_U_NOTICES : Nat := 0x080400
def R.FLT_U_PASSES : Nat := 0x080408
def R.FLT_U_DROPPED : Nat := 0x080410
def R.FLT_U_PENDING : Nat := 0x080418
def R.FLT_U_RECORDS : Nat := 0x080420
def R.FLT_U_NOTICE_REFUSED : Nat := 0x080428
def R.OSC_CTRL : Nat := 0x090000
def R.OSC_STATUS : Nat := 0x090004
def R.OSC_QUEUE : Nat := 0x090008
def R.OSC_TRK_BASE_LO : Nat := 0x09000C
def R.OSC_TRK_BASE_HI : Nat := 0x090010
def R.OSC_TRK_RECORDS : Nat := 0x090014
def R.OSC_FO_BASE_LO : Nat := 0x090018
def R.OSC_FO_BASE_HI : Nat := 0x09001C
def R.OSC_FO_RECORDS : Nat := 0x090020
def R.OSC_INT_EN : Nat := 0x090024
def R.OSC_INT_STATUS : Nat := 0x090028
def R.OSC_TBL_ADDR : Nat := 0x090030
def R.OSC_TBL_CMD : Nat := 0x090034
def R.OSC_TBL_STATUS : Nat := 0x090038
def R.OSC_TBL_DATA : Nat := 0x090100
def R.OSC_U_PASSES : Nat := 0x090400
def R.OSC_U_PASSES_DONE : Nat := 0x090408
def R.OSC_U_DROPPED : Nat := 0x090410
def R.OSC_U_PENDING : Nat := 0x090418
def R.OSC_U_TRK_RECORDS : Nat := 0x090420
def R.OSC_U_FO_RECORDS : Nat := 0x090428
def R.OSC_U_EVENTS : Nat := 0x090430
def R.OSC_U_NOTICES_PUSHED : Nat := 0x090438
def R.OSC_U_NOTICE_REFUSED : Nat := 0x090440
def R.ISL_CTRL : Nat := 0x0A0000
def R.ISL_STATUS : Nat := 0x0A0004
def R.ISL_QUEUE : Nat := 0x0A0008
def R.ISL_RES_BASE_LO : Nat := 0x0A000C
def R.ISL_RES_BASE_HI : Nat := 0x0A0010
def R.ISL_RES_RECORDS : Nat := 0x0A0014
def R.ISL_MAP_BASE_LO : Nat := 0x0A0018
def R.ISL_MAP_BASE_HI : Nat := 0x0A001C
def R.ISL_MAP_RECORDS : Nat := 0x0A0020
def R.ISL_MAP_SEQ : Nat := 0x0A0024
def R.ISL_INT_EN : Nat := 0x0A002C
def R.ISL_INT_STATUS : Nat := 0x0A0030
def R.ISL_TBL_ADDR : Nat := 0x0A0040
def R.ISL_TBL_CMD : Nat := 0x0A0044
def R.ISL_TBL_STATUS : Nat := 0x0A0048
def R.ISL_TBL_DATA : Nat := 0x0A0100
def R.ISL_U_NOTICES : Nat := 0x0A0400
def R.ISL_U_PROCESSED : Nat := 0x0A0408
def R.ISL_U_DROPPED : Nat := 0x0A0410
def R.ISL_U_PENDING : Nat := 0x0A0418
def R.ISL_U_RES_RECORDS : Nat := 0x0A0420
def R.ISL_U_NO_RECORD : Nat := 0x0A0428
def R.ISL_U_RECOMPUTES : Nat := 0x0A0430
def R.ISL_U_MAP_RECORDS : Nat := 0x0A0438
def R.ISL_U_MAP_UNCHANGED : Nat := 0x0A0440
def R.ISL_U_EVAL_PRESENT : Nat := 0x0A0448
def R.ISL_U_EVAL_ABSENT : Nat := 0x0A0450
def R.ISL_U_CHANGES : Nat := 0x0A0458
def R.ISL_U_ENTRIES : Nat := 0x0A0460
def R.ISL_U_ENTRIES_OVERFLOW : Nat := 0x0A0468
def R.ISL_U_EVENTS : Nat := 0x0A0470
def R.ISL_U_NOTICES_PUSHED : Nat := 0x0A0478
def R.ISL_U_NOTICE_REFUSED : Nat := 0x0A0480
def R.ISL_U_LATE : Nat := 0x0A0488
def R.ISL_U_DP_INVALID : Nat := 0x0A0490
def R.ISL_U_EVALUATIONS : Nat := 0x0A04A0
def R.ALM_CTRL : Nat := 0x0B0000
def R.ALM_STATUS : Nat := 0x0B0004
def R.ALM_UNIT_ID : Nat := 0x0B0008
def R.ALM_KEEPALIVE : Nat := 0x0B000C
def R.ALM_REC_BASE_LO : Nat := 0x0B0010
def R.ALM_REC_BASE_HI : Nat := 0x0B0014
def R.ALM_REC_RECORDS : Nat := 0x0B0018
def R.ALM_REC_QUEUE : Nat := 0x0B001C
def R.ALM_INT_EN : Nat := 0x0B0020
def R.ALM_INT_STATUS : Nat := 0x0B0024
def R.ALM_DEC_CTX : Nat := 0x0B0040
def R.ALM_DEC_SEQ_LO : Nat := 0x0B0044
def R.ALM_DEC_SEQ_HI : Nat := 0x0B0048
def R.ALM_DEC_T0_LO : Nat := 0x0B004C
def R.ALM_DEC_T0_HI : Nat := 0x0B0050
def R.ALM_DECIDE : Nat := 0x0B0054
def R.ALM_ACK : Nat := 0x0B0058
def R.ALM_OUT_STATE : Nat := 0x0B005C
def R.ALM_OUT_FORCE : Nat := 0x0B0060
def R.ALM_TBL_ADDR : Nat := 0x0B0080
def R.ALM_TBL_CMD : Nat := 0x0B0084
def R.ALM_TBL_STATUS : Nat := 0x0B0088
def R.ALM_TBL_DATA : Nat := 0x0B0100
def R.ALM_U_DECISIONS : Nat := 0x0B0400
def R.ALM_U_DEC_APPLIED : Nat := 0x0B0408
def R.ALM_U_DEC_REFUSED : Nat := 0x0B0410
def R.ALM_U_DEC_ABANDONED : Nat := 0x0B0418
def R.ALM_U_DEC_PENDING : Nat := 0x0B0420
def R.ALM_U_BATCH_REFUSED : Nat := 0x0B0428
def R.ALM_U_CHANGES : Nat := 0x0B0430
def R.ALM_U_NO_CHANGE : Nat := 0x0B0438
def R.ALM_U_RECORDS : Nat := 0x0B0440
def R.ALM_U_RESOLUTIONS : Nat := 0x0B0448
def R.ALM_U_ACKS : Nat := 0x0B0450
def R.ALM_U_ACK_IGNORED : Nat := 0x0B0458
def R.ALM_U_REC_NOTICES : Nat := 0x0B0460
def R.ALM_U_REC_NOTICE_REFUSED : Nat := 0x0B0468
def R.ALM_U_LATE : Nat := 0x0B0470
def R.ALM_U_FRAMES_SENT : Nat := 0x0B0478
def R.ALM_U_KEEPALIVES : Nat := 0x0B0480
def R.ALM_U_REVERSALS : Nat := 0x0B0488
def R.CAP_CTRL : Nat := 0x0C0000
def R.CAP_STATUS : Nat := 0x0C0004
def R.CAP_RING_BASE_LO : Nat := 0x0C000C
def R.CAP_RING_BASE_HI : Nat := 0x0C0010
def R.CAP_RING_SIZE : Nat := 0x0C0014
def R.CAP_WRITE : Nat := 0x0C0018
def R.CAP_RELEASE_LO : Nat := 0x0C0020
def R.CAP_RELEASE_HI : Nat := 0x0C0024
def R.CAP_QUEUE : Nat := 0x0C0028
def R.CAP_TRIGGER : Nat := 0x0C002C
def R.CAP_INT_EN : Nat := 0x0C0030
def R.CAP_INT_STATUS : Nat := 0x0C0034
def R.CAP_TBL_ADDR : Nat := 0x0C0040
def R.CAP_TBL_CMD : Nat := 0x0C0044
def R.CAP_TBL_STATUS : Nat := 0x0C0048
def R.CAP_TBL_DATA : Nat := 0x0C0100
def R.CAP_U_NOTICES : Nat := 0x0C0400
def R.CAP_U_PROCESSED : Nat := 0x0C0408
def R.CAP_U_DROPPED : Nat := 0x0C0410
def R.CAP_U_PENDING : Nat := 0x0C0418
def R.CAP_U_OPENS : Nat := 0x0C0420
def R.CAP_U_CLOSES : Nat := 0x0C0428
def R.CAP_U_NOTICES_PUSHED : Nat := 0x0C0430
def R.CAP_U_NOTICE_REFUSED : Nat := 0x0C0438
def R.CAP_U_FLASH_CORRECTED : Nat := 0x0C0440
def R.CAP_U_FLASH_UNCORRECTABLE : Nat := 0x0C0448
def R.ACC_CTRL : Nat := 0x0D0000
def R.ACC_STATUS : Nat := 0x0D0004
def R.ACC_SAVE_SEQ : Nat := 0x0D0008
def R.ACC_INT_EN : Nat := 0x0D0010
def R.ACC_INT_STATUS : Nat := 0x0D0014
def R.ACC_TBL_ADDR : Nat := 0x0D0020
def R.ACC_TBL_CMD : Nat := 0x0D0024
def R.ACC_TBL_STATUS : Nat := 0x0D0028
def R.ACC_TBL_DATA : Nat := 0x0D0100
def R.ACC_U_NOTICES : Nat := 0x0D0400
def R.ACC_U_PROCESSED : Nat := 0x0D0408
def R.ACC_U_DROPPED : Nat := 0x0D0410
def R.ACC_U_AFTER_SAVE : Nat := 0x0D0418
def R.ACC_U_PENDING : Nat := 0x0D0420
def R.ACC_U_SAVES_STARTED : Nat := 0x0D0428
def R.ACC_U_SAVES_DONE : Nat := 0x0D0430
def R.ACC_U_SAVES_ABANDONED : Nat := 0x0D0438
def R.ACC_U_SAVE_FAILED : Nat := 0x0D0440
def R.ACC_U_SAVING : Nat := 0x0D0448
def R.XNG_CTRL : Nat := 0x0E0000
def R.XNG_STATUS : Nat := 0x0E0004
def R.XNG_TIMING : Nat := 0x0E0008
def R.XNG_LIMITS : Nat := 0x0E000C
def R.XNG_HB_MAC_LO : Nat := 0x0E0010
def R.XNG_HB_MAC_HI : Nat := 0x0E0014
def R.XNG_INT_EN : Nat := 0x0E0018
def R.XNG_INT_STATUS : Nat := 0x0E001C
def R.XNG_SENT : Nat := 0x0E0020
def R.XNG_APPLIED : Nat := 0x0E0028
def R.XNG_LAG : Nat := 0x0E0030
def R.XNG_DIGEST_SEL : Nat := 0x0E0034
def R.XNG_POST_VAL_LO : Nat := 0x0E0040
def R.XNG_POST_VAL_HI : Nat := 0x0E0044
def R.XNG_POST_CMD : Nat := 0x0E0048
def R.XNG_POST_RESULT : Nat := 0x0E004C
def R.XNG_TBL_ADDR : Nat := 0x0E0080
def R.XNG_TBL_CMD : Nat := 0x0E0084
def R.XNG_TBL_STATUS : Nat := 0x0E0088
def R.XNG_TBL_DATA : Nat := 0x0E0100
def R.XNG_U_ENTRIES_SENT : Nat := 0x0E0400
def R.XNG_U_ENTRIES_RX : Nat := 0x0E0408
def R.XNG_U_ENTRIES_APPLIED : Nat := 0x0E0410
def R.XNG_U_ENTRIES_PENDING : Nat := 0x0E0418
def R.XNG_U_DIGESTS_MADE : Nat := 0x0E0420
def R.XNG_U_DIGESTS_MATCHED : Nat := 0x0E0428
def R.XNG_U_DIGESTS_MISMATCHED : Nat := 0x0E0430
def R.XNG_U_DIGESTS_TIMED_OUT : Nat := 0x0E0438
def R.XNG_U_DIGESTS_AWAITING : Nat := 0x0E0440
def R.XNG_U_HB_RX_CROSSING : Nat := 0x0E0448
def R.XNG_U_HB_RX_PORT : Nat := 0x0E0450
def R.XNG_U_HB_ACCEPTED : Nat := 0x0E0458
def R.XNG_U_HB_BAD : Nat := 0x0E0460
def R.XNG_U_RETRANSMITS : Nat := 0x0E0468
def R.XNG_U_OUTPUT_MARKS : Nat := 0x0E0470
def R.XNG_U_JOINS : Nat := 0x0E0478
def R.ERR_CTRL : Nat := 0x0F0000
def R.ERR_STATUS : Nat := 0x0F0004
def R.ERR_EPOCH : Nat := 0x0F0008
def R.ERR_INT_EN : Nat := 0x0F000C
def R.ERR_INT_STATUS : Nat := 0x0F0010
def R.ERR_LOG_POP : Nat := 0x0F0014
def R.ERR_LOG : Nat := 0x0F0020
def R.ERR_KICK : Nat := 0x0F0080
def R.ERR_CORE_UP : Nat := 0x0F0084
def R.ERR_RSV_KICK : Nat := 0x0F0088
def R.ERR_RECOVER : Nat := 0x0F008C
def R.ERR_ABORT : Nat := 0x0F0090
def R.ERR_SCRUB : Nat := 0x0F0094
def R.ERR_WDOG_SE : Nat := 0x0F0100
def R.ERR_WDOG_SV : Nat := 0x0F0140
def R.ERR_U_FAULTS : Nat := 0x0F0400
def R.ERR_U_CLASS : Nat := 0x0F0408
def R.ERR_U_POISON_READS : Nat := 0x0F0438
def R.ERR_U_LOG_LOST : Nat := 0x0F0440
def R.ERR_U_EPOCH_BREAKS : Nat := 0x0F0448
def R.ERR_U_ROLE_PASSES : Nat := 0x0F0450
def R.ERR_U_SCRUB_CORRECTED : Nat := 0x0F0458
def R.SEC_STATUS : Nat := 0x100000
def R.SEC_INT_EN : Nat := 0x100004
def R.SEC_INT_STATUS : Nat := 0x100008
def R.SEC_REMASK : Nat := 0x10000C
def R.SEC_TAMPER_GRADE : Nat := 0x100020
def R.SEC_TAMPER_LATCH : Nat := 0x100024
def R.SEC_TAMPER_TEMP : Nat := 0x100028
def R.SEC_U_COMMANDS : Nat := 0x100400
def R.SEC_U_DONE : Nat := 0x100408
def R.SEC_U_REFUSED : Nat := 0x100410
def R.SEC_U_ABORTED : Nat := 0x100418
def R.SEC_U_IN_PROGRESS : Nat := 0x100420
def R.SEC_U_NONAPPROVED : Nat := 0x100428
def R.SEC_U_TAMPER_EVENTS : Nat := 0x100430
def R.SEC_U_ZEROIZES : Nat := 0x100438
def R.SEC_U_REMASKS : Nat := 0x100440
def R.SEC_U_REMASK_LATE : Nat := 0x100448
def R.UND_STATUS : Nat := 0x110000
def R.UND_INT_EN : Nat := 0x110004
def R.UND_INT_STATUS : Nat := 0x110008
def R.UND_RTC_SUBSEC : Nat := 0x110010
def R.UND_RTC_TIME : Nat := 0x110014
def R.UND_RTC_DATE : Nat := 0x110018
def R.UND_RTC_WDAY : Nat := 0x11001C
def R.UND_RTC_STG_DATE : Nat := 0x110020
def R.UND_RTC_STG_TIME : Nat := 0x110024
def R.UND_RTC_SET_SEC : Nat := 0x110028
def R.UND_RTC_STATUS : Nat := 0x11002C
def R.UND_RTC_ALARM : Nat := 0x110030
def R.UND_WAKE_PERIOD : Nat := 0x110034
def R.UND_BACKUP_CTRL : Nat := 0x110040
def R.UND_BACKUP_STATUS : Nat := 0x110044
def R.UND_FIRST_BAT : Nat := 0x110048
def R.UND_FIRST_BAT_CLR : Nat := 0x110050
def R.UND_BAT_SECONDS : Nat := 0x110054
def R.UND_RL_HEAD : Nat := 0x110060
def R.UND_RL_INDEX : Nat := 0x110068
def R.UND_RL_DATA : Nat := 0x110080
def R.UND_RL_APP_DATA : Nat := 0x1100C0
def R.UND_RL_APP_CMD : Nat := 0x1100E0
def R.UND_U_RL_REQUESTED : Nat := 0x110400
def R.UND_U_RL_WRITTEN : Nat := 0x110408
def R.UND_U_RL_LOST : Nat := 0x110410
def R.UND_U_RL_PENDING : Nat := 0x110418
def R.UND_U_SWITCHES : Nat := 0x110420
def R.PRF_CTRL : Nat := 0x120000
def R.PRF_STATUS : Nat := 0x120004
def R.PRF_SNAP_TIME : Nat := 0x120008
def R.PRF_G_OVF_EN : Nat := 0x120010
def R.PRF_G_OVF : Nat := 0x120014
def R.PRF_G_CNT_CTRL : Nat := 0x121000
def R.PRF_G_CNT_REQ : Nat := 0x121004
def R.PRF_G_CNT_BASE : Nat := 0x121008
def R.PRF_G_CNT_LIMIT : Nat := 0x12100C
def R.PRF_G_CNT_LO : Nat := 0x121010
def R.PRF_G_CNT_HI : Nat := 0x121014
def R.PRF_G_CNT_SNAP_LO : Nat := 0x121018
def R.PRF_G_CNT_SNAP_HI : Nat := 0x12101C
def R.PRF_CNT_CTRL : Nat := 0x122000
def R.PRF_CNT_REQ : Nat := 0x122004
def R.PRF_CNT_BASE : Nat := 0x122008
def R.PRF_CNT_LIMIT : Nat := 0x12200C
def R.PRF_CNT_LO : Nat := 0x122010
def R.PRF_CNT_HI : Nat := 0x122014
def R.PRF_CNT_SNAP_LO : Nat := 0x122018
def R.PRF_CNT_SNAP_HI : Nat := 0x12201C
def R.PRF_S_CTRL : Nat := 0x122100
def R.PRF_S_PERIOD : Nat := 0x122104
def R.PRF_S_BASE_LO : Nat := 0x122108
def R.PRF_S_BASE_HI : Nat := 0x12210C
def R.PRF_S_SIZE : Nat := 0x122110
def R.PRF_S_WRITE : Nat := 0x122114
def R.PRF_S_READ : Nat := 0x122118
def R.PRF_S_SELECTED : Nat := 0x122120
def R.PRF_S_DUE : Nat := 0x122128
def R.PRF_S_WRITTEN : Nat := 0x122130
def R.PRF_S_LOST : Nat := 0x122138
def R.HST_STATUS : Nat := 0x130000
def R.HST_INT_EN : Nat := 0x130004
def R.HST_INT_STATUS : Nat := 0x130008
def R.HST_WAKE : Nat := 0x13000C
def R.HST_DP_ADDR_LO : Nat := 0x130100
def R.HST_DP_ADDR_HI : Nat := 0x130104
def R.HST_DP_BURST : Nat := 0x130108
def R.HST_DP_DATA : Nat := 0x13010C
def R.HST_DP_STATUS : Nat := 0x130110
def R.HST_DP_ERASE : Nat := 0x130114
def R.HST_DP_FIFO : Nat := 0x131000
def R.HST_MSIX_TABLE : Nat := 0x132000
def R.HST_MSIX_CTL : Nat := 0x13200C
def R.HST_MSIX_PBA : Nat := 0x133000
def R.HST_U_DP_WORDS_READ : Nat := 0x130400
def R.HST_U_DP_WORDS_WRITTEN : Nat := 0x130408
def R.HST_U_DP_COMMITTED : Nat := 0x130410
def R.HST_U_DP_DISCARDED : Nat := 0x130418
def R.HST_U_DP_BUFFERED : Nat := 0x130420
def R.HST_U_DP_ERRORS : Nat := 0x130428
def R.HST_U_UR : Nat := 0x130430
def R.HST_U_HOST_RESETS : Nat := 0x130438
def R.HST_U_WAKE_IGNORED : Nat := 0x130440
def R.HST_U_DP_ERASES : Nat := 0x130448

/-! Fields. -/
def F.SYS_MODE.PREV_MODE : Fld := ⟨0x000000, 19, 16⟩
def F.SYS_MODE.ISOLATED : Fld := ⟨0x000000, 8, 8⟩
def F.SYS_MODE.DUTY : Fld := ⟨0x000000, 7, 7⟩
def F.SYS_MODE.TRANSIT : Fld := ⟨0x000000, 6, 6⟩
def F.SYS_MODE.MODE : Fld := ⟨0x000000, 3, 0⟩
def F.SYS_MODE_REQ.KEY : Fld := ⟨0x000004, 31, 16⟩
def F.SYS_MODE_REQ.TARGET : Fld := ⟨0x000004, 3, 0⟩
def F.SYS_MODE_STATUS.REQ_ID : Fld := ⟨0x000008, 23, 16⟩
def F.SYS_MODE_STATUS.BOOT : Fld := ⟨0x000008, 11, 8⟩
def F.SYS_MODE_STATUS.TARGET : Fld := ⟨0x000008, 7, 4⟩
def F.SYS_MODE_STATUS.RESULT : Fld := ⟨0x000008, 3, 0⟩
def F.SYS_RESET.KEY : Fld := ⟨0x00000C, 31, 16⟩
def F.SYS_RESET.KIND : Fld := ⟨0x00000C, 1, 0⟩
def F.SYS_CORE_RESET.CORE : Fld := ⟨0x000010, 19, 0⟩
def F.SYS_RESET_CAUSE.CAUSE : Fld := ⟨0x000014, 3, 0⟩
def F.SYS_BOOT_TIMEWAIT.SECONDS : Fld := ⟨0x000018, 9, 0⟩
def F.SYS_BOOT_TARGET.TARGET : Fld := ⟨0x00001C, 1, 0⟩
def F.SYS_REFUSED_ADDR.REQ_ID : Fld := ⟨0x000028, 31, 24⟩
def F.SYS_REFUSED_ADDR.CAUSE : Fld := ⟨0x000028, 23, 21⟩
def F.SYS_REFUSED_ADDR.OFFSET : Fld := ⟨0x000028, 20, 0⟩
def F.SYS_DEGRADED.SV : Fld := ⟨0x00002C, 31, 28⟩
def F.SYS_DEGRADED.SE : Fld := ⟨0x00002C, 27, 12⟩
def F.SYS_DEGRADED.ACC : Fld := ⟨0x00002C, 11, 11⟩
def F.SYS_DEGRADED.CAP : Fld := ⟨0x00002C, 10, 10⟩
def F.SYS_DEGRADED.ISL : Fld := ⟨0x00002C, 9, 9⟩
def F.SYS_DEGRADED.OSC : Fld := ⟨0x00002C, 8, 8⟩
def F.SYS_DEGRADED.FLT : Fld := ⟨0x00002C, 7, 7⟩
def F.SYS_DEGRADED.XNG : Fld := ⟨0x00002C, 6, 6⟩
def F.SYS_DEGRADED.MGT : Fld := ⟨0x00002C, 5, 4⟩
def F.SYS_DEGRADED.NET : Fld := ⟨0x00002C, 3, 0⟩
def F.SYS_INT_EN.REQ_DONE : Fld := ⟨0x000038, 2, 2⟩
def F.SYS_INT_EN.REFUSED : Fld := ⟨0x000038, 1, 1⟩
def F.SYS_INT_EN.MODE_CHANGE : Fld := ⟨0x000038, 0, 0⟩
def F.SYS_INT_STATUS.REQ_DONE : Fld := ⟨0x00003C, 2, 2⟩
def F.SYS_INT_STATUS.REFUSED : Fld := ⟨0x00003C, 1, 1⟩
def F.SYS_INT_STATUS.MODE_CHANGE : Fld := ⟨0x00003C, 0, 0⟩
def F.SYS_TEST_CTRL.LOOP : Fld := ⟨0x000040, 21, 16⟩
def F.SYS_TEST_CTRL.INJ_EN : Fld := ⟨0x000040, 8, 8⟩
def F.SYS_TEST_CTRL.INJ_QUEUE : Fld := ⟨0x000040, 7, 0⟩
def F.SYS_TEST_WDOG.KICK : Fld := ⟨0x000044, 31, 31⟩
def F.SYS_TEST_WDOG.SECONDS : Fld := ⟨0x000044, 11, 0⟩
def F.IC_P_SRC_CTRL.EN : Fld := ⟨0x010000, 31, 31⟩
def F.IC_P_SRC_CTRL.PENDING : Fld := ⟨0x010000, 30, 30⟩
def F.IC_P_SRC_CTRL.ACTIVE : Fld := ⟨0x010000, 29, 29⟩
def F.IC_P_SRC_CTRL.HELD : Fld := ⟨0x010000, 28, 28⟩
def F.IC_P_SRC_CTRL.SENSE : Fld := ⟨0x010000, 27, 26⟩
def F.IC_P_SRC_CTRL.INPUT : Fld := ⟨0x010000, 20, 20⟩
def F.IC_P_SRC_CTRL.PRIO : Fld := ⟨0x010000, 3, 0⟩
def F.IC_P_SRC_MOD.COUNT_N : Fld := ⟨0x010004, 31, 24⟩
def F.IC_P_SRC_MOD.TIME_US : Fld := ⟨0x010004, 15, 0⟩
def F.IC_S_SRC_CTRL.EN : Fld := ⟨0x018000, 31, 31⟩
def F.IC_S_SRC_CTRL.PENDING : Fld := ⟨0x018000, 30, 30⟩
def F.IC_S_SRC_CTRL.ACTIVE : Fld := ⟨0x018000, 29, 29⟩
def F.IC_S_SRC_CTRL.HELD : Fld := ⟨0x018000, 28, 28⟩
def F.IC_S_SRC_CTRL.SENSE : Fld := ⟨0x018000, 27, 26⟩
def F.IC_S_SRC_CTRL.TARGET : Fld := ⟨0x018000, 25, 21⟩
def F.IC_S_SRC_CTRL.INPUT : Fld := ⟨0x018000, 20, 20⟩
def F.IC_S_SRC_CTRL.PRIO : Fld := ⟨0x018000, 3, 0⟩
def F.IC_S_SRC_MOD.COUNT_N : Fld := ⟨0x018004, 31, 24⟩
def F.IC_S_SRC_MOD.TIME_US : Fld := ⟨0x018004, 15, 0⟩
def F.IC_CLAIM.VALID : Fld := ⟨0x010200, 31, 31⟩
def F.IC_CLAIM.PRIO : Fld := ⟨0x010200, 19, 16⟩
def F.IC_CLAIM.ID : Fld := ⟨0x010200, 9, 0⟩
def F.IC_COMPLETE.ID : Fld := ⟨0x010204, 9, 0⟩
def F.IC_THRESHOLD.LEVEL : Fld := ⟨0x010208, 3, 0⟩
def F.IC_RUNNING.ANY : Fld := ⟨0x01020C, 31, 31⟩
def F.IC_RUNNING.LAST : Fld := ⟨0x01020C, 25, 16⟩
def F.IC_RUNNING.DEPTH : Fld := ⟨0x01020C, 13, 8⟩
def F.IC_RUNNING.PRIO : Fld := ⟨0x01020C, 3, 0⟩
def F.IC_SWI_SET.BITS : Fld := ⟨0x010210, 7, 0⟩
def F.IC_SWI_CLR.BITS : Fld := ⟨0x010214, 7, 0⟩
def F.IC_PEND_LO.BITS : Fld := ⟨0x010218, 31, 0⟩
def F.IC_PEND_HI.BITS : Fld := ⟨0x01021C, 31, 0⟩
def F.IC_SSWI_SET.BITS : Fld := ⟨0x01A000, 31, 0⟩
def F.IC_SSWI_CLR.BITS : Fld := ⟨0x01A004, 31, 0⟩
def F.IC_WAKE_CAUSE.VALID : Fld := ⟨0x01B000, 31, 31⟩
def F.IC_WAKE_CAUSE.FIRST : Fld := ⟨0x01B000, 19, 16⟩
def F.IC_WAKE_CAUSE.FIRED : Fld := ⟨0x01B000, 15, 0⟩
def F.IC_WAKE_SLOT.EN : Fld := ⟨0x01B040, 31, 31⟩
def F.IC_WAKE_SLOT.CODE : Fld := ⟨0x01B040, 28, 24⟩
def F.IC_WAKE_SLOT.COUNT_N : Fld := ⟨0x01B040, 15, 8⟩
def F.IC_WAKE_SLOT.EVENTS : Fld := ⟨0x01B040, 7, 0⟩
def F.RBT_STATUS.TSPILLING : Fld := ⟨0x020000, 31, 31⟩
def F.RBT_STATUS.READY : Fld := ⟨0x020000, 20, 0⟩
def F.RBT_INT_EN.TSPILL_FULL : Fld := ⟨0x020004, 4, 4⟩
def F.RBT_INT_EN.BP : Fld := ⟨0x020004, 3, 3⟩
def F.RBT_INT_EN.LEVEL : Fld := ⟨0x020004, 2, 2⟩
def F.RBT_INT_EN.INTEGRITY : Fld := ⟨0x020004, 1, 1⟩
def F.RBT_INT_EN.INVALID : Fld := ⟨0x020004, 0, 0⟩
def F.RBT_INT_STATUS.TSPILL_FULL : Fld := ⟨0x020008, 4, 4⟩
def F.RBT_INT_STATUS.BP : Fld := ⟨0x020008, 3, 3⟩
def F.RBT_INT_STATUS.LEVEL : Fld := ⟨0x020008, 2, 2⟩
def F.RBT_INT_STATUS.INTEGRITY : Fld := ⟨0x020008, 1, 1⟩
def F.RBT_INT_STATUS.INVALID : Fld := ⟨0x020008, 0, 0⟩
def F.RBT_CANCEL.ALLTAGS : Fld := ⟨0x02000C, 31, 31⟩
def F.RBT_CANCEL.KEY : Fld := ⟨0x02000C, 27, 16⟩
def F.RBT_CANCEL.TAG : Fld := ⟨0x02000C, 15, 0⟩
def F.RBT_QCMD.OP : Fld := ⟨0x020010, 9, 8⟩
def F.RBT_QCMD.QUEUE : Fld := ⟨0x020010, 7, 0⟩
def F.RBT_TSPILL.LOG2 : Fld := ⟨0x020014, 19, 15⟩
def F.RBT_TSPILL.BASE : Fld := ⟨0x020014, 14, 0⟩
def F.RBT_TBL_ADDR.TABLE : Fld := ⟨0x020020, 31, 29⟩
def F.RBT_TBL_ADDR.INDEX : Fld := ⟨0x020020, 11, 0⟩
def F.RBT_TBL_CMD.OP : Fld := ⟨0x020024, 1, 0⟩
def F.RBT_TBL_STATUS.BUSY : Fld := ⟨0x020028, 31, 31⟩
def F.RBT_TBL_STATUS.RESULT : Fld := ⟨0x020028, 2, 0⟩
def F.RBT_QEVENT.BITS : Fld := ⟨0x020040, 31, 0⟩
def F.RBT_TBL_DATA.DATA : Fld := ⟨0x020100, 31, 0⟩
def F.RBT_CLASS.DET : Fld := ⟨0x020200, 31, 31⟩
def F.RBT_CLASS.CORES : Fld := ⟨0x020200, 19, 0⟩
def F.RBT_CREDIT.FREE : Fld := ⟨0x020204, 28, 16⟩
def F.RBT_CREDIT.LIMIT : Fld := ⟨0x020204, 12, 0⟩
def F.RBT_HQ_CMD.FIRST : Fld := ⟨0x020300, 11, 11⟩
def F.RBT_HQ_CMD.LAST : Fld := ⟨0x020300, 10, 10⟩
def F.RBT_HQ_CMD.OP : Fld := ⟨0x020300, 9, 8⟩
def F.RBT_HQ_CMD.QUEUE : Fld := ⟨0x020300, 7, 0⟩
def F.RBT_HQ_RESULT.LEVEL : Fld := ⟨0x020304, 31, 16⟩
def F.RBT_HQ_RESULT.MARKS : Fld := ⟨0x020304, 9, 8⟩
def F.RBT_HQ_RESULT.RESULT : Fld := ⟨0x020304, 7, 0⟩
def F.RBT_HQ_DATA.DATA : Fld := ⟨0x020320, 31, 0⟩
def F.MBX_DB.BITS : Fld := ⟨0x030000, 31, 0⟩
def F.MBX_MASK.EN : Fld := ⟨0x030004, 31, 0⟩
def F.MBX_RX_INFO.VALID : Fld := ⟨0x030008, 31, 31⟩
def F.MBX_RX_INFO.BIT : Fld := ⟨0x030008, 28, 24⟩
def F.MBX_RX_INFO.SENDER : Fld := ⟨0x030008, 23, 16⟩
def F.MBX_RX_INFO.LEVEL : Fld := ⟨0x030008, 4, 0⟩
def F.MBX_RX_POP.POP : Fld := ⟨0x030014, 0, 0⟩
def F.MBX_HOST_VAL_LO.VAL : Fld := ⟨0x030600, 31, 0⟩
def F.MBX_HOST_VAL_HI.VAL : Fld := ⟨0x030604, 31, 0⟩
def F.MBX_HOST_CMD.BIT : Fld := ⟨0x030608, 12, 8⟩
def F.MBX_HOST_CMD.MAILBOX : Fld := ⟨0x030608, 4, 0⟩
def F.MBX_HOST_RESULT.RESULT : Fld := ⟨0x03060C, 7, 0⟩
def F.MBX_EMPTY_STATUS.BITS : Fld := ⟨0x030610, 23, 0⟩
def F.MBX_EMPTY_EN.BITS : Fld := ⟨0x030614, 23, 0⟩
def F.MBX_LOCK.BUSY : Fld := ⟨0x030800, 31, 31⟩
def F.MBX_LOCK.OWNER : Fld := ⟨0x030800, 7, 0⟩
def F.MBX_LOCK_FORCE.KEY : Fld := ⟨0x030900, 31, 16⟩
def F.MBX_LOCK_FORCE.LOCK : Fld := ⟨0x030900, 5, 0⟩
def F.NET_CTRL.TX_FLUSH : Fld := ⟨0x040000, 12, 12⟩
def F.NET_CTRL.MACSEC_EN : Fld := ⟨0x040000, 11, 11⟩
def F.NET_CTRL.PROMISC : Fld := ⟨0x040000, 10, 10⟩
def F.NET_CTRL.UNTAGGED : Fld := ⟨0x040000, 9, 9⟩
def F.NET_CTRL.TX_PAUSE_EN : Fld := ⟨0x040000, 8, 8⟩
def F.NET_CTRL.RX_PAUSE_EN : Fld := ⟨0x040000, 7, 7⟩
def F.NET_CTRL.FEC : Fld := ⟨0x040000, 6, 5⟩
def F.NET_CTRL.SPEED : Fld := ⟨0x040000, 4, 4⟩
def F.NET_CTRL.TX_EN : Fld := ⟨0x040000, 3, 3⟩
def F.NET_CTRL.RX_EN : Fld := ⟨0x040000, 2, 2⟩
def F.NET_CTRL.RUN : Fld := ⟨0x040000, 0, 0⟩
def F.NET_STATUS.MODULE : Fld := ⟨0x040004, 4, 4⟩
def F.NET_STATUS.FEC_LOCK : Fld := ⟨0x040004, 3, 3⟩
def F.NET_STATUS.TX_PAUSED : Fld := ⟨0x040004, 2, 2⟩
def F.NET_STATUS.LINK : Fld := ⟨0x040004, 1, 1⟩
def F.NET_STATUS.STOPPED : Fld := ⟨0x040004, 0, 0⟩
def F.NET_MAXLEN.BYTES : Fld := ⟨0x040008, 13, 0⟩
def F.NET_STATION_LO.ADDR_LO : Fld := ⟨0x04000C, 31, 0⟩
def F.NET_STATION_HI.ADDR_HI : Fld := ⟨0x040010, 15, 0⟩
def F.NET_RX_DELAY.PS : Fld := ⟨0x040014, 31, 0⟩
def F.NET_TX_DELAY.PS : Fld := ⟨0x040018, 31, 0⟩
def F.NET_PAUSE.REFRESH : Fld := ⟨0x04001C, 31, 16⟩
def F.NET_PAUSE.TIME : Fld := ⟨0x04001C, 15, 0⟩
def F.NET_INT_EN.PN_NEAR : Fld := ⟨0x040020, 4, 4⟩
def F.NET_INT_EN.OVERFLOW : Fld := ⟨0x040020, 3, 3⟩
def F.NET_INT_EN.TRUNCATED : Fld := ⟨0x040020, 2, 2⟩
def F.NET_INT_EN.PAUSED : Fld := ⟨0x040020, 1, 1⟩
def F.NET_INT_EN.LINK : Fld := ⟨0x040020, 0, 0⟩
def F.NET_INT_STATUS.PN_NEAR : Fld := ⟨0x040024, 4, 4⟩
def F.NET_INT_STATUS.OVERFLOW : Fld := ⟨0x040024, 3, 3⟩
def F.NET_INT_STATUS.TRUNCATED : Fld := ⟨0x040024, 2, 2⟩
def F.NET_INT_STATUS.PAUSED : Fld := ⟨0x040024, 1, 1⟩
def F.NET_INT_STATUS.LINK : Fld := ⟨0x040024, 0, 0⟩
def F.NET_VLAN.VID : Fld := ⟨0x040100, 31, 0⟩
def F.NET_MACSEC_CTRL.WINDOW : Fld := ⟨0x041000, 31, 2⟩
def F.NET_MACSEC_CTRL.TX_AN : Fld := ⟨0x041000, 1, 1⟩
def F.NET_MACSEC_CTRL.PTP_BYPASS : Fld := ⟨0x041000, 0, 0⟩
def F.NET_MACSEC_PN_THRESH.PN : Fld := ⟨0x041004, 31, 0⟩
def F.NET_MACSEC_SCI_LO.SCI_LO : Fld := ⟨0x041100, 31, 0⟩
def F.NET_MACSEC_SCI_HI.SCI_HI : Fld := ⟨0x041104, 31, 0⟩
def F.NET_MCAST_LO.ADDR_LO : Fld := ⟨0x04E000, 31, 0⟩
def F.NET_MCAST_HI.VALID : Fld := ⟨0x04E004, 31, 31⟩
def F.NET_MCAST_HI.PORTS : Fld := ⟨0x04E004, 21, 16⟩
def F.NET_MCAST_HI.ADDR_HI : Fld := ⟨0x04E004, 15, 0⟩
def F.ING_CTRL.RSV_EN : Fld := ⟨0x050000, 6, 6⟩
def F.ING_CTRL.TCP_EN : Fld := ⟨0x050000, 5, 5⟩
def F.ING_CTRL.UDP6_EN : Fld := ⟨0x050000, 4, 4⟩
def F.ING_CTRL.UDP4_EN : Fld := ⟨0x050000, 3, 3⟩
def F.ING_CTRL.RUN : Fld := ⟨0x050000, 0, 0⟩
def F.ING_STATUS.PENDING : Fld := ⟨0x050004, 31, 16⟩
def F.ING_STATUS.STOPPED : Fld := ⟨0x050004, 0, 0⟩
def F.ING_GRID_TOL.US : Fld := ⟨0x050008, 9, 0⟩
def F.ING_FUTURE_LIMIT.MS : Fld := ⟨0x05000C, 13, 0⟩
def F.ING_SV_QUEUE.NONDATA : Fld := ⟨0x050010, 15, 8⟩
def F.ING_SV_QUEUE.PASS : Fld := ⟨0x050010, 7, 0⟩
def F.ING_INT_EN.TBL_DONE : Fld := ⟨0x050014, 4, 4⟩
def F.ING_INT_EN.TCP_CLOSED : Fld := ⟨0x050014, 3, 3⟩
def F.ING_INT_EN.UNKNOWN : Fld := ⟨0x050014, 2, 2⟩
def F.ING_INT_EN.OVERFLOW : Fld := ⟨0x050014, 1, 1⟩
def F.ING_INT_EN.CFG_CHANGE : Fld := ⟨0x050014, 0, 0⟩
def F.ING_INT_STATUS.TBL_DONE : Fld := ⟨0x050018, 4, 4⟩
def F.ING_INT_STATUS.TCP_CLOSED : Fld := ⟨0x050018, 3, 3⟩
def F.ING_INT_STATUS.UNKNOWN : Fld := ⟨0x050018, 2, 2⟩
def F.ING_INT_STATUS.OVERFLOW : Fld := ⟨0x050018, 1, 1⟩
def F.ING_INT_STATUS.CFG_CHANGE : Fld := ⟨0x050018, 0, 0⟩
def F.ING_PASS_BASE.BASE : Fld := ⟨0x05001C, 25, 18⟩
def F.ING_TBL_ADDR.TABLE : Fld := ⟨0x050020, 31, 29⟩
def F.ING_TBL_ADDR.INDEX : Fld := ⟨0x050020, 17, 0⟩
def F.ING_TBL_CMD.OP : Fld := ⟨0x050024, 1, 0⟩
def F.ING_TBL_STATUS.BUSY : Fld := ⟨0x050028, 31, 31⟩
def F.ING_TBL_STATUS.RESULT : Fld := ⟨0x050028, 2, 0⟩
def F.ING_PASS_WRITE.COUNT : Fld := ⟨0x05002C, 31, 0⟩
def F.ING_PASS_RELEASE.COUNT : Fld := ⟨0x050030, 31, 0⟩
def F.ING_TBL_DATA.DATA : Fld := ⟨0x050100, 31, 0⟩
def F.TIM_CTRL.PTP_PORTS : Fld := ⟨0x060000, 21, 16⟩
def F.TIM_CTRL.PPS_SQUELCH : Fld := ⟨0x060000, 12, 12⟩
def F.TIM_CTRL.PPS_OUT_EN : Fld := ⟨0x060000, 11, 11⟩
def F.TIM_CTRL.XCHK_POLICY : Fld := ⟨0x060000, 10, 9⟩
def F.TIM_CTRL.XCHK_SRC : Fld := ⟨0x060000, 8, 6⟩
def F.TIM_CTRL.IRIG_MODE : Fld := ⟨0x060000, 5, 4⟩
def F.TIM_CTRL.SRC : Fld := ⟨0x060000, 3, 1⟩
def F.TIM_CTRL.RUN : Fld := ⟨0x060000, 0, 0⟩
def F.TIM_STATUS.PTP_PORT : Fld := ⟨0x060004, 11, 9⟩
def F.TIM_STATUS.XCHK_FAIL : Fld := ⟨0x060004, 8, 8⟩
def F.TIM_STATUS.STEP_ARMED : Fld := ⟨0x060004, 7, 7⟩
def F.TIM_STATUS.RELEASE_HOLD : Fld := ⟨0x060004, 6, 6⟩
def F.TIM_STATUS.HELD : Fld := ⟨0x060004, 5, 5⟩
def F.TIM_STATUS.REFUSED : Fld := ⟨0x060004, 4, 4⟩
def F.TIM_STATUS.STATE : Fld := ⟨0x060004, 3, 2⟩
def F.TIM_STATUS.STOPPED : Fld := ⟨0x060004, 0, 0⟩
def F.TIM_NOW_LO.NOW : Fld := ⟨0x060008, 31, 0⟩
def F.TIM_NOW_HI.NOW : Fld := ⟨0x06000C, 31, 0⟩
def F.TIM_NOW_TOP.NOW : Fld := ⟨0x060010, 15, 0⟩
def F.TIM_JUMP_LIMIT.US : Fld := ⟨0x060014, 19, 0⟩
def F.TIM_KP_ACQ.GAIN : Fld := ⟨0x060018, 31, 0⟩
def F.TIM_KI_ACQ.GAIN : Fld := ⟨0x06001C, 31, 0⟩
def F.TIM_KP_LOCK.GAIN : Fld := ⟨0x060020, 31, 0⟩
def F.TIM_KI_LOCK.GAIN : Fld := ⟨0x060024, 31, 0⟩
def F.TIM_LOCK.COUNT : Fld := ⟨0x060028, 31, 24⟩
def F.TIM_LOCK.UNLOCK : Fld := ⟨0x060028, 23, 12⟩
def F.TIM_LOCK.LOCK_NS : Fld := ⟨0x060028, 11, 0⟩
def F.TIM_SRC_TIMEOUT.S : Fld := ⟨0x06002C, 7, 0⟩
def F.TIM_FREQ_ADJ.ADJ : Fld := ⟨0x060030, 31, 0⟩
def F.TIM_OFFSET.NS : Fld := ⟨0x060034, 31, 0⟩
def F.TIM_TQ.TQ : Fld := ⟨0x060040, 15, 0⟩
def F.TIM_HOLD_DRIFT.PS_PER_S : Fld := ⟨0x060044, 15, 0⟩
def F.TIM_UTC.OVERRIDE : Fld := ⟨0x060048, 31, 31⟩
def F.TIM_UTC.LEAP : Fld := ⟨0x060048, 30, 29⟩
def F.TIM_UTC.OFFSET : Fld := ⟨0x060048, 15, 0⟩
def F.TIM_UTC_NOW.VALID : Fld := ⟨0x06004C, 31, 31⟩
def F.TIM_UTC_NOW.LEAP : Fld := ⟨0x06004C, 30, 29⟩
def F.TIM_UTC_NOW.FROM : Fld := ⟨0x06004C, 28, 27⟩
def F.TIM_UTC_NOW.OFFSET : Fld := ⟨0x06004C, 15, 0⟩
def F.TIM_LEAP_AT.AT : Fld := ⟨0x060050, 31, 0⟩
def F.TIM_DELAY_PPS_IN.NS : Fld := ⟨0x060054, 31, 0⟩
def F.TIM_DELAY_IRIG.NS : Fld := ⟨0x060058, 31, 0⟩
def F.TIM_DELAY_PPS_OUT.NS : Fld := ⟨0x06005C, 31, 0⟩
def F.TIM_PPS_OUT.WIDTH_MS : Fld := ⟨0x060060, 9, 0⟩
def F.TIM_XCHK_LIMIT.US : Fld := ⟨0x060064, 19, 0⟩
def F.TIM_PTP.DOMAIN : Fld := ⟨0x060068, 7, 0⟩
def F.TIM_SRC_ACCURACY.NS : Fld := ⟨0x06006C, 19, 0⟩
def F.TIM_INT_EN.CMP : Fld := ⟨0x060070, 6, 6⟩
def F.TIM_INT_EN.LEAP : Fld := ⟨0x060070, 5, 5⟩
def F.TIM_INT_EN.XCHK : Fld := ⟨0x060070, 4, 4⟩
def F.TIM_INT_EN.STEPPED : Fld := ⟨0x060070, 3, 3⟩
def F.TIM_INT_EN.REFUSED : Fld := ⟨0x060070, 2, 2⟩
def F.TIM_INT_EN.HOLDOVER : Fld := ⟨0x060070, 1, 1⟩
def F.TIM_INT_EN.STATE : Fld := ⟨0x060070, 0, 0⟩
def F.TIM_INT_STATUS.CMP : Fld := ⟨0x060074, 6, 6⟩
def F.TIM_INT_STATUS.LEAP : Fld := ⟨0x060074, 5, 5⟩
def F.TIM_INT_STATUS.XCHK : Fld := ⟨0x060074, 4, 4⟩
def F.TIM_INT_STATUS.STEPPED : Fld := ⟨0x060074, 3, 3⟩
def F.TIM_INT_STATUS.REFUSED : Fld := ⟨0x060074, 2, 2⟩
def F.TIM_INT_STATUS.HOLDOVER : Fld := ⟨0x060074, 1, 1⟩
def F.TIM_INT_STATUS.STATE : Fld := ⟨0x060074, 0, 0⟩
def F.TIM_ASYM.NS : Fld := ⟨0x060080, 31, 0⟩
def F.TIM_CMP_CTRL.LATE : Fld := ⟨0x060100, 2, 2⟩
def F.TIM_CMP_CTRL.FIRED : Fld := ⟨0x060100, 1, 1⟩
def F.TIM_CMP_CTRL.ARM : Fld := ⟨0x060100, 0, 0⟩
def F.TIM_CMP_LO.VAL : Fld := ⟨0x060104, 31, 0⟩
def F.TIM_CMP_HI.VAL : Fld := ⟨0x060108, 31, 0⟩
def F.GLD_CTRL.RUN : Fld := ⟨0x070000, 0, 0⟩
def F.GLD_STATUS.OPEN : Fld := ⟨0x070004, 25, 16⟩
def F.GLD_STATUS.HOLD : Fld := ⟨0x070004, 1, 1⟩
def F.GLD_STATUS.STOPPED : Fld := ⟨0x070004, 0, 0⟩
def F.GLD_INT_EN.HOLD : Fld := ⟨0x070010, 5, 5⟩
def F.GLD_INT_EN.GROVE_STOPPED : Fld := ⟨0x070010, 4, 4⟩
def F.GLD_INT_EN.RELEASE_LATE : Fld := ⟨0x070010, 3, 3⟩
def F.GLD_INT_EN.NOTICE_REFUSED : Fld := ⟨0x070010, 2, 2⟩
def F.GLD_INT_EN.EARLY_CLOSE : Fld := ⟨0x070010, 1, 1⟩
def F.GLD_INT_EN.CAPACITY : Fld := ⟨0x070010, 0, 0⟩
def F.GLD_INT_STATUS.HOLD : Fld := ⟨0x070014, 5, 5⟩
def F.GLD_INT_STATUS.GROVE_STOPPED : Fld := ⟨0x070014, 4, 4⟩
def F.GLD_INT_STATUS.RELEASE_LATE : Fld := ⟨0x070014, 3, 3⟩
def F.GLD_INT_STATUS.NOTICE_REFUSED : Fld := ⟨0x070014, 2, 2⟩
def F.GLD_INT_STATUS.EARLY_CLOSE : Fld := ⟨0x070014, 1, 1⟩
def F.GLD_INT_STATUS.CAPACITY : Fld := ⟨0x070014, 0, 0⟩
def F.GLD_TBL_ADDR.TABLE : Fld := ⟨0x070020, 31, 29⟩
def F.GLD_TBL_ADDR.INDEX : Fld := ⟨0x070020, 13, 0⟩
def F.GLD_TBL_CMD.OP : Fld := ⟨0x070024, 1, 0⟩
def F.GLD_TBL_STATUS.BUSY : Fld := ⟨0x070028, 31, 31⟩
def F.GLD_TBL_STATUS.RESULT : Fld := ⟨0x070028, 2, 0⟩
def F.GLD_TBL_DATA.DATA : Fld := ⟨0x070100, 31, 0⟩
def F.GLD_G_CTRL.RATE : Fld := ⟨0x071000, 31, 24⟩
def F.GLD_G_CTRL.TQ_ABSENT : Fld := ⟨0x071000, 23, 22⟩
def F.GLD_G_CTRL.DUP_FILL : Fld := ⟨0x071000, 21, 21⟩
def F.GLD_G_CTRL.FEED : Fld := ⟨0x071000, 20, 17⟩
def F.GLD_G_CTRL.RUN : Fld := ⟨0x071000, 0, 0⟩
def F.GLD_G_STATUS.EXPECTED : Fld := ⟨0x071004, 30, 16⟩
def F.GLD_G_STATUS.OPEN : Fld := ⟨0x071004, 13, 4⟩
def F.GLD_G_STATUS.BAD_CFG : Fld := ⟨0x071004, 3, 1⟩
def F.GLD_G_STATUS.STOPPED : Fld := ⟨0x071004, 0, 0⟩
def F.GLD_WINDOW.US : Fld := ⟨0x071008, 21, 0⟩
def F.GLD_HORIZON.MS : Fld := ⟨0x07100C, 15, 0⟩
def F.GLD_QUORUM.BP : Fld := ⟨0x071010, 13, 0⟩
def F.GLD_G_QUEUE.AMEND : Fld := ⟨0x071014, 15, 8⟩
def F.GLD_G_QUEUE.RELEASE : Fld := ⟨0x071014, 7, 0⟩
def F.GLD_STORE_BASE.BASE : Fld := ⟨0x071018, 16, 0⟩
def F.GLD_STORE_RECORDS.N : Fld := ⟨0x07101C, 19, 0⟩
def F.GLD_AMEND_BASE.BASE : Fld := ⟨0x071020, 16, 0⟩
def F.GLD_AMEND_RECORDS.N : Fld := ⟨0x071024, 19, 0⟩
def F.GLD_RECSIZE.UNITS : Fld := ⟨0x071028, 23, 0⟩
def F.GLD_TOTALS.W : Fld := ⟨0x07102C, 21, 0⟩
def F.FLT_CTRL.RUN : Fld := ⟨0x080000, 0, 0⟩
def F.FLT_STATUS.PENDING : Fld := ⟨0x080004, 24, 16⟩
def F.FLT_STATUS.BUSY : Fld := ⟨0x080004, 1, 1⟩
def F.FLT_STATUS.STOPPED : Fld := ⟨0x080004, 0, 0⟩
def F.FLT_OUT_QUEUE.QUEUE : Fld := ⟨0x080008, 7, 0⟩
def F.FLT_OUT_BASE_LO.ADDR_LO : Fld := ⟨0x08000C, 31, 6⟩
def F.FLT_OUT_BASE_HI.ADDR_HI : Fld := ⟨0x080010, 7, 0⟩
def F.FLT_OUT_RECORDS.N : Fld := ⟨0x080014, 23, 0⟩
def F.FLT_INT_EN.SWAP : Fld := ⟨0x080018, 3, 3⟩
def F.FLT_INT_EN.DROPPED : Fld := ⟨0x080018, 2, 2⟩
def F.FLT_INT_EN.FADE_ABANDONED : Fld := ⟨0x080018, 1, 1⟩
def F.FLT_INT_EN.FADE_DONE : Fld := ⟨0x080018, 0, 0⟩
def F.FLT_INT_STATUS.SWAP : Fld := ⟨0x08001C, 3, 3⟩
def F.FLT_INT_STATUS.DROPPED : Fld := ⟨0x08001C, 2, 2⟩
def F.FLT_INT_STATUS.FADE_ABANDONED : Fld := ⟨0x08001C, 1, 1⟩
def F.FLT_INT_STATUS.FADE_DONE : Fld := ⟨0x08001C, 0, 0⟩
def F.FLT_TBL_ADDR.TABLE : Fld := ⟨0x080020, 31, 29⟩
def F.FLT_TBL_ADDR.INDEX : Fld := ⟨0x080020, 11, 0⟩
def F.FLT_TBL_CMD.OP : Fld := ⟨0x080024, 1, 0⟩
def F.FLT_TBL_STATUS.BUSY : Fld := ⟨0x080028, 31, 31⟩
def F.FLT_TBL_STATUS.RESULT : Fld := ⟨0x080028, 2, 0⟩
def F.FLT_TBL_DATA.DATA : Fld := ⟨0x080100, 31, 0⟩
def F.OSC_CTRL.RUN : Fld := ⟨0x090000, 0, 0⟩
def F.OSC_STATUS.PENDING : Fld := ⟨0x090004, 22, 16⟩
def F.OSC_STATUS.BUSY : Fld := ⟨0x090004, 1, 1⟩
def F.OSC_STATUS.STOPPED : Fld := ⟨0x090004, 0, 0⟩
def F.OSC_QUEUE.FO_EVENT : Fld := ⟨0x090008, 31, 24⟩
def F.OSC_QUEUE.FO_REPORT : Fld := ⟨0x090008, 23, 16⟩
def F.OSC_QUEUE.TRK_EVENT : Fld := ⟨0x090008, 15, 8⟩
def F.OSC_QUEUE.TRK_REPORT : Fld := ⟨0x090008, 7, 0⟩
def F.OSC_TRK_BASE_LO.ADDR_LO : Fld := ⟨0x09000C, 31, 6⟩
def F.OSC_TRK_BASE_HI.ADDR_HI : Fld := ⟨0x090010, 7, 0⟩
def F.OSC_TRK_RECORDS.N : Fld := ⟨0x090014, 19, 0⟩
def F.OSC_FO_BASE_LO.ADDR_LO : Fld := ⟨0x090018, 31, 6⟩
def F.OSC_FO_BASE_HI.ADDR_HI : Fld := ⟨0x09001C, 7, 0⟩
def F.OSC_FO_RECORDS.N : Fld := ⟨0x090020, 15, 0⟩
def F.OSC_INT_EN.CONFIG_LOST : Fld := ⟨0x090024, 6, 6⟩
def F.OSC_INT_EN.FO_EVENT : Fld := ⟨0x090024, 5, 5⟩
def F.OSC_INT_EN.TRK_EVENT : Fld := ⟨0x090024, 4, 4⟩
def F.OSC_INT_EN.WITHHELD : Fld := ⟨0x090024, 3, 3⟩
def F.OSC_INT_EN.NOTICE_REFUSED : Fld := ⟨0x090024, 2, 2⟩
def F.OSC_INT_EN.DROPPED : Fld := ⟨0x090024, 1, 1⟩
def F.OSC_INT_EN.RESET : Fld := ⟨0x090024, 0, 0⟩
def F.OSC_INT_STATUS.CONFIG_LOST : Fld := ⟨0x090028, 6, 6⟩
def F.OSC_INT_STATUS.FO_EVENT : Fld := ⟨0x090028, 5, 5⟩
def F.OSC_INT_STATUS.TRK_EVENT : Fld := ⟨0x090028, 4, 4⟩
def F.OSC_INT_STATUS.WITHHELD : Fld := ⟨0x090028, 3, 3⟩
def F.OSC_INT_STATUS.NOTICE_REFUSED : Fld := ⟨0x090028, 2, 2⟩
def F.OSC_INT_STATUS.DROPPED : Fld := ⟨0x090028, 1, 1⟩
def F.OSC_INT_STATUS.RESET : Fld := ⟨0x090028, 0, 0⟩
def F.OSC_TBL_ADDR.TABLE : Fld := ⟨0x090030, 31, 29⟩
def F.OSC_TBL_ADDR.INDEX : Fld := ⟨0x090030, 10, 0⟩
def F.OSC_TBL_CMD.OP : Fld := ⟨0x090034, 1, 0⟩
def F.OSC_TBL_STATUS.BUSY : Fld := ⟨0x090038, 31, 31⟩
def F.OSC_TBL_STATUS.RESULT : Fld := ⟨0x090038, 2, 0⟩
def F.OSC_TBL_DATA.DATA : Fld := ⟨0x090100, 31, 0⟩
def F.ISL_CTRL.RUN : Fld := ⟨0x0A0000, 0, 0⟩
def F.ISL_STATUS.ISLANDS : Fld := ⟨0x0A0004, 31, 16⟩
def F.ISL_STATUS.PENDING : Fld := ⟨0x0A0004, 15, 8⟩
def F.ISL_STATUS.RECOMP : Fld := ⟨0x0A0004, 2, 2⟩
def F.ISL_STATUS.BUSY : Fld := ⟨0x0A0004, 1, 1⟩
def F.ISL_STATUS.STOPPED : Fld := ⟨0x0A0004, 0, 0⟩
def F.ISL_QUEUE.MAP : Fld := ⟨0x0A0008, 23, 16⟩
def F.ISL_QUEUE.EVENT : Fld := ⟨0x0A0008, 15, 8⟩
def F.ISL_QUEUE.RESULT : Fld := ⟨0x0A0008, 7, 0⟩
def F.ISL_RES_BASE_LO.ADDR_LO : Fld := ⟨0x0A000C, 31, 6⟩
def F.ISL_RES_BASE_HI.ADDR_HI : Fld := ⟨0x0A0010, 7, 0⟩
def F.ISL_RES_RECORDS.N : Fld := ⟨0x0A0014, 15, 0⟩
def F.ISL_MAP_BASE_LO.ADDR_LO : Fld := ⟨0x0A0018, 31, 6⟩
def F.ISL_MAP_BASE_HI.ADDR_HI : Fld := ⟨0x0A001C, 7, 0⟩
def F.ISL_MAP_RECORDS.N : Fld := ⟨0x0A0020, 12, 0⟩
def F.ISL_INT_EN.CONFIG_LOST : Fld := ⟨0x0A002C, 6, 6⟩
def F.ISL_INT_EN.DP_INVALID : Fld := ⟨0x0A002C, 5, 5⟩
def F.ISL_INT_EN.OVERFLOW : Fld := ⟨0x0A002C, 4, 4⟩
def F.ISL_INT_EN.LATE : Fld := ⟨0x0A002C, 3, 3⟩
def F.ISL_INT_EN.DROPPED : Fld := ⟨0x0A002C, 2, 2⟩
def F.ISL_INT_EN.NOTICE_REFUSED : Fld := ⟨0x0A002C, 1, 1⟩
def F.ISL_INT_EN.MAP_CHANGED : Fld := ⟨0x0A002C, 0, 0⟩
def F.ISL_INT_STATUS.CONFIG_LOST : Fld := ⟨0x0A0030, 6, 6⟩
def F.ISL_INT_STATUS.DP_INVALID : Fld := ⟨0x0A0030, 5, 5⟩
def F.ISL_INT_STATUS.OVERFLOW : Fld := ⟨0x0A0030, 4, 4⟩
def F.ISL_INT_STATUS.LATE : Fld := ⟨0x0A0030, 3, 3⟩
def F.ISL_INT_STATUS.DROPPED : Fld := ⟨0x0A0030, 2, 2⟩
def F.ISL_INT_STATUS.NOTICE_REFUSED : Fld := ⟨0x0A0030, 1, 1⟩
def F.ISL_INT_STATUS.MAP_CHANGED : Fld := ⟨0x0A0030, 0, 0⟩
def F.ISL_TBL_ADDR.TABLE : Fld := ⟨0x0A0040, 31, 29⟩
def F.ISL_TBL_ADDR.INDEX : Fld := ⟨0x0A0040, 14, 0⟩
def F.ISL_TBL_CMD.OP : Fld := ⟨0x0A0044, 1, 0⟩
def F.ISL_TBL_STATUS.BUSY : Fld := ⟨0x0A0048, 31, 31⟩
def F.ISL_TBL_STATUS.RESULT : Fld := ⟨0x0A0048, 2, 0⟩
def F.ISL_TBL_DATA.DATA : Fld := ⟨0x0A0100, 31, 0⟩
def F.ALM_CTRL.RUN : Fld := ⟨0x0B0000, 0, 0⟩
def F.ALM_STATUS.DRIVEN : Fld := ⟨0x0B0004, 2, 2⟩
def F.ALM_STATUS.FROZEN : Fld := ⟨0x0B0004, 1, 1⟩
def F.ALM_STATUS.STOPPED : Fld := ⟨0x0B0004, 0, 0⟩
def F.ALM_UNIT_ID.ID : Fld := ⟨0x0B0008, 31, 0⟩
def F.ALM_KEEPALIVE.MS : Fld := ⟨0x0B000C, 15, 0⟩
def F.ALM_REC_BASE_LO.ADDR_LO : Fld := ⟨0x0B0010, 31, 6⟩
def F.ALM_REC_BASE_HI.ADDR_HI : Fld := ⟨0x0B0014, 7, 0⟩
def F.ALM_REC_RECORDS.N : Fld := ⟨0x0B0018, 23, 0⟩
def F.ALM_REC_QUEUE.QUEUE : Fld := ⟨0x0B001C, 7, 0⟩
def F.ALM_INT_EN.PUB_REFUSED : Fld := ⟨0x0B0020, 4, 4⟩
def F.ALM_INT_EN.NOTICE_REFUSED : Fld := ⟨0x0B0020, 3, 3⟩
def F.ALM_INT_EN.REVERSED : Fld := ⟨0x0B0020, 2, 2⟩
def F.ALM_INT_EN.LATE : Fld := ⟨0x0B0020, 1, 1⟩
def F.ALM_INT_EN.ORDER : Fld := ⟨0x0B0020, 0, 0⟩
def F.ALM_INT_STATUS.PUB_REFUSED : Fld := ⟨0x0B0024, 4, 4⟩
def F.ALM_INT_STATUS.NOTICE_REFUSED : Fld := ⟨0x0B0024, 3, 3⟩
def F.ALM_INT_STATUS.REVERSED : Fld := ⟨0x0B0024, 2, 2⟩
def F.ALM_INT_STATUS.LATE : Fld := ⟨0x0B0024, 1, 1⟩
def F.ALM_INT_STATUS.ORDER : Fld := ⟨0x0B0024, 0, 0⟩
def F.ALM_DEC_CTX.BASIS : Fld := ⟨0x0B0040, 31, 30⟩
def F.ALM_DEC_CTX.GROVE : Fld := ⟨0x0B0040, 29, 24⟩
def F.ALM_DEC_SEQ_LO.SETSEQ : Fld := ⟨0x0B0044, 31, 0⟩
def F.ALM_DEC_SEQ_HI.SETSEQ : Fld := ⟨0x0B0048, 31, 0⟩
def F.ALM_DEC_T0_LO.T0 : Fld := ⟨0x0B004C, 31, 0⟩
def F.ALM_DEC_T0_HI.T0 : Fld := ⟨0x0B0050, 31, 0⟩
def F.ALM_DECIDE.DONE : Fld := ⟨0x0B0054, 31, 31⟩
def F.ALM_DECIDE.VALUE : Fld := ⟨0x0B0054, 16, 16⟩
def F.ALM_DECIDE.POINT : Fld := ⟨0x0B0054, 8, 0⟩
def F.ALM_ACK.POINT : Fld := ⟨0x0B0058, 8, 0⟩
def F.ALM_OUT_STATE.LEVEL : Fld := ⟨0x0B005C, 11, 0⟩
def F.ALM_OUT_FORCE.EN : Fld := ⟨0x0B0060, 27, 16⟩
def F.ALM_OUT_FORCE.LEVEL : Fld := ⟨0x0B0060, 11, 0⟩
def F.ALM_TBL_ADDR.TABLE : Fld := ⟨0x0B0080, 31, 29⟩
def F.ALM_TBL_ADDR.INDEX : Fld := ⟨0x0B0080, 17, 0⟩
def F.ALM_TBL_CMD.OP : Fld := ⟨0x0B0084, 1, 0⟩
def F.ALM_TBL_STATUS.BUSY : Fld := ⟨0x0B0088, 31, 31⟩
def F.ALM_TBL_STATUS.RESULT : Fld := ⟨0x0B0088, 2, 0⟩
def F.ALM_TBL_DATA.DATA : Fld := ⟨0x0B0100, 31, 0⟩
def F.CAP_CTRL.RUN : Fld := ⟨0x0C0000, 0, 0⟩
def F.CAP_STATUS.PENDING : Fld := ⟨0x0C0004, 23, 16⟩
def F.CAP_STATUS.FULL : Fld := ⟨0x0C0004, 1, 1⟩
def F.CAP_STATUS.STOPPED : Fld := ⟨0x0C0004, 0, 0⟩
def F.CAP_RING_BASE_LO.ADDR_LO : Fld := ⟨0x0C000C, 31, 6⟩
def F.CAP_RING_BASE_HI.ADDR_HI : Fld := ⟨0x0C0010, 7, 0⟩
def F.CAP_RING_SIZE.N : Fld := ⟨0x0C0014, 15, 0⟩
def F.CAP_RELEASE_LO.OFF : Fld := ⟨0x0C0020, 31, 0⟩
def F.CAP_RELEASE_HI.OFF : Fld := ⟨0x0C0024, 31, 0⟩
def F.CAP_QUEUE.QUEUE : Fld := ⟨0x0C0028, 7, 0⟩
def F.CAP_TRIGGER.SEQ : Fld := ⟨0x0C002C, 15, 0⟩
def F.CAP_INT_EN.FLASH_ERR : Fld := ⟨0x0C0030, 5, 5⟩
def F.CAP_INT_EN.NOTICE_REFUSED : Fld := ⟨0x0C0030, 4, 4⟩
def F.CAP_INT_EN.BUFFER_FULL : Fld := ⟨0x0C0030, 3, 3⟩
def F.CAP_INT_EN.DROPPED : Fld := ⟨0x0C0030, 2, 2⟩
def F.CAP_INT_EN.CLOSE : Fld := ⟨0x0C0030, 1, 1⟩
def F.CAP_INT_EN.OPEN : Fld := ⟨0x0C0030, 0, 0⟩
def F.CAP_INT_STATUS.FLASH_ERR : Fld := ⟨0x0C0034, 5, 5⟩
def F.CAP_INT_STATUS.NOTICE_REFUSED : Fld := ⟨0x0C0034, 4, 4⟩
def F.CAP_INT_STATUS.BUFFER_FULL : Fld := ⟨0x0C0034, 3, 3⟩
def F.CAP_INT_STATUS.DROPPED : Fld := ⟨0x0C0034, 2, 2⟩
def F.CAP_INT_STATUS.CLOSE : Fld := ⟨0x0C0034, 1, 1⟩
def F.CAP_INT_STATUS.OPEN : Fld := ⟨0x0C0034, 0, 0⟩
def F.CAP_TBL_ADDR.TABLE : Fld := ⟨0x0C0040, 31, 29⟩
def F.CAP_TBL_ADDR.INDEX : Fld := ⟨0x0C0040, 9, 0⟩
def F.CAP_TBL_CMD.OP : Fld := ⟨0x0C0044, 1, 0⟩
def F.CAP_TBL_STATUS.BUSY : Fld := ⟨0x0C0048, 31, 31⟩
def F.CAP_TBL_STATUS.RESULT : Fld := ⟨0x0C0048, 2, 0⟩
def F.CAP_TBL_DATA.DATA : Fld := ⟨0x0C0100, 31, 0⟩
def F.ACC_CTRL.RUN : Fld := ⟨0x0D0000, 0, 0⟩
def F.ACC_STATUS.PENDING : Fld := ⟨0x0D0004, 22, 16⟩
def F.ACC_STATUS.RESTORED : Fld := ⟨0x0D0004, 5, 4⟩
def F.ACC_STATUS.SAVING : Fld := ⟨0x0D0004, 3, 3⟩
def F.ACC_STATUS.INCOMPLETE : Fld := ⟨0x0D0004, 2, 2⟩
def F.ACC_STATUS.BUSY : Fld := ⟨0x0D0004, 1, 1⟩
def F.ACC_STATUS.STOPPED : Fld := ⟨0x0D0004, 0, 0⟩
def F.ACC_INT_EN.CONFIG_LOST : Fld := ⟨0x0D0010, 5, 5⟩
def F.ACC_INT_EN.INCOMPLETE : Fld := ⟨0x0D0010, 4, 4⟩
def F.ACC_INT_EN.OVERRUN : Fld := ⟨0x0D0010, 3, 3⟩
def F.ACC_INT_EN.MISMATCH : Fld := ⟨0x0D0010, 2, 2⟩
def F.ACC_INT_EN.DROPPED : Fld := ⟨0x0D0010, 1, 1⟩
def F.ACC_INT_EN.SAVE_FAIL : Fld := ⟨0x0D0010, 0, 0⟩
def F.ACC_INT_STATUS.CONFIG_LOST : Fld := ⟨0x0D0014, 5, 5⟩
def F.ACC_INT_STATUS.INCOMPLETE : Fld := ⟨0x0D0014, 4, 4⟩
def F.ACC_INT_STATUS.OVERRUN : Fld := ⟨0x0D0014, 3, 3⟩
def F.ACC_INT_STATUS.MISMATCH : Fld := ⟨0x0D0014, 2, 2⟩
def F.ACC_INT_STATUS.DROPPED : Fld := ⟨0x0D0014, 1, 1⟩
def F.ACC_INT_STATUS.SAVE_FAIL : Fld := ⟨0x0D0014, 0, 0⟩
def F.ACC_TBL_ADDR.TABLE : Fld := ⟨0x0D0020, 31, 29⟩
def F.ACC_TBL_ADDR.INDEX : Fld := ⟨0x0D0020, 8, 0⟩
def F.ACC_TBL_CMD.OP : Fld := ⟨0x0D0024, 1, 0⟩
def F.ACC_TBL_STATUS.BUSY : Fld := ⟨0x0D0028, 31, 31⟩
def F.ACC_TBL_STATUS.RESULT : Fld := ⟨0x0D0028, 2, 0⟩
def F.ACC_TBL_DATA.DATA : Fld := ⟨0x0D0100, 31, 0⟩
def F.XNG_CTRL.HB_PORT : Fld := ⟨0x0E0000, 11, 8⟩
def F.XNG_CTRL.REVERT_EN : Fld := ⟨0x0E0000, 3, 3⟩
def F.XNG_CTRL.HOME : Fld := ⟨0x0E0000, 2, 2⟩
def F.XNG_CTRL.PAIR_EN : Fld := ⟨0x0E0000, 1, 1⟩
def F.XNG_CTRL.RUN : Fld := ⟨0x0E0000, 0, 0⟩
def F.XNG_STATUS.HOME_CONFLICT : Fld := ⟨0x0E0004, 15, 15⟩
def F.XNG_STATUS.LINK : Fld := ⟨0x0E0004, 14, 14⟩
def F.XNG_STATUS.XPATH : Fld := ⟨0x0E0004, 13, 13⟩
def F.XNG_STATUS.DPATH : Fld := ⟨0x0E0004, 12, 12⟩
def F.XNG_STATUS.PEER_DUTY : Fld := ⟨0x0E0004, 11, 10⟩
def F.XNG_STATUS.OWN_DUTY : Fld := ⟨0x0E0004, 9, 9⟩
def F.XNG_STATUS.STATE : Fld := ⟨0x0E0004, 4, 1⟩
def F.XNG_STATUS.STOPPED : Fld := ⟨0x0E0004, 0, 0⟩
def F.XNG_TIMING.REVERT_S : Fld := ⟨0x0E0008, 31, 16⟩
def F.XNG_TIMING.HANDOVER_MS : Fld := ⟨0x0E0008, 15, 8⟩
def F.XNG_TIMING.BOOT_WAIT_S : Fld := ⟨0x0E0008, 7, 0⟩
def F.XNG_LIMITS.JOIN_S : Fld := ⟨0x0E000C, 31, 22⟩
def F.XNG_LIMITS.DIGEST_MS : Fld := ⟨0x0E000C, 21, 14⟩
def F.XNG_LIMITS.LAG_MS : Fld := ⟨0x0E000C, 13, 6⟩
def F.XNG_LIMITS.GUARD_MS : Fld := ⟨0x0E000C, 5, 0⟩
def F.XNG_HB_MAC_LO.ADDR_LO : Fld := ⟨0x0E0010, 31, 0⟩
def F.XNG_HB_MAC_HI.VLAN : Fld := ⟨0x0E0014, 27, 16⟩
def F.XNG_HB_MAC_HI.ADDR_HI : Fld := ⟨0x0E0014, 15, 0⟩
def F.XNG_INT_EN.JOIN_FAIL : Fld := ⟨0x0E0018, 5, 5⟩
def F.XNG_INT_EN.DIGEST : Fld := ⟨0x0E0018, 4, 4⟩
def F.XNG_INT_EN.LAG : Fld := ⟨0x0E0018, 3, 3⟩
def F.XNG_INT_EN.PATH : Fld := ⟨0x0E0018, 2, 2⟩
def F.XNG_INT_EN.STATE : Fld := ⟨0x0E0018, 1, 1⟩
def F.XNG_INT_EN.DUTY : Fld := ⟨0x0E0018, 0, 0⟩
def F.XNG_INT_STATUS.JOIN_FAIL : Fld := ⟨0x0E001C, 5, 5⟩
def F.XNG_INT_STATUS.DIGEST : Fld := ⟨0x0E001C, 4, 4⟩
def F.XNG_INT_STATUS.LAG : Fld := ⟨0x0E001C, 3, 3⟩
def F.XNG_INT_STATUS.PATH : Fld := ⟨0x0E001C, 2, 2⟩
def F.XNG_INT_STATUS.STATE : Fld := ⟨0x0E001C, 1, 1⟩
def F.XNG_INT_STATUS.DUTY : Fld := ⟨0x0E001C, 0, 0⟩
def F.XNG_LAG.US : Fld := ⟨0x0E0030, 31, 0⟩
def F.XNG_DIGEST_SEL.KINDS : Fld := ⟨0x0E0034, 9, 6⟩
def F.XNG_DIGEST_SEL.KINDS_FIXED : Fld := ⟨0x0E0034, 5, 0⟩
def F.XNG_POST_VAL_LO.VAL : Fld := ⟨0x0E0040, 31, 0⟩
def F.XNG_POST_VAL_HI.VAL : Fld := ⟨0x0E0044, 31, 0⟩
def F.XNG_POST_CMD.BIT : Fld := ⟨0x0E0048, 4, 0⟩
def F.XNG_POST_RESULT.BUSY : Fld := ⟨0x0E004C, 31, 31⟩
def F.XNG_POST_RESULT.RESULT : Fld := ⟨0x0E004C, 7, 0⟩
def F.XNG_TBL_ADDR.TABLE : Fld := ⟨0x0E0080, 31, 29⟩
def F.XNG_TBL_ADDR.INDEX : Fld := ⟨0x0E0080, 17, 0⟩
def F.XNG_TBL_CMD.OP : Fld := ⟨0x0E0084, 1, 0⟩
def F.XNG_TBL_STATUS.BUSY : Fld := ⟨0x0E0088, 31, 31⟩
def F.XNG_TBL_STATUS.RESULT : Fld := ⟨0x0E0088, 2, 0⟩
def F.XNG_TBL_DATA.DATA : Fld := ⟨0x0E0100, 31, 0⟩
def F.ERR_CTRL.RECOVERY_MS : Fld := ⟨0x0F0000, 31, 20⟩
def F.ERR_CTRL.RSV_TIMEOUT_MS : Fld := ⟨0x0F0000, 19, 12⟩
def F.ERR_CTRL.LR_HOLD_MS : Fld := ⟨0x0F0000, 11, 4⟩
def F.ERR_CTRL.HANDOFF : Fld := ⟨0x0F0000, 0, 0⟩
def F.ERR_STATUS.HOLDER : Fld := ⟨0x0F0004, 20, 16⟩
def F.ERR_STATUS.RECOVERING : Fld := ⟨0x0F0004, 8, 8⟩
def F.ERR_STATUS.LOG_LEVEL : Fld := ⟨0x0F0004, 4, 0⟩
def F.ERR_EPOCH.EPOCH : Fld := ⟨0x0F0008, 31, 0⟩
def F.ERR_INT_EN.LOG_LOST : Fld := ⟨0x0F000C, 6, 6⟩
def F.ERR_INT_EN.PAIR : Fld := ⟨0x0F000C, 5, 5⟩
def F.ERR_INT_EN.LAST : Fld := ⟨0x0F000C, 4, 4⟩
def F.ERR_INT_EN.UNIT : Fld := ⟨0x0F000C, 3, 3⟩
def F.ERR_INT_EN.RESOURCE : Fld := ⟨0x0F000C, 2, 2⟩
def F.ERR_INT_EN.ITEM : Fld := ⟨0x0F000C, 1, 1⟩
def F.ERR_INT_EN.CORRECTED : Fld := ⟨0x0F000C, 0, 0⟩
def F.ERR_INT_STATUS.LOG_LOST : Fld := ⟨0x0F0010, 6, 6⟩
def F.ERR_INT_STATUS.PAIR : Fld := ⟨0x0F0010, 5, 5⟩
def F.ERR_INT_STATUS.LAST : Fld := ⟨0x0F0010, 4, 4⟩
def F.ERR_INT_STATUS.UNIT : Fld := ⟨0x0F0010, 3, 3⟩
def F.ERR_INT_STATUS.RESOURCE : Fld := ⟨0x0F0010, 2, 2⟩
def F.ERR_INT_STATUS.ITEM : Fld := ⟨0x0F0010, 1, 1⟩
def F.ERR_INT_STATUS.CORRECTED : Fld := ⟨0x0F0010, 0, 0⟩
def F.ERR_LOG_POP.POP : Fld := ⟨0x0F0014, 0, 0⟩
def F.ERR_LOG.DATA : Fld := ⟨0x0F0020, 31, 0⟩
def F.ERR_KICK.KICK : Fld := ⟨0x0F0080, 0, 0⟩
def F.ERR_CORE_UP.UP : Fld := ⟨0x0F0084, 19, 0⟩
def F.ERR_RSV_KICK.KEY : Fld := ⟨0x0F0088, 31, 16⟩
def F.ERR_RECOVER.KEY : Fld := ⟨0x0F008C, 31, 16⟩
def F.ERR_RECOVER.ACTION : Fld := ⟨0x0F008C, 1, 0⟩
def F.ERR_ABORT.ABORT : Fld := ⟨0x0F0090, 0, 0⟩
def F.ERR_SCRUB.DRAM_H : Fld := ⟨0x0F0094, 31, 16⟩
def F.ERR_SCRUB.SRAM_S : Fld := ⟨0x0F0094, 15, 0⟩
def F.ERR_WDOG_SE.PERIOD_US : Fld := ⟨0x0F0100, 23, 0⟩
def F.ERR_WDOG_SV.PERIOD_US : Fld := ⟨0x0F0140, 23, 0⟩
def F.SEC_STATUS.LAST_FAIL : Fld := ⟨0x100000, 23, 16⟩
def F.SEC_STATUS.NONAPPROVED : Fld := ⟨0x100000, 5, 5⟩
def F.SEC_STATUS.OWNER : Fld := ⟨0x100000, 4, 4⟩
def F.SEC_STATUS.IDENTITY : Fld := ⟨0x100000, 3, 3⟩
def F.SEC_STATUS.ZEROIZED : Fld := ⟨0x100000, 2, 2⟩
def F.SEC_STATUS.ERROR : Fld := ⟨0x100000, 1, 1⟩
def F.SEC_STATUS.BUSY : Fld := ⟨0x100000, 0, 0⟩
def F.SEC_INT_EN.REFUSED : Fld := ⟨0x100004, 3, 3⟩
def F.SEC_INT_EN.ERROR : Fld := ⟨0x100004, 2, 2⟩
def F.SEC_INT_EN.ZEROIZED : Fld := ⟨0x100004, 1, 1⟩
def F.SEC_INT_EN.TAMPER : Fld := ⟨0x100004, 0, 0⟩
def F.SEC_INT_STATUS.REFUSED : Fld := ⟨0x100008, 3, 3⟩
def F.SEC_INT_STATUS.ERROR : Fld := ⟨0x100008, 2, 2⟩
def F.SEC_INT_STATUS.ZEROIZED : Fld := ⟨0x100008, 1, 1⟩
def F.SEC_INT_STATUS.TAMPER : Fld := ⟨0x100008, 0, 0⟩
def F.SEC_REMASK.MS : Fld := ⟨0x10000C, 9, 0⟩
def F.SEC_TAMPER_GRADE.GRADE : Fld := ⟨0x100020, 13, 0⟩
def F.SEC_TAMPER_LATCH.LOCKDOWN : Fld := ⟨0x100024, 31, 31⟩
def F.SEC_TAMPER_LATCH.NOW : Fld := ⟨0x100024, 14, 8⟩
def F.SEC_TAMPER_LATCH.FIRED : Fld := ⟨0x100024, 6, 0⟩
def F.SEC_TAMPER_TEMP.HI : Fld := ⟨0x100028, 15, 8⟩
def F.SEC_TAMPER_TEMP.LO : Fld := ⟨0x100028, 7, 0⟩
def F.UND_STATUS.CHARGING : Fld := ⟨0x110000, 3, 3⟩
def F.UND_STATUS.LOW : Fld := ⟨0x110000, 2, 2⟩
def F.UND_STATUS.SOURCE : Fld := ⟨0x110000, 1, 0⟩
def F.UND_INT_EN.RL_LOST : Fld := ⟨0x110004, 5, 5⟩
def F.UND_INT_EN.LOW : Fld := ⟨0x110004, 4, 4⟩
def F.UND_INT_EN.SWITCH : Fld := ⟨0x110004, 3, 3⟩
def F.UND_INT_EN.WERR : Fld := ⟨0x110004, 2, 2⟩
def F.UND_INT_EN.PERIODIC : Fld := ⟨0x110004, 1, 1⟩
def F.UND_INT_EN.ALARM : Fld := ⟨0x110004, 0, 0⟩
def F.UND_INT_STATUS.RL_LOST : Fld := ⟨0x110008, 5, 5⟩
def F.UND_INT_STATUS.LOW : Fld := ⟨0x110008, 4, 4⟩
def F.UND_INT_STATUS.SWITCH : Fld := ⟨0x110008, 3, 3⟩
def F.UND_INT_STATUS.WERR : Fld := ⟨0x110008, 2, 2⟩
def F.UND_INT_STATUS.PERIODIC : Fld := ⟨0x110008, 1, 1⟩
def F.UND_INT_STATUS.ALARM : Fld := ⟨0x110008, 0, 0⟩
def F.UND_RTC_SUBSEC.COUNT : Fld := ⟨0x110010, 14, 0⟩
def F.UND_RTC_TIME.HOUR : Fld := ⟨0x110014, 20, 16⟩
def F.UND_RTC_TIME.MIN : Fld := ⟨0x110014, 13, 8⟩
def F.UND_RTC_TIME.SEC : Fld := ⟨0x110014, 5, 0⟩
def F.UND_RTC_DATE.YEAR : Fld := ⟨0x110018, 27, 16⟩
def F.UND_RTC_DATE.MONTH : Fld := ⟨0x110018, 11, 8⟩
def F.UND_RTC_DATE.DAY : Fld := ⟨0x110018, 4, 0⟩
def F.UND_RTC_WDAY.WDAY : Fld := ⟨0x11001C, 2, 0⟩
def F.UND_RTC_STG_DATE.YEAR : Fld := ⟨0x110020, 27, 16⟩
def F.UND_RTC_STG_DATE.MONTH : Fld := ⟨0x110020, 11, 8⟩
def F.UND_RTC_STG_DATE.DAY : Fld := ⟨0x110020, 4, 0⟩
def F.UND_RTC_STG_TIME.WDAY : Fld := ⟨0x110024, 26, 24⟩
def F.UND_RTC_STG_TIME.HOUR : Fld := ⟨0x110024, 20, 16⟩
def F.UND_RTC_STG_TIME.MIN : Fld := ⟨0x110024, 13, 8⟩
def F.UND_RTC_SET_SEC.SEC : Fld := ⟨0x110028, 5, 0⟩
def F.UND_RTC_STATUS.RANGE : Fld := ⟨0x11002C, 2, 2⟩
def F.UND_RTC_STATUS.WERR : Fld := ⟨0x11002C, 1, 1⟩
def F.UND_RTC_STATUS.INVALID : Fld := ⟨0x11002C, 0, 0⟩
def F.UND_RTC_ALARM.EN : Fld := ⟨0x110030, 31, 31⟩
def F.UND_RTC_ALARM.MATCH : Fld := ⟨0x110030, 30, 27⟩
def F.UND_RTC_ALARM.DAY : Fld := ⟨0x110030, 26, 22⟩
def F.UND_RTC_ALARM.HOUR : Fld := ⟨0x110030, 21, 17⟩
def F.UND_RTC_ALARM.MIN : Fld := ⟨0x110030, 16, 11⟩
def F.UND_RTC_ALARM.SEC : Fld := ⟨0x110030, 10, 5⟩
def F.UND_WAKE_PERIOD.EN : Fld := ⟨0x110034, 31, 31⟩
def F.UND_WAKE_PERIOD.EXP : Fld := ⟨0x110034, 4, 0⟩
def F.UND_BACKUP_CTRL.BACKUP_PREF : Fld := ⟨0x110040, 31, 31⟩
def F.UND_BACKUP_CTRL.CHG_EN : Fld := ⟨0x110040, 30, 30⟩
def F.UND_BACKUP_CTRL.CHG_I : Fld := ⟨0x110040, 29, 27⟩
def F.UND_BACKUP_CTRL.CHG_V : Fld := ⟨0x110040, 26, 23⟩
def F.UND_BACKUP_CTRL.BAT_FLOOR : Fld := ⟨0x110040, 9, 5⟩
def F.UND_BACKUP_CTRL.CAP_FLOOR : Fld := ⟨0x110040, 4, 0⟩
def F.UND_BACKUP_STATUS.BAT : Fld := ⟨0x110044, 31, 20⟩
def F.UND_BACKUP_STATUS.CAP : Fld := ⟨0x110044, 19, 8⟩
def F.UND_FIRST_BAT_CLR.KEY : Fld := ⟨0x110050, 31, 16⟩
def F.UND_BAT_SECONDS.S : Fld := ⟨0x110054, 31, 0⟩
def F.UND_RL_INDEX.PLACE : Fld := ⟨0x110068, 15, 0⟩
def F.UND_RL_DATA.DATA : Fld := ⟨0x110080, 31, 0⟩
def F.UND_RL_APP_DATA.DATA : Fld := ⟨0x1100C0, 31, 0⟩
def F.UND_RL_APP_CMD.TYPE : Fld := ⟨0x1100E0, 15, 0⟩
def F.PRF_CTRL.RELEASE : Fld := ⟨0x120000, 2, 2⟩
def F.PRF_CTRL.SNAP : Fld := ⟨0x120000, 1, 1⟩
def F.PRF_CTRL.FREEZE : Fld := ⟨0x120000, 0, 0⟩
def F.PRF_STATUS.HELD : Fld := ⟨0x120004, 1, 1⟩
def F.PRF_STATUS.FROZEN : Fld := ⟨0x120004, 0, 0⟩
def F.PRF_G_OVF_EN.EN : Fld := ⟨0x120010, 31, 0⟩
def F.PRF_G_OVF.OVF : Fld := ⟨0x120014, 31, 0⟩
def F.PRF_G_CNT_CTRL.EN : Fld := ⟨0x121000, 31, 31⟩
def F.PRF_G_CNT_CTRL.OVF : Fld := ⟨0x121000, 30, 30⟩
def F.PRF_G_CNT_CTRL.PRIV : Fld := ⟨0x121000, 29, 27⟩
def F.PRF_G_CNT_CTRL.ADDR_EN : Fld := ⟨0x121000, 26, 26⟩
def F.PRF_G_CNT_CTRL.REQ_EN : Fld := ⟨0x121000, 25, 25⟩
def F.PRF_G_CNT_CTRL.EVENT : Fld := ⟨0x121000, 23, 16⟩
def F.PRF_G_CNT_CTRL.CLASS : Fld := ⟨0x121000, 15, 8⟩
def F.PRF_G_CNT_REQ.MASK : Fld := ⟨0x121004, 15, 8⟩
def F.PRF_G_CNT_REQ.ID : Fld := ⟨0x121004, 7, 0⟩
def F.PRF_G_CNT_BASE.PAGE : Fld := ⟨0x121008, 27, 0⟩
def F.PRF_G_CNT_LIMIT.PAGE : Fld := ⟨0x12100C, 27, 0⟩
def F.PRF_G_CNT_LO.COUNT : Fld := ⟨0x121010, 31, 0⟩
def F.PRF_G_CNT_HI.COUNT : Fld := ⟨0x121014, 15, 0⟩
def F.PRF_G_CNT_SNAP_LO.COUNT : Fld := ⟨0x121018, 31, 0⟩
def F.PRF_G_CNT_SNAP_HI.COUNT : Fld := ⟨0x12101C, 15, 0⟩
def F.PRF_CNT_CTRL.EN : Fld := ⟨0x122000, 31, 31⟩
def F.PRF_CNT_CTRL.OVF : Fld := ⟨0x122000, 30, 30⟩
def F.PRF_CNT_CTRL.PRIV : Fld := ⟨0x122000, 29, 27⟩
def F.PRF_CNT_CTRL.ADDR_EN : Fld := ⟨0x122000, 26, 26⟩
def F.PRF_CNT_CTRL.EVENT : Fld := ⟨0x122000, 23, 16⟩
def F.PRF_CNT_CTRL.CLASS : Fld := ⟨0x122000, 15, 8⟩
def F.PRF_CNT_BASE.PAGE : Fld := ⟨0x122008, 27, 0⟩
def F.PRF_CNT_LIMIT.PAGE : Fld := ⟨0x12200C, 27, 0⟩
def F.PRF_CNT_LO.COUNT : Fld := ⟨0x122010, 31, 0⟩
def F.PRF_CNT_HI.COUNT : Fld := ⟨0x122014, 15, 0⟩
def F.PRF_CNT_SNAP_LO.COUNT : Fld := ⟨0x122018, 31, 0⟩
def F.PRF_CNT_SNAP_HI.COUNT : Fld := ⟨0x12201C, 15, 0⟩
def F.PRF_S_CTRL.S_EN : Fld := ⟨0x122100, 31, 31⟩
def F.PRF_S_CTRL.S_PRIV : Fld := ⟨0x122100, 10, 8⟩
def F.PRF_S_CTRL.S_CLASS : Fld := ⟨0x122100, 7, 0⟩
def F.PRF_S_PERIOD.PERIOD : Fld := ⟨0x122104, 23, 0⟩
def F.PRF_S_BASE_LO.ADDR_LO : Fld := ⟨0x122108, 31, 5⟩
def F.PRF_S_BASE_HI.ADDR_HI : Fld := ⟨0x12210C, 7, 0⟩
def F.PRF_S_SIZE.N : Fld := ⟨0x122110, 19, 0⟩
def F.PRF_S_WRITE.INDEX : Fld := ⟨0x122114, 31, 0⟩
def F.PRF_S_READ.INDEX : Fld := ⟨0x122118, 31, 0⟩
def F.HST_STATUS.WIDTH : Fld := ⟨0x130000, 7, 4⟩
def F.HST_STATUS.SPEED : Fld := ⟨0x130000, 3, 1⟩
def F.HST_STATUS.LINK : Fld := ⟨0x130000, 0, 0⟩
def F.HST_INT_EN.DP_ERR : Fld := ⟨0x130004, 11, 7⟩
def F.HST_INT_EN.DP_DONE : Fld := ⟨0x130004, 6, 2⟩
def F.HST_INT_EN.HOST_RESET : Fld := ⟨0x130004, 1, 1⟩
def F.HST_INT_EN.LINK : Fld := ⟨0x130004, 0, 0⟩
def F.HST_INT_STATUS.DP_ERR : Fld := ⟨0x130008, 11, 7⟩
def F.HST_INT_STATUS.DP_DONE : Fld := ⟨0x130008, 6, 2⟩
def F.HST_INT_STATUS.HOST_RESET : Fld := ⟨0x130008, 1, 1⟩
def F.HST_INT_STATUS.LINK : Fld := ⟨0x130008, 0, 0⟩
def F.HST_WAKE.KEY : Fld := ⟨0x13000C, 31, 16⟩
def F.HST_DP_ADDR_LO.ADDR_LO : Fld := ⟨0x130100, 31, 2⟩
def F.HST_DP_ADDR_HI.SPACE : Fld := ⟨0x130104, 31, 31⟩
def F.HST_DP_ADDR_HI.ADDR_HI : Fld := ⟨0x130104, 7, 0⟩
def F.HST_DP_BURST.DIR : Fld := ⟨0x130108, 31, 31⟩
def F.HST_DP_BURST.IRQ : Fld := ⟨0x130108, 30, 30⟩
def F.HST_DP_BURST.COUNT : Fld := ⟨0x130108, 16, 0⟩
def F.HST_DP_DATA.DATA : Fld := ⟨0x13010C, 31, 0⟩
def F.HST_DP_STATUS.BUSY : Fld := ⟨0x130110, 31, 31⟩
def F.HST_DP_STATUS.ERROR : Fld := ⟨0x130110, 30, 28⟩
def F.HST_DP_STATUS.LEFT : Fld := ⟨0x130110, 16, 0⟩
def F.HST_DP_ERASE.BLOCK : Fld := ⟨0x130114, 16, 0⟩
def F.HST_DP_FIFO.DATA : Fld := ⟨0x131000, 31, 0⟩
def F.HST_MSIX_TABLE.WORD : Fld := ⟨0x132000, 31, 0⟩
def F.HST_MSIX_CTL.MASK : Fld := ⟨0x13200C, 0, 0⟩
def F.HST_MSIX_PBA.PENDING : Fld := ⟨0x133000, 31, 0⟩

/-- Window of each port within NET (chapter 03). -/
def netWin (p : Nat) : Nat :=
  match p with
  | 0 => 0x0000
  | 1 => 0x4000
  | 2 => 0x8000
  | 3 => 0xC000
  | 4 => 0x2000
  | _ => 0x6000

/-- Registers of SYS, part 1. -/
def regsSYS0 : List RegD :=
  [⟨R.SYS_MODE, 1, 0x0, 1, 0x0, .plain, [⟨19, 16, .ro, .any⟩, ⟨8, 8, .ro, .any⟩, ⟨7, 7, .ro, .any⟩, ⟨6, 6, .ro, .any⟩, ⟨3, 0, .ro, .any⟩]⟩,
   ⟨R.SYS_MODE_REQ, 1, 0x0, 1, 0x0, .plain, [⟨31, 16, .wo, .any⟩, ⟨3, 0, .wo, .any⟩]⟩,
   ⟨R.SYS_MODE_STATUS, 1, 0x0, 1, 0x0, .plain, [⟨23, 16, .ro, .any⟩, ⟨11, 8, .ro, .any⟩, ⟨7, 4, .ro, .any⟩, ⟨3, 0, .ro, .any⟩]⟩,
   ⟨R.SYS_RESET, 1, 0x0, 1, 0x0, .plain, [⟨31, 16, .wo, .any⟩, ⟨1, 0, .wo, .any⟩]⟩,
   ⟨R.SYS_CORE_RESET, 1, 0x0, 1, 0x0, .plain, [⟨19, 0, .wo, .any⟩]⟩,
   ⟨R.SYS_RESET_CAUSE, 1, 0x0, 1, 0x0, .plain, [⟨3, 0, .ro, .any⟩]⟩,
   ⟨R.SYS_BOOT_TIMEWAIT, 1, 0x0, 1, 0x0, .plain, [⟨9, 0, .rw, (.range 0 600)⟩]⟩,
   ⟨R.SYS_BOOT_TARGET, 1, 0x0, 1, 0x0, .plain, [⟨1, 0, .rw, (.outside 3 3)⟩]⟩,
   ⟨R.SYS_REFUSED_COUNT, 1, 0x0, 1, 0x0, .counter, []⟩,
   ⟨R.SYS_REFUSED_ADDR, 1, 0x0, 1, 0x0, .plain, [⟨31, 24, .ro, .any⟩, ⟨23, 21, .ro, .any⟩, ⟨20, 0, .ro, .any⟩]⟩,
   ⟨R.SYS_DEGRADED, 1, 0x0, 1, 0x0, .plain, [⟨31, 28, .ro, .any⟩, ⟨27, 12, .ro, .any⟩, ⟨11, 11, .ro, .any⟩, ⟨10, 10, .ro, .any⟩, ⟨9, 9, .ro, .any⟩, ⟨8, 8, .ro, .any⟩, ⟨7, 7, .ro, .any⟩, ⟨6, 6, .ro, .any⟩, ⟨5, 4, .ro, .any⟩, ⟨3, 0, .ro, .any⟩]⟩,
   ⟨R.SYS_MODE_ENTRY, 1, 0x0, 1, 0x0, .pair, []⟩,
   ⟨R.SYS_INT_EN, 1, 0x0, 1, 0x0, .plain, [⟨2, 2, .live, .any⟩, ⟨1, 1, .live, .any⟩, ⟨0, 0, .live, .any⟩]⟩,
   ⟨R.SYS_INT_STATUS, 1, 0x0, 1, 0x0, .plain, [⟨2, 2, .w1c, .any⟩, ⟨1, 1, .w1c, .any⟩, ⟨0, 0, .w1c, .any⟩]⟩,
   ⟨R.SYS_TEST_CTRL, 1, 0x0, 1, 0x0, .plain, [⟨21, 16, .rw, .any⟩, ⟨8, 8, .rw, .any⟩, ⟨7, 0, .rw, .any⟩]⟩,
   ⟨R.SYS_TEST_WDOG, 1, 0x0, 1, 0x0, .plain, [⟨31, 31, .wo, .any⟩, ⟨11, 0, .rw, (.range 1 3600)⟩]⟩]

/-- Registers of SYS, part 2. -/
def regsSYS1 : List RegD :=
  [⟨R.SYS_TEST_INJECTED, 1, 0x0, 1, 0x0, .counter, []⟩,
   ⟨R.SYS_TEST_BAD, 1, 0x0, 1, 0x0, .counter, []⟩]

/-- Registers of SYS. -/
def regsSYS : List RegD := regsSYS0 ++ regsSYS1

/-- Registers of IC, part 1. -/
def regsIC0 : List RegD :=
  [⟨R.IC_P_SRC_CTRL, 21, 0x400, 64, 0x8, .plain, [⟨31, 31, .live, .any⟩, ⟨30, 30, .ro, .any⟩, ⟨29, 29, .ro, .any⟩, ⟨28, 28, .ro, .any⟩, ⟨27, 26, .rw, .any⟩, ⟨20, 20, .ro, .any⟩, ⟨3, 0, .live, .any⟩]⟩,
   ⟨R.IC_P_SRC_MOD, 21, 0x400, 64, 0x8, .plain, [⟨31, 24, .rw, .any⟩, ⟨15, 0, .rw, .any⟩]⟩,
   ⟨R.IC_S_SRC_CTRL, 512, 0x8, 1, 0x0, .plain, [⟨31, 31, .live, .any⟩, ⟨30, 30, .ro, .any⟩, ⟨29, 29, .ro, .any⟩, ⟨28, 28, .ro, .any⟩, ⟨27, 26, .rw, .any⟩, ⟨25, 21, .rw, (.range 0 20)⟩, ⟨20, 20, .ro, .any⟩, ⟨3, 0, .live, .any⟩]⟩,
   ⟨R.IC_S_SRC_MOD, 512, 0x8, 1, 0x0, .plain, [⟨31, 24, .rw, .any⟩, ⟨15, 0, .rw, .any⟩]⟩,
   ⟨R.IC_CLAIM, 21, 0x400, 1, 0x0, .plain, [⟨31, 31, .ro, .any⟩, ⟨19, 16, .ro, .any⟩, ⟨9, 0, .ro, .any⟩]⟩,
   ⟨R.IC_COMPLETE, 21, 0x400, 1, 0x0, .plain, [⟨9, 0, .wo, .any⟩]⟩,
   ⟨R.IC_THRESHOLD, 21, 0x400, 1, 0x0, .plain, [⟨3, 0, .live, .any⟩]⟩,
   ⟨R.IC_RUNNING, 21, 0x400, 1, 0x0, .plain, [⟨31, 31, .ro, .any⟩, ⟨25, 16, .ro, .any⟩, ⟨13, 8, .ro, .any⟩, ⟨3, 0, .ro, .any⟩]⟩,
   ⟨R.IC_SWI_SET, 21, 0x400, 1, 0x0, .plain, [⟨7, 0, .w1s, .any⟩]⟩,
   ⟨R.IC_SWI_CLR, 21, 0x400, 1, 0x0, .plain, [⟨7, 0, .w1c, .any⟩]⟩,
   ⟨R.IC_PEND_LO, 21, 0x400, 1, 0x0, .plain, [⟨31, 0, .ro, .any⟩]⟩,
   ⟨R.IC_PEND_HI, 21, 0x400, 1, 0x0, .plain, [⟨31, 0, .ro, .any⟩]⟩,
   ⟨R.IC_SSWI_SET, 1, 0x0, 1, 0x0, .plain, [⟨31, 0, .w1s, .any⟩]⟩,
   ⟨R.IC_SSWI_CLR, 1, 0x0, 1, 0x0, .plain, [⟨31, 0, .w1c, .any⟩]⟩,
   ⟨R.IC_WAKE_CAUSE, 1, 0x0, 1, 0x0, .plain, [⟨31, 31, .w1c, .any⟩, ⟨19, 16, .ro, .any⟩, ⟨15, 0, .w1c, .any⟩]⟩,
   ⟨R.IC_WAKE_SLOT, 16, 0x4, 1, 0x0, .plain, [⟨31, 31, .rw, .any⟩, ⟨28, 24, .rw, (.outside 11 15)⟩, ⟨15, 8, .rw, .nonzero⟩, ⟨7, 0, .ro, .any⟩]⟩]

/-- Registers of IC, part 2. -/
def regsIC1 : List RegD :=
  [⟨R.IC_U_CLAIM_READS, 1, 0x0, 1, 0x0, .counter, []⟩,
   ⟨R.IC_U_CLAIMS, 1, 0x0, 1, 0x0, .counter, []⟩,
   ⟨R.IC_U_SPURIOUS, 1, 0x0, 1, 0x0, .counter, []⟩,
   ⟨R.IC_U_MERGED, 1, 0x0, 1, 0x0, .counter, []⟩,
   ⟨R.IC_U_COMPLETE_WRITES, 1, 0x0, 1, 0x0, .counter, []⟩,
   ⟨R.IC_U_COMPLETES, 1, 0x0, 1, 0x0, .counter, []⟩,
   ⟨R.IC_U_BAD_COMPLETES, 1, 0x0, 1, 0x0, .counter, []⟩,
   ⟨R.IC_U_RESET_CLEARED, 1, 0x0, 1, 0x0, .counter, []⟩,
   ⟨R.IC_U_ACTIVE, 1, 0x0, 1, 0x0, .gauge, []⟩,
   ⟨R.IC_U_TAILCHAINS, 1, 0x0, 1, 0x0, .counter, []⟩,
   ⟨R.IC_U_MOD_RELEASES, 1, 0x0, 1, 0x0, .counter, []⟩]

/-- Registers of IC. -/
def regsIC : List RegD := regsIC0 ++ regsIC1

/-- Registers of RBT, part 1. -/
def regsRBT0 : List RegD :=
  [⟨R.RBT_STATUS, 1, 0x0, 1, 0x0, .plain, [⟨31, 31, .ro, .any⟩, ⟨20, 0, .ro, .any⟩]⟩,
   ⟨R.RBT_INT_EN, 1, 0x0, 1, 0x0, .plain, [⟨4, 4, .live, .any⟩, ⟨3, 3, .live, .any⟩, ⟨2, 2, .live, .any⟩, ⟨1, 1, .live, .any⟩, ⟨0, 0, .live, .any⟩]⟩,
   ⟨R.RBT_INT_STATUS, 1, 0x0, 1, 0x0, .plain, [⟨4, 4, .w1c, .any⟩, ⟨3, 3, .w1c, .any⟩, ⟨2, 2, .w1c, .any⟩, ⟨1, 1, .w1c, .any⟩, ⟨0, 0, .w1c, .any⟩]⟩,
   ⟨R.RBT_CANCEL, 1, 0x0, 1, 0x0, .plain, [⟨31, 31, .wo, .any⟩, ⟨27, 16, .wo, .any⟩, ⟨15, 0, .wo, .any⟩]⟩,
   ⟨R.RBT_QCMD, 1, 0x0, 1, 0x0, .plain, [⟨9, 8, .wo, (.range 1 2)⟩, ⟨7, 0, .wo, .any⟩]⟩,
   ⟨R.RBT_TSPILL, 1, 0x0, 1, 0x0, .plain, [⟨19, 15, .rw, (.range 11 20)⟩, ⟨14, 0, .rw, .any⟩]⟩,
   ⟨R.RBT_TBL_ADDR, 1, 0x0, 1, 0x0, .plain, [⟨31, 29, .rw, (.range 0 4)⟩, ⟨11, 0, .rw, .any⟩]⟩,
   ⟨R.RBT_TBL_CMD, 1, 0x0, 1, 0x0, .plain, [⟨1, 0, .wo, (.range 1 2)⟩]⟩,
   ⟨R.RBT_TBL_STATUS, 1, 0x0, 1, 0x0, .plain, [⟨31, 31, .ro, .any⟩, ⟨2, 0, .ro, .any⟩]⟩,
   ⟨R.RBT_QEVENT, 8, 0x4, 1, 0x0, .plain, [⟨31, 0, .w1c, .any⟩]⟩,
   ⟨R.RBT_TBL_DATA, 32, 0x4, 1, 0x0, .plain, [⟨31, 0, .rw, .any⟩]⟩,
   ⟨R.RBT_CLASS, 16, 0x8, 1, 0x0, .plain, [⟨31, 31, .rw, .any⟩, ⟨19, 0, .rw, .any⟩]⟩,
   ⟨R.RBT_CREDIT, 16, 0x8, 1, 0x0, .plain, [⟨28, 16, .ro, .any⟩, ⟨12, 0, .rw, (.range 0 4096)⟩]⟩,
   ⟨R.RBT_HQ_CMD, 1, 0x0, 1, 0x0, .plain, [⟨11, 11, .wo, .any⟩, ⟨10, 10, .wo, .any⟩, ⟨9, 8, .wo, (.range 1 3)⟩, ⟨7, 0, .wo, .any⟩]⟩,
   ⟨R.RBT_HQ_RESULT, 1, 0x0, 1, 0x0, .plain, [⟨31, 16, .ro, .any⟩, ⟨9, 8, .ro, .any⟩, ⟨7, 0, .ro, .any⟩]⟩,
   ⟨R.RBT_HQ_DATA, 8, 0x4, 1, 0x0, .plain, [⟨31, 0, .rw, .any⟩]⟩]

/-- Registers of RBT, part 2. -/
def regsRBT1 : List RegD :=
  [⟨R.RBT_U_TAKEN, 1, 0x0, 1, 0x0, .counter, []⟩,
   ⟨R.RBT_U_INVALID, 1, 0x0, 1, 0x0, .counter, []⟩,
   ⟨R.RBT_U_CANCEL_NONE, 1, 0x0, 1, 0x0, .counter, []⟩,
   ⟨R.RBT_U_TSPILLED, 1, 0x0, 1, 0x0, .counter, []⟩,
   ⟨R.RBT_U_INTEGRITY_RESETS, 1, 0x0, 1, 0x0, .counter, []⟩]

/-- Registers of RBT. -/
def regsRBT : List RegD := regsRBT0 ++ regsRBT1

/-- Registers of MBX, part 1. -/
def regsMBX0 : List RegD :=
  [⟨R.MBX_DB, 24, 0x40, 1, 0x0, .plain, [⟨31, 0, .w1c, .any⟩]⟩,
   ⟨R.MBX_MASK, 24, 0x40, 1, 0x0, .plain, [⟨31, 0, .live, .any⟩]⟩,
   ⟨R.MBX_RX_INFO, 24, 0x40, 1, 0x0, .plain, [⟨31, 31, .ro, .any⟩, ⟨28, 24, .ro, .any⟩, ⟨23, 16, .ro, .any⟩, ⟨4, 0, .ro, .any⟩]⟩,
   ⟨R.MBX_RX_VAL, 24, 0x40, 1, 0x0, .pair, []⟩,
   ⟨R.MBX_RX_POP, 24, 0x40, 1, 0x0, .plain, [⟨0, 0, .wo, .any⟩]⟩,
   ⟨R.MBX_POSTS, 24, 0x40, 1, 0x0, .counter, []⟩,
   ⟨R.MBX_POPS, 24, 0x40, 1, 0x0, .counter, []⟩,
   ⟨R.MBX_FULL, 24, 0x40, 1, 0x0, .counter, []⟩,
   ⟨R.MBX_SIGNALS, 24, 0x40, 1, 0x0, .counter, []⟩,
   ⟨R.MBX_HOST_VAL_LO, 1, 0x0, 1, 0x0, .plain, [⟨31, 0, .rw, .any⟩]⟩,
   ⟨R.MBX_HOST_VAL_HI, 1, 0x0, 1, 0x0, .plain, [⟨31, 0, .rw, .any⟩]⟩,
   ⟨R.MBX_HOST_CMD, 1, 0x0, 1, 0x0, .plain, [⟨12, 8, .wo, .any⟩, ⟨4, 0, .wo, .any⟩]⟩,
   ⟨R.MBX_HOST_RESULT, 1, 0x0, 1, 0x0, .plain, [⟨7, 0, .ro, .any⟩]⟩,
   ⟨R.MBX_EMPTY_STATUS, 1, 0x0, 1, 0x0, .banked, [⟨23, 0, .w1c, .any⟩]⟩,
   ⟨R.MBX_EMPTY_EN, 1, 0x0, 1, 0x0, .banked, [⟨23, 0, .live, .any⟩]⟩,
   ⟨R.MBX_LOCK, 64, 0x4, 1, 0x0, .plain, [⟨31, 31, .rl, .any⟩, ⟨7, 0, .rl, .any⟩]⟩]

/-- Registers of MBX, part 2. -/
def regsMBX1 : List RegD :=
  [⟨R.MBX_LOCK_FORCE, 1, 0x0, 1, 0x0, .plain, [⟨31, 16, .wo, .any⟩, ⟨5, 0, .wo, .any⟩]⟩,
   ⟨R.MBX_U_LOCK_ACQUIRED, 1, 0x0, 1, 0x0, .counter, []⟩,
   ⟨R.MBX_U_LOCK_BUSY, 1, 0x0, 1, 0x0, .counter, []⟩,
   ⟨R.MBX_U_LOCK_RELEASED, 1, 0x0, 1, 0x0, .counter, []⟩,
   ⟨R.MBX_U_LOCK_FORCED, 1, 0x0, 1, 0x0, .counter, []⟩,
   ⟨R.MBX_U_LOCK_BAD_RELEASE, 1, 0x0, 1, 0x0, .counter, []⟩,
   ⟨R.MBX_U_LOCK_RESET_RELEASED, 1, 0x0, 1, 0x0, .counter, []⟩,
   ⟨R.MBX_U_LOCKS_HELD, 1, 0x0, 1, 0x0, .gauge, []⟩,
   ⟨R.MBX_U_BAD_POP, 1, 0x0, 1, 0x0, .counter, []⟩]

/-- Registers of MBX. -/
def regsMBX : List RegD := regsMBX0 ++ regsMBX1

/-- Registers of NET, part 1. -/
def regsNET0 : List RegD :=
  [⟨R.NET_CTRL, 1, 0x0, 1, 0x0, .plain, [⟨12, 12, .wo, .any⟩, ⟨11, 11, .rw, .any⟩, ⟨10, 10, .rw, .any⟩, ⟨9, 9, .rw, .any⟩, ⟨8, 8, .rw, .any⟩, ⟨7, 7, .rw, .any⟩, ⟨6, 5, .rw, (.outside 3 3)⟩, ⟨4, 4, .rw, .any⟩, ⟨3, 3, .rw, .any⟩, ⟨2, 2, .rw, .any⟩, ⟨0, 0, .rw, .any⟩]⟩,
   ⟨R.NET_STATUS, 1, 0x0, 1, 0x0, .plain, [⟨4, 4, .ro, .any⟩, ⟨3, 3, .ro, .any⟩, ⟨2, 2, .ro, .any⟩, ⟨1, 1, .ro, .any⟩, ⟨0, 0, .ro, .any⟩]⟩,
   ⟨R.NET_MAXLEN, 1, 0x0, 1, 0x0, .plain, [⟨13, 0, .rw, (.range 1522 9216)⟩]⟩,
   ⟨R.NET_STATION_LO, 1, 0x0, 1, 0x0, .plain, [⟨31, 0, .rw, .any⟩]⟩,
   ⟨R.NET_STATION_HI, 1, 0x0, 1, 0x0, .plain, [⟨15, 0, .rw, .any⟩]⟩,
   ⟨R.NET_RX_DELAY, 1, 0x0, 1, 0x0, .plain, [⟨31, 0, .rw, (.signed (-1000000) 1000000)⟩]⟩,
   ⟨R.NET_TX_DELAY, 1, 0x0, 1, 0x0, .plain, [⟨31, 0, .rw, (.signed (-1000000) 1000000)⟩]⟩,
   ⟨R.NET_PAUSE, 1, 0x0, 1, 0x0, .plain, [⟨31, 16, .rw, .nonzero⟩, ⟨15, 0, .rw, .any⟩]⟩,
   ⟨R.NET_INT_EN, 1, 0x0, 1, 0x0, .plain, [⟨4, 4, .live, .any⟩, ⟨3, 3, .live, .any⟩, ⟨2, 2, .live, .any⟩, ⟨1, 1, .live, .any⟩, ⟨0, 0, .live, .any⟩]⟩,
   ⟨R.NET_INT_STATUS, 1, 0x0, 1, 0x0, .plain, [⟨4, 4, .w1c, .any⟩, ⟨3, 3, .w1c, .any⟩, ⟨2, 2, .w1c, .any⟩, ⟨1, 1, .w1c, .any⟩, ⟨0, 0, .w1c, .any⟩]⟩,
   ⟨R.NET_VLAN, 128, 0x4, 1, 0x0, .plain, [⟨31, 0, .rw, .any⟩]⟩,
   ⟨R.NET_MACSEC_CTRL, 1, 0x0, 1, 0x0, .plain, [⟨31, 2, .rw, .any⟩, ⟨1, 1, .live, .any⟩, ⟨0, 0, .rw, .any⟩]⟩,
   ⟨R.NET_MACSEC_PN_THRESH, 1, 0x0, 1, 0x0, .plain, [⟨31, 0, .rw, .any⟩]⟩,
   ⟨R.NET_MACSEC_SCI_LO, 16, 0x8, 1, 0x0, .plain, [⟨31, 0, .rw, .any⟩]⟩,
   ⟨R.NET_MACSEC_SCI_HI, 16, 0x8, 1, 0x0, .plain, [⟨31, 0, .rw, .any⟩]⟩,
   ⟨R.NET_RX_SEEN, 1, 0x0, 1, 0x0, .counter, []⟩]

/-- Registers of NET, part 2. -/
def regsNET1 : List RegD :=
  [⟨R.NET_RX_TO_PARSER, 1, 0x0, 1, 0x0, .counter, []⟩,
   ⟨R.NET_RX_TO_TIMEBASE, 1, 0x0, 1, 0x0, .counter, []⟩,
   ⟨R.NET_RX_PCS_ERROR, 1, 0x0, 1, 0x0, .counter, []⟩,
   ⟨R.NET_RX_RUNT, 1, 0x0, 1, 0x0, .counter, []⟩,
   ⟨R.NET_RX_FCS_ERROR, 1, 0x0, 1, 0x0, .counter, []⟩,
   ⟨R.NET_RX_OVERFLOW, 1, 0x0, 1, 0x0, .counter, []⟩,
   ⟨R.NET_RX_PAUSE_HONOURED, 1, 0x0, 1, 0x0, .counter, []⟩,
   ⟨R.NET_RX_PAUSE_IGNORED, 1, 0x0, 1, 0x0, .counter, []⟩,
   ⟨R.NET_RX_CONTROL_OTHER, 1, 0x0, 1, 0x0, .counter, []⟩,
   ⟨R.NET_RX_ADDR_FILTERED, 1, 0x0, 1, 0x0, .counter, []⟩,
   ⟨R.NET_RX_MACSEC_DROPPED, 1, 0x0, 1, 0x0, .counter, []⟩,
   ⟨R.NET_RX_VLAN_FILTERED, 1, 0x0, 1, 0x0, .counter, []⟩,
   ⟨R.NET_RX_IN_BUFFER, 1, 0x0, 1, 0x0, .gauge, []⟩,
   ⟨R.NET_RX_TRUNCATED, 1, 0x0, 1, 0x0, .counter, []⟩,
   ⟨R.NET_RX_MACSEC_UNTAGGED, 1, 0x0, 1, 0x0, .counter, []⟩,
   ⟨R.NET_RX_MACSEC_NO_SC, 1, 0x0, 1, 0x0, .counter, []⟩]

/-- Registers of NET, part 3. -/
def regsNET2 : List RegD :=
  [⟨R.NET_RX_MACSEC_ICV, 1, 0x0, 1, 0x0, .counter, []⟩,
   ⟨R.NET_RX_MACSEC_REPLAY, 1, 0x0, 1, 0x0, .counter, []⟩,
   ⟨R.NET_TX_SUBMITTED, 1, 0x0, 1, 0x0, .counter, []⟩,
   ⟨R.NET_TX_SENT, 1, 0x0, 1, 0x0, .counter, []⟩,
   ⟨R.NET_TX_LINK_DOWN, 1, 0x0, 1, 0x0, .counter, []⟩,
   ⟨R.NET_TX_FLUSHED, 1, 0x0, 1, 0x0, .counter, []⟩,
   ⟨R.NET_TX_PN_EXHAUSTED, 1, 0x0, 1, 0x0, .counter, []⟩,
   ⟨R.NET_TX_IN_BUFFER, 1, 0x0, 1, 0x0, .gauge, []⟩,
   ⟨R.NET_TX_PAUSE_SENT, 1, 0x0, 1, 0x0, .counter, []⟩,
   ⟨R.NET_TX_PAUSED_NS, 1, 0x0, 1, 0x0, .counter, []⟩,
   ⟨R.NET_RX_INJECTED, 1, 0x0, 1, 0x0, .counter, []⟩,
   ⟨R.NET_MCAST_LO, 256, 0x8, 1, 0x0, .plain, [⟨31, 0, .rw, .any⟩]⟩,
   ⟨R.NET_MCAST_HI, 256, 0x8, 1, 0x0, .plain, [⟨31, 31, .rw, .any⟩, ⟨21, 16, .rw, .any⟩, ⟨15, 0, .rw, .any⟩]⟩]

/-- Registers of NET. -/
def regsNET : List RegD := regsNET0 ++ regsNET1 ++ regsNET2

/-- Registers of ING, part 1. -/
def regsING0 : List RegD :=
  [⟨R.ING_CTRL, 1, 0x0, 1, 0x0, .plain, [⟨6, 6, .rw, .any⟩, ⟨5, 5, .rw, .any⟩, ⟨4, 4, .rw, .any⟩, ⟨3, 3, .rw, .any⟩, ⟨0, 0, .rw, .any⟩]⟩,
   ⟨R.ING_STATUS, 1, 0x0, 1, 0x0, .plain, [⟨31, 16, .ro, .any⟩, ⟨0, 0, .ro, .any⟩]⟩,
   ⟨R.ING_GRID_TOL, 1, 0x0, 1, 0x0, .plain, [⟨9, 0, .rw, (.range 0 1000)⟩]⟩,
   ⟨R.ING_FUTURE_LIMIT, 1, 0x0, 1, 0x0, .plain, [⟨13, 0, .rw, (.range 1 10000)⟩]⟩,
   ⟨R.ING_SV_QUEUE, 1, 0x0, 1, 0x0, .plain, [⟨15, 8, .rw, .any⟩, ⟨7, 0, .rw, .any⟩]⟩,
   ⟨R.ING_INT_EN, 1, 0x0, 1, 0x0, .plain, [⟨4, 4, .live, .any⟩, ⟨3, 3, .live, .any⟩, ⟨2, 2, .live, .any⟩, ⟨1, 1, .live, .any⟩, ⟨0, 0, .live, .any⟩]⟩,
   ⟨R.ING_INT_STATUS, 1, 0x0, 1, 0x0, .plain, [⟨4, 4, .w1c, .any⟩, ⟨3, 3, .w1c, .any⟩, ⟨2, 2, .w1c, .any⟩, ⟨1, 1, .w1c, .any⟩, ⟨0, 0, .w1c, .any⟩]⟩,
   ⟨R.ING_PASS_BASE, 1, 0x0, 1, 0x0, .plain, [⟨25, 18, .rw, (.range 0 186)⟩]⟩,
   ⟨R.ING_TBL_ADDR, 1, 0x0, 1, 0x0, .plain, [⟨31, 29, .rw, (.range 0 4)⟩, ⟨17, 0, .rw, .any⟩]⟩,
   ⟨R.ING_TBL_CMD, 1, 0x0, 1, 0x0, .plain, [⟨1, 0, .wo, (.range 1 2)⟩]⟩,
   ⟨R.ING_TBL_STATUS, 1, 0x0, 1, 0x0, .plain, [⟨31, 31, .ro, .any⟩, ⟨2, 0, .ro, .any⟩]⟩,
   ⟨R.ING_PASS_WRITE, 1, 0x0, 1, 0x0, .plain, [⟨31, 0, .ro, .any⟩]⟩,
   ⟨R.ING_PASS_RELEASE, 1, 0x0, 1, 0x0, .plain, [⟨31, 0, .live, .any⟩]⟩,
   ⟨R.ING_TBL_DATA, 32, 0x4, 1, 0x0, .plain, [⟨31, 0, .rw, .any⟩]⟩,
   ⟨R.ING_U_FROM_MAC, 1, 0x0, 1, 0x0, .counter, []⟩,
   ⟨R.ING_U_TO_SUPERVISOR, 1, 0x0, 1, 0x0, .counter, []⟩]

/-- Registers of ING, part 2. -/
def regsING1 : List RegD :=
  [⟨R.ING_U_PASS_DROPPED, 1, 0x0, 1, 0x0, .counter, []⟩,
   ⟨R.ING_U_TO_CROSSING, 1, 0x0, 1, 0x0, .counter, []⟩,
   ⟨R.ING_U_NOT_INGESTING, 1, 0x0, 1, 0x0, .counter, []⟩,
   ⟨R.ING_U_TRUNCATED, 1, 0x0, 1, 0x0, .counter, []⟩,
   ⟨R.ING_U_IP_ERROR, 1, 0x0, 1, 0x0, .counter, []⟩,
   ⟨R.ING_U_FRAGMENT, 1, 0x0, 1, 0x0, .counter, []⟩,
   ⟨R.ING_U_TCP_SEGMENTS, 1, 0x0, 1, 0x0, .counter, []⟩,
   ⟨R.ING_U_MEAS_DATAGRAMS, 1, 0x0, 1, 0x0, .counter, []⟩,
   ⟨R.ING_U_ETH_IN_PARSER, 1, 0x0, 1, 0x0, .gauge, []⟩,
   ⟨R.ING_U_TCP_FRAMES, 1, 0x0, 1, 0x0, .counter, []⟩,
   ⟨R.ING_U_IDENTIFIED, 1, 0x0, 1, 0x0, .counter, []⟩,
   ⟨R.ING_U_REJ_SYNC, 1, 0x0, 1, 0x0, .counter, []⟩,
   ⟨R.ING_U_REJ_VERSION, 1, 0x0, 1, 0x0, .counter, []⟩,
   ⟨R.ING_U_REJ_SIZE, 1, 0x0, 1, 0x0, .counter, []⟩,
   ⟨R.ING_U_REJ_CRC, 1, 0x0, 1, 0x0, .counter, []⟩,
   ⟨R.ING_U_REJ_RSV_ENCRYPTED, 1, 0x0, 1, 0x0, .counter, []⟩]

/-- Registers of ING, part 3. -/
def regsING2 : List RegD :=
  [⟨R.ING_U_REJ_RSV_AUTH, 1, 0x0, 1, 0x0, .counter, []⟩,
   ⟨R.ING_U_REJ_RSV_REPLAY, 1, 0x0, 1, 0x0, .counter, []⟩,
   ⟨R.ING_U_REJ_UNKNOWN, 1, 0x0, 1, 0x0, .counter, []⟩,
   ⟨R.ING_U_FRAME_IN_PARSER, 1, 0x0, 1, 0x0, .gauge, []⟩,
   ⟨R.ING_U_NONDATA, 1, 0x0, 1, 0x0, .counter, []⟩,
   ⟨R.ING_U_DATA_FRAMES, 1, 0x0, 1, 0x0, .counter, []⟩,
   ⟨R.ING_U_DATA_BLOCKS, 1, 0x0, 1, 0x0, .counter, []⟩,
   ⟨R.ING_U_BLOCKS_UNMAPPED, 1, 0x0, 1, 0x0, .counter, []⟩,
   ⟨R.ING_U_JOURNALLED, 1, 0x0, 1, 0x0, .counter, []⟩,
   ⟨R.ING_U_TCP_OUT_OF_ORDER, 1, 0x0, 1, 0x0, .counter, []⟩,
   ⟨R.ING_U_TCP_RESYNC_BYTES, 1, 0x0, 1, 0x0, .counter, []⟩,
   ⟨R.ING_U_NONDATA_UNQUEUED, 1, 0x0, 1, 0x0, .counter, []⟩,
   ⟨R.ING_U_NONDATA_OVERFLOW, 1, 0x0, 1, 0x0, .counter, []⟩,
   ⟨R.ING_U_CFG_MALFORMED, 1, 0x0, 1, 0x0, .counter, []⟩]

/-- Registers of ING. -/
def regsING : List RegD := regsING0 ++ regsING1 ++ regsING2

/-- Registers of TIM, part 1. -/
def regsTIM0 : List RegD :=
  [⟨R.TIM_CTRL, 1, 0x0, 1, 0x0, .plain, [⟨21, 16, .rw, .any⟩, ⟨12, 12, .rw, .any⟩, ⟨11, 11, .rw, .any⟩, ⟨10, 9, .rw, (.outside 3 3)⟩, ⟨8, 6, .rw, (.range 0 3)⟩, ⟨5, 4, .rw, .any⟩, ⟨3, 1, .rw, (.range 0 4)⟩, ⟨0, 0, .rw, .any⟩]⟩,
   ⟨R.TIM_STATUS, 1, 0x0, 1, 0x0, .plain, [⟨11, 9, .ro, .any⟩, ⟨8, 8, .ro, .any⟩, ⟨7, 7, .ro, .any⟩, ⟨6, 6, .ro, .any⟩, ⟨5, 5, .ro, .any⟩, ⟨4, 4, .ro, .any⟩, ⟨3, 2, .ro, .any⟩, ⟨0, 0, .ro, .any⟩]⟩,
   ⟨R.TIM_NOW_LO, 1, 0x0, 1, 0x0, .plain, [⟨31, 0, .ro, .any⟩]⟩,
   ⟨R.TIM_NOW_HI, 1, 0x0, 1, 0x0, .plain, [⟨31, 0, .ro, .any⟩]⟩,
   ⟨R.TIM_NOW_TOP, 1, 0x0, 1, 0x0, .plain, [⟨15, 0, .ro, .any⟩]⟩,
   ⟨R.TIM_JUMP_LIMIT, 1, 0x0, 1, 0x0, .plain, [⟨19, 0, .rw, (.range 1 1000000)⟩]⟩,
   ⟨R.TIM_KP_ACQ, 1, 0x0, 1, 0x0, .plain, [⟨31, 0, .rw, .any⟩]⟩,
   ⟨R.TIM_KI_ACQ, 1, 0x0, 1, 0x0, .plain, [⟨31, 0, .rw, .any⟩]⟩,
   ⟨R.TIM_KP_LOCK, 1, 0x0, 1, 0x0, .plain, [⟨31, 0, .rw, .any⟩]⟩,
   ⟨R.TIM_KI_LOCK, 1, 0x0, 1, 0x0, .plain, [⟨31, 0, .rw, .any⟩]⟩,
   ⟨R.TIM_LOCK, 1, 0x0, 1, 0x0, .plain, [⟨31, 24, .rw, .nonzero⟩, ⟨23, 12, .rw, .any⟩, ⟨11, 0, .rw, .nonzero⟩]⟩,
   ⟨R.TIM_SRC_TIMEOUT, 1, 0x0, 1, 0x0, .plain, [⟨7, 0, .rw, .nonzero⟩]⟩,
   ⟨R.TIM_FREQ_ADJ, 1, 0x0, 1, 0x0, .plain, [⟨31, 0, .ro, .any⟩]⟩,
   ⟨R.TIM_OFFSET, 1, 0x0, 1, 0x0, .plain, [⟨31, 0, .ro, .any⟩]⟩,
   ⟨R.TIM_REFUSED, 1, 0x0, 1, 0x0, .pair, []⟩,
   ⟨R.TIM_TQ, 1, 0x0, 1, 0x0, .plain, [⟨15, 0, .ro, .any⟩]⟩]

/-- Registers of TIM, part 2. -/
def regsTIM1 : List RegD :=
  [⟨R.TIM_HOLD_DRIFT, 1, 0x0, 1, 0x0, .plain, [⟨15, 0, .rw, .any⟩]⟩,
   ⟨R.TIM_UTC, 1, 0x0, 1, 0x0, .plain, [⟨31, 31, .rw, .any⟩, ⟨30, 29, .rw, (.outside 3 3)⟩, ⟨15, 0, .rw, .any⟩]⟩,
   ⟨R.TIM_UTC_NOW, 1, 0x0, 1, 0x0, .plain, [⟨31, 31, .ro, .any⟩, ⟨30, 29, .ro, .any⟩, ⟨28, 27, .ro, .any⟩, ⟨15, 0, .ro, .any⟩]⟩,
   ⟨R.TIM_LEAP_AT, 1, 0x0, 1, 0x0, .plain, [⟨31, 0, .ro, .any⟩]⟩,
   ⟨R.TIM_DELAY_PPS_IN, 1, 0x0, 1, 0x0, .plain, [⟨31, 0, .rw, (.signed (-1000000) 1000000)⟩]⟩,
   ⟨R.TIM_DELAY_IRIG, 1, 0x0, 1, 0x0, .plain, [⟨31, 0, .rw, (.signed (-1000000) 1000000)⟩]⟩,
   ⟨R.TIM_DELAY_PPS_OUT, 1, 0x0, 1, 0x0, .plain, [⟨31, 0, .rw, (.signed (-1000000) 1000000)⟩]⟩,
   ⟨R.TIM_PPS_OUT, 1, 0x0, 1, 0x0, .plain, [⟨9, 0, .rw, (.range 1 999)⟩]⟩,
   ⟨R.TIM_XCHK_LIMIT, 1, 0x0, 1, 0x0, .plain, [⟨19, 0, .rw, (.range 1 1000000)⟩]⟩,
   ⟨R.TIM_PTP, 1, 0x0, 1, 0x0, .plain, [⟨7, 0, .rw, .any⟩]⟩,
   ⟨R.TIM_SRC_ACCURACY, 1, 0x0, 1, 0x0, .plain, [⟨19, 0, .rw, .any⟩]⟩,
   ⟨R.TIM_INT_EN, 1, 0x0, 1, 0x0, .plain, [⟨6, 6, .live, .any⟩, ⟨5, 5, .live, .any⟩, ⟨4, 4, .live, .any⟩, ⟨3, 3, .live, .any⟩, ⟨2, 2, .live, .any⟩, ⟨1, 1, .live, .any⟩, ⟨0, 0, .live, .any⟩]⟩,
   ⟨R.TIM_INT_STATUS, 1, 0x0, 1, 0x0, .plain, [⟨6, 6, .w1c, .any⟩, ⟨5, 5, .w1c, .any⟩, ⟨4, 4, .w1c, .any⟩, ⟨3, 3, .w1c, .any⟩, ⟨2, 2, .w1c, .any⟩, ⟨1, 1, .w1c, .any⟩, ⟨0, 0, .w1c, .any⟩]⟩,
   ⟨R.TIM_ASYM, 6, 0x4, 1, 0x0, .plain, [⟨31, 0, .rw, (.signed (-1000000) 1000000)⟩]⟩,
   ⟨R.TIM_CMP_CTRL, 16, 0x10, 1, 0x0, .plain, [⟨2, 2, .ro, .any⟩, ⟨1, 1, .ro, .any⟩, ⟨0, 0, .rw, .any⟩]⟩,
   ⟨R.TIM_CMP_LO, 16, 0x10, 1, 0x0, .plain, [⟨31, 0, .rw, .any⟩]⟩]

/-- Registers of TIM, part 3. -/
def regsTIM2 : List RegD :=
  [⟨R.TIM_CMP_HI, 16, 0x10, 1, 0x0, .plain, [⟨31, 0, .rw, .any⟩]⟩,
   ⟨R.TIM_SAMPLES, 1, 0x0, 1, 0x0, .counter, []⟩,
   ⟨R.TIM_SAMPLES_APPLIED, 1, 0x0, 1, 0x0, .counter, []⟩,
   ⟨R.TIM_JUMPS_REFUSED, 1, 0x0, 1, 0x0, .counter, []⟩,
   ⟨R.TIM_STEPS, 1, 0x0, 1, 0x0, .counter, []⟩,
   ⟨R.TIM_XCHK_DISCARDED, 1, 0x0, 1, 0x0, .counter, []⟩,
   ⟨R.TIM_XCHK_FAILS, 1, 0x0, 1, 0x0, .counter, []⟩,
   ⟨R.TIM_HOLDOVER_ENTRIES, 1, 0x0, 1, 0x0, .counter, []⟩,
   ⟨R.TIM_PTP_RX, 1, 0x0, 1, 0x0, .counter, []⟩,
   ⟨R.TIM_PTP_USED, 1, 0x0, 1, 0x0, .counter, []⟩,
   ⟨R.TIM_PTP_WRONG_PROFILE, 1, 0x0, 1, 0x0, .counter, []⟩,
   ⟨R.TIM_PTP_MALFORMED, 1, 0x0, 1, 0x0, .counter, []⟩,
   ⟨R.TIM_PTP_IN_ENGINE, 1, 0x0, 1, 0x0, .gauge, []⟩,
   ⟨R.TIM_PTP_TX, 1, 0x0, 1, 0x0, .counter, []⟩,
   ⟨R.TIM_IRIG_GOOD, 1, 0x0, 1, 0x0, .counter, []⟩,
   ⟨R.TIM_IRIG_BAD, 1, 0x0, 1, 0x0, .counter, []⟩]

/-- Registers of TIM, part 4. -/
def regsTIM3 : List RegD :=
  [⟨R.TIM_PPS_EDGES, 1, 0x0, 1, 0x0, .counter, []⟩,
   ⟨R.TIM_PPS_BAD, 1, 0x0, 1, 0x0, .counter, []⟩,
   ⟨R.TIM_MARKS, 1, 0x0, 1, 0x0, .counter, []⟩,
   ⟨R.TIM_CMP_LATE, 1, 0x0, 1, 0x0, .counter, []⟩]

/-- Registers of TIM. -/
def regsTIM : List RegD := regsTIM0 ++ regsTIM1 ++ regsTIM2 ++ regsTIM3

/-- Registers of GLD, part 1. -/
def regsGLD0 : List RegD :=
  [⟨R.GLD_CTRL, 1, 0x0, 1, 0x0, .plain, [⟨0, 0, .rw, .any⟩]⟩,
   ⟨R.GLD_STATUS, 1, 0x0, 1, 0x0, .plain, [⟨25, 16, .ro, .any⟩, ⟨1, 1, .ro, .any⟩, ⟨0, 0, .ro, .any⟩]⟩,
   ⟨R.GLD_LAST_REL, 1, 0x0, 1, 0x0, .pair, []⟩,
   ⟨R.GLD_INT_EN, 1, 0x0, 1, 0x0, .plain, [⟨5, 5, .live, .any⟩, ⟨4, 4, .live, .any⟩, ⟨3, 3, .live, .any⟩, ⟨2, 2, .live, .any⟩, ⟨1, 1, .live, .any⟩, ⟨0, 0, .live, .any⟩]⟩,
   ⟨R.GLD_INT_STATUS, 1, 0x0, 1, 0x0, .plain, [⟨5, 5, .w1c, .any⟩, ⟨4, 4, .w1c, .any⟩, ⟨3, 3, .w1c, .any⟩, ⟨2, 2, .w1c, .any⟩, ⟨1, 1, .w1c, .any⟩, ⟨0, 0, .w1c, .any⟩]⟩,
   ⟨R.GLD_TBL_ADDR, 1, 0x0, 1, 0x0, .plain, [⟨31, 29, .rw, (.range 0 1)⟩, ⟨13, 0, .rw, .any⟩]⟩,
   ⟨R.GLD_TBL_CMD, 1, 0x0, 1, 0x0, .plain, [⟨1, 0, .wo, (.range 1 1)⟩]⟩,
   ⟨R.GLD_TBL_STATUS, 1, 0x0, 1, 0x0, .plain, [⟨31, 31, .ro, .any⟩, ⟨2, 0, .ro, .any⟩]⟩,
   ⟨R.GLD_TBL_DATA, 32, 0x4, 1, 0x0, .plain, [⟨31, 0, .ro, .any⟩]⟩,
   ⟨R.GLD_U_BLOCKS, 1, 0x0, 1, 0x0, .counter, []⟩,
   ⟨R.GLD_U_CAPACITY_RELEASES, 1, 0x0, 1, 0x0, .counter, []⟩,
   ⟨R.GLD_U_CAPACITY_LATE, 1, 0x0, 1, 0x0, .counter, []⟩,
   ⟨R.GLD_G_CTRL, 64, 0x40, 1, 0x0, .plain, [⟨31, 24, .rw, .rate⟩, ⟨23, 22, .rw, .any⟩, ⟨21, 21, .rw, .any⟩, ⟨20, 17, .rw, .any⟩, ⟨0, 0, .rw, .any⟩]⟩,
   ⟨R.GLD_G_STATUS, 64, 0x40, 1, 0x0, .plain, [⟨30, 16, .ro, .any⟩, ⟨13, 4, .ro, .any⟩, ⟨3, 1, .ro, .any⟩, ⟨0, 0, .ro, .any⟩]⟩,
   ⟨R.GLD_WINDOW, 64, 0x40, 1, 0x0, .plain, [⟨21, 0, .rw, (.range 0 4000000)⟩]⟩,
   ⟨R.GLD_HORIZON, 64, 0x40, 1, 0x0, .plain, [⟨15, 0, .rw, (.range 0 60000)⟩]⟩]

/-- Registers of GLD, part 2. -/
def regsGLD1 : List RegD :=
  [⟨R.GLD_QUORUM, 64, 0x40, 1, 0x0, .plain, [⟨13, 0, .rw, (.range 0 10000)⟩]⟩,
   ⟨R.GLD_G_QUEUE, 64, 0x40, 1, 0x0, .plain, [⟨15, 8, .rw, .any⟩, ⟨7, 0, .rw, .any⟩]⟩,
   ⟨R.GLD_STORE_BASE, 64, 0x40, 1, 0x0, .plain, [⟨16, 0, .rw, .any⟩]⟩,
   ⟨R.GLD_STORE_RECORDS, 64, 0x40, 1, 0x0, .plain, [⟨19, 0, .rw, (.range 2 1048575)⟩]⟩,
   ⟨R.GLD_AMEND_BASE, 64, 0x40, 1, 0x0, .plain, [⟨16, 0, .rw, .any⟩]⟩,
   ⟨R.GLD_AMEND_RECORDS, 64, 0x40, 1, 0x0, .plain, [⟨19, 0, .rw, (.range 16 1048575)⟩]⟩,
   ⟨R.GLD_RECSIZE, 64, 0x40, 1, 0x0, .plain, [⟨23, 0, .ro, .any⟩]⟩,
   ⟨R.GLD_TOTALS, 64, 0x40, 1, 0x0, .plain, [⟨21, 0, .ro, .any⟩]⟩,
   ⟨R.GLD_SETSEQ, 64, 0x40, 1, 0x0, .pair, []⟩,
   ⟨R.GLD_FRONTIER, 64, 0x40, 1, 0x0, .pair, []⟩]

/-- Registers of GLD. -/
def regsGLD : List RegD := regsGLD0 ++ regsGLD1

/-- Registers of FLT, part 1. -/
def regsFLT0 : List RegD :=
  [⟨R.FLT_CTRL, 1, 0x0, 1, 0x0, .plain, [⟨0, 0, .rw, .any⟩]⟩,
   ⟨R.FLT_STATUS, 1, 0x0, 1, 0x0, .plain, [⟨24, 16, .ro, .any⟩, ⟨1, 1, .ro, .any⟩, ⟨0, 0, .ro, .any⟩]⟩,
   ⟨R.FLT_OUT_QUEUE, 1, 0x0, 1, 0x0, .plain, [⟨7, 0, .rw, .any⟩]⟩,
   ⟨R.FLT_OUT_BASE_LO, 1, 0x0, 1, 0x0, .plain, [⟨31, 6, .rw, .any⟩]⟩,
   ⟨R.FLT_OUT_BASE_HI, 1, 0x0, 1, 0x0, .plain, [⟨7, 0, .rw, .any⟩]⟩,
   ⟨R.FLT_OUT_RECORDS, 1, 0x0, 1, 0x0, .plain, [⟨23, 0, .rw, (.range 4096 16777215)⟩]⟩,
   ⟨R.FLT_INT_EN, 1, 0x0, 1, 0x0, .plain, [⟨3, 3, .live, .any⟩, ⟨2, 2, .live, .any⟩, ⟨1, 1, .live, .any⟩, ⟨0, 0, .live, .any⟩]⟩,
   ⟨R.FLT_INT_STATUS, 1, 0x0, 1, 0x0, .plain, [⟨3, 3, .w1c, .any⟩, ⟨2, 2, .w1c, .any⟩, ⟨1, 1, .w1c, .any⟩, ⟨0, 0, .w1c, .any⟩]⟩,
   ⟨R.FLT_TBL_ADDR, 1, 0x0, 1, 0x0, .plain, [⟨31, 29, .rw, (.range 0 1)⟩, ⟨11, 0, .rw, .any⟩]⟩,
   ⟨R.FLT_TBL_CMD, 1, 0x0, 1, 0x0, .plain, [⟨1, 0, .wo, (.range 1 2)⟩]⟩,
   ⟨R.FLT_TBL_STATUS, 1, 0x0, 1, 0x0, .plain, [⟨31, 31, .ro, .any⟩, ⟨2, 0, .ro, .any⟩]⟩,
   ⟨R.FLT_TBL_DATA, 32, 0x4, 1, 0x0, .plain, [⟨31, 0, .rw, .any⟩]⟩,
   ⟨R.FLT_U_NOTICES, 1, 0x0, 1, 0x0, .counter, []⟩,
   ⟨R.FLT_U_PASSES, 1, 0x0, 1, 0x0, .counter, []⟩,
   ⟨R.FLT_U_DROPPED, 1, 0x0, 1, 0x0, .counter, []⟩,
   ⟨R.FLT_U_PENDING, 1, 0x0, 1, 0x0, .gauge, []⟩]

/-- Registers of FLT, part 2. -/
def regsFLT1 : List RegD :=
  [⟨R.FLT_U_RECORDS, 1, 0x0, 1, 0x0, .counter, []⟩,
   ⟨R.FLT_U_NOTICE_REFUSED, 1, 0x0, 1, 0x0, .counter, []⟩]

/-- Registers of FLT. -/
def regsFLT : List RegD := regsFLT0 ++ regsFLT1

/-- Registers of OSC, part 1. -/
def regsOSC0 : List RegD :=
  [⟨R.OSC_CTRL, 1, 0x0, 1, 0x0, .plain, [⟨0, 0, .rw, .any⟩]⟩,
   ⟨R.OSC_STATUS, 1, 0x0, 1, 0x0, .plain, [⟨22, 16, .ro, .any⟩, ⟨1, 1, .ro, .any⟩, ⟨0, 0, .ro, .any⟩]⟩,
   ⟨R.OSC_QUEUE, 1, 0x0, 1, 0x0, .plain, [⟨31, 24, .rw, .any⟩, ⟨23, 16, .rw, .any⟩, ⟨15, 8, .rw, .any⟩, ⟨7, 0, .rw, .any⟩]⟩,
   ⟨R.OSC_TRK_BASE_LO, 1, 0x0, 1, 0x0, .plain, [⟨31, 6, .rw, .any⟩]⟩,
   ⟨R.OSC_TRK_BASE_HI, 1, 0x0, 1, 0x0, .plain, [⟨7, 0, .rw, .any⟩]⟩,
   ⟨R.OSC_TRK_RECORDS, 1, 0x0, 1, 0x0, .plain, [⟨19, 0, .rw, (.range 256 1048575)⟩]⟩,
   ⟨R.OSC_FO_BASE_LO, 1, 0x0, 1, 0x0, .plain, [⟨31, 6, .rw, .any⟩]⟩,
   ⟨R.OSC_FO_BASE_HI, 1, 0x0, 1, 0x0, .plain, [⟨7, 0, .rw, .any⟩]⟩,
   ⟨R.OSC_FO_RECORDS, 1, 0x0, 1, 0x0, .plain, [⟨15, 0, .rw, (.range 64 65535)⟩]⟩,
   ⟨R.OSC_INT_EN, 1, 0x0, 1, 0x0, .plain, [⟨6, 6, .live, .any⟩, ⟨5, 5, .live, .any⟩, ⟨4, 4, .live, .any⟩, ⟨3, 3, .live, .any⟩, ⟨2, 2, .live, .any⟩, ⟨1, 1, .live, .any⟩, ⟨0, 0, .live, .any⟩]⟩,
   ⟨R.OSC_INT_STATUS, 1, 0x0, 1, 0x0, .plain, [⟨6, 6, .w1c, .any⟩, ⟨5, 5, .w1c, .any⟩, ⟨4, 4, .w1c, .any⟩, ⟨3, 3, .w1c, .any⟩, ⟨2, 2, .w1c, .any⟩, ⟨1, 1, .w1c, .any⟩, ⟨0, 0, .w1c, .any⟩]⟩,
   ⟨R.OSC_TBL_ADDR, 1, 0x0, 1, 0x0, .plain, [⟨31, 29, .rw, (.range 0 5)⟩, ⟨10, 0, .rw, .any⟩]⟩,
   ⟨R.OSC_TBL_CMD, 1, 0x0, 1, 0x0, .plain, [⟨1, 0, .wo, (.range 1 2)⟩]⟩,
   ⟨R.OSC_TBL_STATUS, 1, 0x0, 1, 0x0, .plain, [⟨31, 31, .ro, .any⟩, ⟨2, 0, .ro, .any⟩]⟩,
   ⟨R.OSC_TBL_DATA, 32, 0x4, 1, 0x0, .plain, [⟨31, 0, .rw, .any⟩]⟩,
   ⟨R.OSC_U_PASSES, 1, 0x0, 1, 0x0, .counter, []⟩]

/-- Registers of OSC, part 2. -/
def regsOSC1 : List RegD :=
  [⟨R.OSC_U_PASSES_DONE, 1, 0x0, 1, 0x0, .counter, []⟩,
   ⟨R.OSC_U_DROPPED, 1, 0x0, 1, 0x0, .counter, []⟩,
   ⟨R.OSC_U_PENDING, 1, 0x0, 1, 0x0, .gauge, []⟩,
   ⟨R.OSC_U_TRK_RECORDS, 1, 0x0, 1, 0x0, .counter, []⟩,
   ⟨R.OSC_U_FO_RECORDS, 1, 0x0, 1, 0x0, .counter, []⟩,
   ⟨R.OSC_U_EVENTS, 1, 0x0, 1, 0x0, .counter, []⟩,
   ⟨R.OSC_U_NOTICES_PUSHED, 1, 0x0, 1, 0x0, .counter, []⟩,
   ⟨R.OSC_U_NOTICE_REFUSED, 1, 0x0, 1, 0x0, .counter, []⟩]

/-- Registers of OSC. -/
def regsOSC : List RegD := regsOSC0 ++ regsOSC1

/-- Registers of ISL, part 1. -/
def regsISL0 : List RegD :=
  [⟨R.ISL_CTRL, 1, 0x0, 1, 0x0, .plain, [⟨0, 0, .rw, .any⟩]⟩,
   ⟨R.ISL_STATUS, 1, 0x0, 1, 0x0, .plain, [⟨31, 16, .ro, .any⟩, ⟨15, 8, .ro, .any⟩, ⟨2, 2, .ro, .any⟩, ⟨1, 1, .ro, .any⟩, ⟨0, 0, .ro, .any⟩]⟩,
   ⟨R.ISL_QUEUE, 1, 0x0, 1, 0x0, .plain, [⟨23, 16, .rw, .any⟩, ⟨15, 8, .rw, .any⟩, ⟨7, 0, .rw, .any⟩]⟩,
   ⟨R.ISL_RES_BASE_LO, 1, 0x0, 1, 0x0, .plain, [⟨31, 6, .rw, .any⟩]⟩,
   ⟨R.ISL_RES_BASE_HI, 1, 0x0, 1, 0x0, .plain, [⟨7, 0, .rw, .any⟩]⟩,
   ⟨R.ISL_RES_RECORDS, 1, 0x0, 1, 0x0, .plain, [⟨15, 0, .rw, (.range 64 65535)⟩]⟩,
   ⟨R.ISL_MAP_BASE_LO, 1, 0x0, 1, 0x0, .plain, [⟨31, 6, .rw, .any⟩]⟩,
   ⟨R.ISL_MAP_BASE_HI, 1, 0x0, 1, 0x0, .plain, [⟨7, 0, .rw, .any⟩]⟩,
   ⟨R.ISL_MAP_RECORDS, 1, 0x0, 1, 0x0, .plain, [⟨12, 0, .rw, (.range 2 4096)⟩]⟩,
   ⟨R.ISL_MAP_SEQ, 1, 0x0, 1, 0x0, .pair, []⟩,
   ⟨R.ISL_INT_EN, 1, 0x0, 1, 0x0, .plain, [⟨6, 6, .live, .any⟩, ⟨5, 5, .live, .any⟩, ⟨4, 4, .live, .any⟩, ⟨3, 3, .live, .any⟩, ⟨2, 2, .live, .any⟩, ⟨1, 1, .live, .any⟩, ⟨0, 0, .live, .any⟩]⟩,
   ⟨R.ISL_INT_STATUS, 1, 0x0, 1, 0x0, .plain, [⟨6, 6, .w1c, .any⟩, ⟨5, 5, .w1c, .any⟩, ⟨4, 4, .w1c, .any⟩, ⟨3, 3, .w1c, .any⟩, ⟨2, 2, .w1c, .any⟩, ⟨1, 1, .w1c, .any⟩, ⟨0, 0, .w1c, .any⟩]⟩,
   ⟨R.ISL_TBL_ADDR, 1, 0x0, 1, 0x0, .plain, [⟨31, 29, .rw, .any⟩, ⟨14, 0, .rw, .any⟩]⟩,
   ⟨R.ISL_TBL_CMD, 1, 0x0, 1, 0x0, .plain, [⟨1, 0, .wo, (.range 1 2)⟩]⟩,
   ⟨R.ISL_TBL_STATUS, 1, 0x0, 1, 0x0, .plain, [⟨31, 31, .ro, .any⟩, ⟨2, 0, .ro, .any⟩]⟩,
   ⟨R.ISL_TBL_DATA, 32, 0x4, 1, 0x0, .plain, [⟨31, 0, .rw, .any⟩]⟩]

/-- Registers of ISL, part 2. -/
def regsISL1 : List RegD :=
  [⟨R.ISL_U_NOTICES, 1, 0x0, 1, 0x0, .counter, []⟩,
   ⟨R.ISL_U_PROCESSED, 1, 0x0, 1, 0x0, .counter, []⟩,
   ⟨R.ISL_U_DROPPED, 1, 0x0, 1, 0x0, .counter, []⟩,
   ⟨R.ISL_U_PENDING, 1, 0x0, 1, 0x0, .gauge, []⟩,
   ⟨R.ISL_U_RES_RECORDS, 1, 0x0, 1, 0x0, .counter, []⟩,
   ⟨R.ISL_U_NO_RECORD, 1, 0x0, 1, 0x0, .counter, []⟩,
   ⟨R.ISL_U_RECOMPUTES, 1, 0x0, 1, 0x0, .counter, []⟩,
   ⟨R.ISL_U_MAP_RECORDS, 1, 0x0, 1, 0x0, .counter, []⟩,
   ⟨R.ISL_U_MAP_UNCHANGED, 1, 0x0, 1, 0x0, .counter, []⟩,
   ⟨R.ISL_U_EVAL_PRESENT, 1, 0x0, 1, 0x0, .counter, []⟩,
   ⟨R.ISL_U_EVAL_ABSENT, 1, 0x0, 1, 0x0, .counter, []⟩,
   ⟨R.ISL_U_CHANGES, 1, 0x0, 1, 0x0, .counter, []⟩,
   ⟨R.ISL_U_ENTRIES, 1, 0x0, 1, 0x0, .counter, []⟩,
   ⟨R.ISL_U_ENTRIES_OVERFLOW, 1, 0x0, 1, 0x0, .counter, []⟩,
   ⟨R.ISL_U_EVENTS, 1, 0x0, 1, 0x0, .counter, []⟩,
   ⟨R.ISL_U_NOTICES_PUSHED, 1, 0x0, 1, 0x0, .counter, []⟩]

/-- Registers of ISL, part 3. -/
def regsISL2 : List RegD :=
  [⟨R.ISL_U_NOTICE_REFUSED, 1, 0x0, 1, 0x0, .counter, []⟩,
   ⟨R.ISL_U_LATE, 1, 0x0, 1, 0x0, .counter, []⟩,
   ⟨R.ISL_U_DP_INVALID, 1, 0x0, 1, 0x0, .counter, []⟩,
   ⟨R.ISL_U_EVALUATIONS, 1, 0x0, 1, 0x0, .counter, []⟩]

/-- Registers of ISL. -/
def regsISL : List RegD := regsISL0 ++ regsISL1 ++ regsISL2

/-- Registers of ALM, part 1. -/
def regsALM0 : List RegD :=
  [⟨R.ALM_CTRL, 1, 0x0, 1, 0x0, .plain, [⟨0, 0, .rw, .any⟩]⟩,
   ⟨R.ALM_STATUS, 1, 0x0, 1, 0x0, .plain, [⟨2, 2, .ro, .any⟩, ⟨1, 1, .ro, .any⟩, ⟨0, 0, .ro, .any⟩]⟩,
   ⟨R.ALM_UNIT_ID, 1, 0x0, 1, 0x0, .plain, [⟨31, 0, .rw, .any⟩]⟩,
   ⟨R.ALM_KEEPALIVE, 1, 0x0, 1, 0x0, .plain, [⟨15, 0, .rw, (.range 10 60000)⟩]⟩,
   ⟨R.ALM_REC_BASE_LO, 1, 0x0, 1, 0x0, .plain, [⟨31, 6, .rw, .any⟩]⟩,
   ⟨R.ALM_REC_BASE_HI, 1, 0x0, 1, 0x0, .plain, [⟨7, 0, .rw, .any⟩]⟩,
   ⟨R.ALM_REC_RECORDS, 1, 0x0, 1, 0x0, .plain, [⟨23, 0, .rw, (.range 1024 16777215)⟩]⟩,
   ⟨R.ALM_REC_QUEUE, 1, 0x0, 1, 0x0, .plain, [⟨7, 0, .rw, .any⟩]⟩,
   ⟨R.ALM_INT_EN, 1, 0x0, 1, 0x0, .plain, [⟨4, 4, .live, .any⟩, ⟨3, 3, .live, .any⟩, ⟨2, 2, .live, .any⟩, ⟨1, 1, .live, .any⟩, ⟨0, 0, .live, .any⟩]⟩,
   ⟨R.ALM_INT_STATUS, 1, 0x0, 1, 0x0, .plain, [⟨4, 4, .w1c, .any⟩, ⟨3, 3, .w1c, .any⟩, ⟨2, 2, .w1c, .any⟩, ⟨1, 1, .w1c, .any⟩, ⟨0, 0, .w1c, .any⟩]⟩,
   ⟨R.ALM_DEC_CTX, 1, 0x0, 1, 0x0, .banked, [⟨31, 30, .rw, (.outside 3 3)⟩, ⟨29, 24, .rw, .any⟩]⟩,
   ⟨R.ALM_DEC_SEQ_LO, 1, 0x0, 1, 0x0, .banked, [⟨31, 0, .rw, .any⟩]⟩,
   ⟨R.ALM_DEC_SEQ_HI, 1, 0x0, 1, 0x0, .banked, [⟨31, 0, .rw, .any⟩]⟩,
   ⟨R.ALM_DEC_T0_LO, 1, 0x0, 1, 0x0, .banked, [⟨31, 0, .rw, .any⟩]⟩,
   ⟨R.ALM_DEC_T0_HI, 1, 0x0, 1, 0x0, .banked, [⟨31, 0, .rw, .any⟩]⟩,
   ⟨R.ALM_DECIDE, 1, 0x0, 1, 0x0, .banked, [⟨31, 31, .wo, .any⟩, ⟨16, 16, .wo, .any⟩, ⟨8, 0, .wo, .any⟩]⟩]

/-- Registers of ALM, part 2. -/
def regsALM1 : List RegD :=
  [⟨R.ALM_ACK, 1, 0x0, 1, 0x0, .plain, [⟨8, 0, .wo, .any⟩]⟩,
   ⟨R.ALM_OUT_STATE, 1, 0x0, 1, 0x0, .plain, [⟨11, 0, .ro, .any⟩]⟩,
   ⟨R.ALM_OUT_FORCE, 1, 0x0, 1, 0x0, .plain, [⟨27, 16, .rw, .any⟩, ⟨11, 0, .rw, .any⟩]⟩,
   ⟨R.ALM_TBL_ADDR, 1, 0x0, 1, 0x0, .plain, [⟨31, 29, .rw, (.range 0 4)⟩, ⟨17, 0, .rw, .any⟩]⟩,
   ⟨R.ALM_TBL_CMD, 1, 0x0, 1, 0x0, .plain, [⟨1, 0, .wo, (.range 1 2)⟩]⟩,
   ⟨R.ALM_TBL_STATUS, 1, 0x0, 1, 0x0, .plain, [⟨31, 31, .ro, .any⟩, ⟨2, 0, .ro, .any⟩]⟩,
   ⟨R.ALM_TBL_DATA, 32, 0x4, 1, 0x0, .plain, [⟨31, 0, .rw, .any⟩]⟩,
   ⟨R.ALM_U_DECISIONS, 1, 0x0, 1, 0x0, .counter, []⟩,
   ⟨R.ALM_U_DEC_APPLIED, 1, 0x0, 1, 0x0, .counter, []⟩,
   ⟨R.ALM_U_DEC_REFUSED, 1, 0x0, 1, 0x0, .counter, []⟩,
   ⟨R.ALM_U_DEC_ABANDONED, 1, 0x0, 1, 0x0, .counter, []⟩,
   ⟨R.ALM_U_DEC_PENDING, 1, 0x0, 1, 0x0, .gauge, []⟩,
   ⟨R.ALM_U_BATCH_REFUSED, 1, 0x0, 1, 0x0, .counter, []⟩,
   ⟨R.ALM_U_CHANGES, 1, 0x0, 1, 0x0, .counter, []⟩,
   ⟨R.ALM_U_NO_CHANGE, 1, 0x0, 1, 0x0, .counter, []⟩,
   ⟨R.ALM_U_RECORDS, 1, 0x0, 1, 0x0, .counter, []⟩]

/-- Registers of ALM, part 3. -/
def regsALM2 : List RegD :=
  [⟨R.ALM_U_RESOLUTIONS, 1, 0x0, 1, 0x0, .counter, []⟩,
   ⟨R.ALM_U_ACKS, 1, 0x0, 1, 0x0, .counter, []⟩,
   ⟨R.ALM_U_ACK_IGNORED, 1, 0x0, 1, 0x0, .counter, []⟩,
   ⟨R.ALM_U_REC_NOTICES, 1, 0x0, 1, 0x0, .counter, []⟩,
   ⟨R.ALM_U_REC_NOTICE_REFUSED, 1, 0x0, 1, 0x0, .counter, []⟩,
   ⟨R.ALM_U_LATE, 1, 0x0, 1, 0x0, .counter, []⟩,
   ⟨R.ALM_U_FRAMES_SENT, 1, 0x0, 1, 0x0, .counter, []⟩,
   ⟨R.ALM_U_KEEPALIVES, 1, 0x0, 1, 0x0, .counter, []⟩,
   ⟨R.ALM_U_REVERSALS, 1, 0x0, 1, 0x0, .counter, []⟩]

/-- Registers of ALM. -/
def regsALM : List RegD := regsALM0 ++ regsALM1 ++ regsALM2

/-- Registers of CAP, part 1. -/
def regsCAP0 : List RegD :=
  [⟨R.CAP_CTRL, 1, 0x0, 1, 0x0, .plain, [⟨0, 0, .rw, .any⟩]⟩,
   ⟨R.CAP_STATUS, 1, 0x0, 1, 0x0, .plain, [⟨23, 16, .ro, .any⟩, ⟨1, 1, .ro, .any⟩, ⟨0, 0, .ro, .any⟩]⟩,
   ⟨R.CAP_RING_BASE_LO, 1, 0x0, 1, 0x0, .plain, [⟨31, 6, .rw, .any⟩]⟩,
   ⟨R.CAP_RING_BASE_HI, 1, 0x0, 1, 0x0, .plain, [⟨7, 0, .rw, .any⟩]⟩,
   ⟨R.CAP_RING_SIZE, 1, 0x0, 1, 0x0, .plain, [⟨15, 0, .rw, (.range 64 65535)⟩]⟩,
   ⟨R.CAP_WRITE, 1, 0x0, 1, 0x0, .pair, []⟩,
   ⟨R.CAP_RELEASE_LO, 1, 0x0, 1, 0x0, .plain, [⟨31, 0, .live, .any⟩]⟩,
   ⟨R.CAP_RELEASE_HI, 1, 0x0, 1, 0x0, .plain, [⟨31, 0, .live, .any⟩]⟩,
   ⟨R.CAP_QUEUE, 1, 0x0, 1, 0x0, .plain, [⟨7, 0, .rw, .any⟩]⟩,
   ⟨R.CAP_TRIGGER, 1, 0x0, 1, 0x0, .plain, [⟨15, 0, .wo, .any⟩]⟩,
   ⟨R.CAP_INT_EN, 1, 0x0, 1, 0x0, .plain, [⟨5, 5, .live, .any⟩, ⟨4, 4, .live, .any⟩, ⟨3, 3, .live, .any⟩, ⟨2, 2, .live, .any⟩, ⟨1, 1, .live, .any⟩, ⟨0, 0, .live, .any⟩]⟩,
   ⟨R.CAP_INT_STATUS, 1, 0x0, 1, 0x0, .plain, [⟨5, 5, .w1c, .any⟩, ⟨4, 4, .w1c, .any⟩, ⟨3, 3, .w1c, .any⟩, ⟨2, 2, .w1c, .any⟩, ⟨1, 1, .w1c, .any⟩, ⟨0, 0, .w1c, .any⟩]⟩,
   ⟨R.CAP_TBL_ADDR, 1, 0x0, 1, 0x0, .plain, [⟨31, 29, .rw, (.range 0 4)⟩, ⟨9, 0, .rw, .any⟩]⟩,
   ⟨R.CAP_TBL_CMD, 1, 0x0, 1, 0x0, .plain, [⟨1, 0, .wo, (.range 1 2)⟩]⟩,
   ⟨R.CAP_TBL_STATUS, 1, 0x0, 1, 0x0, .plain, [⟨31, 31, .ro, .any⟩, ⟨2, 0, .ro, .any⟩]⟩,
   ⟨R.CAP_TBL_DATA, 32, 0x4, 1, 0x0, .plain, [⟨31, 0, .rw, .any⟩]⟩]

/-- Registers of CAP, part 2. -/
def regsCAP1 : List RegD :=
  [⟨R.CAP_U_NOTICES, 1, 0x0, 1, 0x0, .counter, []⟩,
   ⟨R.CAP_U_PROCESSED, 1, 0x0, 1, 0x0, .counter, []⟩,
   ⟨R.CAP_U_DROPPED, 1, 0x0, 1, 0x0, .counter, []⟩,
   ⟨R.CAP_U_PENDING, 1, 0x0, 1, 0x0, .gauge, []⟩,
   ⟨R.CAP_U_OPENS, 1, 0x0, 1, 0x0, .counter, []⟩,
   ⟨R.CAP_U_CLOSES, 1, 0x0, 1, 0x0, .counter, []⟩,
   ⟨R.CAP_U_NOTICES_PUSHED, 1, 0x0, 1, 0x0, .counter, []⟩,
   ⟨R.CAP_U_NOTICE_REFUSED, 1, 0x0, 1, 0x0, .counter, []⟩,
   ⟨R.CAP_U_FLASH_CORRECTED, 1, 0x0, 1, 0x0, .counter, []⟩,
   ⟨R.CAP_U_FLASH_UNCORRECTABLE, 1, 0x0, 1, 0x0, .counter, []⟩]

/-- Registers of CAP. -/
def regsCAP : List RegD := regsCAP0 ++ regsCAP1

/-- Registers of ACC, part 1. -/
def regsACC0 : List RegD :=
  [⟨R.ACC_CTRL, 1, 0x0, 1, 0x0, .plain, [⟨0, 0, .rw, .any⟩]⟩,
   ⟨R.ACC_STATUS, 1, 0x0, 1, 0x0, .plain, [⟨22, 16, .ro, .any⟩, ⟨5, 4, .ro, .any⟩, ⟨3, 3, .ro, .any⟩, ⟨2, 2, .ro, .any⟩, ⟨1, 1, .ro, .any⟩, ⟨0, 0, .ro, .any⟩]⟩,
   ⟨R.ACC_SAVE_SEQ, 1, 0x0, 1, 0x0, .pair, []⟩,
   ⟨R.ACC_INT_EN, 1, 0x0, 1, 0x0, .plain, [⟨5, 5, .live, .any⟩, ⟨4, 4, .live, .any⟩, ⟨3, 3, .live, .any⟩, ⟨2, 2, .live, .any⟩, ⟨1, 1, .live, .any⟩, ⟨0, 0, .live, .any⟩]⟩,
   ⟨R.ACC_INT_STATUS, 1, 0x0, 1, 0x0, .plain, [⟨5, 5, .w1c, .any⟩, ⟨4, 4, .w1c, .any⟩, ⟨3, 3, .w1c, .any⟩, ⟨2, 2, .w1c, .any⟩, ⟨1, 1, .w1c, .any⟩, ⟨0, 0, .w1c, .any⟩]⟩,
   ⟨R.ACC_TBL_ADDR, 1, 0x0, 1, 0x0, .plain, [⟨31, 29, .rw, (.range 0 6)⟩, ⟨8, 0, .rw, .any⟩]⟩,
   ⟨R.ACC_TBL_CMD, 1, 0x0, 1, 0x0, .plain, [⟨1, 0, .wo, (.range 1 2)⟩]⟩,
   ⟨R.ACC_TBL_STATUS, 1, 0x0, 1, 0x0, .plain, [⟨31, 31, .ro, .any⟩, ⟨2, 0, .ro, .any⟩]⟩,
   ⟨R.ACC_TBL_DATA, 32, 0x4, 1, 0x0, .plain, [⟨31, 0, .rw, .any⟩]⟩,
   ⟨R.ACC_U_NOTICES, 1, 0x0, 1, 0x0, .counter, []⟩,
   ⟨R.ACC_U_PROCESSED, 1, 0x0, 1, 0x0, .counter, []⟩,
   ⟨R.ACC_U_DROPPED, 1, 0x0, 1, 0x0, .counter, []⟩,
   ⟨R.ACC_U_AFTER_SAVE, 1, 0x0, 1, 0x0, .counter, []⟩,
   ⟨R.ACC_U_PENDING, 1, 0x0, 1, 0x0, .gauge, []⟩,
   ⟨R.ACC_U_SAVES_STARTED, 1, 0x0, 1, 0x0, .counter, []⟩,
   ⟨R.ACC_U_SAVES_DONE, 1, 0x0, 1, 0x0, .counter, []⟩]

/-- Registers of ACC, part 2. -/
def regsACC1 : List RegD :=
  [⟨R.ACC_U_SAVES_ABANDONED, 1, 0x0, 1, 0x0, .counter, []⟩,
   ⟨R.ACC_U_SAVE_FAILED, 1, 0x0, 1, 0x0, .counter, []⟩,
   ⟨R.ACC_U_SAVING, 1, 0x0, 1, 0x0, .gauge, []⟩]

/-- Registers of ACC. -/
def regsACC : List RegD := regsACC0 ++ regsACC1

/-- Registers of XNG, part 1. -/
def regsXNG0 : List RegD :=
  [⟨R.XNG_CTRL, 1, 0x0, 1, 0x0, .plain, [⟨11, 8, .rw, (.range 0 5)⟩, ⟨3, 3, .rw, .any⟩, ⟨2, 2, .rw, .any⟩, ⟨1, 1, .rw, .any⟩, ⟨0, 0, .rw, .any⟩]⟩,
   ⟨R.XNG_STATUS, 1, 0x0, 1, 0x0, .plain, [⟨15, 15, .ro, .any⟩, ⟨14, 14, .ro, .any⟩, ⟨13, 13, .ro, .any⟩, ⟨12, 12, .ro, .any⟩, ⟨11, 10, .ro, .any⟩, ⟨9, 9, .ro, .any⟩, ⟨4, 1, .ro, .any⟩, ⟨0, 0, .ro, .any⟩]⟩,
   ⟨R.XNG_TIMING, 1, 0x0, 1, 0x0, .plain, [⟨31, 16, .rw, .nonzero⟩, ⟨15, 8, .rw, (.range 10 255)⟩, ⟨7, 0, .rw, .nonzero⟩]⟩,
   ⟨R.XNG_LIMITS, 1, 0x0, 1, 0x0, .plain, [⟨31, 22, .rw, (.range 10 600)⟩, ⟨21, 14, .rw, (.range 2 255)⟩, ⟨13, 6, .rw, (.range 2 255)⟩, ⟨5, 0, .rw, (.range 2 63)⟩]⟩,
   ⟨R.XNG_HB_MAC_LO, 1, 0x0, 1, 0x0, .plain, [⟨31, 0, .rw, .any⟩]⟩,
   ⟨R.XNG_HB_MAC_HI, 1, 0x0, 1, 0x0, .plain, [⟨27, 16, .rw, .any⟩, ⟨15, 0, .rw, .any⟩]⟩,
   ⟨R.XNG_INT_EN, 1, 0x0, 1, 0x0, .plain, [⟨5, 5, .live, .any⟩, ⟨4, 4, .live, .any⟩, ⟨3, 3, .live, .any⟩, ⟨2, 2, .live, .any⟩, ⟨1, 1, .live, .any⟩, ⟨0, 0, .live, .any⟩]⟩,
   ⟨R.XNG_INT_STATUS, 1, 0x0, 1, 0x0, .plain, [⟨5, 5, .w1c, .any⟩, ⟨4, 4, .w1c, .any⟩, ⟨3, 3, .w1c, .any⟩, ⟨2, 2, .w1c, .any⟩, ⟨1, 1, .w1c, .any⟩, ⟨0, 0, .w1c, .any⟩]⟩,
   ⟨R.XNG_SENT, 1, 0x0, 1, 0x0, .pair, []⟩,
   ⟨R.XNG_APPLIED, 1, 0x0, 1, 0x0, .pair, []⟩,
   ⟨R.XNG_LAG, 1, 0x0, 1, 0x0, .plain, [⟨31, 0, .ro, .any⟩]⟩,
   ⟨R.XNG_DIGEST_SEL, 1, 0x0, 1, 0x0, .plain, [⟨9, 6, .rw, .any⟩, ⟨5, 0, .ro, .any⟩]⟩,
   ⟨R.XNG_POST_VAL_LO, 1, 0x0, 1, 0x0, .plain, [⟨31, 0, .rw, .any⟩]⟩,
   ⟨R.XNG_POST_VAL_HI, 1, 0x0, 1, 0x0, .plain, [⟨31, 0, .rw, .any⟩]⟩,
   ⟨R.XNG_POST_CMD, 1, 0x0, 1, 0x0, .plain, [⟨4, 0, .wo, .any⟩]⟩,
   ⟨R.XNG_POST_RESULT, 1, 0x0, 1, 0x0, .plain, [⟨31, 31, .ro, .any⟩, ⟨7, 0, .ro, .any⟩]⟩]

/-- Registers of XNG, part 2. -/
def regsXNG1 : List RegD :=
  [⟨R.XNG_TBL_ADDR, 1, 0x0, 1, 0x0, .plain, [⟨31, 29, .rw, (.range 0 0)⟩, ⟨17, 0, .rw, .any⟩]⟩,
   ⟨R.XNG_TBL_CMD, 1, 0x0, 1, 0x0, .plain, [⟨1, 0, .wo, (.range 1 2)⟩]⟩,
   ⟨R.XNG_TBL_STATUS, 1, 0x0, 1, 0x0, .plain, [⟨31, 31, .ro, .any⟩, ⟨2, 0, .ro, .any⟩]⟩,
   ⟨R.XNG_TBL_DATA, 32, 0x4, 1, 0x0, .plain, [⟨31, 0, .rw, .any⟩]⟩,
   ⟨R.XNG_U_ENTRIES_SENT, 1, 0x0, 1, 0x0, .counter, []⟩,
   ⟨R.XNG_U_ENTRIES_RX, 1, 0x0, 1, 0x0, .counter, []⟩,
   ⟨R.XNG_U_ENTRIES_APPLIED, 1, 0x0, 1, 0x0, .counter, []⟩,
   ⟨R.XNG_U_ENTRIES_PENDING, 1, 0x0, 1, 0x0, .gauge, []⟩,
   ⟨R.XNG_U_DIGESTS_MADE, 1, 0x0, 1, 0x0, .counter, []⟩,
   ⟨R.XNG_U_DIGESTS_MATCHED, 1, 0x0, 1, 0x0, .counter, []⟩,
   ⟨R.XNG_U_DIGESTS_MISMATCHED, 1, 0x0, 1, 0x0, .counter, []⟩,
   ⟨R.XNG_U_DIGESTS_TIMED_OUT, 1, 0x0, 1, 0x0, .counter, []⟩,
   ⟨R.XNG_U_DIGESTS_AWAITING, 1, 0x0, 1, 0x0, .gauge, []⟩,
   ⟨R.XNG_U_HB_RX_CROSSING, 1, 0x0, 1, 0x0, .counter, []⟩,
   ⟨R.XNG_U_HB_RX_PORT, 1, 0x0, 1, 0x0, .counter, []⟩,
   ⟨R.XNG_U_HB_ACCEPTED, 1, 0x0, 1, 0x0, .counter, []⟩]

/-- Registers of XNG, part 3. -/
def regsXNG2 : List RegD :=
  [⟨R.XNG_U_HB_BAD, 1, 0x0, 1, 0x0, .counter, []⟩,
   ⟨R.XNG_U_RETRANSMITS, 1, 0x0, 1, 0x0, .counter, []⟩,
   ⟨R.XNG_U_OUTPUT_MARKS, 1, 0x0, 1, 0x0, .counter, []⟩,
   ⟨R.XNG_U_JOINS, 1, 0x0, 1, 0x0, .counter, []⟩]

/-- Registers of XNG. -/
def regsXNG : List RegD := regsXNG0 ++ regsXNG1 ++ regsXNG2

/-- Registers of ERR, part 1. -/
def regsERR0 : List RegD :=
  [⟨R.ERR_CTRL, 1, 0x0, 1, 0x0, .plain, [⟨31, 20, .rw, (.range 10 4095)⟩, ⟨19, 12, .rw, .nonzero⟩, ⟨11, 4, .rw, (.range 4 255)⟩, ⟨0, 0, .rw, .any⟩]⟩,
   ⟨R.ERR_STATUS, 1, 0x0, 1, 0x0, .plain, [⟨20, 16, .ro, .any⟩, ⟨8, 8, .ro, .any⟩, ⟨4, 0, .ro, .any⟩]⟩,
   ⟨R.ERR_EPOCH, 1, 0x0, 1, 0x0, .plain, [⟨31, 0, .ro, .any⟩]⟩,
   ⟨R.ERR_INT_EN, 1, 0x0, 1, 0x0, .plain, [⟨6, 6, .live, .any⟩, ⟨5, 5, .live, .any⟩, ⟨4, 4, .live, .any⟩, ⟨3, 3, .live, .any⟩, ⟨2, 2, .live, .any⟩, ⟨1, 1, .live, .any⟩, ⟨0, 0, .live, .any⟩]⟩,
   ⟨R.ERR_INT_STATUS, 1, 0x0, 1, 0x0, .plain, [⟨6, 6, .w1c, .any⟩, ⟨5, 5, .w1c, .any⟩, ⟨4, 4, .w1c, .any⟩, ⟨3, 3, .w1c, .any⟩, ⟨2, 2, .w1c, .any⟩, ⟨1, 1, .w1c, .any⟩, ⟨0, 0, .w1c, .any⟩]⟩,
   ⟨R.ERR_LOG_POP, 1, 0x0, 1, 0x0, .plain, [⟨0, 0, .wo, .any⟩]⟩,
   ⟨R.ERR_LOG, 8, 0x4, 1, 0x0, .plain, [⟨31, 0, .ro, .any⟩]⟩,
   ⟨R.ERR_KICK, 1, 0x0, 1, 0x0, .banked, [⟨0, 0, .wo, .any⟩]⟩,
   ⟨R.ERR_CORE_UP, 1, 0x0, 1, 0x0, .plain, [⟨19, 0, .w1s, .any⟩]⟩,
   ⟨R.ERR_RSV_KICK, 1, 0x0, 1, 0x0, .plain, [⟨31, 16, .wo, .any⟩]⟩,
   ⟨R.ERR_RECOVER, 1, 0x0, 1, 0x0, .plain, [⟨31, 16, .wo, .any⟩, ⟨1, 0, .wo, (.range 1 2)⟩]⟩,
   ⟨R.ERR_ABORT, 1, 0x0, 1, 0x0, .banked, [⟨0, 0, .wo, .any⟩]⟩,
   ⟨R.ERR_SCRUB, 1, 0x0, 1, 0x0, .plain, [⟨31, 16, .rw, .any⟩, ⟨15, 0, .rw, .any⟩]⟩,
   ⟨R.ERR_WDOG_SE, 16, 0x4, 1, 0x0, .plain, [⟨23, 0, .rw, (.range 100 16777215)⟩]⟩,
   ⟨R.ERR_WDOG_SV, 4, 0x4, 1, 0x0, .plain, [⟨23, 0, .rw, (.range 100 16777215)⟩]⟩,
   ⟨R.ERR_U_FAULTS, 1, 0x0, 1, 0x0, .counter, []⟩]

/-- Registers of ERR, part 2. -/
def regsERR1 : List RegD :=
  [⟨R.ERR_U_CLASS, 6, 0x8, 1, 0x0, .counter, []⟩,
   ⟨R.ERR_U_POISON_READS, 1, 0x0, 1, 0x0, .counter, []⟩,
   ⟨R.ERR_U_LOG_LOST, 1, 0x0, 1, 0x0, .counter, []⟩,
   ⟨R.ERR_U_EPOCH_BREAKS, 1, 0x0, 1, 0x0, .counter, []⟩,
   ⟨R.ERR_U_ROLE_PASSES, 1, 0x0, 1, 0x0, .counter, []⟩,
   ⟨R.ERR_U_SCRUB_CORRECTED, 1, 0x0, 1, 0x0, .counter, []⟩]

/-- Registers of ERR. -/
def regsERR : List RegD := regsERR0 ++ regsERR1

/-- Registers of SEC, part 1. -/
def regsSEC0 : List RegD :=
  [⟨R.SEC_STATUS, 1, 0x0, 1, 0x0, .plain, [⟨23, 16, .ro, .any⟩, ⟨5, 5, .ro, .any⟩, ⟨4, 4, .ro, .any⟩, ⟨3, 3, .ro, .any⟩, ⟨2, 2, .ro, .any⟩, ⟨1, 1, .ro, .any⟩, ⟨0, 0, .ro, .any⟩]⟩,
   ⟨R.SEC_INT_EN, 1, 0x0, 1, 0x0, .plain, [⟨3, 3, .live, .any⟩, ⟨2, 2, .live, .any⟩, ⟨1, 1, .live, .any⟩, ⟨0, 0, .live, .any⟩]⟩,
   ⟨R.SEC_INT_STATUS, 1, 0x0, 1, 0x0, .plain, [⟨3, 3, .w1c, .any⟩, ⟨2, 2, .w1c, .any⟩, ⟨1, 1, .w1c, .any⟩, ⟨0, 0, .w1c, .any⟩]⟩,
   ⟨R.SEC_REMASK, 1, 0x0, 1, 0x0, .plain, [⟨9, 0, .ro, .any⟩]⟩,
   ⟨R.SEC_TAMPER_GRADE, 1, 0x0, 1, 0x0, .plain, [⟨13, 0, .ro, .any⟩]⟩,
   ⟨R.SEC_TAMPER_LATCH, 1, 0x0, 1, 0x0, .plain, [⟨31, 31, .ro, .any⟩, ⟨14, 8, .ro, .any⟩, ⟨6, 0, .ro, .any⟩]⟩,
   ⟨R.SEC_TAMPER_TEMP, 1, 0x0, 1, 0x0, .plain, [⟨15, 8, .ro, .any⟩, ⟨7, 0, .ro, .any⟩]⟩,
   ⟨R.SEC_U_COMMANDS, 1, 0x0, 1, 0x0, .counter, []⟩,
   ⟨R.SEC_U_DONE, 1, 0x0, 1, 0x0, .counter, []⟩,
   ⟨R.SEC_U_REFUSED, 1, 0x0, 1, 0x0, .counter, []⟩,
   ⟨R.SEC_U_ABORTED, 1, 0x0, 1, 0x0, .counter, []⟩,
   ⟨R.SEC_U_IN_PROGRESS, 1, 0x0, 1, 0x0, .gauge, []⟩,
   ⟨R.SEC_U_NONAPPROVED, 1, 0x0, 1, 0x0, .counter, []⟩,
   ⟨R.SEC_U_TAMPER_EVENTS, 1, 0x0, 1, 0x0, .counter, []⟩,
   ⟨R.SEC_U_ZEROIZES, 1, 0x0, 1, 0x0, .counter, []⟩,
   ⟨R.SEC_U_REMASKS, 1, 0x0, 1, 0x0, .counter, []⟩]

/-- Registers of SEC, part 2. -/
def regsSEC1 : List RegD :=
  [⟨R.SEC_U_REMASK_LATE, 1, 0x0, 1, 0x0, .counter, []⟩]

/-- Registers of SEC. -/
def regsSEC : List RegD := regsSEC0 ++ regsSEC1

/-- Registers of UND, part 1. -/
def regsUND0 : List RegD :=
  [⟨R.UND_STATUS, 1, 0x0, 1, 0x0, .plain, [⟨3, 3, .ro, .any⟩, ⟨2, 2, .ro, .any⟩, ⟨1, 0, .ro, .any⟩]⟩,
   ⟨R.UND_INT_EN, 1, 0x0, 1, 0x0, .plain, [⟨5, 5, .live, .any⟩, ⟨4, 4, .live, .any⟩, ⟨3, 3, .live, .any⟩, ⟨2, 2, .live, .any⟩, ⟨1, 1, .live, .any⟩, ⟨0, 0, .live, .any⟩]⟩,
   ⟨R.UND_INT_STATUS, 1, 0x0, 1, 0x0, .plain, [⟨5, 5, .w1c, .any⟩, ⟨4, 4, .w1c, .any⟩, ⟨3, 3, .w1c, .any⟩, ⟨2, 2, .w1c, .any⟩, ⟨1, 1, .w1c, .any⟩, ⟨0, 0, .w1c, .any⟩]⟩,
   ⟨R.UND_RTC_SUBSEC, 1, 0x0, 1, 0x0, .plain, [⟨14, 0, .ro, .any⟩]⟩,
   ⟨R.UND_RTC_TIME, 1, 0x0, 1, 0x0, .plain, [⟨20, 16, .ro, .any⟩, ⟨13, 8, .ro, .any⟩, ⟨5, 0, .ro, .any⟩]⟩,
   ⟨R.UND_RTC_DATE, 1, 0x0, 1, 0x0, .plain, [⟨27, 16, .ro, .any⟩, ⟨11, 8, .ro, .any⟩, ⟨4, 0, .ro, .any⟩]⟩,
   ⟨R.UND_RTC_WDAY, 1, 0x0, 1, 0x0, .plain, [⟨2, 0, .ro, .any⟩]⟩,
   ⟨R.UND_RTC_STG_DATE, 1, 0x0, 1, 0x0, .banked, [⟨27, 16, .rw, .any⟩, ⟨11, 8, .rw, .any⟩, ⟨4, 0, .rw, .any⟩]⟩,
   ⟨R.UND_RTC_STG_TIME, 1, 0x0, 1, 0x0, .banked, [⟨26, 24, .rw, .any⟩, ⟨20, 16, .rw, .any⟩, ⟨13, 8, .rw, .any⟩]⟩,
   ⟨R.UND_RTC_SET_SEC, 1, 0x0, 1, 0x0, .plain, [⟨5, 0, .wo, .any⟩]⟩,
   ⟨R.UND_RTC_STATUS, 1, 0x0, 1, 0x0, .plain, [⟨2, 2, .w1c, .any⟩, ⟨1, 1, .w1c, .any⟩, ⟨0, 0, .ro, .any⟩]⟩,
   ⟨R.UND_RTC_ALARM, 1, 0x0, 1, 0x0, .plain, [⟨31, 31, .rw, .any⟩, ⟨30, 27, .rw, .any⟩, ⟨26, 22, .rw, .any⟩, ⟨21, 17, .rw, .any⟩, ⟨16, 11, .rw, .any⟩, ⟨10, 5, .rw, .any⟩]⟩,
   ⟨R.UND_WAKE_PERIOD, 1, 0x0, 1, 0x0, .plain, [⟨31, 31, .rw, .any⟩, ⟨4, 0, .rw, (.range 0 26)⟩]⟩,
   ⟨R.UND_BACKUP_CTRL, 1, 0x0, 1, 0x0, .plain, [⟨31, 31, .rw, .any⟩, ⟨30, 30, .rw, .any⟩, ⟨29, 27, .rw, (.range 0 5)⟩, ⟨26, 23, .rw, .any⟩, ⟨9, 5, .rw, .any⟩, ⟨4, 0, .rw, .any⟩]⟩,
   ⟨R.UND_BACKUP_STATUS, 1, 0x0, 1, 0x0, .plain, [⟨31, 20, .ro, .any⟩, ⟨19, 8, .ro, .any⟩]⟩,
   ⟨R.UND_FIRST_BAT, 1, 0x0, 1, 0x0, .pair, []⟩]

/-- Registers of UND, part 2. -/
def regsUND1 : List RegD :=
  [⟨R.UND_FIRST_BAT_CLR, 1, 0x0, 1, 0x0, .plain, [⟨31, 16, .wo, .any⟩]⟩,
   ⟨R.UND_BAT_SECONDS, 1, 0x0, 1, 0x0, .plain, [⟨31, 0, .ro, .any⟩]⟩,
   ⟨R.UND_RL_HEAD, 1, 0x0, 1, 0x0, .pair, []⟩,
   ⟨R.UND_RL_INDEX, 1, 0x0, 1, 0x0, .plain, [⟨15, 0, .rw, .any⟩]⟩,
   ⟨R.UND_RL_DATA, 16, 0x4, 1, 0x0, .plain, [⟨31, 0, .ro, .any⟩]⟩,
   ⟨R.UND_RL_APP_DATA, 7, 0x4, 1, 0x0, .banked, [⟨31, 0, .rw, .any⟩]⟩,
   ⟨R.UND_RL_APP_CMD, 1, 0x0, 1, 0x0, .plain, [⟨15, 0, .wo, (.range 0x8000 0xFFFF)⟩]⟩,
   ⟨R.UND_U_RL_REQUESTED, 1, 0x0, 1, 0x0, .counter, []⟩,
   ⟨R.UND_U_RL_WRITTEN, 1, 0x0, 1, 0x0, .counter, []⟩,
   ⟨R.UND_U_RL_LOST, 1, 0x0, 1, 0x0, .counter, []⟩,
   ⟨R.UND_U_RL_PENDING, 1, 0x0, 1, 0x0, .gauge, []⟩,
   ⟨R.UND_U_SWITCHES, 1, 0x0, 1, 0x0, .counter, []⟩]

/-- Registers of UND. -/
def regsUND : List RegD := regsUND0 ++ regsUND1

/-- Registers of PRF, part 1. -/
def regsPRF0 : List RegD :=
  [⟨R.PRF_CTRL, 1, 0x0, 1, 0x0, .plain, [⟨2, 2, .wo, .any⟩, ⟨1, 1, .wo, .any⟩, ⟨0, 0, .live, .any⟩]⟩,
   ⟨R.PRF_STATUS, 1, 0x0, 1, 0x0, .plain, [⟨1, 1, .ro, .any⟩, ⟨0, 0, .ro, .any⟩]⟩,
   ⟨R.PRF_SNAP_TIME, 1, 0x0, 1, 0x0, .pair, []⟩,
   ⟨R.PRF_G_OVF_EN, 1, 0x0, 1, 0x0, .plain, [⟨31, 0, .live, .any⟩]⟩,
   ⟨R.PRF_G_OVF, 1, 0x0, 1, 0x0, .plain, [⟨31, 0, .w1c, .any⟩]⟩,
   ⟨R.PRF_G_CNT_CTRL, 32, 0x20, 1, 0x0, .plain, [⟨31, 31, .live, .any⟩, ⟨30, 30, .w1c, .any⟩, ⟨29, 27, .live, .any⟩, ⟨26, 26, .live, .any⟩, ⟨25, 25, .live, .any⟩, ⟨23, 16, .live, .perfEvent⟩, ⟨15, 8, .live, .any⟩]⟩,
   ⟨R.PRF_G_CNT_REQ, 32, 0x20, 1, 0x0, .plain, [⟨15, 8, .live, .any⟩, ⟨7, 0, .live, .any⟩]⟩,
   ⟨R.PRF_G_CNT_BASE, 32, 0x20, 1, 0x0, .plain, [⟨27, 0, .live, .any⟩]⟩,
   ⟨R.PRF_G_CNT_LIMIT, 32, 0x20, 1, 0x0, .plain, [⟨27, 0, .live, .any⟩]⟩,
   ⟨R.PRF_G_CNT_LO, 32, 0x20, 1, 0x0, .plain, [⟨31, 0, .live, .any⟩]⟩,
   ⟨R.PRF_G_CNT_HI, 32, 0x20, 1, 0x0, .plain, [⟨15, 0, .live, .any⟩]⟩,
   ⟨R.PRF_G_CNT_SNAP_LO, 32, 0x20, 1, 0x0, .plain, [⟨31, 0, .ro, .any⟩]⟩,
   ⟨R.PRF_G_CNT_SNAP_HI, 32, 0x20, 1, 0x0, .plain, [⟨15, 0, .ro, .any⟩]⟩,
   ⟨R.PRF_CNT_CTRL, 21, 0x400, 8, 0x20, .plain, [⟨31, 31, .live, .any⟩, ⟨30, 30, .w1c, .any⟩, ⟨29, 27, .live, .any⟩, ⟨26, 26, .live, .any⟩, ⟨23, 16, .live, .perfEvent⟩, ⟨15, 8, .live, .any⟩]⟩,
   ⟨R.PRF_CNT_REQ, 21, 0x400, 8, 0x20, .plain, []⟩,
   ⟨R.PRF_CNT_BASE, 21, 0x400, 8, 0x20, .plain, [⟨27, 0, .live, .any⟩]⟩]

/-- Registers of PRF, part 2. -/
def regsPRF1 : List RegD :=
  [⟨R.PRF_CNT_LIMIT, 21, 0x400, 8, 0x20, .plain, [⟨27, 0, .live, .any⟩]⟩,
   ⟨R.PRF_CNT_LO, 21, 0x400, 8, 0x20, .plain, [⟨31, 0, .live, .any⟩]⟩,
   ⟨R.PRF_CNT_HI, 21, 0x400, 8, 0x20, .plain, [⟨15, 0, .live, .any⟩]⟩,
   ⟨R.PRF_CNT_SNAP_LO, 21, 0x400, 8, 0x20, .plain, [⟨31, 0, .ro, .any⟩]⟩,
   ⟨R.PRF_CNT_SNAP_HI, 21, 0x400, 8, 0x20, .plain, [⟨15, 0, .ro, .any⟩]⟩,
   ⟨R.PRF_S_CTRL, 21, 0x400, 1, 0x0, .plain, [⟨31, 31, .live, .any⟩, ⟨10, 8, .live, .any⟩, ⟨7, 0, .live, .any⟩]⟩,
   ⟨R.PRF_S_PERIOD, 21, 0x400, 1, 0x0, .plain, [⟨23, 0, .live, .nonzero⟩]⟩,
   ⟨R.PRF_S_BASE_LO, 21, 0x400, 1, 0x0, .plain, [⟨31, 5, .rw, .any⟩]⟩,
   ⟨R.PRF_S_BASE_HI, 21, 0x400, 1, 0x0, .plain, [⟨7, 0, .rw, .any⟩]⟩,
   ⟨R.PRF_S_SIZE, 21, 0x400, 1, 0x0, .plain, [⟨19, 0, .rw, (.range 16 1048575)⟩]⟩,
   ⟨R.PRF_S_WRITE, 21, 0x400, 1, 0x0, .plain, [⟨31, 0, .ro, .any⟩]⟩,
   ⟨R.PRF_S_READ, 21, 0x400, 1, 0x0, .plain, [⟨31, 0, .live, .any⟩]⟩,
   ⟨R.PRF_S_SELECTED, 21, 0x400, 1, 0x0, .counter, []⟩,
   ⟨R.PRF_S_DUE, 21, 0x400, 1, 0x0, .counter, []⟩,
   ⟨R.PRF_S_WRITTEN, 21, 0x400, 1, 0x0, .counter, []⟩,
   ⟨R.PRF_S_LOST, 21, 0x400, 1, 0x0, .counter, []⟩]

/-- Registers of PRF. -/
def regsPRF : List RegD := regsPRF0 ++ regsPRF1

/-- Registers of HST, part 1. -/
def regsHST0 : List RegD :=
  [⟨R.HST_STATUS, 1, 0x0, 1, 0x0, .plain, [⟨7, 4, .ro, .any⟩, ⟨3, 1, .ro, .any⟩, ⟨0, 0, .ro, .any⟩]⟩,
   ⟨R.HST_INT_EN, 1, 0x0, 1, 0x0, .plain, [⟨11, 7, .live, .any⟩, ⟨6, 2, .live, .any⟩, ⟨1, 1, .live, .any⟩, ⟨0, 0, .live, .any⟩]⟩,
   ⟨R.HST_INT_STATUS, 1, 0x0, 1, 0x0, .plain, [⟨11, 7, .w1c, .any⟩, ⟨6, 2, .w1c, .any⟩, ⟨1, 1, .w1c, .any⟩, ⟨0, 0, .w1c, .any⟩]⟩,
   ⟨R.HST_WAKE, 1, 0x0, 1, 0x0, .plain, [⟨31, 16, .wo, .any⟩]⟩,
   ⟨R.HST_DP_ADDR_LO, 1, 0x0, 1, 0x0, .banked, [⟨31, 2, .rw, .any⟩]⟩,
   ⟨R.HST_DP_ADDR_HI, 1, 0x0, 1, 0x0, .banked, [⟨31, 31, .rw, .any⟩, ⟨7, 0, .rw, .any⟩]⟩,
   ⟨R.HST_DP_BURST, 1, 0x0, 1, 0x0, .banked, [⟨31, 31, .wo, .any⟩, ⟨30, 30, .wo, .any⟩, ⟨16, 0, .wo, (.range 0 65536)⟩]⟩,
   ⟨R.HST_DP_DATA, 1, 0x0, 1, 0x0, .banked, [⟨31, 0, .rw, .any⟩]⟩,
   ⟨R.HST_DP_STATUS, 1, 0x0, 1, 0x0, .banked, [⟨31, 31, .ro, .any⟩, ⟨30, 28, .ro, .any⟩, ⟨16, 0, .ro, .any⟩]⟩,
   ⟨R.HST_DP_ERASE, 1, 0x0, 1, 0x0, .banked, [⟨16, 0, .wo, .any⟩]⟩,
   ⟨R.HST_DP_FIFO, 1024, 0x4, 1, 0x0, .banked, [⟨31, 0, .rw, .any⟩]⟩,
   ⟨R.HST_MSIX_TABLE, 4, 0x10, 3, 0x4, .plain, [⟨31, 0, .rw, .any⟩]⟩,
   ⟨R.HST_MSIX_CTL, 4, 0x10, 1, 0x0, .plain, [⟨0, 0, .rw, .any⟩]⟩,
   ⟨R.HST_MSIX_PBA, 2, 0x4, 1, 0x0, .plain, [⟨31, 0, .ro, .any⟩]⟩,
   ⟨R.HST_U_DP_WORDS_READ, 1, 0x0, 1, 0x0, .counter, []⟩,
   ⟨R.HST_U_DP_WORDS_WRITTEN, 1, 0x0, 1, 0x0, .counter, []⟩]

/-- Registers of HST, part 2. -/
def regsHST1 : List RegD :=
  [⟨R.HST_U_DP_COMMITTED, 1, 0x0, 1, 0x0, .counter, []⟩,
   ⟨R.HST_U_DP_DISCARDED, 1, 0x0, 1, 0x0, .counter, []⟩,
   ⟨R.HST_U_DP_BUFFERED, 1, 0x0, 1, 0x0, .gauge, []⟩,
   ⟨R.HST_U_DP_ERRORS, 1, 0x0, 1, 0x0, .counter, []⟩,
   ⟨R.HST_U_UR, 1, 0x0, 1, 0x0, .counter, []⟩,
   ⟨R.HST_U_HOST_RESETS, 1, 0x0, 1, 0x0, .counter, []⟩,
   ⟨R.HST_U_WAKE_IGNORED, 1, 0x0, 1, 0x0, .counter, []⟩,
   ⟨R.HST_U_DP_ERASES, 1, 0x0, 1, 0x0, .counter, []⟩]

/-- Registers of HST. -/
def regsHST : List RegD := regsHST0 ++ regsHST1

/-- `off` is a member of the array at `base`. -/
def inArray (off base n stride : Nat) : Bool :=
  decide (base ≤ off) && decide (off < base + n * stride) && decide ((off - base) % stride = 0)

/-- `off` is a member of the two-level array at `base`. -/
def inArray2 (off base n1 s1 n2 s2 : Nat) : Bool :=
  decide (base ≤ off) && decide (off < base + n1 * s1)
    && decide ((off - base) % s1 < n2 * s2) && decide ((off - base) % s1 % s2 = 0)


/-- Reset value of a register that is not zero after reset: its Reset column; for a field marked C the factory value, or
the least value not reserved (log 3); for a field marked U the value after a backup loss (log 4). -/
def regResetPlain (off : Nat) : Word :=
  if off = R.SYS_MODE then 0x00000001 else
  if off = R.SYS_BOOT_TIMEWAIT then 0x0000003C else
  if off = R.SYS_TEST_WDOG then 0x0000003C else
  if inArray off R.IC_CLAIM 21 0x400 then 0x000003FF else
  if inArray off R.IC_RUNNING 21 0x400 then 0x03FF0000 else
  if inArray off R.IC_WAKE_SLOT 16 0x4 then 0x00000100 else
  if off = R.RBT_TSPILL then 0x00058000 else
  if off = R.NET_CTRL then 0x00000290 else
  if off = R.NET_STATUS then 0x00000001 else
  if off = R.NET_MAXLEN then 0x00002400 else
  if off = R.NET_PAUSE then 0x0100FFFF else
  if off = R.NET_MACSEC_PN_THRESH then 0xC0000000 else
  if off = R.ING_STATUS then 0x00000001 else
  if off = R.ING_GRID_TOL then 0x00000032 else
  if off = R.ING_FUTURE_LIMIT then 0x00000064 else
  if off = R.TIM_STATUS then 0x00000E01 else
  if off = R.TIM_JUMP_LIMIT then 0x00000032 else
  if off = R.TIM_KP_ACQ then 0x0000B333 else
  if off = R.TIM_KI_ACQ then 0x00004CCD else
  if off = R.TIM_KP_LOCK then 0x0000199A else
  if off = R.TIM_KI_LOCK then 0x00000148 else
  if off = R.TIM_LOCK then 0x083E83E8 else
  if off = R.TIM_SRC_TIMEOUT then 0x00000003 else
  if off = R.TIM_TQ then 0x00000032 else
  if off = R.TIM_HOLD_DRIFT then 0x00000116 else
  if off = R.TIM_PPS_OUT then 0x00000064 else
  if off = R.TIM_XCHK_LIMIT then 0x0000000A else
  if off = R.TIM_SRC_ACCURACY then 0x00000064 else
  if off = R.GLD_STATUS then 0x00000001 else
  if inArray off R.GLD_G_STATUS 64 0x40 then 0x00000001 else
  if inArray off R.GLD_STORE_RECORDS 64 0x40 then 0x00000002 else
  if inArray off R.GLD_AMEND_RECORDS 64 0x40 then 0x00000010 else
  if off = R.FLT_STATUS then 0x00000001 else
  if off = R.FLT_OUT_RECORDS then 0x00001000 else
  if off = R.OSC_STATUS then 0x00000001 else
  if off = R.OSC_TRK_RECORDS then 0x00000100 else
  if off = R.OSC_FO_RECORDS then 0x00000040 else
  if off = R.ISL_STATUS then 0x00000001 else
  if off = R.ISL_RES_RECORDS then 0x00000040 else
  if off = R.ISL_MAP_RECORDS then 0x00000002 else
  if off = R.ALM_STATUS then 0x00000001 else
  if off = R.ALM_KEEPALIVE then 0x0000000A else
  if off = R.ALM_REC_RECORDS then 0x00000400 else
  if off = R.CAP_STATUS then 0x00000001 else
  if off = R.CAP_RING_SIZE then 0x00000040 else
  if off = R.ACC_STATUS then 0x00000001 else
  if off = R.XNG_STATUS then 0x00000001 else
  if off = R.XNG_TIMING then 0x012C140A else
  if off = R.XNG_LIMITS then 0x0F028085 else
  if off = R.XNG_DIGEST_SEL then 0x0000003F else
  if off = R.ERR_CTRL then 0x0640A050 else
  if off = R.ERR_STATUS then 0x00100000 else
  if off = R.ERR_CORE_UP then 0x000FFFFF else
  if off = R.ERR_SCRUB then 0x0008000A else
  if inArray off R.ERR_WDOG_SE 16 0x4 then 0x00001388 else
  if inArray off R.ERR_WDOG_SV 4 0x4 then 0x00004E20 else
  if off = R.SEC_REMASK then 0x000000FA else
  if off = R.SEC_TAMPER_GRADE then 0x0000256A else
  if off = R.SEC_TAMPER_TEMP then 0x000073CE else
  if off = R.UND_RTC_STATUS then 0x00000001 else
  if inArray off R.PRF_S_PERIOD 21 0x400 then 0x00000001 else
  if inArray off R.PRF_S_SIZE 21 0x400 then 0x00000010 else
  if inArray off R.HST_MSIX_CTL 4 0x10 then 0x00000001 else
  0

/-- Bits of a register whose fields are loaded from the committed configuration (reset mark C, R21). -/
def cfgMaskPlain (off : Nat) : Nat :=
  if off = R.SYS_BOOT_TIMEWAIT then 0x000003FF else
  if off = R.SYS_BOOT_TARGET then 0x00000003 else
  if off = R.SYS_TEST_WDOG then 0x00000FFF else
  if off = R.RBT_TSPILL then 0x000FFFFF else
  if inArray off R.RBT_CLASS 16 0x8 then 0x800FFFFF else
  if inArray off R.RBT_CREDIT 16 0x8 then 0x00001FFF else
  if off = R.NET_STATION_LO then 0xFFFFFFFF else
  if off = R.NET_STATION_HI then 0x0000FFFF else
  if off = R.NET_RX_DELAY then 0xFFFFFFFF else
  if off = R.NET_TX_DELAY then 0xFFFFFFFF else
  if off = R.ING_CTRL then 0x00000078 else
  if off = R.ING_SV_QUEUE then 0x0000FFFF else
  if off = R.ING_PASS_BASE then 0x03FC0000 else
  if off = R.TIM_CTRL then 0x003F1FFE else
  if off = R.TIM_JUMP_LIMIT then 0x000FFFFF else
  if off = R.TIM_KP_ACQ then 0xFFFFFFFF else
  if off = R.TIM_KI_ACQ then 0xFFFFFFFF else
  if off = R.TIM_KP_LOCK then 0xFFFFFFFF else
  if off = R.TIM_KI_LOCK then 0xFFFFFFFF else
  if off = R.TIM_LOCK then 0xFFFFFFFF else
  if off = R.TIM_SRC_TIMEOUT then 0x000000FF else
  if off = R.TIM_HOLD_DRIFT then 0x0000FFFF else
  if off = R.TIM_UTC then 0xE000FFFF else
  if off = R.TIM_DELAY_PPS_IN then 0xFFFFFFFF else
  if off = R.TIM_DELAY_IRIG then 0xFFFFFFFF else
  if off = R.TIM_DELAY_PPS_OUT then 0xFFFFFFFF else
  if off = R.TIM_PPS_OUT then 0x000003FF else
  if off = R.TIM_XCHK_LIMIT then 0x000FFFFF else
  if off = R.TIM_PTP then 0x000000FF else
  if off = R.TIM_SRC_ACCURACY then 0x000FFFFF else
  if inArray off R.TIM_ASYM 6 0x4 then 0xFFFFFFFF else
  if inArray off R.GLD_G_CTRL 64 0x40 then 0xFFFE0001 else
  if inArray off R.GLD_WINDOW 64 0x40 then 0x003FFFFF else
  if inArray off R.GLD_HORIZON 64 0x40 then 0x0000FFFF else
  if inArray off R.GLD_QUORUM 64 0x40 then 0x00003FFF else
  if inArray off R.GLD_G_QUEUE 64 0x40 then 0x0000FFFF else
  if inArray off R.GLD_STORE_BASE 64 0x40 then 0x0001FFFF else
  if inArray off R.GLD_STORE_RECORDS 64 0x40 then 0x000FFFFF else
  if inArray off R.GLD_AMEND_BASE 64 0x40 then 0x0001FFFF else
  if inArray off R.GLD_AMEND_RECORDS 64 0x40 then 0x000FFFFF else
  if off = R.FLT_CTRL then 0x00000001 else
  if off = R.FLT_OUT_QUEUE then 0x000000FF else
  if off = R.FLT_OUT_BASE_LO then 0xFFFFFFC0 else
  if off = R.FLT_OUT_BASE_HI then 0x000000FF else
  if off = R.FLT_OUT_RECORDS then 0x00FFFFFF else
  if off = R.OSC_CTRL then 0x00000001 else
  if off = R.OSC_QUEUE then 0xFFFFFFFF else
  if off = R.OSC_TRK_BASE_LO then 0xFFFFFFC0 else
  if off = R.OSC_TRK_BASE_HI then 0x000000FF else
  if off = R.OSC_TRK_RECORDS then 0x000FFFFF else
  if off = R.OSC_FO_BASE_LO then 0xFFFFFFC0 else
  if off = R.OSC_FO_BASE_HI then 0x000000FF else
  if off = R.OSC_FO_RECORDS then 0x0000FFFF else
  if off = R.ISL_CTRL then 0x00000001 else
  if off = R.ISL_QUEUE then 0x00FFFFFF else
  if off = R.ISL_RES_BASE_LO then 0xFFFFFFC0 else
  if off = R.ISL_RES_BASE_HI then 0x000000FF else
  if off = R.ISL_RES_RECORDS then 0x0000FFFF else
  if off = R.ISL_MAP_BASE_LO then 0xFFFFFFC0 else
  if off = R.ISL_MAP_BASE_HI then 0x000000FF else
  if off = R.ISL_MAP_RECORDS then 0x00001FFF else
  if off = R.ALM_CTRL then 0x00000001 else
  if off = R.ALM_UNIT_ID then 0xFFFFFFFF else
  if off = R.ALM_KEEPALIVE then 0x0000FFFF else
  if off = R.ALM_REC_BASE_LO then 0xFFFFFFC0 else
  if off = R.ALM_REC_BASE_HI then 0x000000FF else
  if off = R.ALM_REC_RECORDS then 0x00FFFFFF else
  if off = R.ALM_REC_QUEUE then 0x000000FF else
  if off = R.CAP_CTRL then 0x00000001 else
  if off = R.CAP_RING_BASE_LO then 0xFFFFFFC0 else
  if off = R.CAP_RING_BASE_HI then 0x000000FF else
  if off = R.CAP_RING_SIZE then 0x0000FFFF else
  if off = R.CAP_QUEUE then 0x000000FF else
  if off = R.ACC_CTRL then 0x00000001 else
  if off = R.XNG_CTRL then 0x00000F0F else
  if off = R.XNG_TIMING then 0xFFFFFFFF else
  if off = R.XNG_LIMITS then 0xFFFFFFFF else
  if off = R.XNG_HB_MAC_LO then 0xFFFFFFFF else
  if off = R.XNG_HB_MAC_HI then 0x0FFFFFFF else
  if off = R.XNG_DIGEST_SEL then 0x000003C0 else
  if off = R.ERR_CTRL then 0xFFFFFFF1 else
  if off = R.ERR_SCRUB then 0xFFFFFFFF else
  if inArray off R.ERR_WDOG_SE 16 0x4 then 0x00FFFFFF else
  if inArray off R.ERR_WDOG_SV 4 0x4 then 0x00FFFFFF else
  if off = R.SEC_REMASK then 0x000003FF else
  0

/-- A field of a table entry word. -/
structure TFld where
  word : Nat
  hi : Nat
  lo : Nat
  acc : Access
  legal : Legal
  deriving DecidableEq, Repr

/-- A table of entries reached through a block's TBL registers (R148). -/
structure TableD where
  id : Nat
  count : Nat
  words : Nat
  fields : List TFld
  deriving DecidableEq, Repr

/-! Table numbers: block number x 16 + TABLE; and a field of an entry of the table. -/
/-- A field of an entry of one table. -/
structure TF where
  table : Nat
  word : Nat
  hi : Nat
  lo : Nat
  deriving DecidableEq, Repr

def T.ING.Source : Nat := 0x50
def TF.ING.Source.ADDR0 : TF := ⟨0x50, 0, 31, 0⟩
def TF.ING.Source.ADDR1 : TF := ⟨0x50, 1, 31, 0⟩
def TF.ING.Source.ADDR2 : TF := ⟨0x50, 2, 31, 0⟩
def TF.ING.Source.ADDR3 : TF := ⟨0x50, 3, 31, 0⟩
def TF.ING.Source.VALID : TF := ⟨0x50, 4, 31, 31⟩
def TF.ING.Source.TRANSPORT : TF := ⟨0x50, 4, 30, 29⟩
def TF.ING.Source.V6 : TF := ⟨0x50, 4, 28, 28⟩
def TF.ING.Source.PORTS : TF := ⟨0x50, 4, 27, 22⟩
def TF.ING.Source.SRC_PORT : TF := ⟨0x50, 4, 15, 0⟩
def TF.ING.Source.DST_PORT : TF := ⟨0x50, 5, 31, 16⟩
def TF.ING.Source.VLAN : TF := ⟨0x50, 5, 11, 0⟩
def TF.ING.Source.RSV_IDCODE : TF := ⟨0x50, 6, 31, 16⟩
def TF.ING.Source.MAC256 : TF := ⟨0x50, 6, 15, 15⟩
def T.ING.Directory : Nat := 0x51
def TF.ING.Directory.VALID : TF := ⟨0x51, 0, 31, 31⟩
def TF.ING.Directory.ENABLE : TF := ⟨0x51, 0, 30, 30⟩
def TF.ING.Directory.GROVE : TF := ⟨0x51, 0, 29, 24⟩
def TF.ING.Directory.PMU_INDEX : TF := ⟨0x51, 0, 23, 16⟩
def TF.ING.Directory.IDCODE : TF := ⟨0x51, 0, 15, 0⟩
def TF.ING.Directory.SOURCE : TF := ⟨0x51, 1, 31, 20⟩
def TF.ING.Directory.NUM_BLOCKS : TF := ⟨0x51, 1, 19, 12⟩
def TF.ING.Directory.NUM_CH : TF := ⟨0x51, 2, 31, 25⟩
def TF.ING.Directory.CHMAP_BASE : TF := ⟨0x51, 2, 17, 0⟩
def TF.ING.Directory.NUM_PHASOR : TF := ⟨0x51, 3, 31, 26⟩
def TF.ING.Directory.NUM_ANALOG : TF := ⟨0x51, 3, 25, 21⟩
def TF.ING.Directory.NUM_DIGITAL : TF := ⟨0x51, 3, 20, 17⟩
def TF.ING.Directory.FORMAT : TF := ⟨0x51, 3, 16, 13⟩
def TF.ING.Directory.RATE : TF := ⟨0x51, 3, 7, 0⟩
def TF.ING.Directory.WEIGHT : TF := ⟨0x51, 4, 31, 24⟩
def TF.ING.Directory.TIME_BASE : TF := ⟨0x51, 4, 23, 0⟩
def TF.ING.Directory.FRAMESIZE : TF := ⟨0x51, 5, 31, 16⟩
def TF.ING.Directory.CFG_CNT : TF := ⟨0x51, 5, 15, 0⟩
def TF.ING.Directory.CFG_STATE : TF := ⟨0x51, 6, 31, 30⟩
def TF.ING.Directory.CFG_POLICY : TF := ⟨0x51, 6, 29, 28⟩
def TF.ING.Directory.EXPECTED : TF := ⟨0x51, 6, 27, 27⟩
def TF.ING.Directory.BLOCK_OFFSET : TF := ⟨0x51, 7, 31, 16⟩
def TF.ING.Directory.BLOCK_LEN : TF := ⟨0x51, 7, 15, 0⟩
def T.ING.ChannelMap : Nat := 0x52
def TF.ING.ChannelMap.SCALE : TF := ⟨0x52, 0, 31, 0⟩
def TF.ING.ChannelMap.OFFSET : TF := ⟨0x52, 1, 31, 0⟩
def TF.ING.ChannelMap.KIND : TF := ⟨0x52, 2, 31, 29⟩
def TF.ING.ChannelMap.FMT : TF := ⟨0x52, 2, 28, 26⟩
def TF.ING.ChannelMap.ENABLE : TF := ⟨0x52, 2, 25, 25⟩
def TF.ING.ChannelMap.DIG_VALID : TF := ⟨0x52, 3, 15, 0⟩
def T.ING.Connection : Nat := 0x53
def TF.ING.Connection.OPEN : TF := ⟨0x53, 0, 31, 31⟩
def TF.ING.Connection.CLOSE : TF := ⟨0x53, 0, 30, 28⟩
def TF.ING.Connection.SOURCE : TF := ⟨0x53, 0, 27, 16⟩
def TF.ING.Connection.LOCAL_PORT : TF := ⟨0x53, 0, 15, 0⟩
def TF.ING.Connection.REMOTE_PORT : TF := ⟨0x53, 1, 31, 16⟩
def TF.ING.Connection.RCV_NXT : TF := ⟨0x53, 2, 31, 0⟩
def TF.ING.Connection.SND_NXT : TF := ⟨0x53, 3, 31, 0⟩
def TF.ING.Connection.HELD : TF := ⟨0x53, 4, 31, 0⟩
def T.FLT.FilterChannel : Nat := 0x80
def TF.FLT.FilterChannel.ENABLE : TF := ⟨0x80, 0, 31, 31⟩
def TF.FLT.FilterChannel.INPUT : TF := ⟨0x80, 0, 30, 28⟩
def TF.FLT.FilterChannel.GROVE : TF := ⟨0x80, 0, 27, 22⟩
def TF.FLT.FilterChannel.STREAM : TF := ⟨0x80, 0, 21, 8⟩
def TF.FLT.FilterChannel.CH : TF := ⟨0x80, 0, 5, 0⟩
def TF.FLT.FilterChannel.STREAM2 : TF := ⟨0x80, 1, 21, 8⟩
def TF.FLT.FilterChannel.CH2 : TF := ⟨0x80, 1, 5, 0⟩
def TF.FLT.FilterChannel.A_L2 : TF := ⟨0x80, 2, 31, 20⟩
def TF.FLT.FilterChannel.A_L1 : TF := ⟨0x80, 2, 19, 8⟩
def TF.FLT.FilterChannel.A_DECIM : TF := ⟨0x80, 2, 3, 0⟩
def TF.FLT.FilterChannel.A_L4 : TF := ⟨0x80, 3, 23, 12⟩
def TF.FLT.FilterChannel.A_L3 : TF := ⟨0x80, 3, 11, 0⟩
def TF.FLT.FilterChannel.B_L2 : TF := ⟨0x80, 4, 31, 20⟩
def TF.FLT.FilterChannel.B_L1 : TF := ⟨0x80, 4, 19, 8⟩
def TF.FLT.FilterChannel.B_DECIM : TF := ⟨0x80, 4, 3, 0⟩
def TF.FLT.FilterChannel.B_L4 : TF := ⟨0x80, 5, 23, 12⟩
def TF.FLT.FilterChannel.B_L3 : TF := ⟨0x80, 5, 11, 0⟩
def TF.FLT.FilterChannel.ACTIVE : TF := ⟨0x80, 6, 31, 31⟩
def TF.FLT.FilterChannel.CHANGE : TF := ⟨0x80, 6, 30, 30⟩
def TF.FLT.FilterChannel.FADE_N : TF := ⟨0x80, 6, 15, 0⟩
def TF.FLT.FilterChannel.STATE : TF := ⟨0x80, 7, 31, 30⟩
def TF.FLT.FilterChannel.PENDING : TF := ⟨0x80, 7, 29, 29⟩
def TF.FLT.FilterChannel.SETTLE_LEFT : TF := ⟨0x80, 7, 14, 0⟩
def T.OSC.Tracker : Nat := 0x90
def TF.OSC.Tracker.ENABLE : TF := ⟨0x90, 0, 31, 31⟩
def TF.OSC.Tracker.GROVE : TF := ⟨0x90, 0, 30, 25⟩
def TF.OSC.Tracker.M : TF := ⟨0x90, 0, 24, 18⟩
def TF.OSC.Tracker.ROWS : TF := ⟨0x90, 0, 17, 13⟩
def TF.OSC.Tracker.HALF_ORDER : TF := ⟨0x90, 0, 12, 8⟩
def TF.OSC.Tracker.MODES : TF := ⟨0x90, 0, 7, 4⟩
def TF.OSC.Tracker.WINDOW_S : TF := ⟨0x90, 1, 31, 20⟩
def TF.OSC.Tracker.REPORT : TF := ⟨0x90, 1, 19, 12⟩
def TF.OSC.Tracker.PHASE : TF := ⟨0x90, 1, 11, 4⟩
def TF.OSC.Tracker.GAP_RESET : TF := ⟨0x90, 2, 31, 16⟩
def TF.OSC.Tracker.HOLD : TF := ⟨0x90, 2, 15, 8⟩
def TF.OSC.Tracker.MIN_PRESENT : TF := ⟨0x90, 2, 6, 0⟩
def TF.OSC.Tracker.F_LO : TF := ⟨0x90, 3, 31, 16⟩
def TF.OSC.Tracker.F_HI : TF := ⟨0x90, 3, 15, 0⟩
def TF.OSC.Tracker.MATCH : TF := ⟨0x90, 4, 31, 16⟩
def TF.OSC.Tracker.STATE : TF := ⟨0x90, 5, 31, 30⟩
def TF.OSC.Tracker.FROZEN : TF := ⟨0x90, 5, 29, 29⟩
def TF.OSC.Tracker.CONFIG_LOST : TF := ⟨0x90, 5, 28, 28⟩
def T.OSC.TrackerInputs : Nat := 0x91
def TF.OSC.TrackerInputs.COMP1 : TF := ⟨0x91, 0, 31, 31⟩
def TF.OSC.TrackerInputs.CHANNEL1 : TF := ⟨0x91, 0, 27, 16⟩
def TF.OSC.TrackerInputs.COMP0 : TF := ⟨0x91, 0, 15, 15⟩
def TF.OSC.TrackerInputs.CHANNEL0 : TF := ⟨0x91, 0, 11, 0⟩
def T.OSC.Rule : Nat := 0x92
def TF.OSC.Rule.EN : TF := ⟨0x92, 0, 31, 31⟩
def TF.OSC.Rule.TYPE : TF := ⟨0x92, 0, 30, 29⟩
def TF.OSC.Rule.FAST : TF := ⟨0x92, 0, 28, 28⟩
def TF.OSC.Rule.EARLY : TF := ⟨0x92, 0, 27, 27⟩
def TF.OSC.Rule.SET_N : TF := ⟨0x92, 0, 23, 16⟩
def TF.OSC.Rule.CLR_N : TF := ⟨0x92, 0, 15, 8⟩
def TF.OSC.Rule.STATE : TF := ⟨0x92, 0, 1, 0⟩
def TF.OSC.Rule.F_LO : TF := ⟨0x92, 1, 31, 16⟩
def TF.OSC.Rule.F_HI : TF := ⟨0x92, 1, 15, 0⟩
def TF.OSC.Rule.D_SET : TF := ⟨0x92, 2, 31, 16⟩
def TF.OSC.Rule.D_HYST : TF := ⟨0x92, 2, 15, 0⟩
def TF.OSC.Rule.AMP : TF := ⟨0x92, 3, 31, 0⟩
def TF.OSC.Rule.AMP_HYST : TF := ⟨0x92, 4, 31, 0⟩
def T.OSC.BankSlot : Nat := 0x93
def TF.OSC.BankSlot.ENABLE : TF := ⟨0x93, 0, 31, 31⟩
def TF.OSC.BankSlot.HOP : TF := ⟨0x93, 0, 27, 24⟩
def TF.OSC.BankSlot.PHASE : TF := ⟨0x93, 0, 23, 12⟩
def TF.OSC.BankSlot.CHANNEL : TF := ⟨0x93, 0, 11, 0⟩
def TF.OSC.BankSlot.COMP : TF := ⟨0x93, 1, 31, 30⟩
def TF.OSC.BankSlot.BIN_LO : TF := ⟨0x93, 1, 23, 12⟩
def TF.OSC.BankSlot.BIN_HI : TF := ⟨0x93, 1, 11, 0⟩
def TF.OSC.BankSlot.FULL : TF := ⟨0x93, 2, 31, 31⟩
def TF.OSC.BankSlot.MAX_ABSENT : TF := ⟨0x93, 2, 27, 16⟩
def TF.OSC.BankSlot.SET_N : TF := ⟨0x93, 2, 15, 8⟩
def TF.OSC.BankSlot.CLR_N : TF := ⟨0x93, 2, 7, 0⟩
def TF.OSC.BankSlot.RATIO_DB : TF := ⟨0x93, 3, 31, 16⟩
def TF.OSC.BankSlot.RATIO_HYST : TF := ⟨0x93, 3, 15, 0⟩
def TF.OSC.BankSlot.AMP_MIN : TF := ⟨0x93, 4, 31, 0⟩
def TF.OSC.BankSlot.STATE : TF := ⟨0x93, 5, 31, 30⟩
def TF.OSC.BankSlot.FO_STATE : TF := ⟨0x93, 5, 29, 28⟩
def TF.OSC.BankSlot.CONFIG_LOST : TF := ⟨0x93, 5, 27, 27⟩
def T.ISL.Node : Nat := 0xA0
def TF.ISL.Node.VALID : TF := ⟨0xA0, 0, 31, 31⟩
def TF.ISL.Node.ISLAND : TF := ⟨0xA0, 0, 15, 0⟩
def T.ISL.Branch : Nat := 0xA1
def TF.ISL.Branch.VALID : TF := ⟨0xA1, 0, 31, 31⟩
def TF.ISL.Branch.SRC : TF := ⟨0xA1, 0, 30, 29⟩
def TF.ISL.Branch.ABSENT : TF := ⟨0xA1, 0, 28, 27⟩
def TF.ISL.Branch.INIT : TF := ⟨0xA1, 0, 26, 26⟩
def TF.ISL.Branch.FORCE : TF := ⟨0xA1, 0, 25, 24⟩
def TF.ISL.Branch.ABSENT_N : TF := ⟨0xA1, 0, 23, 16⟩
def TF.ISL.Branch.STREAM : TF := ⟨0xA1, 0, 13, 0⟩
def TF.ISL.Branch.NODE_B : TF := ⟨0xA1, 1, 29, 16⟩
def TF.ISL.Branch.NODE_A : TF := ⟨0xA1, 1, 13, 0⟩
def TF.ISL.Branch.CH : TF := ⟨0xA1, 2, 21, 16⟩
def TF.ISL.Branch.POL : TF := ⟨0xA1, 2, 15, 15⟩
def TF.ISL.Branch.BIT2 : TF := ⟨0xA1, 2, 7, 4⟩
def TF.ISL.Branch.BIT : TF := ⟨0xA1, 2, 3, 0⟩
def TF.ISL.Branch.CLOSED : TF := ⟨0xA1, 3, 31, 31⟩
def TF.ISL.Branch.SEEN : TF := ⟨0xA1, 3, 30, 30⟩
def TF.ISL.Branch.STALE_CFG : TF := ⟨0xA1, 3, 29, 29⟩
def TF.ISL.Branch.ABSENT_RUN : TF := ⟨0xA1, 3, 23, 16⟩
def T.ISL.FreqMonitor : Nat := 0xA2
def TF.ISL.FreqMonitor.EN : TF := ⟨0xA2, 0, 31, 31⟩
def TF.ISL.FreqMonitor.TYPE : TF := ⟨0xA2, 0, 30, 28⟩
def TF.ISL.FreqMonitor.CH : TF := ⟨0xA2, 0, 21, 16⟩
def TF.ISL.FreqMonitor.SET_N : TF := ⟨0xA2, 0, 15, 8⟩
def TF.ISL.FreqMonitor.CLR_N : TF := ⟨0xA2, 0, 7, 0⟩
def TF.ISL.FreqMonitor.STREAM : TF := ⟨0xA2, 1, 13, 0⟩
def TF.ISL.FreqMonitor.SET : TF := ⟨0xA2, 2, 31, 0⟩
def TF.ISL.FreqMonitor.HYST : TF := ⟨0xA2, 3, 31, 0⟩
def TF.ISL.FreqMonitor.STATE : TF := ⟨0xA2, 4, 31, 30⟩
def TF.ISL.FreqMonitor.CONFIG_LOST : TF := ⟨0xA2, 4, 29, 29⟩
def TF.ISL.FreqMonitor.PUBLISHED : TF := ⟨0xA2, 4, 17, 16⟩
def TF.ISL.FreqMonitor.SET_COUNT : TF := ⟨0xA2, 4, 15, 8⟩
def TF.ISL.FreqMonitor.CLR_COUNT : TF := ⟨0xA2, 4, 7, 0⟩
def T.ISL.AngleMonitor : Nat := 0xA3
def TF.ISL.AngleMonitor.EN : TF := ⟨0xA3, 0, 31, 31⟩
def TF.ISL.AngleMonitor.TYPE : TF := ⟨0xA3, 0, 30, 28⟩
def TF.ISL.AngleMonitor.CH_B : TF := ⟨0xA3, 0, 27, 22⟩
def TF.ISL.AngleMonitor.CH : TF := ⟨0xA3, 0, 21, 16⟩
def TF.ISL.AngleMonitor.SET_N : TF := ⟨0xA3, 0, 15, 8⟩
def TF.ISL.AngleMonitor.CLR_N : TF := ⟨0xA3, 0, 7, 0⟩
def TF.ISL.AngleMonitor.STREAM_B : TF := ⟨0xA3, 1, 29, 16⟩
def TF.ISL.AngleMonitor.STREAM : TF := ⟨0xA3, 1, 13, 0⟩
def TF.ISL.AngleMonitor.SET : TF := ⟨0xA3, 2, 31, 0⟩
def TF.ISL.AngleMonitor.HYST : TF := ⟨0xA3, 3, 31, 0⟩
def TF.ISL.AngleMonitor.STATE : TF := ⟨0xA3, 4, 31, 30⟩
def TF.ISL.AngleMonitor.CONFIG_LOST : TF := ⟨0xA3, 4, 29, 29⟩
def TF.ISL.AngleMonitor.PUBLISHED : TF := ⟨0xA3, 4, 17, 16⟩
def TF.ISL.AngleMonitor.SET_COUNT : TF := ⟨0xA3, 4, 15, 8⟩
def TF.ISL.AngleMonitor.CLR_COUNT : TF := ⟨0xA3, 4, 7, 0⟩
def T.ISL.VoltMonitor : Nat := 0xA4
def TF.ISL.VoltMonitor.EN : TF := ⟨0xA4, 0, 31, 31⟩
def TF.ISL.VoltMonitor.TYPE : TF := ⟨0xA4, 0, 30, 28⟩
def TF.ISL.VoltMonitor.CH : TF := ⟨0xA4, 0, 21, 16⟩
def TF.ISL.VoltMonitor.SET_N : TF := ⟨0xA4, 0, 15, 8⟩
def TF.ISL.VoltMonitor.CLR_N : TF := ⟨0xA4, 0, 7, 0⟩
def TF.ISL.VoltMonitor.STREAM : TF := ⟨0xA4, 1, 13, 0⟩
def TF.ISL.VoltMonitor.SET : TF := ⟨0xA4, 2, 31, 0⟩
def TF.ISL.VoltMonitor.HYST : TF := ⟨0xA4, 3, 31, 0⟩
def TF.ISL.VoltMonitor.STATE : TF := ⟨0xA4, 4, 31, 30⟩
def TF.ISL.VoltMonitor.CONFIG_LOST : TF := ⟨0xA4, 4, 29, 29⟩
def TF.ISL.VoltMonitor.PUBLISHED : TF := ⟨0xA4, 4, 17, 16⟩
def TF.ISL.VoltMonitor.SET_COUNT : TF := ⟨0xA4, 4, 15, 8⟩
def TF.ISL.VoltMonitor.CLR_COUNT : TF := ⟨0xA4, 4, 7, 0⟩
def T.ISL.Coherency : Nat := 0xA5
def TF.ISL.Coherency.EN : TF := ⟨0xA5, 0, 31, 31⟩
def TF.ISL.Coherency.PH_B : TF := ⟨0xA5, 0, 27, 22⟩
def TF.ISL.Coherency.PH_A : TF := ⟨0xA5, 0, 21, 16⟩
def TF.ISL.Coherency.SET_N : TF := ⟨0xA5, 0, 15, 8⟩
def TF.ISL.Coherency.CLR_N : TF := ⟨0xA5, 0, 7, 0⟩
def TF.ISL.Coherency.STREAM_B : TF := ⟨0xA5, 1, 29, 16⟩
def TF.ISL.Coherency.STREAM_A : TF := ⟨0xA5, 1, 13, 0⟩
def TF.ISL.Coherency.FQ_B : TF := ⟨0xA5, 2, 27, 22⟩
def TF.ISL.Coherency.FQ_A : TF := ⟨0xA5, 2, 21, 16⟩
def TF.ISL.Coherency.SLIP_GAP : TF := ⟨0xA5, 2, 15, 8⟩
def TF.ISL.Coherency.DF_SET : TF := ⟨0xA5, 3, 31, 0⟩
def TF.ISL.Coherency.SLIP_SET : TF := ⟨0xA5, 4, 31, 0⟩
def TF.ISL.Coherency.DF_HYST : TF := ⟨0xA5, 5, 31, 0⟩
def TF.ISL.Coherency.SLIP_HYST : TF := ⟨0xA5, 6, 31, 0⟩
def TF.ISL.Coherency.STATE : TF := ⟨0xA5, 7, 31, 30⟩
def TF.ISL.Coherency.CONFIG_LOST : TF := ⟨0xA5, 7, 29, 29⟩
def TF.ISL.Coherency.PUBLISHED : TF := ⟨0xA5, 7, 25, 24⟩
def TF.ISL.Coherency.POLE_SLIPS : TF := ⟨0xA5, 7, 23, 16⟩
def TF.ISL.Coherency.SET_COUNT : TF := ⟨0xA5, 7, 15, 8⟩
def TF.ISL.Coherency.CLR_COUNT : TF := ⟨0xA5, 7, 7, 0⟩
def T.ISL.Policy : Nat := 0xA6
def TF.ISL.Policy.EN : TF := ⟨0xA6, 0, 31, 31⟩
def TF.ISL.Policy.MODE : TF := ⟨0xA6, 0, 30, 28⟩
def TF.ISL.Policy.EV_CLASS : TF := ⟨0xA6, 0, 27, 26⟩
def TF.ISL.Policy.EV_INDEX : TF := ⟨0xA6, 0, 25, 16⟩
def TF.ISL.Policy.HOLD_MS : TF := ⟨0xA6, 0, 15, 0⟩
def TF.ISL.Policy.NODE_B : TF := ⟨0xA6, 1, 29, 16⟩
def TF.ISL.Policy.NODE_A : TF := ⟨0xA6, 1, 13, 0⟩
def TF.ISL.Policy.STATE : TF := ⟨0xA6, 2, 31, 30⟩
def TF.ISL.Policy.TOPO : TF := ⟨0xA6, 2, 29, 29⟩
def TF.ISL.Policy.ELEC : TF := ⟨0xA6, 2, 28, 28⟩
def TF.ISL.Policy.TOPO_TT_LO : TF := ⟨0xA6, 3, 31, 0⟩
def TF.ISL.Policy.TOPO_TT_HI : TF := ⟨0xA6, 4, 31, 0⟩
def TF.ISL.Policy.ELEC_TT_LO : TF := ⟨0xA6, 5, 31, 0⟩
def TF.ISL.Policy.ELEC_TT_HI : TF := ⟨0xA6, 6, 31, 0⟩
def T.ALM.Point : Nat := 0xB0
def TF.ALM.Point.EN : TF := ⟨0xB0, 0, 31, 31⟩
def TF.ALM.Point.CLASS : TF := ⟨0xB0, 0, 30, 29⟩
def TF.ALM.Point.LATCH : TF := ⟨0xB0, 0, 28, 28⟩
def TF.ALM.Point.SSO : TF := ⟨0xB0, 0, 27, 20⟩
def TF.ALM.Point.RELAY : TF := ⟨0xB0, 0, 19, 16⟩
def TF.ALM.Point.TARGETS : TF := ⟨0xB0, 0, 15, 8⟩
def TF.ALM.Point.STATUS : TF := ⟨0xB0, 1, 31, 28⟩
def T.ALM.Output : Nat := 0xB1
def TF.ALM.Output.SOURCE : TF := ⟨0xB1, 0, 31, 30⟩
def TF.ALM.Output.FAILSAFE : TF := ⟨0xB1, 0, 29, 29⟩
def TF.ALM.Output.MIN_ON_MS : TF := ⟨0xB1, 0, 15, 0⟩
def T.ALM.Target : Nat := 0xB2
def TF.ALM.Target.EN : TF := ⟨0xB2, 0, 31, 31⟩
def TF.ALM.Target.V6 : TF := ⟨0xB2, 0, 30, 30⟩
def TF.ALM.Target.PORT : TF := ⟨0xB2, 0, 29, 27⟩
def TF.ALM.Target.REPEAT : TF := ⟨0xB2, 0, 26, 25⟩
def TF.ALM.Target.VLAN : TF := ⟨0xB2, 0, 11, 0⟩
def TF.ALM.Target.DST_ADDR0 : TF := ⟨0xB2, 1, 31, 0⟩
def TF.ALM.Target.DST_ADDR1 : TF := ⟨0xB2, 2, 31, 0⟩
def TF.ALM.Target.DST_ADDR2 : TF := ⟨0xB2, 3, 31, 0⟩
def TF.ALM.Target.DST_ADDR3 : TF := ⟨0xB2, 4, 31, 0⟩
def TF.ALM.Target.SRC_ADDR0 : TF := ⟨0xB2, 5, 31, 0⟩
def TF.ALM.Target.SRC_ADDR1 : TF := ⟨0xB2, 6, 31, 0⟩
def TF.ALM.Target.SRC_ADDR2 : TF := ⟨0xB2, 7, 31, 0⟩
def TF.ALM.Target.SRC_ADDR3 : TF := ⟨0xB2, 8, 31, 0⟩
def TF.ALM.Target.DST_PORT : TF := ⟨0xB2, 9, 31, 16⟩
def TF.ALM.Target.SRC_PORT : TF := ⟨0xB2, 9, 15, 0⟩
def TF.ALM.Target.MAC_LO : TF := ⟨0xB2, 10, 31, 0⟩
def TF.ALM.Target.MAC_HI : TF := ⟨0xB2, 11, 15, 0⟩
def T.ALM.Publish : Nat := 0xB3
def TF.ALM.Publish.EN : TF := ⟨0xB3, 0, 31, 31⟩
def TF.ALM.Publish.TRANSPORT : TF := ⟨0xB3, 0, 30, 30⟩
def TF.ALM.Publish.GROVE : TF := ⟨0xB3, 0, 29, 24⟩
def TF.ALM.Publish.QUEUE : TF := ⟨0xB3, 0, 23, 16⟩
def TF.ALM.Publish.IDCODE : TF := ⟨0xB3, 0, 15, 0⟩
def TF.ALM.Publish.TARGET : TF := ⟨0xB3, 1, 31, 28⟩
def TF.ALM.Publish.RETURN_QUEUE : TF := ⟨0xB3, 1, 7, 0⟩
def T.CAP.Sequencer : Nat := 0xC0
def TF.CAP.Sequencer.ENABLE : TF := ⟨0xC0, 0, 31, 31⟩
def TF.CAP.Sequencer.GROVE : TF := ⟨0xC0, 0, 30, 25⟩
def TF.CAP.Sequencer.EARLY : TF := ⟨0xC0, 0, 24, 24⟩
def TF.CAP.Sequencer.RETRIG : TF := ⟨0xC0, 0, 23, 23⟩
def TF.CAP.Sequencer.N_SIG : TF := ⟨0xC0, 0, 22, 16⟩
def TF.CAP.Sequencer.POST_FULL : TF := ⟨0xC0, 1, 31, 16⟩
def TF.CAP.Sequencer.PRE : TF := ⟨0xC0, 1, 15, 4⟩
def TF.CAP.Sequencer.POST_AVG : TF := ⟨0xC0, 2, 31, 16⟩
def TF.CAP.Sequencer.AVG_N : TF := ⟨0xC0, 2, 15, 8⟩
def TF.CAP.Sequencer.HOLDOFF : TF := ⟨0xC0, 3, 31, 16⟩
def TF.CAP.Sequencer.POST_MAX : TF := ⟨0xC0, 3, 15, 0⟩
def TF.CAP.Sequencer.PRE_BASE : TF := ⟨0xC0, 4, 31, 16⟩
def TF.CAP.Sequencer.PHASE : TF := ⟨0xC0, 5, 31, 30⟩
def TF.CAP.Sequencer.STATE : TF := ⟨0xC0, 5, 29, 27⟩
def TF.CAP.Sequencer.PRE_HELD : TF := ⟨0xC0, 5, 11, 0⟩
def T.CAP.Signal : Nat := 0xC1
def TF.CAP.Signal.STREAM : TF := ⟨0xC1, 0, 29, 16⟩
def TF.CAP.Signal.CH : TF := ⟨0xC1, 0, 5, 0⟩
def T.CAP.Condition : Nat := 0xC2
def TF.CAP.Condition.KIND : TF := ⟨0xC2, 0, 31, 29⟩
def TF.CAP.Condition.SIG : TF := ⟨0xC2, 0, 25, 20⟩
def TF.CAP.Condition.LEVEL : TF := ⟨0xC2, 1, 31, 0⟩
def T.CAP.SeqState : Nat := 0xC3
def TF.CAP.SeqState.MASK : TF := ⟨0xC3, 0, 31, 24⟩
def TF.CAP.SeqState.ALL : TF := ⟨0xC3, 0, 23, 23⟩
def TF.CAP.SeqState.TRIG : TF := ⟨0xC3, 0, 22, 22⟩
def TF.CAP.SeqState.NEXT : TF := ⟨0xC3, 0, 21, 19⟩
def TF.CAP.SeqState.NEXT_TO : TF := ⟨0xC3, 0, 18, 16⟩
def TF.CAP.SeqState.COUNT_N : TF := ⟨0xC3, 0, 15, 8⟩
def TF.CAP.SeqState.TIMEOUT : TF := ⟨0xC3, 1, 31, 16⟩
def T.ACC.TieLine : Nat := 0xD0
def TF.ACC.TieLine.EN : TF := ⟨0xD0, 0, 31, 31⟩
def TF.ACC.TieLine.GROVE : TF := ⟨0xD0, 0, 30, 25⟩
def TF.ACC.TieLine.DIR : TF := ⟨0xD0, 0, 24, 24⟩
def TF.ACC.TieLine.MODE : TF := ⟨0xD0, 0, 23, 22⟩
def TF.ACC.TieLine.STREAM : TF := ⟨0xD0, 0, 13, 0⟩
def TF.ACC.TieLine.V_A : TF := ⟨0xD0, 1, 23, 18⟩
def TF.ACC.TieLine.I_A : TF := ⟨0xD0, 1, 17, 12⟩
def TF.ACC.TieLine.V_B : TF := ⟨0xD0, 1, 11, 6⟩
def TF.ACC.TieLine.I_B : TF := ⟨0xD0, 1, 5, 0⟩
def TF.ACC.TieLine.V_C : TF := ⟨0xD0, 2, 11, 6⟩
def TF.ACC.TieLine.I_C : TF := ⟨0xD0, 2, 5, 0⟩
def TF.ACC.TieLine.NOLOAD : TF := ⟨0xD0, 3, 31, 0⟩
def TF.ACC.TieLine.STATE : TF := ⟨0xD0, 4, 31, 30⟩
def TF.ACC.TieLine.CONFIG_LOST : TF := ⟨0xD0, 4, 29, 29⟩
def T.ACC.Accumulator : Nat := 0xD1
def TF.ACC.Accumulator.COUNT_LO : TF := ⟨0xD1, 0, 31, 0⟩
def TF.ACC.Accumulator.COUNT_HI : TF := ⟨0xD1, 1, 31, 0⟩
def TF.ACC.Accumulator.REMAINDER : TF := ⟨0xD1, 2, 31, 0⟩
def TF.ACC.Accumulator.MODULUS : TF := ⟨0xD1, 3, 29, 0⟩
def TF.ACC.Accumulator.VIEW_SCALE : TF := ⟨0xD1, 4, 31, 28⟩
def TF.ACC.Accumulator.WRAP : TF := ⟨0xD1, 4, 7, 0⟩
def TF.ACC.Accumulator.VIEW : TF := ⟨0xD1, 5, 31, 0⟩
def T.ACC.PulseInput : Nat := 0xD2
def TF.ACC.PulseInput.EN : TF := ⟨0xD2, 0, 31, 31⟩
def TF.ACC.PulseInput.MIN_MS : TF := ⟨0xD2, 0, 27, 20⟩
def TF.ACC.PulseInput.ACC : TF := ⟨0xD2, 0, 8, 0⟩
def TF.ACC.PulseInput.CONST : TF := ⟨0xD2, 1, 31, 0⟩
def TF.ACC.PulseInput.CHECK_S : TF := ⟨0xD2, 2, 31, 16⟩
def TF.ACC.PulseInput.TOL : TF := ⟨0xD2, 2, 15, 0⟩
def TF.ACC.PulseInput.MISMATCH : TF := ⟨0xD2, 3, 31, 31⟩
def T.ACC.PulseOutput : Nat := 0xD3
def TF.ACC.PulseOutput.EN : TF := ⟨0xD3, 0, 31, 31⟩
def TF.ACC.PulseOutput.ACC : TF := ⟨0xD3, 0, 28, 20⟩
def TF.ACC.PulseOutput.WIDTH_MS : TF := ⟨0xD3, 0, 19, 10⟩
def TF.ACC.PulseOutput.GAP_MS : TF := ⟨0xD3, 0, 9, 0⟩
def TF.ACC.PulseOutput.CONST : TF := ⟨0xD3, 1, 31, 0⟩
def TF.ACC.PulseOutput.BACKLOG : TF := ⟨0xD3, 2, 7, 0⟩
def T.RBT.Queue : Nat := 0x20
def TF.RBT.Queue.EN : TF := ⟨0x20, 0, 31, 31⟩
def TF.RBT.Queue.SPILL : TF := ⟨0x20, 0, 30, 30⟩
def TF.RBT.Queue.MODE : TF := ⟨0x20, 0, 29, 28⟩
def TF.RBT.Queue.PUSH : TF := ⟨0x20, 0, 20, 16⟩
def TF.RBT.Queue.POP : TF := ⟨0x20, 0, 12, 8⟩
def TF.RBT.Queue.BASE : TF := ⟨0x20, 1, 20, 0⟩
def TF.RBT.Queue.SPILL_LOG2 : TF := ⟨0x20, 2, 24, 20⟩
def TF.RBT.Queue.SPILL_BASE : TF := ⟨0x20, 2, 19, 5⟩
def TF.RBT.Queue.CAP_LOG2 : TF := ⟨0x20, 2, 3, 0⟩
def TF.RBT.Queue.HIGH : TF := ⟨0x20, 3, 20, 0⟩
def TF.RBT.Queue.LOW : TF := ⟨0x20, 4, 20, 0⟩
def TF.RBT.Queue.LEVEL_IRQ : TF := ⟨0x20, 5, 20, 0⟩
def TF.RBT.Queue.FLOW : TF := ⟨0x20, 6, 31, 30⟩
def TF.RBT.Queue.PARSER : TF := ⟨0x20, 6, 29, 29⟩
def TF.RBT.Queue.PORTS : TF := ⟨0x20, 6, 21, 16⟩
def TF.RBT.Queue.BP : TF := ⟨0x20, 7, 31, 31⟩
def TF.RBT.Queue.RESETTING : TF := ⟨0x20, 7, 30, 30⟩
def TF.RBT.Queue.FLUSH_WAIT : TF := ⟨0x20, 7, 29, 29⟩
def TF.RBT.Queue.LEVEL : TF := ⟨0x20, 7, 20, 0⟩
def T.RBT.Key : Nat := 0x22
def TF.RBT.Key.AFF_WAIT : TF := ⟨0x22, 0, 31, 24⟩
def TF.RBT.Key.RUNNING : TF := ⟨0x22, 0, 23, 23⟩
def TF.RBT.Key.LAST_CORE : TF := ⟨0x22, 0, 15, 8⟩
def T.RBT.Template : Nat := 0x23
def TF.RBT.Template.WORD : TF := ⟨0x23, 0, 31, 0⟩
def T.XNG.Carry : Nat := 0xE0
def TF.XNG.Carry.EN : TF := ⟨0xE0, 0, 31, 31⟩
def TF.XNG.Carry.QUEUE : TF := ⟨0xE0, 0, 30, 30⟩
def TF.XNG.Carry.KEY : TF := ⟨0xE0, 0, 23, 12⟩
def TF.XNG.Carry.QNUM : TF := ⟨0xE0, 0, 7, 0⟩
def TF.XNG.Carry.ADDR_LO : TF := ⟨0xE0, 1, 31, 12⟩
def TF.XNG.Carry.ADDR_HI : TF := ⟨0xE0, 2, 7, 0⟩
def TF.XNG.Carry.PAGES : TF := ⟨0xE0, 3, 23, 0⟩

/-- ING table 0, Source (R129). -/
def tableINGSource : TableD :=
  ⟨0x50, 4096, 8,
   [⟨0, 31, 0, .rw, .any⟩, ⟨1, 31, 0, .rw, .any⟩, ⟨2, 31, 0, .rw, .any⟩, ⟨3, 31, 0, .rw, .any⟩, ⟨4, 31, 31, .rw, .any⟩, ⟨4, 30, 29, .rw, (.outside 3 3)⟩, ⟨4, 28, 28, .rw, .any⟩, ⟨4, 27, 22, .rw, .any⟩, ⟨4, 15, 0, .rw, .any⟩, ⟨5, 31, 16, .rw, .any⟩, ⟨5, 11, 0, .rw, .any⟩, ⟨6, 31, 16, .rw, .any⟩, ⟨6, 15, 15, .rw, .any⟩]⟩

/-- ING table 1, Directory (R126). -/
def tableINGDirectory : TableD :=
  ⟨0x51, 16384, 8,
   [⟨0, 31, 31, .rw, .any⟩, ⟨0, 30, 30, .rw, .any⟩, ⟨0, 29, 24, .rw, .any⟩, ⟨0, 23, 16, .rw, .any⟩, ⟨0, 15, 0, .rw, .any⟩, ⟨1, 31, 20, .rw, .any⟩, ⟨1, 19, 12, .rw, .any⟩, ⟨2, 31, 25, .ro, .any⟩, ⟨2, 17, 0, .rw, .any⟩, ⟨3, 31, 26, .rw, .any⟩, ⟨3, 25, 21, .rw, .any⟩, ⟨3, 20, 17, .rw, .any⟩, ⟨3, 16, 13, .rw, .any⟩, ⟨3, 7, 0, .rw, .any⟩, ⟨4, 31, 24, .rw, .any⟩, ⟨4, 23, 0, .rw, .any⟩, ⟨5, 31, 16, .rw, .any⟩, ⟨5, 15, 0, .rw, .any⟩, ⟨6, 31, 30, .ro, .any⟩, ⟨6, 29, 28, .rw, (.outside 3 3)⟩, ⟨6, 27, 27, .rw, .any⟩, ⟨7, 31, 16, .rw, .any⟩, ⟨7, 15, 0, .ro, .any⟩]⟩

/-- ING table 2, ChannelMap (R130). -/
def tableINGChannelMap : TableD :=
  ⟨0x52, 262144, 4,
   [⟨0, 31, 0, .rw, .any⟩, ⟨1, 31, 0, .rw, .any⟩, ⟨2, 31, 29, .rw, (.range 0 4)⟩, ⟨2, 28, 26, .rw, .any⟩, ⟨2, 25, 25, .rw, .any⟩, ⟨3, 15, 0, .rw, .any⟩]⟩

/-- ING table 3, Connection (R149). -/
def tableINGConnection : TableD :=
  ⟨0x53, 2048, 5,
   [⟨0, 31, 31, .rw, .any⟩, ⟨0, 30, 28, .ro, .any⟩, ⟨0, 27, 16, .rw, .any⟩, ⟨0, 15, 0, .rw, .any⟩, ⟨1, 31, 16, .rw, .any⟩, ⟨2, 31, 0, .rw, .any⟩, ⟨3, 31, 0, .rw, .any⟩, ⟨4, 31, 0, .ro, .any⟩]⟩

/-- FLT table 0, FilterChannel (R232). -/
def tableFLTFilterChannel : TableD :=
  ⟨0x80, 4096, 8,
   [⟨0, 31, 31, .rw, .any⟩, ⟨0, 30, 28, .rw, (.range 0 3)⟩, ⟨0, 27, 22, .rw, .any⟩, ⟨0, 21, 8, .rw, .any⟩, ⟨0, 5, 0, .rw, .any⟩, ⟨1, 21, 8, .rw, .any⟩, ⟨1, 5, 0, .rw, .any⟩, ⟨2, 31, 20, .live, .any⟩, ⟨2, 19, 8, .live, .any⟩, ⟨2, 3, 0, .live, (.range 0 10)⟩, ⟨3, 23, 12, .live, .any⟩, ⟨3, 11, 0, .live, .any⟩, ⟨4, 31, 20, .live, .any⟩, ⟨4, 19, 8, .live, .any⟩, ⟨4, 3, 0, .live, (.range 0 10)⟩, ⟨5, 23, 12, .live, .any⟩, ⟨5, 11, 0, .live, .any⟩, ⟨6, 31, 31, .live, .any⟩, ⟨6, 30, 30, .live, .any⟩, ⟨6, 15, 0, .live, .any⟩, ⟨7, 31, 30, .ro, .any⟩, ⟨7, 29, 29, .ro, .any⟩, ⟨7, 14, 0, .ro, .any⟩]⟩

/-- OSC table 0, Tracker (R264). -/
def tableOSCTracker : TableD :=
  ⟨0x90, 256, 6,
   [⟨0, 31, 31, .rw, .any⟩, ⟨0, 30, 25, .rw, .any⟩, ⟨0, 24, 18, .rw, (.range 1 64)⟩, ⟨0, 17, 13, .rw, (.range 2 31)⟩, ⟨0, 12, 8, .rw, (.range 1 16)⟩, ⟨0, 7, 4, .rw, (.range 1 8)⟩, ⟨1, 31, 20, .rw, (.range 10 1200)⟩, ⟨1, 19, 12, .rw, .nonzero⟩, ⟨1, 11, 4, .rw, .any⟩, ⟨2, 31, 16, .rw, .nonzero⟩, ⟨2, 15, 8, .rw, .any⟩, ⟨2, 6, 0, .rw, (.range 1 64)⟩, ⟨3, 31, 16, .rw, .any⟩, ⟨3, 15, 0, .rw, .any⟩, ⟨4, 31, 16, .rw, (.range 1 1000)⟩, ⟨5, 31, 30, .ro, .any⟩, ⟨5, 29, 29, .ro, .any⟩, ⟨5, 28, 28, .ro, .any⟩]⟩

/-- OSC table 1, TrackerInputs (R264). -/
def tableOSCTrackerInputs : TableD :=
  ⟨0x91, 256, 32,
   [⟨0, 31, 31, .rw, .any⟩, ⟨1, 31, 31, .rw, .any⟩, ⟨2, 31, 31, .rw, .any⟩, ⟨3, 31, 31, .rw, .any⟩, ⟨4, 31, 31, .rw, .any⟩, ⟨5, 31, 31, .rw, .any⟩, ⟨6, 31, 31, .rw, .any⟩, ⟨7, 31, 31, .rw, .any⟩, ⟨8, 31, 31, .rw, .any⟩, ⟨9, 31, 31, .rw, .any⟩, ⟨10, 31, 31, .rw, .any⟩, ⟨11, 31, 31, .rw, .any⟩, ⟨12, 31, 31, .rw, .any⟩, ⟨13, 31, 31, .rw, .any⟩, ⟨14, 31, 31, .rw, .any⟩, ⟨15, 31, 31, .rw, .any⟩, ⟨16, 31, 31, .rw, .any⟩, ⟨17, 31, 31, .rw, .any⟩, ⟨18, 31, 31, .rw, .any⟩, ⟨19, 31, 31, .rw, .any⟩, ⟨20, 31, 31, .rw, .any⟩, ⟨21, 31, 31, .rw, .any⟩, ⟨22, 31, 31, .rw, .any⟩, ⟨23, 31, 31, .rw, .any⟩] ++
   [⟨24, 31, 31, .rw, .any⟩, ⟨25, 31, 31, .rw, .any⟩, ⟨26, 31, 31, .rw, .any⟩, ⟨27, 31, 31, .rw, .any⟩, ⟨28, 31, 31, .rw, .any⟩, ⟨29, 31, 31, .rw, .any⟩, ⟨30, 31, 31, .rw, .any⟩, ⟨31, 31, 31, .rw, .any⟩, ⟨0, 27, 16, .rw, .any⟩, ⟨1, 27, 16, .rw, .any⟩, ⟨2, 27, 16, .rw, .any⟩, ⟨3, 27, 16, .rw, .any⟩, ⟨4, 27, 16, .rw, .any⟩, ⟨5, 27, 16, .rw, .any⟩, ⟨6, 27, 16, .rw, .any⟩, ⟨7, 27, 16, .rw, .any⟩, ⟨8, 27, 16, .rw, .any⟩, ⟨9, 27, 16, .rw, .any⟩, ⟨10, 27, 16, .rw, .any⟩, ⟨11, 27, 16, .rw, .any⟩, ⟨12, 27, 16, .rw, .any⟩, ⟨13, 27, 16, .rw, .any⟩, ⟨14, 27, 16, .rw, .any⟩, ⟨15, 27, 16, .rw, .any⟩] ++
   [⟨16, 27, 16, .rw, .any⟩, ⟨17, 27, 16, .rw, .any⟩, ⟨18, 27, 16, .rw, .any⟩, ⟨19, 27, 16, .rw, .any⟩, ⟨20, 27, 16, .rw, .any⟩, ⟨21, 27, 16, .rw, .any⟩, ⟨22, 27, 16, .rw, .any⟩, ⟨23, 27, 16, .rw, .any⟩, ⟨24, 27, 16, .rw, .any⟩, ⟨25, 27, 16, .rw, .any⟩, ⟨26, 27, 16, .rw, .any⟩, ⟨27, 27, 16, .rw, .any⟩, ⟨28, 27, 16, .rw, .any⟩, ⟨29, 27, 16, .rw, .any⟩, ⟨30, 27, 16, .rw, .any⟩, ⟨31, 27, 16, .rw, .any⟩, ⟨0, 15, 15, .rw, .any⟩, ⟨1, 15, 15, .rw, .any⟩, ⟨2, 15, 15, .rw, .any⟩, ⟨3, 15, 15, .rw, .any⟩, ⟨4, 15, 15, .rw, .any⟩, ⟨5, 15, 15, .rw, .any⟩, ⟨6, 15, 15, .rw, .any⟩, ⟨7, 15, 15, .rw, .any⟩] ++
   [⟨8, 15, 15, .rw, .any⟩, ⟨9, 15, 15, .rw, .any⟩, ⟨10, 15, 15, .rw, .any⟩, ⟨11, 15, 15, .rw, .any⟩, ⟨12, 15, 15, .rw, .any⟩, ⟨13, 15, 15, .rw, .any⟩, ⟨14, 15, 15, .rw, .any⟩, ⟨15, 15, 15, .rw, .any⟩, ⟨16, 15, 15, .rw, .any⟩, ⟨17, 15, 15, .rw, .any⟩, ⟨18, 15, 15, .rw, .any⟩, ⟨19, 15, 15, .rw, .any⟩, ⟨20, 15, 15, .rw, .any⟩, ⟨21, 15, 15, .rw, .any⟩, ⟨22, 15, 15, .rw, .any⟩, ⟨23, 15, 15, .rw, .any⟩, ⟨24, 15, 15, .rw, .any⟩, ⟨25, 15, 15, .rw, .any⟩, ⟨26, 15, 15, .rw, .any⟩, ⟨27, 15, 15, .rw, .any⟩, ⟨28, 15, 15, .rw, .any⟩, ⟨29, 15, 15, .rw, .any⟩, ⟨30, 15, 15, .rw, .any⟩, ⟨31, 15, 15, .rw, .any⟩] ++
   [⟨0, 11, 0, .rw, .any⟩, ⟨1, 11, 0, .rw, .any⟩, ⟨2, 11, 0, .rw, .any⟩, ⟨3, 11, 0, .rw, .any⟩, ⟨4, 11, 0, .rw, .any⟩, ⟨5, 11, 0, .rw, .any⟩, ⟨6, 11, 0, .rw, .any⟩, ⟨7, 11, 0, .rw, .any⟩, ⟨8, 11, 0, .rw, .any⟩, ⟨9, 11, 0, .rw, .any⟩, ⟨10, 11, 0, .rw, .any⟩, ⟨11, 11, 0, .rw, .any⟩, ⟨12, 11, 0, .rw, .any⟩, ⟨13, 11, 0, .rw, .any⟩, ⟨14, 11, 0, .rw, .any⟩, ⟨15, 11, 0, .rw, .any⟩, ⟨16, 11, 0, .rw, .any⟩, ⟨17, 11, 0, .rw, .any⟩, ⟨18, 11, 0, .rw, .any⟩, ⟨19, 11, 0, .rw, .any⟩, ⟨20, 11, 0, .rw, .any⟩, ⟨21, 11, 0, .rw, .any⟩, ⟨22, 11, 0, .rw, .any⟩, ⟨23, 11, 0, .rw, .any⟩] ++
   [⟨24, 11, 0, .rw, .any⟩, ⟨25, 11, 0, .rw, .any⟩, ⟨26, 11, 0, .rw, .any⟩, ⟨27, 11, 0, .rw, .any⟩, ⟨28, 11, 0, .rw, .any⟩, ⟨29, 11, 0, .rw, .any⟩, ⟨30, 11, 0, .rw, .any⟩, ⟨31, 11, 0, .rw, .any⟩]⟩

/-- OSC table 2, Rule (R265). -/
def tableOSCRule : TableD :=
  ⟨0x92, 2048, 5,
   [⟨0, 31, 31, .live, .any⟩, ⟨0, 30, 29, .rw, (.outside 3 3)⟩, ⟨0, 28, 28, .live, .any⟩, ⟨0, 27, 27, .live, .any⟩, ⟨0, 23, 16, .live, .nonzero⟩, ⟨0, 15, 8, .live, .nonzero⟩, ⟨0, 1, 0, .ro, .any⟩, ⟨1, 31, 16, .rw, .any⟩, ⟨1, 15, 0, .rw, .any⟩, ⟨2, 31, 16, .live, .any⟩, ⟨2, 15, 0, .live, .any⟩, ⟨3, 31, 0, .live, .any⟩, ⟨4, 31, 0, .live, .any⟩]⟩

/-- OSC table 3, BankSlot (R266). -/
def tableOSCBankSlot : TableD :=
  ⟨0x93, 1024, 6,
   [⟨0, 31, 31, .rw, .any⟩, ⟨0, 27, 24, .rw, (.range 6 12)⟩, ⟨0, 23, 12, .rw, .any⟩, ⟨0, 11, 0, .rw, .any⟩, ⟨1, 31, 30, .rw, (.outside 3 3)⟩, ⟨1, 23, 12, .rw, .any⟩, ⟨1, 11, 0, .rw, .any⟩, ⟨2, 31, 31, .rw, .any⟩, ⟨2, 27, 16, .rw, .any⟩, ⟨2, 15, 8, .live, .nonzero⟩, ⟨2, 7, 0, .live, .nonzero⟩, ⟨3, 31, 16, .live, .any⟩, ⟨3, 15, 0, .live, .any⟩, ⟨4, 31, 0, .live, .any⟩, ⟨5, 31, 30, .ro, .any⟩, ⟨5, 29, 28, .ro, .any⟩, ⟨5, 27, 27, .ro, .any⟩]⟩

/-- ISL table 0, Node (R295). -/
def tableISLNode : TableD :=
  ⟨0xA0, 16384, 1,
   [⟨0, 31, 31, .rw, .any⟩, ⟨0, 15, 0, .ro, .any⟩]⟩

/-- ISL table 1, Branch (R295). -/
def tableISLBranch : TableD :=
  ⟨0xA1, 32768, 4,
   [⟨0, 31, 31, .rw, .any⟩, ⟨0, 30, 29, .rw, (.outside 3 3)⟩, ⟨0, 28, 27, .rw, (.outside 3 3)⟩, ⟨0, 26, 26, .rw, .any⟩, ⟨0, 25, 24, .rw, (.outside 3 3)⟩, ⟨0, 23, 16, .rw, .nonzero⟩, ⟨0, 13, 0, .rw, .any⟩, ⟨1, 29, 16, .rw, .any⟩, ⟨1, 13, 0, .rw, .any⟩, ⟨2, 21, 16, .rw, .any⟩, ⟨2, 15, 15, .rw, .any⟩, ⟨2, 7, 4, .rw, .any⟩, ⟨2, 3, 0, .rw, .any⟩, ⟨3, 31, 31, .ro, .any⟩, ⟨3, 30, 30, .ro, .any⟩, ⟨3, 29, 29, .ro, .any⟩, ⟨3, 23, 16, .ro, .any⟩]⟩

/-- ISL table 2, FreqMonitor (R295). -/
def tableISLFreqMonitor : TableD :=
  ⟨0xA2, 4096, 5,
   [⟨0, 31, 31, .rw, .any⟩, ⟨0, 30, 28, .rw, (.range 1 4)⟩, ⟨0, 21, 16, .rw, .any⟩, ⟨0, 15, 8, .live, .nonzero⟩, ⟨0, 7, 0, .live, .nonzero⟩, ⟨1, 13, 0, .rw, .any⟩, ⟨2, 31, 0, .live, .any⟩, ⟨3, 31, 0, .live, .any⟩, ⟨4, 31, 30, .ro, .any⟩, ⟨4, 29, 29, .ro, .any⟩, ⟨4, 17, 16, .ro, .any⟩, ⟨4, 15, 8, .ro, .any⟩, ⟨4, 7, 0, .ro, .any⟩]⟩

/-- ISL table 3, AngleMonitor (R295). -/
def tableISLAngleMonitor : TableD :=
  ⟨0xA3, 1024, 5,
   [⟨0, 31, 31, .rw, .any⟩, ⟨0, 30, 28, .rw, (.range 1 3)⟩, ⟨0, 27, 22, .rw, .any⟩, ⟨0, 21, 16, .rw, .any⟩, ⟨0, 15, 8, .live, .nonzero⟩, ⟨0, 7, 0, .live, .nonzero⟩, ⟨1, 29, 16, .rw, .any⟩, ⟨1, 13, 0, .rw, .any⟩, ⟨2, 31, 0, .live, .any⟩, ⟨3, 31, 0, .live, .any⟩, ⟨4, 31, 30, .ro, .any⟩, ⟨4, 29, 29, .ro, .any⟩, ⟨4, 17, 16, .ro, .any⟩, ⟨4, 15, 8, .ro, .any⟩, ⟨4, 7, 0, .ro, .any⟩]⟩

/-- ISL table 4, VoltMonitor (R295). -/
def tableISLVoltMonitor : TableD :=
  ⟨0xA4, 2048, 5,
   [⟨0, 31, 31, .rw, .any⟩, ⟨0, 30, 28, .rw, (.range 1 2)⟩, ⟨0, 21, 16, .rw, .any⟩, ⟨0, 15, 8, .live, .nonzero⟩, ⟨0, 7, 0, .live, .nonzero⟩, ⟨1, 13, 0, .rw, .any⟩, ⟨2, 31, 0, .live, .any⟩, ⟨3, 31, 0, .live, .any⟩, ⟨4, 31, 30, .ro, .any⟩, ⟨4, 29, 29, .ro, .any⟩, ⟨4, 17, 16, .ro, .any⟩, ⟨4, 15, 8, .ro, .any⟩, ⟨4, 7, 0, .ro, .any⟩]⟩

/-- ISL table 5, Coherency (R295). -/
def tableISLCoherency : TableD :=
  ⟨0xA5, 256, 8,
   [⟨0, 31, 31, .rw, .any⟩, ⟨0, 27, 22, .rw, .any⟩, ⟨0, 21, 16, .rw, .any⟩, ⟨0, 15, 8, .live, .nonzero⟩, ⟨0, 7, 0, .live, .nonzero⟩, ⟨1, 29, 16, .rw, .any⟩, ⟨1, 13, 0, .rw, .any⟩, ⟨2, 27, 22, .rw, .any⟩, ⟨2, 21, 16, .rw, .any⟩, ⟨2, 15, 8, .rw, .nonzero⟩, ⟨3, 31, 0, .live, .any⟩, ⟨4, 31, 0, .live, .any⟩, ⟨5, 31, 0, .live, .any⟩, ⟨6, 31, 0, .live, .any⟩, ⟨7, 31, 30, .ro, .any⟩, ⟨7, 29, 29, .ro, .any⟩, ⟨7, 25, 24, .ro, .any⟩, ⟨7, 23, 16, .ro, .any⟩, ⟨7, 15, 8, .ro, .any⟩, ⟨7, 7, 0, .ro, .any⟩]⟩

/-- ISL table 6, Policy (R295). -/
def tableISLPolicy : TableD :=
  ⟨0xA6, 64, 7,
   [⟨0, 31, 31, .rw, .any⟩, ⟨0, 30, 28, .rw, (.range 0 4)⟩, ⟨0, 27, 26, .rw, (.range 0 1)⟩, ⟨0, 25, 16, .rw, .any⟩, ⟨0, 15, 0, .live, .any⟩, ⟨1, 29, 16, .rw, .any⟩, ⟨1, 13, 0, .rw, .any⟩, ⟨2, 31, 30, .ro, .any⟩, ⟨2, 29, 29, .ro, .any⟩, ⟨2, 28, 28, .ro, .any⟩, ⟨3, 31, 0, .ro, .any⟩, ⟨4, 31, 0, .ro, .any⟩, ⟨5, 31, 0, .ro, .any⟩, ⟨6, 31, 0, .ro, .any⟩]⟩

/-- ALM table 0, Point (R318). -/
def tableALMPoint : TableD :=
  ⟨0xB0, 512, 2,
   [⟨0, 31, 31, .live, .any⟩, ⟨0, 30, 29, .rw, (.outside 3 3)⟩, ⟨0, 28, 28, .rw, .any⟩, ⟨0, 27, 20, .live, .any⟩, ⟨0, 19, 16, .live, .any⟩, ⟨0, 15, 8, .live, .any⟩, ⟨1, 31, 28, .ro, .any⟩]⟩

/-- ALM table 1, Output (R318). -/
def tableALMOutput : TableD :=
  ⟨0xB1, 12, 1,
   [⟨0, 31, 30, .rw, (.outside 3 3)⟩, ⟨0, 29, 29, .rw, .any⟩, ⟨0, 15, 0, .rw, .any⟩]⟩

/-- ALM table 2, Target (R318). -/
def tableALMTarget : TableD :=
  ⟨0xB2, 16, 12,
   [⟨0, 31, 31, .rw, .any⟩, ⟨0, 30, 30, .rw, .any⟩, ⟨0, 29, 27, .rw, (.range 0 5)⟩, ⟨0, 26, 25, .rw, .any⟩, ⟨0, 11, 0, .rw, .any⟩, ⟨1, 31, 0, .rw, .any⟩, ⟨2, 31, 0, .rw, .any⟩, ⟨3, 31, 0, .rw, .any⟩, ⟨4, 31, 0, .rw, .any⟩, ⟨5, 31, 0, .rw, .any⟩, ⟨6, 31, 0, .rw, .any⟩, ⟨7, 31, 0, .rw, .any⟩, ⟨8, 31, 0, .rw, .any⟩, ⟨9, 31, 16, .rw, .any⟩, ⟨9, 15, 0, .rw, .any⟩, ⟨10, 31, 0, .rw, .any⟩, ⟨11, 15, 0, .rw, .any⟩]⟩

/-- ALM table 3, Publish (R318). -/
def tableALMPublish : TableD :=
  ⟨0xB3, 32, 2,
   [⟨0, 31, 31, .rw, .any⟩, ⟨0, 30, 30, .rw, .any⟩, ⟨0, 29, 24, .rw, .any⟩, ⟨0, 23, 16, .rw, .any⟩, ⟨0, 15, 0, .rw, .any⟩, ⟨1, 31, 28, .rw, .any⟩, ⟨1, 7, 0, .rw, .any⟩]⟩

/-- CAP table 0, Sequencer (R344). -/
def tableCAPSequencer : TableD :=
  ⟨0xC0, 16, 6,
   [⟨0, 31, 31, .rw, .any⟩, ⟨0, 30, 25, .rw, .any⟩, ⟨0, 24, 24, .rw, .any⟩, ⟨0, 23, 23, .rw, .any⟩, ⟨0, 22, 16, .rw, (.range 1 64)⟩, ⟨1, 31, 16, .rw, .any⟩, ⟨1, 15, 4, .rw, .any⟩, ⟨2, 31, 16, .rw, .any⟩, ⟨2, 15, 8, .rw, (.range 2 255)⟩, ⟨3, 31, 16, .rw, .any⟩, ⟨3, 15, 0, .rw, .nonzero⟩, ⟨4, 31, 16, .rw, .any⟩, ⟨5, 31, 30, .ro, .any⟩, ⟨5, 29, 27, .ro, .any⟩, ⟨5, 11, 0, .ro, .any⟩]⟩

/-- CAP table 1, Signal (R344). -/
def tableCAPSignal : TableD :=
  ⟨0xC1, 1024, 1,
   [⟨0, 29, 16, .rw, .any⟩, ⟨0, 5, 0, .rw, .any⟩]⟩

/-- CAP table 2, Condition (R344). -/
def tableCAPCondition : TableD :=
  ⟨0xC2, 128, 2,
   [⟨0, 31, 29, .rw, .any⟩, ⟨0, 25, 20, .rw, .any⟩, ⟨1, 31, 0, .live, .any⟩]⟩

/-- CAP table 3, SeqState (R344). -/
def tableCAPSeqState : TableD :=
  ⟨0xC3, 128, 2,
   [⟨0, 31, 24, .rw, .any⟩, ⟨0, 23, 23, .rw, .any⟩, ⟨0, 22, 22, .rw, .any⟩, ⟨0, 21, 19, .rw, .any⟩, ⟨0, 18, 16, .rw, .any⟩, ⟨0, 15, 8, .rw, .nonzero⟩, ⟨1, 31, 16, .rw, .any⟩]⟩

/-- ACC table 0, TieLine (R366). -/
def tableACCTieLine : TableD :=
  ⟨0xD0, 64, 5,
   [⟨0, 31, 31, .rw, .any⟩, ⟨0, 30, 25, .rw, .any⟩, ⟨0, 24, 24, .rw, .any⟩, ⟨0, 23, 22, .rw, (.outside 3 3)⟩, ⟨0, 13, 0, .rw, .any⟩, ⟨1, 23, 18, .rw, .any⟩, ⟨1, 17, 12, .rw, .any⟩, ⟨1, 11, 6, .rw, .any⟩, ⟨1, 5, 0, .rw, .any⟩, ⟨2, 11, 6, .rw, .any⟩, ⟨2, 5, 0, .rw, .any⟩, ⟨3, 31, 0, .live, .any⟩, ⟨4, 31, 30, .ro, .any⟩, ⟨4, 29, 29, .ro, .any⟩]⟩

/-- ACC table 1, Accumulator (R366). -/
def tableACCAccumulator : TableD :=
  ⟨0xD1, 384, 6,
   [⟨0, 31, 0, .rw, .any⟩, ⟨1, 31, 0, .rw, .any⟩, ⟨2, 31, 0, .rw, .any⟩, ⟨3, 29, 0, .rw, (.range 1 1000000000)⟩, ⟨4, 31, 28, .rw, (.range 0 9)⟩, ⟨4, 7, 0, .ro, .any⟩, ⟨5, 31, 0, .ro, .any⟩]⟩

/-- ACC table 2, PulseInput (R366). -/
def tableACCPulseInput : TableD :=
  ⟨0xD2, 16, 4,
   [⟨0, 31, 31, .rw, .any⟩, ⟨0, 27, 20, .rw, .nonzero⟩, ⟨0, 8, 0, .rw, .any⟩, ⟨1, 31, 0, .rw, .nonzero⟩, ⟨2, 31, 16, .rw, .nonzero⟩, ⟨2, 15, 0, .rw, (.range 0 10000)⟩, ⟨3, 31, 31, .ro, .any⟩]⟩

/-- ACC table 3, PulseOutput (R366). -/
def tableACCPulseOutput : TableD :=
  ⟨0xD3, 8, 3,
   [⟨0, 31, 31, .rw, .any⟩, ⟨0, 28, 20, .rw, .any⟩, ⟨0, 19, 10, .rw, (.range 2 1000)⟩, ⟨0, 9, 0, .rw, (.range 2 1000)⟩, ⟨1, 31, 0, .rw, .nonzero⟩, ⟨2, 7, 0, .ro, .any⟩]⟩

/-- RBT table 0, Queue (R461). -/
def tableRBTQueue : TableD :=
  ⟨0x20, 256, 8,
   [⟨0, 31, 31, .rw, .any⟩, ⟨0, 30, 30, .rw, .any⟩, ⟨0, 29, 28, .rw, (.outside 3 3)⟩, ⟨0, 20, 16, .rw, .any⟩, ⟨0, 12, 8, .rw, .any⟩, ⟨1, 20, 0, .rw, .any⟩, ⟨2, 24, 20, .rw, (.range 4 20)⟩, ⟨2, 19, 5, .rw, .any⟩, ⟨2, 3, 0, .rw, (.range 4 12)⟩, ⟨3, 20, 0, .live, .any⟩, ⟨4, 20, 0, .live, .any⟩, ⟨5, 20, 0, .live, .any⟩, ⟨6, 31, 30, .live, .any⟩, ⟨6, 29, 29, .live, .any⟩, ⟨6, 21, 16, .live, .any⟩, ⟨7, 31, 31, .ro, .any⟩, ⟨7, 30, 30, .ro, .any⟩, ⟨7, 29, 29, .ro, .any⟩, ⟨7, 20, 0, .ro, .any⟩]⟩

/-- RBT table 2, Key (R461). -/
def tableRBTKey : TableD :=
  ⟨0x22, 4096, 1,
   [⟨0, 31, 24, .live, .any⟩, ⟨0, 23, 23, .ro, .any⟩, ⟨0, 15, 8, .ro, .any⟩]⟩

/-- RBT table 3, Template (R461). -/
def tableRBTTemplate : TableD :=
  ⟨0x23, 256, 8,
   [⟨0, 31, 0, .rw, .any⟩, ⟨1, 31, 0, .rw, .any⟩, ⟨2, 31, 0, .rw, .any⟩, ⟨3, 31, 0, .rw, .any⟩, ⟨4, 31, 0, .rw, .any⟩, ⟨5, 31, 0, .rw, .any⟩, ⟨6, 31, 0, .rw, .any⟩, ⟨7, 31, 0, .rw, .any⟩]⟩

/-- XNG table 0, Carry (R514). -/
def tableXNGCarry : TableD :=
  ⟨0xE0, 64, 4,
   [⟨0, 31, 31, .rw, .any⟩, ⟨0, 30, 30, .rw, .any⟩, ⟨0, 23, 12, .rw, .any⟩, ⟨0, 7, 0, .rw, .any⟩, ⟨1, 31, 12, .rw, .any⟩, ⟨2, 7, 0, .rw, .any⟩, ⟨3, 23, 0, .rw, .any⟩]⟩

/-- Every table of entries. -/
def tables : List TableD :=
  [tableINGSource,
   tableINGDirectory,
   tableINGChannelMap,
   tableINGConnection,
   tableFLTFilterChannel,
   tableOSCTracker,
   tableOSCTrackerInputs,
   tableOSCRule,
   tableOSCBankSlot,
   tableISLNode,
   tableISLBranch,
   tableISLFreqMonitor,
   tableISLAngleMonitor,
   tableISLVoltMonitor,
   tableISLCoherency,
   tableISLPolicy,
   tableALMPoint,
   tableALMOutput,
   tableALMTarget,
   tableALMPublish,
   tableCAPSequencer,
   tableCAPSignal,
   tableCAPCondition,
   tableCAPSeqState,
   tableACCTieLine,
   tableACCAccumulator,
   tableACCPulseInput,
   tableACCPulseOutput,
   tableRBTQueue,
   tableRBTKey,
   tableRBTTemplate,
   tableXNGCarry]

end Sys2Proof.Machine
end

