-- ==== Sys2Proof/Machine/Ops.lean ====
section
/-!
DEFINITION. The named operations over the state: sparse maps, memory bytes, control registers and their fields,
counters, table words, time, the Ring Log request, detected faults and what leaves the unit.
-/

namespace Sys2Proof.Machine

/-! ## Sparse maps -/

/-- The value at a key: the first listed pair with that key, else what an unlisted key reads as. -/
def mapGet {α : Type} (dflt : Nat → α) : SMap α → Nat → α
  | [], k => dflt k
  | (k', v) :: t, k => if k = k' then v else mapGet dflt t k

/-- The map without a key. -/
def mapErase {α : Type} (k : Nat) : SMap α → SMap α
  | [] => []
  | (k', v') :: t => if k = k' then mapErase k t else (k', v') :: mapErase k t

/-- A pair put in its place by rising keys. -/
def mapPut {α : Type} (k : Nat) (v : α) : SMap α → SMap α
  | [] => [(k, v)]
  | (k', v') :: t => if k < k' then (k, v) :: (k', v') :: t else (k', v') :: mapPut k v t

/-- Store a value, keeping the canonical form: keys rising, nothing stored that an unlisted key reads as. -/
def mapSet {α : Type} [DecidableEq α] (dflt : Nat → α) (m : SMap α) (k : Nat) (v : α) : SMap α :=
  if v = dflt k then mapErase k m else mapPut k v (mapErase k m)

/-- The canonical form from a least key on. -/
def mapWfFrom {α : Type} [DecidableEq α] (dflt : Nat → α) : Nat → SMap α → Bool
  | _, [] => true
  | lo, (k, v) :: t => decide (lo ≤ k) && decide (v ≠ dflt k) && mapWfFrom dflt (k + 1) t

/-- The canonical form of a sparse map. -/
def mapWf {α : Type} [DecidableEq α] (dflt : Nat → α) (m : SMap α) : Bool := mapWfFrom dflt 0 m

/-- `mapGet` with one value for every unlisted key. -/
def mget {α : Type} (d : α) (m : SMap α) (k : Nat) : α := mapGet (fun _ => d) m k

/-- `mapSet` with one value for every unlisted key. -/
def mset {α : Type} [DecidableEq α] (d : α) (m : SMap α) (k : Nat) (v : α) : SMap α := mapSet (fun _ => d) m k v

/-! ## Memory: SRAM and DRAM (R604) -/

/-- What a byte of memory that nothing has written reads as (log 8). -/
def memDefault : Byte := 0

/-- The canonical form of memory. -/
def Memory.wf (m : List Host.Cell) : Bool := mapWf (fun _ => memDefault) m

/-- Size of the on-chip SRAM (R604). -/
def sramEnd : Nat := 0x0003000000
/-- Start of the part of SRAM inside the cryptographic boundary (R535, R604). -/
def boundaryStart : Nat := 0x0002EC0000
/-- Start and end of DRAM (R604). -/
def dramStart : Nat := 0x1000000000
def dramEnd : Nat := 0x1400000000
/-- Start of the capture buffer, and of the queue spill and program data area (R604). -/
def captureBase : Nat := 0x1200000000
def spillBase : Nat := 0x1300000000
/-- Start of the Supervisor software area (R604). -/
def svBase : Nat := 0x1380000000
/-- Start and size of the control registers (R604). -/
def ctrlBase : Nat := 0x0080000000
def ctrlSize : Nat := 0x140000

/-- An address of SRAM or DRAM (R604). -/
def isMemory (a : Nat) : Bool := decide (a < sramEnd) || (decide (dramStart ≤ a) && decide (a < dramEnd))

/-- One byte of memory. -/
def State.rdByte (s : State) (a : Nat) : Byte := mget memDefault s.mem a

/-- One byte stored. -/
def State.wrByte (s : State) (a : Nat) (b : Byte) : State := { s with mem := mset memDefault s.mem a b }

/-- `n` bytes from `a` up. -/
def State.rdBytes (s : State) (a : Nat) : Nat → List Byte
  | 0 => []
  | n + 1 => s.rdByte a :: s.rdBytes (a + 1) n

/-- The listed form of bytes from `a` up: those that an unlisted address does not read as. -/
def listBytes (a : Nat) : List Byte → List Host.Cell
  | [] => []
  | b :: t => if b = memDefault then listBytes (a + 1) t else (a, b) :: listBytes (a + 1) t

/-- Memory with a list of bytes in place of those from `a` up. -/
def Memory.splice (m : List Host.Cell) (a : Nat) (l : List Byte) : List Host.Cell :=
  (m.filter fun x => decide (x.1 < a)) ++ listBytes a l ++ (m.filter fun x => decide (a + l.length ≤ x.1))

/-- A list of bytes stored from `a` up. -/
def State.putBytes (s : State) (a : Nat) (l : List Byte) : State := { s with mem := Memory.splice s.mem a l }

/-- A 64-bit word is poisoned (R520). -/
def State.poisoned (s : State) (a : Nat) : Bool := mget false s.err.poison (a / 8)

/-- Some 64-bit word of `n` bytes from `a` is poisoned. -/
def State.anyPoison (s : State) (a n : Nat) : Bool :=
  s.err.poison.any fun x => decide (a < 8 * x.1 + 8) && decide (8 * x.1 < a + n)

/-- A full write of a 64-bit word clears its poison (R520). -/
def State.unpoison (s : State) (a n : Nat) : State :=
  { s with err := { s.err with poison := s.err.poison.filter fun x => !(decide (a ≤ 8 * x.1) && decide (8 * x.1 + 8 ≤ a + n)) } }

/-- A 64-bit word is rewritten with a poison syndrome (R520). -/
def State.poisonAt (s : State) (a : Nat) : State :=
  { s with err := { s.err with poison := mset false s.err.poison (a / 8) true } }

/-- A list of bytes stored from `a` up; every word written whole loses its poison. -/
def State.wrBytes (s : State) (a : Nat) (l : List Byte) : State := (s.putBytes a l).unpoison a l.length

/-- The little-endian number in `n` bytes at `a` (R13). -/
def State.rdLe (s : State) (a n : Nat) : Nat := leNat (s.rdBytes a n)

/-- A number stored little-endian in `n` bytes at `a`. -/
def State.wrLe (s : State) (a n v : Nat) : State := s.wrBytes a (leBytes n v)

/-! ## Control registers -/

/-- A port window's offset seen in the window of NET0; other offsets unchanged. -/
def netNorm (off : Nat) : Nat :=
  if 0x040000 ≤ off ∧ off < 0x04E000 then
    match (off - 0x040000) / 0x2000 with
    | 1 => off - 0x2000
    | 2 => off - 0x4000
    | 3 => off - 0x6000
    | 4 => off - 0x8000
    | 6 => off - 0xC000
    | _ => off
  else off

/-- Reset value of a control register, by offset (R21). -/
def regReset (off : Nat) : Word := regResetPlain (netNorm off)

/-- Registers the Understory holds (reset mark U, R21). -/
def isURegister (off : Nat) : Bool :=
  decide (off = R.SYS_RESET_CAUSE)
    || (decide (0x01B000 ≤ off) && decide (off < 0x01B080))
    || (decide (0x100020 ≤ off) && decide (off < 0x10002C))
    || (decide (0x110000 ≤ off) && decide (off < 0x110068))

/-- A control register's word. -/
def State.reg (s : State) (off : Nat) : Word :=
  if isURegister off then mapGet regReset s.uregs off else mapGet regReset s.regs off

/-- A control register's word stored. -/
def State.setReg (s : State) (off : Nat) (v : Word) : State :=
  if isURegister off then { s with uregs := mapSet regReset s.uregs off v }
  else { s with regs := mapSet regReset s.regs off v }

/-- A field's value. -/
def State.fld (s : State) (f : Fld) : Nat := bitsOf (s.reg f.off).toNat f.hi f.lo

/-- A one-bit field. -/
def State.flag (s : State) (f : Fld) : Bool := s.fld f != 0

/-- A field stored. -/
def State.setFld (s : State) (f : Fld) (v : Nat) : State :=
  s.setReg f.off (w32 (putBits (s.reg f.off).toNat f.hi f.lo v))

/-- A status bit set by hardware. -/
def State.raise (s : State) (f : Fld) : State := s.setFld f 1

/-- Key of a banked register. -/
def bankKey (req off : Nat) : Nat := req * 0x200000 + off

/-- A banked register's word for a requester. -/
def State.banked (s : State) (req off : Nat) : Word := mget 0 s.bank (bankKey req off)

/-- A banked register's word stored. -/
def State.setBanked (s : State) (req off : Nat) (v : Word) : State :=
  { s with bank := mset 0 s.bank (bankKey req off) v }

/-! ## 64-bit counters and value pairs -/

/-- Counters the Understory holds (R595). -/
def isUWide (k : Nat) : Bool := decide (0x110000 ≤ k) && decide (k < 0x120000)

/-- A 64-bit counter or value pair. -/
def State.cnt (s : State) (k : Nat) : DWord := if isUWide k then mget 0 s.uwide k else mget 0 s.wide k

/-- A 64-bit value stored. -/
def State.setCnt (s : State) (k : Nat) (v : DWord) : State :=
  if isUWide k then { s with uwide := mset 0 s.uwide k v } else { s with wide := mset 0 s.wide k v }

/-- Key of the q-th counter of an entry of a counter table. -/
def tblCntKey (table idx q : Nat) : Nat := 2 ^ 32 + table * 2 ^ 24 + idx * 32 + q

/-- The block number of a counter's key. -/
def cntBlock (k : Nat) : Nat := if k < 2 ^ 32 then k / 0x10000 else (k - 2 ^ 32) / 2 ^ 28

/-- Count `n` events: a counter saturates at all ones and sets its block's flag (R23). The spec gives no register that shows the flag; it
stands in State.saturated, where no read shows it (DESIGN CHOICE, log 38). -/
def State.bumpBy (s : State) (k n : Nat) : State :=
  let v := (s.cnt k).toNat + n
  if v < 2 ^ 64 - 1 then s.setCnt k (w64 v)
  else { s.setCnt k (w64 (2 ^ 64 - 1)) with saturated := mset false s.saturated (cntBlock k) true }

/-- Count one event. -/
def State.bump (s : State) (k : Nat) : State := s.bumpBy k 1

/-! ## Table entries -/

/-- Key of a word of a table entry. -/
def tblKey (table idx word : Nat) : Nat := table * 2 ^ 24 + idx * 32 + word

/-- What a table word reads as before configuration is loaded: AFF_WAIT 8 and LAST_CORE 0xFF in the Key table (R461),
CFG_STATE 1 in the Stream Directory (R652), zero elsewhere (log 3). -/
def tblReset (k : Nat) : Word :=
  if k / 2 ^ 24 = T.RBT.Key ∧ k % 32 = 0 then 0x0800FF00
  else if k / 2 ^ 24 = T.ING.Directory ∧ k % 32 = 6 then 0x40000000
  else 0

/-- A word of a table entry. -/
def State.tword (s : State) (table idx word : Nat) : Word := mapGet tblReset s.tbl (tblKey table idx word)

/-- A word of a table entry stored. -/
def State.setTword (s : State) (table idx word : Nat) (v : Word) : State :=
  { s with tbl := mapSet tblReset s.tbl (tblKey table idx word) v }

/-- A field of a table entry. -/
def State.tf (s : State) (f : TF) (idx : Nat) : Nat := bitsOf (s.tword f.table idx f.word).toNat f.hi f.lo

/-- A one-bit field of a table entry. -/
def State.tflag (s : State) (f : TF) (idx : Nat) : Bool := s.tf f idx != 0

/-- A field of a table entry stored by the device. -/
def State.setTf (s : State) (f : TF) (idx v : Nat) : State :=
  s.setTword f.table idx f.word (w32 (putBits (s.tword f.table idx f.word).toNat f.hi f.lo v))

/-! ## Modes (R54) -/

/-- The 4-bit encoding of a mode. -/
def Mode.num : Mode → Nat
  | .keep => 0 | .boot => 1 | .provision => 2 | .commission => 3 | .service => 4 | .shadow => 5
  | .takeover => 6 | .degraded => 7 | .test => 8 | .recovery => 9 | .lockdown => 10 | .dormant => 11

/-- The mode a 4-bit number names; 12 to 15 are reserved. -/
def modeOf : Nat → Option Mode
  | 0 => some .keep | 1 => some .boot | 2 => some .provision | 3 => some .commission | 4 => some .service
  | 5 => some .shadow | 6 => some .takeover | 7 => some .degraded | 8 => some .test | 9 => some .recovery
  | 10 => some .lockdown | 11 => some .dormant | _ => none

/-! ## Cores -/

/-- A core after reset: STATUS 1 on SE and SV, 2 on the Keeper Core (R381), ESTATUS 2 on the Keeper Core, which knows no other level
(R368); the rest zero (log 5). -/
def coreReset (c : Nat) : Core :=
  { run := .off, pc := 0, s := [], v := [], p := [], status := if c = 20 then 2 else 1, estatus := if c = 20 then 2 else 0, epc := 0,
    cause := 0, eval := 0, evec := 0, scratch0 := 0, scratch1 := 0, epoch := 0, ttag := 0, setbase := 0, setctx := 0,
    bound := false, taskarg := 0, taskkey := 0, fflags := 0, region := [], task := none, given := none, upAt := 0,
    waitAt := 0, kickAt := 0, wdogWarned := false, wdogExpired := false, eccCorrected := false, sampleRun := 0 }

/-- A core's state. -/
def State.core (s : State) (c : Nat) : Core := mapGet coreReset s.cores c

/-- A core's state stored. -/
def State.setCore (s : State) (c : Nat) (k : Core) : State := { s with cores := mapSet coreReset s.cores c k }

/-- All 16 Stream Engines are in WAIT and none has a task on its way to it (R34). -/
def State.seWait (s : State) : Bool := (List.range 16).all fun c => (s.core c).run = .wait && (s.core c).given.isNone

/-- Since when they have been, while the PLL runs (R34). -/
def State.seWaitSince (s : State) : Nat := (List.range 16).foldl (fun t c => max t (s.core c).waitAt) s.sys.pllUpAt

/-- The restart of a stopped Stream Engine PLL is requested (R34). -/
def State.pllRequest (s : State) : State :=
  if s.sys.pll = .stopped then { s with sys := { s.sys with pll := .restarting s.now } } else s

/-! ## Time -/

/-- Boulevard clk in one µs (R33). -/
def clkPerUs : Nat := 1200

/-- Short Grid Time (R152), zero while Grid Time does not run (R154). -/
def State.gt (s : State) : Nat := if s.tim.running then s.tim.grid % 2 ^ 64 else 0

/-- The signed difference A - B of two Short Grid Times (R153). -/
def gtDiff (a b : Nat) : Int := signedOf 64 (a % 2 ^ 64 + 2 ^ 64 - b % 2 ^ 64)

/-- A is after B (R153). -/
def gtAfter (a b : Nat) : Bool := decide (0 < gtDiff a b)

/-- A is at or after B. -/
def gtAtOrAfter (a b : Nat) : Bool := decide (0 ≤ gtDiff a b)

/-- One clk of the OCXO's phase accumulator: 1.2 x 10^9 x 2^44 make one step of 2^-32 s (R154). -/
def phaseUnit : Nat := 1200000000 * 2 ^ 44

/-- Phase added in one Boulevard clk under TIM_FREQ_ADJ (R154). -/
def phaseStep (adj : Int) : Nat := (2 ^ 32 * (2 ^ 44 + adj)).toNat

/-- TIM_FREQ_ADJ as a signed number. -/
def State.freqAdj (s : State) : Int := signedOf 32 (s.fld F.TIM_FREQ_ADJ.ADJ)

/-- `n` Boulevard clk pass: local time and, while it runs, Grid Time advance. -/
def State.elapse (s : State) (n : Nat) : State :=
  let total := s.tim.phase + n * phaseStep s.freqAdj
  { s with
    now := s.now + n
    tim := if s.tim.running then
        { s.tim with grid := (s.tim.grid + total / phaseUnit) % 2 ^ 80, phase := total % phaseUnit }
      else s.tim }

/-- Boulevard clk since an earlier instant. -/
def State.since (s : State) (t : Nat) : Nat := s.now - t

/-! ## What leaves the unit -/

/-- Record an output (log 7). -/
def State.emit (s : State) (o : Output) : State := { s with out := o :: s.out }

/-- An MSI-X vector is raised; one masked in the table stays pending (R610). -/
def State.msix (s : State) (n : Nat) : State :=
  if s.flag (F.HST_MSIX_CTL.MASK.at (0x10 * n)) then s.setFld ⟨R.HST_MSIX_PBA, n, n⟩ 1 else s.emit (.msix n)

/-! ## Free values (log 6) -/

/-- Take the next free value of 64 bits. -/
def State.freeVal (s : State) : DWord := Config.freeWord s.free

/-- The free value taken. -/
def State.useFree (s : State) : State := { s with free := s.free + 1 }

/-! ## Detected faults and Ring Log records -/

/-- EPOCH as the fault collector shows it (R516). -/
def State.epoch (s : State) : Nat := s.fld F.ERR_EPOCH.EPOCH

/-- A fault found now. -/
def State.found (s : State) (code wh req : Nat) : Found :=
  { code := code, whereF := wh, req := req, clk := s.now, time := s.gt, epoch := s.epoch }

/-- A fault detected in the unit, on its way to the fault collector (R518). -/
def State.detect (s : State) (code wh req : Nat) : State :=
  { s with err := { s.err with detected := s.err.detected ++ [s.found code wh req] } }

/-- WHERE of a fault of a Source Table entry: its index from 0x8000 on, above every stream (log 43). -/
def sourceKey (src : Nat) : Nat := 0x8000 + src

/-- The calendar's sub-second count of 1/32,768 s (R577). -/
def State.subsec (s : State) : Nat := min 32767 ((s.now - s.und.secAt) * 32768 / 1200000000)

/-- A packed calendar (R578). -/
def packCal (c : Cal) (subsec : Nat) (invalid : Bool) : Nat :=
  subsec + c.sec * 2 ^ 15 + c.min * 2 ^ 21 + c.hour * 2 ^ 27 + c.day * 2 ^ 32 + c.month * 2 ^ 37
    + (c.year - 2000) * 2 ^ 41 + c.wday * 2 ^ 50 + b2n invalid * 2 ^ 53

/-- Ring Log types with reserved places in the pending buffer (R589). -/
def ringReserved (type : Nat) : Bool := type = 0x0002 || type = 0x0007 || type = 0x0010 || type = 0x00FF

/-- Order of the events of one Understory clk (R589): tamper, power, calendar, wake, and last what came over the bridge. -/
def ringRank (type : Nat) : Nat :=
  match type with
  | 0x0007 => 0
  | 0x0002 | 0x0003 => 1
  | 0x0004 | 0x0005 => 2
  | 0x0006 => 3
  | _ => 4

/-- A record takes its place in the pending buffer: behind the others, but for those of its own clk that R589 ranks after it. -/
def ringInsert (r : RingRec) : List RingRec → List RingRec
  | [] => [r]
  | x :: t =>
    if x.tick = r.tick && decide (ringRank r.type < ringRank x.type) then r :: x :: t else x :: ringInsert r t

/-- Understory clk counted so far (R571). -/
def State.undTick (s : State) : Nat := s.now * 32768 / 1200000000

/-- Ask for a Ring Log record: it waits in the pending buffer, or is lost for want of room (R587, R589). -/
def State.ringLog (s : State) (type origin : Nat) (data : List Byte) : State :=
  let rec' : RingRec :=
    { gridTime := s.gt, noGrid := !s.tim.running, cal := packCal s.und.cal s.subsec s.und.invalid, calInvalid := s.und.invalid,
      epoch := s.epoch, type := type, origin := origin, interrupted := false, data := (data ++ List.replicate 28 0).take 28,
      tick := s.undTick }
  let s := s.bump R.UND_U_RL_REQUESTED
  if s.und.pending.length < (if ringReserved type then 256 else 248) then
    { s with und := { s.und with pending := ringInsert rec' s.und.pending } }
  else
    let s := (s.bump R.UND_U_RL_LOST).raise F.UND_INT_STATUS.RL_LOST
    { s with und := { s.und with lost := s.und.lost + 1 } }

end Sys2Proof.Machine
end

