-- ==== Sys2Proof/Machine/RegAccess.lean ====
section
/-!
DEFINITION. The access rules every control register obeys: which register stands at an offset, reserved values (R19),
the LIVE and run-control rule (R20, R71), access codes (R16), refused writes (R71) and the latch of 64-bit pairs (R22).
-/

namespace Sys2Proof.Machine

/-- The registers of a block, by block number (R607). -/
def blockRegs : Nat → List RegD
  | 0 => regsSYS | 1 => regsIC | 2 => regsRBT | 3 => regsMBX | 4 => regsNET | 5 => regsING | 6 => regsTIM
  | 7 => regsGLD | 8 => regsFLT | 9 => regsOSC | 10 => regsISL | 11 => regsALM | 12 => regsCAP | 13 => regsACC
  | 14 => regsXNG | 15 => regsERR | 16 => regsSEC | 17 => regsUND | 18 => regsPRF | 19 => regsHST | _ => []

/-- The offset is the register, or a member of the array; a 64-bit pair has two words. -/
def RegD.covers (d : RegD) (off : Nat) : Bool :=
  inArray2 off d.off d.n1 (if d.s1 = 0 then 0x10000000 else d.s1) d.n2 (if d.s2 = 0 then 4 else d.s2)
    || (d.kind != .plain && d.kind != .banked && decide (4 ≤ off) &&
        inArray2 (off - 4) d.off d.n1 (if d.s1 = 0 then 0x10000000 else d.s1) d.n2 (if d.s2 = 0 then 8 else d.s2))

/-- The first register of a list that covers an offset. -/
def firstCover (off : Nat) : List RegD → Option RegD
  | [] => none
  | d :: t => if d.covers off then some d else firstCover off t

/-- The register at an offset from 0x00_8000_0000; none at a reserved offset (R605). -/
def findReg (off : Nat) : Option RegD := firstCover (netNorm off) (blockRegs (off / 0x10000))

/-- Reporting rates of IEEE C37.118.2-2011 in the unit's family: the divisors and multiples of the nominal frequency up
to 240 (R46, R177). -/
def rateLegal (nominal60 : Bool) (r : Nat) : Bool :=
  let n := if nominal60 then 60 else 50
  decide (1 ≤ r) && decide (r ≤ 240) && (decide (n % r = 0) || decide (r % n = 0))

/-- A value of a field `w` bits wide is not reserved (R19). -/
def Legal.ok (nominal60 : Bool) (w v : Nat) : Legal → Bool
  | .any => true
  | .nonzero => v != 0
  | .range lo hi => decide (lo ≤ v) && decide (v ≤ hi)
  | .outside lo hi => decide (v < lo) || decide (hi < v)
  | .signed lo hi => decide (lo ≤ signedOf w v) && decide (signedOf w v ≤ hi)
  | .rate => rateLegal nominal60 v
  | .perfEvent => decide (v ≤ 0x0B) || (decide (0x40 ≤ v) && decide (v ≤ 0x48))

/-- A field whose value a write places. -/
def Access.writes : Access → Bool
  | .rw | .wo | .live | .rl => true
  | _ => false

/-- Some field of the write carries a reserved value (R19). -/
def reservedHit (nominal60 : Bool) (fs : List FieldD) (v : Nat) : Bool :=
  fs.any fun f => f.acc.writes && !(f.legal.ok nominal60 (f.hi + 1 - f.lo) (bitsOf v f.hi f.lo))

/-- How the rules of R20, R55 and R71 stand for one write. -/
structure Gate where
  /-- refusal cause of the mode or requester for fields that are not LIVE (R55, R69, R524) -/
  bar : Option Nat
  /-- the governing run control is set -/
  run : Bool
  /-- the governing block is in the middle of stopping -/
  stop : Bool
  /-- lowest bit of the run control, when it is in this register -/
  runBit : Option Nat

/-- One field after a write, and whether a changed value of it was held back. -/
def fieldWrite (g : Gate) (f : FieldD) (old v : Nat) : Nat × Bool :=
  match f.acc with
  | .live => (putBits old f.hi f.lo (bitsOf v f.hi f.lo), false)
  | .w1c => (putBits old f.hi f.lo (bitsOf old f.hi f.lo - (bitsOf old f.hi f.lo &&& bitsOf v f.hi f.lo)), false)
  | .w1s => (putBits old f.hi f.lo (bitsOf old f.hi f.lo ||| bitsOf v f.hi f.lo), false)
  | .rw =>
    let differs := bitsOf v f.hi f.lo != bitsOf old f.hi f.lo
    let blocked := g.bar.isSome || g.stop || (g.run && g.runBit != some f.lo)
    if blocked then (old, differs) else (putBits old f.hi f.lo (bitsOf v f.hi f.lo), false)
  | _ => (old, false)

/-- All fields after a write, and whether some changed value was held back. -/
def fieldsWrite (g : Gate) (v : Nat) : List FieldD → Nat → Nat × Bool
  | [], old => (old, false)
  | f :: t, old =>
    let r := fieldWrite g f old v
    let q := fieldsWrite g v t r.1
    (q.1, r.2 || q.2)

/-- The cause recorded when a write carried changed values that were held back (R71). -/
def Gate.cause (g : Gate) : Nat :=
  match g.bar with
  | some c => c
  | none => if g.stop then 2 else 0

/-- A refused write is counted, latched and flagged (R71). -/
def State.refuse (s : State) (q : Req) (cause off : Nat) : State :=
  ((s.bump R.SYS_REFUSED_COUNT).setReg R.SYS_REFUSED_ADDR (w32 (q.id * 2 ^ 24 + cause * 2 ^ 21 + off))).raise
    F.SYS_INT_STATUS.REFUSED

/-- Registers that a requester works with and that hold no configuration: their writes are no configuration writes of R55
(log 9). -/
def isWorking (off : Nat) : Bool :=
  let o := off % 0x10000
  match off / 0x10000 with
  | 0 => o = 0x40 || decide (0x48 ≤ o)
  | 2 => (decide (0x20 ≤ o) && decide (o < 0x28)) || (decide (0x100 ≤ o) && decide (o < 0x180)) || decide (0x300 ≤ o)
  | 3 => true
  | 5 => (decide (0x20 ≤ o) && decide (o < 0x28)) || (decide (0x100 ≤ o) && decide (o < 0x180))
  | 7 => (decide (0x20 ≤ o) && decide (o < 0x28)) || (decide (0x100 ≤ o) && decide (o < 0x180))
  | 8 => (decide (0x20 ≤ o) && decide (o < 0x28)) || (decide (0x100 ≤ o) && decide (o < 0x180))
  | 9 => (decide (0x30 ≤ o) && decide (o < 0x38)) || (decide (0x100 ≤ o) && decide (o < 0x180))
  | 10 => (decide (0x40 ≤ o) && decide (o < 0x48)) || (decide (0x100 ≤ o) && decide (o < 0x180))
  | 11 => (decide (0x40 ≤ o) && decide (o < 0x64)) || (decide (0x80 ≤ o) && decide (o < 0x180))
  | 12 => (decide (0x20 ≤ o) && decide (o < 0x28)) || o = 0x2C || (decide (0x40 ≤ o) && decide (o < 0x180))
  | 13 => (decide (0x20 ≤ o) && decide (o < 0x28)) || (decide (0x100 ≤ o) && decide (o < 0x180))
  | 14 => decide (0x40 ≤ o)
  | 17 => (decide (0x20 ≤ o) && decide (o < 0x2C)) || decide (0x60 ≤ o)
  | 18 => true
  | 19 => true
  | _ => false

/-- The requester holds the recovery role (R524). -/
def State.isHolder (s : State) (q : Req) : Bool := decide (q.id = s.err.holder)

/-- The level a core runs at: 0 P, 1 S, 2 K (R381). -/
def Core.pl (k : Core) : Nat := k.status.toNat % 4

/-- A core runs with DET set (R399). -/
def Core.det (k : Core) : Bool := k.status.toNat.testBit 5

/-- The requester runs with DET set. -/
def State.reqDet (s : State) : Req → Bool
  | .host => false
  | .core c => (s.core c).det

/-- The requester is at S level (or is the host or the Keeper Core). -/
def State.reqS (s : State) : Req → Bool
  | .host => true
  | .core c => (s.core c).pl != 0

/-- Why the mode bars a configuration write to a block: the cause of R71, or none (R55, R69, R524). -/
def State.configBar (s : State) (q : Req) (block : Nat) : Option Nat :=
  match s.sys.mode with
  | .recovery => if s.isHolder q then none else some 4
  | .keep | .boot | .takeover | .lockdown | .dormant => some 3
  | .provision => if block = 0 || block = 16 || block = 17 then none else some 3
  | _ => none

/-- Blocks whose writes by the host or a Supervisor are refused in M5 and journalled elsewhere (R69, R496). -/
def isJournalBlock (block : Nat) : Bool :=
  block = 5 || (decide (7 ≤ block) && decide (block ≤ 13))

/-- The high word whose latch a read of this low word sets, for 64-bit values held in two plain registers (R22). -/
def latchesHi (off : Nat) : Bool :=
  off = R.MBX_HOST_VAL_LO || off = R.XNG_POST_VAL_LO || off = R.CAP_RELEASE_LO || off = R.ALM_DEC_SEQ_LO
    || off = R.ALM_DEC_T0_LO || inArray off R.TIM_CMP_LO 16 16 || inArray2 off R.PRF_CNT_LO 21 0x400 8 0x20
    || inArray off R.PRF_G_CNT_LO 32 0x20 || inArray2 off R.PRF_CNT_SNAP_LO 21 0x400 8 0x20
    || inArray off R.PRF_G_CNT_SNAP_LO 32 0x20 || inArray (netNorm off) R.NET_MACSEC_SCI_LO 16 8

/-- The latched high half of a requester (R22). -/
def State.latched (s : State) (q : Req) (off : Nat) : Word := mget 0 s.latch (bankKey q.id off)

/-- A requester's latch set. -/
def State.setLatch (s : State) (q : Req) (off : Nat) (v : Word) : State :=
  { s with latch := mset 0 s.latch (bankKey q.id off) v }

/-- Bits of a register that a read returns: not the WO fields, not reserved bits (R15, R16). -/
def readMask (fs : List FieldD) (v : Nat) : Nat :=
  fs.foldl (fun a f => if f.acc = .wo then a else a + bitsOf v f.hi f.lo * 2 ^ f.lo) 0

end Sys2Proof.Machine
end

