-- ==== Sys2Proof/Machine/Perf.lean ====
section
/-!
DEFINITION. Performance monitoring (chapter 21): event counters with their filters and overflow, the precise sampler,
counter presets. Freeze and snapshot, which need every gauge of the unit, stand in `RegBus`.
-/

namespace Sys2Proof.Machine

/-- Counting and selecting are stopped by a freeze (R600). -/
def State.frozen (s : State) : Bool := s.flag F.PRF_STATUS.FROZEN

/-- One counter at register offset `base` (its CTRL): 48 bits, wrapping; the wrap sets OVF, and for global counter `g` its
bit of PRF_G_OVF (R598). The count stands under the key of its LO register. -/
def State.perfStep (s : State) (base : Nat) (g : Option Nat) : State :=
  let v := (s.cnt (base + 0x10)).toNat + 1
  let s1 := s.setCnt (base + 0x10) (w64 (v % 2 ^ 48))
  if v = 2 ^ 48 then
    let s2 := s1.setFld ⟨base, 30, 30⟩ 1
    match g with
    | some n => s2.setFld ⟨R.PRF_G_OVF, n, n⟩ 1
    | none => s2
  else s1

/-- The address filter (R597). -/
def State.perfAddr (s : State) (base : Nat) (addr : Option Nat) : Bool :=
  !s.flag ⟨base, 26, 26⟩ ||
    match addr with
    | none => false
    | some a => decide (s.fld ⟨base + 8, 27, 0⟩ ≤ a / 4096) && decide (a / 4096 ≤ s.fld ⟨base + 12, 27, 0⟩)

/-- The requester filter (R597). -/
def State.perfReq (s : State) (base r : Nat) : Bool :=
  !s.flag ⟨base, 25, 25⟩ ||
    (r &&& s.fld ⟨base + 4, 15, 8⟩) = (s.fld ⟨base + 4, 7, 0⟩ &&& s.fld ⟨base + 4, 15, 8⟩)

/-- The privilege filter: PRIV holds K, S, P in [29:27] (R603). -/
def State.perfPriv (s : State) (base pl : Nat) : Bool := s.flag ⟨base, 27 + pl, 27 + pl⟩

/-- The class filter (R597). -/
def State.perfClass (s : State) (base cls : Nat) : Bool := s.flag ⟨base, 8 + cls, 8 + cls⟩

/-- Offset of core counter `k` of core `c`. -/
def coreCtr (c k : Nat) : Nat := R.PRF_CNT_CTRL + 0x400 * c + 0x20 * k

/-- Offset of global counter `k`. -/
def globalCtr (k : Nat) : Nat := R.PRF_G_CNT_CTRL + 0x20 * k

/-- Which filters apply to a core event (R596): privilege, class. -/
def coreFilters : Nat → Bool × Bool
  | 0x02 | 0x0A => (true, true)
  | 0x07 | 0x0B => (true, false)
  | _ => (false, false)

/-- A core counter counts one event of its core at level `pl` and instruction class `cls`. -/
def State.coreEventAt (s : State) (c ev pl cls k : Nat) : State :=
  let b := coreCtr c k
  if s.flag ⟨b, 31, 31⟩ && s.fld ⟨b, 23, 16⟩ = ev
      && (!(coreFilters ev).1 || s.perfPriv b pl) && (!(coreFilters ev).2 || s.perfClass b cls) then
    s.perfStep b none
  else s

/-- An event of a core (R596). -/
def State.coreEvent (s : State) (c ev pl cls : Nat) : State :=
  if s.frozen then s else (List.range 8).foldl (fun s k => s.coreEventAt c ev pl cls k) s

/-- `n` events of a core. -/
def State.coreEvents (s : State) (c ev pl cls : Nat) : Nat → State
  | 0 => s
  | n + 1 => (s.coreEvent c ev pl cls).coreEvents c ev pl cls n

/-- Which filters apply to a global event (R596): requester, address, class. -/
def globalFilters : Nat → Bool × Bool × Bool
  | 0x40 => (true, true, true)
  | 0x45 | 0x46 | 0x47 => (true, false, false)
  | 0x48 => (false, true, false)
  | _ => (false, false, false)

/-- A global counter counts one event. -/
def State.globalEventAt (s : State) (ev r : Nat) (addr : Option Nat) (cls k : Nat) : State :=
  let b := globalCtr k
  let f := globalFilters ev
  if s.flag ⟨b, 31, 31⟩ && s.fld ⟨b, 23, 16⟩ = ev
      && (!f.1 || s.perfReq b r) && (!f.2.1 || s.perfAddr b addr) && (!f.2.2 || s.perfClass b cls) then
    s.perfStep b (some k)
  else s

/-- An event of the Boulevard or of a shared block (R596). -/
def State.globalEvent (s : State) (ev r : Nat) (addr : Option Nat) (cls : Nat) : State :=
  if s.frozen then s else (List.range 32).foldl (fun s k => s.globalEventAt ev r addr cls k) s

/-! ## Precise sampling (R602) -/

/-- Offset of a sampler register of a core, from that of core 0. -/
def sampOff (r c : Nat) : Nat := r + 0x400 * c

/-- The 32 bytes of a sample. -/
def sampleRec (pc insn latency clk key flags cls : Nat) : List Byte :=
  leBytes 8 pc ++ leBytes 4 insn ++ leBytes 4 latency ++ leBytes 8 clk ++ leBytes 2 key
    ++ [BitVec.ofNat 8 flags, BitVec.ofNat 8 cls] ++ leBytes 4 0

/-- Address of the sample buffer of a core. -/
def State.sampBase (s : State) (c : Nat) : Nat :=
  s.fld (F.PRF_S_BASE_LO.ADDR_LO.at (0x400 * c)) * 32 + s.fld (F.PRF_S_BASE_HI.ADDR_HI.at (0x400 * c)) * 2 ^ 32

/-- `n` samples stand between the write index and the read index (R602). -/
def sampleFull (w r n : Nat) : Bool := (w + 2 ^ 32 - r) % 2 ^ 32 = n

/-- A due sample is written, or lost when the buffer is full; LATENCY is a free value, since the model keeps no pipeline
timing (log 6). -/
def State.sampleDue (s : State) (c : Nat) (pc : Nat) (insn : Word) (clk key flags cls : Nat) : State :=
  let s := s.bump (sampOff R.PRF_S_DUE c)
  let w := s.fld (F.PRF_S_WRITE.INDEX.at (0x400 * c))
  let n := s.fld (F.PRF_S_SIZE.N.at (0x400 * c))
  if sampleFull w (s.fld (F.PRF_S_READ.INDEX.at (0x400 * c))) n then s.bump (sampOff R.PRF_S_LOST c)
  else
    let lat := s.freeVal.toNat % 2 ^ 32
    let s := s.useFree.wrBytes (s.sampBase c + 32 * (w % n)) (sampleRec pc insn.toNat lat clk key flags cls)
    (s.setFld (F.PRF_S_WRITE.INDEX.at (0x400 * c)) (w + 1)).bump (sampOff R.PRF_S_WRITTEN c)

/-- A completed instruction at the level and class given is selected, and sampled when due. -/
def State.sampleIns (s : State) (c pl cls : Nat) (pc : Nat) (insn : Word) (clk key flags : Nat) : State :=
  if !s.frozen && s.flag (F.PRF_S_CTRL.S_EN.at (0x400 * c)) && bitOf (s.fld (F.PRF_S_CTRL.S_PRIV.at (0x400 * c))) pl
      && bitOf (s.fld (F.PRF_S_CTRL.S_CLASS.at (0x400 * c))) cls then
    let s := s.bump (sampOff R.PRF_S_SELECTED c)
    let r := (s.core c).sampleRun + 1
    let per := s.fld (F.PRF_S_PERIOD.PERIOD.at (0x400 * c))
    let s := s.setCore c { s.core c with sampleRun := if per ≤ r then 0 else r }
    if per ≤ r then s.sampleDue c pc insn clk key flags cls else s
  else s

/-- A write of COUNT_HI commits both halves of a preset: the low half is the word last written to COUNT_LO (R598). -/
def State.perfPreset (s : State) (base : Nat) (hi : Word) : State :=
  s.setCnt (base + 0x10) (w64 ((s.reg (base + 0x10)).toNat + (hi.toNat % 2 ^ 16) * 2 ^ 32))

/-- A SNAP copies the counter at `base` into its SNAP registers (R600). -/
def State.perfSnapOne (s : State) (base : Nat) : State :=
  let v := (s.cnt (base + 0x10)).toNat
  (s.setReg (base + 0x18) (w32 v)).setReg (base + 0x1C) (w32 (v / 2 ^ 32))

/-- A SNAP copies every counter (R600). -/
def State.perfSnapAll (s : State) : State :=
  let s := (List.range 32).foldl (fun s k => s.perfSnapOne (globalCtr k)) s
  (List.range 21).foldl (fun s c => (List.range 8).foldl (fun s k => s.perfSnapOne (coreCtr c k)) s) s

end Sys2Proof.Machine
end

