-- ==== Sys2Proof/Machine/Queue.lean ====
section
/-!
DEFINITION. Queues, mailboxes and locks (R445 to R459): push, pop, peek, flush, reset and gap markers with their counters,
backpressure and its pause frames (R91, R451, R452), posts and pops of mailboxes, and the lock registers.
-/

namespace Sys2Proof.Machine

/-! ## Modes and backpressure -/

/-- The modes in which watermarks raise backpressure (R91, R451). -/
def Mode.watermarks : Mode → Bool
  | .service | .shadow | .takeover | .degraded => true
  | _ => false

/-- A port at rest. -/
def portIdle : NetPort :=
  { refreshAt := none, pauseUntil := 0, holdFrom := none, tx := [], cur := none, curStamp := 0, sas := [],
    moduleIn := false, moduleOk := false, link := false, fecLock := false }

/-- A port's own state. -/
def State.port (s : State) (p : Nat) : NetPort := mget portIdle s.net p

/-- A port's own state stored. -/
def State.setPort (s : State) (p : Nat) (x : NetPort) : State := { s with net := mset portIdle s.net p x }

/-- A field of a port's window. -/
def State.pfld (s : State) (p : Nat) (f : Fld) : Nat := s.fld (f.at (netWin p))

/-- A one-bit field of a port's window. -/
def State.pflag (s : State) (p : Nat) (f : Fld) : Bool := s.flag (f.at (netWin p))

/-- The queue's own state. -/
def queueEmpty : Queue :=
  { entries := [], openPkt := false, midPop := false, resetting := false, flushWait := false, bp := false, trigs := [],
    head := 0, tail := 0, headCopy := 0, tailCopy := 0 }

/-- A queue. -/
def State.queue (s : State) (n : Nat) : Queue := mget queueEmpty s.rbt.queues n

/-- A queue stored. -/
def State.setQueue (s : State) (n : Nat) (q : Queue) : State :=
  { s with rbt := { s.rbt with queues := mset queueEmpty s.rbt.queues n q } }

/-- Entries held (LEVEL, R445). -/
def Queue.level (q : Queue) : Nat := q.entries.length

/-- Some queue that raises backpressure selects port `p` (R451). -/
def State.portBp (s : State) (p : Nat) : Bool :=
  s.rbt.queues.any fun x => x.2.bp && bitOf (s.tf TF.RBT.Queue.PORTS x.1) p

/-- Some queue that raises backpressure stalls stage A of the parser (R451). -/
def State.parserBp (s : State) : Bool :=
  s.rbt.queues.any fun x => x.2.bp && s.tflag TF.RBT.Queue.PARSER x.1

/-- The FLOW pins (R451): bit 0 FLOW0, bit 1 FLOW1. -/
def State.flowPins (s : State) : Nat :=
  b2n (s.rbt.queues.any fun x => x.2.bp && bitOf (s.tf TF.RBT.Queue.FLOW x.1) 0)
    + 2 * b2n (s.rbt.queues.any fun x => x.2.bp && bitOf (s.tf TF.RBT.Queue.FLOW x.1) 1)

/-! ## A port's transmit buffer -/

/-- Counter of a port. -/
def pcnt (r p : Nat) : Nat := r + netWin p

/-- A port counter rises by one. -/
def State.pbump (s : State) (p r : Nat) : State := s.bump (pcnt r p)

/-- Station address of a port (R96). -/
def State.station (s : State) (p : Nat) : Nat :=
  s.pfld p F.NET_STATION_LO.ADDR_LO + s.pfld p F.NET_STATION_HI.ADDR_HI * 2 ^ 32

/-- Time held by the timer up to now is added to TX_PAUSED_NS (R90). -/
def State.settleHold (s : State) (p : Nat) : State :=
  match (s.port p).holdFrom with
  | none => s
  | some t =>
    let ends := min s.now (s.port p).pauseUntil
    (s.setPort p { s.port p with holdFrom := none }).bumpBy (pcnt R.NET_TX_PAUSED_NS p) ((ends - t) * 5 / 6)

/-- TX_PAUSED_NS at this moment: a hold in progress counts up to now (R90). -/
def State.pausedNs (s : State) (p : Nat) : Nat := ((s.settleHold p).cnt (pcnt R.NET_TX_PAUSED_NS p)).toNat

/-- A frame waits and the timer holds it from now on. -/
def State.armHold (s : State) (p : Nat) : State :=
  let x := s.port p
  if !x.tx.isEmpty && x.cur.isNone && decide (s.now < x.pauseUntil) then s.setPort p { x with holdFrom := some s.now } else s

/-- A frame joins a port's transmit buffer (R92). -/
def State.txQueue (s : State) (p : Nat) (f : TxFrame) : State :=
  let s := s.settleHold p
  (s.setPort p { s.port p with tx := (s.port p).tx ++ [f] }).armHold p

/-- The frame is one of the Frame MAC's own pause frames, which only TX_PAUSE_SENT counts (R107). -/
def TxTag.isPause : TxTag → Bool
  | .pause _ => true
  | _ => false

/-- Frames of submitters in a list. -/
def submitted (l : List TxFrame) : Nat := (l.filter fun f => !f.tag.isPause).length

/-- The bytes of a pause frame (R87, R88). -/
def pauseBytes (station quanta : Nat) : List Byte :=
  beBytes 6 0x0180C2000001 ++ beBytes 6 station ++ beBytes 2 0x8808 ++ beBytes 2 1 ++ beBytes 2 quanta

/-- A pause frame joins the transmit buffer in its class (R91, R93). -/
def State.sendPause (s : State) (p quanta : Nat) : State := s.txQueue p ⟨1, pauseBytes (s.station p) quanta, .pause quanta⟩

/-- The port sends pause frames: by mode and TX_PAUSE_EN (R91), with its transmitter enabled, running and linked (R95). -/
def State.sendsPause (s : State) (p : Nat) : Bool :=
  s.sys.mode.watermarks && s.pflag p F.NET_CTRL.TX_PAUSE_EN && s.pflag p F.NET_CTRL.TX_EN && s.pflag p F.NET_CTRL.RUN
    && s.pflag p F.NET_STATUS.LINK

/-- The next refresh of R91 falls due, or none does. -/
def State.armRefresh (s : State) (p : Nat) : State :=
  s.setPort p { s.port p with refreshAt := some (s.now + s.pfld p F.NET_PAUSE.REFRESH * clkPerUs) }
def State.dropRefresh (s : State) (p : Nat) : State := s.setPort p { s.port p with refreshAt := none }

/-- A port's backpressure signal rises or falls: the pause frames of R91. While the port can send none, its refresh stays due. -/
def State.pauseEdge (s : State) (p : Nat) (up : Bool) : State :=
  if s.sendsPause p then
    if up then
      (s.sendPause p (s.pfld p F.NET_PAUSE.TIME)).armRefresh p
    else (s.sendPause p 0).dropRefresh p
  else if up then s.armRefresh p
  else s.dropRefresh p

/-- Ports whose backpressure changed between two states. -/
def State.pauseEdges (s old : State) : List Nat → State
  | [] => s
  | p :: t =>
    let s := if s.portBp p = old.portBp p then s else s.pauseEdge p (s.portBp p)
    s.pauseEdges old t

/-- Drive the targets of backpressure after it changed (R451): ports, and the FLOW pins. -/
def State.driveBp (s old : State) : State :=
  let s := s.pauseEdges old [0, 1, 2, 3, 4, 5]
  if s.flowPins = old.flowPins then s else s.emit (.flow s.flowPins)

/-- A bit of RBT_QEVENT set (R452). -/
def State.qEvent (s : State) (n : Nat) : State :=
  s.raise ⟨R.RBT_QEVENT + 4 * (n / 32), n % 32, n % 32⟩

/-- A queue's backpressure takes a level, with its flags when it rises (R451, R452); its targets are driven by the caller. -/
def State.raiseBp (s : State) (n : Nat) (up : Bool) : State :=
  if (s.queue n).bp = up then s
  else
    let s := s.setQueue n { s.queue n with bp := up }
    if up then (s.qEvent n).raise F.RBT_INT_STATUS.BP else s

/-- A queue raises or lowers backpressure, and its targets follow (R451). -/
def State.setBp (s : State) (n : Nat) (up : Bool) : State :=
  if (s.queue n).bp = up then s else (s.raiseBp n up).driveBp s

/-- The backpressure that a queue's level and watermarks ask for in a watermark mode (R451); none between them. -/
def State.wantsBp (s : State) (n : Nat) : Option Bool :=
  let lvl := (s.queue n).level
  let high := s.tf TF.RBT.Queue.HIGH n
  if high = 0 then some false
  else if high ≤ lvl then some true
  else if lvl ≤ s.tf TF.RBT.Queue.LOW n then some false
  else none

/-- Judge a queue's level against its watermarks (R451) or its single level (R452); `before` is LEVEL before. -/
def State.judgeLevel (s : State) (n before : Nat) : State :=
  if s.sys.mode.watermarks then
    match s.wantsBp n with
    | some up => s.setBp n up
    | none => s
  else
    let lvl := (s.queue n).level
    let l := s.tf TF.RBT.Queue.LEVEL_IRQ n
    if l != 0 && decide (before < l) && decide (l ≤ lvl) then (s.qEvent n).raise F.RBT_INT_STATUS.LEVEL else s

/-- A written queue entry (R451): its level is judged by the new watermarks, and each target moves once, from the state `o` before
the write. -/
def State.queueWritten (s o : State) (n : Nat) : State :=
  (if s.sys.mode.watermarks then
    (match s.wantsBp n with
     | some up => s.raiseBp n up
     | none => s)
   else s).driveBp o

/-! ## Access control and counters -/

/-- The bit of a PUSH or POP mask for a requester (R446, R461). -/
def agentBit (id : Nat) : Nat :=
  if id < 16 then 0 else if id < 20 then 1 else if id = 20 then 2 else if id = 24 then 3 else 4

/-- The agent may operate on the queue: EN is one and its bit is set (R446). -/
def State.mayPush (s : State) (n agent : Nat) : Bool :=
  s.tflag TF.RBT.Queue.EN n && bitOf (s.tf TF.RBT.Queue.PUSH n) (agentBit agent)

def State.mayPop (s : State) (n agent : Nat) : Bool :=
  s.tflag TF.RBT.Queue.EN n && bitOf (s.tf TF.RBT.Queue.POP n) (agentBit agent)

/-- Key of the q-th counter of a queue (R461). -/
def qCnt (n q : Nat) : Nat := tblCntKey 0x21 n q

/-- Entries the on-chip ring holds (R445). -/
def State.qChip (s : State) (n : Nat) : Nat := 2 ^ s.tf TF.RBT.Queue.CAP_LOG2 n

/-- Entries both rings hold (R445). -/
def State.qCap (s : State) (n : Nat) : Nat :=
  s.qChip n + (if s.tflag TF.RBT.Queue.SPILL n then 2 ^ s.tf TF.RBT.Queue.SPILL_LOG2 n else 0)

/-- Bytes of the place that entry number `p` of a queue has in the on-chip ring, or in the spill ring of DRAM (R445). -/
def State.chipPlace (s : State) (n p : Nat) : Nat := 32 * s.tf TF.RBT.Queue.BASE n + 32 * (p % s.qChip n)
def State.spillPlace (s : State) (n p : Nat) : Nat :=
  spillBase + s.tf TF.RBT.Queue.SPILL_BASE n * 65536 + 32 * (p % 2 ^ s.tf TF.RBT.Queue.SPILL_LOG2 n)

/-- The entry at place `i` from the head is written to its ring: on chip as far as that reaches, else to the spill ring
(R445; log 59). -/
def State.entryPut (s : State) (n i : Nat) : State :=
  let q := s.queue n
  match q.entries[i]? with
  | none => s
  | some e =>
    let p := q.head + i
    s.wrBytes (if i < s.qChip n then s.chipPlace n p else s.spillPlace n p) (leBytes 32 e.data.toNat)

/-- Entries of a queue written to its rings, from the head on. -/
def State.entryPutAll (s : State) (n : Nat) : State := (List.range (s.queue n).level).foldl (fun s i => s.entryPut n i) s

/-- The two copies of the pointers agree (R448). -/
def Queue.intact (q : Queue) : Bool := q.head = q.headCopy && q.tail = q.tailCopy

/-- A gap marker's 32 bytes (R450). -/
def markerData (count epoch n cause t : Nat) : Entry :=
  BitVec.ofNat 256 (count % 2 ^ 64 + epoch * 2 ^ 64 + n * 2 ^ 96 + cause * 2 ^ 104 + (t % 2 ^ 64) * 2 ^ 128)

/-- The journal entry to which the unit's own work now belongs: the latest, or, once the join image of that entry is taken, the one after
it, as the work that still waited then is in the image (R500). -/
def State.causeSeq (s : State) : Nat :=
  match s.xng.cut with
  | none => s.xng.eseq
  | some c => s.xng.eseq + b2n (c.1.eseq = s.xng.eseq)

/-- The journal entry that caused a push: that of the DET task whose core makes it, else the present one (R500). -/
def State.pushSeq (s : State) (agent : Nat) : Nat :=
  match (s.core agent).task with
  | some t => if agent < 20 && (s.core agent).det then t.eseq else s.causeSeq
  | none => s.causeSeq

/-- A gap marker (R450). -/
def State.marker (s : State) (n cause count : Nat) : QEntry :=
  { data := markerData count s.epoch n cause s.gt, first := false, last := false, pktEnd := true, marker := true,
    eseq := s.causeSeq }

/-- A marker placed in a trigger queue is passed over there and then: it submits nothing (R450). -/
def State.passMarker (s : State) (n : Nat) : State :=
  if s.tf TF.RBT.Queue.MODE n = 2 then s.bump (qCnt n 12) else s

/-- A queue reset begins: every entry is lost, one gap marker takes their place, a waiting flush is dropped (R448, R449). The report
of a mismatch carries the lost count above the queue number in WHERE (log 59). -/
def State.resetQueue (s : State) (n cause : Nat) : State :=
  let q := s.queue n
  let lost := q.level
  let s1 := s.bumpBy (qCnt n 8) lost
  let s2 := if lost = 0 then s1 else (s1.bump (qCnt n 6)).passMarker n
  let s3 := s2.setQueue n
    { q with entries := if lost = 0 then [] else [s.marker n cause lost], openPkt := false, midPop := false,
             resetting := true, flushWait := false, tail := q.head + b2n (lost != 0) }
  let s4 := (s3.entryPut n 0).judgeLevel n lost
  if cause = 0 then
    ((s4.bump R.RBT_U_INTEGRITY_RESETS).raise F.RBT_INT_STATUS.INTEGRITY).detect 0x07 (n + lost * 2 ^ 16) 42
  else s4

/-- A trigger queue: a complete packet pushed is a trigger (R437, R438). -/
def State.triggers (s : State) (n : Nat) : Bool := s.tf TF.RBT.Queue.MODE n = 2

/-- The check of the pointer copies that every access makes (R448). -/
def State.checkQueue (s : State) (n : Nat) : State :=
  if (s.queue n).intact || (s.queue n).resetting then s else s.resetQueue n 0

/-- The part of a packet that is kept ahead of a flush's marker: the rest of a partly popped head packet (R449). -/
def headRest : List QEntry → List QEntry
  | [] => []
  | e :: t => if e.pktEnd then [e] else e :: headRest t

/-- A flush at a packet boundary (R449). -/
def State.flushNow (s : State) (n : Nat) : State :=
  let q := s.queue n
  let keep := if q.midPop then headRest q.entries else []
  let gone := q.level - keep.length
  let q' := { q with flushWait := false }
  if gone = 0 then s.setQueue n q'
  else
    let s1 := ((s.bumpBy (qCnt n 7) gone).bump (qCnt n 6)).passMarker n
    ((s1.setQueue n { q' with entries := keep ++ [s.marker n 2 gone], tail := q.head + keep.length + 1,
                              tailCopy := q.headCopy + keep.length + 1 }).entryPut n keep.length).judgeLevel n q.level

/-- The entry feeds a DET task: it is a descriptor, or pushes a packet of a trigger queue, whose class runs on Stream
Engines or has DET set (R45; log 10 for plain queues). -/
def State.feedsDet (s : State) (n : Nat) (e : Entry) : Bool :=
  let cls (c : Nat) : Bool :=
    s.flag (F.RBT_CLASS.DET.at (8 * c)) || (s.fld (F.RBT_CLASS.CORES.at (8 * c)) % 65536 != 0)
  match s.tf TF.RBT.Queue.MODE n with
  | 1 => cls ((e.toNat >>> 152) % 16)
  | 2 => cls (((s.tword T.RBT.Template n 4).toNat >>> 24) % 16)
  | _ => false

/-- Append an entry, with its marks and the packet it opens or closes (R437); `cause` is the journal entry behind it. -/
def State.appendEntry (s : State) (n cause : Nat) (e : Entry) (first last : Bool) : State :=
  let q := s.queue n
  -- FIRST while a packet is open closes it where it stands
  let cut := first && q.openPkt
  let s := if (first && q.openPkt) || (last && !first && !q.openPkt) then s.bump (qCnt n 11) else s
  let closed : List QEntry :=
    if cut then
      match q.entries.reverse with
      | [] => []
      | x :: r => ({ x with pktEnd := true } :: r).reverse
    else q.entries
  let q1 : Queue := { q with
    entries := closed
    openPkt := if cut then false else q.openPkt
    midPop := if cut && q.entries.isEmpty then false else q.midPop
    trigs := if cut && s.triggers n then q.trigs ++ [cause] else q.trigs }
  let s := s.setQueue n q1
  let s := if cut && q1.flushWait then s.flushNow n else s
  let q2 := s.queue n
  let before := q2.level
  let ends := last || (!first && !q2.openPkt)
  let s := if before ≥ s.qChip n then s.bump (qCnt n 10) else s
  let s := (s.setQueue n { q2 with
    entries := q2.entries ++ [⟨e, first, last, ends, false, cause⟩]
    openPkt := !ends
    tail := q2.tail + 1, tailCopy := q2.tailCopy + 1
    trigs := if ends && s.triggers n then q2.trigs ++ [cause] else q2.trigs }).bump (qCnt n 1)
  let s := (s.entryPut n before).judgeLevel n before
  if ends && (s.queue n).flushWait then s.flushNow n else s

/-- Push an entry: the new state and the RESULT of R426. -/
def State.push (s : State) (n agent : Nat) (e : Entry) (first last : Bool) : State × Nat :=
  let s := (s.checkQueue n).bump (qCnt n 0)
  if !s.mayPush n agent then (s.bump (qCnt n 4), 4)
  else if (s.queue n).resetting then (s.bump (qCnt n 3), 3)
  else if s.qCap n ≤ (s.queue n).level then
    let s := s.bump (qCnt n 2)
    (if s.feedsDet n e then s.detect 0x24 n agent else s, 1)
  else (s.appendEntry n (s.pushSeq agent) e first last, 0)

/-- The head entry under a pop or peek: the RESULT of R426 and the entry delivered. -/
def State.peekEntry (s : State) (n agent : Nat) : Nat × Option QEntry :=
  if !s.mayPop n agent then (4, none)
  else if (s.queue n).resetting then (3, none)
  else match (s.queue n).entries with
    | [] => (1, none)
    | e :: _ => (if e.marker then 2 else 0, some e)

/-- Remove the head entry. -/
def State.dropHead (s : State) (n : Nat) : State :=
  let q := s.queue n
  match q.entries with
  | [] => s
  | e :: t =>
    let s := (s.setQueue n { q with
        entries := t, midPop := !e.pktEnd, head := q.head + 1, headCopy := q.headCopy + 1 }).bump (qCnt n 5)
    -- the oldest spilled entry moves to the place that is free
    (s.entryPut n (s.qChip n - 1)).judgeLevel n q.level

/-- Pop: the new state, the RESULT and the entry delivered (R426). -/
def State.pop (s : State) (n agent : Nat) : State × Nat × Option QEntry :=
  let s := s.checkQueue n
  let r := s.peekEntry n agent
  match r.2 with
  | none => (s, r.1, none)
  | some e => (s.dropHead n, r.1, some e)

/-- Peek: as pop, leaving the entry (R425). -/
def State.peek (s : State) (n agent : Nat) : State × Nat × Option QEntry :=
  let s := s.checkQueue n
  let r := s.peekEntry n agent
  (s, r.1, r.2)

/-- The status word of R426. -/
def queueStatus (level result : Nat) (e : Option QEntry) : DWord :=
  w64 ((min level 65535) * 2 ^ 32
    + (match e with | some x => b2n x.first * 2 ^ 9 + b2n x.last * 2 ^ 8 | none => 0) + result)

/-! ## Notices -/

/-- An engine pushes a notice, with neither FIRST nor LAST (R437, log 28): pushed or refused, and the RESULT; a refusal as full or during a reset is fault 0x24 (R45). -/
def State.pushNotice (s : State) (n agent : Nat) (e : Entry) : State × Nat :=
  let r := s.push n agent e false false
  if r.2 = 3 ∨ (r.2 = 1 ∧ !s.feedsDet n e) then (r.1.detect 0x24 n agent, r.2) else r

/-! ## Commands on queues -/

/-- RBT_QCMD flush (R449). -/
def State.flushCmd (s : State) (n : Nat) : State :=
  let s := s.checkQueue n
  let q := s.queue n
  if q.resetting then s
  else if q.openPkt then s.setQueue n { q with flushWait := true }
  else s.flushNow n

/-- A queue reset completes (R448): the copies of the pointers agree again. -/
def State.resetDone (s : State) (n : Nat) : State :=
  let q := s.queue n
  if q.resetting then
    s.setQueue n { q with resetting := false, headCopy := q.head, tailCopy := q.tail }
  else s

/-! ## Mailboxes (R453 to R456) -/

/-- A mailbox. -/
def State.box (s : State) (m : Nat) : Mbox := mget ⟨[], []⟩ s.rbt.boxes m

/-- A mailbox stored. -/
def State.setBox (s : State) (m : Nat) (b : Mbox) : State :=
  { s with rbt := { s.rbt with boxes := mset ⟨[], []⟩ s.rbt.boxes m b } }

/-- The mailbox accepts posts from the agent (R453). -/
def mayPost (m agent : Nat) : Bool :=
  if m < 20 then decide (agent < 21) || agent = 24
  else if m = 20 then (decide (16 ≤ agent) && decide (agent < 20)) || agent = 24
  else if m < 23 then decide (16 ≤ agent) && decide (agent < 21)
  else m = 23 && agent = 25

/-- Doorbell bits of a mailbox set. -/
def State.ringBell (s : State) (m bit : Nat) : State := s.raise ⟨R.MBX_DB + 0x40 * m, bit, bit⟩

/-- The MSI-X vector raised by a mailbox's set and unmasked doorbell bits (R610). -/
def State.bellVector (s : State) (m : Nat) : State :=
  if (s.reg (R.MBX_DB + 0x40 * m) &&& s.reg (R.MBX_MASK + 0x40 * m)) ≠ 0 then
    (if m = 21 then s.msix 0 else if m = 22 then s.msix 1 else s)
  else s

/-- Post a value with a doorbell bit: the new state and the result of R427 (R454). -/
def State.post (s : State) (m agent : Nat) (v : DWord) (bit : Nat) : State × Nat :=
  if !mayPost m agent then (s, 4)
  else if 24 ≤ bit then (((s.ringBell m bit).bump (R.MBX_SIGNALS + 0x40 * m)).bellVector m, 0)
  else if 16 ≤ (s.box m).msgs.length then (s.bump (R.MBX_FULL + 0x40 * m), 1)
  else
    let b := s.box m
    let s := s.setBox m { msgs := b.msgs ++ [⟨v, agent, bit⟩],
                          posters := if b.posters.contains agent then b.posters else b.posters ++ [agent] }
    (((s.ringBell m bit).bump (R.MBX_POSTS + 0x40 * m)).bellVector m, 0)

/-- The agent that reads a mailbox (R453). -/
def boxReader (m agent : Nat) : Bool :=
  if m < 21 then agent = m else if m < 23 then agent = 24 else decide (16 ≤ agent) && decide (agent < 20)

/-- The MSI-X vector of the host's empty interrupt, raised while a bit is set and allowed (R456, R610). -/
def State.emptyVector (s : State) (a : Nat) : State :=
  if a = 24 ∧ (s.banked a R.MBX_EMPTY_STATUS &&& s.banked a R.MBX_EMPTY_EN) ≠ 0 then s.msix 2 else s

/-- Set the bit of mailbox `m` in each poster's MBX_EMPTY_STATUS (R456). -/
def State.markEmpty (s : State) (m : Nat) : List Nat → State
  | [] => s
  | a :: t =>
    let v := s.banked a R.MBX_EMPTY_STATUS
    let s := s.setBanked a R.MBX_EMPTY_STATUS (w32 (putBits v.toNat m m 1))
    (s.emptyVector a).markEmpty m t

/-- Remove the oldest message (R455, R456). -/
def State.boxPop (s : State) (m agent : Nat) : State :=
  if !boxReader m agent then s.bump R.MBX_U_BAD_POP
  else match (s.box m).msgs with
    | [] => s
    | _ :: t =>
      let s := s.bump (R.MBX_POPS + 0x40 * m)
      if t.isEmpty then (s.setBox m ⟨[], []⟩).markEmpty m (s.box m).posters
      else s.setBox m { s.box m with msgs := t }

/-! ## Locks (R458, R459) -/

/-- Owner of a lock plus one, or 0 when it is free. -/
def State.lock (s : State) (n : Nat) : Nat := mget 0 s.rbt.locks n

/-- A lock's owner stored. -/
def State.setLock (s : State) (n x : Nat) : State :=
  { s with rbt := { s.rbt with locks := mset 0 s.rbt.locks n x } }

/-- A read of MBX_LOCKn (R458): the new state and the word read. -/
def State.lockRead (s : State) (n agent : Nat) : State × Word :=
  if s.lock n = 0 then ((s.setLock n (agent + 1)).bump R.MBX_U_LOCK_ACQUIRED, 0)
  else ((s.bump R.MBX_U_LOCK_BUSY).globalEvent 0x47 agent none 4, w32 (2 ^ 31 + (s.lock n - 1)))

/-- A write of MBX_LOCKn (R459): zero by the owner releases; any other agent's write is counted. -/
def State.lockWrite (s : State) (n agent : Nat) (v : Word) : State :=
  if s.lock n = agent + 1 then
    if v = 0 then (s.setLock n 0).bump R.MBX_U_LOCK_RELEASED else s
  else s.bump R.MBX_U_LOCK_BAD_RELEASE

/-- MBX_LOCK_FORCE by the recovery Supervisor (R459). -/
def State.lockForce (s : State) (n : Nat) : State :=
  if s.lock n = 0 then s else (s.setLock n 0).bump R.MBX_U_LOCK_FORCED

/-- A core reset releases every lock the core holds (R459). -/
def State.releaseLocks (s : State) (agent : Nat) : State :=
  { (s.bumpBy R.MBX_U_LOCK_RESET_RELEASED (s.rbt.locks.filter fun x => x.2 = agent + 1).length) with
    rbt := { s.rbt with locks := s.rbt.locks.filter fun x => x.2 ≠ agent + 1 } }

end Sys2Proof.Machine
end

