-- ==== Sys2Proof/Machine/Tasks.lean ====
section
/-!
DEFINITION. The Roundabout: task descriptors, classes and credits, serial keys, the ready store, dispatch, cancellation,
the end and the abort of tasks (R435 to R444).
-/

namespace Sys2Proof.Machine

/-! ## Cores as the Roundabout sees them -/

/-- A core is named out in SYS_DEGRADED (R440, R532). -/
def State.namedOut (s : State) (c : Nat) : Bool :=
  if c < 16 then bitOf (s.fld F.SYS_DEGRADED.SE) c
  else if c < 20 then bitOf (s.fld F.SYS_DEGRADED.SV) (c - 16) else false

/-- A core is idle: in WAIT and not yet given another task (R441). -/
def State.idle (s : State) (c : Nat) : Bool := (s.core c).run = .wait && (s.core c).given = none

/-! ## Descriptors -/

/-- A field of a 32-byte descriptor: `n` bytes at `off` (R435). -/
def descField (e : Entry) (off n : Nat) : Nat := (e.toNat >>> (8 * off)) % 2 ^ (8 * n)

/-- The task a descriptor spells. -/
def taskOf (e : Entry) (eseq : Nat) : Task :=
  let k := descField e 0x10 2
  { handler := descField e 0 8, arg := w64 (descField e 8 8), nokey := bitOf k 15, key := k % 4096,
    pref := descField e 0x12 1, cls := descField e 0x13 1, prio := descField e 0x14 1, tag := descField e 0x16 2,
    eseq := eseq, headAt := none, det := false }

/-- Cores of a class (RBT_CLASSn.CORES). -/
def State.classCores (s : State) (c : Nat) : Nat := s.fld (F.RBT_CLASS.CORES.at (8 * c))

/-- The class is deterministic (RBT_CLASSn.DET). -/
def State.classDet (s : State) (c : Nat) : Bool := s.flag (F.RBT_CLASS.DET.at (8 * c))

/-- A descriptor is invalid (R436). -/
def State.badDesc (s : State) (e : Entry) : Bool :=
  let t := taskOf e 0
  t.handler % 4 != 0 || decide (2 ^ 40 ≤ t.handler)
    || bitsOf (descField e 0x10 2) 14 12 != 0 || descField e 0x15 1 != 0 || descField e 0x18 8 != 0
    || !(t.pref = 0xFF || decide (t.pref < 20)) || decide (15 < t.prio) || decide (15 < t.cls)
    || s.classCores t.cls = 0

/-! ## Credits and the ready store -/

/-- Tasks of a class given to a core or running on one. -/
def State.classRunning (s : State) (c : Nat) : Nat :=
  s.cores.foldl (fun a x =>
    a + b2n (match x.2.task with | some t => decide (t.cls = c) | none => false)
      + b2n (match x.2.given with | some t => decide (t.cls = c) | none => false)) 0

/-- Ready tasks of a class. -/
def State.classReady (s : State) (c : Nat) : Nat := (s.rbt.ready.filter fun t => t.cls = c).length

/-- Tasks that hold a credit of a class (R440). -/
def State.creditsHeld (s : State) (c : Nat) : Nat := s.classRunning c + s.classReady c

/-- Free credits of a class (RBT_CREDITn.FREE). -/
def State.creditsFree (s : State) (c : Nat) : Nat := s.fld (F.RBT_CREDIT.LIMIT.at (8 * c)) - s.creditsHeld c

/-- Room for a further ready task: the store of 2,048, then the task spill ring (R439). -/
def State.readyRoom (s : State) : Bool := decide (s.rbt.ready.length < 2048 + 2 ^ s.fld F.RBT_TSPILL.LOG2)

/-! ## Serial keys -/

/-- A serial key's state. -/
def State.keyState (s : State) (k : Nat) : KeyState := mget ⟨false, 0xFF⟩ s.rbt.keys k

/-- A serial key's state stored. -/
def State.setKey (s : State) (k : Nat) (x : KeyState) : State :=
  { s with rbt := { s.rbt with keys := mset ⟨false, 0xFF⟩ s.rbt.keys k x } }

/-- No earlier task of the list has the same key (R441). -/
def firstOfKey (t : Task) (earlier : List Task) : Bool :=
  t.nokey || !(earlier.any fun u => !u.nokey && decide (u.key = t.key))

/-- Stamp the tasks that come to the head of their key now. -/
def stampHeads (now : Nat) (busy : Nat → Bool) : List Task → List Task → List Task
  | _, [] => []
  | earlier, t :: rest =>
    let atHead := firstOfKey t earlier && (t.nokey || !busy t.key)
    (if atHead then (match t.headAt with | some _ => t | none => { t with headAt := some now }) else { t with headAt := none })
      :: stampHeads now busy (t :: earlier) rest

/-- The ready store with its heads stamped. -/
def State.stamp (s : State) : State :=
  { s with rbt := { s.rbt with ready := stampHeads s.now (fun k => (s.keyState k).running) [] s.rbt.ready } }

/-- Affinity wait of a task's key in Boulevard clk (R441, R461): that of key 0 for a NOKEY task. -/
def State.affWait (s : State) (t : Task) : Nat :=
  s.tf TF.RBT.Key.AFF_WAIT (if t.nokey then 0 else t.key) * 300

/-! ## Taking descriptors and triggers -/

/-- Key of the q-th counter of a class (R461). -/
def clsCnt (c q : Nat) : Nat := tblCntKey 0x24 c q

/-- The descriptor that spells a task. -/
def descOf (t : Task) : Entry :=
  BitVec.ofNat 256 (t.handler + t.arg.toNat * 2 ^ 64 + (b2n t.nokey * 2 ^ 15 + t.key) * 2 ^ 128 + t.pref * 2 ^ 144
    + t.cls * 2 ^ 152 + t.prio * 2 ^ 160 + t.tag * 2 ^ 176)

/-- A ready task beyond the on-chip store is written to the next place of the task spill ring in DRAM (R439). -/
def State.spillTask (s : State) (t : Task) : State :=
  let a := spillBase + s.fld F.RBT_TSPILL.BASE * 65536
    + 32 * ((s.cnt R.RBT_U_TSPILLED).toNat % 2 ^ s.fld F.RBT_TSPILL.LOG2)
  (s.wrBytes a (leBytes 32 (descOf t).toNat)).bump R.RBT_U_TSPILLED

/-- A valid task enters the ready store (R438, R439). -/
def State.makeReady (s : State) (t : Task) : State :=
  let full := decide (2048 ≤ s.rbt.ready.length)
  let s := if full then s.spillTask t else s
  let s := { s.bump (clsCnt t.cls 0) with rbt := { s.rbt with ready := s.rbt.ready ++ [t] } }
  let s := if s.readyRoom then s else s.raise F.RBT_INT_STATUS.TSPILL_FULL
  s.stamp

/-- The descriptor at hand is taken: invalid and discarded, or made ready (R436, R438). -/
def State.takeDesc (s : State) (e : Entry) (eseq : Nat) : State :=
  let s := s.bump R.RBT_U_TAKEN
  if s.badDesc e then (s.bump R.RBT_U_INVALID).raise F.RBT_INT_STATUS.INVALID
  else s.makeReady (taskOf e eseq)

/-- A descriptor can be taken now: its class has a free credit and the store has room (R438); a CLASS above 15 names no class and no
credit (R436). -/
def State.canTake (s : State) (e : Entry) : Bool :=
  (decide (15 < (taskOf e 0).cls) || decide (0 < s.creditsFree (taskOf e 0).cls)) && s.readyRoom

/-- The template descriptor of a trigger queue (R437). -/
def State.template (s : State) (n : Nat) : Entry :=
  BitVec.ofNat 256 (([0, 1, 2, 3, 4, 5, 6, 7].map fun w => (s.tword T.RBT.Template n w).toNat * 2 ^ (32 * w)).foldl (· + ·) 0)

/-- The Roundabout can take something from queue `n` in this clk (R438). -/
def State.takeable (s : State) (n : Nat) : Bool :=
  let q := s.queue n
  s.tflag TF.RBT.Queue.EN n && !q.resetting &&
    match s.tf TF.RBT.Queue.MODE n with
    | 1 => s.mayPop n 42 && (match q.entries with | [] => false | e :: _ => e.marker || s.canTake e.data)
    | 2 => decide (0 < q.trig) && s.canTake (s.template n)
    | _ => false

/-- The next queue in round-robin order from which something can be taken, tried from `n` for `fuel` queues. -/
def State.nextTake (s : State) (n : Nat) : Nat → Option Nat
  | 0 => none
  | fuel + 1 => if s.takeable (n % 256) then some (n % 256) else s.nextTake (n + 1) fuel

/-- TASK_SUBMIT: take the head of a submission queue whose turn it is (R437, R438, R450). -/
def State.taskSubmit (s : State) : State :=
  match s.nextTake (s.rbt.rr + 1) 256 with
  | none => s
  | some n =>
    if s.tf TF.RBT.Queue.MODE n ≠ 1 then s
    else
      let s := { s with rbt := { s.rbt with rr := n } }.checkQueue n
      if (s.queue n).resetting then s else
      match (s.queue n).entries with
      | [] => s
      | e :: _ =>
        let s := s.dropHead n
        if e.marker then s.bump (qCnt n 12) else s.takeDesc e.data e.eseq

/-- TASK_TRIGGER: take a pending trigger of a trigger queue whose turn it is (R437, R438). -/
def State.taskTrigger (s : State) : State :=
  match s.nextTake (s.rbt.rr + 1) 256 with
  | none => s
  | some n =>
    if s.tf TF.RBT.Queue.MODE n ≠ 2 then s
    else
      let s := { s with rbt := { s.rbt with rr := n } }
      let q := s.queue n
      let s := s.setQueue n { q with trigs := q.trigs.drop 1 }
      s.takeDesc (s.template n) (q.trigs.headD 0)

/-! ## Dispatch (R441) -/

/-- Core a of R441: the core that last ran the key, or the preferred core; 0xFF for none. -/
def State.coreA (s : State) (t : Task) : Nat :=
  if t.nokey then t.pref
  else if (s.keyState t.key).last = 0xFF then t.pref else (s.keyState t.key).last

/-- Cores of the class mask that are idle and not named out, lowest first. -/
def State.eligible (s : State) (t : Task) : List Nat :=
  (List.range 20).filter fun c => bitOf (s.classCores t.cls) c && s.idle c && !s.namedOut c

/-- The core a ready task is given, or none in this clk; the flag tells a dispatch after the affinity wait. -/
def State.chooseCore (s : State) (t : Task) : Option (Nat × Bool) :=
  match t.headAt with
  | none => none
  | some h =>
    match s.eligible t with
    | [] => none
    | c :: cs =>
      let a := s.coreA t
      if (c :: cs).contains a then some (a, false)
      else if a = 0xFF || !bitOf (s.classCores t.cls) a || s.namedOut a then some (c, false)
      else if decide (s.affWait t ≤ s.now - h) then some (c, true)
      else none

/-- A task is given to a core: its key runs, the core is no longer idle. -/
def State.giveTask (s : State) (t : Task) (c : Nat) (late : Bool) : State :=
  let hit := decide (s.coreA t = c)
  let s := (s.bump (clsCnt t.cls 1)).globalEvent 0x45 c none 0
  let s := if hit then s.bump (clsCnt t.cls 7)
    else if late then (s.bump (clsCnt t.cls 8)).globalEvent 0x46 c none 0 else s
  let s := s.setCore c { s.core c with given := some { t with det := s.classDet t.cls } }
  let s := if c < 16 then s.pllRequest else s
  if t.nokey then s else s.setKey t.key { running := true, last := c }

/-- The ready store without the task at place `i`. -/
def State.dropReady (s : State) (i : Nat) : State :=
  { s with rbt := { s.rbt with ready := s.rbt.ready.eraseIdx i } }

/-- Places of the ready tasks by priority from 15 down, then in the order made ready. -/
def dispatchOrder (ready : List Task) : List Nat :=
  (List.range 16).flatMap fun p =>
    (List.range ready.length).filter fun i => match ready[i]? with | some t => t.prio = 15 - p | none => false

/-- Try the places in order; the first task that finds a core is given to it. -/
def State.dispatchOne (s : State) : List Nat → Option State
  | [] => none
  | i :: t =>
    match s.rbt.ready[i]? with
    | none => s.dispatchOne t
    | some k =>
      match s.chooseCore k with
      | none => s.dispatchOne t
      | some (c, late) => some ((s.giveTask k c late).dropReady i)

/-- The dispatch step of one Boulevard clk (R441): tasks are given until none finds a core; a key that starts to run takes
its later tasks from the head. -/
def State.dispatchAll (s : State) : Nat → State
  | 0 => s
  | fuel + 1 =>
    match s.dispatchOne (dispatchOrder s.rbt.ready) with
    | none => s
    | some s' =>
      -- tasks not at the head in this clk stay back until the next
      { s' with rbt := { s'.rbt with ready := stampHeads s'.now (fun k => (s'.keyState k).running) [] s'.rbt.ready } }.dispatchAll
        fuel

/-- TASK_DISPATCH: stamp the heads and run the dispatch step. -/
def State.dispatch (s : State) : State := s.stamp.dispatchAll 20

/-! ## Cancellation, end and abort -/

/-- RBT_CANCEL (R442). -/
def State.cancel (s : State) (key tag : Nat) (allTags : Bool) : State :=
  let hit (t : Task) : Bool := !t.nokey && decide (t.key = key) && (allTags || decide (t.tag = tag))
  let gone := s.rbt.ready.filter hit
  if gone.isEmpty then s.bump R.RBT_U_CANCEL_NONE
  else
    let s := gone.foldl (fun s t => s.bump (clsCnt t.cls 2)) s
    { s with rbt := { s.rbt with ready := s.rbt.ready.filter fun t => !hit t } }.stamp

/-- The key of an ended task is released. -/
def State.releaseKey (s : State) (t : Task) : State :=
  if t.nokey then s else s.setKey t.key { s.keyState t.key with running := false }

/-- A task ends with SYSCALL 0 (R384, R443): its credit returns, its key is released, the core is in WAIT; the watchdog is
kicked (R519). -/
def State.endTask (s : State) (c : Nat) : State :=
  let k := s.core c
  let s := s.setCore c { k with run := .wait, waitAt := s.now, task := none, kickAt := s.now, wdogWarned := false }
  match k.task with
  | none => s
  | some t => ((s.bump (clsCnt t.cls 3)).releaseKey t).stamp

/-- The task of a core ends as aborted (R443): its credit returns and its key is released. -/
def State.abortTask (s : State) (c : Nat) : State :=
  let k := s.core c
  let s := s.setCore c { k with task := none, given := none }
  let s := match k.task with
    | none => s
    | some t => (s.bump (clsCnt t.cls 4)).releaseKey t
  let s := match k.given with
    | none => s
    | some t => (s.bump (clsCnt t.cls 4)).releaseKey t
  s.stamp

/-- The core's clock runs: that of a Stream Engine needs the PLL (R34). -/
def State.clocked (s : State) (c : Nat) : Bool := decide (16 ≤ c) || s.sys.pll = .running

/-- A given task begins on its core (R383), once its clock runs. -/
def State.beginTask (s : State) (c : Nat) : State :=
  let k := s.core c
  match (if s.clocked c then k.given else none), k.run with
  | some t, .wait =>
    let det := decide (c < 16) || t.det
    s.setCore c
      { k with
        run := .run, given := none, task := some t, pc := w64 t.handler
        s := mset 0 [] 1 t.arg, v := [], p := [], fflags := 0
        setbase := 0, bound := false, setctx := 0, ttag := 0
        epoch := w32 s.epoch, taskarg := t.arg, taskkey := w32 (if t.nokey then 0 else t.key)
        status := w32 (b2n det * 32 + (bitsOf k.status.toNat 2 2) * 4) }
  | _, _ => s

end Sys2Proof.Machine
end

