-- ==== Sys2Proof/Machine/Ic.lean ====
section
/-!
DEFINITION. The interrupt controller (R465 to R479): source inputs, pending and held bits, priority and presentation,
claim and complete.
-/

namespace Sys2Proof.Machine

/-! ## Sources -/

/-- Key of a source. -/
def srcKeyOf : IcRef → Nat
  | .priv c n => c.val * 64 + n.toNat
  | .shared n => 0x10000 + n.toNat

/-- Offset of a source's CTRL register (R483), by key. -/
def srcCtrl (key : Nat) : Nat :=
  if key < 0x10000 then 0x010000 + 0x400 * (key / 64) + 8 * (key % 64) else 0x018000 + 8 * (key - 0x10000)

/-- A source at rest. -/
def srcIdle : Src := ⟨false, false, false, false, 0, 0, 0⟩

/-- A source's state. -/
def State.src (s : State) (key : Nat) : Src := mget srcIdle s.ic.srcs key

/-- A source's state stored. -/
def State.setSrc (s : State) (key : Nat) (x : Src) : State :=
  { s with ic := { s.ic with srcs := mset srcIdle s.ic.srcs key x } }

/-- Fields of a source's CTRL and MOD registers. -/
def State.srcFld (s : State) (key hi lo : Nat) : Nat := s.fld ⟨srcCtrl key, hi, lo⟩
def State.srcEn (s : State) (key : Nat) : Bool := s.flag ⟨srcCtrl key, 31, 31⟩
def State.srcPrio (s : State) (key : Nat) : Nat := s.srcFld key 3 0
def State.srcSense (s : State) (key : Nat) : Nat := s.srcFld key 27 26
def State.srcCountN (s : State) (key : Nat) : Nat := s.fld ⟨srcCtrl key + 4, 31, 24⟩
def State.srcTimeUs (s : State) (key : Nat) : Nat := s.fld ⟨srcCtrl key + 4, 15, 0⟩

/-- Core a source requests (R465): its own for a private source, TARGET for a shared one. -/
def State.srcCore (s : State) (key : Nat) : Nat := if key < 0x10000 then key / 64 else s.srcFld key 25 21

/-- An INT_STATUS register ANDed with its INT_EN (R467). -/
def State.irq (s : State) (st en : Nat) : Bool := (s.reg st &&& s.reg en) ≠ 0

/-- Level on a private source's input (R466). -/
def State.privLevel (s : State) (c n : Nat) : Bool :=
  match n with
  | 0 => s.irq (R.MBX_DB + 0x40 * c) (R.MBX_MASK + 0x40 * c)
  | 1 => (s.banked c R.MBX_EMPTY_STATUS &&& s.banked c R.MBX_EMPTY_EN) ≠ 0
  | 2 => (List.range 8).any fun k => s.flag ⟨R.PRF_CNT_CTRL + 0x400 * c + 0x20 * k, 30, 30⟩
  | 3 => (s.core c).wdogWarned
  | 4 => (s.core c).eccCorrected
  | _ => if 8 ≤ n ∧ n < 16 then bitOf (s.reg (R.IC_SWI_SET + 0x400 * c)).toNat (n - 8) else false

/-- Level on a shared source's input (R467). -/
def State.sharedLevel (s : State) (n : Nat) : Bool :=
  match n with
  | 0 => s.irq R.SYS_INT_STATUS R.SYS_INT_EN
  | 1 => s.irq R.ING_INT_STATUS R.ING_INT_EN
  | 2 => s.irq R.TIM_INT_STATUS R.TIM_INT_EN
  | 19 => s.irq R.GLD_INT_STATUS R.GLD_INT_EN
  | 20 => s.irq R.FLT_INT_STATUS R.FLT_INT_EN
  | 21 => s.irq R.OSC_INT_STATUS R.OSC_INT_EN
  | 22 => s.irq R.ISL_INT_STATUS R.ISL_INT_EN
  | 23 => s.irq R.ALM_INT_STATUS R.ALM_INT_EN
  | 24 => s.irq R.CAP_INT_STATUS R.CAP_INT_EN
  | 25 => s.irq R.ACC_INT_STATUS R.ACC_INT_EN
  | 26 => s.irq R.RBT_INT_STATUS R.RBT_INT_EN
  | 33 => s.irq (R.MBX_DB + 0x40 * 23) (R.MBX_MASK + 0x40 * 23)
  | 34 => s.irq R.XNG_INT_STATUS R.XNG_INT_EN
  | 35 => s.irq R.ERR_INT_STATUS R.ERR_INT_EN
  | 36 => s.irq R.UND_INT_STATUS R.UND_INT_EN
  | 37 => s.irq R.PRF_G_OVF R.PRF_G_OVF_EN
  | 38 => (s.reg R.HST_INT_STATUS &&& s.reg R.HST_INT_EN &&& ~~~(w32 (2 ^ 2 + 2 ^ 7))) ≠ 0
  | 39 => s.irq R.SEC_INT_STATUS R.SEC_INT_EN
  | _ =>
    if 3 ≤ n ∧ n < 19 then s.flag (F.TIM_CMP_CTRL.FIRED.at (16 * (n - 3)))
    else if 27 ≤ n ∧ n < 33 then s.irq (R.NET_INT_STATUS + netWin (n - 27)) (R.NET_INT_EN + netWin (n - 27))
    else if 64 ≤ n ∧ n < 320 then !(s.queue (n - 64)).entries.isEmpty
    else if 320 ≤ n ∧ n < 352 then bitOf (s.reg R.IC_SSWI_SET).toNat (n - 320)
    else false

/-- Level on a source's input. -/
def State.srcLevel (s : State) (key : Nat) : Bool :=
  if key < 0x10000 then s.privLevel (key / 64) (key % 64) else s.sharedLevel (key - 0x10000)

/-- PENDING of a source (R468): a level source's equals its input while it is not active. -/
def State.srcPending (s : State) (key : Nat) : Bool :=
  let x := s.src key
  if s.srcSense key = 0 then x.input && !x.active else x.pending

/-! ## Moderation (R472) -/

/-- The core waits in WAIT or WAITEV. -/
def Core.waiting (k : Core) : Bool :=
  match k.run with
  | .wait | .waitD .. | .waitQ .. => true
  | _ => false

/-- A held source is due for release. -/
def State.modDue (s : State) (key : Nat) : Bool :=
  let x := s.src key
  decide (s.srcCountN key ≤ x.events)
    || (s.srcTimeUs key != 0 && decide (s.srcTimeUs key * clkPerUs ≤ s.now - x.since))
    || (s.core (s.srcCore key)).waiting

/-- Release a held source if it is due. -/
def State.modRelease (s : State) (key : Nat) : State :=
  let x := s.src key
  if x.held && s.modDue key then
    (s.setSrc key { x with held := false, events := 0, since := 0 }).bump R.IC_U_MOD_RELEASES
  else s

/-- The input of a source is sampled (R468, R472): an edge sets PENDING or merges, an event is held under moderation. -/
def State.sample (s : State) (key : Nat) : State :=
  let x := s.src key
  let lvl := s.srcLevel key
  if lvl = x.input then s
  else
    let sense := s.srcSense key
    let event :=
      match sense with
      | 1 => lvl
      | 2 => !lvl
      | 3 => true
      | _ => lvl
    let wasPending := s.srcPending key
    let s1 := if event && sense != 0 && x.pending then s.bump R.IC_U_MERGED else s
    let x1 := { x with input := lvl, pending := if sense != 0 && event then true else x.pending }
    let s2 := s1.setSrc key x1
    if event && s.srcCountN key != 0 && (x.held || (!wasPending && s2.srcPending key)) then
      (s2.setSrc key { x1 with
        held := true, events := min (x.events + 1) 255, since := if x.held then x.since else s.now }).modRelease key
    else s2

/-! ## Priority and presentation (R470, R471) -/

/-- Highest PRIO among the sources active on a core, or none. -/
def State.runningPrio (s : State) (c : Nat) : Option Nat :=
  s.ic.srcs.foldl (fun a x =>
    if x.2.active && x.2.activeOn = c then
      match a with
      | none => some (s.srcPrio x.1)
      | some p => some (max p (s.srcPrio x.1))
    else a) none

/-- Sources active on a core. -/
def State.activeOn (s : State) (c : Nat) : Nat := (s.ic.srcs.filter fun x => x.2.active && x.2.activeOn = c).length

/-- Claim ID of a source as its core sees it (R465). -/
def claimId (key : Nat) : Nat := if key < 0x10000 then key % 64 else 64 + (key - 0x10000)

/-- A source is eligible for its core (R470). -/
def State.srcEligible (s : State) (key : Nat) : Bool :=
  let c := s.srcCore key
  s.srcEn key && s.srcPending key && !(s.src key).held
    && decide (s.fld (F.IC_THRESHOLD.LEVEL.at (0x400 * c)) ≤ s.srcPrio key)
    && (match s.runningPrio c with | none => true | some p => decide (p < s.srcPrio key))

/-- Keys of the sources eligible for a core. -/
def State.eligibleSrcs (s : State) (c : Nat) : List Nat :=
  (s.ic.srcs.map (·.1)).filter fun k => decide (s.srcCore k = c) && s.srcEligible k

/-- LAST of a core: the claim ID it last claimed, 0x3FF after reset. -/
def State.icLast (s : State) (c : Nat) : Nat := mget 0x3FF s.ic.last c

/-- Distance of a claim ID after LAST, in ascending order with wrap from 575 to 0 (R470). -/
def claimDist (last id : Nat) : Nat :=
  if last = 0x3FF then id else if last < id then id - last - 1 else id + 576 - last - 1

/-- The better of two eligible sources of one core. -/
def State.betterSrc (s : State) (last : Nat) (a b : Nat) : Nat :=
  if s.srcPrio a < s.srcPrio b then b
  else if s.srcPrio b < s.srcPrio a then a
  else if claimDist last (claimId b) < claimDist last (claimId a) then b else a

/-- The winner of R470. -/
def State.winner (s : State) (c : Nat) : Option Nat :=
  match s.eligibleSrcs c with
  | [] => none
  | k :: t => some (t.foldl (s.betterSrc (s.icLast c)) k)

/-- IE and EXL of a status word (R381). -/
def statusIe (st : Word) : Bool := st.toNat.testBit 2
def statusExl (st : Word) : Bool := st.toNat.testBit 3

/-- The controller presents an interrupt to a core (R471). -/
def State.presents (s : State) (c : Nat) : Bool :=
  (s.winner c).isSome && statusIe (s.core c).status && !statusExl (s.core c).status

/-! ## Claim and complete (R473, R474) -/

/-- A read of IC_CLAIM in the window of core `w`: the new state and the word read. -/
def State.claim (s : State) (q : Req) (w : Nat) : State × Word :=
  if q.id ≠ w then (s, 0x3FF)
  else
    let s := s.bump R.IC_U_CLAIM_READS
    match s.winner w with
    | none => (s.bump R.IC_U_SPURIOUS, 0x3FF)
    | some k =>
      let x := s.src k
      let word := w32 (2 ^ 31 + s.srcPrio k * 2 ^ 16 + claimId k)
      let s := s.setSrc k { x with active := true, activeOn := w, pending := false }
      let s := { s with ic := { s.ic with last := mset 0x3FF s.ic.last w (claimId k) } }
      (s.bump R.IC_U_CLAIMS, word)

/-- Key of the source a claim ID names for a core. -/
def srcOfClaim (w id : Nat) : Nat := if id < 64 then w * 64 + id else 0x10000 + (id - 64)

/-- A write of IC_COMPLETE in the window of core `w`. -/
def State.complete (s : State) (q : Req) (w : Nat) (v : Word) : State :=
  let id := v.toNat % 1024
  let s := s.bump R.IC_U_COMPLETE_WRITES
  let k := srcOfClaim w id
  let x := s.src k
  if q.id = w ∧ id < 576 ∧ x.active = true ∧ x.activeOn = w then
    (s.setSrc k { x with active := false, activeOn := 0 }).bump R.IC_U_COMPLETES
  else s.bump R.IC_U_BAD_COMPLETES

/-- EN of a source written to zero: PENDING and HELD clear (R479). -/
def State.srcDisable (s : State) (key : Nat) : State :=
  let x := s.src key
  s.setSrc key { x with pending := false, held := false, events := 0, since := 0 }

/-- A core reset clears ACTIVE on every source active on the core (R478). -/
def State.icCoreReset (s : State) (c : Nat) : State :=
  let hit (x : Nat × Src) : Bool := x.2.active && x.2.activeOn = c
  let s := s.bumpBy R.IC_U_RESET_CLEARED (s.ic.srcs.filter hit).length
  (s.ic.srcs.filter hit).foldl (fun s x => s.setSrc x.1 { s.src x.1 with active := false, activeOn := 0 }) s

/-- CTRL of a source as read (R483). -/
def State.srcCtrlWord (s : State) (key : Nat) : Word :=
  let x := s.src key
  w32 ((s.reg (srcCtrl key)).toNat - bitsOf (s.reg (srcCtrl key)).toNat 30 28 * 2 ^ 28
      - bitsOf (s.reg (srcCtrl key)).toNat 20 20 * 2 ^ 20
    + b2n (s.srcPending key) * 2 ^ 30 + b2n x.active * 2 ^ 29 + b2n x.held * 2 ^ 28 + b2n x.input * 2 ^ 20)

/-- IC_RUNNING of a core as read (R483). -/
def State.icRunning (s : State) (c : Nat) : Word :=
  w32 (s.icLast c * 2 ^ 16 + s.activeOn c % 64 * 2 ^ 8
    + (match s.runningPrio c with | none => 0 | some p => 2 ^ 31 + p))

/-- IC_PEND_LO (`hi` false) or IC_PEND_HI of a core as read. -/
def State.icPend (s : State) (c : Nat) (hi : Bool) : Word :=
  w32 ((s.ic.srcs.filter fun x => x.1 < 0x10000 && x.1 / 64 = c && s.srcPending x.1
      && decide ((x.1 % 64) / 32 = b2n hi)).foldl (fun a x => a + 2 ^ (x.1 % 32)) 0)

end Sys2Proof.Machine
end

