-- ==== Sys2Proof/Machine/Understory.lean ====
section
/-!
DEFINITION. The Understory (chapter 20): calendar and its commits, periodic wake and alarm, backup supply and charger,
the Ring Log and the wake watcher of R480.
-/

namespace Sys2Proof.Machine

/-! ## Calendar (R577 to R584) -/

/-- A year with 29 days in February (R577). -/
def isLeap (y : Nat) : Bool := y % 4 = 0 && (y % 100 != 0 || y % 400 = 0)

/-- Days of a month (R577). -/
def monthDays (y m : Nat) : Nat :=
  match m with
  | 2 => if isLeap y then 29 else 28
  | 4 | 6 | 9 | 11 => 30
  | _ => 31

/-- The second after a calendar value; the range ends at 2399-12-31 23:59:59 (R577, R581). -/
def Cal.next (c : Cal) : Cal :=
  if c.sec < 59 then { c with sec := c.sec + 1 }
  else if c.min < 59 then { c with sec := 0, min := c.min + 1 }
  else if c.hour < 23 then { c with sec := 0, min := 0, hour := c.hour + 1 }
  else
    let d := { c with sec := 0, min := 0, hour := 0, wday := (c.wday + 1) % 7 }
    if c.day < monthDays c.year c.month then { d with day := c.day + 1 }
    else if c.month < 12 then { d with day := 1, month := c.month + 1 }
    else if c.year < 2399 then { d with day := 1, month := 1, year := c.year + 1 }
    else { d with day := 1, month := 1, year := 2000 }

/-- The rollover of the calendar's range (R577). -/
def Cal.wraps (c : Cal) : Bool :=
  c.year = 2399 && c.month = 12 && c.day = 31 && c.hour = 23 && c.min = 59 && c.sec = 59

/-- A calendar value a commit accepts (R580). -/
def Cal.ok (c : Cal) : Bool :=
  decide (2000 ≤ c.year) && decide (c.year ≤ 2399) && decide (1 ≤ c.month) && decide (c.month ≤ 12)
    && decide (1 ≤ c.day) && decide (c.day ≤ monthDays c.year c.month) && decide (c.hour ≤ 23)
    && decide (c.min ≤ 59) && decide (c.sec ≤ 59) && decide (c.wday ≤ 6)

/-- Days from 2000-01-01 to January 1 of a year from 2000 on. -/
def daysToYear : Nat → Nat
  | 0 => 0
  | n + 1 => daysToYear n + (if isLeap (2000 + n) then 366 else 365)

/-- Days from January 1 to the first of month `m + 1` of year `y`. -/
def daysToMonth (y : Nat) : Nat → Nat
  | 0 => 0
  | m + 1 => daysToMonth y m + monthDays y (m + 1)

/-- Days from 2000-01-01 to a calendar date. -/
def Cal.days (c : Cal) : Nat := daysToYear (c.year - 2000) + daysToMonth c.year (c.month - 1) + (c.day - 1)

/-- Seconds from 2000-01-01 00:00:00 to a calendar value. -/
def Cal.seconds (c : Cal) : Nat := c.days * 86400 + c.hour * 3600 + c.min * 60 + c.sec

/-- The date `n` days after January 1 of year `y`, with fuel for the years and months passed. -/
def dateFrom (fuel y n : Nat) : Nat × Nat × Nat :=
  match fuel with
  | 0 => (y, 1, 1)
  | f + 1 =>
    let len := if isLeap y then 366 else 365
    if len ≤ n then dateFrom f (y + 1) (n - len)
    else
      let rec go (g m k : Nat) : Nat × Nat :=
        match g with
        | 0 => (m, k + 1)
        | h + 1 => if monthDays y m ≤ k then go h (m + 1) (k - monthDays y m) else (m, k + 1)
      let r := go 12 1 n
      (y, r.1, r.2)

/-- The calendar value `t` seconds after 2000-01-01 00:00:00, within the range of R577, with a weekday. -/
def calOfSeconds (t wday : Nat) : Cal :=
  let d := dateFrom 401 2000 (t / 86400)
  { year := d.1, month := d.2.1, day := d.2.2, wday := wday, hour := t % 86400 / 3600, min := t % 3600 / 60, sec := t % 60 }

/-- Every selected alarm field equals the calendar (R584). -/
def State.alarmMatch (s : State) (c : Cal) : Bool :=
  let m := s.fld F.UND_RTC_ALARM.MATCH
  s.flag F.UND_RTC_ALARM.EN && m != 0
    && (!bitOf m 3 || s.fld F.UND_RTC_ALARM.DAY = c.day) && (!bitOf m 2 || s.fld F.UND_RTC_ALARM.HOUR = c.hour)
    && (!bitOf m 1 || s.fld F.UND_RTC_ALARM.MIN = c.min) && (!bitOf m 0 || s.fld F.UND_RTC_ALARM.SEC = c.sec)

/-! ## The wake watcher (R480, R481) -/

/-- A wake-watcher slot's field. -/
def State.slotFld (s : State) (k hi lo : Nat) : Nat := s.fld ⟨R.IC_WAKE_SLOT + 4 * k, hi, lo⟩

/-- An event of a wake source: every armed, enabled slot that names it counts one, saturating;
in M0 only codes 1 to 3 are sensed (R480, R646). -/
def State.wakeEvent (s : State) (code : Nat) : State :=
  if s.und.armed && (s.sys.mode != .keep || decide (code ≤ 3)) then
    (List.range 16).foldl (fun s k =>
      if s.slotFld k 31 31 = 1 ∧ s.slotFld k 28 24 = code then
        s.setFld ⟨R.IC_WAKE_SLOT + 4 * k, 7, 0⟩ (min 255 (s.slotFld k 7 0 + 1))
      else s) s
  else s

/-- Wake sources whose condition holds now (R480, R481): a record-grade sensor that fires, both DUTY lines low, a Crossing signal,
link energy on MGT0 or MGT1. -/
def State.wakeHolds (s : State) : List Nat :=
  (if (List.range 7).any fun n => bitOf (s.fld F.SEC_TAMPER_LATCH.NOW) n && bitsOf (s.fld F.SEC_TAMPER_GRADE.GRADE) (2 * n + 1) (2 * n) = 0
    then [3] else [])
  ++ (if s.fld F.XNG_STATUS.PEER_DUTY = 0 then [6] else [])
  ++ (if s.flag F.XNG_STATUS.LINK then [7] else [])
  ++ ([4, 5].filter fun p => match s.net.find? (fun x => x.1 = p) with | some x => x.2.link | none => false).map (· + 4)

/-- Arming sets each slot's EVENTS to zero, and FIRED, which shows the slots fired since arming (R484); a condition that already
holds counts as one event (R481). -/
def State.armWatcher (s : State) : State :=
  let s := (List.range 16).foldl (fun s k => s.setFld ⟨R.IC_WAKE_SLOT + 4 * k, 7, 0⟩ 0) (s.setFld F.IC_WAKE_CAUSE.FIRED 0)
  let s := { s with und := { s.und with armed := true } }
  s.wakeHolds.foldl (fun s c => s.wakeEvent c) s

/-- Disarming, on entry to M1 Boot (R481). -/
def State.disarmWatcher (s : State) : State := { s with und := { s.und with armed := false } }

/-- A slot has reached COUNT_N events and has not fired since arming. -/
def State.slotDue (s : State) (k : Nat) : Bool :=
  s.und.armed && s.slotFld k 31 31 = 1 && decide (s.slotFld k 15 8 ≤ s.slotFld k 7 0)
    && !bitOf (s.fld F.IC_WAKE_CAUSE.FIRED) k

/-- A slot fires: the first firing latches FIRST and VALID and writes a Ring Log record (R481). -/
def State.slotFire (s : State) (k : Nat) : State :=
  let first := s.fld F.IC_WAKE_CAUSE.FIRED = 0
  let s := s.raise ⟨R.IC_WAKE_CAUSE, k, k⟩
  if first then
    ((s.setFld F.IC_WAKE_CAUSE.FIRST k).raise F.IC_WAKE_CAUSE.VALID).ringLog 0x0006 0xFF
      ([BitVec.ofNat 8 k, BitVec.ofNat 8 (s.slotFld k 28 24)] ++ leBytes 8 (packCal s.und.cal s.subsec s.und.invalid))
  else s

/-! ## Calendar events -/

/-- The alarm is judged when the calendar takes a new value (R584). -/
def State.judgeAlarm (s : State) (old : Cal) : State :=
  if s.alarmMatch s.und.cal && !s.alarmMatch old then (s.raise F.UND_INT_STATUS.ALARM).wakeEvent 2 else s

/-- The second rolls over (R577): the date, the weekday, the range, seconds on BAT (R574) and the alarm. -/
def State.calTick (s : State) : State :=
  let old := s.und.cal
  let s := { s with und := { s.und with cal := old.next, secAt := s.und.secAt + 1200000000 } }
  let s := if old.wraps then (s.raise F.UND_RTC_STATUS.RANGE).ringLog 0x0005 0xFF [] else s
  let s := if s.fld F.UND_STATUS.SOURCE = 1 then
      s.setFld F.UND_BAT_SECONDS.S (min (2 ^ 32 - 1) (s.fld F.UND_BAT_SECONDS.S + 1)) else s
  s.judgeAlarm old

/-- A whole second has passed since the present second began. -/
def State.secondDue (s : State) : Bool := decide (1200000000 ≤ s.now - s.und.secAt)

/-- A read of UND_RTC_SUBSEC: the count, and the calendar latched for the requester (R578). -/
def State.calRead (s : State) (q : Req) : State × Word :=
  ({ s with und := { s.und with
      calLatch := mset 0 s.und.calLatch q.id (packCal s.und.cal s.subsec false) } }, w32 s.subsec)

/-- UND_RTC_TIME, DATE and WDAY as a requester reads them (R578): from its latch, zero before its first latch. -/
def State.calTimeWord (s : State) (q : Req) : Word :=
  let p := mget 0 s.und.calLatch q.id
  w32 (bitsOf p 31 27 * 2 ^ 16 + bitsOf p 26 21 * 2 ^ 8 + bitsOf p 20 15)

def State.calDateWord (s : State) (q : Req) : Word :=
  let p := mget 0 s.und.calLatch q.id
  if p = 0 then 0 else w32 ((bitsOf p 49 41 + 2000) * 2 ^ 16 + bitsOf p 40 37 * 2 ^ 8 + bitsOf p 36 32)

def State.calWdayWord (s : State) (q : Req) : Word := w32 (bitsOf (mget 0 s.und.calLatch q.id) 52 50)

/-- The calendar takes a committed value: the sub-second count and prescaler become zero, INVALID clears (R577, R579). -/
def State.calSet (s : State) (c : Cal) : State :=
  let old := s.und.cal
  let s := (s.setFld F.UND_RTC_STATUS.INVALID 0)
  ({ s with und := { s.und with cal := c, secAt := s.now, invalid := false } }).judgeAlarm old

/-- The value a requester has staged, with the seconds of its commit (R579). -/
def State.staged (s : State) (q : Req) (sec : Nat) : Cal :=
  let d := (s.banked q.id R.UND_RTC_STG_DATE).toNat
  let t := (s.banked q.id R.UND_RTC_STG_TIME).toNat
  { year := bitsOf d 27 16, month := bitsOf d 11 8, day := bitsOf d 4 0, wday := bitsOf t 26 24,
    hour := bitsOf t 20 16, min := bitsOf t 13 8, sec := sec }

/-- A write of UND_RTC_SET_SEC commits the staged calendar, or is refused whole (R579, R580). -/
def State.calCommit (s : State) (q : Req) (v : Word) : State :=
  let c := s.staged q (v.toNat % 64)
  if c.ok then
    let old := packCal s.und.cal s.subsec s.und.invalid
    let s := s.calSet c
    s.ringLog 0x0004 q.id (leBytes 8 old ++ leBytes 8 (packCal s.und.cal s.subsec s.und.invalid))
  else
    ((s.raise F.UND_RTC_STATUS.WERR).raise F.UND_INT_STATUS.WERR).refuse q 1 R.UND_RTC_SET_SEC

/-! ## Periodic wake (R585) -/

/-- Period in Boulevard clk: 2^(EXP - 10) s. -/
def State.wakePeriod (s : State) : Nat := 2 ^ s.fld F.UND_WAKE_PERIOD.EXP * 1171875

/-- A period has passed since counting started or since the last firing. -/
def State.wakeDue (s : State) : Bool :=
  s.flag F.UND_WAKE_PERIOD.EN && decide (s.wakePeriod ≤ s.now - s.und.wakeAt)

/-- The periodic wake fires. -/
def State.wakeFire (s : State) : State :=
  ({ s with und := { s.und with wakeAt := s.und.wakeAt + s.wakePeriod } }.raise F.UND_INT_STATUS.PERIODIC).wakeEvent 1

/-! ## Backup supply (R573 to R575) -/

/-- Floor of BAT or CAP in mV (R594). -/
def State.batFloor (s : State) : Nat := 2000 + 50 * s.fld F.UND_BACKUP_CTRL.BAT_FLOOR
def State.capFloor (s : State) : Nat := 2000 + 50 * s.fld F.UND_BACKUP_CTRL.CAP_FLOOR

/-- The supply to run from (0 mains, 1 BAT, 2 CAP) and LOW, from the present one and the voltages (R573). -/
def State.chooseSupply (s : State) (mains : Bool) (bat cap : Nat) : Nat × Bool :=
  let batOk := decide (s.batFloor ≤ bat)
  let capOk := decide (s.capFloor ≤ cap)
  let src := s.fld F.UND_STATUS.SOURCE
  if mains then (0, false)
  else if !batOk && !capOk then (if cap < bat then 1 else if bat < cap then 2 else if src = 0 then
      (if s.flag F.UND_BACKUP_CTRL.BACKUP_PREF then 1 else 2) else src, true)
  else if src = 1 then (if batOk then 1 else 2, false)
  else if src = 2 then (if capOk then 2 else 1, false)
  else if s.flag F.UND_BACKUP_CTRL.BACKUP_PREF then (if batOk then 1 else 2, false)
  else (if capOk then 2 else 1, false)

/-- Voltages shown in UND_BACKUP_STATUS, in 10 mV. -/
def State.showVolts (s : State) (bat cap : Nat) : State :=
  (s.setFld F.UND_BACKUP_STATUS.BAT (min 4095 (bat / 10))).setFld F.UND_BACKUP_STATUS.CAP (min 4095 (cap / 10))

/-- Judge availability and voltages, and switch (R573, R574). -/
def State.backupSwitch (s : State) (mains : Bool) (bat cap : Nat) : State :=
  let r := s.chooseSupply mains bat cap
  let old := s.fld F.UND_STATUS.SOURCE
  let s := if r.2 && s.fld F.UND_STATUS.LOW = 0 then s.raise F.UND_INT_STATUS.LOW else s
  let s := s.setFld F.UND_STATUS.LOW (b2n r.2)
  if r.1 = old then s
  else
    let s := ((s.setFld F.UND_STATUS.SOURCE r.1).showVolts bat cap).raise F.UND_INT_STATUS.SWITCH
    let s := if r.1 = 0 then s else s.setFld F.UND_STATUS.CHARGING 0
    let s := (s.bump R.UND_U_SWITCHES).ringLog 0x0003 0xFF
      ([BitVec.ofNat 8 old, BitVec.ofNat 8 r.1] ++ leBytes 2 bat ++ leBytes 2 cap)
    if old = 0 ∧ r.1 = 1 ∧ (s.cnt R.UND_FIRST_BAT).toNat.testBit 63 = false then
      s.setCnt R.UND_FIRST_BAT (w64 (2 ^ 63 + packCal s.und.cal s.subsec s.und.invalid))
    else s

/-- UND_FIRST_BAT_CLR with the key, in M2 and M3 (R574). -/
def State.firstBatClear (s : State) (q : Req) (v : Word) : State :=
  if s.sys.mode ≠ .provision ∧ s.sys.mode ≠ .commission then s.refuse q 3 R.UND_FIRST_BAT_CLR
  else if bitsOf v.toNat 31 16 ≠ 0x4642 then s
  else
    let s := s.ringLog 0x0013 q.id (leBytes 8 (s.cnt R.UND_FIRST_BAT).toNat ++ leBytes 4 (s.fld F.UND_BAT_SECONDS.S))
    (s.setCnt R.UND_FIRST_BAT 0).setFld F.UND_BAT_SECONDS.S 0

/-- Target voltage of the charger in mV (R594). -/
def State.chargeTarget (s : State) : Nat := 2500 + 100 * s.fld F.UND_BACKUP_CTRL.CHG_V

/-- The charger at a CAP voltage (R575). -/
def State.chargeLevel (s : State) (cap : Nat) : State :=
  if s.flag F.UND_BACKUP_CTRL.CHG_EN && s.fld F.UND_STATUS.SOURCE = 0 then
    let full :=
      if s.chargeTarget ≤ cap then true
      else if s.und.chargeFull && decide (s.chargeTarget - 100 < cap) then true else false
    { s with und := { s.und with chargeFull := full } }.setFld F.UND_STATUS.CHARGING (b2n (!full))
  else s.setFld F.UND_STATUS.CHARGING 0

/-- The charger after a write of UND_BACKUP_CTRL. -/
def State.chargeCtl (s : State) : State :=
  s.setFld F.UND_STATUS.CHARGING
    (b2n (s.flag F.UND_BACKUP_CTRL.CHG_EN && s.fld F.UND_STATUS.SOURCE = 0 && !s.und.chargeFull))

/-! ## Ring Log (R586 to R592, R653) -/

/-- One bit of the reflected CRC-32C. -/
def crc32cBit (c : Nat) : Nat := if c % 2 = 1 then (c / 2) ^^^ 0x82F63B78 else c / 2

/-- CRC-32C over bytes (R587; the usual preset and inversion of the polynomial's standard, log 11). -/
def crc32c (l : List Byte) : Nat :=
  (l.foldl (fun c b =>
    let c := c ^^^ b.toNat
    crc32cBit (crc32cBit (crc32cBit (crc32cBit (crc32cBit (crc32cBit (crc32cBit (crc32cBit c)))))))) 0xFFFFFFFF) ^^^ 0xFFFFFFFF

/-- The 64 bytes of a record with its SEQ (R587). -/
def RingRec.bytes (r : RingRec) (seq : Nat) : List Byte :=
  let body := leBytes 8 seq ++ leBytes 8 r.gridTime ++ leBytes 8 r.cal ++ leBytes 4 r.epoch ++ leBytes 2 r.type
    ++ [BitVec.ofNat 8 r.origin, BitVec.ofNat 8 (b2n r.interrupted * 4 + b2n r.calInvalid * 2 + b2n r.noGrid)] ++ r.data
  body ++ leBytes 4 (crc32c body)

/-- A place that holds no record reads as erased bytes (log 12). -/
def ringErased : List Byte := List.replicate 64 0xFF

/-- Bytes of a Ring Log place. -/
def State.ringPlace (s : State) (p : Nat) : List Byte := mget ringErased s.mram.ring p

/-- Write a record at the next SEQ (R586). -/
def State.ringPut (s : State) (r : RingRec) : State :=
  let seq := s.mram.rlNext
  let s := { s with mram := { s.mram with
      rlNext := seq + 1, ring := mset ringErased s.mram.ring (seq % 65536) (r.bytes seq) } }
  (s.bump R.UND_U_RL_WRITTEN).setCnt R.UND_RL_HEAD (w64 seq)

/-- The record at the head of the pending buffer is written; when room returns after a loss, one record carries the number
lost, which stays counted until there is room (R589). Records wait while a clear runs (R592). -/
def State.ringWrite (s : State) : State :=
  if s.und.clearing.isSome then s
  else match s.und.pending with
    | [] => s
    | r :: t =>
      let s := { s with und := { s.und with pending := t } }.ringPut r
      if s.und.lost = 0 || 248 ≤ t.length then s
      else
        let n := s.und.lost
        { s with und := { s.und with lost := 0 } }.ringLog 0x0012 0xFF (leBytes 8 n)

/-- UND_RL_DATA takes a place's words (R590). -/
def State.ringCopy (s : State) (place : Nat) : State :=
  let b := s.ringPlace (place % 65536)
  let s := s.setFld F.UND_RL_INDEX.PLACE place
  (List.range 16).foldl (fun s i => s.setReg (R.UND_RL_DATA + 4 * i) (w32 (leAt b (4 * i) 4))) s

/-- A program record from the requester's staged bytes (R591). -/
def State.ringAppend (s : State) (q : Req) (v : Word) : State :=
  let type := v.toNat % 65536
  if !(match q with | .host => true | .core c => decide (16 ≤ c.val) && decide (c.val < 20) && s.reqS q) then
    s.refuse q 4 R.UND_RL_APP_CMD
  else if type < 0x8000 then s.refuse q 1 R.UND_RL_APP_CMD
  else s.ringLog type q.id
    ((List.range 7).flatMap fun i => leBytes 4 (s.banked q.id (R.UND_RL_APP_DATA + 4 * i)).toNat)

/-- The erase of a clear completes: the clear record stands at place 0 with SEQ 0, and the intent is cleared (R592). -/
def State.ringClearDone (s : State) : State :=
  match s.und.clearing with
  | none => s
  | some data =>
    let r : RingRec :=
      { gridTime := s.gt, noGrid := !s.tim.running, cal := packCal s.und.cal s.subsec s.und.invalid,
        calInvalid := s.und.invalid, epoch := s.epoch, type := 0x00FF, origin := 20, interrupted := s.und.clearCut,
        data := (data ++ List.replicate 28 0).take 28, tick := s.undTick }
    let s := s.bump R.UND_U_RL_REQUESTED
    let s := { s with
      mram := { s.mram with rlNext := 0, ring := [] }
      und := { s.und with clearing := none, clearCut := false } }
    s.ringPut r

end Sys2Proof.Machine
end

