-- ==== Sys2Proof/Machine/Journal.lean ====
section
/-!
DEFINITION. The arrival journal's entries (R495, R496), the digests of lockstep (R502, R503), and mode transitions as
every block asks for them (R57, R60).
-/

namespace Sys2Proof.Machine

/-! ## The Pair as the blocks see it -/

/-- The unit is one of a Pair (XNG_CTRL.PAIR_EN). -/
def State.paired (s : State) : Bool := s.flag F.XNG_CTRL.PAIR_EN

/-- XNG_STATUS.STATE (R501, R513): 0 alone, 1 active, 2 active unpaired, 3 joining, 4 catching up, 5 in step,
6 isolated, 7 diverged, 8 takeover, 9 handover. -/
def State.xngState (s : State) : Nat := s.fld F.XNG_STATUS.STATE

/-- The unit compares digests in STATE `n`: it is active with its peer in step, hands over, or is in step (log 16). -/
def lockstepState (n : Nat) : Bool := n = 1 || n = 5 || n = 9

/-- Out of lockstep, digests that still await the other unit's are given up: the unit's own count as timed out (log 28). -/
def State.dropDigests (s : State) : State :=
  { s.bumpBy R.XNG_U_DIGESTS_TIMED_OUT s.xng.own.length with xng := { s.xng with own := [], peer := [] } }

/-- A new STATE; its change is flagged (R513). -/
def State.setXngState (s : State) (n : Nat) : State :=
  if s.xngState = n then s
  else
    let s := if lockstepState n then s else s.dropDigests
    (s.setFld F.XNG_STATUS.STATE n).raise F.XNG_INT_STATUS.STATE

/-- The unit's journal is the Pair's: it holds duty, or recovers in M9 having held it (R495, R517, R525, log 28). -/
def State.sendsJournal (s : State) : Bool :=
  s.paired && s.flag F.XNG_STATUS.LINK && !s.flag F.XNG_STATUS.STOPPED
    && (s.sys.duty || (s.sys.mode = .recovery && (s.sys.preRecovery = .service || s.sys.preRecovery = .degraded)))

/-- A message is sent over the Crossing in a frame of its own, kept until it is acknowledged (R487, log 28). -/
def State.crossSend (s : State) (kind : Nat) (payload : List Byte) : State :=
  if s.flag F.XNG_STATUS.LINK && !s.flag F.XNG_STATUS.STOPPED then
    let n := s.xng.txSeq + 1
    { s.emit (.crossing kind payload) with
      xng := { s.xng with txSeq := n, unacked := s.xng.unacked ++ [(n, kind, payload)] } }
  else s

/-- The unit builds its own journal: not as a shadow unless isolated (R496, R510), and in a takeover from ts on (R506). -/
def State.ownJournal (s : State) : Bool :=
  match s.sys.mode with
  | .shadow => s.sys.isolated
  | .takeover => s.xng.tsDone
  | .recovery => s.sys.preRecovery != .shadow || s.sys.isolated || s.xng.via508
  | _ => true

/-- The mode admits ingest from the unit's own ports (R55), until a power failure has stopped the engines (R65 step 6). -/
def State.ingests (s : State) : Bool :=
  !s.sys.coresOff && match s.sys.mode with
  | .commission | .service | .degraded | .test => true
  | .shadow | .takeover | .recovery => s.ownJournal
  | _ => false

/-- The mode runs detection (R55), until a power failure has stopped the engines (R65 step 6). -/
def State.detects (s : State) : Bool :=
  !s.sys.coresOff && match s.sys.mode with
  | .commission | .service | .shadow | .takeover | .degraded | .test => true
  | _ => false

/-! ## Journal entries -/

/-- The 32-byte header of an entry (R495). -/
def entryHeader (eseq kind port len source jseq time : Nat) : List Byte :=
  leBytes 8 eseq ++ leBytes 1 kind ++ leBytes 1 port ++ leBytes 2 len ++ leBytes 2 source ++ leBytes 2 0
    ++ leBytes 8 jseq ++ leBytes 8 time

/-- An entry enters the journal: ESEQ rises by one, and the unit holding duty sends it (R495). -/
def State.journal (s : State) (kind port source jseq time : Nat) (payload : List Byte) : State :=
  let n := s.xng.eseq + 1
  let s := { s with xng := { s.xng with eseq := n } }
  if s.sendsJournal then
    ((s.crossSend 5 (entryHeader n kind port payload.length source jseq time ++ payload)).bump
      R.XNG_U_ENTRIES_SENT).setCnt R.XNG_SENT (w64 n)
  else s

/-- A journalled write (R495 KIND 2, R496). -/
def State.journalWrite (s : State) (q off : Nat) (value : List Byte) : State :=
  if s.ownJournal then s.journal 2 0 0 0 s.tim.mark (leBytes 4 off ++ leBytes 1 q ++ leBytes 3 0 ++ value) else s

/-- A journalled push (R495 KIND 4). -/
def State.journalPush (s : State) (n : Nat) (e : Entry) : State :=
  if s.ownJournal then s.journal 4 0 0 0 s.tim.mark (leBytes 1 n ++ leBytes 7 0 ++ leBytes 32 e.toNat) else s

/-- A queue named by an enabled carry entry (R499). -/
def State.carriedQueue (s : State) (n : Nat) : Bool :=
  (List.range 64).any fun i => s.tflag TF.XNG.Carry.EN i && s.tflag TF.XNG.Carry.QUEUE i && s.tf TF.XNG.Carry.QNUM i = n

/-! ## Digests -/

/-- SHA-256 truncated to its first 128 bits (R502). -/
def digestOf (bytes : List Byte) : BitVec 128 := BitVec.ofNat 128 (beNat ((sha256 bytes).take 16))

/-- Kinds compared: 0 to 5 always, the others by XNG_DIGEST_SEL (R502). -/
def State.digestSel (s : State) (kind : Nat) : Bool := kind < 6 || bitOf (s.fld F.XNG_DIGEST_SEL.KINDS) (kind - 6)

/-- The unit compares digests. -/
def State.inLockstep (s : State) : Bool := s.paired && lockstepState s.xngState

/-- Two digests of one item differ (R503): both units flag it, the shadow diverges, the Pair fault is reported. -/
def State.diverge (s : State) (code wh : Nat) : State :=
  let s := (s.raise F.XNG_INT_STATUS.DIGEST).detect code wh 0xFF
  let s := { s with xng := { s.xng with inStepAt := s.now } }
  if s.xngState = 5 then
    { s.setXngState 7 with xng := { s.xng with divs := s.now :: s.xng.divs, retryAt := some (s.now + 10 * 1200000000) } }
  else s

/-- The two digests of one item are held against each other. -/
def State.matchDigests (s : State) (a b : BitVec 128) (idx : Nat) : State :=
  if a = b then s.bump R.XNG_U_DIGESTS_MATCHED
  else (s.bump R.XNG_U_DIGESTS_MISMATCHED).diverge 0x20 idx

/-- The record of an item in a list of digests. -/
def findDigest (kind idx seq : Nat) (l : List DigestRec) : Option DigestRec :=
  l.find? fun d => d.kind = kind && d.idx = idx && d.seq = seq

/-- A list of digests without an item's record. -/
def dropDigest (kind idx seq : Nat) (l : List DigestRec) : List DigestRec :=
  l.filter fun d => !(d.kind = kind && d.idx = idx && d.seq = seq)

/-- A digest of an item is made, sent and held against the peer's (R502, R503). -/
def State.digest (s : State) (kind idx seq : Nat) (bytes : List Byte) : State :=
  if s.inLockstep && s.digestSel kind then
    let d := digestOf bytes
    let s := (s.bump R.XNG_U_DIGESTS_MADE).crossSend 4
      (leBytes 1 kind ++ leBytes 4 idx ++ leBytes 8 seq ++ leBytes 8 s.xng.eseq ++ leBytes 16 d.toNat)
    match findDigest kind idx seq s.xng.peer with
    | some p =>
      { s with xng := { s.xng with peer := dropDigest kind idx seq s.xng.peer } }.matchDigests d p.digest idx
    | none => { s with xng := { s.xng with own := s.xng.own ++ [⟨kind, idx, seq, d, s.now⟩] } }
  else s

/-! ## Mode transitions (R57, R60) -/

/-- Order of device-initiated transitions that fall due together (R60): the lower is made first. -/
def transRank : Mode → Nat
  | .lockdown => 0
  | .keep => 1
  | .recovery => 2
  | .takeover => 3
  | _ => 4

/-- The result of the last request is written (R59, R76). -/
def State.requestResult (s : State) (r : Nat) : State :=
  (s.setFld F.SYS_MODE_STATUS.RESULT r).raise F.SYS_INT_STATUS.REQ_DONE

/-- A device-initiated transition falls due (R57, R60): it begins, or overtakes one of lower rank in progress. -/
def State.beginTrans (s : State) (t : Mode) (cause : Nat) : State :=
  let start (s : State) : State :=
    { s with sys := { s.sys with trans := some ⟨t, false, cause⟩ } }.setFld F.SYS_MODE.TRANSIT 1
  match s.sys.trans with
  | none => if s.sys.mode = t then s else start s
  | some u =>
    if transRank t < transRank u.target then
      start (if u.requested then s.requestResult 7 else s)
    else s

/-- SYS_DEGRADED names something out. -/
def State.anyOut (s : State) : Bool := s.reg R.SYS_DEGRADED ≠ 0

/-- A named resource went out or came back (R57, R69): M4 goes to M7, M7 to M4. -/
def State.judgeDegraded (s : State) (cause : Nat) : State :=
  match s.sys.mode with
  | .service => if s.anyOut then s.beginTrans .degraded cause else s
  | .degraded => if s.anyOut then s else s.beginTrans .service cause
  | _ => s

end Sys2Proof.Machine
end

