-- ==== Sys2Proof/Machine/GridTag.lean ====
section
/-!
DEFINITION. Time-tags on a reporting grid (R136, R178) and the conversions of windows to Short Grid Time (R185).
-/

namespace Sys2Proof.Machine

/-- The nearest integer to `a / b`, halves upward. -/
def divNear (a b : Nat) : Nat := (2 * a + b) / (2 * b)

/-- Grid instants of rate `r` in the range of Short Grid Time. -/
def tagModulus (r : Nat) : Nat := 2 ^ 32 * r

/-- Number of a grid instant: whole seconds times the rate, plus k (R136). -/
def tagIndex (r t : Nat) : Nat := (t / 2 ^ 32) * r + divNear (t % 2 ^ 32 * r) (2 ^ 32)

/-- The instant with a number (R136). -/
def indexTag (r i : Nat) : Nat := (i / r) % 2 ^ 32 * 2 ^ 32 + divNear (i % r * 2 ^ 32) r

/-- The grid instant after one. -/
def nextTag (r t : Nat) : Nat := indexTag r ((tagIndex r t + 1) % tagModulus r)

/-- The grid instant before one. -/
def prevTag (r t : Nat) : Nat := indexTag r ((tagIndex r t + tagModulus r - 1) % tagModulus r)

/-- Grid instants from `b` to `a`, negative when `a` is before. -/
def tagDiff (r a b : Nat) : Int :=
  let m := tagModulus r
  let d := (tagIndex r a + m - tagIndex r b % m) % m
  if 2 * d < m then (d : Int) else (d : Int) - (m : Int)

/-- The first grid instant at or after a Short Grid Time (R179). -/
def firstTag (r v : Nat) : Nat :=
  let i := (v / 2 ^ 32) * r + v % 2 ^ 32 * r / 2 ^ 32
  let try1 := indexTag r (i % tagModulus r)
  if gtAtOrAfter try1 v then try1
  else
    let try2 := indexTag r ((i + 1) % tagModulus r)
    if gtAtOrAfter try2 v then try2 else indexTag r ((i + 2) % tagModulus r)

/-- Microseconds in Short Grid Time (R185). -/
def gtOfUs (us : Nat) : Nat := divNear (us * 2 ^ 32) 1000000

/-- Milliseconds in Short Grid Time (R196). -/
def gtOfMs (ms : Nat) : Nat := divNear (ms * 2 ^ 32) 1000

/-- A Short Grid Time moved forward. -/
def gtAdd (t d : Nat) : Nat := (t + d) % 2 ^ 64

end Sys2Proof.Machine
end

