-- ==== Sys2Proof/Machine/Glade.lean ====
section
/-!
DEFINITION. The Glade (chapter 06): Groves and their members, classification and placement of blocks, releases, void Sets,
amendments and closes, the Set and amendment rings, and the delivery of notices.
-/

namespace Sys2Proof.Machine

/-! ## Groves -/

/-- A Grove that has not run since the unit reset. -/
def groveIdle : GroveSt :=
  { run := .stopped, ran := false, members := [], firstTag := 0, boundary := 0, front := 0, nextSeq := 0,
    sets := [], lastT1 := 0, amendAt := 0, pastTg := false }

/-- A Grove's state. -/
def State.grove (s : State) (g : Nat) : GroveSt := mget groveIdle s.gld.groves g

/-- A Grove's state stored. -/
def State.setGrove (s : State) (g : Nat) (x : GroveSt) : State :=
  { s with gld := { s.gld with groves := mset groveIdle s.gld.groves g x } }

/-- A field of a Grove's window (R214). -/
def State.gfld (s : State) (g : Nat) (f : Fld) : Nat := s.fld (f.at (0x40 * g))

/-- Reporting rate of a Grove. -/
def State.groveRate (s : State) (g : Nat) : Nat := s.gfld g F.GLD_G_CTRL.RATE

/-- Waiting window and horizon in Short Grid Time (R185, R196). -/
def State.groveWindow (s : State) (g : Nat) : Nat := gtOfUs (s.gfld g F.GLD_WINDOW.US)
def State.groveHorizon (s : State) (g : Nat) : Nat := gtOfMs (s.gfld g F.GLD_HORIZON.MS)

/-- Key of the q-th counter of a stream or a Grove (R212). -/
def gldStreamCnt (i q : Nat) : Nat := tblCntKey 0x70 i q
def gldGroveCnt (g q : Nat) : Nat := tblCntKey 0x71 g q

/-- A field of a directory entry (R126). -/
def State.dir (s : State) (i : Nat) (f : TF) : Nat := s.tf f i

/-- Channels of a stream (R126 NUM_CH). -/
def State.numCh (s : State) (i : Nat) : Nat :=
  s.dir i TF.ING.Directory.NUM_PHASOR + 2 + s.dir i TF.ING.Directory.NUM_ANALOG + s.dir i TF.ING.Directory.NUM_DIGITAL

/-- Indices of the valid directory entries that name a Grove, in index order (R177). -/
def State.memberStreams (s : State) (g : Nat) : List Nat :=
  (s.tbl.filter fun x => x.1 / 2 ^ 24 = T.ING.Directory && x.1 % 32 = 0 && bitOf x.2.toNat 31
    && bitsOf x.2.toNat 29 24 = g).map fun x => x.1 % 2 ^ 24 / 32

/-- The member list with slot offsets from `off` (R203, R206). -/
def State.memberList (s : State) : List Nat → Nat → List GMember
  | [], _ => []
  | i :: t, off =>
    { stream := i, numCh := s.numCh i, weight := s.dir i TF.ING.Directory.WEIGHT,
      expected := s.tflag TF.ING.Directory.ENABLE i && s.tflag TF.ING.Directory.EXPECTED i, off := off }
      :: s.memberList t (off + 32 + 8 * s.numCh i)

/-- Bytes of a Set record before rounding (R203). -/
def recBytes (ms : List GMember) : Nat := ms.foldl (fun a m => a + 32 + 8 * m.numCh) 128

/-- Size of a Set record in 64-byte units (R203). -/
def recUnits (ms : List GMember) : Nat := (recBytes ms + 63) / 64

/-- Weight total W (R177). -/
def weightTotal (ms : List GMember) : Nat := ms.foldl (fun a m => if m.expected then a + m.weight else a) 0

/-- Set ring and amendment ring of a Grove: start and end from the start of the Glade store (R203, R207). -/
def State.setRing (s : State) (g units : Nat) : Nat × Nat :=
  let b := s.gfld g F.GLD_STORE_BASE.BASE * 65536
  (b, b + s.gfld g F.GLD_STORE_RECORDS.N * units * 64)
def State.amendRing (s : State) (g : Nat) : Nat × Nat :=
  let b := s.gfld g F.GLD_AMEND_BASE.BASE * 65536
  (b, b + s.gfld g F.GLD_AMEND_RECORDS.N * 640)

/-- Two address ranges meet. -/
def rangesMeet (a b : Nat × Nat) : Bool := decide (a.1 < b.2) && decide (b.1 < a.2)

/-- Size of the Glade store (R604). -/
def gladeStoreSize : Nat := 0x200000000

/-- A Grove that takes part in the Glade. -/
def GroveSt.live (x : GroveSt) : Bool := x.run != .stopped

/-- Record size of a Grove in 64-byte units: that of its members when it starts, or that in force (R203). -/
def State.groveUnits (s : State) (g : Nat) : Nat :=
  if (s.grove g).run = .starting then recUnits (s.memberList (s.memberStreams g) 128) else s.gfld g F.GLD_RECSIZE.UNITS

/-- Why a start is refused (R203): the value of BAD_CFG. -/
def State.badCfg (s : State) (g : Nat) : Nat :=
  let units := recUnits (s.memberList (s.memberStreams g) 128)
  let ring := s.setRing g units
  let am := s.amendRing g
  let need := (s.groveRate g * (s.gfld g F.GLD_HORIZON.MS + s.fld F.ING_FUTURE_LIMIT.MS + 1) + 999) / 1000 + 1
  let clash := (s.gld.groves.filter fun x => x.1 != g && x.2.live).any fun x =>
    let r := s.setRing x.1 (s.groveUnits x.1)
    let m := s.amendRing x.1
    rangesMeet ring r || rangesMeet ring m || rangesMeet am r || rangesMeet am m
  if s.gfld g F.GLD_HORIZON.MS * 1000 < s.gfld g F.GLD_WINDOW.US then 1
  else if s.gfld g F.GLD_STORE_RECORDS.N < max 2 need then 2
  else if s.gfld g F.GLD_AMEND_RECORDS.N < 16 then 4
  else if decide (gladeStoreSize < ring.2) || decide (gladeStoreSize < am.2) || rangesMeet ring am || clash then 3
  else 0

/-! ## Set records -/

/-- Address of the Set record with a SETSEQ (R203). -/
def State.setAddr (s : State) (g seq : Nat) : Nat :=
  dramStart + (s.setRing g 0).1
    + seq % max 1 (s.gfld g F.GLD_STORE_RECORDS.N) * s.gfld g F.GLD_RECSIZE.UNITS * 64

/-- A slot counts in the view: all slots, or those without STAGE (R205). -/
def viewSlots (x : GSet) (final : Bool) : List SlotInfo := (x.slots.map (·.2)).filter fun i => final || !i.stage

/-- The largest value of a field over slots. -/
def maxOver (l : List SlotInfo) (hi lo : Nat) : Nat := l.foldl (fun a i => max a (bitsOf i.quality hi lo)) 0

/-- Slots with a property. -/
def countOf (l : List SlotInfo) (p : SlotInfo → Bool) : Nat := (l.filter p).length

/-- FLAGS of the header (R205). -/
def GSet.flags (x : GSet) : Nat :=
  b2n x.orderHeld * 128 + b2n x.late * 64 + b2n x.restart * 32 + b2n x.first * 16 + x.provCause % 2 * 8
    + x.finalCause % 4 * 2 + b2n x.prov

/-- STATE of the header (R205). -/
def GSet.stateNum (x : GSet) : Nat := if x.closed then 3 else if x.final then 2 else if x.prov then 1 else 0

/-- The 128-byte header (R205). -/
def headerBytes (g members : Nat) (x : GSet) : List Byte :=
  let v := viewSlots x (x.final || !x.prov)
  leBytes 8 x.ttag ++ leBytes 8 x.seq ++ leBytes 4 x.epoch ++ leBytes 1 g ++ leBytes 1 x.flags
    ++ leBytes 2 x.tqProv ++ leBytes 2 x.tqFinal ++ leBytes 2 x.coverProv ++ leBytes 2 x.coverFinal
    ++ leBytes 1 (maxOver v 3 0) ++ leBytes 1 (maxOver v 5 4) ++ leBytes 4 members
    ++ leBytes 4 (if x.final then v.length else 0) ++ leBytes 4 x.nPlacedProv
    ++ leBytes 4 (if x.final then countOf v (fun i => i.present ≠ 0) else 0)
    ++ leBytes 4 (countOf v (fun i => bitOf i.quality 13)) ++ leBytes 4 (countOf v (fun i => bitOf i.quality 10))
    ++ leBytes 4 (countOf v (·.suspect)) ++ leBytes 4 0
    ++ leBytes 8 x.jposProv ++ leBytes 8 x.jposFinal ++ leBytes 8 x.t0Prov ++ leBytes 8 x.t1Prov
    ++ leBytes 8 x.t0Final ++ leBytes 8 x.t1Final ++ leBytes 4 x.amend ++ leBytes 1 x.stateNum
    ++ leBytes 1 x.closeFlags ++ leBytes 10 0

/-- FLAGS of a slot (R206). -/
def slotFlags (i : SlotInfo) : Nat := b2n i.suspect * 8 + b2n i.filled * 4 + b2n i.stage * 2 + 1

/-- A slot's 32-byte head (R206). -/
def slotHead (present arrival jseq quality flags numCh stream : Nat) : List Byte :=
  leBytes 8 present ++ leBytes 8 arrival ++ leBytes 8 jseq ++ leBytes 2 quality ++ leBytes 1 flags
    ++ leBytes 1 numCh ++ leBytes 4 stream

/-- An empty slot (R206). -/
def emptySlot (m : GMember) : List Byte := slotHead 0 0 0 0 0 m.numCh m.stream ++ List.replicate (8 * m.numCh) 0

/-- The header of a Set written to its record (R192). -/
def State.writeHeader (s : State) (g : Nat) (x : GSet) : State :=
  s.wrBytes (s.setAddr g x.seq) (headerBytes g (s.grove g).members.length x)

/-- A new Set. -/
def newSet (ttag seq : Nat) (opened : Bool) : GSet :=
  { ttag := ttag, seq := seq, opened := opened, slots := [], first := false, restart := false, prov := false, final := false,
    provCause := 0, finalCause := 0, orderHeld := false, late := false, epoch := 0, tqProv := 0, tqFinal := 0,
    coverProv := 0, coverFinal := 0, nPlacedProv := 0, jposProv := 0, jposFinal := 0, t0Prov := 0, t1Prov := 0,
    t0Final := 0, t1Final := 0, amend := 0, closed := false, closeFlags := 0 }

/-- A Set put in its place by time-tag. -/
def insertSet (x : GSet) : List GSet → List GSet
  | [] => [x]
  | y :: t => if y.seq < x.seq then y :: insertSet x t else if y.seq = x.seq then x :: t else x :: y :: t

/-- The unclosed Set with a time-tag. -/
def GroveSt.setAt (x : GroveSt) (ttag : Nat) : Option GSet := x.sets.find? fun y => y.ttag = ttag

/-- A Set of a Grove stored. -/
def State.putSet (s : State) (g : Nat) (x : GSet) : State :=
  s.setGrove g { s.grove g with sets := insertSet x (s.grove g).sets }

/-- SETSEQ of a grid instant of a running Grove (R178). -/
def State.seqOf (s : State) (g ttag : Nat) : Nat :=
  let x := s.grove g
  (((x.nextSeq : Int) + tagDiff (s.groveRate g) ttag x.front) - 1).toNat

/-- The place of a Set in its ring is written whole: the header, then every slot empty. -/
def State.blankRecord (s : State) (g : Nat) (x : GSet) : State :=
  let ms := (s.grove g).members
  let body := headerBytes g ms.length x ++ ms.flatMap emptySlot
  s.wrBytes (s.setAddr g x.seq) (body ++ List.replicate (s.gfld g F.GLD_RECSIZE.UNITS * 64 - body.length) 0)

/-! ## Notices -/

/-- A notice's 32 bytes (R208). -/
def noticeEntry (ttag seq addr epoch g kind flags : Nat) : Entry :=
  BitVec.ofNat 256 (leNat (leBytes 8 ttag ++ leBytes 8 seq ++ leBytes 8 addr ++ leBytes 4 epoch ++ leBytes 1 g
    ++ leBytes 1 kind ++ leBytes 1 flags ++ leBytes 1 0))

/-- Fields of a notice. -/
def noticeTtag (e : Entry) : Nat := descField e 0 8
def noticeSeq (e : Entry) : Nat := descField e 8 8
def noticeAddr (e : Entry) : Nat := descField e 0x10 8
def noticeGrove (e : Entry) : Nat := descField e 0x1C 1
def noticeKind (e : Entry) : Nat := descField e 0x1D 1
def noticeFlags (e : Entry) : Nat := descField e 0x1E 1

/-- A notice of a Grove pushed to its release or amendment queue (R194, R208). -/
def State.gladeNotice (s : State) (g kind : Nat) (e : Entry) : State :=
  let q := if kind < 2 then s.gfld g F.GLD_G_QUEUE.RELEASE else s.gfld g F.GLD_G_QUEUE.AMEND
  let r := s.pushNotice q 35 e
  if r.2 = 0 then r.1 else (r.1.bump (gldGroveCnt g 13)).raise F.GLD_INT_STATUS.NOTICE_REFUSED

/-- An engine's waiting list takes a notice, or it is dropped and counted (R45, R226, R268, R320, R348). -/
def State.engNotice (s : State) (eng : Nat) (e : Entry) : State :=
  let take (s : State) (l : List Entry) (cap dropped : Nat) (f : Fld) (block : Nat) (put : List Entry → Gld) : State :=
    if l.length < cap then { s with gld := put (l ++ [e]) }
    else ((s.bump dropped).raise f).detect 0x24 block 0xFF
  match eng with
  | 0 => take (s.bump R.FLT_U_NOTICES) s.gld.fltWait 256 R.FLT_U_DROPPED F.FLT_INT_STATUS.DROPPED 8 fun l => { s.gld with fltWait := l }
  | 1 => take (s.bump R.ISL_U_NOTICES) s.gld.islWait 128 R.ISL_U_DROPPED F.ISL_INT_STATUS.DROPPED 10 fun l => { s.gld with islWait := l }
  | 2 => take (s.bump R.CAP_U_NOTICES) s.gld.capWait 128 R.CAP_U_DROPPED F.CAP_INT_STATUS.DROPPED 12 fun l => { s.gld with capWait := l }
  | _ => if s.acc.afterSnap then (s.bump R.ACC_U_NOTICES).bump R.ACC_U_AFTER_SAVE
    else take (s.bump R.ACC_U_NOTICES) s.gld.accWait 64 R.ACC_U_DROPPED F.ACC_INT_STATUS.DROPPED 13 fun l => { s.gld with accWait := l }

/-- A release notice delivered to the engines the Grove feeds (R209): final notices to all, provisional ones to the
Connectivity and Capture Engines. -/
def State.feedEngines (s : State) (g kind : Nat) (e : Entry) : State :=
  let f := s.gfld g F.GLD_G_CTRL.FEED
  let s := if bitOf f 0 && kind = 1 then s.engNotice 0 e else s
  let s := if bitOf f 1 then s.engNotice 1 e else s
  let s := if bitOf f 2 then s.engNotice 2 e else s
  if bitOf f 3 && kind = 1 then s.engNotice 3 e else s

/-- A notice is decided: it waits behind the Grove's releases not yet delivered, or goes out at once. -/
def State.pendNotice (s : State) (n : Pend) : State :=
  if n.kind < 2 || s.gld.pend.any (fun p => p.grove = n.grove) then { s with gld := { s.gld with pend := s.gld.pend ++ [n] } }
  else s.gladeNotice n.grove n.kind (noticeEntry n.ttag n.seq n.addr n.epoch n.grove n.kind n.flags)

/-! ## Conditions of a release (R185) -/

/-- The latest mark carries RELEASE_HOLD (R167). -/
def State.releaseHold (s : State) : Bool := bitOf s.tim.markTq 11

/-- Every stream of the expected set has a placed slot. -/
def setComplete (ms : List GMember) (x : GSet) : Bool :=
  x.opened && (List.zip (List.range ms.length) ms).all fun m => !m.2.expected || x.slots.any fun i => i.1 = m.1

/-- C: weight of the expected streams whose slot holds a present channel. -/
def coverage (ms : List GMember) (x : GSet) : Nat :=
  (List.zip (List.range ms.length) ms).foldl (fun a m =>
    if m.2.expected && x.slots.any (fun i => i.1 = m.1 && i.2.present ≠ 0) then a + m.2.weight else a) 0

/-- COVER of R205. -/
def coverBp (ms : List GMember) (x : GSet) : Nat :=
  if weightTotal ms = 0 then 0xFFFF else 10000 * coverage ms x / weightTotal ms

/-- Quorum of a Set. -/
def State.quorum (s : State) (g : Nat) (x : GSet) : Bool :=
  let ms := (s.grove g).members
  let q := s.gfld g F.GLD_QUORUM.BP
  x.opened && q != 0 && weightTotal ms != 0 && decide (q * weightTotal ms ≤ 10000 * coverage ms x)

/-- The deadline of a time-tag is met at a mark value. -/
def State.deadlineAt (s : State) (g mark ttag : Nat) : Bool :=
  s.tim.marked && gtAtOrAfter mark (gtAdd ttag (s.groveWindow g))

/-! ## Closes (R196, R197, R204) -/

/-- A Set is closed: its record, its count, its close notice, and its place in the ring is free. -/
def State.closeSet (s : State) (g : Nat) (x : GSet) (flags : Nat) : State :=
  let x := { x with closed := true, closeFlags := flags }
  let s := (s.writeHeader g x).bump (gldGroveCnt g 9)
  let s := if bitOf flags 0 then (s.bump (gldGroveCnt g 11)).raise F.GLD_INT_STATUS.EARLY_CLOSE else s
  let s := s.setGrove g { s.grove g with sets := (s.grove g).sets.filter fun y => y.seq ≠ x.seq }
  s.pendNotice { grove := g, kind := 3, ttag := x.ttag, seq := x.seq, addr := s.setAddr g x.seq, epoch := s.epoch,
                 flags := flags, t0 := none }

/-- Sets closed one after another. -/
def State.closeAll (s : State) (g flags : Nat) : List GSet → State
  | [] => s
  | x :: t => (s.closeSet g x flags).closeAll g flags t

/-- Unclosed Sets whose record is the place of SETSEQ `seq` (R203, R204). -/
def State.occupants (s : State) (g seq : Nat) : List GSet :=
  let n := max 1 (s.gfld g F.GLD_STORE_RECORDS.N)
  (s.grove g).sets.filter fun y => decide (y.seq < seq ∧ y.seq % n = seq % n)

/-- The unclosed occupant of the place of SETSEQ `seq` is closed early (R204). -/
def State.freePlace (s : State) (g seq : Nat) : State := s.closeAll g 1 (s.occupants g seq)

/-- A Grove is stopped: STOPPED set, every unclosed Set closed with AT_STOP (R197), a Ring Log record (R70, log 17). -/
def State.groveStopped (s : State) (g : Nat) : State :=
  let s := s.closeAll g 2 (s.grove g).sets
  let s := s.setGrove g { s.grove g with run := .stopped, ran := true }
  ((s.setFld (F.GLD_G_STATUS.STOPPED.at (0x40 * g)) 1).raise F.GLD_INT_STATUS.GROVE_STOPPED).ringLog 0x000A 35
    (leBytes 1 g ++ leBytes 1 0 ++ leBytes 6 0 ++ leBytes 8 (s.grove g).boundary)

/-! ## Releases (R186 to R191) -/

/-- JSEQ of the last frame accepted. -/
def State.jpos (s : State) : Nat := s.ing.jseq - 1

/-- The largest time-tag released by any Grove (R167). -/
def State.noteRelease (s : State) (ttag : Nat) : State :=
  let v := (s.cnt R.GLD_LAST_REL).toNat
  if v = 0 || gtAfter ttag v then s.setCnt R.GLD_LAST_REL (w64 ttag) else s

/-- A release enters the list of those to be delivered. -/
def State.pendRelease (s : State) (g kind : Nat) (x : GSet) (t0 : Option Nat) : State :=
  s.pllRequest.pendNotice
    { grove := g, kind := kind, ttag := x.ttag, seq := x.seq, addr := s.setAddr g x.seq, epoch := s.epoch, flags := x.flags,
      t0 := t0 }

/-- A provisional release (R186, R187). -/
def State.provRelease (s : State) (g : Nat) (x : GSet) (t0 : Option Nat) : State :=
  let ms := (s.grove g).members
  let x := { x with
    prov := true, provCause := b2n (setComplete ms x), orderHeld := t0.isNone, epoch := s.epoch, tqProv := s.tim.markTq
    coverProv := coverBp ms x, nPlacedProv := x.slots.length, jposProv := s.jpos }
  let s := ((s.putSet g x).writeHeader g x).bump (gldGroveCnt g 2)
  let s := if t0.isNone then s.bump (gldGroveCnt g 15) else s
  (s.noteRelease x.ttag).pendRelease g 0 x t0

/-- Counter of a final cause: complete, deadline, capacity, void (R212). -/
def causeCnt (cause : Nat) : Nat := match cause with | 0 => 4 | 1 => 5 | 2 => 6 | _ => 1

/-- A final release (R186, R187): F and SETSEQ advance; the last one up to a stop boundary stops the Grove. -/
def State.finalRelease (s : State) (g : Nat) (x : GSet) (cause : Nat) (t0 : Option Nat) : State :=
  let gv := s.grove g
  let x := { x with
    final := true, finalCause := cause, orderHeld := x.orderHeld || t0.isNone, epoch := s.epoch, tqFinal := s.tim.markTq
    coverFinal := coverBp gv.members x, jposFinal := s.jpos }
  let s := s.putSet g x
  let s := (s.setGrove g { s.grove g with front := x.ttag, nextSeq := x.seq + 1 }).writeHeader g x
  let s := s.bump (gldGroveCnt g (causeCnt (if cause = 3 && x.opened then 2 else cause)))
  let s := if x.prov then s.bump (gldGroveCnt g 3) else s
  let s := if t0.isNone then s.bump (gldGroveCnt g 15) else s
  let s := if cause = 2 then (s.bump R.GLD_U_CAPACITY_RELEASES).raise F.GLD_INT_STATUS.CAPACITY else s
  let s := (s.noteRelease x.ttag).pendRelease g 1 x t0
  if gv.run = .stopping && x.ttag = gv.boundary then s.groveStopped g else s

/-- A Set marked as the first of a start (R179). -/
def State.markFirst (s : State) (g : Nat) (x : GSet) : GSet :=
  let gv := s.grove g
  if x.ttag = gv.firstTag then { x with first := true, restart := gv.ran } else x

/-- The void Set of the instant after F is created (R180). -/
def State.voidSet (s : State) (g : Nat) : State × GSet :=
  let gv := s.grove g
  let x := s.markFirst g (newSet (nextTag (s.groveRate g) gv.front) gv.nextSeq false)
  let s := s.freePlace g x.seq
  ((s.putSet g x).blankRecord g x, x)

/-- What decides releases: a block placed (its time-tag, and its Set as it stood before), or a mark (the value before it). -/
inductive Event where
  | accept (ttag : Nat) (before : Option GSet)
  | mark (old : Nat)
  deriving DecidableEq, Repr

/-- The final condition of a Set held before the event. -/
def State.finalBefore (s : State) (g : Nat) (ev : Event) (ttag : Nat) (x : Option GSet) : Bool :=
  let ms := (s.grove g).members
  let whole (y : Option GSet) : Bool := match y with | none => false | some z => setComplete ms z
  match ev with
  | .accept t b => whole (if t = ttag then b else x) || s.deadlineAt g s.tim.mark ttag
  | .mark old => whole x || s.deadlineAt g old ttag

/-- The provisional condition of a Set held before the event. -/
def State.provBefore (s : State) (g : Nat) (ev : Event) (x : GSet) : Bool :=
  let cond (y : Option GSet) : Bool :=
    match y with | none => false | some z => s.quorum g z || setComplete (s.grove g).members z
  match ev with
  | .accept t b => cond (if t = x.ttag then b else some x)
  | .mark _ => cond (some x)

/-- The final releases of a Grove that an event makes due, in time-tag order; `chained` tells that the predecessor of the
next instant is released in this event. `t` is the event's Grid Time. -/
def State.finals (s : State) (g : Nat) (ev : Event) (t : Nat) (chained : Bool) : Nat → State
  | 0 => s
  | fuel + 1 =>
    let gv := s.grove g
    if s.releaseHold || !(gv.run = .running || gv.run = .stopping) then s
    else
      let tag := nextTag (s.groveRate g) gv.front
      let due := s.deadlineAt g s.tim.mark tag
      if gv.run = .stopping && gtAfter tag gv.boundary then s
      else
        let cur := gv.setAt tag
        let held := chained && s.finalBefore g ev tag cur
        let t0 := if held then none else some t
        match cur with
        | some x =>
          if setComplete gv.members x then (s.finalRelease g x 0 t0).finals g ev t true fuel
          else if due then (s.finalRelease g x 1 t0).finals g ev t true fuel
          else s
        | none =>
          if due then
            let r := s.voidSet g
            (r.1.finalRelease g r.2 3 t0).finals g ev t true fuel
          else s

/-- The provisional releases that follow, from the instant after `tag` while each predecessor is released. -/
def State.provs (s : State) (g : Nat) (ev : Event) (t tag : Nat) (chained : Bool) : Nat → State
  | 0 => s
  | fuel + 1 =>
    let gv := s.grove g
    if s.releaseHold || !(gv.run = .running || gv.run = .stopping) then s
    else
      let nx := nextTag (s.groveRate g) tag
      match gv.setAt nx with
      | none => s
      | some x =>
        if x.prov then s.provs g ev t nx false fuel
        else if s.quorum g x || setComplete gv.members x then
          (s.provRelease g x (if chained && s.provBefore g ev x then none else some t)).provs g ev t nx true fuel
        else s

/-- Instants an event can release: those up to the mark and the Sets open. -/
def State.releaseFuel (s : State) (g : Nat) : Nat :=
  (s.grove g).sets.length + (tagDiff (max 1 (s.groveRate g)) (firstTag (max 1 (s.groveRate g)) s.tim.mark) (s.grove g).front).toNat + 2

/-- The releases of R186 at an event of a Grove. -/
def State.releases (s : State) (g : Nat) (ev : Event) (t : Nat) (chained : Bool) : State :=
  let before := (s.grove g).front
  let s := s.finals g ev t chained (s.releaseFuel g)
  s.provs g ev t (s.grove g).front (chained || decide ((s.grove g).front ≠ before)) ((s.grove g).sets.length + 1)

/-- Every instant of a Grove not yet finally released, up to a time-tag, is released: open Sets under capacity, the others
as void Sets (R191, R204). -/
def State.forceTo (s : State) (g ttag : Nat) (cause : Nat) : Nat → State
  | 0 => s
  | fuel + 1 =>
    let gv := s.grove g
    let tag := nextTag (s.groveRate g) gv.front
    if gtAfter tag ttag || !(gv.run = .running || gv.run = .stopping) then s
    else
      match gv.setAt tag with
      | some x => (s.finalRelease g x cause (some s.gt)).forceTo g ttag cause fuel
      | none =>
        let r := s.voidSet g
        (r.1.finalRelease g r.2 3 (some s.gt)).forceTo g ttag cause fuel

/-- Fuel for a forced release up to a time-tag. -/
def State.forceFuel (s : State) (g ttag : Nat) : Nat :=
  (tagDiff (max 1 (s.groveRate g)) ttag (s.grove g).front).toNat + 1

/-- Open Sets of a Grove, and of the unit (R191). -/
def GroveSt.openSets (x : GroveSt) : List GSet := x.sets.filter fun y => y.opened && !y.final
def State.openCount (s : State) : Nat := s.gld.groves.foldl (fun a x => a + x.2.openSets.length) 0

/-- The open Set with the earliest deadline in the unit, with its Grove (R191). -/
def State.earliestOpen (s : State) : Option (Nat × GSet) :=
  (s.gld.groves.flatMap fun x => x.2.openSets.map fun y => (x.1, y)).foldl (fun a c =>
    match a with
    | none => some c
    | some b =>
      if gtAfter (gtAdd b.2.ttag (s.groveWindow b.1)) (gtAdd c.2.ttag (s.groveWindow c.1)) then some c else a) none

/-! ## Acceptance (R181 to R184, R195) -/

/-- An accepted block as the parser delivers it (R139): two words per channel. -/
structure Blk where
  stream : Nat
  ttag : Nat
  present : DWord
  chans : List (Nat × Nat)
  quality : Nat
  arrival : Nat
  jseq : Nat
  deriving DecidableEq, Repr

/-- A block that R183 makes TIME_SUSPECT: every channel absent. -/
def State.suspectBlk (s : State) (g : Nat) (b : Blk) : Bool :=
  let t := s.gfld g F.GLD_G_CTRL.TQ_ABSENT
  t != 0 && (bitOf b.quality 13 || decide (t ≤ bitsOf b.quality 5 4))

/-- The block as placed: with R183 applied, and absent channels zero (R206). -/
def asPlaced (suspect : Bool) (b : Blk) : Blk :=
  let p : DWord := if suspect then 0 else b.present
  { b with
    present := p
    chans := (List.zip (List.range b.chans.length) b.chans).map fun c => if bitOf p.toNat c.1 then c.2 else (0, 0) }

/-- Channel bytes of a slot. -/
def chanBytes (l : List (Nat × Nat)) : List Byte := l.flatMap fun c => leBytes 4 c.1 ++ leBytes 4 c.2

/-- A whole slot written. -/
def State.writeSlot (s : State) (g : Nat) (x : GSet) (m : GMember) (i : SlotInfo) (b : Blk) : State :=
  s.wrBytes (s.setAddr g x.seq + m.off)
    (slotHead b.present.toNat b.arrival b.jseq i.quality (slotFlags i) m.numCh m.stream ++ chanBytes (b.chans.take m.numCh))

/-- Place and member of a stream in a Grove. -/
def memberOf (stream : Nat) : List GMember → Nat → Option (Nat × GMember)
  | [], _ => none
  | m :: t, i => if m.stream = stream then some (i, m) else memberOf stream t (i + 1)

/-- The block counted as too late. -/
def State.countTooLate (s : State) (b : Blk) : State :=
  { s.bump (gldStreamCnt b.stream 2) with gld := { s.gld with tooLate := mset false s.gld.tooLate b.stream true } }

/-- The record of a fill's new channels beside those held (R182). -/
def State.writeFill (s : State) (addr : Nat) (have' : DWord) : List (Nat × (Nat × Nat)) → State
  | [] => s
  | (k, c) :: t =>
    let s := if bitOf have'.toNat k then s else s.wrBytes (addr + 0x20 + 8 * k) (leBytes 4 c.1 ++ leBytes 4 c.2)
    s.writeFill addr have' t

/-- A fill of a held slot (R182): `b` has R183 applied. -/
def State.fillSlot (s : State) (g : Nat) (x : GSet) (n : Nat) (m : GMember) (i : SlotInfo) (b : Blk) : State :=
  let s := (s.bump (gldStreamCnt b.stream 0)).bump (gldStreamCnt b.stream 4)
  if i.suspect then
    let j := { i with present := b.present, quality := b.quality, filled := true, suspect := false }
    let x := { x with slots := mset ⟨0, 0, false, false, false⟩ x.slots n j }
    (s.putSet g x).writeSlot g x m j b
  else
    let j := { i with present := i.present ||| b.present, filled := true }
    let x := { x with slots := mset ⟨0, 0, false, false, false⟩ x.slots n j }
    let addr := s.setAddr g x.seq + m.off
    let s := (s.putSet g x).writeFill addr (i.present ||| ~~~b.present) (List.zip (List.range b.chans.length) b.chans)
    (s.wrBytes addr (leBytes 8 j.present.toNat)).wrBytes (addr + 0x1A) (leBytes 1 (slotFlags j))

/-- A block written as an amendment (R195, R207). -/
def State.amendBlk (s : State) (g : Nat) (x : GSet) (m : GMember) (b : Blk) : State :=
  let sus := s.suspectBlk g b
  let b := asPlaced sus b
  let x := { x with amend := x.amend + 1 }
  let s := (s.putSet g x).writeHeader g x
  let gv := s.grove g
  let n := max 1 (s.gfld g F.GLD_AMEND_RECORDS.N)
  let addr := dramStart + (s.amendRing g).1 + gv.amendAt % n * 640
  let i : SlotInfo := ⟨b.present, b.quality, false, false, sus⟩
  let body := leBytes 8 x.ttag ++ leBytes 8 x.seq ++ leBytes 4 s.epoch ++ leBytes 1 g ++ leBytes 1 0
    ++ leBytes 2 x.amend ++ leBytes 8 s.tim.mark ++ leBytes 2 s.tim.markTq ++ leBytes 30 0
    ++ slotHead b.present.toNat b.arrival b.jseq b.quality (slotFlags i) m.numCh m.stream ++ chanBytes (b.chans.take m.numCh)
  let s := (s.setGrove g { gv with amendAt := gv.amendAt + 1 }).wrBytes addr (body ++ List.replicate (640 - body.length) 0)
  let s := (s.bump (gldStreamCnt b.stream 1)).bump (gldGroveCnt g 12)
  let s := if sus then s.bump (gldStreamCnt b.stream 5) else s
  (s.digest 2 g (x.seq * 65536 + x.amend) body).pendNotice
    { grove := g, kind := 2, ttag := x.ttag, seq := x.seq, addr := addr, epoch := s.epoch, flags := 0, t0 := none }

/-- A block placed in the Set for its time-tag, which is opened if it is not open (R180, R183, R184). -/
def State.placeBlk (s : State) (g n : Nat) (m : GMember) (b : Blk) : State :=
  let sus := s.suspectBlk g b
  let b := asPlaced sus b
  let old := (s.grove g).setAt b.ttag
  let s := match old with
    | some _ => s
    | none =>
      let x := s.markFirst g (newSet b.ttag (s.seqOf g b.ttag) true)
      ((s.putSet g x).blankRecord g x).bump (gldGroveCnt g 0)
  match (s.grove g).setAt b.ttag with
  | none => s
  | some x =>
    let i : SlotInfo := ⟨b.present, b.quality, x.prov, false, sus⟩
    let x := { x with opened := true, slots := mset ⟨0, 0, false, false, false⟩ x.slots n i }
    let s := ((s.putSet g x).writeSlot g x m i b).bump (gldStreamCnt b.stream 0)
    let s := if sus then s.bump (gldStreamCnt b.stream 5) else s
    s.releases g (.accept b.ttag old) s.gt false

/-- Room for a new Set: the ring's place (R204) and the 512 open Sets (R191) are freed first; false when RELEASE_HOLD
forbids it. -/
def State.makeRoom (s : State) (g ttag : Nat) : State × Bool :=
  let seq := s.seqOf g ttag
  let occupant := s.occupants g seq
  if s.releaseHold && (!occupant.isEmpty || decide (512 ≤ s.openCount)) then (s, false)
  else
    let s : State := match occupant.getLast? with
      | none => s
      | some y =>
        ((s.forceTo g y.ttag 2 (s.forceFuel g y.ttag)).freePlace g seq).releases g (.accept y.ttag none) s.gt true
    let s : State :=
      if 512 ≤ s.openCount then
        match s.earliestOpen with
        | none => s
        | some c =>
          (s.forceTo c.1 c.2.ttag 2 (s.forceFuel c.1 c.2.ttag)).releases c.1 (.accept c.2.ttag none) s.gt true
      else s
    (s, true)

/-- The Glade takes an accepted block: `prev` is the time-tag of the stream's previous accepted block (R181, R654). -/
def State.gladeBlock (s : State) (g : Nat) (prev : Option Nat) (b : Blk) : State :=
  let s := s.bump R.GLD_U_BLOCKS
  let gv := s.grove g
  let wasLate := mget false s.gld.tooLate b.stream
  let clear (s : State) : State := { s with gld := { s.gld with tooLate := mset false s.gld.tooLate b.stream false } }
  match memberOf b.stream gv.members 0 with
  | none => s.countTooLate b
  | some (n, m) =>
    if prev = some b.ttag then
      if wasLate then s.countTooLate b
      else
        let b' := asPlaced (s.suspectBlk g b) b
        let filled : Option State :=
          match gv.setAt b.ttag with
          | none => none
          | some x =>
            let i := mget ⟨0, 0, false, false, false⟩ x.slots n
            if s.gfld g F.GLD_G_CTRL.DUP_FILL = 1 && !x.prov && !x.final && (x.slots.any fun y => y.1 = n)
                && (b'.present &&& ~~~i.present) ≠ 0 then
              some ((s.fillSlot g x n m i b').releases g (.accept b.ttag (some x)) s.gt false)
            else none
        match filled with
        | some s' => clear s'
        | none => clear (s.bump (gldStreamCnt b.stream 3))
    else if gtAfter b.ttag gv.front then
      let r := if (gv.setAt b.ttag).isSome then (s, true) else s.makeRoom g b.ttag
      if !r.2 then (r.1.bump R.GLD_U_CAPACITY_LATE).countTooLate b
      else if gtAfter b.ttag (r.1.grove g).front then clear (r.1.placeBlk g n m b)
      else
        match (r.1.grove g).setAt b.ttag with
        | some x => clear (r.1.amendBlk g x m b)
        | none => r.1.countTooLate b
    else
      match gv.setAt b.ttag with
      | none => s.countTooLate b
      | some x =>
        if gtAfter (gtAdd b.ttag (s.groveHorizon g)) s.tim.mark then clear (s.amendBlk g x m b)
        else s.countTooLate b

/-! ## Time marks at the Glade -/

/-- A Grove starts at a mark (R177 to R179): members, totals and record size are fixed; a restart writes a Ring Log
record (R70, log 17). -/
def State.groveStart (s : State) (g mark : Nat) : State :=
  let ms := s.memberList (s.memberStreams g) 128
  let gv := s.grove g
  let r := max 1 (s.groveRate g)
  let t := firstTag r mark
  let s := s.setGrove g { gv with
    run := .running, members := ms, firstTag := t, front := prevTag r t, sets := [], pastTg := false }
  let s := (s.setFld (F.GLD_RECSIZE.UNITS.at (0x40 * g)) (recUnits ms)).setFld (F.GLD_TOTALS.W.at (0x40 * g)) (weightTotal ms)
  let s := (s.setFld (F.GLD_G_STATUS.EXPECTED.at (0x40 * g)) (ms.filter (·.expected)).length).setFld
    (F.GLD_G_STATUS.STOPPED.at (0x40 * g)) 0
  if gv.ran then s.ringLog 0x000A 35 (leBytes 1 g ++ leBytes 1 1 ++ leBytes 6 0 ++ leBytes 8 t) else s

/-- Closes due at a mark (R196): final Sets whose horizon has passed, in time-tag order. -/
def State.closesDue (s : State) (g : Nat) : State :=
  s.closeAll g 0 ((s.grove g).sets.filter fun y =>
    y.final && gtAtOrAfter s.tim.mark (gtAdd y.ttag (s.groveHorizon g)))

/-- A Grove at a mark: start, releases, closes (R179, R186, R196). -/
def State.groveMark (s : State) (old t : Nat) (g : Nat) : State :=
  match (s.grove g).run with
  | .stopped => s
  | .starting => s.groveStart g s.tim.mark
  | _ => (s.releases g (.mark old) t false).closesDue g

/-- A mark at the Glade: every Grove in number order (R189). `old` is the mark value before, `t` the mark's Grid Time. -/
def State.gladeMark (s : State) (old t : Nat) : List Nat → State
  | [] => s
  | g :: rest => (s.groveMark old t g).gladeMark old t rest

/-! ## Start and stop of a Grove (R70) -/

/-- RUN of a Grove written to one: refused with BAD_CFG, or it waits for its start mark (R179, R203). -/
def State.groveRunReq (s : State) (g : Nat) : State :=
  let bad := s.badCfg g
  let s := s.setFld (F.GLD_G_STATUS.BAD_CFG.at (0x40 * g)) bad
  if bad = 0 then s.setGrove g { s.grove g with run := .starting } else s

/-- RUN of a Grove written to zero: the boundary is fixed (R70). A Grove that still waits for its start mark is stopped at once, without
a Ring Log record: the spec leaves it open (DESIGN CHOICE, log 45). -/
def State.groveStopReq (s : State) (g : Nat) : State :=
  let gv := s.grove g
  match gv.run with
  | .running =>
    match gv.openSets.getLast? with
    | some x => s.setGrove g { gv with run := .stopping, boundary := x.ttag }
    | none => (s.setGrove g { gv with run := .stopping, boundary := gv.front }).groveStopped g
  | .starting => (s.setGrove g { gv with run := .stopped }).setFld (F.GLD_G_STATUS.STOPPED.at (0x40 * g)) 1
  | _ => s

/-! ## Delivery (R192 to R194) -/

/-- The header bytes of a record that a digest covers: local fields and those that change later are left out (R202, R205). -/
def digestHeader (l : List Byte) : List Byte := l.take 0x50

/-- A slot as a view reads it: with STAGE set it reads empty through a provisional notice (R184). -/
def viewSlot (final : Bool) (m : GMember) (l : List Byte) : List Byte :=
  if !final && bitOf (leAt l 0x1A 1) 1 then emptySlot m else l

/-- Slots of a record as a view reads them. -/
def State.viewBytes (s : State) (addr : Nat) (final : Bool) : List GMember → List Byte
  | [] => []
  | m :: t => viewSlot final m (s.rdBytes (addr + m.off) (32 + 8 * m.numCh)) ++ s.viewBytes addr final t

/-- A provisional release made late sets LATE in the header: the final notice still to come carries it (R208). -/
def State.lateFinal (s : State) (g seq : Nat) : State :=
  { s with gld := { s.gld with pend := s.gld.pend.map fun q =>
      if q.grove = g && q.seq = seq && q.kind = 1 then { q with flags := q.flags ||| 64 } else q } }

/-- A release is made at t1: its header takes T0 and T1, its notice is pushed and delivered to the engines (R192). -/
def State.deliverRelease (s : State) (p : Pend) : State :=
  let gv := s.grove p.grove
  let t1 := s.gt
  let t0 := match p.t0 with | some t => t | none => gv.lastT1
  let late := gtAfter t1 (gtAdd t0 (gtOfUs 20))
  let flags := if late then p.flags ||| 64 else p.flags
  let s := if late then (s.bump (gldGroveCnt p.grove 14)).raise F.GLD_INT_STATUS.RELEASE_LATE else s
  let s := if late && p.kind = 0 then s.lateFinal p.grove p.seq else s
  let s := s.setGrove p.grove { gv with
    lastT1 := t1, pastTg := gv.pastTg || (s.xng.tsDone && p.kind = 1)
    sets := gv.sets.map fun x =>
      if x.seq = p.seq then
        let x := { x with late := x.late || late }
        if p.kind = 0 then { x with t0Prov := t0, t1Prov := t1 } else { x with t0Final := t0, t1Final := t1 }
      else x }
  let s := if late then s.wrBytes (p.addr + 0x15) (leBytes 1 (leNat (s.rdBytes (p.addr + 0x15) 1) ||| 64)) else s
  let s := s.wrBytes (p.addr + (if p.kind = 0 then 0x50 else 0x60)) (leBytes 8 t0 ++ leBytes 8 t1)
  let s := s.digest p.kind p.grove p.seq
    (digestHeader (s.rdBytes p.addr 0x50) ++ s.viewBytes p.addr (p.kind = 1) gv.members)
  let e := noticeEntry p.ttag p.seq p.addr p.epoch p.grove p.kind flags
  (s.gladeNotice p.grove p.kind e).feedEngines p.grove p.kind e

/-- Amendment and close notices that now stand at the head of the list go out. -/
def State.drainPend (s : State) : Nat → State
  | 0 => s
  | fuel + 1 =>
    match s.gld.pend with
    | [] => s
    | p :: t =>
      if p.kind < 2 then s
      else
        let s := { s with gld := { s.gld with pend := t } }
        (s.gladeNotice p.grove p.kind (noticeEntry p.ttag p.seq p.addr p.epoch p.grove p.kind p.flags)).drainPend fuel

/-- Every running Grove is past its first final release after ts (R506). -/
def State.allPastTg (s : State) : Bool := s.gld.groves.all fun x => !(x.2.run = .running || x.2.run = .stopping) || x.2.pastTg

/-- The oldest release decided is made (SET_RELEASED): M6 ends at the Set boundary of every running Grove (R57). -/
def State.setReleased (s : State) : State :=
  match s.gld.pend with
  | [] => s
  | p :: t =>
    let s := { s with gld := { s.gld with pend := t } }
    let s := (s.deliverRelease p).drainPend t.length
    if s.sys.mode = .takeover && s.xng.toDone && s.allPastTg then s.beginTrans .service 8 else s

end Sys2Proof.Machine
end

