-- ==== Sys2Proof/Machine/Boot.lean ====
section
/-!
DEFINITION. The start of the Glade (R62) and the mode a unit chooses at the end of a Boot (R57, R493).
-/

namespace Sys2Proof.Machine

/-- The Glade is started (R62, R211). -/
def State.startGlade (s : State) : State :=
  if s.sys.gladeUp then s
  else ({ s with sys := { s.sys with gladeUp := true } }.setFld F.GLD_CTRL.RUN 1).setFld F.GLD_STATUS.STOPPED 0

/-- The time condition of R62: the servo has been LOCKED, or SYS_BOOT_TIMEWAIT has expired. -/
def State.timeOk (s : State) : Bool := s.tim.everLocked || s.sys.timeWaitUp

/-- Modes in which the Glade may start under R62: the Glade runs in none of the others (R55). -/
def State.gladeMayStart (s : State) : Bool :=
  match s.sys.mode with
  | .boot => decide (7 ≤ s.sys.bootStep)
  | .commission | .service | .degraded | .test => true
  | _ => false

/-- M4, once the time condition holds. -/
def State.serviceIfTime (s : State) : Option Mode := if s.timeOk then some .service else none

/-- The choice of a unit with PAIR_EN set (R492, R493). -/
def State.pairChoice (s : State) : Option Mode :=
  if s.flag F.XNG_STATUS.HOME_CONFLICT then none
  else
    match s.xng.hb with
    | some h =>
      if h.duty then some .shadow
      else if h.mode = 1 || h.mode = 3 || h.mode = 5 then
        (if s.flag F.XNG_CTRL.HOME then s.serviceIfTime else none)
      else none
    | none => if s.sys.pairWaitUp then s.serviceIfTime else none

/-- The mode chosen from M1 Boot after t7 (R57), or none while a condition is awaited. -/
def State.bootChoice (s : State) : Option Mode :=
  if s.sys.mode != .boot || s.sys.bootStep < 7 then none
  else if !s.flag F.SEC_STATUS.IDENTITY then some .provision
  else if !s.mram.committed || s.fld F.SYS_BOOT_TARGET.TARGET = 1 then some .commission
  else if s.fld F.SYS_BOOT_TARGET.TARGET = 2 && !s.sys.bootFromWake then some .dormant
  else if s.paired then s.pairChoice
  else s.serviceIfTime

/-- Act on the choice: the transition begins (R57). -/
def State.bootAct (s : State) : State :=
  match s.bootChoice with
  | none => s
  | some m => (s.setFld F.SYS_MODE_STATUS.TARGET m.num).beginTrans m 1

/-- The servo locked, or the time wait expired: the Glade starts, and a Boot may choose M4 (R62). -/
def State.timeReady (s : State) : State :=
  let s := if s.gladeMayStart && s.timeOk then s.startGlade else s
  s.bootAct

end Sys2Proof.Machine
end

