-- ==== Sys2Proof/Machine/Frames.lean ====
section
/-!
DEFINITION. Reading Ethernet, IP, UDP and TCP headers, frame check sequences, and building the frames the unit sends.
-/

namespace Sys2Proof.Machine

/-! ## Check sequences -/

/-- One bit of CRC-32 (IEEE 802.3). -/
def crc32Bit (c : Nat) : Nat := if c % 2 = 1 then (c / 2) ^^^ 0xEDB88320 else c / 2

/-- The frame check sequence of a frame (R83). -/
def crc32 (l : List Byte) : Nat :=
  (l.foldl (fun c b =>
    let x := c ^^^ b.toNat
    crc32Bit (crc32Bit (crc32Bit (crc32Bit (crc32Bit (crc32Bit (crc32Bit (crc32Bit x)))))))) 0xFFFFFFFF) ^^^ 0xFFFFFFFF

/-- A frame with its FCS appended. -/
def withFcs (l : List Byte) : List Byte := l ++ leBytes 4 (crc32 l)

/-- One bit of CRC-CCITT. -/
def ccittBit (c : Nat) : Nat := if bitOf c 15 then (c * 2 ^^^ 0x1021) % 65536 else c * 2 % 65536

/-- CRC-CCITT of a C37.118 frame: polynomial 0x1021 from 0xFFFF (R123). -/
def crcCcitt (l : List Byte) : Nat :=
  l.foldl (fun c b =>
    let x := c ^^^ (b.toNat * 256)
    ccittBit (ccittBit (ccittBit (ccittBit (ccittBit (ccittBit (ccittBit (ccittBit x)))))))) 0xFFFF

/-- Sum of the big-endian 16-bit words of a list. -/
def sum16 : List Byte → Nat
  | [] => 0
  | [a] => a.toNat * 256
  | a :: b :: t => a.toNat * 256 + b.toNat + sum16 t

/-- Ones' complement fold to 16 bits. -/
def fold16 (n : Nat) : Nat :=
  let a := n % 65536 + n / 65536
  let b := a % 65536 + a / 65536
  b % 65536 + b / 65536

/-- The Internet checksum of a list whose checksum field is included holds. -/
def sumOk (l : List Byte) : Bool := fold16 (sum16 l) = 0xFFFF

/-- The Internet checksum to be placed for a list whose checksum field is zero. -/
def inetSum (n : Nat) : Nat := 0xFFFF - fold16 n

/-! ## Ethernet -/

/-- Destination and source addresses. -/
def dstMac (l : List Byte) : Nat := beAt l 0 6
def srcMac (l : List Byte) : Nat := beAt l 6 6

/-- The frame carries one tag of type 0x8100 (R98). -/
def tagged (l : List Byte) : Bool := beAt l 12 2 = 0x8100

/-- VID of a frame: zero when untagged or priority-tagged. -/
def vidOf (l : List Byte) : Nat := if tagged l then beAt l 14 2 % 4096 else 0

/-- Length/type after a tag, and the offset of what follows it. -/
def etherType (l : List Byte) : Nat := if tagged l then beAt l 16 2 else beAt l 12 2
def etherOff (l : List Byte) : Nat := if tagged l then 18 else 14

/-! ## IP -/

/-- The frame carries IPv4, or IPv6. -/
def isV4 (l : List Byte) : Bool := etherType l = 0x0800
def isV6 (l : List Byte) : Bool := etherType l = 0x86DD

/-- Length of an IPv4 header in bytes. -/
def v4Hdr (l : List Byte) : Nat := beAt l (etherOff l) 1 % 16 * 4

/-- IPv6 extension headers passed over: hop-by-hop, routing, destination options; the answer is the next header, its
offset, and whether the walk ends at a Fragment header: what follows one is part of a fragment and no header (R656). -/
def v6Walk (l : List Byte) : Nat → Nat → Nat → Nat × Nat × Bool
  | 0, nh, off => (nh, off, false)
  | fuel + 1, nh, off =>
    if nh = 0 || nh = 43 || nh = 60 then v6Walk l fuel (beAt l off 1) (off + (beAt l (off + 1) 1 + 1) * 8)
    else (nh, off, nh = 44)

/-- Protocol, offset of its header, and whether the frame is an IP fragment (R113 rule 5). -/
def ipProto (l : List Byte) : Nat × Nat × Bool :=
  let o := etherOff l
  if isV4 l then
    let fl := beAt l (o + 6) 2
    (beAt l (o + 9) 1, o + v4Hdr l, decide (fl % 8192 ≠ 0) || bitOf fl 13)
  else if isV6 l then v6Walk l (l.length / 8) (beAt l (o + 6) 1) (o + 40)
  else (0xFFFF, o, false)

/-- Bytes of IP payload from the transport header, by the IP length. -/
def ipPayloadLen (l : List Byte) : Nat :=
  let o := etherOff l
  let p := ipProto l
  if isV4 l then beAt l (o + 2) 2 - v4Hdr l
  else beAt l (o + 4) 2 - (p.2.1 - (o + 40))

/-- IP source and destination addresses, most significant byte first. -/
def ipSrc (l : List Byte) : Nat := if isV4 l then beAt l (etherOff l + 12) 4 else beAt l (etherOff l + 8) 16
def ipDst (l : List Byte) : Nat := if isV4 l then beAt l (etherOff l + 16) 4 else beAt l (etherOff l + 24) 16

/-- The IPv4 header checksum and the IP lengths are consistent with the frame (R113 rule 4). -/
def ipHeaderOk (l : List Byte) : Bool :=
  let o := etherOff l
  if isV4 l then
    decide (20 ≤ v4Hdr l) && beAt l o 1 / 16 = 4 && decide (o + v4Hdr l ≤ l.length) && sumOk (slice l o (v4Hdr l))
      && decide (v4Hdr l ≤ beAt l (o + 2) 2) && decide (o + beAt l (o + 2) 2 ≤ l.length)
  else if isV6 l then
    beAt l o 1 / 16 = 6 && decide (o + 40 ≤ l.length) && decide (o + 40 + beAt l (o + 4) 2 ≤ l.length)
      && decide ((ipProto l).2.1 ≤ o + 40 + beAt l (o + 4) 2)
  else true

/-- Sum of the pseudo-header of UDP and TCP. -/
def pseudoSum (l : List Byte) (proto len : Nat) : Nat :=
  let o := etherOff l
  (if isV4 l then sum16 (slice l (o + 12) 8) else sum16 (slice l (o + 8) 32)) + proto + len

/-- UDP length and checksum, or TCP checksum, are right (R113 rule 4). -/
def transportOk (l : List Byte) : Bool :=
  let p := ipProto l
  let n := ipPayloadLen l
  if p.1 = 17 then
    let len := beAt l (p.2.1 + 4) 2
    let sum := beAt l (p.2.1 + 6) 2
    decide (8 ≤ n) && len = n &&
      (if sum = 0 then isV4 l else fold16 (pseudoSum l 17 len + sum16 (slice l p.2.1 len)) = 0xFFFF)
  else if p.1 = 6 then
    decide (20 ≤ n) && fold16 (pseudoSum l 6 n + sum16 (slice l p.2.1 n)) = 0xFFFF
  else true

/-- Source and destination ports of UDP and TCP. -/
def l4Src (l : List Byte) : Nat := beAt l (ipProto l).2.1 2
def l4Dst (l : List Byte) : Nat := beAt l ((ipProto l).2.1 + 2) 2

/-- Payload of a UDP datagram. -/
def udpPayload (l : List Byte) : List Byte := slice l ((ipProto l).2.1 + 8) (beAt l ((ipProto l).2.1 + 4) 2 - 8)

/-- A whole UDP datagram, by its header. -/
def isUdp (l : List Byte) : Bool := (isV4 l || isV6 l) && (ipProto l).1 = 17 && !(ipProto l).2.2
def isTcp (l : List Byte) : Bool := (isV4 l || isV6 l) && (ipProto l).1 = 6 && !(ipProto l).2.2

/-! ## Frames the unit builds -/

/-- An Ethernet header with an optional tag. -/
def ethHeader (dst src vid prio etype : Nat) : List Byte :=
  beBytes 6 dst ++ beBytes 6 src
    ++ (if vid = 0 then [] else beBytes 2 0x8100 ++ beBytes 2 (prio * 8192 + vid)) ++ beBytes 2 etype

/-- A frame padded to the least length before its FCS. -/
def padded (l : List Byte) : List Byte := l ++ List.replicate (60 - l.length) 0

/-- An IPv4 header (no options, do-not-fragment, TTL 64) for a payload. -/
def ipv4Header (src dst proto len : Nat) : List Byte :=
  let h (sum : Nat) : List Byte :=
    beBytes 2 0x4500 ++ beBytes 2 (20 + len) ++ beBytes 2 0 ++ beBytes 2 0x4000 ++ beBytes 1 64 ++ beBytes 1 proto
      ++ beBytes 2 sum ++ beBytes 4 src ++ beBytes 4 dst
  h (inetSum (sum16 (h 0)))

/-- An IPv6 header (hop limit 64) for a payload. -/
def ipv6Header (src dst proto len : Nat) : List Byte :=
  beBytes 4 0x60000000 ++ beBytes 2 len ++ beBytes 1 proto ++ beBytes 1 64 ++ beBytes 16 src ++ beBytes 16 dst

/-- An IP packet with a UDP datagram. -/
def udpPacket (v6 : Bool) (src dst sp dp : Nat) (payload : List Byte) : List Byte :=
  let len := 8 + payload.length
  let hdr := if v6 then ipv6Header src dst 17 len else ipv4Header src dst 17 len
  let ph := sum16 (if v6 then beBytes 16 src ++ beBytes 16 dst else beBytes 4 src ++ beBytes 4 dst) + 17 + len
  let u (sum : Nat) : List Byte := beBytes 2 sp ++ beBytes 2 dp ++ beBytes 2 len ++ beBytes 2 sum ++ payload
  let c := inetSum (ph + sum16 (u 0))
  hdr ++ u (if c = 0 then 0xFFFF else c)

/-- An IP packet with a TCP segment that only acknowledges. -/
def tcpAckPacket (v6 : Bool) (src dst sp dp seq ack window : Nat) : List Byte :=
  let hdr := if v6 then ipv6Header src dst 6 20 else ipv4Header src dst 6 20
  let ph := sum16 (if v6 then beBytes 16 src ++ beBytes 16 dst else beBytes 4 src ++ beBytes 4 dst) + 6 + 20
  let u (sum : Nat) : List Byte :=
    beBytes 2 sp ++ beBytes 2 dp ++ beBytes 4 seq ++ beBytes 4 ack ++ beBytes 2 0x5010 ++ beBytes 2 window
      ++ beBytes 2 sum ++ beBytes 2 0
  hdr ++ u (inetSum (ph + sum16 (u 0)))

end Sys2Proof.Machine
end

