-- ==== Sys2Proof/Machine/Net.lean ====
section
/-!
DEFINITION. The Frame MAC (chapter 03): transmission by class, pause, reception checks, MACsec, stamps and delivery.
-/

namespace Sys2Proof.Machine

/-! ## Ports -/

/-- Time of one bit in ps (R88). -/
def State.bitPs (s : State) (p : Nat) : Nat := if 4 ≤ p then 1000 else if s.pflag p F.NET_CTRL.SPEED then 40 else 100

/-- ps in 2^-32 s. -/
def gtOfPs (ps : Nat) : Nat := ps * 2 ^ 32 / 1000000000000

/-- A signed number of ps added to an 80-bit Grid Time. -/
def stampAdd (t : Nat) (ps : Int) : Nat :=
  ((((t : Int) + ps * 2 ^ 32 / 1000000000000) % (2 ^ 80 : Int))).toNat

/-- Grid Time as stamped, zero while it does not run (R154). -/
def State.grid80 (s : State) : Nat := if s.tim.running then s.tim.grid else 0

/-- The port's run control is set, or it is finishing a frame (R107). -/
def State.portRuns (s : State) (p : Nat) : Bool := !s.pflag p F.NET_STATUS.STOPPED

/-- A port's status or interrupt bit set. -/
def State.praise (s : State) (p : Nat) (f : Fld) : State := s.raise (f.at (netWin p))

/-- The rate and FEC of a data port name a physical layer of R78: Clause 108 is for 25 Gb/s only. -/
def State.phyKnown (s : State) (p : Nat) : Bool :=
  decide (4 ≤ p) || s.pflag p F.NET_CTRL.SPEED || s.pfld p F.NET_CTRL.FEC != 2

/-- Physical state shown in NET_STATUS from t7 on (R650). -/
def State.showPhy (s : State) (p : Nat) : State :=
  let x := s.port p
  if s.sys.bootStep < 7 then s
  else
    let was := s.pflag p F.NET_STATUS.LINK
    let fits := x.moduleOk || decide (4 ≤ p)
    let link := x.link && fits && s.phyKnown p
    let s := (s.setFld (F.NET_STATUS.MODULE.at (netWin p)) (b2n (x.moduleIn && decide (p < 4)))).setFld
      (F.NET_STATUS.LINK.at (netWin p)) (b2n link)
    let s := s.setFld (F.NET_STATUS.FEC_LOCK.at (netWin p)) (b2n (x.fecLock && fits && s.phyKnown p))
    if was = link then s else s.praise p F.NET_INT_STATUS.LINK

/-! ## Pause (R87 to R91) -/

/-- Clk of `q` quanta of 512 bit times, rounded up (R88). -/
def State.quantaClk (s : State) (p q : Nat) : Nat := (q * s.bitPs p * 6144 + 9999) / 10000

/-- A received pause frame (R87 to R89). -/
def State.pauseRx (s : State) (p quanta : Nat) : State :=
  if s.pflag p F.NET_CTRL.RX_PAUSE_EN then
    let s := s.settleHold p
    let was := decide (s.now < (s.port p).pauseUntil)
    let s := (s.setPort p { s.port p with pauseUntil := s.now + s.quantaClk p quanta }).pbump p R.NET_RX_PAUSE_HONOURED
    let s := if quanta != 0 && !was then s.praise p F.NET_INT_STATUS.PAUSED else s
    s.armHold p
  else s.pbump p R.NET_RX_PAUSE_IGNORED

/-! ## Transmission (R92 to R95) -/

/-- A submitter hands a frame to a port (R92, R93). -/
def State.txSubmit (s : State) (p : Nat) (f : TxFrame) : State :=
  (s.txQueue p f).pbump p R.NET_TX_SUBMITTED

/-- The head frame of the highest-priority class that is not empty (R93), and the others. -/
def headFrame (l : List TxFrame) : Option (TxFrame × List TxFrame) :=
  match (List.range 5).findSome? fun c => (l.findIdx? fun f => f.cls = c) with
  | none => none
  | some i => match l[i]? with | none => none | some f => some (f, l.eraseIdx i)

/-- Type of a frame sent or received without MACsec under PTP_BYPASS (R101). -/
def State.bypasses (s : State) (p : Nat) (bytes : List Byte) : Bool :=
  s.pflag p F.NET_MACSEC_CTRL.PTP_BYPASS && etherType bytes = 0x88F7

/-- A frame is secured on this port (R99, R101). -/
def State.secures (s : State) (p : Nat) (bytes : List Byte) : Bool :=
  s.pflag p F.NET_CTRL.MACSEC_EN && !s.bypasses p bytes

/-- The unit's transmit SCI: the station address and port number 1 (log 18). -/
def State.txSci (s : State) (p : Nat) : Nat := s.station p * 65536 + 1

/-- The transmit association selected (R102). -/
def State.txSa (s : State) (p : Nat) : Option MacSa :=
  (s.port p).sas.find? fun a => !a.rx && a.an = s.pfld p F.NET_MACSEC_CTRL.TX_AN

/-- A frame with SecTAG, encrypted data and ICV (R92, R99). -/
def secureFrame (sci : Nat) (a : MacSa) (bytes : List Byte) : List Byte :=
  let head := bytes.take 12
  let data := bytes.drop 12
  let sl := if data.length < 48 then data.length else 0
  let tag := beBytes 2 0x88E5 ++ beBytes 1 (0x2C + a.an) ++ beBytes 1 sl ++ beBytes 4 a.nextPn ++ beBytes 8 sci
  let r := gcmSeal (beBytes 32 a.key.toNat) (beBytes 8 sci ++ beBytes 4 a.nextPn) (head ++ tag) data
  head ++ tag ++ r.1 ++ r.2

/-- The packet number of the transmit association advances (R102). PN_NEAR compares the number of the next frame with the threshold
(DESIGN CHOICE, log 18). -/
def State.stepPn (s : State) (p : Nat) (a : MacSa) : State :=
  let n := a.nextPn + 1
  let s := s.setPort p { s.port p with
    sas := (s.port p).sas.map fun b => if !b.rx && b.an = a.an then { b with nextPn := n } else b }
  if s.pfld p F.NET_MACSEC_PN_THRESH.PN ≤ n then s.praise p F.NET_INT_STATUS.PN_NEAR else s

/-- A looped port sends nothing to the medium (R74). -/
def State.looped (s : State) (p : Nat) : Bool :=
  s.sys.mode = .test && bitOf (s.fld F.SYS_TEST_CTRL.LOOP) p

/-- The correction field of a one-step Pdelay_Resp carries the turnaround (R157): units of 2^-16 ns. -/
def patchResp (t2 t3 : Nat) (bytes : List Byte) : List Byte :=
  let o := etherOff bytes + 8
  let ns := ((t3 : Int) - (t2 : Int)) * 1000000000 * 65536 / 2 ^ 32
  bytes.take o ++ beBytes 8 (wrapInt 64 (signedOf 64 (beAt bytes o 8) + ns)) ++ bytes.drop (o + 8)

/-- The first bit of an alarm frame sets T4 of its record when it is the later event (R305, R306). -/
def State.alarmStart (s : State) (p stamp : Nat) (tag : TxTag) : State :=
  match tag with
  | .alarm rec' target =>
    let paused := s.pausedNs p
    { s with alm := { s.alm with recs := s.alm.recs.map fun r =>
        if r.aseq = rec' && gtAfter (stamp % 2 ^ 64) r.t4 then
          { r with
            t4 := stamp % 2 ^ 64
            paused := match r.frames.find? fun f => f.1 = p && f.2.1 = target with
              | some f => paused - f.2.2 | none => 0 }
        else r } }
  | _ => s

/-- A frame at the head of its class is discarded: counted, but for the Frame MAC's own pause frames (R95, R102, R107). -/
def State.txDrop (s : State) (p : Nat) (f : TxFrame) (rest : List TxFrame) (r : Nat) : State :=
  let s := s.setPort p { s.port p with tx := rest }
  (if f.tag.isPause then s else s.pbump p r).armHold p

/-- The head frame starts, or is discarded without link, transmitter or packet number (R93, R95, R102). At an exhausted packet number
only the association that TX_AN selects counts, and a port with none installed discards and counts the same way (DESIGN CHOICE,
log 18). -/
def State.txStart (s : State) (p : Nat) : State :=
  let s := s.settleHold p
  let x := s.port p
  match headFrame x.tx with
  | none => s
  | some (f, rest) =>
    if x.cur.isSome || !s.pflag p F.NET_CTRL.RUN || !s.portRuns p then s.armHold p
    else if !(s.pflag p F.NET_STATUS.LINK || s.looped p) || !s.pflag p F.NET_CTRL.TX_EN then
      s.txDrop p f rest R.NET_TX_LINK_DOWN
    else if s.now < x.pauseUntil then s.armHold p
    else
      let stamp := stampAdd s.grid80 (signedOf 32 (s.pfld p F.NET_TX_DELAY.PS))
      let bytes := padded (match f.tag with | .pdelayResp t2 => patchResp t2 stamp f.bytes | _ => f.bytes)
      let go (s : State) (wire : List Byte) : State :=
        let s := s.setPort p { s.port p with tx := rest, cur := some { f with bytes := wire }, curStamp := stamp }
        let s := s.alarmStart p stamp f.tag
        if s.looped p then s
        else s.emit (match f.tag with | .pause q => .pause p q | _ => .frame p (withFcs wire))
      if s.secures p bytes && !f.tag.isPause then
        match s.txSa p with
        | none => s.txDrop p f rest R.NET_TX_PN_EXHAUSTED
        | some a =>
          if 2 ^ 32 ≤ a.nextPn then s.txDrop p f rest R.NET_TX_PN_EXHAUSTED
          else (go s (secureFrame (s.txSci p) a bytes)).stepPn p a
      else go s bytes

/-- NET_CTRL.TX_FLUSH while stopped (R95). -/
def State.txFlush (s : State) (p : Nat) : State :=
  let n := submitted (s.port p).tx
  (s.setPort p { s.port p with tx := [], holdFrom := none }).bumpBy (pcnt R.NET_TX_FLUSHED p) n

/-! ## Reception (R81 to R86) -/

/-- Bytes of a port's receive buffer (R81). -/
def rxBuffer (p : Nat) : Nat := if 4 ≤ p then 131072 else 1048576

/-- Bytes of the frames that wait in a port's receive buffer for the parser, FCS included (R143). -/
def State.rxUsed (s : State) (p : Nat) : Nat :=
  s.ing.eth.foldl (fun a e => if e.port = p then a + e.bytes.length + (if e.truncated then 0 else 4) else a) 0

/-- The destination passes check 5 (R83, R96, R97). -/
def State.addrOk (s : State) (p : Nat) (bytes : List Byte) : Bool :=
  let d := dstMac bytes
  s.pflag p F.NET_CTRL.PROMISC || d = s.station p || d = 0xFFFFFFFFFFFF
    || (List.range 256).any fun n =>
      s.flag (F.NET_MCAST_HI.VALID.at (8 * n)) && bitOf (s.fld (F.NET_MCAST_HI.PORTS.at (8 * n))) p
        && s.fld (F.NET_MCAST_LO.ADDR_LO.at (8 * n)) + s.fld (F.NET_MCAST_HI.ADDR_HI.at (8 * n)) * 2 ^ 32 = d

/-- The VLAN check (R98). -/
def State.vlanOk (s : State) (p : Nat) (bytes : List Byte) : Bool :=
  let t := beAt bytes 12 2
  if t = 0x88A8 || t = 0x9100 then false
  else
    (tagged bytes && bitOf (s.reg (R.NET_VLAN + netWin p + 4 * (vidOf bytes / 32))).toNat (vidOf bytes % 32))
      || ((!tagged bytes || vidOf bytes = 0) && s.pflag p F.NET_CTRL.UNTAGGED)

/-- A SecTAG as received: fields, the secure data, and the ICV. -/
structure SecTag where
  an : Nat
  encrypted : Bool
  pn : Nat
  sci : Nat
  aad : List Byte
  body : List Byte
  icv : List Byte
  deriving DecidableEq, Repr

/-- The SecTAG of a frame without FCS, none when there is none or it is invalid (R100, IEEE 802.1AE). -/
def readSecTag (l : List Byte) : Option SecTag :=
  if beAt l 12 2 ≠ 0x88E5 then none
  else
    let tci := beAt l 14 1
    let sl := beAt l 15 1
    let pn := beAt l 16 4
    let sc := bitOf tci 5
    let off := if sc then 28 else 20
    let n := l.length - off - 16
    if bitOf tci 7 || (sc && (bitOf tci 6 || bitOf tci 4)) || decide (48 ≤ sl) || pn = 0 || decide (l.length < off + 16)
        || (bitOf tci 3 != bitOf tci 2) || (sl != 0 && decide (n < sl)) || (sl = 0 && decide (n < 48)) then none
    else
      let n := if sl = 0 then n else sl
      some { an := tci % 4, encrypted := bitOf tci 3, pn := pn
             sci := if sc then beAt l 20 8 else beAt l 6 6 * 65536 + (if bitOf tci 4 then 0 else 1)
             aad := l.take off, body := slice l off n, icv := slice l (off + n) 16 }

/-- What MACsec reception answers: the counter of the cause, or the frame and the association with its new packet number. -/
inductive SecResult where
  | fail (counter : Nat)
  | ok (bytes : List Byte) (sa : MacSa)
  deriving DecidableEq, Repr

/-- Receive channel of an SCI (R108). -/
def State.rxChan (s : State) (p sci : Nat) : Option Nat :=
  (List.range 16).find? fun i =>
    let v := (s.reg (R.NET_MACSEC_SCI_LO + netWin p + 8 * i)).toNat + (s.reg (R.NET_MACSEC_SCI_HI + netWin p + 8 * i)).toNat * 2 ^ 32
    v != 0 && v = sci

/-- MACsec validation of a received frame (R100). A truncated frame counts as ICV whatever SecTAG it has, as R84 says, before the
causes in R100's order (DESIGN CHOICE, log 18). -/
def State.secReceive (s : State) (p : Nat) (truncated : Bool) (l : List Byte) : SecResult :=
  if truncated then .fail R.NET_RX_MACSEC_ICV
  else match readSecTag l with
  | none => .fail R.NET_RX_MACSEC_UNTAGGED
  | some t =>
    match s.rxChan p t.sci with
    | none => .fail R.NET_RX_MACSEC_NO_SC
    | some c =>
      match (s.port p).sas.find? fun a => a.rx && a.chan = c && a.an = t.an with
      | none => .fail R.NET_RX_MACSEC_NO_SC
      | some a =>
        let iv := beBytes 8 t.sci ++ beBytes 4 t.pn
        let plain : Option (List Byte) :=
          if t.encrypted then gcmOpen (beBytes 32 a.key.toNat) iv t.aad t.body t.icv
          else (gcmOpen (beBytes 32 a.key.toNat) iv (t.aad ++ t.body) [] t.icv).map fun _ => t.body
        match plain with
        | none => .fail R.NET_RX_MACSEC_ICV
        | some d =>
          if t.pn + s.pfld p F.NET_MACSEC_CTRL.WINDOW < a.nextPn then .fail R.NET_RX_MACSEC_REPLAY
          else .ok (l.take 12 ++ d) { a with nextPn := max a.nextPn (t.pn + 1) }

/-- A MAC control frame (R87 to R89). -/
def State.macControl (s : State) (p : Nat) (l : List Byte) : State :=
  if beAt l 14 2 = 1 && (dstMac l = 0x0180C2000001 || dstMac l = s.station p) then s.pauseRx p (beAt l 16 2)
  else s.pbump p R.NET_RX_CONTROL_OTHER

/-- The frame is a PTP message for the timebase (R85). -/
def isPtp (l : List Byte) : Bool :=
  etherType l = 0x88F7 || (isUdp l && (l4Dst l = 319 || l4Dst l = 320))

/-- A frame that passed every check is delivered: to the timebase at once, or it waits in the receive buffer until the parser
takes it (R84, R85, R143). -/
def State.deliverFrame (s : State) (p : Nat) (truncated : Bool) (arrival : Nat) (l : List Byte) : State :=
  if !truncated && isPtp l then
    let s := (s.pbump p R.NET_RX_TO_TIMEBASE).bump R.TIM_PTP_RX
    { s with tim := { s.tim with ptpQ := s.tim.ptpQ ++ [⟨p, arrival, l⟩] } }
  else
    { s with ing := { s.ing with eth := s.ing.eth ++ [⟨p, l, truncated, arrival⟩] } }

/-- Checks 5 to 7 and delivery. -/
def State.rxFilter (s : State) (p : Nat) (truncated : Bool) (arrival : Nat) (l : List Byte) : State :=
  if !s.addrOk p l then s.pbump p R.NET_RX_ADDR_FILTERED
  else
    let vlan (s : State) (l : List Byte) : State :=
      if s.vlanOk p l then s.deliverFrame p truncated arrival l else s.pbump p R.NET_RX_VLAN_FILTERED
    if s.secures p l || (truncated && s.pflag p F.NET_CTRL.MACSEC_EN) then
      match s.secReceive p truncated l with
      | .fail r => (s.pbump p r).pbump p R.NET_RX_MACSEC_DROPPED
      | .ok l' a =>
        vlan (s.setPort p { s.port p with
          sas := (s.port p).sas.map fun b => if b.rx && b.chan = a.chan && b.an = a.an then a else b }) l'
    else vlan s l

/-- A frame with FCS whose last bit has arrived, stamped `arrival` (R81 to R85). -/
def State.rxStored (s : State) (p : Nat) (pcsError : Bool) (arrival : Nat) (wire : List Byte) : State :=
  let s := s.pbump p R.NET_RX_SEEN
  let maxLen := s.pfld p F.NET_MAXLEN.BYTES
  let truncated := decide (maxLen < wire.length)
  let kept := wire.take maxLen
  if rxBuffer p < s.rxUsed p + kept.length then (s.pbump p R.NET_RX_OVERFLOW).praise p F.NET_INT_STATUS.OVERFLOW
  else
    let s := if truncated then (s.pbump p R.NET_RX_TRUNCATED).praise p F.NET_INT_STATUS.TRUNCATED else s
    let body := if truncated then kept else kept.take (kept.length - 4)
    if pcsError then s.pbump p R.NET_RX_PCS_ERROR
    else if wire.length < 64 then s.pbump p R.NET_RX_RUNT
    else if !truncated && leNat (kept.drop (kept.length - 4)) ≠ crc32 body then s.pbump p R.NET_RX_FCS_ERROR
    else if beAt body 12 2 = 0x8808 then s.macControl p body
    else s.rxFilter p truncated arrival body

/-- Arrival Grid Time of a frame whose last bit is just in: less its time on the line and the module's delay (R104, R105). -/
def State.arrivalStamp (s : State) (p len : Nat) : Nat :=
  stampAdd s.grid80 (-(((len * 8 * s.bitPs p : Nat) : Int)) - signedOf 32 (s.pfld p F.NET_RX_DELAY.PS))

/-- A frame from the medium (RX_FRAME): nothing is taken with RX_EN zero, on a stopped or on a looped port (R74, R86, R107). -/
def State.rxMedium (s : State) (p : Nat) (pcsError : Bool) (wire : List Byte) : State :=
  if !s.portRuns p || !s.pflag p F.NET_CTRL.RX_EN || s.looped p then s
  else s.rxStored p pcsError (s.arrivalStamp p wire.length) wire

/-- A looped frame returns to its own receiver (R74). -/
def State.loopBack (s : State) (p stamp : Nat) (bytes : List Byte) : State :=
  s.rxStored p false ((stamp + (Config.loopLatency p).toNat) % 2 ^ 80) (withFcs bytes)

end Sys2Proof.Machine
end

