-- ==== Sys2Proof/Machine/Servo.lean ====
section
/-!
DEFINITION. The timebase (chapter 05): offsets in force and leap seconds, the servo, the time quality word, time marks and
the conversions between Grid Time and UTC. Signed times are in units of 2^-24 ns.
-/

namespace Sys2Proof.Machine

/-! ## Units -/

/-- One ns. -/
def nsU : Int := 2 ^ 24

/-- One step of Grid Time, 2^-32 s, is 3,906,250 units of 2^-24 ns. -/
def stepU : Int := 3906250

/-- An integer quotient rounded to nearest, halves upward (log 19). -/
def intNear (a b : Int) : Int := (2 * a + b) / (2 * b)

/-- d in ns, saturating at 31 bits (R175 TIM_OFFSET). -/
def satNs (d : Int) : Int := max (-2147483647) (min 2147483647 (intNear d nsU))

/-! ## UTC offset and leap warning (R170) -/

/-- The selected PTP transmitter's record. -/
def State.bestForeign (s : State) : Option Foreign :=
  match s.tim.best with
  | none => none
  | some (p, i) => s.tim.foreign.find? fun f => f.port = p && f.id = i

/-- TAI-UTC offset in force. -/
def State.utcOffset (s : State) : Nat := s.fld F.TIM_UTC_NOW.OFFSET

/-- IRIG-B is selected in SRC or XCHK_SRC and supplies control functions (R170). -/
def State.irigLeapSource (s : State) : Bool :=
  let src := s.fld F.TIM_CTRL.SRC
  let mode := s.fld F.TIM_CTRL.IRIG_MODE
  (src = 1 || src = 2 || s.fld F.TIM_CTRL.XCHK_SRC = 2) && (mode = 1 || mode = 3) && s.tim.irig.isSome

/-- Offset, leap warning and FROM in force (R170). -/
def State.utcInForce (s : State) : Nat × Nat × Nat :=
  if s.flag F.TIM_UTC.OVERRIDE then (s.fld F.TIM_UTC.OFFSET, s.fld F.TIM_UTC.LEAP, 3)
  else
    let conf := if s.irigLeapSource then (s.fld F.TIM_UTC.OFFSET, s.tim.irigLeap, 2) else (s.fld F.TIM_UTC.OFFSET, 0, 0)
    match s.bestForeign with
    | some f =>
      -- flags of IEEE 1588: bit 2 currentUtcOffsetValid, bit 0 leap61, bit 1 leap59
      if bitOf f.flags 2 then (f.utcOffset, if bitOf f.flags 0 then 1 else if bitOf f.flags 1 then 2 else 0, 1) else conf
    | none => conf

/-- TAI second at which a leap at the end of the present UTC day takes effect (R170, R171). -/
def leapSecondAt (taiSec offset leap : Nat) : Nat :=
  let utc := taiSec - offset
  let dayEnd := (utc / 86400 + 1) * 86400
  if leap = 1 then dayEnd + offset else dayEnd + offset - 1

/-- Whole TAI seconds of Grid Time. -/
def State.taiSec (s : State) : Nat := s.grid80 / 2 ^ 32

/-- TIM_UTC_NOW and TIM_LEAP_AT follow the sources in force (R170): a leap already announced stays at the end of its UTC day when the
offset in force changes. -/
def State.utcEval (s : State) : State :=
  let u := s.utcInForce
  let old := s.reg R.TIM_UTC_NOW
  let s := (((s.setFld F.TIM_UTC_NOW.OFFSET u.1).setFld F.TIM_UTC_NOW.LEAP u.2.1).setFld F.TIM_UTC_NOW.FROM u.2.2).setFld
    F.TIM_UTC_NOW.VALID (b2n (decide (7 ≤ s.sys.bootStep)))
  let was := bitsOf old.toNat 30 29
  if was = u.2.1 then
    let at' := (s.reg R.TIM_LEAP_AT).toNat
    if at' = 0 then s else s.setReg R.TIM_LEAP_AT (w32 ((at' + u.1 + 2 ^ 32 - bitsOf old.toNat 15 0) % 2 ^ 32))
  else
    (s.setReg R.TIM_LEAP_AT (if u.2.1 = 0 then 0 else w32 (leapSecondAt s.taiSec u.1 u.2.1))).raise F.TIM_INT_STATUS.LEAP

/-- Offset after the leap. -/
def leapOffset (offset leap : Nat) : Nat := if leap = 1 then offset + 1 else offset - 1

/-- The leap near the present: the SOC of the second before it, the offset before and the offset after (R171). -/
def State.leapNear (s : State) : Option (Nat × Nat × Nat) :=
  let at' := (s.reg R.TIM_LEAP_AT).toNat
  let leap := s.fld F.TIM_UTC_NOW.LEAP
  if at' ≠ 0 ∧ leap ≠ 0 then
    let o := s.utcOffset
    some ((at' + 2 ^ 32 - o - 1) % 2 ^ 32, o, leapOffset o leap)
  else
    match s.tim.leapDone with
    | none => none
    | some (l, o, n) => if s.taiSec < l + 86400 then some ((l - o - 1) % 2 ^ 32, o, n) else none

/-- Offset used for a received time-tag: SOC and the leap-occurred flag FRACSEC[29] (R171). -/
def State.rxOffset (s : State) (soc : Nat) (occurred : Bool) : Nat :=
  match s.leapNear with
  | none => s.utcOffset
  | some (rep, old, new) =>
    if occurred && decide (rep ≤ soc) then new
    else if !occurred && decide (soc ≤ rep) then old
    else s.utcOffset

/-! ## Time quality (R168) -/

/-- Servo state: 0 FREERUN, 1 ACQUIRE, 2 LOCKED, 3 HOLDOVER (R162). -/
def State.servo (s : State) : Nat := s.fld F.TIM_STATUS.STATE

/-- Accuracy a PTP clockAccuracy names, in ps; none when unknown (IEEE 1588-2019, log 20). -/
def ptpAccuracy (a : Nat) : Option Nat :=
  let t : List Nat := [1, 3, 10, 25, 100, 250, 1000, 2500, 10000, 25000, 100000, 250000, 1000000, 2500000, 10000000,
    25000000, 100000000, 250000000, 1000000000, 2500000000, 10000000000, 25000000000, 100000000000, 250000000000,
    1000000000000, 10000000000000]
  if 0x17 ≤ a then t[a - 0x17]? else none

/-- Accuracy an IRIG-B time quality code names, in ps (IEEE C37.118.1, log 20). -/
def irigAccuracy (q : Nat) : Option Nat := if q = 0 then some 0 else if q ≤ 11 then some (10 ^ (q + 2)) else none

/-- Accuracy of the primary source, in units of 2^-24 ns (R168): for PTP that of the transmitter last selected (log 20). -/
def State.srcAccuracy (s : State) : Option Int :=
  let ps (o : Option Nat) : Option Int := o.map fun n => (n : Int) * nsU / 1000
  match s.fld F.TIM_CTRL.SRC with
  | 0 => match s.tim.srcAcc with | none => none | some a => ps (ptpAccuracy a)
  | 1 => ps (irigAccuracy s.tim.irigTq)
  | 2 | 3 => some ((s.fld F.TIM_SRC_ACCURACY.NS : Int) * nsU)
  | _ => none

/-- Mean of |d| over the last 8 applied samples. -/
def State.meanAbs (s : State) : Int :=
  match s.tim.dHist with
  | [] => 0
  | l => ((l.foldl (· + ·) 0 / l.length : Nat) : Int)

/-- Estimated error in LOCKED. -/
def State.lockedEst (s : State) : Option Int := s.srcAccuracy.map fun a => a + s.meanAbs

/-- Time since the last exit from LOCKED in Boulevard clk. -/
def State.sinceLock (s : State) : Nat := s.now - s.tim.leftLock

/-- Estimated error (R168); none where there is none. -/
def State.errorEst (s : State) : Option Int :=
  match s.servo with
  | 2 => s.lockedEst
  | 0 => none
  | _ =>
    if s.tim.everLocked then
      some ((s.tim.leftEst : Int) + (s.fld F.TIM_HOLD_DRIFT.PS_PER_S : Int) * nsU * (s.sinceLock : Int) / (1000 * 1200000000))
    else none

/-- The primary source is traceable (R168). -/
def State.traceable (s : State) : Bool :=
  match s.fld F.TIM_CTRL.SRC with
  | 0 => match s.bestForeign with | none => false | some f => bitOf f.flags 4
  | 1 => s.fld F.TIM_CTRL.IRIG_MODE != 2 && s.tim.irig.isSome && s.tim.irigTq = 0
  | _ => false

/-- Code of the smallest decade band from 1 ns to 10 s that contains an estimate; 0xF above (R168). -/
def bandCode (e : Int) : Nat :=
  match (List.range 11).find? fun k => decide (e ≤ (10 ^ k : Nat) * nsU) with
  | some k => k + 1
  | none => 0xF

/-- TQ_CODE (R168). -/
def State.tqCode (s : State) : Nat :=
  match s.errorEst with
  | none => 0xF
  | some e => if s.servo = 2 && s.traceable && decide (e < 1000 * nsU) then 0 else bandCode e

/-- UNLOCKED (R168). -/
def State.unlockedCode (s : State) : Nat :=
  if s.servo = 2 then 0
  else if !s.tim.everLocked then 3
  else
    let t := s.sinceLock / 1200000000
    if t < 10 then 0 else if t < 100 then 1 else if t < 1000 then 2 else 3

/-- A leap second falls within the next 60 s. -/
def State.leapPending (s : State) : Bool :=
  let at' := (s.reg R.TIM_LEAP_AT).toNat
  at' ≠ 0 && decide ((at' + 2 ^ 32 - s.taiSec % 2 ^ 32) % 2 ^ 32 ≤ 60)

/-- A leap second occurred within the last 86,400 s, with its direction. -/
def State.leapOccurred (s : State) : Bool :=
  match s.tim.leapDone with | none => false | some (l, _, _) => decide (s.taiSec < l + 86400)

/-- Direction of the leap shown: of the pending one, else of the last. -/
def State.leapDir (s : State) : Nat :=
  if s.leapPending then b2n (s.fld F.TIM_UTC_NOW.LEAP = 2)
  else match s.tim.leapDone with
    | some (_, o, n) => if s.leapOccurred then b2n (n < o) else 0
    | none => 0

/-- The word of R168; bits 12 and 11 as in the latest mark. -/
def State.tqWord (s : State) : Nat :=
  b2n s.leapPending * 2 ^ 15 + s.leapDir * 2 ^ 14 + b2n s.leapOccurred * 2 ^ 13 + bitsOf s.tim.markTq 12 11 * 2 ^ 11
    + s.servo * 2 ^ 9 + s.unlockedCode * 2 ^ 4 + s.tqCode

/-- TIM_TQ is evaluated; its change asks for a mark (R165). -/
def State.tqEval (s : State) : State :=
  let w := s.tqWord
  if (s.reg R.TIM_TQ).toNat = w then s
  else { s.setReg R.TIM_TQ (w32 w) with tim := { s.tim with tqMark := true } }

/-! ## The servo (R161, R162, R655) -/

/-- A new servo state. -/
def State.setServo (s : State) (n : Nat) : State :=
  if s.servo = n then s else (s.setFld F.TIM_STATUS.STATE n).raise F.TIM_INT_STATUS.STATE

/-- TIM_FREQ_ADJ clamped to 100 ppm (R154). -/
def adjLimit : Int := 1759218604
def clampAdj (a : Int) : Int := max (-adjLimit) (min adjLimit a)

/-- TIM_FREQ_ADJ written by the servo. -/
def State.setAdj (s : State) (a : Int) : State := s.setReg R.TIM_FREQ_ADJ (w32 (wrapInt 32 (clampAdj a)))

/-- An exit from LOCKED keeps the estimate and the instant (R168). -/
def State.leaveLock (s : State) : State :=
  if s.servo = 2 then
    { s with tim := { s.tim with leftLock := s.now, leftEst := (s.lockedEst.getD (10 ^ 11 * nsU)).toNat } }
  else s

/-- HOLDOVER is entered: the adjustment becomes the mean of the last 64 values in LOCKED, or stays (R162); the run to LOCKED starts
afresh (R655). -/
def State.enterHoldover (s : State) : State :=
  if s.servo = 3 then s
  else
    let s := ((s.leaveLock.setServo 3).bump R.TIM_HOLDOVER_ENTRIES).raise F.TIM_INT_STATUS.HOLDOVER
    let s := { s with tim := { s.tim with lockRun := 0 } }
    let l := s.tim.adjHist
    if 64 ≤ l.length then s.setAdj (intNear (l.foldl (· + ·) 0) 64) else s

/-- STEP_ARMED falls. -/
def State.disarm (s : State) : State := s.setFld F.TIM_STATUS.STEP_ARMED 0

/-- Ring Log record of a refusal or a step (R161, log 17): kind, then d in ns. -/
def State.timeRecord (s : State) (kind : Nat) (d : Int) : State :=
  s.ringLog 0x0009 34 (leBytes 1 kind ++ leBytes 7 0 ++ leBytes 8 (wrapInt 64 (intNear d nsU)))

/-- Compare value of a channel (R173). -/
def State.cmpValue (s : State) (n : Nat) : Nat :=
  (s.reg (R.TIM_CMP_LO + 16 * n)).toNat + (s.reg (R.TIM_CMP_HI + 16 * n)).toNat * 2 ^ 32

/-- The value of a channel is not ahead of a Grid Time: it is at or before it, or 2^31 s or more ahead (R173). -/
def State.cmpDue (s : State) (gt n : Nat) : Bool := gtAtOrAfter gt (s.cmpValue n) || (gtDiff gt (s.cmpValue n) = -(2 ^ 63 : Int))

/-- Channels armed whose value a step passes: they fire late (R173). A backward step puts values not reached again ahead. -/
def State.cmpStepped (s : State) (before : Nat) : State :=
  let passed := (List.range 16).filter fun n => s.flag (F.TIM_CMP_CTRL.ARM.at (16 * n)) && !s.cmpDue before n && s.cmpDue s.gt n
  let still := s.tim.cmpLate.filter fun n => s.cmpDue s.gt n
  { s with tim := { s.tim with cmpLate := still ++ passed } }

/-- A step: Grid Time less d, ACQUIRE, a STEP mark, and RELEASE_HOLD after a backward step (R161, R165, R167). -/
def State.servoStep (s : State) (d : Int) : State :=
  let total := (s.tim.grid * phaseUnit + s.tim.phase : Nat)
  let m : Int := ((2 ^ 80 * phaseUnit : Nat) : Int)
  let t := (((total : Int) - d * ((phaseUnit : Nat) : Int) / stepU) % m).toNat
  let before := s.gt
  let s := s.leaveLock
  let s := { s with
    tim := { s.tim with
      grid := t / phaseUnit, phase := t % phaseUnit, appliedAt := none, lockRun := 0, stepMark := true, freshAt := s.now }
    -- the next periodic save is due at the next whole second of the new Grid Time (R361)
    acc := { s.acc with savedSec := t / phaseUnit / 2 ^ 32 } }
  let s := s.cmpStepped before
  let last := (s.cnt R.GLD_LAST_REL).toNat
  let s := if decide (0 < d) && last != 0 && gtAtOrAfter last s.gt then
      { s with tim := { s.tim with holdUntil := some last } } else s
  let s := ((s.setServo 1).bump R.TIM_STEPS).raise F.TIM_INT_STATUS.STEPPED
  (s.setFld F.TIM_STATUS.REFUSED 0).timeRecord 1 d

/-- A refused sample: HOLDOVER, TIM_REFUSED, a Ring Log record (R161). -/
def State.servoRefuse (s : State) (d : Int) : State :=
  let s := { s with tim := { s.tim with refusedD := d, lockRun := 0 } }
  let s := s.setCnt R.TIM_REFUSED (w64 (wrapInt 64 (intNear d nsU)))
  let s := (s.enterHoldover.bump R.TIM_JUMPS_REFUSED).raise F.TIM_INT_STATUS.REFUSED
  (s.setFld F.TIM_STATUS.REFUSED 1).timeRecord 0 d

/-- Unit of the integral term: 2^-40 x 10^-9 / (1.2 x 10^9); TIM_FREQ_ADJ counts 2^-44, so one of it is this many. -/
def adjUnit : Int := 75000000000000000

/-- A sample applied to the loop filter (R161). -/
def State.servoApply (s : State) (d : Int) : State :=
  let st := s.servo
  let kp : Int := s.fld (if st = 2 then F.TIM_KP_LOCK.GAIN else F.TIM_KP_ACQ.GAIN)
  let ki : Int := s.fld (if st = 2 then F.TIM_KI_LOCK.GAIN else F.TIM_KI_ACQ.GAIN)
  let dt : Nat := match s.tim.appliedAt with | none => 0 | some t => min (s.now - t) 2400000000
  let integral := max (-(adjLimit * adjUnit)) (min (adjLimit * adjUnit) (s.tim.integral + ki * d * (dt : Int)))
  let adj := clampAdj (-(intNear (kp * d * 1200000000 + integral) adjUnit))
  let mag := d.natAbs
  let within := decide ((mag : Int) ≤ (s.fld F.TIM_LOCK.LOCK_NS : Int) * nsU)
  let run := if within then s.tim.lockRun + 1 else 0
  let beyond := decide ((s.fld F.TIM_LOCK.UNLOCK : Int) * 10 * nsU < (mag : Int))
  let s := if st = 2 && beyond then s.leaveLock else s
  let s := { s.setAdj adj with tim := { s.tim with
    integral := integral, appliedAt := some s.now, freshAt := s.now, lockRun := run
    adjHist := if st = 2 then (adj :: s.tim.adjHist).take 64 else s.tim.adjHist
    dHist := (mag :: s.tim.dHist).take 8 } }
  let s := (s.disarm.setFld F.TIM_STATUS.REFUSED 0).bump R.TIM_SAMPLES_APPLIED
  if st = 2 then (if beyond then s.setServo 1 else s)
  else
    let s := s.setServo 1
    if s.fld F.TIM_LOCK.COUNT ≤ run then
      { s.setServo 2 with tim := { s.tim with everLocked := true } }
    else s

/-- A primary offset sample (R161): stepped, refused, discarded or applied. -/
def State.servoSample (s : State) (d : Int) : State :=
  let s := (s.bump R.TIM_SAMPLES).setReg R.TIM_OFFSET (w32 (wrapInt 32 (satNs d)))
  let limit : Int := (s.fld F.TIM_JUMP_LIMIT.US : Int) * 1000 * nsU
  let s :=
    if s.servo = 0 && !s.sys.gladeUp then s.servoStep d
    else if limit < (d.natAbs : Int) then
      if s.flag F.TIM_STATUS.STEP_ARMED && decide (((d - s.tim.refusedD).natAbs : Int) ≤ limit) then (s.servoStep d).disarm
      else s.servoRefuse d
    else if s.fld F.TIM_CTRL.XCHK_POLICY = 2 && s.flag F.TIM_STATUS.XCHK_FAIL then
      (s.bump R.TIM_XCHK_DISCARDED).setFld F.TIM_STATUS.REFUSED 0
    else s.servoApply d
  s.tqEval.timeReady

/-- A cross-check comparison (R160). -/
def State.crossCheck (s : State) (d : Int) : State :=
  if s.fld F.TIM_CTRL.XCHK_POLICY = 0 then s
  else if (s.fld F.TIM_XCHK_LIMIT.US : Int) * 1000 * nsU < (d.natAbs : Int) then
    ((s.setFld F.TIM_STATUS.XCHK_FAIL 1).bump R.TIM_XCHK_FAILS).raise F.TIM_INT_STATUS.XCHK
  else s.setFld F.TIM_STATUS.XCHK_FAIL 0

/-- A sample of a source (1 PTP, 2 IRIG-B, 3 PPS): to the cross-check, and to the servo when it is the primary. -/
def State.sourceSample (s : State) (kind : Nat) (primary : Bool) (d : Int) : State :=
  let s := if s.fld F.TIM_CTRL.XCHK_SRC = kind then s.crossCheck d else s
  if primary then s.servoSample d else s

/-- Difference of two 80-bit Grid Times in units of 2^-24 ns, within half the range. -/
def gridDiff (a b : Nat) : Int := signedOf 80 (a % 2 ^ 80 + 2 ^ 80 - b % 2 ^ 80) * stepU

/-! ## Time marks (R165, R167) -/

/-- A mark is taken: its value and quality word, HELD and RELEASE_HOLD shown, then the Glade (R165, R169). -/
def State.takeMark (s : State) (value word : Nat) : State :=
  let old := s.tim.mark
  let held := bitOf word 11
  let s := if s.releaseHold = held then s
    else (s.setFld F.GLD_STATUS.HOLD (b2n held)).raise F.GLD_INT_STATUS.HOLD
  let s := { s with tim := { s.tim with marked := true, mark := value, markTq := word, markAt := s.now } }
  s.gladeMark old s.gt (s.gld.groves.map (·.1))

/-- A mark with STEP is kept for the cross-check windows (R359). -/
def State.noteStep (s : State) (step : Bool) (value : Nat) : State :=
  if step then { s with acc := { s.acc with steps := value :: s.acc.steps } } else s

/-- The mode lets the Glade run (R55). -/
def State.gladeRuns (s : State) : Bool := s.detects || s.sys.mode = .recovery

/-- The mark value would be that of the mark before, Grid Time being before it (R165 HELD). -/
def State.markHeld (s : State) : Bool := s.tim.marked && gtAfter s.tim.mark s.gt

/-- Marks carry RELEASE_HOLD until Grid Time passes this (R167). -/
def State.markHold (s : State) : Option Nat :=
  match s.tim.holdUntil with
  | none => none
  | some u => if gtAfter s.gt u then none else some u

/-- The unit time quality word that a mark taken now carries (R168). -/
def State.markWord (s : State) : Nat :=
  (s.tqWord - bitsOf s.tim.markTq 12 11 * 2 ^ 11) + b2n s.markHeld * 2 ^ 12 + b2n s.markHold.isSome * 2 ^ 11

/-- The earliest pending deadline of a Grove (R190): that of its earliest grid instant not yet finally released. -/
def State.pendingDeadline (s : State) (g : Nat) : Option Nat :=
  let x := s.grove g
  let tag := nextTag (max 1 (s.groveRate g)) x.front
  if x.run = .running || (x.run = .stopping && !gtAfter tag x.boundary) then some (gtAdd tag (s.groveWindow g)) else none

/-- A deadline asks for a mark: Grid Time has passed it, or it already lay at or before the latest mark value and has had no mark
of its own; none while RELEASE_HOLD stands (R38, R190). -/
def State.deadlineMark (s : State) (g : Nat) : Bool :=
  match s.pendingDeadline g with
  | none => false
  | some d =>
    if s.tim.marked && gtAtOrAfter s.tim.mark d then !s.releaseHold && mget 0 s.tim.told g ≠ d + 1 else gtAtOrAfter s.gt d

/-- A mark is due (R38, R165, R167, R179, R190): the first one, one after 1 ms, at a step, when the quality word or a flag it carries
changes, at once for a Grove that starts, and for a pending deadline. -/
def State.markDue (s : State) : Bool :=
  !s.tim.marked || s.tim.stepMark || s.tim.tqMark || s.markWord ≠ s.tim.markTq || decide (1200000 ≤ s.now - s.tim.markAt)
    || s.gld.groves.any fun x => x.2.run = .starting || s.deadlineMark x.1

/-- The deadlines at or before the latest mark value have their mark of R190. -/
def State.tellDeadlines (s : State) : State :=
  let tell (l : SMap Nat) (g : Nat) : SMap Nat :=
    match s.pendingDeadline g with
    | some d => if s.tim.marked && gtAtOrAfter s.tim.mark d then mset 0 l g (d + 1) else l
    | none => l
  { s with tim := { s.tim with told := (s.gld.groves.map (·.1)).foldl tell s.tim.told } }

/-- The timebase inserts a mark that is due into its own journal (R38, R165, R190, R211). -/
def State.insertMark (s : State) : State :=
  if !(s.tim.running && s.ownJournal && s.flag F.GLD_CTRL.RUN && s.gladeRuns && s.markDue) then s
  else
    let now := s.gt
    let held := s.markHeld
    let value := if held then s.tim.mark else now
    let hold := s.markHold
    let word := s.markWord
    let s := if hold.isSome then s else s.tellDeadlines
    let step := s.tim.stepMark
    let s := { s with tim := { s.tim with holdUntil := hold, stepMark := false, tqMark := false } }
    let s := ((s.setReg R.TIM_TQ (w32 word)).setFld F.TIM_STATUS.HELD (b2n held)).setFld F.TIM_STATUS.RELEASE_HOLD (b2n hold.isSome)
    let s := (s.bump R.TIM_MARKS).journal 1 0 0 0 value
      (leBytes 2 word ++ leBytes 1 (b2n held * 4 + b2n hold.isSome * 2 + b2n step))
    (s.noteStep step value).takeMark value word

/-! ## Conversions (R171) -/

/-- SOC and FRACSEC of a time-tag with a TIME_BASE (R171). -/
def State.socFracsec (s : State) (ttag timeBase word : Nat) : Nat × Nat :=
  let sec := ttag / 2 ^ 32
  let fr := divNear (ttag % 2 ^ 32 * timeBase) (2 ^ 32)
  let sec' := if fr = timeBase then sec + 1 else sec
  let fr' := if fr = timeBase then 0 else fr
  let at' := (s.reg R.TIM_LEAP_AT).toNat
  let leap := s.fld F.TIM_UTC_NOW.LEAP
  -- a tag beyond a pending leap takes the new offset, one before the last leap the old
  let off :=
    if at' ≠ 0 ∧ leap ≠ 0 ∧ decide (at' ≤ sec') then leapOffset s.utcOffset leap
    else match s.tim.leapDone with
      | some (l, o, _) => if sec' < l % 2 ^ 32 then o else s.utcOffset
      | none => s.utcOffset
  let occurred := match s.tim.leapDone with
    | some (l, _, _) => decide (l % 2 ^ 32 ≤ sec') && decide (sec' < l % 2 ^ 32 + 86400)
    | none => false
  let soc := (sec' + 2 ^ 32 - off) % 2 ^ 32
  (soc, bitsOf word 14 14 * 2 ^ 30 + b2n (occurred || (decide (at' ≠ 0) && leap != 0 && decide (at' ≤ sec'))) * 2 ^ 29
    + bitsOf word 15 15 * 2 ^ 28 + word % 16 * 2 ^ 24 + fr')

end Sys2Proof.Machine
end

