-- ==== Sys2Proof/Machine/Convert.lean ====
section
/-!
DEFINITION. What the parser reads out of measurement frames: C37.118 data and configuration frames, IEC 61850-90-5 session
PDUs (log 22), and the conversion of channels (R130 to R134, R657).
-/

namespace Sys2Proof.Machine

/-! ## Channel conversion (R131, R657) -/

/-- a / 10000 rounded once to binary32. -/
def tenThousandths (a : Int) : Nat :=
  let n := a.natAbs * 2 ^ 64
  (froundTo f32 (decide (a < 0)) (n / 10000) (-64) (n % 10000 != 0)).bits

/-- A polar value: r cos θ, r sin θ, each rounded. -/
def polarTo (r θ : Nat) : Nat × Nat := ((fmul f32 r (fcos f32 θ).bits).bits, (fmul f32 r (fsin f32 θ).bits).bits)

/-- Scaled components rotated by OFFSET; no rotation when OFFSET is zero. -/
def rotated (re im offset : Nat) : Nat × Nat :=
  if offset % 2 ^ 31 = 0 then (re, im)
  else
    let p := cMulNat re im (fcos f32 offset).bits (fsin f32 offset).bits
    (p.re, p.im)

/-- A binary32 pattern is NaN. -/
def isNan32 (x : Nat) : Bool := match fdec f32 x with | .nan _ => true | _ => false

/-- An integer as binary32. -/
def i2f (v : Int) : Nat := (fofInt f32 v 0).bits

/-- Bytes of a field by encoding (R131). -/
def fmtBytes (kind fmt : Nat) : Nat :=
  match fmt with
  | 0 | 1 => 4
  | 2 | 3 => 8
  | 4 => 2
  | 5 => 4
  | 6 => 2
  | _ => if kind = 0 then 12 else 8

/-- A converted channel: its two words, present or absent by the field's own rules (R133). -/
structure Chan where
  v : Nat × Nat
  present : Bool
  deriving DecidableEq, Repr

/-- A rectangular phasor. -/
def convRect (re im scale offset : Nat) : Nat × Nat :=
  rotated (fmul f32 re scale).bits (fmul f32 im scale).bits offset

/-- A scalar. -/
def convScalar (v scale offset : Nat) : Nat := (fadd f32 (fmul f32 v scale).bits offset).bits

/-- One channel's field converted (R131, R133, R657). -/
def convert (kind fmt scale offset digValid : Nat) (l : List Byte) : Chan :=
  let s16 (o : Nat) : Int := signedOf 16 (beAt l o 2)
  let bad16 (o : Nat) : Bool := beAt l o 2 = 0x8000
  let f (o : Nat) : Nat := beAt l o 4
  match fmt with
  | 0 => ⟨convRect (i2f (s16 0)) (i2f (s16 2)) scale offset, !(bad16 0 || bad16 2)⟩
  | 1 =>
    let θ := (fadd f32 (tenThousandths (s16 2)) offset).bits
    ⟨polarTo (fmul f32 (i2f (beAt l 0 2)) scale).bits θ, !bad16 2⟩
  | 2 => ⟨convRect (f 0) (f 4) scale offset, !(isNan32 (f 0) || isNan32 (f 4))⟩
  | 3 => ⟨polarTo (fmul f32 (f 0) scale).bits (fadd f32 (f 4) offset).bits, !(isNan32 (f 0) || isNan32 (f 4))⟩
  | 4 => ⟨(convScalar (i2f (s16 0)) scale offset, 0), !bad16 0⟩
  | 5 => ⟨(convScalar (f 0) scale offset, 0), !isNan32 (f 0)⟩
  | 6 => ⟨(digValid * 65536 + beAt l 0 2, 0), true⟩
  | _ =>
    -- an R-SV member: its quality's validity stands in the two low bits (log 22)
    let invalid (o : Nat) : Bool := beAt l o 4 % 4 = 1
    if kind = 0 then ⟨convRect (f 0) (f 4) scale offset, !(isNan32 (f 0) || isNan32 (f 4) || invalid 8)⟩
    else if kind = 4 then ⟨(digValid * 65536 + f 0 % 65536, 0), !invalid 4⟩
    else ⟨(convScalar (f 0) scale offset, 0), !(isNan32 (f 0) || invalid 4)⟩

/-- KIND and FMT a position must have (R130, R132): `np`, `na` phasors and analog values, FORMAT `fm`. -/
def expectedMap (np na fm k : Nat) (rsv : Bool) : Nat × Nat :=
  let p (kind fmt : Nat) : Nat × Nat := (kind, if rsv then 7 else fmt)
  if k < np then
    p 0 (match bitOf fm 1, bitOf fm 0 with
      | false, false => 0 | false, true => 1 | true, false => 2 | true, true => 3)
  else if k = np then p 1 (if bitOf fm 3 then 5 else 4)
  else if k = np + 1 then p 2 (if bitOf fm 3 then 5 else 4)
  else if k < np + 2 + na then p 3 (if bitOf fm 2 then 5 else 4)
  else p 4 6

/-- The Channel Map agrees with the position, FORMAT and NUM_CH (R132). -/
def State.layoutOk (s : State) (stream : Nat) (rsv : Bool) : Bool :=
  let base := s.dir stream TF.ING.Directory.CHMAP_BASE
  (List.range (s.numCh stream)).all fun k =>
    (s.tf TF.ING.ChannelMap.KIND (base + k), s.tf TF.ING.ChannelMap.FMT (base + k))
      = expectedMap (s.dir stream TF.ING.Directory.NUM_PHASOR) (s.dir stream TF.ING.Directory.NUM_ANALOG)
          (s.dir stream TF.ING.Directory.FORMAT) k rsv

/-- Channels from index `k` up, converted from the bytes that follow (R130, R133). -/
def State.convertFrom (s : State) (base : Nat) : Nat → Nat → List Byte → List Chan
  | _, 0, _ => []
  | k, n + 1, l =>
    let i := base + k
    let kind := s.tf TF.ING.ChannelMap.KIND i
    let fmt := s.tf TF.ING.ChannelMap.FMT i
    let c := convert kind fmt (s.tf TF.ING.ChannelMap.SCALE i) (s.tf TF.ING.ChannelMap.OFFSET i)
      (s.tf TF.ING.ChannelMap.DIG_VALID i) l
    { c with present := c.present && s.tflag TF.ING.ChannelMap.ENABLE i }
      :: s.convertFrom base (k + 1) n (l.drop (fmtBytes kind fmt))

/-- Bytes of a stream's channel data by its Channel Map. -/
def State.dataBytes (s : State) (stream : Nat) : Nat :=
  let base := s.dir stream TF.ING.Directory.CHMAP_BASE
  (List.range (s.numCh stream)).foldl (fun a k =>
    a + fmtBytes (s.tf TF.ING.ChannelMap.KIND (base + k)) (s.tf TF.ING.ChannelMap.FMT (base + k))) 0

/-- BLOCK_LEN of a C37.118 block (R126). -/
def blockLen (np na nd fm : Nat) : Nat :=
  2 + np * (if bitOf fm 1 then 8 else 4) + (if bitOf fm 3 then 8 else 4) + na * (if bitOf fm 2 then 4 else 2) + nd * 2

/-! ## A block as received -/

/-- A block of a frame before its checks. -/
structure RawBlk where
  stream : Nat
  /-- STAT; zero for R-SV -/
  stat : Nat
  /-- channel bytes -/
  data : List Byte
  /-- UTC seconds, and the fraction as a quotient; none where no time-tag is defined -/
  time : Option (Nat × Nat × Nat)
  /-- leap-occurred flag of FRACSEC -/
  occurred : Bool
  /-- stream quality word (R134) -/
  quality : Nat
  deriving DecidableEq, Repr

/-- A block of a C37.118 data frame (R125, R134, R135). -/
def State.c37Block (s : State) (stream : Nat) (l : List Byte) : RawBlk :=
  let off := s.dir stream TF.ING.Directory.BLOCK_OFFSET
  let stat := beAt l off 2
  let frac := beAt l 10 4
  { stream := stream, stat := stat, data := slice l (off + 2) (blockLen (s.dir stream TF.ING.Directory.NUM_PHASOR) (s.dir stream TF.ING.Directory.NUM_ANALOG)
      (s.dir stream TF.ING.Directory.NUM_DIGITAL) (s.dir stream TF.ING.Directory.FORMAT) - 2)
    time := some (beAt l 6 4, frac % 2 ^ 24, s.dir stream TF.ING.Directory.TIME_BASE)
    occurred := bitOf frac 29
    quality := bitsOf stat 15 4 * 16 + bitsOf frac 27 24 }

/-! ## IEC 61850-90-5 session PDUs (R120, R122, log 22) -/

/-- One BER element: tag, content, and what follows; none when its length runs past the end. -/
def berNext (l : List Byte) : Option (Nat × List Byte × List Byte) :=
  match l with
  | t :: n :: rest =>
    let short := n.toNat < 128
    let k := n.toNat - 128
    let len := if short then n.toNat else beAt rest 0 k
    let body := if short then rest else rest.drop k
    if (!short && (k = 0 || decide (4 < k) || decide (rest.length < k))) || decide (body.length < len) then none
    else some (t.toNat, body.take len, body.drop len)
  | _ => none

/-- The elements of a constructed value, with fuel. -/
def berAll : Nat → List Byte → List (Nat × List Byte)
  | 0, _ => []
  | fuel + 1, l =>
    match berNext l with
    | none => []
    | some (t, v, rest) => (t, v) :: berAll fuel rest

/-- The content of the first element with a tag. -/
def berFind (tag : Nat) (l : List (Nat × List Byte)) : Option (List Byte) := (l.find? fun x => x.1 = tag).map (·.2)

/-- A session PDU's fields. -/
structure RsvPdu where
  spdu : Nat
  encrypt : Nat
  sign : Nat
  kid : Nat
  /-- the bytes the MAC covers, and the MAC -/
  covered : List Byte
  mac : List Byte
  /-- contents of the ASDUs -/
  asdus : List (List Byte)
  deriving DecidableEq, Repr

/-- The session PDU of a datagram: CLTP header, session header, user data, signature; none when a length is inconsistent. -/
def readRsv (l : List Byte) : Option RsvPdu :=
  let hl := beAt l 3 1
  let plen := beAt l 6 4
  let ivLen := beAt l 28 1
  let u := 29 + ivLen
  let ulen := beAt l u 4
  let p := u + 4
  let alen := beAt l (p + 4) 2
  let sig := p + ulen
  let mlen := beAt l (sig + 1) 1
  if l.length < 33 || beAt l 0 2 ≠ 0x0140 || beAt l 4 1 ≠ 0x80 || hl ≠ u - 4 || plen ≠ l.length - 10
      || decide (l.length < sig + 2) || decide (ulen < 6) || alen ≠ ulen - 6 || beAt l sig 1 ≠ 0x85
      || l.length ≠ sig + 2 + mlen then none
  else
    let sav : List (Nat × List Byte) :=
      match berNext (slice l (p + 6) alen) with
      | some (0x60, v, _) => berAll v.length v
      | _ => []
    let seq := (berFind 0xA2 sav).getD []
    some { spdu := beAt l 10 4, encrypt := beAt l 22 1, sign := beAt l 23 1, kid := beAt l 24 4
           covered := slice l 2 (sig - 2), mac := slice l (sig + 2) mlen
           asdus := ((berAll seq.length seq).filter fun x => x.1 = 0x30).map (·.2) }

/-- Signature algorithms HMAC-SHA256 with 128 and 256 bits, and their MAC lengths. -/
def rsvSign (mac256 : Bool) : Nat × Nat := if mac256 then (3, 32) else (2, 16)

/-- A block of an R-SV session PDU (R122). -/
def rsvBlock (stream : Nat) (asdu : List Byte) : RawBlk :=
  let e := berAll asdu.length asdu
  let data := (berFind 0x87 e).getD []
  match berFind 0x84 e with
  | some t =>
    let q := beAt t 7 1
    let unlocked := if bitOf q 6 || bitOf q 5 then 3 else 0
    { stream := stream, stat := 0, data := data
      time := if t.length = 8 then some (beAt t 0 4, beAt t 4 3, 2 ^ 24) else none
      occurred := false
      quality := b2n (bitOf q 7) * 2 ^ 9 + unlocked * 16 + (Config.rsvTqCode (BitVec.ofNat 5 q)).toNat }
  | none => { stream := stream, stat := 0, data := data, time := none, occurred := false, quality := 0 }

/-! ## Configuration frames (R141; layouts of IEEE C37.118.2-2011, log 22) -/

/-- What is compared of one PMU block. -/
structure CfgPmu where
  format : Nat
  np : Nat
  na : Nat
  nd : Nat
  cfgCnt : Nat
  deriving DecidableEq, Repr

/-- What is compared of a configuration frame. -/
structure CfgFrame where
  timeBase : Nat
  numPmu : Nat
  pmus : List CfgPmu
  dataRate : Int
  deriving DecidableEq, Repr

/-- Skip `n` length-prefixed names. -/
def skipNames (l : List Byte) : Nat → Nat → Nat
  | 0, o => o
  | n + 1, o => if l.length < o then o else skipNames l n (o + 1 + beAt l o 1)

/-- One PMU block of CFG-2 at an offset, and the offset after it. -/
def cfg2Pmu (l : List Byte) (o : Nat) : CfgPmu × Nat :=
  let np := beAt l (o + 20) 2
  let na := beAt l (o + 22) 2
  let nd := beAt l (o + 24) 2
  let e := o + 26 + 16 * (np + na + 16 * nd) + 4 * (np + na + nd)
  (⟨beAt l (o + 18) 2, np, na, nd, beAt l (e + 2) 2⟩, e + 4)

/-- One PMU block of CFG-3 at an offset, and the offset after it. -/
def cfg3Pmu (l : List Byte) (o : Nat) : CfgPmu × Nat :=
  let q := o + 1 + beAt l o 1 + 18
  let np := beAt l (q + 2) 2
  let na := beAt l (q + 4) 2
  let nd := beAt l (q + 6) 2
  let names := if l.length < np + na + 16 * nd then l.length + 1 else skipNames l (np + na + 16 * nd) (q + 8)
  let e := names + 12 * np + 8 * na + 4 * nd + 21
  (⟨beAt l q 2, np, na, nd, beAt l (e + 2) 2⟩, e + 4)

/-- `n` PMU blocks from an offset, and the offset after them; none when they run past the end. -/
def cfgPmus (f : List Byte → Nat → CfgPmu × Nat) (l : List Byte) : Nat → Nat → Option (List CfgPmu × Nat)
  | 0, o => some ([], o)
  | n + 1, o =>
    let r := f l o
    if l.length < r.2 then none
    else (cfgPmus f l n r.2).map fun x => (r.1 :: x.1, x.2)

/-- A CFG-2 frame, or a CFG-3 frame in one fragment; none when its body does not fit the frame. -/
def readCfg (v3 : Bool) (l : List Byte) : Option CfgFrame :=
  let o := if v3 then 16 else 14
  let n := beAt l (o + 4) 2
  if l.length < o + 10 then none
  else match cfgPmus (if v3 then cfg3Pmu else cfg2Pmu) l n (o + 6) with
    | none => none
    | some (pmus, e) =>
      if e + 4 = l.length then some ⟨beAt l o 4 % 2 ^ 24, n, pmus, signedOf 16 (beAt l e 2)⟩ else none

/-- DATA_RATE matches a RATE (R141). -/
def rateMatches (dataRate : Int) (rate : Nat) : Bool := (0 < dataRate && dataRate = rate) || (dataRate = -1 && rate = 1)

end Sys2Proof.Machine
end

