-- ==== Sys2Proof/Machine/Ingest.lean ====
section
/-!
DEFINITION. The ingest parser (chapter 04): classification, the pass buffer, the TCP receive engine, R-SV sessions, frame
checks, the pending buffer, block checks, acceptance and configuration frames.
-/

namespace Sys2Proof.Machine

/-! ## The pass buffer (R114, R648, R649) -/

/-- Size of the pass buffer. -/
def passSize : Nat := 0x40000

/-- A copy placed in the pass buffer: the state, its address and NEXT; none when the buffer is full for it. -/
def State.passCopy (s : State) (l : List Byte) : Option (State × Nat × Nat) :=
  let w := (s.reg R.ING_PASS_WRITE).toNat
  let need := (l.length + 63) / 64 * 64
  let pos := w % passSize
  let skip := if passSize < pos + need then passSize - pos else 0
  if passSize < (w + 2 ^ 32 - (s.reg R.ING_PASS_RELEASE).toNat) % 2 ^ 32 + skip + need then none
  else
    let addr := s.fld F.ING_PASS_BASE.BASE * passSize + (pos + skip) % passSize
    let next := (w + skip + need) % 2 ^ 32
    some ((s.wrBytes addr l).setReg R.ING_PASS_WRITE (w32 next), addr, next)

/-- The 32-byte entry of R649. -/
def passEntry (addr source arrival jseq len port kind next : Nat) : Entry :=
  BitVec.ofNat 256 (leNat (leBytes 8 (addr + source * 2 ^ 40) ++ leBytes 8 arrival ++ leBytes 8 jseq ++ leBytes 2 len
    ++ leBytes 1 port ++ leBytes 1 kind ++ leBytes 4 next))

/-- A frame passed to the Supervisors, or dropped (R113 rule 8, R114). -/
def State.passFrame (s : State) (e : EthIn) : State :=
  match s.passCopy e.bytes with
  | none => s.bump R.ING_U_PASS_DROPPED
  | some (s1, addr, next) =>
    let r := s1.push (s.fld F.ING_SV_QUEUE.PASS) 33
      (passEntry addr 0 (e.arrival % 2 ^ 64) 0 e.bytes.length e.port 0 next) false false
    if r.2 = 0 then r.1.bump R.ING_U_TO_SUPERVISOR
    else (r.1.setReg R.ING_PASS_WRITE (s.reg R.ING_PASS_WRITE)).bump R.ING_U_PASS_DROPPED

/-! ## Sources (R115, R129) -/

/-- A Source Table entry's address. -/
def State.srcAddr (s : State) (i : Nat) : Nat :=
  s.tf TF.ING.Source.ADDR0 i + s.tf TF.ING.Source.ADDR1 i * 2 ^ 32 + s.tf TF.ING.Source.ADDR2 i * 2 ^ 64
    + s.tf TF.ING.Source.ADDR3 i * 2 ^ 96

/-- Indices of the valid entries of a table whose bit 31 of word `w` is VALID, lowest first. -/
def State.validEntries (s : State) (table w : Nat) : List Nat :=
  (s.tbl.filter fun x => x.1 / 2 ^ 24 = table && x.1 % 32 = w && bitOf x.2.toNat 31).map fun x => x.1 % 2 ^ 24 / 32

/-- Indices of the entries of a table that are not all zero, lowest first: an entry of zeros is not in use and names nothing
(log 65). -/
def State.usedEntries (s : State) (table : Nat) : List Nat :=
  ((s.tbl.filter fun x => x.1 / 2 ^ 24 = table).map fun x => x.1 % 2 ^ 24 / 32).eraseDups

/-- The datagram in a frame from a port matches an entry (R115). A source of session PDUs needs RSV_EN alone, and neither UDP4_EN
nor UDP6_EN: the spec leaves it open (DESIGN CHOICE, log 22). -/
def State.srcMatches (s : State) (port : Nat) (l : List Byte) (i : Nat) : Bool :=
  let tr := s.tf TF.ING.Source.TRANSPORT i
  let v6 := s.tflag TF.ING.Source.V6 i
  ((tr = 0 && s.flag (if v6 then F.ING_CTRL.UDP6_EN else F.ING_CTRL.UDP4_EN)) || (tr = 2 && s.flag F.ING_CTRL.RSV_EN))
    && v6 = isV6 l && s.srcAddr i = ipSrc l
    && (s.tf TF.ING.Source.SRC_PORT i = 0 || s.tf TF.ING.Source.SRC_PORT i = l4Src l)
    && s.tf TF.ING.Source.DST_PORT i = l4Dst l
    && (s.tf TF.ING.Source.VLAN i = 0 || s.tf TF.ING.Source.VLAN i = vidOf l)
    && bitOf (s.tf TF.ING.Source.PORTS i) port

/-- The Source Table entry of a measurement datagram. -/
def State.findSource (s : State) (port : Nat) (l : List Byte) : Option Nat :=
  (s.validEntries T.ING.Source 4).find? fun i => s.srcMatches port l i

/-! ## Identification (R123, R125) and the pending buffer (R143) -/

/-- Key of the q-th counter of a stream (R150). -/
def ingCnt (i q : Nat) : Nat := tblCntKey 0x54 i q

/-- The directory entry with PMU_INDEX 0 that holds a source and an identity. -/
def State.identify (s : State) (source idcode : Nat) : Option Nat :=
  (s.validEntries T.ING.Directory 0).find? fun i =>
    s.dir i TF.ING.Directory.PMU_INDEX = 0 && s.dir i TF.ING.Directory.SOURCE = source
      && s.dir i TF.ING.Directory.IDCODE = idcode

/-- The entry of block `i` of a chain that starts at `e` (R125). -/
def State.chainOk (s : State) (e i : Nat) : Bool :=
  decide (i < s.dir e TF.ING.Directory.NUM_BLOCKS) && s.tflag TF.ING.Directory.VALID (e + i)
    && s.dir (e + i) TF.ING.Directory.SOURCE = s.dir e TF.ING.Directory.SOURCE
    && s.dir (e + i) TF.ING.Directory.IDCODE = s.dir e TF.ING.Directory.IDCODE
    && s.dir (e + i) TF.ING.Directory.PMU_INDEX = i

/-- Places a pending frame takes. -/
def PendFrame.places (f : PendFrame) : Nat := if f.data then f.blocks.length else 1

/-- Blocks in the pending buffer (ING_STATUS.PENDING). -/
def State.pendingBlocks (s : State) : Nat := s.ing.pend.foldl (fun a f => a + f.places) 0

/-- A counter of each block's stream rises by one. -/
def State.bumpBlocks (s : State) (e q : Nat) (l : List Nat) : State := l.foldl (fun s i => s.bump (ingCnt (e + i) q)) s

/-- A frame of the same clk goes first: it arrived earlier, or as early from a lower-numbered port (R37). -/
def PendFrame.ahead (f g : PendFrame) : Bool := gtAfter g.arrival f.arrival || (f.arrival = g.arrival && decide (f.port < g.port))

/-- Acceptance order (R37): a frame joins the end, but for frames whose checks completed in the same clk. -/
def pendIn (f : PendFrame) : List PendFrame → List PendFrame
  | [] => [f]
  | g :: t => if f.clk = g.clk && f.ahead g then f :: g :: t else g :: pendIn f t

/-- An identified frame of `n` blocks enters the pending buffer, or overflows (R124, R125, R143). -/
def State.stageB (s : State) (f : PendFrame) (n : Nat) : State :=
  let s := s.bump R.ING_U_IDENTIFIED
  if f.data then
    let own := (List.range n).filter fun i => s.chainOk f.entry i
    let s := (s.bump R.ING_U_DATA_FRAMES).bumpBy R.ING_U_DATA_BLOCKS n
    let s := (s.bumpBy R.ING_U_BLOCKS_UNMAPPED (n - own.length)).bumpBlocks f.entry 0 own
    if own.isEmpty then s
    else if 32768 < s.pendingBlocks + own.length then
      (s.bumpBlocks f.entry 11 own).raise F.ING_INT_STATUS.OVERFLOW
    else { s with ing := { s.ing with pend := pendIn { f with blocks := own } s.ing.pend } }
  else
    let s := s.bump R.ING_U_NONDATA
    if 32768 < s.pendingBlocks + 1 then s.bump R.ING_U_NONDATA_OVERFLOW
    else { s with ing := { s.ing with pend := pendIn f s.ing.pend } }

/-- A frame of no known identity. -/
def State.rejUnknown (s : State) : State := (s.bump R.ING_U_REJ_UNKNOWN).raise F.ING_INT_STATUS.UNKNOWN

/-- Frame type of a C37.118 frame: 0 data, 1 header, 2 CFG-1, 3 CFG-2, 4 command, 5 CFG-3. -/
def c37Type (l : List Byte) : Nat := bitsOf (beAt l 1 1) 6 4

/-- Check 5 of R123 and stage B of a C37.118 frame; false when the identity is unknown. -/
def State.identifyFrame (s : State) (port arrival source : Nat) (l : List Byte) : State × Bool :=
  match s.identify source (beAt l 4 2) with
  | none => (s.rejUnknown, false)
  | some e =>
    (s.stageB { clk := s.now, port := port, arrival := arrival, source := source, entry := e, rsv := false, data := c37Type l = 0
                bytes := l, blocks := [] } (s.dir e TF.ING.Directory.NUM_BLOCKS), true)

/-- What the checks 1 to 4 of R123 say of the bytes at hand. -/
inductive Check where
  /-- more bytes are needed -/
  | more
  /-- the first check failed, by its counter -/
  | bad (counter : Nat)
  /-- a whole good frame of this many bytes -/
  | good (n : Nat)
  deriving DecidableEq, Repr

/-- Checks 1 to 4 of R123 on a byte sequence: `fits` judges FRAMESIZE. -/
def checkFrame (fits : Nat → Bool) (l : List Byte) : Check :=
  let size := beAt l 2 2
  if l.isEmpty then .more
  else if beAt l 0 1 ≠ 0xAA then .bad R.ING_U_REJ_SYNC
  else if l.length < 2 then .more
  else if 6 ≤ bitsOf (beAt l 1 1) 6 4 then .bad R.ING_U_REJ_SYNC
  else if beAt l 1 1 % 16 ≠ 1 ∧ beAt l 1 1 % 16 ≠ 2 then .bad R.ING_U_REJ_VERSION
  else if l.length < 4 then .more
  else if size < 16 ∨ fits size = false then .bad R.ING_U_REJ_SIZE
  else if l.length < size then .more
  else if crcCcitt (l.take (size - 2)) ≠ beAt l (size - 2) 2 then .bad R.ING_U_REJ_CRC
  else .good size

/-! ## Measurement datagrams (R115, R120 to R123) -/

/-- The key of a key ID and source (R121). -/
def State.rsvKey (s : State) (kid source : Nat) : Option (List Byte) :=
  s.ing.rsvKeys.findSome? fun x =>
    match x.2 with
    | some k => if k.kid = kid && k.source = source then some k.key else none
    | none => none

/-- A session PDU from a source (R120, R122). -/
def State.rsvDatagram (s : State) (port arrival source : Nat) (l : List Byte) : State :=
  let alg := rsvSign (s.tflag TF.ING.Source.MAC256 source)
  match readRsv l with
  | none => s.bump R.ING_U_REJ_SIZE
  | some u =>
    if u.encrypt ≠ 0 then s.bump R.ING_U_REJ_RSV_ENCRYPTED
    else
      let authentic := u.sign = alg.1 && u.mac.length = alg.2 &&
        match s.rsvKey u.kid source with
        | none => false
        | some k => (hmac256 k u.covered).take alg.2 = u.mac
      if !authentic then s.bump R.ING_U_REJ_RSV_AUTH
      else if u.spdu < mget 0 s.ing.rsvLast source then s.bump R.ING_U_REJ_RSV_REPLAY
      else match s.identify source (s.tf TF.ING.Source.RSV_IDCODE source) with
        | none => s.rejUnknown
        | some e =>
          { s with ing := { s.ing with rsvLast := mset 0 s.ing.rsvLast source (u.spdu + 1) } }.stageB
            { clk := s.now, port := port, arrival := arrival, source := source, entry := e, rsv := true, data := true, bytes := l,
              blocks := [] } u.asdus.length

/-- A measurement datagram of a source. -/
def State.measDatagram (s : State) (port arrival source : Nat) (l : List Byte) : State :=
  if s.tf TF.ING.Source.TRANSPORT source = 2 then s.rsvDatagram port arrival source l
  else match checkFrame (fun n => n = l.length) l with
    | .bad r => s.bump r
    | .more => s.bump R.ING_U_REJ_SIZE
    | .good _ => (s.identifyFrame port arrival source l).1

/-! ## The TCP receive engine (R116 to R119) -/

/-- A connection that has received nothing. -/
def connIdle : TcpConn := { held := [], stamps := [], scanning := false, unacked := 0, since := 0, port := 0, hdr := [] }

/-- A connection's own state. -/
def State.conn (s : State) (c : Nat) : TcpConn := mget connIdle s.ing.conns c

/-- A connection's own state stored; HELD follows it (R149). -/
def State.setConn (s : State) (c : Nat) (x : TcpConn) : State :=
  { s with ing := { s.ing with conns := mset connIdle s.ing.conns c x } }.setTf TF.ING.Connection.HELD c x.held.length

/-- Stamp of the byte at position `i` of the held bytes. -/
def stampAt : List (Nat × Nat) → Nat → Nat
  | [], _ => 0
  | (n, t) :: r, i => if i < n then t else stampAt r (i - n)

/-- The stamps less the first `k` bytes. -/
def dropStamps : List (Nat × Nat) → Nat → List (Nat × Nat)
  | [], _ => []
  | (n, t) :: r, k => if k < n then (n - k, t) :: r else dropStamps r (k - n)

/-- The first `k` held bytes gone. -/
def TcpConn.dropHeld (x : TcpConn) (k : Nat) : TcpConn :=
  { x with held := x.held.drop k, stamps := dropStamps x.stamps k }

/-- An open connection a segment belongs to (R116). -/
def State.findConn (s : State) (l : List Byte) : Option Nat :=
  if !s.flag F.ING_CTRL.TCP_EN then none
  else (s.validEntries T.ING.Connection 0).find? fun c =>
    let i := s.tf TF.ING.Connection.SOURCE c
    s.tf TF.ING.Connection.LOCAL_PORT c = l4Dst l && s.tf TF.ING.Connection.REMOTE_PORT c = l4Src l
      && s.tflag TF.ING.Source.V6 i = isV6 l && s.srcAddr i = ipSrc l

/-- The fixed window less the bytes held. -/
def TcpConn.window (x : TcpConn) : Nat := 8192 - x.held.length

/-- An acknowledgement leaves in class 4, to the addresses of the last segment (R116). -/
def State.tcpAck (s : State) (c : Nat) : State :=
  let x := s.conn c
  let h := x.hdr
  let pkt := tcpAckPacket (isV6 h) (ipDst h) (ipSrc h) (l4Dst h) (l4Src h) (s.tf TF.ING.Connection.SND_NXT c)
    (s.tf TF.ING.Connection.RCV_NXT c) x.window
  (s.setConn c { x with unacked := 0 }).txSubmit x.port
    { cls := 4, bytes := ethHeader (srcMac h) (s.station x.port) (vidOf h) 0 (etherType h) ++ pkt, tag := .plain }

/-- The frames in the held bytes (R117): good ones are identified; after a failed one the engine scans byte by byte. -/
def State.tcpFrames (s : State) (c : Nat) : Nat → State
  | 0 => s
  | fuel + 1 =>
    let x := s.conn c
    match checkFrame (fun n => decide (n ≤ 8192)) x.held with
    | .more => s
    | .bad r =>
      let s := if x.scanning then s else (s.bump R.ING_U_TCP_FRAMES).bump r
      ((s.setConn c { x.dropHeld 1 with scanning := true }).bump R.ING_U_TCP_RESYNC_BYTES).tcpFrames c fuel
    | .good n =>
      let s := s.bump R.ING_U_TCP_FRAMES
      let r := s.identifyFrame x.port (stampAt x.stamps (n - 1)) (s.tf TF.ING.Connection.SOURCE c) (x.held.take n)
      if r.2 then (r.1.setConn c { x.dropHeld n with scanning := false }).tcpFrames c fuel
      else ((r.1.setConn c { x.dropHeld 1 with scanning := true }).bump R.ING_U_TCP_RESYNC_BYTES).tcpFrames c fuel

/-- A connection closes with a reason (R118): 1 FIN, 2 RST, 3 Supervisor. An acknowledgement not yet sent goes with the connection's
state: the spec leaves it open (DESIGN CHOICE, log 22). -/
def State.tcpClose (s : State) (c reason : Nat) : State :=
  let s := s.bumpBy R.ING_U_TCP_RESYNC_BYTES (s.conn c).held.length
  (((s.setConn c connIdle).setTf TF.ING.Connection.OPEN c 0).setTf TF.ING.Connection.CLOSE c reason).raise
    F.ING_INT_STATUS.TCP_CLOSED

/-- A segment of an open connection (R116 to R118). A RST closes at any sequence number, a FIN only at RCV_NXT: the spec names
none (DESIGN CHOICE, log 22). -/
def State.tcpSegment (s : State) (c port arrival : Nat) (l : List Byte) : State :=
  let p := ipProto l
  let h := p.2.1
  let off := beAt l (h + 12) 1 / 16 * 4
  let flags := beAt l (h + 13) 1
  let payload := slice l (h + off) (ipPayloadLen l - off)
  let x := { s.conn c with port := port, hdr := l.take (h + 20) }
  let s := s.setConn c x
  if bitOf flags 2 then s.tcpClose c 2
  else if beAt l (h + 4) 4 ≠ s.tf TF.ING.Connection.RCV_NXT c then
    if payload.isEmpty then s else (s.bump R.ING_U_TCP_OUT_OF_ORDER).tcpAck c
  else
    let take := payload.take x.window
    let s : State :=
      if take.isEmpty then s
      else
        let y := { x with
          held := x.held ++ take, stamps := x.stamps ++ [(take.length, arrival)], unacked := x.unacked + 1
          since := if x.unacked = 0 then s.now else x.since }
        let s := (s.setConn c y).setTf TF.ING.Connection.RCV_NXT c ((s.tf TF.ING.Connection.RCV_NXT c + take.length) % 2 ^ 32)
        let s := s.tcpFrames c (y.held.length + 1)
        if 2 ≤ (s.conn c).unacked then s.tcpAck c else s
    if bitOf flags 0 then s.tcpClose c 1 else s

/-! ## Stage A (R113) -/

/-- The frame is a heartbeat on the heartbeat port of a Pair (R490). -/
def State.isHeartbeat (s : State) (e : EthIn) : Bool :=
  s.paired && e.port = s.fld F.XNG_CTRL.HB_PORT && etherType e.bytes = 0x88B5

/-- Ingest with a handover time announced (R509): the holder takes frames that arrive before it, the home unit those from it
on. -/
def State.handGate (s : State) (arrival : Nat) : Bool :=
  match s.xng.handover with
  | none => s.ingests
  | some (t, _) =>
    if s.sys.mode = .shadow && !s.sys.isolated then gtAtOrAfter arrival t else s.ingests && !gtAtOrAfter arrival t

/-- A frame taken from the Frame MAC (R113, R656). -/
def State.parseFrame (s : State) (e : EthIn) : State :=
  let l := e.bytes
  let ip := isV4 l || isV6 l
  if s.flag F.ING_STATUS.STOPPED || !s.handGate e.arrival then s.bump R.ING_U_NOT_INGESTING
  else if e.truncated then s.bump R.ING_U_TRUNCATED
  else if s.isHeartbeat e then
    { s.bump R.ING_U_TO_CROSSING with xng := { s.xng with hbIn := s.xng.hbIn ++ [l.drop (etherOff l)] } }
  else if ip && (!ipHeaderOk l || (!(ipProto l).2.2 && !transportOk l)) then s.bump R.ING_U_IP_ERROR
  else if ip && (ipProto l).2.2 then s.bump R.ING_U_FRAGMENT
  else
    match (if isTcp l then s.findConn l else none), (if isUdp l then s.findSource e.port l else none) with
    | some c, _ => (s.bump R.ING_U_TCP_SEGMENTS).tcpSegment c e.port e.arrival l
    | none, some i => (s.bump R.ING_U_MEAS_DATAGRAMS).measDatagram e.port e.arrival i (udpPayload l)
    | none, none => s.passFrame e

/-! ## Block checks and acceptance (R135 to R140, R651) -/

/-- Whole TAI seconds and fraction of a block's time-tag. -/
def State.blockTime (s : State) (b : RawBlk) : Option (Nat × Nat × Nat) :=
  b.time.map fun t => (t.1 + s.rxOffset t.1 b.occurred, t.2.1, max 1 t.2.2)

/-- The grid instant nearest to a time (R136). -/
def snapTag (r sec num den : Nat) : Nat := indexTag r ((sec * r + divNear (num * r) den) % tagModulus r)

/-- The time lies further than the tolerance from its grid instant (R136). -/
def offGrid (r num den us : Nat) : Bool :=
  let k := divNear (num * r) den
  decide (us * den * r < ((num * r - k * den) + (k * den - num * r)) * 1000000)

/-- The Grove of a block counts as stopped for its time-tag (R70): it has not started yet, or the tag lies after its boundary or
before its first permitted time-tag. A block at or before the boundary goes on to the Glade and is too late there (R197). -/
def State.groveBars (s : State) (g tag : Nat) : Bool :=
  let x := s.grove g
  match x.run with
  | .starting => true
  | .stopped => !x.ran || gtAfter tag x.boundary
  | .running => gtAfter x.firstTag tag
  | .stopping => gtAfter tag x.boundary || gtAfter x.firstTag tag

/-- The stream is contained, by its own entries or by its Source Table entry (R521). -/
def State.contains (s : State) (i : Nat) : Bool :=
  mget false s.err.contained i || mget false s.err.contained (sourceKey (s.dir i TF.ING.Directory.SOURCE))

/-- Rejections counted per stream (R150): the place of the counter, or none when every check passes; with the snapped
time-tag. -/
def State.blockCheck (s : State) (f : PendFrame) (b : RawBlk) : Option Nat × Nat :=
  let i := b.stream
  let r := s.dir i TF.ING.Directory.RATE
  let cfg := s.dir i TF.ING.Directory.CFG_STATE
  let pol := s.dir i TF.ING.Directory.CFG_POLICY
  let t := s.blockTime b
  let tag := match t with | some (sec, num, den) => snapTag r sec num den | none => 0
  let sizeOk := if f.rsv then b.data.length = s.dataBytes i else f.bytes.length = s.dir f.entry TF.ING.Directory.FRAMESIZE
  let last := mget 0 s.ing.lastTag i
  let bad : Option Nat :=
    if !s.tflag TF.ING.Directory.ENABLE i || s.contains i then some 2
    else if t.isSome && s.groveBars (s.dir i TF.ING.Directory.GROVE) tag then some 3
    else if (pol = 1 && cfg = 2) || (pol = 2 && cfg != 0) then some 4
    else if !sizeOk || !s.layoutOk i f.rsv then some 5
    else if bitsOf b.stat 15 14 = 2 && s.sys.mode != .test then some 10
    else match t with
      | none => some 6
      | some (_, num, den) =>
        if den ≤ num then some 6
        else if offGrid r num den (s.fld F.ING_GRID_TOL.US) then some 7
        else if (s.fld F.ING_FUTURE_LIMIT.MS : Int) * 2 ^ 32 < gtDiff tag f.arrival * 1000 then some 8
        else if last != 0 && gtAfter (last - 1) tag then some 9
        else none
  (bad, tag)

/-- A block accepted: counted, LAST_TTAG set, converted and delivered to the Glade (R139). -/
def State.acceptBlock (s : State) (arrival jseq tag : Nat) (b : RawBlk) : State :=
  let i := b.stream
  let chans := s.convertFrom (s.dir i TF.ING.Directory.CHMAP_BASE) 0 (s.numCh i) b.data
  let dataErr := bitOf b.stat 14
  let present := (List.zip (List.range chans.length) chans).foldl (fun a c =>
    if c.2.present && !dataErr then a + 2 ^ c.1 else a) 0
  let last := mget 0 s.ing.lastTag i
  let s := s.bump (ingCnt i 1)
  let s := if bitOf b.stat 10 then s.bump (ingCnt i 14) else s
  let s := { s with ing := { s.ing with lastTag := mset 0 s.ing.lastTag i (tag + 1) } }
  s.gladeBlock (s.dir i TF.ING.Directory.GROVE) (if last = 0 then none else some (last - 1))
    { stream := i, ttag := tag, present := w64 present, chans := chans.map (·.v), quality := b.quality,
      arrival := arrival % 2 ^ 64, jseq := jseq }

/-- The block at a position of a frame. -/
def State.rawBlock (s : State) (entry : Nat) (rsv : Bool) (bytes : List Byte) (i : Nat) : RawBlk :=
  if rsv then
    match readRsv bytes with
    | some u => rsvBlock (entry + i) (u.asdus.getD i [])
    | none => rsvBlock (entry + i) []
  else s.c37Block (entry + i) bytes

/-- The mask of accepted blocks (R139, R495). -/
def blockMask (l : List Nat) : Nat := l.foldl (fun a i => a + 2 ^ i) 0

/-- A frame receives its journal sequence number and enters the journal (R36, R139, R495). -/
def State.journalFrame (s : State) (port source arrival mask : Nat) (bytes : List Byte) : State :=
  let n := s.ing.jseq
  let s := { s.bump R.ING_U_JOURNALLED with ing := { s.ing with jseq := n + 1 } }
  s.journal 0 port source n (arrival % 2 ^ 64) (leBytes 32 mask ++ bytes)

/-! ## Non-data frames (R124, R141, R142) -/

/-- CFG_MATCHED and CFG_CHANGES (R150): 32 bits each, saturating and setting the block's flag (R23); `changed` counts in the high
word. -/
def State.cfgCount (s : State) (i : Nat) (changed : Bool) : State :=
  let v := (s.cnt (ingCnt i 13)).toNat
  let half (x : Nat) (on : Bool) : Nat := if on then min (x + 1) (2 ^ 32 - 1) else x
  let lo := half (v % 2 ^ 32) (!changed)
  let hi := half (v / 2 ^ 32) changed
  let s := s.setCnt (ingCnt i 13) (w64 (lo + hi * 2 ^ 32))
  if (if changed then hi else lo) = 2 ^ 32 - 1 then { s with saturated := mset false s.saturated 5 true } else s

/-- An entry of the chain compared (R142). -/
def State.cfgEntry (s : State) (e : Nat) (c : CfgFrame) (i : Nat) : State :=
  let d := e + i
  let same :=
    c.numPmu = s.dir e TF.ING.Directory.NUM_BLOCKS && c.timeBase = s.dir d TF.ING.Directory.TIME_BASE
      && rateMatches c.dataRate (s.dir d TF.ING.Directory.RATE)
      && match c.pmus[i]? with
        | none => false
        | some p => p.format % 16 = s.dir d TF.ING.Directory.FORMAT && p.np = s.dir d TF.ING.Directory.NUM_PHASOR
            && p.na = s.dir d TF.ING.Directory.NUM_ANALOG && p.nd = s.dir d TF.ING.Directory.NUM_DIGITAL
            && p.cfgCnt = s.dir d TF.ING.Directory.CFG_CNT
  if same then (s.setTf TF.ING.Directory.CFG_STATE d 0).cfgCount d false
  else ((s.setTf TF.ING.Directory.CFG_STATE d 2).cfgCount d true).raise F.ING_INT_STATUS.CFG_CHANGE

/-- A configuration frame compared against its chain (R141). -/
def State.cfgCompare (s : State) (e : Nat) (l : List Byte) : State :=
  let v3 := c37Type l = 5
  if c37Type l ≠ 3 && !v3 then s
  else if v3 && beAt l 14 2 ≠ 0 then s
  else match readCfg v3 l with
    | none => s.bump R.ING_U_CFG_MALFORMED
    | some c =>
      ((List.range (s.dir e TF.ING.Directory.NUM_BLOCKS)).filter fun i => s.chainOk e i).foldl (fun s i => s.cfgEntry e c i) s

/-- KIND of R649 for a frame type. -/
def nondataKind (type : Nat) : Nat := match type with | 1 => 1 | 2 => 2 | 3 => 3 | 5 => 4 | _ => 5

/-- An accepted non-data frame: compared, copied and queued (R124, R141). -/
def State.nondata (s : State) (port source entry arrival jseq : Nat) (l : List Byte) : State :=
  let s := s.cfgCompare entry l
  match s.passCopy l with
  | none => s.bump R.ING_U_NONDATA_UNQUEUED
  | some (s1, addr, next) =>
    let r := s1.push (s.fld F.ING_SV_QUEUE.NONDATA) 33
      (passEntry addr source (arrival % 2 ^ 64) jseq l.length port (nondataKind (c37Type l)) next) false false
    if r.2 = 0 then r.1
    else (r.1.setReg R.ING_PASS_WRITE (s.reg R.ING_PASS_WRITE)).bump R.ING_U_NONDATA_UNQUEUED

/-! ## FRAME_ACCEPT and the journal's frames -/

/-- A pending frame at the acceptance point (R138, R139). -/
def State.acceptFrame (s : State) (f : PendFrame) : State :=
  let jseq := s.ing.jseq
  if f.data then
    let judged := f.blocks.map fun i =>
      let b := s.rawBlock f.entry f.rsv f.bytes i
      (i, b, s.blockCheck f b)
    let s := judged.foldl (fun s x => match x.2.2.1 with | some q => s.bump (ingCnt x.2.1.stream q) | none => s) s
    let ok := judged.filter fun x => x.2.2.1.isNone
    if ok.isEmpty then s
    else
      let s := s.journalFrame f.port f.source f.arrival (blockMask (ok.map (·.1))) f.bytes
      ok.foldl (fun s x => s.acceptBlock f.arrival jseq x.2.2.2 x.2.1) s
  else
    let s := s.journalFrame f.port f.source f.arrival 0 f.bytes
    s.nondata f.port f.source f.entry f.arrival jseq f.bytes

/-- Unit counts of a frame that the shadow takes from the journal: it is identified as a frame found in a stream of bytes is,
so that the identities of R145 hold beside RECEIVED of R497 (log 39). -/
def State.countApplied (s : State) (blocks : Option Nat) : State :=
  let s := (s.bump R.ING_U_TCP_FRAMES).bump R.ING_U_IDENTIFIED
  match blocks with
  | none => s.bump R.ING_U_NONDATA
  | some n => (s.bump R.ING_U_DATA_FRAMES).bumpBy R.ING_U_DATA_BLOCKS n

/-- A frame entry of the peer's journal applied by the shadow (R497): no check is repeated. -/
def State.applyFrame (s : State) (port source jseq arrival mask : Nat) (bytes : List Byte) : State :=
  let rsv := s.tf TF.ING.Source.TRANSPORT source = 2
  let s := { s with ing := { s.ing with jseq := jseq + 1 } }
  match s.identify source (if rsv then s.tf TF.ING.Source.RSV_IDCODE source else beAt bytes 4 2) with
  | none => s
  | some e =>
    if !rsv && c37Type bytes ≠ 0 then (s.countApplied none).nondata port source e arrival jseq bytes
    else
      let named := (List.range 256).filter fun i => bitOf mask i
      let s := s.countApplied (some named.length)
      let s := match (if rsv then readRsv bytes else none) with
        | some u => { s with ing := { s.ing with rsvLast := mset 0 s.ing.rsvLast source (u.spdu + 1) } }
        | none => s
      named.foldl (fun s i =>
        let b := s.rawBlock e rsv bytes i
        let tag := match s.blockTime b with
          | some (sec, num, den) => snapTag (s.dir b.stream TF.ING.Directory.RATE) sec num den
          | none => 0
        (s.bump (ingCnt b.stream 0)).acceptBlock arrival jseq tag b) s

/-! ## Commands -/

/-- PARSER_FRAME_IN (R113): stage A stalls under backpressure (R451). -/
def execParserFrameIn (dt : Nat) (s : State) : Out :=
  let s := s.elapse dt
  match s.ing.eth with
  | [] => .next s
  | e :: t => 
    if s.parserBp then .next s
    else .next ((({ s with ing := { s.ing with eth := t } }.pbump e.port R.NET_RX_TO_PARSER).bump R.ING_U_FROM_MAC).parseFrame e)

/-- TCP_ACK_TIMER (R116). -/
def execTcpAckTimer (c : BitVec 11) (dt : Nat) (s : State) : Out :=
  let s := s.elapse dt
  let x := s.conn c.toNat
  if s.tflag TF.ING.Connection.OPEN c.toNat && x.unacked != 0 && decide (200 * clkPerUs ≤ s.now - x.since) then
    .next (s.tcpAck c.toNat)
  else .next s

/-- The acceptance point passes frames: the parser and the Glade run, the mode ingests and does not hold acceptance (R55,
R144, R211). -/
def State.accepts (s : State) : Bool :=
  !s.flag F.ING_STATUS.STOPPED && s.flag F.GLD_CTRL.RUN && s.ingests && s.sys.mode != .recovery

/-- FRAME_ACCEPT (R139). -/
def execFrameAccept (dt : Nat) (s : State) : Out :=
  let s := s.elapse dt
  match s.ing.pend with
  | [] => .next s
  | f :: t => if s.accepts then .next ({ s with ing := { s.ing with pend := t } }.acceptFrame f) else .next s

/-- SET_RELEASED (R192). -/
def execSetReleased (dt : Nat) (s : State) : Out :=
  let s := s.elapse dt
  if s.gladeRuns then .next s.setReleased else .next s

end Sys2Proof.Machine
end

