-- ==== Sys2Proof/Machine/Filter.lean ====
section
/-!
DEFINITION. The Filter Engine (chapter 07): samples, the cascade of moving averages, resets, bank changes, passes and their
records and notices.
-/

namespace Sys2Proof.Machine

/-! ## Exact values of binary32 patterns -/

/-- A finite binary32 in units of 2^-149; an infinity as 2^300, NaN as 0. -/
def fixF (x : Nat) : Int :=
  match fdec f32 x with
  | .fin neg m e => scaled neg m e (-149)
  | .inf neg => if neg then -(2 ^ 300) else 2 ^ 300
  | .nan _ => 0

/-- A binary32 as binary64. -/
def f32to64 (x : Nat) : Nat :=
  match fdec f32 x with
  | .fin neg m e => (froundTo f64 neg m e false).bits
  | .inf neg => finf f64 neg
  | .nan _ => fnan f64 0 0

/-- A binary64 rounded to binary32. -/
def f64to32 (x : Nat) : Nat :=
  match fdec f64 x with
  | .fin neg m e => (froundTo f32 neg m e false).bits
  | .inf neg => finf f32 neg
  | .nan _ => fnan f32 0 0

/-- Magnitude of 2^35 or more, or NaN (R217, log 24). -/
def tooLarge (x : Nat) : Bool := isNan32 x || decide (2 ^ 184 ≤ (fixF x).natAbs)

/-! ## Stages (R218) -/

/-- A stage at rest, and a bank after reset. -/
def stageIdle : FStage := ⟨[], 0⟩
def bankIdle : FBank := ⟨[stageIdle, stageIdle, stageIdle, stageIdle], [stageIdle, stageIdle, stageIdle, stageIdle], 0⟩

/-- A binary32 in 2^-48, rounded to nearest, halves away from zero. -/
def toFix48 (x : Nat) : Int :=
  let v := fixF x
  let a : Nat := (v.natAbs + 2 ^ 100) / 2 ^ 101
  if v < 0 then -(a : Int) else (a : Int)

/-- sum / L in binary32. -/
def stageOut (sum : Int) (l : Nat) : Nat :=
  let n := sum.natAbs * 2 ^ 64
  (froundTo f32 (decide (sum < 0)) (n / l) (-112) (n % l != 0)).bits

/-- One stage of length `l` takes an input. -/
def FStage.step (st : FStage) (l x : Nat) : FStage × Nat :=
  if l ≤ 1 then (st, x)
  else
    let v := toFix48 x
    let sum := st.sum + v - st.hist.getD (l - 1) 0
    (⟨(v :: st.hist).take l, sum⟩, stageOut sum l)

/-- The cascade of one component. -/
def cascade : List FStage → List Nat → Nat → List FStage × Nat
  | st :: r, l :: ls, x =>
    let a := st.step l x
    let b := cascade r ls a.2
    (a.1 :: b.1, b.2)
  | r, _, x => (r, x)

/-- A bank takes a present sample. -/
def FBank.take (b : FBank) (ls : List Nat) (re im : Nat) : FBank × Nat × Nat :=
  let r := cascade b.re ls re
  let i := cascade b.im ls im
  (⟨r.1, i.1, b.count + 1⟩, r.2, i.2)

/-! ## Channel entries -/

/-- A filter channel at rest. -/
def fchanIdle : FChan :=
  { bank := 0, main := bankIdle, fade := none, faded := 0, seq := none, epoch := 0, unwrap := none, changeAt := 0,
    resetDue := false }

/-- A filter channel. -/
def State.fchan (s : State) (k : Nat) : FChan := mget fchanIdle s.flt.chans k

/-- A filter channel stored. -/
def State.setFchan (s : State) (k : Nat) (x : FChan) : State :=
  { s with flt := { s.flt with chans := mset fchanIdle s.flt.chans k x } }

/-- Stage lengths of a bank. -/
def State.bankLens (s : State) (k bank : Nat) : List Nat :=
  if bank = 0 then
    [s.tf TF.FLT.FilterChannel.A_L1 k + 1, s.tf TF.FLT.FilterChannel.A_L2 k + 1, s.tf TF.FLT.FilterChannel.A_L3 k + 1,
     s.tf TF.FLT.FilterChannel.A_L4 k + 1]
  else
    [s.tf TF.FLT.FilterChannel.B_L1 k + 1, s.tf TF.FLT.FilterChannel.B_L2 k + 1, s.tf TF.FLT.FilterChannel.B_L3 k + 1,
     s.tf TF.FLT.FilterChannel.B_L4 k + 1]

/-- Decimation exponent of a bank. -/
def State.bankDecim (s : State) (k bank : Nat) : Nat :=
  s.tf (if bank = 0 then TF.FLT.FilterChannel.A_DECIM else TF.FLT.FilterChannel.B_DECIM) k

/-- Settling length S (R220). -/
def settleLen (ls : List Nat) : Nat := ls.foldl (· + ·) 0 - 3

/-- Group delay in half samples (R221). -/
def groupDelay (ls : List Nat) : Nat := ls.foldl (· + ·) 0 - 4

/-- A change is pending on the channel (R223): the producing bank is not the one ACTIVE names. -/
def State.changePending (s : State) (k : Nat) : Bool := (s.fchan k).bank != s.tf TF.FLT.FilterChannel.ACTIVE k

/-- Key of the m-th counter of a channel (R232). -/
def fltCnt (k m : Nat) : Nat := tblCntKey 0x81 k m

/-- FADES_DONE (low) and FADES_ABANDONED (high), 32 bits each, saturating. -/
def State.fadeCount (s : State) (k : Nat) (abandoned : Bool) : State :=
  let v := (s.cnt (fltCnt k 9)).toNat
  let lo := v % 2 ^ 32
  let hi := v / 2 ^ 32
  s.setCnt (fltCnt k 9)
    (w64 (if abandoned then lo + min (hi + 1) (2 ^ 32 - 1) * 2 ^ 32 else min (lo + 1) (2 ^ 32 - 1) + hi * 2 ^ 32))

/-! ## Samples (R215 to R217) -/

/-- Some word of a member's slot in the Set record at `addr` is poisoned: an engine takes the slot as empty (R520). -/
def State.slotPoisoned (s : State) (addr : Nat) (m : GMember) : Bool := s.anyPoison (addr + m.off) (32 + 8 * m.numCh)

/-- An engine that takes a notice counts a poisoned read for each poisoned slot of its Set record (R520, log 44). -/
def State.engineReads (s : State) (g addr : Nat) : State :=
  s.bumpBy R.ERR_U_POISON_READS ((s.grove g).members.filter fun m => s.slotPoisoned addr m).length

/-- A source slot's channel in a Set record: its two words, or none when it is absent. -/
def State.slotChan (s : State) (g addr stream ch : Nat) (kinds : List Nat) : Option (Nat × Nat) :=
  match memberOf stream (s.grove g).members 0 with
  | none => none
  | some (_, m) =>
    let a := addr + m.off
    let kind := s.tf TF.ING.ChannelMap.KIND (s.dir stream TF.ING.Directory.CHMAP_BASE + ch)
    if s.slotPoisoned addr m || s.rdLe (a + 0x1B) 1 ≤ ch || !kinds.contains kind || !bitOf (s.rdLe (a + 0x1A) 1) 0
        || !bitOf (s.rdLe a 8) ch then none
    else some (s.rdLe (a + 0x20 + 8 * ch) 4, s.rdLe (a + 0x24 + 8 * ch) 4)

/-- The wrapped difference of two phasors' arguments (R216, R415). -/
def angDiff (a b : Nat × Nat) : Nat := (fwrapDiff (farg f32 a.1 a.2).bits (farg f32 b.1 b.2).bits).bits

/-- The unwrapped value after a wrapped difference (R216; the wrap of the step is that of ADIFF, log 24). -/
def unwrapNext (u : Option (Nat × Nat)) (w : Nat) : Nat :=
  match u with
  | none => f32to64 w
  | some (v, prev) => (fadd f64 v (f32to64 (fwrapDiff w prev).bits)).bits

/-- A channel's sample from a Set record: components and the new unwrapping state, or none; with CLIPPED. -/
def State.sampleOf (s : State) (k g addr : Nat) (fresh : Bool) : Option (Nat × Nat × Option (Nat × Nat)) × Bool :=
  let c1 := s.slotChan g addr (s.tf TF.FLT.FilterChannel.STREAM k) (s.tf TF.FLT.FilterChannel.CH k)
  let c2 := s.slotChan g addr (s.tf TF.FLT.FilterChannel.STREAM2 k) (s.tf TF.FLT.FilterChannel.CH2 k)
  let raw : Option (Nat × Nat × Option (Nat × Nat)) :=
    match s.tf TF.FLT.FilterChannel.INPUT k with
    | 0 => (c1 [0]).map fun v => (v.1, v.2, none)
    | 1 => (c1 [0]).map fun v => ((fhypot f32 v.1 v.2).bits, 0, none)
    | 2 => (c1 [1, 2, 3]).map fun v => (v.1, 0, none)
    | 3 =>
      match c1 [0], c2 [0] with
      | some a, some b =>
        let w := angDiff a b
        let u := unwrapNext (if fresh then none else (s.fchan k).unwrap) w
        some (f64to32 u, 0, some (u, w))
      | _, _ => none
    | _ => none
  match raw with
  | none => (none, false)
  | some v => if tooLarge v.1 || tooLarge v.2.1 then (none, true) else (some v, false)

/-! ## One sample of one channel (R218 to R225) -/

/-- A reset of a channel: a fade in progress is abandoned in favour of the new bank (R222, R225). -/
def State.resetChan (s : State) (k : Nat) : State :=
  let x := s.fchan k
  let abandoned := x.fade.isSome
  let s := s.bump (fltCnt k 4)
  let s := s.setFchan k { x with
    bank := if abandoned then 1 - x.bank else x.bank
    main := bankIdle, fade := none, faded := 0, unwrap := none, resetDue := false }
  if abandoned then (s.fadeCount k true).raise F.FLT_INT_STATUS.FADE_ABANDONED else s

/-- A change is due at this sample (R224): it was written before the pass's notice came. -/
def State.changeDue (s : State) (k pass : Nat) : Bool :=
  let x := s.fchan k
  s.changePending k && x.fade.isNone && decide (x.changeAt ≤ pass)

/-- The change is a cross-fade: both banks have the same n (R224). -/
def State.crossFades (s : State) (k : Nat) : Bool :=
  s.tf TF.FLT.FilterChannel.CHANGE k = 1 && s.bankDecim k 0 = s.bankDecim k 1

/-- A change due at this sample starts (R224): a swap resets the channel in the new bank, a cross-fade starts the new one. The
flag tells a swap. -/
def State.startChange (s : State) (k pass : Nat) : State × Bool :=
  let x := s.fchan k
  if s.changeDue k pass then
    let new := s.tf TF.FLT.FilterChannel.ACTIVE k
    if s.crossFades k then
      (s.setFchan k { x with fade := some bankIdle, faded := 0 }, false)
    else
      ((((s.setFchan k { x with bank := new }).resetChan k).bump (fltCnt k 8)).raise F.FLT_INT_STATUS.SWAP, true)
  else (s, false)

/-- (1 - w) x old + w x new in binary32, for j of N (R224). -/
def fadeMix (j n old new : Nat) : Nat :=
  let w := (fdiv f32 (i2f j) (i2f n)).bits
  let v := (fsub f32 0x3F800000 w).bits
  (fadd f32 (fmul f32 v old).bits (fmul f32 w new).bits).bits

/-- The Set is a decimation point for exponent `n` (R219). -/
def decimPoint (seq n : Nat) : Bool := seq % 2 ^ n = 2 ^ n - 1

/-- An output record: settled and present, or UNSETTLED and absent (R220, R228). -/
def mkOut (k re im delay bank n : Nat) (settled fading : Bool) : FltOut :=
  { channel := k, re := if settled then re else 0, im := if settled then im else 0, delay := delay,
    flags := b2n fading * 8 + bank * 4 + b2n (!settled) * 2 + b2n settled, n := n }

/-- The channel takes a present sample; an output at a decimation point. -/
def State.takeSample (s : State) (k seq : Nat) (re im : Nat) : State × Option FltOut :=
  let x := s.fchan k
  let ls := s.bankLens k x.bank
  let a := x.main.take ls re im
  let n := s.bankDecim k x.bank
  match x.fade with
  | none =>
    let s := s.setFchan k { x with main := a.1 }
    (s, if decimPoint seq n then
          some (mkOut k a.2.1 a.2.2 (groupDelay ls) x.bank n (decide (settleLen ls ≤ a.1.count)) false) else none)
  | some nb =>
    let lb := s.bankLens k (1 - x.bank)
    let b := nb.take lb re im
    if !decimPoint seq n then (s.setFchan k { x with main := a.1, fade := some b.1 }, none)
    else if b.1.count < settleLen lb then
      (s.setFchan k { x with main := a.1, fade := some b.1 },
       some (mkOut k a.2.1 a.2.2 (groupDelay ls) x.bank n (decide (settleLen ls ≤ a.1.count)) false))
    else
      let total := s.tf TF.FLT.FilterChannel.FADE_N k + 1
      let j := x.faded + 1
      let y := mkOut k (fadeMix j total a.2.1 b.2.1) (fadeMix j total a.2.2 b.2.2) (groupDelay lb) (1 - x.bank) n true
        (decide (j < total))
      if j < total then (s.setFchan k { x with main := a.1, fade := some b.1, faded := j }, some y)
      else
        (((s.setFchan k { x with bank := 1 - x.bank, main := b.1, fade := none, faded := 0 }).fadeCount k false).raise
          F.FLT_INT_STATUS.FADE_DONE, some y)

/-- An absent sample at a decimation point of the producing bank gives an unsettled output (R219, R220, R222). -/
def State.absentOut (s : State) (k seq : Nat) : Option FltOut :=
  let bank := (s.fchan k).bank
  let n := s.bankDecim k bank
  if decimPoint seq n then some (mkOut k 0 0 (groupDelay (s.bankLens k bank)) bank n false false) else none

/-- An output counted, as its record is written (R230). -/
def State.countOut (s : State) (y : FltOut) : State :=
  (s.bump (fltCnt y.channel 5)).bump (fltCnt y.channel (if bitOf y.flags 0 then 6 else 7))

/-- The sample of this Set resets the channel, whatever it holds (R222). -/
def State.resetsAt (s : State) (k seq epoch : Nat) (broken : Bool) : Bool :=
  let x := s.fchan k
  x.resetDue || broken || match x.seq with | some q => q + 1 != seq || x.epoch != epoch | none => false

/-- The channel is made ready for its sample: one reset whatever its causes, a swap among them; a cross-fade starts after the reset of a
present sample, and falls to the reset of an absent one (R222, R224, R225). -/
def State.readyChan (s : State) (k seq epoch pass : Nat) (broken absent : Bool) : State :=
  if s.changeDue k pass && !s.crossFades k then (s.startChange k pass).1
  else if absent then (s.startChange k pass).1.resetChan k
  else (if s.resetsAt k seq epoch broken then s.resetChan k else s).startChange k pass |>.1

/-- The channel's turn in a pass over the Set record at `addr`. -/
def State.chanPass (s : State) (k g addr seq epoch pass : Nat) (broken : Bool) : State × Option FltOut :=
  let s := s.bump (fltCnt k 0)
  let fresh := s.resetsAt k seq epoch broken || (s.changeDue k pass && !s.crossFades k)
  let smp := s.sampleOf k g addr fresh
  let s := if smp.2 then s.bump (fltCnt k 3) else s
  let s := s.readyChan k seq epoch pass broken smp.1.isNone
  match smp.1 with
  | none =>
    let s := (s.bump (fltCnt k 2)).setFchan k { s.fchan k with seq := some seq, epoch := epoch }
    (s, s.absentOut k seq)
  | some (re, im, u) =>
    ((s.bump (fltCnt k 1)).setFchan k { s.fchan k with seq := some seq, epoch := epoch, unwrap := u }).takeSample k seq re im

/-- Channels in ascending order (R226). -/
def State.chansPass (s : State) (g addr seq epoch pass : Nat) (broken : Bool) : List Nat → State × List FltOut
  | [] => (s, [])
  | k :: t =>
    let a := s.chanPass k g addr seq epoch pass broken
    let b := a.1.chansPass g addr seq epoch pass broken t
    (b.1, (match a.2 with | some o => [o] | none => []) ++ b.2)

/-- Enabled channels of a Grove. -/
def State.groveChans (s : State) (g : Nat) : List Nat :=
  (s.validEntries T.FLT.FilterChannel 0).filter fun k => s.tf TF.FLT.FilterChannel.GROVE k = g

/-! ## Passes (R226 to R229) -/

/-- The engine runs: its run control is one, it is not stopped, and the mode runs detection. -/
def State.fltRuns (s : State) : Bool := s.flag F.FLT_CTRL.RUN && !s.flag F.FLT_STATUS.STOPPED && s.detects

/-- A pass starts for the next waiting notice (R226). -/
def State.filterPass (s : State) (e : Entry) (rest : List Entry) : State :=
  let g := noticeGrove e
  let addr := noticeAddr e
  let no := s.flt.taken
  let fl := noticeFlags e
  let p : FPass :=
    { ttag := noticeTtag e, seq := noticeSeq e, epoch := descField e 0x18 4, grove := g, tq := s.rdLe (addr + 0x18) 2,
      worst := s.rdLe (addr + 0x1E) 1, outs := [] }
  { (s.engineReads g addr).bump R.FLT_U_PASSES with
    gld := { s.gld with fltWait := rest }
    flt := { s.flt with
      taken := no + 1
      cur := some { pass := p, addr := addr, broken := bitOf fl 4 || bitOf fl 5, no := no, next := 0, since := s.now } } }

/-- The channel slots of the pass in progress before slot `upto` are taken (R226). -/
def State.fltSlots (s : State) (r : FRun) (upto : Nat) : State :=
  let p := r.pass
  let ks := (s.groveChans p.grove).filter fun k => decide (r.next ≤ k ∧ k < upto)
  let q := s.chansPass p.grove r.addr p.seq p.epoch r.no r.broken ks
  { q.1 with flt := { q.1.flt with cur := some { r with pass := { p with outs := p.outs ++ q.2 }, next := max r.next upto } } }

/-- The pass in progress is brought up to this moment: a slot every 2.5 ns, which is 3 clk; the slot whose sample is in progress
completes (R226, R227). -/
def State.fltCatchUp (s : State) : State :=
  match s.flt.cur with
  | none => s
  | some r => if s.fltRuns then s.fltSlots r (min 4096 ((s.now - r.since) / 3 + 1)) else s

/-- The pass resumes from its next slot when the engine starts again (R227). -/
def State.fltResume (s : State) : State :=
  match s.flt.cur with
  | none => s
  | some r => { s with flt := { s.flt with cur := some { r with since := s.now - 3 * r.next } } }

/-- The 32-byte record of an output (R228). -/
def fltRecord (p : FPass) (o : FltOut) : List Byte :=
  leBytes 8 p.ttag ++ leBytes 4 o.re ++ leBytes 4 o.im ++ leBytes 4 p.epoch ++ leBytes 4 p.seq ++ leBytes 2 o.channel
    ++ leBytes 2 o.delay ++ leBytes 1 o.flags ++ leBytes 3 0

/-- Base of a ring from its two base registers. -/
def State.ringBase (s : State) (lo hi : Nat) : Nat := (s.reg lo).toNat / 64 * 64 + (s.reg hi).toNat % 256 * 2 ^ 32

/-- Address of the next record of the output ring. -/
def State.fltAddr (s : State) : Nat :=
  s.ringBase R.FLT_OUT_BASE_LO R.FLT_OUT_BASE_HI + 32 * (s.flt.outIdx % max 1 (s.fld F.FLT_OUT_RECORDS.N))

/-- Records written one after another. -/
def State.fltWrite (s : State) (p : FPass) : List FltOut → State
  | [] => s
  | o :: t =>
    let s := ((s.wrBytes s.fltAddr (fltRecord p o)).bump R.FLT_U_RECORDS).countOut o
    { s with flt := { s.flt with outIdx := s.flt.outIdx + 1 } }.fltWrite p t

/-- The Mode Engine takes a pass that wrote a record, or drops it (R234). -/
def State.oscTake (s : State) (p : FPass) : State :=
  let s := s.bump R.OSC_U_PASSES
  if s.osc.wait.length < 64 then
    { s with osc := { s.osc with wait := s.osc.wait ++ [p], arrived := s.osc.arrived + 1 } }
  else ((s.bump R.OSC_U_DROPPED).raise F.OSC_INT_STATUS.DROPPED).detect 0x24 9 0xFF

/-- The pass takes its last slots and ends: records, notice, digest, and the Mode Engine (R228, R229, R234). -/
def State.filterDone (s : State) (r : FRun) : State :=
  let s := s.fltSlots r 4096
  let p := match s.flt.cur with | some q => q.pass | none => r.pass
  let s := { s with flt := { s.flt with cur := none } }
  if p.outs.isEmpty then s
  else
    let addr := s.fltAddr
    let s := s.fltWrite p p.outs
    let e : Entry := BitVec.ofNat 256 (leNat (leBytes 8 p.ttag ++ leBytes 8 p.seq ++ leBytes 8 addr ++ leBytes 4 p.epoch
      ++ leBytes 1 p.grove ++ leBytes 1 0 ++ leBytes 2 p.outs.length))
    let r := s.pushNotice (s.fld F.FLT_OUT_QUEUE.QUEUE) 36 e
    let s := if r.2 = 0 then r.1 else r.1.bump R.FLT_U_NOTICE_REFUSED
    (s.digest 9 p.grove p.seq (p.outs.flatMap (fltRecord p))).oscTake p

/-- FILTER_PASS (R226). -/
def execFilterPass (dt : Nat) (s : State) : Out :=
  let s := s.elapse dt
  match s.flt.cur, s.gld.fltWait with
  | none, e :: rest => if s.fltRuns then .next (s.filterPass e rest) else .next s
  | _, _ => .next s

/-- FILTER_PASS_DONE (R229). -/
def execFilterPassDone (dt : Nat) (s : State) : Out :=
  let s := s.elapse dt
  match s.flt.cur with
  | some r => if s.fltRuns then .next (s.filterDone r) else .next s
  | none => .next s

/-! ## Writes of a channel entry (R222, R223, R237) -/

/-- Words 0 and 1 and the fields of word 6 that a LIVE write may change: a bank's words are LIVE while the bank is not active
and no change is pending. -/
def State.fltLiveOk (s : State) (k : Nat) (old new : List Nat) : Bool :=
  let act := s.tf TF.FLT.FilterChannel.ACTIVE k
  let same (w : Nat) : Bool := old.getD w 0 = new.getD w 0
  same 0 && same 1 && (if s.changePending k then same 2 && same 3 && same 4 && same 5 && same 6
    else if act = 0 then same 2 && same 3 else same 4 && same 5)

/-- After a channel entry took new words: an inverted ACTIVE is a change to come, and written non-LIVE fields a reset (R222, R224). -/
def State.fltWritten (s : State) (k : Nat) (liveOnly : Bool) (oldActive : Nat) : State :=
  let x := s.fchan k
  let x := if s.tf TF.FLT.FilterChannel.ACTIVE k = oldActive then x
    else { x with changeAt := s.flt.taken + s.gld.fltWait.length }
  s.setFchan k { x with resetDue := x.resetDue || !liveOnly }

/-- A channel as its loaded entry has it: the bank that ACTIVE names produces; after a block reset its reset is due (R222). -/
def State.fltLoaded (s : State) (k : Nat) (due : Bool) : State :=
  s.setFchan k { s.fchan k with bank := s.tf TF.FLT.FilterChannel.ACTIVE k, resetDue := due }

/-- STATE, PENDING and SETTLE_LEFT of a channel (word 7, R232). -/
def State.fltWord7 (s : State) (k : Nat) : Nat :=
  let x := s.fchan k
  let left := settleLen (s.bankLens k x.bank) - x.main.count
  let st := if !s.tflag TF.FLT.FilterChannel.ENABLE k then 0 else if x.fade.isSome then 3 else if left = 0 then 2 else 1
  st * 2 ^ 30 + b2n (s.changePending k) * 2 ^ 29 + left % 2 ^ 15

end Sys2Proof.Machine
end

