-- ==== Sys2Proof/Machine/Spectral.lean ====
section
/-!
DEFINITION. Numbers of the Mode Engine (chapter 08): logarithms, the frequency, damping, amplitude, energy and shape of a mode from the
solution of the eigenproblem (R239, R240), and the spectrum of a window with its peaks (R250, R251). Each is computed exactly, or in fixed
point with `fixBits` fractional bits, and rounded once to binary32 (log 23).
-/

namespace Sys2Proof.Machine

/-! ## Exact values and rounding -/

/-- A finite binary64 in units of 2^-1074; zero for the patterns that are no number. -/
def fixD (x : Nat) : Int :=
  match fdec f64 x with
  | .fin neg m e => scaled neg m e (-1074)
  | _ => 0

/-- A signed quotient rounded to binary32. -/
def roundRatio (num : Int) (den : Nat) : Nat :=
  let k := fixBits + Nat.log2 den
  (froundTo f32 (decide (num < 0)) (num.natAbs * 2 ^ k / den) (-(k : Int)) (num.natAbs * 2 ^ k % den != 0)).bits

/-- The square root of num / den x 2^(2e), rounded to binary32. -/
def roundRoot (num den : Nat) (e : Int) : Nat :=
  let k := 64 + Nat.log2 den
  let r := isqrt (num * 2 ^ (2 * k) / den)
  (froundTo f32 false r (e - k) (r * r * den != num * 2 ^ (2 * k))).bits

/-! ## Logarithms -/

/-- The series of artanh z for 0 ≤ z ≤ 1/3 in fixed point: `t` = z^(2k+1), `w` = z². -/
def atanhFrom (w : Nat) : Nat → Nat → Nat → Nat
  | 0, _, _ => 0
  | fuel + 1, k, t => if t = 0 then 0 else t / (2 * k + 1) + atanhFrom w fuel (k + 1) (t * w / 2 ^ fixBits)

/-- artanh (a / b) in fixed point, for 0 ≤ 3a ≤ b. -/
def atanhRatio (a b : Nat) : Nat := atanhFrom (a * a * 2 ^ fixBits / (b * b)) 400 0 (a * 2 ^ fixBits / b)

/-- ln 2 in fixed point. -/
def ln2Fix : Nat := 2 * atanhRatio 1 3

/-- ln (a / b) in fixed point, for positive a and b. -/
def lnRatio (a b : Nat) : Int :=
  let k : Int := (Nat.log2 a : Int) - Nat.log2 b
  let x := if k < 0 then a * 2 ^ (-k).toNat else a
  let y := if k < 0 then b else b * 2 ^ k.toNat
  let part := if y ≤ x then ((2 * atanhRatio (x - y) (x + y) : Nat) : Int) else -((2 * atanhRatio (y - x) (x + y) : Nat) : Int)
  k * (ln2Fix : Int) + part

/-! ## One mode (R239, R240) -/

/-- A complex number as two integers of one unit. -/
structure CInt where
  re : Int
  im : Int
  deriving DecidableEq, Repr

/-- |z|² in the unit's square. -/
def CInt.norm (z : CInt) : Nat := (z.re * z.re + z.im * z.im).toNat

/-- Product. -/
def CInt.mul (a b : CInt) : CInt := ⟨a.re * b.re - a.im * b.im, a.re * b.im + a.im * b.re⟩

/-- Eigenvalue `i` of a tracker's state matrix, in units of 2^-1074: its solution is free (log 23). -/
def eigenvalue (ops : List Nat) (i : Nat) : CInt := ⟨fixD (Config.eigRe ops i).toNat, fixD (Config.eigIm ops i).toNat⟩

/-- arg z is above zero: the eigenvalue is a mode (R239). -/
def CInt.isMode (z : CInt) : Bool := decide (0 < z.im) || (z.im = 0 && decide (z.re < 0))

/-- arg z of a mode in fixed point. -/
def CInt.arg (z : CInt) : Nat :=
  if z.im = 0 then piFix else if z.re = 0 then piFix / 2 else argFix (decide (z.re < 0)) z.re.natAbs z.im.natAbs

/-- f = arg(z) x fs / 2π, for fs = rate / den. -/
def modeFreqOf (z : CInt) (rate den : Nat) : Nat :=
  if z.im = 0 then roundRatio rate (2 * den) else (froundFix f32 false (z.arg * rate * 2 ^ fixBits / (2 * piFix * den))).bits

/-- ln |z| in fixed point. -/
def CInt.lnAbs (z : CInt) : Int := lnRatio z.norm (2 ^ 2148) / 2

/-- ζ = -ln|z| / sqrt(ln²|z| + arg²(z)). -/
def modeDampOf (z : CInt) : Nat :=
  let l := z.lnAbs
  if z.norm = 2 ^ 2148 then 0
  else (froundFix f32 (decide (0 < l)) (l.natAbs * 2 ^ fixBits / isqrt (l.natAbs * l.natAbs + z.arg * z.arg))).bits

/-- Sum over the last `report` updates of the squared contribution of a mode to the shape-reference input, in units of 2^-2148: the
contributions are free (log 23). -/
def contribution (ops : List Nat) (report i : Nat) : Nat :=
  (List.range report).foldl (fun a u => let c := fixD (Config.modeContrib ops i u).toNat; a + (c * c).toNat) 0

/-- AMP: √2 times the RMS of the contribution (R240). -/
def modeAmpOf (ops : List Nat) (report i : Nat) : Nat := roundRoot (2 * contribution ops report i) (max 1 report) (-1074)

/-- ENERGY: the share of the summed squared contributions of all modes; with none of them the share is free. -/
def modeEnergyOf (ops : List Nat) (report : Nat) (modes : List Nat) (i : Nat) : Nat :=
  let all := modes.foldl (fun a k => a + contribution ops report k) 0
  if all = 0 then (Config.openNumber 0 ops i).toNat % 2 ^ 32 else roundRatio (contribution ops report i) all

/-- Entry `a` of φ = U0 x v (R239), in units of 2^-2148: U0 and v are free. -/
def shapeEntry (ops : List Nat) (n i a : Nat) : CInt :=
  (List.range n).foldl (fun z k =>
    let u := fixD (Config.leadVec ops a k).toNat
    ⟨z.re + u * fixD (Config.eigVecRe ops i k).toNat, z.im + u * fixD (Config.eigVecIm ops i k).toNat⟩) ⟨0, 0⟩

/-- exp(jθ) in fixed point, for θ = t x d / den with t in fixed point. -/
def expFix (t : Nat) (d : Int) (den : Nat) : CInt :=
  let c := cosSinFix (t * d.natAbs / den) (-(fixBits : Int))
  ⟨c.1, if d < 0 then -c.2 else c.2⟩

/-- A shape entry as reported (R240): divided by the reference entry, then free of filter delay. With f = arg(z) x RATE / (2π x 2^n) the
angle 2πf(d - d_ref) / (2 x RATE) is arg(z)(d - d_ref) / 2^(n+1). Real part in the low word. -/
def shapeOf (ops : List Nat) (n decim i a ref : Nat) (delay : Int) : Nat :=
  let r := shapeEntry ops n i ref
  let q := (shapeEntry ops n i a).mul ⟨r.re, -r.im⟩
  let v := if delay = 0 then q else q.mul (expFix (eigenvalue ops i).arg delay (2 ^ (decim + 1)))
  let unit := if delay = 0 then r.norm else r.norm * 2 ^ fixBits
  if r.norm = 0 then (Config.openNumber 1 ops (64 * i + a)).toNat
  else roundRatio v.re unit + 2 ^ 32 * roundRatio v.im unit

/-! ## Spectra (R250, R251) -/

/-- cos and sin of 2πj / 4096 in fixed point. -/
def turn (j : Nat) : Int × Int := cosSinFix (2 * piFix * j) (-((fixBits + 12 : Nat) : Int))

/-- A window's samples, oldest first: components as binary32 and presence. -/
abbrev Window := List (Nat × Nat × Bool)

/-- w(j) in units of 2^-(fixBits + 1): zero where the sample is absent. -/
def weight (j : Nat) (v : Nat × Nat × Bool) : Int := if v.2.2 then (2 ^ fixBits : Nat) - (turn j).1 else 0

/-- The window's samples with their places. -/
def placed (win : Window) : List (Nat × (Nat × Nat × Bool)) := List.zip (List.range win.length) win

/-- wsum, in units of 2^-(fixBits + 1). -/
def windowSum (win : Window) : Nat := ((placed win).foldl (fun a x => a + weight x.1 x.2) 0).toNat

/-- x(k), in units of 2^-(2 fixBits + 150). -/
def binValue (win : Window) (k : Nat) : CInt :=
  (placed win).foldl (fun z x =>
    let w := weight x.1 x.2
    let t := turn (x.1 * k % 4096)
    let s := (⟨w * fixF x.2.1, w * fixF x.2.2.1⟩ : CInt).mul ⟨t.1, -t.2⟩
    ⟨z.re + s.re, z.im + s.im⟩) ⟨0, 0⟩

/-- Power of a bin. -/
def binPower (win : Window) (k : Nat) : Nat := (binValue win k).norm

/-- Operands of a free result. -/
def windowOps (win : Window) : List Nat := win.flatMap fun v => [v.1, v.2.1, b2n v.2.2]

/-- Bin amplitude: 2|x(k)| / wsum for a real slot, |x(k)| / wsum for a complex one; free when wsum is zero. -/
def binAmp (complex : Bool) (win : Window) (k : Nat) : Nat :=
  let w := windowSum win
  if w = 0 then (Config.openNumber 2 (windowOps win) k).toNat % 2 ^ 32
  else roundRoot ((if complex then 1 else 4) * binPower win k) (w * w) (-((fixBits + 149 : Nat) : Int))

/-- The bins of the background of bin k that exist: k - 34 to k - 3 and k + 3 to k + 34 (R251). -/
def backBins (complex : Bool) (k : Nat) : List Nat :=
  let ds := (List.range 32).map (· + 3)
  if complex then ds.flatMap fun d => [(k + 4096 - d) % 4096, (k + d) % 4096]
  else (ds.filter (· ≤ k)).map (k - ·) ++ (ds.map (k + ·)).filter (· ≤ 2048)

/-- RATIO = 10 log10 of the power over the mean power of the background; free when one of them is zero. -/
def peakRatio (complex : Bool) (win : Window) (k : Nat) : Nat :=
  let bs := backBins complex k
  let sum := bs.foldl (fun a b => a + binPower win b) 0
  let num := binPower win k * bs.length
  if sum = 0 || num = 0 then (Config.openNumber 3 (windowOps win) k).toNat % 2 ^ 32
  else if num = sum then 0
  else (froundSFix f32 (10 * lnRatio num sum * (2 ^ fixBits : Nat) / lnRatio 10 1)).bits

/-- The number a bin stands for: 2,048 and above of a complex slot are negative frequencies (R250). -/
def binNumber (complex : Bool) (k : Nat) : Int := if complex && decide (2048 ≤ k) then (k : Int) - 4096 else k

/-- FREQ = (k + δ) x fs / 4096, δ = 0.5 (a - c) / (a - 2b + c) with the log powers a, b, c of bins k - 1, k, k + 1; free when a
neighbour has no power. -/
def peakFreq (complex : Bool) (win : Window) (rate den a k c : Nat) : Nat :=
  let pa := binPower win a
  let pb := binPower win k
  let pc := binPower win c
  if pa = 0 || pc = 0 then (Config.openNumber 4 (windowOps win) k).toNat % 2 ^ 32
  else
    let delta := if pa = pc then 0 else lnRatio pa pc * (2 ^ fixBits : Nat) / (2 * lnRatio (pa * pc) (pb * pb))
    let v := (binNumber complex k * (2 ^ fixBits : Nat) + delta) * rate
    if pa = pc then roundRatio (binNumber complex k * rate) (4096 * den) else (froundSFix f32 (v / (4096 * den : Nat))).bits

end Sys2Proof.Machine
end

