-- ==== Sys2Proof/Machine/Osc.lean ====
section
/-!
DEFINITION. The Mode Engine and the forced-oscillation bank (chapter 08): updates, resets, reports, rules, spectra, records
and notices. The numbers are those of `Spectral`.
-/

namespace Sys2Proof.Machine

/-! ## Entries and LIVE words -/

/-- A rule at CLEAR. -/
def ruleClear : RuleSt := ⟨0, 0, 0⟩

/-- A tracker, or a slot, after a reset that also clears its rules. -/
def trackerIdle : Tracker :=
  { n := none, seq := none, epoch := 0, recent := [], mean := [], cov := [], effN := 0, updates := 0, usable := [],
    skips := 0, skipped := 0, reports := 0, nextId := 0, modes := [], rules := [], lastRules := 0, frozen := false,
    resetMark := false }
def slotIdle : BankSlot :=
  { n := none, seq := none, epoch := 0, win := [], count := 0, rule := ruleClear, lastState := 0, peaks := [],
    frozen := false, resetMark := false }

/-- A tracker, a slot. -/
def State.tracker (s : State) (j : Nat) : Tracker := mget trackerIdle s.osc.trackers j
def State.setTracker (s : State) (j : Nat) (x : Tracker) : State :=
  { s with osc := { s.osc with trackers := mset trackerIdle s.osc.trackers j x } }
def State.slot (s : State) (i : Nat) : BankSlot := mget slotIdle s.osc.slots i
def State.setSlot (s : State) (i : Nat) (x : BankSlot) : State :=
  { s with osc := { s.osc with slots := mset slotIdle s.osc.slots i x } }

/-- A table word as pass `no` takes it: before the writes that came after the pass (R249). -/
def State.oscWord (s : State) (no table idx word : Nat) : Word :=
  match s.osc.old.find? fun x => decide (no < x.1) && x.2.1 = tblKey table idx word with
  | some x => x.2.2
  | none => s.tword table idx word

/-- A field of a table entry as pass `no` takes it. -/
def State.oscFld (s : State) (no : Nat) (f : TF) (idx : Nat) : Nat :=
  bitsOf (s.oscWord no f.table idx f.word).toNat f.hi f.lo

/-- Keys of the counters of trackers and slots (R267). -/
def trkCnt (j q : Nat) : Nat := tblCntKey 0x94 j q
def foCnt (i q : Nat) : Nat := tblCntKey 0x95 i q

/-- Filter channel and component of input `i` of a tracker (R264). -/
def State.trkInput (s : State) (j i : Nat) : Nat × Nat :=
  let h := bitsOf (s.tword T.OSC.TrackerInputs j (i / 2)).toNat (if i % 2 = 0 then 15 else 31) (if i % 2 = 0 then 0 else 16)
  (h % 2 ^ 12, h / 2 ^ 15)

/-- The record of a filter channel in a pass. -/
def FPass.outOf (p : FPass) (ch : Nat) : Option FltOut := p.outs.find? fun o => o.channel = ch

/-- A component of a present record. -/
def outComp (o : Option FltOut) (comp : Nat) : Option Nat :=
  match o with
  | some y => if bitOf y.flags 0 then some (if comp = 0 then y.re else y.im) else none
  | none => none

/-- Decimation exponent of the bank producing a channel's outputs. -/
def State.chanN (s : State) (p : FPass) (ch : Nat) : Nat :=
  match p.outOf ch with
  | some o => o.n
  | none => s.bankDecim ch (s.fchan ch).bank

/-- Decimation exponent of the bank that now produces the outputs of a tracker's input 0, of a slot's channel (R236). -/
def State.prodN (s : State) (ch : Nat) : Nat := s.bankDecim ch (s.fchan ch).bank
def State.trackerN (s : State) (j : Nat) : Nat := s.prodN (s.trkInput j 0).1
def State.slotN (s : State) (i : Nat) : Nat := s.prodN (s.tf TF.OSC.BankSlot.CHANNEL i)

/-! ## Resets (R243, R253) -/

/-- A tracker reset; `held` keeps and freezes the rule states, `n` is the decimation exponent it takes (R236). The rule states of its last
record stay, for the next one to differ from (R248). -/
def State.resetTracker (s : State) (j : Nat) (held : Bool) (n : Nat) : State :=
  let x := s.tracker j
  let s := (s.bump (trkCnt j 4)).raise F.OSC_INT_STATUS.RESET
  s.setTracker j { trackerIdle with
    n := some n, rules := if held then x.rules else [], lastRules := x.lastRules, frozen := held, resetMark := true
    skipped := x.skipped }

/-- A slot reset. -/
def State.resetSlot (s : State) (i : Nat) (held : Bool) (n : Nat) : State :=
  let x := s.slot i
  let s := (s.bump (foCnt i 6)).raise F.OSC_INT_STATUS.RESET
  s.setSlot i { slotIdle with
    n := some n, rule := if held then x.rule else ruleClear, lastState := x.lastState, frozen := held, resetMark := true }

/-- Trackers and slots that a loaded configuration enables take their step (R236). -/
def State.oscLoaded (s : State) : State :=
  let s := (s.validEntries T.OSC.Tracker 0).foldl (fun s j => s.setTracker j { s.tracker j with n := some (s.trackerN j) }) s
  (s.validEntries T.OSC.BankSlot 0).foldl (fun s i => s.setSlot i { s.slot i with n := some (s.slotN i) }) s

/-- A block reset (R243, R253): every tracker and slot is emptied but for the states of its last record; those enabled are reset. -/
def State.oscReset (s : State) : State :=
  let trk : SMap Tracker := s.osc.trackers.foldl (fun m x => mset trackerIdle m x.1 { trackerIdle with lastRules := x.2.lastRules }) []
  let slots : SMap BankSlot := s.osc.slots.foldl (fun m x => mset slotIdle m x.1 { slotIdle with lastState := x.2.lastState }) []
  let s := { s with osc := { Osc.reset with trackers := trk, slots := slots } }
  let s := (s.validEntries T.OSC.Tracker 0).foldl (fun s j => s.resetTracker j false (s.trackerN j)) s
  (s.validEntries T.OSC.BankSlot 0).foldl (fun s i => s.resetSlot i false (s.slotN i)) s

/-- How a due update stands to the previous one (R236): missing updates between, or a step mismatch. -/
def updateGap (prev : Option Nat) (seq step : Nat) : Nat × Bool :=
  match prev with
  | none => (0, false)
  | some q => if seq ≤ q || (seq - q) % step ≠ 0 then (0, true) else ((seq - q) / step - 1, false)

/-! ## Tracker updates (R236, R238, R241) -/

/-- Update rate fs as (numerator, denominator). -/
def State.trkFs (s : State) (j n : Nat) : Nat × Nat :=
  (s.groveRate (s.tf TF.OSC.Tracker.GROVE j), 2 ^ n)

/-- A natural number as binary64. -/
def f64OfNat (n : Nat) : Nat := (fofInt f64 n 0).bits

/-- λ = 1 - 1 / (fs x WINDOW_S) (R238). -/
def State.trkLambda (s : State) (j n : Nat) : Nat :=
  let fs := s.trkFs j n
  let full := (fdiv f64 (f64OfNat (fs.1 * s.tf TF.OSC.Tracker.WINDOW_S j)) (f64OfNat fs.2)).bits
  (fsub f64 (f64OfNat 1) (fdiv f64 (f64OfNat 1) full).bits).bits

/-- Updates that were missing: their samples are absent (R235, R236). -/
def State.missUpdates (s : State) (j k : Nat) : State :=
  let x := s.tracker j
  let keep := max (s.tf TF.OSC.Tracker.ROWS j) (s.tf TF.OSC.Tracker.REPORT j)
  let none' : List Nat := List.replicate (s.tf TF.OSC.Tracker.M j) 0
  s.setTracker j { x with recent := (List.replicate (min k keep) none' ++ x.recent).take keep }

/-- Skipped updates are counted; their place in the usable history is empty. -/
def State.skipUpdates (s : State) (j k : Nat) : State :=
  let x := s.tracker j
  let s := (s.bumpBy (trkCnt j 0) k).bumpBy (trkCnt j 2) k
  s.setTracker j { x with
    usable := (List.replicate (min k 256) 0 ++ x.usable).take 256, skips := x.skips + k, skipped := x.skipped + k }

/-- Usable inputs: the last p samples of the input are all present (R238). -/
def usableMask (m p : Nat) (recent : List (List Nat)) : Nat :=
  (List.range m).foldl (fun a i =>
    if decide (p ≤ recent.length) && (recent.take p).all (fun u => u.getD i 0 != 0) then a + 2 ^ i else a) 0

/-- Number of ones in a mask of `m` bits. -/
def onesOf (m mask : Nat) : Nat := ((List.range m).filter fun i => bitOf mask i).length

/-- Entry a of the mean-removed lag vector: input a mod m at lag a / m. -/
def lagEntry (m : Nat) (x : Tracker) (a : Nat) : Nat :=
  (fsub f64 (((x.recent.getD (a / m) []).getD (a % m) 1) - 1) (x.mean.getD (a % m) 0)).bits

/-- One covariance entry updated when both inputs are usable (R238). -/
def covStep (m mask lam : Nat) (x : Tracker) (c : SMap Nat) (ab : Nat × Nat) : SMap Nat :=
  if bitOf mask (ab.1 % m) && bitOf mask (ab.2 % m) then
    let k := ab.1 * 1024 + ab.2
    let h := (fmul f64 (lagEntry m x ab.1) (lagEntry m x ab.2)).bits
    mset 0 c k (fadd f64 (fmul f64 lam (mget 0 c k)).bits h).bits
  else c

/-- The entries of the covariance in ascending order. -/
def covPairs (d : Nat) : List (Nat × Nat) := (List.range d).flatMap fun a => (List.range d).map fun b => (a, b)

/-- A due update of a tracker in a pass (R236, R238, R243): the flag tells that a report is due. -/
def State.trkUpdate (s : State) (p : FPass) (j : Nat) : State × Bool :=
  let m := s.tf TF.OSC.Tracker.M j
  let rows := s.tf TF.OSC.Tracker.ROWS j
  let n0 := s.chanN p (s.trkInput j 0).1
  let x := s.tracker j
  let n := x.n.getD n0
  let gap := updateGap x.seq p.seq (2 ^ n)
  let differs := (List.range m).any fun i =>
    match p.outOf (s.trkInput j i).1 with | some o => bitOf o.flags 0 && o.n != n | none => false
  let s := if (x.seq.isSome && x.epoch != p.epoch) || gap.2 || differs then s.resetTracker j true n0
    else if gap.1 = 0 then s
    else
      let s := (s.missUpdates j gap.1).skipUpdates j gap.1
      if s.tf TF.OSC.Tracker.GAP_RESET j < (s.tracker j).skips then s.resetTracker j true n0 else s
  let x := s.tracker j
  let n := x.n.getD n0
  let smp := (List.range m).map fun i =>
    let c := s.trkInput j i
    match outComp (p.outOf c.1) c.2 with | some v => f32to64 v + 1 | none => 0
  let recent := (smp :: x.recent).take (max rows (s.tf TF.OSC.Tracker.REPORT j))
  let mask := usableMask m rows recent
  let x := { x with n := some n, seq := some p.seq, epoch := p.epoch, recent := recent }
  let s := s.setTracker j x
  if onesOf m mask < s.tf TF.OSC.Tracker.MIN_PRESENT j then
    let s := s.skipUpdates j 1
    if s.tf TF.OSC.Tracker.GAP_RESET j < (s.tracker j).skips then
      -- the reset comes before this update, which is then a skipped one of the tracker anew (R243)
      let s := s.resetTracker j true n0
      (s.setTracker j { s.tracker j with
        n := some n0, seq := some p.seq, epoch := p.epoch, recent := [smp], usable := [0], skips := 1 }, false)
    else (s, false)
  else
    let lam := s.trkLambda j n
    let mean := (List.range m).map fun i =>
      let old := x.mean.getD i 0
      match smp.getD i 0 with | 0 => old | v + 1 => (Config.runMean lam old v).toNat
    let x := { x with mean := mean }
    let x := { x with
      cov := (covPairs (m * rows)).foldl (covStep m mask lam x) x.cov
      effN := (fadd f64 (fmul f64 lam x.effN).bits (f64OfNat 1)).bits
      updates := x.updates + 1, usable := (mask :: x.usable).take 256, skips := 0 }
    let s := (s.setTracker j x).bump (trkCnt j 0) |>.bump (trkCnt j 1)
    (s, x.updates % max 1 (s.tf TF.OSC.Tracker.REPORT j) = s.tf TF.OSC.Tracker.PHASE j)

/-- A tracker has an update due at a pass (R236). -/
def State.trkDue (s : State) (p : FPass) (j : Nat) : Bool :=
  s.tf TF.OSC.Tracker.GROVE j = p.grove
    && (List.range (s.tf TF.OSC.Tracker.M j)).any fun i => (p.outOf (s.trkInput j i).1).isSome

/-! ## Slot updates (R235, R236, R250, R253) -/

/-- A slot takes its sample of a pass; the flag tells that a spectrum is due. -/
def State.slotUpdate (s : State) (p : FPass) (i : Nat) : State × Bool :=
  let ch := s.tf TF.OSC.BankSlot.CHANNEL i
  let o := p.outOf ch
  let n0 := s.chanN p ch
  let x := s.slot i
  let n := x.n.getD n0
  let gap := updateGap x.seq p.seq (2 ^ n)
  let differs := match o with | some y => bitOf y.flags 0 && y.n != n | none => false
  let reset := (x.seq.isSome && x.epoch != p.epoch) || gap.2 || differs
  let s := if reset then s.resetSlot i true n0 else s
  let k := if reset then 0 else gap.1
  let x := s.slot i
  let present := match o with | some y => bitOf y.flags 0 | none => false
  let v : Nat × Nat × Bool := match o with
    | some y => if present then
        (match s.tf TF.OSC.BankSlot.COMP i with
          | 0 => (y.re, 0, true) | 1 => (y.im, 0, true) | _ => (y.re, y.im, true))
      else (0, 0, false)
    | none => (0, 0, false)
  let x := { x with
    n := some (x.n.getD n0), seq := some p.seq, epoch := p.epoch, count := x.count + k + 1
    win := (v :: List.replicate (min k 4096) (0, 0, false) ++ x.win).take 4096 }
  let s := (s.setSlot i x).bumpBy (foCnt i 0) (k + 1)
  let s := s.bumpBy (foCnt i 2) (k + b2n (!present))
  let s := if present then s.bump (foCnt i 1) else s
  (s, decide (4096 ≤ x.count) && x.count % 2 ^ s.tf TF.OSC.BankSlot.HOP i = s.tf TF.OSC.BankSlot.PHASE i)

/-! ## A pass (R258) -/

/-- Trackers in ascending order; the answer lists those whose report is due. -/
def State.trkUpdates (s : State) (p : FPass) : List Nat → State × List Nat
  | [] => (s, [])
  | j :: t =>
    let a := if s.trkDue p j then s.trkUpdate p j else (s, false)
    let b := a.1.trkUpdates p t
    (b.1, (if a.2 then [j] else []) ++ b.2)

/-- Slots in ascending order; the answer lists those whose spectrum is due. -/
def State.slotUpdates (s : State) (p : FPass) : List Nat → State × List Nat
  | [] => (s, [])
  | i :: t =>
    let a := if (p.outOf (s.tf TF.OSC.BankSlot.CHANNEL i)).isSome then s.slotUpdate p i else (s, false)
    let b := a.1.slotUpdates p t
    (b.1, (if a.2 then [i] else []) ++ b.2)

/-- The engine runs; its run control at zero lets items in progress end and no pass begin (R260). -/
def State.oscRuns (s : State) : Bool := !s.flag F.OSC_STATUS.STOPPED && s.detects
def State.oscBegins (s : State) : Bool := s.flag F.OSC_CTRL.RUN && s.oscRuns

/-- The pass ends when nothing is due any more; LIVE words no waiting pass needs are dropped. -/
def State.oscSettle (s : State) : State :=
  match s.osc.cur with
  | none => s
  | some r =>
    if r.trk.isEmpty && r.slots.isEmpty then
      { s.bump R.OSC_U_PASSES_DONE with osc := { s.osc with
          cur := none, old := s.osc.old.filter fun x => decide (r.no + 1 < x.1) } }
    else s

/-- MODE_ENGINE_PASS (R258): updates of every due tracker and slot. -/
def State.oscPass (s : State) (p : FPass) (rest : List FPass) : State :=
  let no := s.osc.arrived - s.osc.wait.length
  let s := { s with osc := { s.osc with wait := rest } }
  let a := s.trkUpdates p (s.validEntries T.OSC.Tracker 0)
  let b := a.1.slotUpdates p (s.validEntries T.OSC.BankSlot 0)
  let s := b.1
  { s with osc := { s.osc with cur := some ⟨p, no, a.2, b.2⟩ } }.oscSettle

/-- MODE_ENGINE_PASS (R258). -/
def execModeEnginePass (dt : Nat) (s : State) : Out :=
  let s := s.elapse dt
  match s.osc.cur, s.osc.wait with
  | none, p :: rest => if s.oscBegins then .next (s.oscPass p rest) else .next s
  | _, _ => .next s

/-! ## Tracker reports (R239 to R248) -/

/-- Exact comparison of a finite binary64 with a quotient: x x den < num. -/
def lt64 (x num den : Nat) : Bool :=
  match fdec f64 x with
  | .fin neg m e => neg || (if 0 ≤ e then decide (m * 2 ^ e.toNat * den < num) else decide (m * den < num * 2 ^ (-e).toNat))
  | .inf neg => neg
  | .nan _ => false

/-- STATE from EFF_N (R244). -/
def State.trkState (s : State) (j : Nat) (x : Tracker) : Nat :=
  let fs := s.trkFs j (x.n.getD 0)
  let full := fs.1 * s.tf TF.OSC.Tracker.WINDOW_S j
  if lt64 x.effN full (2 * fs.2) then 1 else if lt64 x.effN (19 * full) (20 * fs.2) then 2 else 3

/-- INPUT_PRESENT (R241). -/
def State.inputPresent (s : State) (j : Nat) (x : Tracker) : Nat :=
  (x.usable.take (s.tf TF.OSC.Tracker.HOLD j + 1)).foldl (fun a u => a ||| u) 0

/-- x x 1000 and a frequency in mHz on one scale: a binary32 in Hz is at or above `mhz`. -/
def hzAtLeast (x mhz : Nat) : Bool := decide ((mhz : Int) * 2 ^ 149 ≤ fixF x * 1000)
def hzAtMost (x mhz : Nat) : Bool := decide (fixF x * 1000 ≤ (mhz : Int) * 2 ^ 149)

/-- Operands of the estimate (R239): sizes, settings, INPUT_PRESENT, covariance and the inputs since the last report. -/
def State.estOperands (s : State) (j : Nat) (x : Tracker) (present : Nat) : List Nat :=
  let m := s.tf TF.OSC.Tracker.M j
  [m, s.tf TF.OSC.Tracker.ROWS j, s.tf TF.OSC.Tracker.HALF_ORDER j, s.groveRate (s.tf TF.OSC.Tracker.GROVE j), x.n.getD 0,
    present, s.tf TF.OSC.Tracker.REPORT j]
    ++ x.mean ++ (x.cov.flatMap fun e => [e.1, e.2]) ++ x.recent.flatten

/-- Shape-reference input (R240): input 0 when usable, else the lowest in INPUT_PRESENT. -/
def shapeRef (x : Tracker) (present : Nat) : Nat :=
  if bitOf (x.usable.headD 0) 0 then 0 else ((List.range 64).find? fun i => bitOf present i).getD 0

/-- A mode put in order by a relation. -/
def insertMode (before : ModeRec → ModeRec → Bool) (a : ModeRec) : List ModeRec → List ModeRec
  | [] => [a]
  | b :: t => if before b a then b :: insertMode before a t else a :: b :: t

/-- Larger AMP first, the lower frequency winning ties; and ascending frequency. -/
def ampOrder (b a : ModeRec) : Bool := decide (fixF a.amp < fixF b.amp) || (fixF a.amp = fixF b.amp && decide (fixF b.freq ≤ fixF a.freq))
def freqOrder (b a : ModeRec) : Bool := decide (fixF b.freq ≤ fixF a.freq)

/-- Eigenvalues of the state matrix that are modes (R239). -/
def State.modeIdx (s : State) (j : Nat) (ops : List Nat) : List Nat :=
  (List.range (2 * s.tf TF.OSC.Tracker.HALF_ORDER j)).filter fun i => (eigenvalue ops i).isMode

/-- The modes reported, in ascending frequency (R239, R240). -/
def State.modeList (s : State) (j : Nat) (x : Tracker) (ops : List Nat) : List ModeRec :=
  let idx := s.modeIdx j ops
  let fs := s.trkFs j (x.n.getD 0)
  let rep := s.tf TF.OSC.Tracker.REPORT j
  let all := idx.map fun i =>
    ({ eig := i, freq := modeFreqOf (eigenvalue ops i) fs.1 fs.2, damp := modeDampOf (eigenvalue ops i), amp := modeAmpOf ops rep i,
       energy := modeEnergyOf ops rep idx i, id := 0, age := 1, isNew := true } : ModeRec)
  let band := all.filter fun y => hzAtLeast y.freq (s.tf TF.OSC.Tracker.F_LO j) && hzAtMost y.freq (s.tf TF.OSC.Tracker.F_HI j)
  let top := (band.foldl (fun l y => insertMode ampOrder y l) []).take (s.tf TF.OSC.Tracker.MODES j)
  top.foldl (fun l y => insertMode freqOrder y l) []

/-- DELAY of a tracker's input in half samples of the Grove rate (R228). -/
def State.inputDelay (s : State) (j i : Nat) : Nat :=
  groupDelay (s.bankLens (s.trkInput j i).1 (s.fchan (s.trkInput j i).1).bank)

/-- Distance of two frequencies, in 2^-149 Hz. -/
def freqDist (a b : ModeRec) : Nat := (fixF a.freq - fixF b.freq).natAbs

/-- The closest unmatched previous mode within MATCH (R242). -/
def bestMatch (limit : Nat) (y : ModeRec) : List ModeRec → Option ModeRec
  | [] => none
  | z :: t =>
    let r := bestMatch limit y t
    if freqDist y z * 1000 ≤ limit * 2 ^ 149 then
      match r with
      | some w => if freqDist y w < freqDist y z then some w else some z
      | none => some z
    else r

/-- Identities of the new modes in ascending frequency (R242): the next ID follows. -/
def matchModes (limit : Nat) : List ModeRec → List ModeRec → Nat → List ModeRec × Nat
  | [], _, next => ([], next)
  | y :: t, prev, next =>
    match bestMatch limit y prev with
    | some z =>
      let r := matchModes limit t (prev.filter fun w => w.id != z.id) next
      ({ y with id := z.id, age := z.age + 1, isNew := false } :: r.1, r.2)
    | none =>
      let r := matchModes limit t prev (if next = 65535 then 0 else next + 1)
      ({ y with id := next } :: r.1, r.2)

/-- MFLAGS EDGE and OUT_OF_ACCURACY (R245). -/
def State.edgeOf (s : State) (j : Nat) (x : Tracker) (f : Nat) : Bool :=
  let fs := s.trkFs j (x.n.getD 0)
  decide ((2 * fs.1 : Int) * 2 ^ 149 < fixF f * (5 * fs.2 : Nat))
def State.outOfAccuracy (s : State) (j : Nat) (x : Tracker) (f : Nat) : Bool :=
  let w := s.tf TF.OSC.Tracker.WINDOW_S j
  !hzAtLeast f 10 || decide (fixF f * (w : Int) < 10 * 2 ^ 149) || !hzAtMost f 15000 || s.edgeOf j x f

/-- A rule of a tracker (table 2). -/
def ruleIdx (j r : Nat) : Nat := 8 * j + r

/-- A mode is eligible for a rule (R246). -/
def State.eligibleMode (s : State) (j : Nat) (x : Tracker) (r : Nat) (y : ModeRec) : Bool :=
  hzAtLeast y.freq (s.tf TF.OSC.Rule.F_LO (ruleIdx j r)) && hzAtMost y.freq (s.tf TF.OSC.Rule.F_HI (ruleIdx j r))
    && !s.outOfAccuracy j x y.freq

/-- ζ against a number of 10^-4: ζ < d, ζ ≥ d. -/
def dampBelow (x : Nat) (d : Int) : Bool := decide (fixF x * 10000 < d * 2 ^ 149)

/-- The raise condition holds of a mode (R246). -/
def State.raises (s : State) (no j : Nat) (x : Tracker) (r : Nat) (y : ModeRec) : Bool :=
  let i := ruleIdx j r
  let big := fle f32 (s.oscFld no TF.OSC.Rule.AMP i) y.amp
  s.eligibleMode j x r y && big &&
    match s.tf TF.OSC.Rule.TYPE i with
    | 1 => dampBelow y.damp (signedOf 16 (s.oscFld no TF.OSC.Rule.D_SET i))
    | 2 => true
    | _ => false

/-- The clear condition of R246 over the eligible modes. -/
def State.clears (s : State) (no j : Nat) (x : Tracker) (r : Nat) (l : List ModeRec) : Bool :=
  let i := ruleIdx j r
  let amp := s.oscFld no TF.OSC.Rule.AMP i
  (l.filter (s.eligibleMode j x r)).all fun y =>
    match s.tf TF.OSC.Rule.TYPE i with
    | 1 => !fle f32 amp y.amp
        || !dampBelow y.damp (signedOf 16 (s.oscFld no TF.OSC.Rule.D_SET i) + s.oscFld no TF.OSC.Rule.D_HYST i)
    | _ => Sys2Proof.Machine.flt f32 y.amp (fsub f32 amp (s.oscFld no TF.OSC.Rule.AMP_HYST i)).bits

/-- The stepping of R247 without FAST. -/
def RuleSt.step (q : RuleSt) (raise clear : Bool) (setN clrN : Nat) : RuleSt :=
  if raise then
    let c := q.set + 1
    { state := if q.state ≤ 1 then (if setN ≤ c then 2 else 1) else q.state, set := c, clr := 0 }
  else if clear then
    let c := q.clr + 1
    { state := if q.state = 1 then 0 else if 2 ≤ q.state && decide (clrN ≤ c) then 0 else q.state, set := 0, clr := c }
  else { q with set := 0, clr := 0 }

/-- A rule at a report in the tracker's STATE `st` (R247). -/
def State.stepRule (s : State) (no j : Nat) (x : Tracker) (l : List ModeRec) (st r : Nat) (q : RuleSt) : RuleSt :=
  let i := ruleIdx j r
  if s.oscFld no TF.OSC.Rule.EN i = 0 || s.tf TF.OSC.Rule.TYPE i = 0 then ruleClear
  else if st = 3 || (st = 2 && s.oscFld no TF.OSC.Rule.EARLY i = 1) then
    let growing := s.oscFld no TF.OSC.Rule.FAST i = 1 && s.tf TF.OSC.Rule.TYPE i = 1
      && l.any fun y => s.eligibleMode j x r y && fle f32 (s.oscFld no TF.OSC.Rule.AMP i) y.amp && dampBelow y.damp 0
    if growing then { q with state := 3 }
    else q.step (l.any (s.raises no j x r)) (s.clears no j x r l) (s.oscFld no TF.OSC.Rule.SET_N i) (s.oscFld no TF.OSC.Rule.CLR_N i)
  else q

/-- Some enabled rule is evaluated in STATE `st`. -/
def State.evaluates (s : State) (no j st : Nat) : Bool :=
  st = 3 || (st = 2 && (List.range 8).any fun r =>
    s.oscFld no TF.OSC.Rule.EN (ruleIdx j r) = 1 && s.oscFld no TF.OSC.Rule.EARLY (ruleIdx j r) = 1)

/-- RULE_STATE of a record. -/
def ruleWord (rules : SMap RuleSt) : Nat := (List.range 8).foldl (fun a r => a + (mget ruleClear rules r).state * 4 ^ r) 0

/-- One mode's bytes (R254). -/
def State.modeBytes (s : State) (no j : Nat) (x : Tracker) (ops : List Nat) (present ref : Nat) (y : ModeRec) : List Byte :=
  let hits := (List.range 8).foldl (fun a r => if s.raises no j x r y then a + 2 ^ r else a) 0
  let shape (i : Nat) : Nat :=
    if i = ref then 0x3F800000
    else if bitOf present i then
      shapeOf ops (2 * s.tf TF.OSC.Tracker.HALF_ORDER j) (x.n.getD 0) y.eig i ref ((s.inputDelay j i : Int) - s.inputDelay j ref)
    else 0
  leBytes 4 y.freq ++ leBytes 4 y.damp ++ leBytes 4 y.amp ++ leBytes 4 y.energy ++ leBytes 2 y.id
    ++ leBytes 1 (b2n (s.edgeOf j x y.freq) * 4 + b2n (s.outOfAccuracy j x y.freq) * 2 + b2n y.isNew) ++ leBytes 1 hits
    ++ leBytes 4 y.age ++ leBytes 1 ref ++ leBytes 7 0
    ++ (List.range (s.tf TF.OSC.Tracker.M j)).flatMap fun i => leBytes 8 (shape i)

/-- A notice of the Mode Engine to its report queue, and with EVENT to its event queue (R257). -/
def State.oscNotice (s : State) (p : FPass) (addr index kind flags : Nat) : State :=
  let e : Entry := BitVec.ofNat 256 (leNat (leBytes 8 p.ttag ++ leBytes 8 p.seq ++ leBytes 8 addr ++ leBytes 4 p.epoch
    ++ leBytes 2 index ++ leBytes 1 kind ++ leBytes 1 flags))
  let push (s : State) (q : Nat) : State × Bool :=
    let r := s.pushNotice q 37 e
    if r.2 = 0 then (r.1.bump R.OSC_U_NOTICES_PUSHED, true)
    else ((r.1.bump R.OSC_U_NOTICE_REFUSED).raise F.OSC_INT_STATUS.NOTICE_REFUSED, false)
  let a := push s (s.fld (if kind = 0 then F.OSC_QUEUE.TRK_REPORT else F.OSC_QUEUE.FO_REPORT))
  if bitOf flags 4 then
    let b := push (a.1.bump R.OSC_U_EVENTS) (s.fld (if kind = 0 then F.OSC_QUEUE.TRK_EVENT else F.OSC_QUEUE.FO_EVENT))
    if b.2 then b.1.raise (if kind = 0 then F.OSC_INT_STATUS.TRK_EVENT else F.OSC_INT_STATUS.FO_EVENT) else b.1
  else a.1

/-- A rate as binary32. -/
def rate32 (fs : Nat × Nat) : Nat := (fdiv f32 (fofInt f32 fs.1 0).bits (fofInt f32 fs.2 0).bits).bits

/-- TRACKER_REPORT (R239 to R248, R254, R257): the estimate, the rules, the record and the notice. -/
def State.trkReport (s : State) (p : FPass) (no j : Nat) : State :=
  let x := s.tracker j
  let st := s.trkState j x
  let present := s.inputPresent j x
  let ops := s.estOperands j x present
  let modes := if st = 1 then ([], x.nextId) else matchModes (s.tf TF.OSC.Tracker.MATCH j) (s.modeList j x ops) x.modes x.nextId
  let evaluated := s.evaluates no j st
  let rules : SMap RuleSt := (List.range 8).foldl (fun m r =>
    mset ruleClear m r (s.stepRule no j x modes.1 st r (mget ruleClear m r))) x.rules
  let word := ruleWord rules
  let event := word != x.lastRules
  let changed := ((List.range 8).filter fun r => bitsOf word (2 * r + 1) (2 * r) != bitsOf x.lastRules (2 * r + 1) (2 * r)).length
  let frozen := x.frozen && !evaluated
  let flags := st * 64 + b2n frozen * 32 + b2n event * 16 + b2n x.resetMark * 8
  let ref := shapeRef x present
  let head (tpub : Nat) : List Byte :=
    leBytes 8 p.ttag ++ leBytes 8 p.seq ++ leBytes 4 p.epoch ++ leBytes 2 j ++ leBytes 1 p.grove ++ leBytes 1 flags
      ++ leBytes 4 (x.reports + 1) ++ leBytes 1 modes.1.length ++ leBytes 1 (s.tf TF.OSC.Tracker.M j) ++ leBytes 2 word
      ++ leBytes 8 present ++ leBytes 4 (rate32 (s.trkFs j (x.n.getD 0))) ++ leBytes 4 (f64to32 x.effN) ++ leBytes 8 tpub
      ++ leBytes 4 x.skipped ++ leBytes 2 p.tq ++ leBytes 1 p.worst ++ leBytes 1 0
  let body := modes.1.flatMap (s.modeBytes no j x ops present ref)
  let addr := s.ringBase R.OSC_TRK_BASE_LO R.OSC_TRK_BASE_HI + 4480 * (s.osc.trkIdx % max 1 (s.fld F.OSC_TRK_RECORDS.N))
  let s := s.setTracker j { x with
    modes := modes.1, nextId := modes.2, rules := rules, lastRules := word, frozen := frozen, resetMark := false
    reports := x.reports + 1, skipped := 0 }
  let s := ((s.wrBytes addr (head s.gt ++ body)).bump R.OSC_U_TRK_RECORDS).bump (trkCnt j 3)
  let s := { s.bumpBy (trkCnt j 5) changed with osc := { s.osc with trkIdx := s.osc.trkIdx + 1 } }
  (s.digest 6 j p.seq (head 0 ++ body)).oscNotice p addr j 0 flags

/-- TRACKER_REPORT (R239). -/
def execTrackerReport (dt : Nat) (s : State) : Out :=
  let s := s.elapse dt
  match s.osc.cur with
  | none => .next s
  | some r =>
    match r.trk with
    | [] => .next s
    | j :: t =>
      if !s.oscRuns then .next s
      else
        let s := { s with osc := { s.osc with cur := some { r with trk := t } } }
        .next (if s.tflag TF.OSC.Tracker.ENABLE j then s.trkReport r.pass r.no j else s).oscSettle

/-! ## Spectra (R250 to R252, R255) -/

/-- The neighbours of a bin that exist; a complex slot wraps. -/
def neighbours (complex : Bool) (k : Nat) : Option (Nat × Nat) :=
  if complex then some ((k + 4095) % 4096, (k + 1) % 4096)
  else if k = 0 || decide (2048 ≤ k) then none else some (k - 1, k + 1)

/-- A bin is a peak: its power exceeds that of both neighbours (R251). -/
def isPeak (complex : Bool) (win : Window) (k : Nat) : Bool :=
  match neighbours complex k with
  | none => false
  | some (a, b) => decide (binPower win a < binPower win k) && decide (binPower win b < binPower win k)

/-- A peak as reported. -/
structure PeakRec where
  bin : Nat
  freq : Nat
  amp : Nat
  ratio : Nat
  persist : Nat
  deriving DecidableEq, Repr

/-- PERSIST of a peak from the previous spectrum's peaks within 2 bins (R251). -/
def persistOf (prev : List (Nat × Nat)) (k : Nat) : Nat :=
  min 255 ((prev.foldl (fun a q => if (q.1 - k) + (k - q.1) ≤ 2 then max a q.2 else a) 0) + 1)

/-- A peak in order of RATIO, the lower bin winning ties. -/
def insertPeak (a : PeakRec) : List PeakRec → List PeakRec
  | [] => [a]
  | b :: t => if fixF a.ratio ≤ fixF b.ratio then b :: insertPeak a t else a :: b :: t

/-- RATIO at least a number of 0.1 dB, with AMP at least AMP_MIN (R252). -/
def strong (tenths : Int) (ampMin : Nat) (y : PeakRec) : Bool :=
  decide (tenths * 2 ^ 149 ≤ fixF y.ratio * 10) && fle f32 ampMin y.amp

/-- SPECTRUM_DONE (R250 to R252, R255, R257). -/
def State.spectrum (s : State) (p : FPass) (no i : Nat) : State :=
  let x := s.slot i
  let complex := s.tf TF.OSC.BankSlot.COMP i = 2
  let win : Window := x.win.reverse
  let fs := (s.groveRate p.grove, 2 ^ x.n.getD 0)
  let absent := (x.win.filter fun v => !v.2.2).length
  let withheld := decide (s.tf TF.OSC.BankSlot.MAX_ABSENT i < absent)
  let lo := s.tf TF.OSC.BankSlot.BIN_LO i
  let hi := s.tf TF.OSC.BankSlot.BIN_HI i
  let bins := if withheld then [] else ((List.range (hi + 1)).filter fun k => decide (lo ≤ k) && isPeak complex win k)
  let peaks := bins.map fun k =>
    let nb := (neighbours complex k).getD (k, k)
    ({ bin := k, freq := peakFreq complex win fs.1 fs.2 nb.1 k nb.2, amp := binAmp complex win k,
       ratio := peakRatio complex win k, persist := persistOf x.peaks k } : PeakRec)
  let ratioDb : Int := s.oscFld no TF.OSC.BankSlot.RATIO_DB i
  let ampMin := s.oscFld no TF.OSC.BankSlot.AMP_MIN i
  let rule := if withheld then x.rule else
    x.rule.step (peaks.any (strong ratioDb ampMin))
      (!peaks.any (strong (ratioDb - s.oscFld no TF.OSC.BankSlot.RATIO_HYST i) ampMin))
      (s.oscFld no TF.OSC.BankSlot.SET_N i) (s.oscFld no TF.OSC.BankSlot.CLR_N i)
  let event := rule.state != x.lastState
  let frozen := x.frozen && withheld
  let full := s.tflag TF.OSC.BankSlot.FULL i && !withheld
  let top := (peaks.foldl (fun l y => insertPeak y l) []).take 4
  let flags := rule.state * 64 + b2n frozen * 32 + b2n event * 16 + b2n x.resetMark * 8 + b2n full * 4 + b2n withheld * 2
  let head (tpub : Nat) : List Byte :=
    leBytes 8 p.ttag ++ leBytes 8 p.seq ++ leBytes 4 p.epoch ++ leBytes 2 i ++ leBytes 1 top.length ++ leBytes 1 flags
      ++ leBytes 4 (rate32 fs) ++ leBytes 4 (rate32 (fs.1, fs.2 * 4096)) ++ leBytes 2 absent ++ leBytes 2 0
      ++ leBytes 4 (roundRatio (windowSum win) (2 ^ (fixBits + 1))) ++ leBytes 8 tpub ++ leBytes 2 p.tq ++ leBytes 1 p.worst ++ leBytes 13 0
  let pk := top.flatMap fun y =>
    leBytes 4 y.freq ++ leBytes 4 y.amp ++ leBytes 4 y.ratio ++ leBytes 2 y.bin ++ leBytes 1 y.persist ++ leBytes 1 0
  let body := pk ++ List.replicate (64 - pk.length) 0
    ++ (if full then (List.range 4096).flatMap fun k =>
          leBytes 4 (if complex || k ≤ 2048 then binAmp complex win k else 0) else [])
  let addr := s.ringBase R.OSC_FO_BASE_LO R.OSC_FO_BASE_HI + 16512 * (s.osc.foIdx % max 1 (s.fld F.OSC_FO_RECORDS.N))
  let s := s.setSlot i { x with
    rule := rule, lastState := rule.state, frozen := frozen, resetMark := false
    peaks := if withheld then x.peaks else peaks.map fun y => (y.bin, y.persist) }
  let s := ((s.wrBytes addr (head s.gt ++ body)).bump R.OSC_U_FO_RECORDS).bump (foCnt i 3)
  let s := if withheld then (s.bump (foCnt i 5)).raise F.OSC_INT_STATUS.WITHHELD else s.bump (foCnt i 4)
  let s := if event then s.bump (foCnt i 7) else s
  let s := { s with osc := { s.osc with foIdx := s.osc.foIdx + 1 } }
  (s.digest 7 i p.seq (head 0 ++ body)).oscNotice p addr i 1 flags

/-- SPECTRUM_DONE (R250). -/
def execSpectrumDone (dt : Nat) (s : State) : Out :=
  let s := s.elapse dt
  match s.osc.cur with
  | none => .next s
  | some r =>
    match r.slots with
    | [] => .next s
    | i :: t =>
      if !s.oscRuns then .next s
      else
        let s := { s with osc := { s.osc with cur := some { r with slots := t } } }
        .next (if s.tflag TF.OSC.BankSlot.ENABLE i then s.spectrum r.pass r.no i else s).oscSettle

/-! ## Table writes (R237, R249, R263) -/

/-- The old LIVE word is kept for the passes that reached the engine before the write (R249). -/
def State.keepOld (s : State) (table idx word : Nat) (old : Word) : State :=
  if s.osc.wait.isEmpty && s.osc.cur.isNone then s
  else { s with osc := { s.osc with old := s.osc.old ++ [(s.osc.arrived, tblKey table idx word, old)] } }

/-- A tracker whose ENABLE falls leaves the pass in progress; a record whose estimate has begun is completed and published first
(R260). It is called before the entry changes. -/
def State.trackerOff (s : State) (j : Nat) : State :=
  match s.osc.cur with
  | none => s
  | some r =>
    let rest := { s with osc := { s.osc with cur := some { r with trk := r.trk.filter (· ≠ j) } } }
    (if r.trk.head? = some j && s.oscRuns then rest.trkReport r.pass r.no j else rest).oscSettle

/-- A slot whose ENABLE falls leaves the pass in progress likewise. -/
def State.slotOff (s : State) (i : Nat) : State :=
  match s.osc.cur with
  | none => s
  | some r =>
    let rest := { s with osc := { s.osc with cur := some { r with slots := r.slots.filter (· ≠ i) } } }
    (if r.slots.head? = some i && s.oscRuns then rest.spectrum r.pass r.no i else rest).oscSettle

/-- Trackers and slots whose entries name a filter channel. -/
def State.namingTrackers (s : State) (ch : Nat) : List Nat :=
  (s.usedEntries T.OSC.Tracker).filter fun j => (List.range (s.tf TF.OSC.Tracker.M j)).any fun i => (s.trkInput j i).1 = ch
def State.namingSlots (s : State) (ch : Nat) : List Nat :=
  (s.usedEntries T.OSC.BankSlot).filter fun i => s.tf TF.OSC.BankSlot.CHANNEL i = ch

/-- ENABLE of every tracker and slot that names a filter channel falls when its non-LIVE fields are written (R237). -/
def State.configLost (s : State) (ch : Nat) : State :=
  let trk := s.namingTrackers ch
  let sl := s.namingSlots ch
  let s := trk.foldl (fun s j => ((s.trackerOff j).setTf TF.OSC.Tracker.ENABLE j 0).setTf TF.OSC.Tracker.CONFIG_LOST j 1) s
  let s := sl.foldl (fun s i => ((s.slotOff i).setTf TF.OSC.BankSlot.ENABLE i 0).setTf TF.OSC.BankSlot.CONFIG_LOST i 1) s
  if trk.isEmpty && sl.isEmpty then s else s.raise F.OSC_INT_STATUS.CONFIG_LOST

/-- A tracker may be enabled with its entry (R237, R263). -/
def State.trackerOk (s : State) (j : Nat) : Bool :=
  let m := s.tf TF.OSC.Tracker.M j
  let rows := s.tf TF.OSC.Tracker.ROWS j
  let g := s.tf TF.OSC.Tracker.GROVE j
  decide (m * rows ≤ 256) && decide (2 * s.tf TF.OSC.Tracker.HALF_ORDER j ≤ m * (rows - 1))
    && decide (s.tf TF.OSC.Tracker.MODES j ≤ s.tf TF.OSC.Tracker.HALF_ORDER j)
    && decide (s.tf TF.OSC.Tracker.PHASE j < s.tf TF.OSC.Tracker.REPORT j)
    && decide (s.tf TF.OSC.Tracker.F_LO j < s.tf TF.OSC.Tracker.F_HI j)
    && (List.range 8).all (fun r => decide (s.tf TF.OSC.Rule.F_LO (ruleIdx j r) < s.tf TF.OSC.Rule.F_HI (ruleIdx j r)))
    && (List.range m).all (fun i =>
      let c := s.trkInput j i
      s.tf TF.FLT.FilterChannel.GROVE c.1 = g && (c.2 = 0 || s.tf TF.FLT.FilterChannel.INPUT c.1 = 0))
    && decide (((s.validEntries T.OSC.Tracker 0).filter fun k => k != j && s.tf TF.OSC.Tracker.GROVE k = g).length < 32)

/-- A slot may be enabled with its entry (R263, R266). -/
def State.slotOk (s : State) (i : Nat) : Bool :=
  let comp := s.tf TF.OSC.BankSlot.COMP i
  decide (s.tf TF.OSC.BankSlot.BIN_LO i ≤ s.tf TF.OSC.BankSlot.BIN_HI i)
    && (comp = 2 || decide (s.tf TF.OSC.BankSlot.BIN_HI i ≤ 2048))
    && decide (s.tf TF.OSC.BankSlot.PHASE i < 2 ^ s.tf TF.OSC.BankSlot.HOP i)
    && (comp = 0 || s.tf TF.FLT.FilterChannel.INPUT (s.tf TF.OSC.BankSlot.CHANNEL i) = 0)

/-- A halfword of an input list is reserved: it lies at or above M (R264). -/
def State.inputReserved (s : State) (j word lo : Nat) : Bool := decide (s.tf TF.OSC.Tracker.M j ≤ 2 * word + lo / 16)

/-- A word of an input list as read: reserved halfwords read zero (R264). -/
def State.inputWord (s : State) (j w : Nat) : Nat :=
  let v := (s.tword T.OSC.TrackerInputs j w).toNat
  (if s.inputReserved j w 0 then 0 else v % 65536) + (if s.inputReserved j w 16 then 0 else v / 65536 * 65536)

/-- Word 5 of a tracker entry as read (R264). -/
def State.trkWord5 (s : State) (j : Nat) : Nat :=
  let x := s.tracker j
  let st := if s.tflag TF.OSC.Tracker.ENABLE j then s.trkState j x else 0
  st * 2 ^ 30 + b2n x.frozen * 2 ^ 29 + s.tf TF.OSC.Tracker.CONFIG_LOST j * 2 ^ 28

/-- STATE of a rule as read (R265). -/
def State.ruleState (s : State) (idx : Nat) : Nat := (mget ruleClear (s.tracker (idx / 8)).rules (idx % 8)).state

/-- Word 5 of a slot entry as read (R266). -/
def State.slotWord5 (s : State) (i : Nat) : Nat :=
  let x := s.slot i
  let st := if s.tflag TF.OSC.BankSlot.ENABLE i then (if 4096 ≤ x.count then 2 else 1) else 0
  st * 2 ^ 30 + x.rule.state * 2 ^ 28 + s.tf TF.OSC.BankSlot.CONFIG_LOST i * 2 ^ 27

end Sys2Proof.Machine
end

