-- ==== Sys2Proof/Machine/Isl.lean ====
section
/-!
DEFINITION. The Connectivity Engine (chapter 09): branch statuses, islands and their map, monitors, separation policies,
records and notices.
-/

namespace Sys2Proof.Machine

/-! ## Entries -/

/-- A branch, a monitor and a policy at rest. -/
def branchIdle : BranchSt := ⟨0, false, false, 0⟩
def monIdle : MonSt := ⟨ruleClear, 0, none, none, 0⟩
def polIdle : PolSt := ⟨0, false, false, none, none⟩

/-- A branch, a monitor, a policy. -/
def State.branch (s : State) (b : Nat) : BranchSt := mget branchIdle s.isl.branches b
def State.setBranch (s : State) (b : Nat) (x : BranchSt) : State :=
  { s with isl := { s.isl with branches := mset branchIdle s.isl.branches b x } }
def State.mon (s : State) (cls i : Nat) : MonSt := mget monIdle s.isl.mons (cls * 4096 + i)
def State.setMon (s : State) (cls i : Nat) (x : MonSt) : State :=
  { s with isl := { s.isl with mons := mset monIdle s.isl.mons (cls * 4096 + i) x } }
def State.pol (s : State) (i : Nat) : PolSt := mget polIdle s.isl.pols i
def State.setPol (s : State) (i : Nat) (x : PolSt) : State :=
  { s with isl := { s.isl with pols := mset polIdle s.isl.pols i x } }

/-- Island ID of a node; 0xFFFF when it is not valid (R277). -/
def State.island (s : State) (n : Nat) : Nat := mget 0xFFFF s.isl.islands n

/-- Key of the q-th counter of a Grove (R295). -/
def islCnt (g q : Nat) : Nat := tblCntKey 0xA7 g q

/-- Grove of a stream's directory entry. -/
def State.streamGrove (s : State) (i : Nat) : Nat := s.dir i TF.ING.Directory.GROVE

/-- A channel as a notice's view reads it (R269, R270): slots with STAGE read empty through a provisional notice. -/
def State.viewChan (s : State) (final : Bool) (g addr stream ch : Nat) (kinds : List Nat) : Option (Nat × Nat) :=
  match memberOf stream (s.grove g).members 0 with
  | none => none
  | some (_, m) =>
    if !final && bitOf (s.rdLe (addr + m.off + 0x1A) 1) 1 then none else s.slotChan g addr stream ch kinds

/-! ## Branch statuses (R272 to R275) -/

/-- A contact of a digital word: none when its DIG_VALID bit is clear; `inv` is the inverse of POL. -/
def contact (word bit : Nat) (pol : Bool) : Option Bool :=
  if bitOf word (16 + bit) then some (bitOf word bit != !pol) else none

/-- The status of a branch read from a digital word (R273): closed or open, or absent; the flag tells an invalid double
point. -/
def State.statusOf (s : State) (b word : Nat) : Option Bool × Bool :=
  let pol := s.tflag TF.ISL.Branch.POL b
  let c := contact word (s.tf TF.ISL.Branch.BIT b) pol
  if s.tf TF.ISL.Branch.SRC b = 1 then (c, false)
  else
    match c, contact word (s.tf TF.ISL.Branch.BIT2 b) pol with
    | some x, some y => if x = y then (none, true) else (some x, false)
    | _, _ => (none, false)

/-- Effective state held by a branch: its last one, or INIT (R275). -/
def State.heldState (s : State) (b : Nat) : Bool :=
  match (s.branch b).st with
  | 0 => s.tflag TF.ISL.Branch.INIT b
  | x => x = 2

/-- Effective state without a status: rules 1 and 2 of R272, else as held. -/
def State.branchClosed (s : State) (b : Nat) : Bool :=
  match s.tf TF.ISL.Branch.FORCE b with
  | 1 => false
  | 2 => true
  | _ => if s.tf TF.ISL.Branch.SRC b = 0 then true else s.heldState b

/-- An effective state as stored. -/
def stNum (closed : Bool) : Nat := if closed then 2 else 1

/-- A branch at a notice (R272 to R274): its entry when the effective state changed. -/
def State.branchNotice (s : State) (final : Bool) (g addr b : Nat) : State × List IslEntry :=
  let x := s.branch b
  let held := s.heldState b
  let force := s.tf TF.ISL.Branch.FORCE b
  let r : State × BranchSt × Bool :=
    if force = 1 || force = 2 || s.tf TF.ISL.Branch.SRC b = 0 then (s, { x with stale := false }, s.branchClosed b)
    else if mget false s.isl.dirWritten (s.tf TF.ISL.Branch.STREAM b) then (s, { x with stale := true }, held)
    else
      let word := s.viewChan final g addr (s.tf TF.ISL.Branch.STREAM b) (s.tf TF.ISL.Branch.CH b) [4]
      let st := match word with | some w => s.statusOf b w.1 | none => (none, false)
      let s := if st.2 then (s.bump R.ISL_U_DP_INVALID).raise F.ISL_INT_STATUS.DP_INVALID else s
      match st.1 with
      | some c => (s, { x with stale := false, seen := true, absentRun := 0 }, c)
      | none =>
        let mode := s.tf TF.ISL.Branch.ABSENT b
        if final && (mode = 1 || mode = 2) then
          let n := min 255 (x.absentRun + 1)
          (s, { x with stale := false, absentRun := n }, if s.tf TF.ISL.Branch.ABSENT_N b ≤ n then mode = 2 else held)
        else (s, { x with stale := false }, held)
  let before := if x.st = 0 && (force = 1 || force = 2 || s.tf TF.ISL.Branch.SRC b = 0) then s.branchClosed b else held
  let s := r.1.setBranch b { r.2.1 with st := if r.2.1.seen || x.st != 0 || r.2.2 != held then stNum r.2.2 else 0 }
  (s, if r.2.2 = before then [] else
    [⟨5, b2n r.2.2, b2n before, b2n r.2.1.stale * 2 + b2n (!final), b, 0, 0⟩])

/-- Valid branches whose stream belongs to a Grove, in branch order (R276). -/
def State.groveBranches (s : State) (g : Nat) : List Nat :=
  (s.validEntries T.ISL.Branch 0).filter fun b =>
    let i := s.tf TF.ISL.Branch.STREAM b
    s.tflag TF.ING.Directory.VALID i && s.streamGrove i = g

/-- Branches one after another. -/
def State.branchesNotice (s : State) (final : Bool) (g addr : Nat) : List Nat → State × List IslEntry
  | [] => (s, [])
  | b :: t =>
    let a := s.branchNotice final g addr b
    let r := a.1.branchesNotice final g addr t
    (r.1, a.2 ++ r.2)

/-! ## Islands (R276 to R278) -/

/-- Two islands become one under the lower ID. -/
def mergeIslands (a b : Nat) (m : SMap Nat) : SMap Nat :=
  let x := mget 0xFFFF m a
  let y := mget 0xFFFF m b
  if x = y || x = 0xFFFF || y = 0xFFFF then m else m.map fun e => if e.2 = max x y then (e.1, min x y) else e

/-- The partition from the effective states (R276, R277). -/
def State.partition (s : State) : SMap Nat :=
  ((s.validEntries T.ISL.Branch 0).filter s.branchClosed).foldl
    (fun m b => mergeIslands (s.tf TF.ISL.Branch.NODE_A b) (s.tf TF.ISL.Branch.NODE_B b) m)
    ((s.validEntries T.ISL.Node 0).map fun n => (n, n))

/-- Island IDs of a partition, ascending: each is its island's lowest node. -/
def islandIds (m : SMap Nat) : List Nat := (m.filter fun e => e.1 = e.2).map (·.1)

/-- Nodes of an island. -/
def nodesOf (m : SMap Nat) (id : Nat) : List Nat := (m.filter fun e => e.2 = id).map (·.1)

/-- Change entries of a map record: island, PREV, NODES, SOURCES (R288). -/
def mapChanges (old new : SMap Nat) : List (Nat × Nat × Nat × Nat) :=
  ((islandIds new).filter fun i =>
      let p := mget 0xFFFF old i
      p = 0xFFFF || nodesOf new i != nodesOf old p).map fun i =>
    let nodes := nodesOf new i
    (i, mget 0xFFFF old i, nodes.length,
      ((nodes.map (mget 0xFFFF old)).eraseDups.filter fun x => x != 0xFFFF).length)

/-- A notice of the engine (R289); a refused one is counted. -/
def State.islNotice (s : State) (q ttag seq addr epoch grove kind flags : Nat) : State :=
  let e : Entry := BitVec.ofNat 256 (leNat (leBytes 8 ttag ++ leBytes 8 seq ++ leBytes 8 addr ++ leBytes 4 epoch
    ++ leBytes 1 grove ++ leBytes 1 0 ++ leBytes 1 kind ++ leBytes 1 flags))
  let r := s.pushNotice q 38 e
  if r.2 = 0 then r.1.bump R.ISL_U_NOTICES_PUSHED
  else (r.1.bump R.ISL_U_NOTICE_REFUSED).raise F.ISL_INT_STATUS.NOTICE_REFUSED

/-- A new partition takes effect; a map record is written when it differs or `start` is set (R278, R288). The flag tells that
a record was written. -/
def State.takeMap (s : State) (start : Bool) (ttag seq epoch grove tStatus : Nat) (prov : Bool) : State × Bool :=
  let old := s.isl.islands
  let new := s.partition
  let s := (s.bump R.ISL_U_RECOMPUTES)
  if old = new && !start then (s.bump R.ISL_U_MAP_UNCHANGED, false)
  else
    let n := (islandIds new).length
    let chg := mapChanges old new
    let flags := b2n prov * 128 + b2n start * 64 + b2n (decide (256 < chg.length)) * 32
    let seqNo := (s.cnt R.ISL_MAP_SEQ).toNat + 1
    let addr := s.ringBase R.ISL_MAP_BASE_LO R.ISL_MAP_BASE_HI + 34880 * (s.isl.mapIdx % max 1 (s.fld F.ISL_MAP_RECORDS.N))
    let s := s.setCnt R.ISL_MAP_SEQ (w64 seqNo)
    let s := { s with isl := { s.isl with islands := new, nIslands := n, mapIdx := s.isl.mapIdx + 1 } }
    let rec' (ts tp : Nat) : List Byte :=
      leBytes 8 ttag ++ leBytes 8 seq ++ leBytes 4 epoch ++ leBytes 1 grove ++ leBytes 1 flags
        ++ leBytes 2 (min 256 chg.length) ++ leBytes 8 seqNo ++ leBytes 2 n ++ leBytes 6 0 ++ leBytes 8 ts ++ leBytes 8 tp
        ++ leBytes 8 0 ++ ((List.range 16384).flatMap fun k => leBytes 2 (mget 0xFFFF new k))
        ++ (chg.take 256).flatMap fun c => leBytes 2 c.1 ++ leBytes 2 c.2.1 ++ leBytes 2 c.2.2.1 ++ leBytes 1 c.2.2.2
          ++ leBytes 1 0
    let s := ((s.wrBytes addr (rec' tStatus s.gt)).bump R.ISL_U_MAP_RECORDS).raise F.ISL_INT_STATUS.MAP_CHANGED
    let s := if 256 < chg.length then s.raise F.ISL_INT_STATUS.OVERFLOW else s
    ((s.digest 8 grove seq (rec' 0 0)).islNotice (s.fld F.ISL_QUEUE.MAP) ttag seq addr epoch grove 1 flags, true)

/-! ## Monitors (R279 to R284) -/

/-- Table of a monitor class. -/
def monTable (cls : Nat) : Nat := 0xA2 + cls

/-- A field of a monitor's entry by word and bits: the classes share their layout of word 0. -/
def State.monFld (s : State) (cls i word hi lo : Nat) : Nat := s.tf ⟨monTable cls, word, hi, lo⟩ i

/-- Streams a monitor names. -/
def State.monStreams (s : State) (cls i : Nat) : List Nat :=
  let a := s.monFld cls i 1 13 0
  if cls = 1 || cls = 3 then [a, s.monFld cls i 1 29 16] else [a]

/-- Enabled monitors of a class whose streams belong to a Grove. -/
def State.groveMons (s : State) (g cls : Nat) : List Nat :=
  (s.validEntries (monTable cls) 0).filter fun i => s.streamGrove (s.monFld cls i 1 13 0) = g

/-- Magnitude of a binary32. -/
def fabs32 (x : Nat) : Nat := x % 2 ^ 31

/-- The rows of R280: 0 over, 1 under, 2 magnitude. Raise and clear. -/
def monCompare (row x set hyst : Nat) : Bool × Bool :=
  match row with
  | 0 => (fle f32 set x, Sys2Proof.Machine.flt f32 x (fsub f32 set hyst).bits)
  | 1 => (fle f32 x set, Sys2Proof.Machine.flt f32 (fadd f32 set hyst).bits x)
  | _ => (fle f32 set (fabs32 x), Sys2Proof.Machine.flt f32 (fabs32 x) (fsub f32 set hyst).bits)

/-- The row of R280 for a class and TYPE. -/
def monRow (cls type : Nat) : Nat :=
  match cls, type with
  | 0, 1 => 0 | 0, 2 => 1 | 0, _ => 2
  | 1, 1 => 2 | 1, 2 => 0 | 1, _ => 1
  | _, 1 => 0 | _, _ => 1

/-- An evaluation: value, second value, raise, clear, pole slip. -/
structure MonVal where
  x : Nat
  x2 : Nat
  up : Bool
  down : Bool
  slip : Bool
  deriving DecidableEq, Repr

/-- The slip of R281 and whether a pole slipped; none when it is absent. -/
def State.slipOf (s : State) (g i seq : Nat) (prev : Option (Nat × Nat)) (dth : Option Nat) : Option (Nat × Bool) :=
  match dth, prev with
  | some d, some (d0, q) =>
    if q < seq && decide (seq - q ≤ s.tf TF.ISL.Coherency.SLIP_GAP i) then
      let r := (fsub f32 d d0).bits
      let out := Sys2Proof.Machine.flt f32 piF r || fle f32 r (fneg f32 piF)
      some ((fdiv f32 (fmul f32 (fwrap ⟨r, 0⟩).bits (i2f (s.groveRate g))).bits (fmul f32 twoPiF (i2f (seq - q : Nat))).bits).bits,
        out)
    else none
  | _, _ => none

/-- The two phasors of a coherency or angle-pair monitor: their wrapped angle difference. -/
def State.angPair (s : State) (final : Bool) (g addr a cha b chb : Nat) : Option Nat :=
  match s.viewChan final g addr a cha [0], s.viewChan final g addr b chb [0] with
  | some x, some y => some (angDiff x y)
  | _, _ => none

/-- The evaluation of a monitor at a notice (R280, R281); none when it is absent. -/
def State.monValue (s : State) (final : Bool) (g addr seq cls i : Nat) (prev : Option (Nat × Nat)) : Option MonVal :=
  let a := s.monFld cls i 1 13 0
  let b := s.monFld cls i 1 29 16
  let type := s.monFld cls i 0 30 28
  let simple (x : Nat) : MonVal :=
    let c := monCompare (monRow cls type) x (s.monFld cls i 2 31 0) (s.monFld cls i 3 31 0)
    ⟨x, 0, c.1, c.2, false⟩
  match cls with
  | 0 => (s.viewChan final g addr a (s.monFld cls i 0 21 16) [1, 2]).map fun v =>
      simple (if type = 4 then (fsub f32 v.1 (i2f (if s.sys.nominal60 then 60 else 50))).bits else v.1)
  | 1 => (s.angPair final g addr a (s.monFld cls i 0 21 16) b (s.monFld cls i 0 27 22)).map simple
  | 2 => (s.viewChan final g addr a (s.monFld cls i 0 21 16) [0]).map fun v => simple (fhypot f32 v.1 v.2).bits
  | _ =>
    let dth := s.angPair final g addr a (s.tf TF.ISL.Coherency.PH_A i) b (s.tf TF.ISL.Coherency.PH_B i)
    match s.viewChan final g addr a (s.tf TF.ISL.Coherency.FQ_A i) [1],
        s.viewChan final g addr b (s.tf TF.ISL.Coherency.FQ_B i) [1], s.slipOf g i seq prev dth with
    | some fa, some fb, some (sl, out) =>
      let df := (fsub f32 fa.1 fb.1).bits
      let p := monCompare 2 df (s.tf TF.ISL.Coherency.DF_SET i) (s.tf TF.ISL.Coherency.DF_HYST i)
      let q := monCompare 2 sl (s.tf TF.ISL.Coherency.SLIP_SET i) (s.tf TF.ISL.Coherency.SLIP_HYST i)
      some ⟨df, sl, p.1 && q.1, p.2 && q.2, out⟩
    | _, _, _ => none

/-- A pole slip at a final notice is counted whether or not the evaluation is present (R281). -/
def State.slipped (s : State) (final : Bool) (g addr seq i : Nat) (prev : Option (Nat × Nat)) : Bool :=
  match s.slipOf g i seq prev (s.angPair final g addr (s.monFld 3 i 1 13 0) (s.tf TF.ISL.Coherency.PH_A i)
      (s.monFld 3 i 1 29 16) (s.tf TF.ISL.Coherency.PH_B i)) with
  | some (_, out) => out
  | none => false

/-- A monitor at a notice (R282 to R284): its entry when the new state differs from the one last published. -/
def State.monNotice (s : State) (final : Bool) (g addr seq epoch cls i : Nat) : State × List IslEntry :=
  let x0 := s.mon cls i
  let x := match x0.epoch with
    | some e => if e = epoch then x0 else { x0 with com := { x0.com with set := 0, clr := 0 }, prev := none }
    | none => x0
  let x := { x with epoch := some epoch }
  let v := s.monValue final g addr seq cls i x.prev
  let slip := cls = 3 && s.slipped final g addr seq i x.prev
  let dth := if cls = 3 then s.angPair final g addr (s.monFld cls i 1 13 0) (s.tf TF.ISL.Coherency.PH_A i)
    (s.monFld cls i 1 29 16) (s.tf TF.ISL.Coherency.PH_B i) else none
  let new := match v with
    | none => x.com
    | some y => x.com.step y.up y.down (s.monFld cls i 0 15 8) (s.monFld cls i 0 7 0)
  let s := (s.bump R.ISL_U_EVALUATIONS).bump (if v.isSome then R.ISL_U_EVAL_PRESENT else R.ISL_U_EVAL_ABSENT)
  let x' : MonSt :=
    { x with
      com := if final then new else x.com
      pub := new.state
      prev := match final, dth with | true, some d => some (d, seq) | _, _ => x.prev
      poles := if final && slip then min 255 (x.poles + 1) else x.poles }
  (s.setMon cls i x',
    if new.state = x.pub then [] else
      [⟨cls, new.state, x.pub, b2n slip * 4 + b2n (!final), i, (v.map (·.x)).getD 0, (v.map (·.x2)).getD 0⟩])

/-- Monitors of a class in index order. -/
def State.monsNotice (s : State) (final : Bool) (g addr seq epoch cls : Nat) : List Nat → State × List IslEntry
  | [] => (s, [])
  | i :: t =>
    let a := s.monNotice final g addr seq epoch cls i
    let r := a.1.monsNotice final g addr seq epoch cls t
    (r.1, a.2 ++ r.2)

/-- Every enabled monitor of a Grove, in class order. -/
def State.allMons (s : State) (final : Bool) (g addr seq epoch : Nat) : List Nat → State × List IslEntry
  | [] => (s, [])
  | c :: t =>
    let a := s.monsNotice final g addr seq epoch c (s.groveMons g c)
    let r := a.1.allMons final g addr seq epoch t
    (r.1, a.2 ++ r.2)

/-! ## LIVE words at a notice (R72) -/

/-- The LIVE bits of an old word over the word that stands now: bits [15:0] of word 0, the whole of the others. -/
def liveOver (key : Nat) (now old : Word) : Word :=
  if key % 32 = 0 then w32 (putBits now.toNat 15 0 (old.toNat % 2 ^ 16)) else old

/-- The table words as the notice of number `no` takes them: a LIVE word written after its Set was released reads as before. -/
def State.tblAt (s : State) (no : Nat) : SMap Word :=
  s.isl.old.foldr (fun x m => if no < x.1 then mapSet tblReset m x.2.1 (liveOver x.2.1 (mapGet tblReset m x.2.1) x.2.2) else m) s.tbl

/-- An evaluation with the table words of a notice; the tables themselves stand. -/
def State.atNotice (s : State) (no : Nat) (f : State → State × List IslEntry) : State × List IslEntry :=
  let r := f { s with tbl := s.tblAt no }
  ({ r.1 with tbl := s.tbl }, r.2)

/-- A LIVE word of a running monitor or policy written while notices wait. -/
def State.islKeepOld (s o : State) (table idx : Nat) (words : List Nat) : State :=
  if s.gld.islWait.isEmpty && s.isl.cur.isNone then s
  else
    let n := s.isl.taken + s.gld.islWait.length
    { s with isl := { s.isl with old := s.isl.old ++
        ((words.filter fun w => s.tword table idx w ≠ o.tword table idx w).map fun w => (n, tblKey table idx w, o.tword table idx w)) } }

/-! ## Separation policies (R285, R286) -/

/-- Evidence within the hold. -/
def withinHold (t hold : Nat) (tt : Option Nat) : Bool :=
  match tt with | some x => decide (gtDiff t x < (hold : Int)) | none => false

/-- A policy at time-tag `t` (R285). -/
def State.polNotice (s : State) (prov : Bool) (t i : Nat) : State × List IslEntry :=
  let x := s.pol i
  let topo := s.island (s.tf TF.ISL.Policy.NODE_A i) != s.island (s.tf TF.ISL.Policy.NODE_B i)
  let elec := (s.mon (if s.tf TF.ISL.Policy.EV_CLASS i = 0 then 3 else 1) (s.tf TF.ISL.Policy.EV_INDEX i)).pub = 2
  let hold := gtOfMs (s.tf TF.ISL.Policy.HOLD_MS i)
  let tt := if topo then some t else x.topoTt
  let et := if elec then some t else x.elecTt
  let th := topo || withinHold t hold tt
  let eh := elec || withinHold t hold et
  let st := match s.tf TF.ISL.Policy.MODE i with
    | 1 => if topo then 2 else 0
    | 2 => if elec then 2 else 0
    | 3 => if !topo && !elec then 0 else if x.state = 2 || (th && eh) then 2 else if topo != elec then 1 else 0
    | 4 => if topo || elec then 2 else 0
    | _ => 0
  (s.setPol i ⟨st, topo, elec, tt, et⟩, if st = x.state then [] else [⟨4, st, x.state, b2n prov, i, 0, 0⟩])

/-- Enabled policies in index order. -/
def State.polsNotice (s : State) (prov : Bool) (t : Nat) : List Nat → State × List IslEntry
  | [] => (s, [])
  | i :: r =>
    let a := s.polNotice prov t i
    let b := a.1.polsNotice prov t r
    (b.1, a.2 ++ b.2)

/-! ## Result records (R287, R289) -/

/-- One entry's 16 bytes. -/
def IslEntry.bytes (e : IslEntry) : List Byte :=
  leBytes 1 e.cls ++ leBytes 1 e.state ++ leBytes 1 e.prev ++ leBytes 1 e.flags ++ leBytes 2 e.idx ++ leBytes 2 0
    ++ leBytes 4 e.val ++ leBytes 4 e.val2

/-- The Grove binds an enabled monitor or a branch (R287). -/
def State.binds (s : State) (g : Nat) : Bool :=
  !(s.groveBranches g).isEmpty || [0, 1, 2, 3].any fun c => !(s.groveMons g c).isEmpty

/-- A notice ends: policies, the result record and its notices (R285, R287, R289, R291). -/
def State.islFinish (s : State) (r : IslRun) (recomputed mapped : Bool) : State :=
  let e := r.notice
  let g := noticeGrove e
  let addr := noticeAddr e
  let final := noticeKind e = 1
  let epoch := descField e 0x18 4
  let pol := s.atNotice r.no fun s => s.polsNotice (!final) (noticeTtag e) (s.validEntries T.ISL.Policy 0)
  let s := { pol.1.bump R.ISL_U_PROCESSED with
    isl := { pol.1.isl with cur := none, old := pol.1.isl.old.filter fun x => decide (r.no + 1 < x.1) } }
  let s := s.bump (islCnt g 0)
  if !s.binds g then s.bump R.ISL_U_NO_RECORD
  else
    let entries := r.mons ++ pol.2 ++ r.branches
    let n := entries.length
    let excess := decide (1024 < n)
    let event := n != 0 || mapped
    let tIn := s.rdLe (addr + (if final then 0x68 else 0x58)) 8
    let late := gtAfter s.gt (gtAdd tIn (gtOfUs 100))
    let flags (lt : Bool) : Nat :=
      b2n (!final) * 128 + b2n lt * 64 + b2n recomputed * 32 + b2n mapped * 16 + b2n excess * 8 + b2n event * 4
    let rec' (lt : Bool) (ti tp : Nat) : List Byte :=
      leBytes 8 (noticeTtag e) ++ leBytes 8 (noticeSeq e) ++ leBytes 4 epoch ++ leBytes 1 g ++ leBytes 1 (flags lt)
        ++ leBytes 2 (min 1024 n) ++ leBytes 8 (s.cnt R.ISL_MAP_SEQ).toNat ++ leBytes 2 s.isl.nIslands
        ++ leBytes 2 (s.rdLe (addr + (if final then 0x18 else 0x16)) 2) ++ leBytes 4 n ++ leBytes 8 ti ++ leBytes 8 tp
        ++ leBytes 1 (s.rdLe (addr + 0x1E) 1) ++ leBytes 1 (s.rdLe (addr + 0x1F) 1) ++ leBytes 6 0
        ++ (entries.take 1024).flatMap IslEntry.bytes
    let ra := s.ringBase R.ISL_RES_BASE_LO R.ISL_RES_BASE_HI + 16448 * (s.isl.resIdx % max 1 (s.fld F.ISL_RES_RECORDS.N))
    let s := { s.wrBytes ra (rec' late tIn s.gt) with isl := { s.isl with resIdx := s.isl.resIdx + 1 } }
    let s := (s.bump R.ISL_U_RES_RECORDS).bump (islCnt g 1)
    let s := ((s.bumpBy R.ISL_U_CHANGES n).bumpBy R.ISL_U_ENTRIES (min 1024 n)).bumpBy R.ISL_U_ENTRIES_OVERFLOW (n - 1024)
    let s := if excess then s.raise F.ISL_INT_STATUS.OVERFLOW else s
    let s := if late then ((s.bump R.ISL_U_LATE).bump (islCnt g 3)).raise F.ISL_INT_STATUS.LATE else s
    let s := s.digest 8 g (noticeSeq e) (rec' late 0 0)
    let s := s.islNotice (s.fld F.ISL_QUEUE.RESULT) (noticeTtag e) (noticeSeq e) ra epoch g 0 (flags late)
    if event then
      ((s.bump R.ISL_U_EVENTS).bump (islCnt g 2)).islNotice (s.fld F.ISL_QUEUE.EVENT) (noticeTtag e) (noticeSeq e) ra epoch g 0
        (flags late)
    else s

/-! ## The engine's commands -/

/-- The engine runs, or ends the item in progress before it stops (R292). -/
def State.islRuns (s : State) : Bool := !s.flag F.ISL_STATUS.STOPPED && s.detects

/-- The engine begins items: its run control is one. -/
def State.islBegins (s : State) : Bool := s.islRuns && s.flag F.ISL_CTRL.RUN

/-- A notice is taken: monitors, then branch statuses; a changed effective state leaves a recomputation to come (R268, R276,
R279). -/
def State.islTake (s : State) (e : Entry) (rest : List Entry) : State :=
  let g := noticeGrove e
  let addr := noticeAddr e
  let final := noticeKind e = 1
  let no := s.isl.taken
  let s := { s.engineReads g addr with gld := { s.gld with islWait := rest }, isl := { s.isl with taken := no + 1 } }
  let a := s.atNotice no fun s => s.allMons final g addr (noticeSeq e) (descField e 0x18 4) [0, 1, 2, 3]
  let b := a.1.branchesNotice final g addr (a.1.groveBranches g)
  let r : IslRun := ⟨e, a.2, b.2, b.1.gt, no⟩
  if b.2.isEmpty then b.1.islFinish r false false
  else { b.1 with isl := { b.1.isl with cur := some r } }

/-- ISL_NOTICE_TAKEN (R268). -/
def execIslNoticeTaken (dt : Nat) (s : State) : Out :=
  let s := s.elapse dt
  match s.isl.cur, s.gld.islWait with
  | none, e :: rest => if s.islBegins && !s.isl.startDue then .next (s.islTake e rest) else .next s
  | _, _ => .next s

/-- ISLAND_RECOMPUTE_DONE (R276 to R278): the START record of a first run or of a restart after a table write, or the
recomputation of the notice in progress. -/
def execIslandRecomputeDone (dt : Nat) (s : State) : Out :=
  let s := s.elapse dt
  if !s.islRuns then .next s
  else
    match s.isl.cur with
    | some r =>
      let e := r.notice
      let m := s.takeMap false (noticeTtag e) (noticeSeq e) (descField e 0x18 4) (noticeGrove e) r.tStatus (noticeKind e = 0)
      .next (m.1.islFinish r true m.2)
    | none =>
      if s.isl.startDue && s.islBegins then
        let s := { s with isl := { s.isl with startDue := false } }
        .next (s.takeMap true s.tim.mark 0 s.epoch 0xFF s.gt false).1
      else .next s

/-- The engine starts (R271, R272, R278): written branches return to their initial state, directory writes are forgotten. -/
def State.islStart (s : State) : State :=
  let bs := s.isl.branches.filter fun x => !mget false s.isl.written x.1
  { s with isl := { s.isl with
      branches := bs, startDue := s.isl.startDue || s.isl.tableWritten || s.isl.mapIdx = 0
      tableWritten := false, written := [], dirWritten := [] } }

/-! ## Table writes (R284, R286, R295) -/

/-- A node or branch entry was written. -/
def State.topoWritten (s : State) (table idx : Nat) : State :=
  { s with isl := { s.isl with
      tableWritten := true
      written := if table = T.ISL.Branch then mset false s.isl.written idx true else s.isl.written } }

/-- Monitors naming a stream lose EN and have CONFIG_LOST set (R284); a write of the directory entry itself is remembered for
R272. -/
def State.islDirWritten (s : State) (dir : Bool) (stream : Nat) : State :=
  let hit (c : Nat) : List Nat := (s.usedEntries (monTable c)).filter fun i => (s.monStreams c i).contains stream
  let lose (s : State) (c i : Nat) : State :=
    (s.setTf ⟨monTable c, 0, 31, 31⟩ i 0).setTf ⟨monTable c, if c = 3 then 7 else 4, 29, 29⟩ i 1
  let any := [0, 1, 2, 3].any fun c => !(hit c).isEmpty
  let s := [0, 1, 2, 3].foldl (fun s' c => (hit c).foldl (fun s' i => lose s' c i) s') s
  let s := if any then s.raise F.ISL_INT_STATUS.CONFIG_LOST else s
  if dir then { s with isl := { s.isl with dirWritten := mset false s.isl.dirWritten stream true } } else s

/-- A stream's channel of a KIND exists in its directory entry. -/
def State.chanIs (s : State) (stream ch : Nat) (kinds : List Nat) : Bool :=
  decide (ch < s.numCh stream)
    && kinds.contains (s.tf TF.ING.ChannelMap.KIND (s.dir stream TF.ING.Directory.CHMAP_BASE + ch))

/-- A valid directory entry. -/
def State.streamOk (s : State) (i : Nat) : Bool := s.tflag TF.ING.Directory.VALID i

/-- The checks of R295 on a branch entry. -/
def State.branchOk (s : State) (b : Nat) : Bool :=
  let a := s.tf TF.ISL.Branch.NODE_A b
  let c := s.tf TF.ISL.Branch.NODE_B b
  let i := s.tf TF.ISL.Branch.STREAM b
  a != c && s.tflag TF.ISL.Node.VALID a && s.tflag TF.ISL.Node.VALID c && s.streamOk i
    && s.chanIs i (s.tf TF.ISL.Branch.CH b) [4]

/-- The checks of R295 on a monitor entry. -/
def State.monOk (s : State) (cls i : Nat) : Bool :=
  let a := s.monFld cls i 1 13 0
  let b := s.monFld cls i 1 29 16
  let ch := s.monFld cls i 0 21 16
  (s.monStreams cls i).all s.streamOk && (s.monStreams cls i).all (fun x => s.streamGrove x = s.streamGrove a) &&
    match cls with
    | 0 => s.chanIs a ch (if s.monFld cls i 0 30 28 = 4 then [1] else [1, 2])
    | 1 => s.chanIs a ch [0] && s.chanIs b (s.monFld cls i 0 27 22) [0]
    | 2 => s.chanIs a ch [0]
    | _ => s.chanIs a ch [0] && s.chanIs b (s.monFld cls i 0 27 22) [0]
        && s.chanIs a (s.tf TF.ISL.Coherency.FQ_A i) [1] && s.chanIs b (s.tf TF.ISL.Coherency.FQ_B i) [1]

/-- The checks of R286 on a policy entry. -/
def State.polOk (s : State) (i : Nat) : Bool :=
  let a := s.tf TF.ISL.Policy.NODE_A i
  let b := s.tf TF.ISL.Policy.NODE_B i
  a != b && s.tflag TF.ISL.Node.VALID a && s.tflag TF.ISL.Node.VALID b
    && decide (s.tf TF.ISL.Policy.EV_INDEX i < (if s.tf TF.ISL.Policy.EV_CLASS i = 0 then 256 else 1024))

/-- EN of a monitor or policy went from 0 to 1 (R284, R286). -/
def State.monEnabled (s : State) (cls i : Nat) : State :=
  (s.setMon cls i monIdle).setTf ⟨monTable cls, if cls = 3 then 7 else 4, 29, 29⟩ i 0
def State.polEnabled (s : State) (i : Nat) : State := s.setPol i polIdle

/-- The read-only words of the tables (R295). -/
def State.branchWord3 (s : State) (b : Nat) : Nat :=
  let x := s.branch b
  b2n (s.branchClosed b) * 2 ^ 31 + b2n x.seen * 2 ^ 30 + b2n x.stale * 2 ^ 29 + x.absentRun % 256 * 2 ^ 16
def State.monLastWord (s : State) (cls i : Nat) : Nat :=
  let x := s.mon cls i
  let lost := s.monFld cls i (if cls = 3 then 7 else 4) 29 29
  x.com.state * 2 ^ 30 + lost * 2 ^ 29 + (if cls = 3 then x.pub * 2 ^ 24 + x.poles * 2 ^ 16 else x.pub * 2 ^ 16)
    + min 255 x.com.set * 2 ^ 8 + min 255 x.com.clr
def State.polWord (s : State) (i w : Nat) : Nat :=
  let x := s.pol i
  let half (t : Option Nat) (hi : Bool) : Nat := if hi then t.getD 0 / 2 ^ 32 else t.getD 0 % 2 ^ 32
  match w with
  | 2 => x.state * 2 ^ 30 + b2n x.topo * 2 ^ 29 + b2n x.elec * 2 ^ 28
  | 3 => half x.topoTt false | 4 => half x.topoTt true | 5 => half x.elecTt false | _ => half x.elecTt true

/-- ISL_STATUS (R294). -/
def State.islStatus (s : State) : Nat :=
  s.isl.nIslands * 2 ^ 16 + s.gld.islWait.length * 2 ^ 8 + b2n (s.isl.cur.isSome || (s.isl.startDue && s.islRuns)) * 4 + b2n s.isl.cur.isSome * 2 + b2n (s.flag F.ISL_STATUS.STOPPED)

end Sys2Proof.Machine
end

