-- ==== Sys2Proof/Machine/Alarm.lean ====
section
/-!
DEFINITION. The alarm block and the publisher (chapter 10): decisions, points, records, outputs, network alarm frames,
acknowledgements and republished frames.
-/

namespace Sys2Proof.Machine

/-! ## State and modes -/

/-- A point, a batch, an output and a publish stream at rest. -/
def pointIdle : AlmPoint := ⟨0, none, 0⟩
def batchIdle : AlmBatch := ⟨0, []⟩
def outIdle : OutCh := ⟨false, 0, false⟩
def pubIdle : PubSt := ⟨0, []⟩

/-- A point, a batch, an output, a publish stream. -/
def State.point (s : State) (p : Nat) : AlmPoint := mget pointIdle s.alm.points p
def State.setPoint (s : State) (p : Nat) (x : AlmPoint) : State :=
  { s with alm := { s.alm with points := mset pointIdle s.alm.points p x } }
def State.batch (s : State) (c : Nat) : AlmBatch := mget batchIdle s.alm.batches c
def State.setBatch (s : State) (c : Nat) (x : AlmBatch) : State :=
  { s with alm := { s.alm with batches := mset batchIdle s.alm.batches c x } }
def State.outCh (s : State) (ch : Nat) : OutCh := mget outIdle s.alm.outs ch
def State.pub (s : State) (i : Nat) : PubSt := mget pubIdle s.alm.pubs i
def State.setPub (s : State) (i : Nat) (x : PubSt) : State :=
  { s with alm := { s.alm with pubs := mset pubIdle s.alm.pubs i x } }

/-- How the outputs stand (R55): held in the safe state, frozen, or driven. -/
inductive Drive where
  | held
  | frozen
  | driven
  deriving DecidableEq, Repr

/-- The drive state of the present mode (R55, R65 step 6, R506). -/
def State.drive (s : State) : Drive :=
  if s.sys.coresOff then .held
  else
    match s.sys.mode with
    | .service | .degraded | .test => .driven
    | .takeover => if s.xng.toDone then .driven else .held
    | .recovery => .frozen
    | _ => .held

/-- ALM_STATUS (R317). -/
def State.almStatus (s : State) : Nat :=
  b2n (s.drive = .driven) * 4 + b2n (s.drive = .frozen) * 2 + b2n (s.flag F.ALM_STATUS.STOPPED)

/-! ## Outputs (R307 to R310) -/

/-- Some asserted point of class 1 or 2 has the output in its mask. -/
def State.called (s : State) (ch : Nat) : Bool :=
  s.alm.points.any fun e =>
    let cls := s.tf TF.ALM.Point.CLASS e.1
    e.2.status % 4 != 0 && (cls = 1 || cls = 2)
      && bitOf (s.tf TF.ALM.Point.SSO e.1 + s.tf TF.ALM.Point.RELAY e.1 * 256) ch

/-- Output `ch` as its points and MIN_ON_MS call for it now (R307, R308). -/
def State.outWanted (s : State) (ch : Nat) : OutCh :=
  let x := s.outCh ch
  let src := s.tf TF.ALM.Output.SOURCE ch
  let want := src = 1 && s.called ch
  let stay := x.asserted && src = 1
    && decide (s.now < x.since + s.tf TF.ALM.Output.MIN_ON_MS ch * 1200000)
  let asserted := want || stay
  let active := asserted || (src = 2 && mget false s.alm.pulses ch)
  { asserted := asserted
    since := if asserted && !x.asserted then s.now else x.since
    level := src != 0 && active != s.tflag TF.ALM.Output.FAILSAFE ch }

/-- The forced level of M8 Test (R309). -/
def State.forcedOut (s : State) (ch : Nat) (x : OutCh) : OutCh :=
  if s.sys.mode = .test && bitOf (s.fld F.ALM_OUT_FORCE.EN) ch then { x with level := bitOf (s.fld F.ALM_OUT_FORCE.LEVEL) ch }
  else x

/-- ALM_OUT_STATE: one bit per output, one meaning energised. -/
def State.outState (s : State) : Nat := (List.range 12).foldl (fun a ch => a + b2n (s.outCh ch).level * 2 ^ ch) 0

/-- The outputs take the levels the drive state gives them. -/
def State.refreshOutputs (s : State) : State :=
  let new : List (Nat × OutCh) :=
    match s.drive with
    | .frozen => []
    | .held => (List.range 12).map fun ch => (ch, { s.outCh ch with level := false })
    | .driven => (List.range 12).map fun ch => (ch, s.forcedOut ch (s.outWanted ch))
  let t := { s with alm := { s.alm with outs := new.foldl (fun m x => mset outIdle m x.1 x.2) s.alm.outs } }
  if t.outState = s.outState then t else t.emit (.outputs t.outState)

/-! ## Network alarm frames (R311 to R313) -/

/-- Payload of an alarm frame but for TYPE, FLAGS, FRAME_SEQ: the record's fields. -/
structure AlmInfo where
  aseq : Nat
  ttag : Nat
  setseq : Nat
  epoch : Nat
  t0 : Nat
  t3 : Nat
  point : Nat
  grove : Nat
  cls : Nat
  state : Nat
  prev : Nat
  basis : Nat
  tq : Nat
  worst : Nat
  deriving DecidableEq, Repr

/-- The 80-byte payload (R311). -/
def State.alarmPayload (s : State) (type flags fseq : Nat) (i : AlmInfo) : List Byte :=
  beBytes 4 0x4557414C ++ beBytes 1 1 ++ beBytes 1 type ++ beBytes 2 flags ++ beBytes 4 (s.fld F.ALM_UNIT_ID.ID)
    ++ beBytes 4 i.epoch ++ beBytes 8 fseq ++ beBytes 8 i.aseq ++ beBytes 8 i.ttag ++ beBytes 8 i.setseq ++ beBytes 8 i.t0
    ++ beBytes 8 i.t3 ++ beBytes 2 i.point ++ beBytes 1 i.grove ++ beBytes 1 i.cls ++ beBytes 1 i.state ++ beBytes 1 i.prev
    ++ beBytes 1 i.basis ++ beBytes 1 0 ++ beBytes 2 i.tq ++ beBytes 1 i.worst ++ beBytes 5 0

/-- Four words of a target entry as an address. -/
def State.tgtAddr (s : State) (t word : Nat) : Nat :=
  (s.tword T.ALM.Target t word).toNat + (s.tword T.ALM.Target t (word + 1)).toNat * 2 ^ 32
    + (s.tword T.ALM.Target t (word + 2)).toNat * 2 ^ 64 + (s.tword T.ALM.Target t (word + 3)).toNat * 2 ^ 96

/-- A UDP frame to a target (R311, R314). -/
def State.targetFrame (s : State) (t : Nat) (payload : List Byte) : List Byte :=
  let v6 := s.tflag TF.ALM.Target.V6 t
  ethHeader (s.tf TF.ALM.Target.MAC_LO t + s.tf TF.ALM.Target.MAC_HI t * 2 ^ 32) (s.station (s.tf TF.ALM.Target.PORT t))
      (s.tf TF.ALM.Target.VLAN t) 0 (if v6 then 0x86DD else 0x0800)
    ++ udpPacket v6 (s.tgtAddr t 5) (s.tgtAddr t 1) (s.tf TF.ALM.Target.SRC_PORT t) (s.tf TF.ALM.Target.DST_PORT t) payload

/-- An output mark is sent while the peer is in step (R504): target and FRAME_SEQ, or stream with SOC and FRACSEC. -/
def State.outputMark (s : State) (publish : Bool) (idx val : Nat) : State :=
  if s.xngState = 1 || s.xngState = 9 then
    (s.crossSend 1 (leBytes 1 (b2n publish) ++ leBytes 1 idx ++ leBytes 8 val)).bump R.XNG_U_OUTPUT_MARKS
  else s

/-- The unit is a shadow in step, or takes over: what it would send is held (R506). -/
def State.holdsFrames (s : State) : Bool :=
  (s.sys.mode = .shadow && s.xngState = 5) || (s.sys.mode = .takeover && !s.xng.toDone)

/-- A port is named out in SYS_DEGRADED. -/
def State.portOut (s : State) (p : Nat) : Bool := decide (p < 6) && bitOf (s.reg R.SYS_DEGRADED).toNat p

/-- A frame of the alarm block for a target's port; on a port named out it counts as lost for want of a link (R532). -/
def State.alarmSubmit (s : State) (p : Nat) (f : TxFrame) : State :=
  if s.portOut p then (s.pbump p R.NET_TX_SUBMITTED).pbump p R.NET_TX_LINK_DOWN else s.txSubmit p f

/-- Copies of an alarm frame to a target wait for their times (R311). -/
def State.addRepeats (s : State) (t port : Nat) (bytes : List Byte) : State :=
  let rep := s.tf TF.ALM.Target.REPEAT t
  if rep = 0 then s
  else { s with alm := { s.alm with repeats := s.alm.repeats ++ [⟨port, bytes, rep, s.now + 1200000⟩] } }

/-- One alarm frame to one target (R311, R312): counted always, sent while driven, held by a shadow in step unless its mark has come
already (R505). -/
def State.alarmFrame (s : State) (aseq flags : Nat) (i : AlmInfo) (t : Nat) : State :=
  let n := mget 0 s.alm.fseq t + 1
  let s := { s with alm := { s.alm with fseq := mset 0 s.alm.fseq t n } }
  let port := s.tf TF.ALM.Target.PORT t
  let bytes := s.targetFrame t (s.alarmPayload 0 flags n i)
  if s.drive = .driven then
    let paused := s.pausedNs port
    let s := (s.bump R.ALM_U_FRAMES_SENT).outputMark false t n
    let s := (s.alarmSubmit port ⟨0, bytes, .alarm aseq t⟩).addRepeats t port bytes
    { s with alm := { s.alm with
        recs := s.alm.recs.map fun r => if r.aseq = aseq then { r with frames := r.frames ++ [(port, t, paused)] } else r } }
  else if s.holdsFrames && decide (mget 0 s.alm.marked t < n) then { s with alm := { s.alm with held := s.alm.held ++ [(t, n, port, bytes)] } }
  else s

/-- Enabled targets among 0 to 7 of a mask. -/
def State.alarmTargets (s : State) (mask : Nat) : List Nat :=
  (List.range 8).filter fun t => bitOf mask t && s.tflag TF.ALM.Target.EN t

/-! ## Records (R305) -/

/-- The 64 bytes of a record. -/
def recordBytes (i : AlmInfo) (rflags t0 t3 t4 : Nat) : List Byte :=
  leBytes 8 i.ttag ++ leBytes 8 i.setseq ++ leBytes 8 i.aseq ++ leBytes 4 i.epoch ++ leBytes 2 i.point ++ leBytes 1 i.grove
    ++ leBytes 1 i.basis ++ leBytes 1 i.state ++ leBytes 1 i.prev ++ leBytes 2 rflags ++ leBytes 2 i.tq ++ leBytes 1 i.worst
    ++ leBytes 1 i.cls ++ leBytes 8 t0 ++ leBytes 8 t3 ++ leBytes 8 t4

/-- A point changes and a record is written; its frames follow (R305, R311). `counts` are the counters of what it records: they rise when
its notice is pushed, so that the identities of R316 hold at every reading (log 55). -/
def State.alarmRecord (s : State) (c : AlmCtx) (p new : Nat) (mark : Option (Nat × Nat × Nat)) (flags : Nat) (counts : List Nat) :
    State :=
  let x := s.point p
  let n := s.alm.aseq
  let addr := s.ringBase R.ALM_REC_BASE_LO R.ALM_REC_BASE_HI + 64 * (n % max 1 (s.fld F.ALM_REC_RECORDS.N))
  let local' := flags + b2n (s.sys.mode = .test) * 128
  let rflags := local' + b2n (s.drive != .driven) * 256
  let i : AlmInfo :=
    { aseq := n, ttag := c.ttag, setseq := c.setseq, epoch := s.epoch, t0 := c.t0, t3 := c.t3, point := p, grove := c.grove,
      cls := s.tf TF.ALM.Point.CLASS p, state := new, prev := x.status, basis := c.basis, tq := c.tq, worst := c.worst }
  let s : State := s.setPoint p ⟨new, mark, c.grove⟩
  let s := s.wrBytes addr (recordBytes i rflags c.t0 c.t3 c.t3)
  let s := s.digest 3 p n (recordBytes i local' 0 0 0)
  let r : AlmRec :=
    { addr := addr, aseq := n, ttag := c.ttag, setseq := c.setseq, epoch := i.epoch, grove := c.grove, rflags := rflags,
      t0 := c.t0, t4 := c.t3, paused := 0, frames := [], counts := R.ALM_U_RECORDS :: counts }
  let s : State := { s with alm := { s.alm with aseq := n + 1, recs := s.alm.recs ++ [r] } }
  (s.alarmTargets (s.tf TF.ALM.Point.TARGETS p)).foldl (fun s' t => s'.alarmFrame n rflags i t) s

/-- T4 of a record is known: no port still holds a first copy of its frames. -/
def State.t4Known (s : State) (r : AlmRec) : Bool :=
  !s.net.any fun p => p.2.tx.any fun f => match f.tag with | .alarm n _ => n = r.aseq | _ => false

/-- T4 - T0 less the paused time exceeds one cycle (R306). -/
def State.alarmLate (s : State) (r : AlmRec) : Bool :=
  let hz : Nat := if s.sys.nominal60 then 60 else 50
  decide (((r.paused * hz + 1000000000) * 2 ^ 32 : Int) < gtDiff r.t4 r.t0 * 1000000000 * hz)

/-- The alarm block runs (R317): stopped, it takes no decision and no acknowledgement, and sends nothing. -/
def State.almRuns (s : State) : Bool := !s.flag F.ALM_STATUS.STOPPED

/-- A record's T4 and LATE are written, it is counted, and its notice is pushed (R305, R306, R316). -/
def State.recordNotice (s : State) (r : AlmRec) : State :=
  let s := r.counts.foldl State.bump s
  let late := s.sys.duty && s.alarmLate r
  let rflags := r.rflags + b2n late * 64
  let s := if late then (s.bump R.ALM_U_LATE).raise F.ALM_INT_STATUS.LATE else s
  let s := (s.wrBytes (r.addr + 0x22) (leBytes 2 rflags)).wrBytes (r.addr + 0x38) (leBytes 8 r.t4)
  let q := s.pushNotice (s.fld F.ALM_REC_QUEUE.QUEUE) 39
    (noticeEntry r.ttag r.setseq r.addr r.epoch r.grove 0 (rflags % 256))
  if q.2 = 0 then q.1.bump R.ALM_U_REC_NOTICES
  else (q.1.bump R.ALM_U_REC_NOTICE_REFUSED).raise F.ALM_INT_STATUS.NOTICE_REFUSED

/-- ALARM_RECORD_NOTICE (R305): the oldest record, once its T4 is known. -/
def execAlarmRecordNotice (dt : Nat) (s : State) : Out :=
  let s := s.elapse dt
  match s.alm.recs with
  | [] => .next s
  | r :: t =>
    if s.almRuns && s.t4Known r then .next ({ s with alm := { s.alm with recs := t } }.recordNotice r) else .next s

/-! ## Decisions (R298 to R304) -/

/-- A raise or a clear (R298). -/
def pointRule (status : Nat) (raise latch : Bool) : Nat :=
  let prov := status / 8 * 8
  let acked := bitOf status 2
  let latched := bitOf status 1
  if raise then
    if bitOf status 0 then status else prov + (if latch || latched then 2 else 0) + 1
  else if !bitOf status 0 then status
  else prov + b2n acked * 4 + (if acked then 0 else b2n latched * 2)

/-- Status without PROV. -/
def noProv (status : Nat) : Nat := status % 8

/-- The value of the provisional mark that a decision of a final batch on the point resolves: that of its own Grove and SETSEQ (R303). -/
def State.ownMark (s : State) (c : AlmCtx) (p : Nat) : Option Nat :=
  match (s.point p).mark with
  | some (g, q, v) => if s.tflag TF.ALM.Point.EN p && c.basis = 1 && g = c.grove && q = c.setseq then some v else none
  | none => none

/-- One decision of a batch that resolves no mark (R298, R318). -/
def State.decidePoint (s : State) (c : AlmCtx) (p : Nat) (value : Bool) : State :=
  let x := s.point p
  let new := pointRule x.status value (s.tflag TF.ALM.Point.LATCH p)
  if !s.tflag TF.ALM.Point.EN p || new = x.status then (s.bump R.ALM_U_DEC_APPLIED).bump R.ALM_U_NO_CHANGE
  else
    let counts := [R.ALM_U_DEC_APPLIED, R.ALM_U_CHANGES]
    if c.basis = 0 then s.alarmRecord c p (noProv new + 8) (some (c.grove, c.setseq, b2n value)) 0 counts
    else s.alarmRecord c p new x.mark 0 counts

/-- A mark is resolved (R303): `dec` holds the decisions, plus one, on the points whose own mark they resolve. -/
def State.resolvePoint (s : State) (c : AlmCtx) (dec : SMap Nat) (p : Nat) : State :=
  let x := s.point p
  let d := mget 0 dec p
  match s.ownMark c p with
  | some v =>
    if d = 0 then s.alarmRecord c p (noProv x.status) none 16 [R.ALM_U_RESOLUTIONS]
    else if v + 1 = d then
      s.alarmRecord c p (noProv x.status) none 4 [R.ALM_U_DEC_APPLIED, R.ALM_U_NO_CHANGE, R.ALM_U_RESOLUTIONS]
    else
      (s.raise F.ALM_INT_STATUS.REVERSED).alarmRecord c p (noProv (pointRule x.status (d = 2) (s.tflag TF.ALM.Point.LATCH p))) none 8
        [R.ALM_U_DEC_APPLIED, R.ALM_U_REVERSALS, R.ALM_U_RESOLUTIONS]
  | none => s.alarmRecord c p (noProv x.status) none 16 [R.ALM_U_RESOLUTIONS]

/-- Marks of a Grove that a final batch resolves, in ascending point order (R303). -/
def State.marksDue (s : State) (c : AlmCtx) : List Nat :=
  if c.basis = 1 then
    (s.alm.points.filter fun e => match e.2.mark with
      | some (g, q, _) => g = c.grove && decide (q ≤ c.setseq)
      | none => false).map (·.1)
  else []

/-- Context of a requester's batch (R300). -/
def State.batchCtx (s : State) (c : Nat) : AlmCtx :=
  let w := (s.banked c R.ALM_DEC_CTX).toNat
  let basis := bitsOf w 31 30
  let g := bitsOf w 29 24
  let seq := (s.banked c R.ALM_DEC_SEQ_LO).toNat + (s.banked c R.ALM_DEC_SEQ_HI).toNat * 2 ^ 32
  let a := s.setAddr g seq
  let have' := !(s.grove g).members.isEmpty && s.rdLe (a + 8) 8 = seq
  let ttag := if have' then s.rdLe a 8 else 0
  if basis < 2 && have' then
    { ttag := ttag, setseq := seq, grove := g, basis := basis, t0 := s.rdLe (a + (if basis = 0 then 0x50 else 0x60)) 8,
      t3 := s.gt, tq := s.rdLe (a + (if basis = 0 then 0x16 else 0x18)) 2, worst := s.rdLe (a + 0x1E) 1 }
  else
    { ttag := ttag, setseq := seq, grove := g, basis := basis
      t0 := if basis = 2 then (s.banked c R.ALM_DEC_T0_LO).toNat + (s.banked c R.ALM_DEC_T0_HI).toNat * 2 ^ 32 else s.gt
      t3 := s.gt, tq := s.tim.markTq, worst := 0 }

/-- A requester's batch is discarded (R302). -/
def State.abandonBatch (s : State) (c : Nat) : State :=
  (s.bumpBy R.ALM_U_DEC_ABANDONED (s.batch c).count).setBatch c batchIdle

/-- A decision joins its requester's batch (R299). -/
def State.addDecision (s : State) (c p : Nat) (value : Bool) : State :=
  let b := s.batch c
  (s.bump R.ALM_U_DECISIONS).setBatch c ⟨b.count + 1, mset 0 b.dec p (b2n value + 1)⟩

/-- A batch taken (R301, R303): refused whole, or its decisions applied in ascending point order, and then the marks it resolves. -/
def State.takeBatch (s : State) (b : AlmBatch) (x : AlmCtx) : State :=
  let key := x.grove * 4 + x.basis
  if x.setseq < mget 0 s.alm.lastSeq key then
    ((s.bumpBy R.ALM_U_DEC_REFUSED b.count).bump R.ALM_U_BATCH_REFUSED).raise F.ALM_INT_STATUS.ORDER
  else
    let s := { s with alm := { s.alm with lastSeq := mset 0 s.alm.lastSeq key (x.setseq + 1) } }
    let replaced := b.count - b.dec.length
    let s := (s.bumpBy R.ALM_U_DEC_APPLIED replaced).bumpBy R.ALM_U_NO_CHANGE replaced
    let own := b.dec.filter fun d => (s.ownMark x d.1).isSome
    let plain := b.dec.filter fun d => (s.ownMark x d.1).isNone
    let s := plain.foldl (fun s d => s.decidePoint x d.1 (d.2 = 2)) s
    ((s.marksDue x).foldl (fun s p => s.resolvePoint x own p) s).refreshOutputs

/-- An acknowledgement taken (R298, R304). -/
def State.takeAck (s : State) (p : Nat) : State :=
  let x := s.point p
  let active := bitOf x.status 0
  if x.status % 4 = 0 then s.bump R.ALM_U_ACK_IGNORED
  else
    let new := if active then putBits x.status 2 2 1 else putBits x.status 1 1 0
    if new = x.status then s
    else
      let c : AlmCtx := { ttag := s.tim.mark, setseq := 0, grove := x.grove, basis := 3, t0 := s.gt, t3 := s.gt,
                          tq := s.tim.markTq, worst := 0 }
      (s.alarmRecord c p new x.mark 32 [R.ALM_U_ACKS]).refreshOutputs

/-- What a stopped alarm block finds waiting is taken, in order, when it runs again (log 55). -/
def State.takeWaiting (s : State) : State :=
  let l := s.alm.waiting
  l.foldl (fun s w => match w with | .batch b x => s.takeBatch b x | .ack p => s.takeAck p)
    { s with alm := { s.alm with waiting := [] } }

/-- DONE closes the requester's batch (R299, R301): it is taken, or waits while the block is stopped. -/
def State.applyBatch (s : State) (c : Nat) : State :=
  let b := s.batch c
  let x := s.batchCtx c
  let s := s.setBatch c batchIdle
  if s.almRuns then s.takeBatch b x else { s with alm := { s.alm with waiting := s.alm.waiting ++ [.batch b x] } }

/-- An acknowledgement at its journal position (R304): it is taken, or waits while the block is stopped. -/
def State.ackPoint (s : State) (p : Nat) : State :=
  if s.almRuns then s.takeAck p else { s with alm := { s.alm with waiting := s.alm.waiting ++ [.ack p] } }

/-! ## Repeats, keepalives and MIN_ON_MS -/

/-- ALARM_REPEAT (R311): every copy due is sent while the outputs are driven. -/
def execAlarmRepeat (dt : Nat) (s : State) : Out :=
  let s := s.elapse dt
  let due := s.alm.repeats.filter fun r => decide (r.dueAt ≤ s.now)
  let rest := s.alm.repeats.filter fun r => !decide (r.dueAt ≤ s.now)
  let again := (due.filter fun r => decide (1 < r.left)).map fun r => { r with left := r.left - 1, dueAt := r.dueAt + 1200000 }
  let s : State := { s with alm := { s.alm with repeats := rest ++ again } }
  .next (if s.drive = .driven && s.almRuns then
      due.foldl (fun s r => (s.alarmSubmit r.port ⟨0, r.bytes, .plain⟩).bump R.ALM_U_FRAMES_SENT) s
    else s)

/-- A keepalive to one target. -/
def State.keepalive (s : State) (t : Nat) : State :=
  let i : AlmInfo :=
    { aseq := 0, ttag := 0, setseq := 0, epoch := s.epoch, t0 := 0, t3 := 0, point := 0xFFFF, grove := 0, cls := 0, state := 0,
      prev := 0, basis := 0, tq := 0, worst := 0 }
  (s.alarmSubmit (s.tf TF.ALM.Target.PORT t)
    ⟨0, s.targetFrame t (s.alarmPayload 1 0 (mget 0 s.alm.fseq t) i), .plain⟩).bump R.ALM_U_KEEPALIVES

/-- Every enabled target (R311). -/
def State.enabledTargets (s : State) : List Nat := (List.range 16).filter fun t => s.tflag TF.ALM.Target.EN t

/-- ALARM_KEEPALIVE (R311). -/
def execAlarmKeepalive (dt : Nat) (s : State) : Out :=
  let s := s.elapse dt
  if s.sys.duty && s.drive = .driven && s.flag F.ALM_CTRL.RUN
      && decide (s.alm.keepAt + s.fld F.ALM_KEEPALIVE.MS * 1200000 ≤ s.now) then
    let s := { s with alm := { s.alm with keepAt := s.now } }
    .next (s.enabledTargets.foldl (fun s t => s.keepalive t) s)
  else .next s

/-- MIN_ON_EXPIRE (R308). -/
def execMinOnExpire (dt : Nat) (s : State) : Out :=
  let s := s.elapse dt
  .next (if s.almRuns then s.refreshOutputs else s)

/-! ## The publisher (R314) -/

/-- Key of the q-th counter of a publish stream (R318). -/
def pubCnt (i q : Nat) : Nat := tblCntKey 0xB4 i q

/-- Address and length of a submission (log 26). -/
def pubPtr (e : Entry) : Nat := descField e 0 8
def pubLen (e : Entry) : Nat := descField e 8 4

/-- The frame agrees with its entry: SYNC of a data or configuration frame, FRAMESIZE and IDCODE. -/
def State.pubFormatOk (s : State) (i : Nat) (len : Nat) (l : List Byte) : Bool :=
  let type := bitsOf (beAt l 1 1) 6 4
  decide (16 ≤ len) && beAt l 0 1 = 0xAA && (type = 0 || type = 2 || type = 3 || type = 5) && beAt l 2 2 = len
    && beAt l 4 2 = s.tf TF.ALM.Publish.IDCODE i

/-- SOC and FRACSEC of a data frame as one number. -/
def frameInstant (l : List Byte) : Nat := beAt l 6 4 * 2 ^ 24 + beAt l 10 4 % 2 ^ 24

/-- A publisher check failed. -/
def State.pubRefused (s : State) (i q : Nat) : State := (s.bump (pubCnt i q)).raise F.ALM_INT_STATUS.PUB_REFUSED

/-- The publisher may send in this mode (R314 check 1). -/
def State.pubMode (s : State) : Bool := s.sys.duty || s.sys.mode = .commission || s.sys.mode = .test

/-- The shadow's hold of the last 32 data frames of a stream (R505). -/
def State.pubHold (s : State) (i inst : Nat) (e : Entry) : State :=
  let x := s.pub i
  s.setPub i { x with hold := (x.hold ++ [(inst, e)]).drop (x.hold.length + 1 - 32) }

/-- One submitted frame (R314). -/
def State.publish (s : State) (i : Nat) (e : Entry) : State :=
  let s := s.bump (pubCnt i 0)
  let addr := pubPtr e
  let len := pubLen e
  let l := s.rdBytes addr (len % 65536)
  let data := bitsOf (beAt l 1 1) 6 4 = 0
  let inst := frameInstant l
  if !s.pubMode then
    let s := s.pubRefused i 3
    if s.sys.mode = .shadow && data && s.pubFormatOk i len l then s.pubHold i inst e else s
  else if !s.pubFormatOk i len l then s.pubRefused i 4
  else if data && decide (inst < (s.pub i).last) then s.pubRefused i 5
  else
    let s := if data then s.setPub i { s.pub i with last := inst + 1 } else s
    let body := l.take (len - 2)
    let frame := body ++ beBytes 2 (crcCcitt body)
    let s := if data then s.outputMark true i inst else s
    if s.tflag TF.ALM.Publish.TRANSPORT i then
      ((s.wrBytes addr frame).push (s.tf TF.ALM.Publish.RETURN_QUEUE i) 39 e false false).1.bump (pubCnt i 2)
    else
      let t := s.tf TF.ALM.Publish.TARGET i
      let s := if s.tflag TF.ALM.Target.EN t then s.txSubmit (s.tf TF.ALM.Target.PORT t) ⟨4, s.targetFrame t frame, .plain⟩ else s
      s.bump (pubCnt i 1)

/-- PUBLISH_FRAME (R314): the head of a stream's submission queue is taken. -/
def execPublishFrame (i : BitVec 5) (dt : Nat) (s : State) : Out :=
  let s := s.elapse dt
  let i := i.toNat
  if s.tflag TF.ALM.Publish.EN i && s.flag F.ALM_CTRL.RUN then
    let r := s.pop (s.tf TF.ALM.Publish.QUEUE i) 39
    match r.2.2 with
    | some e => .next (if e.marker then r.1 else r.1.publish i e.data)
    | none => .next r.1
  else .next s

/-! ## Mode changes and takeover -/

/-- The held alarm frames above the marks are sent, and the held data frames are submitted again (R506). -/
def State.sendHeld (s : State) : State :=
  let fr := s.alm.held
  let s := { s with alm := { s.alm with held := [] } }
  let s := fr.foldl (fun s f =>
    ((s.alarmSubmit f.2.2.1 ⟨0, f.2.2.2, .plain⟩).bump R.ALM_U_FRAMES_SENT).addRepeats f.1 f.2.2.1 f.2.2.2) s
  (List.range 32).foldl (fun s i =>
    let x := s.pub i
    let s := s.setPub i { x with hold := [] }
    x.hold.foldl (fun s h => if x.last ≤ h.1 then s.publish i h.2 else s) s) s

/-- Duty is taken or given up: keepalives count from here (R311). -/
def State.setDuty (s : State) (on : Bool) : State :=
  if s.sys.duty = on then s
  else { s with sys := { s.sys with duty := on }, alm := { s.alm with keepAt := s.now } }

/-- STATUS word of a point entry (R318). -/
def State.pointWord1 (s : State) (p : Nat) : Nat := (s.point p).status * 2 ^ 28

end Sys2Proof.Machine
end

