-- ==== Sys2Proof/Machine/Capture.lean ====
section
/-!
DEFINITION. The Capture Engine (chapter 11): signals, conditions, sequencers, capture segments, the record ring, gaps and
notices.
-/

namespace Sys2Proof.Machine

/-! ## Entries -/

/-- A sequencer at rest. -/
def capIdle : CapSeq :=
  { phase := 0, state := 0, count := 0, timer := 0, pend := false, prev := [], pre := [], first := none, hold := 0, cap := none, seen := none,
    early := [], prevLast := none }

/-- A sequencer. -/
def State.capSeq (s : State) (k : Nat) : CapSeq := mget capIdle s.cap.seqs k
def State.setCapSeq (s : State) (k : Nat) (x : CapSeq) : State :=
  { s with cap := { s.cap with seqs := mset capIdle s.cap.seqs k x } }

/-- A LEVEL word as notice `no` takes it (R323). -/
def State.capLevel (s : State) (no i : Nat) : Nat :=
  match s.cap.old.find? fun x => decide (no < x.1) && x.2.1 = tblKey T.CAP.Condition i 1 with
  | some x => x.2.2.toNat
  | none => s.tf TF.CAP.Condition.LEVEL i

/-- Key of the q-th counter of a sequencer (R344). -/
def capCnt (k q : Nat) : Nat := tblCntKey 0xC4 k q

/-! ## Signals and conditions (R322, R323) -/

/-- A signal in a view: KIND of its channel and the two words, or none. -/
def State.capSignal (s : State) (final : Bool) (g addr k sig : Nat) : Option (Nat × Nat × Nat) :=
  let i := 64 * k + sig
  let st := s.tf TF.CAP.Signal.STREAM i
  let ch := s.tf TF.CAP.Signal.CH i
  (s.viewChan final g addr st ch [0, 1, 2, 3, 4]).map fun v =>
    (s.tf TF.ING.ChannelMap.KIND (s.dir st TF.ING.Directory.CHMAP_BASE + ch), v.1, v.2)

/-- The value compared (R322). -/
def compared (v : Nat × Nat × Nat) : Nat :=
  match v.1 with
  | 0 => (fhypot f32 v.2.1 v.2.2).bits
  | 4 => v.2.1 % 65536
  | _ => v.2.1

/-- The signal's slot is placed in the view and its quality word has TRIGGER set. -/
def State.sourceTrigger (s : State) (final : Bool) (g addr k sig : Nat) : Bool :=
  match memberOf (s.tf TF.CAP.Signal.STREAM (64 * k + sig)) (s.grove g).members 0 with
  | none => false
  | some (_, m) =>
    let fl := s.rdLe (addr + m.off + 0x1A) 1
    !s.slotPoisoned addr m && bitOf fl 0 && (final || !bitOf fl 1) && bitOf (s.rdLe (addr + m.off + 0x18) 2) 11

/-- Condition `n` of a sequencer at a step, with the value it keeps for the next one plus one. -/
def State.condition (s : State) (no : Nat) (final : Bool) (g addr k n : Nat) : Bool × Nat :=
  let i := 8 * k + n
  let sig := s.tf TF.CAP.Condition.SIG i
  let level := s.capLevel no i
  let v := s.capSignal final g addr k sig
  let digital := match v with | some x => x.1 = 4 | none => false
  let cur := v.map compared
  let prev := (s.capSeq k).prev.getD n 0
  let hit := match s.tf TF.CAP.Condition.KIND i with
    | 1 => !digital && (match cur with | some x => fle f32 level x | none => false)
    | 2 => !digital && (match cur with | some x => fle f32 x level | none => false)
    | 3 => !digital && (match cur, prev with
        | some x, p + 1 => fle f32 level (fabs32 (fsub f32 x p).bits)
        | _, _ => false)
    | 4 => cur.isNone
    | 5 => s.sourceTrigger final g addr k sig
    | 6 => (s.capSeq k).pend
    | 7 => digital && (match cur, prev with
        | some x, p + 1 => decide (((x ^^^ p) &&& (level % 65536)) ≠ 0)
        | _, _ => false)
    | _ => false
  (hit, match cur with | some x => x + 1 | none => 0)

/-- A step of a sequencer (R325): the state that triggered, if one did. -/
def State.capStep (s : State) (no : Nat) (final : Bool) (g addr k : Nat) : State × Option Nat :=
  let x := s.capSeq k
  let c := (List.range 8).map (s.condition no final g addr k)
  let used := (List.range 8).any fun n => s.tf TF.CAP.Condition.KIND (8 * k + n) = 6
  let i := 8 * k + x.state
  let mask := s.tf TF.CAP.SeqState.MASK i
  let masked := (List.range 8).filter fun n => bitOf mask n
  let hit (n : Nat) : Bool := (c.getD n (false, 0)).1
  let all := s.tflag TF.CAP.SeqState.ALL i
  let matched := mask = 0 || (if all then masked.all hit else masked.any hit)
  let timer := x.timer + 1
  let count := if matched then x.count + 1 else x.count
  let x : CapSeq := { x with prev := c.map (·.2), pend := x.pend && !used }
  let enter (st : Nat) : CapSeq := { x with state := st, count := 0, timer := 0 }
  if matched && decide (s.tf TF.CAP.SeqState.COUNT_N i ≤ count) then
    if s.tflag TF.CAP.SeqState.TRIG i then (s.setCapSeq k (enter 0), some x.state)
    else (s.setCapSeq k (enter (s.tf TF.CAP.SeqState.NEXT i)), none)
  else
    let t := s.tf TF.CAP.SeqState.TIMEOUT i
    if t != 0 && decide (t ≤ timer) then (s.setCapSeq k (enter (s.tf TF.CAP.SeqState.NEXT_TO i)), none)
    else (s.setCapSeq k { x with count := count, timer := timer }, none)

/-! ## The record ring (R332, R333, R338) -/

/-- Size of the ring, bytes ever written, and bytes released. -/
def State.capSize (s : State) : Nat := max 1 (s.fld F.CAP_RING_SIZE.N) * 65536
def State.capWritten (s : State) : Nat := (s.cnt R.CAP_WRITE).toNat
def State.capReleased (s : State) : Nat := (s.reg R.CAP_RELEASE_LO).toNat + (s.reg R.CAP_RELEASE_HI).toNat * 2 ^ 32

/-- Bytes to the end of the ring when a record of `len` bytes would cross it. -/
def State.capPad (s : State) (len : Nat) : Nat :=
  let o := s.capWritten % s.capSize
  if s.capSize < o + len then s.capSize - o else 0

/-- CAP_WRITE when records of the lengths given have followed offset `w`, with the pad records before them. -/
def State.capAfter (s : State) (w : Nat) : List Nat → Nat
  | [] => w
  | len :: t =>
    let o := w % s.capSize
    s.capAfter (w + (if s.capSize < o + len then s.capSize - o else 0) + len) t

/-- A sample or average record fits behind the gap records that go before it (R333). -/
def State.capFits (s : State) (gaps len : Nat) : Bool :=
  decide (s.capAfter s.capWritten (List.replicate gaps 64 ++ [len]) + 65536 ≤ s.capReleased + s.capSize)

/-- CAP_STATUS (R344). -/
def State.capStatus (s : State) : Nat :=
  s.gld.capWait.length * 65536 + b2n (!s.capFits 0 64) * 2 + b2n (s.flag F.CAP_STATUS.STOPPED)

/-- Bytes at the next place of the ring. -/
def State.capAppend (s : State) (l : List Byte) : State :=
  let a := s.ringBase R.CAP_RING_BASE_LO R.CAP_RING_BASE_HI + s.capWritten % s.capSize
  (s.wrBytes a l)

/-- A record written, after a pad record when it would cross the end; the answer holds its address. -/
def State.capPut (s : State) (l : List Byte) : State × Nat :=
  let pad := s.capPad l.length
  let s := if pad = 0 then s
    else (s.capAppend (leBytes 4 pad ++ leBytes 1 5 ++ List.replicate 27 0)).setCnt R.CAP_WRITE (w64 (s.capWritten + pad))
  let a := s.ringBase R.CAP_RING_BASE_LO R.CAP_RING_BASE_HI + s.capWritten % s.capSize
  ((s.capAppend l).setCnt R.CAP_WRITE (w64 (s.capWritten + l.length)), a)

/-- The 32-byte header (R338). -/
def capHeader (len type k flags : Nat) (c : Capture) (seq : Nat) : List Byte :=
  leBytes 4 len ++ leBytes 1 type ++ leBytes 1 k ++ leBytes 2 flags ++ leBytes 8 c.id ++ leBytes 8 seq ++ leBytes 4 c.epoch
    ++ leBytes 4 c.recSeq

/-- A record made up to `len` bytes. -/
def fillTo (len : Nat) (l : List Byte) : List Byte := l ++ List.replicate (len - l.length) 0

/-- A record of a capture is written: REC_SEQ and RECORDS advance. -/
def State.capRecord (s : State) (k : Nat) (c : Capture) (l : List Byte) : State × Capture × Nat :=
  let r := s.capPut l
  let c := { c with recSeq := c.recSeq + 1, records := c.records + 1 }
  (r.1.setCapSeq k { r.1.capSeq k with cap := some c }, c, r.2)

/-- A capture of a sequencer stored. -/
def State.setCapture (s : State) (k : Nat) (c : Capture) : State := s.setCapSeq k { s.capSeq k with cap := some c }

/-! ## Gaps (R334, R341) -/

/-- A gap in its place in SETSEQ order among those not yet written; consecutive Sets with one cause share a record. -/
def placeGap : List (Nat × Nat × Nat) → Nat × Nat × Nat → List (Nat × Nat × Nat)
  | [], g => [g]
  | h :: t, g =>
    if h.1 = g.1 && h.2.1 + h.2.2 = g.2.1 then (h.1, h.2.1, h.2.2 + g.2.2) :: t
    else if g.2.1 < h.2.1 then g :: h :: t
    else h :: placeGap t g

/-- Gap records, one after another. -/
def State.writeGaps (s : State) (k : Nat) (c : Capture) : List (Nat × Nat × Nat) → State × Capture
  | [] => (s, c)
  | g :: t =>
    let r := s.capRecord k c
      (fillTo 64 (capHeader 64 3 k (b2n (g.1 = 1) * 8) c g.2.1 ++ leBytes 8 g.2.2 ++ leBytes 1 g.1))
    r.1.writeGaps k r.2.1 t

/-- The gaps that begin before Set `seq` go out. -/
def State.flushGaps (s : State) (k : Nat) (c : Capture) (seq : Nat) : State × Capture :=
  s.writeGaps k { c with gaps := c.gaps.filter fun g => decide (seq ≤ g.2.1) } (c.gaps.filter fun g => decide (g.2.1 < seq))

/-- Gaps of cause 0 are written in their place before later records; those inside an interval follow its average record. -/
def State.settleGaps (s : State) (k : Nat) (c : Capture) : State × Capture :=
  if c.avg.isSome then (s, c)
  else s.flushGaps k c ((c.gaps.filter fun g => g.1 = 0).foldl (fun m g => max m (g.2.1 + 1)) 0)

/-- A gap of a capture begins or grows: its Sets count in GAPPED, and a new one of cause 1 sets BUFFER_FULL. -/
def State.addGap (k : Nat) (r : State × Capture) (g : Nat × Nat × Nat) : State × Capture :=
  let gaps := placeGap r.2.gaps g
  let c := { r.2 with gapped := r.2.gapped + g.2.2, gaps := gaps }
  let s := r.1.bumpBy (capCnt k 9) g.2.2
  let s := if g.1 = 1 && decide (r.2.gaps.length < gaps.length) then s.raise F.CAP_INT_STATUS.BUFFER_FULL else s
  (s.setCapture k c, c)

/-! ## Sample and average records (R330, R340) -/

/-- Length rounded up to 64 bytes. -/
def up64 (n : Nat) : Nat := (n + 63) / 64 * 64

/-- The body of a sample or average record. -/
def sampleBody (ttag present tq worst sflags nSets : Nat) (vals : List (Nat × Nat)) : List Byte :=
  leBytes 8 ttag ++ leBytes 8 present ++ leBytes 2 tq ++ leBytes 1 worst ++ leBytes 1 sflags ++ leBytes 4 nSets ++ leBytes 8 0
    ++ vals.flatMap fun v => leBytes 4 v.1 ++ leBytes 4 v.2

/-- A record that may be turned away for want of room: the gaps before it go first (R334). The answer tells that it was
written. -/
def State.capTry (s : State) (k : Nat) (c : Capture) (seq len : Nat) (mk : Capture → List Byte) : State × Capture × Bool :=
  if s.capFits (c.gaps.filter fun g => decide (g.2.1 < seq)).length len then
    let f := s.flushGaps k c seq
    let r := f.1.capRecord k f.2 (mk f.2)
    (r.1, r.2.1, true)
  else (s, c, false)

/-- A sample record of a Set. -/
def State.putSample (s : State) (k : Nat) (c : Capture) (x : CapSamp) (pre trig : Bool) : State × Capture :=
  let f := (s.bump (capCnt k 6)).settleGaps k c
  let len := up64 (64 + 8 * x.vals.length)
  let sfl := b2n x.void * 4 + b2n trig * 2 + b2n pre
  let r := f.1.capTry k f.2 x.seq len fun c =>
    fillTo len (capHeader len 1 k 0 c x.seq ++ sampleBody x.ttag x.present x.tq x.worst sfl 1 x.vals)
  if r.2.2 then
    let c := { r.2.1 with samples := r.2.1.samples + 1 }
    ((r.1.bump (capCnt k 7)).setCapture k c, c)
  else State.addGap k (r.1, r.2.1) (1, x.seq, 1)

/-- A Set of a capture is missing (cause 0). -/
def State.putMissing (s : State) (k : Nat) (c : Capture) (seq : Nat) : State × Capture :=
  State.addGap k (s.bump (capCnt k 6), c) (0, seq, 1)

/-- The quotient of a binary64 by a count, rounded once to binary32. -/
def mean32 (sum n : Nat) : Nat :=
  match fdec f64 sum with
  | .fin neg m e => (froundTo f32 neg (m * 2 ^ 64 / n) (e - 64) (m * 2 ^ 64 % n != 0)).bits
  | .inf neg => finf f32 neg
  | .nan _ => fnan f32 0 0

/-- Signal `k` of an interval takes a value. -/
def avgAdd (kind : Nat) (sum v : Nat × Nat) : Nat × Nat :=
  if kind = 4 then (sum.1 ||| v.1, 0)
  else ((fadd f64 sum.1 (f32to64 v.1)).bits, if kind = 0 then (fadd f64 sum.2 (f32to64 v.2)).bits else 0)

/-- KIND of a sequencer's signal by the Channel Map. -/
def State.sigKind (s : State) (k i : Nat) : Nat :=
  s.tf TF.ING.ChannelMap.KIND (s.dir (s.tf TF.CAP.Signal.STREAM (64 * k + i)) TF.ING.Directory.CHMAP_BASE
    + s.tf TF.CAP.Signal.CH (64 * k + i))

/-- An interval takes a Set's sample. -/
def State.avgTake (s : State) (k : Nat) (a : Option CapAvg) (x : CapSamp) : CapAvg :=
  let n := x.vals.length
  let a := a.getD { start := x.seq, ttag := x.ttag, n := 0, sums := List.replicate n (0, 0), counts := List.replicate n 0,
                    worst := 0, tq := 0, runs := [] }
  let on (i : Nat) : Bool := bitOf x.present i
  { a with
    n := a.n + 1, worst := max a.worst x.worst, tq := x.tq, runs := placeGap a.runs (1, x.seq, 1)
    sums := (List.range n).map fun i =>
      if on i then avgAdd (s.sigKind k i) (a.sums.getD i (0, 0)) (x.vals.getD i (0, 0)) else a.sums.getD i (0, 0)
    counts := (List.range n).map fun i => a.counts.getD i 0 + b2n (on i) }

/-- The Sets of a lost interval leave AVERAGED, which counted them as they were taken (R343, log 57). -/
def State.unaverage (s : State) (k n : Nat) : State := s.setCnt (capCnt k 8) (w64 ((s.cnt (capCnt k 8)).toNat - n))

/-- An interval ends: its average record, or gaps of cause 1 over its Sets. -/
def State.putAverage (s : State) (k : Nat) (c : Capture) : State × Capture :=
  match c.avg with
  | none => (s, c)
  | some a =>
    let n := a.sums.length
    let len := up64 (64 + 8 * n + up64 n)
    let vals := (List.range n).map fun i =>
      let cnt := a.counts.getD i 0
      let sum := a.sums.getD i (0, 0)
      if cnt = 0 then (0, 0) else if s.sigKind k i = 4 then sum
      else (mean32 sum.1 cnt, if s.sigKind k i = 0 then mean32 sum.2 cnt else 0)
    let present := (List.range n).foldl (fun m i => m + b2n (a.counts.getD i 0 != 0) * 2 ^ i) 0
    let c := { c with avg := none }
    let r := s.capTry k c a.start len fun c =>
      fillTo len (capHeader len 2 k 0 c a.start ++ sampleBody a.ttag present a.tq a.worst 0 a.n vals
        ++ a.counts.flatMap fun x => leBytes 1 x)
    if r.2.2 then (r.1.setCapture k r.2.1, r.2.1)
    else a.runs.foldl (State.addGap k) (r.1.unaverage k a.n, r.2.1)

/-! ## Opening, covering and closing (R327 to R331, R339, R341, R342) -/

/-- A notice of the engine to CAP_QUEUE. -/
def State.capNotice (s : State) (c : Capture) (g addr kind flags : Nat) : State :=
  let r := s.pushNotice (s.fld F.CAP_QUEUE.QUEUE) 40 (noticeEntry c.ttag c.trig addr c.epoch g kind flags)
  if r.2 = 0 then r.1.bump R.CAP_U_NOTICES_PUSHED
  else (r.1.bump R.CAP_U_NOTICE_REFUSED).raise F.CAP_INT_STATUS.NOTICE_REFUSED

/-- Last Set of a capture's last segment. -/
def State.capEnd (s : State) (k : Nat) (c : Capture) : Nat :=
  c.last + s.tf TF.CAP.Sequencer.POST_AVG k * s.tf TF.CAP.Sequencer.AVG_N k

/-- A program trigger pending on a sequencer that does not step is cleared and counted (R324). -/
def State.capDropFlag (s : State) (k : Nat) : State :=
  let x := s.capSeq k
  if x.pend && !(x.phase = 1 || (x.phase = 2 && s.tflag TF.CAP.Sequencer.RETRIG k)) then
    (s.setCapSeq k { x with pend := false }).bump (capCnt k 2)
  else s

/-- A capture closes (R331, R341): its interval and gap go out first, then the close record and its notice. -/
def State.capClose (s : State) (k : Nat) (cause : Nat) : State :=
  match (s.capSeq k).cap with
  | none => s
  | some c =>
    let a := s.putAverage k c
    let f := a.1.flushGaps k a.2 a.2.next
    let c := f.2
    let g := s.tf TF.CAP.Sequencer.GROVE k
    let body (recs smp gap : Nat) : List Byte :=
      capHeader 192 4 k 0 c c.trig ++ leBytes 8 (c.next - 1) ++ leBytes 1 cause ++ leBytes 1 c.triggers.length
        ++ leBytes 2 (min 65535 c.extra) ++ leBytes 4 recs ++ leBytes 8 smp ++ leBytes 8 gap
        ++ c.triggers.flatMap (leBytes 8)
    let r := f.1.capRecord k c (fillTo 192 (body (c.records + 1) c.samples c.gapped))
    let s := ((r.1.bump R.CAP_U_CLOSES).bump (capCnt k 4)).raise F.CAP_INT_STATUS.CLOSE
    let s := s.digest 4 k (c.id * 2 + 1) (fillTo 192 (body 0 0 0))
    let s := s.capNotice c g r.2.2 1 0
    let hold := s.tf TF.CAP.Sequencer.HOLDOFF k
    let x := s.capSeq k
    let empty := cause = 2 || cause = 3
    (s.setCapSeq k { x with
      cap := none, prevLast := some (c.next - 1), state := 0, count := 0, timer := 0
      phase := if hold = 0 then 1 else 3, hold := hold
      pre := if empty then [] else x.pre, first := if empty then none else x.first }).capDropFlag k

/-- A Set of a capture is covered: by a sample or an average, or as missing (R327, R330, R334). -/
def State.capCover (s : State) (k seq : Nat) (x : Option CapSamp) (trig : Bool) : State :=
  match (s.capSeq k).cap with
  | none => s
  | some c =>
    if seq != c.next then s
    else
      let c := { c with next := seq + 1 }
      let r : State × Capture :=
        match x with
        | none => s.putMissing k c seq
        | some y =>
          if seq ≤ c.last then s.putSample k c y false trig
          else
            let f := ((s.bump (capCnt k 6)).bump (capCnt k 8)).settleGaps k c
            let c := { f.2 with avg := some (f.1.avgTake k f.2.avg y) }
            (f.1.setCapture k c, c)
      let n := max 1 (s.tf TF.CAP.Sequencer.AVG_N k)
      let r := if c.last < seq && (seq - c.last) % n = 0 then r.1.putAverage k r.2 else r
      if s.capEnd k c ≤ seq then r.1.capClose k 0 else r.1

/-- A final Set of the holdoff passes; after the last the sequencer is Armed at S0 (R326). -/
def State.capHold (s : State) (k : Nat) : State :=
  let x := s.capSeq k
  s.setCapSeq k (if x.hold ≤ 1 then { x with phase := 1, state := 0, count := 0, timer := 0, hold := 0 }
    else { x with hold := x.hold - 1 })

/-- Missing Sets from `seq` on, `n` of them: each is covered as missing, or passes in the holdoff. -/
def State.capMissing (s : State) (k seq : Nat) : Nat → State
  | 0 => s
  | n + 1 =>
    (if (s.capSeq k).phase = 3 then s.capHold k else s.capCover k seq none false).capMissing k (seq + 1) n

/-- The pre segment from the ring (R328, R334): Sets from the first since the ring was emptied, or T - PRE, to the one before
the trigger. -/
def State.capPre (s : State) (k : Nat) (c : Capture) (held : List CapSamp) (seq : Nat) : Nat → State × Capture
  | 0 => (s, c)
  | n + 1 =>
    let r := match held.find? fun x => x.seq = seq with
      | some x => s.putSample k c x true false
      | none => s.putMissing k c seq
    r.1.capPre k r.2 held (seq + 1) n

/-- A capture opens on Set `t` (R327, R328, R339). -/
def State.capOpen (s : State) (k g t ttag epoch state : Nat) (early fresh : Bool) : State :=
  let x := s.capSeq k
  let pre := s.tf TF.CAP.Sequencer.PRE k
  let held := if fresh then [] else x.pre.filter fun y => decide (t ≤ y.seq + pre) && decide (y.seq < t)
  let first := if fresh then t else match x.first with | some f => min t (max f (t - pre)) | none => t
  let overlap := match x.prevLast with | some q => held.any fun y => decide (y.seq ≤ q) | none => false
  let c : Capture :=
    { id := s.cap.nextId, trig := t, ttag := ttag, last := t + s.tf TF.CAP.Sequencer.POST_FULL k, epoch := epoch, recSeq := 0,
      next := t, triggers := [t], extra := 0, records := 0, samples := 0, gapped := 0, gaps := [], avg := none }
  let flags := b2n (s.sys.mode = .test) * 16 + b2n overlap * 4 + b2n (decide (held.length < pre)) * 2 + b2n early
  let sig (i : Nat) : Nat := if i < s.tf TF.CAP.Sequencer.N_SIG k then (s.tword T.CAP.Signal (64 * k + i) 0).toNat else 0
  let body (tw : Nat) : List Byte :=
    capHeader 320 0 k flags c t ++ leBytes 8 ttag ++ leBytes 8 tw ++ leBytes 1 g ++ leBytes 1 (s.tf TF.CAP.Sequencer.N_SIG k)
      ++ leBytes 2 held.length ++ leBytes 2 pre ++ leBytes 2 (s.tf TF.CAP.Sequencer.POST_FULL k)
      ++ leBytes 2 (s.tf TF.CAP.Sequencer.POST_AVG k) ++ leBytes 1 (s.tf TF.CAP.Sequencer.AVG_N k) ++ leBytes 1 state
      ++ leBytes 4 0 ++ (List.range 64).flatMap fun i => leBytes 4 (sig i)
  let s := { s with cap := { s.cap with nextId := s.cap.nextId + 1 } }
  let s := ((s.bump (capCnt k 0)).bump (capCnt k 3)).setCapSeq k { x with phase := 2, cap := some c }
  let r := s.capRecord k c (body s.gt)
  let s := ((r.1.bump R.CAP_U_OPENS).raise F.CAP_INT_STATUS.OPEN).digest 4 k (c.id * 2) (body 0)
  let s := s.capNotice c g r.2.2 0 flags
  let p := s.capPre k r.2.1 held first (t - first)
  (p.1.setCapture k p.2).capDropFlag k

/-- A further trigger while Capturing (R329). -/
def State.capRetrigger (s : State) (k t : Nat) : State :=
  match (s.capSeq k).cap with
  | none => s
  | some c =>
    if c.last < t then s.bump (capCnt k 2)
    else
      let s := (s.bump (capCnt k 0)).bump (capCnt k 1)
      s.setCapture k { c with
        last := min (max c.last (t + s.tf TF.CAP.Sequencer.POST_FULL k)) (c.trig + s.tf TF.CAP.Sequencer.POST_MAX k - 1)
        triggers := if c.triggers.length < 16 then c.triggers ++ [t] else c.triggers
        extra := if c.triggers.length < 16 then c.extra else c.extra + 1 }

/-- The sequencer steps in its phase (R326). -/
def State.capSteps (s : State) (k : Nat) : Bool :=
  let x := s.capSeq k
  x.phase = 1 || (x.phase = 2 && s.tflag TF.CAP.Sequencer.RETRIG k)

/-- The Set of a notice breaks with the Sets before it: FIRST, RESTART, or an EPOCH other than `epoch` (R331). -/
def breaks (e : Entry) (epoch : Nat) : Bool :=
  bitOf (noticeFlags e) 4 || bitOf (noticeFlags e) 5 || descField e 0x18 4 != epoch

/-- The EPOCH of the last final notice at a sequencer, that of the notice itself where it has seen none. -/
def CapSeq.epochSeen (x : CapSeq) (e : Entry) : Nat :=
  match x.seen with | some (_, p) => p | none => descField e 0x18 4

/-- An open capture that a Set breaks with closes first (R331), unless that Set is its own trigger. -/
def State.capBreak (s : State) (k : Nat) (e : Entry) : State :=
  match (s.capSeq k).cap with
  | some c => if breaks e c.epoch && c.trig != noticeSeq e then s.capClose k 2 else s
  | none => s

/-- A step and what its trigger does; the flag tells that the Set triggered. A trigger whose Set broke with the open capture
into a holdoff is counted in TRIG_IGNORED (R329, R331). -/
def State.capStepped (s : State) (no : Nat) (final : Bool) (k : Nat) (e : Entry) : State × Bool :=
  if !s.capSteps k then (s, false)
  else
    let g := noticeGrove e
    let t := noticeSeq e
    let fresh := breaks e ((s.capSeq k).epochSeen e)
    let r := s.capStep no final g (noticeAddr e) k
    match r.2 with
    | none => (r.1, false)
    | some st =>
      let q := r.1.capBreak k e
      match (q.capSeq k).cap with
      | some c => (q.capRetrigger k t, decide (t ≤ c.last))
      | none =>
        if (q.capSeq k).phase = 1 then
          (q.capOpen k g t (noticeTtag e) (descField e 0x18 4) st (!final) fresh, true)
        else (q.bump (capCnt k 2), false)

/-! ## Notices (R320, R321, R328) -/

/-- The sample a final notice gives a sequencer. -/
def State.capSample (s : State) (k : Nat) (e : Entry) : CapSamp :=
  let addr := noticeAddr e
  let v := (List.range (s.tf TF.CAP.Sequencer.N_SIG k)).map (s.capSignal true (noticeGrove e) addr k)
  { seq := noticeSeq e, ttag := noticeTtag e, tq := s.rdLe (addr + 0x18) 2, worst := s.rdLe (addr + 0x1E) 1
    void := bitsOf (noticeFlags e) 2 1 = 3
    present := (List.zip (List.range v.length) v).foldl (fun m x => m + b2n x.2.isSome * 2 ^ x.1) 0
    vals := v.map fun x => match x with | some y => (y.2.1, if y.1 = 0 then y.2.2 else 0) | none => (0, 0) }

/-- A provisional notice at a sequencer (R321). -/
def State.capProv (s : State) (no k : Nat) (e : Entry) : State :=
  if s.tflag TF.CAP.Sequencer.EARLY k && s.capSteps k then
    let r := s.capStepped no false k e
    r.1.setCapSeq k { r.1.capSeq k with early := (r.1.capSeq k).early ++ [(noticeSeq e, r.2)] }
  else s

/-- A Set enters the pre ring, which holds the Sets of the last PRE numbers (R328). -/
def CapSeq.hold1 (x : CapSeq) (pre epoch : Nat) (smp : CapSamp) : CapSeq :=
  { x with
    pre := (x.pre ++ [smp]).filter fun y => decide (smp.seq < y.seq + pre)
    first := some (x.first.getD smp.seq), seen := some (smp.seq, epoch)
    early := x.early.filter fun y => decide (smp.seq < y.1) }

/-- A final notice at a sequencer: discontinuities, missing Sets, the step, the capture, the pre ring, the holdoff. The step of
an EARLY sequencer on a Set that was released provisionally belongs to the provisional notice. -/
def State.capFinal (s : State) (no k : Nat) (e : Entry) : State :=
  let seq := noticeSeq e
  let x := s.capSeq k
  let broken := breaks e (x.epochSeen e)
  let s := s.capBreak k e
  let s := if broken then s.setCapSeq k { s.capSeq k with pre := [], first := none, prevLast := none } else s
  let s := match x.seen with
    | some (q, _) => if broken then s else s.capMissing k (q + 1) (seq - q - 1)
    | none => s
  let held := (s.capSeq k).phase = 3
  let r : State × Bool :=
    if bitOf (noticeFlags e) 0 && s.tflag TF.CAP.Sequencer.EARLY k then
      (s, (s.capSeq k).early.any fun y => y.1 = seq && y.2)
    else s.capStepped no true k e
  let smp := r.1.capSample k e
  let s := r.1.capCover k seq (some smp) r.2
  let s := s.setCapSeq k ((s.capSeq k).hold1 (s.tf TF.CAP.Sequencer.PRE k) (descField e 0x18 4) smp)
  if held then s.capHold k else s

/-- The notice at every enabled sequencer of its Grove. -/
def State.capAll (s : State) (no : Nat) (e : Entry) : List Nat → State
  | [] => s
  | k :: t =>
    let s := if s.tf TF.CAP.Sequencer.GROVE k = noticeGrove e then
        (if noticeKind e = 1 then s.capFinal no k e else s.capProv no k e) else s
    s.capAll no e t

/-- The engine runs. -/
def State.capRuns (s : State) : Bool := s.flag F.CAP_CTRL.RUN && !s.flag F.CAP_STATUS.STOPPED && s.detects

/-! ## Program triggers (R324) -/

/-- A program trigger sets the pending flags its mask names; on a sequencer that does not step it is counted instead. -/
def State.capFlags (s : State) (mask : Nat) : State :=
  (List.range 16).foldl (fun s k =>
    if bitOf mask k then
      if s.tflag TF.CAP.Sequencer.ENABLE k && s.capSteps k then s.setCapSeq k { s.capSeq k with pend := true }
      else s.bump (capCnt k 2)
    else s) s

/-- A program trigger at its journal position: at once, or behind the notices that wait (R324, R335). -/
def State.capTrigger (s : State) (mask : Nat) : State :=
  if s.gld.capWait.isEmpty then s.capFlags mask
  else { s with cap := { s.cap with trigs := s.cap.trigs ++ [(s.cap.taken + s.gld.capWait.length, mask)] } }

/-- The program triggers whose position is reached act. -/
def State.capDueTrigs (s : State) : State :=
  let due (x : Nat × Nat) : Bool := decide (x.1 ≤ s.cap.taken)
  (s.cap.trigs.filter due).foldl (fun s x => s.capFlags x.2)
    { s with cap := { s.cap with trigs := s.cap.trigs.filter fun x => !due x } }

/-- CAPTURE_NOTICE (R320). -/
def execCaptureNotice (dt : Nat) (s : State) : Out :=
  let s := s.elapse dt
  match s.gld.capWait with
  | [] => .next s
  | e :: rest =>
    if s.capRuns then
      let no := s.cap.taken
      let s : State := { (s.engineReads (noticeGrove e) (noticeAddr e)).bump R.CAP_U_PROCESSED with gld := { s.gld with capWait := rest } }
      let s := s.capAll no e (s.validEntries T.CAP.Sequencer 0)
      let s : State := { s with cap := { s.cap with taken := no + 1, old := s.cap.old.filter fun x => decide (no + 1 < x.1) } }
      .next s.capDueTrigs
    else .next s

/-! ## Releases, configuration, power -/

/-- CAP_RELEASE_HI is written: the offset takes effect, or is refused when it goes back or beyond CAP_WRITE (R333). -/
def State.capRelease (s : State) (hi : Word) : Option State :=
  let v := s.cap.relLo.toNat + hi.toNat * 2 ^ 32
  if v < s.capReleased || s.capWritten < v then none
  else some ((s.setReg R.CAP_RELEASE_LO s.cap.relLo).setReg R.CAP_RELEASE_HI hi)

/-- A LEVEL word written while notices wait (R323). -/
def State.capKeepOld (s : State) (idx : Nat) (old : Word) : State :=
  if s.gld.capWait.isEmpty then s
  else { s with cap := { s.cap with
      old := s.cap.old ++ [(s.cap.taken + s.gld.capWait.length, tblKey T.CAP.Condition idx 1, old)] } }

/-- ENABLE of a sequencer went to one, or to zero (R326, R331). -/
def State.capEnabled (s : State) (k : Nat) : State := s.setCapSeq k { capIdle with phase := 1 }
def State.capDisabled (s : State) (k : Nat) : State :=
  let s := s.capClose k 1
  (s.setCapSeq k { s.capSeq k with phase := 0, hold := 0 }).capDropFlag k

/-- Every open capture closes at step 5 of the power-fail sequence, and the unarchived bytes are recorded (R65, R331,
R336). -/
def State.capPowerFail (s : State) : State :=
  let s := (List.range 16).foldl (fun s k => s.capClose k 3) s
  let s := (List.range 16).foldl (fun s k => s.setCapSeq k { s.capSeq k with pre := [], first := none }) s
  s.ringLog 0x000D 40 (leBytes 8 (s.capWritten - s.capReleased))

/-- The record ring that a write of its base or its size asks for lies within the capture buffer of 4 GiB (R344). -/
def State.capRingOk (s : State) (off v : Nat) : Bool :=
  let lo := if off = R.CAP_RING_BASE_LO then v / 64 * 64 else (s.reg R.CAP_RING_BASE_LO).toNat / 64 * 64
  let n := if off = R.CAP_RING_SIZE then v % 2 ^ 16 else s.fld F.CAP_RING_SIZE.N
  if off = R.CAP_RING_BASE_HI then v % 256 = captureBase / 2 ^ 32 else decide (lo + n * 65536 ≤ 2 ^ 32)

/-- A state of a sequencer with TRIG is reachable from S0. -/
def State.capReach (s : State) (k : Nat) : Nat → List Nat → List Nat
  | 0, l => l
  | n + 1, l =>
    s.capReach k n (l.flatMap fun st => [st, s.tf TF.CAP.SeqState.NEXT (8 * k + st), s.tf TF.CAP.SeqState.NEXT_TO (8 * k + st)]).eraseDups

/-- Pre ring of a sequencer as an address range. -/
def State.preRing (s : State) (k : Nat) : Nat × Nat :=
  let b := captureBase + s.tf TF.CAP.Sequencer.PRE_BASE k * 65536
  (b, b + s.tf TF.CAP.Sequencer.PRE k * 576)

/-- A write that sets ENABLE passes the checks of R344. -/
def State.capOk (s : State) (k : Nat) : Bool :=
  let g := s.tf TF.CAP.Sequencer.GROVE k
  let n := s.tf TF.CAP.Sequencer.N_SIG k
  let b := s.ringBase R.CAP_RING_BASE_LO R.CAP_RING_BASE_HI
  (List.range n).all (fun i =>
      let st := s.tf TF.CAP.Signal.STREAM (64 * k + i)
      s.streamOk st && s.streamGrove st = g)
    && (s.capReach k 8 [0]).any (fun st => s.tflag TF.CAP.SeqState.TRIG (8 * k + st))
    && (List.range 8).all (fun c => decide (s.tf TF.CAP.Condition.SIG (8 * k + c) < n))
    && !rangesMeet (s.preRing k) (b, b + s.capSize)
    && ((s.validEntries T.CAP.Sequencer 0).filter fun j => j != k).all (fun j => !rangesMeet (s.preRing k) (s.preRing j))
    && decide (s.tf TF.CAP.Sequencer.POST_FULL k + 1 ≤ s.tf TF.CAP.Sequencer.POST_MAX k)

/-- Word 5 of a sequencer entry (R344). -/
def State.capWord5 (s : State) (k : Nat) : Nat :=
  let x := s.capSeq k
  x.phase * 2 ^ 30 + x.state * 2 ^ 27 + x.pre.length % 4096

end Sys2Proof.Machine
end

