-- ==== Sys2Proof/Machine/Time.lean ====
section
/-!
DEFINITION. The timebase's commands: PTP messages and timers, PPS and IRIG-B inputs, time marks, leap seconds, the calendar
write, PPS out and the compare timers (R155 to R173).
-/

namespace Sys2Proof.Machine



/-- The sources and the servo run (TIM_CTRL.RUN). -/
def State.timRuns (s : State) : Bool := s.flag F.TIM_CTRL.RUN && s.tim.running

/-! ## PTP (R157) -/

/-- A port's PTP state at rest. -/
def ptpIdle : PtpPort := { sync := none, reqSeq := 0, reqTx := none, resp := none, delay := 0, reqAt := none }
def State.ptpPort (s : State) (p : Nat) : PtpPort := mget ptpIdle s.tim.ptp p
def State.setPtpPort (s : State) (p : Nat) (x : PtpPort) : State :=
  { s with tim := { s.tim with ptp := mset ptpIdle s.tim.ptp p x } }

/-- PTP is enabled on a port (TIM_CTRL.PTP_PORTS). -/
def State.ptpOn (s : State) (p : Nat) : Bool := bitOf (s.fld F.TIM_CTRL.PTP_PORTS) p

/-- Identity of the unit's PTP port: EUI-64 of the station address, then the port number (log 20). -/
def State.ptpIdentity (s : State) (p : Nat) : Nat :=
  let m := s.station p
  ((m / 2 ^ 24) * 2 ^ 40 + 0xFFFE * 2 ^ 24 + m % 2 ^ 24) * 65536 + (p + 1)

/-- A record is better than another under the default algorithm: grandmaster fields, then steps removed, sender, port. -/
def Foreign.better (a b : Foreign) : Bool :=
  let key (f : Foreign) : Nat :=
    ((((f.prio1 * 256 + f.clkClass) * 256 + f.accuracy) * 65536 + f.variance) * 256 + f.prio2) * 2 ^ 64 + f.gm
  if key a ≠ key b then decide (key a < key b)
  else if a.steps ≠ b.steps then decide (a.steps < b.steps)
  else if a.id ≠ b.id then decide (a.id < b.id)
  else decide (a.port < b.port)

/-- A foreign transmitter is qualified: two Announces within 4 intervals of 1 s, the last within 3 (IEEE 1588, log 20). -/
def Foreign.qualified (f : Foreign) (now : Nat) : Bool :=
  match f.before with
  | none => false
  | some b => decide (f.clk - b ≤ 4800000000) && decide (now - f.clk ≤ 3600000000) && decide (f.steps < 255)

/-- The best qualified transmitter becomes the source (R157). -/
def State.reselect (s : State) : State :=
  let q := s.tim.foreign.filter fun f => f.qualified s.now && s.ptpOn f.port
  let best := q.foldl (fun (a : Option Foreign) f =>
    match a with | none => some f | some b => if f.better b then some f else some b) none
  let pick := best.map fun f => (f.port, f.id)
  let s := if s.tim.best = pick then s else { s with tim := { s.tim with best := pick, ptpSec := none } }
  let s := match best with | none => s | some f => { s with tim := { s.tim with srcAcc := some f.accuracy } }
  (s.setFld F.TIM_STATUS.PTP_PORT (match pick with | none => 7 | some b => b.1)).utcEval.tqEval

/-- A foreign record is entered or renewed; the table holds 16. -/
def enterForeign (f : Foreign) (l : List Foreign) : List Foreign :=
  match l.find? fun g => g.port = f.port && g.id = f.id with
  | some g => l.map fun h => if h.port = f.port && h.id = f.id then { f with before := some g.clk } else h
  | none =>
    let l := l.filter fun g => decide (f.clk - g.clk ≤ 4800000000)
    if l.length < 16 then l ++ [f] else l

/-- A PTP timestamp (48-bit seconds, 32-bit ns) in units of 2^-24 ns. -/
def ptpTime (m : List Byte) (off : Nat) : Int :=
  ((beAt m off 6 : Int) * 1000000000 + (beAt m (off + 6) 4 : Int)) * nsU

/-- A correction field (2^-16 ns) in units of 2^-24 ns. -/
def ptpCorr (m : List Byte) : Int := signedOf 64 (beAt m 8 8) * 256

/-- An 80-bit Grid Time in units of 2^-24 ns. -/
def stampU (t : Nat) : Int := (t : Int) * stepU

/-- An offset sample from a Sync and its origin time (R157). -/
def State.ptpSample (s : State) (p stamp : Nat) (origin : Int) : State :=
  let src := origin + (s.ptpPort p).delay + signedOf 32 (s.reg (R.TIM_ASYM + 4 * p)).toNat * nsU
  let d := stampU stamp - src
  let s := { s with tim := { s.tim with ptpSec := some ((src / stepU).toNat, stamp), ptpAt := s.now } }
  s.sourceSample 1 (s.fld F.TIM_CTRL.SRC = 0) d

/-- A PTP message's Ethernet and common header (IEEE 1588). -/
def State.ptpFrame (s : State) (p type seq : Nat) (corr : Int) (dst flags interval : Nat) (body : List Byte) : List Byte :=
  ethHeader dst (s.station p) 0 0 0x88F7 ++ beBytes 1 type ++ beBytes 1 0x12 ++ beBytes 2 (34 + body.length)
    ++ beBytes 1 (s.fld F.TIM_PTP.DOMAIN) ++ beBytes 1 0 ++ beBytes 2 flags ++ beBytes 8 (wrapInt 64 corr) ++ beBytes 4 0
    ++ beBytes 10 (s.ptpIdentity p) ++ beBytes 2 seq ++ beBytes 1 (if type < 4 then 5 else 5) ++ beBytes 1 interval ++ body

/-- Destination of peer delay messages over Ethernet. -/
def peerDelayMac : Nat := 0x0180C200000E

/-- An Announce: its record, the ranking, the offsets in force. -/
def State.ptpAnnounce (s : State) (p : Nat) (m : List Byte) : State :=
  let f : Foreign :=
    { port := p, id := beAt m 20 10, prio1 := beAt m 47 1, clkClass := beAt m 48 1, accuracy := beAt m 49 1
      variance := beAt m 50 2, prio2 := beAt m 52 1, gm := beAt m 53 8, steps := beAt m 61 2, flags := beAt m 7 1
      utcOffset := beAt m 44 2, clk := s.now, before := none }
  { s with tim := { s.tim with foreign := enterForeign f s.tim.foreign } }.reselect

/-- A Sync of the selected transmitter: a sample, or the wait for its Follow_Up. -/
def State.ptpSync (s : State) (p stamp : Nat) (m : List Byte) : State :=
  if s.tim.best = some (p, beAt m 20 10) then
    if bitOf (beAt m 6 1) 1 then
      s.setPtpPort p { s.ptpPort p with
        sync := some { seq := beAt m 30 2, id := beAt m 20 10, stamp := stamp, corr := ptpCorr m, clk := s.now } }
    else s.ptpSample p stamp (ptpTime m 34 + ptpCorr m)
  else s

/-- A Follow_Up completes its Sync. -/
def State.ptpFollowUp (s : State) (p : Nat) (m : List Byte) : State :=
  match (s.ptpPort p).sync with
  | none => s
  | some w =>
    if w.seq = beAt m 30 2 && w.id = beAt m 20 10 && s.tim.best = some (p, w.id) then
      (s.setPtpPort p { s.ptpPort p with sync := none }).ptpSample p w.stamp (ptpTime m 34 + w.corr + ptpCorr m)
    else s

/-- A Pdelay_Req is answered with a one-step Pdelay_Resp (R157). -/
def State.ptpPdelayReq (s : State) (p stamp : Nat) (m : List Byte) : State :=
  let r := s.ptpFrame p 3 (beAt m 30 2) (signedOf 64 (beAt m 8 8)) peerDelayMac 0 0x7F
    (List.replicate 10 0 ++ slice m 20 10)
  (s.bump R.TIM_PTP_TX).txSubmit p { cls := 2, bytes := r, tag := .pdelayResp stamp }

/-- A Pdelay_Resp to the request in flight: the mean link delay, or the wait for its follow-up. -/
def State.ptpPdelayResp (s : State) (p stamp : Nat) (m : List Byte) : State :=
  let x := s.ptpPort p
  match x.reqTx with
  | none => s
  | some t1 =>
    if beAt m 44 10 = s.ptpIdentity p && beAt m 30 2 = (x.reqSeq + 65535) % 65536 then
      if bitOf (beAt m 6 1) 1 then
        s.setPtpPort p { x with resp := some (beAt m 20 10, ptpTime m 34, stamp, ptpCorr m) }
      else s.setPtpPort p { x with delay := (stampU stamp - stampU t1 - ptpCorr m) / 2, reqTx := none, resp := none }
    else s

/-- A Pdelay_Resp_Follow_Up gives the responder's transmit time. -/
def State.ptpPdelayFollow (s : State) (p : Nat) (m : List Byte) : State :=
  let x := s.ptpPort p
  match x.reqTx, x.resp with
  | some t1, some (id, t2, t4, corr) =>
    if id = beAt m 20 10 && beAt m 44 10 = s.ptpIdentity p && beAt m 30 2 = (x.reqSeq + 65535) % 65536 then
      s.setPtpPort p { x with
        delay := (stampU t4 - stampU t1 - (ptpTime m 34 - t2) - corr - ptpCorr m) / 2, reqTx := none, resp := none }
    else s
  | _, _ => s

/-- Least length of a message by type; none for the types this profile does not use. -/
def ptpLength : Nat → Option Nat
  | 0 => some 44 | 2 => some 54 | 3 => some 54 | 8 => some 44 | 0xA => some 54 | 0xB => some 64 | _ => none

/-- The timebase handles a message (R157, R174). -/
def State.ptpHandle (s : State) (i : PtpIn) : State :=
  let m := i.bytes.drop (etherOff i.bytes)
  if etherType i.bytes ≠ 0x88F7 || !s.ptpOn i.port then s.bump R.TIM_PTP_WRONG_PROFILE
  else if m.length < 34 then s.bump R.TIM_PTP_MALFORMED
  else if beAt m 1 1 % 16 ≠ 2 || beAt m 0 1 / 16 ≠ 0 || beAt m 4 1 ≠ s.fld F.TIM_PTP.DOMAIN then s.bump R.TIM_PTP_WRONG_PROFILE
  else
    let type := beAt m 0 1 % 16
    match ptpLength type with
    | none => s.bump R.TIM_PTP_WRONG_PROFILE
    | some n =>
      if m.length < n || beAt m 2 2 < n || m.length < beAt m 2 2 then s.bump R.TIM_PTP_MALFORMED
      else
        let s := s.bump R.TIM_PTP_USED
        match type with
        | 0 => s.ptpSync i.port i.stamp m
        | 2 => s.ptpPdelayReq i.port i.stamp m
        | 3 => s.ptpPdelayResp i.port i.stamp m
        | 8 => s.ptpFollowUp i.port m
        | 0xA => s.ptpPdelayFollow i.port m
        | _ => s.ptpAnnounce i.port m

/-- PTP_MESSAGE (R157): the oldest message delivered to the timebase. -/
def execPtpMessage (s : State) : Out :=
  if !s.timRuns then .next s
  else match s.tim.ptpQ with
  | [] => .next s
  | i :: t => .next ({ s with tim := { s.tim with ptpQ := t } }.ptpHandle i)

/-- PDELAY_REQ_TIMER (R157): every 1 s a Pdelay_Req leaves each enabled port. -/
def execPdelayReqTimer (p : Port) (dt : Nat) (s : State) : Out :=
  let s := s.elapse dt
  let x := s.ptpPort p.val
  let due := match x.reqAt with | none => true | some t => decide (1200000000 ≤ s.now - t)
  if s.timRuns && s.ptpOn p.val && due then
    let r := s.ptpFrame p.val 2 x.reqSeq 0 peerDelayMac 0 0x7F (List.replicate 20 0)
    let s := s.setPtpPort p.val { x with reqSeq := (x.reqSeq + 1) % 65536, reqTx := none, resp := none, reqAt := some s.now }
    .next ((s.bump R.TIM_PTP_TX).txSubmit p.val { cls := 2, bytes := r, tag := .pdelayReq })
  else .next s

/-- FOLLOW_UP_TIMEOUT (R157): a Sync without its Follow_Up for 1 s forms no sample. -/
def execFollowUpTimeout (p : Port) (dt : Nat) (s : State) : Out :=
  let s := s.elapse dt
  match (s.ptpPort p.val).sync with
  | none => .next s
  | some w =>
    if 1200000000 ≤ s.now - w.clk then .next (s.setPtpPort p.val { s.ptpPort p.val with sync := none }) else .next s

/-- PTP_SOURCE_LOST (R157): 3 Announce intervals without a message. -/
def execPtpSourceLost (dt : Nat) (s : State) : Out :=
  let s := s.elapse dt
  match s.bestForeign with
  | none => .next s
  | some f => if 3600000000 < s.now - f.clk then .next s.reselect else .next s

/-! ## PPS and IRIG-B (R158, R159) -/

/-- Nearest whole second to an 80-bit time. -/
def nearSecond (t : Nat) : Nat := divNear t (2 ^ 32)

/-- Distance between two 80-bit times. -/
def gridDist (a b : Nat) : Nat := (signedOf 80 (a % 2 ^ 80 + 2 ^ 80 - b % 2 ^ 80)).natAbs

/-- A signed number of ns taken from an 80-bit time. -/
def stampLess (t : Nat) (ns : Int) : Nat := stampAdd t (-(ns * 1000))

/-- The second named by the source for an edge (R158): by IRIG-B under SRC 2, by PTP under SRC 3. -/
def State.ppsSecond (s : State) (stamp : Nat) : Option Nat :=
  match s.fld F.TIM_CTRL.SRC with
  | 2 => match s.tim.irig with
    | none => none
    | some (sec, on) => if gridDist stamp on ≤ 2 ^ 30 then some sec else none
  | 3 => match s.tim.ptpSec with
    | none => none
    | some (t, at') =>
      if s.tim.best.isSome && decide (s.now - s.tim.ptpAt ≤ s.fld F.TIM_SRC_TIMEOUT.S * 1200000000) then
        some (nearSecond ((t + stamp + 2 ^ 80 - at') % 2 ^ 80))
      else none
  | _ => none

/-- The primary's sample of an edge with a usable second, or TIM_PPS_BAD; under SRC 2 an edge waits for the frame whose
on-time point it marks (R158, log 21). -/
def State.ppsJudge (s : State) (stamp : Nat) : State :=
  match s.ppsSecond stamp with
  | some sec => s.servoSample (gridDiff stamp (sec * 2 ^ 32))
  | none =>
    if s.fld F.TIM_CTRL.SRC = 2 && s.fld F.TIM_CTRL.IRIG_MODE != 0 then { s with tim := { s.tim with ppsHeld := some stamp } }
    else s.bump R.TIM_PPS_BAD

/-- An edge still waiting is given up. -/
def State.ppsDropHeld (s : State) : State :=
  match s.tim.ppsHeld with
  | none => s
  | some _ => { s.bump R.TIM_PPS_BAD with tim := { s.tim with ppsHeld := none } }

/-- PPS_EDGE (R158, R160). -/
def execPpsEdge (dt : Nat) (s : State) : Out :=
  let s := (s.elapse dt).wakeEvent 4
  if !s.timRuns then .next s
  else
    let s := (s.ppsDropHeld).bump R.TIM_PPS_EDGES
    let stamp := stampLess s.grid80 (signedOf 32 (s.fld F.TIM_DELAY_PPS_IN.NS))
    let d := gridDiff stamp (nearSecond stamp * 2 ^ 32)
    if 2 ^ 30 < gridDist stamp (nearSecond stamp * 2 ^ 32) then .next (s.bump R.TIM_PPS_BAD)
    else
      let s := if s.fld F.TIM_CTRL.XCHK_SRC = 3 then s.crossCheck d else s
      if s.fld F.TIM_CTRL.SRC = 2 || s.fld F.TIM_CTRL.SRC = 3 then .next (s.ppsJudge stamp) else .next s

/-- Bit `i` of an IRIG-B frame is a one. -/
def irigBit (f : List IrigSym) (i : Nat) : Nat := b2n (f.getD i .zero = .one)

/-- Bits `i` up, least significant first. -/
def irigNum (f : List IrigSym) (i : Nat) : Nat → Nat
  | 0 => 0
  | n + 1 => irigBit f i + 2 * irigNum f (i + 1) n

/-- A BCD number is in range. -/
def bcdOk (units tens lim : Nat) : Bool := decide (units ≤ 9) && decide (tens * 10 + units ≤ lim)

/-- Position identifiers stand at 0, 9, 19, ..., 99 and nowhere else. -/
def irigMarks (f : List IrigSym) : Bool :=
  f.length = 100 && (List.range 100).all fun i => (f.getD i .zero = .mark) = decide (i = 0 || i % 10 = 9)

/-- Seconds of the day coded in BCD. -/
def irigDaySec (f : List IrigSym) : Nat :=
  (irigNum f 25 2 * 10 + irigNum f 20 4) * 3600 + (irigNum f 15 3 * 10 + irigNum f 10 4) * 60 + irigNum f 6 3 * 10 + irigNum f 1 4

/-- The checks of R159 on a frame; `cf` tells that control functions and straight binary seconds are present (B004, B124).
The parity is even over the data bits up to it (IEEE C37.118.1, log 20). -/
def irigGood (f : List IrigSym) (cf : Bool) : Bool :=
  irigMarks f && bcdOk (irigNum f 1 4) (irigNum f 6 3) 59 && bcdOk (irigNum f 10 4) (irigNum f 15 3) 59
    && bcdOk (irigNum f 20 4) (irigNum f 25 2) 23 && decide (irigNum f 30 4 ≤ 9) && decide (irigNum f 35 4 ≤ 9)
    && decide (1 ≤ irigNum f 40 2 * 100 + irigNum f 35 4 * 10 + irigNum f 30 4)
    && decide (irigNum f 40 2 * 100 + irigNum f 35 4 * 10 + irigNum f 30 4 ≤ 366)
    && bcdOk (irigNum f 50 4) (irigNum f 55 4) 99
    && (!cf || (decide (irigNum f 80 9 + irigNum f 90 8 * 512 = irigDaySec f)
      && ((List.range 76).foldl (fun a i => a + irigBit f i) 0) % 2 = 0))

/-- UTC seconds since 1970 of a frame: the coded time less its local offset (IEEE C37.118.1, log 20). -/
def irigUtc (f : List IrigSym) (cf : Bool) : Int :=
  let year := irigNum f 55 4 * 10 + irigNum f 50 4
  let day := irigNum f 40 2 * 100 + irigNum f 35 4 * 10 + irigNum f 30 4
  let off : Int := (irigNum f 65 4 : Int) * 3600 + (irigBit f 70 : Int) * 1800
  let t : Int := ((10957 + daysToYear year + day - 1) * 86400 + irigDaySec f : Nat)
  if !cf then t else if irigBit f 64 = 1 then t + off else t - off

/-- 80-bit Grid Time some clk ago. -/
def State.gridAgo (s : State) (ago : Nat) : Nat :=
  let t : Int := ((s.tim.grid * phaseUnit + s.tim.phase : Nat) : Int) - ((ago * phaseStep s.freqAdj : Nat) : Int)
  ((t / (phaseUnit : Int)) % (2 ^ 80 : Int)).toNat

/-- IRIG_FRAME (R159): a frame of 100 elements whose on-time point lay `ago` clk before its end. -/
def execIrigFrame (f : List IrigSym) (ago dt : Nat) (s : State) : Out :=
  let s := (s.elapse dt).wakeEvent 5
  let mode := s.fld F.TIM_CTRL.IRIG_MODE
  if !s.timRuns || mode = 0 then .next s
  else
    let cf := mode != 2
    if !irigGood f cf then .next ((s.bump R.TIM_IRIG_BAD).ppsDropHeld)
    else
      let s := s.bump R.TIM_IRIG_GOOD
      let utc := (irigUtc f cf).toNat
      let tai := utc + s.utcOffset
      let stamp := stampLess (s.gridAgo ago) (signedOf 32 (s.fld F.TIM_DELAY_IRIG.NS))
      let next := s.tim.irigPrev = some (utc - 1)
      let s := { s with tim := { s.tim with
        irig := some (tai, stamp), irigPrev := some utc
        irigTq := if cf then irigNum f 71 4 else 0xF
        irigLeap := if cf && irigBit f 60 = 1 then 1 + irigBit f 61 else 0 } }
      let s := s.utcEval
      let s := if next then s.sourceSample 2 (s.fld F.TIM_CTRL.SRC = 1) (gridDiff stamp (tai * 2 ^ 32)) else s
      match s.tim.ppsHeld with
      | none => .next s.tqEval
      | some e =>
        let s := { s with tim := { s.tim with ppsHeld := none } }
        match s.ppsSecond e with
        | some sec => .next (s.servoSample (gridDiff e (sec * 2 ^ 32)))
        | none => .next (s.bump R.TIM_PPS_BAD)

/-! ## Timers of the servo -/

/-- SRC_TIMEOUT (R162). -/
def execSrcTimeout (dt : Nat) (s : State) : Out :=
  let s := s.elapse dt
  if s.timRuns && (s.servo = 1 || s.servo = 2) && decide (s.fld F.TIM_SRC_TIMEOUT.S * 1200000000 ≤ s.now - s.tim.freshAt) then
    .next s.enterHoldover.tqEval
  else .next s

/-- STEP_ARM_LAPSE (R164). -/
def execStepArmLapse (dt : Nat) (s : State) : Out :=
  let s := s.elapse dt
  if s.flag F.TIM_STATUS.STEP_ARMED && decide (60 * 1200000000 ≤ s.now - s.tim.armedAt) then .next s.disarm else .next s

/-- TIME_QUALITY_CHANGE (R168). -/
def execTimeQualityChange (dt : Nat) (s : State) : Out := .next (s.elapse dt).tqEval

/-- LEAP_SECOND (R170). -/
def execLeapSecond (dt : Nat) (s : State) : Out :=
  let s := s.elapse dt
  let at' := (s.reg R.TIM_LEAP_AT).toNat
  let leap := s.fld F.TIM_UTC_NOW.LEAP
  if s.tim.running && at' != 0 && leap != 0 && decide (signedOf 32 (s.taiSec % 2 ^ 32 + 2 ^ 32 - at') ≥ 0) then
    let o := s.utcOffset
    let n := leapOffset o leap
    let full := s.taiSec - (s.taiSec % 2 ^ 32 + 2 ^ 32 - at') % 2 ^ 32
    let s : State := { s.setReg R.TIM_LEAP_AT 0 with tim := { s.tim with leapDone := some (full, o, n), irigLeap := 0 } }
    let s : State := if s.fld F.TIM_UTC_NOW.FROM = 1 then s else (s.setFld F.TIM_UTC.OFFSET n).setFld F.TIM_UTC.LEAP 0
    .next s.utcEval.tqEval
  else .next s

/-! ## The calendar write of R155 -/

/-- The unit is within an inserted second (R583). -/
def State.inInserted (s : State) : Bool :=
  match s.tim.leapDone with | none => false | some (l, o, n) => decide (o < n) && s.taiSec = l

/-- Grid Time in UTC as a calendar value; the weekday moves with the date (R155). -/
def State.utcCalendar (s : State) : Cal :=
  let t := s.taiSec - s.utcOffset - 946684800
  let c := calOfSeconds t 0
  let moved : Int := (c.days : Int) - (s.und.cal.days : Int)
  { c with wday := (((s.und.cal.wday : Int) + moved) % 7).toNat }

/-- A commit by the timebase: recorded only when it moves the calendar by 1 s or more (R579). -/
def State.calendarFromGrid (s : State) : State :=
  let c := s.utcCalendar
  let old := packCal s.und.cal s.subsec s.und.invalid
  let a := s.und.cal.seconds * 32768 + s.subsec
  let b := c.seconds * 32768
  let far := decide (32768 ≤ (a - b) + (b - a))
  let s := { s.calSet c with tim := { s.tim with calAt := some s.now } }
  if far then s.ringLog 0x0004 0xFF (leBytes 8 old ++ leBytes 8 (packCal s.und.cal s.subsec s.und.invalid)) else s

/-- CALENDAR_SYNC (R155, R583). -/
def execCalendarSync (dt : Nat) (s : State) : Out :=
  let s := s.elapse dt
  let due := match s.tim.calAt with | none => true | some t => decide (3600 * 1200000000 ≤ s.now - t)
  if s.timRuns && s.servo = 2 && due && !s.inInserted then .next s.calendarFromGrid else .next s

/-! ## PPS out and compare timers (R172, R173) -/

/-- The second PPS out stands in: Grid Time advanced by TIM_DELAY_PPS_OUT. -/
def State.ppsOutSecond (s : State) : Nat := stampAdd s.grid80 (signedOf 32 (s.fld F.TIM_DELAY_PPS_OUT.NS) * 1000) / 2 ^ 32

/-- PPS_OUT_PULSE (R172): a whole second later than the last one pulsed is crossed. -/
def execPpsOutPulse (dt : Nat) (s : State) : Out :=
  let before := s.ppsOutSecond
  let s := s.elapse dt
  let sec := s.ppsOutSecond
  let squelched := s.flag F.TIM_CTRL.PPS_SQUELCH && (s.servo = 0 || decide (4 < s.tqCode))
  if s.timRuns && s.flag F.TIM_CTRL.PPS_OUT_EN && decide (before < sec) && decide (s.tim.pulsed ≤ sec) && !squelched then
    .next ({ s with tim := { s.tim with pulsed := sec + 1, ppsOn := some s.now } }.emit (.ppsOut true))
  else .next s

/-- PPS_OUT_END (R172). -/
def execPpsOutEnd (dt : Nat) (s : State) : Out :=
  let s := s.elapse dt
  match s.tim.ppsOn with
  | none => .next s
  | some t =>
    if s.fld F.TIM_PPS_OUT.WIDTH_MS * 1200000 ≤ s.now - t then
      .next ({ s with tim := { s.tim with ppsOn := none } }.emit (.ppsOut false))
    else .next s

/-- CMP_FIRE (R173): a channel armed late, or passed by a forward step, fires with LATE set however soon. -/
def execCmpFire (n : BitVec 4) (dt : Nat) (s : State) : Out :=
  let s := s.elapse dt
  let k := 16 * n.toNat
  let v := s.cmpValue n.toNat
  let passed := decide (n.toNat ∈ s.tim.cmpLate)
  if s.tim.running && s.flag (F.TIM_CMP_CTRL.ARM.at k) && (passed || gtAtOrAfter s.gt v) then
    let late := passed || gtAfter s.gt (gtAdd v (gtOfUs 1))
    let s := { s with tim := { s.tim with cmpLate := s.tim.cmpLate.filter (· ≠ n.toNat) } }
    let s := (((s.setFld (F.TIM_CMP_CTRL.ARM.at k) 0).setFld (F.TIM_CMP_CTRL.FIRED.at k) 1).setFld
      (F.TIM_CMP_CTRL.LATE.at k) (b2n late)).raise F.TIM_INT_STATUS.CMP
    .next (if late then s.bump R.TIM_CMP_LATE else s)
  else .next s

end Sys2Proof.Machine
end

