-- ==== Sys2Proof/Machine/Account.lean ====
section
/-!
DEFINITION. The Accounting Engine (chapter 12): power of a tie-line, integration, register views, pulse outputs, pulse inputs
and their cross-check, and the saves through power loss.
-/

namespace Sys2Proof.Machine

/-! ## Entries -/

/-- A pulse output and a pulse input at rest. -/
def accOutIdle : AccOut := ⟨0, 0, none, 0, none⟩
def accInIdle : AccIn := ⟨none, 0, false, false, [], false⟩

/-- A pulse output, a pulse input, an accumulator in 2^-32 units. -/
def State.accOut (s : State) (n : Nat) : AccOut := mget accOutIdle s.acc.outs n
def State.setAccOut (s : State) (n : Nat) (x : AccOut) : State :=
  { s with acc := { s.acc with outs := mset accOutIdle s.acc.outs n x } }
def State.accIn (s : State) (n : Nat) : AccIn := mget accInIdle s.acc.ins n
def State.setAccIn (s : State) (n : Nat) (x : AccIn) : State :=
  { s with acc := { s.acc with ins := mset accInIdle s.acc.ins n x } }
def State.accSum (s : State) (a : Nat) : Nat := mget 0 s.acc.sums a
def State.setAccSum (s : State) (a v : Nat) : State := { s with acc := { s.acc with sums := mset 0 s.acc.sums a v } }

/-- Keys of the q-th counters of a tie-line, a pulse input, a pulse output (R366). -/
def lineCnt (t q : Nat) : Nat := tblCntKey 0xD4 t q
def inCnt (n q : Nat) : Nat := tblCntKey 0xD5 n q
def outCnt (n q : Nat) : Nat := tblCntKey 0xD6 n q

/-! ## Register views (R353) -/

/-- COUNT of an accumulator. -/
def State.accCount (s : State) (a : Nat) : Nat := s.accSum a / 2 ^ 32

/-- u of R353. -/
def State.viewUnits (s : State) (a : Nat) : Nat := s.accCount a / 10 ^ s.tf TF.ACC.Accumulator.VIEW_SCALE a

/-- VIEW and WRAP; zero while MODULUS holds its reserved zero. -/
def State.accView (s : State) (a : Nat) : Nat :=
  if s.tf TF.ACC.Accumulator.MODULUS a = 0 then 0 else s.viewUnits a % s.tf TF.ACC.Accumulator.MODULUS a
def State.accWrap (s : State) (a : Nat) : Nat :=
  if s.tf TF.ACC.Accumulator.MODULUS a = 0 then 0 else s.viewUnits a / s.tf TF.ACC.Accumulator.MODULUS a % 256

/-- A word of an accumulator entry as a read gives it (R353, R366). -/
def State.accWord (s : State) (a w : Nat) : Word :=
  match w with
  | 0 => w32 (s.accCount a)
  | 1 => w32 (s.accCount a / 2 ^ 32)
  | 2 => w32 (s.accSum a)
  | 4 => w32 (putBits (s.tword T.ACC.Accumulator a 4).toNat 7 0 (s.accWrap a))
  | 5 => w32 (s.accView a)
  | _ => s.tword T.ACC.Accumulator a w

/-! ## Power (R346) -/

/-- A phasor times the conjugate of another, in binary64 from binary32 components. -/
def mulConj (v i : Nat × Nat) : Nat × Nat :=
  let m (a b : Nat) : Nat := (fmul f64 a b).bits
  ((fadd f64 (m v.1 i.1) (m v.2 i.2)).bits, (fsub f64 (m v.2 i.1) (m v.1 i.2)).bits)

/-- A sum of two complex values. -/
def cadd64 (a b : Nat × Nat) : Nat × Nat := ((fadd f64 a.1 b.1).bits, (fadd f64 a.2 b.2).bits)

/-- A named phasor of a tie-line's stream in a Set, widened to binary64. -/
def State.linePhasor (s : State) (t addr : Nat) (f : TF) : Option (Nat × Nat) :=
  (s.viewChan true (s.tf TF.ACC.TieLine.GROVE t) addr (s.tf TF.ACC.TieLine.STREAM t) (s.tf f t) [0]).map fun v =>
    (f32to64 v.1, f32to64 v.2)

/-- S of a tie-line in a Set, none when a named phasor is absent (R346, R349). The factor 3 of MODE 0 multiplies V first
(log 27). -/
def State.linePower (s : State) (t addr : Nat) : Option (Nat × Nat) :=
  let ph := s.linePhasor t addr
  match ph TF.ACC.TieLine.V_A, ph TF.ACC.TieLine.I_A with
  | some va, some ia =>
    match s.tf TF.ACC.TieLine.MODE t with
    | 0 =>
      let three := f64OfNat 3
      some (mulConj ((fmul f64 three va.1).bits, (fmul f64 three va.2).bits) ia)
    | 1 =>
      match ph TF.ACC.TieLine.V_B, ph TF.ACC.TieLine.I_B, ph TF.ACC.TieLine.V_C, ph TF.ACC.TieLine.I_C with
      | some vb, some ib, some vc, some ic => some (cadd64 (cadd64 (mulConj va ia) (mulConj vb ib)) (mulConj vc ic))
      | _, _, _, _ => none
    | _ => some (mulConj va ia)
  | _, _ => none

/-- p and q after DIR (R346). -/
def State.lineFlow (s : State) (t addr : Nat) : Option (Nat × Nat) :=
  (s.linePower t addr).map fun x => if s.tflag TF.ACC.TieLine.DIR t then (fneg f64 x.1, fneg f64 x.2) else x

/-! ## Integration (R349 to R351, R355) -/

/-- Units of 2^-32 in a binary64 magnitude, to nearest with halves away from zero; an infinity saturates, a NaN adds
nothing. -/
def toUnits (x : Nat) : Nat :=
  match fdec f64 x with
  | .fin _ m e => if 0 ≤ e + 32 then m * 2 ^ (e + 32).toNat else (2 * m + 2 ^ (-(e + 32)).toNat) / (2 * 2 ^ (-(e + 32)).toNat)
  | .inf _ => 2 ^ 96
  | .nan _ => 0

/-- The increment of an interval in 2^-32 units (R350). -/
def increment (rate x : Nat) : Nat := toUnits (fdiv f64 (x % 2 ^ 63) (f64OfNat (3600 * rate))).bits

/-- Sign of a binary64: positive, negative. -/
def isPos (x : Nat) : Bool := flt f64 0 x
def isNeg (x : Nat) : Bool := flt f64 x 0

/-- Additions of an integrated interval: kinds and units (R350). -/
def additions (rate p q : Nat) : List (Nat × Nat) :=
  let ep := increment rate p
  let eq := increment rate q
  let a := if isPos p then [(0, ep)] else if isNeg p then [(1, ep)] else []
  let k := if isPos q then (if isNeg p then 3 else 2) else (if isNeg p then 4 else 5)
  let nan := match fdec f64 p, fdec f64 q with | .nan _, _ => true | _, .nan _ => true | _, _ => false
  if nan then a else a ++ (if isPos q || isNeg q then [(k, eq)] else [])

/-- Pulses due of an output (R356). -/
def State.duePulses (s : State) (n due : Nat) : State :=
  if due = 0 then s
  else
    let s := s.bumpBy (outCnt n 0) due
    if s.drive = .driven then
      let x := s.accOut n
      let b := min 255 (x.backlog + due)
      let excess := x.backlog + due - b
      let s := s.setAccOut n { x with backlog := b }
      if excess = 0 then s else (s.bumpBy (outCnt n 3) excess).raise F.ACC_INT_STATUS.OVERRUN
    else s.bumpBy (outCnt n 2) due

/-- An addition reaches the residual of an output on its accumulator (R355). -/
def State.pulseAdd (s : State) (a d n : Nat) : State :=
  if s.tflag TF.ACC.PulseOutput.EN n && s.tf TF.ACC.PulseOutput.ACC n = a then
    let c := max 1 (s.tf TF.ACC.PulseOutput.CONST n) * 2 ^ 32
    let r := (s.accOut n).resid + d
    (s.setAccOut n { s.accOut n with resid := r % c }).duePulses n (r / c)
  else s

/-- An addition to an accumulator, with its pulse outputs and the windows of its pulse inputs; COUNT saturates. -/
def State.accumulate (s : State) (a d : Nat) : State :=
  let v := s.accSum a + d
  let s := s.setAccSum a (if v < 2 ^ 96 then v else (2 ^ 64 - 1) * 2 ^ 32 + v % 2 ^ 32)
  let s := (List.range 8).foldl (fun s n => s.pulseAdd a d n) s
  (List.range 16).foldl (fun s n =>
    if s.tflag TF.ACC.PulseInput.EN n && s.tf TF.ACC.PulseInput.ACC n = a then
      s.setAccIn n { s.accIn n with sum := (s.accIn n).sum + d }
    else s) s

/-! ## Windows (R359) -/

/-- Seconds of a check window. -/
def State.checkS (s : State) (n : Nat) : Nat := max 1 (s.tf TF.ACC.PulseInput.CHECK_S n)

/-- End in TAI seconds of the window that holds an instant. -/
def State.windowOf (s : State) (n t : Nat) : Nat := (t + s.checkS n * 2 ^ 32 - 1) / (s.checkS n * 2 ^ 32) * s.checkS n

/-- The instant lies in the window that ends at a second. -/
def State.inWindow (s : State) (n e t : Nat) : Bool :=
  gtAfter t ((e + 2 ^ 32 - s.checkS n) % 2 ^ 32 * 2 ^ 32) && gtAtOrAfter (e * 2 ^ 32) t

/-- One window is judged by its pulses and its additions. -/
def State.judgeWindow (s : State) (n e : Nat) : State :=
  let x := s.accIn n
  let c := s.tf TF.ACC.PulseInput.CONST n
  let pulse := c * (x.stamps.filter (s.inWindow n e)).length
  let ep := pulse * 2 ^ 32
  let diff := (ep - x.sum) + (x.sum - ep)
  let bad := x.bad || !x.taken || s.acc.steps.any (s.inWindow n e)
  let off := decide (s.tf TF.ACC.PulseInput.TOL n * x.sum + c * 2 ^ 32 * 10000 < diff * 10000)
  let s := s.bump (inCnt n 3)
  let s := (s.setCnt (inCnt n 7) (w64 pulse)).setCnt (inCnt n 8) (w64 (x.sum / 2 ^ 32))
  let x : AccIn :=
    { x with sum := 0, taken := false, bad := false, wEnd := some (e + s.checkS n)
             stamps := x.stamps.filter fun t => gtAfter t (e * 2 ^ 32) }
  if bad then (s.bump (inCnt n 6)).setAccIn n x
  else if off then ((s.bump (inCnt n 5)).raise F.ACC_INT_STATUS.MISMATCH).setAccIn n { x with mismatch := true }
  else (s.bump (inCnt n 4)).setAccIn n { x with mismatch := false }

/-- Every window of an input that ends before a Set's time-tag is judged, in order: those after the first hold no Set. -/
def State.windowsTo (s : State) (n ttag : Nat) : State :=
  match (s.accIn n).wEnd with
  | none => s.setAccIn n { s.accIn n with wEnd := some (s.windowOf n ttag), bad := true }
  | some e =>
    if gtAfter ttag (e * 2 ^ 32) then
      let s := s.judgeWindow n e
      let c := s.checkS n
      let last := s.windowOf n ttag
      let skipped := (last - e) / c - 1
      if skipped = 0 then s
      else
        let s := (s.bumpBy (inCnt n 3) (skipped - 1)).bumpBy (inCnt n 6) (skipped - 1)
        s.judgeWindow n (last - c)
    else s

/-- Inputs that follow a tie-line. -/
def State.lineInputs (s : State) (t : Nat) : List Nat :=
  (List.range 16).filter fun n => s.tflag TF.ACC.PulseInput.EN n && s.tf TF.ACC.PulseInput.ACC n / 6 = t

/-- The present window of an input cannot be judged. -/
def State.spoil (s : State) (n : Nat) : State := s.setAccIn n { s.accIn n with bad := true }

/-- Missed Sets, the last `d` instants before a time-tag, spoil the windows they fall in: the present one is judged after
this, so a window that ends before the time-tag is spoiled when a missed instant is at or before its end. -/
def State.spoilMissed (s : State) (n rate ttag d : Nat) : State :=
  if d = 0 then s
  else
    let i := tagIndex rate ttag
    let first := indexTag rate ((i + tagModulus rate - d) % tagModulus rate)
    match (s.accIn n).wEnd with
    | some e => if gtAtOrAfter (e * 2 ^ 32) first then s.spoil n else s
    | none => s

/-- The last missed instant lies in the window that is open after those before the time-tag are judged. -/
def State.spoilPresent (s : State) (n rate ttag d : Nat) : State :=
  if d = 0 then s
  else
    match (s.accIn n).wEnd with
    | some e => if s.inWindow n e (prevTag rate ttag) then s.spoil n else s
    | none => s

/-! ## A notice (R348 to R351) -/

/-- What a tie-line's digest covers (R363, R502): the interval's outcome, its six accumulators, its interval counters, and the
residual and DUE of the pulse outputs on its accumulators. -/
def State.lineDigest (s : State) (t seq outcome : Nat) : State :=
  s.digest 5 t seq (leBytes 1 outcome ++ ((List.range 6).flatMap fun k => leBytes 12 (s.accSum (6 * t + k)))
    ++ ((List.range 5).flatMap fun q => leBytes 8 (s.cnt (lineCnt t q)).toNat)
    ++ (((List.range 8).filter fun n => s.tflag TF.ACC.PulseOutput.EN n && s.tf TF.ACC.PulseOutput.ACC n / 6 = t).flatMap fun n =>
      leBytes 12 (s.accOut n).resid ++ leBytes 8 (s.cnt (outCnt n 0)).toNat))

/-- NOLOAD of a tie-line as notice `no` takes it: a word written after its Set was released reads as before (R72). -/
def State.noload (s : State) (no t : Nat) : Nat :=
  match s.acc.old.find? fun x => decide (no < x.1) && x.2.1 = t with
  | some x => x.2.2.toNat
  | none => s.tf TF.ACC.TieLine.NOLOAD t

/-- NOLOAD of a tie-line written while notices wait. -/
def State.accKeepOld (s o : State) (t : Nat) : State :=
  if s.gld.accWait.isEmpty || s.tword T.ACC.TieLine t 3 = o.tword T.ACC.TieLine t 3 then s
  else { s with acc := { s.acc with
      old := s.acc.old ++ [(s.acc.taken + s.gld.accWait.length, t, o.tword T.ACC.TieLine t 3)] } }

/-- A tie-line takes a final Set: MISSED, the windows, the interval. -/
def State.lineNotice (s : State) (e : Entry) (t : Nat) : State :=
  let seq := noticeSeq e
  let ttag := noticeTtag e
  let epoch := descField e 0x18 4
  let fl := noticeFlags e
  let rate := max 1 (s.groveRate (noticeGrove e))
  let en := s.tflag TF.ACC.TieLine.EN t
  let missed :=
    match mget none s.acc.lines t with
    | some (q, p) => if en && p = epoch && !bitOf fl 4 && !bitOf fl 5 then seq - q - 1 else 0
    | none => 0
  let ins := s.lineInputs t
  let s := ins.foldl (fun s n => ((s.spoilMissed n rate ttag missed).windowsTo n ttag).spoilPresent n rate ttag missed) s
  if !en then ins.foldl (fun s n => s.spoil n) s
  else
    let s := s.bumpBy (lineCnt t 4) missed
    let s := { s with acc := { s.acc with lines := mset none s.acc.lines t (some (seq, epoch)) } }
    let s := ins.foldl (fun s n => s.setAccIn n { s.accIn n with taken := true }) s
    let s := s.bump (lineCnt t 0)
    match s.lineFlow t (noticeAddr e) with
    | none => ((ins.foldl (fun s n => s.spoil n) s).bump (lineCnt t 3)).lineDigest t seq 3
    | some (p, q) =>
      let mag := (fsqrt f64 (fadd f64 (fmul f64 p p).bits (fmul f64 q q).bits).bits).bits
      if Sys2Proof.Machine.flt f64 mag (f32to64 (s.noload s.acc.taken t)) then (s.bump (lineCnt t 2)).lineDigest t seq 2
      else
        let s : State := (additions rate p q).foldl (fun (s' : State) x => s'.accumulate (6 * t + x.1) x.2) s
        (s.bump (lineCnt t 1)).lineDigest t seq 1

/-- Tie-lines of a Grove: those whose entry names it, when enabled or followed by a pulse input. -/
def State.groveLines (s : State) (g : Nat) : List Nat :=
  (List.range 64).filter fun t =>
    s.tf TF.ACC.TieLine.GROVE t = g && (s.tflag TF.ACC.TieLine.EN t || !(s.lineInputs t).isEmpty)

/-- The engine runs. -/
def State.accRuns (s : State) : Bool := s.flag F.ACC_CTRL.RUN && !s.flag F.ACC_STATUS.STOPPED && s.detects

/-- ACC_NOTICE (R348). -/
def execAccNotice (dt : Nat) (s : State) : Out :=
  let s := s.elapse dt
  match s.gld.accWait with
  | [] => .next s
  | e :: rest =>
    if s.accRuns then
      let s := { (s.engineReads (noticeGrove e) (noticeAddr e)).bump R.ACC_U_PROCESSED with gld := { s.gld with accWait := rest } }
      let s := (s.groveLines (noticeGrove e)).foldl (fun s t => s.lineNotice e t) s
      let no := s.acc.taken + 1
      .next { s with acc := { s.acc with taken := no, old := s.acc.old.filter fun x => decide (no < x.1) } }
    else .next s

/-! ## Pulse outputs (R356, R357) -/

/-- A pulse's level at solid-state output `n`. -/
def State.setPulse (s : State) (n : Nat) (on : Bool) : State :=
  { s with alm := { s.alm with pulses := mset false s.alm.pulses n on } }

/-- PULSE_START (R356). -/
def execPulseStart (n : BitVec 3) (dt : Nat) (s : State) : Out :=
  let s := s.elapse dt
  let n := n.toNat
  let x := s.accOut n
  if s.tflag TF.ACC.PulseOutput.EN n && s.drive = .driven && x.on.isNone && decide (x.gapUntil ≤ s.now) && x.backlog != 0 then
    let s := s.setAccOut n { x with backlog := x.backlog - 1, on := some s.now }
    .next ((s.bump (outCnt n 1)).setPulse n true).refreshOutputs
  else .next s

/-- PULSE_END (R356). -/
def execPulseEnd (n : BitVec 3) (dt : Nat) (s : State) : Out :=
  let s := s.elapse dt
  let n := n.toNat
  let x := s.accOut n
  match x.on with
  | none => .next s
  | some t =>
    if s.drive = .driven && decide (t + s.tf TF.ACC.PulseOutput.WIDTH_MS n * 1200000 ≤ s.now) then
      let s := s.setAccOut n { x with on := none, gapUntil := s.now + s.tf TF.ACC.PulseOutput.GAP_MS n * 1200000 }
      .next (s.setPulse n false).refreshOutputs
    else .next s

/-- The outputs become held (R357): the pulse in progress ends, the backlog is withheld. -/
def State.accHeld (s : State) : State :=
  (List.range 8).foldl (fun s n =>
    let x := s.accOut n
    ((s.bumpBy (outCnt n 2) x.backlog).setAccOut n { x with backlog := 0, on := none, frozenAt := none }).setPulse n false) s

/-- The outputs become frozen, or are driven again (R357): timing pauses and resumes. -/
def State.accFrozen (s : State) : State :=
  (List.range 8).foldl (fun s n => s.setAccOut n { s.accOut n with frozenAt := some s.now }) s
def State.accDriven (s : State) : State :=
  (List.range 8).foldl (fun s n =>
    let x := s.accOut n
    match x.frozenAt with
    | none => s
    | some t => s.setAccOut n { x with frozenAt := none, on := x.on.map (· + (s.now - t)), gapUntil := x.gapUntil + (s.now - t) }) s

/-- The drive state changed from `old` (R55, R357): pulse timing, then the levels. -/
def State.driveChanged (s : State) (old : Drive) : State :=
  let s := if s.drive = old then s
    else match s.drive with
      | .held => s.accHeld
      | .frozen => s.accFrozen
      | .driven => s.accDriven
  s.refreshOutputs

/-! ## Pulse inputs (R358) -/

/-- S0_PULSE (R358): an activation of `samples` samples of 100 µs has ended. -/
def execS0Pulse (n : BitVec 4) (samples dt : Nat) (s : State) : Out :=
  let s := s.elapse dt
  let n := n.toNat
  let s := s.wakeEvent (16 + n)
  if s.tflag TF.ACC.PulseInput.EN n && samples != 0 then
    let s := s.bump (inCnt n 0)
    if 10 * s.tf TF.ACC.PulseInput.MIN_MS n ≤ samples then
      let stamp := if s.tim.running then s.gridAgo (samples * 120000) % 2 ^ 64 else 0
      let s := s.setAccIn n { s.accIn n with stamps := (s.accIn n).stamps ++ [stamp] }
      .next (s.bump (inCnt n 1))
    else .next (s.bump (inCnt n 2))
  else .next s

/-! ## Saves (R360 to R362) -/

/-- The copies, and the newest complete one. -/
def Mram.accCopy (m : Mram) (i : Nat) : Option AccSave := if i = 0 then m.acc0 else m.acc1
def Mram.setAccCopy (m : Mram) (i : Nat) (x : Option AccSave) : Mram := if i = 0 then { m with acc0 := x } else { m with acc1 := x }
def Mram.accNewest (m : Mram) : Option (AccSave × Nat) :=
  match m.acc0, m.acc1 with
  | some a, some b => if b.seq < a.seq then some (a, 0) else some (b, 1)
  | some a, none => some (a, 0)
  | none, some b => some (b, 1)
  | none, none => none

/-- The state a save holds (R360). -/
def State.accSnapshot (s : State) (kind : Nat) : AccSave :=
  { seq := s.acc.saveSeq, kind := kind, sums := s.acc.sums
    outs := (List.range 8).map fun n => ((s.accOut n).resid, (s.cnt (outCnt n 0)).toNat) }

/-- A save starts on a copy, whose old content is no longer valid. -/
def State.startSave (s : State) (kind copy : Nat) : State :=
  let x := s.accSnapshot kind
  { s.bump R.ACC_U_SAVES_STARTED with
    mram := s.mram.setAccCopy copy none
    acc := { s.acc with saving := some (x, copy), saveSeq := x.seq + 1 } }

/-- The copy that does not hold the newest complete save. -/
def State.saveTarget (s : State) : Nat := match s.mram.accNewest with | some (_, 0) => 1 | _ => 0

/-- PERIODIC_SAVE (R361): a whole second of Grid Time without its save has begun. -/
def execPeriodicSave (dt : Nat) (s : State) : Out :=
  let s := s.elapse dt
  if s.tim.running && decide (7 ≤ s.sys.bootStep) && s.sys.warnAt.isNone && s.acc.savedSec != s.taiSec
      && s.acc.saving.isNone then
    .next ({ s with acc := { s.acc with savedSec := s.taiSec } }.startSave 0 s.saveTarget)
  else .next s

/-- The power-fail save begins (R361): the intent word, then the snapshot, which takes the copy of a periodic save in
progress. -/
def State.accPowerFail (s : State) : State :=
  let copy := match s.acc.saving with | some (_, c) => c | none => s.saveTarget
  let s := if s.acc.saving.isSome then s.bump R.ACC_U_SAVES_ABANDONED else s
  let s := { s with mram := { s.mram with accIntent := some s.acc.saveSeq } }
  let s := s.startSave 1 copy
  { s with acc := { s.acc with afterSnap := true } }

/-- SAVE_DONE (R361, R362). -/
def execSaveDone (ok : Bool) (dt : Nat) (s : State) : Out :=
  let s := s.elapse dt
  match s.acc.saving with
  | none => .next s
  | some (x, copy) =>
    let s := { s with acc := { s.acc with saving := none } }
    if ok then
      let m := s.mram.setAccCopy copy (some x)
      let s := { s with mram := if x.kind = 1 then { m with accIntent := none } else m }
      .next ((s.bump R.ACC_U_SAVES_DONE).setCnt R.ACC_SAVE_SEQ (w64 x.seq))
    else .next (((s.bump R.ACC_U_SAVE_FAILED).raise F.ACC_INT_STATUS.SAVE_FAIL).detect 0x0A 13 0xFF)

/-- Step t7 of the cold start (R362): the newest valid copy is restored; an incomplete power-fail save is recorded. -/
def State.accRestore (s : State) : State :=
  let m := s.mram
  let held := fun q => (match m.acc0 with | some x => x.seq = q | none => false)
    || (match m.acc1 with | some x => x.seq = q | none => false)
  let torn := match m.accIntent with | some q => !held q | none => false
  let nextSeq := max (match m.accNewest with | some (x, _) => x.seq + 1 | none => 1) (match m.accIntent with | some q => q + 1 | none => 0)
  let s : State := { s with
    acc := { s.acc with saveSeq := nextSeq, savedSec := s.taiSec, afterSnap := false, saving := none }
    mram := { m with accIntent := none } }
  let incomplete (s : State) (seq : Nat) : State :=
    if torn then
      ((s.setFld F.ACC_STATUS.INCOMPLETE 1).raise F.ACC_INT_STATUS.INCOMPLETE).ringLog 0x000C 41
        (leBytes 1 1 ++ leBytes 7 0 ++ leBytes 8 seq)
    else s
  match m.accNewest with
  | none => incomplete ((s.setFld F.ACC_STATUS.RESTORED 2).ringLog 0x000C 41 (leBytes 1 2)) 0
  | some (x, _) =>
    let s := { s with acc := { s.acc with sums := x.sums } }
    let s := (List.zip (List.range x.outs.length) x.outs).foldl (fun s o =>
      (s.setAccOut o.1 { accOutIdle with resid := o.2.1 }).setCnt (outCnt o.1 0) (w64 o.2.2)) s
    incomplete ((s.setFld F.ACC_STATUS.RESTORED (1 - x.kind)).setCnt R.ACC_SAVE_SEQ (w64 x.seq)) x.seq

/-! ## Configuration (R347, R354, R355, R366) -/

/-- The named channels of a tie-line by MODE. -/
def State.lineChans (s : State) (t : Nat) : List Nat :=
  let c := [s.tf TF.ACC.TieLine.V_A t, s.tf TF.ACC.TieLine.I_A t]
  if s.tf TF.ACC.TieLine.MODE t = 1 then
    c ++ [s.tf TF.ACC.TieLine.V_B t, s.tf TF.ACC.TieLine.I_B t, s.tf TF.ACC.TieLine.V_C t, s.tf TF.ACC.TieLine.I_C t]
  else c

/-- EN of a tie-line may be set (R347). -/
def State.tieOk (s : State) (t : Nat) : Bool :=
  let st := s.tf TF.ACC.TieLine.STREAM t
  s.tflag TF.ING.Directory.VALID st && s.streamGrove st = s.tf TF.ACC.TieLine.GROVE t
    && (s.lineChans t).all fun ch =>
      decide (ch < s.numCh st) && s.tf TF.ING.ChannelMap.KIND (s.dir st TF.ING.Directory.CHMAP_BASE + ch) = 0

/-- EN of a tie-line went to one. -/
def State.tieEnabled (s : State) (t : Nat) : State :=
  let s := { s with acc := { s.acc with lines := mset none s.acc.lines t none } }
  (s.lineInputs t).foldl (fun s n => s.spoil n) (s.setTf TF.ACC.TieLine.CONFIG_LOST t 0)

/-- EN of a tie-line went to zero: the windows in progress cannot be judged. -/
def State.tieDisabled (s : State) (t : Nat) : State := (s.lineInputs t).foldl (fun s n => s.spoil n) s

/-- A directory entry or a Channel Map entry of a stream was written (R347). -/
def State.accDirWritten (s : State) (st : Nat) : State :=
  (s.usedEntries T.ACC.TieLine).foldl (fun s t =>
    if s.tf TF.ACC.TieLine.STREAM t = st then
      let u := if s.tflag TF.ACC.TieLine.EN t then s.tieDisabled t else s
      ((u.setTf TF.ACC.TieLine.EN t 0).setTf TF.ACC.TieLine.CONFIG_LOST t 1).raise F.ACC_INT_STATUS.CONFIG_LOST
    else s) s

/-- EN of a pulse input went to one: the window in progress began before. -/
def State.pulseInEnabled (s : State) (n : Nat) : State :=
  s.setAccIn n { accInIdle with
    wEnd := if s.tim.running then some (s.windowOf n s.gt) else none, bad := true, mismatch := (s.accIn n).mismatch }

/-- EN of a pulse output went to one, or to zero (R355; a pulse in progress ends, log 27). -/
def State.pulseOutEnabled (s : State) (n : Nat) : State := s.setAccOut n { s.accOut n with resid := 0 }
def State.pulseOutDisabled (s : State) (n : Nat) : State :=
  ((s.setAccOut n { s.accOut n with on := none }).setPulse n false).refreshOutputs

/-- A preset of an accumulator (R354). -/
def State.accPreset (s : State) (a count rem : Nat) : State :=
  let old := s.accCount a
  (s.setAccSum a (count * 2 ^ 32 + rem)).ringLog 0x000C 41
    (leBytes 1 0 ++ leBytes 1 0 ++ leBytes 2 a ++ leBytes 4 0 ++ leBytes 8 old ++ leBytes 8 count)

/-- Word 4 of a tie-line entry: STATE and CONFIG_LOST (R366). -/
def State.tieWord4 (s : State) (t : Nat) : Nat :=
  (if s.tflag TF.ACC.TieLine.EN t then (if (mget none s.acc.lines t).isSome then 2 else 1) else 0) * 2 ^ 30
    + s.tf TF.ACC.TieLine.CONFIG_LOST t * 2 ^ 29

/-- ACC_STATUS (R365). -/
def State.accStatus (s : State) : Nat :=
  let w := (s.reg R.ACC_STATUS).toNat
  putBits (putBits w 22 16 s.gld.accWait.length) 3 3 (b2n s.acc.saving.isSome)

/-- The q-th counter of table 6: RESIDUAL in whole units at 4 (R366). -/
def State.outCounter (s : State) (n q : Nat) : DWord := if q = 4 then w64 ((s.accOut n).resid / 2 ^ 32) else s.cnt (outCnt n q)

end Sys2Proof.Machine
end

