-- ==== Sys2Proof/Machine/NetRows.lean ====
section
/-!
DEFINITION. The commands of the Frame MAC (chapter 03) and of the network modules (R632, R650).
-/

namespace Sys2Proof.Machine

/-- RX_FRAME (R83): a frame's last bit is in; it is checked, counted and delivered. -/
def execRxFrame (p : Port) (pcsError : Bool) (wire : List Byte) (dt : Nat) (s : State) : Out :=
  .next ((s.elapse dt).rxMedium p.val pcsError wire)

/-- PAUSE_TIMER_EXPIRE (R88): at zero the held time is counted and the transmitter may start its next frame. -/
def execPauseTimerExpire (p : Port) (dt : Nat) (s : State) : Out :=
  let s := s.elapse dt
  if (s.port p.val).pauseUntil ≤ s.now then .next (s.settleHold p.val) else .next s

/-- PAUSE_REFRESH (R91). -/
def execPauseRefresh (p : Port) (dt : Nat) (s : State) : Out :=
  let s := s.elapse dt
  match (s.port p.val).refreshAt with
  | none => .next s
  | some t =>
    if s.now < t then .next s
    else if !s.portBp p.val then .next (s.dropRefresh p.val)
    else .next ((if s.sendsPause p.val then s.sendPause p.val (s.pfld p.val F.NET_PAUSE.TIME) else s).armRefresh p.val)

/-- TX_SUBMIT (R92). -/
def execTxSubmit (p : Port) (cls : Fin 5) (frame : List Byte) (s : State) : Out :=
  .next (s.txSubmit p.val ⟨cls.val, frame, .plain⟩)

/-- TX_START (R93). -/
def execTxStart (p : Port) (dt : Nat) (s : State) : Out := .next ((s.elapse dt).txStart p.val)

/-- The stamp of a sent frame goes back to its submitter (R94): the timebase keeps that of a Pdelay_Req, the
Crossing that of a heartbeat; the alarm block has its own at the first bit (R305). -/
def State.txStamped (s : State) (p : Nat) (tag : TxTag) (stamp : Nat) : State :=
  match tag with
  | .pdelayReq => s.setPtpPort p { s.ptpPort p with reqTx := some stamp }
  | .heartbeat => { s with xng := { s.xng with hbStamp := stamp } }
  | _ => s

/-- TX_DONE (R94): the frame is counted as sent, its stamp returned, a looped frame received. -/
def execTxDone (p : Port) (dt : Nat) (s : State) : Out :=
  let s := s.elapse dt
  let x := s.port p.val
  match x.cur with
  | none => .next s
  | some f =>
    let s := (s.setPort p.val { x with cur := none }).pbump p.val (if f.tag.isPause then R.NET_TX_PAUSE_SENT else R.NET_TX_SENT)
    let s := s.txStamped p.val f.tag x.curStamp
    let s := if s.looped p.val then s.loopBack p.val x.curStamp f.bytes else s
    .next (s.armHold p.val)

/-- LINK_CHANGE (R650). -/
def execLinkChange (p : Port) (up fec : Bool) (s : State) : Out :=
  let s := if up && 4 ≤ p.val then s.wakeEvent (4 + p.val) else s
  .next ((s.setPort p.val { s.port p.val with link := up, fecLock := fec }).showPhy p.val)

/-- MODULE_INSERT (R632): the identification memory is read and judged; the management ports have no cage. -/
def execModuleInsert (p : Port) (present fits : Bool) (s : State) : Out :=
  .next ((s.setPort p.val { s.port p.val with moduleIn := present, moduleOk := present && fits }).showPhy p.val)

end Sys2Proof.Machine
end

