-- ==== Sys2Proof/Machine/DataPort.lean ====
section
/-!
DEFINITION. The contexts of the data port (R614 to R620): their state, errors and the ends of a burst.
-/

namespace Sys2Proof.Machine

/-! ## Data port contexts (R614 to R620) -/

/-- A context that does nothing. -/
def dpIdle : DpCtx :=
  { addr := 0, space1 := false, busy := false, dirWrite := false, irq := false, left := 0, error := 0, buf := [], ahead := [],
    erasing := none, page := none }

/-- A context, 0 the host's, 1 to 4 those of SV0 to SV3 (R614). -/
def State.dp (s : State) (k : Nat) : DpCtx := mget dpIdle s.hst.ctx k

/-- A context stored. -/
def State.setDp (s : State) (k : Nat) (x : DpCtx) : State := { s with hst := { s.hst with ctx := mset dpIdle s.hst.ctx k x } }

/-- MSI-X vector 3 for the host's context (R610, R623). -/
def State.dpVector (s : State) (k : Nat) (done : Bool) : State :=
  let f : Fld := ⟨R.HST_INT_EN, if done then 2 else 7, if done then 2 else 7⟩
  if k = 0 && s.flag f then s.msix 3 else s

/-- An error of a context is recorded (R620); the first one stays. -/
def State.dpError (s : State) (k code : Nat) : State :=
  let x := s.dp k
  let s := if x.error = 0 then s.setDp k { x with error := code } else s
  ((s.bump R.HST_U_DP_ERRORS).raise ⟨R.HST_INT_STATUS, 7 + k, 7 + k⟩).dpVector k false

/-- A burst has ended (R616, R623). -/
def State.dpEnded (s : State) (k : Nat) : State :=
  let x := s.dp k
  let s := s.setDp k { x with busy := false, ahead := [] }
  if x.irq then (s.raise ⟨R.HST_INT_STATUS, 2 + k, 2 + k⟩).dpVector k true else s

/-- Bytes of words, first word first, and a list of bytes stored in the flash archive from an address. -/
def wordBytes (l : List Word) : List Byte := l.flatMap fun w => leBytes 4 w.toNat
def flashPut (m : SMap Byte) (a : Nat) : List Byte → SMap Byte
  | [] => m
  | b :: t => flashPut (mset 0xFF m a b) (a + 1) t

/-- The flash page being programmed is complete (R617): its words are durable. -/
def State.dpProgram (s : State) (k : Nat) : State :=
  let x := s.dp k
  match x.page with
  | none => s
  | some p =>
    let s := { s with hst := { s.hst with flash := flashPut s.hst.flash (p * 16384) (wordBytes (x.buf.take 4096)) } }
    (s.setDp k { x with buf := x.buf.drop 4096, page := none }).bumpBy R.HST_U_DP_COMMITTED (x.buf.take 4096).length

/-- A burst is ended at once (R619): words read ahead go, a page being programmed is finished, a page that is not complete is
discarded. -/
def State.dpAbort (s : State) (k : Nat) : State :=
  if !(s.dp k).busy then s
  else
    let s := s.dpProgram k
    let x := s.dp k
    let s := s.bumpBy R.HST_U_DP_DISCARDED x.buf.length
    let s := s.setDp k { x with buf := [], page := none }
    (s.dpError k 5).dpEnded k

/-- Every burst ends, and a running erase is cut short (R618, R619: step 6 of R65). -/
def State.dpPowerFail (s : State) : State :=
  (List.range 5).foldl (fun s k =>
    let s := s.dpAbort k
    match (s.dp k).erasing with
    | none => s
    | some b =>
      let s := s.setDp k { s.dp k with erasing := none }
      { s with hst := { s.hst with torn := mset false s.hst.torn b true } }) s

end Sys2Proof.Machine
end

