-- ==== Sys2Proof/Machine/Modes.lean ====
section
/-!
DEFINITION. Modes (chapter 02): the cores and outputs of a mode, requests, mode entry, and the epoch break of R525 that a
recovery makes.
-/

namespace Sys2Proof.Machine

/-! ## What shows the mode -/

/-- SYS_MODE follows the mode (R76). -/
def State.showMode (s : State) : State :=
  s.setReg R.SYS_MODE (w32 (s.sys.prevMode.num * 2 ^ 16 + b2n s.sys.isolated * 256 + b2n s.sys.duty * 128
    + b2n s.sys.trans.isSome * 64 + s.sys.mode.num))

/-- The DUTY lines are asserted (R65 step 1, R489, R530). -/
def State.dutyLines (s : State) : Bool :=
  s.sys.duty && s.sys.warnAt.isNone && s.err.lastResort.isNone && !s.xng.releasing

/-- The DUTY lines moved from `old`: XNG_STATUS.OWN_DUTY follows (R489, R513). -/
def State.linesMoved (s : State) (old : Bool) : State :=
  if s.dutyLines = old then s
  else ((s.setFld F.XNG_STATUS.OWN_DUTY (b2n s.dutyLines)).raise F.XNG_INT_STATUS.DUTY).emit (.dutyLines s.dutyLines)

/-! ## Cores -/

/-- Cores that run in a mode (R55), but for those named out. -/
def State.coresIn (s : State) (m : Mode) : List Nat :=
  match m with
  | .keep | .lockdown | .dormant => []
  | .boot => if 5 ≤ s.sys.bootStep then [16] else []
  | .provision => [16, 17, 18, 19]
  | _ => List.range 20

/-- Entry address of a core's image (R397). -/
def State.entryOf (s : State) (c : Nat) : DWord := mget 0 s.sys.entries (if c < 16 then 0 else if c < 20 then 1 else 2)

/-- A core leaves reset and starts its S-level code at an address (R397). -/
def State.startCore (s : State) (c : Nat) (entry : DWord) : State :=
  (if c < 16 then s.pllRequest else s).setCore c { coreReset c with run := .run, pc := entry, upAt := s.now, kickAt := s.now }

/-- The cores of the present mode run, and no others: a core that runs on is left as it is. The Keeper Core stops in M0 and
M11. -/
def State.modeCores (s : State) : State :=
  let on := s.coresIn s.sys.mode
  let s := if s.sys.mode = .keep || s.sys.mode = .dormant || s.sys.coresOff then s.setCore 20 (coreReset 20) else s
  (List.range 20).foldl (fun s c =>
    if on.contains c && !s.sys.coresOff then
      (if (s.core c).run = .off && !s.namedOut c then s.startCore c (s.entryOf c) else s)
    else if (s.core c).run = .off then s
    else (s.abortTask c).setCore c (coreReset c)) s

/-! ## Queues, tests, duty at a change of mode -/

/-- Backpressure falls before the mode changes (R452). -/
def State.dropBp (s : State) : State := s.rbt.queues.foldl (fun s x => s.setBp x.1 false) s

/-- Backpressure of a watermark mode rises at once (R452). -/
def State.riseBp (s : State) : State :=
  s.rbt.queues.foldl (fun s x =>
    let h := s.tf TF.RBT.Queue.HIGH x.1
    if h != 0 && decide (h ≤ x.2.level) then s.setBp x.1 true else s) s

/-- The unit leaves M8: injections, loops and forces are removed (R58, R75), and with them promiscuous ports (R96). -/
def State.endTest (s : State) : State :=
  let s := ((s.setFld F.SYS_TEST_CTRL.INJ_EN 0).setFld F.SYS_TEST_CTRL.LOOP 0).setReg R.ALM_OUT_FORCE 0
  let s := { s with sys := { s.sys with injHeld := none } }
  (List.range 6).foldl (fun s p => s.setFld (F.NET_CTRL.PROMISC.at (netWin p)) 0) s

/-- A mode holds duty on entry (R56); M6 takes it at its Set boundary and keeps it. -/
def Mode.duty (m : Mode) (had : Bool) : Bool :=
  match m with
  | .service | .degraded => true
  | .takeover => had
  | _ => false

/-- STATE of the Crossing on a mode entry (R501, R513). -/
def State.pairState (s : State) (m : Mode) : Nat :=
  if !s.paired then 0
  else
    match m with
    | .service | .degraded => match s.xng.hb with | some h => if h.state = 5 then 1 else 2 | none => 2
    | .shadow => if s.sys.isolated then 6 else 3
    | .takeover => 8
    | .recovery => s.xngState
    | _ => 0

/-! ## The epoch break (R516, R525) -/

/-- EPOCH rises by one (R516), with its entry on a unit holding duty (R517). -/
def State.incEpoch (s : State) : State :=
  let e := (s.mram.epoch + 1) % 2 ^ 32
  let s := { s.setReg R.ERR_EPOCH (w32 e) with mram := { s.mram with epoch := e } }
  if s.ownJournal && s.paired then s.journal 3 0 0 0 s.tim.mark (leBytes 4 e) else s

/-- With the Glade's own state damaged, a Set is released with every slot empty (R525). -/
def State.emptySets (s : State) (g : Nat) : State :=
  (s.grove g).openSets.foldl (fun s x => (s.putSet g { x with slots := [] }).blankRecord g { x with slots := [] }) s

/-- Steps 1 and 2 for a Grove: its open Sets are released under capacity, or void with damage, and every Set is closed. -/
def State.breakGrove (s : State) (damaged : Bool) (g : Nat) : State :=
  let s := if damaged then s.emptySets g else s
  let s := match (s.grove g).openSets.getLast? with
    | none => s
    | some x => s.forceTo g x.ttag (if damaged then 3 else 2) (s.forceFuel g x.ttag)
  s.closeAll g 1 (s.grove g).sets

/-- Groves that run, in number order. -/
def State.runningGroves (s : State) : List Nat :=
  (s.gld.groves.filter fun x => x.2.run = .running || x.2.run = .stopping).map (·.1)

/-- An epoch break (R525). -/
def State.epochBreak (s : State) : State :=
  let gs := s.runningGroves
  let s := gs.foldl (fun s g => s.breakGrove s.err.gladeBad g) s
  let s := (s.incEpoch).bump R.ERR_U_EPOCH_BREAKS
  gs.foldl (fun s g =>
    match (s.grove g).run with
    | .running => s.setGrove g { s.grove g with run := .starting, ran := true }
    | .stopping => s.groveStopped g
    | _ => s) s

/-! ## Mode entry (R57, R61) -/

/-- A mode is entered (R55, R56, R58, R61, R75). -/
def State.enterMode (s : State) (m : Mode) (requested : Bool) (cause : Nat) : State :=
  let old := s.sys.mode
  let drive := s.drive
  let lines := s.dutyLines
  let s := if old.watermarks && !m.watermarks then s.dropBp else s
  let s := if old = .test && m != .test then s.endTest else s
  let s := if s.sys.duty && (m = .commission || m = .test || m = .dormant) then s.ringLog 0x0011 0xFF (leBytes 1 old.num ++ leBytes 1 m.num) else s
  let s := s.setDuty (m.duty s.sys.duty)
  let s : State := { s with
    sys := { s.sys with
      mode := m, prevMode := old, trans := none
      isolated := s.sys.isolated && (m = .shadow || m = .recovery)
      preRecovery := if m = .recovery then old else s.sys.preRecovery
      testWdogAt := if m = .test then s.now else s.sys.testWdogAt }
    xng := { s.xng with
      tsDone := if m = .takeover then false else s.xng.tsDone
      toDone := if m = .takeover then false else s.xng.toDone
      releasing := s.xng.releasing && m != .shadow && m != .service
      handover := none, joinWant := false, cut := none
      joinAt := none, lagOkAt := none, retryAt := none }
    alm := { s.alm with held := if m = .takeover then s.alm.held else [] } }
  let s := (s.setXngState (s.pairState m)).showMode
  let s := s.ringLog 0x0001 0xFF (leBytes 1 old.num ++ leBytes 1 m.num ++ leBytes 2 cause ++ leBytes 4 s.epoch ++ leBytes 8 s.gt)
  let s := (s.setCnt R.SYS_MODE_ENTRY (w64 s.gt)).raise F.SYS_INT_STATUS.MODE_CHANGE
  let s := if requested then s.requestResult 2 else s
  let s := if !old.watermarks && m.watermarks then s.riseBp else s
  let s := s.modeCores
  let s := if s.gladeMayStart && s.timeOk then s.startGlade else s
  let s := (s.driveChanged drive).linesMoved lines
  let s := if m = .keep || m = .dormant then { s with tim := { s.tim with running := false } }.armWatcher else s
  if m = .recovery && s.xng.via508 then s.epochBreak else s.judgeDegraded (if m = .service then 5 else 6)

/-- A transition that waits for its handover is not yet due (R56). -/
def State.transDue (s : State) : Bool :=
  match s.sys.trans with
  | none => false
  | some t => !(t.requested && s.xng.handover.isSome)

/-- MODE_ENTRY (R61): the transition in progress completes. -/
def execModeEntry (s : State) : Out :=
  match s.sys.trans with
  | none => .next s
  | some t => if s.transDue then .next (s.enterMode t.target t.requested t.cause) else .next s

/-! ## Requests (R57, R59, R60) -/

/-- A mode requested from a mode, by the rows of R57 and the handover of R509. -/
def requestFrom (target mode : Mode) : Bool :=
  match target, mode with
  | .service, .commission | .shadow, .commission => true
  | .shadow, .service | .shadow, .degraded => true
  | .test, .commission | .test, .service => true
  | .commission, .service | .commission, .shadow | .commission, .degraded | .commission, .test => true
  | .dormant, .service | .dormant, .shadow | .dormant, .degraded => true
  | .recovery, .service | .recovery, .shadow | .recovery, .takeover | .recovery, .degraded | .recovery, .test => true
  | _, _ => false

/-- The request needs an operator's signature (R59). -/
def needsSignature (target mode : Mode) : Bool :=
  (target = .commission || target = .dormant) && (mode = .service || mode = .shadow || mode = .degraded)

/-- The peer's last heartbeat shows it holding duty. -/
def State.peerDuty (s : State) : Bool := match s.xng.hb with | some h => h.duty | none => false

/-- The conditions of R57 on a request: no fault calls for M9 by request. -/
def State.requestMet (s : State) (target : Mode) : Bool :=
  match target with
  | .service => s.mram.committed
  | .shadow =>
    if s.sys.mode = .commission then
      s.mram.committed && s.paired && s.peerDuty && !s.flag F.XNG_STATUS.HOME_CONFLICT
    else s.paired && s.xngState = 1
  | .recovery => false
  | _ => true

/-- The next whole millisecond of Grid Time at or after an instant. -/
def nextMs (t : Nat) : Nat :=
  let ms := (t * 1000 + 2 ^ 32 - 1) / 2 ^ 32
  (ms * 2 ^ 32 + 999) / 1000

/-- A handover is announced for a whole millisecond at least HANDOVER_MS ahead (R509); the holder then enters `target`. -/
def State.announce (s : State) (target : Mode) : State :=
  let t := nextMs (gtAdd s.gt (gtOfMs (s.fld F.XNG_TIMING.HANDOVER_MS)))
  ({ s with xng := { s.xng with handover := some (t, target) } }.setXngState 9).crossSend 3 (leBytes 1 2 ++ leBytes 8 t)

/-- A request is judged (R59, R60): its RESULT. `key` tells that the key was right and the requester may ask; `signed` that
an operator's authority was found. -/
def State.judgeRequest (s : State) (key signed : Bool) (target : Nat) : Nat :=
  if !key then 5
  else if s.sys.trans.isSome || s.sys.warnAt.isSome then 4
  else
    match modeOf target with
    | none => 3
    | some m =>
      if !requestFrom m s.sys.mode then 3
      else if needsSignature m s.sys.mode && !signed then 5
      else if !s.requestMet m then 6
      else 1

/-- A mode request (R59): the state and its RESULT. A unit holding duty hands it to a peer in step first (R56, R509). -/
def State.modeRequest (s : State) (q : Nat) (key signed : Bool) (target : Nat) : State × Nat :=
  let r := s.judgeRequest key signed target
  let s := (s.setFld F.SYS_MODE_STATUS.REQ_ID q).setFld F.SYS_MODE_STATUS.TARGET target
  match r, modeOf target with
  | 1, some m =>
    let s := ({ s with sys := { s.sys with trans := some ⟨m, true, 0⟩ } }.setFld F.SYS_MODE_STATUS.RESULT 1).showMode
    (if s.sys.duty && s.xngState = 1 && m != .recovery then s.announce m else s, 1)
  | _, _ => (s.requestResult r, r)

/-- A held MODE_AUTH is used by a matching request (R541): found, and the state without it. -/
def State.useAuth (s : State) (q target : Nat) : State × Bool :=
  let hit (a : Nat × Nat × Nat) : Bool := a.1 = target && a.2.1 = q && decide (s.now - a.2.2 ≤ 10 * 1200000000)
  let found := s.sec.auths.any hit
  match s.sec.auths.find? hit with
  | none => (s, found)
  | some a => ({ s with sec := { s.sec with auths := s.sec.auths.filter fun b => b ≠ a } }, true)

/-- A request through SYS_MODE_REQ, the host's way (R59): KEY, TARGET and the held MODE_AUTH. -/
def State.modeReqWrite (s : State) (q : Nat) (v : Nat) : State :=
  let target := bitsOf v 3 0
  let key := bitsOf v 31 16 = 0x4D52 && q = 24
  let needs := match modeOf target with | some m => needsSignature m s.sys.mode && requestFrom m s.sys.mode | none => false
  let a := if key && needs && s.sys.trans.isNone && s.sys.warnAt.isNone then s.useAuth q target else (s, false)
  (a.1.modeRequest q key a.2 target).1

end Sys2Proof.Machine
end

