-- ==== Sys2Proof/Decode.lean ====
section
/-!
DEFINITION. The table gives no row any bits, so `decodeTableWord` reads none. The Sapor instructions among the commands have
32-bit words of their own (R402 to R429): their encoder, used for EVAL and the precise sampler, and their decoder, used for
the illegal-instruction check of R403.
-/

namespace Sys2Proof

/-- The command a word spells by the table's bits: the table gives no bits, so none. -/
def decodeTableWord (_nbits _w : Nat) : Option Instr := none

/-! ## Formats (R402) -/

/-- Format A. -/
def fmtA (op : Nat) (rd rs1 rs2 : Rg) (func : Nat) : Word :=
  w32 (op * 2 ^ 26 + rd.toNat * 2 ^ 21 + rs1.toNat * 2 ^ 16 + rs2.toNat * 2 ^ 11 + func)

/-- Format I. -/
def fmtI (op : Nat) (rd rs1 : Rg) (sub imm : Nat) : Word :=
  w32 (op * 2 ^ 26 + rd.toNat * 2 ^ 21 + rs1.toNat * 2 ^ 16 + sub * 2 ^ 14 + imm)

/-- Format M. -/
def fmtM (op : Nat) (rt rb : Rg) (sub : Nat) (off : BitVec 12) : Word :=
  w32 (op * 2 ^ 26 + rt.toNat * 2 ^ 21 + rb.toNat * 2 ^ 16 + sub * 2 ^ 12 + off.toNat)

/-- Format B. -/
def fmtB (op n : Nat) (rs : Rg) (off : BitVec 20) : Word :=
  w32 (op * 2 ^ 26 + n * 2 ^ 25 + rs.toNat * 2 ^ 20 + off.toNat)

/-- Format V. -/
def fmtV (op : Nat) (vd va vb : Rg) (pg : Pr) (func : Nat) : Word :=
  w32 (op * 2 ^ 26 + vd.toNat * 2 ^ 21 + va.toNat * 2 ^ 16 + vb.toNat * 2 ^ 11 + pg.toNat * 2 ^ 8 + func)

/-- Format Q. -/
def fmtQ (op : Nat) (rd rs : Rg) (n b func : Nat) : Word :=
  w32 (op * 2 ^ 26 + rd.toNat * 2 ^ 21 + rs.toNat * 2 ^ 16 + n * 2 ^ 8 + b * 2 ^ 3 + func)

/-- A predicate or lane number in a register field: its high 2 bits are zero. -/
def pr5 (p : Pr) : Rg := BitVec.ofNat 5 p.toNat

/-- Field n of a queue instruction: the number, or the register in [7:3] (R425). -/
def qselN : QSel → Nat
  | .imm n => n.toNat
  | .reg r => r.toNat * 8

/-- Bit R of field b (R425). -/
def qselB : QSel → Nat
  | .imm _ => 0
  | .reg _ => 16

/-- The word of a Sapor instruction; zero for every other command. -/
def encode : Instr → Word
  | .add _ rd rs1 rs2 => fmtA 0x01 rd rs1 rs2 0x000
  | .sub _ rd rs1 rs2 => fmtA 0x01 rd rs1 rs2 0x001
  | .andS _ rd rs1 rs2 => fmtA 0x01 rd rs1 rs2 0x002
  | .orS _ rd rs1 rs2 => fmtA 0x01 rd rs1 rs2 0x003
  | .xorS _ rd rs1 rs2 => fmtA 0x01 rd rs1 rs2 0x004
  | .andn _ rd rs1 rs2 => fmtA 0x01 rd rs1 rs2 0x005
  | .shll _ rd rs1 rs2 => fmtA 0x01 rd rs1 rs2 0x008
  | .shrl _ rd rs1 rs2 => fmtA 0x01 rd rs1 rs2 0x009
  | .shra _ rd rs1 rs2 => fmtA 0x01 rd rs1 rs2 0x00A
  | .lts _ rd rs1 rs2 => fmtA 0x01 rd rs1 rs2 0x010
  | .ltu _ rd rs1 rs2 => fmtA 0x01 rd rs1 rs2 0x011
  | .minS _ rd rs1 rs2 => fmtA 0x01 rd rs1 rs2 0x012
  | .maxS _ rd rs1 rs2 => fmtA 0x01 rd rs1 rs2 0x013
  | .minu _ rd rs1 rs2 => fmtA 0x01 rd rs1 rs2 0x014
  | .maxu _ rd rs1 rs2 => fmtA 0x01 rd rs1 rs2 0x015
  | .mul _ rd rs1 rs2 => fmtA 0x01 rd rs1 rs2 0x018
  | .mulhis _ rd rs1 rs2 => fmtA 0x01 rd rs1 rs2 0x019
  | .mulhiu _ rd rs1 rs2 => fmtA 0x01 rd rs1 rs2 0x01A
  | .quos _ rd rs1 rs2 => fmtA 0x01 rd rs1 rs2 0x01C
  | .quou _ rd rs1 rs2 => fmtA 0x01 rd rs1 rs2 0x01D
  | .mods _ rd rs1 rs2 => fmtA 0x01 rd rs1 rs2 0x01E
  | .modu _ rd rs1 rs2 => fmtA 0x01 rd rs1 rs2 0x01F
  | .clz _ rd rs1 => fmtA 0x01 rd rs1 0 0x020
  | .ctz _ rd rs1 => fmtA 0x01 rd rs1 0 0x021
  | .popc _ rd rs1 => fmtA 0x01 rd rs1 0 0x022
  | .addi _ rd rs1 imm => fmtI 0x02 rd rs1 0 imm.toNat
  | .andi _ rd rs1 imm => fmtI 0x03 rd rs1 0 imm.toNat
  | .ori _ rd rs1 imm => fmtI 0x04 rd rs1 0 imm.toNat
  | .xori _ rd rs1 imm => fmtI 0x05 rd rs1 0 imm.toNat
  | .shlli _ rd rs1 sh => fmtI 0x06 rd rs1 0 sh.toNat
  | .shrli _ rd rs1 sh => fmtI 0x06 rd rs1 1 sh.toNat
  | .shrai _ rd rs1 sh => fmtI 0x06 rd rs1 2 sh.toNat
  | .ltsi _ rd rs1 imm => fmtI 0x07 rd rs1 0 imm.toNat
  | .ltui _ rd rs1 imm => fmtI 0x07 rd rs1 1 imm.toNat
  | .ldhi _ rd imm => fmtI 0x08 rd (BitVec.ofNat 5 (imm.toNat / 2 ^ 14)) 0 (imm.toNat % 2 ^ 14)
  | .pchi _ rd imm => fmtI 0x09 rd (BitVec.ofNat 5 (imm.toNat / 2 ^ 14)) 0 (imm.toNat % 2 ^ 14)
  | .jalr _ rd rs1 imm => fmtI 0x0A rd rs1 0 imm.toNat
  | .cvtif _ rd rs1 f => fmtA 0x0B rd rs1 f 0x000
  | .cvtfi _ rd rs1 f => fmtA 0x0B rd rs1 f 0x001
  | .tcmp _ rd rs1 rs2 => fmtA 0x0C rd rs1 rs2 0x000
  | .tadd _ rd rs1 rs2 => fmtA 0x0C rd rs1 rs2 0x001
  | .taddns _ rd rs1 rs2 => fmtA 0x0C rd rs1 rs2 0x002
  | .taddus _ rd rs1 rs2 => fmtA 0x0C rd rs1 rs2 0x003
  | .bz _ rs off => fmtB 0x10 0 rs off
  | .bnz _ rs off => fmtB 0x10 1 rs off
  | .bltz _ rs off => fmtB 0x11 0 rs off
  | .bgez _ rs off => fmtB 0x11 1 rs off
  | .bp _ all neg p off => fmtB 0x12 (b2n neg) (BitVec.ofNat 5 (b2n all * 8 + p.toNat)) off
  | .jal _ rd off => fmtB 0x13 0 rd off
  | .ld8s _ rt rb off => fmtM 0x18 rt rb 0 off
  | .ld16s _ rt rb off => fmtM 0x18 rt rb 1 off
  | .ld32s _ rt rb off => fmtM 0x18 rt rb 2 off
  | .ld64 _ rt rb off => fmtM 0x18 rt rb 3 off
  | .ld8u _ rt rb off => fmtM 0x18 rt rb 4 off
  | .ld16u _ rt rb off => fmtM 0x18 rt rb 5 off
  | .ld32u _ rt rb off => fmtM 0x18 rt rb 6 off
  | .st8 _ rt rb off => fmtM 0x19 rt rb 0 off
  | .st16 _ rt rb off => fmtM 0x19 rt rb 1 off
  | .st32 _ rt rb off => fmtM 0x19 rt rb 2 off
  | .st64 _ rt rb off => fmtM 0x19 rt rb 3 off
  | .vld _ vt rb off => fmtM 0x1A vt rb 0 off
  | .vst _ vt rb off => fmtM 0x1B vt rb 0 off
  | .cadd _ vd va vb pg => fmtV 0x20 vd va vb pg 0x00
  | .csub _ vd va vb pg => fmtV 0x20 vd va vb pg 0x01
  | .cmul _ vd va vb pg => fmtV 0x20 vd va vb pg 0x02
  | .cmac _ vd va vb pg => fmtV 0x20 vd va vb pg 0x03
  | .cconj _ vd va pg => fmtV 0x20 vd va 0 pg 0x04
  | .cneg _ vd va pg => fmtV 0x20 vd va 0 pg 0x05
  | .cabs _ vd va pg => fmtV 0x20 vd va 0 pg 0x06
  | .carg _ vd va pg => fmtV 0x20 vd va 0 pg 0x07
  | .crot _ vd va vb pg => fmtV 0x20 vd va vb pg 0x08
  | .adiff _ vd va vb pg => fmtV 0x20 vd va vb pg 0x09
  | .fdev _ vd va vb pg => fmtV 0x20 vd va vb pg 0x0A
  | .rdiv _ vd va vb pg => fmtV 0x20 vd va vb pg 0x0B
  | .rmin _ vd va vb pg => fmtV 0x20 vd va vb pg 0x0C
  | .rmax _ vd va vb pg => fmtV 0x20 vd va vb pg 0x0D
  | .vcvtif _ vd va f pg => fmtV 0x20 vd va f pg 0x10
  | .vcvtfi _ vd va f pg => fmtV 0x20 vd va f pg 0x11
  | .vclt _ pd va vb pg => fmtV 0x20 (pr5 pd) va vb pg 0x18
  | .vcle _ pd va vb pg => fmtV 0x20 (pr5 pd) va vb pg 0x19
  | .vceq _ pd va vb pg => fmtV 0x20 (pr5 pd) va vb pg 0x1A
  | .vmov _ vd va pg => fmtV 0x21 vd va 0 pg 0x00
  | .vbcast _ vd sa pg => fmtV 0x21 vd sa 0 pg 0x01
  | .vins _ vd sa lane => fmtV 0x21 vd sa (pr5 lane) 0 0x02
  | .vext _ sd va lane pg => fmtV 0x21 sd va (pr5 lane) pg 0x03
  | .pgetp _ pd va pg => fmtV 0x21 (pr5 pd) va 0 pg 0x04
  | .psetp _ vd pa pg => fmtV 0x21 vd (pr5 pa) 0 pg 0x05
  | .pand _ pd pa pb => fmtV 0x21 (pr5 pd) (pr5 pa) (pr5 pb) 0 0x08
  | .por _ pd pa pb => fmtV 0x21 (pr5 pd) (pr5 pa) (pr5 pb) 0 0x09
  | .pxor _ pd pa pb => fmtV 0x21 (pr5 pd) (pr5 pa) (pr5 pb) 0 0x0A
  | .pandn _ pd pa pb => fmtV 0x21 (pr5 pd) (pr5 pa) (pr5 pb) 0 0x0B
  | .pmovs _ sd pa => fmtV 0x21 sd (pr5 pa) 0 0 0x0C
  | .pmovp _ pd sa => fmtV 0x21 (pr5 pd) sa 0 0 0x0D
  | .crsum _ vd va sb pg => fmtV 0x22 vd va sb pg 0x00
  | .rrmax _ vd va sb pg => fmtV 0x22 vd va sb pg 0x01
  | .rrmin _ vd va sb pg => fmtV 0x22 vd va sb pg 0x02
  | .setld _ vd sa pg => fmtV 0x23 vd sa 0 pg 0x00
  | .setq _ sd sa => fmtV 0x23 sd sa 0 0 0x01
  | .qpush _ rd rs n first last => fmtQ 0x28 rd rs (qselN n) (qselB n + b2n first * 8 + b2n last * 4) 0
  | .qpop _ rd rs n => fmtQ 0x28 rd rs (qselN n) (qselB n) 1
  | .qpeek _ rd rs n => fmtQ 0x28 rd rs (qselN n) (qselB n) 2
  | .dbell _ rd rs n b => fmtQ 0x29 rd rs n.toNat b.toNat 0
  | .waitevD _ rd rs => fmtQ 0x29 rd rs 0 0 1
  | .waitevQ _ rd rs n => fmtQ 0x29 rd rs n.toNat 0 2
  | .cwr _ rd cw => fmtI 0x30 rd 0 0 cw.toNat
  | .cww _ rs1 cw => fmtI 0x30 0 rs1 1 cw.toNat
  | .syscall _ code => fmtI 0x30 0 0 2 code.toNat
  | .eret _ => fmtI 0x30 0 0 3 0
  | .modereq _ rd rs1 => fmtI 0x30 rd rs1 3 0x400
  | .fenceMem _ => fmtI 0x30 0 0 3 0x801
  | .fenceSt _ => fmtI 0x30 0 0 3 0x802
  | .fenceLd _ => fmtI 0x30 0 0 3 0x803
  | .fenceCtl _ => fmtI 0x30 0 0 3 0x804
  | .fenceAll _ => fmtI 0x30 0 0 3 0x805
  | .fenceExec _ => fmtI 0x30 0 0 3 0x806
  | _ => 0

/-! ## Decoder -/

/-- Fields of a word. -/
def wRd (w : Word) : Rg := w.extractLsb' 21 5
def wRs1 (w : Word) : Rg := w.extractLsb' 16 5
def wRs2 (w : Word) : Rg := w.extractLsb' 11 5
def wPg (w : Word) : Pr := w.extractLsb' 8 3

/-- A predicate in a register field, refused when its high 2 bits are not zero (R402). -/
def pred5 (r : Rg) : Option Pr := if r.toNat < 8 then some (BitVec.ofNat 3 r.toNat) else none

/-- Opcode 0x01 (R406). -/
def decInt (c : CoreId) (w : Word) : Option Instr :=
  let rd := wRd w; let a := wRs1 w; let b := wRs2 w
  match w.toNat % 2 ^ 11 with
  | 0x000 => some (.add c rd a b)
  | 0x001 => some (.sub c rd a b)
  | 0x002 => some (.andS c rd a b)
  | 0x003 => some (.orS c rd a b)
  | 0x004 => some (.xorS c rd a b)
  | 0x005 => some (.andn c rd a b)
  | 0x008 => some (.shll c rd a b)
  | 0x009 => some (.shrl c rd a b)
  | 0x00A => some (.shra c rd a b)
  | 0x010 => some (.lts c rd a b)
  | 0x011 => some (.ltu c rd a b)
  | 0x012 => some (.minS c rd a b)
  | 0x013 => some (.maxS c rd a b)
  | 0x014 => some (.minu c rd a b)
  | 0x015 => some (.maxu c rd a b)
  | 0x018 => some (.mul c rd a b)
  | 0x019 => some (.mulhis c rd a b)
  | 0x01A => some (.mulhiu c rd a b)
  | 0x01C => some (.quos c rd a b)
  | 0x01D => some (.quou c rd a b)
  | 0x01E => some (.mods c rd a b)
  | 0x01F => some (.modu c rd a b)
  | 0x020 => if b = 0 then some (.clz c rd a) else none
  | 0x021 => if b = 0 then some (.ctz c rd a) else none
  | 0x022 => if b = 0 then some (.popc c rd a) else none
  | _ => none

/-- Opcodes 0x02 to 0x0C (R404, R408, R409, R419, R420). -/
def decImm (c : CoreId) (op : Nat) (w : Word) : Option Instr :=
  let rd := wRd w; let a := wRs1 w; let b := wRs2 w
  let sub := bitsOf w.toNat 15 14
  let imm : BitVec 14 := w.extractLsb' 0 14
  let func := w.toNat % 2 ^ 11
  match op with
  | 0x02 => if sub = 0 then some (.addi c rd a imm) else none
  | 0x03 => if sub = 0 then some (.andi c rd a imm) else none
  | 0x04 => if sub = 0 then some (.ori c rd a imm) else none
  | 0x05 => if sub = 0 then some (.xori c rd a imm) else none
  | 0x06 =>
    if imm.toNat < 64 then
      match sub with
      | 0 => some (.shlli c rd a (imm.extractLsb' 0 6))
      | 1 => some (.shrli c rd a (imm.extractLsb' 0 6))
      | 2 => some (.shrai c rd a (imm.extractLsb' 0 6))
      | _ => none
    else none
  | 0x07 =>
    match sub with
    | 0 => some (.ltsi c rd a imm)
    | 1 => some (.ltui c rd a imm)
    | _ => none
  | 0x08 => if sub = 0 then some (.ldhi c rd (BitVec.ofNat 19 (a.toNat * 2 ^ 14 + imm.toNat))) else none
  | 0x09 => if sub = 0 then some (.pchi c rd (BitVec.ofNat 19 (a.toNat * 2 ^ 14 + imm.toNat))) else none
  | 0x0A => if sub = 0 then some (.jalr c rd a imm) else none
  | 0x0B =>
    match func with
    | 0 => some (.cvtif c rd a b)
    | 1 => some (.cvtfi c rd a b)
    | _ => none
  | 0x0C =>
    match func with
    | 0 => some (.tcmp c rd a b)
    | 1 => some (.tadd c rd a b)
    | 2 => some (.taddns c rd a b)
    | 3 => some (.taddus c rd a b)
    | _ => none
  | _ => none

/-- Format B opcodes (R409). -/
def decBranch (c : CoreId) (op : Nat) (w : Word) : Option Instr :=
  let n := w.toNat.testBit 25
  let rs : Rg := w.extractLsb' 20 5
  let off : BitVec 20 := w.extractLsb' 0 20
  match op with
  | 0x10 => some (if n then .bnz c rs off else .bz c rs off)
  | 0x11 => some (if n then .bgez c rs off else .bltz c rs off)
  | 0x12 => if rs.toNat < 16 then some (.bp c (rs.toNat.testBit 3) n (rs.extractLsb' 0 3) off) else none
  | 0x13 => if n then none else some (.jal c rs off)
  | _ => none

/-- Format M opcodes (R411). -/
def decMem (c : CoreId) (op : Nat) (w : Word) : Option Instr :=
  let rt := wRd w; let rb := wRs1 w
  let off : BitVec 12 := w.extractLsb' 0 12
  match op, bitsOf w.toNat 15 12 with
  | 0x18, 0 => some (.ld8s c rt rb off)
  | 0x18, 1 => some (.ld16s c rt rb off)
  | 0x18, 2 => some (.ld32s c rt rb off)
  | 0x18, 3 => some (.ld64 c rt rb off)
  | 0x18, 4 => some (.ld8u c rt rb off)
  | 0x18, 5 => some (.ld16u c rt rb off)
  | 0x18, 6 => some (.ld32u c rt rb off)
  | 0x19, 0 => some (.st8 c rt rb off)
  | 0x19, 1 => some (.st16 c rt rb off)
  | 0x19, 2 => some (.st32 c rt rb off)
  | 0x19, 3 => some (.st64 c rt rb off)
  | 0x1A, 0 => some (.vld c rt rb off)
  | 0x1B, 0 => some (.vst c rt rb off)
  | _, _ => none

/-- Opcode 0x20 (R414). -/
def decVec (c : CoreId) (w : Word) : Option Instr :=
  let vd := wRd w; let va := wRs1 w; let vb := wRs2 w; let pg := wPg w
  match w.toNat % 256 with
  | 0x00 => some (.cadd c vd va vb pg)
  | 0x01 => some (.csub c vd va vb pg)
  | 0x02 => some (.cmul c vd va vb pg)
  | 0x03 => some (.cmac c vd va vb pg)
  | 0x08 => some (.crot c vd va vb pg)
  | 0x09 => some (.adiff c vd va vb pg)
  | 0x0A => some (.fdev c vd va vb pg)
  | 0x0B => some (.rdiv c vd va vb pg)
  | 0x0C => some (.rmin c vd va vb pg)
  | 0x0D => some (.rmax c vd va vb pg)
  | 0x04 => if vb = 0 then some (.cconj c vd va pg) else none
  | 0x05 => if vb = 0 then some (.cneg c vd va pg) else none
  | 0x06 => if vb = 0 then some (.cabs c vd va pg) else none
  | 0x07 => if vb = 0 then some (.carg c vd va pg) else none
  | 0x10 => some (.vcvtif c vd va vb pg)
  | 0x11 => some (.vcvtfi c vd va vb pg)
  | 0x18 => (pred5 vd).map fun pd => .vclt c pd va vb pg
  | 0x19 => (pred5 vd).map fun pd => .vcle c pd va vb pg
  | 0x1A => (pred5 vd).map fun pd => .vceq c pd va vb pg
  | _ => none

/-- Opcode 0x21 (R417). -/
def decMove (c : CoreId) (w : Word) : Option Instr :=
  let vd := wRd w; let va := wRs1 w; let vb := wRs2 w; let pg := wPg w
  match w.toNat % 256 with
  | 0x00 => if vb = 0 then some (.vmov c vd va pg) else none
  | 0x01 => if vb = 0 then some (.vbcast c vd va pg) else none
  | 0x02 => if pg = 0 then (pred5 vb).map fun l => .vins c vd va l else none
  | 0x03 => if pg = 0 then none else (pred5 vb).map fun l => .vext c vd va l pg
  | 0x04 => if vb = 0 then (pred5 vd).map fun pd => .pgetp c pd va pg else none
  | 0x05 => if vb = 0 then (pred5 va).map fun pa => .psetp c vd pa pg else none
  | 0x08 => if pg = 0 then (pred5 vd).bind fun d => (pred5 va).bind fun a => (pred5 vb).map fun b => .pand c d a b else none
  | 0x09 => if pg = 0 then (pred5 vd).bind fun d => (pred5 va).bind fun a => (pred5 vb).map fun b => .por c d a b else none
  | 0x0A => if pg = 0 then (pred5 vd).bind fun d => (pred5 va).bind fun a => (pred5 vb).map fun b => .pxor c d a b else none
  | 0x0B => if pg = 0 then (pred5 vd).bind fun d => (pred5 va).bind fun a => (pred5 vb).map fun b => .pandn c d a b else none
  | 0x0C => if pg = 0 ∧ vb = 0 then (pred5 va).map fun a => .pmovs c vd a else none
  | 0x0D => if pg = 0 ∧ vb = 0 then (pred5 vd).map fun d => .pmovp c d va else none
  | _ => none

/-- Opcodes 0x22 and 0x23 (R418, R421, R422). -/
def decSet (c : CoreId) (op : Nat) (w : Word) : Option Instr :=
  let vd := wRd w; let va := wRs1 w; let vb := wRs2 w; let pg := wPg w
  match op, w.toNat % 256 with
  | 0x22, 0 => some (.crsum c vd va vb pg)
  | 0x22, 1 => some (.rrmax c vd va vb pg)
  | 0x22, 2 => some (.rrmin c vd va vb pg)
  | 0x23, 0 => if vb = 0 then some (.setld c vd va pg) else none
  | 0x23, 1 => if vb = 0 ∧ pg = 0 then some (.setq c vd va) else none
  | _, _ => none

/-- The queue field of a word, refused when R is set and n [2:0] is not zero (R425). -/
def decQsel (w : Word) : Option QSel :=
  if w.toNat.testBit 7 then
    (if bitsOf w.toNat 10 8 = 0 then some (.reg (w.extractLsb' 11 5)) else none)
  else some (.imm (w.extractLsb' 8 8))

/-- Opcodes 0x28 and 0x29 (R425, R427, R428). -/
def decQueue (c : CoreId) (op : Nat) (w : Word) : Option Instr :=
  let rd := wRd w; let rs := wRs1 w
  let n : Byte := w.extractLsb' 8 8
  let b : BitVec 5 := w.extractLsb' 3 5
  match op, w.toNat % 8 with
  | 0x28, 0 =>
    if bitsOf w.toNat 4 3 = 0 then
      (decQsel w).map fun q => .qpush c rd rs q (w.toNat.testBit 6) (w.toNat.testBit 5) else none
  | 0x28, 1 => if bitsOf w.toNat 6 3 = 0 then (decQsel w).map fun q => .qpop c rd rs q else none
  | 0x28, 2 => if bitsOf w.toNat 6 3 = 0 then (decQsel w).map fun q => .qpeek c rd rs q else none
  | 0x29, 0 => some (.dbell c rd rs n b)
  | 0x29, 1 => if n = 0 ∧ b = 0 then some (.waitevD c rd rs) else none
  | 0x29, 2 => if b = 0 then some (.waitevQ c rd rs n) else none
  | _, _ => none

/-- Control words that are not reserved (R380). -/
def cwListed (n : Nat) : Bool :=
  decide (n ≤ 8) || (decide (0x10 ≤ n) && decide (n ≤ 0x16)) || n = 0x18 || n = 0x20 || n = 0x21
    || (decide (0x30 ≤ n) && decide (n ≤ 0x37))

/-- Opcode 0x30 (R429). -/
def decSys (c : CoreId) (w : Word) : Option Instr :=
  let rd := wRd w; let rs1 := wRs1 w
  let imm := w.toNat % 2 ^ 14
  let cw : BitVec 10 := w.extractLsb' 0 10
  match bitsOf w.toNat 15 14 with
  | 0 => if rs1 = 0 ∧ imm < 1024 ∧ cwListed imm = true then some (.cwr c rd cw) else none
  | 1 => if rd = 0 ∧ imm < 1024 ∧ cwListed imm = true then some (.cww c rs1 cw) else none
  | 2 => if rd = 0 ∧ rs1 = 0 then some (.syscall c (w.extractLsb' 0 14)) else none
  | _ =>
    if imm = 0x400 then some (.modereq c rd rs1)
    else if rd = 0 ∧ rs1 = 0 then
      match imm with
      | 0x000 => some (.eret c)
      | 0x801 => some (.fenceMem c)
      | 0x802 => some (.fenceSt c)
      | 0x803 => some (.fenceLd c)
      | 0x804 => some (.fenceCtl c)
      | 0x805 => some (.fenceAll c)
      | 0x806 => some (.fenceExec c)
      | _ => none
    else none

/-- The instruction a word spells for a core; none for a word that R403 makes illegal. -/
def decode (c : CoreId) (w : Word) : Option Instr :=
  let op := bitsOf w.toNat 31 26
  match op with
  | 0x01 => decInt c w
  | 0x10 | 0x11 | 0x12 | 0x13 => decBranch c op w
  | 0x18 | 0x19 | 0x1A | 0x1B => decMem c op w
  | 0x20 => decVec c w
  | 0x21 => decMove c w
  | 0x22 | 0x23 => decSet c op w
  | 0x28 | 0x29 => decQueue c op w
  | 0x30 => decSys c w
  | _ => decImm c op w

/-- MODEREQ is illegal on a Stream Engine and on the Keeper Core (R431). -/
def legalWord (c : CoreId) (w : Word) : Bool :=
  match decode c w with
  | none => false
  | some (.modereq ..) => decide (16 ≤ c.val) && decide (c.val < 20)
  | some _ => true

end Sys2Proof
end

