-- ==== Sys2Proof/Machine/Operands.lean ====
section
/-!
DEFINITION. The operand forms of the Sapor cores (chapters 13 and 14): scalar, vector and predicate registers, presence,
regions, control words, entry into and return from exceptions, and the one frame in which every instruction runs.
-/

namespace Sys2Proof.Machine

/-! ## Register files (R371, R372) -/

/-- A scalar register; s0 reads as zero. -/
def Core.gs (k : Core) (r : Rg) : DWord := if r = 0 then 0 else mget 0 k.s r.toNat

/-- A scalar register written; a write of s0 is discarded. -/
def Core.setGs (k : Core) (r : Rg) (v : DWord) : Core := if r = 0 then k else { k with s := mset 0 k.s r.toNat v }

/-- An absent lane: both components +0 (R375). -/
def laneAbsent : Lane := ⟨0, 0, false⟩

/-- Lane `l` of a vector register. -/
def Core.lane (k : Core) (r : Rg) (l : Nat) : Lane := mget laneAbsent k.v (r.toNat * 8 + l)

/-- A lane written together with its presence bit (R372). -/
def Core.setLane (k : Core) (r : Rg) (l : Nat) (x : Lane) : Core :=
  { k with v := mset laneAbsent k.v (r.toNat * 8 + l) x }

/-- A present lane with a real value: im is +0 (R371). -/
def realLane (re : Nat) : Lane := ⟨w32 re, 0, true⟩

/-- A predicate register; p0 reads as all ones. -/
def Core.pr (k : Core) (p : Pr) : Byte := if p = 0 then 0xFF else mget 0 k.p p.toNat

/-- A predicate register written; a write of p0 is discarded. -/
def Core.setPr (k : Core) (p : Pr) (v : Byte) : Core := if p = 0 then k else { k with p := mset 0 k.p p.toNat v }

/-- Bit `l` of a predicate. -/
def Core.prBit (k : Core) (p : Pr) (l : Nat) : Bool := (k.pr p).toNat.testBit l

/-- Bits 0 to 7 from a function of the lane. -/
def predOf (f : Nat → Bool) : Byte := BitVec.ofNat 8 ((List.range 8).foldl (fun a l => a + b2n (f l) * 2 ^ l) 0)

/-- Sticky conditions of FFLAGS set (R373, R407). -/
def Core.orFlags (k : Core) (f : Nat) : Core := { k with fflags := k.fflags ||| w32 f }

/-! ## Levels and time -/

/-- The level of S code on the core: S, or K on the Keeper Core (R368). -/
def svLevel (c : Nat) : Nat := if c = 20 then 2 else 1

/-- The core runs S code (or K code on the Keeper Core). -/
def Core.atS (k : Core) : Bool := k.pl != 0

/-- Core clk in a number of Boulevard clk (R33): 1.2 GHz, 1.0 GHz and 400 MHz. -/
def coreClkOf (c n : Nat) : Nat := if c < 16 then n else if c < 20 then n * 5 / 6 else n / 3

/-- CLK (R380). -/
def State.coreClk (s : State) (c : Nat) : Nat := coreClkOf c (s.now - (s.core c).upAt)

/-! ## Regions (R370, R382) -/

/-- A region word contains the address and grants the permission in bit `perm` (0 R, 1 W, 2 X). -/
def regionGrants (w : DWord) (a perm : Nat) : Bool :=
  let size := bitsOf w.toNat 11 6
  size != 0 && (a >>> size = (w.toNat % 2 ^ 40) >>> size) && w.toNat.testBit perm

/-- P code may access the address with the permission. -/
def Core.permits (k : Core) (a perm : Nat) : Bool :=
  (List.range 8).any fun n => regionGrants (mget 0 k.region n) a perm

/-- A region word that may be written: SIZE 0 or 12 to 39, and BASE aligned to it (R382). -/
def regionLegal (v : DWord) : Bool :=
  let size := bitsOf v.toNat 11 6
  size = 0 || (decide (12 ≤ size) && decide (size ≤ 39) && (bitsOf v.toNat 39 12 * 4096) % 2 ^ size = 0)

/-- Stored bits of a region word. -/
def regionMask (v : DWord) : DWord :=
  w64 (bitsOf v.toNat 39 6 * 64 + bitsOf v.toNat 2 0)

/-! ## Exception and interrupt entry, and the return (R387, R388) -/

/-- STATUS inside a handler: the S (or K) level and EXL one, DET zero, IE as given. -/
def handlerStatus (c : Nat) (ie : Bool) : Word := w32 (svLevel c + b2n ie * 4 + 8)

/-- Exception entry; a double fault while EXL is one stops the core and goes to the fault collector as code 0x11 with the
new CAUSE. -/
def State.excEntry (s : State) (c code : Nat) (eval : DWord) : State :=
  let k := s.core c
  if statusExl k.status then (s.setCore c { k with run := .halted }).detect 0x11 code c
  else
    (s.setCore c { k with
      epc := k.pc, estatus := k.status, cause := w32 code, eval := eval, status := handlerStatus c false,
      pc := k.evec }).coreEvent c 0x07 k.pl 0

/-- Interrupt entry: as for an exception, with CAUSE.INT set, EVAL as it was, IE as it was, at EVEC + 0x40. -/
def State.intEntry (s : State) (c : Nat) : State :=
  let k := s.core c
  (s.setCore c { k with
    run := .run, epc := k.pc, estatus := k.status, cause := w32 (2 ^ 31),
    status := handlerStatus c (statusIe k.status), pc := k.evec + 0x40 }).coreEvent c 0x08 k.pl 0

/-- STATUS that ERET restores: ESTATUS, and on the Keeper Core level K always (R368). -/
def eretStatus (c : Nat) (estatus : Word) : Word := if c = 20 then w32 (putBits estatus.toNat 1 0 2) else estatus

/-- ERET restores PC from EPC and STATUS from ESTATUS. -/
def Core.eretTo (k : Core) (c : Nat) : Core := { k with pc := k.epc, status := eretStatus c k.estatus }

/-! ## The frame of an instruction -/

/-- What the body of an instruction does. -/
inductive InsRes where
  /-- completes; the next instruction follows -/
  | ok (s : State)
  /-- completes and goes on at an address -/
  | jump (s : State) (pc : DWord)
  /-- leaves the PC where it is: a task end or a wait; the flag tells that the instruction completed -/
  | stay (s : State) (completed : Bool)
  /-- raises an exception: with the state in which only counts and fault reports differ, its code and EVAL -/
  | exc (s : State) (code : Nat) (eval : DWord)

/-- A poisoned word was read: it counts, and raises no new fault record (R520). -/
def State.poisonRead (s : State) : State := s.bump R.ERR_U_POISON_READS

/-- A control register address. -/
def isControl (a : Nat) : Bool := decide (ctrlBase ≤ a) && decide (a < ctrlBase + ctrlSize)

/-- Instructions can be fetched from the address: SRAM or DRAM, and only by the Keeper Core inside the boundary (R370,
R535). -/
def fetchable (c a : Nat) : Bool :=
  isMemory a && (c = 20 || !(decide (boundaryStart ≤ a) && decide (a < sramEnd)))

/-- The exception code of an instruction fetch, one of the two of R432, with whether a poisoned word was read: an access that is
not permitted or reaches no memory reads nothing, so the uncorrectable word comes last. -/
def State.fetchFault (s : State) (c : Nat) : Option (Nat × Bool) :=
  let k := s.core c
  let a := k.pc.toNat
  if a % 4 != 0 || decide (2 ^ 40 ≤ a) then some (0x02, false)
  else if k.pl = 0 && !k.permits a 2 then some (0x02, false)
  else if !fetchable c a then some (0x02, false)
  else if s.poisoned a then some (0x01, true)
  else none

/-- A completed instruction: the counters of R596 and the sampler of R602. -/
def State.completed (s : State) (k : Core) (c : Nat) (clk : Nat) (word : Word) (cls : Nat) : State :=
  let s := s.coreEvent c 0x02 k.pl cls
  s.sampleIns c k.pl cls k.pc.toNat word clk
    (k.taskkey.toNat % 4096 + (if k.task = none then 2 ^ 15 else 0))
    (bitsOf k.status.toNat 5 5 * 8 + bitsOf k.status.toNat 3 3 * 4 + k.pl)

/-- The PC of a core set. -/
def State.setPc (s : State) (c : Nat) (pc : DWord) : State := s.setCore c { s.core c with pc := pc }

/-- One instruction on a core that executes: the fetch checks, then the body. A core that does not execute (held in reset,
in WAIT or WAITEV, stopped by a double fault) does nothing. -/
def State.runIns (s : State) (c : CoreId) (word : Word) (cls : Nat) (body : State → InsRes) : State :=
  let k := s.core c.val
  if k.run ≠ .run then s
  else
    match s.fetchFault c.val with
    | some (code, poison) => (if poison then s.poisonRead else s).excEntry c.val code k.pc
    | none =>
      match body s with
      | .exc t code ev => t.excEntry c.val code ev
      | .ok t => (t.setPc c.val (k.pc + 4)).completed k c.val (s.coreClk c.val) word cls
      | .jump t pc => (t.setPc c.val pc).completed k c.val (s.coreClk c.val) word cls
      | .stay t done => if done then t.completed k c.val (s.coreClk c.val) word cls else t

/-- EVAL of an exception that carries the instruction word (R386). -/
def wordEval (w : Word) : DWord := w64 w.toNat

/-- A body that only changes the core's own registers. -/
def State.onCore (s : State) (c : CoreId) (f : Core → Core) : InsRes := .ok (s.setCore c.val (f (s.core c.val)))

/-! ## Control words (R380) -/

/-- Control words P may not read. -/
def cwSOnly (n : Nat) : Bool := (decide (2 ≤ n) && decide (n ≤ 8)) || (decide (0x30 ≤ n) && decide (n ≤ 0x37))

/-- Control words that are read-only at every level. -/
def cwReadOnly (n : Nat) : Bool :=
  n = 0x00 || n = 0x04 || n = 0x05 || (decide (0x10 ≤ n) && decide (n ≤ 0x12)) || n = 0x15 || n = 0x16 || n = 0x20 || n = 0x21

/-- Value of a control word. -/
def State.cwRead (s : State) (c : Nat) (n : Nat) : DWord :=
  let k := s.core c
  match n with
  | 0x00 => k.pc
  | 0x01 => w64 k.status.toNat
  | 0x02 => w64 k.estatus.toNat
  | 0x03 => k.epc
  | 0x04 => w64 k.cause.toNat
  | 0x05 => k.eval
  | 0x06 => k.evec
  | 0x07 => k.scratch0
  | 0x08 => k.scratch1
  | 0x10 => w64 (c + (if c < 16 then 0 else if c < 20 then 1 else 2) * 2 ^ 8)
  | 0x11 => w64 k.epoch.toNat
  | 0x12 => k.ttag
  | 0x13 => k.setbase
  | 0x14 => w64 k.setctx.toNat
  | 0x15 => k.taskarg
  | 0x16 => w64 k.taskkey.toNat
  | 0x18 => w64 k.fflags.toNat
  | 0x20 => w64 (s.coreClk c)
  | 0x21 => w64 s.gt
  | _ => if 0x30 ≤ n ∧ n ≤ 0x37 then mget 0 k.region (n - 0x30) else 0

/-- ESTATUS as written: DET, EXL, IE, and PL where the core can reach that level; else PL stays (log 14). -/
def estatusWrite (c : Nat) (old : Word) (v : DWord) : Word :=
  let pl := v.toNat % 4
  let ok := if c = 20 then pl = 2 else pl < 2
  w32 (bitsOf v.toNat 5 5 * 32 + bitsOf v.toNat 3 2 * 4 + (if ok then pl else old.toNat % 4))

/-- A control word other than SETBASE written at S; read-only words and fields keep their value. -/
def Core.cwWrite (k : Core) (c n : Nat) (v : DWord) : Core :=
  match n with
  | 0x01 => { k with status := w32 (bitsOf v.toNat 5 5 * 32 + bitsOf k.status.toNat 3 3 * 8 + bitsOf v.toNat 2 2 * 4
                + k.status.toNat % 4) }
  | 0x02 => { k with estatus := estatusWrite c k.estatus v }
  | 0x03 => { k with epc := v }
  | 0x06 => { k with evec := w64 (v.toNat / 256 * 256) }
  | 0x07 => { k with scratch0 := v }
  | 0x08 => { k with scratch1 := v }
  | 0x14 => { k with setctx := w32 (bitsOf k.setctx.toNat 13 8 * 2 ^ 8 + v.toNat % 2) }
  | 0x18 => { k with fflags := w32 (v.toNat % 64) }
  | _ =>
    if 0x30 ≤ n ∧ n ≤ 0x37 then
      (if regionLegal v then { k with region := mset 0 k.region (n - 0x30) (regionMask v) } else k)
    else k

end Sys2Proof.Machine
end

