-- ==== Sys2Proof/Machine/Err.lean ====
section
/-!
DEFINITION. Faults and recovery (chapter 18): the fault collector, containment by class, core resets, watchdogs, the scrubber,
the recovery role and the unit recovery of M9.
-/

namespace Sys2Proof.Machine

/-! ## Classes (R518) -/

/-- The class of a fault code; none for a reserved code. -/
def faultClass : Nat → Option Nat
  | 0x01 | 0x02 | 0x09 | 0x0A => some 0
  | 0x03 | 0x04 | 0x05 | 0x06 | 0x07 | 0x08 => some 1
  | 0x10 | 0x11 | 0x12 => some 2
  | 0x18 | 0x19 | 0x1A => some 3
  | 0x30 | 0x31 => some 4
  | 0x20 | 0x21 | 0x22 | 0x23 | 0x24 => some 5
  | _ => none

/-- The bit of ERR_INT_STATUS of a class. -/
def classBit (cls : Nat) : Fld := ⟨R.ERR_INT_STATUS, cls, cls⟩

/-! ## The log (R522) -/

/-- The 32 bytes of a record. -/
def FaultRec.bytes (r : FaultRec) : List Byte :=
  leBytes 8 r.seq ++ leBytes 8 r.tDetect ++ leBytes 8 r.whereF ++ leBytes 4 r.epoch ++ leBytes 1 r.code ++ leBytes 1 r.cls
    ++ leBytes 1 r.req ++ leBytes 1 r.count

/-- Word `i` of the oldest record, zero with an empty log. -/
def State.errLogWord (s : State) (i : Nat) : Word :=
  match s.err.log with
  | [] => 0
  | r :: _ => w32 (leAt r.bytes (4 * i) 4)

/-- ERR_STATUS (R533). -/
def State.errStatus (s : State) : Nat := s.err.holder * 2 ^ 16 + b2n s.err.recovering * 256 + s.err.log.length

/-- The log without its oldest record of class 0 or 1; none when it holds none. -/
def dropMinor : List FaultRec → Option (List FaultRec)
  | [] => none
  | r :: t => if r.cls < 2 then some t else (dropMinor t).map (r :: ·)

/-- A record enters the log (R522): merged into the newest, appended, in place of a minor one, or lost. -/
def State.logFault (s : State) (r : FaultRec) : State :=
  let put (s : State) (l : List FaultRec) : State := { s with err := { s.err with log := l } }
  let lost (s : State) : State := (s.bump R.ERR_U_LOG_LOST).raise F.ERR_INT_STATUS.LOG_LOST
  match s.err.log.getLast? with
  | some n =>
    if n.code = r.code && n.whereF = r.whereF then
      put s (s.err.log.dropLast ++ [{ n with count := min 255 (n.count + 1) }])
    else if s.err.log.length < 16 then put s (s.err.log ++ [r])
    else if r.cls < 2 then lost s
    else
      match dropMinor s.err.log with
      | some l => put s (l ++ [r])
      | none => lost s
  | none => put s [r]

/-! ## Containment of resources (R526, R527, R532) -/

/-- Bit of a core in SYS_DEGRADED (R76). -/
def coreOutBit (c : Nat) : Nat := if c < 16 then 12 + c else 28 + (c - 16)

/-- Every Stream Engine is named out. -/
def State.allSeOut (s : State) : Bool := bitsOf (s.reg R.SYS_DEGRADED).toNat 27 12 = 0xFFFF

/-- The unit goes to M9: this instant is tf (R528). -/
def State.startRecovery (s : State) : State :=
  { s with err := { s.err with recovering := true, tf := s.now, rsvAt := s.now, overrun := false } }.beginTrans .recovery 4

/-- A resource's bit of SYS_DEGRADED set or cleared, and what the mode does (R57, R69, R532). -/
def State.nameOut (s : State) (bit : Nat) (out : Bool) : State :=
  let s := s.setReg R.SYS_DEGRADED (w32 (putBits (s.reg R.SYS_DEGRADED).toNat bit bit (b2n out)))
  if s.allSeOut && (s.sys.mode = .service || s.sys.mode = .degraded) then s.startRecovery
  else s.judgeDegraded (if out then 5 else 6)

/-- A core is reset (R67, R526): its task is aborted, its locks, sources and alarm batch go, a data port burst ends
(R619), it is named out, and its S code starts again at ENTRY. -/
def State.resetCore (s : State) (c : Nat) : State :=
  let s := ((s.abortTask c).releaseLocks c).icCoreReset c
  let s := s.abandonBatch c
  let up := (s.core c).run != .off
  let s := s.setCore c (coreReset c)
  let s := s.setFld ⟨R.ERR_CORE_UP, c, c⟩ 0
  let s := if up then s.startCore c (s.entryOf c) else s
  let s := if 16 ≤ c then s.dpAbort (c - 15) else s
  s.nameOut (coreOutBit c) true

/-- A code in ERR_CORE_UP brings a core back (R526). -/
def State.coreUp (s : State) (c : Nat) : State :=
  if bitOf (s.reg R.ERR_CORE_UP).toNat c then s
  else (s.setFld ⟨R.ERR_CORE_UP, c, c⟩ 1).nameOut (coreOutBit c) false

/-- A block by the code in WHERE (log 43): its block number, or for a port 4 + 256 x its number; run control, stopped status and
bit of SYS_DEGRADED. -/
def blockOut (wh : Nat) : Option (Fld × Fld × Nat) :=
  match wh % 256 with
  | 4 => if wh / 256 < 6 then
      some (F.NET_CTRL.RUN.at (netWin (wh / 256)), F.NET_STATUS.STOPPED.at (netWin (wh / 256)), wh / 256) else none
  | 8 => some (F.FLT_CTRL.RUN, F.FLT_STATUS.STOPPED, 7)
  | 9 => some (F.OSC_CTRL.RUN, F.OSC_STATUS.STOPPED, 8)
  | 10 => some (F.ISL_CTRL.RUN, F.ISL_STATUS.STOPPED, 9)
  | 12 => some (F.CAP_CTRL.RUN, F.CAP_STATUS.STOPPED, 10)
  | 13 => some (F.ACC_CTRL.RUN, F.ACC_STATUS.STOPPED, 11)
  | _ => none

/-- Code 0x12: the device stops the block and names it out (R527). -/
def State.stopDamaged (s : State) (wh : Nat) : State :=
  match blockOut wh with
  | none => s
  | some (run, stopped, bit) => ((s.setFld run 0).setFld stopped 1).nameOut bit true

/-! ## Unit recovery and the last resort (R528, R530) -/

/-- A class 3 fault takes the unit to M9 from the modes of R57; in M6 it is handled under R508. -/
def State.unitFault (s : State) (code wh : Nat) : State :=
  let bad := s.err.gladeBad || ((code = 0x18 || code = 0x19) && wh % 256 = 7)
  match s.sys.mode with
  | .service | .shadow | .takeover | .degraded | .test =>
    let s := { s with err := { s.err with gladeBad := bad } }
    let s := if s.sys.mode = .takeover then { s with xng := { s.xng with via508 := true } } else s
    s.startRecovery
  | .recovery => { s with err := { s.err with gladeBad := bad } }
  | _ => s

/-- The last resort (R530): the DUTY lines fall, a record is written, and the reset follows after the hold. -/
def State.takeLastResort (s : State) (code : Nat) : State :=
  if s.err.lastResort.isSome then s
  else
    let lines := s.dutyLines
    let hold := if s.paired then s.fld F.ERR_CTRL.LR_HOLD_MS * 1200000 else 0
    let s := { s with err := { s.err with lastResort := some (s.now + hold) } }
    (s.linesMoved lines).ringLog 0x0010 0xFF (leBytes 1 code ++ leBytes 7 0 ++ leBytes 8 (packCal s.und.cal s.subsec s.und.invalid))

/-! ## The Pair (R45, R531) -/

/-- The shadow leaves IN_STEP for JOINING; the unit holding duty has its peer in step no more (R45, R531). -/
def State.rejoin (s : State) : State :=
  match s.xngState with
  | 5 => { s.setXngState 3 with xng := { s.xng with joinAt := none, lagOkAt := none, inStepAt := s.now } }
  | 1 => s.setXngState 2
  | _ => s

/-- What a fault does in a Pair (R531); an event of R45 is reported to the peer, whichever unit has it. -/
def State.pairFault (s : State) (code cls : Nat) : State :=
  if !s.paired then s
  else if code = 0x24 then (s.crossSend 3 (leBytes 1 3)).rejoin
  else if 1 ≤ cls && cls ≤ 3 then
    if s.sys.mode = .shadow then s.rejoin
    else if s.sys.duty && s.xngState = 1 && s.flag F.ERR_CTRL.HANDOFF then
      let lines := s.dutyLines
      let s := { s with xng := { s.xng with releasing := true } }.linesMoved lines
      if cls = 3 then s else s.beginTrans .shadow 4
    else s
  else s

/-! ## FAULT_REPORT (R518, R522) -/

/-- What the class and the code make the device do. -/
def State.contain (s : State) (code wh req : Nat) : State :=
  match code with
  | 0x08 => { s with err := { s.err with contained := mset false s.err.contained (wh % 65536) true } }
  | 0x10 | 0x11 => if req < 20 then s.resetCore req else s
  | 0x12 => s.stopDamaged wh
  | 0x18 | 0x19 | 0x1A => s.unitFault code wh
  | 0x30 | 0x31 => s.takeLastResort code
  | _ => s

/-- A fault at the collector: counted, logged, copied to the Ring Log from class 2 on, flagged and contained. -/
def State.faultReport (s : State) (f : Found) : State :=
  match faultClass f.code with
  | none => s
  | some cls =>
    let s := (s.bump R.ERR_U_FAULTS).bump (R.ERR_U_CLASS + 8 * cls)
    let r : FaultRec :=
      { seq := (s.cnt R.ERR_U_FAULTS).toNat, tDetect := f.time, whereF := f.whereF, epoch := f.epoch, code := f.code, cls := cls,
        req := f.req, count := 0 }
    let merged := match s.err.log.getLast? with | some n => n.code = f.code && n.whereF = f.whereF | none => false
    let s := { s.logFault r with err := { (s.logFault r).err with seq := r.seq } }
    let s := if 2 ≤ cls && !merged then s.ringLog 0x0008 43 (leBytes 8 r.seq ++ leBytes 8 r.whereF ++ leBytes 4 r.epoch
        ++ leBytes 1 r.code ++ leBytes 1 cls ++ leBytes 1 r.req ++ leBytes 1 0) else s
    let s := s.raise (classBit cls)
    (s.contain f.code f.whereF f.req).pairFault f.code cls

/-- One of two faults of the same clk is logged before the other: by CODE, then by REQ (R522). -/
def Found.before (a b : Found) : Bool := decide (a.code < b.code) || (a.code = b.code && decide (a.req < b.req))

/-- The fault to log first among `f` and those of its clk that follow, and the others. -/
def firstFound (f : Found) : List Found → Found × List Found
  | [] => (f, [])
  | g :: t =>
    let first := g.clk = f.clk && g.before f
    let r := firstFound (if first then g else f) t
    (r.1, (if first then f else g) :: r.2)

/-! ## Watchdogs (R519) -/

/-- PERIOD_US of a core. -/
def State.wdogPeriod (s : State) (c : Nat) : Nat :=
  if c < 16 then s.fld (F.ERR_WDOG_SE.PERIOD_US.at (4 * c)) else s.fld (F.ERR_WDOG_SV.PERIOD_US.at (4 * (c - 16)))

/-- The watchdog of a core counts: the core runs, is not named out, and its watchdog has not expired. -/
def State.wdogRuns (s : State) (c : Nat) : Bool :=
  decide (c < 20) && (s.core c).run = .run && !s.namedOut c && !(s.core c).wdogExpired

/-- WATCHDOG_WARNING (R519). -/
def execWatchdogWarning (c : CoreId) (dt : Nat) (s : State) : Out :=
  let s := s.elapse dt
  let k := s.core c.val
  if s.wdogRuns c.val && !k.wdogWarned && decide (s.wdogPeriod c.val * 1200 ≤ 2 * (s.now - k.kickAt)) then
    .next (s.setCore c.val { k with wdogWarned := true })
  else .next s

/-- WATCHDOG_EXPIRE (R519). -/
def execWatchdogExpire (c : CoreId) (dt : Nat) (s : State) : Out :=
  let s := s.elapse dt
  let k := s.core c.val
  if s.wdogRuns c.val && decide (s.wdogPeriod c.val * 1200 ≤ s.now - k.kickAt) then
    .next ((s.setCore c.val { k with wdogExpired := true }).detect 0x10 c.val c.val)
  else .next s

/-- A kick (R519). -/
def State.wdogKick (s : State) (c : Nat) : State :=
  s.setCore c { s.core c with kickAt := s.now, wdogWarned := false }

/-! ## The scrubber and contained streams (R520, R521) -/

/-- SCRUB (R520): a word of SRAM or DRAM is read; an error is corrected, or the word is poisoned once; the read of a poisoned word
counts. -/
def execScrub (addr : Nat) (e : Option FlitErr) (s : State) : Out :=
  if !isMemory addr then .next s
  else if s.poisoned addr then .next (s.bump R.ERR_U_POISON_READS)
  else
    match e with
    | some .single => .next ((s.bump R.ERR_U_SCRUB_CORRECTED).detect 0x01 addr 43)
    | some .double => .next ((s.poisonAt addr).detect 0x05 addr 43)
    | _ => .next s

/-- Words of the committed configuration of one table entry. -/
def State.reloadEntry (s : State) (table idx : Nat) : State :=
  (List.range 32).foldl (fun s w => s.setTword table idx w (mapGet tblReset s.mram.cfgTbl (tblKey table idx w))) s

/-- A containment ends. -/
def State.uncontain (s : State) (k : Nat) : State :=
  { s with err := { s.err with contained := mset false s.err.contained k false } }

/-- The directory and Channel Map entries of a contained stream are reloaded, and CFG_STATE takes 1 (R521, R652). -/
def State.reloadStream (s : State) (i : Nat) : State :=
  if !mget false s.err.contained i then s
  else
    let s := s.reloadEntry T.ING.Directory i
    let s := (List.range (s.numCh i)).foldl (fun s k => s.reloadEntry T.ING.ChannelMap (s.dir i TF.ING.Directory.CHMAP_BASE + k)) s
    (s.setTf TF.ING.Directory.CFG_STATE i 1).uncontain i

/-- STREAM_RELOAD_DONE (R521): the affected entries of the stream hold their committed values again, its Source Table entry among them,
and the stream is released. -/
def execStreamReloadDone (i : BitVec 14) (s : State) : Out :=
  let s := s.reloadStream i.toNat
  let c := sourceKey (s.dir i.toNat TF.ING.Directory.SOURCE)
  if mget false s.err.contained c then .next ((s.reloadEntry T.ING.Source (s.dir i.toNat TF.ING.Directory.SOURCE)).uncontain c) else .next s

/-! ## The recovery role (R524, R528, R529) -/

/-- The holder of the role changes, and with it the target of shared source 35 (R524). -/
def State.setHolder (s : State) (c : Nat) : State :=
  { s.setFld (F.IC_S_SRC_CTRL.TARGET.at (8 * 35)) c with err := { s.err with holder := c } }

/-- The next Supervisor Core that may hold the role (R529). -/
def State.nextHolder (s : State) : Option Nat :=
  [17, 18, 19].find? fun c => decide (s.err.holder < c) && !s.namedOut c && !(s.core c).wdogExpired

/-- The role passes, or no Supervisor Core qualifies (R529). -/
def State.nextRole (s : State) : State :=
  let s := { s with err := { s.err with rsvAt := s.now } }
  match s.nextHolder with
  | some c => (s.setHolder c).bump R.ERR_U_ROLE_PASSES
  | none => s.detect 0x31 s.err.holder s.err.holder

/-- A watchdog of the role expired, or the recovery overran: a fault, and the role passes (R529). -/
def State.passRole (s : State) : State := (s.detect 0x1A s.err.holder s.err.holder).nextRole

/-- RSV_TIMEOUT (R529): a kick missed, or the recovery overran. -/
def execRsvTimeout (dt : Nat) (s : State) : Out :=
  let s := s.elapse dt
  if !s.err.recovering then .next s
  else if s.fld F.ERR_CTRL.RECOVERY_MS * 1200000 ≤ s.now - s.err.tf && !s.err.overrun then
    .next { s with err := { s.err with overrun := true } }.passRole
  else if s.fld F.ERR_CTRL.RSV_TIMEOUT_MS * 1200000 ≤ s.now - s.err.rsvAt then .next s.passRole
  else .next s

/-! ## FAULT_REPORT (R518) -/

/-- A core that runs takes an exception for a fault of its own access. -/
def State.accessExc (s : State) (req code wh : Nat) : State :=
  if req < 21 && (s.core req).run = .run then s.excEntry req code (w64 wh) else s

/-- What the finding of a fault itself does, where another command finds it in the model: a core that reads an uncorrectable word takes
the data ECC exception (R386), and one whose flit has a double-bit error a bus error (R518); an uncorrectable word that an engine or the
scrubber finds is poisoned (R520); a queue with a pointer mismatch is reset (R448); a flash page read with an uncorrectable sector or a
CRC mismatch is counted and flagged (R337); a lost role passes (R529). -/
def State.foundBy (s : State) (code wh req : Nat) : State :=
  match code with
  | 0x03 => s.accessExc req 0x09 wh
  | 0x04 | 0x05 => if isMemory wh then s.poisonAt wh else s
  | 0x06 => if req < 21 then s.accessExc req 0x08 wh else if isMemory wh then s.poisonAt wh else s
  | 0x07 => { s.resetQueue (wh % 256) 0 with err := s.err }
  | 0x09 => (s.bump R.CAP_U_FLASH_UNCORRECTABLE).raise F.CAP_INT_STATUS.FLASH_ERR
  | 0x1A => s.nextRole
  | _ => s

/-- FAULT_REPORT (R518, R522): a fault that the hardware's own checks find now, or one the unit detected: of the oldest clk, the first
by CODE and REQ. -/
def execFaultReport (ext : Option (Byte × Nat × Byte)) (s : State) : Out :=
  match ext with
  | some f => .next ((s.foundBy f.1.toNat f.2.1 f.2.2.toNat).faultReport (s.found f.1.toNat f.2.1 f.2.2.toNat))
  | none =>
    match s.err.detected with
    | [] => .next s
    | f :: t =>
      let r := firstFound f t
      .next ({ s with err := { s.err with detected := r.2 } }.faultReport r.1)

/-- The mode a recovery leaves for (R57). -/
def State.recoveryTarget (s : State) : Mode :=
  let duty : Mode := if s.anyOut then .degraded else .service
  if s.xng.via508 then duty
  else if s.xng.releasing then .shadow
  else match s.sys.preRecovery with
    | .shadow => .shadow
    | .test => .commission
    | _ => duty

/-- ERR_RECOVER exit (R528). -/
def State.recoveryExit (s : State) : State :=
  let t := s.recoveryTarget
  let s := { s with
    err := { s.err with recovering := false, gladeBad := false, overrun := false }
    xng := { s.xng with via508 := false } }
  s.beginTrans t 9

/-- ERR_LOG_POP (R522). -/
def State.popFault (s : State) : State := { s with err := { s.err with log := s.err.log.drop 1 } }

/-- ERR_ABORT (R526): the writer's task, if it runs one, ends as aborted, and its batch is discarded. -/
def State.abortOwn (s : State) (c : Nat) : State :=
  if (s.core c).task.isSome then
    let s := (s.abortTask c).abandonBatch c
    s.setCore c { s.core c with run := .wait, waitAt := s.now }
  else s.abandonBatch c

end Sys2Proof.Machine
end

