-- ==== Sys2Proof/Machine/Reset.lean ====
section
/-!
DEFINITION. Resets (R67): what a unit reset clears and keeps, the commanded reset, the backup-loss reset and the core reset by
SYS_CORE_RESET.
-/

namespace Sys2Proof.Machine

/-! ## Unit resets (R21, R67) -/

/-- What a port keeps: its physical state (R650). -/
def NetPort.physical (x : NetPort) : NetPort :=
  { portIdle with moduleIn := x.moduleIn, moduleOk := x.moduleOk, link := x.link, fecLock := x.fecLock }

/-- Banked registers the Understory holds: the staged calendar (R579, R594). -/
def isUBank (key : Nat) : Bool :=
  key % 0x200000 = R.UND_RTC_STG_DATE || key % 0x200000 = R.UND_RTC_STG_TIME

/-- The lines the unit drives fall with a reset: outputs to the safe state, DUTY lines and PPS out low. -/
def State.dropLines (s old : State) : State :=
  let s := if old.outState = 0 then s else s.emit (.outputs 0)
  let s := if old.dutyLines then s.emit (.dutyLines false) else s
  if old.tim.ppsOn.isSome then s.emit (.ppsOut false) else s

/-- A unit reset (R67), or the reset of a wake with no cause of its own and DRAM kept (R64): everything but MRAM, flash, the
Understory and the physical surroundings takes its reset value; `step` is the step of R63 reached. -/
def State.unitReset (s : State) (cause : Option Nat) (step : Nat) : State :=
  let wake := cause.isNone
  let r := State.reset
  let kept (a : Nat) : Bool := wake && decide (dramStart ≤ a)
  State.dropLines
    { r with
      uregs := match cause with | some c => mapSet regReset s.uregs R.SYS_RESET_CAUSE (w32 c) | none => s.uregs
      uwide := s.uwide
      bank := s.bank.filter fun x => isUBank x.1
      mem := s.mem.filter fun x => kept x.1
      mram := s.mram
      now := s.now
      sys := { r.sys with
        prevMode := s.sys.mode, bootStep := step, powerGood := step != 0, bootFromWake := wake, nominal60 := s.sys.nominal60 }
      net := s.net.foldl (fun m x => mset portIdle m x.1 x.2.physical) []
      hst := { s.hst with ctx := [] }
      und := s.und
      err := { r.err with poison := s.err.poison.filter fun x => kept (8 * x.1) }
      sec := { r.sec with drawn := s.sec.drawn, mr7 := s.sec.mr7 }
      free := s.free
      out := s.out
      pending := s.pending } s

/-- A key slot's state in MRAM. -/
def keyEmpty : KeyStore := { occupied := false, sel := false, origin := 0, seq := 0, imgA := none, imgB := none }

def Mram.key (m : Mram) (n : Nat) : KeyStore := mget keyEmpty m.keys n
def Mram.setKey (m : Mram) (n : Nat) (k : KeyStore) : Mram := { m with keys := mset keyEmpty m.keys n k }

/-- A commit word with OCCUPIED zero, and both images cleared (R549). -/
def Mram.eraseKey (m : Mram) (n : Nat) : Mram :=
  let k := m.key n
  m.setKey n { k with occupied := false, seq := (k.seq + 1) % 2 ^ 24, imgA := none, imgB := none }

/-- The mode and the tamper sensors permit a commanded unit reset (R57, R66). -/
def State.mayReset (s : State) : Bool :=
  s.sys.warnAt.isNone
    && match s.sys.mode with
       | .keep => false
       | .lockdown => s.fld F.SEC_TAMPER_LATCH.NOW = 0
       | _ => true

/-- A commanded unit reset (R57, R67): from M10 it erases slot 15 and clears SEC_TAMPER_LATCH first (R564). -/
def State.commandedReset (s : State) (cause : Nat) : State :=
  if s.sys.mode = .lockdown then
    ({ s with mram := s.mram.eraseKey 15 }.setReg R.SEC_TAMPER_LATCH 0).unitReset (some 6) 1
  else s.unitReset (some cause) 1

/-- The Understory as a backup loss leaves it; storage keys are counted on (R545). -/
def State.undLost (s : State) : Und :=
  { Und.reset with secAt := s.now, keyGen := s.und.keyGen, clearCut := false }

/-- A backup-loss reset (R67): the U fields go as well. -/
def State.backupLoss (s : State) : State :=
  { s with uwide := [], bank := [], und := s.undLost, uregs := uregsReset 7, sec := { s.sec with mr7 := [] } }.unitReset (some 7) 0

/-! ## SYS_RESET and SYS_CORE_RESET (R67, R76) -/

/-- SYS_RESET is written by the host or by a Supervisor at S level. -/
def State.mayCommand (s : State) : Req → Bool
  | .host => true
  | .core c => decide (16 ≤ c.val) && decide (c.val < 20) && s.reqS (.core c)

/-- A write of SYS_RESET: another key is ignored, another KIND is reserved. Another requester than the host or S code of a Supervisor is
refused with cause 4, a reset that the mode, a power failure or a tripped sensor bars with cause 3: R76 names no writers and no cause
(DESIGN CHOICE, log 35). -/
def State.resetWrite (s : State) (q : Req) (v : Nat) : State :=
  if !s.mayCommand q then s.refuse q 4 R.SYS_RESET
  else if bitsOf v 31 16 ≠ 0x5253 then s
  else if bitsOf v 1 0 ≠ 1 then s.refuse q 1 R.SYS_RESET
  else if s.mayReset then s.commandedReset (match q with | .host => 2 | _ => 3)
  else s.refuse q 3 R.SYS_RESET

/-- A write of SYS_CORE_RESET, by the holder of the recovery role only (R76, R524). -/
def State.coreResetWrite (s : State) (q : Req) (v : Nat) : State :=
  if !s.isHolder q then s.refuse q 4 R.SYS_CORE_RESET
  else (List.range 20).foldl (fun s c => if bitOf v c then s.resetCore c else s) s

end Sys2Proof.Machine
end

