-- ==== Sys2Proof/Machine/Heartwood.lean ====
section
/-!
DEFINITION. Heartwood, images and measurement (chapter 19): shares and key slots, zeroize, measurement registers, Sapor images
(R395, R396) and the committed configuration (R556, R557).
-/

namespace Sys2Proof.Machine

/-! ## Random numbers and measurement -/

/-- The next output of the random bit generator, 32 bytes (R535, log 6). -/
def State.random (s : State) : State × List Byte :=
  ({ s with sec := { s.sec with drawn := s.sec.drawn + 1 } }, beBytes 32 (Config.randomBits s.sec.drawn).toNat)

/-- A measurement register, 32 bytes (R554). -/
def State.mr (s : State) (n : Nat) : List Byte := mget (List.replicate 32 0) s.sec.mr n

/-- An extension by a 32-byte value (R554). -/
def State.extend (s : State) (n : Nat) (d : List Byte) : State :=
  { s with sec := { s.sec with mr := mset (List.replicate 32 0) s.sec.mr n (sha256 (s.mr n ++ d)) } }

/-! ## Slots (R542 to R549) -/

/-- What a slot holds by its number (R542): 0 public key, 1 AES-256, 2 HMAC or P-256 private, 3 P-256 private. -/
def slotType (n : Nat) : Nat := if n = 0 || n = 15 then 3 else if n < 15 then 0 else if n < 32 then 1 else 2

/-- The key's length suits its kind (0 public, 1 AES-256, 2 HMAC, 3 P-256 private; R542). -/
def keyLenOk (kind len : Nat) : Bool :=
  match kind with
  | 0 => len = 64
  | 2 => decide (32 ≤ len) && decide (len ≤ 64)
  | _ => len = 32

/-- The kind of key suits the slot. -/
def slotTakes (n kind : Nat) : Bool := if slotType n = 2 then kind = 2 || kind = 3 else kind = slotType n

/-- An opened slot. -/
def State.keySlot (s : State) (n : Nat) : Option KeyShares := mget none s.sec.slots n

def State.setKeySlot (s : State) (n : Nat) (k : Option KeyShares) : State :=
  { s with sec := { s.sec with slots := mset none s.sec.slots n k } }

/-- The key two shares make (R544). -/
def KeyShares.key (k : KeyShares) : List Byte := List.zipWith (· ^^^ ·) k.mask k.other

/-- The key of an opened slot. -/
def State.slotKey (s : State) (n : Nat) : Option (List Byte) := (s.keySlot n).map (·.key)

/-- Places of the Heartwood region that hold a share. -/
def State.placesUsed (s : State) : List Nat :=
  s.sec.slots.flatMap fun x => match x.2 with | some k => [k.place1, k.place2] | none => []

/-- Two free places of the region's 512 chosen by a random number (R544). -/
def State.twoPlaces (s : State) (r : Nat) : Nat × Nat :=
  let free := (List.range 512).filter fun p => !s.placesUsed.contains p
  let a := free.getD (r % free.length) 0
  let rest := free.filter fun p => p != a
  (a, rest.getD (r / 512 % rest.length) 0)

/-- New shares of a key under a new mask at new places. -/
def State.newShares (s : State) (key : List Byte) (kind origin : Nat) : State × KeyShares :=
  let r1 := s.random
  let r2 := r1.1.random
  let r3 := r2.1.random
  let m := (r1.2 ++ r2.2).take key.length
  let p := s.twoPlaces (beNat r3.2)
  (r3.1, { mask := m, other := List.zipWith (· ^^^ ·) key m, place1 := p.1, place2 := p.2, kind := kind, origin := origin,
           visited := s.now })

/-- SEC_STATUS.IDENTITY and OWNER follow the slots (R569). -/
def State.showSlots (s : State) : State :=
  (s.setFld F.SEC_STATUS.IDENTITY (b2n ((s.keySlot 0).isSome && (s.keySlot 15).isSome))).setFld F.SEC_STATUS.OWNER
    (b2n (s.keySlot 2).isSome)

/-- What MR5 is extended with: slot number, ORIGIN and the SHA-256 of the public key or the KEY_ID, as one digest (R554, log 29). -/
def keyMeasure (n origin : Nat) (kind : Nat) (key : List Byte) : List Byte :=
  let id := match kind with
    | 0 => sha256 key
    | 3 => sha256 (ecPublic (beNat key))
    | _ => leBytes 4 0
  sha256 (leBytes 1 n ++ leBytes 1 origin ++ id)

/-- A key update (R547): the image that SEL does not select, the commit word, the new shares, MR5. -/
def State.writeKey (s : State) (n kind origin : Nat) (key : List Byte) : State :=
  let k := s.mram.key n
  let img : KeyImage := { bytes := key, kind := kind, gen := s.und.keyGen }
  let sel := if k.occupied then !k.sel else k.sel
  let k := if sel then { k with imgB := some img } else { k with imgA := some img }
  let k := { k with occupied := true, sel := sel, origin := origin, seq := (k.seq + 1) % 2 ^ 24 }
  let s := { s with mram := s.mram.setKey n k }
  let r := s.newShares key kind origin
  ((r.1.setKeySlot n (some r.2)).extend 5 (keyMeasure n origin kind key)).showSlots

/-- A slot is erased (R549). -/
def State.eraseSlot (s : State) (n : Nat) : State :=
  let s := match s.keySlot n with
    | some k => s.extend 5 (keyMeasure n k.origin k.kind k.key)
    | none => s
  (({ s with mram := s.mram.eraseKey n }).setKeySlot n none).showSlots

/-- The slots are opened at t3 (R545): a secret image opens only under the storage key that sealed it. Opening a slot writes its
key, and MR5 is extended (the example after R568). -/
def State.openSlot (s : State) (n : Nat) : State :=
  let k := s.mram.key n
  if !k.occupied then s
  else
    let img := if k.sel then k.imgB else k.imgA
    match img with
    | some i =>
      if i.kind = 0 || (s.und.storageKey && i.gen = s.und.keyGen) then
        let r := s.newShares i.bytes i.kind k.origin
        (r.1.setKeySlot n (some r.2)).extend 5 (keyMeasure n k.origin i.kind i.bytes)
      else s.ringLog 0x000E 20 (leBytes 1 n)
    | none => s.ringLog 0x000E 20 (leBytes 1 n)

/-- All slots, and the storage key generated where there is none (R545). -/
def State.openSlots (s : State) : State :=
  let s := if s.und.storageKey then s
    else { s with und := { s.und with storageKey := true, keyGen := s.und.keyGen + 1 } }
  ((List.range 64).foldl (fun s n => s.openSlot n) s).showSlots

/-- Key stores of the ports and of the parser are cleared. -/
def State.clearKeyStores (s : State) : State :=
  let s := (List.range 6).foldl (fun s p => s.setPort p { s.port p with sas := [] }) s
  ({ s with ing := { s.ing with rsvKeys := [] }, sec := { s.sec with short := [] } }).setFld F.SEC_STATUS.NONAPPROVED 0

/-- A zeroize (R563): shares, storage key and key stores, then slots 0 and 16 to 63, and slot 15 unless M10 is entered. -/
def State.zeroize (s : State) (lockdown : Bool) : State :=
  let gone := (0 :: (List.range 48).map (· + 16)) ++ (if lockdown then [] else [15])
  let s := { s with und := { s.und with storageKey := false } }.clearKeyStores
  let s := gone.foldl (fun s n => if (s.mram.key n).occupied || (s.keySlot n).isSome then s.eraseSlot n else s) s
  ((s.setFld F.SEC_STATUS.ZEROIZED 1).raise F.SEC_INT_STATUS.ZEROIZED).bump R.SEC_U_ZEROIZES

/-- The Keeper's error state (R567): LAST_FAIL names the test by a number the spec does not give (log 6). -/
def State.keeperError (s : State) : State :=
  let t := s.freeVal.toNat % 256
  (((s.useFree.setFld F.SEC_STATUS.ERROR 1).setFld F.SEC_STATUS.LAST_FAIL t).raise F.SEC_INT_STATUS.ERROR).ringLog 0x000E 20
    (leBytes 1 0xFF ++ leBytes 1 t)

/-! ## Images (R395, R396, R553, R555) -/

/-- A segment of an image. -/
structure Seg where
  off : Nat
  addr : Nat
  size : Nat
  mem : Nat
  /-- [3] S only; [2] X; [1] W; [0] R: the S-level code sets the regions from them (R397) -/
  flags : Nat
  deriving DecidableEq, Repr

/-- Segment `i` of an image. -/
def segAt (l : List Byte) (i : Nat) : Seg :=
  let b := 0x40 + 32 * i
  { off := leAt l b 8, addr := leAt l (b + 8) 8, size := leAt l (b + 16) 4, mem := leAt l (b + 20) 4, flags := leAt l (b + 24) 8 }

/-- The segments of an image. -/
def segments (l : List Byte) : List Seg := (List.range (leAt l 7 1)).map (segAt l)

/-- Bytes of an image before its SIGNATURE, and the signature. -/
def imageBody (l : List Byte) : List Byte := l.take (l.length - 64)
def imageSig (l : List Byte) : List Byte := l.drop (l.length - 64)

/-- The area of a target (R396): for the firmware none is named, and it must only be memory (log 29). -/
def segInArea (target : Nat) (g : Seg) : Bool :=
  let within (lo hi : Nat) : Bool := decide (lo ≤ g.addr) && decide (g.addr + g.mem ≤ hi)
  match target with
  | 0 => within 0 boundaryStart || within spillBase svBase
  | 1 => within 0 boundaryStart || within svBase dramEnd
  | _ => within 0 sramEnd || within dramStart dramEnd

/-- A segment lies in the file, page-aligned, with no bit of its entry set that has no meaning. -/
def segWellFormed (len : Nat) (g : Seg) : Bool :=
  g.off % 4096 = 0 && g.addr % 4096 = 0 && decide (0x240 ≤ g.off) && decide (g.off + g.size ≤ len - 64) && decide (g.size ≤ g.mem) && decide (g.flags < 16)

/-- No two segments overlap. -/
def segsApart : List Seg → Bool
  | [] => true
  | g :: t => (t.all fun h => decide (g.addr + g.mem ≤ h.addr) || decide (h.addr + h.mem ≤ g.addr)) && segsApart t

/-- The image-signing key whose digest SIGNER holds. -/
def State.signerKey (s : State) (signer : List Byte) : Option (List Byte) :=
  ([3, 4, 5, 6].filterMap fun n => s.slotKey n).find? fun k => sha256 k = signer

/-- Longest image of a target (R553). -/
def imageLimit (target : Nat) : Nat := if target = 1 then 0xC000000 else 0x4000000

/-- Bytes of the header that R395 keeps zero: the reserved ones, and the segment entries not used. -/
def headerZeros (l : List Byte) : Bool :=
  (slice l 0x14 12).all (· = 0) && (slice l (0x40 + 32 * leAt l 7 1) (32 * (16 - leAt l 7 1))).all (· = 0)

/-- An image is accepted for a target (R395, R396). -/
def State.imageOk (s : State) (target : Nat) (l : List Byte) : Bool :=
  let n := leAt l 7 1
  decide (0x280 ≤ l.length) && decide (l.length ≤ imageLimit target)
    && l.take 4 = [0x53, 0x41, 0x50, 0x52] && leAt l 4 2 = 1 && leAt l 6 1 = target && decide (1 ≤ n) && decide (n ≤ 16) && headerZeros l
    && decide (mget 0 s.mram.floors target ≤ leAt l 0x10 4)
    && ((segments l).all fun g => segWellFormed l.length g && segInArea target g) && segsApart (segments l)
    && (match s.signerKey (slice l 0x20 32) with
        | none => false
        | some k => ecdsaVerify k (sha256 (imageBody l)) (imageSig l))

/-- `n` bytes from `a` become zero. -/
def State.zeroFill (s : State) (a n : Nat) : State :=
  { s with mem := s.mem.filter fun x => !(decide (a ≤ x.1) && decide (x.1 < a + n)) }.unpoison a n

/-- The segments of an image are loaded. -/
def State.loadSegs (s : State) (l : List Byte) : State :=
  (segments l).foldl (fun s g => (s.zeroFill g.addr g.mem).wrBytes g.addr (slice l g.off g.size)) s

/-- An image slot of flash. -/
def State.flashImage (s : State) (target : Nat) (alt : Bool) : List Byte := mget [] s.hst.images (2 * target + b2n alt)

/-- Measurement register of a target's image (R554). -/
def imageMr (target : Nat) : Nat := match target with | 2 => 1 | 1 => 2 | _ => 3

/-- SYS_MODE_STATUS.BOOT and the Ring Log name a failed image (R63). -/
def State.bootFail (s : State) (target : Nat) (alt : Bool) : State :=
  let bit := if alt then 2 else 1
  let s := { s with sec := { s.sec with failed := mset 0 s.sec.failed target (mget 0 s.sec.failed target ||| bit) } }
  let both := mget 0 s.sec.failed target = 3
  let s := s.setFld F.SYS_MODE_STATUS.BOOT (if both then 2 else max 1 (s.fld F.SYS_MODE_STATUS.BOOT))
  s.ringLog 0x000F 20 (leBytes 1 target ++ leBytes 1 (b2n alt))

/-- An accepted image is loaded and measured. -/
def State.bootLoad (s : State) (target : Nat) (alt : Bool) : State :=
  let l := s.flashImage target alt
  let d := sha256 (imageBody l)
  let s := (s.loadSegs l).extend (imageMr target) d
  { s with
    sys := { s.sys with entries := mset 0 s.sys.entries target (w64 (leAt l 8 8)) }
    sec := { s.sec with booted := mset none s.sec.booted target (some ⟨alt, leAt l 0x10 4, d⟩) } }

/-- The primary image is verified, then the alternate (R63, R553); the flag tells that one was accepted. The slot that LOAD_IMAGE wrote
last comes first, as the next Boot uses the new image (R555). -/
def State.bootImage (s : State) (target : Nat) : State × Bool :=
  let first := mget false s.hst.altFirst target
  if s.imageOk target (s.flashImage target first) then (s.bootLoad target first, true)
  else
    let s := s.bootFail target first
    if s.imageOk target (s.flashImage target !first) then (s.bootLoad target !first, true)
    else (s.bootFail target !first, false)

/-- The image booted for a target. -/
def State.bootedOf (s : State) (target : Nat) : Option Booted := mget none s.sec.booted target

/-- Digest and IMAGE_SEQ of the image booted for a target; zero where none is. -/
def State.imageDigest (s : State) (target : Nat) : List Byte :=
  match s.bootedOf target with | some b => b.digest | none => List.replicate 32 0
def State.imageSeq (s : State) (target : Nat) : Nat := match s.bootedOf target with | some b => b.seq | none => 0

/-- The boot has failed for want of an image (R63). -/
def State.bootFailed (s : State) : Bool := s.sys.mode = .boot && s.fld F.SYS_MODE_STATUS.BOOT = 2

/-- The slot a LOAD_IMAGE writes (R555): the alternate? -/
def State.loadSlot (s : State) (target : Nat) : Bool :=
  match mget 0 s.sec.failed target, s.sys.mode with
  | 2, .boot => true
  | 0, _ => (match s.bootedOf target with | some b => !b.alt | none => false)
  | _, .boot => false
  | _, _ => (match s.bootedOf target with | some b => !b.alt | none => false)

/-! ## Configuration (R556, R557) -/

/-- Bits of a register kept in the configuration area (R21). -/
def cfgMask (off : Nat) : Nat := cfgMaskPlain (netNorm off)

/-- Bits of a table word kept in the configuration area: its RW and LIVE fields. -/
def cfgTblMask (key : Nat) : Nat :=
  match tables.find? fun t => t.id = key / 2 ^ 24 with
  | none => 0
  | some t => t.fields.foldl (fun a f =>
      if f.word = key % 32 && (f.acc = .rw || f.acc = .live) then a ||| ((2 ^ (f.hi + 1) - 1) - (2 ^ f.lo - 1)) else a) 0

/-- A committed word of a register, and of a table. -/
def State.cfgReg (s : State) (off : Nat) : Word := mapGet (fun o => regReset o &&& w32 (cfgMask o)) s.mram.cfgRegs off
def cfgTblReset (k : Nat) : Word := tblReset k &&& w32 (cfgTblMask k)

/-- The configuration area takes the current settings of every block (R557). -/
def State.copyConfig (s : State) : State :=
  let regs := s.regs.foldl (fun m x =>
    mapSet (fun o => regReset o &&& w32 (cfgMask o)) m x.1 (x.2 &&& w32 (cfgMask x.1))) []
  let tbl := s.tbl.foldl (fun m x => mapSet cfgTblReset m x.1 (x.2 &&& w32 (cfgTblMask x.1))) []
  { s with mram := { s.mram with cfgRegs := regs, cfgTbl := tbl, committed := true } }

/-- The registers and tables take their committed values (R63 t7); a directory entry is unconfirmed (R652). -/
def State.loadConfig (s : State) : State :=
  let s := s.mram.cfgRegs.foldl (fun s x =>
    s.setReg x.1 ((s.reg x.1 &&& w32 (2 ^ 32 - 1 - cfgMask x.1)) ||| x.2)) s
  let s := s.mram.cfgTbl.foldl (fun s x =>
    { s with tbl := mapSet tblReset s.tbl x.1 ((mapGet tblReset s.tbl x.1 &&& w32 (2 ^ 32 - 1 - cfgTblMask x.1)) ||| x.2) }) s
  (s.tbl.filter fun x => x.1 / 2 ^ 24 = T.ING.Directory && x.1 % 32 = 0).foldl (fun s x =>
    s.setTf TF.ING.Directory.CFG_STATE (x.1 % 2 ^ 24 / 32) 1) s

/-- A committed register belongs to the unit part: blocks NET, TIM, UND, SEC, XNG, and ALM_UNIT_ID (R556). -/
def inUnitPart (off : Nat) : Bool := off = R.ALM_UNIT_ID || [4, 6, 14, 16, 17].contains (off / 0x10000)

/-- Bytes of a part of the configuration area: offsets and words in address order, registers, then tables (log 16). -/
def State.cfgBytes (s : State) (unit : Bool) : List Byte :=
  ((s.mram.cfgRegs.filter fun x => inUnitPart x.1 = unit).flatMap fun x => leBytes 4 x.1 ++ leBytes 4 x.2.toNat)
  ++ ((s.mram.cfgTbl.filter fun x => decide (x.1 / 2 ^ 24 = T.XNG.Carry) = unit).flatMap fun x =>
      leBytes 8 (2 ^ 32 + x.1) ++ leBytes 4 x.2.toNat)

/-- UNIT_DIGEST and CONFIG_DIGEST (R556). -/
def State.unitDigest (s : State) : List Byte := sha256 (s.cfgBytes true)
def State.configDigest (s : State) : List Byte := sha256 (s.cfgBytes false)

/-- CFG_DIGEST of a heartbeat (R490, R556). -/
def State.cfgDigest (s : State) : List Byte := sha256 (s.configDigest ++ s.imageDigest 0 ++ s.imageDigest 1)

/-- MR4 is extended with both digests (R554). -/
def State.measureConfig (s : State) : State := (s.extend 4 s.configDigest).extend 4 s.unitDigest

end Sys2Proof.Machine
end

