-- ==== Sys2Proof/Machine/Keeper.lean ====
section
/-!
DEFINITION. The Keeper's commands (R536 to R541), tamper (R560 to R565), re-masking and self-tests. The layouts of parameters
that R540 leaves unstated stand in log 29.
-/

namespace Sys2Proof.Machine

/-! ## Requests (R537, R538) -/

/-- Modes in which a command is served (R540), by their numbers. -/
def kcModes : Nat → Option (List Nat)
  | 0x01 | 0x02 | 0x05 => some [1, 2, 3, 4, 5, 6, 7, 8, 9, 10]
  | 0x03 => some [2, 3, 4, 5, 6, 7, 8, 9, 10]
  | 0x04 | 0x06 | 0x07 | 0x43 => some [2, 3, 4, 5, 6, 7, 8, 9]
  | 0x10 | 0x11 | 0x12 => some [2]
  | 0x20 => some [2, 3]
  | 0x21 | 0x23 | 0x24 | 0x25 | 0x26 | 0x27 | 0x28 | 0x41 | 0x42 => some [3, 4, 5, 6, 7, 8, 9]
  | 0x22 => some [2, 3, 8]
  | 0x30 => some [1, 3]
  | 0x31 | 0x33 => some [3]
  | 0x32 => some [3, 4, 5, 7, 8]
  | 0x40 => some [4, 5, 7]
  | _ => none

/-- The Keeper Core serves requests: it runs in M1 to M10, from the end of its self-tests or in its error state. -/
def State.keeperUp (s : State) : Bool :=
  match s.sys.mode with
  | .keep | .dormant => false
  | .boot => decide (3 ≤ s.sys.bootStep) || s.flag F.SEC_STATUS.ERROR
  | _ => true

/-- `n` bytes at `a` are memory outside the boundary (R535, R537). -/
def outside (a n : Nat) : Bool := decide (a + n ≤ boundaryStart) || (decide (dramStart ≤ a) && decide (a + n ≤ dramEnd))

/-- The requester's own mailbox (R537). -/
def replyBox (req : Nat) : Nat := if req = 24 then 21 else req

/-- A request ends: RESULT, OUT_USED and the output are written, the counters move, the block's address is posted back. -/
def State.keeperDone (s : State) (r : KReq) (res : Nat) (out : List Byte) : State :=
  let s := { s with sec := { s.sec with req := none } }.setFld F.SEC_STATUS.BUSY 0
  let o := if res ≤ 1 then out else []
  let s := s.wrBytes r.outAddr o
  let s := (s.wrLe (r.block + 0x20) 4 res).wrLe (r.block + 0x24) 4 o.length
  let s := s.bump (if res ≤ 1 then R.SEC_U_DONE else if res = 7 || res = 10 then R.SEC_U_ABORTED else R.SEC_U_REFUSED)
  let s := if 2 ≤ res then s.raise F.SEC_INT_STATUS.REFUSED else s
  (s.post (replyBox r.req) 20 (w64 r.block) r.replyBit).1

/-- The request a block and its input make. -/
def State.readRequest (s : State) (block req : Nat) : KReq :=
  let b := s.rdBytes block 64
  let inAddr := leAt b 8 8
  let inLen := leAt b 0x10 4
  let ok := decide (inLen ≤ 268435456) && (inLen = 0 || outside inAddr inLen)
  { cmd := leAt b 0 2, replyBit := leAt b 2 1
    rsv := !ok || leAt b 3 1 != 0 || leAt b 0x28 24 != 0 || decide (24 ≤ leAt b 2 1)
      || !(leAt b 0x14 4 = 0 || outside (leAt b 0x18 8) (leAt b 0x14 4))
    block := block, input := if ok then s.rdBytes inAddr inLen else [], outAddr := leAt b 0x18 8, outLen := leAt b 0x14 4
    inLen := inLen, req := req }

/-- KEEPER_REQUEST (R537): the oldest post of mailbox 20 is taken and its block and input copied; a code of no command is
answered at once (R540). -/
def execKeeperRequest (s : State) : Out :=
  if !s.keeperUp || s.sec.req.isSome then .next s
  else
    match (s.box 20).msgs with
    | [] => .next s
    | m :: _ =>
      let s := (s.boxPop 20 20).bump R.SEC_U_COMMANDS
      let block := m.val.toNat
      if block % 64 ≠ 0 || !outside block 64 then .next ((s.bump R.SEC_U_REFUSED).raise F.SEC_INT_STATUS.REFUSED)
      else
        let r := s.readRequest block m.sender
        let s := { s with sec := { s.sec with req := some r } }.setFld F.SEC_STATUS.BUSY 1
        if (kcModes r.cmd).isNone then
          .next (s.keeperDone r (if s.flag F.SEC_STATUS.ERROR then 8 else 4) [])
        else .next s

/-- The mode serves the command (R63, R540). -/
def State.kcMode (s : State) (cmd : Nat) : Bool :=
  let listed := match kcModes cmd with | some l => l.contains s.sys.mode.num | none => false
  let failed := !s.bootFailed || [0x01, 0x02, 0x05, 0x30].contains cmd
  listed && failed && (cmd != 0x30 || s.sys.mode != .boot || s.bootFailed)

/-- What a command answers: the new state, RESULT and output. -/
abbrev Answer := State × Nat × List Byte

/-- Serve the copied request, if it is this command: error state, mode, reserved fields and space for `out` bytes come first. -/
def State.keeper (s : State) (cmd out : Nat) (run : KReq → State → Answer) : State :=
  match s.sec.req with
  | none => s
  | some r =>
    if r.cmd ≠ cmd then s
    else if s.flag F.SEC_STATUS.ERROR && !([0x01, 0x02, 0x05].contains cmd) then s.keeperDone r 8 []
    else if !s.kcMode cmd then s.keeperDone r 3 []
    else if r.rsv || decide (r.outLen < out) then s.keeperDone r 4 []
    else
      let a := run r s
      a.1.keeperDone r a.2.1 a.2.2

/-! ## Signed commands and wrapped keys (R536, R539, R550) -/

/-- What a signed block carries. -/
structure Signed where
  params : List Byte
  slot : Nat
  counter : Nat
  /-- SHA-256 of every byte before SIGNATURE -/
  digest : List Byte
  deriving DecidableEq, Repr

/-- A check: a RESULT, or what passed. -/
inductive Checked (α : Type) where
  | bad (code : Nat)
  | good (a : α)

/-- The unit's serial number, 16 bytes. -/
def State.serialBytes (s : State) : List Byte := leBytes 16 s.mram.serial.toNat

/-- A signed block of a role's slots is checked, and its COUNTER stored (R539). -/
def State.checkSigned (s : State) (l : List Byte) (cmd : Nat) (slots : List Nat) : State × Checked Signed :=
  let len := leAt l 8 4
  let slot := leAt l 6 1
  let counter := leAt l 0x20 8
  if l.length < 0x80 || l.take 4 ≠ [0x53, 0x43, 0x4D, 0x44] || leAt l 4 2 ≠ cmd || leAt l 7 1 ≠ 0 || leAt l 0x0C 4 ≠ 0
      || leAt l 0x28 24 ≠ 0 || 4096 < len || l.length ≠ 0x80 + len then (s, .bad 4)
  else if !slots.contains slot || slice l 0x10 16 ≠ s.serialBytes then (s, .bad 2)
  else
    let body := l.take (0x40 + len)
    match s.slotKey slot with
    | none => (s, .bad 2)
    | some k =>
      if !ecdsaVerify k (sha256 body) (l.drop (0x40 + len)) then (s, .bad 2)
      else if counter ≤ mget 0 s.mram.counters slot then (s, .bad 5)
      else ({ s with mram := { s.mram with counters := mset 0 s.mram.counters slot counter } },
            .good ⟨slice l 0x40 len, slot, counter, sha256 body⟩)

/-- Slots of the roles (R536): Factory only while slot 2 is empty. -/
def State.factorySlots (s : State) : List Nat := if (s.keySlot 2).isNone then [1] else []
def officerSlots : List Nat := [2]
def operatorSlots : List Nat := [7, 8, 9, 10, 11, 12, 13, 14]

/-- A signed command of a role: the rest runs on what the block carries. -/
def State.asRole (s : State) (r : KReq) (slots : List Nat) (run : Signed → State → Answer) : Answer :=
  match s.checkSigned r.input r.cmd slots with
  | (s, .bad c) => (s, c, [])
  | (s, .good b) => run b s

/-- What a wrapped key carries (R550). -/
structure Wrapped where
  target : Nat
  keyId : Nat
  key : List Byte
  kek : Nat
  deriving DecidableEq, Repr

/-- Bytes of a wrap. -/
def wrapLen (l : List Byte) : Nat := 0x30 + leAt l 2 2

/-- A wrapped key of a kind is opened under its KEK, and its COUNTER stored (R550). -/
def State.unwrap (s : State) (l : List Byte) (kind : Nat) : State × Checked Wrapped :=
  let kek := leAt l 0 1
  let len := leAt l 2 2
  let counter := leAt l 8 8
  if l.length < wrapLen l || leAt l 1 1 ≠ kind || len < 8 || 64 < len || kek < 16 || 31 < kek
      || (kind ≠ 2 && leAt l 0x1C 4 ≠ 0) || (kind = 0 && leAt l 4 4 % 256 = kek) then (s, .bad 4)
  else
    match s.slotKey kek with
    | none => (s, .bad 6)
    | some k =>
      match gcmOpen k (slice l 0x10 12) (l.take 0x20 ++ s.serialBytes) (slice l 0x20 len) (slice l (0x20 + len) 16) with
      | none => (s, .bad 2)
      | some key =>
        if counter ≤ mget 0 s.mram.counters kek then (s, .bad 5)
        else ({ s with mram := { s.mram with counters := mset 0 s.mram.counters kek counter } },
              .good ⟨leAt l 4 4, leAt l 0x1C 4, key, kek⟩)

/-- A wrapped key command: the rest runs on what the wrap carries. -/
def State.asHolder (s : State) (l : List Byte) (kind : Nat) (run : Wrapped → State → Answer) : Answer :=
  match s.unwrap l kind with
  | (s, .bad c) => (s, c, [])
  | (s, .good w) => run w s

/-! ## The commands of R540 -/

/-- Bit n: slot n occupied; and two ORIGIN bits a slot. -/
def State.slotBits (s : State) : Nat := (List.range 64).foldl (fun a n => a + b2n (s.keySlot n).isSome * 2 ^ n) 0
def State.originBits (s : State) : Nat :=
  (List.range 64).foldl (fun a n => a + (match s.keySlot n with | some k => k.origin | none => 0) * 2 ^ (2 * n)) 0

/-- STATUS. -/
def execStatus (s : State) : Out :=
  .next (s.keeper 0x01 44 fun _ s =>
    (s, 0, s.serialBytes ++ leBytes 4 (s.reg R.SEC_STATUS).toNat ++ leBytes 8 s.slotBits ++ leBytes 16 s.originBits))

/-- SELF_TEST (R566, R567): the tests pass or fail. -/
def execSelfTest (ok : Bool) (s : State) : Out :=
  .next (s.keeper 0x02 0 fun _ s => if ok then (s.setFld F.SEC_STATUS.ERROR 0, 0, []) else (s.keeperError, 8, []))

/-- The statement of R558 without its SIGNATURE. -/
def State.statement (s : State) (key : List Byte) (nonce : List Byte) : List Byte :=
  let alt := [0, 1, 2].any fun t => match s.bootedOf t with | some b => b.alt | none => false
  let flags := b2n (s.flag F.SEC_STATUS.ZEROIZED) * 8 + b2n (s.flag F.SEC_STATUS.ERROR) * 4 + b2n (s.servo = 2) * 2 + b2n alt
  [0x53, 0x41, 0x54, 0x54] ++ leBytes 2 1 ++ leBytes 1 s.sys.mode.num ++ leBytes 1 flags ++ leBytes 4 s.epoch
    ++ leBytes 4 (s.reg R.SYS_RESET_CAUSE).toNat ++ s.serialBytes ++ sha256 (ecPublic (beNat key)) ++ nonce ++ leBytes 8 s.gt
    ++ leBytes 2 (s.reg R.TIM_TQ).toNat ++ leBytes 6 0
    ++ leBytes 4 (s.imageSeq 2) ++ leBytes 4 (s.imageSeq 0) ++ leBytes 4 (s.imageSeq 1) ++ leBytes 4 (s.reg R.SEC_TAMPER_LATCH).toNat
    ++ s.imageDigest 2 ++ s.imageDigest 0 ++ s.imageDigest 1 ++ s.configDigest ++ s.unitDigest
    ++ ((List.range 16).flatMap fun n => s.mr n) ++ leBytes 8 s.slotBits ++ leBytes 8 0

/-- ATTEST (R558, R559): signed with slot 0, or with slot 15 in M10. -/
def execAttest (s : State) : Out :=
  .next (s.keeper 0x03 880 fun r s =>
    match s.slotKey (if s.sys.mode = .lockdown then 15 else 0) with
    | none => (s, 6, [])
    | some k =>
      if r.inLen ≠ 32 then (s, 4, [])
      else
        let st := s.statement k r.input
        let n := s.random
        (n.1, 0, st ++ ecdsaSign (beNat k) (beNat n.2) (sha256 st)))

/-- EXTEND (R554): the register's number in 4 bytes, then the value. -/
def execExtend (s : State) : Out :=
  .next (s.keeper 0x04 0 fun r s =>
    let n := leAt r.input 0 4
    if r.inLen ≠ 36 || n < 8 || 15 < n then (s, 4, []) else (s.extend n (r.input.drop 4), 0, []))

/-- RING_READ: records from the given SEQ up, as many as there are and fit. -/
def execRingRead (s : State) : Out :=
  .next (s.keeper 0x05 0 fun r s =>
    let seq := leAt r.input 0 8
    let oldest := s.mram.rlNext - 65536
    if r.inLen ≠ 8 || seq < oldest || s.mram.rlNext < seq then (s, 4, [])
    else
      let n := min (s.mram.rlNext - seq) (r.outLen / 64)
      (s, 0, (List.range n).flatMap fun i => s.ringPlace ((seq + i) % 65536)))

/-- HASH. -/
def execHash (s : State) : Out := .next (s.keeper 0x06 32 fun r s => (s, 0, sha256 r.input))

/-- VERIFY: a public slot in 4 bytes, or 0xFFFF_FFFF and the key in 64; then the 32-byte digest and the signature. -/
def execVerify (s : State) : Out :=
  .next (s.keeper 0x07 0 fun r s =>
    let n := leAt r.input 0 4
    let own := n = 0xFFFFFFFF
    let rest := r.input.drop (if own then 68 else 4)
    if rest.length ≠ 96 || (!own && 64 ≤ n) then (s, 4, [])
    else
      let key := if own then some (slice r.input 4 64) else if slotType n = 0 then s.slotKey n else none
      match key with
      | none => (s, 6, [])
      | some k => (s, if ecdsaVerify k (rest.take 32) (rest.drop 32) then 0 else 2, []))

/-- A new private scalar (R566: the pairwise test of a sound generator passes). -/
def State.newPrivate (s : State) : State × List Byte :=
  let r := s.random
  (r.1, beBytes 32 (beNat r.2 % (p256N - 1) + 1))

/-- GEN_IDENTITY: slots 0 and 15; both public keys are written. -/
def execGenIdentity (s : State) : Out :=
  .next (s.keeper 0x10 128 fun r s => s.asRole r (s.factorySlots ++ officerSlots) fun b s =>
    if !b.params.isEmpty then (s, 4, [])
    else
      let a := s.newPrivate
      let c := a.1.newPrivate
      ((c.1.writeKey 0 3 0 a.2).writeKey 15 3 0 c.2, 0, ecPublic (beNat a.2) ++ ecPublic (beNat c.2)))

/-- INSTALL_OWNER. -/
def execInstallOwner (s : State) : Out :=
  .next (s.keeper 0x11 0 fun r s => s.asRole r s.factorySlots fun b s =>
    if (ecPoint b.params).isNone then (s, 4, []) else (s.writeKey 2 0 1 b.params, 0, []))

/-- PROVISION_DONE: M2 goes to M3 (R57). -/
def execProvisionDone (s : State) : Out :=
  .next (s.keeper 0x12 0 fun r s => s.asRole r officerSlots fun b s =>
    if !b.params.isEmpty then (s, 4, [])
    else if (s.keySlot 0).isNone || (s.keySlot 15).isNone then (s, 6, [])
    else (s.beginTrans .commission 13, 0, []))

/-- A key goes into a slot if it suits it: RESULT 4 for its length, 6 for its type. -/
def State.putKey (s : State) (n kind origin : Nat) (key : List Byte) : Answer :=
  if 64 ≤ n then (s, 4, [])
  else if !slotTakes n kind || n = 0 || n = 1 || n = 15 then (s, 6, [])
  else if !keyLenOk kind key.length || (kind = 0 && (ecPoint key).isNone) then (s, 4, [])
  else (s.writeKey n kind origin key, 0, [])

/-- LOAD_CLEAR (R551): slot, kind and two zero bytes, then the key; slot 2 only in M3 (R542). -/
def execLoadClear (s : State) : Out :=
  .next (s.keeper 0x20 0 fun r s => s.asRole r officerSlots fun b s =>
    let n := leAt b.params 0 1
    if b.params.length < 4 || leAt b.params 2 2 ≠ 0 then (s, 4, [])
    else if n = 2 && s.sys.mode ≠ .commission then (s, 3, [])
    else s.putKey n (leAt b.params 1 1) 1 (b.params.drop 4))

/-- LOAD_WRAPPED: TARGET holds the slot, and 1 in bit 8 for a P-256 private key. -/
def execLoadWrapped (s : State) : Out :=
  .next (s.keeper 0x21 0 fun r s => s.asHolder r.input 0 fun w s =>
    let n := w.target % 256
    if r.inLen ≠ wrapLen r.input || 512 ≤ w.target then (s, 4, [])
    else if n < 16 then (s, 6, [])
    else s.putKey n (if n < 32 then 1 else if bitOf w.target 8 then 3 else 2) 2 w.key)

/-- ERASE_SLOT: the slot in 4 bytes. -/
def execEraseSlot (s : State) : Out :=
  .next (s.keeper 0x22 0 fun r s => s.asRole r officerSlots fun b s =>
    let n := leAt b.params 0 4
    if b.params.length ≠ 4 || 64 ≤ n then (s, 4, [])
    else if !(s.mram.key n).occupied then (s, 6, [])
    else (s.eraseSlot n, 0, []))

/-- TARGET of a SAK (R550, R552): port, channel from 0 (transmit) to 16, association 0 or 1. -/
def sakTarget (t : Nat) : Option (Nat × Nat × Nat) :=
  if t < 2 ^ 24 ∧ t / 65536 < 6 ∧ t / 256 % 256 ≤ 16 ∧ t % 256 ≤ 1 then some (t / 65536, t / 256 % 256, t % 256) else none

/-- A port's associations without one. -/
def dropSak (l : List MacSa) (ch an : Nat) : List MacSa :=
  l.filter fun a => !(a.rx = decide (ch ≠ 0) && a.chan = ch - 1 && a.an = an)

/-- INSTALL_SAK (R552). -/
def execInstallSak (s : State) : Out :=
  .next (s.keeper 0x23 0 fun r s => s.asHolder r.input 1 fun w s =>
    match sakTarget w.target with
    | none => (s, 4, [])
    | some (p, ch, an) =>
      if w.key.length ≠ 32 || r.inLen ≠ wrapLen r.input then (s, 4, [])
      else
        let a : MacSa := { rx := ch ≠ 0, chan := ch - 1, an := an, key := BitVec.ofNat 256 (beNat w.key), nextPn := 1 }
        (s.setPort p { s.port p with sas := dropSak (s.port p).sas ch an ++ [a] }, 0, []))

/-- REMOVE_SAK: TARGET in 4 bytes. -/
def execRemoveSak (s : State) : Out :=
  .next (s.keeper 0x24 0 fun r s =>
    match (if r.inLen = 4 then sakTarget (leAt r.input 0 4) else none) with
    | none => (s, 4, [])
    | some (p, ch, an) =>
      if (dropSak (s.port p).sas ch an).length = (s.port p).sas.length then (s, 6, [])
      else (s.setPort p { s.port p with sas := dropSak (s.port p).sas ch an }, 0, []))

/-- A key-table entry and whether its key is shorter than 14 bytes (R568). -/
def State.setRsvKey (s : State) (i : Nat) (k : Option RsvKey) : State :=
  let short := match k with | some k => decide (k.key.length < 14) | none => false
  let s : State := { s with
    ing := { s.ing with rsvKeys := mset none s.ing.rsvKeys i k }
    sec := { s.sec with short := mset false s.sec.short i short } }
  s.setFld F.SEC_STATUS.NONAPPROVED (b2n (!s.sec.short.isEmpty))

/-- LOAD_RSV (R552, R568): the wrap, then the Source Table index in 4 bytes. -/
def execLoadRsv (s : State) : Out :=
  .next (s.keeper 0x25 0 fun r s => s.asHolder r.input 2 fun w s =>
    let src := leAt r.input (wrapLen r.input) 4
    if r.inLen ≠ wrapLen r.input + 4 || 128 ≤ w.target || 4096 ≤ src then (s, 4, [])
    else
      let s := s.setRsvKey w.target (some ⟨w.keyId, src, w.key⟩)
      if w.key.length < 14 then (s.bump R.SEC_U_NONAPPROVED, 1, []) else (s, 0, []))

/-- REMOVE_RSV: the entry in 4 bytes. -/
def execRemoveRsv (s : State) : Out :=
  .next (s.keeper 0x26 0 fun r s =>
    let i := leAt r.input 0 4
    if r.inLen ≠ 4 || 128 ≤ i then (s, 4, [])
    else if (mget none s.ing.rsvKeys i).isNone then (s, 6, [])
    else (s.setRsvKey i none, 0, []))

/-- A service key of a kind. -/
def State.serviceKey (s : State) (n kind : Nat) : Option (List Byte) :=
  if n < 32 || 64 ≤ n then none
  else match s.keySlot n with
    | some k => if k.kind = kind then some k.key else none
    | none => none

/-- SIGN: the slot in 4 bytes, then the digest. -/
def execSign (s : State) : Out :=
  .next (s.keeper 0x27 64 fun r s =>
    if r.inLen ≠ 36 then (s, 4, [])
    else
      match s.serviceKey (leAt r.input 0 4) 3 with
      | none => (s, 6, [])
      | some k =>
        let n := s.random
        (n.1, 0, ecdsaSign (beNat k) (beNat n.2) (r.input.drop 4)))

/-- MAC: the slot in 4 bytes, then the message. -/
def execMac (s : State) : Out :=
  .next (s.keeper 0x28 32 fun r s =>
    if r.inLen < 4 then (s, 4, [])
    else
      match s.serviceKey (leAt r.input 0 4) 2 with
      | none => (s, 6, [])
      | some k => (s, 0, hmac256 k (r.input.drop 4)))

/-- LOAD_IMAGE (R555): the next Boot tries the slot written. -/
def execLoadImage (s : State) : Out :=
  .next (s.keeper 0x30 0 fun r s =>
    let t := leAt r.input 6 1
    if 2 < t || !s.imageOk t r.input then (s, 9, [])
    else
      let alt := s.loadSlot t
      ({ s with hst := { s.hst with
          images := mset [] s.hst.images (2 * t + b2n alt) r.input, altFirst := mset false s.hst.altFirst t alt } }, 0, []))

/-- SET_FLOOR (R555): target and floor, 4 bytes each. -/
def execSetFloor (s : State) : Out :=
  .next (s.keeper 0x31 0 fun r s => s.asRole r officerSlots fun b s =>
    let t := leAt b.params 0 4
    let f := leAt b.params 4 4
    if b.params.length ≠ 8 || 2 < t || s.imageSeq t < f || f < mget 0 s.mram.floors t then (s, 4, [])
    else ({ s with mram := { s.mram with floors := mset 0 s.mram.floors t f } }, 0, []))

/-- COMMIT_CONFIG (R557): by an Operator in M4 and M7. -/
def execCommitConfig (s : State) : Out :=
  .next (s.keeper 0x32 0 fun r s =>
    if s.sys.mode = .service || s.sys.mode = .degraded then
      s.asRole r operatorSlots fun b s => if b.params.isEmpty then (s.copyConfig.measureConfig, 0, []) else (s, 4, [])
    else if r.inLen = 0 then (s.copyConfig.measureConfig, 0, [])
    else (s, 4, []))

/-- SECURITY_POLICY (R561): grades, temperature limits and re-mask period, 4 bytes each. -/
def execSecurityPolicy (s : State) : Out :=
  .next (s.keeper 0x33 0 fun r s => s.asRole r officerSlots fun b s =>
    let g := leAt b.params 0 4
    let t := leAt b.params 4 4
    let ms := leAt b.params 8 4
    let grade (n : Nat) : Nat := bitsOf g (2 * n + 1) (2 * n)
    if b.params.length ≠ 12 || 2 ^ 14 ≤ g || 2 ^ 16 ≤ t || ms < 10 || 1000 < ms
        || (List.range 7).any (fun n => grade n = 3) || [0, 1, 2].any (fun n => grade n = 0) then (s, 4, [])
    else (((s.setReg R.SEC_TAMPER_GRADE (w32 g)).setReg R.SEC_TAMPER_TEMP (w32 t)).setReg R.SEC_REMASK (w32 ms), 0, []))

/-- A MODE_AUTH's target and requester: one byte each, two zero bytes (R541). -/
def authParams (l : List Byte) : Option (Nat × Nat) :=
  let t := leAt l 0 1
  let q := leAt l 1 1
  if l.length = 4 ∧ leAt l 2 2 = 0 ∧ (t = 3 ∨ t = 11) ∧ (q = 24 ∨ (16 ≤ q ∧ q < 20)) then some (t, q) else none

/-- MODE_AUTH (R541): held for the next matching request. -/
def execModeAuth (s : State) : Out :=
  .next (s.keeper 0x40 0 fun r s => s.asRole r operatorSlots fun b s =>
    match authParams b.params with
    | none => (s, 4, [])
    | some (t, q) =>
      ({ s with sec := { s.sec with auths := s.sec.auths ++ [(t, q, s.now)] } }.extend 6 b.digest, 0, []))

/-- The MODE_AUTH at the address a MODEREQ gives: checked when the request is made (R541). -/
def State.authAt (s : State) (q target addr : Nat) : State × Bool :=
  if addr % 64 ≠ 0 || !outside addr 0x80 then (s, false)
  else
    let len := s.rdLe (addr + 8) 4
    if 4096 < len || !outside addr (0x80 + len) then (s, false)
    else
      match s.checkSigned (s.rdBytes addr (0x80 + len)) 0x40 operatorSlots with
      | (s, .bad _) => (s, false)
      | (s, .good b) => (s.extend 6 b.digest, authParams b.params = some (target, q))

/-- MODE_AUTH_EXPIRE (R541): authorities held for 10 s lapse. -/
def execModeAuthExpire (dt : Nat) (s : State) : Out :=
  let s := s.elapse dt
  .next { s with sec := { s.sec with auths := s.sec.auths.filter fun a => decide (s.now - a.2.2 < 10 * 1200000000) } }

/-- ADMIT_STEP (R164). -/
def execAdmitStep (s : State) : Out :=
  .next (s.keeper 0x41 0 fun r s => s.asRole r operatorSlots fun b s =>
    if !b.params.isEmpty then (s, 4, [])
    else (({ s with tim := { s.tim with armedAt := s.now } }.setFld F.TIM_STATUS.STEP_ARMED 1).extend 6 b.digest, 0, []))

/-- RING_CLEAR (R592): the SEQ up to which the log was read. -/
def execRingClear (s : State) : Out :=
  .next (s.keeper 0x42 0 fun r s => s.asRole r operatorSlots fun b s =>
    if b.params.length ≠ 8 || leNat b.params ≠ (s.cnt R.UND_RL_HEAD).toNat || s.und.clearing.isSome then (s, 4, [])
    else
      let data := b.params ++ leBytes 4 b.slot ++ leBytes 8 b.counter ++ b.digest.take 8
      ({ s with und := { s.und with clearing := some data } }.extend 6 b.digest, 0, []))

/-- RING_CLEAR_DONE (R592). -/
def execRingClearDone (s : State) : Out := .next s.ringClearDone

/-- ZEROIZE (R563): then a commanded unit reset with cause 5. -/
def execZeroize (s : State) : Out :=
  let t := s.keeper 0x43 0 fun r s => s.asRole r (officerSlots ++ operatorSlots) fun b s =>
    if b.params.isEmpty then ((s.extend 6 b.digest).zeroize false, 0, []) else (s, 4, [])
  let done := decide (s.cnt R.SEC_U_ZEROIZES ≠ t.cnt R.SEC_U_ZEROIZES)
  .next (if done && t.mayReset then t.commandedReset 5 else t)

/-! ## Re-masking (R544) -/

/-- Slots a request uses, the KEK of a wrap among them (R544, R565): those of secret keys and those it writes. -/
def KReq.uses (r : KReq) (mode : Mode) : List Nat :=
  match r.cmd with
  | 0x03 => [if mode = .lockdown then 15 else 0]
  | 0x10 => [0, 15]
  | 0x11 => [2]
  | 0x20 | 0x22 => [leAt r.input 0x40 1]
  | 0x21 => [leAt r.input 0 1, leAt r.input 4 1]
  | 0x23 | 0x25 => [leAt r.input 0 1]
  | 0x27 | 0x28 => [leAt r.input 0 1]
  | _ => []

/-- The occupied slot whose last visit is oldest, among those no command uses. -/
def State.nextVisit (s : State) : Option (Nat × KeyShares) :=
  let busy := match s.sec.req with | some r => r.uses s.sys.mode | none => []
  s.sec.slots.foldl (fun a x =>
    match x.2 with
    | none => a
    | some k =>
      if busy.contains x.1 then a
      else match a with
        | some (_, b) => if k.visited < b.visited then some (x.1, k) else a
        | none => some (x.1, k)) none

/-- REMASK (R544): the slot that waits longest is visited when its period is over. -/
def execRemask (dt : Nat) (s : State) : Out :=
  let s := s.elapse dt
  let period := s.fld F.SEC_REMASK.MS * 1200000
  match s.nextVisit with
  | none => .next s
  | some (n, k) =>
    if s.now - k.visited < period || !s.keeperUp then .next s
    else
      let s := s.bump R.SEC_U_REMASKS
      let s := if 2 * period < s.now - k.visited then s.bump R.SEC_U_REMASK_LATE else s
      let r := s.newShares k.key k.kind k.origin
      .next (r.1.setKeySlot n (some r.2))

/-! ## Tamper (R560 to R565) -/

/-- The grade a sensor acts with in the present mode (R561, R562). -/
def State.tamperGrade (s : State) (n : Nat) : Nat :=
  if s.sys.mode = .boot then 2 else bitsOf (s.fld F.SEC_TAMPER_GRADE.GRADE) (2 * n + 1) (2 * n)

/-- A command that uses a key is aborted, and the slots it was using are erased (R565). -/
def State.tamperAbort (s : State) : State :=
  match s.sec.req with
  | none => s
  | some r =>
    let l := (r.uses s.sys.mode).filter fun n => decide (n < 64)
    if l.isEmpty then s
    else (l.foldl (fun s n => if (s.mram.key n).occupied || (s.keySlot n).isSome then s.eraseSlot n else s) s).keeperDone r 7 []

/-- MR7 takes the tamper records once the Keeper runs (R554, R560). -/
def State.measureTamper (s : State) : State :=
  if !s.keeperUp then s
  else
    let s' := s.sec.mr7.foldl (fun s t => s.extend 7 (sha256 (leBytes 1 t.1 ++ leBytes 1 t.2.1 ++ leBytes 8 t.2.2))) s
    { s' with sec := { s'.sec with mr7 := [] } }

/-- What a grade does in the present mode (R561, R562). -/
def State.tamperAct (s : State) (grade : Nat) : State :=
  let latch (s : State) : State := s.setFld F.SEC_TAMPER_LATCH.LOCKDOWN 1
  match s.sys.mode with
  | .lockdown => s
  | .keep | .dormant =>
    let s := if 1 ≤ grade then { s with und := { s.und with storageKey := false } } else s
    if 2 ≤ grade then
      let s := latch s
      if s.sys.mode = .dormant then s.beginTrans .lockdown 3 else s
    else s
  | _ =>
    if 2 ≤ grade then ((latch s).zeroize true).beginTrans .lockdown 3
    else if grade = 1 then s.zeroize false
    else s

/-- TAMPER_FIRE (R560): latched, recorded, and its grade acts. -/
def execTamperFire (n : Fin 7) (s : State) : Out :=
  let g := s.tamperGrade n.val
  let cal := packCal s.und.cal s.subsec s.und.invalid
  let s := (s.raise ⟨R.SEC_TAMPER_LATCH, n.val, n.val⟩).raise ⟨R.SEC_TAMPER_LATCH, 8 + n.val, 8 + n.val⟩
  let s := s.ringLog 0x0007 0xFF (leBytes 1 n.val ++ leBytes 1 g ++ leBytes 6 0 ++ leBytes 8 cal)
  let s := ((s.bump R.SEC_U_TAMPER_EVENTS).raise F.SEC_INT_STATUS.TAMPER)
  let s := { s with sec := { s.sec with mr7 := s.sec.mr7 ++ [(n.val, g, cal)] } }.measureTamper
  let s := if g = 0 then s.wakeEvent 3 else s
  .next (s.tamperAbort.tamperAct g)

/-- TAMPER_SENSOR_CLEAR (R569): the sensor no longer fires. -/
def execTamperSensorClear (n : Fin 7) (s : State) : Out := .next (s.setFld ⟨R.SEC_TAMPER_LATCH, 8 + n.val, 8 + n.val⟩ 0)

end Sys2Proof.Machine
end

