-- ==== Sys2Proof/Machine/Power.lean ====
section
/-!
DEFINITION. The power sequence and the commands of chapter 02: cold start and wake (R62 to R64), power loss (R65, R66), resets
(R67), the Stream Engine PLL (R34), and test sessions (R73, R75).
-/

namespace Sys2Proof.Machine

/-! ## Stream Engine PLL (R34) -/

/-- PLL_STOP: all 16 Stream Engines have been in WAIT for 500 µs. -/
def execPllStop (dt : Nat) (s : State) : Out :=
  let s := s.elapse dt
  if s.seWait && s.sys.pll = .running && decide (500 * clkPerUs ≤ s.now - s.seWaitSince) then
    .next { s with sys := { s.sys with pll := .stopped } }
  else .next s

/-- PLL_RESTART_DONE. -/
def execPllRestartDone (dt : Nat) (s : State) : Out :=
  let s := s.elapse dt
  match s.sys.pll with
  | .restarting _ => .next { s with sys := { s.sys with pll := .running, pllUpAt := s.now } }
  | _ => .next s

/-! ## Cold start (R63) -/

/-- A step of the boot is next: the unit is in M1, has reached `n` and no transition is under way. -/
def State.atStep (s : State) (n : Nat) : Bool :=
  s.sys.mode = .boot && s.sys.bootStep = n && s.sys.trans.isNone && s.sys.warnAt.isNone

/-- The boot has reached a step. -/
def State.reach (s : State) (n : Nat) : State := { s with sys := { s.sys with bootStep := n } }

/-- MAINS_IN_RANGE (R57, R63): mains has been in range for 50 ms, and the unit leaves M0 with a power-on reset. -/
def execMainsInRange (dt : Nat) (s : State) : Out :=
  let s := s.elapse dt
  if s.sys.mode = .keep && decide (50 * 1200000 ≤ dt) then .next (s.unitReset (some 1) 0) else .next s

/-- RAILS_UP: step t1. -/
def execRailsUp (s : State) : Out :=
  if s.atStep 0 then .next ({ s with sys := { s.sys with powerGood := true } }.reach 1) else .next s

/-- The Ring Log head is rebuilt from the newest record (R586), and a clear cut short is completed (R592). -/
def State.rebuildRing (s : State) : State :=
  let s := if s.mram.rlNext = 0 then s else s.setCnt R.UND_RL_HEAD (w64 (s.mram.rlNext - 1))
  if s.und.clearCut then s.ringClearDone else s

/-- KEEPER_RESET_RELEASE: step t2. M1 is entered, the wake watcher is disarmed, EPOCH rises, and the Keeper Core starts at
address 0 (R61, R63, R481, R516, log 29). -/
def execKeeperResetRelease (s : State) : Out :=
  if !s.atStep 1 then .next s
  else
    let s := s.rebuildRing.disarmWatcher
    let s := (s.incEpoch.reach 2).setXngState 0
    let s := { s with ing := { s.ing with jseq := 0 } }.showMode
    let cause := if s.sys.bootFromWake then 14 else if s.fld F.SYS_RESET_CAUSE.CAUSE = 1 then 2 else 11
    let s := s.ringLog 0x0001 0xFF
      (leBytes 1 s.sys.prevMode.num ++ leBytes 1 1 ++ leBytes 2 cause ++ leBytes 4 s.epoch ++ leBytes 8 s.gt)
    .next (((s.setCnt R.SYS_MODE_ENTRY (w64 s.gt)).raise F.SYS_INT_STATUS.MODE_CHANGE).startCore 20 0)

/-- SELF_TESTS_DONE: step t3 (R553, R566, R567). A failed test leaves the unit here; the Lockdown latch takes it to M10. -/
def execSelfTestsDone (ok : Bool) (s : State) : Out :=
  if !s.atStep 2 then .next s
  else if !ok then .next s.keeperError
  else
    let s := s.openSlots.extend 0 (beBytes 32 Config.romDigest.toNat)
    let s := (s.reach 3).measureTamper
    if s.flag F.SEC_TAMPER_LATCH.LOCKDOWN then .next (s.beginTrans .lockdown 3) else .next s

/-- DRAM_TRAINED: step t4; memory holds valid ECC. -/
def execDramTrained (s : State) : Out := if s.atStep 3 then .next (s.reach 4) else .next s

/-- FIRMWARE_VERIFIED: step t5; the Keeper Core goes on in the firmware and SV0 is released, or the boot has failed (R397, log
29). -/
def execFirmwareVerified (s : State) : Out :=
  if !s.atStep 4 || s.bootFailed then .next s
  else
    let r := s.bootImage 2
    let at' := mget 0 r.1.sys.entries 2
    if r.2 then .next (((r.1.reach 5).startCore 16 at').startCore 20 at') else .next r.1

/-- IMAGES_VERIFIED: step t6; SV0 starts at the ENTRY of the Supervisor image (R397). -/
def execImagesVerified (s : State) : Out :=
  if !s.atStep 5 || s.bootFailed then .next s
  else
    let v := s.bootImage 1
    if !v.2 then .next v.1
    else
      let e := v.1.bootImage 0
      if !e.2 then .next e.1 else .next ((e.1.reach 6).startCore 16 (e.1.entryOf 16))

/-- Grid Time is seeded from the calendar (R155); the servo starts in FREERUN and the timebase runs (R175). -/
def State.seedTime (s : State) : State :=
  let sec := 946684800 + s.und.cal.seconds + s.fld F.TIM_UTC.OFFSET
  let s := { s with tim := { s.tim with grid := sec * 2 ^ 32 + s.subsec * 2 ^ 17, phase := 0, running := true, freshAt := s.now } }
  (((s.setFld F.TIM_CTRL.RUN 1).setFld F.TIM_STATUS.STOPPED 0).setServo 0).utcEval.tqEval

/-- Blocks and entries whose loaded run control is one run from here; a Grove starts, or shows BAD_CFG (R179, R203). -/
def State.startLoaded (s : State) : State :=
  let up (s : State) (run stopped : Fld) : State := if s.flag run then s.setFld stopped 0 else s
  let s := up s F.FLT_CTRL.RUN F.FLT_STATUS.STOPPED
  let s := up s F.OSC_CTRL.RUN F.OSC_STATUS.STOPPED
  let s := if s.flag F.ISL_CTRL.RUN then (s.setFld F.ISL_STATUS.STOPPED 0).islStart else s
  let s := up s F.ALM_CTRL.RUN F.ALM_STATUS.STOPPED
  let s := up s F.CAP_CTRL.RUN F.CAP_STATUS.STOPPED
  let s := up s F.ACC_CTRL.RUN F.ACC_STATUS.STOPPED
  let s := up s F.XNG_CTRL.RUN F.XNG_STATUS.STOPPED
  let s := ((s.usedEntries T.FLT.FilterChannel).foldl (fun s k => s.fltLoaded k false) s).oscLoaded
  let s := (s.validEntries T.CAP.Sequencer 0).foldl (fun s k => s.capEnabled k) s
  let s := (s.validEntries T.ACC.PulseInput 0).foldl (fun s n => s.pulseInEnabled n) s
  (List.range 64).foldl (fun s g =>
    let run := F.GLD_G_CTRL.RUN.at (0x40 * g)
    if s.flag run then
      let t := s.groveRunReq g
      if (t.grove g).run = .starting then t else t.setFld run 0
    else s) s

/-- CONFIG_LOADED: step t7. -/
def execConfigLoaded (s : State) : Out :=
  if !s.atStep 6 then .next s
  else
    let s := (s.loadConfig.reach 7).seedTime.startLoaded
    let s := (List.range 6).foldl (fun s p => s.showPhy p) s
    let s := (s.accRestore.measureConfig).setHolder 16
    let s := { s with sys := { s.sys with t7At := some s.now } }
    .next s.timeReady

/-- BOOT_TIMEWAIT_EXPIRE (R62). -/
def execBootTimewaitExpire (dt : Nat) (s : State) : Out :=
  let s := s.elapse dt
  match s.sys.t7At with
  | none => .next s
  | some t =>
    if decide (s.fld F.SYS_BOOT_TIMEWAIT.SECONDS * 1200000000 ≤ s.now - t) && !s.sys.timeWaitUp then
      .next { s with sys := { s.sys with timeWaitUp := true } }.timeReady
    else .next s

/-- PAIR_BOOT_WAIT_EXPIRE (R493): no heartbeat came on either path. -/
def execPairBootWaitExpire (dt : Nat) (s : State) : Out :=
  let s := s.elapse dt
  match s.sys.t7At with
  | none => .next s
  | some t =>
    if s.paired && s.xng.hb.isNone && decide (s.fld F.XNG_TIMING.BOOT_WAIT_S * 1200000000 ≤ s.now - t) then
      .next { s with sys := { s.sys with pairWaitUp := true } }.bootAct
    else .next s

/-! ## Wake (R64, R481) -/

/-- WAKE_SOURCE_FIRED: a slot reaches COUNT_N; the first firing in M11 starts the wake. -/
def execWakeSourceFired (slot : BitVec 4) (s : State) : Out :=
  let k := slot.toNat
  if !s.slotDue k then .next s
  else
    let first := s.fld F.IC_WAKE_CAUSE.FIRED = 0
    let s := s.slotFire k
    if first && s.sys.mode = .dormant && s.sys.trans.isNone && s.sys.warnAt.isNone then .next (s.unitReset none 0) else .next s

/-! ## Power loss (R65, R66) -/

/-- A key update whose new image has not been read back is abandoned (R548). -/
def State.abandonUpdate (s : State) : State :=
  match s.sec.req with
  | none => s
  | some r => if [0x10, 0x11, 0x20, 0x21, 0x22].contains r.cmd then s.keeperDone r 10 [] else s

/-- POWER_FAIL_WARNING: steps 1 to 5 begin. -/
def execPowerFailWarning (s : State) : Out :=
  if s.sys.warnAt.isSome || !s.sys.powerGood || s.sys.mode = .keep then .next s
  else
    let lines := s.dutyLines
    let s : State := { s with sys := { s.sys with warnAt := some s.now } }
    let s := (s.linesMoved lines).ringLog 0x0002 0xFF (leBytes 8 (packCal s.und.cal s.subsec s.und.invalid))
    .next s.abandonUpdate.accPowerFail.capPowerFail

/-- POWER_FAIL_OUTPUTS_SAFE: step 6, 50 ms after tw. -/
def execPowerFailOutputsSafe (dt : Nat) (s : State) : Out :=
  let s := s.elapse dt
  match s.sys.warnAt with
  | none => .next s
  | some t =>
    if s.now - t < 50 * 1200000 || s.sys.coresOff then .next s
    else
      let drive := s.drive
      let s : State := { s with sys := { s.sys with coresOff := true } }
      .next (s.driveChanged drive).modeCores.dpPowerFail

/-- A transition to M10 that has begun runs to completion before M0 is entered (R60). -/
def State.lockdownFirst (s : State) : State :=
  match s.sys.trans with
  | some u => if u.target = .lockdown then s.enterMode .lockdown u.requested u.cause else s
  | none => s

/-- POWER_GOOD_LOST: step 7, 70 ms after tw. -/
def execPowerGoodLost (dt : Nat) (s : State) : Out :=
  let s := s.elapse dt
  match s.sys.warnAt with
  | none => .next s
  | some t =>
    if s.now - t < 70 * 1200000 then .next s
    else
      let req := match s.sys.trans with | some u => u.requested | none => false
      let s := (if req then s.requestResult 7 else s).lockdownFirst
      let s := s.enterMode .keep false 2
      let s : State := { s with
        sys := { s.sys with powerGood := false, warnAt := none }
        und := { s.und with clearCut := s.und.clearing.isSome } }
      .next s

/-- BACKUP_LOSS_RESET (R67, R573): power returns after mains and backup were both absent. -/
def execBackupLossReset (s : State) : Out :=
  if s.sys.mode = .keep then .next s.backupLoss else .next s

/-! ## Resets -/

/-- LAST_RESORT_RESET (R530): the hold is over. -/
def execLastResortReset (dt : Nat) (s : State) : Out :=
  let s := s.elapse dt
  match s.err.lastResort with
  | none => .next s
  | some t => if t ≤ s.now && s.mayReset then .next (s.unitReset (some 4) 1) else .next s

/-! ## Test sessions (R73, R75) -/

/-- Fields of an injection descriptor (R73). -/
def injAddr (e : Entry) : Nat := descField e 0 8
def injLen (e : Entry) : Nat := descField e 8 2
def injPort (e : Entry) : Nat := descField e 0x0A 1
def injFlags (e : Entry) : Nat := descField e 0x0B 1
def injAt (e : Entry) : Nat := descField e 0x10 8

/-- A descriptor keeps the layout: its frame lies in SRAM or DRAM. -/
def injOk (e : Entry) : Bool :=
  decide (60 ≤ injLen e) && decide (injLen e ≤ 9212) && decide (injPort e < 6) && decide (injFlags e < 2)
    && descField e 0x0C 4 = 0 && descField e 0x18 8 = 0 && outside (injAddr e) (injLen e)

/-- Descriptors are taken: M8 with INJ_EN. -/
def State.injects (s : State) : Bool := s.sys.mode = .test && s.flag F.SYS_TEST_CTRL.INJ_EN && !s.sys.coresOff

/-- INJECT_DESCRIPTOR: the next descriptor is taken; one that breaks the layout is discarded. -/
def execInjectDescriptor (s : State) : Out :=
  if !s.injects || s.sys.injHeld.isSome then .next s
  else
    match s.pop (s.fld F.SYS_TEST_CTRL.INJ_QUEUE) 32 with
    | (s, _, none) => .next s
    | (s, _, some e) =>
      if e.marker then .next s
      else if injOk e.data then .next { s with sys := { s.sys with injHeld := some e.data } }
      else .next (s.bump R.SYS_TEST_BAD)

/-- The frame of a descriptor enters the receive path of its port, or is discarded with the port stopped or RX_EN zero. -/
def State.inject (s : State) (e : Entry) : State :=
  let p := injPort e
  if !s.portRuns p || !s.pflag p F.NET_CTRL.RX_EN then s.bump R.SYS_TEST_BAD
  else
    let body := s.rdBytes (injAddr e) (injLen e)
    let fcs := leBytes 4 (if injFlags e = 1 then 2 ^ 32 - 1 - crc32 body else crc32 body)
    let s := (s.pbump p R.NET_RX_INJECTED).bump R.SYS_TEST_INJECTED
    let arrival := stampAdd s.grid80 (-((((injLen e + 4) * 8 * s.bitPs p : Nat) : Int)))
    s.rxStored p false arrival (body ++ fcs)

/-- INJECT_FRAME: Grid Time has reached the held descriptor's T_AT. -/
def execInjectFrame (dt : Nat) (s : State) : Out :=
  let s := s.elapse dt
  match (if s.injects then s.sys.injHeld else none) with
  | none => .next s
  | some e =>
    if injAt e = 0 || gtAtOrAfter s.gt (injAt e) then .next ({ s with sys := { s.sys with injHeld := none } }.inject e) else .next s

/-- TEST_WDOG_EXPIRE (R75): the device leaves M8 for M3. SECONDS changed in a session holds for the running count at once: the spec does
not say (DESIGN CHOICE, log 41). -/
def execTestWdogExpire (dt : Nat) (s : State) : Out :=
  let s := s.elapse dt
  if s.sys.mode = .test && decide (s.fld F.SYS_TEST_WDOG.SECONDS * 1200000000 ≤ s.now - s.sys.testWdogAt) then
    .next (s.beginTrans .commission 10)
  else .next s

end Sys2Proof.Machine
end

