-- ==== Sys2Proof/Machine/Counters.lean ====
section
/-!
DEFINITION. Counters and gauges as a read gives them (R22, R23, R600, R601): the gauges of every block, counter tables, and the
views that a freeze or a snapshot holds.
-/

namespace Sys2Proof.Machine

/-! ## Gauges -/

/-- Bytes waiting in the data port's contexts, in words. -/
def State.dpBuffered (s : State) : Nat := (List.range 5).foldl (fun a k => a + (s.dp k).buf.length) 0

/-- Decisions neither applied, refused nor abandoned: those of open batches, of batches that wait, and those applied whose record has
no notice yet (R316, log 55). -/
def State.decPending (s : State) : Nat :=
  s.alm.batches.foldl (fun a x => a + x.2.count) 0
    + s.alm.waiting.foldl (fun a w => match w with | .batch b _ => a + b.count | .ack _ => a) 0
    + (s.alm.recs.filter fun r => r.counts.contains R.ALM_U_DEC_APPLIED).length

/-- A gauge held in a register pair; zero at an offset that is none. -/
def State.unitGauge (s : State) (off : Nat) : Nat :=
  if off = R.IC_U_ACTIVE then (s.ic.srcs.filter fun x => x.2.active).length
  else if off = R.MBX_U_LOCKS_HELD then s.rbt.locks.length
  else if off = R.ING_U_ETH_IN_PARSER ∨ off = R.ING_U_FRAME_IN_PARSER then 0
  else if off = R.TIM_PTP_IN_ENGINE then s.tim.ptpQ.length
  else if off = R.FLT_U_PENDING then s.gld.fltWait.length
  else if off = R.OSC_U_PENDING then s.osc.wait.length + b2n s.osc.cur.isSome
  else if off = R.ISL_U_PENDING then s.gld.islWait.length + b2n s.isl.cur.isSome
  else if off = R.CAP_U_PENDING then s.gld.capWait.length
  else if off = R.ACC_U_PENDING then s.gld.accWait.length
  else if off = R.ACC_U_SAVING then b2n s.acc.saving.isSome
  else if off = R.ALM_U_DEC_PENDING then s.decPending
  else if off = R.XNG_U_ENTRIES_PENDING then s.xng.rx.length
  else if off = R.XNG_U_DIGESTS_AWAITING then s.xng.own.length
  else if off = R.SEC_U_IN_PROGRESS then b2n s.sec.req.isSome
  else if off = R.UND_U_RL_PENDING then s.und.pending.length
  else if off = R.HST_U_DP_BUFFERED then s.dpBuffered
  else if netNorm off = R.NET_RX_IN_BUFFER then
    match (List.range 6).find? fun p => R.NET_RX_IN_BUFFER + netWin p = off with
    | some p => (s.ing.eth.filter fun e => e.port = p).length
    | none => 0
  else if netNorm off = R.NET_TX_IN_BUFFER then
    match (List.range 6).find? fun p => R.NET_TX_IN_BUFFER + netWin p = off with
    | some p => submitted ((s.port p).cur.toList ++ (s.port p).tx)
    | none => 0
  else 0

/-- Blocks of a stream in the pending buffer (IN_FLIGHT, R150). -/
def State.inFlight (s : State) (i : Nat) : Nat :=
  s.ing.pend.foldl (fun a f => a + (if f.data then (f.blocks.filter fun b => f.entry + b = i).length else 0)) 0

/-- A gauge of a counter table (R150, R212, R344, R366, R461); none for an event counter. -/
def State.tblGauge (s : State) (t idx q : Nat) : Option Nat :=
  match t, q with
  | 0x54, 12 => some (s.inFlight idx)
  | 0x54, 15 => some (mget 0 s.ing.lastTag idx - 1)
  | 0x71, 7 => some (s.grove idx).openSets.length
  | 0x71, 8 => some ((s.grove idx).sets.filter fun x => x.prov && !x.final).length
  | 0x71, 10 => some ((s.grove idx).sets.filter fun x => x.final && !x.closed).length
  | 0x21, 9 => some (s.queue idx).level
  | 0x21, 13 => some (s.queue idx).trig
  | 0x24, 5 => some (s.classReady idx)
  | 0x24, 6 => some (s.classRunning idx)
  | 0xC4, 5 => some (b2n (s.capSeq idx).cap.isSome)
  | 0xD6, 4 => some ((s.accOut idx).resid / 2 ^ 32)
  | _, _ => none

/-- A counter or gauge of a counter table, at this moment. -/
def State.tblLive (s : State) (t idx q : Nat) : DWord :=
  match s.tblGauge t idx q with
  | some v => w64 v
  | none => s.cnt (tblCntKey t idx q)

/-! ## Held views (R600, R601) -/

/-- Offsets of the gauges held in register pairs. -/
def gaugeOffs : List Nat :=
  [R.IC_U_ACTIVE, R.MBX_U_LOCKS_HELD, R.ING_U_ETH_IN_PARSER, R.ING_U_FRAME_IN_PARSER, R.TIM_PTP_IN_ENGINE, R.FLT_U_PENDING,
   R.OSC_U_PENDING, R.ISL_U_PENDING, R.CAP_U_PENDING, R.ACC_U_PENDING, R.ACC_U_SAVING, R.ALM_U_DEC_PENDING,
   R.XNG_U_ENTRIES_PENDING, R.XNG_U_DIGESTS_AWAITING, R.SEC_U_IN_PROGRESS, R.UND_U_RL_PENDING, R.HST_U_DP_BUFFERED]
  ++ ((List.range 6).map fun p => R.NET_TX_IN_BUFFER + netWin p) ++ (List.range 6).map fun p => R.NET_RX_IN_BUFFER + netWin p

/-- Table, index and number of every table gauge that can differ from zero. -/
def State.tblGaugeKeys (s : State) : List (Nat × Nat × Nat) :=
  (s.ing.pend.flatMap fun f => f.blocks.map fun b => (0x54, f.entry + b, 12))
    ++ (s.ing.lastTag.map fun x => (0x54, x.1, 15))
    ++ (s.gld.groves.flatMap fun x => [(0x71, x.1, 7), (0x71, x.1, 8), (0x71, x.1, 10)])
    ++ (s.rbt.queues.flatMap fun x => [(0x21, x.1, 9), (0x21, x.1, 13)])
    ++ ((List.range 16).flatMap fun c => [(0x24, c, 5), (0x24, c, 6), (0xC4, c, 5)])
    ++ ((List.range 8).map fun n => (0xD6, n, 4))

/-- Holds in progress count up to this moment in TX_PAUSED_NS (R90). -/
def State.settleHolds (s : State) : State :=
  (List.range 6).foldl (fun s p => if (s.port p).holdFrom.isSome then (s.settleHold p).armHold p else s) s

/-- Gauges that stand in a field of a plain register and enter an identity: FREE of a class, LEVEL of a mailbox (R460). -/
def State.fieldGauges (s : State) : List (Nat × Nat) :=
  ((List.range 16).map fun c => (R.RBT_CREDIT + 8 * c, s.creditsFree c))
    ++ (List.range 24).map fun m => (R.MBX_RX_INFO + 0x40 * m, (s.box m).msgs.length)

/-- Every counter and gauge at this moment. -/
def State.viewAll (s : State) : SMap DWord :=
  let s := s.settleHolds
  let m : SMap DWord := (s.wide ++ s.uwide).foldl (fun m x => mset 0 m x.1 x.2) []
  let m := gaugeOffs.foldl (fun m o => mset 0 m o (w64 (s.unitGauge o))) m
  let m := s.fieldGauges.foldl (fun m x => mset 0 m x.1 (w64 x.2)) m
  s.tblGaugeKeys.foldl (fun m x => mset 0 m (tblCntKey x.1 x.2.1 x.2.2) (s.tblLive x.1 x.2.1 x.2.2)) m

/-- The views are held (R600). -/
def State.holdViews (s : State) : State :=
  let s := { s with held := some s.viewAll }
  (s.setFld F.PRF_STATUS.HELD 1).setCnt R.PRF_SNAP_TIME (w64 s.gt)

/-- The views are released. -/
def State.releaseViews (s : State) : State := { s with held := none }.setFld F.PRF_STATUS.HELD 0

/-- A counter or gauge of a counter table as a read gives it (R601). -/
def State.tblView (s : State) (t idx q : Nat) : DWord :=
  match s.held with
  | some m => mget 0 m (tblCntKey t idx q)
  | none => s.tblLive t idx q

/-- A gauge in a field of a plain register as a read gives it (R600). -/
def State.fieldView (s : State) (off v : Nat) : Nat :=
  match s.held with
  | some m => (mget 0 m off).toNat
  | none => v

/-- A register pair's counter or gauge as a read gives it: PRF's own are not held (R600). -/
def State.pairView (s : State) (gauge : Bool) (off : Nat) : DWord :=
  match s.held with
  | some m => if off / 0x10000 = 18 then s.cnt off else mget 0 m off
  | none => if gauge then w64 (s.unitGauge off) else s.settleHolds.cnt off

/-! ## PRF_CTRL (R600) -/

/-- FREEZE, SNAP and RELEASE as one write of PRF_CTRL carries them. -/
def State.perfCtrl (s : State) (v : Nat) : State :=
  let fr := bitOf v 0
  let s := if fr && !s.frozen then (s.setFld F.PRF_STATUS.FROZEN 1).holdViews else s
  let s := if fr then s else s.setFld F.PRF_STATUS.FROZEN 0
  let s := s.setFld F.PRF_CTRL.FREEZE (b2n fr)
  let s := if bitOf v 1 then { s.perfSnapAll.holdViews with snapHeld := true } else s
  let s := if bitOf v 2 then { s with snapHeld := false } else s
  if s.held.isSome && !fr && !s.snapHeld then s.releaseViews else s

end Sys2Proof.Machine
end

