-- ==== Sys2Proof/Machine/Tables.lean ====
section
/-!
DEFINITION. Configuration tables as the TBL registers reach them (R148): entries as read, what governs a write (R20, R119, R128),
the checks on content, and what a written entry sets off.
-/

namespace Sys2Proof.Machine

/-! ## TBL registers -/

/-- Offset of a block's TBL_ADDR register; TBL_CMD and TBL_STATUS follow it. -/
def tblAddrOff : Nat → Nat
  | 2 => R.RBT_TBL_ADDR | 5 => R.ING_TBL_ADDR | 7 => R.GLD_TBL_ADDR | 8 => R.FLT_TBL_ADDR | 9 => R.OSC_TBL_ADDR
  | 10 => R.ISL_TBL_ADDR | 11 => R.ALM_TBL_ADDR | 12 => R.CAP_TBL_ADDR | 13 => R.ACC_TBL_ADDR | 14 => R.XNG_TBL_ADDR | _ => 0

/-- A block's TBL data register `i`. -/
def tblDataOff (block i : Nat) : Nat := block * 0x10000 + 0x100 + 4 * i

/-- A table of entries, by block number x 16 + TABLE. -/
def findTable (t : Nat) : Option TableD := tables.find? fun x => x.id = t

/-- A table of counters: entries and values of each (R150, R212, R232, R263, R295, R318, R344, R366, R461). -/
def cntTable : Nat → Option (Nat × Nat)
  | 0x21 => some (256, 14) | 0x24 => some (16, 9) | 0x54 => some (16384, 16) | 0x70 => some (16384, 6) | 0x71 => some (64, 16)
  | 0x81 => some (4096, 10) | 0x94 => some (256, 6) | 0x95 => some (1024, 8) | 0xA7 => some (64, 4) | 0xB4 => some (32, 6)
  | 0xC4 => some (16, 10) | 0xD4 => some (64, 5) | 0xD5 => some (16, 9) | 0xD6 => some (8, 5) | _ => none

/-! ## Entries as read -/

/-- Bytes of a stream's block (BLOCK_LEN of R126). -/
def State.blockBytes (s : State) (i : Nat) : Nat :=
  blockLen (s.dir i TF.ING.Directory.NUM_PHASOR) (s.dir i TF.ING.Directory.NUM_ANALOG) (s.dir i TF.ING.Directory.NUM_DIGITAL)
    (s.dir i TF.ING.Directory.FORMAT)

/-- A word of an entry as a read gives it: the fields the device computes stand over the stored word. -/
def State.entryWord (s : State) (t idx w : Nat) : Nat :=
  let v := (s.tword t idx w).toNat
  match t, w with
  | 0x51, 2 => putBits v 31 25 (s.numCh idx)
  | 0x51, 7 => putBits v 15 0 (s.blockBytes idx)
  | 0x53, 4 => (s.conn idx).held.length
  | 0x80, 7 => s.fltWord7 idx
  | 0x90, 5 => s.trkWord5 idx
  | 0x91, _ => s.inputWord idx w
  | 0x92, 0 => putBits v 1 0 (s.ruleState idx)
  | 0x93, 5 => s.slotWord5 idx
  | 0xA0, 0 => putBits v 15 0 (if bitOf v 31 then s.island idx else 0xFFFF)
  | 0xA1, 3 => s.branchWord3 idx
  | 0xA2, 4 => s.monLastWord 0 idx
  | 0xA3, 4 => s.monLastWord 1 idx
  | 0xA4, 4 => s.monLastWord 2 idx
  | 0xA5, 7 => s.monLastWord 3 idx
  | 0xA6, 2 | 0xA6, 3 | 0xA6, 4 | 0xA6, 5 | 0xA6, 6 => s.polWord idx w
  | 0xB0, 1 => s.pointWord1 idx
  | 0xC0, 5 => s.capWord5 idx
  | 0xD0, 4 => s.tieWord4 idx
  | 0xD1, _ => (s.accWord idx w).toNat
  | 0xD2, 3 => b2n (s.accIn idx).mismatch * 2 ^ 31
  | 0xD3, 2 => min 255 (s.accOut idx).backlog
  | 0x20, 7 =>
    let q := s.queue idx
    b2n q.bp * 2 ^ 31 + b2n q.resetting * 2 ^ 30 + b2n q.flushWait * 2 ^ 29 + q.level
  | 0x22, 0 => putBits (putBits v 23 23 (b2n (s.keyState idx).running)) 15 8 (s.keyState idx).last
  | _, _ => v

/-- The 32 data words of a read (R148): an entry's words, or the counters of an entry; the rest read zero. -/
def State.tblReadWords (s : State) (t idx : Nat) : List Word :=
  match findTable t, cntTable t with
  | some d, _ => (List.range 32).map fun w => if w < d.words then w32 (s.entryWord t idx w) else 0
  | none, some (_, n) =>
    (List.range 32).map fun w =>
      if w / 2 < n then (if w % 2 = 0 then w32 (s.tblView t idx (w / 2)).toNat else w32 ((s.tblView t idx (w / 2)).toNat / 2 ^ 32))
      else 0
  | none, none => List.replicate 32 0

/-! ## What governs a write (R20, R119, R128) -/

/-- A run control and its STOPPED status: set, and in the middle of stopping (R71). -/
def State.runOf (s : State) (run stopped : Fld) : Bool × Bool := (s.flag run, !s.flag run && !s.flag stopped)

/-- The run control of a Grove. -/
def State.groveGov (s : State) (g : Nat) : Bool × Bool :=
  s.runOf (F.GLD_G_CTRL.RUN.at (0x40 * g)) (F.GLD_G_STATUS.STOPPED.at (0x40 * g))

/-- The Groves of a list taken together. -/
def State.grovesGov (s : State) (l : List Nat) : Bool × Bool :=
  (l.any fun g => (s.groveGov g).1, l.any fun g => (s.groveGov g).2)

/-- Valid directory entries. -/
def State.validStreams (s : State) : List Nat := s.validEntries T.ING.Directory 0

/-- Valid streams whose range holds a Channel Map entry. -/
def State.coveringStreams (s : State) (m : Nat) : List Nat :=
  s.validStreams.filter fun i =>
    decide (s.dir i TF.ING.Directory.CHMAP_BASE ≤ m) && decide (m < s.dir i TF.ING.Directory.CHMAP_BASE + s.numCh i)

/-- Groves that govern a write: of a directory entry those named before and after, of the others those of the streams that
use them. -/
def State.governingGroves (s : State) (t idx : Nat) (word0 : Nat) : List Nat :=
  match t with
  | 0x51 =>
    (if s.tflag TF.ING.Directory.VALID idx then [s.streamGrove idx] else [])
      ++ (if bitOf word0 31 then [bitsOf word0 29 24] else [])
  | 0x52 => (s.coveringStreams idx).map s.streamGrove
  | 0x50 => (s.validStreams.filter fun i => s.dir i TF.ING.Directory.SOURCE = idx).map s.streamGrove
  | _ => []

/-- Tables whose entries carry their own run control, in bit 31 of word 0. -/
def ownRun (t : Nat) : Bool := [0x53, 0x90, 0x93, 0xA2, 0xA3, 0xA4, 0xA5, 0xA6, 0xC0, 0xD0, 0xD2, 0xD3, 0x20].contains t

/-- The run control of a write to an entry: set, in the middle of stopping. `word0` is the word to be written. -/
def State.tblGov (s : State) (t idx word0 : Nat) : Bool × Bool :=
  let own (table i : Nat) : Bool × Bool := (bitOf (s.tword table i 0).toNat 31, false)
  match t with
  | 0x50 | 0x51 | 0x52 => s.grovesGov (s.governingGroves t idx word0)
  | 0x80 => s.runOf F.FLT_CTRL.RUN F.FLT_STATUS.STOPPED
  | 0x91 => own T.OSC.Tracker idx
  | 0x92 => own T.OSC.Tracker (idx / 8)
  | 0xA0 | 0xA1 => s.runOf F.ISL_CTRL.RUN F.ISL_STATUS.STOPPED
  | 0xB0 | 0xB1 | 0xB2 | 0xB3 => s.runOf F.ALM_CTRL.RUN F.ALM_STATUS.STOPPED
  | 0xC1 => own T.CAP.Sequencer (idx / 64)
  | 0xC2 | 0xC3 => own T.CAP.Sequencer (idx / 8)
  | 0xD1 => s.runOf F.ACC_CTRL.RUN F.ACC_STATUS.STOPPED
  | 0x23 => own T.RBT.Queue idx
  | 0xE0 => s.runOf F.XNG_CTRL.RUN F.XNG_STATUS.STOPPED
  | _ => if ownRun t then own t idx else (false, false)

/-- The access of a field at this moment: a filter bank's fields are LIVE while the bank is not active and no change is pending
(R223); an input's halfword at or above M is reserved (R264); RCV_NXT is read only while the connection is open (R149); COUNT and REMAINDER follow R354 alone. -/
def State.fieldNow (s : State) (t idx : Nat) (f : TFld) : FieldD :=
  let acc : Access :=
    match t with
    | 0x80 =>
      if f.word < 2 || f.acc = .ro then f.acc
      else if s.changePending idx then .rw
      else if f.word < 4 then (if s.tf TF.FLT.FilterChannel.ACTIVE idx = 0 then .rw else .live)
      else if f.word < 6 then (if s.tf TF.FLT.FilterChannel.ACTIVE idx = 1 then .rw else .live)
      else .live
    | 0x91 => if s.inputReserved idx f.word f.lo then .ro else f.acc
    | 0x53 => if f.word = 2 && s.tflag TF.ING.Connection.OPEN idx then .ro else f.acc
    | 0xD1 => if f.word < 3 then .ro else f.acc
    | _ => f.acc
  ⟨f.hi, f.lo, acc, f.legal⟩

/-- The words an entry would hold after a write, and whether some changed value was held back. -/
def State.tblNewWords (s : State) (g : Gate) (d : TableD) (idx : Nat) (data : List Word) : List Nat × Bool :=
  let one (w : Nat) : Nat × Bool :=
    let fs := (d.fields.filter fun f => f.word = w).map (s.fieldNow d.id idx)
    fieldsWrite { g with runBit := if w = 0 then g.runBit else none } (data.getD w 0).toNat fs (s.tword d.id idx w).toNat
  let l := (List.range d.words).map one
  (l.map (·.1), l.any (·.2))

/-- A written field carries a reserved value (R19). -/
def tblReserved (d : TableD) (data : List Word) : Bool :=
  d.fields.any fun f => f.acc.writes && !(f.legal.ok false (f.hi + 1 - f.lo) (bitsOf (data.getD f.word 0).toNat f.hi f.lo))

/-- The words stored. -/
def State.putWords (s : State) (t idx : Nat) : Nat → List Nat → State
  | _, [] => s
  | w, v :: rest => (s.setTword t idx w (w32 v)).putWords t idx (w + 1) rest

/-! ## Content (R127, R263, R295, R344, R366, R461, R514); `s` holds the words written -/

/-- A directory entry with VALID set (R127). -/
def State.directoryOk (s : State) (i : Nat) : Bool :=
  let d := s.dir i
  let src := d TF.ING.Directory.SOURCE
  let same (j : Nat) : Bool := s.dir j TF.ING.Directory.SOURCE = src && s.dir j TF.ING.Directory.IDCODE = d TF.ING.Directory.IDCODE
  let pmu := d TF.ING.Directory.PMU_INDEX
  !s.tflag TF.ING.Directory.VALID i ||
    (decide (d TF.ING.Directory.NUM_PHASOR ≤ 48) && decide (d TF.ING.Directory.NUM_ANALOG ≤ 16)
      && decide (d TF.ING.Directory.NUM_DIGITAL ≤ 8) && decide (s.numCh i ≤ 64)
      && decide (d TF.ING.Directory.CHMAP_BASE + s.numCh i ≤ 262144) && d TF.ING.Directory.TIME_BASE != 0
      && rateLegal s.sys.nominal60 (d TF.ING.Directory.RATE)
      && d TF.ING.Directory.RATE = s.groveRate (s.streamGrove i)
      && (if pmu = 0 then
            d TF.ING.Directory.NUM_BLOCKS != 0
              && (s.validStreams.filter fun j => j != i && s.dir j TF.ING.Directory.PMU_INDEX = 0 && same j).isEmpty
              && (s.tf TF.ING.Source.TRANSPORT src = 2 || d TF.ING.Directory.BLOCK_OFFSET = 14)
          else
            i != 0 && s.tflag TF.ING.Directory.VALID (i - 1) && same (i - 1)
              && s.dir (i - 1) TF.ING.Directory.PMU_INDEX + 1 = pmu
              && s.dir (i - 1) TF.ING.Directory.BLOCK_OFFSET + s.blockBytes (i - 1) = d TF.ING.Directory.BLOCK_OFFSET))

/-- Address range of a queue's on-chip ring, of its spill ring, and of the task spill ring (R445, R461). -/
def State.chipRing (s : State) (n : Nat) : Nat × Nat :=
  let b := s.tf TF.RBT.Queue.BASE n * 32
  (b, b + 32 * s.qChip n)
def State.spillRing (s : State) (n : Nat) : Nat × Nat :=
  let b := spillBase + s.tf TF.RBT.Queue.SPILL_BASE n * 65536
  (b, b + 32 * 2 ^ s.tf TF.RBT.Queue.SPILL_LOG2 n)
def taskSpill (word : Nat) : Nat × Nat :=
  let b := spillBase + bitsOf word 14 0 * 65536
  (b, b + 32 * 2 ^ bitsOf word 19 15)

/-- Enabled queues. -/
def State.enabledQueues (s : State) : List Nat := s.validEntries T.RBT.Queue 0

/-- An enabled queue's entry (R452, R461). -/
def State.queueOk (s : State) (n : Nat) (enabled : Bool) : Bool :=
  let others := s.enabledQueues.filter fun m => m != n
  let high := s.tf TF.RBT.Queue.HIGH n
  (high = 0 || decide (s.tf TF.RBT.Queue.LOW n < high)) &&
    (!enabled ||
      (others.all (fun m => !rangesMeet (s.chipRing n) (s.chipRing m))
        && (!s.tflag TF.RBT.Queue.SPILL n ||
          (decide ((s.spillRing n).2 ≤ svBase) && !rangesMeet (s.spillRing n) (taskSpill (s.reg R.RBT_TSPILL).toNat)
            && (others.filter fun m => s.tflag TF.RBT.Queue.SPILL m).all fun m => !rangesMeet (s.spillRing n) (s.spillRing m)))))

/-- Carry regions: 512 MiB in all, inside SRAM and DRAM (R514). -/
def State.carryRange (s : State) (i : Nat) : Nat × Nat :=
  let b := s.tf TF.XNG.Carry.ADDR_LO i * 4096 + s.tf TF.XNG.Carry.ADDR_HI i * 2 ^ 32
  (b, b + s.tf TF.XNG.Carry.PAGES i * 4096)
def State.carryRegions (s : State) : List (Nat × Nat) :=
  ((s.validEntries T.XNG.Carry 0).filter fun i => !s.tflag TF.XNG.Carry.QUEUE i).map s.carryRange
def State.carryOk (s : State) : Bool :=
  decide ((s.carryRegions.foldl (fun a r => a + (r.2 - r.1)) 0) ≤ 2 ^ 29)
    && s.carryRegions.all fun r => decide (r.2 ≤ sramEnd) || (decide (dramStart ≤ r.1) && decide (r.2 ≤ dramEnd))

/-- The checks on a written entry's content; `rose` tells that its own run control goes from zero to one. -/
def State.contentOk (s : State) (t idx : Nat) (rose : Bool) : Bool :=
  match t with
  | 0x51 => s.directoryOk idx
  | 0x90 => !rose || s.trackerOk idx
  | 0x93 => !rose || s.slotOk idx
  | 0xA1 => s.branchOk idx
  | 0xA2 => !rose || s.monOk 0 idx
  | 0xA3 => !rose || s.monOk 1 idx
  | 0xA4 => !rose || s.monOk 2 idx
  | 0xA5 => !rose || s.monOk 3 idx
  | 0xA6 => !rose || s.polOk idx
  | 0xB1 => s.tf TF.ALM.Output.SOURCE idx != 2 || decide (idx < 8)
  | 0xC0 => !rose || s.capOk idx
  | 0xD0 => !rose || s.tieOk idx
  | 0xD2 => !rose || decide (s.tf TF.ACC.PulseInput.ACC idx ≤ 383)
  | 0xD3 => !rose || (decide (s.tf TF.ACC.PulseOutput.ACC idx ≤ 383) && s.tf TF.ALM.Output.SOURCE idx = 2)
  | 0x20 => s.queueOk idx rose
  | 0xE0 => s.carryOk
  | _ => true

/-! ## What a written entry sets off; `o` is the state before, `s` holds the words written -/

/-- The streams whose directory or Channel Map entries were written reach the monitors and tie-lines that name them. -/
def State.streamWritten (s : State) (dir : Bool) (i : Nat) : State := (s.islDirWritten dir i).accDirWritten i

/-- Words of an entry before. -/
def State.oldWords (o : State) (t idx n : Nat) : List Nat := (List.range n).map fun w => (o.tword t idx w).toNat

/-- LIVE words of the Mode Engine are kept for passes under way (R249). -/
def State.keepLive (s o : State) (t idx : Nat) : List Nat → State
  | [] => s
  | w :: rest =>
    (if s.tword t idx w = o.tword t idx w then s else s.keepOld t idx w (o.tword t idx w)).keepLive o t idx rest

/-- Effects of a write. `rose` and `fell` tell how the entry's own run control moved, `held` that a changed value was held back: the
write is refused but for its LIVE fields, and the entry is not rewritten (R20). -/
def State.entryWritten (s o : State) (t idx : Nat) (rose fell held : Bool) : State :=
  match t with
  | 0x51 => if held then s else (s.setTf TF.ING.Directory.CFG_STATE idx 1).streamWritten true idx
  | 0x52 => if held then s else (s.coveringStreams idx).foldl (fun s i => s.streamWritten false i) s
  | 0x53 => if fell then s.tcpClose idx 3
            else if rose then (s.setConn idx connIdle).setTf TF.ING.Connection.CLOSE idx 0 else s
  | 0x80 =>
    let new := s.oldWords t idx 7
    let live := o.fltLiveOk idx (o.oldWords t idx 7) new
    let s := s.fltWritten idx live (o.tf TF.FLT.FilterChannel.ACTIVE idx)
    if live then s else s.configLost idx
  | 0x90 => if rose then (s.resetTracker idx false (s.trackerN idx)).setTf TF.OSC.Tracker.CONFIG_LOST idx 0 else s
  | 0x92 => s.keepLive o t idx [0, 2, 3, 4]
  | 0x93 =>
    let s := s.keepLive o t idx [2, 3, 4]
    if rose then (s.resetSlot idx false (s.slotN idx)).setTf TF.OSC.BankSlot.CONFIG_LOST idx 0 else s
  | 0xA0 | 0xA1 => if held || !o.flag F.ISL_STATUS.STOPPED then s else s.topoWritten t idx
  | 0xA2 => if rose then s.monEnabled 0 idx else s.islKeepOld o t idx [0, 2, 3]
  | 0xA3 => if rose then s.monEnabled 1 idx else s.islKeepOld o t idx [0, 2, 3]
  | 0xA4 => if rose then s.monEnabled 2 idx else s.islKeepOld o t idx [0, 2, 3]
  | 0xA5 => if rose then s.monEnabled 3 idx else s.islKeepOld o t idx [0, 3, 4, 5, 6]
  | 0xA6 => if rose then s.polEnabled idx else s.islKeepOld o t idx [0]
  | 0xB0 | 0xB1 => if s.almRuns then s.refreshOutputs else s
  | 0xC0 => if rose then s.capEnabled idx else if fell then s.capDisabled idx else s
  | 0xC2 => if s.tword t idx 1 = o.tword t idx 1 then s else s.capKeepOld idx (o.tword t idx 1)
  | 0xD0 =>
    let s := s.accKeepOld o idx
    if rose then s.tieEnabled idx else if fell then s.tieDisabled idx else s
  | 0xD2 => if rose then s.pulseInEnabled idx else s
  | 0xD3 => if rose then s.pulseOutEnabled idx else if fell then s.pulseOutDisabled idx else s
  | 0x20 => s.queueWritten o idx
  | _ => s

/-! ## Operations -/

/-- RESULT of a table operation; the ingest block flags its end (R147). -/
def State.tblResult (s : State) (block r : Nat) : State :=
  let o := tblAddrOff block + 8
  let s := s.setFld ⟨o, 2, 0⟩ r
  if block = 5 then s.raise F.ING_INT_STATUS.TBL_DONE else s

/-- A write of an accumulator's COUNT or REMAINDER (R354): the values given, when they differ from those held. -/
def State.presetOf (s : State) (t idx : Nat) (data : List Word) : Option (Nat × Nat) :=
  let c := (data.getD 0 0).toNat + (data.getD 1 0).toNat * 2 ^ 32
  let r := (data.getD 2 0).toNat
  if t = 0xD1 && (c != s.accCount idx || r != s.accSum idx % 2 ^ 32) then some (c, r) else none

/-- A preset is permitted (R354). -/
def State.mayPreset (s : State) : Bool :=
  !s.flag F.ACC_CTRL.RUN && (s.sys.mode = .commission || s.sys.mode = .test)

/-- What a write finds done: channel slots of a pass up to this moment (R226), a tracker's or slot's item in progress when its ENABLE
falls (R260). -/
def State.beforeWrite (s : State) (t idx word0 : Nat) (bar : Option Nat) : State :=
  let falls := bar.isNone && bitOf (s.tword t idx 0).toNat 31 && !bitOf word0 31
  match t with
  | 0x80 => s.fltCatchUp
  | 0x90 => if falls then s.trackerOff idx else s
  | 0x93 => if falls then s.slotOff idx else s
  | _ => s

/-- A write of an entry (R148): the state and RESULT. -/
def State.tblWrite (s : State) (q : Req) (bar : Option Nat) (d : TableD) (idx off : Nat) (data : List Word) : State :=
  let block := d.id / 16
  let s := if tblReserved d data then s else s.beforeWrite d.id idx (data.getD 0 0).toNat bar
  let preset := s.presetOf d.id idx data
  let gov := s.tblGov d.id idx (data.getD 0 0).toNat
  let gate : Gate := { bar := bar, run := gov.1, stop := gov.2, runBit := if ownRun d.id then some 31 else none }
  let new := s.tblNewWords gate d idx data
  let was := bitOf (s.tword d.id idx 0).toNat 31
  let is := bitOf (new.1.headD 0) 31
  let rose := ownRun d.id && is && !was
  let fell := ownRun d.id && was && !is
  let s' := s.putWords d.id idx 0 new.1
  if tblReserved d data || (preset.isSome && (!s.mayPreset || bar.isSome)) || !s'.contentOk d.id idx rose then
    (s.refuse q 1 off).tblResult block 2
  else
    let t := s'.entryWritten s d.id idx rose fell new.2
    let t := match preset with | some p => t.accPreset idx p.1 p.2 | none => t
    if new.2 then (t.refuse q gate.cause off).tblResult block 3 else t.tblResult block 1

/-- A read copies the entry into the data registers. -/
def State.putData (s : State) (block : Nat) : Nat → List Word → State
  | _, [] => s
  | i, v :: rest => (s.setReg (tblDataOff block i) v).putData block (i + 1) rest

/-- The data registers of a block. -/
def State.tblData (s : State) (block : Nat) : List Word := (List.range 32).map fun i => s.reg (tblDataOff block i)

/-- A write of TBL_CMD with OP 1 or 2 (R148). -/
def State.tblCmd (s : State) (q : Req) (bar : Option Nat) (block op : Nat) : State :=
  let a := (s.reg (tblAddrOff block)).toNat
  let t := block * 16 + bitsOf a 31 29
  let idx := bitsOf a 17 0
  let off := tblAddrOff block + 4
  match findTable t, cntTable t with
  | some d, _ =>
    if d.count ≤ idx then s.tblResult block 4
    else if op = 1 then (s.putData block 0 (s.tblReadWords t idx)).tblResult block 1
    else s.tblWrite q bar d idx off (s.tblData block)
  | none, some (n, _) =>
    if op = 2 then (s.refuse q 1 off).setFld ⟨tblAddrOff block + 8, 2, 0⟩ 2
    else if n ≤ idx then s.tblResult block 4
    else (s.putData block 0 (s.tblReadWords t idx)).tblResult block 1
  | none, none => s.tblResult block 4

end Sys2Proof.Machine
end

