-- ==== Sys2Proof/Machine/Carry.lean ====
section
/-!
DEFINITION. The carried memory of a join (R499, R500): each carry entry is copied into the join image at its key's boundary.
-/

namespace Sys2Proof.Machine

/-! ## Memory and maps of an image -/

/-- An address lies in one of the ranges. -/
def inRanges (l : List (Nat × Nat)) (a : Nat) : Bool := l.any fun r => decide (r.1 ≤ a) && decide (a < r.2)

/-- Entries of a sparse map taken over from another. -/
def mapMerge {α : Type} [DecidableEq α] (dflt : Nat → α) (p : Nat → Bool) (own other : SMap α) : SMap α :=
  (other.filter fun x => p x.1).foldl (fun m x => mapSet dflt m x.1 x.2) (own.filter fun x => !p x.1)

/-! ## Key boundaries (R500) -/

/-- A task of a serial key that was made ready from an entry at or before `j`. -/
def Task.dueBy (key j : Nat) (t : Task) : Bool := !t.nokey && decide (t.key = key) && decide (t.eseq ≤ j)

/-- A descriptor or trigger pushed at or before `j` still waits to become a task of a serial key. -/
def State.submitsBy (s : State) (key j n : Nat) : Bool :=
  match s.tf TF.RBT.Queue.MODE n with
  | 1 => (s.queue n).entries.any fun e => !e.marker && (taskOf e.data e.eseq).dueBy key j
  | 2 => (s.queue n).trigs.any fun q => (taskOf (s.template n) q).dueBy key j
  | _ => false

/-- The key's boundary for a join mark `j`: no task of the key from an entry at or before it waits or runs. -/
def State.keyBoundary (s : State) (key j : Nat) : Bool :=
  !(s.rbt.ready.any (Task.dueBy key j))
    && !(s.cores.any fun x => (match x.2.task with | some t => t.dueBy key j | none => false)
      || (match x.2.given with | some t => t.dueBy key j | none => false))
    && !(s.rbt.queues.any fun x => s.submitsBy key j x.1)

/-- What a queue holds of the pushes caused at or before `j` (R500). -/
def Queue.upTo (q : Queue) (j : Nat) : Queue :=
  let l := q.entries.filter fun e => decide (e.eseq ≤ j)
  { q with
    entries := l, trigs := q.trigs.filter fun t => decide (t ≤ j)
    openPkt := match l.getLast? with | some e => !e.pktEnd | none => q.openPkt && q.midPop
    tail := q.head + l.length, tailCopy := q.headCopy + l.length }

/-- One carry entry copied into an image. -/
def State.copyEntry (s : State) (m : JoinImage) (i : Nat) : JoinImage :=
  if s.tflag TF.XNG.Carry.QUEUE i then
    let n := s.tf TF.XNG.Carry.QNUM i
    { m with queues := mset queueEmpty m.queues n ((s.queue n).upTo m.eseq) }
  else { m with mem := mapMerge (fun _ => memDefault) (inRanges [s.carryRange i]) m.mem s.mem }

/-- The carry entries at their key's boundary are copied; with the last of them the image is whole and leaves (R500, R501). -/
def State.copyCarry (s : State) : State :=
  match s.xng.cut with
  | none => s
  | some (m, l) =>
    let due (i : Nat) : Bool := s.keyBoundary (s.tf TF.XNG.Carry.KEY i) m.eseq
    let m := (l.filter due).foldl s.copyEntry m
    match l.filter fun i => !due i with
    | [] => { s.emit (.joinImage m) with xng := { s.xng with cut := none } }
    | rest => { s with xng := { s.xng with cut := some (m, rest) } }

end Sys2Proof.Machine
end

