-- ==== Sys2Proof/Machine/RegRead.lean ====
section
/-!
DEFINITION. Reads of control registers: the fields the device computes, registers that a read acts on, and the latched halves of
64-bit values (R16, R22).
-/

namespace Sys2Proof.Machine

/-- The port whose window holds an offset. -/
def windowPort (off : Nat) : Option Nat :=
  if 0x040000 ≤ off ∧ off < 0x04E000 then (List.range 6).find? fun p => netWin p + netNorm off = off else none

/-- Requester ID and window number of an offset in a core window of IC or PRF. -/
def icWindow (off : Nat) : Nat := off % 0x10000 / 0x400

/-- A word of the interrupt controller as read (R483). -/
def State.icWord (s : State) (off : Nat) : Word :=
  let o := off % 0x10000
  let w := icWindow off
  if o < 0x8000 then
    match o % 0x400 with
    | 0x20C => s.icRunning w
    | 0x214 => s.reg (off - 4)
    | 0x218 => s.icPend w false
    | 0x21C => s.icPend w true
    | r => if r < 0x200 ∧ r % 8 = 0 then s.srcCtrlWord (w * 64 + r / 8) else s.reg off
  else if o < 0x9000 ∧ o % 8 = 0 then s.srcCtrlWord (0x10000 + (o - 0x8000) / 8)
  else if o = 0xA004 then s.reg R.IC_SSWI_SET
  else s.reg off

/-- A mailbox's oldest message as read, and its LEVEL, which a freeze holds (R460, R463). -/
def State.rxInfo (s : State) (m : Nat) : Word :=
  let level := s.fieldView (R.MBX_RX_INFO + 0x40 * m) (s.box m).msgs.length
  match (s.box m).msgs with
  | [] => w32 level
  | x :: _ => w32 (2 ^ 31 + x.bit * 2 ^ 24 + x.sender * 2 ^ 16 + level)

/-- A plain register's word with the fields the device computes. -/
def State.liveWord (s : State) (q : Req) (off : Nat) : Word :=
  let st := (s.reg off).toNat
  match off / 0x10000 with
  | 1 => if s.reqDet q then 0 else s.icWord off
  | 2 =>
    if off = R.RBT_STATUS then
      w32 (b2n (decide (2048 < s.rbt.ready.length)) * 2 ^ 31 + s.rbt.ready.length)
    else if inArray off R.RBT_CREDIT 16 8 then w32 (putBits st 28 16 (s.fieldView off (s.creditsFree ((off - R.RBT_CREDIT) / 8))))
    else s.reg off
  | 3 => if inArray off R.MBX_RX_INFO 24 0x40 then s.rxInfo ((off - R.MBX_RX_INFO) / 0x40) else s.reg off
  | 4 =>
    match windowPort off with
    | some p => if netNorm off = R.NET_STATUS then w32 (putBits st 2 2 (b2n (decide (s.now < (s.port p).pauseUntil)))) else s.reg off
    | none => s.reg off
  | 5 => if off = R.ING_STATUS then w32 (putBits st 31 16 s.pendingBlocks) else s.reg off
  | 6 => if off = R.TIM_NOW_LO then w32 s.grid80 else s.reg off
  | 7 =>
    if off = R.GLD_STATUS then w32 (putBits (putBits st 25 16 s.openCount) 1 1 (b2n s.releaseHold))
    else if inArray off R.GLD_G_STATUS 64 0x40 then
      w32 (putBits st 13 4 (s.grove ((off - R.GLD_G_STATUS) / 0x40)).openSets.length)
    else s.reg off
  | 8 => if off = R.FLT_STATUS then
      w32 (putBits (putBits st 24 16 s.gld.fltWait.length) 1 1 (b2n s.flt.cur.isSome)) else s.reg off
  | 9 => if off = R.OSC_STATUS then
      w32 (putBits (putBits st 22 16 s.osc.wait.length) 1 1 (b2n s.osc.cur.isSome)) else s.reg off
  | 10 => if off = R.ISL_STATUS then w32 s.islStatus else s.reg off
  | 11 => if off = R.ALM_STATUS then w32 s.almStatus else if off = R.ALM_OUT_STATE then w32 s.outState else s.reg off
  | 12 => if off = R.CAP_STATUS then w32 s.capStatus else s.reg off
  | 13 => if off = R.ACC_STATUS then w32 s.accStatus else s.reg off
  | 15 =>
    if off = R.ERR_STATUS then w32 s.errStatus
    else if inArray off R.ERR_LOG 8 4 then s.errLogWord ((off - R.ERR_LOG) / 4)
    else s.reg off
  | 17 =>
    if off = R.UND_RTC_TIME then s.calTimeWord q
    else if off = R.UND_RTC_DATE then s.calDateWord q
    else if off = R.UND_RTC_WDAY then s.calWdayWord q
    else if off = R.UND_RTC_STATUS then w32 (putBits st 0 0 (b2n s.und.invalid))
    else s.reg off
  | 18 =>
    if inArray2 off R.PRF_CNT_LO 21 0x400 8 0x20 ∨ inArray off R.PRF_G_CNT_LO 32 0x20 then w32 (s.cnt off).toNat
    else if inArray2 off R.PRF_CNT_HI 21 0x400 8 0x20 ∨ inArray off R.PRF_G_CNT_HI 32 0x20 then
      w32 ((s.cnt (off - 4)).toNat / 2 ^ 32)
    else s.reg off
  | _ => s.reg off

/-- A 64-bit register pair's value (R22). -/
def State.pairValue (s : State) (kind : RegKind) (off : Nat) : DWord :=
  match kind with
  | .counter => s.pairView false off
  | .gauge => s.pairView true off
  | _ =>
    if inArray off R.MBX_RX_VAL 24 0x40 then
      match (s.box ((off - R.MBX_RX_VAL) / 0x40)).msgs with
      | [] => 0
      | x :: _ => x.val
    else if inArray off R.GLD_SETSEQ 64 0x40 then w64 (s.grove ((off - R.GLD_SETSEQ) / 0x40)).nextSeq
    else if inArray off R.GLD_FRONTIER 64 0x40 then w64 (s.grove ((off - R.GLD_FRONTIER) / 0x40)).front
    else s.cnt off

/-- The requester sees zero here (R399, R599, R621). -/
def State.readsZero (s : State) (q : Req) (off : Nat) : Bool :=
  match off / 0x10000 with
  | 1 => s.reqDet q
  | 18 => decide (0x122000 ≤ off) && icWindow (off - 0x2000) = 20 && q.id != 20
  | _ => false

/-- A read of a plain register. -/
def State.plainRead (s : State) (q : Req) (d : RegD) (off : Nat) : State × Word :=
  if inArray off R.IC_CLAIM 21 0x400 then s.claim q (icWindow off)
  else if inArray off R.MBX_LOCK 64 4 then s.lockRead ((off - R.MBX_LOCK) / 4) q.id
  else if off = R.UND_RTC_SUBSEC then s.calRead q
  else if off = R.TIM_NOW_LO then
    let g := s.grid80
    ((s.setLatch q R.TIM_NOW_HI (w32 (g / 2 ^ 32))).setLatch q R.TIM_NOW_TOP (w32 (g / 2 ^ 64)), w32 g)
  else if off = R.TIM_NOW_HI ∨ off = R.TIM_NOW_TOP then (s, s.latched q off)
  else if latchesHi off then
    (s.setLatch q (off + 4) (s.liveWord q (off + 4)), w32 (readMask d.fields (s.liveWord q off).toNat))
  else if decide (4 ≤ off) && latchesHi (off - 4) then (s, s.latched q off)
  else (s, w32 (readMask d.fields (s.liveWord q off).toNat))

/-- A read of a control register (R15, R16, R22): the state after and the word. A reserved offset reads zero. -/
def State.regRead (s : State) (q : Req) (off : Nat) : State × Word :=
  match findReg off with
  | none => (s, 0)
  | some d =>
    if s.readsZero q off then (s, 0)
    else
      match d.kind with
      | .plain => s.plainRead q d off
      | .banked =>
        if latchesHi off then (s.setLatch q (off + 4) (s.banked q.id (off + 4)), s.banked q.id off)
        else if decide (4 ≤ off) && latchesHi (off - 4) then (s, s.latched q off)
        else (s, w32 (readMask d.fields (s.banked q.id off).toNat))
      | k =>
        if inArray2 off d.off d.n1 (if d.s1 = 0 then 0x10000000 else d.s1) d.n2 (if d.s2 = 0 then 4 else d.s2)
            || netNorm off = d.off then
          let v := s.pairValue k off
          (s.setLatch q (off + 4) (w32 (v.toNat / 2 ^ 32)), w32 v.toNat)
        else (s, s.latched q off)

end Sys2Proof.Machine
end

