-- ==== Sys2Proof/Machine/RegBus.lean ====
section
/-!
DEFINITION. Writes of control registers (R16 to R20, R55, R69 to R72): who may write, what the mode and the run controls hold back,
and what a written register sets off. A write that a unit holding duty accepts to a journalled block enters the journal first
(R496).
-/

namespace Sys2Proof.Machine

/-! ## Run controls (R20, R68, R69) -/

/-- A block's run control: its field, its stopped status, the modes of R68 in which it may stop (0: M3, M4, M7, M8 and M9;
1: M3, M8 and M9; 2: M3, M4, M7 and M8; 3: any), and its bit of SYS_DEGRADED. -/
structure RunCtl where
  run : Fld
  stopped : Fld
  stops : Nat
  bit : Option Nat

/-- The run control of a register's block; none where the block has none or the register is not one of its settings. -/
def runCtl (off : Nat) : Option RunCtl :=
  if isWorking off then none
  else
    match off / 0x10000 with
    | 4 => (windowPort off).map fun p => ⟨F.NET_CTRL.RUN.at (netWin p), F.NET_STATUS.STOPPED.at (netWin p), 0, some p⟩
    | 5 => some ⟨F.ING_CTRL.RUN, F.ING_STATUS.STOPPED, 1, none⟩
    | 6 => if 0x060100 ≤ off ∧ off < 0x060200 then none else some ⟨F.TIM_CTRL.RUN, F.TIM_STATUS.STOPPED, 1, none⟩
    | 7 =>
      if off < 0x071000 then some ⟨F.GLD_CTRL.RUN, F.GLD_STATUS.STOPPED, 1, none⟩
      else
        let w := (off - 0x071000) / 0x40 * 0x40
        some ⟨F.GLD_G_CTRL.RUN.at w, F.GLD_G_STATUS.STOPPED.at w, 2, none⟩
    | 8 => some ⟨F.FLT_CTRL.RUN, F.FLT_STATUS.STOPPED, 0, some 7⟩
    | 9 => some ⟨F.OSC_CTRL.RUN, F.OSC_STATUS.STOPPED, 0, some 8⟩
    | 10 => some ⟨F.ISL_CTRL.RUN, F.ISL_STATUS.STOPPED, 0, some 9⟩
    | 11 => some ⟨F.ALM_CTRL.RUN, F.ALM_STATUS.STOPPED, 1, none⟩
    | 12 => some ⟨F.CAP_CTRL.RUN, F.CAP_STATUS.STOPPED, 0, some 10⟩
    | 13 => some ⟨F.ACC_CTRL.RUN, F.ACC_STATUS.STOPPED, 0, some 11⟩
    | 14 => some ⟨F.XNG_CTRL.RUN, F.XNG_STATUS.STOPPED, 3, some 6⟩
    | _ => none

/-- The mode permits a block of a kind to stop (R68). -/
def mayStop (kind : Nat) (m : Mode) : Bool :=
  match m with
  | .commission | .test => true
  | .service | .degraded => kind != 1
  | .recovery => kind != 2
  | _ => kind = 3

/-- What governs a write at an offset: run control set, in the middle of stopping, and the run control's bit in this very
register. Interrupt sources and compare channels are blocks of their own (R173, R479); a sampler's buffer is fixed while S_EN is
set (R603). -/
def State.regGov (s : State) (off : Nat) : Bool × Bool × Option Nat :=
  match runCtl off with
  | some c =>
    let g := s.runOf c.run c.stopped
    (g.1, g.2, if c.run.off = off then some 0 else none)
  | none =>
    match off / 0x10000 with
    | 1 =>
      let o := off % 0x10000
      if (o < 0x8000 ∧ o % 0x400 < 0x200) ∨ (0x8000 ≤ o ∧ o < 0x9000) then (s.flag ⟨off / 8 * 8, 31, 31⟩, false, none)
      else (false, false, none)
    | 6 =>
      let c := (off - 0x060100) / 16 * 16
      (s.flag (F.TIM_CMP_CTRL.ARM.at c), false, if off = R.TIM_CMP_CTRL + c then some 0 else none)
    | 18 =>
      let r := off % 0x400
      if 0x122000 ≤ off ∧ 0x108 ≤ r ∧ r < 0x114 then (s.flag (F.PRF_S_CTRL.S_EN.at (off - 0x122000 - r)), false, none)
      else (false, false, none)
    | _ => (false, false, none)

/-- Registers of the Crossing that are written in M3, M8 or M9 only (R513). -/
def xngFixed (off : Nat) : Bool := off = R.XNG_CTRL || (decide (R.XNG_TIMING ≤ off) && decide (off ≤ R.XNG_HB_MAC_HI))

/-- Why the mode or the requester bars fields that are not LIVE (R55, R69, R513, R524): a table command is a configuration write of
the entry it names. -/
def State.barOf (s : State) (q : Req) (jn : Bool) (off : Nat) : Option Nat :=
  if jn || (isWorking off && off != tblAddrOff (off / 0x10000) + 4) then none
  else
    let fixed := xngFixed off && !(s.sys.mode = .commission || s.sys.mode = .test || s.sys.mode = .recovery)
    match s.configBar q (off / 0x10000) with
    | some c => some c
    | none => if fixed then some 3 else none

/-- The gate of a write. -/
def State.gateOf (s : State) (q : Req) (jn : Bool) (off : Nat) : Gate :=
  let g := s.regGov off
  { bar := s.barOf q jn off, run := g.1, stop := g.2.1, runBit := g.2.2 }

/-! ## Requesters (R71) -/

/-- A Supervisor Core, or the host. -/
def reqIsSv : Req → Bool
  | .host => true
  | .core c => decide (16 ≤ c.val) && decide (c.val < 20)

/-- A core of ID 0 to 19. -/
def reqIsCore : Req → Bool
  | .host => false
  | .core c => decide (c.val < 20)

/-- Why a requester may not write a register at all: the cause of R71. -/
def State.writerBar (s : State) (q : Req) (off : Nat) : Option Nat :=
  let no (b : Bool) : Option Nat := if b then some 4 else none
  match off / 0x10000 with
  | 1 =>
    let o := off % 0x10000
    let kc := (decide (o < 0x8000) && icWindow off = 20)
      || (decide (0x8000 ≤ o) && decide (o < 0x9000) && s.srcFld (0x10000 + (o - 0x8000) / 8) 25 21 = 20)
    no (s.reqDet q || (kc && q.id != 20))
  | 3 => no ((off = R.MBX_LOCK_FORCE && !s.isHolder q) || (inArray off R.MBX_DB 24 0x40 && !boxReader ((off - R.MBX_DB) / 0x40) q.id))
  | 11 =>
    no ((decide (R.ALM_DEC_CTX ≤ off) && decide (off ≤ R.ALM_DECIDE) && !reqIsCore q) || (off = R.ALM_ACK && !reqIsSv q))
  | 15 =>
    no (((off = R.ERR_KICK || off = R.ERR_ABORT) && !(reqIsCore q && s.reqS q))
      || ((off = R.ERR_RSV_KICK || off = R.ERR_RECOVER) && !s.isHolder q))
  | 16 => no ((off = R.SEC_REMASK || (decide (R.SEC_TAMPER_GRADE ≤ off) && decide (off ≤ R.SEC_TAMPER_TEMP))) && q.id != 20)
  | 18 => no (decide (0x122000 ≤ off) && icWindow (off - 0x2000) = 20 && q.id != 20)
  | _ => none

/-! ## The plain write -/

/-- A write of a stored register: reserved values refuse it whole (R19), the gate holds fields back (R20). -/
def State.plainWrite (s : State) (q : Req) (g : Gate) (d : RegD) (off v : Nat) : State :=
  if reservedHit s.sys.nominal60 d.fields v then s.refuse q 1 off
  else
    let bank := d.kind = .banked
    let old := if bank then s.banked q.id off else s.reg off
    let r := fieldsWrite g v d.fields old.toNat
    let s := if bank then s.setBanked q.id off (w32 r.1) else s.setReg off (w32 r.1)
    if r.2 then s.refuse q g.cause off else s

/-- The writes refused so far. -/
def State.refusals (s : State) : Nat := (s.cnt R.SYS_REFUSED_COUNT).toNat

/-- A resource of SYS_DEGRADED stops in M4 or M7, or runs again in any mode (R57, R69). -/
def State.nameRun (s : State) (bit : Option Nat) (out : Bool) : State :=
  match bit with
  | none => s
  | some b =>
    if (!out || s.sys.mode = .service || s.sys.mode = .degraded) && bitOf (s.reg R.SYS_DEGRADED).toNat b != out then s.nameOut b out
    else s

/-- A block runs from now on. -/
def State.blockRuns (s : State) (off : Nat) (c : RunCtl) : State :=
  let s := s.setFld c.stopped 0
  let s := match off / 0x10000 with
    | 8 => s.fltResume
    | 10 => s.islStart
    | 11 => s.takeWaiting
    | _ => s
  s.nameRun c.bit false

/-- After a write to a register that holds a run control: `o` is the state before. -/
def State.runMoved (s o : State) (off : Nat) (c : RunCtl) : State :=
  let was := o.flag c.run
  let is := s.flag c.run
  let drive := o.drive
  let s := if is && !was then s.blockRuns off c else s
  if off / 0x10000 = 11 then (s.driveChanged drive).refreshOutputs else s

/-- A write to a block with a run control (R20, R68). -/
def State.ctlWrite (s : State) (q : Req) (jn : Bool) (g : Gate) (d : RegD) (off v : Nat) : State :=
  match runCtl off with
  | none => s.plainWrite q g d off v
  | some c =>
    if c.run.off != off then s.plainWrite q g d off v
    else if s.flag c.run && !bitOf v 0 && !jn && !mayStop c.stops s.sys.mode then s.refuse q 3 off
    else
      let s := if off = R.FLT_CTRL then s.fltCatchUp else s
      (s.plainWrite q g d off v).runMoved s off c

/-! ## SYS, IC, RBT, MBX -/

/-- A port that SYS_TEST_CTRL.LOOP would move while it is not stopped (R74). -/
def State.loopMoves (s : State) (v : Nat) : Bool :=
  (List.range 6).any fun p =>
    bitOf v (16 + p) != bitOf (s.fld F.SYS_TEST_CTRL.LOOP) p && !s.pflag p F.NET_STATUS.STOPPED

/-- A write of a SYS register. One that moves LOOP of a port not stopped is refused whole with cause 0: R74 names neither the cause nor
what becomes of the other fields (DESIGN CHOICE, log 35). -/
def State.sysWrite (s : State) (q : Req) (g : Gate) (d : RegD) (off v : Nat) : State :=
  if off = R.SYS_MODE_REQ then s.modeReqWrite q.id v
  else if off = R.SYS_RESET then s.resetWrite q v
  else if off = R.SYS_CORE_RESET then s.coreResetWrite q v
  else if off = R.SYS_TEST_CTRL then
    if s.sys.mode != .test then s.refuse q 3 off
    else if s.loopMoves v then s.refuse q 0 off
    else s.plainWrite q g d off v
  else if off = R.SYS_TEST_WDOG then
    let t := s.plainWrite q g d off v
    if bitOf v 31 && s.sys.mode = .test && t.refusals = s.refusals then
      { t with sys := { t.sys with testWdogAt := t.now } }
    else t
  else s.plainWrite q g d off v

/-- The source whose CTRL register stands at an offset of IC. -/
def srcAt (off : Nat) : Option Nat :=
  let o := off % 0x10000
  if o % 8 ≠ 0 then none
  else if o < 0x8000 then (if o % 0x400 < 0x200 then some (icWindow off * 64 + o % 0x400 / 8) else none)
  else if o < 0x9000 then some (0x10000 + (o - 0x8000) / 8)
  else none

def State.icWrite (s : State) (q : Req) (g : Gate) (d : RegD) (off v : Nat) : State :=
  if inArray off R.IC_COMPLETE 21 0x400 then s.complete q (icWindow off) (w32 v)
  else if inArray off R.IC_SWI_CLR 21 0x400 ∨ off = R.IC_SSWI_CLR then s.setReg (off - 4) (s.reg (off - 4) &&& ~~~ (w32 v))
  else
    let t := s.plainWrite q g d off v
    match srcAt off with
    | some k => if s.srcEn k && !t.srcEn k then t.srcDisable k else t
    | none => t

/-- A push by the host or a core: on a unit holding duty, a push to a carried queue by an agent without DET enters the journal
first (R496). -/
def State.agentPush (s : State) (n agent : Nat) (det : Bool) (e : Entry) (first last : Bool) : State × Nat :=
  let r := s.push n agent e first last
  if r.2 = 0 && !det && s.ownJournal && s.carriedQueue n then (s.journalPush n e).push n agent e first last else r

/-- RBT_HQ_RESULT (R461). -/
def State.hqResult (s : State) (n result : Nat) (e : Option QEntry) : State :=
  s.setReg R.RBT_HQ_RESULT
    (w32 (min 65535 (s.queue n).level * 2 ^ 16 + (match e with | some x => b2n x.first * 512 + b2n x.last * 256 | none => 0) + result))

/-- The entry in RBT_HQ_DATA, and an entry put there. -/
def State.hqEntry (s : State) : Entry :=
  BitVec.ofNat 256 ((List.range 8).foldl (fun a i => a + (s.reg (R.RBT_HQ_DATA + 4 * i)).toNat * 2 ^ (32 * i)) 0)
def State.hqPut (s : State) (e : Option QEntry) : State :=
  match e with
  | none => s
  | some x => (List.range 8).foldl (fun s i => s.setReg (R.RBT_HQ_DATA + 4 * i) (w32 (x.data.toNat / 2 ^ (32 * i)))) s

/-- RBT_HQ_CMD (R461): the host's push, pop and peek. -/
def State.hqPush (s : State) (q : Req) (n : Nat) (first last : Bool) : State :=
  let r := s.agentPush n q.id (s.reqDet q) s.hqEntry first last
  r.1.hqResult n r.2 none
def State.hqPop (s : State) (q : Req) (n : Nat) : State :=
  let r := s.pop n q.id
  (r.1.hqPut r.2.2).hqResult n r.2.1 r.2.2
def State.hqPeek (s : State) (q : Req) (n : Nat) : State :=
  let r := s.peek n q.id
  (r.1.hqPut r.2.2).hqResult n r.2.1 r.2.2

def State.rbtWrite (s : State) (q : Req) (g : Gate) (d : RegD) (off v : Nat) : State :=
  let n := v % 256
  if reservedHit s.sys.nominal60 d.fields v then s.refuse q 1 off
  else if off = R.RBT_CANCEL then s.cancel (bitsOf v 27 16) (bitsOf v 15 0) (bitOf v 31)
  else if off = R.RBT_QCMD then (if bitsOf v 9 8 = 1 then s.flushCmd n else s.resetQueue n 1)
  else if off = R.RBT_HQ_CMD then
    (match bitsOf v 9 8 with
     | 1 => s.hqPush q n (bitOf v 11) (bitOf v 10)
     | 2 => s.hqPop q n
     | _ => s.hqPeek q n)
  else if off = R.RBT_TBL_CMD then s.tblCmd q g.bar 2 (v % 4)
  else if off = R.RBT_TSPILL then
    if (s.enabledQueues.filter fun m => s.tflag TF.RBT.Queue.SPILL m).any fun m => rangesMeet (taskSpill v) (s.spillRing m) then
      s.refuse q 1 off
    else s.plainWrite q g d off v
  else if inArray off R.RBT_CREDIT 16 8 then
    if bitsOf v 12 0 < s.creditsHeld ((off - R.RBT_CREDIT) / 8) then s.refuse q 1 off else s.plainWrite q g d off v
  else s.plainWrite q g d off v

/-- MBX_HOST_CMD (R463). -/
def State.hostPost (s : State) (q : Req) (m bit : Nat) : State :=
  let r := s.post m q.id (w64 ((s.reg R.MBX_HOST_VAL_LO).toNat + (s.reg R.MBX_HOST_VAL_HI).toNat * 2 ^ 32)) bit
  r.1.setFld F.MBX_HOST_RESULT.RESULT r.2

def State.mbxWrite (s : State) (q : Req) (g : Gate) (d : RegD) (off v : Nat) : State :=
  if inArray off R.MBX_RX_POP 24 0x40 then (if bitOf v 0 then s.boxPop ((off - R.MBX_RX_POP) / 0x40) q.id else s)
  else if off = R.MBX_HOST_CMD then s.hostPost q (bitsOf v 4 0) (bitsOf v 12 8)
  else if inArray off R.MBX_LOCK 64 4 then s.lockWrite ((off - R.MBX_LOCK) / 4) q.id (w32 v)
  else if off = R.MBX_LOCK_FORCE then (if bitsOf v 31 16 = 0x4C4B then s.lockForce (bitsOf v 5 0) else s)
  else
    let t := s.plainWrite q g d off v
    if inArray off R.MBX_MASK 24 0x40 then t.bellVector ((off - R.MBX_MASK) / 0x40)
    else if off = R.MBX_EMPTY_EN then t.emptyVector q.id else t

/-! ## NET, ING, TIM, GLD -/

/-- Ports named by a multicast entry before and after a write of one of its words (R97, R110). -/
def State.mcastPorts (s : State) (off v : Nat) : List Nat :=
  let hi := (off - R.NET_MCAST_LO) / 8 * 8 + R.NET_MCAST_HI
  let old := bitsOf (s.reg hi).toNat 21 16
  let new := if off = hi then bitsOf v 21 16 else old
  (List.range 6).filter fun p => bitOf (old ||| new) p

def State.netWrite (s : State) (q : Req) (jn : Bool) (g : Gate) (d : RegD) (off v : Nat) : State :=
  match windowPort off with
  | none =>
    let ports := s.mcastPorts off v
    if ports.any fun p => !s.pflag p F.NET_STATUS.STOPPED then
      s.refuse q (if ports.any fun p => s.pflag p F.NET_CTRL.RUN then 0 else 2) off
    else s.plainWrite q g d off v
  | some p =>
    if netNorm off != R.NET_CTRL then s.plainWrite q g d off v
    else if bitOf v 10 && s.sys.mode != .test then s.refuse q 1 off
    else if bitOf v 12 && !s.pflag p F.NET_STATUS.STOPPED then s.refuse q (if s.pflag p F.NET_CTRL.RUN then 0 else 2) off
    else
      let t := s.ctlWrite q jn g d off v
      if t.refusals != s.refusals then t
      else (if bitOf v 12 then t.txFlush p else t).showPhy p

def State.ingWrite (s : State) (q : Req) (jn : Bool) (g : Gate) (d : RegD) (off v : Nat) : State :=
  if off = R.ING_TBL_CMD then s.tblCmd q g.bar 5 (v % 4)
  else if off = R.ING_PASS_BASE then
    let t := s.plainWrite q g d off v
    if t.refusals = s.refusals && g.bar.isNone && !g.run && !g.stop then (t.setReg R.ING_PASS_WRITE 0).setReg R.ING_PASS_RELEASE 0
    else t
  else if off = R.ING_PASS_RELEASE then
    let rel := (s.reg off).toNat
    let w := (s.reg R.ING_PASS_WRITE).toNat
    if (w + 2 ^ 32 - rel) % 2 ^ 32 < (v + 2 ^ 32 - rel) % 2 ^ 32 then s.refuse q 1 off else s.plainWrite q g d off v
  else s.ctlWrite q jn g d off v

def State.timWrite (s : State) (q : Req) (jn : Bool) (g : Gate) (d : RegD) (off v : Nat) : State :=
  if off = R.TIM_LOCK && decide (bitsOf v 23 12 * 10 ≤ bitsOf v 11 0) then s.refuse q 1 off
  else if inArray off R.TIM_CMP_CTRL 16 16 then
    let c := off - R.TIM_CMP_CTRL
    let t := s.plainWrite q g d off v
    if t.flag (F.TIM_CMP_CTRL.ARM.at c) && !s.flag (F.TIM_CMP_CTRL.ARM.at c) then
      let u := (t.setFld (F.TIM_CMP_CTRL.FIRED.at c) 0).setFld (F.TIM_CMP_CTRL.LATE.at c) 0
      { u with tim := { u.tim with
        cmpLate := (if u.cmpDue u.gt (c / 16) then [c / 16] else []) ++ u.tim.cmpLate.filter (· ≠ c / 16) } }
    else if t.flag (F.TIM_CMP_CTRL.ARM.at c) then t
    else { t with tim := { t.tim with cmpLate := t.tim.cmpLate.filter (· ≠ c / 16) } }
  else if off = R.TIM_UTC then
    let t := s.plainWrite q g d off v
    if t.refusals = s.refusals then t.utcEval.tqEval else t
  else s.ctlWrite q jn g d off v

/-- A Grove's RATE would differ from that of a valid entry naming it (R127). -/
def State.rateConflict (s : State) (g rate : Nat) : Bool :=
  rate != s.groveRate g && (s.memberStreams g).any fun i => s.dir i TF.ING.Directory.RATE != rate

/-- A write of GLD_G_CTRL: RATE (R127), start (R179, R203) and stop (R70) of a Grove. -/
def State.groveCtlWrite (s : State) (q : Req) (jn : Bool) (gt : Gate) (d : RegD) (off v : Nat) : State :=
  let g := (off - R.GLD_G_CTRL) / 0x40
  let run := F.GLD_G_CTRL.RUN.at (0x40 * g)
  if s.rateConflict g (bitsOf v 31 24) then s.refuse q 1 off
  else if s.flag run && !bitOf v 0 && !jn && !mayStop 2 s.sys.mode then s.refuse q 3 off
  else
    let t := s.plainWrite q gt d off v
    if t.flag run && !s.flag run then
      let u := t.groveRunReq g
      if (u.grove g).run = .starting then u else (u.setReg off (s.reg off)).refuse q 1 off
    else if s.flag run && !t.flag run then t.groveStopReq g
    else t

def State.gldWrite (s : State) (q : Req) (jn : Bool) (g : Gate) (d : RegD) (off v : Nat) : State :=
  if off = R.GLD_TBL_CMD then s.tblCmd q g.bar 7 (v % 4)
  else if inArray off R.GLD_G_CTRL 64 0x40 then s.groveCtlWrite q jn g d off v
  else s.ctlWrite q jn g d off v

/-! ## ALM, CAP and the other engines -/

/-- A write of ALM_DECIDE by core `c` (R299): a decision, or the end of its batch. -/
def State.decideWrite (s : State) (c v : Nat) : State :=
  if bitOf v 31 then s.applyBatch c else s.addDecision c (bitsOf v 8 0) (bitOf v 16)

/-- The context or SETSEQ of a batch: writing it discards the decisions of the requester's open batch (R302). -/
def isDecCtx (off : Nat) : Bool := off = R.ALM_DEC_CTX || off = R.ALM_DEC_SEQ_LO || off = R.ALM_DEC_SEQ_HI

def State.almWrite (s : State) (q : Req) (jn : Bool) (g : Gate) (d : RegD) (off v : Nat) : State :=
  if off = R.ALM_TBL_CMD then s.tblCmd q g.bar 11 (v % 4)
  else if isDecCtx off then
    let t := s.plainWrite q g d off v
    if t.refusals = s.refusals then t.abandonBatch q.id else t
  else if off = R.ALM_DECIDE then s.decideWrite q.id v
  else if off = R.ALM_ACK then s.ackPoint (bitsOf v 8 0)
  else if off = R.ALM_OUT_FORCE then
    if s.sys.mode = .test then (s.plainWrite q g d off v).refreshOutputs else s.refuse q 1 off
  else s.ctlWrite q jn g d off v

def State.capWrite (s : State) (q : Req) (jn : Bool) (g : Gate) (d : RegD) (off v : Nat) : State :=
  if off = R.CAP_TBL_CMD then s.tblCmd q g.bar 12 (v % 4)
  else if off = R.CAP_TRIGGER then s.capTrigger (v % 2 ^ 16)
  else if R.CAP_RING_BASE_LO ≤ off ∧ off ≤ R.CAP_RING_SIZE ∧ !s.capRingOk off v then s.refuse q 1 off
  else if off = R.CAP_RELEASE_LO then { s with cap := { s.cap with relLo := w32 v } }
  else if off = R.CAP_RELEASE_HI then
    match s.capRelease (w32 v) with
    | some t => t
    | none => s.refuse q 1 off
  else s.ctlWrite q jn g d off v

/-- A write to a block of registers, a run control and tables. -/
def State.engWrite (s : State) (q : Req) (jn : Bool) (g : Gate) (d : RegD) (off v : Nat) : State :=
  if off = tblAddrOff (off / 0x10000) + 4 then s.tblCmd q g.bar (off / 0x10000) (v % 4) else s.ctlWrite q jn g d off v

/-! ## XNG, ERR, SEC, UND, PRF, HST -/

/-- XNG_POST_CMD (R511): the post goes over the Crossing with its bit and value. -/
def State.peerPost (s : State) (bit : Nat) : State :=
  (s.setFld F.XNG_POST_RESULT.BUSY 1).crossSend 7
    (leBytes 1 0 ++ leBytes 1 bit ++ leBytes 4 (s.reg R.XNG_POST_VAL_LO).toNat ++ leBytes 4 (s.reg R.XNG_POST_VAL_HI).toNat)

def State.xngWrite (s : State) (q : Req) (jn : Bool) (g : Gate) (d : RegD) (off v : Nat) : State :=
  if off = R.XNG_TBL_CMD then
    let bar := if s.sys.mode = .commission || s.sys.mode = .test || s.sys.mode = .recovery then g.bar else some 3
    s.tblCmd q bar 14 (v % 4)
  else if off = R.XNG_POST_CMD then s.peerPost (bitsOf v 4 0)
  else s.ctlWrite q jn g d off v

def State.errWrite (s : State) (q : Req) (g : Gate) (d : RegD) (off v : Nat) : State :=
  if off = R.ERR_LOG_POP then (if bitOf v 0 then s.popFault else s)
  else if off = R.ERR_KICK then (if bitOf v 0 then s.wdogKick q.id else s)
  else if off = R.ERR_ABORT then (if bitOf v 0 then s.abortOwn q.id else s)
  else if off = R.ERR_CORE_UP then
    let mine := if q.id < 20 then 2 ^ q.id else 0
    if !s.isHolder q && v % 2 ^ 20 &&& (2 ^ 20 - 1 - mine) != 0 then s.refuse q 4 off
    else (List.range 20).foldl (fun s c => if bitOf v c then s.coreUp c else s) s
  else if off = R.ERR_RSV_KICK then
    (if bitsOf v 31 16 = 0x5256 then { s with err := { s.err with rsvAt := s.now } } else s)
  else if off = R.ERR_RECOVER then
    if bitsOf v 31 16 != 0x4543 then s
    else if s.sys.mode != .recovery then s.refuse q 3 off
    else
      match bitsOf v 1 0 with
      | 1 => if s.ownJournal then s.epochBreak else s
      | 2 => s.recoveryExit
      | _ => s.refuse q 1 off
  else s.plainWrite q g d off v

/-- Writes of the Keeper Core to SEC_REMASK and the tamper registers (R569). -/
def State.secWrite (s : State) (q : Req) (g : Gate) (d : RegD) (off v : Nat) : State :=
  if off = R.SEC_REMASK then
    if 10 ≤ v % 1024 ∧ v % 1024 ≤ 1000 then s.setFld F.SEC_REMASK.MS (v % 1024) else s.refuse q 1 off
  else if off = R.SEC_TAMPER_GRADE then
    if (List.range 7).any fun n => bitsOf v (2 * n + 1) (2 * n) = 3 then s.refuse q 1 off
    else s.setFld F.SEC_TAMPER_GRADE.GRADE (v % 2 ^ 14)
  else if off = R.SEC_TAMPER_TEMP then s.setReg off (w32 (v % 2 ^ 16))
  else if off = R.SEC_TAMPER_LATCH then
    ((s.setFld F.SEC_TAMPER_LATCH.LOCKDOWN (bitsOf v 31 31)).setFld F.SEC_TAMPER_LATCH.NOW (bitsOf v 14 8)).setFld
      F.SEC_TAMPER_LATCH.FIRED (bitsOf v 6 0)
  else s.plainWrite q g d off v

def State.undWrite (s : State) (q : Req) (g : Gate) (d : RegD) (off v : Nat) : State :=
  if s.reqDet q then s
  else if off = R.UND_RTC_SET_SEC then s.calCommit q (w32 v)
  else if off = R.UND_FIRST_BAT_CLR then s.firstBatClear q (w32 v)
  else if off = R.UND_RL_INDEX then s.ringCopy (v % 65536)
  else if off = R.UND_RL_APP_CMD then s.ringAppend q (w32 v)
  else
    let t := s.plainWrite q g d off v
    if t.reg off = s.reg off then t
    else if off = R.UND_WAKE_PERIOD then { t with und := { t.und with wakeAt := t.now } }
    else if off = R.UND_BACKUP_CTRL then t.chargeCtl
    else t

def State.prfWrite (s : State) (q : Req) (g : Gate) (d : RegD) (off v : Nat) : State :=
  if off = R.PRF_CTRL then s.perfCtrl v
  else if inArray2 off R.PRF_CNT_HI 21 0x400 8 0x20 || inArray off R.PRF_G_CNT_HI 32 0x20 then s.perfPreset (off - 0x14) (w32 v)
  else if off = R.PRF_G_OVF then
    (List.range 32).foldl (fun s k => if bitOf v k then s.setFld ⟨globalCtr k, 30, 30⟩ 0 else s) (s.plainWrite q g d off v)
  else
    let t := s.plainWrite q g d off v
    if inArray off R.PRF_G_CNT_CTRL 32 0x20 then
      if bitOf v 30 then t.setFld ⟨R.PRF_G_OVF, (off - R.PRF_G_CNT_CTRL) / 0x20, (off - R.PRF_G_CNT_CTRL) / 0x20⟩ 0 else t
    else if inArray off R.PRF_S_CTRL 21 0x400 || inArray off R.PRF_S_PERIOD 21 0x400 then
      let c := (off - R.PRF_S_CTRL) / 0x400
      let rose := inArray off R.PRF_S_CTRL 21 0x400 && bitOf v 31 && !bitOf (s.reg off).toNat 31
      let per := inArray off R.PRF_S_PERIOD 21 0x400 && t.refusals = s.refusals
      if rose || per then t.setCore c { t.core c with sampleRun := 0 } else t
    else t

/-- HST_WAKE (R611): the key wakes a unit in M11; every other write is counted. -/
def State.hostWake (s : State) (v : Nat) : State :=
  if s.sys.mode = .dormant && bitsOf v 31 16 = 0x574B then s.wakeEvent 10 else s.bump R.HST_U_WAKE_IGNORED

/-- A pending vector leaves once its mask is clear (R610). -/
def State.msixUnmask (s : State) (n : Nat) : State :=
  if !s.flag (F.HST_MSIX_CTL.MASK.at (0x10 * n)) && s.flag ⟨R.HST_MSIX_PBA, n, n⟩ then
    (s.setFld ⟨R.HST_MSIX_PBA, n, n⟩ 0).emit (.msix n)
  else s

/-- A set data port bit of the host raises its vector when a write of HST_INT_EN first allows it (R610); `old` is the value before. -/
def State.dpAllowed (s : State) (old : Word) : State :=
  if (s.reg R.HST_INT_STATUS &&& s.reg R.HST_INT_EN &&& ~~~old &&& 0x84) ≠ 0 then s.msix 3 else s

def State.hstWrite (s : State) (q : Req) (g : Gate) (d : RegD) (off v : Nat) : State :=
  if off = R.HST_WAKE then s.hostWake v
  else if inArray off R.HST_MSIX_CTL 4 0x10 then (s.plainWrite q g d off v).msixUnmask ((off - R.HST_MSIX_CTL) / 0x10)
  else if off = R.HST_INT_EN then (s.plainWrite q g d off v).dpAllowed (s.reg R.HST_INT_EN)
  else s.plainWrite q g d off v

/-! ## Any control register -/

/-- A write whose requester may make it, by block. -/
def State.blockWrite (s : State) (q : Req) (jn : Bool) (d : RegD) (off v : Nat) : State :=
  let g := s.gateOf q jn off
  if d.fields.any (fun f => f.acc = .wo) && reservedHit s.sys.nominal60 d.fields v
      && off != R.ERR_RECOVER && off != R.UND_RL_APP_CMD && off != R.SYS_TEST_WDOG then s.refuse q 1 off
  else
    match off / 0x10000 with
    | 0 => s.sysWrite q g d off v
    | 1 => s.icWrite q g d off v
    | 2 => s.rbtWrite q g d off v
    | 3 => s.mbxWrite q g d off v
    | 4 => s.netWrite q jn g d off v
    | 5 => s.ingWrite q jn g d off v
    | 6 => s.timWrite q jn g d off v
    | 7 => s.gldWrite q jn g d off v
    | 11 => s.almWrite q jn g d off v
    | 12 => s.capWrite q jn g d off v
    | 14 => s.xngWrite q jn g d off v
    | 15 => s.errWrite q g d off v
    | 16 => s.secWrite q g d off v
    | 17 => s.undWrite q g d off v
    | 18 => s.prfWrite q g d off v
    | 19 => s.hstWrite q g d off v
    | _ => s.engWrite q jn g d off v

/-- The registers in which a core writes alarm decisions (R299): its own tasks write them on both units of a Pair. -/
def isDecision (off : Nat) : Bool := decide (R.ALM_DEC_CTX ≤ off) && decide (off ≤ R.ALM_DECIDE)

/-- A write of a Stream Engine task on a shadow that takes effect only when the journal brings it (R496, log 28). -/
def State.shadowSkips (s : State) (q : Req) (off : Nat) : Bool :=
  s.sys.mode = .shadow && !s.sys.isolated && isJournalBlock (off / 0x10000) && decide (q.id < 16) && !isDecision off

/-- A write of a control register; `jn` tells that a shadow applies it from the journal (R500). -/
def State.regStep (s : State) (q : Req) (jn : Bool) (off v : Nat) : State :=
  match findReg off with
  | none => s.refuse q 1 off
  | some d =>
    if jn then s.blockWrite q jn d off v
    else
      match s.writerBar q off with
      | some c => s.refuse q c off
      | none =>
        if s.sys.mode = .shadow && isJournalBlock (off / 0x10000) && reqIsSv q then s.refuse q 3 off
        else if s.shadowSkips q off then s
        else s.blockWrite q jn d off v

/-- What a journal entry of a write carries (R495): the word, or with TBL_CMD the data registers; none for a table read. -/
def State.journalValue (s : State) (off v : Nat) : Option (List Byte) :=
  if off = tblAddrOff (off / 0x10000) + 4 then
    if v % 4 = 2 then some ((s.tblData (off / 0x10000)).flatMap fun w => leBytes 4 w.toNat) else none
  else some (leBytes 4 v)

/-- A write by the host or a core (R71, R496). -/
def State.regWrite (s : State) (q : Req) (off v : Nat) : State :=
  let t := s.regStep q false off v
  if s.ownJournal && isJournalBlock (off / 0x10000) && t.refusals = s.refusals then
    match s.journalValue off v with
    | some l => (s.journalWrite q.id off l).regStep q false off v
    | none => t
  else t

end Sys2Proof.Machine
end

