-- ==== Sys2Proof/Machine/Xng.lean ====
section
/-!
DEFINITION. The Redundant Pair and the Crossing (chapter 17): link, heartbeats and paths, holding duty, the journal as a shadow
applies it, joining, digests, output marks, takeover, handover and the peer mailbox.
-/

namespace Sys2Proof.Machine

/-- Boulevard clk in one ms and in one s (R33). -/
def clkPerMs : Nat := 1200000
def clkPerS : Nat := 1200000000

/-- The unit acts as one of a Pair: its heartbeats on the data path and R494 go on with the Crossing out (R532). -/
def State.pairRuns (s : State) : Bool := s.paired && !s.sys.coresOff

/-- The Crossing runs as one of a Pair. -/
def State.xngRuns (s : State) : Bool := s.pairRuns && !s.flag F.XNG_STATUS.STOPPED

/-- The unit is a shadow in lockstep's journal: M5 and not isolated. -/
def State.isShadow (s : State) : Bool := s.sys.mode = .shadow && !s.sys.isolated

/-! ## The link (R487) -/

/-- Journal entries are kept: by a shadow, and in a takeover up to ts (R506). -/
def State.takesEntries (s : State) : Bool := s.isShadow || (s.sys.mode = .takeover && !s.xng.tsDone)

/-- ESEQ of an entry. -/
def entryEseq (e : List Byte) : Nat := leAt e 0 8

/-- Payload kind of a message over the Crossing that asks for duty, announces a handover, or tells of a rejoin is acted on at
once; others wait. -/
def State.control (s : State) (l : List Byte) : State :=
  match leAt l 0 1 with
  | 1 =>
    if s.sys.duty && s.xngState = 1 && s.sys.trans.isNone && s.xng.handover.isNone && s.sys.warnAt.isNone then s.announce .shadow
    else s
  | 2 => if s.isShadow && s.xngState = 5 then { s with xng := { s.xng with handover := some (leAt l 1 8, .service) } } else s
  | 3 => if s.isShadow then s.rejoin else if s.sys.duty && s.xngState = 1 then s.setXngState 2 else s
  | _ => { s with xng := { s.xng with msgs := s.xng.msgs ++ [(3, l)] } }

/-- A message of a frame received in order: a journal entry, an acknowledgement of entries, a control message, or another. -/
def State.crossMessage (s : State) (m : Nat × List Byte) : State :=
  match m.1 with
  | 5 =>
    if m.2.length < 32 then (if s.sys.duty then s.setCnt R.XNG_APPLIED (w64 (leAt m.2 0 8)) else s)
    else if s.takesEntries then { s.bump R.XNG_U_ENTRIES_RX with xng := { s.xng with rx := s.xng.rx ++ [m.2] } }
    else s
  | 3 => s.control m.2
  | _ => { s with xng := { s.xng with msgs := s.xng.msgs ++ [m] } }

/-- XNG_FRAME (R487): a frame with a good FCS and the next link sequence number is taken and acknowledged; one without
messages carries an acknowledgement alone. -/
def execXngFrame (seq ack : Nat) (good : Bool) (msgs : List (Nat × List Byte)) (s : State) : Out :=
  if !(s.xngRuns && s.flag F.XNG_STATUS.LINK && good) || (!msgs.isEmpty && seq != s.xng.rxSeq + 1) then .next s
  else
    let s := { s with xng := { s.xng with unacked := s.xng.unacked.filter fun u => decide (ack < u.1) } }
    if msgs.isEmpty then .next s
    else .next (msgs.foldl State.crossMessage ({ s with xng := { s.xng with rxSeq := seq } }.emit (.crossing 0 (leBytes 8 seq))))

/-- XNG_RETRANSMIT (R487): every frame from the first not acknowledged is sent again. -/
def execXngRetransmit (s : State) : Out :=
  if !(s.xngRuns && s.flag F.XNG_STATUS.LINK) then .next s
  else .next (s.xng.unacked.foldl (fun s u => (s.emit (.crossing u.2.1 u.2.2)).bump R.XNG_U_RETRANSMITS) s)

/-- The oldest waiting message of a kind that passes a test, and the others. -/
def takeMsg (p : Nat × List Byte → Bool) : List (Nat × List Byte) → Option (List Byte × List (Nat × List Byte))
  | [] => none
  | m :: t => if p m then some (m.2, t) else (takeMsg p t).map fun r => (r.1, m :: r.2)

/-- Take the oldest waiting message that passes a test. -/
def State.crossTake (s : State) (p : Nat × List Byte → Bool) : Option (List Byte × State) :=
  (takeMsg p s.xng.msgs).map fun r => (r.1, { s with xng := { s.xng with msgs := r.2 } })

/-! ## Paths (R491) -/

/-- A path's state shown; its change is flagged and recorded. -/
def State.setPath (s : State) (xpath up : Bool) : State :=
  let f := if xpath then F.XNG_STATUS.XPATH else F.XNG_STATUS.DPATH
  if s.flag f = up then s
  else
    ((s.setFld f (b2n up)).raise F.XNG_INT_STATUS.PATH).ringLog 0x000B 46 (leBytes 1 (b2n (!xpath)) ++ leBytes 1 (b2n up))

/-- PATH_DOWN (R491): 3.1 ms without a heartbeat. -/
def execPathDown (dt : Nat) (s : State) : Out :=
  let s := s.elapse dt
  let old (t : Option Nat) : Bool := match t with | some t => decide (3720000 ≤ s.now - t) | none => true
  let s := if old s.xng.hbX then s.setPath true false else s
  .next (if old s.xng.hbD then s.setPath false false else s)

/-- CROSSING_LINK_CHANGE (R491): the link comes up with fresh sequence numbers, or goes down with its path (log 28); its signal is a
wake source (R480). -/
def execCrossingLinkChange (up : Bool) (s : State) : Out :=
  if s.flag F.XNG_STATUS.LINK = up then .next s
  else
    let s := s.setFld F.XNG_STATUS.LINK (b2n up)
    if up then .next ({ s with xng := { s.xng with txSeq := 0, rxSeq := 0, unacked := [] } }.wakeEvent 7)
    else .next (s.setPath true false)

/-- DUTY_INPUT_CHANGE (R489, R481): levels of the peer's DUTY_A and DUTY_B. -/
def execDutyInputChange (a b : Bool) (s : State) : Out :=
  let v := b2n b * 2 + b2n a
  let was := s.fld F.XNG_STATUS.PEER_DUTY
  if was = v then .next s
  else
    let s := (s.setFld F.XNG_STATUS.PEER_DUTY v).raise F.XNG_INT_STATUS.DUTY
    .next (if v = 0 then s.wakeEvent 6 else s)

/-! ## Heartbeats (R490) -/

/-- Releasing duty under R65 or R531. -/
def State.releasingDuty (s : State) : Bool := s.sys.warnAt.isSome || s.xng.releasing

/-- The bytes of a heartbeat (log 28). -/
def State.hbBytes (s : State) (seq : Nat) : List Byte :=
  leBytes 4 (s.reg R.ALM_UNIT_ID).toNat ++ leBytes 8 seq ++ leBytes 1 s.sys.mode.num ++ leBytes 1 s.xngState
    ++ leBytes 1 (b2n s.releasingDuty * 4 + b2n (s.flag F.XNG_CTRL.HOME) * 2 + b2n s.sys.duty) ++ leBytes 1 0
    ++ leBytes 4 s.epoch ++ leBytes 8 (s.cnt R.XNG_SENT).toNat ++ leBytes 8 (s.cnt R.XNG_APPLIED).toNat ++ s.cfgDigest

/-- A heartbeat read from its bytes; none when it is short or names no mode or STATE. -/
def readHb (l : List Byte) : Option HbInfo :=
  let f := leAt l 14 1
  if l.length < 68 || (modeOf (leAt l 12 1)).isNone || decide (9 < leAt l 13 1) then none
  else
    some { unitId := leAt l 0 4, seq := leAt l 4 8, mode := leAt l 12 1, state := leAt l 13 1, duty := bitOf f 0,
           home := bitOf f 1, releasing := bitOf f 2, epoch := leAt l 16 4, sent := leAt l 20 8, applied := leAt l 28 8,
           cfg := leAt l 36 32 }

/-- The frame of a heartbeat on the data path. -/
def State.hbFrame (s : State) (hb : List Byte) : List Byte :=
  ethHeader (s.fld F.XNG_HB_MAC_LO.ADDR_LO + s.fld F.XNG_HB_MAC_HI.ADDR_HI * 2 ^ 32) (s.station (s.fld F.XNG_CTRL.HB_PORT))
    (s.fld F.XNG_HB_MAC_HI.VLAN) 0 0x88B5 ++ hb

/-- HEARTBEAT_SEND (R490): every 1 ms, on both paths. -/
def execHeartbeatSend (dt : Nat) (s : State) : Out :=
  let s := s.elapse dt
  if !(s.pairRuns && decide (clkPerMs ≤ s.now - s.xng.hbAt)) then .next s
  else
    let n := s.xng.hbSeq + 1
    let hb := s.hbBytes n
    let s := { s with xng := { s.xng with hbSeq := n, hbAt := s.now } }
    .next ((s.crossSend 2 hb).txSubmit (s.fld F.XNG_CTRL.HB_PORT) ⟨3, s.hbFrame hb, .heartbeat⟩)

/-- STATE of a unit holding duty follows its peer's (R501). -/
def State.followPeer (s : State) (h : HbInfo) : State :=
  if s.sys.duty && (s.xngState = 1 || s.xngState = 2) then s.setXngState (if h.state = 5 then 1 else 2) else s

/-- A heartbeat taken from a path (R490 to R493). -/
def State.heartbeat (s : State) (xpath : Bool) (l : List Byte) : State :=
  let s := s.bump (if xpath then R.XNG_U_HB_RX_CROSSING else R.XNG_U_HB_RX_PORT)
  match readHb l with
  | none => s.bump R.XNG_U_HB_BAD
  | some h =>
    let s := s.bump R.XNG_U_HB_ACCEPTED
    let s := { s with xng := { s.xng with
      hb := some h
      hbX := if xpath then some s.now else s.xng.hbX
      hbD := if xpath then s.xng.hbD else some s.now } }
    let s := if xpath && !s.flag F.XNG_STATUS.LINK then s else s.setPath xpath true
    let s := s.setFld F.XNG_STATUS.HOME_CONFLICT (b2n (h.home = s.flag F.XNG_CTRL.HOME))
    let s := if s.sys.duty then s.setCnt R.XNG_APPLIED (w64 h.applied) else s
    (s.followPeer h).bootAct

/-- HEARTBEAT_RX: the oldest heartbeat received on the Crossing, or through the parser. -/
def execHeartbeatRx (xpath : Bool) (s : State) : Out :=
  if xpath then
    match (if s.xngRuns then s.crossTake (fun m => m.1 = 2) else none) with
    | none => .next s
    | some r => .next (r.2.heartbeat true r.1)
  else if !s.pairRuns then .next s
  else
    match s.xng.hbIn with
    | [] => .next s
    | l :: t => .next ({ s with xng := { s.xng with hbIn := t } }.heartbeat false l)

/-! ## Holding duty (R494) -/

/-- The row of R494 that applies; a stopped Crossing counts as its path down (R532). -/
def State.pairRow (s : State) : Nat :=
  let x := s.flag F.XNG_STATUS.XPATH && !s.flag F.XNG_STATUS.STOPPED
  let d := s.flag F.XNG_STATUS.DPATH
  let lines := s.fld F.XNG_STATUS.PEER_DUTY
  let releasing := match s.xng.hb with | some h => h.releasing | none => false
  if lines = 0 && releasing then 1
  else if !x && !d then (if lines = 3 then 3 else 2)
  else if !x then 4
  else if !d then 5
  else 6

/-- Takeover by way of M9 (R508). -/
def State.takeBy508 (s : State) : State :=
  { s with
    xng := { s.xng with via508 := true, guardAt := none }
    err := { s.err with recovering := true, tf := s.now, rsvAt := s.now, overrun := false } }.beginTrans .recovery 15

/-- A shadow decides takeover (R494, R506, R508). -/
def State.decideTakeover (s : State) : State := if s.xngState = 5 then s.beginTrans .takeover 7 else s.takeBy508

/-- A Pair fault is recorded, and the time without one starts anew (R509, R518). -/
def State.pairReport (s : State) (code : Nat) : State :=
  { s with xng := { s.xng with inStepAt := s.now } }.detect code 0 46

/-- The unit becomes the isolated one (R510). -/
def State.isolate (s : State) : State :=
  if s.sys.duty then
    let lines := s.dutyLines
    let s : State := { s with
      sys := { s.sys with isolated := true }
      xng := { s.xng with releasing := true } }
    (s.linesMoved lines).beginTrans .shadow 7
  else
    let s : State := { s with
      sys := { s.sys with isolated := true }
      xng := { s.xng with joinAt := none, lagOkAt := none, handover := none } }
    (s.setXngState 6).showMode

/-- The Crossing path is back: the isolated unit joins again (R510). -/
def State.rejoinIsolated (s : State) : State :=
  if s.sys.mode = .shadow && s.sys.isolated then
    ({ s with sys := { s.sys with isolated := false }, xng := { s.xng with joinAt := none, retryAt := none } }.setXngState 3).showMode
  else s

/-- The home unit in M5 under row 4 is out of the journal, and in step no more (R501); its guard time runs (R510). -/
def State.startGuard (s : State) : State :=
  let s := if 3 ≤ s.xngState && s.xngState ≤ 5 then
      { s.setXngState 3 with xng := { (s.setXngState 3).xng with joinAt := none, lagOkAt := none, handover := none } }
    else s
  { s with xng := { s.xng with guardAt := some (s.xng.guardAt.getD s.now) } }

/-- What a unit in M5 does by the row. -/
def State.shadowRow (s : State) (row : Nat) : State :=
  match row with
  | 1 | 2 => s.decideTakeover
  | 4 =>
    if s.flag F.XNG_CTRL.HOME then s.startGuard
    else if s.sys.isolated then s
    else s.isolate
  | 5 | 6 => s.rejoinIsolated
  | _ => s

/-- What a unit that holds duty does by the row. -/
def State.dutyRow (s : State) (row : Nat) : State :=
  match row with
  | 2 | 3 => if s.xngState = 1 then s.setXngState 2 else s
  | 4 =>
    if s.flag F.XNG_CTRL.HOME then (if s.xngState = 1 then s.setXngState 2 else s)
    else if s.xng.releasing then s
    else s.isolate
  | _ => s

/-- The Pair faults of rows 3 and 5: every 1 s while row 3 holds, and once as row 5 is entered (R518). -/
def State.rowFault (s : State) (row : Nat) : State :=
  if row = 3 then
    let due := match s.xng.row3At with | some t => decide (clkPerS ≤ s.now - t) | none => true
    if due then { s with xng := { s.xng with row3At := some s.now } }.pairReport 0x22 else s
  else if row = 5 && s.xng.row != 5 then s.pairReport 0x23
  else s

/-- PAIR_EVALUATE (R494). -/
def execPairEvaluate (dt : Nat) (s : State) : Out :=
  let s := s.elapse dt
  if !(s.pairRuns && (s.sys.mode = .shadow || s.sys.duty)) then .next s
  else
    let row := s.pairRow
    let s := s.rowFault row
    let s := { s with xng := { s.xng with
      row := row
      row3At := if row = 3 then s.xng.row3At else none
      guardAt := if row = 4 then s.xng.guardAt else none } }
    .next (if s.sys.duty then s.dutyRow row else s.shadowRow row)

/-- GUARD_EXPIRE (R510): the home unit takes duty once the other has stopped. -/
def execGuardExpire (dt : Nat) (s : State) : Out :=
  let s := s.elapse dt
  match s.xng.guardAt with
  | none => .next s
  | some t =>
    if s.sys.mode = .shadow && decide (s.fld F.XNG_LIMITS.GUARD_MS * clkPerMs ≤ s.now - t) then .next s.takeBy508 else .next s

/-! ## Joining (R499 to R501) -/

/-- Short Grid Time in whole µs. -/
def usOfGt (t : Int) : Nat := (t * 1000000 / 2 ^ 32).toNat

/-- Key of a wide value that belongs to the state a join carries: value pairs of the engines, the pulses due and the interval counters of the tie-lines (R363, R499). -/
def joinWide (k : Nat) : Bool :=
  inArray k R.GLD_SETSEQ 64 0x40 || inArray k R.GLD_FRONTIER 64 0x40 || k = R.GLD_LAST_REL || k = R.ISL_MAP_SEQ || k = R.CAP_WRITE
    || ((List.range 8).any fun n => k = outCnt n 0) || ((List.range 64).any fun t => (List.range 5).any fun q => k = lineCnt t q)

/-- Table words that a join carries: all of the journalled blocks but the connection table, which is the unit's own. -/
def joinTbl (k : Nat) : Bool := isJournalBlock (k / 2 ^ 28) && k / 2 ^ 24 != T.ING.Connection

/-- Registers of the journalled blocks, but the unit's own ALM_UNIT_ID (R556). -/
def joinReg (k : Nat) : Bool := isJournalBlock (k / 0x10000) && k != R.ALM_UNIT_ID

/-- Address ranges a join takes at its mark: the rings of every running Grove, the record rings and pre rings. -/
def State.joinRanges (s : State) : List (Nat × Nat) :=
  let ring (lo hi n : Nat) : Nat × Nat := (s.ringBase lo hi, s.ringBase lo hi + n)
  s.runningGroves.flatMap (fun g =>
      let a := s.setRing g (s.gfld g F.GLD_RECSIZE.UNITS)
      let b := s.amendRing g
      [(dramStart + a.1, dramStart + a.2), (dramStart + b.1, dramStart + b.2)])
    ++ [ring R.FLT_OUT_BASE_LO R.FLT_OUT_BASE_HI (32 * s.fld F.FLT_OUT_RECORDS.N),
        ring R.OSC_TRK_BASE_LO R.OSC_TRK_BASE_HI (4480 * s.fld F.OSC_TRK_RECORDS.N),
        ring R.OSC_FO_BASE_LO R.OSC_FO_BASE_HI (16512 * s.fld F.OSC_FO_RECORDS.N),
        ring R.ISL_RES_BASE_LO R.ISL_RES_BASE_HI (16448 * s.fld F.ISL_RES_RECORDS.N),
        ring R.ISL_MAP_BASE_LO R.ISL_MAP_BASE_HI (34880 * s.fld F.ISL_MAP_RECORDS.N),
        ring R.ALM_REC_BASE_LO R.ALM_REC_BASE_HI (64 * s.fld F.ALM_REC_RECORDS.N),
        ring R.CAP_RING_BASE_LO R.CAP_RING_BASE_HI s.capSize]
    ++ (s.validEntries T.CAP.Sequencer 0).map s.preRing

/-- The join image at a mark (R499), without the carried memory. -/
def State.joinImage (s : State) : JoinImage :=
  { eseq := s.xng.eseq, epoch := s.epoch, mark := s.tim.mark, markTq := s.tim.markTq, ing := s.ing, gld := s.gld, flt := s.flt,
    osc := s.osc, isl := s.isl, alm := s.alm, cap := s.cap, acc := s.acc, regs := s.regs.filter (fun x => joinReg x.1),
    wide := s.wide.filter (fun x => joinWide x.1), tbl := s.tbl.filter (fun x => joinTbl x.1),
    mem := s.mem.filter (fun x => inRanges s.joinRanges x.1), queues := [] }

/-- The parts of the ingest, alarm and accounting state that the image gives. -/
def joinIng (own img : Ing) : Ing := { own with lastTag := img.lastTag, rsvLast := img.rsvLast, jseq := img.jseq }
def joinAlm (own img : Alm) : Alm := { own with points := img.points, lastSeq := img.lastSeq, aseq := img.aseq, fseq := img.fseq }

/-- The accumulators, the residuals and the Sets last taken come from the image; BACKLOG, the pulses, the cross-check and the saves
are the unit's own (R363), and its present windows hold Sets it did not take (R359). -/
def joinAcc (own img : Acc) : Acc :=
  { own with
    sums := img.sums, lines := img.lines, taken := img.taken, old := img.old
    outs := (List.range 8).foldl (fun m n =>
      mset accOutIdle m n { mget accOutIdle own.outs n with resid := (mget accOutIdle img.outs n).resid }) own.outs
    ins := own.ins.map fun x => (x.1, { x.2 with bad := true }) }

/-- The Sets that wait with the image count as delivered, and the pulses due before it as withheld here, so that the identities of
R230, R261, R293, R343 and R364 go on; `o` is the state before. -/
def State.joinCounts (s o : State) : State :=
  let move (s : State) (k gain loss : Nat) : State := s.setCnt k (w64 ((s.cnt k).toNat + gain - loss))
  let s := [(R.FLT_U_NOTICES, R.FLT_U_PENDING), (R.OSC_U_PASSES, R.OSC_U_PENDING), (R.ISL_U_NOTICES, R.ISL_U_PENDING),
      (R.CAP_U_NOTICES, R.CAP_U_PENDING), (R.ACC_U_NOTICES, R.ACC_U_PENDING)].foldl (fun s p =>
    move s p.1 (s.unitGauge p.2) (o.unitGauge p.2)) s
  (List.range 8).foldl (fun s n => move s (outCnt n 2) (s.cnt (outCnt n 0)).toNat (o.cnt (outCnt n 0)).toNat) s

/-- Sequence, engines, registers and tables of the image. -/
def State.loadParts (s : State) (m : JoinImage) : State :=
  let o := s
  let s := { s.setReg R.ERR_EPOCH (w32 m.epoch) with mram := { s.mram with epoch := m.epoch } }
  let s : State := { s with
    xng := { s.xng with eseq := m.eseq }
    tim := { s.tim with marked := true, mark := m.mark, markTq := m.markTq, markAt := s.now }
    ing := joinIng s.ing m.ing, gld := m.gld, flt := m.flt, osc := m.osc, isl := m.isl, alm := joinAlm s.alm m.alm, cap := m.cap
    acc := joinAcc s.acc m.acc
    regs := mapMerge regReset joinReg s.regs m.regs
    wide := mapMerge (fun _ => 0) joinWide s.wide m.wide
    tbl := mapMerge tblReset joinTbl s.tbl m.tbl
    sys := { s.sys with gladeUp := true } }
  s.joinCounts o

/-- Memory and carried queues of the image. -/
def State.loadMemory (s : State) (m : JoinImage) : State :=
  let r := s.joinRanges ++ s.carryRegions
  let s := { s with
    mem := mapMerge (fun _ => memDefault) (inRanges r) s.mem m.mem
    rbt := { s.rbt with queues := mapMerge (fun _ => queueEmpty) (fun n => s.carriedQueue n) s.rbt.queues m.queues } }
  (m.queues.filter fun x => s.carriedQueue x.1).foldl (fun s x => s.entryPutAll x.1) s

/-- Entries up to the join mark are in the image: they count as applied (R512). -/
def State.dropEntries (s : State) (j : Nat) : State :=
  let keep := s.xng.rx.filter fun e => decide (j < entryEseq e)
  { s.bumpBy R.XNG_U_ENTRIES_APPLIED (s.xng.rx.length - keep.length) with xng := { s.xng with rx := keep } }

/-- The join has failed (R501): flagged, recorded, and started again after 10 s. -/
def State.joinFail (s : State) : State :=
  let s := (s.raise F.XNG_INT_STATUS.JOIN_FAIL).ringLog 0x000B 46 (leBytes 1 2 ++ leBytes 1 s.xngState)
  { s.setXngState 3 with xng := { s.xng with joinAt := none, lagOkAt := none, retryAt := some (s.now + 10 * clkPerS) } }

/-- The units agree: configuration and images are the same, and one of them is home (R492, R501). -/
def State.joinAgrees (s : State) : Bool :=
  match s.xng.hb with
  | none => false
  | some h => h.cfg = leNat s.cfgDigest && h.home != s.flag F.XNG_CTRL.HOME && !s.flag F.XNG_STATUS.HOME_CONFLICT

/-- JOIN_START (R501): a shadow in JOINING asks, unless the units differ; the unit holding duty takes the request, and its next
mark is the join mark. -/
def execJoinStart (s : State) : Out :=
  if !s.xngRuns then .next s
  else if s.isShadow then
    if s.xngState = 3 && s.xng.joinAt.isNone && s.xng.retryAt.isNone && s.flag F.XNG_STATUS.XPATH then
      let s := { s with xng := { s.xng with joinAt := some s.now } }
      .next (if s.joinAgrees then s.crossSend 3 (leBytes 1 0) else s)
    else .next s
  else
    match s.crossTake (fun m => m.1 = 3) with
    | none => .next s
    | some r =>
      if r.2.sys.duty && r.2.joinAgrees then .next { r.2 with xng := { r.2.xng with joinWant := true, cut := none } } else .next r.2

/-- The join image is taken at the join mark, and each carry entry at its key's boundary (R499, R500). -/
def State.joinMark (s : State) : State :=
  if s.xng.joinWant && s.sys.duty then
    { s with xng := { s.xng with joinWant := false, cut := some (s.joinImage, s.validEntries T.XNG.Carry 0) } }
  else s

/-- TIME_MARK (R38, R165, R190): a mark that is due is inserted; a mark that a join waits for is its join mark. Carried memory whose key
has come to its boundary since is copied (R500). -/
def execTimeMark (dt : Nat) (s : State) : Out :=
  let s := s.elapse dt
  let t := s.insertMark
  .next (if t.xng.eseq = s.xng.eseq then t else t.joinMark).copyCarry

/-- JOIN_IMAGE_LOADED (R501). -/
def execJoinImageLoaded (img : JoinImage) (s : State) : Out :=
  if s.xngRuns && s.isShadow && s.xngState = 3 && s.xng.joinAt.isSome then
    .next ((((s.loadParts img).loadMemory img).dropEntries img.eseq).setXngState 4)
  else .next s

/-- JOIN_IN_STEP (R501): lag has stayed within 2 ms for 1 s. -/
def execJoinInStep (dt : Nat) (s : State) : Out :=
  let s := s.elapse dt
  match s.xng.lagOkAt with
  | none => .next s
  | some t =>
    if s.isShadow && s.xngState = 4 && decide (clkPerS ≤ s.now - t) then
      .next { (s.setXngState 5).bump R.XNG_U_JOINS with xng := { (s.setXngState 5).xng with joinAt := none, inStepAt := s.now } }
    else .next s

/-- JOIN_TIMEOUT (R501). -/
def execJoinTimeout (dt : Nat) (s : State) : Out :=
  let s := s.elapse dt
  match s.xng.joinAt with
  | none => .next s
  | some t =>
    if s.isShadow && (s.xngState = 3 || s.xngState = 4) && decide (s.fld F.XNG_LIMITS.JOIN_S * clkPerS ≤ s.now - t) then
      .next s.joinFail
    else .next s

/-- Divergences within 3,600 s (R531). -/
def State.recentDivs (s : State) : Nat := (s.xng.divs.filter fun t => decide (s.now - t ≤ 3600 * clkPerS)).length

/-- JOIN_RETRY (R501, R531): not after the third divergence within 3,600 s. -/
def execJoinRetry (dt : Nat) (s : State) : Out :=
  let s := s.elapse dt
  match s.xng.retryAt with
  | none => .next s
  | some t =>
    if s.isShadow && decide (t ≤ s.now) && (s.xngState = 3 || (s.xngState = 7 && decide (s.recentDivs < 3))) then
      .next { s.setXngState 3 with xng := { (s.setXngState 3).xng with retryAt := none, joinAt := none, lagOkAt := none } }
    else .next s

/-! ## Takeover (R506) -/

/-- Step ts: the unit's own journal goes on from the last entry applied, and duty is taken. -/
def State.takeoverStart (s : State) : State :=
  let lines := s.dutyLines
  let s : State := { s with
    xng := { s.xng with tsDone := true, handover := none }
    gld := { s.gld with groves := s.gld.groves.map fun x => (x.1, { x.2 with pastTg := false }) }
    acc := { s.acc with outs := s.acc.outs.map fun x => (x.1, { x.2 with backlog := 0 }) } }
  (((s.setDuty true).journal 6 0 0 0 s.tim.mark []).showMode).linesMoved lines

/-- TAKEOVER_APPLIED (R506): every received entry is applied. -/
def execTakeoverApplied (s : State) : Out :=
  if s.sys.mode = .takeover && !s.xng.tsDone && s.xng.rx.isEmpty then .next s.takeoverStart else .next s

/-- TAKEOVER_OUTPUTS (R506): outputs are driven, held frames are sent, and M6 ends if no Grove runs. -/
def execTakeoverOutputs (s : State) : Out :=
  if s.sys.mode = .takeover && s.xng.tsDone && !s.xng.toDone then
    let drive := s.drive
    let s : State := { s with xng := { s.xng with toDone := true } }
    let s := (s.driveChanged drive).sendHeld
    .next (if s.allPastTg then s.beginTrans .service 8 else s)
  else .next s

/-! ## The journal on the shadow (R495 to R498) -/

/-- The requester of a journalled write (R434). -/
def reqOf (id : Nat) : Req := if h : id < 21 then .core ⟨id, h⟩ else .host

/-- A journalled write takes effect (R496): a table command with its data registers, a register with its word. A Stream Engine's
decisions are those of the shadow's own tasks. -/
def State.applyWrite (s : State) (p : List Byte) : State :=
  let off := leAt p 0 4
  let id := leAt p 4 1
  if decide (id < 16) && isDecision off then s
  else if off = tblAddrOff (off / 0x10000) + 4 then
    let s := (List.range 32).foldl (fun s i => s.setReg (tblDataOff (off / 0x10000) i) (w32 (leAt p (8 + 4 * i) 4))) s
    s.regStep (reqOf id) true off 2
  else s.regStep (reqOf id) true off (leAt p 8 4)

/-- A journalled push takes effect (R496): an agent that the queue lets push makes it. -/
def State.applyPush (s : State) (p : List Byte) : State :=
  let n := leAt p 0 1
  let agent := ([46, 0, 16, 20, 24].find? fun a => s.mayPush n a).getD 46
  (s.push n agent (BitVec.ofNat 256 (leAt p 8 32)) false false).1

/-- On applying the handover mark the home unit takes duty: M6, from its step ts on (R509). -/
def State.applyHandover (s : State) : State := ((s.enterMode .takeover false 12).setDuty true).takeoverStart

/-- One entry's effect, by its KIND (R495). -/
def State.applyKind (s : State) (e : List Byte) : State :=
  let p := e.drop 32
  let time := leAt e 24 8
  match leAt e 8 1 with
  | 0 => s.applyFrame (leAt e 9 1) (leAt e 12 2) (leAt e 16 8) time (leAt p 0 32) (p.drop 32)
  | 1 => (s.noteStep (bitOf (leAt p 2 1) 0) time).takeMark time (leAt p 0 2)
  | 2 => s.applyWrite p
  | 3 => { s.setReg R.ERR_EPOCH (w32 (leAt p 0 4)) with mram := { s.mram with epoch := leAt p 0 4 } }
  | 4 => s.applyPush p
  | 5 => s.applyHandover
  | _ => s

/-- The lag at application (R498): out of IN_STEP beyond LAG_MS. -/
def State.noteLag (s : State) (time : Nat) : State :=
  let us := usOfGt (gtDiff s.gt time)
  let s := s.setReg R.XNG_LAG (w32 (min (2 ^ 32 - 1) us))
  let s := { s with xng := { s.xng with lagOkAt := if us ≤ 2000 then some (s.xng.lagOkAt.getD s.now) else none } }
  if s.xngState = 5 && decide (s.fld F.XNG_LIMITS.LAG_MS * 1000 < us) then
    { (s.setXngState 4).raise F.XNG_INT_STATUS.LAG with xng := { (s.setXngState 4).xng with joinAt := some s.now, lagOkAt := none } }
  else s

/-- The entry is applied and acknowledged (R498). -/
def State.applyEntry (s : State) (e : List Byte) : State :=
  let n := entryEseq e
  let s := (s.bump R.XNG_U_ENTRIES_APPLIED).setCnt R.XNG_APPLIED (w64 n)
  let s := { s with xng := { s.xng with eseq := n } }
  ((s.applyKind e).crossSend 5 (leBytes 8 n)).noteLag (leAt e 24 8)

/-- Entries are applied: by a shadow that catches up or is in step, and in a takeover up to te. -/
def State.appliesEntries (s : State) : Bool :=
  (s.isShadow && (s.xngState = 4 || s.xngState = 5)) || (s.sys.mode = .takeover && !s.xng.tsDone)

/-- JOURNAL_APPLY (R497): the next entry in ESEQ order. -/
def execJournalApply (dt : Nat) (s : State) : Out :=
  let s := s.elapse dt
  match s.xng.rx with
  | [] => .next s
  | e :: t =>
    if s.appliesEntries && entryEseq e = s.xng.eseq + 1 then .next ({ s with xng := { s.xng with rx := t } }.applyEntry e) else .next s

/-! ## Digests (R503) -/

/-- A peer's digest is held against the unit's own, or kept until that is made. -/
def State.digestIn (s : State) (l : List Byte) : State :=
  if !s.inLockstep then s
  else
    let kind := leAt l 0 1
    let idx := leAt l 1 4
    let seq := leAt l 5 8
    let d := BitVec.ofNat 128 (leAt l 21 16)
    match findDigest kind idx seq s.xng.own with
    | some o => { s with xng := { s.xng with own := dropDigest kind idx seq s.xng.own } }.matchDigests o.digest d idx
    | none => { s with xng := { s.xng with peer := s.xng.peer ++ [⟨kind, idx, seq, d, s.now⟩] } }

/-- DIGEST_RX. -/
def execDigestRx (s : State) : Out :=
  match s.crossTake (fun m => m.1 = 4) with
  | none => .next s
  | some r => .next (r.2.digestIn r.1)

/-- A digest has waited DIGEST_MS for its match. -/
def State.digestOld (s : State) (d : DigestRec) : Bool := decide (s.fld F.XNG_LIMITS.DIGEST_MS * clkPerMs ≤ s.now - d.clk)

/-- DIGEST_TIMEOUT (R503): an own digest is counted as timed out; either unit's is reported. -/
def execDigestTimeout (dt : Nat) (s : State) : Out :=
  let s := s.elapse dt
  if !s.inLockstep then .next s
  else
    match s.xng.own.find? s.digestOld with
    | some d =>
      let s := { s with xng := { s.xng with own := dropDigest d.kind d.idx d.seq s.xng.own } }
      .next ((s.bump R.XNG_U_DIGESTS_TIMED_OUT).diverge 0x21 d.idx)
    | none =>
      match s.xng.peer.find? s.digestOld with
      | some d => .next ({ s with xng := { s.xng with peer := dropDigest d.kind d.idx d.seq s.xng.peer } }.diverge 0x21 d.idx)
      | none => .next s

/-! ## Output marks (R505) -/

/-- OUTPUT_MARK_RX (R505): the highest FRAME_SEQ marked for a target is kept, and the frames held up to it go; the last time marked of a
stream is its last data frame. -/
def execOutputMarkRx (s : State) : Out :=
  match s.crossTake (fun m => m.1 = 1) with
  | none => .next s
  | some (l, t) =>
    let idx := leAt l 1 1
    let val := leAt l 2 8
    if leAt l 0 1 = 0 then
      .next { t with alm := { t.alm with
        held := t.alm.held.filter fun f => !(f.1 = idx && decide (f.2.1 ≤ val))
        marked := mset 0 t.alm.marked idx (max (mget 0 t.alm.marked idx) val) } }
    else .next (t.setPub idx { t.pub idx with last := val + 1 })

/-! ## Revert and handover (R509) -/

/-- REVERT_REQUEST: the home unit in step for REVERT_S asks for duty. -/
def execRevertRequest (dt : Nat) (s : State) : Out :=
  let s := s.elapse dt
  if s.xngRuns && s.isShadow && s.xngState = 5 && s.flag F.XNG_CTRL.REVERT_EN && s.flag F.XNG_CTRL.HOME && s.xng.handover.isNone
      && decide (s.fld F.XNG_TIMING.REVERT_S * clkPerS ≤ s.now - s.xng.inStepAt) then
    .next (s.crossSend 3 (leBytes 1 1))
  else .next s

/-- HANDOVER_TIME: at the holder's first mark at or after tH the handover mark enters the journal, outputs are held, duty is
dropped, and the mode changes. -/
def execHandoverTime (dt : Nat) (s : State) : Out :=
  let s := s.elapse dt
  match s.xng.handover with
  | none => .next s
  | some (t, target) =>
    if s.sys.duty && s.tim.marked && gtAtOrAfter s.tim.mark t then
      let requested := match s.sys.trans with | some u => u.requested | none => false
      let lines := s.dutyLines
      let s := ((s.journal 5 0 0 0 s.tim.mark []).setDuty false).linesMoved lines
      .next (s.enterMode target requested 12)
    else .next s

/-! ## The peer mailbox (R511) -/

/-- PEER_POST_RX: delivered to mailbox 23 with sender 25; the result goes back. -/
def execPeerPostRx (s : State) : Out :=
  match s.crossTake (fun m => m.1 = 7 && leAt m.2 0 1 = 0) with
  | none => .next s
  | some r =>
    let p := r.2.post 23 25 (w64 (leAt r.1 2 8)) (leAt r.1 1 1 % 32)
    .next (p.1.crossSend 7 (leBytes 1 1 ++ leBytes 1 p.2))

/-- PEER_POST_RESULT. -/
def execPeerPostResult (s : State) : Out :=
  match s.crossTake (fun m => m.1 = 7 && leAt m.2 0 1 = 1) with
  | none => .next s
  | some r => .next ((r.2.setFld F.XNG_POST_RESULT.BUSY 0).setFld F.XNG_POST_RESULT.RESULT (leAt r.1 1 1))

end Sys2Proof.Machine
end

