-- ==== Sys2Proof/Machine/Host.lean ====
section
/-!
DEFINITION. The host interface (chapter 22): what the host reaches in each mode, the data port's words, bursts and erases, and
every access of a requester to a control register as it arrives at the block.
-/

namespace Sys2Proof.Machine

/-! ## Host access by mode (R612) -/

/-- The host's registers of MBX, and its queue path of RBT (R461, R463). -/
def isHostMbx (off : Nat) : Bool := decide (R.MBX_HOST_VAL_LO ≤ off) && decide (off ≤ R.MBX_HOST_RESULT)
def isHostQueue (off : Nat) : Bool := decide (R.RBT_HQ_DATA ≤ off) && decide (off ≤ R.RBT_HQ_RESULT)

/-- The offset lies in the window of one of the mailboxes 20 to 22. -/
def isKeeperBox (off : Nat) : Bool := decide (R.MBX_DB + 0x40 * 20 ≤ off) && decide (off < R.MBX_DB + 0x40 * 23)

/-- The host may read the offset. -/
def State.hostReads (s : State) (off : Nat) : Bool :=
  let b := off / 0x10000
  decide (off < ctrlSize) &&
    match s.sys.mode with
    | .keep => false
    | .boot => b = 0 || b = 3 || b = 17 || b = 19
    | .lockdown =>
      off = R.SYS_MODE || off = R.SYS_MODE_STATUS || off = R.SYS_RESET_CAUSE || isKeeperBox off || isHostMbx off || b = 19
    | .dormant => off = R.HST_STATUS || off = R.HST_WAKE
    | _ => true

/-- The host may write the offset. -/
def State.hostWrites (s : State) (off : Nat) : Bool :=
  let b := off / 0x10000
  decide (off < ctrlSize) &&
    match s.sys.mode with
    | .keep => false
    | .boot => off = R.SYS_RESET || isHostMbx off || off = R.UND_RL_INDEX || b = 19
    | .provision => b = 0 || b = 17 || b = 3 || isHostQueue off || b = 19
    | .lockdown =>
      off = R.SYS_RESET || isHostMbx off || b = 19
        || (decide (R.MBX_DB + 0x40 * 21 ≤ off) && decide (off < R.MBX_DB + 0x40 * 23)
            && (off % 0x40 = 0 || off % 0x40 = R.MBX_RX_POP % 0x40))
    | .dormant => off = R.HST_WAKE
    | _ => true

/-- The data port serves the context in this mode (R612): the host's by the table, a Supervisor's while it runs. -/
def State.dpOpen (s : State) (k : Nat) (space1 ctrl write : Bool) : Bool :=
  k != 0 ||
    match s.sys.mode with
    | .keep | .lockdown | .dormant => false
    | .boot => !space1 && !ctrl && decide (4 ≤ s.sys.bootStep)
    | .provision => !ctrl && (!space1 || !write)
    | _ => true

/-- An Unsupported Request completion to the host, counted (R612, R624). -/
def State.urDone (s : State) : State := (s.emit .unsupported).bump R.HST_U_UR

/-! ## Data port words (R615 to R617) -/

/-- The context of a requester (R614). -/
def reqCtx : Req → Option Nat
  | .host => some 0
  | .core c => if 16 ≤ c.val ∧ c.val < 20 then some (c.val - 15) else none

/-- The requester of a context. -/
def ctxReq (k : Nat) : Req := if k = 0 then .host else reqOf (15 + k)

/-- The data port's own registers. -/
def isDpReg (off : Nat) : Bool :=
  (decide (R.HST_DP_ADDR_LO ≤ off) && decide (off ≤ R.HST_DP_ERASE)) || (decide (R.HST_DP_FIFO ≤ off) && decide (off < R.HST_DP_FIFO + 4096))

/-- An address of SPACE 0 that is SRAM or DRAM outside the boundary, or a control register. -/
def dpMemory (a : Nat) : Bool := isMemory a && !(decide (boundaryStart ≤ a) && decide (a < sramEnd))
def dpCtrl (a : Nat) : Bool := decide (ctrlBase ≤ a) && decide (a < ctrlBase + ctrlSize)

/-- Area of the flash archive: 0 images, 1 reserved, 2 archive; none outside it. -/
def flashArea (a : Nat) : Option Nat :=
  if a < 0x28000000 then some 0 else if a < 0x40000000 then some 1 else if a < 0x8000000000 then some 2 else none

/-- Image slot that holds an address of the image area, and its start. -/
def imageAt (a : Nat) : Nat × Nat :=
  if a < 0x04000000 then (4, 0)
  else if a < 0x08000000 then (5, 0x04000000)
  else if a < 0x0C000000 then (0, 0x08000000)
  else if a < 0x10000000 then (1, 0x0C000000)
  else if a < 0x1C000000 then (2, 0x10000000)
  else (3, 0x1C000000)

/-- A byte of the image area: all ones beyond the image. -/
def State.imageByte (s : State) (a : Nat) : Byte :=
  let p := imageAt a
  (mget [] s.hst.images p.1).getD (a - p.2) 0xFF

/-- A word of the flash archive; a block that a cut erase left partly erased reads a free value (R618, log 6). -/
def State.flashWord (s : State) (a : Nat) : State × Word :=
  if flashArea a = some 0 then (s, w32 (leNat ((List.range 4).map fun i => s.imageByte (a + i))))
  else if mget false s.hst.torn (a / 0x400000) then (s.useFree, w32 s.freeVal.toNat)
  else (s, w32 (leNat ((List.range 4).map fun i => mget 0xFF s.hst.flash (a + i))))

/-- One 32-bit read by a context: the word, or the error of R620. -/
def State.dpFetch (s : State) (k a : Nat) (space1 : Bool) : State × Word × Nat :=
  if space1 then
    match flashArea a with
    | none | some 1 => (s, 0, 1)
    | _ =>
      if !s.dpOpen k true false false then (s, 0, 2)
      else
        let r := s.flashWord a
        (r.1, r.2, 0)
  else if dpMemory a then
    if !s.dpOpen k false false false then (s, 0, 2)
    else if s.poisoned a then (s.bump R.ERR_U_POISON_READS, 0, 3)
    else (s, w32 (s.rdLe a 4), 0)
  else if dpCtrl a then
    let off := a - ctrlBase
    if !s.dpOpen k false true false || (k = 0 && !s.hostReads off) then (s, 0, 2)
    else if isDpReg off then (s, 0, 6)
    else
      let r := s.regRead (ctxReq k) off
      (r.1, r.2, 0)
  else (s, 0, 1)

/-- One 32-bit write by a context to SPACE 0: the error of R620, zero for none. -/
def State.dpStore (s : State) (k a : Nat) (v : Word) : State × Nat :=
  if dpMemory a then
    if !s.dpOpen k false false true then (s, 2) else (s.wrLe a 4 v.toNat, 0)
  else if dpCtrl a then
    let off := a - ctrlBase
    if !s.dpOpen k false true true || (k = 0 && !s.hostWrites off) then (s, 2)
    else if isDpReg off then (s, 6)
    else
      let t := s.regWrite (ctxReq k) off v.toNat
      (t, if t.refusals = s.refusals then 0 else 6)
  else (s, 1)

/-- A context stops at a failing word (R620). -/
def State.dpStop (s : State) (k code : Nat) : State :=
  let s := s.dpError k code
  if (s.dp k).busy then
    let x := s.dp k
    let s := s.bumpBy R.HST_U_DP_DISCARDED x.buf.length
    (s.setDp k { x with buf := [], page := none }).dpEnded k
  else s

/-- ADDR and LEFT after a word (R616). -/
def DpCtx.step (x : DpCtx) : DpCtx := { x with addr := (x.addr + 4) % 2 ^ 40, left := x.left - 1 }

/-! ## Read-ahead (R616) -/

/-- The context reads ahead at this address: memory and flash that a word can be read from. -/
def State.dpAheadOk (s : State) (k a : Nat) (space1 : Bool) : Bool :=
  (if space1 then flashArea a = some 0 || flashArea a = some 2 else dpMemory a && !s.poisoned a) && s.dpOpen k space1 false false

/-- Up to `n` words are read ahead, never past LEFT or a word that would fail. -/
def State.dpAhead (s : State) (k : Nat) : Nat → State
  | 0 => s
  | n + 1 =>
    let x := s.dp k
    let a := (x.addr + 4 * x.ahead.length) % 2 ^ 40
    if x.ahead.length < min 1024 x.left && s.dpAheadOk k a x.space1 then
      let r := s.dpFetch k a x.space1
      (r.1.setDp k { x with ahead := x.ahead ++ [r.2.1] }).dpAhead k n
    else s

/-! ## HST_DP_DATA (R616, R621) -/

/-- A word read from a burst: one read ahead, else fetched now. -/
def State.dpBurstWord (s : State) (k : Nat) : State × Word :=
  let x := s.dp k
  match x.ahead with
  | w :: t => (((s.setDp k { x.step with ahead := t }).bump R.HST_U_DP_WORDS_READ).dpAhead k 1, w)
  | [] =>
    let r := s.dpFetch k x.addr x.space1
    if r.2.2 = 0 then (((r.1.setDp k (x.step)).bump R.HST_U_DP_WORDS_READ), r.2.1) else (r.1.dpStop k r.2.2, 0)

/-- A read of HST_DP_DATA. -/
def State.dpRead (s : State) (k : Nat) : State × Word :=
  let x := s.dp k
  if x.error != 0 then (s, 0)
  else if x.busy then (if x.dirWrite || x.left = 0 then (s, 0) else s.dpBurstWord k)
  else
    let r := s.dpFetch k x.addr x.space1
    if r.2.2 = 0 then ((r.1.setDp k { x with addr := (x.addr + 4) % 2 ^ 40 }).bump R.HST_U_DP_WORDS_READ, r.2.1)
    else (r.1.dpStop k r.2.2, 0)

/-- Why the first word of a flash page cannot be taken (R615, R617, R618); zero for none. -/
def State.flashBar (s : State) (k a : Nat) : Nat :=
  match flashArea a with
  | none => 1
  | some 2 =>
    if !s.dpOpen k true false true then 2
    else if a % 16384 = 0 && (mget false s.hst.programmed (a / 16384) || mget false s.hst.torn (a / 0x400000)) then 7
    else 0
  | _ => 2

/-- A word of a flash write burst (R617): a page is programmed when its last word arrives. -/
def State.dpFlashWord (s : State) (k : Nat) (v : Word) : State :=
  let x := s.dp k
  let bar := s.flashBar k x.addr
  if bar != 0 then (s.bump R.HST_U_DP_DISCARDED).dpStop k bar
  else
    let s := s.setDp k { x.step with buf := x.buf ++ [v], page := if x.addr % 16384 = 16380 then some (x.addr / 16384) else x.page }
    if x.addr % 16384 = 16380 then { s with hst := { s.hst with programmed := mset false s.hst.programmed (x.addr / 16384) true } }
    else s

/-- A write of HST_DP_DATA. A word for a page still being programmed waits for it; a flash word outside a burst fails. -/
def State.dpWrite (s : State) (k : Nat) (v : Word) : State :=
  let s := s.bump R.HST_U_DP_WORDS_WRITTEN
  let x := s.dp k
  if x.error != 0 || (x.busy && (!x.dirWrite || x.left = 0)) then s.bump R.HST_U_DP_DISCARDED
  else if x.space1 then
    if x.busy then (s.dpProgram k).dpFlashWord k v else (s.bump R.HST_U_DP_DISCARDED).dpStop k 4
  else
    let r := s.dpStore k x.addr v
    if r.2 = 0 then
      (r.1.setDp k (if x.busy then x.step else { x with addr := (x.addr + 4) % 2 ^ 40 })).bump R.HST_U_DP_COMMITTED
    else (r.1.bump R.HST_U_DP_DISCARDED).dpStop k r.2

/-! ## Bursts and erases (R616 to R619) -/

/-- A write of HST_DP_BURST by a context. -/
def State.dpBurst (s : State) (q : Req) (k v : Nat) : State :=
  let count := bitsOf v 16 0
  let dir := bitOf v 31
  if 65536 < count then s.refuse q 1 R.HST_DP_BURST
  else if (s.dp k).erasing.isSome then s.dpError k 6
  else
    let s := (s.setDp k { s.dp k with error := 0 }).dpAbort k
    let x := s.dp k
    if count = 0 then s
    else if x.space1 && dir && (x.addr % 16384 != 0 || count % 4096 != 0) then (s.setDp k { x with error := 0 }).dpError k 4
    else
      let s := s.setDp k { x with busy := true, dirWrite := dir, irq := bitOf v 30, left := count, error := 0, ahead := [] }
      if dir then s else s.dpAhead k (min 1024 count)

/-- A write of HST_DP_ERASE (R618). -/
def State.dpEraseStart (s : State) (q : Req) (k v : Nat) : State :=
  let x := s.dp k
  let b := v % 2 ^ 17
  if x.erasing.isSome then s.dpError k 6
  else if !x.space1 || x.busy then s.refuse q 1 R.HST_DP_ERASE
  else if b < 256 || !s.dpOpen k true false true then s.dpError k 2
  else (s.setDp k { x with erasing := some b }).bump R.HST_U_DP_ERASES

/-- The erase of a context's block completes (R618): its pages read all ones and may be programmed again. -/
def State.dpEraseEnd (s : State) (k : Nat) : State :=
  match (s.dp k).erasing with
  | none => s
  | some b =>
    let s := s.setDp k { s.dp k with erasing := none }
    { s with hst := { s.hst with
        flash := s.hst.flash.filter fun x => x.1 / 0x400000 != b
        programmed := s.hst.programmed.filter fun x => x.1 / 256 != b
        torn := mset false s.hst.torn b false } }

/-- A write of a data port register by its context. -/
def State.dpRegWrite (s : State) (q : Req) (k off v : Nat) : State :=
  let x := s.dp k
  if off = R.HST_DP_ADDR_LO then s.setDp k { x with addr := x.addr / 2 ^ 32 * 2 ^ 32 + v % 2 ^ 32 / 4 * 4 }
  else if off = R.HST_DP_ADDR_HI then
    s.setDp k { x with addr := x.addr % 2 ^ 32 + v % 256 * 2 ^ 32, space1 := bitOf v 31, error := 0 }
  else if off = R.HST_DP_BURST then s.dpBurst q k v
  else if off = R.HST_DP_ERASE then s.dpEraseStart q k v
  else if off = R.HST_DP_STATUS then s
  else s.dpWrite k (w32 v)

/-- A read of a data port register by its context. -/
def State.dpRegRead (s : State) (k off : Nat) : State × Word :=
  let x := s.dp k
  if off = R.HST_DP_ADDR_LO then (s, w32 (x.addr % 2 ^ 32))
  else if off = R.HST_DP_ADDR_HI then (s, w32 (b2n x.space1 * 2 ^ 31 + x.addr / 2 ^ 32))
  else if off = R.HST_DP_STATUS then (s, w32 (b2n (x.busy || x.erasing.isSome) * 2 ^ 31 + x.error * 2 ^ 28 + x.left))
  else if off = R.HST_DP_BURST ∨ off = R.HST_DP_ERASE then (s, 0)
  else s.dpRead k

/-! ## Accesses at a block -/

/-- A write that has reached the block: the data port's registers are banked (R614), the others as in chapter 02. -/
def State.devWrite (s : State) (q : Req) (off v : Nat) : State :=
  if isDpReg off then
    match reqCtx q with
    | some k => s.dpRegWrite q k off v
    | none => s.refuse q 4 off
  else s.regWrite q off v

/-- A read that has reached the block. -/
def State.devRead (s : State) (q : Req) (off : Nat) : State × Word :=
  if isDpReg off then
    match reqCtx q with
    | some k => s.dpRegRead k off
    | none => (s, 0)
  else s.regRead q off

/-- The core can make an access: it runs (R55). -/
def State.coreAlive (s : State) (c : Nat) : Bool := (s.core c).run != .off && (s.core c).run != .halted

/-- An aligned 32-bit write by a requester (R605, R612). -/
def State.busWrite (s : State) (q : Req) (off v : Nat) : State :=
  match q with
  | .host => if s.sys.mode = .keep then s else if s.hostWrites off then s.devWrite q off v else s.urDone
  | .core c => if s.coreAlive c.val && decide (off < ctrlSize) then s.devWrite q off v else s

/-- An aligned 32-bit read by a requester: the state after, and the word when one is returned. -/
def State.busFetch (s : State) (q : Req) (off : Nat) : State × Option Word :=
  match q with
  | .host =>
    if s.sys.mode = .keep then (s, none)
    else if s.hostReads off then
      let r := s.devRead q off
      (r.1, some r.2)
    else (s.urDone, none)
  | .core c =>
    if s.coreAlive c.val && decide (off < ctrlSize) then
      let r := s.devRead q off
      (r.1, some r.2)
    else (s, none)

/-- A read whose word goes back to its requester. -/
def State.busRead (s : State) (q : Req) (off : Nat) : State :=
  let r := s.busFetch q off
  match r.2 with
  | none => r.1
  | some w => r.1.emit (match q with | .host => .completion [w] | .core c => .readData c.val w)

/-! ## Host commands -/

/-- The 32-bit writes of a request, in ascending address order. -/
def State.hostWriteAll (s : State) (off : Nat) : List Word → State
  | [] => s
  | w :: t => (s.busWrite .host off w.toNat).hostWriteAll (off + 4) t

/-- The 32-bit reads of a request: the words returned. -/
def State.hostReadAll (s : State) (off : Nat) : Nat → State × List Word
  | 0 => (s, [])
  | n + 1 =>
    let r := s.busFetch .host off
    let t := r.1.hostReadAll (off + 4) n
    (t.1, r.2.toList ++ t.2)

/-- HOST_REQUEST (R609): a memory request of whole, aligned doublewords through BAR0, as 32-bit accesses; with a partial byte
enable or at an unaligned address it is refused (R14). -/
def execHostRequest (write : Bool) (off n : Nat) (partialBe : Bool) (data : List Word) (s : State) : Out :=
  if s.sys.mode = .keep then .next s
  else if partialBe || off % 4 != 0 then .next s.urDone
  else if write then .next (s.hostWriteAll off data)
  else
    let r := s.hostReadAll off n
    .next (if r.2.isEmpty then r.1 else r.1.emit (.completion r.2))

/-- The endpoint's MSI-X registers at their reset values. -/
def State.msixReset (s : State) : State :=
  { s with regs := s.regs.filter fun x => !(decide (R.HST_MSIX_TABLE ≤ x.1) && decide (x.1 < R.HST_MSIX_PBA + 8)) }

/-- HOST_RESET (R611): a Function Level Reset, a hot reset, or with `down` a fall of the link. A running erase goes on. -/
def execHostReset (down : Bool) (s : State) : Out :=
  let s := (s.dpAbort 0).msixReset
  let s := s.setDp 0 { dpIdle with erasing := (s.dp 0).erasing }
  let s := (s.raise F.HST_INT_STATUS.HOST_RESET).bump R.HST_U_HOST_RESETS
  .next (if down && s.flag F.HST_STATUS.LINK then (s.setReg R.HST_STATUS 0).raise F.HST_INT_STATUS.LINK else s)

/-- HOST_LINK_UP (R608, R623): lanes and generation as trained. -/
def execHostLinkUp (width gen : Nat) (s : State) : Out :=
  if s.sys.mode = .keep || !((width = 1 || width = 2 || width = 4) && decide (1 ≤ gen) && decide (gen ≤ 4)) then .next s
  else
    let was := s.flag F.HST_STATUS.LINK
    let s := ((s.setFld F.HST_STATUS.WIDTH width).setFld F.HST_STATUS.SPEED gen).setFld F.HST_STATUS.LINK 1
    .next (if was then s else s.raise F.HST_INT_STATUS.LINK)

/-- HOST_WAKE (R613). -/
def execHostWake (v : Word) (s : State) : Out := .next (s.busWrite .host R.HST_WAKE v.toNat)

/-- DP_DATA_ACCESS (R616): a read, or a write of `v`, of HST_DP_DATA, or of the word `i` of HST_DP_FIFO. -/
def execDpDataAccess (q : Req) (fifo : Option (BitVec 10)) (write : Bool) (v : Word) (s : State) : Out :=
  let off := match fifo with | none => R.HST_DP_DATA | some i => R.HST_DP_FIFO + 4 * i.toNat
  .next (if write then s.busWrite q off v.toNat else s.busRead q off)

/-- DP_READ_BURST (R616): a write of HST_DP_BURST with DIR read. -/
def execDpReadBurst (q : Req) (count : BitVec 17) (irq : Bool) (s : State) : Out :=
  .next (s.busWrite q R.HST_DP_BURST (b2n irq * 2 ^ 30 + count.toNat))

/-- DP_WRITE_BURST (R616): with DIR write. -/
def execDpWriteBurst (q : Req) (count : BitVec 17) (irq : Bool) (s : State) : Out :=
  .next (s.busWrite q R.HST_DP_BURST (2 ^ 31 + b2n irq * 2 ^ 30 + count.toNat))

/-- DP_BURST_CANCEL (R619): with COUNT zero. -/
def execDpBurstCancel (q : Req) (s : State) : Out := .next (s.busWrite q R.HST_DP_BURST 0)

/-- DP_BURST_DONE (R616): a burst whose last word is committed ends. -/
def execDpBurstDone (k : Fin 5) (s : State) : Out :=
  let x := s.dp k.val
  if x.busy && x.left = 0 && x.buf.isEmpty && x.page.isNone then .next (s.dpEnded k.val) else .next s

/-- FLASH_PAGE_PROGRAMMED (R617). -/
def execFlashPageProgrammed (k : Fin 5) (s : State) : Out := .next (s.dpProgram k.val)

/-- DP_ERASE (R618). -/
def execDpErase (q : Req) (block : BitVec 17) (s : State) : Out := .next (s.busWrite q R.HST_DP_ERASE block.toNat)

/-- DP_ERASE_DONE (R618). -/
def execDpEraseDone (k : Fin 5) (s : State) : Out := .next (s.dpEraseEnd k.val)

end Sys2Proof.Machine
end

