-- ==== Sys2Proof/Machine/SaporInt.lean ====
section
/-!
DEFINITION. Integer, logical, branch, conversion and time instructions (R406 to R410, R419, R420).
-/

namespace Sys2Proof.Machine

/-- An instruction that writes one scalar register from the core's own registers. -/
def State.alu (s : State) (c : CoreId) (i : Instr) (cls : Nat) (rd : Rg) (f : Core → DWord) : Out :=
  .next (s.runIns c (encode i) cls fun s => s.onCore c fun k => k.setGs rd (f k))

/-- A truth value as a scalar. -/
def boolW (b : Bool) : DWord := if b then 1 else 0

/-- Shifts by an unsigned count; a count of 64 or more gives zero, or copies of the sign bit (R406). -/
def shl64 (a : DWord) (n : Nat) : DWord := if n < 64 then a <<< n else 0
def shr64 (a : DWord) (n : Nat) : DWord := if n < 64 then a >>> n else 0
def sra64 (a : DWord) (n : Nat) : DWord := a.sshiftRight (min n 63)

/-- Leading zeros, trailing zeros and set bits (R406). -/
def clz64 (a : DWord) : Nat := if a = 0 then 64 else 63 - Nat.log2 a.toNat
def ctz64 (a : DWord) : Nat := (List.range 64).foldr (fun i r => if a.toNat.testBit i then i else r) 64
def popc64 (a : DWord) : Nat := (List.range 64).foldl (fun n i => n + b2n (a.toNat.testBit i)) 0

/-- The quotient and whether it saturated (R407). -/
def quoS (a b : DWord) : DWord × Bool :=
  if b = 0 then (if a.slt 0 then w64 (2 ^ 63) else w64 (2 ^ 63 - 1), true)
  else if a = w64 (2 ^ 63) ∧ b = -1 then (w64 (2 ^ 63 - 1), true)
  else (BitVec.ofInt 64 (a.toInt.tdiv b.toInt), false)
def quoU (a b : DWord) : DWord × Bool := if b = 0 then (-1, true) else (w64 (a.toNat / b.toNat), false)

/-- The remainder, with the sign of the dividend; zero for a zero divisor and for -2^63 by -1 (R407). -/
def modS (a b : DWord) : DWord := if b = 0 then 0 else BitVec.ofInt 64 (a.toInt.tmod b.toInt)
def modU (a b : DWord) : DWord := if b = 0 then 0 else w64 (a.toNat % b.toNat)

/-- FFLAGS bit DIVSAT (R380). -/
def fDivsat : Nat := 32

/-- A quotient: the register, and DIVSAT when it saturated. -/
def State.quo (s : State) (c : CoreId) (i : Instr) (rd : Rg) (f : Core → DWord × Bool) : Out :=
  .next (s.runIns c (encode i) 0 fun s => s.onCore c fun k =>
    let r := f k
    (if r.2 then k.orFlags fDivsat else k).setGs rd r.1)

/-- A duration of `v` units of 1/`den` s in 2^-32 s: exact, rounded to nearest with halves upward (R420). -/
def durRound (v : Int) (den : Nat) : DWord := BitVec.ofInt 64 ((v * 2 ^ 33 + (den : Int)) / (2 * (den : Int)))

/-- A branch: to the address plus off20 x 4 when it is taken (R409). -/
def State.branchIns (s : State) (c : CoreId) (i : Instr) (off : BitVec 20) (taken : Core → Bool) : Out :=
  .next (s.runIns c (encode i) 1 fun s =>
    let k := s.core c.val
    if taken k then .jump s (k.pc + off.signExtend 64 * 4) else .ok s)

/-- BP's condition (R409): ANY or ALL of the predicate's bits, inverted for N. -/
def bpTaken (k : Core) (all neg : Bool) (p : Pr) : Bool :=
  (if all then k.pr p = 0xFF else k.pr p ≠ 0) != neg


/-- ADD (R406). -/
def execAdd (c : CoreId) (rd rs1 rs2 : Rg) (s : State) : Out :=
  s.alu c (.add c rd rs1 rs2) 0 rd fun k => (k.gs rs1) + (k.gs rs2)

/-- SUB (R406). -/
def execSub (c : CoreId) (rd rs1 rs2 : Rg) (s : State) : Out :=
  s.alu c (.sub c rd rs1 rs2) 0 rd fun k => (k.gs rs1) - (k.gs rs2)

/-- AND (R406). -/
def execAnd (c : CoreId) (rd rs1 rs2 : Rg) (s : State) : Out :=
  s.alu c (.andS c rd rs1 rs2) 0 rd fun k => (k.gs rs1) &&& (k.gs rs2)

/-- OR (R406). -/
def execOr (c : CoreId) (rd rs1 rs2 : Rg) (s : State) : Out :=
  s.alu c (.orS c rd rs1 rs2) 0 rd fun k => (k.gs rs1) ||| (k.gs rs2)

/-- XOR (R406). -/
def execXor (c : CoreId) (rd rs1 rs2 : Rg) (s : State) : Out :=
  s.alu c (.xorS c rd rs1 rs2) 0 rd fun k => (k.gs rs1) ^^^ (k.gs rs2)

/-- ANDN: rs1 and not rs2 (R406). -/
def execAndn (c : CoreId) (rd rs1 rs2 : Rg) (s : State) : Out :=
  s.alu c (.andn c rd rs1 rs2) 0 rd fun k => (k.gs rs1) &&& ~~~(k.gs rs2)

/-- SHLL (R406). -/
def execShll (c : CoreId) (rd rs1 rs2 : Rg) (s : State) : Out :=
  s.alu c (.shll c rd rs1 rs2) 0 rd fun k => shl64 (k.gs rs1) (k.gs rs2).toNat

/-- SHRL (R406). -/
def execShrl (c : CoreId) (rd rs1 rs2 : Rg) (s : State) : Out :=
  s.alu c (.shrl c rd rs1 rs2) 0 rd fun k => shr64 (k.gs rs1) (k.gs rs2).toNat

/-- SHRA (R406). -/
def execShra (c : CoreId) (rd rs1 rs2 : Rg) (s : State) : Out :=
  s.alu c (.shra c rd rs1 rs2) 0 rd fun k => sra64 (k.gs rs1) (k.gs rs2).toNat

/-- LTS (R406). -/
def execLts (c : CoreId) (rd rs1 rs2 : Rg) (s : State) : Out :=
  s.alu c (.lts c rd rs1 rs2) 0 rd fun k => boolW ((k.gs rs1).slt (k.gs rs2))

/-- LTU (R406). -/
def execLtu (c : CoreId) (rd rs1 rs2 : Rg) (s : State) : Out :=
  s.alu c (.ltu c rd rs1 rs2) 0 rd fun k => boolW ((k.gs rs1).ult (k.gs rs2))

/-- MIN, signed (R406). -/
def execMin (c : CoreId) (rd rs1 rs2 : Rg) (s : State) : Out :=
  s.alu c (.minS c rd rs1 rs2) 0 rd fun k => if (k.gs rs2).slt (k.gs rs1) then (k.gs rs2) else (k.gs rs1)

/-- MAX, signed (R406). -/
def execMax (c : CoreId) (rd rs1 rs2 : Rg) (s : State) : Out :=
  s.alu c (.maxS c rd rs1 rs2) 0 rd fun k => if (k.gs rs1).slt (k.gs rs2) then (k.gs rs2) else (k.gs rs1)

/-- MINU (R406). -/
def execMinu (c : CoreId) (rd rs1 rs2 : Rg) (s : State) : Out :=
  s.alu c (.minu c rd rs1 rs2) 0 rd fun k => if (k.gs rs2).ult (k.gs rs1) then (k.gs rs2) else (k.gs rs1)

/-- MAXU (R406). -/
def execMaxu (c : CoreId) (rd rs1 rs2 : Rg) (s : State) : Out :=
  s.alu c (.maxu c rd rs1 rs2) 0 rd fun k => if (k.gs rs1).ult (k.gs rs2) then (k.gs rs2) else (k.gs rs1)

/-- MUL: low 64 bits (R406). -/
def execMul (c : CoreId) (rd rs1 rs2 : Rg) (s : State) : Out :=
  s.alu c (.mul c rd rs1 rs2) 0 rd fun k => (k.gs rs1) * (k.gs rs2)

/-- MULHIS: high 64 bits of the signed product (R406). -/
def execMulhis (c : CoreId) (rd rs1 rs2 : Rg) (s : State) : Out :=
  s.alu c (.mulhis c rd rs1 rs2) 0 rd fun k => BitVec.ofInt 64 ((k.gs rs1).toInt * (k.gs rs2).toInt / 2 ^ 64)

/-- MULHIU: high 64 bits of the unsigned product (R406). -/
def execMulhiu (c : CoreId) (rd rs1 rs2 : Rg) (s : State) : Out :=
  s.alu c (.mulhiu c rd rs1 rs2) 0 rd fun k => w64 ((k.gs rs1).toNat * (k.gs rs2).toNat / 2 ^ 64)

/-- QUOS (R406, R407). -/
def execQuos (c : CoreId) (rd rs1 rs2 : Rg) (s : State) : Out :=
  s.quo c (.quos c rd rs1 rs2) rd fun k => quoS (k.gs rs1) (k.gs rs2)

/-- QUOU (R406, R407). -/
def execQuou (c : CoreId) (rd rs1 rs2 : Rg) (s : State) : Out :=
  s.quo c (.quou c rd rs1 rs2) rd fun k => quoU (k.gs rs1) (k.gs rs2)

/-- MODS (R406, R407). -/
def execMods (c : CoreId) (rd rs1 rs2 : Rg) (s : State) : Out :=
  s.alu c (.mods c rd rs1 rs2) 0 rd fun k => modS (k.gs rs1) (k.gs rs2)

/-- MODU (R406, R407). -/
def execModu (c : CoreId) (rd rs1 rs2 : Rg) (s : State) : Out :=
  s.alu c (.modu c rd rs1 rs2) 0 rd fun k => modU (k.gs rs1) (k.gs rs2)

/-- CLZ (R406). -/
def execClz (c : CoreId) (rd rs1 : Rg) (s : State) : Out :=
  s.alu c (.clz c rd rs1) 0 rd fun k => w64 (clz64 (k.gs rs1))

/-- CTZ (R406). -/
def execCtz (c : CoreId) (rd rs1 : Rg) (s : State) : Out :=
  s.alu c (.ctz c rd rs1) 0 rd fun k => w64 (ctz64 (k.gs rs1))

/-- POPC (R406). -/
def execPopc (c : CoreId) (rd rs1 : Rg) (s : State) : Out :=
  s.alu c (.popc c rd rs1) 0 rd fun k => w64 (popc64 (k.gs rs1))

/-- ADDI (R408). -/
def execAddi (c : CoreId) (rd rs1 : Rg) (imm : BitVec 14) (s : State) : Out :=
  s.alu c (.addi c rd rs1 imm) 0 rd fun k => (k.gs rs1) + imm.signExtend 64

/-- ANDI, imm14 zero-extended (R408). -/
def execAndi (c : CoreId) (rd rs1 : Rg) (imm : BitVec 14) (s : State) : Out :=
  s.alu c (.andi c rd rs1 imm) 0 rd fun k => (k.gs rs1) &&& imm.setWidth 64

/-- ORI, imm14 zero-extended (R408). -/
def execOri (c : CoreId) (rd rs1 : Rg) (imm : BitVec 14) (s : State) : Out :=
  s.alu c (.ori c rd rs1 imm) 0 rd fun k => (k.gs rs1) ||| imm.setWidth 64

/-- XORI, imm14 zero-extended (R408). -/
def execXori (c : CoreId) (rd rs1 : Rg) (imm : BitVec 14) (s : State) : Out :=
  s.alu c (.xori c rd rs1 imm) 0 rd fun k => (k.gs rs1) ^^^ imm.setWidth 64

/-- LTSI (R408). -/
def execLtsi (c : CoreId) (rd rs1 : Rg) (imm : BitVec 14) (s : State) : Out :=
  s.alu c (.ltsi c rd rs1 imm) 0 rd fun k => boolW ((k.gs rs1).slt (imm.signExtend 64))

/-- LTUI: the sign-extended imm14 compared unsigned (R408). -/
def execLtui (c : CoreId) (rd rs1 : Rg) (imm : BitVec 14) (s : State) : Out :=
  s.alu c (.ltui c rd rs1 imm) 0 rd fun k => boolW ((k.gs rs1).ult (imm.signExtend 64))

/-- SHLLI (R408). -/
def execShlli (c : CoreId) (rd rs1 : Rg) (sh : BitVec 6) (s : State) : Out :=
  s.alu c (.shlli c rd rs1 sh) 0 rd fun k => shl64 (k.gs rs1) sh.toNat

/-- SHRLI (R408). -/
def execShrli (c : CoreId) (rd rs1 : Rg) (sh : BitVec 6) (s : State) : Out :=
  s.alu c (.shrli c rd rs1 sh) 0 rd fun k => shr64 (k.gs rs1) sh.toNat

/-- SHRAI (R408). -/
def execShrai (c : CoreId) (rd rs1 : Rg) (sh : BitVec 6) (s : State) : Out :=
  s.alu c (.shrai c rd rs1 sh) 0 rd fun k => sra64 (k.gs rs1) sh.toNat

/-- LDHI: sign-extended imm19 x 2^13 (R408). -/
def execLdhi (c : CoreId) (rd : Rg) (imm : BitVec 19) (s : State) : Out :=
  s.alu c (.ldhi c rd imm) 0 rd fun _ => imm.signExtend 64 * 0x2000

/-- PCHI: as LDHI, with the address of the PCHI added (R408). -/
def execPchi (c : CoreId) (rd : Rg) (imm : BitVec 19) (s : State) : Out :=
  s.alu c (.pchi c rd imm) 0 rd fun k => imm.signExtend 64 * 0x2000 + k.pc

/-- JALR (R409, R410): the link is written after the target is read; a misaligned target has no effect. -/
def execJalr (c : CoreId) (rd rs1 : Rg) (imm : BitVec 14) (s : State) : Out :=
  .next (s.runIns c (encode (.jalr c rd rs1 imm)) 1 fun s =>
    let k := s.core c.val
    let t := k.gs rs1 + imm.signExtend 64
    if t.toNat % 4 != 0 then .exc s 0x02 t else .jump (s.setCore c.val (k.setGs rd (k.pc + 4))) t)

/-- JAL (R409). -/
def execJal (c : CoreId) (rd : Rg) (off : BitVec 20) (s : State) : Out :=
  .next (s.runIns c (encode (.jal c rd off)) 1 fun s =>
    let k := s.core c.val
    .jump (s.setCore c.val (k.setGs rd (k.pc + 4))) (k.pc + off.signExtend 64 * 4))

/-- BZ (R409). -/
def execBz (c : CoreId) (rs : Rg) (off : BitVec 20) (s : State) : Out :=
  s.branchIns c (.bz c rs off) off fun k => decide (k.gs rs = 0)

/-- BNZ (R409). -/
def execBnz (c : CoreId) (rs : Rg) (off : BitVec 20) (s : State) : Out :=
  s.branchIns c (.bnz c rs off) off fun k => decide (k.gs rs ≠ 0)

/-- BLTZ (R409). -/
def execBltz (c : CoreId) (rs : Rg) (off : BitVec 20) (s : State) : Out :=
  s.branchIns c (.bltz c rs off) off fun k => (k.gs rs).slt 0

/-- BGEZ (R409). -/
def execBgez (c : CoreId) (rs : Rg) (off : BitVec 20) (s : State) : Out :=
  s.branchIns c (.bgez c rs off) off fun k => !(k.gs rs).slt 0

/-- BP (R409). -/
def execBp (c : CoreId) (all neg : Bool) (p : Pr) (off : BitVec 20) (s : State) : Out :=
  s.branchIns c (.bp c all neg p off) off fun k => bpTaken k all neg p

/-- CVTIF (R419): the binary32 of the int64 x 2^-f, with the conditions of its rounding. -/
def execCvtif (c : CoreId) (rd rs1 : Rg) (f : BitVec 5) (s : State) : Out :=
  .next (s.runIns c (encode (.cvtif c rd rs1 f)) 4 fun s => s.onCore c fun k =>
    let r := fofInt f32 (k.gs rs1).toInt f.toNat
    (k.orFlags r.flags).setGs rd (w64 r.bits))

/-- CVTFI (R419): the binary32 x 2^f as an int64, rounded to nearest even and saturated. -/
def execCvtfi (c : CoreId) (rd rs1 : Rg) (f : BitVec 5) (s : State) : Out :=
  .next (s.runIns c (encode (.cvtfi c rd rs1 f)) 4 fun s => s.onCore c fun k =>
    let r := ftoInt f32 ((k.gs rs1).toNat % 2 ^ 32) f.toNat 64
    (k.orFlags r.2).setGs rd (BitVec.ofInt 64 r.1))

/-- TCMP (R420): +1, 0 or -1 under R153. -/
def execTcmp (c : CoreId) (rd rs1 rs2 : Rg) (s : State) : Out :=
  s.alu c (.tcmp c rd rs1 rs2) 4 rd fun k => BitVec.ofInt 64 (gtDiff (k.gs rs1).toNat (k.gs rs2).toNat).sign

/-- TADD (R420). -/
def execTadd (c : CoreId) (rd rs1 rs2 : Rg) (s : State) : Out :=
  s.alu c (.tadd c rd rs1 rs2) 4 rd fun k => (k.gs rs1) + (k.gs rs2)

/-- TADDNS (R420): a signed duration in ns added. -/
def execTaddns (c : CoreId) (rd rs1 rs2 : Rg) (s : State) : Out :=
  s.alu c (.taddns c rd rs1 rs2) 4 rd fun k => (k.gs rs1) + durRound (k.gs rs2).toInt 1000000000

/-- TADDUS (R420): a signed duration in µs added. -/
def execTaddus (c : CoreId) (rd rs1 rs2 : Rg) (s : State) : Out :=
  s.alu c (.taddus c rd rs1 rs2) 4 rd fun k => (k.gs rs1) + durRound (k.gs rs2).toInt 1000000

end Sys2Proof.Machine
end

