-- ==== Sys2Proof/Machine/SaporVec.lean ====
section
/-!
DEFINITION. Complex vector arithmetic, compares, lane conversions, moves, predicate operations and reductions (R413 to
R418).
-/

namespace Sys2Proof.Machine

/-- A real result: im is +0 (R371). -/
def realRes (r : FRes) : LaneRes := ⟨r.bits, 0, r.flags⟩

/-- Numbers of the components of a lane. -/
def Lane.x (a : Lane) : Nat := a.re.toNat
def Lane.y (a : Lane) : Nat := a.im.toNat

/-- Every source lane `l` is present. -/
def Core.allPresent (k : Core) (srcs : List Rg) (l : Nat) : Bool := srcs.all fun r => (k.lane r l).present

/-- The lane rule of R413 for one lane. -/
def Core.vecLane (vd : Rg) (pg : Pr) (srcs : List Rg) (f : Core → Nat → LaneRes) (k : Core) (l : Nat) : Core :=
  if k.prBit pg l then
    if k.allPresent srcs l then
      let r := f k l
      (k.setLane vd l ⟨w32 r.re, w32 r.im, true⟩).orFlags r.flags
    else k.setLane vd l laneAbsent
  else k

/-- Lanes that R413 writes absent. -/
def Core.absentWrites (k : Core) (pg : Pr) (srcs : List Rg) : Nat :=
  ((List.range 8).filter fun l => k.prBit pg l && !k.allPresent srcs l).length

/-- An instruction under the lane rule of R413. -/
def State.vec (s : State) (c : CoreId) (i : Instr) (vd : Rg) (pg : Pr) (srcs : List Rg) (f : Core → Nat → LaneRes) : Out :=
  .next (s.runIns c (encode i) 3 fun s =>
    let k := s.core c.val
    .ok ((s.setCore c.val ((List.range 8).foldl (Core.vecLane vd pg srcs f) k)).coreEvents c.val 0x0A k.pl 3
      (k.absentWrites pg srcs)))

/-- An instruction that only changes registers of its core, in class 3. -/
def State.vmove (s : State) (c : CoreId) (i : Instr) (f : Core → Core) : Out :=
  .next (s.runIns c (encode i) 3 fun s => s.onCore c f)

/-- Complex sum and difference, each component rounded (R414). -/
def cAdd (a b : Lane) : LaneRes :=
  let r := fadd f32 a.x b.x
  let i := fadd f32 a.y b.y
  ⟨r.bits, i.bits, r.flags ||| i.flags⟩
def cSub (a b : Lane) : LaneRes :=
  let r := fsub f32 a.x b.x
  let i := fsub f32 a.y b.y
  ⟨r.bits, i.bits, r.flags ||| i.flags⟩

/-- The product of two lanes. -/
def cMul (a b : Lane) : LaneRes := cMulNat a.x a.y b.x b.y

/-- Product rounded, then each component added to the accumulator and rounded (R414). -/
def cMac (d a b : Lane) : LaneRes :=
  let p := cMul a b
  let re := fadd f32 d.x p.re
  let im := fadd f32 d.y p.im
  ⟨re.bits, im.bits, p.flags ||| re.flags ||| im.flags⟩

/-- a x (cos θ, sin θ) (R414, R415). -/
def cRot (a : Lane) (θ : Nat) : LaneRes :=
  let co := fcos f32 θ
  let si := fsin f32 θ
  let p := cMulNat a.x a.y co.bits si.bits
  ⟨p.re, p.im, co.flags ||| si.flags ||| p.flags⟩

/-- The wrapped difference of the arguments (R415). -/
def aDiff (a b : Lane) : FRes :=
  let x := farg f32 a.x a.y
  let y := farg f32 b.x b.y
  (fwrapDiff x.bits y.bits).also (x.flags ||| y.flags)

/-- Frequency deviation (R415). -/
def fDev (scale : Nat) (a b : Lane) : FRes :=
  let d := aDiff a b
  let m := fmul f32 d.bits scale
  (fmul f32 m.bits r2piF).also (d.flags ||| m.flags)

/-- A compare under R376: zero where an input is absent or the governing bit is zero. -/
def State.vcmp (s : State) (c : CoreId) (i : Instr) (pd : Pr) (va vb : Rg) (pg : Pr) (f : Nat → Nat → Bool) : Out :=
  s.vmove c i fun k => k.setPr pd (predOf fun l =>
    k.prBit pg l && (k.lane va l).present && (k.lane vb l).present && f (k.lane va l).x (k.lane vb l).x)

/-- The 64 bits of a lane, re low. -/
def Lane.bits (x : Lane) : DWord := w64 (x.re.toNat + x.im.toNat * 2 ^ 32)

/-- A present lane from 64 bits. -/
def laneOf (v : DWord) : Lane := ⟨w32 v.toNat, w32 (v.toNat / 2 ^ 32), true⟩

/-- Lanes that are enabled, replaced by a function of the lane number. -/
def Core.putLanes (k : Core) (vd : Rg) (pg : Pr) (f : Nat → Lane) : Core :=
  (List.range 8).foldl (fun k l => if k.prBit pg l then k.setLane vd l (f l) else k) k

/-- Lanes a reduction combines, in ascending order (R377). -/
def Core.combined (k : Core) (va : Rg) (pg : Pr) : List Lane :=
  ((List.range 8).filter fun l => k.prBit pg l && (k.lane va l).present).map (k.lane va)

/-- Combine lanes one at a time, rounding after each step (R377). -/
def reduceFrom (f : Lane → Lane → LaneRes) : Lane → Nat → List Lane → Lane × Nat
  | a, fl, [] => (a, fl)
  | a, fl, x :: t =>
    let r := f a x
    reduceFrom f ⟨w32 r.re, w32 r.im, true⟩ (fl ||| r.flags) t

/-- A reduction (R418): lane 0 and the count; lanes 1 to 7 become absent. -/
def State.reduce (s : State) (c : CoreId) (i : Instr) (vd va sb : Rg) (pg : Pr) (first : Lane → Lane)
    (f : Lane → Lane → LaneRes) : Out :=
  s.vmove c i fun k =>
    let xs := k.combined va pg
    let r : Lane × Nat := match xs with
      | [] => (laneAbsent, 0)
      | x :: t => reduceFrom f (first x) 0 t
    let k1 := (List.range 7).foldl (fun k l => k.setLane vd (l + 1) laneAbsent) (k.setLane vd 0 r.1)
    (k1.orFlags r.2).setGs sb (w64 xs.length)

/-- RMAX and RMIN of re alone. -/
def rMaxL (a b : Lane) : LaneRes := realRes (fmax f32 a.x b.x)
def rMinL (a b : Lane) : LaneRes := realRes (fmin f32 a.x b.x)

/-- CADD (R414). -/
def execCadd (c : CoreId) (vd va vb : Rg) (pg : Pr) (s : State) : Out :=
  s.vec c (.cadd c vd va vb pg) vd pg [va, vb] fun k l => cAdd (k.lane va l) (k.lane vb l)

/-- CSUB (R414). -/
def execCsub (c : CoreId) (vd va vb : Rg) (pg : Pr) (s : State) : Out :=
  s.vec c (.csub c vd va vb pg) vd pg [va, vb] fun k l => cSub (k.lane va l) (k.lane vb l)

/-- CMUL (R373, R414). -/
def execCmul (c : CoreId) (vd va vb : Rg) (pg : Pr) (s : State) : Out :=
  s.vec c (.cmul c vd va vb pg) vd pg [va, vb] fun k l => cMul (k.lane va l) (k.lane vb l)

/-- CMAC, not fused (R414). -/
def execCmac (c : CoreId) (vd va vb : Rg) (pg : Pr) (s : State) : Out :=
  s.vec c (.cmac c vd va vb pg) vd pg [vd, va, vb] fun k l => cMac (k.lane vd l) (k.lane va l) (k.lane vb l)

/-- CROT: rotation by b.re (R414, R415). -/
def execCrot (c : CoreId) (vd va vb : Rg) (pg : Pr) (s : State) : Out :=
  s.vec c (.crot c vd va vb pg) vd pg [va, vb] fun k l => cRot (k.lane va l) (k.lane vb l).x

/-- ADIFF (R415). -/
def execAdiff (c : CoreId) (vd va vb : Rg) (pg : Pr) (s : State) : Out :=
  s.vec c (.adiff c vd va vb pg) vd pg [va, vb] fun k l => realRes (aDiff (k.lane va l) (k.lane vb l))

/-- FDEV: scale is c[vd].re before the instruction (R414, R415). -/
def execFdev (c : CoreId) (vd va vb : Rg) (pg : Pr) (s : State) : Out :=
  s.vec c (.fdev c vd va vb pg) vd pg [vd, va, vb] fun k l => realRes (fDev (k.lane vd l).x (k.lane va l) (k.lane vb l))

/-- RDIV (R414). -/
def execRdiv (c : CoreId) (vd va vb : Rg) (pg : Pr) (s : State) : Out :=
  s.vec c (.rdiv c vd va vb pg) vd pg [va, vb] fun k l => realRes (fdiv f32 (k.lane va l).x (k.lane vb l).x)

/-- RMIN (R414). -/
def execRmin (c : CoreId) (vd va vb : Rg) (pg : Pr) (s : State) : Out :=
  s.vec c (.rmin c vd va vb pg) vd pg [va, vb] fun k l => rMinL (k.lane va l) (k.lane vb l)

/-- RMAX (R414). -/
def execRmax (c : CoreId) (vd va vb : Rg) (pg : Pr) (s : State) : Out :=
  s.vec c (.rmax c vd va vb pg) vd pg [va, vb] fun k l => rMaxL (k.lane va l) (k.lane vb l)

/-- CCONJ (R414). -/
def execCconj (c : CoreId) (vd va : Rg) (pg : Pr) (s : State) : Out :=
  s.vec c (.cconj c vd va pg) vd pg [va] fun k l => ⟨(k.lane va l).x, fneg f32 (k.lane va l).y, 0⟩

/-- CNEG (R414). -/
def execCneg (c : CoreId) (vd va : Rg) (pg : Pr) (s : State) : Out :=
  s.vec c (.cneg c vd va pg) vd pg [va] fun k l => ⟨fneg f32 (k.lane va l).x, fneg f32 (k.lane va l).y, 0⟩

/-- CABS, correctly rounded (R414). -/
def execCabs (c : CoreId) (vd va : Rg) (pg : Pr) (s : State) : Out :=
  s.vec c (.cabs c vd va pg) vd pg [va] fun k l => realRes (fhypot f32 (k.lane va l).x (k.lane va l).y)

/-- CARG (R415). -/
def execCarg (c : CoreId) (vd va : Rg) (pg : Pr) (s : State) : Out :=
  s.vec c (.carg c vd va pg) vd pg [va] fun k l => realRes (farg f32 (k.lane va l).x (k.lane va l).y)

/-- VMOV: each lane with its own presence (R417); an absent lane holds +0. -/
def execVmov (c : CoreId) (vd va : Rg) (pg : Pr) (s : State) : Out :=
  s.vec c (.vmov c vd va pg) vd pg [va] fun k l => ⟨(k.lane va l).x, (k.lane va l).y, 0⟩

/-- VCVTIF: the int32 x 2^-f (R414). -/
def execVcvtif (c : CoreId) (vd va : Rg) (f : BitVec 5) (pg : Pr) (s : State) : Out :=
  s.vec c (.vcvtif c vd va f pg) vd pg [va] fun k l => realRes (fofInt f32 (signedOf 32 (k.lane va l).x) f.toNat)

/-- VCVTFI: re x 2^f as an int32, saturated (R414). -/
def execVcvtfi (c : CoreId) (vd va : Rg) (f : BitVec 5) (pg : Pr) (s : State) : Out :=
  s.vec c (.vcvtfi c vd va f pg) vd pg [va] fun k l =>
    let r := ftoInt f32 (k.lane va l).x f.toNat 32
    ⟨wrapInt 32 r.1, 0, r.2⟩

/-- VCLT (R414). -/
def execVclt (c : CoreId) (pd : Pr) (va vb : Rg) (pg : Pr) (s : State) : Out :=
  s.vcmp c (.vclt c pd va vb pg) pd va vb pg (flt f32)

/-- VCLE (R414). -/
def execVcle (c : CoreId) (pd : Pr) (va vb : Rg) (pg : Pr) (s : State) : Out :=
  s.vcmp c (.vcle c pd va vb pg) pd va vb pg (fle f32)

/-- VCEQ (R414). -/
def execVceq (c : CoreId) (pd : Pr) (va vb : Rg) (pg : Pr) (s : State) : Out :=
  s.vcmp c (.vceq c pd va vb pg) pd va vb pg (feq f32)

/-- VBCAST (R417). -/
def execVbcast (c : CoreId) (vd sa : Rg) (pg : Pr) (s : State) : Out :=
  s.vmove c (.vbcast c vd sa pg) fun k => k.putLanes vd pg fun _ => laneOf (k.gs sa)

/-- VINS (R417). -/
def execVins (c : CoreId) (vd sa : Rg) (lane : BitVec 3) (s : State) : Out :=
  s.vmove c (.vins c vd sa lane) fun k => k.setLane vd lane.toNat (laneOf (k.gs sa))

/-- VEXT (R417): the lane as 64 bits, zero if absent, and its presence in every bit of p[pg]; illegal with pg zero. -/
def execVext (c : CoreId) (sd va : Rg) (lane : BitVec 3) (pg : Pr) (s : State) : Out :=
  let w := encode (.vext c sd va lane pg)
  .next (s.runIns c w 3 fun s =>
    if pg = 0 then .exc s 0x03 (wordEval w)
    else s.onCore c fun k =>
      let x := k.lane va lane.toNat
      (k.setGs sd (if x.present then x.bits else 0)).setPr pg (if x.present then 0xFF else 0))

/-- PGETP (R417). -/
def execPgetp (c : CoreId) (pd : Pr) (va : Rg) (pg : Pr) (s : State) : Out :=
  s.vmove c (.pgetp c pd va pg) fun k => k.setPr pd (predOf fun l => (k.lane va l).present && k.prBit pg l)

/-- PSETP (R417): a lane made absent takes +0, a lane made present keeps its components. -/
def execPsetp (c : CoreId) (vd : Rg) (pa : Pr) (pg : Pr) (s : State) : Out :=
  s.vmove c (.psetp c vd pa pg) fun k => k.putLanes vd pg fun l =>
    if k.prBit pa l then { k.lane vd l with present := true } else laneAbsent

/-- PAND (R417). -/
def execPand (c : CoreId) (pd pa pb : Pr) (s : State) : Out :=
  s.vmove c (.pand c pd pa pb) fun k => k.setPr pd (k.pr pa &&& k.pr pb)

/-- POR (R417). -/
def execPor (c : CoreId) (pd pa pb : Pr) (s : State) : Out :=
  s.vmove c (.por c pd pa pb) fun k => k.setPr pd (k.pr pa ||| k.pr pb)

/-- PXOR (R417). -/
def execPxor (c : CoreId) (pd pa pb : Pr) (s : State) : Out :=
  s.vmove c (.pxor c pd pa pb) fun k => k.setPr pd (k.pr pa ^^^ k.pr pb)

/-- PANDN (R417). -/
def execPandn (c : CoreId) (pd pa pb : Pr) (s : State) : Out :=
  s.vmove c (.pandn c pd pa pb) fun k => k.setPr pd (k.pr pa &&& ~~~(k.pr pb))

/-- PMOVS (R417). -/
def execPmovs (c : CoreId) (sd : Rg) (pa : Pr) (s : State) : Out :=
  s.vmove c (.pmovs c sd pa) fun k => k.setGs sd (w64 (k.pr pa).toNat)

/-- PMOVP (R417). -/
def execPmovp (c : CoreId) (pd : Pr) (sa : Rg) (s : State) : Out :=
  s.vmove c (.pmovp c pd sa) fun k => k.setPr pd (BitVec.ofNat 8 (k.gs sa).toNat)

/-- CRSUM (R418). -/
def execCrsum (c : CoreId) (vd va sb : Rg) (pg : Pr) (s : State) : Out :=
  s.reduce c (.crsum c vd va sb pg) vd va sb pg id cAdd

/-- RRMAX (R418). -/
def execRrmax (c : CoreId) (vd va sb : Rg) (pg : Pr) (s : State) : Out :=
  s.reduce c (.rrmax c vd va sb pg) vd va sb pg (fun x => ⟨x.re, 0, true⟩) rMaxL

/-- RRMIN (R418). -/
def execRrmin (c : CoreId) (vd va sb : Rg) (pg : Pr) (s : State) : Out :=
  s.reduce c (.rrmin c vd va sb pg) vd va sb pg (fun x => ⟨x.re, 0, true⟩) rMinL

end Sys2Proof.Machine
end

