-- ==== Sys2Proof/Machine/SaporMem.lean ====
section
/-!
DEFINITION. Loads and stores (R411, R412), the Set access instructions (R421 to R423), and the queue and mailbox instructions
(R425 to R428).
-/

namespace Sys2Proof.Machine

/-! ## Checks of a data access (R386, R399, R411, R412) -/

/-- Offset of a control register in its region. -/
def ctrlOff (a : Nat) : Nat := a - ctrlBase

/-- A lock register (R458). -/
def isLockReg (off : Nat) : Bool := inArray off R.MBX_LOCK 64 4

/-- A load that DET forbids: from TIM, PRF, NET, ERR or UND, or of a lock register (R399). -/
def detForbids (a : Nat) : Bool :=
  isControl a && ([4, 6, 15, 17, 18].contains (ctrlOff a / 0x10000) || isLockReg (ctrlOff a))

/-- Addresses of the 64-bit words that `n` bytes from `a` touch. -/
def wordsOf (a n : Nat) : List Nat := (List.range ((a % 8 + n + 7) / 8)).map fun i => a / 8 * 8 + 8 * i

/-- A word the core may not reach: above 40 bits, or at P outside every region with the permission (R370, R412). -/
def Core.wordBarred (k : Core) (perm : Nat) (w : Nat) : Bool := decide (2 ^ 40 ≤ w) || (k.pl = 0 && !k.permits w perm)

/-- A word whose access ends in a bus error: reserved space, a control register where none is allowed, or the cryptographic
boundary (R14, R370, R604). -/
def busBarred (c : Nat) (ctrl : Bool) (w : Nat) : Bool :=
  !(isMemory w || (ctrl && isControl w)) || (c != 20 && decide (boundaryStart ≤ w) && decide (w < sramEnd))

/-- How an instruction reaches memory. -/
structure Reach where
  /-- bytes, and their alignment -/
  size : Nat
  align : Nat
  /-- bit of the permission of R382 -/
  perm : Nat
  /-- a scalar load under R399 -/
  load : Bool
  /-- a 32-bit access that a control register takes -/
  ctrl : Bool
  /-- the exception where the access reaches no memory: a bus error, or for the descriptors of SETLD, which raises none, a data
  access fault (R432) -/
  bus : Nat

/-- Code and EVAL of the exception an access raises, the lowest order first (R386). -/
def State.dataFault (s : State) (c : Nat) (word : Word) (x : Reach) (a : Nat) : Option (Nat × DWord) :=
  let k := s.core c
  let ws := wordsOf a x.size
  if x.load && k.det && ws.any (fun w => detForbids (max w a)) then some (0x05, wordEval word)
  else if a % x.align != 0 then some (0x06, w64 a)
  else
    match ws.find? (k.wordBarred x.perm) with
    | some w => some (0x07, w64 (max w a))
    | none =>
      match ws.find? (busBarred c x.ctrl) with
      | some w => some (x.bus, w64 (max w a))
      | none =>
        if x.perm = 0 && !isControl a then (ws.find? s.poisoned).map fun w => (0x09, w64 (max w a)) else none

/-- Reach of a scalar access, a vector access, a queue entry read or written, and the lane descriptors. -/
def scalarReach (n : Nat) (load : Bool) : Reach :=
  { size := n, align := n, perm := if load then 0 else 1, load := load, ctrl := n = 4, bus := 0x08 }
def vectorReach (load : Bool) : Reach := { size := 64, align := 8, perm := if load then 0 else 1, load := load, ctrl := false, bus := 0x08 }
def entryReach (read : Bool) : Reach := { size := 32, align := 32, perm := if read then 0 else 1, load := false, ctrl := false, bus := 0x08 }
def descReach : Reach := { entryReach true with bus := 0x07 }

/-- An access with its checks: the exception, or the body; a poisoned word counts (R520). -/
def State.checked (s : State) (c : Nat) (word : Word) (x : Reach) (a : Nat) (body : InsRes) : InsRes :=
  match s.dataFault c word x a with
  | some (code, ev) => .exc (if code = 0x09 then s.poisonRead else s) code ev
  | none => body

/-- The effective address (R411). -/
def Core.effAddr (k : Core) (rb : Rg) (off : BitVec 12) (size : Nat) : Nat :=
  (k.gs rb + off.signExtend 64 * w64 size).toNat

/-! ## Scalar loads and stores -/

/-- A loaded value of `n` bytes as 64 bits. -/
def extendTo64 (n : Nat) (signed : Bool) (v : Nat) : DWord := if signed then BitVec.ofInt 64 (signedOf (8 * n) v) else w64 v

/-- A load of `n` bytes; of a control register, with the effects of its read. -/
def State.load (s : State) (c : CoreId) (i : Instr) (n : Nat) (signed : Bool) (rt rb : Rg) (off : BitVec 12) : Out :=
  let w := encode i
  .next (s.runIns c w 2 fun s =>
    let a := (s.core c.val).effAddr rb off n
    s.checked c.val w (scalarReach n true) a
      (if isControl a then
        let r := s.devRead (.core c) (ctrlOff a)
        r.1.onCore c fun k => k.setGs rt (extendTo64 n signed r.2.toNat)
      else s.onCore c fun k => k.setGs rt (extendTo64 n signed (s.rdLe a n))))

/-- A store of `n` bytes. A write of a control register may stop or restart the core itself: the PC advances before it. -/
def State.store (s : State) (c : CoreId) (i : Instr) (n : Nat) (rt rb : Rg) (off : BitVec 12) : Out :=
  let w := encode i
  .next (s.runIns c w 2 fun s =>
    let k := s.core c.val
    let a := k.effAddr rb off n
    let v := (k.gs rt).toNat % 2 ^ (8 * n)
    s.checked c.val w (scalarReach n false) a
      (if isControl a then .stay ((s.setPc c.val (k.pc + 4)).devWrite (.core c) (ctrlOff a) v) true
      else .ok (s.wrLe a n v)))

/-- LD8S (R411). -/
def execLd8s (c : CoreId) (rt rb : Rg) (off : BitVec 12) (s : State) : Out := s.load c (.ld8s c rt rb off) 1 true rt rb off
/-- LD16S (R411). -/
def execLd16s (c : CoreId) (rt rb : Rg) (off : BitVec 12) (s : State) : Out := s.load c (.ld16s c rt rb off) 2 true rt rb off
/-- LD32S (R411). -/
def execLd32s (c : CoreId) (rt rb : Rg) (off : BitVec 12) (s : State) : Out := s.load c (.ld32s c rt rb off) 4 true rt rb off
/-- LD64 (R411). -/
def execLd64 (c : CoreId) (rt rb : Rg) (off : BitVec 12) (s : State) : Out := s.load c (.ld64 c rt rb off) 8 false rt rb off
/-- LD8U (R411). -/
def execLd8u (c : CoreId) (rt rb : Rg) (off : BitVec 12) (s : State) : Out := s.load c (.ld8u c rt rb off) 1 false rt rb off
/-- LD16U (R411). -/
def execLd16u (c : CoreId) (rt rb : Rg) (off : BitVec 12) (s : State) : Out := s.load c (.ld16u c rt rb off) 2 false rt rb off
/-- LD32U (R411). -/
def execLd32u (c : CoreId) (rt rb : Rg) (off : BitVec 12) (s : State) : Out := s.load c (.ld32u c rt rb off) 4 false rt rb off
/-- ST8 (R411). -/
def execSt8 (c : CoreId) (rt rb : Rg) (off : BitVec 12) (s : State) : Out := s.store c (.st8 c rt rb off) 1 rt rb off
/-- ST16 (R411). -/
def execSt16 (c : CoreId) (rt rb : Rg) (off : BitVec 12) (s : State) : Out := s.store c (.st16 c rt rb off) 2 rt rb off
/-- ST32 (R411). -/
def execSt32 (c : CoreId) (rt rb : Rg) (off : BitVec 12) (s : State) : Out := s.store c (.st32 c rt rb off) 4 rt rb off
/-- ST64 (R411). -/
def execSt64 (c : CoreId) (rt rb : Rg) (off : BitVec 12) (s : State) : Out := s.store c (.st64 c rt rb off) 8 rt rb off

/-! ## Vector loads and stores (R379, R411) -/

/-- The lane in 8 bytes: re first, present. -/
def State.laneAt (s : State) (a : Nat) : Lane := ⟨w32 (s.rdLe a 4), w32 (s.rdLe (a + 4) 4), true⟩

/-- VLD (R411): every lane is written present. -/
def execVld (c : CoreId) (vt rb : Rg) (off : BitVec 12) (s : State) : Out :=
  let w := encode (.vld c vt rb off)
  .next (s.runIns c w 2 fun s =>
    let a := (s.core c.val).effAddr rb off 8
    s.checked c.val w (vectorReach true) a
      (s.onCore c fun k => (List.range 8).foldl (fun k l => k.setLane vt l (s.laneAt (a + 8 * l))) k))

/-- The 8 bytes of a lane. -/
def laneBytes (x : Lane) : List Byte := leBytes 4 x.re.toNat ++ leBytes 4 x.im.toNat

/-- VST (R411): all 8 lanes, or none. -/
def execVst (c : CoreId) (vt rb : Rg) (off : BitVec 12) (s : State) : Out :=
  let w := encode (.vst c vt rb off)
  .next (s.runIns c w 2 fun s =>
    let k := s.core c.val
    let a := k.effAddr rb off 8
    s.checked c.val w (vectorReach false) a (.ok (s.wrBytes a ((List.range 8).flatMap fun l => laneBytes (k.lane vt l)))))

/-! ## The bound Set (R378, R421 to R423) -/

/-- What stands between an instruction and its result: the address of a poisoned word, or no access to the Set. -/
inductive SetBar where
  | poison (a : Nat)
  | access
  deriving DecidableEq, Repr

/-- Why the record in SETBASE cannot be read (R378, R423): poison in a word of its header, no bound Set, STATE open, or a place
taken by a later Set. -/
def State.setBar (s : State) (k : Core) : Option SetBar :=
  let b := k.setbase.toNat
  if !k.bound then some .access
  else
    match [b, b + 0x20, b + 0x70].find? s.poisoned with
    | some a => some (.poison a)
    | none => if s.rdByte (b + 0x74) = 0 || s.rdLe b 8 != k.ttag.toNat then some .access else none

/-- The slot of a stream in a record: poison met on the way, or its address; none when the stream is no member (R206). -/
def State.findSlot (s : State) (stream a : Nat) : Nat → SetBar ⊕ Option Nat
  | 0 => .inr none
  | n + 1 =>
    if s.poisoned (a + 0x18) then .inl (.poison (a + 0x18))
    else if s.rdLe (a + 0x1C) 4 % 2 ^ 14 = stream then .inr (some a)
    else s.findSlot stream (a + 32 + 8 * (s.rdByte (a + 0x1B)).toNat) n

/-- The slot of a stream in the bound record. -/
def State.boundSlot (s : State) (k : Core) (stream : Nat) : SetBar ⊕ Option Nat :=
  let b := k.setbase.toNat
  s.findSlot stream (b + 0x80) (s.rdLe (b + 0x20) 4)

/-- The slot reads as empty through the view: not placed, or placed after the provisional release (R184). -/
def State.slotEmpty (s : State) (k : Core) (a : Nat) : Bool :=
  let f := (s.rdByte (a + 0x1A)).toNat
  !bitOf f 0 || (bitOf f 1 && !k.setctx.toNat.testBit 0)

/-- One lane of SETLD from its descriptor (R421). -/
def State.setLane (s : State) (k : Core) (d : Nat) : SetBar ⊕ Lane :=
  if !bitOf d 31 || bitsOf d 30 22 != 0 || bitsOf d 15 14 != 0 then .inr laneAbsent
  else
    let ch := bitsOf d 21 16
    match s.boundSlot k (bitsOf d 13 0) with
    | .inl b => .inl b
    | .inr none => .inr laneAbsent
    | .inr (some a) =>
      if s.poisoned a then .inl (.poison a)
      else if s.slotEmpty k a || decide ((s.rdByte (a + 0x1B)).toNat ≤ ch) || !bitOf (s.rdLe a 8) ch then .inr laneAbsent
      else if s.poisoned (a + 0x20 + 8 * ch) then .inl (.poison (a + 0x20 + 8 * ch))
      else .inr (s.laneAt (a + 0x20 + 8 * ch))

/-- Lanes of SETLD in ascending order: the core with them, or the first bar. -/
def State.setLanes (s : State) (vd : Rg) (pg : Pr) (k0 : Core) (desc : Nat) : List Nat → Core → SetBar ⊕ Core
  | [], k => .inr k
  | l :: t, k =>
    if k0.prBit pg l then
      match s.setLane k0 (s.rdLe (desc + 4 * l) 4) with
      | .inl b => .inl b
      | .inr x => s.setLanes vd pg k0 desc t (k.setLane vd l x)
    else s.setLanes vd pg k0 desc t k

/-- The exception of a bar (R386, R423). -/
def State.setExc (s : State) (k : Core) : SetBar → InsRes
  | .poison a => .exc s.poisonRead 0x09 (w64 a)
  | .access => .exc s 0x0A k.setbase

/-- SETLD (R421). -/
def execSetld (c : CoreId) (vd sa : Rg) (pg : Pr) (s : State) : Out :=
  let w := encode (.setld c vd sa pg)
  .next (s.runIns c w 5 fun s =>
    let k := s.core c.val
    let a := (k.gs sa).toNat
    s.checked c.val w descReach a
      (match s.setBar k with
       | some b => s.setExc k b
       | none =>
         match s.setLanes vd pg k a (List.range 8) k with
         | .inl b => s.setExc k b
         | .inr k' => .ok (s.setCore c.val k')))

/-- The slot summary of R422. -/
def State.slotWord (s : State) (k : Core) (a : Nat) : Nat :=
  2 ^ 63 + (s.rdByte (a + 0x1B)).toNat * 2 ^ 24
    + (if s.slotEmpty k a then 0 else (s.rdByte (a + 0x1A)).toNat * 2 ^ 16 + s.rdLe (a + 0x18) 2)

/-- SETQ (R422). -/
def execSetq (c : CoreId) (sd sa : Rg) (s : State) : Out :=
  .next (s.runIns c (encode (.setq c sd sa)) 5 fun s =>
    let k := s.core c.val
    match s.setBar k with
    | some b => s.setExc k b
    | none =>
      match s.boundSlot k ((k.gs sa).toNat % 2 ^ 14) with
      | .inl b => s.setExc k b
      | .inr none => s.onCore c fun k => k.setGs sd 0
      | .inr (some a) => s.onCore c fun k => k.setGs sd (w64 (s.slotWord k a)))

/-! ## Queues (R425, R426) -/

/-- The queue an instruction names. -/
def Core.queueNo (k : Core) : QSel → Nat
  | .imm n => n.toNat
  | .reg r => (k.gs r).toNat % 256

/-- The 32 bytes of an entry. -/
def entryBytes (e : Entry) : List Byte := leBytes 32 e.toNat

/-- The end of a queue instruction: its status in s[rd], and event 0x0B when the result is not zero. -/
def State.queueEnd (s : State) (c : CoreId) (rd : Rg) (n result : Nat) (e : Option QEntry) : InsRes :=
  let k := s.core c.val
  let s := if result = 0 then s else s.coreEvent c.val 0x0B k.pl 6
  s.onCore c fun k => k.setGs rd (queueStatus (s.queue n).level result e)

/-- The entry delivered to memory. -/
def State.deliver (s : State) (a : Nat) (e : Option QEntry) : State :=
  match e with
  | some x => s.wrBytes a (entryBytes x.data)
  | none => s

/-- QPUSH (R425). -/
def execQpush (c : CoreId) (rd rs : Rg) (n : QSel) (first last : Bool) (s : State) : Out :=
  let w := encode (.qpush c rd rs n first last)
  .next (s.runIns c w 6 fun s =>
    let k := s.core c.val
    let a := (k.gs rs).toNat
    s.checked c.val w (entryReach true) a
      (let m := k.queueNo n
       let r := s.agentPush m c.val k.det (BitVec.ofNat 256 (s.rdLe a 32)) first last
       r.1.queueEnd c rd m r.2 none))

/-- QPOP (R425): the head entry is removed and written to memory. -/
def execQpop (c : CoreId) (rd rs : Rg) (n : QSel) (s : State) : Out :=
  let w := encode (.qpop c rd rs n)
  .next (s.runIns c w 6 fun s =>
    let k := s.core c.val
    let a := (k.gs rs).toNat
    s.checked c.val w (entryReach false) a
      (let m := k.queueNo n
       let r := s.pop m c.val
       (r.1.deliver a r.2.2).queueEnd c rd m r.2.1 r.2.2))

/-- QPEEK (R425): as QPOP, leaving the entry. -/
def execQpeek (c : CoreId) (rd rs : Rg) (n : QSel) (s : State) : Out :=
  let w := encode (.qpeek c rd rs n)
  .next (s.runIns c w 6 fun s =>
    let k := s.core c.val
    let a := (k.gs rs).toNat
    s.checked c.val w (entryReach false) a
      (let m := k.queueNo n
       let r := s.peek m c.val
       (r.1.deliver a r.2.2).queueEnd c rd m r.2.1 r.2.2))

/-! ## Mailboxes and waits (R427, R428) -/

/-- DBELL (R427). -/
def execDbell (c : CoreId) (rd rs : Rg) (n : Byte) (b : BitVec 5) (s : State) : Out :=
  .next (s.runIns c (encode (.dbell c rd rs n b)) 6 fun s =>
    let k := s.core c.val
    let r := s.post n.toNat c.val (k.gs rs) b.toNat
    let t := if r.2 = 0 then r.1 else r.1.coreEvent c.val 0x0B k.pl 6
    t.onCore c fun k => k.setGs rd (w64 r.2))

/-- A set and unmasked doorbell bit of a core's own mailbox. -/
def State.bellHolds (s : State) (c : Nat) : Bool := s.irq (R.MBX_DB + 0x40 * c) (R.MBX_MASK + 0x40 * c)

/-- The queue holds an entry. -/
def State.queueHolds (s : State) (n : Nat) : Bool := !(s.queue n).entries.isEmpty

/-- A WAITEV with its event and the run state in which it waits. Entry to the wait kicks the watchdog (R519). -/
def State.waitev (s : State) (c : CoreId) (i : Instr) (rd rs : Rg) (holds : State → Bool) (wait : Nat → Nat → Word → CoreRun) :
    Out :=
  let w := encode i
  .next (s.runIns c w 6 fun s =>
    let k := s.core c.val
    let us := (k.gs rs).toNat % 2 ^ 32
    if k.det && us != 0 then .exc s 0x05 (wordEval w)
    else if holds s then s.onCore c fun k => k.setGs rd 0
    else .stay (s.setCore c.val { k with run := wait s.now us w, kickAt := s.now, wdogWarned := false }) false)

/-- WAITEV.D (R428). -/
def execWaitevD (c : CoreId) (rd rs : Rg) (s : State) : Out :=
  s.waitev c (.waitevD c rd rs) rd rs (fun s => s.bellHolds c.val) fun t us w => .waitD t us rd w

/-- WAITEV.Q (R428). -/
def execWaitevQ (c : CoreId) (rd rs : Rg) (n : Byte) (s : State) : Out :=
  s.waitev c (.waitevQ c rd rs n) rd rs (fun s => s.queueHolds n.toNat) fun t us w => .waitQ n.toNat t us rd w

/-- A wait ends with its result: the instruction completes. -/
def State.endWait (s : State) (c : CoreId) (rd : Rg) (word : Word) (result : DWord) : State :=
  let k := s.core c.val
  (s.setCore c.val { k.setGs rd result with run := .run, pc := k.pc + 4 }).completed k c.val (s.coreClk c.val) word 6

/-- WAITEV_EVENT (R428): the awaited event holds. -/
def execWaitevEvent (c : CoreId) (s : State) : Out :=
  match (s.core c.val).run with
  | .waitD _ _ rd w => .next (if s.bellHolds c.val then s.endWait c rd w 0 else s)
  | .waitQ n _ _ rd w => .next (if s.queueHolds n then s.endWait c rd w 0 else s)
  | _ => .next s

/-- The timeout of a wait has passed; zero means none. -/
def State.waitOver (s : State) (t0 us : Nat) : Bool := us != 0 && decide (us * clkPerUs ≤ s.now - t0)

/-- WAITEV_TIMEOUT (R428). -/
def execWaitevTimeout (c : CoreId) (dt : Nat) (s : State) : Out :=
  let s := s.elapse dt
  match (s.core c.val).run with
  | .waitD t0 us rd w => .next (if s.waitOver t0 us then s.endWait c rd w 2 else s)
  | .waitQ _ t0 us rd w => .next (if s.waitOver t0 us then s.endWait c rd w 2 else s)
  | _ => .next s

end Sys2Proof.Machine
end

