-- ==== Sys2Proof/Machine/SaporSys.lean ====
section
/-!
DEFINITION. Control words, SYSCALL, ERET, MODEREQ and FENCE (R429 to R431), and what begins, ends and interrupts the code on a
core (R383, R384, R387, R403).
-/

namespace Sys2Proof.Machine

/-! ## Control words (R380) -/

/-- Control words that DET forbids to read: CORE_ID, CLK and GTIME (R399). -/
def cwLocal (n : Nat) : Bool := n = 0x10 || n = 0x20 || n = 0x21

/-- CWR (R429). -/
def execCwr (c : CoreId) (rd : Rg) (cw : BitVec 10) (s : State) : Out :=
  let w := encode (.cwr c rd cw)
  .next (s.runIns c w 7 fun s =>
    let k := s.core c.val
    if !cwListed cw.toNat then .exc s 0x03 (wordEval w)
    else if !k.atS && cwSOnly cw.toNat then .exc s 0x04 (wordEval w)
    else if k.det && cwLocal cw.toNat then .exc s 0x05 (wordEval w)
    else s.onCore c fun k => k.setGs rd (s.cwRead c.val cw.toNat))

/-- The start of a record in the Set ring of a Grove. -/
def State.isRecord (s : State) (a g : Nat) : Bool :=
  let u := s.gfld g F.GLD_RECSIZE.UNITS * 64
  let b := dramStart + (s.setRing g 0).1
  decide (b ≤ a) && (a - b) % u = 0 && decide (a < b + s.gfld g F.GLD_STORE_RECORDS.N * u)

/-- The running Grove in whose Set ring a record starts. -/
def State.recordGrove (s : State) (a : Nat) : Option Nat :=
  (List.range 64).find? fun g =>
    ((s.grove g).run = .running || (s.grove g).run = .stopping) && s.isRecord a g

/-- A Set bound: TTAG and SETCTX.GROVE come from the record header (R380). -/
def Core.bind (k : Core) (a ttag grove : Nat) : Core :=
  { k with setbase := w64 a, ttag := w64 ttag, setctx := w32 (grove % 64 * 2 ^ 8 + k.setctx.toNat % 2), bound := true }

/-- A write of SETBASE. It raises the Set-access exception alone (R432): from an uncorrectable word TTAG takes a free value and GROVE
is the ring's own (log 31); the instructions that read the record meet the word themselves. -/
def State.setbaseWrite (s : State) (c : CoreId) (v : Nat) : InsRes :=
  let k := s.core c.val
  match s.recordGrove v with
  | none => .exc s 0x0A k.setbase
  | some g =>
    let grove := if s.poisoned (v + 0x10) then g else (s.rdByte (v + 0x14)).toNat
    let s := if s.poisoned v || s.poisoned (v + 0x10) then s.poisonRead else s
    if s.poisoned v then s.useFree.onCore c fun k => k.bind v s.freeVal.toNat grove
    else s.onCore c fun k => k.bind v (s.rdLe v 8) grove

/-- A write at P touches only what P may write: SETBASE, FFLAGS, and SETCTX with GROVE as it is (R380). -/
def Core.pMayWrite (k : Core) (n : Nat) (v : DWord) : Bool :=
  n = 0x13 || n = 0x18 || (n = 0x14 && bitsOf v.toNat 13 8 = bitsOf k.setctx.toNat 13 8)

/-- A reserved value for a REGIONn word: the word keeps its value and the write is reported refused (R19, R71, R382). The offset of a
control word is not stated: a free value (log 31). -/
def State.regionRefused (s : State) (c : CoreId) : State := s.useFree.refuse (.core c) 1 (s.freeVal.toNat % 2 ^ 21)

/-- CWW (R429). -/
def execCww (c : CoreId) (rs1 : Rg) (cw : BitVec 10) (s : State) : Out :=
  let w := encode (.cww c rs1 cw)
  .next (s.runIns c w 7 fun s =>
    let k := s.core c.val
    let v := k.gs rs1
    if !cwListed cw.toNat then .exc s 0x03 (wordEval w)
    else if !k.atS && !k.pMayWrite cw.toNat v then .exc s 0x04 (wordEval w)
    else if cw.toNat = 0x13 then s.setbaseWrite c v.toNat
    else if 0x30 ≤ cw.toNat ∧ cw.toNat ≤ 0x37 ∧ !regionLegal v then .ok (s.regionRefused c)
    else s.onCore c fun k => k.cwWrite c.val cw.toNat v)

/-! ## SYSCALL, ERET, MODEREQ and FENCE -/

/-- SYSCALL (R384, R430): at P with code 0 the task ends, else the SYSCALL exception. -/
def execSyscall (c : CoreId) (code : BitVec 14) (s : State) : Out :=
  .next (s.runIns c (encode (.syscall c code)) 7 fun s =>
    if !(s.core c.val).atS && code = 0 then .stay (s.endTask c.val) true else .exc s 0x0B (w64 code.toNat))

/-- ERET finds an eligible interrupt at the state it would restore, in an interrupt handler: it tail-chains (R477). -/
def State.tailChains (s : State) (c : Nat) : Bool :=
  let k := s.core c
  k.cause.toNat.testBit 31 && statusIe k.estatus && !statusExl k.estatus && (s.winner c).isSome

/-- The tail-chained entry: at EVEC + 0x40, with EPC and ESTATUS unchanged and EXL one. -/
def State.tailChain (s : State) (c : Nat) : InsRes :=
  let k := s.core c
  let s := s.setCore c { k with status := handlerStatus c true, cause := w32 (2 ^ 31) }
  .jump ((s.bump R.IC_U_TAILCHAINS).coreEvent c 0x08 k.pl 0) (k.evec + 0x40)

/-- ERET (R387, R477). -/
def execEret (c : CoreId) (s : State) : Out :=
  let w := encode (.eret c)
  .next (s.runIns c w 7 fun s =>
    let k := s.core c.val
    if !k.atS then .exc s 0x04 (wordEval w)
    else if s.tailChains c.val then s.tailChain c.val
    else .jump (s.setCore c.val (k.eretTo c.val)) k.epc)

/-- The authority for a request through MODEREQ: the command at the address given, else one held (R541). -/
def State.modereqAuth (s : State) (q target addr : Nat) : State × Bool :=
  let needs := match modeOf target with | some m => needsSignature m s.sys.mode && requestFrom m s.sys.mode | none => false
  if !needs || s.sys.trans.isSome || s.sys.warnAt.isSome then (s, false)
  else
    let a := if addr = 0 then (s, false) else s.authAt q target addr
    if a.2 then a else a.1.useAuth q target

/-- MODEREQ (R431): illegal but on a Supervisor Core. -/
def execModereq (c : CoreId) (rd rs1 : Rg) (s : State) : Out :=
  let w := encode (.modereq c rd rs1)
  .next (s.runIns c w 7 fun s =>
    let k := s.core c.val
    if c.val < 16 || c.val = 20 then .exc s 0x03 (wordEval w)
    else if !k.atS then .exc s 0x04 (wordEval w)
    else
      let v := (k.gs rs1).toNat
      let a := s.modereqAuth c.val (v % 16) (bitsOf v 39 6 * 64)
      let r := a.1.modeRequest c.val true a.2 (v % 16)
      r.1.onCore c fun k => k.setGs rd (w64 r.2))

/-- A FENCE: commands run one after another, so every order it asks for already holds (R392). -/
def State.fence (s : State) (c : CoreId) (i : Instr) : Out := .next (s.runIns c (encode i) 7 fun s => .ok s)

/-- FENCE.MEM (R392). -/
def execFenceMem (c : CoreId) (s : State) : Out := s.fence c (.fenceMem c)
/-- FENCE.ST (R392). -/
def execFenceSt (c : CoreId) (s : State) : Out := s.fence c (.fenceSt c)
/-- FENCE.LD (R392). -/
def execFenceLd (c : CoreId) (s : State) : Out := s.fence c (.fenceLd c)
/-- FENCE.CTL (R392). -/
def execFenceCtl (c : CoreId) (s : State) : Out := s.fence c (.fenceCtl c)
/-- FENCE.ALL (R392). -/
def execFenceAll (c : CoreId) (s : State) : Out := s.fence c (.fenceAll c)
/-- FENCE.EXEC (R392): the word of an instruction comes with its command, so nothing fetched is held. -/
def execFenceExec (c : CoreId) (s : State) : Out := s.fence c (.fenceExec c)

/-! ## Begin, end and interruption -/

/-- TASK_BEGIN (R383): a core given a task begins it; carried memory whose key has come to its boundary is copied first (R500). -/
def execTaskBegin (c : CoreId) (s : State) : Out :=
  let t := s.copyCarry.beginTask c.val
  .next (if (s.core c.val).given.isSome && (t.core c.val).given.isNone then t.coreEvent c.val 0x09 0 0 else t)

/-- TASK_END (R384): the core executes SYSCALL with immediate 0 at P. -/
def execTaskEnd (c : CoreId) (s : State) : Out :=
  if (s.core c.val).atS then .next s
  else .next (s.runIns c (encode (.syscall c 0)) 7 fun s => .stay (s.endTask c.val) true)

/-- ILLEGAL_INSTRUCTION (R403): a core meets a word that spells no instruction. -/
def execIllegalInstruction (c : CoreId) (word : Word) (s : State) : Out :=
  if legalWord c word then .next s
  else .next (s.runIns c word 7 fun s => .exc s 0x03 (wordEval word))

/-- The core is at an instruction boundary, or waits. -/
def Core.atBoundary (k : Core) : Bool := k.run = .run || k.waiting

/-- INTERRUPT_TAKEN (R387, R389, R471): an interrupt that the controller presents; a stopped Stream Engine clock is requested
first (R34). -/
def execInterruptTaken (c : CoreId) (s : State) : Out :=
  if !s.presents c.val || !(s.core c.val).atBoundary then .next s
  else if !s.clocked c.val then .next s.pllRequest
  else .next (s.intEntry c.val)

end Sys2Proof.Machine
end

