-- ==== Sys2Proof/Machine/Blocks.lean ====
section
/-!
DEFINITION. Run controls and block resets (R67 to R70): stopping, the stop point, starting and resetting a block, and stopping and
starting a Grove.
-/

namespace Sys2Proof.Machine

/-! ## Blocks -/

/-- Offset of a block's CTRL register, whose bit 0 is RUN. -/
def blkCtrl : BlockId → Nat
  | .port p => R.NET_CTRL + netWin p.val
  | .flt => R.FLT_CTRL
  | .osc => R.OSC_CTRL
  | .isl => R.ISL_CTRL
  | .cap => R.CAP_CTRL
  | .acc => R.ACC_CTRL
  | .ing => R.ING_CTRL
  | .gld => R.GLD_CTRL
  | .tim => R.TIM_CTRL
  | .alm => R.ALM_CTRL
  | .xng => R.XNG_CTRL

/-- The block number (R607). -/
def blkNum (b : BlockId) : Nat := (blkCtrl b) / 0x10000

/-- A block's run control. -/
def blkRunCtl (b : BlockId) : RunCtl := (runCtl (blkCtrl b)).getD ⟨F.XNG_CTRL.RUN, F.XNG_STATUS.STOPPED, 3, none⟩

/-- The register belongs to the block: not to another port, a compare channel or a Grove, which are blocks of their own (R70, R71,
R173); the physical state of the Crossing stays with its lines. -/
def blkOwns (b : BlockId) (off : Nat) : Bool :=
  match b with
  | .port p => windowPort off = some p.val
  | .tim => off / 0x10000 = 6 && !(decide (0x060100 ≤ off) && decide (off < 0x060200))
  | .gld => off / 0x10000 = 7 && decide (off < 0x071000)
  | .xng => off / 0x10000 = 14 && off != R.XNG_STATUS
  | b => off / 0x10000 = (blkNum b)

/-- A register written with RUN as given and its other fields as they stand. -/
def State.withRun (s : State) (off : Nat) (run : Bool) : Nat := putBits (s.reg off).toNat 0 0 (b2n run)

/-! ## Stop and start (R68, R69) -/

/-- BLOCK_STOP (R68): a write of zero to a block's run control. -/
def execBlockStop (q : Req) (b : BlockId) (s : State) : Out := .next (s.busWrite q (blkCtrl b) (s.withRun (blkCtrl b) false))

/-- BLOCK_START (R68, R69): a write of one. -/
def execBlockStart (q : Req) (b : BlockId) (s : State) : Out := .next (s.busWrite q (blkCtrl b) (s.withRun (blkCtrl b) true))

/-- The block is at its stop point (R68): a port with no frame in transmission (R86), the Connectivity Engine with no recomputation
in progress (R292). The other blocks stop between items, and each item is a command of its own. -/
def State.atStopPoint (s : State) : BlockId → Bool
  | .port p => (s.port p.val).cur.isNone
  | .isl => s.isl.cur.isNone
  | _ => true

/-- BLOCK_STOPPED (R68, R69): STOPPED is set, and a resource of SYS_DEGRADED is named there in M4 and M7. -/
def execBlockStopped (b : BlockId) (s : State) : Out :=
  let c := (blkRunCtl b)
  if s.flag c.run || s.flag c.stopped || !s.atStopPoint b then .next s
  else .next ((s.setFld c.stopped 1).nameRun c.bit true)

/-- GROVE_STOP (R70): a write of zero to a Grove's RUN. -/
def execGroveStop (q : Req) (g : Grove) (s : State) : Out :=
  let off := R.GLD_G_CTRL + 0x40 * g.val
  .next (s.busWrite q off (s.withRun off false))

/-- GROVE_RUN (R179): a write of one to a Grove's RUN. -/
def execGroveRun (q : Req) (g : Grove) (s : State) : Out :=
  let off := R.GLD_G_CTRL + 0x40 * g.val
  .next (s.busWrite q off (s.withRun off true))

/-- TX_FLUSH (R95): a write of one to NET_CTRL.TX_FLUSH. -/
def execTxFlush (q : Req) (p : Port) (s : State) : Out :=
  let off := R.NET_CTRL + netWin p.val
  .next (s.busWrite q off ((s.reg off).toNat % 2 ^ 12 + 2 ^ 12))

/-! ## Block reset (R67, R527, R528; log 30) -/

/-- The registers and counters of a block take their Reset column and its tables are emptied. -/
def State.clearBlock (s : State) (b : BlockId) : State :=
  let tblOf (k : Nat) : Bool := (blkNum b) != 4 && k / 2 ^ 24 / 16 = (blkNum b)
  { s with
    regs := s.regs.filter fun x => !blkOwns b x.1
    bank := s.bank.filter fun x => !blkOwns b (x.1 % 0x200000)
    wide := s.wide.filter fun x => !(if x.1 < 2 ^ 32 then blkOwns b x.1 else (blkNum b) != 4 && cntBlock x.1 = (blkNum b))
    tbl := s.tbl.filter fun x => !tblOf x.1 }

/-- The C fields of a block and its tables are loaded again from the committed configuration. -/
def State.reloadBlock (s : State) (b : BlockId) : State :=
  let s := (s.mram.cfgRegs.filter fun x => blkOwns b x.1).foldl (fun s x =>
    s.setReg x.1 ((s.reg x.1 &&& w32 (2 ^ 32 - 1 - cfgMask x.1)) ||| x.2)) s
  let s := (s.mram.cfgTbl.filter fun x => (blkNum b) != 4 && x.1 / 2 ^ 24 / 16 = (blkNum b)).foldl (fun s x =>
    { s with tbl := mapSet tblReset s.tbl x.1 ((mapGet tblReset s.tbl x.1 &&& w32 (2 ^ 32 - 1 - cfgTblMask x.1)) ||| x.2) }) s
  if (blkNum b) = 5 then
    (s.tbl.filter fun x => x.1 / 2 ^ 24 = T.ING.Directory && x.1 % 32 = 0).foldl (fun s x =>
      s.setTf TF.ING.Directory.CFG_STATE (x.1 % 2 ^ 24 / 32) 1) s
  else s

/-- The timebase after its reset: Grid Time and its marks go on, the servo and the sources start again. -/
def Tim.servoReset (t : Tim) : Tim :=
  { Tim.reset with
    grid := t.grid, phase := t.phase, running := t.running, marked := t.marked, mark := t.mark, markTq := t.markTq,
    markAt := t.markAt, holdUntil := t.holdUntil, leapDone := t.leapDone, pulsed := t.pulsed, ppsOn := t.ppsOn }

/-- The engine's own state after a reset of its block: channels (R222), trackers and slots (R243), sequencers, the restored
accounting state (R362), the map record of a START (R278, R527). -/
def State.resetEngine (s : State) (b : BlockId) : State :=
  match b with
  | .port p =>
    let s := { s with ing := { s.ing with eth := s.ing.eth.filter fun e => e.port ≠ p.val } }
    (s.setPort p.val { (s.port p.val).physical with sas := (s.port p.val).sas }).showPhy p.val
  | .flt =>
    (s.usedEntries T.FLT.FilterChannel).foldl (fun s k => s.fltLoaded k true)
      { s with flt := Flt.reset, gld := { s.gld with fltWait := [] } }
  | .osc => s.oscReset
  | .isl => { s with isl := { Isl.reset with startDue := true }, gld := { s.gld with islWait := [] } }
  | .cap =>
    (s.validEntries T.CAP.Sequencer 0).foldl (fun s k => s.capEnabled k)
      { s with cap := { Cap.reset with nextId := s.cap.nextId }, gld := { s.gld with capWait := [] } }
  | .acc =>
    -- a pulse in progress ends with the state that timed it
    let s := { s with acc := Acc.reset, gld := { s.gld with accWait := [] }, alm := { s.alm with pulses := [] } }.accRestore
    (s.validEntries T.ACC.PulseInput 0).foldl (fun s n => s.pulseInEnabled n) s.refreshOutputs
  | .ing =>
    { s with ing := { s.ing with pend := [], conns := [], lastTag := [], rsvLast := [] } }
  | .gld => s
  | .tim => { s with tim := s.tim.servoReset }.utcEval.tqEval
  | .alm =>
    { s with alm := { Alm.reset with
        points := s.alm.points, lastSeq := s.alm.lastSeq, aseq := s.alm.aseq, fseq := s.alm.fseq, marked := s.alm.marked
        outs := s.alm.outs, pulses := s.alm.pulses, keepAt := s.now } }.refreshOutputs
  | .xng =>
    let x := s.xng
    { s with xng := { Xng.reset with eseq := x.eseq, via508 := x.via508, inStepAt := s.now } }.setXngState 0

/-- A block reset; its run control stays zero and the block stopped until it is started again. -/
def State.blockReset (s : State) (b : BlockId) : State :=
  let c := (blkRunCtl b)
  (((s.clearBlock b).reloadBlock b).setFld c.run 0).setFld c.stopped 1 |>.resetEngine b

/-- Why a block reset is refused: the cause of R71. -/
def State.resetBar (s : State) (q : Req) (b : BlockId) : Option Nat :=
  match s.barOf q false (blkCtrl b) with
  | some c => some c
  | none =>
    if s.sys.mode = .shadow && isJournalBlock (blkNum b) && reqIsSv q then some 3
    else if s.flag (blkRunCtl b).run then some 0
    else if !s.flag (blkRunCtl b).stopped then some 2
    else none

/-- A requester's access reaches the register, by the rules of R55 and R612. -/
def State.reaches (s : State) (q : Req) (off : Nat) : Bool :=
  match q with
  | .host => s.sys.mode != .keep && s.hostWrites off
  | .core c => s.coreAlive c.val

/-- BLOCK_RESET (R67): a write of the block's own reset field. -/
def execBlockReset (q : Req) (b : BlockId) (s : State) : Out :=
  if !s.reaches q (blkCtrl b) then .next (if q = .host && s.sys.mode != .keep then s.urDone else s)
  else
    match s.resetBar q b with
    | some c => .next (s.refuse q c (blkCtrl b))
    | none => .next (s.blockReset b)

end Sys2Proof.Machine
end

