-- ==== Sys2Proof/Machine/Rows.lean ====
section
/-!
DEFINITION. The commands that are one access to a register, the flits that carry accesses (R14, R32), and the commands of the
Roundabout, the interrupt controller and the Understory that stand over their operations.
-/

namespace Sys2Proof.Machine

/-! ## Accesses (R14 to R22, R32) -/

/-- REGISTER_WRITE (R20): an aligned 32-bit write. -/
def execRegisterWrite (q : Req) (off : Nat) (v : Word) (s : State) : Out := .next (s.busWrite q off v.toNat)

/-- A read that DET bars raises the exception of its load and reaches no block (R399). -/
def State.readBarred (s : State) (q : Req) (off : Nat) : Bool := s.reqDet q && detForbids (ctrlBase + off)

/-- The local-read exception of a core that executes; the row carries no instruction word, so EVAL is a free value (R386, log 31). -/
def State.localRead (s : State) : Req → State
  | .host => s
  | .core c => if (s.core c.val).run = .run then s.useFree.excEntry c.val 0x05 (w64 (s.freeVal.toNat % 2 ^ 32)) else s

/-- An aligned 32-bit read by a requester. -/
def State.rowRead (s : State) (q : Req) (off : Nat) : State := if s.readBarred q off then s.localRead q else s.busRead q off

/-- RC_READ (R17). No register of the map has an RC field: the read clears nothing. -/
def execRcRead (q : Req) (off : Nat) (s : State) : Out := .next (s.rowRead q off)

/-- LO_READ_LATCH (R22): the read of a LO register latches the HI half for its requester. -/
def execLoReadLatch (q : Req) (off : Nat) (s : State) : Out := .next (s.rowRead q off)

/-- BAD_WIDTH_ACCESS (R14): an access to the control register region at byte `addr` of it, `width` bytes wide, that is not an
aligned 32-bit one: the host sees an Unsupported Request, a core a bus error. -/
def execBadWidthAccess (q : Req) (addr width : Nat) (_write : Bool) (s : State) : Out :=
  if (width = 4 && addr % 4 = 0) || ctrlSize ≤ addr then .next s
  else
    match q with
    | .host => .next (if s.sys.mode = .keep then s else s.urDone)
    | .core c => .next (if (s.core c.val).run = .run then s.excEntry c.val 0x08 (w64 (ctrlBase + addr)) else s)

/-- FLIT_DELIVERED (R32, R518): a flit of a request by `req` leaves the ring. A single-bit error is corrected and counted; with a
double-bit error it is not delivered: a core takes a bus error, an engine poisons the word it wrote or read (R520). -/
def execFlitDelivered (req : Byte) (addr : Nat) (err : FlitErr) (s : State) : Out :=
  let q := req.toNat
  match err with
  | .clean => .next s
  | .single => .next ((s.detect 0x02 addr q).globalEvent 0x48 q (some addr) 0)
  | .double =>
    let s := s.detect 0x06 addr q
    if q < 21 then .next (if (s.core q).run = .run then s.excEntry q 0x08 (w64 addr) else s)
    else .next (if isMemory addr then s.poisonAt addr else s)

/-! ## Writes of chapter 02 -/

/-- MODE_REQUEST: a write of SYS_MODE_REQ (R59). -/
def execModeRequest (q : Req) (v : Word) (s : State) : Out := .next (s.busWrite q R.SYS_MODE_REQ v.toNat)

/-- UNIT_RESET: a write of SYS_RESET (R67, R76). -/
def execUnitReset (q : Req) (v : Word) (s : State) : Out := .next (s.busWrite q R.SYS_RESET v.toNat)

/-- CORE_RESET: a write of SYS_CORE_RESET (R67, R76). -/
def execCoreReset (q : Req) (v : Word) (s : State) : Out := .next (s.busWrite q R.SYS_CORE_RESET v.toNat)

/-- TEST_WDOG_KICK: a write of SYS_TEST_WDOG (R75). -/
def execTestWdogKick (q : Req) (v : Word) (s : State) : Out := .next (s.busWrite q R.SYS_TEST_WDOG v.toNat)

/-! ## Tables (R148), the pass buffer (R648) -/

/-- PASS_RELEASE (R648): a write of ING_PASS_RELEASE. -/
def execPassRelease (q : Req) (v : Word) (s : State) : Out := .next (s.busWrite q R.ING_PASS_RELEASE v.toNat)

/-- Blocks with table registers. -/
def hasTables (block : Nat) : Bool := tblAddrOff block != 0

/-- TABLE_READ (R148): a write of a block's TBL_CMD with OP read; TBL_ADDR names the entry. -/
def execTableRead (q : Req) (block : BitVec 5) (s : State) : Out :=
  if hasTables block.toNat then .next (s.busWrite q (tblAddrOff block.toNat + 4) 1) else .next s

/-- TABLE_WRITE (R148): with OP write; the data registers hold the entry. -/
def execTableWrite (q : Req) (block : BitVec 5) (s : State) : Out :=
  if hasTables block.toNat then .next (s.busWrite q (tblAddrOff block.toNat + 4) 2) else .next s

/-! ## Alarms and captures -/

/-- DECISION_CONTEXT (R299): a write of one of a core's five context registers. -/
def execDecisionContext (c : CoreId) (w : Fin 5) (v : Word) (s : State) : Out :=
  .next (s.busWrite (.core c) (R.ALM_DEC_CTX + 4 * w.val) v.toNat)

/-- DECIDE (R299): a write of ALM_DECIDE. -/
def execDecide (c : CoreId) (value : Bool) (point : BitVec 9) (s : State) : Out :=
  .next (s.busWrite (.core c) R.ALM_DECIDE (b2n value * 2 ^ 16 + point.toNat))

/-- DECISION_BATCH_DONE (R301): a write of ALM_DECIDE with DONE. -/
def execDecisionBatchDone (c : CoreId) (s : State) : Out := .next (s.busWrite (.core c) R.ALM_DECIDE (2 ^ 31))

/-- ALARM_ACK (R304): a write of ALM_ACK. -/
def execAlarmAck (q : Req) (p : BitVec 9) (s : State) : Out := .next (s.busWrite q R.ALM_ACK p.toNat)

/-- CAPTURE_TRIGGER (R324): a write of CAP_TRIGGER. -/
def execCaptureTrigger (q : Req) (v : Word) (s : State) : Out := .next (s.busWrite q R.CAP_TRIGGER v.toNat)

/-- CAPTURE_RELEASE (R338): a write of CAP_RELEASE_HI puts both halves into effect. -/
def execCaptureRelease (q : Req) (v : Word) (s : State) : Out := .next (s.busWrite q R.CAP_RELEASE_HI v.toNat)

/-! ## Roundabout, queues, mailboxes and locks (chapter 15) -/

/-- TASK_SUBMIT (R437, R438). -/
def execTaskSubmit (s : State) : Out := .next s.taskSubmit

/-- TASK_TRIGGER (R437, R438). -/
def execTaskTrigger (s : State) : Out := .next s.taskTrigger

/-- TASK_DISPATCH (R441): the dispatch step of a clk. -/
def execTaskDispatch (s : State) : Out := .next s.dispatch

/-- AFFINITY_WAIT_EXPIRE (R441): the dispatch step after the wait. -/
def execAffinityWaitExpire (dt : Nat) (s : State) : Out := .next (s.elapse dt).dispatch

/-- TASK_CANCEL (R442): a write of RBT_CANCEL. -/
def execTaskCancel (q : Req) (v : Word) (s : State) : Out := .next (s.busWrite q R.RBT_CANCEL v.toNat)

/-- QUEUE_FLUSH (R449): RBT_QCMD with OP flush. -/
def execQueueFlush (q : Req) (n : Byte) (s : State) : Out := .next (s.busWrite q R.RBT_QCMD (0x100 + n.toNat))

/-- QUEUE_RESET (R448): RBT_QCMD with OP reset. -/
def execQueueReset (q : Req) (n : Byte) (s : State) : Out := .next (s.busWrite q R.RBT_QCMD (0x200 + n.toNat))

/-- QUEUE_RESET_DONE (R448). -/
def execQueueResetDone (n : Byte) (s : State) : Out := .next (s.resetDone n.toNat)

/-- HOST_QUEUE_PUSH (R461): RBT_HQ_CMD with OP push. -/
def execHostQueuePush (n : Byte) (first last : Bool) (s : State) : Out :=
  .next (s.busWrite .host R.RBT_HQ_CMD (b2n first * 2 ^ 11 + b2n last * 2 ^ 10 + 0x100 + n.toNat))

/-- HOST_QUEUE_POP (R461). -/
def execHostQueuePop (n : Byte) (s : State) : Out := .next (s.busWrite .host R.RBT_HQ_CMD (0x200 + n.toNat))

/-- HOST_QUEUE_PEEK (R461). -/
def execHostQueuePeek (n : Byte) (s : State) : Out := .next (s.busWrite .host R.RBT_HQ_CMD (0x300 + n.toNat))

/-- HOST_MAILBOX_POST (R463): a write of MBX_HOST_CMD. -/
def execHostMailboxPost (m b : BitVec 5) (s : State) : Out :=
  .next (s.busWrite .host R.MBX_HOST_CMD (b.toNat * 2 ^ 8 + m.toNat))

/-- MAILBOX_POP (R455): a write of MBX_RX_POP. -/
def execMailboxPop (q : Req) (m : Mailbox) (v : Word) (s : State) : Out :=
  .next (s.busWrite q (R.MBX_RX_POP + 0x40 * m.val) v.toNat)

/-- LOCK_ACQUIRE (R458): a read of MBX_LOCKn. -/
def execLockAcquire (q : Req) (n : BitVec 6) (s : State) : Out := .next (s.rowRead q (R.MBX_LOCK + 4 * n.toNat))

/-- LOCK_RELEASE (R459): a write of MBX_LOCKn. -/
def execLockRelease (q : Req) (n : BitVec 6) (v : Word) (s : State) : Out :=
  .next (s.busWrite q (R.MBX_LOCK + 4 * n.toNat) v.toNat)

/-- LOCK_FORCE (R459): a write of MBX_LOCK_FORCE. -/
def execLockForce (q : Req) (v : Word) (s : State) : Out := .next (s.busWrite q R.MBX_LOCK_FORCE v.toNat)

/-- PEER_POST (R511): a write of XNG_POST_CMD. -/
def execPeerPost (q : Req) (bit : BitVec 5) (s : State) : Out := .next (s.busWrite q R.XNG_POST_CMD bit.toNat)

/-! ## Interrupt controller (chapter 16) -/

/-- SOURCE_INPUT (R468): the input of a source is sampled. -/
def execSourceInput (id : IcRef) (s : State) : Out := .next (s.sample (srcKeyOf id))

/-- MODERATION_RELEASE (R472). -/
def execModerationRelease (id : IcRef) (dt : Nat) (s : State) : Out := .next ((s.elapse dt).modRelease (srcKeyOf id))

/-- INTERRUPT_CLAIM (R473): a read of IC_CLAIM in the window of core `c`. -/
def execInterruptClaim (q : Req) (c : CoreId) (s : State) : Out := .next (s.rowRead q (R.IC_CLAIM + 0x400 * c.val))

/-- INTERRUPT_COMPLETE (R474): a write of IC_COMPLETE. -/
def execInterruptComplete (q : Req) (c : CoreId) (v : Word) (s : State) : Out :=
  .next (s.busWrite q (R.IC_COMPLETE + 0x400 * c.val) v.toNat)

/-! ## Fault collector (chapter 18) -/

/-- WATCHDOG_KICK (R519): a write of ERR_KICK. -/
def execWatchdogKick (q : Req) (v : Word) (s : State) : Out := .next (s.busWrite q R.ERR_KICK v.toNat)

/-- FAULT_LOG_POP (R522): a write of ERR_LOG_POP. -/
def execFaultLogPop (q : Req) (v : Word) (s : State) : Out := .next (s.busWrite q R.ERR_LOG_POP v.toNat)

/-- EPOCH_BREAK (R525): ERR_RECOVER with ACTION epoch break. -/
def execEpochBreak (q : Req) (key : BitVec 16) (s : State) : Out :=
  .next (s.busWrite q R.ERR_RECOVER (key.toNat * 2 ^ 16 + 1))

/-- RECOVERY_EXIT (R528): ERR_RECOVER with ACTION exit. -/
def execRecoveryExit (q : Req) (key : BitVec 16) (s : State) : Out :=
  .next (s.busWrite q R.ERR_RECOVER (key.toNat * 2 ^ 16 + 2))

/-- RSV_KICK (R529): a write of ERR_RSV_KICK. -/
def execRsvKick (q : Req) (v : Word) (s : State) : Out := .next (s.busWrite q R.ERR_RSV_KICK v.toNat)

/-- TASK_ABORT (R526): a write of ERR_ABORT. -/
def execTaskAbort (q : Req) (v : Word) (s : State) : Out := .next (s.busWrite q R.ERR_ABORT v.toNat)

/-- CORE_UP (R526): a write of ERR_CORE_UP. -/
def execCoreUp (q : Req) (v : Word) (s : State) : Out := .next (s.busWrite q R.ERR_CORE_UP v.toNat)

/-! ## Understory (chapter 20) -/

/-- BACKUP_SWITCH (R573): mains and the two backup voltages, in mV, are judged. -/
def execBackupSwitch (mains : Bool) (bat cap : Nat) (s : State) : Out := .next (s.backupSwitch mains bat cap)

/-- BACKUP_MEASURE (R594): every 10 s with the main domain powered. -/
def execBackupMeasure (bat cap dt : Nat) (s : State) : Out :=
  let s := s.elapse dt
  if s.sys.powerGood && decide (10 * 1200000000 ≤ s.now - s.und.measuredAt) then
    .next ({ s with und := { s.und with measuredAt := s.now } }.showVolts bat cap)
  else .next s

/-- FIRST_BAT_CLEAR (R574): a write of UND_FIRST_BAT_CLR. -/
def execFirstBatClear (q : Req) (v : Word) (s : State) : Out := .next (s.busWrite q R.UND_FIRST_BAT_CLR v.toNat)

/-- CHARGE_LEVEL (R575): the charger at a voltage of CAP, in mV. -/
def execChargeLevel (cap : Nat) (s : State) : Out := .next (s.chargeLevel cap)

/-- CALENDAR_TICK (R577): the second rolls over. -/
def execCalendarTick (dt : Nat) (s : State) : Out :=
  let s := s.elapse dt
  .next (if s.secondDue then s.calTick else s)

/-- CALENDAR_READ (R578): a read of UND_RTC_SUBSEC. -/
def execCalendarRead (q : Req) (s : State) : Out := .next (s.rowRead q R.UND_RTC_SUBSEC)

/-- CALENDAR_COMMIT (R579): a write of UND_RTC_SET_SEC. -/
def execCalendarCommit (q : Req) (v : Word) (s : State) : Out := .next (s.busWrite q R.UND_RTC_SET_SEC v.toNat)

/-- PERIODIC_WAKE (R585). -/
def execPeriodicWake (dt : Nat) (s : State) : Out :=
  let s := s.elapse dt
  .next (if s.wakeDue then s.wakeFire else s)

/-- RING_LOG_WRITE (R589). -/
def execRingLogWrite (s : State) : Out := .next s.ringWrite

/-- RING_LOG_COPY (R590): a write of UND_RL_INDEX. -/
def execRingLogCopy (q : Req) (v : Word) (s : State) : Out := .next (s.busWrite q R.UND_RL_INDEX v.toNat)

/-- RING_LOG_APPEND (R591): a write of UND_RL_APP_CMD. -/
def execRingLogAppend (q : Req) (v : Word) (s : State) : Out := .next (s.busWrite q R.UND_RL_APP_CMD v.toNat)

/-! ## Performance monitoring (chapter 21) -/

/-- FREEZE as it stands. -/
def State.freezeBit (s : State) : Nat := (s.reg R.PRF_CTRL).toNat % 2

/-- PERF_FREEZE (R600): a write of PRF_CTRL.FREEZE. -/
def execPerfFreeze (q : Req) (on : Bool) (s : State) : Out := .next (s.busWrite q R.PRF_CTRL (b2n on))

/-- PERF_SNAP (R600): with SNAP, FREEZE as it stands. -/
def execPerfSnap (q : Req) (s : State) : Out := .next (s.busWrite q R.PRF_CTRL (2 + s.freezeBit))

/-- PERF_RELEASE (R600): with RELEASE, FREEZE as it stands. -/
def execPerfRelease (q : Req) (s : State) : Out := .next (s.busWrite q R.PRF_CTRL (4 + s.freezeBit))

/-- Offset of COUNT_HI of a core's counter `k`, or of global counter `k`; a core has 8 counters. -/
def countHi (c : Option CoreId) (k : BitVec 5) : Nat :=
  match c with
  | some c => R.PRF_CNT_HI + 0x400 * c.val + 0x20 * (k.toNat % 8)
  | none => R.PRF_G_CNT_HI + 0x20 * k.toNat

/-- PERF_COUNTER_PRESET (R598): a write of COUNT_HI. -/
def execPerfCounterPreset (q : Req) (c : Option CoreId) (k : BitVec 5) (v : Word) (s : State) : Out :=
  .next (s.busWrite q (countHi c k) v.toNat)

end Sys2Proof.Machine
end

