-- ==== Sys2Proof/Machine/Dispatch.lean ====
section
/-!
DEFINITION. One arm per command: a direct call of its meaning, or its refusal by name.
-/

namespace Sys2Proof.Machine

/-- The effect of a command on everything but the queue. -/
def exec (i : Instr) (s : State) : Host.Outcome State Fault Refusal :=
  match i with
  | .registerWrite q off v => Sys2Proof.Machine.execRegisterWrite q off v s
  | .badWidthAccess q addr width write => Sys2Proof.Machine.execBadWidthAccess q addr width write s
  | .rcRead q off => Sys2Proof.Machine.execRcRead q off s
  | .loReadLatch q off => Sys2Proof.Machine.execLoReadLatch q off s
  | .flitDelivered req addr err => Sys2Proof.Machine.execFlitDelivered req addr err s
  | .pllStop dt => Sys2Proof.Machine.execPllStop dt s
  | .pllRestartDone dt => Sys2Proof.Machine.execPllRestartDone dt s
  | .mainsInRange dt => Sys2Proof.Machine.execMainsInRange dt s
  | .railsUp => Sys2Proof.Machine.execRailsUp s
  | .keeperResetRelease => Sys2Proof.Machine.execKeeperResetRelease s
  | .selfTestsDone ok => Sys2Proof.Machine.execSelfTestsDone ok s
  | .dramTrained => Sys2Proof.Machine.execDramTrained s
  | .firmwareVerified => Sys2Proof.Machine.execFirmwareVerified s
  | .imagesVerified => Sys2Proof.Machine.execImagesVerified s
  | .configLoaded => Sys2Proof.Machine.execConfigLoaded s
  | .modeRequest q v => Sys2Proof.Machine.execModeRequest q v s
  | .modeEntry => Sys2Proof.Machine.execModeEntry s
  | .powerFailWarning => Sys2Proof.Machine.execPowerFailWarning s
  | .powerFailOutputsSafe dt => Sys2Proof.Machine.execPowerFailOutputsSafe dt s
  | .powerGoodLost dt => Sys2Proof.Machine.execPowerGoodLost dt s
  | .unitReset q v => Sys2Proof.Machine.execUnitReset q v s
  | .backupLossReset => Sys2Proof.Machine.execBackupLossReset s
  | .coreReset q v => Sys2Proof.Machine.execCoreReset q v s
  | .blockReset q b => Sys2Proof.Machine.execBlockReset q b s
  | .blockStop q b => Sys2Proof.Machine.execBlockStop q b s
  | .blockStopped b => Sys2Proof.Machine.execBlockStopped b s
  | .blockStart q b => Sys2Proof.Machine.execBlockStart q b s
  | .groveStop q g => Sys2Proof.Machine.execGroveStop q g s
  | .groveRun q g => Sys2Proof.Machine.execGroveRun q g s
  | .injectDescriptor => Sys2Proof.Machine.execInjectDescriptor s
  | .injectFrame dt => Sys2Proof.Machine.execInjectFrame dt s
  | .testWdogKick q v => Sys2Proof.Machine.execTestWdogKick q v s
  | .testWdogExpire dt => Sys2Proof.Machine.execTestWdogExpire dt s
  | .rxFrame p pcsError wire dt => Sys2Proof.Machine.execRxFrame p pcsError wire dt s
  | .pauseTimerExpire p dt => Sys2Proof.Machine.execPauseTimerExpire p dt s
  | .pauseRefresh p dt => Sys2Proof.Machine.execPauseRefresh p dt s
  | .txSubmit p cls frame => Sys2Proof.Machine.execTxSubmit p cls frame s
  | .txStart p dt => Sys2Proof.Machine.execTxStart p dt s
  | .txDone p dt => Sys2Proof.Machine.execTxDone p dt s
  | .txFlush q p => Sys2Proof.Machine.execTxFlush q p s
  | .linkChange p up fec => Sys2Proof.Machine.execLinkChange p up fec s
  | .moduleInsert p present fits => Sys2Proof.Machine.execModuleInsert p present fits s
  | .parserFrameIn dt => Sys2Proof.Machine.execParserFrameIn dt s
  | .tcpAckTimer c dt => Sys2Proof.Machine.execTcpAckTimer c dt s
  | .frameAccept dt => Sys2Proof.Machine.execFrameAccept dt s
  | .passRelease q v => Sys2Proof.Machine.execPassRelease q v s
  | .tableRead q block => Sys2Proof.Machine.execTableRead q block s
  | .tableWrite q block => Sys2Proof.Machine.execTableWrite q block s
  | .ptpMessage => Sys2Proof.Machine.execPtpMessage s
  | .pdelayReqTimer p dt => Sys2Proof.Machine.execPdelayReqTimer p dt s
  | .followUpTimeout p dt => Sys2Proof.Machine.execFollowUpTimeout p dt s
  | .ptpSourceLost dt => Sys2Proof.Machine.execPtpSourceLost dt s
  | .ppsEdge dt => Sys2Proof.Machine.execPpsEdge dt s
  | .irigFrame f ago dt => Sys2Proof.Machine.execIrigFrame f ago dt s
  | .srcTimeout dt => Sys2Proof.Machine.execSrcTimeout dt s
  | .stepArmLapse dt => Sys2Proof.Machine.execStepArmLapse dt s
  | .timeMark dt => Sys2Proof.Machine.execTimeMark dt s
  | .timeQualityChange dt => Sys2Proof.Machine.execTimeQualityChange dt s
  | .leapSecond dt => Sys2Proof.Machine.execLeapSecond dt s
  | .calendarSync dt => Sys2Proof.Machine.execCalendarSync dt s
  | .ppsOutPulse dt => Sys2Proof.Machine.execPpsOutPulse dt s
  | .ppsOutEnd dt => Sys2Proof.Machine.execPpsOutEnd dt s
  | .cmpFire n dt => Sys2Proof.Machine.execCmpFire n dt s
  | .setReleased dt => Sys2Proof.Machine.execSetReleased dt s
  | .filterPass dt => Sys2Proof.Machine.execFilterPass dt s
  | .filterPassDone dt => Sys2Proof.Machine.execFilterPassDone dt s
  | .modeEnginePass dt => Sys2Proof.Machine.execModeEnginePass dt s
  | .trackerReport dt => Sys2Proof.Machine.execTrackerReport dt s
  | .spectrumDone dt => Sys2Proof.Machine.execSpectrumDone dt s
  | .islNoticeTaken dt => Sys2Proof.Machine.execIslNoticeTaken dt s
  | .islandRecomputeDone dt => Sys2Proof.Machine.execIslandRecomputeDone dt s
  | .decisionContext c w v => Sys2Proof.Machine.execDecisionContext c w v s
  | .decide c value point => Sys2Proof.Machine.execDecide c value point s
  | .decisionBatchDone c => Sys2Proof.Machine.execDecisionBatchDone c s
  | .alarmAck q p => Sys2Proof.Machine.execAlarmAck q p s
  | .alarmRecordNotice dt => Sys2Proof.Machine.execAlarmRecordNotice dt s
  | .alarmRepeat dt => Sys2Proof.Machine.execAlarmRepeat dt s
  | .alarmKeepalive dt => Sys2Proof.Machine.execAlarmKeepalive dt s
  | .minOnExpire dt => Sys2Proof.Machine.execMinOnExpire dt s
  | .publishFrame k dt => Sys2Proof.Machine.execPublishFrame k dt s
  | .captureNotice dt => Sys2Proof.Machine.execCaptureNotice dt s
  | .captureTrigger q v => Sys2Proof.Machine.execCaptureTrigger q v s
  | .captureRelease q v => Sys2Proof.Machine.execCaptureRelease q v s
  | .accNotice dt => Sys2Proof.Machine.execAccNotice dt s
  | .pulseStart n dt => Sys2Proof.Machine.execPulseStart n dt s
  | .pulseEnd n dt => Sys2Proof.Machine.execPulseEnd n dt s
  | .s0Pulse n samples dt => Sys2Proof.Machine.execS0Pulse n samples dt s
  | .periodicSave dt => Sys2Proof.Machine.execPeriodicSave dt s
  | .saveDone ok dt => Sys2Proof.Machine.execSaveDone ok dt s
  | .taskBegin c => Sys2Proof.Machine.execTaskBegin c s
  | .taskEnd c => Sys2Proof.Machine.execTaskEnd c s
  | .illegalInstruction c word => Sys2Proof.Machine.execIllegalInstruction c word s
  | .interruptTaken c => Sys2Proof.Machine.execInterruptTaken c s
  | .add c rd rs1 rs2 => Sys2Proof.Machine.execAdd c rd rs1 rs2 s
  | .sub c rd rs1 rs2 => Sys2Proof.Machine.execSub c rd rs1 rs2 s
  | .andS c rd rs1 rs2 => Sys2Proof.Machine.execAnd c rd rs1 rs2 s
  | .orS c rd rs1 rs2 => Sys2Proof.Machine.execOr c rd rs1 rs2 s
  | .xorS c rd rs1 rs2 => Sys2Proof.Machine.execXor c rd rs1 rs2 s
  | .andn c rd rs1 rs2 => Sys2Proof.Machine.execAndn c rd rs1 rs2 s
  | .shll c rd rs1 rs2 => Sys2Proof.Machine.execShll c rd rs1 rs2 s
  | .shrl c rd rs1 rs2 => Sys2Proof.Machine.execShrl c rd rs1 rs2 s
  | .shra c rd rs1 rs2 => Sys2Proof.Machine.execShra c rd rs1 rs2 s
  | .lts c rd rs1 rs2 => Sys2Proof.Machine.execLts c rd rs1 rs2 s
  | .ltu c rd rs1 rs2 => Sys2Proof.Machine.execLtu c rd rs1 rs2 s
  | .minS c rd rs1 rs2 => Sys2Proof.Machine.execMin c rd rs1 rs2 s
  | .maxS c rd rs1 rs2 => Sys2Proof.Machine.execMax c rd rs1 rs2 s
  | .minu c rd rs1 rs2 => Sys2Proof.Machine.execMinu c rd rs1 rs2 s
  | .maxu c rd rs1 rs2 => Sys2Proof.Machine.execMaxu c rd rs1 rs2 s
  | .mul c rd rs1 rs2 => Sys2Proof.Machine.execMul c rd rs1 rs2 s
  | .mulhis c rd rs1 rs2 => Sys2Proof.Machine.execMulhis c rd rs1 rs2 s
  | .mulhiu c rd rs1 rs2 => Sys2Proof.Machine.execMulhiu c rd rs1 rs2 s
  | .quos c rd rs1 rs2 => Sys2Proof.Machine.execQuos c rd rs1 rs2 s
  | .quou c rd rs1 rs2 => Sys2Proof.Machine.execQuou c rd rs1 rs2 s
  | .mods c rd rs1 rs2 => Sys2Proof.Machine.execMods c rd rs1 rs2 s
  | .modu c rd rs1 rs2 => Sys2Proof.Machine.execModu c rd rs1 rs2 s
  | .clz c rd rs1 => Sys2Proof.Machine.execClz c rd rs1 s
  | .ctz c rd rs1 => Sys2Proof.Machine.execCtz c rd rs1 s
  | .popc c rd rs1 => Sys2Proof.Machine.execPopc c rd rs1 s
  | .addi c rd rs1 imm => Sys2Proof.Machine.execAddi c rd rs1 imm s
  | .andi c rd rs1 imm => Sys2Proof.Machine.execAndi c rd rs1 imm s
  | .ori c rd rs1 imm => Sys2Proof.Machine.execOri c rd rs1 imm s
  | .xori c rd rs1 imm => Sys2Proof.Machine.execXori c rd rs1 imm s
  | .shlli c rd rs1 sh => Sys2Proof.Machine.execShlli c rd rs1 sh s
  | .shrli c rd rs1 sh => Sys2Proof.Machine.execShrli c rd rs1 sh s
  | .shrai c rd rs1 sh => Sys2Proof.Machine.execShrai c rd rs1 sh s
  | .ltsi c rd rs1 imm => Sys2Proof.Machine.execLtsi c rd rs1 imm s
  | .ltui c rd rs1 imm => Sys2Proof.Machine.execLtui c rd rs1 imm s
  | .ldhi c rd imm => Sys2Proof.Machine.execLdhi c rd imm s
  | .pchi c rd imm => Sys2Proof.Machine.execPchi c rd imm s
  | .jalr c rd rs1 imm => Sys2Proof.Machine.execJalr c rd rs1 imm s
  | .cvtif c rd rs1 f => Sys2Proof.Machine.execCvtif c rd rs1 f s
  | .cvtfi c rd rs1 f => Sys2Proof.Machine.execCvtfi c rd rs1 f s
  | .tcmp c rd rs1 rs2 => Sys2Proof.Machine.execTcmp c rd rs1 rs2 s
  | .tadd c rd rs1 rs2 => Sys2Proof.Machine.execTadd c rd rs1 rs2 s
  | .taddns c rd rs1 rs2 => Sys2Proof.Machine.execTaddns c rd rs1 rs2 s
  | .taddus c rd rs1 rs2 => Sys2Proof.Machine.execTaddus c rd rs1 rs2 s
  | .bz c rs off => Sys2Proof.Machine.execBz c rs off s
  | .bnz c rs off => Sys2Proof.Machine.execBnz c rs off s
  | .bltz c rs off => Sys2Proof.Machine.execBltz c rs off s
  | .bgez c rs off => Sys2Proof.Machine.execBgez c rs off s
  | .bp c all neg p off => Sys2Proof.Machine.execBp c all neg p off s
  | .jal c rd off => Sys2Proof.Machine.execJal c rd off s
  | .ld8s c rt rb off => Sys2Proof.Machine.execLd8s c rt rb off s
  | .ld16s c rt rb off => Sys2Proof.Machine.execLd16s c rt rb off s
  | .ld32s c rt rb off => Sys2Proof.Machine.execLd32s c rt rb off s
  | .ld64 c rt rb off => Sys2Proof.Machine.execLd64 c rt rb off s
  | .ld8u c rt rb off => Sys2Proof.Machine.execLd8u c rt rb off s
  | .ld16u c rt rb off => Sys2Proof.Machine.execLd16u c rt rb off s
  | .ld32u c rt rb off => Sys2Proof.Machine.execLd32u c rt rb off s
  | .st8 c rt rb off => Sys2Proof.Machine.execSt8 c rt rb off s
  | .st16 c rt rb off => Sys2Proof.Machine.execSt16 c rt rb off s
  | .st32 c rt rb off => Sys2Proof.Machine.execSt32 c rt rb off s
  | .st64 c rt rb off => Sys2Proof.Machine.execSt64 c rt rb off s
  | .vld c vt rb off => Sys2Proof.Machine.execVld c vt rb off s
  | .vst c vt rb off => Sys2Proof.Machine.execVst c vt rb off s
  | .cadd c vd va vb pg => Sys2Proof.Machine.execCadd c vd va vb pg s
  | .csub c vd va vb pg => Sys2Proof.Machine.execCsub c vd va vb pg s
  | .cmul c vd va vb pg => Sys2Proof.Machine.execCmul c vd va vb pg s
  | .cmac c vd va vb pg => Sys2Proof.Machine.execCmac c vd va vb pg s
  | .cconj c vd va pg => Sys2Proof.Machine.execCconj c vd va pg s
  | .cneg c vd va pg => Sys2Proof.Machine.execCneg c vd va pg s
  | .cabs c vd va pg => Sys2Proof.Machine.execCabs c vd va pg s
  | .carg c vd va pg => Sys2Proof.Machine.execCarg c vd va pg s
  | .crot c vd va vb pg => Sys2Proof.Machine.execCrot c vd va vb pg s
  | .adiff c vd va vb pg => Sys2Proof.Machine.execAdiff c vd va vb pg s
  | .fdev c vd va vb pg => Sys2Proof.Machine.execFdev c vd va vb pg s
  | .rdiv c vd va vb pg => Sys2Proof.Machine.execRdiv c vd va vb pg s
  | .rmin c vd va vb pg => Sys2Proof.Machine.execRmin c vd va vb pg s
  | .rmax c vd va vb pg => Sys2Proof.Machine.execRmax c vd va vb pg s
  | .vcvtif c vd va f pg => Sys2Proof.Machine.execVcvtif c vd va f pg s
  | .vcvtfi c vd va f pg => Sys2Proof.Machine.execVcvtfi c vd va f pg s
  | .vclt c pd va vb pg => Sys2Proof.Machine.execVclt c pd va vb pg s
  | .vcle c pd va vb pg => Sys2Proof.Machine.execVcle c pd va vb pg s
  | .vceq c pd va vb pg => Sys2Proof.Machine.execVceq c pd va vb pg s
  | .vmov c vd va pg => Sys2Proof.Machine.execVmov c vd va pg s
  | .vbcast c vd sa pg => Sys2Proof.Machine.execVbcast c vd sa pg s
  | .vins c vd sa lane => Sys2Proof.Machine.execVins c vd sa lane s
  | .vext c sd va lane pg => Sys2Proof.Machine.execVext c sd va lane pg s
  | .pgetp c pd va pg => Sys2Proof.Machine.execPgetp c pd va pg s
  | .psetp c vd pa pg => Sys2Proof.Machine.execPsetp c vd pa pg s
  | .pand c pd pa pb => Sys2Proof.Machine.execPand c pd pa pb s
  | .por c pd pa pb => Sys2Proof.Machine.execPor c pd pa pb s
  | .pxor c pd pa pb => Sys2Proof.Machine.execPxor c pd pa pb s
  | .pandn c pd pa pb => Sys2Proof.Machine.execPandn c pd pa pb s
  | .pmovs c sd pa => Sys2Proof.Machine.execPmovs c sd pa s
  | .pmovp c pd sa => Sys2Proof.Machine.execPmovp c pd sa s
  | .crsum c vd va sb pg => Sys2Proof.Machine.execCrsum c vd va sb pg s
  | .rrmax c vd va sb pg => Sys2Proof.Machine.execRrmax c vd va sb pg s
  | .rrmin c vd va sb pg => Sys2Proof.Machine.execRrmin c vd va sb pg s
  | .setld c vd sa pg => Sys2Proof.Machine.execSetld c vd sa pg s
  | .setq c sd sa => Sys2Proof.Machine.execSetq c sd sa s
  | .qpush c rd rs n first last => Sys2Proof.Machine.execQpush c rd rs n first last s
  | .qpop c rd rs n => Sys2Proof.Machine.execQpop c rd rs n s
  | .qpeek c rd rs n => Sys2Proof.Machine.execQpeek c rd rs n s
  | .dbell c rd rs n b => Sys2Proof.Machine.execDbell c rd rs n b s
  | .waitevD c rd rs => Sys2Proof.Machine.execWaitevD c rd rs s
  | .waitevQ c rd rs n => Sys2Proof.Machine.execWaitevQ c rd rs n s
  | .waitevEvent c => Sys2Proof.Machine.execWaitevEvent c s
  | .waitevTimeout c dt => Sys2Proof.Machine.execWaitevTimeout c dt s
  | .cwr c rd cw => Sys2Proof.Machine.execCwr c rd cw s
  | .cww c rs1 cw => Sys2Proof.Machine.execCww c rs1 cw s
  | .syscall c code => Sys2Proof.Machine.execSyscall c code s
  | .eret c => Sys2Proof.Machine.execEret c s
  | .modereq c rd rs1 => Sys2Proof.Machine.execModereq c rd rs1 s
  | .fenceMem c => Sys2Proof.Machine.execFenceMem c s
  | .fenceSt c => Sys2Proof.Machine.execFenceSt c s
  | .fenceLd c => Sys2Proof.Machine.execFenceLd c s
  | .fenceCtl c => Sys2Proof.Machine.execFenceCtl c s
  | .fenceAll c => Sys2Proof.Machine.execFenceAll c s
  | .fenceExec c => Sys2Proof.Machine.execFenceExec c s
  | .taskSubmit => Sys2Proof.Machine.execTaskSubmit s
  | .taskTrigger => Sys2Proof.Machine.execTaskTrigger s
  | .taskDispatch => Sys2Proof.Machine.execTaskDispatch s
  | .affinityWaitExpire dt => Sys2Proof.Machine.execAffinityWaitExpire dt s
  | .taskCancel q v => Sys2Proof.Machine.execTaskCancel q v s
  | .queueFlush q n => Sys2Proof.Machine.execQueueFlush q n s
  | .queueReset q n => Sys2Proof.Machine.execQueueReset q n s
  | .queueResetDone n => Sys2Proof.Machine.execQueueResetDone n s
  | .hostQueuePush n first last => Sys2Proof.Machine.execHostQueuePush n first last s
  | .hostQueuePop n => Sys2Proof.Machine.execHostQueuePop n s
  | .hostQueuePeek n => Sys2Proof.Machine.execHostQueuePeek n s
  | .hostMailboxPost m b => Sys2Proof.Machine.execHostMailboxPost m b s
  | .mailboxPop q m v => Sys2Proof.Machine.execMailboxPop q m v s
  | .lockAcquire q n => Sys2Proof.Machine.execLockAcquire q n s
  | .lockRelease q n v => Sys2Proof.Machine.execLockRelease q n v s
  | .lockForce q v => Sys2Proof.Machine.execLockForce q v s
  | .sourceInput id => Sys2Proof.Machine.execSourceInput id s
  | .moderationRelease id dt => Sys2Proof.Machine.execModerationRelease id dt s
  | .interruptClaim q c => Sys2Proof.Machine.execInterruptClaim q c s
  | .interruptComplete q c v => Sys2Proof.Machine.execInterruptComplete q c v s
  | .wakeSourceFired slot => Sys2Proof.Machine.execWakeSourceFired slot s
  | .xngFrame seq ack good msgs => Sys2Proof.Machine.execXngFrame seq ack good msgs s
  | .xngRetransmit => Sys2Proof.Machine.execXngRetransmit s
  | .heartbeatSend dt => Sys2Proof.Machine.execHeartbeatSend dt s
  | .heartbeatRx xpath => Sys2Proof.Machine.execHeartbeatRx xpath s
  | .pathDown dt => Sys2Proof.Machine.execPathDown dt s
  | .dutyInputChange a b => Sys2Proof.Machine.execDutyInputChange a b s
  | .pairEvaluate dt => Sys2Proof.Machine.execPairEvaluate dt s
  | .journalApply dt => Sys2Proof.Machine.execJournalApply dt s
  | .joinStart => Sys2Proof.Machine.execJoinStart s
  | .joinImageLoaded img => Sys2Proof.Machine.execJoinImageLoaded img s
  | .joinInStep dt => Sys2Proof.Machine.execJoinInStep dt s
  | .joinTimeout dt => Sys2Proof.Machine.execJoinTimeout dt s
  | .joinRetry dt => Sys2Proof.Machine.execJoinRetry dt s
  | .digestRx => Sys2Proof.Machine.execDigestRx s
  | .digestTimeout dt => Sys2Proof.Machine.execDigestTimeout dt s
  | .outputMarkRx => Sys2Proof.Machine.execOutputMarkRx s
  | .takeoverApplied => Sys2Proof.Machine.execTakeoverApplied s
  | .takeoverOutputs => Sys2Proof.Machine.execTakeoverOutputs s
  | .revertRequest dt => Sys2Proof.Machine.execRevertRequest dt s
  | .handoverTime dt => Sys2Proof.Machine.execHandoverTime dt s
  | .guardExpire dt => Sys2Proof.Machine.execGuardExpire dt s
  | .peerPost q bit => Sys2Proof.Machine.execPeerPost q bit s
  | .peerPostRx => Sys2Proof.Machine.execPeerPostRx s
  | .faultReport ext => Sys2Proof.Machine.execFaultReport ext s
  | .watchdogKick q v => Sys2Proof.Machine.execWatchdogKick q v s
  | .watchdogWarning c dt => Sys2Proof.Machine.execWatchdogWarning c dt s
  | .watchdogExpire c dt => Sys2Proof.Machine.execWatchdogExpire c dt s
  | .scrub addr e => Sys2Proof.Machine.execScrub addr e s
  | .streamReloadDone k => Sys2Proof.Machine.execStreamReloadDone k s
  | .faultLogPop q v => Sys2Proof.Machine.execFaultLogPop q v s
  | .epochBreak q key => Sys2Proof.Machine.execEpochBreak q key s
  | .recoveryExit q key => Sys2Proof.Machine.execRecoveryExit q key s
  | .rsvKick q v => Sys2Proof.Machine.execRsvKick q v s
  | .rsvTimeout dt => Sys2Proof.Machine.execRsvTimeout dt s
  | .taskAbort q v => Sys2Proof.Machine.execTaskAbort q v s
  | .coreUp q v => Sys2Proof.Machine.execCoreUp q v s
  | .lastResortReset dt => Sys2Proof.Machine.execLastResortReset dt s
  | .keeperRequest => Sys2Proof.Machine.execKeeperRequest s
  | .status => Sys2Proof.Machine.execStatus s
  | .selfTest ok => Sys2Proof.Machine.execSelfTest ok s
  | .attest => Sys2Proof.Machine.execAttest s
  | .extend => Sys2Proof.Machine.execExtend s
  | .ringRead => Sys2Proof.Machine.execRingRead s
  | .hash => Sys2Proof.Machine.execHash s
  | .verify => Sys2Proof.Machine.execVerify s
  | .genIdentity => Sys2Proof.Machine.execGenIdentity s
  | .installOwner => Sys2Proof.Machine.execInstallOwner s
  | .provisionDone => Sys2Proof.Machine.execProvisionDone s
  | .loadClear => Sys2Proof.Machine.execLoadClear s
  | .loadWrapped => Sys2Proof.Machine.execLoadWrapped s
  | .eraseSlot => Sys2Proof.Machine.execEraseSlot s
  | .installSak => Sys2Proof.Machine.execInstallSak s
  | .removeSak => Sys2Proof.Machine.execRemoveSak s
  | .loadRsv => Sys2Proof.Machine.execLoadRsv s
  | .removeRsv => Sys2Proof.Machine.execRemoveRsv s
  | .sign => Sys2Proof.Machine.execSign s
  | .mac => Sys2Proof.Machine.execMac s
  | .loadImage => Sys2Proof.Machine.execLoadImage s
  | .setFloor => Sys2Proof.Machine.execSetFloor s
  | .commitConfig => Sys2Proof.Machine.execCommitConfig s
  | .securityPolicy => Sys2Proof.Machine.execSecurityPolicy s
  | .modeAuth => Sys2Proof.Machine.execModeAuth s
  | .modeAuthExpire dt => Sys2Proof.Machine.execModeAuthExpire dt s
  | .admitStep => Sys2Proof.Machine.execAdmitStep s
  | .ringClear => Sys2Proof.Machine.execRingClear s
  | .ringClearDone => Sys2Proof.Machine.execRingClearDone s
  | .zeroize => Sys2Proof.Machine.execZeroize s
  | .remask dt => Sys2Proof.Machine.execRemask dt s
  | .tamperFire n => Sys2Proof.Machine.execTamperFire n s
  | .backupSwitch mains bat cap => Sys2Proof.Machine.execBackupSwitch mains bat cap s
  | .backupMeasure bat cap dt => Sys2Proof.Machine.execBackupMeasure bat cap dt s
  | .firstBatClear q v => Sys2Proof.Machine.execFirstBatClear q v s
  | .chargeLevel cap => Sys2Proof.Machine.execChargeLevel cap s
  | .calendarTick dt => Sys2Proof.Machine.execCalendarTick dt s
  | .calendarRead q => Sys2Proof.Machine.execCalendarRead q s
  | .calendarCommit q v => Sys2Proof.Machine.execCalendarCommit q v s
  | .periodicWake dt => Sys2Proof.Machine.execPeriodicWake dt s
  | .ringLogWrite => Sys2Proof.Machine.execRingLogWrite s
  | .ringLogCopy q v => Sys2Proof.Machine.execRingLogCopy q v s
  | .ringLogAppend q v => Sys2Proof.Machine.execRingLogAppend q v s
  | .perfFreeze q on => Sys2Proof.Machine.execPerfFreeze q on s
  | .perfSnap q => Sys2Proof.Machine.execPerfSnap q s
  | .perfRelease q => Sys2Proof.Machine.execPerfRelease q s
  | .perfCounterPreset q c k v => Sys2Proof.Machine.execPerfCounterPreset q c k v s
  | .hostRequest write off n partialBe data => Sys2Proof.Machine.execHostRequest write off n partialBe data s
  | .hostReset down => Sys2Proof.Machine.execHostReset down s
  | .hostWake v => Sys2Proof.Machine.execHostWake v s
  | .dpDataAccess q fifo write v => Sys2Proof.Machine.execDpDataAccess q fifo write v s
  | .dpReadBurst q count irq => Sys2Proof.Machine.execDpReadBurst q count irq s
  | .dpWriteBurst q count irq => Sys2Proof.Machine.execDpWriteBurst q count irq s
  | .dpBurstCancel q => Sys2Proof.Machine.execDpBurstCancel q s
  | .dpBurstDone k => Sys2Proof.Machine.execDpBurstDone k s
  | .flashPageProgrammed k => Sys2Proof.Machine.execFlashPageProgrammed k s
  | .dpErase q block => Sys2Proof.Machine.execDpErase q block s
  | .dpEraseDone k => Sys2Proof.Machine.execDpEraseDone k s
  | .bootTimewaitExpire dt => Sys2Proof.Machine.execBootTimewaitExpire dt s
  | .pairBootWaitExpire dt => Sys2Proof.Machine.execPairBootWaitExpire dt s
  | .crossingLinkChange up => Sys2Proof.Machine.execCrossingLinkChange up s
  | .peerPostResult => Sys2Proof.Machine.execPeerPostResult s
  | .hostLinkUp width gen => Sys2Proof.Machine.execHostLinkUp width gen s
  | .tamperSensorClear n => Sys2Proof.Machine.execTamperSensorClear n s

end Sys2Proof.Machine
end

