-- ==== Sys2Proof/Safety.lean ====
section
/-!
DEFINITION. What a safe run is, in the terms that statements use: the canonical form of memory, and states a run can stand in.
-/

namespace Sys2Proof.Safety

open Sys2Proof.Machine

/-- The machine goes on: a command answers a next state. -/
def Runs (i : Instr) (s : State) : Prop := ∃ t, exec i s = .next t

/-- Memory keeps its canonical form. -/
def MemoryOk (s : State) : Prop := Memory.wf s.mem = true

/-- Every byte of memory reads as before. -/
def SameMemory (s t : State) : Prop := ∀ a, t.rdByte a = s.rdByte a

/-- Every byte of memory outside `n` bytes from `lo` reads as before. -/
def SameOutside (s t : State) (lo n : Nat) : Prop := ∀ a, (a < lo ∨ lo + n ≤ a) → t.rdByte a = s.rdByte a

/-- Every other core stands as before. -/
def OtherCores (s t : State) (c : Nat) : Prop := ∀ d, d ≠ c → t.core d = s.core d

/-- The command answers a next state, of which `P` holds. -/
def Gives (i : Instr) (s : State) (P : State → Prop) : Prop := ∃ t, exec i s = .next t ∧ P t

/-- The core runs and the fetch at its PC meets no fault (R386). -/
def Executes (s : State) (c : CoreId) : Prop := (s.core c.val).run = .run ∧ s.fetchFault c.val = none

/-- The byte lies where the sampler of the core would put its next record (R602). -/
def InSample (s : State) (c : CoreId) (a : Nat) : Prop :=
  s.flag (F.PRF_S_CTRL.S_EN.at (0x400 * c.val)) = true ∧
    (let w := s.fld (F.PRF_S_WRITE.INDEX.at (0x400 * c.val)) % s.fld (F.PRF_S_SIZE.N.at (0x400 * c.val))
     s.sampBase c.val + 32 * w ≤ a ∧ a < s.sampBase c.val + 32 * w + 32)

/-- Two states agree on all but the cores, memory, poison, the performance monitor's registers and counters, and the index of
free values. -/
structure Apart (s t : State) : Prop where
  fields : t = { s with
    cores := t.cores, mem := t.mem, regs := t.regs, uregs := t.uregs, wide := t.wide, uwide := t.uwide, saturated := t.saturated,
    err := { s.err with poison := t.err.poison }, free := t.free }
  registers : ∀ off, off / 0x10000 ≠ 18 → t.reg off = s.reg off
  counters : ∀ k, cntBlock k ≠ 18 → t.cnt k = s.cnt k

/-- An instruction of a core completes: the core's registers become those of `k` (the sampler's own count apart), every other core
stands as it was, and so does every byte outside the `n` from `lo` and the sampler's record. -/
structure Retires (s t : State) (c : CoreId) (k : Core) (lo n : Nat) : Prop where
  core : { t.core c.val with sampleRun := k.sampleRun } = k
  others : OtherCores s t c.val
  memory : ∀ a, (a < lo ∨ lo + n ≤ a) → ¬ InSample s c a → t.rdByte a = s.rdByte a
  apart : Apart s t

end Sys2Proof.Safety
end

