-- ==== Sys2Proof/WellFormed.lean ====
section
/-!
DEFINITION. Which commands are well formed: operands in the ranges that the rules behind their rows give them. The machine gives
every command a meaning, well formed or not; encoding and the notion of a legal input are stated over the well-formed ones.
-/

namespace Sys2Proof

/-- A control register's offset: a word inside the region (R14, R605). -/
def wfOffset (off : Nat) : Bool := off % 4 = 0 && decide (off < Machine.ctrlSize)

/-- An access that R14 refuses: inside the region, and not an aligned 32-bit one. -/
def wfBadAccess (addr width : Nat) : Bool :=
  decide (0 < width) && decide (addr < Machine.ctrlSize) && !(width = 4 && addr % 4 = 0)

/-- Blocks that have table registers: RBT, and ING and GLD to XNG (R148). -/
def wfTableBlock (b : Nat) : Bool := b = 2 || b = 5 || (decide (7 ≤ b) && decide (b ≤ 14))

/-- A frame of a port, without FCS: 60 to 9,212 bytes (R82). -/
def wfFrame (n : Nat) : Bool := decide (60 ≤ n) && decide (n ≤ 9212)

/-- A join image keeps the canonical form of memory (R499). -/
def wfImage (img : Machine.JoinImage) : Bool := Machine.Memory.wf img.mem

/-- A source of the interrupt controller: any number of R465 is one. -/
def wfSource (id : IcRef) : Bool :=
  match id with
  | .priv c n => decide (c.val < 21) && decide (n.toNat < 64)
  | .shared n => decide (n.toNat < 512)

/-- A core with an alarm decision bank: SE0 to SV3 (R299). -/
def wfDecider (c : CoreId) : Bool := decide (c.val < 20)

/-- The command is well formed. -/
def wellFormed : Instr → Bool
  | .registerWrite _ off _ | .rcRead _ off | .loReadLatch _ off => wfOffset off
  | .badWidthAccess _ addr width _ => wfBadAccess addr width
  | .txSubmit _ _ frame => wfFrame frame.length
  | .irigFrame f _ _ => f.length = 100
  | .tableRead _ b | .tableWrite _ b => wfTableBlock b.toNat
  | .decisionContext c _ _ | .decide c _ _ | .decisionBatchDone c => wfDecider c
  | .vext _ _ _ _ pg => pg != 0
  | .cwr _ _ cw | .cww _ _ cw => cwListed cw.toNat
  | .modereq c _ _ => decide (16 ≤ c.val) && decide (c.val < 20)
  | .illegalInstruction c word => !legalWord c word
  | .taskAbort (.host) _ | .watchdogKick (.host) _ => false
  | .hostMailboxPost m _ => decide (m.toNat < 24)
  | .sourceInput id | .moderationRelease id _ => wfSource id
  | .joinImageLoaded img => wfImage img
  | .scrub addr _ => Machine.isMemory addr
  | .perfCounterPreset _ (some _) k _ => decide (k.toNat < 8)
  | .hostRequest write _ n _ data => write == false || data.length = n
  | .hostLinkUp width gen => (width = 1 || width = 2 || width = 4) && decide (1 ≤ gen) && decide (gen ≤ 4)
  | _ => true

end Sys2Proof
end

