-- ==== Sys2Proof/Certificates/Slice0/Obligations.lean ====
section
/-!
DEFINITION. The obligations: statements about the model that the provers prove or refute. They are drawn from the numbered rules of
the spec; what a statement rests on beside them is said in its docstring.
-/

open Sys2Proof Sys2Proof.Machine Sys2Proof.Safety

/-! ## Commands and the queue -/

/-- A step with a command at the front of the queue is that command on the state with the queue's rest (log 1). -/
def Obligations.StepRunsFront : Prop :=
  ∀ (s : State) (c : Instr) (l : List Instr), s.pending = c :: l → step s = exec c (s.withPending l)

/-- With an empty queue one Boulevard clk passes: local time advances by one and nothing outside time moves (log 1, 2). -/
def Obligations.StepIdles : Prop :=
  ∀ s : State, s.pending = [] → ∃ t, step s = .next t ∧ t.now = s.now + 1 ∧ t.pending = [] ∧ t.mem = s.mem ∧ t.cores = s.cores ∧
    t.regs = s.regs ∧ t.uregs = s.uregs ∧ t.tbl = s.tbl ∧ t.wide = s.wide ∧ t.out = s.out

/-! ## Sapor: integer, logical and time instructions -/

/-- Instructions that write one scalar register from the core's own registers: core, register, and the value the rules give. -/
def Sys2Proof.Safety.scalarOp : Instr → Option (CoreId × Rg × (Machine.Core → DWord))
  | .add c rd a b => some (c, rd, fun k => k.gs a + k.gs b)
  | .sub c rd a b => some (c, rd, fun k => k.gs a - k.gs b)
  | .andS c rd a b => some (c, rd, fun k => k.gs a &&& k.gs b)
  | .orS c rd a b => some (c, rd, fun k => k.gs a ||| k.gs b)
  | .xorS c rd a b => some (c, rd, fun k => k.gs a ^^^ k.gs b)
  | .andn c rd a b => some (c, rd, fun k => k.gs a &&& ~~~k.gs b)
  | .shll c rd a b => some (c, rd, fun k => if (k.gs b).toNat < 64 then k.gs a <<< (k.gs b).toNat else 0)
  | .shrl c rd a b => some (c, rd, fun k => if (k.gs b).toNat < 64 then k.gs a >>> (k.gs b).toNat else 0)
  | .shra c rd a b => some (c, rd, fun k =>
      if (k.gs b).toNat < 64 then (k.gs a).sshiftRight (k.gs b).toNat else if (k.gs a).msb then -1 else 0)
  | .lts c rd a b => some (c, rd, fun k => if (k.gs a).toInt < (k.gs b).toInt then 1 else 0)
  | .ltu c rd a b => some (c, rd, fun k => if (k.gs a).toNat < (k.gs b).toNat then 1 else 0)
  | .minS c rd a b => some (c, rd, fun k => if (k.gs a).toInt ≤ (k.gs b).toInt then k.gs a else k.gs b)
  | .maxS c rd a b => some (c, rd, fun k => if (k.gs a).toInt ≤ (k.gs b).toInt then k.gs b else k.gs a)
  | .minu c rd a b => some (c, rd, fun k => if (k.gs a).toNat ≤ (k.gs b).toNat then k.gs a else k.gs b)
  | .maxu c rd a b => some (c, rd, fun k => if (k.gs a).toNat ≤ (k.gs b).toNat then k.gs b else k.gs a)
  | .mul c rd a b => some (c, rd, fun k => k.gs a * k.gs b)
  | .mulhis c rd a b => some (c, rd, fun k => BitVec.ofInt 64 ((k.gs a).toInt * (k.gs b).toInt / 18446744073709551616))
  | .mulhiu c rd a b => some (c, rd, fun k => BitVec.ofNat 64 ((k.gs a).toNat * (k.gs b).toNat / 18446744073709551616))
  | .mods c rd a b => some (c, rd, fun k =>
      if k.gs b = 0 then 0 else BitVec.ofInt 64 ((k.gs a).toInt.tmod (k.gs b).toInt))
  | .modu c rd a b => some (c, rd, fun k => if k.gs b = 0 then 0 else BitVec.ofNat 64 ((k.gs a).toNat % (k.gs b).toNat))
  | .addi c rd a i => some (c, rd, fun k => k.gs a + i.signExtend 64)
  | .andi c rd a i => some (c, rd, fun k => k.gs a &&& i.setWidth 64)
  | .ori c rd a i => some (c, rd, fun k => k.gs a ||| i.setWidth 64)
  | .xori c rd a i => some (c, rd, fun k => k.gs a ^^^ i.setWidth 64)
  | .shlli c rd a n => some (c, rd, fun k => k.gs a <<< n.toNat)
  | .shrli c rd a n => some (c, rd, fun k => k.gs a >>> n.toNat)
  | .shrai c rd a n => some (c, rd, fun k => (k.gs a).sshiftRight n.toNat)
  | .ltsi c rd a i => some (c, rd, fun k => if (k.gs a).toInt < (i.signExtend 64).toInt then 1 else 0)
  | .ltui c rd a i => some (c, rd, fun k => if (k.gs a).toNat < (i.signExtend 64).toNat then 1 else 0)
  | .ldhi c rd i => some (c, rd, fun _ => i.signExtend 64 * 8192)
  | .pchi c rd i => some (c, rd, fun k => k.pc + i.signExtend 64 * 8192)
  | .tcmp c rd a b => some (c, rd, fun k =>
      if (k.gs a - k.gs b).toInt = 0 then 0 else if 0 < (k.gs a - k.gs b).toInt then 1 else -1)
  | .tadd c rd a b => some (c, rd, fun k => k.gs a + k.gs b)
  | .taddns c rd a b => some (c, rd, fun k =>
      k.gs a + BitVec.ofInt 64 (((k.gs b).toInt * 4294967296 * 2 + 1000000000) / 2000000000))
  | .taddus c rd a b => some (c, rd, fun k =>
      k.gs a + BitVec.ofInt 64 (((k.gs b).toInt * 4294967296 * 2 + 1000000) / 2000000))
  | _ => none

/-- ADD to MODU, the immediate forms, LDHI, PCHI, TCMP, TADD, TADDNS and TADDUS (R406 to R408, R420) complete on a core that
executes: the value of `scalarOp` goes to the register, s0 discards it, the PC moves on by 4, and nothing else of the unit changes
but the performance monitor's own record and counts. -/
def Obligations.ScalarResults : Prop :=
  ∀ (s : State) (i : Instr) (c : CoreId) (rd : Rg) (f : Machine.Core → DWord), scalarOp i = some (c, rd, f) → Executes s c →
    Gives i s fun t =>
      Retires s t c { (s.core c.val).setGs rd (f (s.core c.val)) with pc := (s.core c.val).pc + 4 } 0 0

/-- CLZ, CTZ and POPC (R406) give the number of leading zeros, of trailing zeros, and of set bits. -/
def Sys2Proof.Safety.BitCounts : Prop :=
  ∀ (s : State) (c : CoreId) (rd a : Rg), Executes s c →
    (∃ n, n ≤ 64 ∧ (∀ j < n, ((s.core c.val).gs a).getMsbD j = false) ∧ (n < 64 → ((s.core c.val).gs a).getMsbD n = true) ∧
      Gives (.clz c rd a) s fun t =>
        Retires s t c { (s.core c.val).setGs rd (BitVec.ofNat 64 n) with pc := (s.core c.val).pc + 4 } 0 0) ∧
    (∃ n, n ≤ 64 ∧ (∀ j < n, ((s.core c.val).gs a).getLsbD j = false) ∧ (n < 64 → ((s.core c.val).gs a).getLsbD n = true) ∧
      Gives (.ctz c rd a) s fun t =>
        Retires s t c { (s.core c.val).setGs rd (BitVec.ofNat 64 n) with pc := (s.core c.val).pc + 4 } 0 0) ∧
    Gives (.popc c rd a) s fun t =>
      Retires s t c { (s.core c.val).setGs rd
        (BitVec.ofNat 64 ((List.range 64).countP fun j => ((s.core c.val).gs a).getLsbD j)) with pc := (s.core c.val).pc + 4 } 0 0

/-- QUOS and QUOU (R407): the exact quotient rounded toward zero where it has 64 bits; else the saturated value, with DIVSAT set. -/
def Sys2Proof.Safety.QuotientsSaturate : Prop :=
  ∀ (s : State) (c : CoreId) (rd a b : Rg), Executes s c →
    let k := s.core c.val
    let x := k.gs a
    let y := k.gs b
    (y ≠ 0 → ¬ (x.toInt = -9223372036854775808 ∧ y.toInt = -1) → Gives (.quos c rd a b) s fun t =>
      Retires s t c { k.setGs rd (BitVec.ofInt 64 (x.toInt.tdiv y.toInt)) with pc := k.pc + 4 } 0 0) ∧
    (y = 0 ∨ (x.toInt = -9223372036854775808 ∧ y.toInt = -1) → Gives (.quos c rd a b) s fun t =>
      Retires s t c { ({ k with fflags := k.fflags ||| 0x20 } : Machine.Core).setGs rd
        (if y = 0 ∧ x.toInt < 0 then 0x8000000000000000 else 0x7FFFFFFFFFFFFFFF) with pc := k.pc + 4 } 0 0) ∧
    (y ≠ 0 → Gives (.quou c rd a b) s fun t =>
      Retires s t c { k.setGs rd (BitVec.ofNat 64 (x.toNat / y.toNat)) with pc := k.pc + 4 } 0 0) ∧
    (y = 0 → Gives (.quou c rd a b) s fun t =>
      Retires s t c { ({ k with fflags := k.fflags ||| 0x20 } : Machine.Core).setGs rd 0xFFFFFFFFFFFFFFFF with pc := k.pc + 4 } 0 0)

/-- CVTIF and CVTFI (R419) write the converted value and add the conditions of its rounding to FFLAGS; bits [63:32] of a CVTIF
result are zero, CVTFI of a NaN gives 0, and the rest of the unit stands. -/
def Sys2Proof.Safety.ScalarConversions : Prop :=
  ∀ (s : State) (c : CoreId) (rd a : Rg) (f : BitVec 5), Executes s c →
    let k := s.core c.val
    let x := fofInt f32 (k.gs a).toInt f.toNat
    let y := ftoInt f32 ((k.gs a).toNat % 4294967296) f.toNat 64
    Gives (.cvtif c rd a f) s (fun t =>
      Retires s t c { (k.orFlags x.flags).setGs rd (BitVec.ofNat 64 x.bits) with pc := k.pc + 4 } 0 0) ∧
    Gives (.cvtfi c rd a f) s (fun t =>
      Retires s t c { (k.orFlags y.2).setGs rd (BitVec.ofInt 64 y.1) with pc := k.pc + 4 } 0 0)

/-- CLZ, CTZ, POPC, QUOS, QUOU, CVTIF and CVTFI (R406, R407, R419) complete with the results above. -/
def Obligations.SpecialResults : Prop := Safety.BitCounts ∧ Safety.QuotientsSaturate ∧ Safety.ScalarConversions

/-! ## Sapor: branches and jumps -/

/-- The conditional branches, with the condition of R409. -/
def Sys2Proof.Safety.branchOp : Instr → Option (CoreId × BitVec 20 × (Machine.Core → Bool))
  | .bz c r off => some (c, off, fun k => decide (k.gs r = 0))
  | .bnz c r off => some (c, off, fun k => decide (k.gs r ≠ 0))
  | .bltz c r off => some (c, off, fun k => decide ((k.gs r).toInt < 0))
  | .bgez c r off => some (c, off, fun k => decide (0 ≤ (k.gs r).toInt))
  | .bp c all neg p off => some (c, off, fun k =>
      xor neg (if all then (List.range 8).all (fun j => (k.pr p).getLsbD j) else (List.range 8).any fun j => (k.pr p).getLsbD j))
  | _ => none

/-- BZ, BNZ, BLTZ, BGEZ and BP go to the branch's address plus off20 × 4 when their condition holds, else to the next instruction;
no register but the PC changes. JAL writes the link and goes to its target. JALR reads its target first, then writes the link; with
bits [1:0] of the target set it raises the misaligned-PC exception at the JALR, EVAL the target (R409, R410). -/
def Obligations.Branches : Prop :=
  ∀ (s : State) (c : CoreId), Executes s c →
    (∀ (i : Instr) (off : BitVec 20) (taken : Machine.Core → Bool), branchOp i = some (c, off, taken) →
      Gives i s fun t => Retires s t c { s.core c.val with
        pc := (s.core c.val).pc + (if taken (s.core c.val) then off.signExtend 64 * 4 else 4) } 0 0) ∧
    (∀ (rd : Rg) (off : BitVec 20), Gives (.jal c rd off) s fun t => Retires s t c
      { (s.core c.val).setGs rd ((s.core c.val).pc + 4) with pc := (s.core c.val).pc + off.signExtend 64 * 4 } 0 0) ∧
    (∀ (rd a : Rg) (i : BitVec 14), ((s.core c.val).gs a + i.signExtend 64).toNat % 4 = 0 →
      Gives (.jalr c rd a i) s fun t => Retires s t c
        { (s.core c.val).setGs rd ((s.core c.val).pc + 4) with pc := (s.core c.val).gs a + i.signExtend 64 } 0 0) ∧
    (∀ (rd a : Rg) (i : BitVec 14), ((s.core c.val).gs a + i.signExtend 64).toNat % 4 ≠ 0 →
      Gives (.jalr c rd a i) s fun t => t = s.excEntry c.val 0x02 ((s.core c.val).gs a + i.signExtend 64))


/-! ## Sapor: loads, stores and their exceptions -/

/-- Every 64-bit word that `n` bytes from `a` touch is memory the core may reach with a permission (0 read, 1 write, 2 execute):
below 2^40, in a region that grants it when the core is at P, outside the cryptographic boundary but for the Keeper Core, and, where
it is read, not poisoned (R370, R382, R386, R412, R520). -/
def Sys2Proof.Safety.Reaches (s : State) (c : CoreId) (perm a n : Nat) : Prop :=
  ∀ w, w % 8 = 0 → a < w + 8 → w < a + n → w < 1099511627776 ∧ ((s.core c.val).pl = 0 → (s.core c.val).permits w perm = true) ∧
    isMemory w = true ∧ (c.val = 20 ∨ w < boundaryStart ∨ sramEnd ≤ w) ∧ (perm = 0 → s.poisoned w = false)

/-- Scalar loads: core, target, base, offset, bytes, and whether the value is sign-extended (R411). -/
def Sys2Proof.Safety.loadOp : Instr → Option (CoreId × Rg × Rg × BitVec 12 × Nat × Bool)
  | .ld8s c rt rb o => some (c, rt, rb, o, 1, true)
  | .ld16s c rt rb o => some (c, rt, rb, o, 2, true)
  | .ld32s c rt rb o => some (c, rt, rb, o, 4, true)
  | .ld64 c rt rb o => some (c, rt, rb, o, 8, false)
  | .ld8u c rt rb o => some (c, rt, rb, o, 1, false)
  | .ld16u c rt rb o => some (c, rt, rb, o, 2, false)
  | .ld32u c rt rb o => some (c, rt, rb, o, 4, false)
  | _ => none

/-- Scalar stores: core, value, base, offset, bytes (R411). -/
def Sys2Proof.Safety.storeOp : Instr → Option (CoreId × Rg × Rg × BitVec 12 × Nat)
  | .st8 c rt rb o => some (c, rt, rb, o, 1)
  | .st16 c rt rb o => some (c, rt, rb, o, 2)
  | .st32 c rt rb o => some (c, rt, rb, o, 4)
  | .st64 c rt rb o => some (c, rt, rb, o, 8)
  | _ => none

/-- A scalar load from memory puts the little-endian value of its `n` bytes, sign- or zero-extended, in its register; nothing else
but the PC changes, and no byte of memory (R13, R411). -/
def Obligations.LoadsFromMemory : Prop :=
  ∀ (s : State) (i : Instr) (c : CoreId) (rt rb : Rg) (o : BitVec 12) (n : Nat) (sx : Bool), loadOp i = some (c, rt, rb, o, n, sx) →
    Executes s c →
    let k := s.core c.val
    let a := (k.gs rb + o.signExtend 64 * BitVec.ofNat 64 n).toNat
    a % n = 0 → Reaches s c 0 a n →
    ∃ v : BitVec (8 * n), (∀ j < n, v.extractLsb' (8 * j) 8 = s.rdByte (a + j)) ∧
      Gives i s fun t =>
        Retires s t c { k.setGs rt (if sx then v.signExtend 64 else v.setWidth 64) with pc := k.pc + 4 } 0 0

/-- A scalar store to memory puts the low `n` bytes of its register at its address, little-endian; no register but the PC changes and
no other byte of memory, the sampler's record apart; a full word stored is no longer poisoned (R13, R411, R520). -/
def Obligations.StoresToMemory : Prop :=
  ∀ (s : State) (i : Instr) (c : CoreId) (rt rb : Rg) (o : BitVec 12) (n : Nat), storeOp i = some (c, rt, rb, o, n) → Executes s c →
    let k := s.core c.val
    let a := (k.gs rb + o.signExtend 64 * BitVec.ofNat 64 n).toNat
    a % n = 0 → Reaches s c 1 a n →
    Gives i s fun t => Retires s t c { k with pc := k.pc + 4 } a n ∧
      (∀ j < n, ¬ InSample s c (a + j) → t.rdByte (a + j) = (k.gs rt).extractLsb' (8 * j) 8) ∧ (n = 8 → t.poisoned a = false)

/-- VLD and VST move 8 lanes of 8 bytes, re below im, little-endian: VLD makes every lane present, VST stores absent lanes as they
stand, and neither changes another register (R379, R411). -/
def Obligations.VectorLoadStore : Prop :=
  ∀ (s : State) (c : CoreId) (vt rb : Rg) (o : BitVec 12), Executes s c →
    let k := s.core c.val
    let a := (k.gs rb + o.signExtend 64 * 8).toNat
    a % 8 = 0 →
    (Reaches s c 0 a 64 → Gives (.vld c vt rb o) s fun t =>
      Retires s t c { k with v := (t.core c.val).v, pc := k.pc + 4 } 0 0 ∧
      ∀ (r : Rg) (l : Nat), l < 8 → if r = vt then
          ((t.core c.val).lane r l).present = true ∧
          ∀ j < 4, ((t.core c.val).lane r l).re.extractLsb' (8 * j) 8 = s.rdByte (a + 8 * l + j) ∧
            ((t.core c.val).lane r l).im.extractLsb' (8 * j) 8 = s.rdByte (a + 8 * l + 4 + j)
        else (t.core c.val).lane r l = k.lane r l) ∧
    (Reaches s c 1 a 64 → Gives (.vst c vt rb o) s fun t => Retires s t c { k with pc := k.pc + 4 } a 64 ∧
      ∀ l < 8, ∀ j < 4,
        (¬ InSample s c (a + 8 * l + j) → t.rdByte (a + 8 * l + j) = (k.lane vt l).re.extractLsb' (8 * j) 8) ∧
        (¬ InSample s c (a + 8 * l + 4 + j) → t.rdByte (a + 8 * l + 4 + j) = (k.lane vt l).im.extractLsb' (8 * j) 8))

/-- A 32-bit load or store of a control register that the core may reach is one read or write of the register bus by the core: the
load takes the word read into its register, and neither does anything else. The store's PC advances before the write, which may stop
the core itself (log 31; R14, R382, R399, R411). -/
def Obligations.ControlRegisterAccess : Prop :=
  ∀ (s : State) (c : CoreId) (rt rb : Rg) (o : BitVec 12), Executes s c →
    let k := s.core c.val
    let a := (k.gs rb + o.signExtend 64 * 4).toNat
    a % 4 = 0 → ctrlBase ≤ a → a < ctrlBase + ctrlSize →
    ((k.pl = 0 → k.permits (a / 8 * 8) 0 = true) → (k.det = true → detForbids a = false) →
      let r := s.devRead (.core c) (a - ctrlBase)
      Gives (.ld32s c rt rb o) s (fun t =>
        Retires r.1 t c { (r.1.core c.val).setGs rt (r.2.signExtend 64) with pc := k.pc + 4 } 0 0) ∧
      Gives (.ld32u c rt rb o) s fun t =>
        Retires r.1 t c { (r.1.core c.val).setGs rt (r.2.setWidth 64) with pc := k.pc + 4 } 0 0) ∧
    ((k.pl = 0 → k.permits (a / 8 * 8) 1 = true) →
      let u := (s.setCore c.val { k with pc := k.pc + 4 }).devWrite (.core c) (a - ctrlBase) ((k.gs rt).toNat % 4294967296)
      Gives (.st32 c rt rb o) s fun t => Retires u t c (u.core c.val) 0 0)

/-- Instructions that reach memory, with how they reach it and at what address. -/
def Sys2Proof.Safety.accessOp : Instr → Option (CoreId × Reach × (Machine.Core → DWord))
  | .vld c _ rb o => some (c, vectorReach true, fun k => k.gs rb + o.signExtend 64 * 8)
  | .vst c _ rb o => some (c, vectorReach false, fun k => k.gs rb + o.signExtend 64 * 8)
  | .setld c _ sa _ => some (c, descReach, fun k => k.gs sa)
  | .qpush c _ rs _ _ _ => some (c, entryReach true, fun k => k.gs rs)
  | .qpop c _ rs _ => some (c, entryReach false, fun k => k.gs rs)
  | .qpeek c _ rs _ => some (c, entryReach false, fun k => k.gs rs)
  | i =>
    match loadOp i, storeOp i with
    | some (c, _, rb, o, n, _), _ => some (c, scalarReach n true, fun k => k.gs rb + o.signExtend 64 * BitVec.ofNat 64 n)
    | _, some (c, _, rb, o, n) => some (c, scalarReach n false, fun k => k.gs rb + o.signExtend 64 * BitVec.ofNat 64 n)
    | _, _ => none

/-- A data access that is not allowed raises one exception and has no other effect, in the order of R386: a load that DET forbids in
any word it touches (0x05, the instruction word), an address that is not aligned (0x06, the address), a word that the level or the
regions bar (0x07), a word outside the memory map or inside the boundary (0x08; 0x07 for the descriptors of SETLD, which R432 gives no
bus error), a poisoned word read (0x09): the last three with the lowest faulting address, and the poisoned read counted. -/
def Obligations.AccessExceptions : Prop :=
  ∀ (s : State) (i : Instr) (c : CoreId) (x : Reach) (f : Machine.Core → DWord), accessOp i = some (c, x, f) → Executes s c →
    let k := s.core c.val
    let a := (f k).toNat
    let stays (w : Nat) : Prop := w % 8 = 0 ∧ a < w + 8 ∧ w < a + x.size
    let bars (w : Nat) : Prop := 1099511627776 ≤ w ∨ (k.pl = 0 ∧ k.permits w x.perm = false)
    let away (w : Nat) : Prop := ¬ (isMemory w = true ∨ (x.ctrl = true ∧ isControl w = true)) ∨
      (c.val ≠ 20 ∧ boundaryStart ≤ w ∧ w < sramEnd)
    let barred : Prop := x.load = true ∧ k.det = true ∧ ∃ w, stays w ∧ detForbids (max w a) = true
    (barred → Gives i s fun t => t = s.excEntry c.val 0x05 ((encode i).setWidth 64)) ∧
    (¬ barred →
      (a % x.align ≠ 0 → Gives i s fun t => t = s.excEntry c.val 0x06 (f k)) ∧
      (a % x.align = 0 →
        (∀ w, stays w → bars w → (∀ v, stays v → bars v → w ≤ v) →
          Gives i s fun t => t = s.excEntry c.val 0x07 (BitVec.ofNat 64 (max w a))) ∧
        ((∀ w, stays w → ¬ bars w) →
          (∀ w, stays w → away w → (∀ v, stays v → away v → w ≤ v) →
            Gives i s fun t => t = s.excEntry c.val x.bus (BitVec.ofNat 64 (max w a))) ∧
          ((∀ w, stays w → ¬ away w) → x.perm = 0 → isControl a = false →
            ∀ w, stays w → s.poisoned w = true → (∀ v, stays v → s.poisoned v = true → w ≤ v) →
              Gives i s fun t => t = (s.bump R.ERR_U_POISON_READS).excEntry c.val 0x09 (BitVec.ofNat 64 (max w a))))))

/-! ## Sapor: vectors and predicates -/

/-- Instructions under the lane rule of R413: core, destination, governing predicate, sources, and the result of an active lane with
the conditions it raises (R414, R415). -/
def Sys2Proof.Safety.vecOp : Instr → Option (CoreId × Rg × Pr × List Rg × (Machine.Core → Nat → LaneRes))
  | .cadd c d a b g => some (c, d, g, [a, b], fun k l => cAdd (k.lane a l) (k.lane b l))
  | .csub c d a b g => some (c, d, g, [a, b], fun k l => cSub (k.lane a l) (k.lane b l))
  | .cmul c d a b g => some (c, d, g, [a, b], fun k l => cMul (k.lane a l) (k.lane b l))
  | .cmac c d a b g => some (c, d, g, [d, a, b], fun k l => cMac (k.lane d l) (k.lane a l) (k.lane b l))
  | .crot c d a b g => some (c, d, g, [a, b], fun k l => cRot (k.lane a l) (k.lane b l).x)
  | .adiff c d a b g => some (c, d, g, [a, b], fun k l => realRes (aDiff (k.lane a l) (k.lane b l)))
  | .fdev c d a b g => some (c, d, g, [d, a, b], fun k l => realRes (fDev (k.lane d l).x (k.lane a l) (k.lane b l)))
  | .rdiv c d a b g => some (c, d, g, [a, b], fun k l => realRes (fdiv f32 (k.lane a l).x (k.lane b l).x))
  | .rmin c d a b g => some (c, d, g, [a, b], fun k l => realRes (fmin f32 (k.lane a l).x (k.lane b l).x))
  | .rmax c d a b g => some (c, d, g, [a, b], fun k l => realRes (fmax f32 (k.lane a l).x (k.lane b l).x))
  | .cconj c d a g => some (c, d, g, [a], fun k l => ⟨(k.lane a l).x, fneg f32 (k.lane a l).y, 0⟩)
  | .cneg c d a g => some (c, d, g, [a], fun k l => ⟨fneg f32 (k.lane a l).x, fneg f32 (k.lane a l).y, 0⟩)
  | .cabs c d a g => some (c, d, g, [a], fun k l => realRes (fhypot f32 (k.lane a l).x (k.lane a l).y))
  | .carg c d a g => some (c, d, g, [a], fun k l => realRes (farg f32 (k.lane a l).x (k.lane a l).y))
  | .vmov c d a g => some (c, d, g, [a], fun k l => ⟨(k.lane a l).x, (k.lane a l).y, 0⟩)
  | .vcvtif c d a n g => some (c, d, g, [a], fun k l => realRes (fofInt f32 (k.lane a l).re.toInt n.toNat))
  | .vcvtfi c d a n g => some (c, d, g, [a], fun k l =>
      ⟨(BitVec.ofInt 32 (ftoInt f32 (k.lane a l).x n.toNat 32).1).toNat, 0, (ftoInt f32 (k.lane a l).x n.toNat 32).2⟩)
  | _ => none

/-- The lane rule of R413: a lane whose governing bit is zero stands; an active lane whose sources are all present takes the result
and is present, and its conditions join FFLAGS; another active lane becomes absent, holding +0. Nothing but the destination's lanes,
FFLAGS and the PC changes. -/
def Obligations.LaneRule : Prop :=
  ∀ (s : State) (i : Instr) (c : CoreId) (d : Rg) (g : Pr) (srcs : List Rg) (f : Machine.Core → Nat → LaneRes),
    vecOp i = some (c, d, g, srcs, f) → Executes s c →
    let k := s.core c.val
    let live (l : Nat) : Bool := (k.pr g).getLsbD l && srcs.all fun r => (k.lane r l).present
    Gives i s fun t =>
      Retires s t c { k with
        v := (t.core c.val).v, pc := k.pc + 4
        fflags := (List.range 8).foldl (fun a l => if live l then a ||| BitVec.ofNat 32 (f k l).flags else a) k.fflags } 0 0 ∧
      ∀ (r : Rg) (l : Nat), l < 8 → (t.core c.val).lane r l =
        if r = d ∧ (k.pr g).getLsbD l = true then
          (if live l then ⟨BitVec.ofNat 32 (f k l).re, BitVec.ofNat 32 (f k l).im, true⟩ else ⟨0, 0, false⟩)
        else k.lane r l

/-- Instructions that write one predicate register, with bit `l` of its value (R376, R414, R417). -/
def Sys2Proof.Safety.predOp : Instr → Option (CoreId × Pr × (Machine.Core → Nat → Bool))
  | .vclt c d a b g => some (c, d, fun k l => (k.pr g).getLsbD l && (k.lane a l).present && (k.lane b l).present
      && flt f32 (k.lane a l).x (k.lane b l).x)
  | .vcle c d a b g => some (c, d, fun k l => (k.pr g).getLsbD l && (k.lane a l).present && (k.lane b l).present
      && fle f32 (k.lane a l).x (k.lane b l).x)
  | .vceq c d a b g => some (c, d, fun k l => (k.pr g).getLsbD l && (k.lane a l).present && (k.lane b l).present
      && feq f32 (k.lane a l).x (k.lane b l).x)
  | .pgetp c d a g => some (c, d, fun k l => (k.lane a l).present && (k.pr g).getLsbD l)
  | .pand c d a b => some (c, d, fun k l => (k.pr a).getLsbD l && (k.pr b).getLsbD l)
  | .por c d a b => some (c, d, fun k l => (k.pr a).getLsbD l || (k.pr b).getLsbD l)
  | .pxor c d a b => some (c, d, fun k l => xor ((k.pr a).getLsbD l) ((k.pr b).getLsbD l))
  | .pandn c d a b => some (c, d, fun k l => (k.pr a).getLsbD l && !(k.pr b).getLsbD l)
  | .pmovp c d a => some (c, d, fun k l => (k.gs a).getLsbD l)
  | _ => none

/-- Compares and predicate instructions write one predicate register bit by bit; p0 discards the write and reads as all ones; no flag
and no other register but the PC changes (R372, R376, R414, R417). PMOVS copies a predicate into a scalar. -/
def Sys2Proof.Safety.PredicateResults : Prop :=
  ∀ (s : State) (c : CoreId), Executes s c →
    (∀ (i : Instr) (d : Pr) (f : Machine.Core → Nat → Bool), predOp i = some (c, d, f) →
      Gives i s fun t => Retires s t c { s.core c.val with p := (t.core c.val).p, pc := (s.core c.val).pc + 4 } 0 0 ∧
        ((t.core c.val).pr 0 = 0xFF) ∧
        (d ≠ 0 → ∀ l < 8, ((t.core c.val).pr d).getLsbD l = f (s.core c.val) l) ∧
        ∀ q : Pr, q ≠ d → (t.core c.val).pr q = (s.core c.val).pr q) ∧
    (∀ (rd : Rg) (a : Pr), Gives (.pmovs c rd a) s fun t =>
      Retires s t c { (s.core c.val).setGs rd (((s.core c.val).pr a).setWidth 64) with pc := (s.core c.val).pc + 4 } 0 0)

/-- Instructions that move lanes: the new lane, or none where it stands (R417). -/
def Sys2Proof.Safety.laneOp : Instr → Option (CoreId × Rg × (Machine.Core → Nat → Option Lane))
  | .vbcast c d a g => some (c, d, fun k l =>
      if (k.pr g).getLsbD l then some ⟨(k.gs a).setWidth 32, (k.gs a).extractLsb' 32 32, true⟩ else none)
  | .vins c d a n => some (c, d, fun k l =>
      if l = n.toNat then some ⟨(k.gs a).setWidth 32, (k.gs a).extractLsb' 32 32, true⟩ else none)
  | .psetp c d a g => some (c, d, fun k l =>
      if (k.pr g).getLsbD l then
        some (if (k.pr a).getLsbD l then ⟨(k.lane d l).re, (k.lane d l).im, true⟩ else ⟨0, 0, false⟩)
      else none)
  | _ => none

/-- VBCAST, VINS and PSETP write the lanes of `laneOp` and nothing else; VEXT gives a lane's 64 bits, zero if it is absent, and its
presence in every bit of its predicate, and is illegal with p0 (R403, R417). -/
def Sys2Proof.Safety.LaneMoves : Prop :=
  ∀ (s : State) (c : CoreId), Executes s c →
    let k := s.core c.val
    (∀ (i : Instr) (d : Rg) (f : Machine.Core → Nat → Option Lane), laneOp i = some (c, d, f) →
      Gives i s fun t => Retires s t c { k with v := (t.core c.val).v, pc := k.pc + 4 } 0 0 ∧
        ∀ (r : Rg) (l : Nat), l < 8 → (t.core c.val).lane r l = if r = d then (f k l).getD (k.lane d l) else k.lane r l) ∧
    (∀ (rd va : Rg) (n : BitVec 3) (g : Pr), g ≠ 0 → Gives (.vext c rd va n g) s fun t =>
      let x := k.lane va n.toNat
      Retires s t c { (k.setGs rd (if x.present then x.im ++ x.re else 0)).setPr g (if x.present then 0xFF else 0) with
        pc := k.pc + 4 } 0 0) ∧
    (∀ (rd va : Rg) (n : BitVec 3), Gives (.vext c rd va n 0) s fun t =>
      t = s.excEntry c.val 0x03 ((encode (.vext c rd va n 0)).setWidth 64))

/-- Predicate and lane-move instructions complete with the results above. -/
def Obligations.PredicatesAndMoves : Prop := Safety.PredicateResults ∧ Safety.LaneMoves

/-- Reductions, with the lane a single lane gives and the step that combines (R377, R418). -/
def Sys2Proof.Safety.reduceOp : Instr → Option (CoreId × Rg × Rg × Rg × Pr × (Lane → Lane) × (Lane → Lane → LaneRes))
  | .crsum c d a b g => some (c, d, a, b, g, fun x => x, cAdd)
  | .rrmax c d a b g => some (c, d, a, b, g, fun x => ⟨x.re, 0, true⟩, fun x y => realRes (fmax f32 x.x y.x))
  | .rrmin c d a b g => some (c, d, a, b, g, fun x => ⟨x.re, 0, true⟩, fun x y => realRes (fmin f32 x.x y.x))
  | _ => none

/-- CRSUM, RRMAX and RRMIN combine the enabled present lanes in ascending order, rounding after each step: lane 0 takes the result, or
becomes absent where there is none, the other lanes become absent, and the scalar takes the count (R377, R418). -/
def Obligations.Reductions : Prop :=
  ∀ (s : State) (i : Instr) (c : CoreId) (d a b : Rg) (g : Pr) (first : Lane → Lane) (f : Lane → Lane → LaneRes),
    reduceOp i = some (c, d, a, b, g, first, f) → Executes s c →
    let k := s.core c.val
    let xs := ((List.range 8).filter fun l => (k.pr g).getLsbD l && (k.lane a l).present).map (k.lane a)
    let step (r : Lane × Word) (x : Lane) : Lane × Word :=
      (⟨BitVec.ofNat 32 (f r.1 x).re, BitVec.ofNat 32 (f r.1 x).im, true⟩, r.2 ||| BitVec.ofNat 32 (f r.1 x).flags)
    let r : Lane × Word := match xs with | [] => (⟨0, 0, false⟩, 0) | x :: l => l.foldl step (first x, 0)
    Gives i s fun t =>
      Retires s t c { k.setGs b (BitVec.ofNat 64 xs.length) with
        v := (t.core c.val).v, fflags := k.fflags ||| r.2, pc := k.pc + 4 } 0 0 ∧
      ∀ (q : Rg) (l : Nat), l < 8 → (t.core c.val).lane q l =
        if q = d then (if l = 0 then r.1 else ⟨0, 0, false⟩) else k.lane q l

/-! ## Sapor: the bound Set, queues, mailboxes and waits -/

/-- SETQ and SETLD (R421 to R423). With no bound Set, or one still open or overwritten, both raise 0x0A; a poisoned word on the way
raises 0x09 and is counted. Else SETQ gives the summary of the stream's slot, zero where the stream is no member, and SETLD writes
every enabled lane from its descriptor and leaves the others. -/
def Obligations.SetAccess : Prop :=
  ∀ (s : State) (c : CoreId), Executes s c →
    let k := s.core c.val
    (∀ rd ra : Rg,
      (s.setBar k = some .access → Gives (.setq c rd ra) s fun t => t = s.excEntry c.val 0x0A k.setbase) ∧
      (∀ p, s.setBar k = some (.poison p) ∨ (s.setBar k = none ∧ s.boundSlot k ((k.gs ra).toNat % 16384) = .inl (.poison p)) →
        Gives (.setq c rd ra) s fun t => t = (s.bump R.ERR_U_POISON_READS).excEntry c.val 0x09 (BitVec.ofNat 64 p)) ∧
      (s.setBar k = none → ∀ o, s.boundSlot k ((k.gs ra).toNat % 16384) = .inr o → Gives (.setq c rd ra) s fun t =>
        Retires s t c { k.setGs rd (match o with | none => 0 | some p => BitVec.ofNat 64 (s.slotWord k p)) with pc := k.pc + 4 } 0 0)) ∧
    (∀ (vd ra : Rg) (g : Pr), (k.gs ra).toNat % 32 = 0 → Reaches s c 0 (k.gs ra).toNat 32 →
      (s.setBar k = some .access → Gives (.setld c vd ra g) s fun t => t = s.excEntry c.val 0x0A k.setbase) ∧
      (∀ p, s.setBar k = some (.poison p) ∨ (s.setBar k = none ∧ ∃ l < 8, (k.pr g).getLsbD l = true ∧
          s.setLane k (s.rdLe ((k.gs ra).toNat + 4 * l) 4) = .inl (.poison p) ∧
          ∀ j < l, (k.pr g).getLsbD j = true → ∃ x, s.setLane k (s.rdLe ((k.gs ra).toNat + 4 * j) 4) = .inr x) →
        Gives (.setld c vd ra g) s fun t => t = (s.bump R.ERR_U_POISON_READS).excEntry c.val 0x09 (BitVec.ofNat 64 p)) ∧
      (s.setBar k = none →
        ∀ x : Nat → Lane, (∀ l < 8, (k.pr g).getLsbD l = true → s.setLane k (s.rdLe ((k.gs ra).toNat + 4 * l) 4) = .inr (x l)) →
        Gives (.setld c vd ra g) s fun t => Retires s t c { k with v := (t.core c.val).v, pc := k.pc + 4 } 0 0 ∧
          ∀ (r : Rg) (l : Nat), l < 8 →
            (t.core c.val).lane r l = if r = vd ∧ (k.pr g).getLsbD l = true then x l else k.lane r l))

/-- QPUSH, QPOP and QPEEK (R425, R426) are the push, pop and peek of the queue by the core, with the entry in 32 bytes of memory: the
status word of R426 goes to the register, an entry delivered goes to memory, and with none delivered memory is not written. -/
def Obligations.QueueInstructions : Prop :=
  ∀ (s : State) (c : CoreId) (rd rs : Rg) (n : QSel), Executes s c →
    let k := s.core c.val
    let a := (k.gs rs).toNat
    let m := match n with | .imm b => b.toNat | .reg r => (k.gs r).toNat % 256
    a % 32 = 0 →
    (Reaches s c 0 a 32 → ∀ (first last : Bool) (e : Entry), (∀ j < 32, e.extractLsb' (8 * j) 8 = s.rdByte (a + j)) →
      let r := s.agentPush m c.val k.det e first last
      Gives (.qpush c rd rs n first last) s fun t => Retires r.1 t c
        { (r.1.core c.val).setGs rd (queueStatus (r.1.queue m).level r.2 none) with pc := k.pc + 4 } 0 0) ∧
    (Reaches s c 1 a 32 →
      (let r := s.pop m c.val
       Gives (.qpop c rd rs n) s fun t => Retires r.1 t c
          { (r.1.core c.val).setGs rd (queueStatus (r.1.queue m).level r.2.1 r.2.2) with pc := k.pc + 4 }
          a (if r.2.2.isSome then 32 else 0) ∧
        ∀ e, r.2.2 = some e → ∀ j < 32, ¬ InSample r.1 c (a + j) → t.rdByte (a + j) = e.data.extractLsb' (8 * j) 8) ∧
      (let r := s.peek m c.val
       Gives (.qpeek c rd rs n) s fun t => Retires r.1 t c
          { (r.1.core c.val).setGs rd (queueStatus (r.1.queue m).level r.2.1 r.2.2) with pc := k.pc + 4 }
          a (if r.2.2.isSome then 32 else 0) ∧
        ∀ e, r.2.2 = some e → ∀ j < 32, ¬ InSample r.1 c (a + j) → t.rdByte (a + j) = e.data.extractLsb' (8 * j) 8))

/-- DBELL posts a register's value to a mailbox for the core and writes the result of the post (R427). WAITEV (R428) completes at once
with 0 where its event holds, raises 0x05 under DET with a timeout, and else waits with its watchdog kicked (R519), the PC standing. -/
def Sys2Proof.Safety.PostAndWait : Prop :=
  ∀ (s : State) (c : CoreId) (rd rs : Rg), Executes s c →
    let k := s.core c.val
    let us := (k.gs rs).toNat % 4294967296
    (∀ (n : Byte) (b : BitVec 5), Gives (.dbell c rd rs n b) s fun t =>
      let r := s.post n.toNat c.val (k.gs rs) b.toNat
      Retires r.1 t c { (r.1.core c.val).setGs rd (BitVec.ofNat 64 r.2) with pc := k.pc + 4 } 0 0) ∧
    (k.det = true → us ≠ 0 → ∀ n : Byte,
      Gives (.waitevD c rd rs) s (fun t => t = s.excEntry c.val 0x05 ((encode (.waitevD c rd rs)).setWidth 64)) ∧
      Gives (.waitevQ c rd rs n) s fun t => t = s.excEntry c.val 0x05 ((encode (.waitevQ c rd rs n)).setWidth 64)) ∧
    ((k.det = false ∨ us = 0) →
      ((s.reg (R.MBX_DB + 0x40 * c.val) &&& s.reg (R.MBX_MASK + 0x40 * c.val)) ≠ 0 →
        Gives (.waitevD c rd rs) s fun t => Retires s t c { k.setGs rd 0 with pc := k.pc + 4 } 0 0) ∧
      ((s.reg (R.MBX_DB + 0x40 * c.val) &&& s.reg (R.MBX_MASK + 0x40 * c.val)) = 0 →
        Gives (.waitevD c rd rs) s fun t => t = s.setCore c.val
          { k with run := .waitD s.now us rd (encode (.waitevD c rd rs)), kickAt := s.now, wdogWarned := false }) ∧
      ∀ n : Byte,
        ((s.queue n.toNat).entries ≠ [] →
          Gives (.waitevQ c rd rs n) s fun t => Retires s t c { k.setGs rd 0 with pc := k.pc + 4 } 0 0) ∧
        ((s.queue n.toNat).entries = [] → Gives (.waitevQ c rd rs n) s fun t => t = s.setCore c.val
          { k with run := .waitQ n.toNat s.now us rd (encode (.waitevQ c rd rs n)), kickAt := s.now, wdogWarned := false }))

/-- A wait ends (R428): with its event, 0 goes to the register; when its timeout has passed, 2 does; the core runs on after the
WAITEV and nothing else changes. -/
def Sys2Proof.Safety.WaitsEnd : Prop :=
  ∀ (s : State) (c : CoreId) (t0 us : Nat) (rd : Rg) (w : Word),
    let ends (s t : State) (v : DWord) : Prop := Retires s t c
      { (s.core c.val).setGs rd v with run := .run, pc := (s.core c.val).pc + 4 } 0 0
    ((s.core c.val).run = .waitD t0 us rd w →
      (s.reg (R.MBX_DB + 0x40 * c.val) &&& s.reg (R.MBX_MASK + 0x40 * c.val)) ≠ 0 →
      Gives (.waitevEvent c) s fun t => ends s t 0) ∧
    (∀ n, (s.core c.val).run = .waitQ n t0 us rd w → (s.queue n).entries ≠ [] → Gives (.waitevEvent c) s fun t => ends s t 0) ∧
    (∀ dt, ((s.core c.val).run = .waitD t0 us rd w ∨ ∃ n, (s.core c.val).run = .waitQ n t0 us rd w) → us ≠ 0 →
      us * 1200 ≤ s.now + dt - t0 → Gives (.waitevTimeout c dt) s fun t => ends (s.elapse dt) t 2)

/-- Posts and waits of a core act as above. -/
def Obligations.PostsAndWaits : Prop := Safety.PostAndWait ∧ Safety.WaitsEnd

/-! ## Sapor: control words, traps, returns and fences -/

/-- CWR and CWW (R380, R429): a word that is not listed is illegal (0x03), at P what only S may touch raises 0x04, and CORE_ID, CLK
and GTIME under DET raise 0x05, each with the instruction word; else CWR gives the control word's value and CWW writes it. A REGION
word with a reserved value keeps its own, and the write is reported refused (R19, R382). A CWW of SETBASE binds the Set whose record
starts there, or raises 0x0A with the SETBASE held; a poisoned word of the record's header is counted, and leaves TTAG open, or GROVE
that of the ring (log 31). -/
def Obligations.ControlWords : Prop :=
  ∀ (s : State) (c : CoreId) (r : Rg) (cw : BitVec 10), Executes s c →
    let k := s.core c.val
    let v := k.gs r
    let n := cw.toNat
    (cwListed n = false →
      Gives (.cwr c r cw) s (fun t => t = s.excEntry c.val 0x03 ((encode (.cwr c r cw)).setWidth 64)) ∧
      Gives (.cww c r cw) s fun t => t = s.excEntry c.val 0x03 ((encode (.cww c r cw)).setWidth 64)) ∧
    (cwListed n = true →
      (k.pl = 0 → cwSOnly n = true →
        Gives (.cwr c r cw) s fun t => t = s.excEntry c.val 0x04 ((encode (.cwr c r cw)).setWidth 64)) ∧
      ((k.pl = 0 → cwSOnly n = false) → k.det = true → (n = 0x10 ∨ n = 0x20 ∨ n = 0x21) →
        Gives (.cwr c r cw) s fun t => t = s.excEntry c.val 0x05 ((encode (.cwr c r cw)).setWidth 64)) ∧
      ((k.pl = 0 → cwSOnly n = false) → ¬ (k.det = true ∧ (n = 0x10 ∨ n = 0x20 ∨ n = 0x21)) →
        Gives (.cwr c r cw) s fun t => Retires s t c { k.setGs r (s.cwRead c.val n) with pc := k.pc + 4 } 0 0) ∧
      (k.pl = 0 → k.pMayWrite n v = false →
        Gives (.cww c r cw) s fun t => t = s.excEntry c.val 0x04 ((encode (.cww c r cw)).setWidth 64)) ∧
      (k.pl ≠ 0 ∨ k.pMayWrite n v = true →
        let reserved : Prop := 0x30 ≤ n ∧ n ≤ 0x37 ∧ regionLegal v = false
        (n ≠ 0x13 → ¬ reserved → Gives (.cww c r cw) s fun t => Retires s t c { k.cwWrite c.val n v with pc := k.pc + 4 } 0 0) ∧
        (reserved → Gives (.cww c r cw) s fun t => Retires (s.regionRefused c) t c { k with pc := k.pc + 4 } 0 0) ∧
        (n = 0x13 → s.recordGrove v.toNat = none → Gives (.cww c r cw) s fun t => t = s.excEntry c.val 0x0A k.setbase) ∧
        (∀ g, n = 0x13 → s.recordGrove v.toNat = some g →
          let bad := s.poisoned v.toNat || s.poisoned (v.toNat + 0x10)
          let grove := if s.poisoned (v.toNat + 0x10) then g else (s.rdByte (v.toNat + 0x14)).toNat
          ∃ tt, (s.poisoned v.toNat = false → tt = BitVec.ofNat 64 (s.rdLe v.toNat 8)) ∧
            Gives (.cww c r cw) s fun t => Retires (if bad then s.bump R.ERR_U_POISON_READS else s) t c { k with
              setbase := v, ttag := tt, bound := true, pc := k.pc + 4
              setctx := BitVec.ofNat 32 (grove % 64 * 256 + k.setctx.toNat % 2) } 0 0)))

/-- Exception entry (R387, R388). While EXL is zero the core saves PC and STATUS, writes CAUSE and EVAL, and starts at EVEC with PL at
S (K on the Keeper Core), EXL one, DET and IE zero. While EXL is one it stops and writes none of them, and the double fault goes to the
fault collector. Every other core, and memory, stands. -/
def Sys2Proof.Safety.ExceptionEntry : Prop :=
  ∀ (s : State) (c : CoreId) (code : Nat) (ev : DWord), code < 32 →
    let k := s.core c.val
    let t := s.excEntry c.val code ev
    (k.status.getLsbD 3 = false → t.core c.val = { k with
      epc := k.pc, estatus := k.status, cause := BitVec.ofNat 32 code, eval := ev, pc := k.evec
      status := if c.val = 20 then 0xA else 0x9 }) ∧
    (k.status.getLsbD 3 = true → t.core c.val = { k with run := .halted } ∧ t.err.detected = s.err.detected ++ [s.found 0x11 code c.val]) ∧
    OtherCores s t c.val ∧ SameMemory s t

/-- An interrupt the controller presents is taken by a core that runs or waits, with its clock running (R387, R389, R471): as an
exception, but CAUSE says interrupt, EVAL and IE stand, and the handler starts at EVEC + 0x40. A stopped Stream Engine clock is
requested first (R34). -/
def Sys2Proof.Safety.InterruptEntry : Prop :=
  ∀ (s : State) (c : CoreId) (o : Nat), s.winner c.val = some o → (s.core c.val).status.getLsbD 2 = true →
    (s.core c.val).status.getLsbD 3 = false → ((s.core c.val).run = .run ∨ (s.core c.val).waiting = true) →
    let k := s.core c.val
    (s.clocked c.val = true → Gives (.interruptTaken c) s fun t => OtherCores s t c.val ∧ SameMemory s t ∧
      t.core c.val = { k with
        run := .run, epc := k.pc, estatus := k.status, cause := 0x80000000, pc := k.evec + 0x40
        status := if c.val = 20 then 0xE else 0xD }) ∧
    (s.clocked c.val = false → Gives (.interruptTaken c) s fun t => t = s.pllRequest)

/-- A core enters exceptions and interrupts as above. -/
def Obligations.Entries : Prop := Safety.ExceptionEntry ∧ Safety.InterruptEntry

/-- SYSCALL with a code, or at S, raises the SYSCALL exception with the code; with code 0 at P the task ends, and so it does by
TASK_END: the core is in WAIT, its task's credit and key are released (R384, R430, R443). ERET at P raises 0x04; at S it restores PC and
STATUS, on the Keeper Core with level K (R368), and tail-chains where an interrupt is eligible (R387, R477). An instruction word that spells nothing raises 0x03 (R403). -/
def Sys2Proof.Safety.TrapsAndReturns : Prop :=
  ∀ (s : State) (c : CoreId), Executes s c →
    let k := s.core c.val
    (∀ code : BitVec 14, code ≠ 0 ∨ k.pl ≠ 0 →
      Gives (.syscall c code) s fun t => t = s.excEntry c.val 0x0B (code.setWidth 64)) ∧
    (k.pl = 0 → ∀ i, i = .syscall c 0 ∨ i = .taskEnd c → Gives i s fun t =>
      Retires (s.endTask c.val) t c { k with run := .wait, waitAt := s.now, task := none, kickAt := s.now, wdogWarned := false } 0 0 ∧
      ∀ x, k.task = some x → x.nokey = false → (t.keyState x.key).running = false) ∧
    (k.pl = 0 → Gives (.eret c) s fun t => t = s.excEntry c.val 0x04 ((encode (.eret c)).setWidth 64)) ∧
    (k.pl ≠ 0 → s.tailChains c.val = false →
      Gives (.eret c) s fun t => Retires s t c { k with
        pc := k.epc, status := if c.val = 20 then (k.estatus &&& ~~~3) ||| 2 else k.estatus } 0 0) ∧
    (k.pl ≠ 0 → s.tailChains c.val = true → Gives (.eret c) s fun t => Retires (s.bump R.IC_U_TAILCHAINS) t c { k with
      pc := k.evec + 0x40, cause := 0x80000000, status := if c.val = 20 then 0xE else 0xD } 0 0) ∧
    (∀ w : Word, legalWord c w = false → Gives (.illegalInstruction c w) s fun t => t = s.excEntry c.val 0x03 (w.setWidth 64)) ∧
    (∀ i, i = .fenceMem c ∨ i = .fenceSt c ∨ i = .fenceLd c ∨ i = .fenceCtl c ∨ i = .fenceAll c ∨ i = .fenceExec c →
      Gives i s fun t => Retires s t c { k with pc := k.pc + 4 } 0 0)

/-- MODEREQ (R431): illegal on a Stream Engine and on the Keeper Core, privileged at P; at S it makes the request of R59 for the mode
in bits [3:0] and puts the result into the register. -/
def Sys2Proof.Safety.ModeRequestInstruction : Prop :=
  ∀ (s : State) (c : CoreId) (rd rs : Rg), Executes s c →
    let k := s.core c.val
    let w := (encode (.modereq c rd rs)).setWidth 64
    let v := (k.gs rs).toNat
    ((c.val < 16 ∨ c.val = 20) → Gives (.modereq c rd rs) s fun t => t = s.excEntry c.val 0x03 w) ∧
    (16 ≤ c.val → c.val < 20 → k.pl = 0 → Gives (.modereq c rd rs) s fun t => t = s.excEntry c.val 0x04 w) ∧
    (16 ≤ c.val → c.val < 20 → k.pl ≠ 0 → Gives (.modereq c rd rs) s fun t =>
      let a := s.modereqAuth c.val (v % 16) (v / 64 % 17179869184 * 64)
      let r := a.1.modeRequest c.val true a.2 (v % 16)
      Retires r.1 t c { (r.1.core c.val).setGs rd (BitVec.ofNat 64 r.2) with pc := k.pc + 4 } 0 0)

/-- Traps, returns, fences and mode requests of a core act as above. -/
def Obligations.TrapsReturnsModes : Prop := Safety.TrapsAndReturns ∧ Safety.ModeRequestInstruction

/-- A core given a task, in WAIT and clocked, begins it at P at its handler (R383): s1 holds TASKARG, every other scalar register, every
vector register, predicate and FFLAGS are zero with every lane absent, no Set is bound, EPOCH, TASKARG and TASKKEY are latched, and
DET is one on a Stream Engine, elsewhere what the task's class had at its dispatch. -/
def Obligations.TaskBegins : Prop :=
  ∀ (s : State) (c : CoreId) (x : Task), (s.core c.val).run = .wait → (s.core c.val).given = some x → s.clocked c.val = true →
    Gives (.taskBegin c) s fun t =>
      let k := t.core c.val
      k.run = .run ∧ k.pc = BitVec.ofNat 64 x.handler ∧ k.pl = 0 ∧ k.gs 1 = x.arg ∧ (∀ r : Rg, r ≠ 1 → k.gs r = 0) ∧
      (∀ (r : Rg) (l : Nat), l < 8 → k.lane r l = ⟨0, 0, false⟩) ∧ (∀ p : Pr, p ≠ 0 → k.pr p = 0) ∧ k.fflags = 0 ∧
      k.setbase = 0 ∧ k.bound = false ∧ k.epoch = BitVec.ofNat 32 s.epoch ∧ k.taskarg = x.arg ∧
      k.taskkey = BitVec.ofNat 32 (if x.nokey then 0 else x.key) ∧ k.det = (decide (c.val < 16) || x.det) ∧
      k.task = some x ∧ k.given = none ∧ OtherCores s t c.val ∧ SameMemory s t

/-! ## Accesses to registers -/

/-- A counter has counted `n` events more, stopping at all ones (R23). -/
def Sys2Proof.Safety.Counted (s t : State) (k n : Nat) : Prop :=
  (t.cnt k).toNat = min 18446744073709551615 ((s.cnt k).toNat + n)


/-- A requester's access reaches a control register: the host outside M0 and where the Keeper lets it, a core that runs (R55, R612). -/
def Sys2Proof.Safety.Reached (s : State) (q : Req) (off : Nat) : Prop :=
  match q with
  | .host => s.sys.mode ≠ .keep ∧ s.hostWrites off = true
  | .core c => s.coreAlive c.val = true

/-- A requester's read reaches a control register. -/
def Sys2Proof.Safety.ReadOpen (s : State) (q : Req) (off : Nat) : Prop :=
  match q with
  | .host => s.sys.mode ≠ .keep ∧ s.hostReads off = true
  | .core c => s.coreAlive c.val = true

/-- A write reaches its register, by a requester that may make it; the unit does not mirror a Pair's journal, whose shadow takes no
write of these blocks (R69, R496), and the count of refused writes has not reached its top. -/
def Sys2Proof.Safety.WriteOpen (s : State) (q : Req) (off : Nat) : Prop :=
  Reached s q off ∧ s.writerBar q off = none ∧ (isJournalBlock (off / 0x10000) = true → s.sys.mode ≠ .shadow) ∧
    (s.cnt R.SYS_REFUSED_COUNT).toNat < 18446744073709551615

/-- A refused write (R71): counted, with requester, cause and offset in SYS_REFUSED_ADDR, and flagged; nothing else changes. -/
def Sys2Proof.Safety.Refused (s t : State) (q : Req) (cause off : Nat) : Prop :=
  t = (((s.bump R.SYS_REFUSED_COUNT).setReg R.SYS_REFUSED_ADDR (BitVec.ofNat 32 (q.id * 16777216 + cause * 2097152 + off))).setFld
    F.SYS_INT_STATUS.REFUSED 1)

/-- Register accesses (R14 to R22, R71). A write keeps to the access code of each bit: SYS_INT_EN takes its three bits, a one written to
SYS_INT_STATUS clears its bit, and reserved bits stay; a reserved offset refuses the write with cause 1 and reads as zero. A read goes
back to its requester and, no register having an RC field, changes nothing; TIM_NOW_LO latches the upper words for its requester. -/
def Sys2Proof.Safety.RegisterAccesses : Prop :=
  ∀ (s : State) (q : Req),
    let answered (t : State) (w : Word) : State := t.emit (match q with | .host => .completion [w] | .core c => .readData c.val w)
    (∀ v : Word, Reached s q R.SYS_INT_EN → Gives (.registerWrite q R.SYS_INT_EN v) s fun t =>
      t = s.setReg R.SYS_INT_EN ((s.reg R.SYS_INT_EN &&& ~~~7) ||| (v &&& 7))) ∧
    (∀ v : Word, Reached s q R.SYS_INT_STATUS → Gives (.registerWrite q R.SYS_INT_STATUS v) s fun t =>
      t = s.setReg R.SYS_INT_STATUS (s.reg R.SYS_INT_STATUS &&& ~~~(v &&& 7))) ∧
    (∀ v : Word, Reached s q 0xFFFC → Gives (.registerWrite q 0xFFFC v) s fun t => Refused s t q 1 0xFFFC) ∧
    (s.reqDet q = false →
      (ReadOpen s q 0xFFFC → Gives (.rcRead q 0xFFFC) s fun t => t = answered s 0) ∧
      (ReadOpen s q R.SYS_REFUSED_ADDR → Gives (.rcRead q R.SYS_REFUSED_ADDR) s fun t => t = answered s (s.reg R.SYS_REFUSED_ADDR)) ∧
      (ReadOpen s q R.TIM_NOW_LO → Gives (.loReadLatch q R.TIM_NOW_LO) s fun t => t = answered
        ((s.setLatch q R.TIM_NOW_HI (BitVec.ofNat 32 (s.grid80 / 4294967296))).setLatch q R.TIM_NOW_TOP
          (BitVec.ofNat 32 (s.grid80 / 18446744073709551616))) (BitVec.ofNat 32 s.grid80)))

/-- Accesses that fail on their way (R14, R32, R518, R520). One of the wrong width, or unaligned, is an Unsupported Request to the host
and a bus error to a core. A flit with a single-bit error is corrected and reported; with a double-bit error it is reported, a core
takes a bus error, and an engine's word in memory is poisoned; a clean one changes nothing. -/
def Sys2Proof.Safety.FailedAccesses : Prop :=
  ∀ s : State,
    (∀ (addr width : Nat) (write : Bool), addr < ctrlSize → ¬ (width = 4 ∧ addr % 4 = 0) →
      (s.sys.mode ≠ .keep → Gives (.badWidthAccess .host addr width write) s fun t =>
        t = (s.emit .unsupported).bump R.HST_U_UR) ∧
      ∀ c : CoreId, (s.core c.val).run = .run → Gives (.badWidthAccess (.core c) addr width write) s fun t =>
        t = s.excEntry c.val 0x08 (BitVec.ofNat 64 (ctrlBase + addr))) ∧
    (∀ (req : Byte) (addr : Nat),
      Gives (.flitDelivered req addr .clean) s (fun t => t = s) ∧
      Gives (.flitDelivered req addr .single) s (fun t =>
        t.err.detected = s.err.detected ++ [s.found 0x02 addr req.toNat] ∧ t.cores = s.cores ∧ SameMemory s t ∧
        ∀ a, t.poisoned a = s.poisoned a) ∧
      (req.toNat < 21 → (s.core req.toNat).run = .run → Gives (.flitDelivered req addr .double) s fun t =>
        t = (s.detect 0x06 addr req.toNat).excEntry req.toNat 0x08 (BitVec.ofNat 64 addr)) ∧
      (21 ≤ req.toNat → isMemory addr = true → Gives (.flitDelivered req addr .double) s fun t =>
        t.err.detected = s.err.detected ++ [s.found 0x06 addr req.toNat] ∧ t.cores = s.cores ∧ SameMemory s t ∧
        ∀ a, t.poisoned a = (decide (a / 8 = addr / 8) || s.poisoned a)))

/-- Accesses to registers complete or fail as above. -/
def Obligations.Accesses : Prop := Safety.RegisterAccesses ∧ Safety.FailedAccesses

/-! ## Power, boot and modes -/

/-- The unit is in M1, has completed a step of R63, and neither a transition nor a power-fail warning is under way. -/
def Sys2Proof.Safety.AtBoot (s : State) (n : Nat) : Prop :=
  s.sys.mode = .boot ∧ s.sys.bootStep = n ∧ s.sys.trans = none ∧ s.sys.warnAt = none

/-- The Stream Engine PLL stops when all 16 Stream Engines have been in WAIT for 500 µs, with no task on its way to one, and runs
again after a restart (R34). In M0, mains in range for 50 ms resets the unit as a power-on reset (R57, R63, R67): it is in M1 before
step t1, with cause 1, memory and cores as at reset, MRAM kept. -/
def Sys2Proof.Safety.ClockAndMains : Prop :=
  ∀ (s : State) (dt : Nat),
    (∀ t0, (∀ c < 16, (s.core c).run = .wait ∧ (s.core c).given = none ∧ (s.core c).waitAt ≤ t0) → s.sys.pllUpAt ≤ t0 →
      ((∃ c < 16, (s.core c).waitAt = t0) ∨ s.sys.pllUpAt = t0) → s.sys.pll = .running →
      Gives (.pllStop dt) s fun t => t.cores = s.cores ∧ SameMemory s t ∧ t.now = s.now + dt ∧
        t.sys.pll = if 600000 ≤ s.now + dt - t0 then .stopped else .running) ∧
    ((∃ c < 16, (s.core c).run ≠ .wait ∨ (s.core c).given ≠ none) → s.sys.pll = .running → Gives (.pllStop dt) s fun t =>
      t = s.elapse dt) ∧
    (∀ r, s.sys.pll = .restarting r → Gives (.pllRestartDone dt) s fun t =>
      t.sys.pll = .running ∧ t.cores = s.cores ∧ SameMemory s t ∧ t.now = s.now + dt) ∧
    (s.sys.mode = .keep → 60000000 ≤ dt → Gives (.mainsInRange dt) s fun t =>
      t.sys.mode = .boot ∧ t.sys.prevMode = .keep ∧ t.sys.bootStep = 0 ∧ t.fld F.SYS_RESET_CAUSE.CAUSE = 1 ∧ t.mram = s.mram ∧
      t.cores = [] ∧ (∀ a, t.rdByte a = 0) ∧ t.now = s.now + dt ∧ t.pending = s.pending)

/-- The cold start of R63, step by step: rails, the release of the Keeper Core at address 0 with EPOCH raised, its self-tests, DRAM,
the firmware that SV0 and the Keeper Core go on in, the images, and the configuration, after which Grid Time runs and SV0 holds the
recovery role. A failed self-test leaves the unit where it is, in the error state (R566). -/
def Obligations.ColdStart : Prop :=
  ∀ s : State,
    (AtBoot s 0 → Gives .railsUp s fun t => t = { s with sys := { s.sys with powerGood := true, bootStep := 1 } }) ∧
    (AtBoot s 1 → Gives .keeperResetRelease s fun t =>
      t.sys.bootStep = 2 ∧ t.sys.mode = .boot ∧ t.mram.epoch = (s.mram.epoch + 1) % 4294967296 ∧
      t.fld F.SYS_INT_STATUS.MODE_CHANGE = 1 ∧ t.core 20 = { coreReset 20 with run := .run, upAt := s.now, kickAt := s.now }) ∧
    (AtBoot s 2 → Gives (.selfTestsDone false) s fun t => t.sys.bootStep = 2 ∧ t.fld F.SEC_STATUS.ERROR = 1) ∧
    (AtBoot s 2 → s.flag F.SEC_TAMPER_LATCH.LOCKDOWN = false →
      Gives (.selfTestsDone true) s fun t => t.sys.bootStep = 3 ∧ t.sys.mode = .boot ∧ t.sys.trans = none) ∧
    (AtBoot s 3 → Gives .dramTrained s fun t => t = { s with sys := { s.sys with bootStep := 4 } }) ∧
    (AtBoot s 4 → s.bootFailed = false → (s.bootImage 2).2 = true → Gives .firmwareVerified s fun t =>
      t.sys.bootStep = 5 ∧ t.sys.mode = .boot ∧ ∀ c, c = 16 ∨ c = 20 →
        t.core c = { coreReset c with run := .run, pc := mget 0 t.sys.entries 2, upAt := s.now, kickAt := s.now }) ∧
    (AtBoot s 4 → s.bootFailed = false → (s.bootImage 2).2 = false → Gives .firmwareVerified s fun t =>
      t.sys.bootStep = 4 ∧ t.cores = s.cores) ∧
    (AtBoot s 5 → s.bootFailed = false → (s.bootImage 1).2 = true → ((s.bootImage 1).1.bootImage 0).2 = true →
      Gives .imagesVerified s fun t => t.sys.bootStep = 6 ∧ t.sys.mode = .boot ∧
        t.core 16 = { coreReset 16 with run := .run, pc := mget 0 t.sys.entries 1, upAt := s.now, kickAt := s.now }) ∧
    (AtBoot s 6 → Gives .configLoaded s fun t =>
      t.sys.bootStep = 7 ∧ t.sys.mode = .boot ∧ t.sys.t7At = some s.now ∧ t.tim.running = true ∧ t.err.holder = 16)

/-- SYS_MODE_REQ (R57, R59): the result is 5 without the key, for a requester that is not the host, or without a signature the mode asks for, 4 while a
transition or a power-fail warning is under way, 3 for a mode that the rows of R57 do not allow, 6 where a condition of the row does not
hold, and else 1, with the transition begun. The mode itself stands. -/
def Sys2Proof.Safety.ModeRequestResult : Prop :=
  ∀ (s : State) (q : Req) (v : Word), Reached s q R.SYS_MODE_REQ →
    let target := v.toNat % 16
    let key : Prop := v.toNat / 65536 = 0x4D52 ∧ q.id = 24
    let signed : Prop := ∃ a ∈ s.sec.auths, a.1 = target ∧ a.2.1 = q.id ∧ s.now - a.2.2 ≤ 12000000000
    let gives (r : Nat) : Prop := Gives (.modeRequest q v) s fun t =>
      t.fld F.SYS_MODE_STATUS.RESULT = r ∧ t.fld F.SYS_MODE_STATUS.TARGET = target ∧ t.fld F.SYS_MODE_STATUS.REQ_ID = q.id ∧
      t.sys.mode = s.sys.mode ∧
      t.sys.trans = if r = 1 then (modeOf target).map fun m => ⟨m, true, 0⟩ else s.sys.trans
    (¬ key → gives 5) ∧
    (key → s.sys.trans.isSome ∨ s.sys.warnAt.isSome → gives 4) ∧
    (key → s.sys.trans = none → s.sys.warnAt = none →
      ((∀ m, modeOf target = some m → requestFrom m s.sys.mode = false) → gives 3) ∧
      ∀ m, modeOf target = some m → requestFrom m s.sys.mode = true →
        (needsSignature m s.sys.mode = true → ¬ signed → gives 5) ∧
        ((needsSignature m s.sys.mode = true → signed) →
          (s.requestMet m = false → gives 6) ∧ (s.requestMet m = true → gives 1)))

/-- A transition completes (R56, R58, R61): the mode and the mode before are recorded, MODE_CHANGE is flagged, a request's result
becomes 2, and in M0, M10 and M11 no core of ID 0 to 19 runs. -/
def Sys2Proof.Safety.ModeEntered : Prop :=
  ∀ (s : State) (x : Trans), s.sys.trans = some x → (x.requested = true → s.xng.handover = none) →
    Gives .modeEntry s fun t =>
      t.sys.mode = x.target ∧ t.sys.prevMode = s.sys.mode ∧ t.fld F.SYS_INT_STATUS.MODE_CHANGE = 1 ∧
      (x.requested = true → t.fld F.SYS_MODE_STATUS.RESULT = 2) ∧
      (x.target = .keep ∨ x.target = .lockdown ∨ x.target = .dormant → ∀ c < 20, (t.core c).run = .off)

/-- Mode requests and the entry of a mode act as above. -/
def Obligations.ModeTransitions : Prop := Safety.ModeRequestResult ∧ Safety.ModeEntered

/-- Power loss (R65, R66): the warning is latched; 50 ms later no core runs; 70 ms later the unit is in M0 with its rails gone. The
waits of a Boot expire (R62, R493), and a wake slot that has counted its events fires, the first one in M11 resetting the unit into M1
with DRAM kept (R64, R481). -/
def Sys2Proof.Safety.PowerLossAndWake : Prop :=
  ∀ (s : State) (dt : Nat),
    (s.sys.warnAt = none → s.sys.powerGood = true → s.sys.mode ≠ .keep → Gives .powerFailWarning s fun t =>
      t.sys.warnAt = some s.now ∧ t.sys.mode = s.sys.mode ∧ t.now = s.now) ∧
    (∀ w, s.sys.warnAt = some w → 60000000 ≤ s.now + dt - w → s.sys.coresOff = false → Gives (.powerFailOutputsSafe dt) s fun t =>
      t.sys.coresOff = true ∧ (∀ c < 21, (t.core c).run = .off) ∧ t.sys.mode = s.sys.mode) ∧
    (∀ w, s.sys.warnAt = some w → 84000000 ≤ s.now + dt - w → Gives (.powerGoodLost dt) s fun t =>
      t.sys.mode = .keep ∧ t.sys.powerGood = false ∧ t.sys.warnAt = none ∧ t.tim.running = false ∧ ∀ c < 21, (t.core c).run = .off) ∧
    (∀ b, s.sys.t7At = some b → s.sys.timeWaitUp = false → s.fld F.SYS_BOOT_TIMEWAIT.SECONDS * 1200000000 ≤ s.now + dt - b →
      Gives (.bootTimewaitExpire dt) s fun t => t.sys.timeWaitUp = true ∧ t.now = s.now + dt) ∧
    (∀ b, s.sys.t7At = some b → s.paired = true → s.xng.hb = none →
      s.fld F.XNG_TIMING.BOOT_WAIT_S * 1200000000 ≤ s.now + dt - b →
      Gives (.pairBootWaitExpire dt) s fun t => t.sys.pairWaitUp = true ∧ t.now = s.now + dt) ∧
    (∀ k : BitVec 4, s.slotDue k.toNat = true →
      (s.fld F.IC_WAKE_CAUSE.FIRED ≠ 0 → Gives (.wakeSourceFired k) s fun t =>
        t = s.setFld ⟨R.IC_WAKE_CAUSE, k.toNat, k.toNat⟩ 1) ∧
      (s.fld F.IC_WAKE_CAUSE.FIRED = 0 → s.sys.mode = .dormant → s.sys.trans = none → s.sys.warnAt = none →
        Gives (.wakeSourceFired k) s fun t => t.sys.mode = .boot ∧ t.sys.bootStep = 0 ∧
          t.sys.bootFromWake = true ∧ t.fld F.IC_WAKE_CAUSE.FIRST = k.toNat ∧ t.flag F.IC_WAKE_CAUSE.VALID = true ∧
          ∀ a, dramStart ≤ a → t.rdByte a = s.rdByte a))

/-- The clock, mains, a loss of power and a wake (R34, R57, R63 to R66) act as above. -/
def Obligations.PowerAndClock : Prop := Safety.ClockAndMains ∧ Safety.PowerLossAndWake

/-! ## Resets and run controls -/

/-- Resets (R67, R76, R526, R573). SYS_RESET with its key from the host or a Supervisor at S resets the unit into M1 at step t1 with the
cause of its requester, or from M10 with cause 6 and slot 15 erased; cores and memory start again and MRAM is kept; another key does
nothing, another requester is refused. A backup loss takes the calendar as well. SYS_CORE_RESET by the holder of the recovery role ends
a core's task, frees its locks and names it out. -/
def Obligations.Resets : Prop :=
  ∀ (s : State) (q : Req) (v : Word),
    (Reached s q R.SYS_RESET →
      (s.mayCommand q = false → Gives (.unitReset q v) s fun t => Refused s t q 4 R.SYS_RESET) ∧
      (s.mayCommand q = true → v.toNat / 65536 ≠ 0x5253 → Gives (.unitReset q v) s fun t => t = s) ∧
      (s.mayCommand q = true → v.toNat / 65536 = 0x5253 → v.toNat % 4 = 1 → s.mayReset = true → Gives (.unitReset q v) s fun t =>
        t.sys.mode = .boot ∧ t.sys.prevMode = s.sys.mode ∧ t.sys.bootStep = 1 ∧ t.cores = [] ∧ (∀ a, t.rdByte a = 0) ∧
        t.fld F.SYS_RESET_CAUSE.CAUSE = (if s.sys.mode = .lockdown then 6 else if q = .host then 2 else 3) ∧
        t.mram = if s.sys.mode = .lockdown then s.mram.eraseKey 15 else s.mram)) ∧
    (s.sys.mode = .keep → Gives .backupLossReset s fun t =>
      t.sys.mode = .boot ∧ t.sys.bootStep = 0 ∧ t.fld F.SYS_RESET_CAUSE.CAUSE = 7 ∧ t.und.invalid = true ∧ t.mram = s.mram) ∧
    (Reached s q R.SYS_CORE_RESET →
      (s.isHolder q = false → Gives (.coreReset q v) s fun t => Refused s t q 4 R.SYS_CORE_RESET) ∧
      ∀ c < 20, s.isHolder q = true → v.toNat = 2 ^ c → Gives (.coreReset q v) s fun t =>
        (t.core c).run = (if (s.core c).run = .off then .off else .run) ∧ (t.core c).task = none ∧ (t.core c).given = none ∧
        (∀ n, t.lock n ≠ c + 1) ∧ bitOf (t.reg R.SYS_DEGRADED).toNat (coreOutBit c) = true ∧
        ∀ d, d ≠ c → t.core d = s.core d)

/-- A write of a block's CTRL register that may change RUN: the register is reached, the mode bars nothing, and its other bits hold no
reserved value. -/
def Sys2Proof.Safety.RunOpen (s : State) (q : Req) (off v : Nat) : Prop :=
  WriteOpen s q off ∧ s.barOf q false off = none ∧ ∀ d, findReg off = some d → reservedHit s.sys.nominal60 d.fields v = false

/-- Blocks stop and start (R68, R69, R86). RUN written to zero in a mode that permits it clears RUN, and STOPPED follows at the stop
point; in another mode it is refused with cause 3. RUN written to one on a stopped block sets RUN and clears STOPPED. -/
def Sys2Proof.Safety.BlockRunControl : Prop :=
  ∀ (s : State) (q : Req) (b : BlockId),
    let c := blkRunCtl b
    let v := s.withRun (blkCtrl b)
    let word := s.reg (blkCtrl b)
    (∀ p, b = .port p → word.getLsbD 12 = false ∧ (word.getLsbD 10 = true → s.sys.mode = .test)) →
    (RunOpen s q (blkCtrl b) (v false) → s.flag c.run = true → mayStop c.stops s.sys.mode = false →
      Gives (.blockStop q b) s fun t => Refused s t q 3 (blkCtrl b)) ∧
    (RunOpen s q (blkCtrl b) (v false) → s.flag c.run = true → mayStop c.stops s.sys.mode = true →
      Gives (.blockStop q b) s fun t =>
        t.flag c.run = false ∧ t.flag c.stopped = s.flag c.stopped ∧ t.sys.mode = s.sys.mode) ∧
    (s.flag c.run = false → s.flag c.stopped = false → s.atStopPoint b = true → Gives (.blockStopped b) s fun t =>
      t.flag c.stopped = true ∧ t.flag c.run = false ∧ t.sys.mode = s.sys.mode) ∧
    (RunOpen s q (blkCtrl b) (v true) → s.flag c.run = false → s.flag c.stopped = true →
      Gives (.blockStart q b) s fun t =>
        t.flag c.run = true ∧ t.flag c.stopped = false ∧ t.sys.mode = s.sys.mode)

/-- A block reset (R67, R527, R528; log 30) on a block that is stopped leaves it stopped with RUN zero, and leaves the cores and the
mode alone; it is refused while the block runs or is stopping. -/
def Sys2Proof.Safety.BlockResets : Prop :=
  ∀ (s : State) (q : Req) (b : BlockId), Reached s q (blkCtrl b) →
    (∀ c, s.resetBar q b = some c → Gives (.blockReset q b) s fun t => Refused s t q c (blkCtrl b)) ∧
    (s.resetBar q b = none → Gives (.blockReset q b) s fun t =>
      t.flag (blkRunCtl b).run = false ∧ t.flag (blkRunCtl b).stopped = true ∧ t.cores = s.cores ∧ t.sys = s.sys)

/-- Blocks run, stop and reset as above. -/
def Obligations.BlockControl : Prop := Safety.BlockRunControl ∧ Safety.BlockResets

/-- Groves (R70, R179, R203). RUN of a Grove written to one, with a configuration that stands, makes it wait for its start mark, and
with one that does not leaves RUN at zero; RUN written to zero fixes the boundary, the Grove stopping after its open Sets. -/
def Obligations.GroveRunControl : Prop :=
  ∀ (s : State) (q : Req) (g : Grove),
    let off := R.GLD_G_CTRL + 0x40 * g.val
    let run := F.GLD_G_CTRL.RUN.at (0x40 * g.val)
    let rate := s.fld (F.GLD_G_CTRL.RATE.at (0x40 * g.val))
    (RunOpen s q off (s.withRun off true) → s.flag run = false → s.flag (F.GLD_G_STATUS.STOPPED.at (0x40 * g.val)) = true →
      s.rateConflict g.val rate = false →
      ((s.setFld run 1).badCfg g.val = 0 → Gives (.groveRun q g) s fun t => t.flag run = true ∧ (t.grove g.val).run = .starting) ∧
      ((s.setFld run 1).badCfg g.val ≠ 0 → (s.grove g.val).run = .stopped → Gives (.groveRun q g) s fun t =>
        t.flag run = false ∧ (t.grove g.val).run = .stopped)) ∧
    (∀ x, RunOpen s q off (s.withRun off false) → s.flag run = true → s.rateConflict g.val rate = false →
      mayStop 2 s.sys.mode = true → (s.grove g.val).run = .running → (s.grove g.val).openSets.getLast? = some x →
      Gives (.groveStop q g) s fun t =>
        t.flag run = false ∧ (t.grove g.val).run = .stopping ∧ (t.grove g.val).boundary = x.ttag)

/-- Test sessions (R73, R75). In M8 with injection on, a descriptor that keeps the layout is taken from its queue and held, another is
counted as bad; at its time the frame enters its port's receive path and is counted. A kick restarts the session's watchdog, and when
that expires the unit begins to leave for M3. -/
def Obligations.TestSessions : Prop :=
  ∀ (s : State) (dt : Nat),
    (∀ e, s.injects = true → s.sys.injHeld = none → (s.pop (s.fld F.SYS_TEST_CTRL.INJ_QUEUE) 32).2.2 = some e → e.marker = false →
      let u := (s.pop (s.fld F.SYS_TEST_CTRL.INJ_QUEUE) 32).1
      Gives .injectDescriptor s fun t =>
        t = if injOk e.data then { u with sys := { u.sys with injHeld := some e.data } } else u.bump R.SYS_TEST_BAD) ∧
    (∀ e, (s.elapse dt).injects = true → s.sys.injHeld = some e → (injAt e = 0 ∨ gtAtOrAfter (s.elapse dt).gt (injAt e) = true) →
      Gives (.injectFrame dt) s fun t => t.sys.injHeld = none ∧ t.now = s.now + dt ∧
        (s.pflag (injPort e) F.NET_STATUS.STOPPED = true →
          Counted s t R.SYS_TEST_BAD 1) ∧
        (s.pflag (injPort e) F.NET_STATUS.STOPPED = false → s.pflag (injPort e) F.NET_CTRL.RX_EN = true →
          Counted s t R.SYS_TEST_INJECTED 1)) ∧
    (∀ (q : Req) (v : Word), Reached s q R.SYS_TEST_WDOG → s.sys.mode = .test → v.toNat / 2147483648 = 1 →
      1 ≤ v.toNat % 4096 → v.toNat % 4096 ≤ 3600 →
      Gives (.testWdogKick q v) s fun t => t.sys.testWdogAt = s.now ∧ t.fld F.SYS_TEST_WDOG.SECONDS = v.toNat % 4096) ∧
    (s.sys.mode = .test → s.sys.trans = none → s.fld F.SYS_TEST_WDOG.SECONDS * 1200000000 ≤ s.now + dt - s.sys.testWdogAt →
      Gives (.testWdogExpire dt) s fun t => t.sys.trans = some ⟨.commission, false, 10⟩ ∧ t.sys.mode = .test)

/-! ## Faults and recovery -/

/-- A fault at the collector (R518, R522) is counted, its class is flagged and, with room in the log and none like it there, its record
is appended with the code, the place, the requester and the class, and with the time and the EPOCH of its detection; codes of no class
change nothing. Of the faults the unit detected, those of the oldest clk come first, and of one clk the lowest CODE, then the lowest
REQ. -/
def Sys2Proof.Safety.FaultRecords : Prop :=
  ∀ (s : State) (f : Found) (l : List Found), s.err.detected = f :: l →
    let r := firstFound f l
    (r.1.clk = f.clk ∧ ∀ x, x ∈ f :: l → x.clk = f.clk → x.before r.1 = false) ∧
    (faultClass r.1.code = none → Gives (.faultReport none) s fun t => t = { s with err := { s.err with detected := r.2 } }) ∧
    (∀ cls, faultClass r.1.code = some cls → s.err.log = [] →
      r.1.code ∉ [0x10, 0x11, 0x12, 0x18, 0x19, 0x1A, 0x30, 0x31, 0x24] → s.paired = false →
      Gives (.faultReport none) s fun t => t.err.detected = r.2 ∧ t.flag ⟨R.ERR_INT_STATUS, cls, cls⟩ = true ∧
        (∃ x, t.err.log = [x] ∧ x.code = r.1.code ∧ x.whereF = r.1.whereF ∧ x.req = r.1.req ∧ x.cls = cls ∧
          x.tDetect = r.1.time ∧ x.epoch = r.1.epoch ∧ x.count = 0) ∧
        Counted s t R.ERR_U_FAULTS 1 ∧ t.cores = s.cores)

/-- Watchdogs (R519): half the period without a kick raises the core's warning, the whole period reports fault 0x10, and a kick by the
core itself, at S, restarts it. -/
def Obligations.Watchdogs : Prop :=
  ∀ (s : State) (c : CoreId) (dt : Nat),
    let k := s.core c.val
    (s.wdogRuns c.val = true → k.wdogWarned = false → s.wdogPeriod c.val * 1200 ≤ 2 * (s.now + dt - k.kickAt) →
      Gives (.watchdogWarning c dt) s fun t => t = (s.elapse dt).setCore c.val { k with wdogWarned := true }) ∧
    (s.wdogRuns c.val = true → s.wdogPeriod c.val * 1200 ≤ s.now + dt - k.kickAt → Gives (.watchdogExpire c dt) s fun t =>
      t.core c.val = { k with wdogExpired := true } ∧ OtherCores s t c.val ∧
      t.err.detected = s.err.detected ++ [(s.elapse dt).found 0x10 c.val c.val]) ∧
    (∀ v : Word, c.val < 20 → s.coreAlive c.val = true → k.pl ≠ 0 → Gives (.watchdogKick (.core c) v) s fun t =>
      t = if v.getLsbD 0 then s.setCore c.val { k with kickAt := s.now, wdogWarned := false } else s)

/-- The scrubber corrects a single-bit error and poisons a word with a double-bit error, reporting each; a word already poisoned is not
reported again, its read counts, and no byte of memory changes (R520). -/
def Sys2Proof.Safety.Scrubbing : Prop :=
  ∀ (s : State) (addr : Nat), isMemory addr = true →
    (s.poisoned addr = false → Gives (.scrub addr (some .single)) s fun t => SameMemory s t ∧ t.cores = s.cores ∧
      t.err = { s.err with detected := s.err.detected ++ [s.found 0x01 addr 43] } ∧
      Counted s t R.ERR_U_SCRUB_CORRECTED 1) ∧
    (s.poisoned addr = false → Gives (.scrub addr (some .double)) s fun t => SameMemory s t ∧ t.cores = s.cores ∧
      t.err.detected = s.err.detected ++ [s.found 0x05 addr 43] ∧ ∀ a, t.poisoned a = (decide (a / 8 = addr / 8) || s.poisoned a)) ∧
    (s.poisoned addr = true → ∀ e, Gives (.scrub addr e) s fun t => t = s.bump R.ERR_U_POISON_READS) ∧
    (s.poisoned addr = false → Gives (.scrub addr (some .clean)) s fun t => t = s)

/-- Fault records and scrubbing act as above. -/
def Obligations.FaultsAndScrubbing : Prop := Safety.FaultRecords ∧ Safety.Scrubbing

/-- The recovery (R521, R524 to R526, R528 to R530). A stream's reload gives its entries their committed words and releases it. Popping
the log drops its oldest record. In M9 the holder's epoch break raises EPOCH, but not on a shadow (R517), its exit begins the transition back, and its kick restarts
the role's watchdog; a kick missed for RSV_TIMEOUT_MS reports fault 0x1A and passes the role on or reports 0x31. A core's abort ends its
task and puts it into WAIT; ERR_CORE_UP brings a core back; the last resort resets the unit when its hold is over. -/
def Obligations.RecoveryCommands : Prop :=
  ∀ (s : State) (q : Req),
    (∀ i : BitVec 14, Gives (.streamReloadDone i) s fun t =>
      t.contains i.toNat = false ∧ t.cores = s.cores ∧
      t.tf TF.ING.Directory.CFG_STATE i.toNat = if mget false s.err.contained i.toNat then 1 else s.tf TF.ING.Directory.CFG_STATE i.toNat) ∧
    (∀ v : Word, Reached s q R.ERR_LOG_POP → v.getLsbD 0 = true → Gives (.faultLogPop q v) s fun t =>
      t = { s with err := { s.err with log := s.err.log.tail } }) ∧
    (Reached s q R.ERR_RECOVER → s.isHolder q = true → s.sys.mode = .recovery →
      (s.ownJournal = true → Gives (.epochBreak q 0x4543) s fun t =>
        t.mram.epoch = (s.mram.epoch + 1) % 4294967296 ∧ t.reg R.ERR_EPOCH = BitVec.ofNat 32 t.mram.epoch) ∧
      (s.ownJournal = false → Gives (.epochBreak q 0x4543) s fun t => t = s) ∧
      (s.sys.trans = none → Gives (.recoveryExit q 0x4543) s fun t =>
        t.err.recovering = false ∧ t.sys.trans = some ⟨s.recoveryTarget, false, 9⟩)) ∧
    (∀ v : Word, Reached s q R.ERR_RSV_KICK → s.isHolder q = true → v.toNat / 65536 = 0x5256 → Gives (.rsvKick q v) s fun t =>
      t = { s with err := { s.err with rsvAt := s.now } }) ∧
    (∀ dt, s.err.recovering = true → s.err.overrun = true →
      s.fld F.ERR_CTRL.RSV_TIMEOUT_MS * 1200000 ≤ s.now + dt - s.err.rsvAt → Gives (.rsvTimeout dt) s fun t =>
        (s.err.holder, s.err.holder) ∈ t.err.detected.map (fun f => (f.whereF, f.req)) ∧ t.err.rsvAt = s.now + dt ∧
        t.err.holder = (s.nextHolder).getD s.err.holder) ∧
    (∀ (c : CoreId) (v : Word), c.val < 20 → s.coreAlive c.val = true → (s.core c.val).pl ≠ 0 → v.getLsbD 0 = true →
      (s.core c.val).task.isSome → Gives (.taskAbort (.core c) v) s fun t =>
        (t.core c.val).run = .wait ∧ (t.core c.val).task = none ∧ OtherCores s t c.val) ∧
    (∀ (c : Nat) (v : Word), c < 20 → Reached s q R.ERR_CORE_UP → (s.isHolder q = true ∨ q.id = c) → v.toNat = 2 ^ c →
      bitOf (s.reg R.ERR_CORE_UP).toNat c = false → Gives (.coreUp q v) s fun t =>
        bitOf (t.reg R.ERR_CORE_UP).toNat c = true ∧ bitOf (t.reg R.SYS_DEGRADED).toNat (coreOutBit c) = false) ∧
    (∀ dt h, s.err.lastResort = some h → h ≤ s.now + dt → s.mayReset = true → Gives (.lastResortReset dt) s fun t =>
      t.sys.mode = .boot ∧ t.sys.prevMode = s.sys.mode ∧ t.fld F.SYS_RESET_CAUSE.CAUSE = 4 ∧ t.mram = s.mram ∧ t.cores = [])

/-! ## Ports -/

/-- A port takes frames from the medium: not stopped, receiving, not looped (R74, R86, R107). -/
def Sys2Proof.Safety.Takes (s : State) (p : Nat) : Prop :=
  s.pflag p F.NET_STATUS.STOPPED = false ∧ s.pflag p F.NET_CTRL.RX_EN = true ∧ s.looped p = false

/-- Reception (R81 to R85). A port that takes no frames leaves everything as it was. Else the frame is seen, and the first check it
fails counts it and drops it: the receive buffer, a coding error, a runt, the FCS. A good frame for the station, on a permitted VLAN
and without MACsec, waits in the receive buffer with its arrival stamp, or goes to the timebase when it is a PTP message. -/
def Obligations.FrameReception : Prop :=
  ∀ (s : State) (p : Port) (pcs : Bool) (wire : List Byte) (dt : Nat),
    let u := s.elapse dt
    let max := s.pfld p.val F.NET_MAXLEN.BYTES
    let body := wire.take (wire.length - 4)
    let fits : Prop := s.rxUsed p.val + min max wire.length ≤ rxBuffer p.val
    let drops (t : State) (r : Nat) : Prop := t.ing = s.ing ∧ t.tim = u.tim ∧
      Counted s t (pcnt R.NET_RX_SEEN p.val) 1 ∧ Counted s t (pcnt r p.val) 1
    (¬ Takes s p.val → Gives (.rxFrame p pcs wire dt) s fun t => t = u) ∧
    (Takes s p.val →
      (¬ fits → Gives (.rxFrame p pcs wire dt) s fun t => drops t R.NET_RX_OVERFLOW) ∧
      (fits → wire.length ≤ max →
        (pcs = true → Gives (.rxFrame p pcs wire dt) s fun t => drops t R.NET_RX_PCS_ERROR) ∧
        (pcs = false → wire.length < 64 → Gives (.rxFrame p pcs wire dt) s fun t => drops t R.NET_RX_RUNT) ∧
        (pcs = false → 64 ≤ wire.length → leNat (wire.drop (wire.length - 4)) ≠ crc32 body →
          Gives (.rxFrame p pcs wire dt) s fun t => drops t R.NET_RX_FCS_ERROR) ∧
        (pcs = false → 64 ≤ wire.length → leNat (wire.drop (wire.length - 4)) = crc32 body → beAt body 12 2 ≠ 0x8808 →
          s.addrOk p.val body = true → s.vlanOk p.val body = true → s.pflag p.val F.NET_CTRL.MACSEC_EN = false →
          Gives (.rxFrame p pcs wire dt) s fun t => Counted s t (pcnt R.NET_RX_SEEN p.val) 1 ∧
            if isPtp body then t.ing = s.ing ∧ t.tim = { u.tim with
                ptpQ := s.tim.ptpQ ++ [⟨p.val, u.arrivalStamp p.val wire.length, body⟩] }
            else t.tim = u.tim ∧ t.ing = { s.ing with
                eth := s.ing.eth ++ [⟨p.val, body, false, u.arrivalStamp p.val wire.length⟩] })))

/-- Pause (R88 to R91): when the timer runs out, the time it held a frame is counted; while backpressure lasts a pause frame joins
the transmit buffer in class 1 every REFRESH, when the port may send one, and once it is over no refresh is due. -/
def Sys2Proof.Safety.PauseTimers : Prop :=
  ∀ (s : State) (p : Port) (dt : Nat),
    let x := s.port p.val
    (∀ h, x.holdFrom = some h → x.pauseUntil ≤ s.now + dt → Gives (.pauseTimerExpire p dt) s fun t =>
      t.port p.val = { x with holdFrom := none } ∧ Counted s t (pcnt R.NET_TX_PAUSED_NS p.val) ((x.pauseUntil - h) * 5 / 6)) ∧
    (∀ r, x.refreshAt = some r → r ≤ s.now + dt →
      (s.sendsPause p.val = true → s.portBp p.val = true → Gives (.pauseRefresh p dt) s fun t =>
        (t.port p.val).tx = x.tx ++ [⟨1, pauseBytes (s.station p.val) (s.pfld p.val F.NET_PAUSE.TIME),
          .pause (s.pfld p.val F.NET_PAUSE.TIME)⟩] ∧ t.out = s.out ∧
        (t.port p.val).refreshAt = some (s.now + dt + s.pfld p.val F.NET_PAUSE.REFRESH * 1200)) ∧
      (s.sendsPause p.val = false → s.portBp p.val = true → Gives (.pauseRefresh p dt) s fun t =>
        t.port p.val = { x with refreshAt := some (s.now + dt + s.pfld p.val F.NET_PAUSE.REFRESH * 1200) } ∧ t.out = s.out) ∧
      (s.portBp p.val = false → Gives (.pauseRefresh p dt) s fun t =>
        t.out = s.out ∧ t.port p.val = { x with refreshAt := none }))

/-- Transmission (R92 to R95). A frame submitted joins its port's buffer. The first frame of the highest-priority class that has one
starts when the port runs, has link and is not paused, or is discarded without link; at its end it is counted as sent. A flush of a
stopped port empties its buffer and counts what it drops. -/
def Obligations.Transmission : Prop :=
  ∀ (s : State) (p : Port) (dt : Nat),
    let x := s.port p.val
    (∀ (cls : Fin 5) (bytes : List Byte), Gives (.txSubmit p cls bytes) s fun t =>
      (t.port p.val).tx = x.tx ++ [⟨cls.val, bytes, .plain⟩] ∧ Counted s t (pcnt R.NET_TX_SUBMITTED p.val) 1) ∧
    (∀ (a b : List TxFrame) (f : TxFrame), x.tx = a ++ f :: b → f.cls < 5 → (∀ g ∈ a, f.cls < g.cls) → (∀ g ∈ b, f.cls ≤ g.cls) →
      x.cur = none → s.pflag p.val F.NET_CTRL.RUN = true → s.pflag p.val F.NET_STATUS.STOPPED = false → s.looped p.val = false →
      (s.pflag p.val F.NET_STATUS.LINK = false ∨ s.pflag p.val F.NET_CTRL.TX_EN = false →
        Gives (.txStart p dt) s fun t => (t.port p.val).tx = a ++ b ∧ (t.port p.val).cur = none ∧ t.out = s.out ∧
          Counted s t (pcnt R.NET_TX_LINK_DOWN p.val) (if f.tag.isPause then 0 else 1)) ∧
      (s.pflag p.val F.NET_STATUS.LINK = true → s.pflag p.val F.NET_CTRL.TX_EN = true → x.pauseUntil ≤ s.now + dt → f.tag = .plain →
        s.pflag p.val F.NET_CTRL.MACSEC_EN = false → Gives (.txStart p dt) s fun t =>
          (t.port p.val).tx = a ++ b ∧ (t.port p.val).cur = some ⟨f.cls, padded f.bytes, .plain⟩ ∧
          t.out = .frame p.val (withFcs (padded f.bytes)) :: s.out) ∧
      (s.pflag p.val F.NET_STATUS.LINK = true → s.pflag p.val F.NET_CTRL.TX_EN = true → x.pauseUntil ≤ s.now + dt →
        ∀ q, f.tag = .pause q → Gives (.txStart p dt) s fun t =>
          (t.port p.val).tx = a ++ b ∧ (t.port p.val).cur = some ⟨f.cls, padded f.bytes, .pause q⟩ ∧ t.out = .pause p.val q :: s.out)) ∧
    (∀ f, x.cur = some f → Gives (.txDone p dt) s fun t => (t.port p.val).cur = none ∧
      Counted s t (pcnt (if f.tag.isPause then R.NET_TX_PAUSE_SENT else R.NET_TX_SENT) p.val) 1 ∧
      (f.tag = .heartbeat → t.xng.hbStamp = x.curStamp)) ∧
    (∀ q : Req, WriteOpen s q (R.NET_CTRL + netWin p.val) → s.pflag p.val F.NET_STATUS.STOPPED = true →
      (s.pflag p.val F.NET_CTRL.PROMISC = true → s.sys.mode = .test) → (s.reg (R.NET_CTRL + netWin p.val)).toNat / 32 % 4 ≠ 3 →
      (s.pflag p.val F.NET_CTRL.RUN = false) → Gives (.txFlush q p) s fun t =>
        (t.port p.val).tx = [] ∧ Counted s t (pcnt R.NET_TX_FLUSHED p.val) (x.tx.filter fun f => !f.tag.isPause).length)

/-- The physical state of a port (R632, R650): a change of link or module is kept, and from step t7 on shown in NET_STATUS; a port in a
module slot has link only with a module that fits and with a rate and FEC that R78 names together. -/
def Sys2Proof.Safety.PhysicalState : Prop :=
  ∀ (s : State) (p : Port) (b f : Bool),
    let x := s.port p.val
    Gives (.linkChange p b f) s (fun t => t.port p.val = { x with link := b, fecLock := f } ∧
      (7 ≤ s.sys.bootStep → t.pflag p.val F.NET_STATUS.LINK = (b && (x.moduleOk || decide (4 ≤ p.val)) && s.phyKnown p.val))) ∧
    Gives (.moduleInsert p b f) s fun t => t.port p.val = { x with moduleIn := b, moduleOk := b && f } ∧
      (7 ≤ s.sys.bootStep → t.pflag p.val F.NET_STATUS.MODULE = (b && decide (p.val < 4)) ∧
        t.pflag p.val F.NET_STATUS.LINK = (x.link && ((b && f) || decide (4 ≤ p.val)) && s.phyKnown p.val))

/-- Pause timers and the physical state of a port act as above. -/
def Obligations.PortStates : Prop := Safety.PauseTimers ∧ Safety.PhysicalState

/-! ## Ingest and tables -/

/-- PARSER_FRAME_IN (R113, R451). Under backpressure the head of the receive line stays. Else it leaves the line, is counted, and the
first rule that fits decides. Only counted are a frame that the unit does not ingest, a truncated one, an unsound IP or transport header,
and a fragment. A heartbeat goes to the Crossing. A frame that is neither of a connection nor of a source is copied to the pass buffer and
queued, or counted as dropped where the buffer has no room. -/
def Sys2Proof.Safety.ParserFrames : Prop :=
  ∀ (s : State) (e : EthIn) (l : List EthIn) (dt : Nat), s.ing.eth = e :: l → e.port < 6 →
    let m := e.bytes
    let ip : Prop := isV4 m = true ∨ isV6 m = true
    let taken (t : State) (r : Nat) : Prop := t.ing = { s.ing with eth := l } ∧ Counted s t R.ING_U_FROM_MAC 1 ∧
      Counted s t (pcnt R.NET_RX_TO_PARSER e.port) 1 ∧ Counted s t r 1
    let only (r : Nat) : Prop := Gives (.parserFrameIn dt) s fun t =>
      taken t r ∧ t.net = s.net ∧ t.rbt = s.rbt ∧ t.xng = s.xng ∧ t.tbl = s.tbl ∧ t.regs = s.regs ∧ SameMemory s t
    let takes : Prop := s.flag F.ING_STATUS.STOPPED = false ∧ s.handGate e.arrival = true
    let clear : Prop := takes ∧ e.truncated = false ∧ s.isHeartbeat e = false
    let sound : Prop := ip → ipHeaderOk m = true ∧ ((ipProto m).2.2 = true ∨ transportOk m = true)
    let whole : Prop := ip → (ipProto m).2.2 = false
    (s.parserBp = true → Gives (.parserFrameIn dt) s fun t => t = s.elapse dt) ∧
    (s.parserBp = false →
      (¬ takes → only R.ING_U_NOT_INGESTING) ∧
      (takes → e.truncated = true → only R.ING_U_TRUNCATED) ∧
      (takes → e.truncated = false → s.isHeartbeat e = true → Gives (.parserFrameIn dt) s fun t =>
        taken t R.ING_U_TO_CROSSING ∧ t.xng = { s.xng with hbIn := s.xng.hbIn ++ [m.drop (etherOff m)] }) ∧
      (clear → ¬ sound → only R.ING_U_IP_ERROR) ∧
      (clear → sound → ¬ whole → only R.ING_U_FRAGMENT) ∧
      (clear → sound → whole → (isTcp m = true → s.findConn m = none) → (isUdp m = true → s.findSource e.port m = none) →
        (s.passCopy m = none → only R.ING_U_PASS_DROPPED) ∧
        (∀ x, s.passCopy m = some x →
          let n := s.fld F.ING_SV_QUEUE.PASS
          s.mayPush n 33 = true → (s.queue n).intact = true → (s.queue n).resetting = false → (s.queue n).level < s.qCap n →
          Gives (.parserFrameIn dt) s fun t => taken t R.ING_U_TO_SUPERVISOR ∧ t.reg R.ING_PASS_WRITE = BitVec.ofNat 32 x.2.2 ∧
            Counted s t (qCnt n 1) 1)))

/-- A segment of an open connection and a datagram of a C37.118 source, sound and whole (R116, R118, R123, R125, R143). A reset closes its
connection. A segment with data out of order is counted and acknowledged, and RCV_NXT stays; one in order moves RCV_NXT past what the
window takes. A datagram whose frame fails a check, or has no known identity, is only counted. One good data frame whose blocks belong to
streams joins the pending buffer, where it has room. -/
def Sys2Proof.Safety.MeasurementFrames : Prop :=
  ∀ (s : State) (e : EthIn) (l : List EthIn) (dt : Nat), s.ing.eth = e :: l → s.parserBp = false →
    s.flag F.ING_STATUS.STOPPED = false → s.handGate e.arrival = true → e.truncated = false → s.isHeartbeat e = false →
    let m := e.bytes
    ipHeaderOk m = true → transportOk m = true →
    (∀ c, isTcp m = true → s.findConn m = some c →
      let h := (ipProto m).2.1
      let head := beAt m (h + 12) 1 / 16 * 4
      let load := slice m (h + head) (ipPayloadLen m - head)
      let reset := bitOf (beAt m (h + 13) 1) 2
      let got (t : State) : Prop := t.ing.eth = l ∧ Counted s t R.ING_U_TCP_SEGMENTS 1
      (reset = true → Gives (.parserFrameIn dt) s fun t => got t ∧ t.tflag TF.ING.Connection.OPEN c = false ∧
        t.tf TF.ING.Connection.CLOSE c = 2 ∧ t.conn c = connIdle) ∧
      (reset = false → beAt m (h + 4) 4 ≠ s.tf TF.ING.Connection.RCV_NXT c → load ≠ [] → Gives (.parserFrameIn dt) s fun t =>
        got t ∧ Counted s t R.ING_U_TCP_OUT_OF_ORDER 1 ∧ t.tf TF.ING.Connection.RCV_NXT c = s.tf TF.ING.Connection.RCV_NXT c ∧
        ∃ f, (t.port e.port).tx = (s.port e.port).tx ++ [f] ∧ f.cls = 4) ∧
      (reset = false → beAt m (h + 4) 4 = s.tf TF.ING.Connection.RCV_NXT c → Gives (.parserFrameIn dt) s fun t => got t ∧
        t.tf TF.ING.Connection.RCV_NXT c =
          (s.tf TF.ING.Connection.RCV_NXT c + min load.length (8192 - (s.conn c).held.length)) % 4294967296)) ∧
    (∀ i, isUdp m = true → s.findSource e.port m = some i → s.tf TF.ING.Source.TRANSPORT i = 0 →
      let d := udpPayload m
      let check := checkFrame (fun n => decide (n = d.length)) d
      let only (r : Nat) : Prop := Gives (.parserFrameIn dt) s fun t =>
        t.ing = { s.ing with eth := l } ∧ Counted s t R.ING_U_MEAS_DATAGRAMS 1 ∧ Counted s t r 1
      (∀ r, check = .bad r → only r) ∧
      (check = .more → only R.ING_U_REJ_SIZE) ∧
      (∀ n, check = .good n → s.identify i (beAt d 4 2) = none → only R.ING_U_REJ_UNKNOWN) ∧
      (∀ n k, check = .good n → s.identify i (beAt d 4 2) = some k → c37Type d = 0 →
        let own := (List.range (s.dir k TF.ING.Directory.NUM_BLOCKS)).filter fun j => s.chainOk k j
        own ≠ [] → s.pendingBlocks + own.length ≤ 32768 → Gives (.parserFrameIn dt) s fun t =>
          Counted s t R.ING_U_MEAS_DATAGRAMS 1 ∧ Counted s t R.ING_U_DATA_FRAMES 1 ∧
          t.ing = { s.ing with eth := l, pend := pendIn ⟨s.now + dt, e.port, e.arrival, i, k, false, true, d, own⟩ s.ing.pend }))

/-- TCP_ACK_TIMER (R116): a connection whose bytes have waited 200 µs unacknowledged is acknowledged by a frame of class 4 at its port;
before that nothing happens. ING_PASS_RELEASE (R114) moves forward up to what is written, and is refused beyond it. -/
def Sys2Proof.Safety.AcknowledgementsAndReleases : Prop :=
  ∀ (s : State),
    (∀ (c : BitVec 11) (dt : Nat), s.tflag TF.ING.Connection.OPEN c.toNat = true → (s.conn c.toNat).unacked ≠ 0 →
      let x := s.conn c.toNat
      (s.now + dt - x.since < 240000 → Gives (.tcpAckTimer c dt) s fun t => t = s.elapse dt) ∧
      (240000 ≤ s.now + dt - x.since → Gives (.tcpAckTimer c dt) s fun t => t.conn c.toNat = { x with unacked := 0 } ∧
        (∃ f, (t.port x.port).tx = (s.port x.port).tx ++ [f] ∧ f.cls = 4) ∧ ∀ p, p ≠ x.port → t.port p = s.port p)) ∧
    (∀ (q : Req) (v : Word), WriteOpen s q R.ING_PASS_RELEASE →
      (v - s.reg R.ING_PASS_RELEASE ≤ s.reg R.ING_PASS_WRITE - s.reg R.ING_PASS_RELEASE → Gives (.passRelease q v) s fun t =>
        t = (s.journalWrite q.id R.ING_PASS_RELEASE (leBytes 4 v.toNat)).setReg R.ING_PASS_RELEASE v) ∧
      (s.reg R.ING_PASS_WRITE - s.reg R.ING_PASS_RELEASE < v - s.reg R.ING_PASS_RELEASE → Gives (.passRelease q v) s fun t =>
        Refused s t q 1 R.ING_PASS_RELEASE))

/-- FRAME_ACCEPT (R138, R139). Where the acceptance point does not pass frames the line stays. Else its head leaves it. A non-data frame
takes the next journal sequence number. Each block of a data frame is judged: the counter of its first failed check rises, or it is
counted as accepted and its time-tag becomes the stream's last. The frame takes the next journal sequence number when a block passes, and
nothing else happens when none does. -/
def Sys2Proof.Safety.FrameAcceptance : Prop :=
  ∀ (s : State) (f : PendFrame) (l : List PendFrame) (dt : Nat), s.ing.pend = f :: l →
    let u := s.elapse dt
    let judged (i : Nat) : Option Nat × Nat := u.blockCheck f (u.rawBlock f.entry f.rsv f.bytes i)
    let numbered (t : State) : Prop := t.ing.jseq = s.ing.jseq + 1 ∧ Counted s t R.ING_U_JOURNALLED 1
    (u.accepts = false → Gives (.frameAccept dt) s fun t => t = u) ∧
    (u.accepts = true →
      (f.data = false → Gives (.frameAccept dt) s fun t => t.ing = { s.ing with pend := l, jseq := s.ing.jseq + 1 } ∧
        Counted s t R.ING_U_JOURNALLED 1) ∧
      (f.data = true → f.blocks.Nodup → (∀ i ∈ f.blocks, f.entry + i < 16384) → Gives (.frameAccept dt) s fun t => t.ing.pend = l ∧
        ((∃ i ∈ f.blocks, (judged i).1 = none) → numbered t) ∧
        ((∀ i ∈ f.blocks, (judged i).1 ≠ none) → t.ing = { s.ing with pend := l } ∧ t.gld = s.gld ∧ t.xng = s.xng) ∧
        ∀ i ∈ f.blocks, match (judged i).1 with
          | some q => Counted s t (ingCnt (f.entry + i) q) 1
          | none => Counted s t (ingCnt (f.entry + i) 1) 1 ∧ mget 0 t.ing.lastTag (f.entry + i) = (judged i).2 + 1))

/-- Ingest: what the parser does with a frame, acknowledgements and releases, and the acceptance point. -/
def Obligations.IngestPath : Prop :=
  Safety.ParserFrames ∧ Safety.MeasurementFrames ∧ Safety.AcknowledgementsAndReleases ∧ Safety.FrameAcceptance

/-- Table commands (R148, R461). A read of an entry that exists copies its words into the block's data registers with RESULT 1; past
the table's end RESULT is 4. A write of a key's entry takes AFF_WAIT from the data and leaves every other entry alone. -/
def Obligations.TableCommands : Prop :=
  ∀ (s : State) (q : Req) (b : BitVec 5),
    let a := tblAddrOff b.toNat
    let id := b.toNat * 16 + (s.reg a).toNat / 536870912
    let idx := (s.reg a).toNat % 262144
    (∀ d, a ≠ 0 → WriteOpen s q (a + 4) → findTable id = some d →
      (idx < d.count → Gives (.tableRead q b) s fun t =>
        t.fld ⟨a + 8, 2, 0⟩ = 1 ∧ t.tbl = s.tbl ∧
        ∀ w < d.words, t.reg (tblDataOff b.toNat w) = BitVec.ofNat 32 (s.entryWord id idx w)) ∧
      (d.count ≤ idx → Gives (.tableRead q b) s fun t => t.fld ⟨a + 8, 2, 0⟩ = 4 ∧ t.tbl = s.tbl)) ∧
    (b = 2 → WriteOpen s q R.RBT_TBL_CMD → s.barOf q false R.RBT_TBL_CMD = none → id = T.RBT.Key → idx < 4096 →
      Gives (.tableWrite q b) s fun t =>
        t.fld F.RBT_TBL_STATUS.RESULT = 1 ∧
        t.tf TF.RBT.Key.AFF_WAIT idx = (s.reg (tblDataOff 2 0)).toNat / 16777216 ∧
        ∀ table i w, table ≠ T.RBT.Key ∨ i ≠ idx → i < 524288 → w < 32 → t.tword table i w = s.tword table i w)

/-! ## Time -/

/-- PTP (R157, R174). With the timebase running, a message on a port without PTP is counted as of the wrong profile, and a peer delay
request of the profile is answered. Every second a request leaves each enabled port. A Sync without its Follow_Up for 1 s is given up,
and a transmitter silent for three Announce intervals is no longer the source. -/
def Obligations.PtpExchange : Prop :=
  ∀ (s : State) (p : Port) (dt : Nat),
    let x := s.ptpPort p.val
    (∀ i l, s.timRuns = true → s.tim.ptpQ = i :: l →
      let m := i.bytes.drop (etherOff i.bytes)
      (etherType i.bytes ≠ 0x88F7 ∨ bitOf (s.fld F.TIM_CTRL.PTP_PORTS) i.port = false → Gives .ptpMessage s fun t =>
        t.tim = { s.tim with ptpQ := l } ∧ t.net = s.net ∧ Counted s t R.TIM_PTP_WRONG_PROFILE 1) ∧
      (etherType i.bytes = 0x88F7 → bitOf (s.fld F.TIM_CTRL.PTP_PORTS) i.port = true → 54 ≤ m.length → beAt m 0 1 = 2 →
        beAt m 1 1 % 16 = 2 → beAt m 4 1 = s.fld F.TIM_PTP.DOMAIN → 54 ≤ beAt m 2 2 → beAt m 2 2 ≤ m.length →
        Gives .ptpMessage s fun t => t.tim = { s.tim with ptpQ := l } ∧ Counted s t R.TIM_PTP_USED 1 ∧ Counted s t R.TIM_PTP_TX 1 ∧
          ∃ f, (t.port i.port).tx = (s.port i.port).tx ++ [f] ∧ f.tag = .pdelayResp i.stamp)) ∧
    (s.timRuns = true → bitOf (s.fld F.TIM_CTRL.PTP_PORTS) p.val = true → (∀ a, x.reqAt = some a → 1200000000 ≤ s.now + dt - a) →
      Gives (.pdelayReqTimer p dt) s fun t => Counted s t R.TIM_PTP_TX 1 ∧
        t.ptpPort p.val = { x with reqSeq := (x.reqSeq + 1) % 65536, reqTx := none, resp := none, reqAt := some (s.now + dt) } ∧
        ∃ f, (t.port p.val).tx = (s.port p.val).tx ++ [f] ∧ f.tag = .pdelayReq) ∧
    (∀ w, x.sync = some w → Gives (.followUpTimeout p dt) s fun t =>
      t.ptpPort p.val = (if 1200000000 ≤ s.now + dt - w.clk then { x with sync := none } else x) ∧ t.regs = s.regs ∧ t.now = s.now + dt) ∧
    (∀ b, s.tim.best = some b → (∃ f ∈ s.tim.foreign, f.port = b.1 ∧ f.id = b.2) →
      (∀ f ∈ s.tim.foreign, f.port = b.1 → f.id = b.2 → 3600000000 < s.now + dt - f.clk) →
      Gives (.ptpSourceLost dt) s fun t => t.tim.best ≠ some b ∧ t.tim.foreign = s.tim.foreign ∧ t.servo = s.servo)

/-- Pulses, IRIG-B and the servo (R158 to R164). An edge of PPS further than a quarter of a second from a whole second is counted as bad.
One that cross-checks the primary sets or clears the failure by its limit. One that its source names, beyond the jump limit and with no step
armed, is refused and puts a servo that is not in FREERUN into HOLDOVER. A frame of IRIG-B that fails a check is counted as bad and a
good one is kept. HOLDOVER also follows a timeout of the source, and an armed step lapses after 60 s. -/
def Obligations.TimeSources : Prop :=
  ∀ (s : State) (dt : Nat),
    let e := s.elapse dt
    let stamp := stampLess e.grid80 (signedOf 32 (s.fld F.TIM_DELAY_PPS_IN.NS))
    let off := gridDiff stamp (nearSecond stamp * 4294967296)
    (s.timRuns = true → s.tim.ppsHeld = none →
      (1073741824 < gridDist stamp (nearSecond stamp * 4294967296) → Gives (.ppsEdge dt) s fun t =>
        t.tim = e.tim ∧ Counted s t R.TIM_PPS_EDGES 1 ∧ Counted s t R.TIM_PPS_BAD 1) ∧
      (gridDist stamp (nearSecond stamp * 4294967296) ≤ 1073741824 → s.fld F.TIM_CTRL.XCHK_SRC = 3 → s.fld F.TIM_CTRL.SRC ≤ 1 →
        s.fld F.TIM_CTRL.XCHK_POLICY ≠ 0 → Gives (.ppsEdge dt) s fun t =>
          t.tim = e.tim ∧ Counted s t R.TIM_PPS_EDGES 1 ∧
          t.flag F.TIM_STATUS.XCHK_FAIL = decide ((s.fld F.TIM_XCHK_LIMIT.US : Int) * 16777216000 < (off.natAbs : Int))) ∧
      (∀ sec, gridDist stamp (nearSecond stamp * 4294967296) ≤ 1073741824 → s.fld F.TIM_CTRL.XCHK_SRC = 0 →
        s.fld F.TIM_CTRL.SRC = 2 ∨ s.fld F.TIM_CTRL.SRC = 3 → e.ppsSecond stamp = some sec → s.servo ≠ 0 →
        s.flag F.TIM_STATUS.STEP_ARMED = false →
        (s.fld F.TIM_JUMP_LIMIT.US : Int) * 16777216000 < ((gridDiff stamp (sec * 4294967296)).natAbs : Int) →
        Gives (.ppsEdge dt) s fun t => t.servo = 3 ∧ t.flag F.TIM_STATUS.REFUSED = true ∧
          Counted s t R.TIM_JUMPS_REFUSED 1 ∧ Counted s t R.TIM_SAMPLES 1 ∧ t.tim.grid = e.tim.grid ∧
          t.tim.refusedD = gridDiff stamp (sec * 4294967296))) ∧
    (∀ (f : List IrigSym) (ago : Nat), s.timRuns = true → s.fld F.TIM_CTRL.IRIG_MODE ≠ 0 → s.tim.ppsHeld = none →
      (irigGood f (s.fld F.TIM_CTRL.IRIG_MODE != 2) = false → Gives (.irigFrame f ago dt) s fun t =>
        t.tim = e.tim ∧ Counted s t R.TIM_IRIG_BAD 1) ∧
      (irigGood f (s.fld F.TIM_CTRL.IRIG_MODE != 2) = true → Gives (.irigFrame f ago dt) s fun t =>
        Counted s t R.TIM_IRIG_GOOD 1 ∧ t.tim.irigPrev = some (irigUtc f (s.fld F.TIM_CTRL.IRIG_MODE != 2)).toNat)) ∧
    (s.timRuns = true → (s.servo = 1 ∨ s.servo = 2) → s.fld F.TIM_SRC_TIMEOUT.S * 1200000000 ≤ s.now + dt - s.tim.freshAt →
      Gives (.srcTimeout dt) s fun t => t.servo = 3 ∧ Counted s t R.TIM_HOLDOVER_ENTRIES 1 ∧ t.tim.grid = e.tim.grid) ∧
    (s.flag F.TIM_STATUS.STEP_ARMED = true → Gives (.stepArmLapse dt) s fun t =>
      t.flag F.TIM_STATUS.STEP_ARMED = decide (s.now + dt - s.tim.armedAt < 72000000000) ∧ t.servo = s.servo ∧ t.tim = e.tim)

/-- TIME_MARK and TIME_QUALITY_CHANGE (R165, R168). While the unit builds its own journal and the Glade runs, a mark that is due is taken:
its value is Grid Time, or the mark before where that is later, with HELD; it carries the quality word, which TIM_TQ shows; it is counted
and is a journal entry. Else nothing happens but the copying of carried memory into a join image in the making (R500). A change of the quality word shows in TIM_TQ and asks for a mark. -/
def Sys2Proof.Safety.TimeMarks : Prop :=
  ∀ (s : State) (dt : Nat),
    let e := s.elapse dt
    let mayMark : Prop := s.tim.running = true ∧ e.ownJournal = true ∧ s.flag F.GLD_CTRL.RUN = true ∧ e.gladeRuns = true
    let later : Prop := s.tim.marked = true ∧ gtAfter s.tim.mark e.gt = true
    (mayMark → e.markDue = true → Gives (.timeMark dt) s fun t =>
      t.tim.marked = true ∧ t.tim.markAt = s.now + dt ∧ t.tim.markTq = e.markWord ∧ Counted s t R.TIM_MARKS 1 ∧
      t.reg R.TIM_TQ = BitVec.ofNat 32 e.markWord ∧ s.xng.eseq < t.xng.eseq ∧
      (later → t.tim.mark = s.tim.mark ∧ t.flag F.TIM_STATUS.HELD = true) ∧
      (¬ later → t.tim.mark = e.gt ∧ t.flag F.TIM_STATUS.HELD = false)) ∧
    (¬ (mayMark ∧ e.markDue = true) → Gives (.timeMark dt) s fun t => t = e.copyCarry ∧ (s.xng.cut = none → t = e)) ∧
    ((s.reg R.TIM_TQ).toNat = e.tqWord → Gives (.timeQualityChange dt) s fun t => t = e) ∧
    ((s.reg R.TIM_TQ).toNat ≠ e.tqWord → Gives (.timeQualityChange dt) s fun t =>
      t = { e.setReg R.TIM_TQ (BitVec.ofNat 32 e.tqWord) with tim := { e.tim with tqMark := true } })

/-- LEAP_SECOND and CALENDAR_SYNC (R155, R170). At TIM_LEAP_AT, with the offset taken from TIM_UTC and no leap warning of IRIG-B, the offset
becomes one greater for an insertion or one less for a deletion, TIM_UTC keeps it, and the warning is cleared. Before that, or with no
leap announced, nothing happens. Locked, and not within an inserted second, the calendar takes Grid Time in UTC, an hour after the last
time; before the hour is over nothing happens. -/
def Sys2Proof.Safety.LeapAndCalendar : Prop :=
  ∀ (s : State) (dt : Nat),
    let e := s.elapse dt
    let o := s.utcOffset
    let n := if s.fld F.TIM_UTC_NOW.LEAP = 1 then o + 1 else o - 1
    (s.tim.running = true → s.tim.best = none → s.irigLeapSource = false → s.fld F.TIM_UTC_NOW.FROM ≠ 1 →
      s.fld F.TIM_UTC_NOW.LEAP = 1 ∨ s.fld F.TIM_UTC_NOW.LEAP = 2 → e.taiSec ≠ 0 → e.taiSec < 4294967296 →
      (s.reg R.TIM_LEAP_AT).toNat = e.taiSec → 0 < o → o < 65535 → Gives (.leapSecond dt) s fun t =>
        t.utcOffset = n ∧ t.fld F.TIM_UTC.OFFSET = n ∧ t.fld F.TIM_UTC.LEAP = 0 ∧ t.fld F.TIM_UTC_NOW.LEAP = 0 ∧
        t.reg R.TIM_LEAP_AT = 0 ∧ t.tim.leapDone = some (e.taiSec, o, n) ∧ t.tim.grid = e.tim.grid) ∧
    (s.tim.running = false ∨ s.reg R.TIM_LEAP_AT = 0 ∨ s.fld F.TIM_UTC_NOW.LEAP = 0 ∨
        (e.taiSec < (s.reg R.TIM_LEAP_AT).toNat ∧ (s.reg R.TIM_LEAP_AT).toNat < e.taiSec + 2147483648) →
      Gives (.leapSecond dt) s fun t => t = e) ∧
    (s.timRuns = true → s.servo = 2 → e.inInserted = false → (∀ a, s.tim.calAt = some a → 4320000000000 ≤ s.now + dt - a) →
      Gives (.calendarSync dt) s fun t => t.tim = { e.tim with calAt := some (s.now + dt) } ∧ t.und.cal = e.utcCalendar ∧
        t.und.invalid = false) ∧
    (s.timRuns = false ∨ s.servo ≠ 2 ∨ e.inInserted = true ∨ (∃ a, s.tim.calAt = some a ∧ s.now + dt - a < 4320000000000) →
      Gives (.calendarSync dt) s fun t => t = e)

/-- PPS_OUT_PULSE, PPS_OUT_END and CMP_FIRE (R172, R173). PPS out rises when the second it stands in passes to one not yet pulsed, it is
enabled and not squelched, and falls after WIDTH_MS; otherwise nothing happens. An armed compare channel fires when Grid Time has reached
its value, or at once when it was armed late: ARM falls, FIRED rises, and LATE says that it was late or more than 1 µs over. -/
def Sys2Proof.Safety.PulsesAndCompares : Prop :=
  ∀ (s : State) (dt : Nat),
    let e := s.elapse dt
    let squelched : Prop := s.flag F.TIM_CTRL.PPS_SQUELCH = true ∧ (s.servo = 0 ∨ 4 < e.tqCode)
    let pulse : Prop := s.timRuns = true ∧ s.flag F.TIM_CTRL.PPS_OUT_EN = true ∧ s.ppsOutSecond < e.ppsOutSecond ∧
      s.tim.pulsed ≤ e.ppsOutSecond ∧ ¬ squelched
    (pulse → Gives (.ppsOutPulse dt) s fun t => t = { e with
      out := .ppsOut true :: s.out, tim := { e.tim with pulsed := e.ppsOutSecond + 1, ppsOn := some (s.now + dt) } }) ∧
    (¬ pulse → Gives (.ppsOutPulse dt) s fun t => t = e) ∧
    (∀ a, s.tim.ppsOn = some a →
      (s.fld F.TIM_PPS_OUT.WIDTH_MS * 1200000 ≤ s.now + dt - a → Gives (.ppsOutEnd dt) s fun t =>
        t = { e with out := .ppsOut false :: s.out, tim := { e.tim with ppsOn := none } }) ∧
      (s.now + dt - a < s.fld F.TIM_PPS_OUT.WIDTH_MS * 1200000 → Gives (.ppsOutEnd dt) s fun t => t = e)) ∧
    (s.tim.ppsOn = none → Gives (.ppsOutEnd dt) s fun t => t = e) ∧
    (∀ n : BitVec 4,
      let v := (s.reg (R.TIM_CMP_LO + 16 * n.toNat)).toNat + (s.reg (R.TIM_CMP_HI + 16 * n.toNat)).toNat * 4294967296
      let ctrl := 16 * n.toNat
      let ovr : Prop := n.toNat ∈ s.tim.cmpLate
      let fires : Prop := s.tim.running = true ∧ s.flag (F.TIM_CMP_CTRL.ARM.at ctrl) = true ∧ (ovr ∨ gtAtOrAfter e.gt v = true)
      let late : Prop := ovr ∨ gtAfter e.gt (gtAdd v 4295) = true
      (fires → Gives (.cmpFire n dt) s fun t =>
        t.flag (F.TIM_CMP_CTRL.ARM.at ctrl) = false ∧ t.flag (F.TIM_CMP_CTRL.FIRED.at ctrl) = true ∧
        t.flag F.TIM_INT_STATUS.CMP = true ∧ t.tim = { e.tim with cmpLate := s.tim.cmpLate.filter (· ≠ n.toNat) } ∧
        (late → t.flag (F.TIM_CMP_CTRL.LATE.at ctrl) = true ∧ Counted s t R.TIM_CMP_LATE 1) ∧
        (¬ late → t.flag (F.TIM_CMP_CTRL.LATE.at ctrl) = false ∧ Counted s t R.TIM_CMP_LATE 0)) ∧
      (¬ fires → Gives (.cmpFire n dt) s fun t => t = e))

/-- Grid Time's services: marks and their quality word, leap seconds and the calendar, pulses out and compare channels. -/
def Obligations.TimeServices : Prop := Safety.TimeMarks ∧ Safety.LeapAndCalendar ∧ Safety.PulsesAndCompares

/-! ## Glade, Filter Engine, Mode Engine, Connectivity Engine -/

/-- SET_RELEASED (R192). While the Glade runs, the oldest release waiting leaves the list and takes its instant, which its Set keeps as T1;
one made more than 20 µs after its decision is counted and flagged as late. While the Glade does not run, or with none waiting, nothing
happens. -/
def Sys2Proof.Safety.GladeReleases : Prop :=
  ∀ (s : State) (dt : Nat),
    let e := s.elapse dt
    (∀ p l, e.gladeRuns = true → s.gld.pend = p :: l → p.kind < 2 → (∀ x, l.head? = some x → x.kind < 2) →
      let late := gtAfter e.gt (gtAdd (p.t0.getD (s.grove p.grove).lastT1) 85899)
      Gives (.setReleased dt) s fun t => t.gld.pend.length = l.length ∧ (t.grove p.grove).lastT1 = e.gt ∧
        (∀ x ∈ (t.grove p.grove).sets, x.seq = p.seq → if p.kind = 0 then x.t1Prov = e.gt else x.t1Final = e.gt) ∧
        (late = false → t.gld.pend = l) ∧
        (late = true → t.flag F.GLD_INT_STATUS.RELEASE_LATE = true ∧ Counted s t (gldGroveCnt p.grove 14) 1)) ∧
    (e.gladeRuns = false ∨ s.gld.pend = [] → Gives (.setReleased dt) s fun t => t = e)

/-- FILTER_PASS and FILTER_PASS_DONE (R226, R228, R229, R234). The running Filter Engine takes the oldest waiting notice and begins its pass,
which is counted. At its end the outputs are those of the slots already taken and those of the Grove's channels from the next slot on, an
unsettled one being zero; each is a record, and the Mode Engine takes a pass that has one, or drops it when 64 wait. Otherwise nothing
happens. -/
def Sys2Proof.Safety.FilterPasses : Prop :=
  ∀ (s : State) (dt : Nat),
    let e := s.elapse dt
    (∀ n l, e.fltRuns = true → s.flt.cur = none → s.gld.fltWait = n :: l → Gives (.filterPass dt) s fun t =>
      t.gld.fltWait = l ∧ Counted s t R.FLT_U_PASSES 1 ∧ t.flt = { s.flt with
        taken := s.flt.taken + 1
        cur := some ⟨⟨noticeTtag n, noticeSeq n, descField n 24 4, noticeGrove n, s.rdLe (noticeAddr n + 0x18) 2,
          s.rdLe (noticeAddr n + 0x1E) 1, []⟩, noticeAddr n, bitOf (noticeFlags n) 4 || bitOf (noticeFlags n) 5, s.flt.taken, 0,
          s.now + dt⟩ }) ∧
    (e.fltRuns = false ∨ s.flt.cur ≠ none ∨ s.gld.fltWait = [] → Gives (.filterPass dt) s fun t => t = e) ∧
    (∀ r, e.fltRuns = true → s.flt.cur = some r → ∃ new : List FltOut,
      (∀ o ∈ new, o.channel ∈ s.groveChans r.pass.grove ∧ r.next ≤ o.channel ∧ (bitOf o.flags 0 = false → o.re = 0 ∧ o.im = 0)) ∧
      let p := { r.pass with outs := r.pass.outs ++ new }
      Gives (.filterPassDone dt) s fun t =>
        t.flt.cur = none ∧ Counted s t R.FLT_U_RECORDS p.outs.length ∧ t.flt.outIdx = s.flt.outIdx + p.outs.length ∧
        (p.outs = [] → t.osc = s.osc) ∧
        (p.outs ≠ [] → s.osc.wait.length < 64 → t.osc = { s.osc with wait := s.osc.wait ++ [p], arrived := s.osc.arrived + 1 }) ∧
        (p.outs ≠ [] → 64 ≤ s.osc.wait.length → t.osc = s.osc ∧ Counted s t R.OSC_U_DROPPED 1)) ∧
    (e.fltRuns = false ∨ s.flt.cur = none → Gives (.filterPassDone dt) s fun t => t = e)

/-- MODE_ENGINE_PASS, TRACKER_REPORT and SPECTRUM_DONE (R239, R250, R258). The Mode Engine begins the oldest waiting pass: what is due is its
reports and spectra, and with none due the pass is done. The next enabled tracker due writes one record, and so does the next enabled
slot, withheld with more than MAX_ABSENT absent samples and then keeping its rule and peaks; each leaves what is due, and the last ends
the pass. While the engine does not run nothing happens. -/
def Sys2Proof.Safety.ModePasses : Prop :=
  ∀ (s : State) (dt : Nat),
    let e := s.elapse dt
    (∀ p l, e.oscBegins = true → s.osc.cur = none → s.osc.wait = p :: l → Gives (.modeEnginePass dt) s fun t =>
      t.osc.wait = l ∧ (t.osc.cur = none → Counted s t R.OSC_U_PASSES_DONE 1) ∧
      ∀ r, t.osc.cur = some r → r.pass = p ∧ (r.trk ≠ [] ∨ r.slots ≠ []) ∧ (∀ j ∈ r.trk, j ∈ s.validEntries T.OSC.Tracker 0) ∧
        ∀ i ∈ r.slots, i ∈ s.validEntries T.OSC.BankSlot 0) ∧
    (e.oscBegins = false ∨ s.osc.cur ≠ none ∨ s.osc.wait = [] → Gives (.modeEnginePass dt) s fun t => t = e) ∧
    (∀ r, s.osc.cur = some r →
      let left (trk slots : List Nat) : Option OscRun := if trk = [] ∧ slots = [] then none else some ⟨r.pass, r.no, trk, slots⟩
      (∀ j l, e.oscRuns = true → r.trk = j :: l → s.tflag TF.OSC.Tracker.ENABLE j = true → Gives (.trackerReport dt) s fun t =>
        (t.tracker j).reports = (s.tracker j).reports + 1 ∧ (t.tracker j).skipped = 0 ∧ (t.tracker j).resetMark = false ∧
        (∀ i, i ≠ j → t.tracker i = s.tracker i) ∧ t.osc.slots = s.osc.slots ∧ Counted s t R.OSC_U_TRK_RECORDS 1 ∧
        t.osc.trkIdx = s.osc.trkIdx + 1 ∧ t.osc.cur = left l r.slots) ∧
      (∀ i l, e.oscRuns = true → r.slots = i :: l → s.tflag TF.OSC.BankSlot.ENABLE i = true → Gives (.spectrumDone dt) s fun t =>
        let withheld : Prop := s.tf TF.OSC.BankSlot.MAX_ABSENT i < ((s.slot i).win.filter fun v => !v.2.2).length
        Counted s t R.OSC_U_FO_RECORDS 1 ∧ t.osc.foIdx = s.osc.foIdx + 1 ∧ t.osc.cur = left r.trk l ∧
        (∀ k, k ≠ i → t.slot k = s.slot k) ∧ t.osc.trackers = s.osc.trackers ∧
        (withheld → (t.slot i).rule = (s.slot i).rule ∧ (t.slot i).peaks = (s.slot i).peaks ∧ t.flag F.OSC_INT_STATUS.WITHHELD = true) ∧
        (¬ withheld → ∀ k ∈ (t.slot i).peaks, s.tf TF.OSC.BankSlot.BIN_LO i ≤ k.1 ∧ k.1 ≤ s.tf TF.OSC.BankSlot.BIN_HI i)) ∧
      (e.oscRuns = false → Gives (.trackerReport dt) s (fun t => t = e) ∧ Gives (.spectrumDone dt) s fun t => t = e))

/-- ISL_NOTICE_TAKEN and ISLAND_RECOMPUTE_DONE (R268, R276 to R278). The Connectivity Engine takes its oldest notice, leaving the islands as
they are: it is done at once, or, a branch having changed, a recomputation is in progress. Its end puts the partition into effect, counts
the notice as done, and gives the map its next number where it differs. A START that is due puts the partition into effect under the next
number. Otherwise nothing happens. -/
def Sys2Proof.Safety.Connectivity : Prop :=
  ∀ (s : State) (dt : Nat),
    let e := s.elapse dt
    (∀ n l, e.islBegins = true → s.isl.startDue = false → s.isl.cur = none → s.gld.islWait = n :: l →
      Gives (.islNoticeTaken dt) s fun t => t.gld.islWait = l ∧ t.isl.islands = s.isl.islands ∧ t.isl.taken = s.isl.taken + 1 ∧
        (t.isl.cur = none → Counted s t R.ISL_U_PROCESSED 1) ∧ ∀ r, t.isl.cur = some r → r.notice = n ∧ r.branches ≠ []) ∧
    (e.islBegins = false ∨ s.isl.startDue = true ∨ s.isl.cur ≠ none ∨ s.gld.islWait = [] →
      Gives (.islNoticeTaken dt) s fun t => t = e) ∧
    (∀ r, e.islRuns = true → s.isl.cur = some r → Gives (.islandRecomputeDone dt) s fun t =>
      t.isl.cur = none ∧ t.isl.islands = s.partition ∧ Counted s t R.ISL_U_RECOMPUTES 1 ∧ Counted s t R.ISL_U_PROCESSED 1 ∧
      t.cnt R.ISL_MAP_SEQ = s.cnt R.ISL_MAP_SEQ + (if s.partition = s.isl.islands then 0 else 1)) ∧
    (e.islBegins = true → s.isl.cur = none → s.isl.startDue = true → Gives (.islandRecomputeDone dt) s fun t =>
      t.isl.startDue = false ∧ t.isl.islands = s.partition ∧ t.cnt R.ISL_MAP_SEQ = s.cnt R.ISL_MAP_SEQ + 1) ∧
    (e.islRuns = false ∨ (s.isl.cur = none ∧ (s.isl.startDue = false ∨ e.islBegins = false)) →
      Gives (.islandRecomputeDone dt) s fun t => t = e)

/-- The engines that follow the Glade: what each of their commands does while they run, and that it does nothing otherwise. -/
def Obligations.EngineCommands : Prop := Safety.GladeReleases ∧ Safety.FilterPasses ∧ Safety.ModePasses ∧ Safety.Connectivity

/-! ## Alarms, captures, accounting -/

/-- A core's batch of alarm decisions (R299 to R302). A word of its context, or of its Set's number, discards the decisions of its open batch;
a word of T0 leaves them. A decision joins the batch of the core that writes it and no point changes. -/
def Sys2Proof.Safety.DecisionBatches : Prop :=
  ∀ (s : State) (c : CoreId),
    (∀ (w : Fin 5) (v : Word), WriteOpen s (.core c) (R.ALM_DEC_CTX + 4 * w.val) →
      let keeps (t : State) : Prop := t.alm = { s.alm with batches := t.alm.batches } ∧ ∀ d, d ≠ c.val → t.batch d = s.batch d
      (w.val = 0 → v.toNat / 1073741824 ≠ 3 → Gives (.decisionContext c w v) s fun t => keeps t ∧
        (t.banked c.val R.ALM_DEC_CTX).toNat / 16777216 = v.toNat / 16777216 ∧ t.batch c.val = batchIdle ∧
        Counted s t R.ALM_U_DEC_ABANDONED (s.batch c.val).count) ∧
      (w.val = 1 ∨ w.val = 2 → Gives (.decisionContext c w v) s fun t => keeps t ∧
        t.banked c.val (R.ALM_DEC_CTX + 4 * w.val) = v ∧ t.batch c.val = batchIdle ∧
        Counted s t R.ALM_U_DEC_ABANDONED (s.batch c.val).count) ∧
      (3 ≤ w.val → Gives (.decisionContext c w v) s fun t => keeps t ∧
        t.banked c.val (R.ALM_DEC_CTX + 4 * w.val) = v ∧ t.batch c.val = s.batch c.val)) ∧
    (WriteOpen s (.core c) R.ALM_DECIDE → ∀ (b : Bool) (p : BitVec 9), Gives (.decide c b p) s fun t =>
      Counted s t R.ALM_U_DECISIONS 1 ∧ (t.batch c.val).count = (s.batch c.val).count + 1 ∧
      (∀ j, mget 0 (t.batch c.val).dec j = if j = p.toNat then (if b then 2 else 1) else mget 0 (s.batch c.val).dec j) ∧
      (∀ d, d ≠ c.val → t.batch d = s.batch d) ∧ t.alm.points = s.alm.points)

/-- DECISION_BATCH_DONE and ALARM_ACK (R298, R301, R304). The batch closes. A stopped alarm block keeps it waiting; a running one refuses it
whole when it is of an older Set than the last of its Grove and basis, and else takes it as the last: a raise on a quiet, enabled point
without LATCH, by a final batch, asserts the point alone and writes a record of its Set. A running block takes an acknowledgement: ignored
on a point neither active nor latched; else ACKED is set on an active point and LATCHED cleared on another, with a record; an active point
already acknowledged stands. -/
def Sys2Proof.Safety.DecisionsTaken : Prop :=
  ∀ (s : State),
    (∀ c : CoreId, WriteOpen s (.core c) R.ALM_DECIDE →
      let b := s.batch c.val
      let x := s.batchCtx c.val
      let key := x.grove * 4 + x.basis
      (s.almRuns = false → Gives (.decisionBatchDone c) s fun t => t.batch c.val = batchIdle ∧ t.alm.points = s.alm.points ∧
        t.alm.waiting = s.alm.waiting ++ [.batch b x]) ∧
      (s.almRuns = true → x.setseq < mget 0 s.alm.lastSeq key → Gives (.decisionBatchDone c) s fun t =>
        t.batch c.val = batchIdle ∧ t.alm.points = s.alm.points ∧ t.alm.recs = s.alm.recs ∧ t.flag F.ALM_INT_STATUS.ORDER = true ∧
        Counted s t R.ALM_U_BATCH_REFUSED 1 ∧ Counted s t R.ALM_U_DEC_REFUSED b.count) ∧
      (s.almRuns = true → mget 0 s.alm.lastSeq key ≤ x.setseq → Gives (.decisionBatchDone c) s fun t =>
        t.batch c.val = batchIdle ∧ mget 0 t.alm.lastSeq key = x.setseq + 1 ∧
        ∀ p, b = ⟨1, [(p, 2)]⟩ → x.basis = 1 → s.tflag TF.ALM.Point.EN p = true → s.tflag TF.ALM.Point.LATCH p = false →
          (∀ y ∈ s.alm.points, y.2.mark = none) → (s.point p).status = 0 →
          (t.point p).status = 1 ∧ (∀ q, q ≠ p → t.point q = s.point q) ∧ t.alm.aseq = s.alm.aseq + 1 ∧
          ∃ r l, t.alm.recs = l ++ [r] ∧ l.length = s.alm.recs.length ∧ r.aseq = s.alm.aseq ∧ r.setseq = x.setseq ∧
            r.counts = [R.ALM_U_RECORDS, R.ALM_U_DEC_APPLIED, R.ALM_U_CHANGES])) ∧
    (∀ (q : Req) (p : BitVec 9), WriteOpen s q R.ALM_ACK → s.almRuns = true →
      let st := (s.point p.toNat).status
      let became (v : Nat) : Prop := Gives (.alarmAck q p) s fun t => (t.point p.toNat).status = v ∧
        (∀ j, j ≠ p.toNat → t.point j = s.point j) ∧ t.alm.aseq = s.alm.aseq + 1 ∧ t.alm.recs.length = s.alm.recs.length + 1
      (st % 4 = 0 → Gives (.alarmAck q p) s fun t => t.alm = s.alm ∧ Counted s t R.ALM_U_ACK_IGNORED 1) ∧
      (st % 4 = 2 → became (st - 2)) ∧
      (st % 2 = 1 → st / 4 % 2 = 0 → became (st + 4)) ∧
      (st % 2 = 1 → st / 4 % 2 = 1 → Gives (.alarmAck q p) s fun t => t.alm = s.alm))

/-- ALARM_RECORD_NOTICE, ALARM_REPEAT and ALARM_KEEPALIVE (R305, R311, R316). The oldest record of a running block whose T4 is known leaves
the list: what it records is counted, and its notice is pushed or refused; else nothing happens. Every copy due goes to its port while the
outputs are driven, and is due again 1 ms later while copies are left. On duty, running and driving, a keepalive goes to every enabled
target when it is due. A port named out takes none of them (R532). -/
def Sys2Proof.Safety.AlarmFrames : Prop :=
  ∀ (s : State) (dt : Nat),
    let e := s.elapse dt
    (∀ r l, s.alm.recs = r :: l →
      (s.almRuns = false ∨ s.t4Known r = false → Gives (.alarmRecordNotice dt) s fun t => t = e) ∧
      (s.almRuns = true → s.t4Known r = true → Gives (.alarmRecordNotice dt) s fun t => t.alm = { s.alm with recs := l } ∧
        (∀ k, k = R.ALM_U_RECORDS ∨ k = R.ALM_U_CHANGES ∨ k = R.ALM_U_DEC_APPLIED ∨ k = R.ALM_U_ACKS →
          Counted s t k (r.counts.count k)) ∧
        ((r.counts.count R.ALM_U_REC_NOTICES = 0 ∧ r.counts.count R.ALM_U_REC_NOTICE_REFUSED = 0) →
          Counted s t R.ALM_U_REC_NOTICES 1 ∨ Counted s t R.ALM_U_REC_NOTICE_REFUSED 1))) ∧
    (let due := s.alm.repeats.filter fun r => decide (r.dueAt ≤ s.now + dt)
     let again := (due.filter fun r => decide (1 < r.left)).map fun r => { r with left := r.left - 1, dueAt := r.dueAt + 1200000 }
     Gives (.alarmRepeat dt) s fun t =>
      t.alm = { s.alm with repeats := (s.alm.repeats.filter fun r => decide (s.now + dt < r.dueAt)) ++ again } ∧
      (e.drive = .driven → s.almRuns = true → Counted s t R.ALM_U_FRAMES_SENT due.length ∧
        ∀ p, (t.port p).tx = (s.port p).tx ++
          if s.portOut p then [] else (due.filter fun r => decide (r.port = p)).map fun r => ⟨0, r.bytes, .plain⟩) ∧
      (e.drive ≠ .driven ∨ s.almRuns = false → t.net = s.net)) ∧
    (let may : Prop := s.sys.duty = true ∧ e.drive = .driven ∧ s.flag F.ALM_CTRL.RUN = true ∧
       s.alm.keepAt + s.fld F.ALM_KEEPALIVE.MS * 1200000 ≤ s.now + dt
     (may → Gives (.alarmKeepalive dt) s fun t => t.alm = { s.alm with keepAt := s.now + dt } ∧
       Counted s t R.ALM_U_KEEPALIVES s.enabledTargets.length ∧ ∀ p, (t.port p).tx.length = (s.port p).tx.length +
         if s.portOut p then 0 else (s.enabledTargets.filter fun k => decide (s.tf TF.ALM.Target.PORT k = p)).length) ∧
     (¬ may → Gives (.alarmKeepalive dt) s fun t => t = e))

/-- MIN_ON_EXPIRE and PUBLISH_FRAME (R308, R314). With the outputs driven, an output of class 1 or 2 is asserted while a point calls it, or
until MIN_ON_MS is over. An enabled stream of the running block takes the head of its queue; a gap marker is passed over. A frame is
counted and refused without duty, when it does not fit its entry, or when a data frame is older than the last; else it goes to its target's
port in class 4, or back to its submitter's queue. -/
def Sys2Proof.Safety.OutputsAndPublisher : Prop :=
  ∀ (s : State) (dt : Nat),
    let e := s.elapse dt
    (∀ c, c < 12 → e.drive = .driven → s.almRuns = true → s.sys.mode ≠ .test → s.tf TF.ALM.Output.SOURCE c = 1 →
      let x := s.outCh c
      let on := s.called c || (x.asserted && decide (s.now + dt < x.since + s.tf TF.ALM.Output.MIN_ON_MS c * 1200000))
      Gives (.minOnExpire dt) s fun t => (t.outCh c).asserted = on ∧ (t.outCh c).level = (on != s.tflag TF.ALM.Output.FAILSAFE c)) ∧
    (s.almRuns = false → Gives (.minOnExpire dt) s fun t => t = e) ∧
    (∀ i : BitVec 5,
      let may : Prop := s.tflag TF.ALM.Publish.EN i.toNat = true ∧ s.flag F.ALM_CTRL.RUN = true
      (¬ may → Gives (.publishFrame i dt) s fun t => t = e) ∧
      (may →
        let r := e.pop (s.tf TF.ALM.Publish.QUEUE i.toNat) 39
        let u := r.1
        (r.2.2 = none → Gives (.publishFrame i dt) s fun t => t = u) ∧
        ∀ x, r.2.2 = some x →
          let n := pubLen x.data
          let l := u.rdBytes (pubPtr x.data) (n % 65536)
          let data : Prop := bitsOf (beAt l 1 1) 6 4 = 0
          let target := s.tf TF.ALM.Publish.TARGET i.toNat
          let port := s.tf TF.ALM.Target.PORT target
          let counts (t : State) (q : Nat) : Prop := Counted u t (pubCnt i.toNat 0) 1 ∧ Counted u t (pubCnt i.toNat q) 1
          let refused (q : Nat) : Prop := Gives (.publishFrame i dt) s fun t => counts t q ∧ t.net = u.net ∧
            t.flag F.ALM_INT_STATUS.PUB_REFUSED = true
          let fits : Prop := u.pubMode = true ∧ u.pubFormatOk i.toNat n l = true
          let fresh : Prop := data → (u.pub i.toNat).last ≤ frameInstant l
          (x.marker = true → Gives (.publishFrame i dt) s fun t => t = u) ∧
          (x.marker = false → u.pubMode = false → refused 3) ∧
          (x.marker = false → u.pubMode = true → ¬ fits → refused 4) ∧
          (x.marker = false → fits → ¬ fresh → refused 5) ∧
          (x.marker = false → fits → fresh → s.tflag TF.ALM.Publish.TRANSPORT i.toNat = true →
            Gives (.publishFrame i dt) s fun t => counts t 2) ∧
          (x.marker = false → fits → fresh → s.tflag TF.ALM.Publish.TRANSPORT i.toNat = false →
            s.tflag TF.ALM.Target.EN target = true → Gives (.publishFrame i dt) s fun t => counts t 1 ∧
              (data → (t.pub i.toNat).last = frameInstant l + 1) ∧
              ∃ f, (t.port port).tx = (u.port port).tx ++ [f] ∧ f.cls = 4)))

/-- The alarm block: decisions, acknowledgements, records, frames, outputs and publisher, as above. -/
def Obligations.Alarms : Prop :=
  Safety.DecisionBatches ∧ Safety.DecisionsTaken ∧ Safety.AlarmFrames ∧ Safety.OutputsAndPublisher

/-- CAPTURE_NOTICE, CAPTURE_TRIGGER and CAPTURE_RELEASE (R320, R324, R333). The running Capture Engine takes its oldest notice, program
triggers whose position is reached leave their line, and with none in it the sequencers of other Groves stand. A program trigger for a
sequencer waits behind the waiting notices; with none it sets the flag of an enabled sequencer that steps, and is counted as ignored at
another. The release offset moves forward up to what is written, and is refused elsewhere. -/
def Sys2Proof.Safety.CaptureCommands : Prop :=
  ∀ (s : State) (dt : Nat),
    let e := s.elapse dt
    (∀ n l, e.capRuns = true → s.gld.capWait = n :: l → Gives (.captureNotice dt) s fun t =>
      t.gld.capWait = l ∧ t.cap.taken = s.cap.taken + 1 ∧ Counted s t R.CAP_U_PROCESSED 1 ∧
      t.cap.trigs = (s.cap.trigs.filter fun x => decide (s.cap.taken + 1 < x.1)) ∧
      (s.cap.trigs = [] → ∀ k, s.tf TF.CAP.Sequencer.GROVE k ≠ noticeGrove n → t.capSeq k = s.capSeq k)) ∧
    (e.capRuns = false ∨ s.gld.capWait = [] → Gives (.captureNotice dt) s fun t => t = e) ∧
    (∀ (q : Req) (v : Word) (k : Fin 16), WriteOpen s q R.CAP_TRIGGER → v.toNat = 2 ^ k.val →
      let steps : Prop := s.tflag TF.CAP.Sequencer.ENABLE k.val = true ∧ s.capSteps k.val = true
      (s.gld.capWait ≠ [] → Gives (.captureTrigger q v) s fun t =>
        t.cap = { s.cap with trigs := s.cap.trigs ++ [(s.cap.taken + s.gld.capWait.length, v.toNat)] }) ∧
      (s.gld.capWait = [] → steps → Gives (.captureTrigger q v) s fun t =>
        t.capSeq k.val = { s.capSeq k.val with pend := true } ∧ ∀ j, j ≠ k.val → t.capSeq j = s.capSeq j) ∧
      (s.gld.capWait = [] → ¬ steps → Gives (.captureTrigger q v) s fun t => t.cap = s.cap ∧ Counted s t (capCnt k.val 2) 1)) ∧
    (∀ (q : Req) (v : Word), WriteOpen s q R.CAP_RELEASE_HI →
      let w := s.cap.relLo.toNat + v.toNat * 4294967296
      (s.capReleased ≤ w → w ≤ s.capWritten → Gives (.captureRelease q v) s fun t =>
        t.reg R.CAP_RELEASE_LO = s.cap.relLo ∧ t.reg R.CAP_RELEASE_HI = v ∧ t.capWritten = s.capWritten) ∧
      (w < s.capReleased ∨ s.capWritten < w → Gives (.captureRelease q v) s fun t => Refused s t q 1 R.CAP_RELEASE_HI))

/-- ACC_NOTICE, PULSE_START, PULSE_END and S0_PULSE (R348, R356, R358). The running accounting engine takes its oldest notice: every enabled
tie-line of the Grove has then seen its Set. A pulse leaves an enabled output that is driven, has a backlog, and has its gap behind it; it
ends after its width, and its gap begins; otherwise nothing happens. An activation of an enabled pulse input is counted: as a pulse with
its stamp when it lasted MIN_MS, as too short when not. -/
def Sys2Proof.Safety.PulsesAndNotices : Prop :=
  ∀ (s : State) (dt : Nat),
    let e := s.elapse dt
    (∀ n l, e.accRuns = true → s.gld.accWait = n :: l → Gives (.accNotice dt) s fun t =>
      t.gld.accWait = l ∧ Counted s t R.ACC_U_PROCESSED 1 ∧ t.acc.taken = s.acc.taken + 1 ∧
      (∀ k ∈ s.groveLines (noticeGrove n), s.tflag TF.ACC.TieLine.EN k = true →
        mget none t.acc.lines k = some (noticeSeq n, descField n 24 4) ∧ Counted s t (lineCnt k 0) 1) ∧
      ∀ k, k ∉ s.groveLines (noticeGrove n) → mget none t.acc.lines k = mget none s.acc.lines k) ∧
    (e.accRuns = false ∨ s.gld.accWait = [] → Gives (.accNotice dt) s fun t => t = e) ∧
    (∀ n : BitVec 3,
      let x := s.accOut n.toNat
      let others (t : State) : Prop := ∀ j, j ≠ n.toNat → t.accOut j = s.accOut j ∧ mget false t.alm.pulses j = mget false s.alm.pulses j
      let due : Prop := s.tflag TF.ACC.PulseOutput.EN n.toNat = true ∧ e.drive = .driven ∧ x.on = none ∧ x.gapUntil ≤ s.now + dt ∧
        x.backlog ≠ 0
      (due → Gives (.pulseStart n dt) s fun t => t.accOut n.toNat = { x with backlog := x.backlog - 1, on := some (s.now + dt) } ∧
        mget false t.alm.pulses n.toNat = true ∧ others t ∧ Counted s t (outCnt n.toNat 1) 1) ∧
      (¬ due → Gives (.pulseStart n dt) s fun t => t = e) ∧
      (∀ a, x.on = some a →
        let ovr : Prop := e.drive = .driven ∧ a + s.tf TF.ACC.PulseOutput.WIDTH_MS n.toNat * 1200000 ≤ s.now + dt
        (ovr → Gives (.pulseEnd n dt) s fun t => mget false t.alm.pulses n.toNat = false ∧ others t ∧
          t.accOut n.toNat = { x with on := none, gapUntil := s.now + dt + s.tf TF.ACC.PulseOutput.GAP_MS n.toNat * 1200000 }) ∧
        (¬ ovr → Gives (.pulseEnd n dt) s fun t => t = e)) ∧
      (x.on = none → Gives (.pulseEnd n dt) s fun t => t = e)) ∧
    (∀ (n : BitVec 4) (k : Nat),
      let long : Prop := 10 * s.tf TF.ACC.PulseInput.MIN_MS n.toNat ≤ k
      let on : Prop := s.tflag TF.ACC.PulseInput.EN n.toNat = true ∧ k ≠ 0
      (on → long → Gives (.s0Pulse n k dt) s fun t => Counted s t (inCnt n.toNat 0) 1 ∧ Counted s t (inCnt n.toNat 1) 1 ∧
        (∃ x, (t.accIn n.toNat).stamps = (s.accIn n.toNat).stamps ++ [x]) ∧ ∀ j, j ≠ n.toNat → t.accIn j = s.accIn j) ∧
      (on → ¬ long → Gives (.s0Pulse n k dt) s fun t => Counted s t (inCnt n.toNat 0) 1 ∧ Counted s t (inCnt n.toNat 2) 1 ∧
        t.acc = s.acc) ∧
      (¬ on → Gives (.s0Pulse n k dt) s fun t => t.acc = s.acc ∧ ∀ j, t.cnt j = s.cnt j))

/-- PERIODIC_SAVE and SAVE_DONE (R361). While Grid Time runs after the cold start, without a power-fail warning and without a save in
progress, a second not yet saved begins a save of the sums: its copy, the one that does not hold the newest save, is void until it is
complete. A save that succeeds is then in its copy and counted, and its number is shown; one that fails is counted and reported. Otherwise
nothing happens. -/
def Sys2Proof.Safety.Saves : Prop :=
  ∀ (s : State) (dt : Nat),
    let e := s.elapse dt
    let due : Prop := s.tim.running = true ∧ 7 ≤ s.sys.bootStep ∧ s.sys.warnAt = none ∧ s.acc.savedSec ≠ e.taiSec ∧ s.acc.saving = none
    (due → Gives (.periodicSave dt) s fun t => Counted s t R.ACC_U_SAVES_STARTED 1 ∧ t.mram = s.mram.setAccCopy s.saveTarget none ∧
      t.acc = { s.acc with savedSec := e.taiSec, saving := some (s.accSnapshot 0, s.saveTarget), saveSeq := s.acc.saveSeq + 1 }) ∧
    (¬ due → Gives (.periodicSave dt) s fun t => t = e) ∧
    (∀ x copy, s.acc.saving = some (x, copy) →
      Gives (.saveDone true dt) s (fun t => t.acc = { s.acc with saving := none } ∧ t.mram.accCopy copy = some x ∧
        t.cnt R.ACC_SAVE_SEQ = BitVec.ofNat 64 x.seq ∧ Counted s t R.ACC_U_SAVES_DONE 1) ∧
      Gives (.saveDone false dt) s fun t => t.acc = { s.acc with saving := none } ∧ t.mram = s.mram ∧
        t.flag F.ACC_INT_STATUS.SAVE_FAIL = true ∧ t.err.detected = s.err.detected ++ [e.found 0x0A 13 0xFF] ∧
        Counted s t R.ACC_U_SAVE_FAILED 1) ∧
    (s.acc.saving = none → ∀ ok, Gives (.saveDone ok dt) s fun t => t = e)

/-- The Capture Engine's and the accounting engine's commands act as above. -/
def Obligations.CapturesAndAccounting : Prop := Safety.CaptureCommands ∧ Safety.PulsesAndNotices ∧ Safety.Saves

/-! ## Roundabout, queues, mailboxes, locks, interrupts -/

/-- TASK_SUBMIT and TASK_TRIGGER (R436 to R438, R448, R450). Where no queue can give anything, or the one whose turn it is is not of the
command's kind, nothing changes. A submission queue whose pointer copies agree gives its head: a gap marker is passed over and counted; a
descriptor is counted, and discarded when invalid, else its task joins the ready tasks. One whose copies differ starts a queue reset
instead. A trigger queue gives one trigger, and its template is taken in the same way. -/
def Sys2Proof.Safety.TaskSources : Prop :=
  ∀ s : State,
    let turn := s.nextTake (s.rbt.rr + 1) 256
    let takes (n : Nat) (e : Entry) (eseq : Nat) (t : State) : Prop :=
      t.rbt.rr = n ∧ Counted s t R.RBT_U_TAKEN 1 ∧
      (s.badDesc e = true → t.rbt.ready = s.rbt.ready ∧ Counted s t R.RBT_U_INVALID 1 ∧ t.flag F.RBT_INT_STATUS.INVALID = true) ∧
      (s.badDesc e = false → t.rbt.ready.length = s.rbt.ready.length + 1 ∧
        ∃ y, t.rbt.ready.getLast? = some y ∧ { y with headAt := none } = taskOf e eseq)
    (turn = none → Gives .taskSubmit s (fun t => t = s) ∧ Gives .taskTrigger s fun t => t = s) ∧
    (∀ n, turn = some n →
      (s.tf TF.RBT.Queue.MODE n ≠ 1 → Gives .taskSubmit s fun t => t = s) ∧
      (s.tf TF.RBT.Queue.MODE n ≠ 2 → Gives .taskTrigger s fun t => t = s) ∧
      (∀ x l, s.tf TF.RBT.Queue.MODE n = 1 → (s.queue n).entries = x :: l → (s.queue n).intact = true →
        Gives .taskSubmit s fun t => (t.queue n).entries = l ∧
          (x.marker = true → t.rbt.rr = n ∧ t.rbt.ready = s.rbt.ready ∧ Counted s t (qCnt n 12) 1) ∧
          (x.marker = false → takes n x.data x.eseq t)) ∧
      (s.tf TF.RBT.Queue.MODE n = 1 → (s.queue n).intact = false → Gives .taskSubmit s fun t =>
        (t.queue n).resetting = true ∧ t.rbt.ready = s.rbt.ready) ∧
      (s.tf TF.RBT.Queue.MODE n = 2 → Gives .taskTrigger s fun t =>
        (t.queue n).trigs = (s.queue n).trigs.tail ∧ takes n (s.template n) ((s.queue n).trigs.headD 0) t))

/-- TASK_DISPATCH, and AFFINITY_WAIT_EXPIRE after its time (R441), for the one ready task, with no key. With no ready task nothing changes.
The task waits while no core of its class is idle and in service. It goes to its preferred core when that is one of them. Else it goes to
the lowest of them, at once when it names no core, or one outside its class or out of service, and otherwise when its affinity wait is
over; until then it waits. -/
def Sys2Proof.Safety.TaskPlacing : Prop :=
  ∀ (s u : State) (i : Instr), i = .taskDispatch ∧ u = s ∨ (∃ dt, i = .affinityWaitExpire dt ∧ u = s.elapse dt) →
    (s.rbt.ready = [] → Gives i s fun t => t = u) ∧
    (∀ k, s.rbt.ready = [k] → k.nokey = true → k.prio ≤ 15 → k.cls ≤ 15 →
      let since := k.headAt.getD u.now
      let gets (c : Nat) : Prop := Gives i s fun t => t.rbt.ready = [] ∧ OtherCores u t c ∧ Counted u t (clsCnt k.cls 1) 1 ∧
        (t.core c).given = some { k with headAt := some since, det := u.classDet k.cls }
      let waits : Prop := Gives i s fun t => t.rbt.ready = [{ k with headAt := some since }] ∧ t.cores = u.cores
      (u.eligible k = [] → waits) ∧
      (k.pref ∈ u.eligible k → gets k.pref) ∧
      (∀ c l, u.eligible k = c :: l → k.pref ∉ c :: l →
        let free : Prop := k.pref = 0xFF ∨ bitOf (u.classCores k.cls) k.pref = false ∨ u.namedOut k.pref = true ∨
          u.affWait k ≤ u.now - since
        (free → gets c) ∧ (¬ free → waits)))

/-- TASK_CANCEL (R442): the ready tasks of the key, and of the tag unless all are meant, leave and every other stays in its order; where
there is none, that is counted and no task moves. No core is touched. -/
def Sys2Proof.Safety.TaskCancels : Prop :=
  ∀ (s : State) (q : Req) (v : Word), WriteOpen s q R.RBT_CANCEL →
    let hit (k : Task) : Bool := !k.nokey && decide (k.key = v.toNat / 65536 % 4096) && (v.getLsbD 31 || decide (k.tag = v.toNat % 65536))
    ((∀ k ∈ s.rbt.ready, hit k = false) → Gives (.taskCancel q v) s fun t =>
      t.rbt = s.rbt ∧ t.cores = s.cores ∧ Counted s t R.RBT_U_CANCEL_NONE 1) ∧
    ((∃ k ∈ s.rbt.ready, hit k = true) → Gives (.taskCancel q v) s fun t => t.cores = s.cores ∧
      t.rbt.ready.map (fun k => { k with headAt := none }) =
        (s.rbt.ready.filter fun k => !hit k).map fun k => { k with headAt := none })

/-- The Roundabout's commands on tasks. -/
def Obligations.TaskCommands : Prop := Safety.TaskSources ∧ Safety.TaskPlacing ∧ Safety.TaskCancels

/-- QUEUE_FLUSH, QUEUE_RESET and QUEUE_RESET_DONE (R448 to R450). Every other queue stays as it was. A flush finds the queue resetting, and
changes nothing; or its pointer copies different, which starts a queue reset; or a packet open, and waits for its end; else it removes
every entry but the rest of a partly popped head packet, and one gap marker of cause 2 and of their number takes their place, unless there
was none. A reset loses every entry to one gap marker of cause 1, unless there was none, and the queue resets until the reset is done:
then its pointer copies agree and it is open again. -/
def Sys2Proof.Safety.QueueUpkeep : Prop :=
  ∀ (s : State) (n : Byte),
    let x := s.queue n.toNat
    let others (t : State) : Prop := ∀ m, m ≠ n.toNat → t.queue m = s.queue m
    let lost (cause : Nat) (t : State) : Prop := others t ∧ (t.queue n.toNat).resetting = true ∧ Counted s t (qCnt n.toNat 8) x.level ∧
      (t.queue n.toNat).entries = if x.entries = [] then [] else [s.marker n.toNat cause x.level]
    (∀ q : Req, WriteOpen s q R.RBT_QCMD →
      let kept := if x.midPop then headRest x.entries else []
      let gone := x.level - kept.length
      let flushes : Prop := x.resetting = false ∧ x.intact = true
      (x.resetting = true → Gives (.queueFlush q n) s fun t => t = s) ∧
      (x.resetting = false → x.intact = false → Gives (.queueFlush q n) s fun t =>
        lost 0 t ∧ Counted s t R.RBT_U_INTEGRITY_RESETS 1 ∧ t.flag F.RBT_INT_STATUS.INTEGRITY = true) ∧
      (flushes → x.openPkt = true → Gives (.queueFlush q n) s fun t => t = s.setQueue n.toNat { x with flushWait := true }) ∧
      (flushes → x.openPkt = false → gone = 0 → Gives (.queueFlush q n) s fun t =>
        t = s.setQueue n.toNat { x with flushWait := false }) ∧
      (flushes → x.openPkt = false → gone ≠ 0 → Gives (.queueFlush q n) s fun t => others t ∧
        (t.queue n.toNat).entries = kept ++ [s.marker n.toNat 2 gone] ∧ (t.queue n.toNat).flushWait = false ∧
        Counted s t (qCnt n.toNat 7) gone ∧ Counted s t (qCnt n.toNat 6) 1) ∧
      Gives (.queueReset q n) s fun t => lost 1 t) ∧
    (x.resetting = true → Gives (.queueResetDone n) s fun t =>
      t = s.setQueue n.toNat { x with resetting := false, headCopy := x.head, tailCopy := x.tail }) ∧
    (x.resetting = false → Gives (.queueResetDone n) s fun t => t = s)

/-- HOST_QUEUE_PUSH, HOST_QUEUE_POP and HOST_QUEUE_PEEK (R425, R426, R446, R461), on a queue whose pointer copies agree. One that is
resetting answers 3 and one that the host may not use answers 4, and stays as it was. A push to a full queue answers 1; else, with no
packet open, it appends the entry of RBT_HQ_DATA with its marks. A pop delivers the oldest entry in RBT_HQ_DATA and removes it, a peek
leaves it, and the answer is 2 for a gap marker and 0 otherwise; an empty queue answers 1. -/
def Sys2Proof.Safety.HostQueues : Prop :=
  ∀ (s : State) (n : Byte), WriteOpen s .host R.RBT_HQ_CMD →
    let x := s.queue n.toNat
    let result (t : State) (r : Nat) : Prop := t.fld F.RBT_HQ_RESULT.RESULT = r
    let stays (t : State) (r : Nat) : Prop := t.queue n.toNat = x ∧ result t r
    x.intact = true →
      (∀ f l : Bool,
        (s.mayPush n.toNat 24 = true → x.resetting = false → x.level < s.qCap n.toNat → x.openPkt = false → x.flushWait = false →
          Gives (.hostQueuePush n f l) s fun t => result t 0 ∧
            ∃ e, (t.queue n.toNat).entries = x.entries ++ [e] ∧ e.data = s.hqEntry ∧ e.first = f ∧ e.last = l ∧ e.marker = false) ∧
        (s.mayPush n.toNat 24 = true → x.resetting = false → s.qCap n.toNat ≤ x.level → Gives (.hostQueuePush n f l) s fun t =>
          stays t 1 ∧ Counted s t (qCnt n.toNat 2) 1) ∧
        (s.mayPush n.toNat 24 = true → x.resetting = true → Gives (.hostQueuePush n f l) s fun t => stays t 3) ∧
        (s.mayPush n.toNat 24 = false → Gives (.hostQueuePush n f l) s fun t => stays t 4)) ∧
      (∀ e l, s.mayPop n.toNat 24 = true → x.resetting = false → x.entries = e :: l →
        Gives (.hostQueuePop n) s (fun t => (t.queue n.toNat).entries = l ∧ t.hqEntry = e.data ∧ result t (if e.marker then 2 else 0)) ∧
        Gives (.hostQueuePeek n) s fun t => stays t (if e.marker then 2 else 0) ∧ t.hqEntry = e.data) ∧
      (s.mayPop n.toNat 24 = true → x.resetting = false → x.entries = [] →
        Gives (.hostQueuePop n) s (fun t => stays t 1) ∧ Gives (.hostQueuePeek n) s fun t => stays t 1) ∧
      (s.mayPop n.toNat 24 = true → x.resetting = true →
        Gives (.hostQueuePop n) s (fun t => stays t 3) ∧ Gives (.hostQueuePeek n) s fun t => stays t 3) ∧
      (s.mayPop n.toNat 24 = false →
        Gives (.hostQueuePop n) s (fun t => stays t 4) ∧ Gives (.hostQueuePeek n) s fun t => stays t 4)

/-- Commands on queues. -/
def Obligations.QueueCommands : Prop := Safety.QueueUpkeep ∧ Safety.HostQueues

/-- HOST_MAILBOX_POST and MAILBOX_POP (R427, R453 to R455, R463). The host's post appends its message with the doorbell bit and rings the
bell, answering 0; where 16 wait it answers 1 and changes no mailbox. A bell bit of 24 or above rings alone, without a message. A mailbox
the host may not post to answers 4. A reader's pop, with POP one, removes the oldest message and counts it, and does nothing when there is
none; another agent's is only counted, and one with POP zero does nothing. -/
def Sys2Proof.Safety.Mailboxes : Prop :=
  ∀ s : State,
    (∀ m b : BitVec 5, WriteOpen s .host R.MBX_HOST_CMD → m.toNat < 24 →
      let v := BitVec.ofNat 64 ((s.reg R.MBX_HOST_VAL_LO).toNat + (s.reg R.MBX_HOST_VAL_HI).toNat * 4294967296)
      let result (t : State) (r : Nat) : Prop := t.fld F.MBX_HOST_RESULT.RESULT = r
      let rung (t : State) : Prop := (t.reg (R.MBX_DB + 0x40 * m.toNat)).getLsbD b.toNat = true
      (m.toNat < 21 → b.toNat < 24 → (s.box m.toNat).msgs.length < 16 → Gives (.hostMailboxPost m b) s fun t =>
        (t.box m.toNat).msgs = (s.box m.toNat).msgs ++ [⟨v, 24, b.toNat⟩] ∧ result t 0 ∧ rung t) ∧
      (m.toNat < 21 → b.toNat < 24 → 16 ≤ (s.box m.toNat).msgs.length → Gives (.hostMailboxPost m b) s fun t =>
        t.rbt = s.rbt ∧ result t 1) ∧
      (m.toNat < 21 → 24 ≤ b.toNat → Gives (.hostMailboxPost m b) s fun t => t.rbt = s.rbt ∧ result t 0 ∧ rung t) ∧
      (21 ≤ m.toNat → Gives (.hostMailboxPost m b) s fun t => t.rbt = s.rbt ∧ result t 4)) ∧
    (∀ (q : Req) (m : Mailbox) (v : Word), WriteOpen s q (R.MBX_RX_POP + 0x40 * m.val) →
      (v.getLsbD 0 = false → Gives (.mailboxPop q m v) s fun t => t = s) ∧
      (v.getLsbD 0 = true → boxReader m.val q.id = false → Gives (.mailboxPop q m v) s fun t => t = s.bump R.MBX_U_BAD_POP) ∧
      (v.getLsbD 0 = true → boxReader m.val q.id = true →
        ((s.box m.val).msgs = [] → Gives (.mailboxPop q m v) s fun t => t = s) ∧
        ∀ x l, (s.box m.val).msgs = x :: l → Gives (.mailboxPop q m v) s fun t =>
          (t.box m.val).msgs = l ∧ Counted s t (R.MBX_POPS + 0x40 * m.val) 1))

/-- LOCK_ACQUIRE, LOCK_RELEASE and LOCK_FORCE (R399, R458, R459). A read of a free lock answers zero and takes it; of a held one it
answers bit 31 and the owner, and changes no lock; a read that DET bars takes the local-read exception instead. Zero written by its owner frees
a lock, another value does nothing, and another agent's write is only counted. The recovery Supervisor's force with its key frees a lock,
and does nothing to a free one or without the key. -/
def Sys2Proof.Safety.Locks : Prop :=
  ∀ (s : State) (q : Req),
    let answers (t : State) (w : Word) : Prop := t.out = (match q with | .host => .completion [w] | .core c => .readData c.val w) :: s.out
    (∀ n : BitVec 6, ReadOpen s q (R.MBX_LOCK + 4 * n.toNat) →
      let owner := s.lock n.toNat
      let others (t : State) : Prop := ∀ m, m ≠ n.toNat → t.lock m = s.lock m
      (s.readBarred q (R.MBX_LOCK + 4 * n.toNat) = false →
        (owner = 0 → Gives (.lockAcquire q n) s fun t => t.lock n.toNat = q.id + 1 ∧ others t ∧ answers t 0 ∧
          Counted s t R.MBX_U_LOCK_ACQUIRED 1) ∧
        (owner ≠ 0 → Gives (.lockAcquire q n) s fun t => t.rbt = s.rbt ∧ answers t (BitVec.ofNat 32 (2147483648 + (owner - 1))) ∧
          Counted s t R.MBX_U_LOCK_BUSY 1)) ∧
      (s.readBarred q (R.MBX_LOCK + 4 * n.toNat) = true → ∀ c, q = .core c → (s.core c.val).run = .run →
        Gives (.lockAcquire q n) s fun t => ∃ v, t = s.useFree.excEntry c.val 0x05 v)) ∧
    (∀ (n : BitVec 6) (v : Word), WriteOpen s q (R.MBX_LOCK + 4 * n.toNat) →
      (s.lock n.toNat = q.id + 1 → v = 0 → Gives (.lockRelease q n v) s fun t => t.lock n.toNat = 0 ∧
        (∀ m, m ≠ n.toNat → t.lock m = s.lock m) ∧ Counted s t R.MBX_U_LOCK_RELEASED 1) ∧
      (s.lock n.toNat = q.id + 1 → v ≠ 0 → Gives (.lockRelease q n v) s fun t => t = s) ∧
      (s.lock n.toNat ≠ q.id + 1 → Gives (.lockRelease q n v) s fun t => t = s.bump R.MBX_U_LOCK_BAD_RELEASE)) ∧
    (∀ v : Word, WriteOpen s q R.MBX_LOCK_FORCE →
      let n := v.toNat % 64
      (v.toNat / 65536 = 0x4C4B → s.lock n ≠ 0 → Gives (.lockForce q v) s fun t =>
        t.lock n = 0 ∧ (∀ m, m ≠ n → t.lock m = s.lock m) ∧ Counted s t R.MBX_U_LOCK_FORCED 1) ∧
      (v.toNat / 65536 ≠ 0x4C4B ∨ s.lock n = 0 → Gives (.lockForce q v) s fun t => t = s))

/-- SOURCE_INPUT, MODERATION_RELEASE, INTERRUPT_CLAIM and INTERRUPT_COMPLETE (R468, R470 to R474). An unchanged input changes nothing; a
changed one is kept, and sets PENDING on a rising edge (SENSE 1), a falling one (2) or either (3). A held source that is due is released,
and nothing else happens then. A claim by the window's own core answers the winner's priority and claim ID, makes it active on that core
and clears its PENDING; with no winner it answers 0x3FF and is counted as spurious; a claim by another agent answers 0x3FF and changes
nothing in the controller. A completion by the window's core of a source active on it ends that; any other is only counted as bad. -/
def Sys2Proof.Safety.Interrupts : Prop :=
  ∀ (s : State) (q : Req),
    let answers (t : State) (w : Word) : Prop := t.out = (match q with | .host => .completion [w] | .core c => .readData c.val w) :: s.out
    (∀ id : IcRef,
      let k := srcKeyOf id
      let lvl := s.srcLevel k
      let was := (s.src k).pending
      (lvl = (s.src k).input → Gives (.sourceInput id) s fun t => t = s) ∧
      (lvl ≠ (s.src k).input → Gives (.sourceInput id) s fun t => (t.src k).input = lvl ∧ (∀ j, j ≠ k → t.src j = s.src j) ∧
        (s.srcSense k = 0 → (t.src k).pending = was) ∧ (s.srcSense k = 1 → (t.src k).pending = (lvl || was)) ∧
        (s.srcSense k = 2 → (t.src k).pending = (!lvl || was)) ∧ (s.srcSense k = 3 → (t.src k).pending = true)) ∧
      ∀ dt,
        let e := s.elapse dt
        ((s.src k).held = true → e.modDue k = true → Gives (.moderationRelease id dt) s fun t =>
          (t.src k).held = false ∧ (∀ j, j ≠ k → t.src j = s.src j) ∧ Counted s t R.IC_U_MOD_RELEASES 1) ∧
        ((s.src k).held = false ∨ e.modDue k = false → Gives (.moderationRelease id dt) s fun t => t = e)) ∧
    (∀ c : CoreId, ReadOpen s q (R.IC_CLAIM + 0x400 * c.val) → s.readBarred q (R.IC_CLAIM + 0x400 * c.val) = false →
      (q.id ≠ c.val → Gives (.interruptClaim q c) s fun t => answers t 0x3FF ∧ t.ic = s.ic) ∧
      (q.id = c.val → s.winner c.val = none → Gives (.interruptClaim q c) s fun t =>
        answers t 0x3FF ∧ t.ic = s.ic ∧ Counted s t R.IC_U_SPURIOUS 1) ∧
      (∀ k, q.id = c.val → s.winner c.val = some k → Gives (.interruptClaim q c) s fun t =>
        answers t (BitVec.ofNat 32 (2147483648 + s.srcPrio k * 65536 + claimId k)) ∧ t.icLast c.val = claimId k ∧
        (∀ j, j ≠ k → t.src j = s.src j) ∧
        t.src k = { s.src k with active := true, activeOn := c.val, pending := false })) ∧
    (∀ (c : CoreId) (v : Word), WriteOpen s q (R.IC_COMPLETE + 0x400 * c.val) →
      let k := srcOfClaim c.val (v.toNat % 1024)
      let ends : Prop := q.id = c.val ∧ v.toNat % 1024 < 576 ∧ (s.src k).active = true ∧ (s.src k).activeOn = c.val
      (ends → Gives (.interruptComplete q c v) s fun t => t.src k = { s.src k with active := false, activeOn := 0 } ∧
        (∀ j, j ≠ k → t.src j = s.src j) ∧ Counted s t R.IC_U_COMPLETES 1) ∧
      (¬ ends → Gives (.interruptComplete q c v) s fun t => t.ic = s.ic ∧ Counted s t R.IC_U_BAD_COMPLETES 1))

/-- Mailboxes, locks and interrupts. -/
def Obligations.MailboxesLocksInterrupts : Prop := Safety.Mailboxes ∧ Safety.Locks ∧ Safety.Interrupts

/-! ## The Redundant Pair -/

/-- The Crossing's link, heartbeats and duty (R487 to R494, R510, R511). A frame in sequence is acknowledged and its messages taken; one that
is damaged or out of order is not. Every frame not acknowledged is sent again. A heartbeat goes out each ms on both paths; a received one is
kept and brings its path up, and 3.1 ms without one brings it down. A Crossing that is out stops none of what the data path does (R532). A shadow in step whose holder is gone begins its takeover, an isolated
home unit after its guard time. A post to the peer reaches mailbox 23 there and its result comes back. -/
def Obligations.CrossingLink : Prop :=
  ∀ (s : State) (dt : Nat),
    let e := s.elapse dt
    let kept (ack : Nat) := s.xng.unacked.filter fun u => decide (ack < u.1)
    (∀ (seq ack : Nat) (msgs : List (Nat × List Byte)), s.xngRuns = true → s.flag F.XNG_STATUS.LINK = true →
      Gives (.xngFrame seq ack false msgs) s (fun t => t = s) ∧
      Gives (.xngFrame seq ack true []) s (fun t => t = { s with xng := { s.xng with unacked := kept ack } }) ∧
      (msgs ≠ [] → seq ≠ s.xng.rxSeq + 1 → Gives (.xngFrame seq ack true msgs) s fun t => t = s) ∧
      (∀ k l, msgs = [(k, l)] → seq = s.xng.rxSeq + 1 →
        (k ≠ 3 → k ≠ 5 → Gives (.xngFrame seq ack true msgs) s fun t => t = { s with
          out := .crossing 0 (leBytes 8 seq) :: s.out
          xng := { s.xng with unacked := kept ack, rxSeq := seq, msgs := s.xng.msgs ++ [(k, l)] } }) ∧
        (k = 5 → 32 ≤ l.length → s.takesEntries = true → Gives (.xngFrame seq ack true msgs) s fun t =>
          t.xng = { s.xng with unacked := kept ack, rxSeq := seq, rx := s.xng.rx ++ [l] } ∧ Counted s t R.XNG_U_ENTRIES_RX 1)) ∧
      Gives .xngRetransmit s fun t => t.xng = s.xng ∧ t.out.length = s.out.length + s.xng.unacked.length ∧
        Counted s t R.XNG_U_RETRANSMITS s.xng.unacked.length) ∧
    (s.pairRuns = true →
      let port := s.fld F.XNG_CTRL.HB_PORT
      (s.now + dt - s.xng.hbAt < 1200000 → Gives (.heartbeatSend dt) s fun t => t = e) ∧
      (1200000 ≤ s.now + dt - s.xng.hbAt → Gives (.heartbeatSend dt) s fun t => t.xng.hbSeq = s.xng.hbSeq + 1 ∧
        t.xng.hbAt = s.now + dt ∧ ∃ f, (t.port port).tx = (s.port port).tx ++ [f] ∧ f.tag = .heartbeat) ∧
      (∀ l r, s.flag F.XNG_STATUS.STOPPED = false → s.xng.msgs = (2, l) :: r →
        (readHb l = none → Gives (.heartbeatRx true) s fun t => t.xng.msgs = r ∧ t.xng.hb = s.xng.hb ∧ Counted s t R.XNG_U_HB_BAD 1) ∧
        (∀ h, readHb l = some h → Gives (.heartbeatRx true) s fun t => t.xng.msgs = r ∧ t.xng.hb = some h ∧
          t.xng.hbX = some s.now ∧ Counted s t R.XNG_U_HB_ACCEPTED 1 ∧
          (s.flag F.XNG_STATUS.LINK = true → t.flag F.XNG_STATUS.XPATH = true))) ∧
      (∀ l r h, s.xng.hbIn = l :: r → readHb l = some h → Gives (.heartbeatRx false) s fun t =>
        t.xng.hbIn = r ∧ t.xng.hb = some h ∧ t.xng.hbD = some s.now ∧ t.flag F.XNG_STATUS.DPATH = true)) ∧
    (let old (x : Option Nat) : Prop := ∀ a, x = some a → 3720000 ≤ s.now + dt - a
     (old s.xng.hbX → Gives (.pathDown dt) s fun t => t.flag F.XNG_STATUS.XPATH = false) ∧
     (old s.xng.hbD → Gives (.pathDown dt) s fun t => t.flag F.XNG_STATUS.DPATH = false) ∧
     (¬ old s.xng.hbX → ¬ old s.xng.hbD → Gives (.pathDown dt) s fun t => t = e)) ∧
    (∀ a b : Bool, Gives (.dutyInputChange a b) s fun t =>
      t.fld F.XNG_STATUS.PEER_DUTY = (if b then 2 else 0) + (if a then 1 else 0) ∧ t.sys = s.sys) ∧
    (s.pairRuns = true → s.sys.mode = .shadow ∨ s.sys.duty = true → Gives (.pairEvaluate dt) s fun t => t.xng.row = s.pairRow ∧
      (s.sys.duty = false → s.pairRow = 1 ∨ s.pairRow = 2 → s.xngState = 5 → s.sys.trans = none →
        t.sys.trans = some ⟨.takeover, false, 7⟩)) ∧
    (∀ a, s.xng.guardAt = some a → s.sys.mode = .shadow → s.sys.trans = none → Gives (.guardExpire dt) s fun t =>
      if s.fld F.XNG_LIMITS.GUARD_MS * 1200000 ≤ s.now + dt - a then
        t.sys.trans = some ⟨.recovery, false, 15⟩ ∧ t.xng.guardAt = none ∧ t.xng.via508 = true
      else t = e) ∧
    (s.flag F.XNG_STATUS.LINK = false → Gives (.crossingLinkChange true) s fun t =>
      t.flag F.XNG_STATUS.LINK = true ∧ t.xng = { s.xng with txSeq := 0, rxSeq := 0, unacked := [] }) ∧
    (s.flag F.XNG_STATUS.LINK = true → Gives (.crossingLinkChange false) s fun t =>
      t.flag F.XNG_STATUS.LINK = false ∧ t.flag F.XNG_STATUS.XPATH = false ∧ t.xng = s.xng) ∧
    (∀ (q : Req) (b : BitVec 5), WriteOpen s q R.XNG_POST_CMD → Gives (.peerPost q b) s fun t => t.flag F.XNG_POST_RESULT.BUSY = true ∧
      t.xng.txSeq = s.xng.txSeq + (if s.flag F.XNG_STATUS.LINK = true ∧ s.flag F.XNG_STATUS.STOPPED = false then 1 else 0)) ∧
    (∀ l r, s.xng.msgs = (7, l) :: r →
      (leAt l 0 1 = 0 → leAt l 1 1 % 32 < 24 → (s.box 23).msgs.length < 16 → Gives .peerPostRx s fun t => t.xng.msgs = r ∧
        (t.box 23).msgs = (s.box 23).msgs ++ [⟨BitVec.ofNat 64 (leAt l 2 8), 25, leAt l 1 1 % 32⟩]) ∧
      (leAt l 0 1 = 1 → Gives .peerPostResult s fun t => t.xng.msgs = r ∧ t.flag F.XNG_POST_RESULT.BUSY = false ∧
        t.fld F.XNG_POST_RESULT.RESULT = leAt l 1 1))

/-- Joining, the journal, digests, takeover and handover (R497 to R509, R531). A shadow applies entries in ESEQ order only: a mark becomes its
mark, an epoch its EPOCH. It asks to join, takes the image, is in step after 1 s within 2 ms, and starts again after a timeout. Digests of
one item match, or make the shadow diverge. A takeover takes duty once every entry is applied and then drives the outputs; a handover
drops duty at its time. -/
def Obligations.JoinAndTakeover : Prop :=
  ∀ (s : State) (dt : Nat),
    let e := s.elapse dt
    (∀ x l, s.xng.rx = x :: l →
      (entryEseq x ≠ s.xng.eseq + 1 → Gives (.journalApply dt) s fun t => t = e) ∧
      (e.appliesEntries = true → entryEseq x = s.xng.eseq + 1 →
        (leAt x 8 1 = 1 → Gives (.journalApply dt) s fun t => t.tim.mark = leAt x 24 8 ∧ t.tim.markAt = s.now + dt) ∧
        (leAt x 8 1 = 3 → Gives (.journalApply dt) s fun t => t.xng.rx = l ∧ t.xng.eseq = s.xng.eseq + 1 ∧
          t.mram.epoch = leAt (x.drop 32) 0 4 ∧ Counted s t R.XNG_U_ENTRIES_APPLIED 1))) ∧
    (s.xngRuns = true →
      (s.isShadow = true → s.xngState = 3 → s.xng.joinAt = none → s.xng.retryAt = none → s.flag F.XNG_STATUS.XPATH = true →
        Gives .joinStart s fun t => t.xng.joinAt = some s.now ∧ (s.joinAgrees = false → t.out = s.out)) ∧
      (∀ l r, s.isShadow = false → s.sys.duty = true → s.xng.msgs = (3, l) :: r → Gives .joinStart s fun t =>
        t.xng.msgs = r ∧ t.xng.joinWant = (s.joinAgrees || s.xng.joinWant)) ∧
      (∀ img : JoinImage, s.isShadow = true → s.xngState = 3 → s.xng.joinAt ≠ none → Gives (.joinImageLoaded img) s fun t =>
        t.xngState = 4 ∧ t.xng.eseq = img.eseq ∧ t.mram.epoch = img.epoch ∧ t.tim.mark = img.mark ∧ t.gld = img.gld ∧
        t.flt = img.flt ∧ t.osc = img.osc ∧ t.isl = img.isl ∧ t.cap = img.cap ∧ t.alm.points = img.alm.points)) ∧
    (s.isShadow = true →
      (∀ a, s.xng.lagOkAt = some a → s.xngState = 4 → Gives (.joinInStep dt) s fun t =>
        if 1200000000 ≤ s.now + dt - a then t.xngState = 5 ∧ t.xng.inStepAt = s.now + dt ∧ Counted s t R.XNG_U_JOINS 1 else t = e) ∧
      (∀ a, s.xng.joinAt = some a → s.xngState = 3 ∨ s.xngState = 4 → Gives (.joinTimeout dt) s fun t =>
        if s.fld F.XNG_LIMITS.JOIN_S * 1200000000 ≤ s.now + dt - a then t.xngState = 3 ∧ t.xng.joinAt = none ∧
          t.xng.retryAt = some (s.now + dt + 12000000000) ∧ t.flag F.XNG_INT_STATUS.JOIN_FAIL = true
        else t = e) ∧
      (∀ a, s.xng.retryAt = some a → a ≤ s.now + dt →
        (s.xngState = 3 ∨ (s.xngState = 7 ∧ e.recentDivs < 3) → Gives (.joinRetry dt) s fun t =>
          t.xngState = 3 ∧ t.xng.retryAt = none) ∧
        (s.xngState = 7 → 3 ≤ e.recentDivs → Gives (.joinRetry dt) s fun t => t = e))) ∧
    (∀ l r, s.xng.msgs = (4, l) :: r → s.inLockstep = true →
      let found := findDigest (leAt l 0 1) (leAt l 1 4) (leAt l 5 8) s.xng.own
      (∀ o, found = some o → o.digest = BitVec.ofNat 128 (leAt l 21 16) → Gives .digestRx s fun t =>
        t.xng.msgs = r ∧ Counted s t R.XNG_U_DIGESTS_MATCHED 1 ∧ t.xngState = s.xngState) ∧
      (∀ o, found = some o → o.digest ≠ BitVec.ofNat 128 (leAt l 21 16) → Gives .digestRx s fun t =>
        Counted s t R.XNG_U_DIGESTS_MISMATCHED 1 ∧ t.err.detected = s.err.detected ++ [s.found 0x20 (leAt l 1 4) 0xFF] ∧
        t.xngState = if s.xngState = 5 then 7 else s.xngState)) ∧
    (∀ d, s.inLockstep = true → s.xng.own = [d] → s.xng.peer = [] → Gives (.digestTimeout dt) s fun t =>
      if s.fld F.XNG_LIMITS.DIGEST_MS * 1200000 ≤ s.now + dt - d.clk then Counted s t R.XNG_U_DIGESTS_TIMED_OUT 1 ∧
        t.err.detected = s.err.detected ++ [e.found 0x21 d.idx 0xFF] ∧ t.xng.own = []
      else t = e) ∧
    (∀ l r, s.xng.msgs = (1, l) :: r → Gives .outputMarkRx s fun t => t.xng.msgs = r ∧
      if leAt l 0 1 = 0 then t.alm.held = s.alm.held.filter fun f => !(decide (f.1 = leAt l 1 1) && decide (f.2.1 ≤ leAt l 2 8))
      else (t.pub (leAt l 1 1)).last = leAt l 2 8 + 1) ∧
    (s.sys.mode = .takeover → s.xng.tsDone = false → s.xng.rx = [] → Gives .takeoverApplied s fun t =>
      t.xng.tsDone = true ∧ t.sys.duty = true ∧ t.xng.eseq = s.xng.eseq + 1 ∧ t.sys.mode = .takeover) ∧
    (s.sys.mode = .takeover → s.xng.tsDone = true → s.xng.toDone = false → Gives .takeoverOutputs s fun t =>
      t.xng.toDone = true ∧ t.alm.held = [] ∧
      (s.allPastTg = true → s.sys.trans = none → t.sys.trans = some ⟨.service, false, 8⟩)) ∧
    (s.xngRuns = true → s.isShadow = true → s.xngState = 5 → s.flag F.XNG_CTRL.REVERT_EN = true → s.flag F.XNG_CTRL.HOME = true →
      s.xng.handover = none → s.flag F.XNG_STATUS.LINK = true → Gives (.revertRequest dt) s fun t =>
        if s.fld F.XNG_TIMING.REVERT_S * 1200000000 ≤ s.now + dt - s.xng.inStepAt then
          t.xng.unacked = s.xng.unacked ++ [(s.xng.txSeq + 1, 3, [1])] ∧ t.sys.mode = .shadow
        else t = e) ∧
    (∀ a, s.xng.handover = some (a, .shadow) → s.sys.duty = true → s.tim.marked = true →
      (gtAtOrAfter s.tim.mark a = false → Gives (.handoverTime dt) s fun t => t = e) ∧
      (gtAtOrAfter s.tim.mark a = true → Gives (.handoverTime dt) s fun t =>
        t.sys.mode = .shadow ∧ t.sys.duty = false ∧ t.sys.prevMode = s.sys.mode ∧ t.xng.handover = none))

/-! ## Security -/

/-- The Keeper's commands and their codes (R540). -/
def Sys2Proof.Safety.keeperCode : Instr → Option Nat
  | .status => some 0x01
  | .selfTest _ => some 0x02
  | .attest => some 0x03
  | .extend => some 0x04
  | .ringRead => some 0x05
  | .hash => some 0x06
  | .verify => some 0x07
  | .genIdentity => some 0x10
  | .installOwner => some 0x11
  | .provisionDone => some 0x12
  | .loadClear => some 0x20
  | .loadWrapped => some 0x21
  | .eraseSlot => some 0x22
  | .installSak => some 0x23
  | .removeSak => some 0x24
  | .loadRsv => some 0x25
  | .removeRsv => some 0x26
  | .sign => some 0x27
  | .mac => some 0x28
  | .loadImage => some 0x30
  | .setFloor => some 0x31
  | .commitConfig => some 0x32
  | .securityPolicy => some 0x33
  | .modeAuth => some 0x40
  | .admitStep => some 0x41
  | .ringClear => some 0x42
  | .zeroize => some 0x43
  | _ => none

/-- The Keeper holds a request of a command's code. -/
def Sys2Proof.Safety.Asked (s : State) (r : KReq) (i : Instr) (cmd : Nat) : Prop :=
  keeperCode i = some cmd ∧ s.sec.req = some r ∧ r.cmd = cmd

/-- The error state lets the command pass (R567). -/
def Sys2Proof.Safety.Healthy (s : State) (cmd : Nat) : Prop := s.flag F.SEC_STATUS.ERROR = true → cmd = 1 ∨ cmd = 2 ∨ cmd = 5

/-- The Keeper carries its request out: the mode serves the command, no reserved field is set, and the output has room (R537, R540). -/
def Sys2Proof.Safety.Serves (s : State) (r : KReq) (i : Instr) (cmd out : Nat) : Prop :=
  Asked s r i cmd ∧ Healthy s cmd ∧ s.kcMode cmd = true ∧ r.rsv = false ∧ out ≤ r.outLen

/-- A request has ended with a RESULT (R537). -/
def Sys2Proof.Safety.Ended (t : State) (r : KReq) (res : Nat) : Prop :=
  t.sec.req = none ∧ t.flag F.SEC_STATUS.BUSY = false ∧ t.rdLe (r.block + 0x20) 4 = res

/-- A request has ended with a RESULT and an output, and its effect is that from `u`: beside the answer in memory, keys, MRAM, mode,
Understory, ports and engines are as in `u`. -/
def Sys2Proof.Safety.Answered (u t : State) (r : KReq) (res : Nat) (out : List Byte) : Prop :=
  Ended t r res ∧ t.sec = { u.sec with req := none } ∧ t.mram = u.mram ∧ t.sys = u.sys ∧ t.und = u.und ∧ t.net = u.net ∧ t.ing = u.ing ∧
    t.tim = u.tim ∧ t.hst = u.hst ∧ t.cores = u.cores ∧ t.rdLe (r.block + 0x24) 4 = out.length % 4294967296 ∧
    (r.outAddr + out.length ≤ r.block + 0x20 ∨ r.block + 0x28 ≤ r.outAddr → t.rdBytes r.outAddr out.length = out) ∧
    ∀ a, (a < r.block + 0x20 ∨ r.block + 0x28 ≤ a) → (a < r.outAddr ∨ r.outAddr + out.length ≤ a) → t.rdByte a = u.rdByte a

/-- The Keeper's requests and the commands that carry no signature (R537, R540, R550, R554, R555, R558, R565 to R567). A post to mailbox 20
is copied with its block and input, or refused; one request is served at a time. In the error state, in a mode that does not serve the
command, or with a reserved field set, it is refused with RESULT 8, 3 or 4 and nothing else changes. What each command writes follows;
an ATTEST and a SIGN use a random number that the spec leaves open (log 6). -/
def Obligations.KeeperRequests : Prop :=
  ∀ (s : State) (r : KReq),
    (∀ m l, s.keeperUp = true → s.sec.req = none → (s.box 20).msgs = m :: l →
      let b := m.val.toNat
      let q := s.readRequest b m.sender
      (b % 64 ≠ 0 ∨ outside b 64 = false → Gives .keeperRequest s fun t =>
        (t.box 20).msgs = l ∧ t.sec = s.sec ∧ SameMemory s t ∧ Counted s t R.SEC_U_REFUSED 1) ∧
      (b % 64 = 0 → outside b 64 = true → kcModes q.cmd ≠ none → Gives .keeperRequest s fun t =>
        (t.box 20).msgs = l ∧ t.sec = { s.sec with req := some q } ∧ t.flag F.SEC_STATUS.BUSY = true ∧ SameMemory s t ∧
        Counted s t R.SEC_U_COMMANDS 1) ∧
      (b % 64 = 0 → outside b 64 = true → kcModes q.cmd = none → Gives .keeperRequest s fun t =>
        Answered s t q (if s.flag F.SEC_STATUS.ERROR = true then 8 else 4) [])) ∧
    (∀ (i : Instr) (cmd : Nat), Asked s r i cmd →
      (¬ Healthy s cmd → Gives i s fun t => Answered s t r 8 []) ∧
      (Healthy s cmd → s.kcMode cmd = false → Gives i s fun t => Answered s t r 3 []) ∧
      (Healthy s cmd → s.kcMode cmd = true → r.rsv = true → Gives i s fun t => Answered s t r 4 [])) ∧
    (Serves s r .status 1 44 → Gives .status s fun t =>
      Answered s t r 0 (leBytes 16 s.mram.serial.toNat ++ leBytes 4 (s.reg R.SEC_STATUS).toNat ++ leBytes 8 s.slotBits ++
        leBytes 16 s.originBits)) ∧
    (Serves s r (.selfTest true) 2 0 → Gives (.selfTest true) s fun t => Answered s t r 0 [] ∧ t.flag F.SEC_STATUS.ERROR = false) ∧
    (Serves s r (.selfTest false) 2 0 → Gives (.selfTest false) s fun t => Ended t r 8 ∧ t.flag F.SEC_STATUS.ERROR = true) ∧
    (let key := s.slotKey (if s.sys.mode = .lockdown then 15 else 0)
     Serves s r .attest 3 880 →
      (key = none → Gives .attest s fun t => Answered s t r 6 []) ∧
      ∀ k, key = some k → r.inLen = 32 → ∃ n, Gives .attest s fun t =>
        Answered { s with sec := { s.sec with drawn := s.sec.drawn + 1 } } t r 0
          (s.statement k r.input ++ ecdsaSign (beNat k) n (sha256 (s.statement k r.input)))) ∧
    (Serves s r .extend 4 0 → r.inLen = 36 → 8 ≤ leAt r.input 0 4 → leAt r.input 0 4 ≤ 15 → Gives .extend s fun t => Ended t r 0 ∧
      t.mr (leAt r.input 0 4) = sha256 (s.mr (leAt r.input 0 4) ++ r.input.drop 4) ∧
      ∀ m, m ≠ leAt r.input 0 4 → t.mr m = s.mr m) ∧
    (Serves s r .ringRead 5 0 → r.inLen = 8 →
      let q := leAt r.input 0 8
      (s.mram.rlNext ≤ q + 65536 → q ≤ s.mram.rlNext → Gives .ringRead s fun t =>
        Answered s t r 0 ((List.range (min (s.mram.rlNext - q) (r.outLen / 64))).flatMap fun i => s.ringPlace ((q + i) % 65536))) ∧
      (q + 65536 < s.mram.rlNext ∨ s.mram.rlNext < q → Gives .ringRead s fun t => Answered s t r 4 [])) ∧
    (Serves s r .hash 6 32 → Gives .hash s fun t => Answered s t r 0 (sha256 r.input)) ∧
    (Serves s r .verify 7 0 → leAt r.input 0 4 = 4294967295 → r.input.length = 164 → Gives .verify s fun t =>
      Answered s t r (if ecdsaVerify (slice r.input 4 64) (slice r.input 68 32) (r.input.drop 100) = true then 0 else 2) []) ∧
    (Serves s r .removeSak 0x24 0 → r.inLen = 4 → ∀ p ch an, sakTarget (leAt r.input 0 4) = some (p, ch, an) →
      let is (a : MacSa) : Prop := a.rx = decide (ch ≠ 0) ∧ a.chan = ch - 1 ∧ a.an = an
      ((∀ a ∈ (s.port p).sas, ¬ is a) → Gives .removeSak s fun t => Answered s t r 6 []) ∧
      ((∃ a ∈ (s.port p).sas, is a) → Gives .removeSak s fun t => Ended t r 0 ∧
        ∀ a, a ∈ (t.port p).sas ↔ a ∈ (s.port p).sas ∧ ¬ is a)) ∧
    (Serves s r .removeRsv 0x26 0 → r.inLen = 4 → leAt r.input 0 4 < 128 →
      let old := mget none s.ing.rsvKeys (leAt r.input 0 4)
      (old = none → Gives .removeRsv s fun t => Answered s t r 6 []) ∧
      (old ≠ none → Gives .removeRsv s fun t => Ended t r 0 ∧ mget none t.ing.rsvKeys (leAt r.input 0 4) = none ∧
        ∀ j, j ≠ leAt r.input 0 4 → mget none t.ing.rsvKeys j = mget none s.ing.rsvKeys j)) ∧
    (Serves s r .sign 0x27 64 → r.inLen = 36 →
      (s.serviceKey (leAt r.input 0 4) 3 = none → Gives .sign s fun t => Answered s t r 6 []) ∧
      ∀ k, s.serviceKey (leAt r.input 0 4) 3 = some k → ∃ n, Gives .sign s fun t =>
        Answered { s with sec := { s.sec with drawn := s.sec.drawn + 1 } } t r 0 (ecdsaSign (beNat k) n (r.input.drop 4))) ∧
    (Serves s r .mac 0x28 32 → 4 ≤ r.inLen →
      (s.serviceKey (leAt r.input 0 4) 2 = none → Gives .mac s fun t => Answered s t r 6 []) ∧
      ∀ k, s.serviceKey (leAt r.input 0 4) 2 = some k → Gives .mac s fun t => Answered s t r 0 (hmac256 k (r.input.drop 4))) ∧
    (Serves s r .loadImage 0x30 0 →
      let n := leAt r.input 6 1
      (n ≤ 2 → s.imageOk n r.input = true → Gives .loadImage s fun t => Ended t r 0 ∧ t.mram = s.mram ∧
        mget [] t.hst.images (2 * n + (if s.loadSlot n = true then 1 else 0)) = r.input) ∧
      (2 < n ∨ s.imageOk n r.input = false → Gives .loadImage s fun t => Answered s t r 9 []))

/-- Signed commands and wrapped keys (R539 to R542, R547 to R552, R555 to R557, R561, R563, R592). A block passes only with the signature
of its role's key over it and a COUNTER above the one stored, which is then stored; else the RESULT says why and nothing changes. A
wrapped key passes the same way under its KEK. What each command then does follows. -/
def Obligations.SignedCommands : Prop :=
  ∀ (s : State) (r : KReq),
    let signer (i : Instr) : Option (Nat × Nat × List Nat) :=
      match i with
      | .genIdentity => some (0x10, 128, s.factorySlots ++ [2])
      | .installOwner => some (0x11, 0, s.factorySlots)
      | .provisionDone => some (0x12, 0, [2])
      | .loadClear => some (0x20, 0, [2])
      | .eraseSlot => some (0x22, 0, [2])
      | .setFloor => some (0x31, 0, [2])
      | .securityPolicy => some (0x33, 0, [2])
      | .modeAuth => some (0x40, 0, operatorSlots)
      | .admitStep => some (0x41, 0, operatorSlots)
      | .ringClear => some (0x42, 0, operatorSlots)
      | .zeroize => some (0x43, 0, 2 :: operatorSlots)
      | _ => none
    let wrapped (i : Instr) : Option (Nat × Nat) :=
      match i with
      | .loadWrapped => some (0x21, 0)
      | .installSak => some (0x23, 1)
      | .loadRsv => some (0x25, 2)
      | _ => none
    let passes (i : Instr) (b : Signed) : Prop :=
      ∃ cmd out slots u, signer i = some (cmd, out, slots) ∧ Serves s r i cmd out ∧ s.checkSigned r.input cmd slots = (u, .good b)
    let opens (i : Instr) (w : Wrapped) : Prop :=
      ∃ cmd kind u, wrapped i = some (cmd, kind) ∧ Serves s r i cmd 0 ∧ s.unwrap r.input kind = (u, .good w) ∧ r.inLen = wrapLen r.input
    let holds (t : State) (n kind origin : Nat) (key : List Byte) : Prop :=
      ∃ k, t.keySlot n = some k ∧ k.key = key ∧ k.kind = kind ∧ k.origin = origin ∧ (t.mram.key n).occupied = true
    let others (t : State) (n : Nat) : Prop := ∀ m, m ≠ n → t.keySlot m = s.keySlot m ∧ t.mram.key m = s.mram.key m
    (∀ (cmd : Nat) (slots : List Nat) (u : State) (b : Signed), s.checkSigned r.input cmd slots = (u, .good b) →
      b.slot ∈ slots ∧ mget 0 s.mram.counters b.slot < b.counter ∧ mget 0 u.mram.counters b.slot = b.counter ∧
      b.digest = sha256 (r.input.take (0x40 + b.params.length)) ∧ slice r.input 0x10 16 = leBytes 16 s.mram.serial.toNat ∧
      ∃ k, s.slotKey b.slot = some k ∧ ecdsaVerify k b.digest (r.input.drop (0x40 + b.params.length)) = true) ∧
    (∀ (i : Instr) (cmd out : Nat) (slots : List Nat) (c : Nat), signer i = some (cmd, out, slots) → Serves s r i cmd out →
      (s.checkSigned r.input cmd slots).2 = .bad c → Gives i s fun t => Answered s t r c []) ∧
    (∀ (i : Instr) (cmd kind c : Nat), wrapped i = some (cmd, kind) → Serves s r i cmd 0 →
      (s.unwrap r.input kind).2 = .bad c → Gives i s fun t => Answered s t r c []) ∧
    (∀ b, passes .genIdentity b → b.params = [] → Gives .genIdentity s fun t => Ended t r 0 ∧ t.flag F.SEC_STATUS.IDENTITY = true ∧
      ∃ k0 k15, holds t 0 3 0 k0 ∧ holds t 15 3 0 k15) ∧
    (∀ b, passes .installOwner b → ecPoint b.params ≠ none → Gives .installOwner s fun t =>
      Ended t r 0 ∧ holds t 2 0 1 b.params ∧ t.flag F.SEC_STATUS.OWNER = true ∧ ∀ m, m ≠ 2 → t.keySlot m = s.keySlot m) ∧
    (∀ b, passes .provisionDone b → b.params = [] → s.keySlot 0 ≠ none → s.keySlot 15 ≠ none → s.sys.trans = none →
      Gives .provisionDone s fun t => Ended t r 0 ∧ t.sys = { s.sys with trans := some ⟨.commission, false, 13⟩ }) ∧
    (∀ b, passes .loadClear b → 4 ≤ b.params.length → leAt b.params 2 2 = 0 →
      let n := leAt b.params 0 1
      let kind := leAt b.params 1 1
      let key := b.params.drop 4
      (n = 2 → s.sys.mode ≠ .commission → Gives .loadClear s fun t => Ended t r 3 ∧ t.sec.slots = s.sec.slots) ∧
      ((n = 2 → s.sys.mode = .commission) → n < 64 → slotTakes n kind = true → n ≠ 0 → n ≠ 1 → n ≠ 15 →
        keyLenOk kind key.length = true → (kind = 0 → ecPoint key ≠ none) →
        Gives .loadClear s fun t => Ended t r 0 ∧ holds t n kind 1 key ∧ ∀ m, m ≠ n → t.keySlot m = s.keySlot m)) ∧
    (∀ w, opens .loadWrapped w → w.target < 512 →
      let n := w.target % 256
      let kind := if n < 32 then 1 else if w.target < 256 then 2 else 3
      (n < 16 → Gives .loadWrapped s fun t => Ended t r 6 ∧ t.sec.slots = s.sec.slots) ∧
      (16 ≤ n → n < 64 → keyLenOk kind w.key.length = true → Gives .loadWrapped s fun t =>
        Ended t r 0 ∧ holds t n kind 2 w.key ∧ others t n)) ∧
    (∀ b, passes .eraseSlot b → b.params.length = 4 → leAt b.params 0 4 < 64 →
      let n := leAt b.params 0 4
      ((s.mram.key n).occupied = true → Gives .eraseSlot s fun t => Ended t r 0 ∧ t.keySlot n = none ∧
        (t.mram.key n).occupied = false ∧ others t n) ∧
      ((s.mram.key n).occupied = false → Gives .eraseSlot s fun t => Ended t r 6 ∧ t.sec.slots = s.sec.slots)) ∧
    (∀ w p ch an, opens .installSak w → sakTarget w.target = some (p, ch, an) → w.key.length = 32 → Gives .installSak s fun t =>
      Ended t r 0 ∧ (t.port p).sas = dropSak (s.port p).sas ch an ++
        [{ rx := decide (ch ≠ 0), chan := ch - 1, an := an, key := BitVec.ofNat 256 (beNat w.key), nextPn := 1 }]) ∧
    (∀ w kind u, s.unwrap r.input kind = (u, .good w) → 16 ≤ w.kek ∧ w.kek < 32 ∧
      mget 0 s.mram.counters w.kek < mget 0 u.mram.counters w.kek) ∧
    (∀ w u, Serves s r .loadRsv 0x25 0 → s.unwrap r.input 2 = (u, .good w) → r.inLen = wrapLen r.input + 4 → w.target < 128 →
      leAt r.input (wrapLen r.input) 4 < 4096 → Gives .loadRsv s fun t => Ended t r (if w.key.length < 14 then 1 else 0) ∧
        mget none t.ing.rsvKeys w.target = some ⟨w.keyId, leAt r.input (wrapLen r.input) 4, w.key⟩ ∧
        ∀ j, j ≠ w.target → mget none t.ing.rsvKeys j = mget none s.ing.rsvKeys j) ∧
    (∀ b, passes .setFloor b → b.params.length = 8 →
      let n := leAt b.params 0 4
      let f := leAt b.params 4 4
      n ≤ 2 → f ≤ s.imageSeq n → mget 0 s.mram.floors n ≤ f → Gives .setFloor s fun t => Ended t r 0 ∧
        mget 0 t.mram.floors n = f ∧ ∀ m, m ≠ n → mget 0 t.mram.floors m = mget 0 s.mram.floors m) ∧
    (Serves s r .commitConfig 0x32 0 →
      (s.sys.mode ≠ .service → s.sys.mode ≠ .degraded → r.inLen = 0 → Gives .commitConfig s fun t =>
        Ended t r 0 ∧ t.mram = s.copyConfig.mram) ∧
      (∀ b u, s.sys.mode = .service ∨ s.sys.mode = .degraded → s.checkSigned r.input 0x32 operatorSlots = (u, .good b) → b.params = [] →
        Gives .commitConfig s fun t => Ended t r 0 ∧ t.mram = u.copyConfig.mram)) ∧
    (∀ b, passes .securityPolicy b → b.params.length = 12 →
      let g := leAt b.params 0 4
      let ms := leAt b.params 8 4
      g < 16384 → leAt b.params 4 4 < 65536 → 10 ≤ ms → ms ≤ 1000 → (∀ n < 7, bitsOf g (2 * n + 1) (2 * n) ≠ 3) →
      (∀ n < 3, bitsOf g (2 * n + 1) (2 * n) ≠ 0) → Gives .securityPolicy s fun t => Ended t r 0 ∧
        t.reg R.SEC_TAMPER_GRADE = BitVec.ofNat 32 g ∧ t.reg R.SEC_TAMPER_TEMP = BitVec.ofNat 32 (leAt b.params 4 4) ∧
        t.reg R.SEC_REMASK = BitVec.ofNat 32 ms) ∧
    (∀ b x, passes .modeAuth b → authParams b.params = some x → Gives .modeAuth s fun t =>
      Ended t r 0 ∧ t.sec.auths = s.sec.auths ++ [(x.1, x.2, s.now)] ∧ t.mr 6 = sha256 (s.mr 6 ++ b.digest)) ∧
    (∀ b, passes .admitStep b → b.params = [] → Gives .admitStep s fun t =>
      Ended t r 0 ∧ t.flag F.TIM_STATUS.STEP_ARMED = true ∧ t.tim = { s.tim with armedAt := s.now }) ∧
    (∀ b, passes .ringClear b → b.params.length = 8 → leNat b.params = (s.cnt R.UND_RL_HEAD).toNat → s.und.clearing = none →
      Gives .ringClear s fun t => Ended t r 0 ∧ t.und = { s.und with
        clearing := some (b.params ++ leBytes 4 b.slot ++ leBytes 8 b.counter ++ b.digest.take 8) }) ∧
    (∀ b, passes .zeroize b → b.params = [] → (s.cnt R.SEC_U_ZEROIZES).toNat < 18446744073709551615 → s.mayReset = true →
      Gives .zeroize s fun t => (∀ n, n = 0 ∨ (15 ≤ n ∧ n < 64) → (t.mram.key n).occupied = false) ∧
        (∀ n, 1 ≤ n → n < 15 → t.mram.key n = s.mram.key n) ∧ t.und.storageKey = false ∧ t.sys.mode = .boot ∧
        t.fld F.SYS_RESET_CAUSE.CAUSE = 5)

/-- Authorities, re-masking, tamper and the end of a Ring Log clear (R541, R544, R560 to R565, R569, R592). An authority held for 10 s lapses.
The slot that waits longest takes new shares of its key when its period is over. A sensor that fires is latched and counted; at grade 2
a running unit loses its storage key, latches LOCKDOWN and begins its way to M10. -/
def Obligations.SecurityUpkeep : Prop :=
  ∀ (s : State) (dt : Nat),
    let e := s.elapse dt
    Gives (.modeAuthExpire dt) s (fun t => t = { e with
      sec := { s.sec with auths := s.sec.auths.filter fun a => decide (s.now + dt - a.2.2 < 12000000000) } }) ∧
    (∀ n k, e.nextVisit = some (n, k) → s.keeperUp = true →
      let period := s.fld F.SEC_REMASK.MS * 1200000
      (s.now + dt - k.visited < period → Gives (.remask dt) s fun t => t = e) ∧
      (period ≤ s.now + dt - k.visited → k.key.length ≤ 64 → Gives (.remask dt) s fun t => Counted s t R.SEC_U_REMASKS 1 ∧
        (∃ k', t.keySlot n = some k' ∧ k'.key = k.key ∧ k'.kind = k.kind ∧ k'.origin = k.origin ∧ k'.visited = s.now + dt) ∧
        ∀ j, j ≠ n → t.keySlot j = s.keySlot j)) ∧
    (∀ n : Fin 7,
      Gives (.tamperFire n) s (fun t => bitOf (t.fld F.SEC_TAMPER_LATCH.FIRED) n.val = true ∧
        bitOf (t.fld F.SEC_TAMPER_LATCH.NOW) n.val = true ∧ Counted s t R.SEC_U_TAMPER_EVENTS 1 ∧
        (s.tamperGrade n.val = 0 → s.sec.req = none → t.mram = s.mram ∧ t.sys = s.sys ∧ t.sec.slots = s.sec.slots) ∧
        (s.tamperGrade n.val = 2 → s.sys.mode ≠ .keep → s.sys.mode ≠ .dormant → s.sys.mode ≠ .lockdown →
          t.flag F.SEC_TAMPER_LATCH.LOCKDOWN = true ∧ t.und.storageKey = false ∧
          (∀ j, j = 0 ∨ (16 ≤ j ∧ j < 64) → (t.mram.key j).occupied = false) ∧
          (s.sys.trans = none → t.sys.trans = some ⟨.lockdown, false, 3⟩))) ∧
      Gives (.tamperSensorClear n) s fun t =>
        t.reg R.SEC_TAMPER_LATCH = s.reg R.SEC_TAMPER_LATCH &&& ~~~(BitVec.ofNat 32 (256 * 2 ^ n.val)) ∧
        ∀ off, off ≠ R.SEC_TAMPER_LATCH → t.reg off = s.reg off) ∧
    (s.und.clearing = none → Gives .ringClearDone s fun t => t = s) ∧
    (∀ data, s.und.clearing = some data → Gives .ringClearDone s fun t => t.und.clearing = none ∧ t.mram.rlNext = 1 ∧
      t.cnt R.UND_RL_HEAD = 0 ∧ (∀ p, p ≠ 0 → t.ringPlace p = List.replicate 64 0xFF) ∧
      (t.ringPlace 0).take 8 = List.replicate 8 0 ∧ ((t.ringPlace 0).drop 32).take 28 = (data ++ List.replicate 28 0).take 28)

/-! ## Understory -/

/-- One record has entered the Ring Log's pending buffer (R586, R587). -/
def Sys2Proof.Safety.Logged (s t : State) (type origin : Nat) (data : List Byte) : Prop :=
  ∃ r : RingRec, t.und.pending = ringInsert r s.und.pending ∧ r.type = type ∧ r.origin = origin ∧
    r.data = (data ++ List.replicate 28 0).take 28

/-- A wake event has reached every armed slot that names it, and no other (R480). -/
def Sys2Proof.Safety.Woken (s t : State) (code : Nat) : Prop :=
  ∀ k < 16, t.slotFld k 7 0 =
    if s.und.armed = true ∧ s.slotFld k 31 31 = 1 ∧ s.slotFld k 28 24 = code then min 255 (s.slotFld k 7 0 + 1) else s.slotFld k 7 0

/-- Backup supply and charger (R573 to R575, R594). Mains returns the domain to mains; its failure goes to the preferred backup above its
floor, and one below its floor to the other; with both below, the higher is kept with LOW set. Each switch is counted and recorded, and
the first one from mains to BAT is stamped until the key clears it in M2 or M3. The charger runs on mains up to CHG_V and again 100 mV
below. Voltages are measured every 10 s. -/
def Obligations.BackupSupply : Prop :=
  ∀ (s : State) (bat cap dt : Nat),
    let src := s.fld F.UND_STATUS.SOURCE
    let batOk : Prop := 2000 + 50 * s.fld F.UND_BACKUP_CTRL.BAT_FLOOR ≤ bat
    let capOk : Prop := 2000 + 50 * s.fld F.UND_BACKUP_CTRL.CAP_FLOOR ≤ cap
    let moved (mains : Bool) (dst : Nat) (low : Bool) : Prop := Gives (.backupSwitch mains bat cap) s fun t =>
      t.fld F.UND_STATUS.SOURCE = dst ∧ t.flag F.UND_STATUS.LOW = low ∧ t.flag F.UND_INT_STATUS.SWITCH = true ∧
      Counted s t R.UND_U_SWITCHES 1 ∧ (dst ≠ 0 → t.flag F.UND_STATUS.CHARGING = false) ∧
      (s.und.pending.length < 248 →
        Logged s t 0x0003 0xFF ([BitVec.ofNat 8 src, BitVec.ofNat 8 dst] ++ leBytes 2 bat ++ leBytes 2 cap)) ∧
      t.cnt R.UND_FIRST_BAT = if src = 0 ∧ dst = 1 ∧ (s.cnt R.UND_FIRST_BAT).getLsbD 63 = false
        then BitVec.ofNat 64 (9223372036854775808 + packCal s.und.cal s.subsec s.und.invalid) else s.cnt R.UND_FIRST_BAT
    let stays (mains low : Bool) : Prop := Gives (.backupSwitch mains bat cap) s fun t =>
      t.fld F.UND_STATUS.SOURCE = src ∧ t.flag F.UND_STATUS.LOW = low ∧ t.und = s.und ∧ ∀ k, t.cnt k = s.cnt k
    (src ≠ 0 → moved true 0 false) ∧ (src = 0 → stays true false) ∧
    (src = 0 → s.flag F.UND_BACKUP_CTRL.BACKUP_PREF = true → batOk → moved false 1 false) ∧
    (src = 0 → s.flag F.UND_BACKUP_CTRL.BACKUP_PREF = true → ¬ batOk → capOk → moved false 2 false) ∧
    (src = 0 → s.flag F.UND_BACKUP_CTRL.BACKUP_PREF = false → capOk → moved false 2 false) ∧
    (src = 0 → s.flag F.UND_BACKUP_CTRL.BACKUP_PREF = false → ¬ capOk → batOk → moved false 1 false) ∧
    (src = 1 → batOk → stays false false) ∧ (src = 2 → capOk → stays false false) ∧
    (src = 1 → ¬ batOk → capOk → moved false 2 false) ∧ (src = 2 → ¬ capOk → batOk → moved false 1 false) ∧
    (¬ batOk → ¬ capOk → cap < bat → if src = 1 then stays false true else moved false 1 true) ∧
    (¬ batOk → ¬ capOk → bat < cap → if src = 2 then stays false true else moved false 2 true) ∧
    (if s.sys.powerGood = true ∧ 12000000000 ≤ s.now + dt - s.und.measuredAt then Gives (.backupMeasure bat cap dt) s fun t =>
        t.fld F.UND_BACKUP_STATUS.BAT = min 4095 (bat / 10) ∧ t.fld F.UND_BACKUP_STATUS.CAP = min 4095 (cap / 10) ∧
        t.und.measuredAt = s.now + dt
      else Gives (.backupMeasure bat cap dt) s fun t => t = s.elapse dt) ∧
    (∀ (q : Req) (v : Word), WriteOpen s q R.UND_FIRST_BAT_CLR → s.reqDet q = false →
      (s.sys.mode ≠ .provision → s.sys.mode ≠ .commission → Gives (.firstBatClear q v) s fun t => Refused s t q 3 R.UND_FIRST_BAT_CLR) ∧
      (s.sys.mode = .provision ∨ s.sys.mode = .commission →
        (v.toNat / 65536 ≠ 0x4642 → Gives (.firstBatClear q v) s fun t => t = s) ∧
        (v.toNat / 65536 = 0x4642 → Gives (.firstBatClear q v) s fun t =>
          t.cnt R.UND_FIRST_BAT = 0 ∧ t.fld F.UND_BAT_SECONDS.S = 0 ∧ (s.und.pending.length < 248 → Logged s t 0x0013 q.id
            (leBytes 8 (s.cnt R.UND_FIRST_BAT).toNat ++ leBytes 4 (s.fld F.UND_BAT_SECONDS.S)))))) ∧
    (let target := 2500 + 100 * s.fld F.UND_BACKUP_CTRL.CHG_V
     let on : Prop := s.flag F.UND_BACKUP_CTRL.CHG_EN = true ∧ src = 0
     Gives (.chargeLevel cap) s fun t => t.flag F.UND_STATUS.CHARGING = true ↔
       on ∧ cap < target ∧ (cap + 100 ≤ target ∨ s.und.chargeFull = false))

/-- Calendar, periodic wake and Ring Log (R577 to R580, R584, R585, R589 to R592). A due second advances the calendar by one, with the
range's end going to 2000-01-01; a read of UND_RTC_SUBSEC latches the calendar for its requester; a commit sets a legal staged value
with the sub-second at zero and is recorded, or is refused whole. The periodic wake fires every 2^(EXP - 10) s. The record at the head of the buffer is
written at the next SEQ, a number lost following as a record; a place is copied in one step; a program appends a record of its own. -/
def Obligations.CalendarAndRingLog : Prop :=
  ∀ (s : State) (dt : Nat),
    let e := s.elapse dt
    let c := s.und.cal
    (s.now + dt - s.und.secAt < 1200000000 → Gives (.calendarTick dt) s fun t => t = e) ∧
    (1200000000 ≤ s.now + dt - s.und.secAt → Gives (.calendarTick dt) s fun t => t.und.secAt = s.und.secAt + 1200000000 ∧
      (c.ok = true → t.und.cal.ok = true) ∧
      (c.ok = true → c.wraps = false → t.und.cal.seconds = c.seconds + 1) ∧
      (c.ok = true → c.hour = 23 → c.min = 59 → c.sec = 59 → t.und.cal.wday = (c.wday + 1) % 7) ∧
      (c.wraps = true → t.und.cal.seconds = 0 ∧ t.flag F.UND_RTC_STATUS.RANGE = true)) ∧
    (∀ q : Req, ReadOpen s q R.UND_RTC_SUBSEC → s.reqDet q = false → Gives (.calendarRead q) s fun t =>
      t.out = (match q with | .host => .completion [w32 s.subsec] | .core c => .readData c.val (w32 s.subsec)) :: s.out ∧
      (∀ r, mget 0 t.und.calLatch r = if r = q.id then packCal c s.subsec false else mget 0 s.und.calLatch r) ∧ t.und.cal = c) ∧
    (∀ (q : Req) (v : Word), WriteOpen s q R.UND_RTC_SET_SEC → s.reqDet q = false →
      let d := (s.banked q.id R.UND_RTC_STG_DATE).toNat
      let h := (s.banked q.id R.UND_RTC_STG_TIME).toNat
      let n : Cal := { year := d / 65536 % 4096, month := d / 256 % 16, day := d % 32, wday := h / 16777216 % 8, hour := h / 65536 % 32,
                       min := h / 256 % 64, sec := v.toNat % 64 }
      (n.ok = true → Gives (.calendarCommit q v) s fun t => t.und.cal = n ∧ t.subsec = 0 ∧ t.und.invalid = false ∧
        t.und.wakeAt = s.und.wakeAt ∧ (s.und.pending.length < 248 → Logged s t 0x0004 q.id
          (leBytes 8 (packCal c s.subsec s.und.invalid) ++ leBytes 8 (packCal n 0 false))) ∧
        (s.alarmMatch n = true → s.alarmMatch c = false → t.flag F.UND_INT_STATUS.ALARM = true ∧ Woken s t 2)) ∧
      (n.ok = false → Gives (.calendarCommit q v) s fun t => t.und = s.und ∧ t.flag F.UND_RTC_STATUS.WERR = true ∧
        t.flag F.UND_INT_STATUS.WERR = true ∧ Counted s t R.SYS_REFUSED_COUNT 1)) ∧
    (let p := 1171875 * 2 ^ s.fld F.UND_WAKE_PERIOD.EXP
     if s.flag F.UND_WAKE_PERIOD.EN = true ∧ p ≤ s.now + dt - s.und.wakeAt then Gives (.periodicWake dt) s fun t =>
       t.und.wakeAt = s.und.wakeAt + p ∧ t.flag F.UND_INT_STATUS.PERIODIC = true ∧ Woken s t 1
     else Gives (.periodicWake dt) s fun t => t = e) ∧
    (s.und.clearing ≠ none ∨ s.und.pending = [] → Gives .ringLogWrite s fun t => t = s) ∧
    (∀ r l, s.und.clearing = none → s.und.pending = r :: l → Gives .ringLogWrite s fun t =>
      t.mram.rlNext = s.mram.rlNext + 1 ∧ (t.cnt R.UND_RL_HEAD).toNat = s.mram.rlNext % 18446744073709551616 ∧
      (∀ p < 65536, t.ringPlace p = if p = s.mram.rlNext % 65536 then r.bytes s.mram.rlNext else s.ringPlace p) ∧
      (s.und.lost = 0 ∨ 248 ≤ l.length → t.und.pending = l ∧ t.und.lost = s.und.lost) ∧
      (s.und.lost ≠ 0 → l.length < 248 → t.und.lost = 0 ∧ ∃ x : RingRec, t.und.pending = ringInsert x l ∧ x.type = 0x0012 ∧
        x.data = leBytes 8 s.und.lost ++ List.replicate 20 0)) ∧
    (∀ (q : Req) (v : Word), WriteOpen s q R.UND_RL_INDEX → s.reqDet q = false → Gives (.ringLogCopy q v) s fun t =>
      t.fld F.UND_RL_INDEX.PLACE = v.toNat % 65536 ∧
      ∀ i < 16, t.reg (R.UND_RL_DATA + 4 * i) = BitVec.ofNat 32 (leAt (s.ringPlace (v.toNat % 65536)) (4 * i) 4)) ∧
    (∀ (q : Req) (v : Word), WriteOpen s q R.UND_RL_APP_CMD → s.reqDet q = false →
      let may : Prop := match q with
        | .host => True
        | .core k => 16 ≤ k.val ∧ k.val < 20 ∧ s.reqS q = true
      let type := v.toNat % 65536
      (¬ may → Gives (.ringLogAppend q v) s fun t => Refused s t q 4 R.UND_RL_APP_CMD) ∧
      (may → type < 32768 → Gives (.ringLogAppend q v) s fun t => Refused s t q 1 R.UND_RL_APP_CMD) ∧
      (may → 32768 ≤ type → s.und.pending.length < 248 → Gives (.ringLogAppend q v) s fun t => Logged s t type q.id
        ((List.range 7).flatMap fun i => leBytes 4 (s.banked q.id (R.UND_RL_APP_DATA + 4 * i)).toNat)))

/-! ## Performance monitoring -/

/-- PRF_CTRL and presets (R598, R600). FREEZE stops the counters and holds the views at its instant; its end releases them unless a snapshot
holds them. SNAP copies every counter to its SNAP registers and holds the views; RELEASE releases them unless FREEZE is one. A write of
COUNT_HI sets the counter from both halves. -/
def Obligations.PerformanceControl : Prop :=
  ∀ (s : State) (q : Req),
    (WriteOpen s q R.PRF_CTRL →
      (s.frozen = false → Gives (.perfFreeze q true) s fun t => t.frozen = true ∧ t.held ≠ none ∧ t.flag F.PRF_STATUS.HELD = true ∧
        t.cnt R.PRF_SNAP_TIME = BitVec.ofNat 64 s.gt ∧ ∀ k, k ≠ R.PRF_SNAP_TIME → t.cnt k = s.cnt k) ∧
      (s.frozen = true → Gives (.perfFreeze q true) s fun t => t.frozen = true ∧ t.held = s.held ∧ ∀ k, t.cnt k = s.cnt k) ∧
      (s.held ≠ none → Gives (.perfFreeze q false) s fun t => t.frozen = false ∧ (∀ k, t.cnt k = s.cnt k) ∧
        (s.snapHeld = true → t.held = s.held) ∧ (s.snapHeld = false → t.held = none ∧ t.flag F.PRF_STATUS.HELD = false)) ∧
      Gives (.perfSnap q) s (fun t => t.held ≠ none ∧ t.snapHeld = true ∧ t.flag F.PRF_STATUS.HELD = true ∧
        t.cnt R.PRF_SNAP_TIME = BitVec.ofNat 64 s.gt ∧ (∀ k, k ≠ R.PRF_SNAP_TIME → t.cnt k = s.cnt k) ∧
        (∀ k < 32, let v := (s.cnt (globalCtr k + 0x10)).toNat
          t.reg (globalCtr k + 0x18) = BitVec.ofNat 32 v ∧ t.reg (globalCtr k + 0x1C) = BitVec.ofNat 32 (v / 4294967296)) ∧
        ∀ c < 21, ∀ k < 8, let v := (s.cnt (coreCtr c k + 0x10)).toNat
          t.reg (coreCtr c k + 0x18) = BitVec.ofNat 32 v ∧ t.reg (coreCtr c k + 0x1C) = BitVec.ofNat 32 (v / 4294967296)) ∧
      (s.freezeBit = 0 → s.held ≠ none → Gives (.perfRelease q) s fun t =>
        t.held = none ∧ t.snapHeld = false ∧ t.flag F.PRF_STATUS.HELD = false) ∧
      (s.freezeBit = 1 → s.frozen = true → Gives (.perfRelease q) s fun t => t.held = s.held ∧ t.snapHeld = false)) ∧
    (∀ (c : Option CoreId) (k : BitVec 5) (v : Word), WriteOpen s q (countHi c k) → Gives (.perfCounterPreset q c k v) s fun t =>
      (∀ j, t.cnt j = if j = countHi c k - 4
        then BitVec.ofNat 64 ((s.reg (countHi c k - 4)).toNat + v.toNat % 65536 * 4294967296) else s.cnt j) ∧
      t.regs = s.regs)

/-! ## Host interface and data port -/

/-- The host's side of the endpoint (R608 to R613). A request is carried out as 32-bit accesses in ascending order, one with a partial byte
enable or unaligned being refused. A host reset clears the MSI-X configuration and the host's data port context and nothing else. The
link comes up with its width and generation. HST_WAKE with its key wakes a unit in M11 and is counted elsewhere. -/
def Obligations.HostInterface : Prop :=
  ∀ (s : State),
    (∀ (write : Bool) (off n : Nat) (be : Bool) (l : List Word), s.sys.mode ≠ .keep → be = true ∨ off % 4 ≠ 0 →
      Gives (.hostRequest write off n be l) s fun t => t = (s.emit .unsupported).bump R.HST_U_UR) ∧
    (∀ (off n : Nat) (v : Word) (l : List Word), s.sys.mode ≠ .keep → off % 4 = 0 →
      (∃ u, exec (.registerWrite .host off v) s = .next u ∧ (u.sys.mode ≠ .keep → Gives (.hostRequest true off n false (v :: l)) s fun t =>
        exec (.hostRequest true (off + 4) n false l) u = .next t)) ∧
      Gives (.hostRequest true off n false []) s (fun t => t = s) ∧
      Gives (.hostRequest false off 1 false []) s fun t => exec (.rcRead .host off) s = .next t) ∧
    (∀ down : Bool, Gives (.hostReset down) s fun t =>
      t.dp 0 = { dpIdle with erasing := (s.dp 0).erasing } ∧ (∀ k, k ≠ 0 → t.dp k = s.dp k) ∧
      (∀ off, R.HST_MSIX_TABLE ≤ off → off < R.HST_MSIX_PBA + 8 → t.reg off = regReset off) ∧
      t.flag F.HST_INT_STATUS.HOST_RESET = true ∧ Counted s t R.HST_U_HOST_RESETS 1 ∧
      t.sys = s.sys ∧ t.rbt = s.rbt ∧ t.cores = s.cores ∧ SameMemory s t ∧
      t.flag F.HST_STATUS.LINK = (s.flag F.HST_STATUS.LINK && !down)) ∧
    (∀ w g : Nat, s.sys.mode ≠ .keep →
      ((w = 1 ∨ w = 2 ∨ w = 4) → 1 ≤ g → g ≤ 4 → Gives (.hostLinkUp w g) s fun t => t.flag F.HST_STATUS.LINK = true ∧
        t.fld F.HST_STATUS.WIDTH = w ∧ t.fld F.HST_STATUS.SPEED = g ∧
        (s.flag F.HST_STATUS.LINK = false → t.flag F.HST_INT_STATUS.LINK = true)) ∧
      (¬ (w = 1 ∨ w = 2 ∨ w = 4) → Gives (.hostLinkUp w g) s fun t => t = s)) ∧
    (∀ v : Word, WriteOpen s .host R.HST_WAKE →
      (s.sys.mode = .dormant → v.toNat / 65536 = 0x574B → Gives (.hostWake v) s fun t => Woken s t 10 ∧ ∀ k, t.cnt k = s.cnt k) ∧
      (s.sys.mode ≠ .dormant → Gives (.hostWake v) s fun t => t.uregs = s.uregs ∧ Counted s t R.HST_U_WAKE_IGNORED 1))

/-- The data port (R614 to R620). With no burst, an access to HST_DP_DATA or to HST_DP_FIFO moves one word at ADDR and adds 4; a failing word sets ERROR and
leaves ADDR, after which reads give zero and writes are counted as discarded. A burst starts with its direction and count and ends when the
last word is committed, or with error 5 when it is cancelled. A flash page is stored when it is programmed; an erase makes its 4 MiB
block read all ones. -/
def Obligations.DataPort : Prop :=
  ∀ (s : State) (q : Req) (k : Nat), reqCtx q = some k →
    let x := s.dp k
    let moved : DpCtx := { x with addr := (x.addr + 4) % 1099511627776 }
    let answers (t : State) (w : Word) : Prop := t.out = (match q with | .host => .completion [w] | .core c => .readData c.val w) :: s.out
    (∀ (fifo : Option (BitVec 10)) (v : Word),
      let off := match fifo with | none => R.HST_DP_DATA | some i => R.HST_DP_FIFO + 4 * i.toNat
      (ReadOpen s q off →
        (x.error = 0 → x.busy = false → x.space1 = false → dpMemory x.addr = true → s.dpOpen k false false false = true →
          s.poisoned x.addr = false → Gives (.dpDataAccess q fifo false v) s fun t =>
            answers t (BitVec.ofNat 32 (s.rdLe x.addr 4)) ∧ t.dp k = moved ∧ SameMemory s t ∧ Counted s t R.HST_U_DP_WORDS_READ 1) ∧
        (x.error = 0 → x.busy = false → x.space1 = false → dpMemory x.addr = false → dpCtrl x.addr = false →
          Gives (.dpDataAccess q fifo false v) s fun t =>
            (∃ p, t.out = p ++ s.out) ∧ t.dp k = { x with error := 1 } ∧ SameMemory s t ∧ Counted s t R.HST_U_DP_ERRORS 1) ∧
        (x.error ≠ 0 → Gives (.dpDataAccess q fifo false v) s fun t => answers t 0 ∧ t.dp k = x) ∧
        (∀ w l, x.error = 0 → x.busy = true → x.dirWrite = false → x.left ≠ 0 → x.ahead = w :: l →
          Gives (.dpDataAccess q fifo false v) s fun t => answers t w ∧ (t.dp k).left = x.left - 1 ∧ (t.dp k).addr = moved.addr)) ∧
      (Reached s q off →
        (x.error = 0 → x.busy = false → x.space1 = false → dpMemory x.addr = true → s.dpOpen k false false true = true →
          Gives (.dpDataAccess q fifo true v) s fun t => t.rdLe x.addr 4 = v.toNat ∧ SameOutside s t x.addr 4 ∧ t.dp k = moved ∧
            Counted s t R.HST_U_DP_COMMITTED 1) ∧
        (x.error ≠ 0 → Gives (.dpDataAccess q fifo true v) s fun t =>
          t.dp k = x ∧ SameMemory s t ∧ Counted s t R.HST_U_DP_DISCARDED 1))) ∧
    (Reached s q R.HST_DP_BURST →
      let begun (n : BitVec 17) (irq dir : Bool) (t : State) : Prop := (t.dp k).busy = true ∧ (t.dp k).dirWrite = dir ∧
        (t.dp k).left = n.toNat ∧ (t.dp k).irq = irq ∧ (t.dp k).error = 0 ∧ (t.dp k).addr = x.addr ∧ SameMemory s t
      (∀ (n : BitVec 17) (irq : Bool),
        (65536 < n.toNat → Gives (.dpReadBurst q n irq) s (fun t => Refused s t q 1 R.HST_DP_BURST) ∧
          Gives (.dpWriteBurst q n irq) s fun t => Refused s t q 1 R.HST_DP_BURST) ∧
        (x.erasing ≠ none → n.toNat ≤ 65536 → Gives (.dpReadBurst q n irq) s (fun t => t.dp k = if x.error = 0 then { x with error := 6 } else x) ∧
          Gives (.dpWriteBurst q n irq) s fun t => t.dp k = if x.error = 0 then { x with error := 6 } else x) ∧
        (x.erasing = none → x.busy = false → n ≠ 0 → n.toNat ≤ 65536 →
          Gives (.dpReadBurst q n irq) s (begun n irq false) ∧
          (x.space1 = false ∨ (x.addr % 16384 = 0 ∧ n.toNat % 4096 = 0) → Gives (.dpWriteBurst q n irq) s (begun n irq true)) ∧
          (x.space1 = true → x.addr % 16384 ≠ 0 ∨ n.toNat % 4096 ≠ 0 → Gives (.dpWriteBurst q n irq) s fun t =>
            t.dp k = { x with error := 4 }))) ∧
      (x.erasing = none → x.busy = true → Gives (.dpBurstCancel q) s fun t => (t.dp k).busy = false ∧ (t.dp k).error = 5 ∧
        (t.dp k).buf = [] ∧ (t.dp k).ahead = [] ∧ SameMemory s t) ∧
      (x.erasing = none → x.busy = false → Gives (.dpBurstCancel q) s fun t => t.dp k = { x with error := 0 })) ∧
    (Reached s q R.HST_DP_ERASE → ∀ b : BitVec 17,
      (x.erasing ≠ none → Gives (.dpErase q b) s fun t => t.dp k = if x.error = 0 then { x with error := 6 } else x) ∧
      (x.erasing = none → x.space1 = false ∨ x.busy = true → Gives (.dpErase q b) s fun t => Refused s t q 1 R.HST_DP_ERASE) ∧
      (x.erasing = none → x.space1 = true → x.busy = false →
        (b.toNat < 256 → Gives (.dpErase q b) s fun t => t.dp k = if x.error = 0 then { x with error := 2 } else x) ∧
        (256 ≤ b.toNat → s.dpOpen k true false true = true → Gives (.dpErase q b) s fun t =>
          t.dp k = { x with erasing := some b.toNat } ∧ Counted s t R.HST_U_DP_ERASES 1))) ∧
    (∀ j : Fin 5,
      let y := s.dp j.val
      (y.busy = true → y.left = 0 → y.buf = [] → y.page = none → Gives (.dpBurstDone j) s fun t =>
        t.dp j.val = { y with busy := false, ahead := [] } ∧
        (y.irq = true → bitOf (t.reg R.HST_INT_STATUS).toNat (2 + j.val) = true)) ∧
      (y.busy = false ∨ y.left ≠ 0 → Gives (.dpBurstDone j) s fun t => t = s) ∧
      (y.page = none → Gives (.flashPageProgrammed j) s fun t => t = s) ∧
      (∀ p, y.page = some p → y.buf.length = 4096 → Gives (.flashPageProgrammed j) s fun t =>
        (t.dp j.val).page = none ∧ (t.dp j.val).buf = [] ∧ Counted s t R.HST_U_DP_COMMITTED 4096 ∧
        ∀ a, mget 0xFF t.hst.flash a =
          if p * 16384 ≤ a ∧ a < p * 16384 + 16384 then (wordBytes y.buf).getD (a - p * 16384) 0 else mget 0xFF s.hst.flash a) ∧
      (y.erasing = none → Gives (.dpEraseDone j) s fun t => t = s) ∧
      (∀ b, y.erasing = some b → Gives (.dpEraseDone j) s fun t => t.dp j.val = { y with erasing := none } ∧
        (∀ a, mget 0xFF t.hst.flash a = if a / 4194304 = b then 0xFF else mget 0xFF s.hst.flash a) ∧
        ∀ p, mget false t.hst.programmed p = if p / 256 = b then false else mget false s.hst.programmed p))

/-! ## The whole machine -/

/-- The unit right after its first power-on reset (R21, R23, R67, R456, R458, R577): in M1 with nothing under way, every core off, every
counter at zero, no lock owned, every queue and mailbox empty, no slot open, every measurement register at zero, the calendar at
2000-01-01 and invalid, and a register of the map at its Reset column. -/
def Obligations.ResetState : Prop :=
  let r := State.reset
  r.sys.mode = .boot ∧ r.sys.trans = none ∧ r.sys.duty = false ∧ r.pending = [] ∧ (∀ c, (r.core c).run = .off) ∧ (∀ k, r.cnt k = 0) ∧
  (∀ n, r.lock n = 0) ∧ (∀ n, (r.queue n).entries = []) ∧ (∀ n, (r.box n).msgs = []) ∧ (∀ n, r.keySlot n = none) ∧
  (∀ n, r.mr n = List.replicate 32 0) ∧ r.und.cal = ⟨2000, 1, 1, 0, 0, 0, 0⟩ ∧ r.und.invalid = true ∧ r.tim.running = false ∧
  ∀ off, isURegister off = false → r.reg off = regReset off

/-- Memory at reset has its canonical form. -/
def Obligations.MemoryOkAtReset : Prop := MemoryOk State.reset

/-- What every step keeps, whatever the command: memory's canonical form (log 8), and a queue that loses exactly its front, so that it
still holds well-formed commands only (log 1). -/
def Obligations.MemoryInvariant : Prop :=
  ∀ s t : State, MemoryOk s → (∀ c ∈ s.pending, wellFormed c = true) → step s = .next t →
    MemoryOk t ∧ t.pending = s.pending.tail ∧ ∀ c ∈ t.pending, wellFormed c = true

/-- Words of the Sapor encoding, written out field by field (R402, R404 to R409, R411, R414, R425, R429), and the illegal words of R403. -/
def Obligations.DecodeWords : Prop :=
  decode 3 0b000001_00011_00001_00010_00000000001#32 = some (.sub 3 3 1 2) ∧
  decode 3 0b000010_00011_00001_00_11111111111111#32 = some (.addi 3 3 1 0x3FFF) ∧
  decode 3 0b011000_00101_00110_0011_000000000010#32 = some (.ld64 3 5 6 2) ∧
  decode 3 0b010000_1_00111_00000000000000000011#32 = some (.bnz 3 7 3) ∧
  decode 3 0b010010_1_01010_00000000000000000001#32 = some (.bp 3 true true 2 1) ∧
  decode 3 0b100000_00001_00010_00011_100_00000000#32 = some (.cadd 3 1 2 3 4) ∧
  decode 3 0b101000_00001_00010_00101000_10000_000#32 = some (.qpush 3 1 2 (.reg 5) false false) ∧
  decode 3 0b110000_00001_00000_00_0000_0000100000#32 = some (.cwr 3 1 0x20) ∧
  decode 3 0b110000_00000_00000_11_0010_0000000011#32 = some (.fenceLd 3) ∧
  decode 3 0x00000000#32 = none ∧ decode 3 0xFFFFFFFF#32 = none ∧
  decode 3 0b110000_00001_00000_10_00000000000000#32 = none ∧ decode 3 0b110000_00001_00000_00_0000_0000001001#32 = none

/-- Decoding and encoding agree (R402 to R429): every well-formed instruction of Sapor is read back from its word with every operand; a
word that decodes is the word of what it decodes to; and the words that R403 and R431 leave legal are those of well-formed instructions. -/
def Obligations.DecodeEncode : Prop :=
  (∀ i : Instr, wellFormed i = true → encode i ≠ 0 → ∃ c, decode c (encode i) = some i) ∧
  (∀ (c : CoreId) (w : Word) (i : Instr), decode c w = some i → encode i = w) ∧
  ∀ (c : CoreId) (w : Word), legalWord c w = true ↔ ∃ i, decode c w = some i ∧ wellFormed i = true
end

