-- ==== Sys2Proof/Laws/State.lean ====
section
/-!
SUPPORT. What a read gives after a write: sparse maps, registers and their fields, counters, table words, cores, memory; and for
each basic update the fields of the state that it leaves alone.
-/

namespace Sys2Proof.Machine

/-! ## Sparse maps -/

theorem mapGet_mapErase {α : Type} (d : Nat → α) (m : SMap α) (k j : Nat) :
    mapGet d (mapErase k m) j = if j = k then d k else mapGet d m j := by
  induction m with
  | nil => by_cases h : j = k <;> simp [mapErase, mapGet, h]
  | cons x t ih =>
    obtain ⟨a, v⟩ := x
    by_cases h : k = a <;> by_cases g : j = k <;> by_cases e : j = a <;> simp_all [mapErase, mapGet]

theorem mapGet_mapPut {α : Type} (d : Nat → α) (m : SMap α) (k : Nat) (v : α) (j : Nat) :
    j ≠ k → mapGet d (mapPut k v m) j = mapGet d m j := by
  intro hj
  induction m with
  | nil => simp [mapPut, mapGet, hj]
  | cons x t ih =>
    obtain ⟨a, w⟩ := x
    unfold mapPut
    split <;> simp [mapGet, hj, ih]

theorem mapGet_mapPut_erase {α : Type} (d : Nat → α) (m : SMap α) (k : Nat) (v : α) :
    mapGet d (mapPut k v (mapErase k m)) k = v := by
  induction m with
  | nil => simp [mapErase, mapPut, mapGet]
  | cons x t ih =>
    obtain ⟨a, w⟩ := x
    by_cases h : k = a
    · simp [mapErase, h]; simpa [h] using ih
    · by_cases g : k < a <;> simp [mapErase, mapPut, mapGet, h, g, ih]

/-- A read after a write of a sparse map: the value written at its key, the old value at every other. -/
@[simp] theorem mapGet_mapSet {α : Type} [DecidableEq α] (d : Nat → α) (m : SMap α) (k : Nat) (v : α) (j : Nat) :
    mapGet d (mapSet d m k v) j = if j = k then v else mapGet d m j := by
  unfold mapSet
  split
  next h => rw [mapGet_mapErase]; split <;> simp_all
  next h =>
    by_cases g : j = k
    · subst g; simp [mapGet_mapPut_erase]
    · rw [mapGet_mapPut _ _ _ _ _ g, mapGet_mapErase]; simp [g]

@[simp] theorem mget_mset {α : Type} [DecidableEq α] (d : α) (m : SMap α) (k : Nat) (v : α) (j : Nat) :
    mget d (mset d m k v) j = if j = k then v else mget d m j := mapGet_mapSet _ m k v j

theorem mapWfFrom_mono {α : Type} [DecidableEq α] (d : Nat → α) (m : SMap α) (a b : Nat) (h : a ≤ b)
    (w : mapWfFrom d b m = true) : mapWfFrom d a m = true := by
  cases m with
  | nil => rfl
  | cons x t => obtain ⟨k, v⟩ := x; simp only [mapWfFrom, Bool.and_eq_true, decide_eq_true_eq] at *; exact ⟨⟨by omega, w.1.2⟩, w.2⟩

theorem mapWfFrom_erase {α : Type} [DecidableEq α] (d : Nat → α) (m : SMap α) (k a : Nat)
    (w : mapWfFrom d a m = true) : mapWfFrom d a (mapErase k m) = true := by
  induction m generalizing a with
  | nil => rfl
  | cons x t ih =>
    obtain ⟨b, v⟩ := x
    simp only [mapWfFrom, Bool.and_eq_true, decide_eq_true_eq] at w
    unfold mapErase
    split
    · exact mapWfFrom_mono d _ a (b + 1) (by omega) (ih _ w.2)
    · simp [mapWfFrom, w.1, ih _ w.2]

theorem mapWfFrom_put {α : Type} [DecidableEq α] (d : Nat → α) (m : SMap α) (k : Nat) (v : α) (a : Nat) (ha : a ≤ k)
    (hv : v ≠ d k) (w : mapWfFrom d a (mapErase k m) = true) : mapWfFrom d a (mapPut k v (mapErase k m)) = true := by
  induction m generalizing a with
  | nil => simp [mapErase, mapPut, mapWfFrom, ha, hv]
  | cons x t ih =>
    obtain ⟨b, u⟩ := x
    by_cases h : k = b
    · simp only [mapErase, h, if_true] at *
      exact ih a ha w
    · have hk : ¬ k = b := h
      simp only [mapErase, if_neg hk] at w ⊢
      simp only [mapWfFrom, Bool.and_eq_true, decide_eq_true_eq] at w
      unfold mapPut
      by_cases g : k < b
      · simp only [g, if_true, mapWfFrom, Bool.and_eq_true, decide_eq_true_eq]
        exact ⟨⟨ha, hv⟩, ⟨by omega, w.1.2⟩, w.2⟩
      · simp only [g, if_false, mapWfFrom, Bool.and_eq_true, decide_eq_true_eq]
        exact ⟨w.1, ih (b + 1) (by omega) w.2⟩

/-- A write keeps the canonical form. -/
theorem mapWf_mapSet {α : Type} [DecidableEq α] (d : Nat → α) (m : SMap α) (k : Nat) (v : α) (w : mapWf d m = true) :
    mapWf d (mapSet d m k v) = true := by
  unfold mapSet mapWf at *
  split
  · exact mapWfFrom_erase d m k 0 w
  · exact mapWfFrom_put d m k v 0 (Nat.zero_le _) ‹_› (mapWfFrom_erase d m k 0 w)

/-! ## Bits -/

theorem bitsOf_lt (v hi lo : Nat) : bitsOf v hi lo < 2 ^ (hi + 1 - lo) := Nat.mod_lt _ (by positivity)

/-- A number is its high part, a field and its low part. -/
theorem bits_split (v hi lo : Nat) :
    v = (v / 2 ^ lo / 2 ^ (hi + 1 - lo)) * 2 ^ (hi + 1 - lo) * 2 ^ lo + bitsOf v hi lo * 2 ^ lo + v % 2 ^ lo := by
  unfold bitsOf
  rw [Nat.shiftRight_eq_div_pow, ← Nat.add_mul, Nat.div_add_mod', Nat.div_add_mod']

theorem putBits_eq (v hi lo x : Nat) :
    putBits v hi lo x =
      ((v / 2 ^ lo / 2 ^ (hi + 1 - lo)) * 2 ^ (hi + 1 - lo) + x % 2 ^ (hi + 1 - lo)) * 2 ^ lo + v % 2 ^ lo := by
  have h := bits_split v hi lo
  unfold putBits
  generalize bitsOf v hi lo * 2 ^ lo = b at *
  generalize (v / 2 ^ lo / 2 ^ (hi + 1 - lo)) * 2 ^ (hi + 1 - lo) = a at *
  rw [Nat.add_mul]
  omega

/-- A field reads back as it was put. -/
theorem bitsOf_putBits (v hi lo x : Nat) : bitsOf (putBits v hi lo x) hi lo = x % 2 ^ (hi + 1 - lo) := by
  rw [putBits_eq, bitsOf, Nat.shiftRight_eq_div_pow, Nat.mul_comm _ (2 ^ lo), Nat.mul_add_div (by positivity),
    Nat.div_eq_of_lt (Nat.mod_lt _ (by positivity)), Nat.add_zero, Nat.mul_add_mod_self_right, Nat.mod_mod]

theorem testBit_bitsOf (v hi lo i : Nat) : (bitsOf v hi lo).testBit i = (decide (i < hi + 1 - lo) && v.testBit (lo + i)) := by
  rw [bitsOf, Nat.testBit_mod_two_pow, Nat.testBit_shiftRight]

theorem testBit_putBits (v hi lo x i : Nat) :
    (putBits v hi lo x).testBit i
      = if i < lo then v.testBit i else if i - lo < hi + 1 - lo then x.testBit (i - lo) else v.testBit i := by
  rw [putBits_eq, Nat.mul_comm _ (2 ^ lo), Nat.testBit_two_pow_mul_add _ (Nat.mod_lt _ (by positivity))]
  split
  next h => simp [h]
  next h =>
    rw [Nat.mul_comm _ (2 ^ (hi + 1 - lo)), Nat.testBit_two_pow_mul_add _ (Nat.mod_lt _ (by positivity))]
    split
    next g => simp [g]
    next g =>
      rw [← Nat.shiftRight_eq_div_pow, ← Nat.shiftRight_eq_div_pow, Nat.testBit_shiftRight, Nat.testBit_shiftRight]
      congr 1; omega

/-- A field apart from the one put reads as before. -/
theorem bitsOf_putBits_ne (v hi lo x h l : Nat) (d : h < lo ∨ hi < l) : bitsOf (putBits v hi lo x) h l = bitsOf v h l := by
  apply Nat.eq_of_testBit_eq
  intro i
  simp only [testBit_bitsOf, testBit_putBits]
  by_cases g : i < h + 1 - l
  · by_cases a : l + i < lo
    · simp [a]
    · rw [if_neg a, if_neg (by omega)]
  · simp [g]

theorem putBits_lt (v hi lo x n : Nat) (h : hi < n) (w : v < 2 ^ n) : putBits v hi lo x < 2 ^ n := by
  apply Nat.lt_pow_two_of_testBit
  intro i g
  rw [testBit_putBits]
  have := Nat.testBit_lt_two_pow (Nat.lt_of_lt_of_le w (Nat.pow_le_pow_right (by norm_num) g))
  by_cases a : i < lo
  · simp [a, this]
  · rw [if_neg a]
    by_cases b : i - lo < hi + 1 - lo
    · omega
    · simp [b, this]


/-! ## Registers and fields -/

@[simp] theorem State.reg_setReg (s : State) (a : Nat) (v : Word) (b : Nat) :
    (s.setReg a v).reg b = if b = a then v else s.reg b := by
  unfold State.setReg State.reg
  by_cases h : isURegister a <;> by_cases g : isURegister b <;> by_cases e : b = a <;> simp_all

theorem State.reg_setReg_same (s : State) (a : Nat) (v : Word) : (s.setReg a v).reg a = v := by simp

theorem State.fld_setReg (s : State) (a : Nat) (v : Word) (f : Fld) :
    (s.setReg a v).fld f = if f.off = a then bitsOf v.toNat f.hi f.lo else s.fld f := by
  unfold State.fld
  rw [State.reg_setReg]
  split <;> rfl

/-- A field set reads back as the value that fits it. -/
theorem State.fld_setFld_same (s : State) (f : Fld) (v : Nat) (h : f.hi < 32) :
    (s.setFld f v).fld f = v % 2 ^ (f.hi + 1 - f.lo) := by
  have := putBits_lt (s.reg f.off).toNat f.hi f.lo v 32 h (s.reg f.off).isLt
  simp only [State.setFld, State.fld_setReg, if_true, w32, BitVec.toNat_ofNat, Nat.mod_eq_of_lt this, bitsOf_putBits]

/-- A field of another register, or other bits of the same one, read as before. -/
theorem State.fld_setFld_ne (s : State) (f g : Fld) (v : Nat) (h : f.hi < 32)
    (d : g.off ≠ f.off ∨ g.hi < f.lo ∨ f.hi < g.lo) : (s.setFld f v).fld g = s.fld g := by
  have lt := putBits_lt (s.reg f.off).toNat f.hi f.lo v 32 h (s.reg f.off).isLt
  simp only [State.setFld, State.fld_setReg]
  split
  next e =>
    simp only [w32, BitVec.toNat_ofNat, Nat.mod_eq_of_lt lt]
    rw [bitsOf_putBits_ne _ _ _ _ _ _ (by tauto)]
    simp [State.fld, e]
  next => rfl

/-- A one-bit status raised reads one. -/
theorem State.flag_raise (s : State) (f : Fld) (h : f.hi < 32) (e : f.hi = f.lo) : (s.raise f).flag f = true := by
  simp [State.flag, State.raise, State.fld_setFld_same _ _ _ h, e]

theorem State.reg_setFld_ne (s : State) (f : Fld) (v a : Nat) (h : a ≠ f.off) : (s.setFld f v).reg a = s.reg a := by
  simp [State.setFld, h]

@[simp] theorem State.banked_setBanked (s : State) (q a : Nat) (v : Word) (p b : Nat) :
    (s.setBanked q a v).banked p b = if bankKey p b = bankKey q a then v else s.banked p b := by
  simp [State.banked, State.setBanked]

/-! ## Counters -/

@[simp] theorem State.cnt_setCnt (s : State) (k : Nat) (v : DWord) (j : Nat) :
    (s.setCnt k v).cnt j = if j = k then v else s.cnt j := by
  unfold State.setCnt State.cnt
  by_cases h : isUWide k <;> by_cases g : isUWide j <;> by_cases e : j = k <;> simp_all

theorem State.cnt_bumpBy (s : State) (k n j : Nat) :
    (s.bumpBy k n).cnt j = if j = k then w64 (min ((s.cnt k).toNat + n) (2 ^ 64 - 1)) else s.cnt j := by
  unfold State.bumpBy
  simp only []
  split
  next h => rw [State.cnt_setCnt, Nat.min_eq_left (by omega)]
  next h =>
    have e : ∀ (t : State) (x : SMap Bool), ({ t with saturated := x } : State).cnt j = t.cnt j := fun _ _ => rfl
    rw [e, State.cnt_setCnt, Nat.min_eq_right (by omega)]

/-- An event counts one, and a counter at all ones stays there (R23). -/
theorem State.cnt_bump (s : State) (k j : Nat) :
    (s.bump k).cnt j = if j = k then w64 (min ((s.cnt k).toNat + 1) (2 ^ 64 - 1)) else s.cnt j := State.cnt_bumpBy s k 1 j

theorem State.cnt_bump_ne (s : State) (k j : Nat) (h : j ≠ k) : (s.bump k).cnt j = s.cnt j := by simp [State.cnt_bump, h]

/-! ## Table words -/

@[simp] theorem State.tword_setTword (s : State) (t i w : Nat) (v : Word) (t' i' w' : Nat) :
    (s.setTword t i w v).tword t' i' w' = if tblKey t' i' w' = tblKey t i w then v else s.tword t' i' w' := by
  simp [State.tword, State.setTword]

/-- A table field set reads back as the value that fits it. -/
theorem State.tf_setTf_same (s : State) (f : TF) (i v : Nat) (h : f.hi < 32) :
    (s.setTf f i v).tf f i = v % 2 ^ (f.hi + 1 - f.lo) := by
  have := putBits_lt (s.tword f.table i f.word).toNat f.hi f.lo v 32 h (s.tword f.table i f.word).isLt
  simp only [State.setTf, State.tf, State.tword_setTword, if_true, w32, BitVec.toNat_ofNat, Nat.mod_eq_of_lt this,
    bitsOf_putBits]

/-! ## Cores -/

@[simp] theorem State.core_setCore (s : State) (c : Nat) (k : Core) (d : Nat) :
    (s.setCore c k).core d = if d = c then k else s.core d := by simp [State.core, State.setCore]

theorem State.core_setCore_same (s : State) (c : Nat) (k : Core) : (s.setCore c k).core c = k := by simp

/-- s0 reads as zero, and a register reads as it was written. -/
theorem Core.gs_setGs (k : Core) (r : Rg) (v : DWord) (q : Rg) :
    (k.setGs r v).gs q = if q = 0 then 0 else if q = r then v else k.gs q := by
  unfold Core.setGs Core.gs
  by_cases h : q = 0 <;> by_cases g : r = 0 <;> by_cases e : q = r <;> simp_all [BitVec.toNat_eq]

/-- p0 reads as all ones, and a predicate reads as it was written. -/
theorem Core.pr_setPr (k : Core) (p : Pr) (v : Byte) (q : Pr) :
    (k.setPr p v).pr q = if q = 0 then 0xFF else if q = p then v else k.pr q := by
  unfold Core.setPr Core.pr
  by_cases h : q = 0 <;> by_cases g : p = 0 <;> by_cases e : q = p <;> simp_all [BitVec.toNat_eq]

/-! ## Memory -/

theorem State.rdByte_wrByte (s : State) (a : Nat) (b : Byte) (x : Nat) :
    (s.wrByte a b).rdByte x = if x = a then b else s.rdByte x := by simp [State.rdByte, State.wrByte]

theorem mapGet_append {α : Type} (d : Nat → α) (l m : SMap α) (k : Nat) (h : ∀ x ∈ l, x.1 ≠ k) :
    mapGet d (l ++ m) k = mapGet d m k := by
  induction l with
  | nil => rfl
  | cons x t ih =>
    obtain ⟨a, v⟩ := x
    have ha : k ≠ a := fun e => h (a, v) (by simp) e.symm
    simp only [List.cons_append, mapGet, if_neg ha]
    exact ih fun y hy => h y (by simp [hy])

theorem mapGet_append_out {α : Type} (d : Nat → α) (l m : SMap α) (k : Nat) (h : ∀ x ∈ m, x.1 ≠ k) :
    mapGet d (l ++ m) k = mapGet d l k := by
  induction l with
  | nil =>
    have := mapGet_append d m [] k h
    simpa [mapGet] using this
  | cons x t ih =>
    obtain ⟨a, v⟩ := x
    by_cases ha : k = a <;> simp [mapGet, ha, ih]

theorem mapGet_filter {α : Type} (d : Nat → α) (m : SMap α) (p : Nat × α → Bool) (k : Nat)
    (h : ∀ v, p (k, v) = true) : mapGet d (m.filter p) k = mapGet d m k := by
  induction m with
  | nil => rfl
  | cons x t ih =>
    obtain ⟨a, v⟩ := x
    by_cases ha : k = a
    · subst ha; simp [h, mapGet]
    · by_cases hp : p (a, v) <;> simp [hp, mapGet, ha, ih]

theorem listBytes_key (l : List Byte) (a : Nat) : ∀ x ∈ listBytes a l, a ≤ x.1 ∧ x.1 < a + l.length := by
  induction l generalizing a with
  | nil => simp [listBytes]
  | cons b t ih =>
    intro x hx
    unfold listBytes at hx
    split at hx
    · have := ih (a + 1) x hx; simp; omega
    · rcases List.mem_cons.mp hx with h | h
      · subst h; simp
      · have := ih (a + 1) x h; simp; omega

theorem mapGet_listBytes (l : List Byte) (a k : Nat) (h : a ≤ k) :
    mapGet (fun _ => memDefault) (listBytes a l) k = l.getD (k - a) memDefault := by
  induction l generalizing a with
  | nil => simp [listBytes, mapGet]
  | cons b t ih =>
    by_cases e : k = a
    · subst e
      unfold listBytes
      split
      next g =>
        rw [← List.append_nil (listBytes (k + 1) t), mapGet_append]
        · simp [mapGet, g]
        · intro x hx; have := listBytes_key t (k + 1) x hx; omega
      next g => simp [mapGet]
    · have h1 : k - a = (k - (a + 1)) + 1 := by omega
      unfold listBytes
      split
      · rw [ih (a + 1) (by omega), h1]; simp
      · simp only [mapGet, if_neg e]; rw [ih (a + 1) (by omega), h1]; simp

/-- Bytes put read back; every other byte reads as before. -/
theorem State.rdByte_putBytes (s : State) (a : Nat) (l : List Byte) (x : Nat) :
    (s.putBytes a l).rdByte x = if a ≤ x ∧ x < a + l.length then l.getD (x - a) memDefault else s.rdByte x := by
  simp only [State.rdByte, State.putBytes, Memory.splice, mget]
  by_cases h : x < a
  · rw [if_neg (by omega), List.append_assoc, mapGet_append_out, mapGet_filter _ _ _ _ (by simp [h])]
    intro y hy
    rcases List.mem_append.mp hy with hy | hy
    · have := listBytes_key l a y hy; omega
    · have := (List.mem_filter.mp hy).2; simp at this; omega
  · rw [List.append_assoc, mapGet_append]
    · by_cases g : x < a + l.length
      · rw [if_pos ⟨by omega, g⟩, mapGet_append_out, mapGet_listBytes _ _ _ (by omega)]
        intro y hy
        have := (List.mem_filter.mp hy).2; simp at this; omega
      · rw [if_neg (by omega), mapGet_append, mapGet_filter _ _ _ _ (by simp; omega)]
        intro y hy; have := listBytes_key l a y hy; omega
    · intro y hy
      have := (List.mem_filter.mp hy).2; simp at this; omega

@[simp] theorem State.rdByte_unpoison (s : State) (a n x : Nat) : (s.unpoison a n).rdByte x = s.rdByte x := rfl

theorem State.rdByte_wrBytes (s : State) (a : Nat) (l : List Byte) (x : Nat) :
    (s.wrBytes a l).rdByte x = if a ≤ x ∧ x < a + l.length then l.getD (x - a) memDefault else s.rdByte x := by
  simp [State.wrBytes, State.rdByte_putBytes]

theorem leBytes_length (n v : Nat) : (leBytes n v).length = n := by
  induction n generalizing v with
  | zero => rfl
  | succ n ih => simp [leBytes, ih]

/-- A little-endian store leaves every byte outside it alone. -/
theorem State.rdByte_wrLe_ne (s : State) (a n v x : Nat) (h : x < a ∨ a + n ≤ x) : (s.wrLe a n v).rdByte x = s.rdByte x := by
  rw [State.wrLe, State.rdByte_wrBytes, leBytes_length, if_neg (by omega)]

theorem mapWfFrom_listBytes (l : List Byte) (a lo : Nat) (m : SMap Byte) (h : lo ≤ a)
    (w : mapWfFrom (fun _ => memDefault) (a + l.length) m = true) :
    mapWfFrom (fun _ => memDefault) lo (listBytes a l ++ m) = true := by
  induction l generalizing a lo with
  | nil => exact mapWfFrom_mono _ _ _ _ h (by simpa [listBytes] using w)
  | cons b t ih =>
    have w' : mapWfFrom (fun _ => memDefault) (a + 1 + t.length) m = true := by
      simpa [Nat.add_comm, Nat.add_left_comm, Nat.add_assoc] using w
    unfold listBytes
    split
    · exact ih (a + 1) lo (by omega) w'
    · simp only [List.cons_append, mapWfFrom, Bool.and_eq_true, decide_eq_true_eq]
      exact ⟨⟨h, ‹_›⟩, ih (a + 1) (a + 1) (Nat.le_refl _) w'⟩

theorem mapWfFrom_above (m : SMap Byte) (lo n : Nat) (w : mapWfFrom (fun _ => memDefault) lo m = true) :
    mapWfFrom (fun _ => memDefault) n (m.filter fun x => decide (n ≤ x.1)) = true := by
  induction m generalizing lo n with
  | nil => rfl
  | cons x t ih =>
    obtain ⟨k, v⟩ := x
    simp only [mapWfFrom, Bool.and_eq_true, decide_eq_true_eq] at w
    by_cases h : n ≤ k
    · simp only [List.filter_cons, h, decide_true, if_true, mapWfFrom, Bool.and_eq_true, decide_eq_true_eq]
      refine ⟨⟨trivial, w.1.2⟩, ?_⟩
      have e : (t.filter fun x => decide (n ≤ x.1)) = t.filter fun x => decide (k + 1 ≤ x.1) := by
        have : ∀ (l : SMap Byte) (b : Nat), k + 1 ≤ b → mapWfFrom (fun _ => memDefault) b l = true →
            (l.filter fun x => decide (n ≤ x.1)) = l.filter fun x => decide (k + 1 ≤ x.1) := by
          intro l
          induction l with
          | nil => intros; rfl
          | cons y u iu =>
            intro b hb wb
            obtain ⟨j, z⟩ := y
            simp only [mapWfFrom, Bool.and_eq_true, decide_eq_true_eq] at wb
            simp only [List.filter_cons, show n ≤ j by omega, show k + 1 ≤ j by omega, decide_true, if_true]
            rw [iu (j + 1) (by omega) wb.2]
        exact this t (k + 1) (Nat.le_refl _) w.2
      rw [e]
      exact ih (k + 1) (k + 1) w.2
    · simp only [List.filter_cons, h, decide_false, Bool.false_eq_true, if_false]
      exact ih (k + 1) n w.2

theorem mapWfFrom_below (m : SMap Byte) (lo a : Nat) (r : SMap Byte) (h : lo ≤ a)
    (w : mapWfFrom (fun _ => memDefault) lo m = true) (wr : mapWfFrom (fun _ => memDefault) a r = true) :
    mapWfFrom (fun _ => memDefault) lo ((m.filter fun x => decide (x.1 < a)) ++ r) = true := by
  induction m generalizing lo with
  | nil => exact mapWfFrom_mono _ _ _ _ h wr
  | cons x t ih =>
    obtain ⟨k, v⟩ := x
    simp only [mapWfFrom, Bool.and_eq_true, decide_eq_true_eq] at w
    by_cases g : k < a
    · simp only [List.filter_cons, g, decide_true, if_true, List.cons_append, mapWfFrom, Bool.and_eq_true, decide_eq_true_eq]
      exact ⟨w.1, ih (k + 1) (by omega) w.2⟩
    · simp only [List.filter_cons, g, decide_false, Bool.false_eq_true, if_false]
      exact ih lo h (mapWfFrom_mono _ _ _ _ (by omega) w.2)

/-- Bytes put in place keep the canonical form of memory. -/
theorem Memory.wf_splice (m : List Host.Cell) (a : Nat) (l : List Byte) (w : Memory.wf m = true) :
    Memory.wf (Memory.splice m a l) = true := by
  unfold Memory.wf mapWf Memory.splice at *
  rw [List.append_assoc]
  apply mapWfFrom_below _ _ _ _ (Nat.zero_le _) w
  exact mapWfFrom_listBytes _ _ _ _ (Nat.le_refl _) (mapWfFrom_above _ _ _ w)

theorem State.wf_wrByte (s : State) (a : Nat) (b : Byte) (w : Memory.wf s.mem = true) :
    Memory.wf (s.wrByte a b).mem = true := mapWf_mapSet _ _ _ _ w
theorem State.wf_putBytes (s : State) (a : Nat) (l : List Byte) (w : Memory.wf s.mem = true) :
    Memory.wf (s.putBytes a l).mem = true := Memory.wf_splice _ _ _ w
theorem State.wf_wrBytes (s : State) (a : Nat) (l : List Byte) (w : Memory.wf s.mem = true) :
    Memory.wf (s.wrBytes a l).mem = true := Memory.wf_splice _ _ _ w
theorem State.wf_wrLe (s : State) (a n v : Nat) (w : Memory.wf s.mem = true) :
    Memory.wf (s.wrLe a n v).mem = true := Memory.wf_splice _ _ _ w
theorem State.wf_reset : Memory.wf State.reset.mem = true := rfl

/-! ## What each basic update leaves alone -/

theorem State.upd_acc_regs (s : State) (x : Acc) : ({ s with acc := x } : State).regs = s.regs := rfl
theorem State.upd_acc_uregs (s : State) (x : Acc) : ({ s with acc := x } : State).uregs = s.uregs := rfl
theorem State.upd_acc_bank (s : State) (x : Acc) : ({ s with acc := x } : State).bank = s.bank := rfl
theorem State.upd_acc_latch (s : State) (x : Acc) : ({ s with acc := x } : State).latch = s.latch := rfl
theorem State.upd_acc_wide (s : State) (x : Acc) : ({ s with acc := x } : State).wide = s.wide := rfl
theorem State.upd_acc_uwide (s : State) (x : Acc) : ({ s with acc := x } : State).uwide = s.uwide := rfl
theorem State.upd_acc_tbl (s : State) (x : Acc) : ({ s with acc := x } : State).tbl = s.tbl := rfl
theorem State.upd_acc_saturated (s : State) (x : Acc) : ({ s with acc := x } : State).saturated = s.saturated := rfl
theorem State.upd_acc_held (s : State) (x : Acc) : ({ s with acc := x } : State).held = s.held := rfl
theorem State.upd_acc_snapHeld (s : State) (x : Acc) : ({ s with acc := x } : State).snapHeld = s.snapHeld := rfl
theorem State.upd_acc_mem (s : State) (x : Acc) : ({ s with acc := x } : State).mem = s.mem := rfl
theorem State.upd_acc_mram (s : State) (x : Acc) : ({ s with acc := x } : State).mram = s.mram := rfl
theorem State.upd_acc_now (s : State) (x : Acc) : ({ s with acc := x } : State).now = s.now := rfl
theorem State.upd_acc_sys (s : State) (x : Acc) : ({ s with acc := x } : State).sys = s.sys := rfl
theorem State.upd_acc_tim (s : State) (x : Acc) : ({ s with acc := x } : State).tim = s.tim := rfl
theorem State.upd_acc_ing (s : State) (x : Acc) : ({ s with acc := x } : State).ing = s.ing := rfl
theorem State.upd_acc_gld (s : State) (x : Acc) : ({ s with acc := x } : State).gld = s.gld := rfl
theorem State.upd_acc_flt (s : State) (x : Acc) : ({ s with acc := x } : State).flt = s.flt := rfl
theorem State.upd_acc_osc (s : State) (x : Acc) : ({ s with acc := x } : State).osc = s.osc := rfl
theorem State.upd_acc_isl (s : State) (x : Acc) : ({ s with acc := x } : State).isl = s.isl := rfl
theorem State.upd_acc_alm (s : State) (x : Acc) : ({ s with acc := x } : State).alm = s.alm := rfl
theorem State.upd_acc_cap (s : State) (x : Acc) : ({ s with acc := x } : State).cap = s.cap := rfl
theorem State.upd_acc_cores (s : State) (x : Acc) : ({ s with acc := x } : State).cores = s.cores := rfl
theorem State.upd_acc_net (s : State) (x : Acc) : ({ s with acc := x } : State).net = s.net := rfl
theorem State.upd_acc_rbt (s : State) (x : Acc) : ({ s with acc := x } : State).rbt = s.rbt := rfl
theorem State.upd_acc_xng (s : State) (x : Acc) : ({ s with acc := x } : State).xng = s.xng := rfl
theorem State.upd_acc_ic (s : State) (x : Acc) : ({ s with acc := x } : State).ic = s.ic := rfl
theorem State.upd_acc_hst (s : State) (x : Acc) : ({ s with acc := x } : State).hst = s.hst := rfl
theorem State.upd_acc_err (s : State) (x : Acc) : ({ s with acc := x } : State).err = s.err := rfl
theorem State.upd_acc_und (s : State) (x : Acc) : ({ s with acc := x } : State).und = s.und := rfl
theorem State.upd_acc_sec (s : State) (x : Acc) : ({ s with acc := x } : State).sec = s.sec := rfl
theorem State.upd_acc_free (s : State) (x : Acc) : ({ s with acc := x } : State).free = s.free := rfl
theorem State.upd_acc_out (s : State) (x : Acc) : ({ s with acc := x } : State).out = s.out := rfl
theorem State.upd_acc_pending (s : State) (x : Acc) : ({ s with acc := x } : State).pending = s.pending := rfl
theorem State.upd_alm_regs (s : State) (x : Alm) : ({ s with alm := x } : State).regs = s.regs := rfl
theorem State.upd_alm_uregs (s : State) (x : Alm) : ({ s with alm := x } : State).uregs = s.uregs := rfl
theorem State.upd_alm_bank (s : State) (x : Alm) : ({ s with alm := x } : State).bank = s.bank := rfl
theorem State.upd_alm_latch (s : State) (x : Alm) : ({ s with alm := x } : State).latch = s.latch := rfl
theorem State.upd_alm_wide (s : State) (x : Alm) : ({ s with alm := x } : State).wide = s.wide := rfl
theorem State.upd_alm_uwide (s : State) (x : Alm) : ({ s with alm := x } : State).uwide = s.uwide := rfl
theorem State.upd_alm_tbl (s : State) (x : Alm) : ({ s with alm := x } : State).tbl = s.tbl := rfl
theorem State.upd_alm_saturated (s : State) (x : Alm) : ({ s with alm := x } : State).saturated = s.saturated := rfl
theorem State.upd_alm_held (s : State) (x : Alm) : ({ s with alm := x } : State).held = s.held := rfl
theorem State.upd_alm_snapHeld (s : State) (x : Alm) : ({ s with alm := x } : State).snapHeld = s.snapHeld := rfl
theorem State.upd_alm_mem (s : State) (x : Alm) : ({ s with alm := x } : State).mem = s.mem := rfl
theorem State.upd_alm_mram (s : State) (x : Alm) : ({ s with alm := x } : State).mram = s.mram := rfl
theorem State.upd_alm_now (s : State) (x : Alm) : ({ s with alm := x } : State).now = s.now := rfl
theorem State.upd_alm_sys (s : State) (x : Alm) : ({ s with alm := x } : State).sys = s.sys := rfl
theorem State.upd_alm_tim (s : State) (x : Alm) : ({ s with alm := x } : State).tim = s.tim := rfl
theorem State.upd_alm_ing (s : State) (x : Alm) : ({ s with alm := x } : State).ing = s.ing := rfl
theorem State.upd_alm_gld (s : State) (x : Alm) : ({ s with alm := x } : State).gld = s.gld := rfl
theorem State.upd_alm_flt (s : State) (x : Alm) : ({ s with alm := x } : State).flt = s.flt := rfl
theorem State.upd_alm_osc (s : State) (x : Alm) : ({ s with alm := x } : State).osc = s.osc := rfl
theorem State.upd_alm_isl (s : State) (x : Alm) : ({ s with alm := x } : State).isl = s.isl := rfl
theorem State.upd_alm_cap (s : State) (x : Alm) : ({ s with alm := x } : State).cap = s.cap := rfl
theorem State.upd_alm_acc (s : State) (x : Alm) : ({ s with alm := x } : State).acc = s.acc := rfl
theorem State.upd_alm_cores (s : State) (x : Alm) : ({ s with alm := x } : State).cores = s.cores := rfl
theorem State.upd_alm_net (s : State) (x : Alm) : ({ s with alm := x } : State).net = s.net := rfl
theorem State.upd_alm_rbt (s : State) (x : Alm) : ({ s with alm := x } : State).rbt = s.rbt := rfl
theorem State.upd_alm_xng (s : State) (x : Alm) : ({ s with alm := x } : State).xng = s.xng := rfl
theorem State.upd_alm_ic (s : State) (x : Alm) : ({ s with alm := x } : State).ic = s.ic := rfl
theorem State.upd_alm_hst (s : State) (x : Alm) : ({ s with alm := x } : State).hst = s.hst := rfl
theorem State.upd_alm_err (s : State) (x : Alm) : ({ s with alm := x } : State).err = s.err := rfl
theorem State.upd_alm_und (s : State) (x : Alm) : ({ s with alm := x } : State).und = s.und := rfl
theorem State.upd_alm_sec (s : State) (x : Alm) : ({ s with alm := x } : State).sec = s.sec := rfl
theorem State.upd_alm_free (s : State) (x : Alm) : ({ s with alm := x } : State).free = s.free := rfl
theorem State.upd_alm_out (s : State) (x : Alm) : ({ s with alm := x } : State).out = s.out := rfl
theorem State.upd_alm_pending (s : State) (x : Alm) : ({ s with alm := x } : State).pending = s.pending := rfl
theorem State.upd_bank_regs (s : State) (x : SMap Word) : ({ s with bank := x } : State).regs = s.regs := rfl
theorem State.upd_bank_uregs (s : State) (x : SMap Word) : ({ s with bank := x } : State).uregs = s.uregs := rfl
theorem State.upd_bank_latch (s : State) (x : SMap Word) : ({ s with bank := x } : State).latch = s.latch := rfl
theorem State.upd_bank_wide (s : State) (x : SMap Word) : ({ s with bank := x } : State).wide = s.wide := rfl
theorem State.upd_bank_uwide (s : State) (x : SMap Word) : ({ s with bank := x } : State).uwide = s.uwide := rfl
theorem State.upd_bank_tbl (s : State) (x : SMap Word) : ({ s with bank := x } : State).tbl = s.tbl := rfl
theorem State.upd_bank_saturated (s : State) (x : SMap Word) : ({ s with bank := x } : State).saturated = s.saturated := rfl
theorem State.upd_bank_held (s : State) (x : SMap Word) : ({ s with bank := x } : State).held = s.held := rfl
theorem State.upd_bank_snapHeld (s : State) (x : SMap Word) : ({ s with bank := x } : State).snapHeld = s.snapHeld := rfl
theorem State.upd_bank_mem (s : State) (x : SMap Word) : ({ s with bank := x } : State).mem = s.mem := rfl
theorem State.upd_bank_mram (s : State) (x : SMap Word) : ({ s with bank := x } : State).mram = s.mram := rfl
theorem State.upd_bank_now (s : State) (x : SMap Word) : ({ s with bank := x } : State).now = s.now := rfl
theorem State.upd_bank_sys (s : State) (x : SMap Word) : ({ s with bank := x } : State).sys = s.sys := rfl
theorem State.upd_bank_tim (s : State) (x : SMap Word) : ({ s with bank := x } : State).tim = s.tim := rfl
theorem State.upd_bank_ing (s : State) (x : SMap Word) : ({ s with bank := x } : State).ing = s.ing := rfl
theorem State.upd_bank_gld (s : State) (x : SMap Word) : ({ s with bank := x } : State).gld = s.gld := rfl
theorem State.upd_bank_flt (s : State) (x : SMap Word) : ({ s with bank := x } : State).flt = s.flt := rfl
theorem State.upd_bank_osc (s : State) (x : SMap Word) : ({ s with bank := x } : State).osc = s.osc := rfl
theorem State.upd_bank_isl (s : State) (x : SMap Word) : ({ s with bank := x } : State).isl = s.isl := rfl
theorem State.upd_bank_alm (s : State) (x : SMap Word) : ({ s with bank := x } : State).alm = s.alm := rfl
theorem State.upd_bank_cap (s : State) (x : SMap Word) : ({ s with bank := x } : State).cap = s.cap := rfl
theorem State.upd_bank_acc (s : State) (x : SMap Word) : ({ s with bank := x } : State).acc = s.acc := rfl
theorem State.upd_bank_cores (s : State) (x : SMap Word) : ({ s with bank := x } : State).cores = s.cores := rfl
theorem State.upd_bank_net (s : State) (x : SMap Word) : ({ s with bank := x } : State).net = s.net := rfl
theorem State.upd_bank_rbt (s : State) (x : SMap Word) : ({ s with bank := x } : State).rbt = s.rbt := rfl
theorem State.upd_bank_xng (s : State) (x : SMap Word) : ({ s with bank := x } : State).xng = s.xng := rfl
theorem State.upd_bank_ic (s : State) (x : SMap Word) : ({ s with bank := x } : State).ic = s.ic := rfl
theorem State.upd_bank_hst (s : State) (x : SMap Word) : ({ s with bank := x } : State).hst = s.hst := rfl
theorem State.upd_bank_err (s : State) (x : SMap Word) : ({ s with bank := x } : State).err = s.err := rfl
theorem State.upd_bank_und (s : State) (x : SMap Word) : ({ s with bank := x } : State).und = s.und := rfl
theorem State.upd_bank_sec (s : State) (x : SMap Word) : ({ s with bank := x } : State).sec = s.sec := rfl
theorem State.upd_bank_free (s : State) (x : SMap Word) : ({ s with bank := x } : State).free = s.free := rfl
theorem State.upd_bank_out (s : State) (x : SMap Word) : ({ s with bank := x } : State).out = s.out := rfl
theorem State.upd_bank_pending (s : State) (x : SMap Word) : ({ s with bank := x } : State).pending = s.pending := rfl
theorem State.upd_cap_regs (s : State) (x : Cap) : ({ s with cap := x } : State).regs = s.regs := rfl
theorem State.upd_cap_uregs (s : State) (x : Cap) : ({ s with cap := x } : State).uregs = s.uregs := rfl
theorem State.upd_cap_bank (s : State) (x : Cap) : ({ s with cap := x } : State).bank = s.bank := rfl
theorem State.upd_cap_latch (s : State) (x : Cap) : ({ s with cap := x } : State).latch = s.latch := rfl
theorem State.upd_cap_wide (s : State) (x : Cap) : ({ s with cap := x } : State).wide = s.wide := rfl
theorem State.upd_cap_uwide (s : State) (x : Cap) : ({ s with cap := x } : State).uwide = s.uwide := rfl
theorem State.upd_cap_tbl (s : State) (x : Cap) : ({ s with cap := x } : State).tbl = s.tbl := rfl
theorem State.upd_cap_saturated (s : State) (x : Cap) : ({ s with cap := x } : State).saturated = s.saturated := rfl
theorem State.upd_cap_held (s : State) (x : Cap) : ({ s with cap := x } : State).held = s.held := rfl
theorem State.upd_cap_snapHeld (s : State) (x : Cap) : ({ s with cap := x } : State).snapHeld = s.snapHeld := rfl
theorem State.upd_cap_mem (s : State) (x : Cap) : ({ s with cap := x } : State).mem = s.mem := rfl
theorem State.upd_cap_mram (s : State) (x : Cap) : ({ s with cap := x } : State).mram = s.mram := rfl
theorem State.upd_cap_now (s : State) (x : Cap) : ({ s with cap := x } : State).now = s.now := rfl
theorem State.upd_cap_sys (s : State) (x : Cap) : ({ s with cap := x } : State).sys = s.sys := rfl
theorem State.upd_cap_tim (s : State) (x : Cap) : ({ s with cap := x } : State).tim = s.tim := rfl
theorem State.upd_cap_ing (s : State) (x : Cap) : ({ s with cap := x } : State).ing = s.ing := rfl
theorem State.upd_cap_gld (s : State) (x : Cap) : ({ s with cap := x } : State).gld = s.gld := rfl
theorem State.upd_cap_flt (s : State) (x : Cap) : ({ s with cap := x } : State).flt = s.flt := rfl
theorem State.upd_cap_osc (s : State) (x : Cap) : ({ s with cap := x } : State).osc = s.osc := rfl
theorem State.upd_cap_isl (s : State) (x : Cap) : ({ s with cap := x } : State).isl = s.isl := rfl
theorem State.upd_cap_alm (s : State) (x : Cap) : ({ s with cap := x } : State).alm = s.alm := rfl
theorem State.upd_cap_acc (s : State) (x : Cap) : ({ s with cap := x } : State).acc = s.acc := rfl
theorem State.upd_cap_cores (s : State) (x : Cap) : ({ s with cap := x } : State).cores = s.cores := rfl
theorem State.upd_cap_net (s : State) (x : Cap) : ({ s with cap := x } : State).net = s.net := rfl
theorem State.upd_cap_rbt (s : State) (x : Cap) : ({ s with cap := x } : State).rbt = s.rbt := rfl
theorem State.upd_cap_xng (s : State) (x : Cap) : ({ s with cap := x } : State).xng = s.xng := rfl
theorem State.upd_cap_ic (s : State) (x : Cap) : ({ s with cap := x } : State).ic = s.ic := rfl
theorem State.upd_cap_hst (s : State) (x : Cap) : ({ s with cap := x } : State).hst = s.hst := rfl
theorem State.upd_cap_err (s : State) (x : Cap) : ({ s with cap := x } : State).err = s.err := rfl
theorem State.upd_cap_und (s : State) (x : Cap) : ({ s with cap := x } : State).und = s.und := rfl
theorem State.upd_cap_sec (s : State) (x : Cap) : ({ s with cap := x } : State).sec = s.sec := rfl
theorem State.upd_cap_free (s : State) (x : Cap) : ({ s with cap := x } : State).free = s.free := rfl
theorem State.upd_cap_out (s : State) (x : Cap) : ({ s with cap := x } : State).out = s.out := rfl
theorem State.upd_cap_pending (s : State) (x : Cap) : ({ s with cap := x } : State).pending = s.pending := rfl
theorem State.upd_cores_regs (s : State) (x : SMap Core) : ({ s with cores := x } : State).regs = s.regs := rfl
theorem State.upd_cores_uregs (s : State) (x : SMap Core) : ({ s with cores := x } : State).uregs = s.uregs := rfl
theorem State.upd_cores_bank (s : State) (x : SMap Core) : ({ s with cores := x } : State).bank = s.bank := rfl
theorem State.upd_cores_latch (s : State) (x : SMap Core) : ({ s with cores := x } : State).latch = s.latch := rfl
theorem State.upd_cores_wide (s : State) (x : SMap Core) : ({ s with cores := x } : State).wide = s.wide := rfl
theorem State.upd_cores_uwide (s : State) (x : SMap Core) : ({ s with cores := x } : State).uwide = s.uwide := rfl
theorem State.upd_cores_tbl (s : State) (x : SMap Core) : ({ s with cores := x } : State).tbl = s.tbl := rfl
theorem State.upd_cores_saturated (s : State) (x : SMap Core) : ({ s with cores := x } : State).saturated = s.saturated := rfl
theorem State.upd_cores_held (s : State) (x : SMap Core) : ({ s with cores := x } : State).held = s.held := rfl
theorem State.upd_cores_snapHeld (s : State) (x : SMap Core) : ({ s with cores := x } : State).snapHeld = s.snapHeld := rfl
theorem State.upd_cores_mem (s : State) (x : SMap Core) : ({ s with cores := x } : State).mem = s.mem := rfl
theorem State.upd_cores_mram (s : State) (x : SMap Core) : ({ s with cores := x } : State).mram = s.mram := rfl
theorem State.upd_cores_now (s : State) (x : SMap Core) : ({ s with cores := x } : State).now = s.now := rfl
theorem State.upd_cores_sys (s : State) (x : SMap Core) : ({ s with cores := x } : State).sys = s.sys := rfl
theorem State.upd_cores_tim (s : State) (x : SMap Core) : ({ s with cores := x } : State).tim = s.tim := rfl
theorem State.upd_cores_ing (s : State) (x : SMap Core) : ({ s with cores := x } : State).ing = s.ing := rfl
theorem State.upd_cores_gld (s : State) (x : SMap Core) : ({ s with cores := x } : State).gld = s.gld := rfl
theorem State.upd_cores_flt (s : State) (x : SMap Core) : ({ s with cores := x } : State).flt = s.flt := rfl
theorem State.upd_cores_osc (s : State) (x : SMap Core) : ({ s with cores := x } : State).osc = s.osc := rfl
theorem State.upd_cores_isl (s : State) (x : SMap Core) : ({ s with cores := x } : State).isl = s.isl := rfl
theorem State.upd_cores_alm (s : State) (x : SMap Core) : ({ s with cores := x } : State).alm = s.alm := rfl
theorem State.upd_cores_cap (s : State) (x : SMap Core) : ({ s with cores := x } : State).cap = s.cap := rfl
theorem State.upd_cores_acc (s : State) (x : SMap Core) : ({ s with cores := x } : State).acc = s.acc := rfl
theorem State.upd_cores_net (s : State) (x : SMap Core) : ({ s with cores := x } : State).net = s.net := rfl
theorem State.upd_cores_rbt (s : State) (x : SMap Core) : ({ s with cores := x } : State).rbt = s.rbt := rfl
theorem State.upd_cores_xng (s : State) (x : SMap Core) : ({ s with cores := x } : State).xng = s.xng := rfl
theorem State.upd_cores_ic (s : State) (x : SMap Core) : ({ s with cores := x } : State).ic = s.ic := rfl
theorem State.upd_cores_hst (s : State) (x : SMap Core) : ({ s with cores := x } : State).hst = s.hst := rfl
theorem State.upd_cores_err (s : State) (x : SMap Core) : ({ s with cores := x } : State).err = s.err := rfl
theorem State.upd_cores_und (s : State) (x : SMap Core) : ({ s with cores := x } : State).und = s.und := rfl
theorem State.upd_cores_sec (s : State) (x : SMap Core) : ({ s with cores := x } : State).sec = s.sec := rfl
theorem State.upd_cores_free (s : State) (x : SMap Core) : ({ s with cores := x } : State).free = s.free := rfl
theorem State.upd_cores_out (s : State) (x : SMap Core) : ({ s with cores := x } : State).out = s.out := rfl
theorem State.upd_cores_pending (s : State) (x : SMap Core) : ({ s with cores := x } : State).pending = s.pending := rfl
theorem State.upd_err_regs (s : State) (x : Err) : ({ s with err := x } : State).regs = s.regs := rfl
theorem State.upd_err_uregs (s : State) (x : Err) : ({ s with err := x } : State).uregs = s.uregs := rfl
theorem State.upd_err_bank (s : State) (x : Err) : ({ s with err := x } : State).bank = s.bank := rfl
theorem State.upd_err_latch (s : State) (x : Err) : ({ s with err := x } : State).latch = s.latch := rfl
theorem State.upd_err_wide (s : State) (x : Err) : ({ s with err := x } : State).wide = s.wide := rfl
theorem State.upd_err_uwide (s : State) (x : Err) : ({ s with err := x } : State).uwide = s.uwide := rfl
theorem State.upd_err_tbl (s : State) (x : Err) : ({ s with err := x } : State).tbl = s.tbl := rfl
theorem State.upd_err_saturated (s : State) (x : Err) : ({ s with err := x } : State).saturated = s.saturated := rfl
theorem State.upd_err_held (s : State) (x : Err) : ({ s with err := x } : State).held = s.held := rfl
theorem State.upd_err_snapHeld (s : State) (x : Err) : ({ s with err := x } : State).snapHeld = s.snapHeld := rfl
theorem State.upd_err_mem (s : State) (x : Err) : ({ s with err := x } : State).mem = s.mem := rfl
theorem State.upd_err_mram (s : State) (x : Err) : ({ s with err := x } : State).mram = s.mram := rfl
theorem State.upd_err_now (s : State) (x : Err) : ({ s with err := x } : State).now = s.now := rfl
theorem State.upd_err_sys (s : State) (x : Err) : ({ s with err := x } : State).sys = s.sys := rfl
theorem State.upd_err_tim (s : State) (x : Err) : ({ s with err := x } : State).tim = s.tim := rfl
theorem State.upd_err_ing (s : State) (x : Err) : ({ s with err := x } : State).ing = s.ing := rfl
theorem State.upd_err_gld (s : State) (x : Err) : ({ s with err := x } : State).gld = s.gld := rfl
theorem State.upd_err_flt (s : State) (x : Err) : ({ s with err := x } : State).flt = s.flt := rfl
theorem State.upd_err_osc (s : State) (x : Err) : ({ s with err := x } : State).osc = s.osc := rfl
theorem State.upd_err_isl (s : State) (x : Err) : ({ s with err := x } : State).isl = s.isl := rfl
theorem State.upd_err_alm (s : State) (x : Err) : ({ s with err := x } : State).alm = s.alm := rfl
theorem State.upd_err_cap (s : State) (x : Err) : ({ s with err := x } : State).cap = s.cap := rfl
theorem State.upd_err_acc (s : State) (x : Err) : ({ s with err := x } : State).acc = s.acc := rfl
theorem State.upd_err_cores (s : State) (x : Err) : ({ s with err := x } : State).cores = s.cores := rfl
theorem State.upd_err_net (s : State) (x : Err) : ({ s with err := x } : State).net = s.net := rfl
theorem State.upd_err_rbt (s : State) (x : Err) : ({ s with err := x } : State).rbt = s.rbt := rfl
theorem State.upd_err_xng (s : State) (x : Err) : ({ s with err := x } : State).xng = s.xng := rfl
theorem State.upd_err_ic (s : State) (x : Err) : ({ s with err := x } : State).ic = s.ic := rfl
theorem State.upd_err_hst (s : State) (x : Err) : ({ s with err := x } : State).hst = s.hst := rfl
theorem State.upd_err_und (s : State) (x : Err) : ({ s with err := x } : State).und = s.und := rfl
theorem State.upd_err_sec (s : State) (x : Err) : ({ s with err := x } : State).sec = s.sec := rfl
theorem State.upd_err_free (s : State) (x : Err) : ({ s with err := x } : State).free = s.free := rfl
theorem State.upd_err_out (s : State) (x : Err) : ({ s with err := x } : State).out = s.out := rfl
theorem State.upd_err_pending (s : State) (x : Err) : ({ s with err := x } : State).pending = s.pending := rfl
theorem State.upd_flt_regs (s : State) (x : Flt) : ({ s with flt := x } : State).regs = s.regs := rfl
theorem State.upd_flt_uregs (s : State) (x : Flt) : ({ s with flt := x } : State).uregs = s.uregs := rfl
theorem State.upd_flt_bank (s : State) (x : Flt) : ({ s with flt := x } : State).bank = s.bank := rfl
theorem State.upd_flt_latch (s : State) (x : Flt) : ({ s with flt := x } : State).latch = s.latch := rfl
theorem State.upd_flt_wide (s : State) (x : Flt) : ({ s with flt := x } : State).wide = s.wide := rfl
theorem State.upd_flt_uwide (s : State) (x : Flt) : ({ s with flt := x } : State).uwide = s.uwide := rfl
theorem State.upd_flt_tbl (s : State) (x : Flt) : ({ s with flt := x } : State).tbl = s.tbl := rfl
theorem State.upd_flt_saturated (s : State) (x : Flt) : ({ s with flt := x } : State).saturated = s.saturated := rfl
theorem State.upd_flt_held (s : State) (x : Flt) : ({ s with flt := x } : State).held = s.held := rfl
theorem State.upd_flt_snapHeld (s : State) (x : Flt) : ({ s with flt := x } : State).snapHeld = s.snapHeld := rfl
theorem State.upd_flt_mem (s : State) (x : Flt) : ({ s with flt := x } : State).mem = s.mem := rfl
theorem State.upd_flt_mram (s : State) (x : Flt) : ({ s with flt := x } : State).mram = s.mram := rfl
theorem State.upd_flt_now (s : State) (x : Flt) : ({ s with flt := x } : State).now = s.now := rfl
theorem State.upd_flt_sys (s : State) (x : Flt) : ({ s with flt := x } : State).sys = s.sys := rfl
theorem State.upd_flt_tim (s : State) (x : Flt) : ({ s with flt := x } : State).tim = s.tim := rfl
theorem State.upd_flt_ing (s : State) (x : Flt) : ({ s with flt := x } : State).ing = s.ing := rfl
theorem State.upd_flt_gld (s : State) (x : Flt) : ({ s with flt := x } : State).gld = s.gld := rfl
theorem State.upd_flt_osc (s : State) (x : Flt) : ({ s with flt := x } : State).osc = s.osc := rfl
theorem State.upd_flt_isl (s : State) (x : Flt) : ({ s with flt := x } : State).isl = s.isl := rfl
theorem State.upd_flt_alm (s : State) (x : Flt) : ({ s with flt := x } : State).alm = s.alm := rfl
theorem State.upd_flt_cap (s : State) (x : Flt) : ({ s with flt := x } : State).cap = s.cap := rfl
theorem State.upd_flt_acc (s : State) (x : Flt) : ({ s with flt := x } : State).acc = s.acc := rfl
theorem State.upd_flt_cores (s : State) (x : Flt) : ({ s with flt := x } : State).cores = s.cores := rfl
theorem State.upd_flt_net (s : State) (x : Flt) : ({ s with flt := x } : State).net = s.net := rfl
theorem State.upd_flt_rbt (s : State) (x : Flt) : ({ s with flt := x } : State).rbt = s.rbt := rfl
theorem State.upd_flt_xng (s : State) (x : Flt) : ({ s with flt := x } : State).xng = s.xng := rfl
theorem State.upd_flt_ic (s : State) (x : Flt) : ({ s with flt := x } : State).ic = s.ic := rfl
theorem State.upd_flt_hst (s : State) (x : Flt) : ({ s with flt := x } : State).hst = s.hst := rfl
theorem State.upd_flt_err (s : State) (x : Flt) : ({ s with flt := x } : State).err = s.err := rfl
theorem State.upd_flt_und (s : State) (x : Flt) : ({ s with flt := x } : State).und = s.und := rfl
theorem State.upd_flt_sec (s : State) (x : Flt) : ({ s with flt := x } : State).sec = s.sec := rfl
theorem State.upd_flt_free (s : State) (x : Flt) : ({ s with flt := x } : State).free = s.free := rfl
theorem State.upd_flt_out (s : State) (x : Flt) : ({ s with flt := x } : State).out = s.out := rfl
theorem State.upd_flt_pending (s : State) (x : Flt) : ({ s with flt := x } : State).pending = s.pending := rfl
theorem State.upd_free_regs (s : State) (x : Nat) : ({ s with free := x } : State).regs = s.regs := rfl
theorem State.upd_free_uregs (s : State) (x : Nat) : ({ s with free := x } : State).uregs = s.uregs := rfl
theorem State.upd_free_bank (s : State) (x : Nat) : ({ s with free := x } : State).bank = s.bank := rfl
theorem State.upd_free_latch (s : State) (x : Nat) : ({ s with free := x } : State).latch = s.latch := rfl
theorem State.upd_free_wide (s : State) (x : Nat) : ({ s with free := x } : State).wide = s.wide := rfl
theorem State.upd_free_uwide (s : State) (x : Nat) : ({ s with free := x } : State).uwide = s.uwide := rfl
theorem State.upd_free_tbl (s : State) (x : Nat) : ({ s with free := x } : State).tbl = s.tbl := rfl
theorem State.upd_free_saturated (s : State) (x : Nat) : ({ s with free := x } : State).saturated = s.saturated := rfl
theorem State.upd_free_held (s : State) (x : Nat) : ({ s with free := x } : State).held = s.held := rfl
theorem State.upd_free_snapHeld (s : State) (x : Nat) : ({ s with free := x } : State).snapHeld = s.snapHeld := rfl
theorem State.upd_free_mem (s : State) (x : Nat) : ({ s with free := x } : State).mem = s.mem := rfl
theorem State.upd_free_mram (s : State) (x : Nat) : ({ s with free := x } : State).mram = s.mram := rfl
theorem State.upd_free_now (s : State) (x : Nat) : ({ s with free := x } : State).now = s.now := rfl
theorem State.upd_free_sys (s : State) (x : Nat) : ({ s with free := x } : State).sys = s.sys := rfl
theorem State.upd_free_tim (s : State) (x : Nat) : ({ s with free := x } : State).tim = s.tim := rfl
theorem State.upd_free_ing (s : State) (x : Nat) : ({ s with free := x } : State).ing = s.ing := rfl
theorem State.upd_free_gld (s : State) (x : Nat) : ({ s with free := x } : State).gld = s.gld := rfl
theorem State.upd_free_flt (s : State) (x : Nat) : ({ s with free := x } : State).flt = s.flt := rfl
theorem State.upd_free_osc (s : State) (x : Nat) : ({ s with free := x } : State).osc = s.osc := rfl
theorem State.upd_free_isl (s : State) (x : Nat) : ({ s with free := x } : State).isl = s.isl := rfl
theorem State.upd_free_alm (s : State) (x : Nat) : ({ s with free := x } : State).alm = s.alm := rfl
theorem State.upd_free_cap (s : State) (x : Nat) : ({ s with free := x } : State).cap = s.cap := rfl
theorem State.upd_free_acc (s : State) (x : Nat) : ({ s with free := x } : State).acc = s.acc := rfl
theorem State.upd_free_cores (s : State) (x : Nat) : ({ s with free := x } : State).cores = s.cores := rfl
theorem State.upd_free_net (s : State) (x : Nat) : ({ s with free := x } : State).net = s.net := rfl
theorem State.upd_free_rbt (s : State) (x : Nat) : ({ s with free := x } : State).rbt = s.rbt := rfl
theorem State.upd_free_xng (s : State) (x : Nat) : ({ s with free := x } : State).xng = s.xng := rfl
theorem State.upd_free_ic (s : State) (x : Nat) : ({ s with free := x } : State).ic = s.ic := rfl
theorem State.upd_free_hst (s : State) (x : Nat) : ({ s with free := x } : State).hst = s.hst := rfl
theorem State.upd_free_err (s : State) (x : Nat) : ({ s with free := x } : State).err = s.err := rfl
theorem State.upd_free_und (s : State) (x : Nat) : ({ s with free := x } : State).und = s.und := rfl
theorem State.upd_free_sec (s : State) (x : Nat) : ({ s with free := x } : State).sec = s.sec := rfl
theorem State.upd_free_out (s : State) (x : Nat) : ({ s with free := x } : State).out = s.out := rfl
theorem State.upd_free_pending (s : State) (x : Nat) : ({ s with free := x } : State).pending = s.pending := rfl
theorem State.upd_gld_regs (s : State) (x : Gld) : ({ s with gld := x } : State).regs = s.regs := rfl
theorem State.upd_gld_uregs (s : State) (x : Gld) : ({ s with gld := x } : State).uregs = s.uregs := rfl
theorem State.upd_gld_bank (s : State) (x : Gld) : ({ s with gld := x } : State).bank = s.bank := rfl
theorem State.upd_gld_latch (s : State) (x : Gld) : ({ s with gld := x } : State).latch = s.latch := rfl
theorem State.upd_gld_wide (s : State) (x : Gld) : ({ s with gld := x } : State).wide = s.wide := rfl
theorem State.upd_gld_uwide (s : State) (x : Gld) : ({ s with gld := x } : State).uwide = s.uwide := rfl
theorem State.upd_gld_tbl (s : State) (x : Gld) : ({ s with gld := x } : State).tbl = s.tbl := rfl
theorem State.upd_gld_saturated (s : State) (x : Gld) : ({ s with gld := x } : State).saturated = s.saturated := rfl
theorem State.upd_gld_held (s : State) (x : Gld) : ({ s with gld := x } : State).held = s.held := rfl
theorem State.upd_gld_snapHeld (s : State) (x : Gld) : ({ s with gld := x } : State).snapHeld = s.snapHeld := rfl
theorem State.upd_gld_mem (s : State) (x : Gld) : ({ s with gld := x } : State).mem = s.mem := rfl
theorem State.upd_gld_mram (s : State) (x : Gld) : ({ s with gld := x } : State).mram = s.mram := rfl
theorem State.upd_gld_now (s : State) (x : Gld) : ({ s with gld := x } : State).now = s.now := rfl
theorem State.upd_gld_sys (s : State) (x : Gld) : ({ s with gld := x } : State).sys = s.sys := rfl
theorem State.upd_gld_tim (s : State) (x : Gld) : ({ s with gld := x } : State).tim = s.tim := rfl
theorem State.upd_gld_ing (s : State) (x : Gld) : ({ s with gld := x } : State).ing = s.ing := rfl
theorem State.upd_gld_flt (s : State) (x : Gld) : ({ s with gld := x } : State).flt = s.flt := rfl
theorem State.upd_gld_osc (s : State) (x : Gld) : ({ s with gld := x } : State).osc = s.osc := rfl
theorem State.upd_gld_isl (s : State) (x : Gld) : ({ s with gld := x } : State).isl = s.isl := rfl
theorem State.upd_gld_alm (s : State) (x : Gld) : ({ s with gld := x } : State).alm = s.alm := rfl
theorem State.upd_gld_cap (s : State) (x : Gld) : ({ s with gld := x } : State).cap = s.cap := rfl
theorem State.upd_gld_acc (s : State) (x : Gld) : ({ s with gld := x } : State).acc = s.acc := rfl
theorem State.upd_gld_cores (s : State) (x : Gld) : ({ s with gld := x } : State).cores = s.cores := rfl
theorem State.upd_gld_net (s : State) (x : Gld) : ({ s with gld := x } : State).net = s.net := rfl
theorem State.upd_gld_rbt (s : State) (x : Gld) : ({ s with gld := x } : State).rbt = s.rbt := rfl
theorem State.upd_gld_xng (s : State) (x : Gld) : ({ s with gld := x } : State).xng = s.xng := rfl
theorem State.upd_gld_ic (s : State) (x : Gld) : ({ s with gld := x } : State).ic = s.ic := rfl
theorem State.upd_gld_hst (s : State) (x : Gld) : ({ s with gld := x } : State).hst = s.hst := rfl
theorem State.upd_gld_err (s : State) (x : Gld) : ({ s with gld := x } : State).err = s.err := rfl
theorem State.upd_gld_und (s : State) (x : Gld) : ({ s with gld := x } : State).und = s.und := rfl
theorem State.upd_gld_sec (s : State) (x : Gld) : ({ s with gld := x } : State).sec = s.sec := rfl
theorem State.upd_gld_free (s : State) (x : Gld) : ({ s with gld := x } : State).free = s.free := rfl
theorem State.upd_gld_out (s : State) (x : Gld) : ({ s with gld := x } : State).out = s.out := rfl
theorem State.upd_gld_pending (s : State) (x : Gld) : ({ s with gld := x } : State).pending = s.pending := rfl
theorem State.upd_hst_regs (s : State) (x : Hst) : ({ s with hst := x } : State).regs = s.regs := rfl
theorem State.upd_hst_uregs (s : State) (x : Hst) : ({ s with hst := x } : State).uregs = s.uregs := rfl
theorem State.upd_hst_bank (s : State) (x : Hst) : ({ s with hst := x } : State).bank = s.bank := rfl
theorem State.upd_hst_latch (s : State) (x : Hst) : ({ s with hst := x } : State).latch = s.latch := rfl
theorem State.upd_hst_wide (s : State) (x : Hst) : ({ s with hst := x } : State).wide = s.wide := rfl
theorem State.upd_hst_uwide (s : State) (x : Hst) : ({ s with hst := x } : State).uwide = s.uwide := rfl
theorem State.upd_hst_tbl (s : State) (x : Hst) : ({ s with hst := x } : State).tbl = s.tbl := rfl
theorem State.upd_hst_saturated (s : State) (x : Hst) : ({ s with hst := x } : State).saturated = s.saturated := rfl
theorem State.upd_hst_held (s : State) (x : Hst) : ({ s with hst := x } : State).held = s.held := rfl
theorem State.upd_hst_snapHeld (s : State) (x : Hst) : ({ s with hst := x } : State).snapHeld = s.snapHeld := rfl
theorem State.upd_hst_mem (s : State) (x : Hst) : ({ s with hst := x } : State).mem = s.mem := rfl
theorem State.upd_hst_mram (s : State) (x : Hst) : ({ s with hst := x } : State).mram = s.mram := rfl
theorem State.upd_hst_now (s : State) (x : Hst) : ({ s with hst := x } : State).now = s.now := rfl
theorem State.upd_hst_sys (s : State) (x : Hst) : ({ s with hst := x } : State).sys = s.sys := rfl
theorem State.upd_hst_tim (s : State) (x : Hst) : ({ s with hst := x } : State).tim = s.tim := rfl
theorem State.upd_hst_ing (s : State) (x : Hst) : ({ s with hst := x } : State).ing = s.ing := rfl
theorem State.upd_hst_gld (s : State) (x : Hst) : ({ s with hst := x } : State).gld = s.gld := rfl
theorem State.upd_hst_flt (s : State) (x : Hst) : ({ s with hst := x } : State).flt = s.flt := rfl
theorem State.upd_hst_osc (s : State) (x : Hst) : ({ s with hst := x } : State).osc = s.osc := rfl
theorem State.upd_hst_isl (s : State) (x : Hst) : ({ s with hst := x } : State).isl = s.isl := rfl
theorem State.upd_hst_alm (s : State) (x : Hst) : ({ s with hst := x } : State).alm = s.alm := rfl
theorem State.upd_hst_cap (s : State) (x : Hst) : ({ s with hst := x } : State).cap = s.cap := rfl
theorem State.upd_hst_acc (s : State) (x : Hst) : ({ s with hst := x } : State).acc = s.acc := rfl
theorem State.upd_hst_cores (s : State) (x : Hst) : ({ s with hst := x } : State).cores = s.cores := rfl
theorem State.upd_hst_net (s : State) (x : Hst) : ({ s with hst := x } : State).net = s.net := rfl
theorem State.upd_hst_rbt (s : State) (x : Hst) : ({ s with hst := x } : State).rbt = s.rbt := rfl
theorem State.upd_hst_xng (s : State) (x : Hst) : ({ s with hst := x } : State).xng = s.xng := rfl
theorem State.upd_hst_ic (s : State) (x : Hst) : ({ s with hst := x } : State).ic = s.ic := rfl
theorem State.upd_hst_err (s : State) (x : Hst) : ({ s with hst := x } : State).err = s.err := rfl
theorem State.upd_hst_und (s : State) (x : Hst) : ({ s with hst := x } : State).und = s.und := rfl
theorem State.upd_hst_sec (s : State) (x : Hst) : ({ s with hst := x } : State).sec = s.sec := rfl
theorem State.upd_hst_free (s : State) (x : Hst) : ({ s with hst := x } : State).free = s.free := rfl
theorem State.upd_hst_out (s : State) (x : Hst) : ({ s with hst := x } : State).out = s.out := rfl
theorem State.upd_hst_pending (s : State) (x : Hst) : ({ s with hst := x } : State).pending = s.pending := rfl
theorem State.upd_ic_regs (s : State) (x : Ic) : ({ s with ic := x } : State).regs = s.regs := rfl
theorem State.upd_ic_uregs (s : State) (x : Ic) : ({ s with ic := x } : State).uregs = s.uregs := rfl
theorem State.upd_ic_bank (s : State) (x : Ic) : ({ s with ic := x } : State).bank = s.bank := rfl
theorem State.upd_ic_latch (s : State) (x : Ic) : ({ s with ic := x } : State).latch = s.latch := rfl
theorem State.upd_ic_wide (s : State) (x : Ic) : ({ s with ic := x } : State).wide = s.wide := rfl
theorem State.upd_ic_uwide (s : State) (x : Ic) : ({ s with ic := x } : State).uwide = s.uwide := rfl
theorem State.upd_ic_tbl (s : State) (x : Ic) : ({ s with ic := x } : State).tbl = s.tbl := rfl
theorem State.upd_ic_saturated (s : State) (x : Ic) : ({ s with ic := x } : State).saturated = s.saturated := rfl
theorem State.upd_ic_held (s : State) (x : Ic) : ({ s with ic := x } : State).held = s.held := rfl
theorem State.upd_ic_snapHeld (s : State) (x : Ic) : ({ s with ic := x } : State).snapHeld = s.snapHeld := rfl
theorem State.upd_ic_mem (s : State) (x : Ic) : ({ s with ic := x } : State).mem = s.mem := rfl
theorem State.upd_ic_mram (s : State) (x : Ic) : ({ s with ic := x } : State).mram = s.mram := rfl
theorem State.upd_ic_now (s : State) (x : Ic) : ({ s with ic := x } : State).now = s.now := rfl
theorem State.upd_ic_sys (s : State) (x : Ic) : ({ s with ic := x } : State).sys = s.sys := rfl
theorem State.upd_ic_tim (s : State) (x : Ic) : ({ s with ic := x } : State).tim = s.tim := rfl
theorem State.upd_ic_ing (s : State) (x : Ic) : ({ s with ic := x } : State).ing = s.ing := rfl
theorem State.upd_ic_gld (s : State) (x : Ic) : ({ s with ic := x } : State).gld = s.gld := rfl
theorem State.upd_ic_flt (s : State) (x : Ic) : ({ s with ic := x } : State).flt = s.flt := rfl
theorem State.upd_ic_osc (s : State) (x : Ic) : ({ s with ic := x } : State).osc = s.osc := rfl
theorem State.upd_ic_isl (s : State) (x : Ic) : ({ s with ic := x } : State).isl = s.isl := rfl
theorem State.upd_ic_alm (s : State) (x : Ic) : ({ s with ic := x } : State).alm = s.alm := rfl
theorem State.upd_ic_cap (s : State) (x : Ic) : ({ s with ic := x } : State).cap = s.cap := rfl
theorem State.upd_ic_acc (s : State) (x : Ic) : ({ s with ic := x } : State).acc = s.acc := rfl
theorem State.upd_ic_cores (s : State) (x : Ic) : ({ s with ic := x } : State).cores = s.cores := rfl
theorem State.upd_ic_net (s : State) (x : Ic) : ({ s with ic := x } : State).net = s.net := rfl
theorem State.upd_ic_rbt (s : State) (x : Ic) : ({ s with ic := x } : State).rbt = s.rbt := rfl
theorem State.upd_ic_xng (s : State) (x : Ic) : ({ s with ic := x } : State).xng = s.xng := rfl
theorem State.upd_ic_hst (s : State) (x : Ic) : ({ s with ic := x } : State).hst = s.hst := rfl
theorem State.upd_ic_err (s : State) (x : Ic) : ({ s with ic := x } : State).err = s.err := rfl
theorem State.upd_ic_und (s : State) (x : Ic) : ({ s with ic := x } : State).und = s.und := rfl
theorem State.upd_ic_sec (s : State) (x : Ic) : ({ s with ic := x } : State).sec = s.sec := rfl
theorem State.upd_ic_free (s : State) (x : Ic) : ({ s with ic := x } : State).free = s.free := rfl
theorem State.upd_ic_out (s : State) (x : Ic) : ({ s with ic := x } : State).out = s.out := rfl
theorem State.upd_ic_pending (s : State) (x : Ic) : ({ s with ic := x } : State).pending = s.pending := rfl
theorem State.upd_latch_regs (s : State) (x : SMap Word) : ({ s with latch := x } : State).regs = s.regs := rfl
theorem State.upd_latch_uregs (s : State) (x : SMap Word) : ({ s with latch := x } : State).uregs = s.uregs := rfl
theorem State.upd_latch_bank (s : State) (x : SMap Word) : ({ s with latch := x } : State).bank = s.bank := rfl
theorem State.upd_latch_wide (s : State) (x : SMap Word) : ({ s with latch := x } : State).wide = s.wide := rfl
theorem State.upd_latch_uwide (s : State) (x : SMap Word) : ({ s with latch := x } : State).uwide = s.uwide := rfl
theorem State.upd_latch_tbl (s : State) (x : SMap Word) : ({ s with latch := x } : State).tbl = s.tbl := rfl
theorem State.upd_latch_saturated (s : State) (x : SMap Word) : ({ s with latch := x } : State).saturated = s.saturated := rfl
theorem State.upd_latch_held (s : State) (x : SMap Word) : ({ s with latch := x } : State).held = s.held := rfl
theorem State.upd_latch_snapHeld (s : State) (x : SMap Word) : ({ s with latch := x } : State).snapHeld = s.snapHeld := rfl
theorem State.upd_latch_mem (s : State) (x : SMap Word) : ({ s with latch := x } : State).mem = s.mem := rfl
theorem State.upd_latch_mram (s : State) (x : SMap Word) : ({ s with latch := x } : State).mram = s.mram := rfl
theorem State.upd_latch_now (s : State) (x : SMap Word) : ({ s with latch := x } : State).now = s.now := rfl
theorem State.upd_latch_sys (s : State) (x : SMap Word) : ({ s with latch := x } : State).sys = s.sys := rfl
theorem State.upd_latch_tim (s : State) (x : SMap Word) : ({ s with latch := x } : State).tim = s.tim := rfl
theorem State.upd_latch_ing (s : State) (x : SMap Word) : ({ s with latch := x } : State).ing = s.ing := rfl
theorem State.upd_latch_gld (s : State) (x : SMap Word) : ({ s with latch := x } : State).gld = s.gld := rfl
theorem State.upd_latch_flt (s : State) (x : SMap Word) : ({ s with latch := x } : State).flt = s.flt := rfl
theorem State.upd_latch_osc (s : State) (x : SMap Word) : ({ s with latch := x } : State).osc = s.osc := rfl
theorem State.upd_latch_isl (s : State) (x : SMap Word) : ({ s with latch := x } : State).isl = s.isl := rfl
theorem State.upd_latch_alm (s : State) (x : SMap Word) : ({ s with latch := x } : State).alm = s.alm := rfl
theorem State.upd_latch_cap (s : State) (x : SMap Word) : ({ s with latch := x } : State).cap = s.cap := rfl
theorem State.upd_latch_acc (s : State) (x : SMap Word) : ({ s with latch := x } : State).acc = s.acc := rfl
theorem State.upd_latch_cores (s : State) (x : SMap Word) : ({ s with latch := x } : State).cores = s.cores := rfl
theorem State.upd_latch_net (s : State) (x : SMap Word) : ({ s with latch := x } : State).net = s.net := rfl
theorem State.upd_latch_rbt (s : State) (x : SMap Word) : ({ s with latch := x } : State).rbt = s.rbt := rfl
theorem State.upd_latch_xng (s : State) (x : SMap Word) : ({ s with latch := x } : State).xng = s.xng := rfl
theorem State.upd_latch_ic (s : State) (x : SMap Word) : ({ s with latch := x } : State).ic = s.ic := rfl
theorem State.upd_latch_hst (s : State) (x : SMap Word) : ({ s with latch := x } : State).hst = s.hst := rfl
theorem State.upd_latch_err (s : State) (x : SMap Word) : ({ s with latch := x } : State).err = s.err := rfl
theorem State.upd_latch_und (s : State) (x : SMap Word) : ({ s with latch := x } : State).und = s.und := rfl
theorem State.upd_latch_sec (s : State) (x : SMap Word) : ({ s with latch := x } : State).sec = s.sec := rfl
theorem State.upd_latch_free (s : State) (x : SMap Word) : ({ s with latch := x } : State).free = s.free := rfl
theorem State.upd_latch_out (s : State) (x : SMap Word) : ({ s with latch := x } : State).out = s.out := rfl
theorem State.upd_latch_pending (s : State) (x : SMap Word) : ({ s with latch := x } : State).pending = s.pending := rfl
theorem State.upd_mem_regs (s : State) (x : List Host.Cell) : ({ s with mem := x } : State).regs = s.regs := rfl
theorem State.upd_mem_uregs (s : State) (x : List Host.Cell) : ({ s with mem := x } : State).uregs = s.uregs := rfl
theorem State.upd_mem_bank (s : State) (x : List Host.Cell) : ({ s with mem := x } : State).bank = s.bank := rfl
theorem State.upd_mem_latch (s : State) (x : List Host.Cell) : ({ s with mem := x } : State).latch = s.latch := rfl
theorem State.upd_mem_wide (s : State) (x : List Host.Cell) : ({ s with mem := x } : State).wide = s.wide := rfl
theorem State.upd_mem_uwide (s : State) (x : List Host.Cell) : ({ s with mem := x } : State).uwide = s.uwide := rfl
theorem State.upd_mem_tbl (s : State) (x : List Host.Cell) : ({ s with mem := x } : State).tbl = s.tbl := rfl
theorem State.upd_mem_saturated (s : State) (x : List Host.Cell) : ({ s with mem := x } : State).saturated = s.saturated := rfl
theorem State.upd_mem_held (s : State) (x : List Host.Cell) : ({ s with mem := x } : State).held = s.held := rfl
theorem State.upd_mem_snapHeld (s : State) (x : List Host.Cell) : ({ s with mem := x } : State).snapHeld = s.snapHeld := rfl
theorem State.upd_mem_mram (s : State) (x : List Host.Cell) : ({ s with mem := x } : State).mram = s.mram := rfl
theorem State.upd_mem_now (s : State) (x : List Host.Cell) : ({ s with mem := x } : State).now = s.now := rfl
theorem State.upd_mem_sys (s : State) (x : List Host.Cell) : ({ s with mem := x } : State).sys = s.sys := rfl
theorem State.upd_mem_tim (s : State) (x : List Host.Cell) : ({ s with mem := x } : State).tim = s.tim := rfl
theorem State.upd_mem_ing (s : State) (x : List Host.Cell) : ({ s with mem := x } : State).ing = s.ing := rfl
theorem State.upd_mem_gld (s : State) (x : List Host.Cell) : ({ s with mem := x } : State).gld = s.gld := rfl
theorem State.upd_mem_flt (s : State) (x : List Host.Cell) : ({ s with mem := x } : State).flt = s.flt := rfl
theorem State.upd_mem_osc (s : State) (x : List Host.Cell) : ({ s with mem := x } : State).osc = s.osc := rfl
theorem State.upd_mem_isl (s : State) (x : List Host.Cell) : ({ s with mem := x } : State).isl = s.isl := rfl
theorem State.upd_mem_alm (s : State) (x : List Host.Cell) : ({ s with mem := x } : State).alm = s.alm := rfl
theorem State.upd_mem_cap (s : State) (x : List Host.Cell) : ({ s with mem := x } : State).cap = s.cap := rfl
theorem State.upd_mem_acc (s : State) (x : List Host.Cell) : ({ s with mem := x } : State).acc = s.acc := rfl
theorem State.upd_mem_cores (s : State) (x : List Host.Cell) : ({ s with mem := x } : State).cores = s.cores := rfl
theorem State.upd_mem_net (s : State) (x : List Host.Cell) : ({ s with mem := x } : State).net = s.net := rfl
theorem State.upd_mem_rbt (s : State) (x : List Host.Cell) : ({ s with mem := x } : State).rbt = s.rbt := rfl
theorem State.upd_mem_xng (s : State) (x : List Host.Cell) : ({ s with mem := x } : State).xng = s.xng := rfl
theorem State.upd_mem_ic (s : State) (x : List Host.Cell) : ({ s with mem := x } : State).ic = s.ic := rfl
theorem State.upd_mem_hst (s : State) (x : List Host.Cell) : ({ s with mem := x } : State).hst = s.hst := rfl
theorem State.upd_mem_err (s : State) (x : List Host.Cell) : ({ s with mem := x } : State).err = s.err := rfl
theorem State.upd_mem_und (s : State) (x : List Host.Cell) : ({ s with mem := x } : State).und = s.und := rfl
theorem State.upd_mem_sec (s : State) (x : List Host.Cell) : ({ s with mem := x } : State).sec = s.sec := rfl
theorem State.upd_mem_free (s : State) (x : List Host.Cell) : ({ s with mem := x } : State).free = s.free := rfl
theorem State.upd_mem_out (s : State) (x : List Host.Cell) : ({ s with mem := x } : State).out = s.out := rfl
theorem State.upd_mem_pending (s : State) (x : List Host.Cell) : ({ s with mem := x } : State).pending = s.pending := rfl
theorem State.upd_net_regs (s : State) (x : SMap NetPort) : ({ s with net := x } : State).regs = s.regs := rfl
theorem State.upd_net_uregs (s : State) (x : SMap NetPort) : ({ s with net := x } : State).uregs = s.uregs := rfl
theorem State.upd_net_bank (s : State) (x : SMap NetPort) : ({ s with net := x } : State).bank = s.bank := rfl
theorem State.upd_net_latch (s : State) (x : SMap NetPort) : ({ s with net := x } : State).latch = s.latch := rfl
theorem State.upd_net_wide (s : State) (x : SMap NetPort) : ({ s with net := x } : State).wide = s.wide := rfl
theorem State.upd_net_uwide (s : State) (x : SMap NetPort) : ({ s with net := x } : State).uwide = s.uwide := rfl
theorem State.upd_net_tbl (s : State) (x : SMap NetPort) : ({ s with net := x } : State).tbl = s.tbl := rfl
theorem State.upd_net_saturated (s : State) (x : SMap NetPort) : ({ s with net := x } : State).saturated = s.saturated := rfl
theorem State.upd_net_held (s : State) (x : SMap NetPort) : ({ s with net := x } : State).held = s.held := rfl
theorem State.upd_net_snapHeld (s : State) (x : SMap NetPort) : ({ s with net := x } : State).snapHeld = s.snapHeld := rfl
theorem State.upd_net_mem (s : State) (x : SMap NetPort) : ({ s with net := x } : State).mem = s.mem := rfl
theorem State.upd_net_mram (s : State) (x : SMap NetPort) : ({ s with net := x } : State).mram = s.mram := rfl
theorem State.upd_net_now (s : State) (x : SMap NetPort) : ({ s with net := x } : State).now = s.now := rfl
theorem State.upd_net_sys (s : State) (x : SMap NetPort) : ({ s with net := x } : State).sys = s.sys := rfl
theorem State.upd_net_tim (s : State) (x : SMap NetPort) : ({ s with net := x } : State).tim = s.tim := rfl
theorem State.upd_net_ing (s : State) (x : SMap NetPort) : ({ s with net := x } : State).ing = s.ing := rfl
theorem State.upd_net_gld (s : State) (x : SMap NetPort) : ({ s with net := x } : State).gld = s.gld := rfl
theorem State.upd_net_flt (s : State) (x : SMap NetPort) : ({ s with net := x } : State).flt = s.flt := rfl
theorem State.upd_net_osc (s : State) (x : SMap NetPort) : ({ s with net := x } : State).osc = s.osc := rfl
theorem State.upd_net_isl (s : State) (x : SMap NetPort) : ({ s with net := x } : State).isl = s.isl := rfl
theorem State.upd_net_alm (s : State) (x : SMap NetPort) : ({ s with net := x } : State).alm = s.alm := rfl
theorem State.upd_net_cap (s : State) (x : SMap NetPort) : ({ s with net := x } : State).cap = s.cap := rfl
theorem State.upd_net_acc (s : State) (x : SMap NetPort) : ({ s with net := x } : State).acc = s.acc := rfl
theorem State.upd_net_cores (s : State) (x : SMap NetPort) : ({ s with net := x } : State).cores = s.cores := rfl
theorem State.upd_net_rbt (s : State) (x : SMap NetPort) : ({ s with net := x } : State).rbt = s.rbt := rfl
theorem State.upd_net_xng (s : State) (x : SMap NetPort) : ({ s with net := x } : State).xng = s.xng := rfl
theorem State.upd_net_ic (s : State) (x : SMap NetPort) : ({ s with net := x } : State).ic = s.ic := rfl
theorem State.upd_net_hst (s : State) (x : SMap NetPort) : ({ s with net := x } : State).hst = s.hst := rfl
theorem State.upd_net_err (s : State) (x : SMap NetPort) : ({ s with net := x } : State).err = s.err := rfl
theorem State.upd_net_und (s : State) (x : SMap NetPort) : ({ s with net := x } : State).und = s.und := rfl
theorem State.upd_net_sec (s : State) (x : SMap NetPort) : ({ s with net := x } : State).sec = s.sec := rfl
theorem State.upd_net_free (s : State) (x : SMap NetPort) : ({ s with net := x } : State).free = s.free := rfl
theorem State.upd_net_out (s : State) (x : SMap NetPort) : ({ s with net := x } : State).out = s.out := rfl
theorem State.upd_net_pending (s : State) (x : SMap NetPort) : ({ s with net := x } : State).pending = s.pending := rfl
theorem State.upd_osc_regs (s : State) (x : Osc) : ({ s with osc := x } : State).regs = s.regs := rfl
theorem State.upd_osc_uregs (s : State) (x : Osc) : ({ s with osc := x } : State).uregs = s.uregs := rfl
theorem State.upd_osc_bank (s : State) (x : Osc) : ({ s with osc := x } : State).bank = s.bank := rfl
theorem State.upd_osc_latch (s : State) (x : Osc) : ({ s with osc := x } : State).latch = s.latch := rfl
theorem State.upd_osc_wide (s : State) (x : Osc) : ({ s with osc := x } : State).wide = s.wide := rfl
theorem State.upd_osc_uwide (s : State) (x : Osc) : ({ s with osc := x } : State).uwide = s.uwide := rfl
theorem State.upd_osc_tbl (s : State) (x : Osc) : ({ s with osc := x } : State).tbl = s.tbl := rfl
theorem State.upd_osc_saturated (s : State) (x : Osc) : ({ s with osc := x } : State).saturated = s.saturated := rfl
theorem State.upd_osc_held (s : State) (x : Osc) : ({ s with osc := x } : State).held = s.held := rfl
theorem State.upd_osc_snapHeld (s : State) (x : Osc) : ({ s with osc := x } : State).snapHeld = s.snapHeld := rfl
theorem State.upd_osc_mem (s : State) (x : Osc) : ({ s with osc := x } : State).mem = s.mem := rfl
theorem State.upd_osc_mram (s : State) (x : Osc) : ({ s with osc := x } : State).mram = s.mram := rfl
theorem State.upd_osc_now (s : State) (x : Osc) : ({ s with osc := x } : State).now = s.now := rfl
theorem State.upd_osc_sys (s : State) (x : Osc) : ({ s with osc := x } : State).sys = s.sys := rfl
theorem State.upd_osc_tim (s : State) (x : Osc) : ({ s with osc := x } : State).tim = s.tim := rfl
theorem State.upd_osc_ing (s : State) (x : Osc) : ({ s with osc := x } : State).ing = s.ing := rfl
theorem State.upd_osc_gld (s : State) (x : Osc) : ({ s with osc := x } : State).gld = s.gld := rfl
theorem State.upd_osc_flt (s : State) (x : Osc) : ({ s with osc := x } : State).flt = s.flt := rfl
theorem State.upd_osc_isl (s : State) (x : Osc) : ({ s with osc := x } : State).isl = s.isl := rfl
theorem State.upd_osc_alm (s : State) (x : Osc) : ({ s with osc := x } : State).alm = s.alm := rfl
theorem State.upd_osc_cap (s : State) (x : Osc) : ({ s with osc := x } : State).cap = s.cap := rfl
theorem State.upd_osc_acc (s : State) (x : Osc) : ({ s with osc := x } : State).acc = s.acc := rfl
theorem State.upd_osc_cores (s : State) (x : Osc) : ({ s with osc := x } : State).cores = s.cores := rfl
theorem State.upd_osc_net (s : State) (x : Osc) : ({ s with osc := x } : State).net = s.net := rfl
theorem State.upd_osc_rbt (s : State) (x : Osc) : ({ s with osc := x } : State).rbt = s.rbt := rfl
theorem State.upd_osc_xng (s : State) (x : Osc) : ({ s with osc := x } : State).xng = s.xng := rfl
theorem State.upd_osc_ic (s : State) (x : Osc) : ({ s with osc := x } : State).ic = s.ic := rfl
theorem State.upd_osc_hst (s : State) (x : Osc) : ({ s with osc := x } : State).hst = s.hst := rfl
theorem State.upd_osc_err (s : State) (x : Osc) : ({ s with osc := x } : State).err = s.err := rfl
theorem State.upd_osc_und (s : State) (x : Osc) : ({ s with osc := x } : State).und = s.und := rfl
theorem State.upd_osc_sec (s : State) (x : Osc) : ({ s with osc := x } : State).sec = s.sec := rfl
theorem State.upd_osc_free (s : State) (x : Osc) : ({ s with osc := x } : State).free = s.free := rfl
theorem State.upd_osc_out (s : State) (x : Osc) : ({ s with osc := x } : State).out = s.out := rfl
theorem State.upd_osc_pending (s : State) (x : Osc) : ({ s with osc := x } : State).pending = s.pending := rfl
theorem State.upd_out_regs (s : State) (x : List Output) : ({ s with out := x } : State).regs = s.regs := rfl
theorem State.upd_out_uregs (s : State) (x : List Output) : ({ s with out := x } : State).uregs = s.uregs := rfl
theorem State.upd_out_bank (s : State) (x : List Output) : ({ s with out := x } : State).bank = s.bank := rfl
theorem State.upd_out_latch (s : State) (x : List Output) : ({ s with out := x } : State).latch = s.latch := rfl
theorem State.upd_out_wide (s : State) (x : List Output) : ({ s with out := x } : State).wide = s.wide := rfl
theorem State.upd_out_uwide (s : State) (x : List Output) : ({ s with out := x } : State).uwide = s.uwide := rfl
theorem State.upd_out_tbl (s : State) (x : List Output) : ({ s with out := x } : State).tbl = s.tbl := rfl
theorem State.upd_out_saturated (s : State) (x : List Output) : ({ s with out := x } : State).saturated = s.saturated := rfl
theorem State.upd_out_held (s : State) (x : List Output) : ({ s with out := x } : State).held = s.held := rfl
theorem State.upd_out_snapHeld (s : State) (x : List Output) : ({ s with out := x } : State).snapHeld = s.snapHeld := rfl
theorem State.upd_out_mem (s : State) (x : List Output) : ({ s with out := x } : State).mem = s.mem := rfl
theorem State.upd_out_mram (s : State) (x : List Output) : ({ s with out := x } : State).mram = s.mram := rfl
theorem State.upd_out_now (s : State) (x : List Output) : ({ s with out := x } : State).now = s.now := rfl
theorem State.upd_out_sys (s : State) (x : List Output) : ({ s with out := x } : State).sys = s.sys := rfl
theorem State.upd_out_tim (s : State) (x : List Output) : ({ s with out := x } : State).tim = s.tim := rfl
theorem State.upd_out_ing (s : State) (x : List Output) : ({ s with out := x } : State).ing = s.ing := rfl
theorem State.upd_out_gld (s : State) (x : List Output) : ({ s with out := x } : State).gld = s.gld := rfl
theorem State.upd_out_flt (s : State) (x : List Output) : ({ s with out := x } : State).flt = s.flt := rfl
theorem State.upd_out_osc (s : State) (x : List Output) : ({ s with out := x } : State).osc = s.osc := rfl
theorem State.upd_out_isl (s : State) (x : List Output) : ({ s with out := x } : State).isl = s.isl := rfl
theorem State.upd_out_alm (s : State) (x : List Output) : ({ s with out := x } : State).alm = s.alm := rfl
theorem State.upd_out_cap (s : State) (x : List Output) : ({ s with out := x } : State).cap = s.cap := rfl
theorem State.upd_out_acc (s : State) (x : List Output) : ({ s with out := x } : State).acc = s.acc := rfl
theorem State.upd_out_cores (s : State) (x : List Output) : ({ s with out := x } : State).cores = s.cores := rfl
theorem State.upd_out_net (s : State) (x : List Output) : ({ s with out := x } : State).net = s.net := rfl
theorem State.upd_out_rbt (s : State) (x : List Output) : ({ s with out := x } : State).rbt = s.rbt := rfl
theorem State.upd_out_xng (s : State) (x : List Output) : ({ s with out := x } : State).xng = s.xng := rfl
theorem State.upd_out_ic (s : State) (x : List Output) : ({ s with out := x } : State).ic = s.ic := rfl
theorem State.upd_out_hst (s : State) (x : List Output) : ({ s with out := x } : State).hst = s.hst := rfl
theorem State.upd_out_err (s : State) (x : List Output) : ({ s with out := x } : State).err = s.err := rfl
theorem State.upd_out_und (s : State) (x : List Output) : ({ s with out := x } : State).und = s.und := rfl
theorem State.upd_out_sec (s : State) (x : List Output) : ({ s with out := x } : State).sec = s.sec := rfl
theorem State.upd_out_free (s : State) (x : List Output) : ({ s with out := x } : State).free = s.free := rfl
theorem State.upd_out_pending (s : State) (x : List Output) : ({ s with out := x } : State).pending = s.pending := rfl
theorem State.upd_rbt_regs (s : State) (x : Rbt) : ({ s with rbt := x } : State).regs = s.regs := rfl
theorem State.upd_rbt_uregs (s : State) (x : Rbt) : ({ s with rbt := x } : State).uregs = s.uregs := rfl
theorem State.upd_rbt_bank (s : State) (x : Rbt) : ({ s with rbt := x } : State).bank = s.bank := rfl
theorem State.upd_rbt_latch (s : State) (x : Rbt) : ({ s with rbt := x } : State).latch = s.latch := rfl
theorem State.upd_rbt_wide (s : State) (x : Rbt) : ({ s with rbt := x } : State).wide = s.wide := rfl
theorem State.upd_rbt_uwide (s : State) (x : Rbt) : ({ s with rbt := x } : State).uwide = s.uwide := rfl
theorem State.upd_rbt_tbl (s : State) (x : Rbt) : ({ s with rbt := x } : State).tbl = s.tbl := rfl
theorem State.upd_rbt_saturated (s : State) (x : Rbt) : ({ s with rbt := x } : State).saturated = s.saturated := rfl
theorem State.upd_rbt_held (s : State) (x : Rbt) : ({ s with rbt := x } : State).held = s.held := rfl
theorem State.upd_rbt_snapHeld (s : State) (x : Rbt) : ({ s with rbt := x } : State).snapHeld = s.snapHeld := rfl
theorem State.upd_rbt_mem (s : State) (x : Rbt) : ({ s with rbt := x } : State).mem = s.mem := rfl
theorem State.upd_rbt_mram (s : State) (x : Rbt) : ({ s with rbt := x } : State).mram = s.mram := rfl
theorem State.upd_rbt_now (s : State) (x : Rbt) : ({ s with rbt := x } : State).now = s.now := rfl
theorem State.upd_rbt_sys (s : State) (x : Rbt) : ({ s with rbt := x } : State).sys = s.sys := rfl
theorem State.upd_rbt_tim (s : State) (x : Rbt) : ({ s with rbt := x } : State).tim = s.tim := rfl
theorem State.upd_rbt_ing (s : State) (x : Rbt) : ({ s with rbt := x } : State).ing = s.ing := rfl
theorem State.upd_rbt_gld (s : State) (x : Rbt) : ({ s with rbt := x } : State).gld = s.gld := rfl
theorem State.upd_rbt_flt (s : State) (x : Rbt) : ({ s with rbt := x } : State).flt = s.flt := rfl
theorem State.upd_rbt_osc (s : State) (x : Rbt) : ({ s with rbt := x } : State).osc = s.osc := rfl
theorem State.upd_rbt_isl (s : State) (x : Rbt) : ({ s with rbt := x } : State).isl = s.isl := rfl
theorem State.upd_rbt_alm (s : State) (x : Rbt) : ({ s with rbt := x } : State).alm = s.alm := rfl
theorem State.upd_rbt_cap (s : State) (x : Rbt) : ({ s with rbt := x } : State).cap = s.cap := rfl
theorem State.upd_rbt_acc (s : State) (x : Rbt) : ({ s with rbt := x } : State).acc = s.acc := rfl
theorem State.upd_rbt_cores (s : State) (x : Rbt) : ({ s with rbt := x } : State).cores = s.cores := rfl
theorem State.upd_rbt_net (s : State) (x : Rbt) : ({ s with rbt := x } : State).net = s.net := rfl
theorem State.upd_rbt_xng (s : State) (x : Rbt) : ({ s with rbt := x } : State).xng = s.xng := rfl
theorem State.upd_rbt_ic (s : State) (x : Rbt) : ({ s with rbt := x } : State).ic = s.ic := rfl
theorem State.upd_rbt_hst (s : State) (x : Rbt) : ({ s with rbt := x } : State).hst = s.hst := rfl
theorem State.upd_rbt_err (s : State) (x : Rbt) : ({ s with rbt := x } : State).err = s.err := rfl
theorem State.upd_rbt_und (s : State) (x : Rbt) : ({ s with rbt := x } : State).und = s.und := rfl
theorem State.upd_rbt_sec (s : State) (x : Rbt) : ({ s with rbt := x } : State).sec = s.sec := rfl
theorem State.upd_rbt_free (s : State) (x : Rbt) : ({ s with rbt := x } : State).free = s.free := rfl
theorem State.upd_rbt_out (s : State) (x : Rbt) : ({ s with rbt := x } : State).out = s.out := rfl
theorem State.upd_rbt_pending (s : State) (x : Rbt) : ({ s with rbt := x } : State).pending = s.pending := rfl
theorem State.upd_regs_uregs (s : State) (x : SMap Word) : ({ s with regs := x } : State).uregs = s.uregs := rfl
theorem State.upd_regs_bank (s : State) (x : SMap Word) : ({ s with regs := x } : State).bank = s.bank := rfl
theorem State.upd_regs_latch (s : State) (x : SMap Word) : ({ s with regs := x } : State).latch = s.latch := rfl
theorem State.upd_regs_wide (s : State) (x : SMap Word) : ({ s with regs := x } : State).wide = s.wide := rfl
theorem State.upd_regs_uwide (s : State) (x : SMap Word) : ({ s with regs := x } : State).uwide = s.uwide := rfl
theorem State.upd_regs_tbl (s : State) (x : SMap Word) : ({ s with regs := x } : State).tbl = s.tbl := rfl
theorem State.upd_regs_saturated (s : State) (x : SMap Word) : ({ s with regs := x } : State).saturated = s.saturated := rfl
theorem State.upd_regs_held (s : State) (x : SMap Word) : ({ s with regs := x } : State).held = s.held := rfl
theorem State.upd_regs_snapHeld (s : State) (x : SMap Word) : ({ s with regs := x } : State).snapHeld = s.snapHeld := rfl
theorem State.upd_regs_mem (s : State) (x : SMap Word) : ({ s with regs := x } : State).mem = s.mem := rfl
theorem State.upd_regs_mram (s : State) (x : SMap Word) : ({ s with regs := x } : State).mram = s.mram := rfl
theorem State.upd_regs_now (s : State) (x : SMap Word) : ({ s with regs := x } : State).now = s.now := rfl
theorem State.upd_regs_sys (s : State) (x : SMap Word) : ({ s with regs := x } : State).sys = s.sys := rfl
theorem State.upd_regs_tim (s : State) (x : SMap Word) : ({ s with regs := x } : State).tim = s.tim := rfl
theorem State.upd_regs_ing (s : State) (x : SMap Word) : ({ s with regs := x } : State).ing = s.ing := rfl
theorem State.upd_regs_gld (s : State) (x : SMap Word) : ({ s with regs := x } : State).gld = s.gld := rfl
theorem State.upd_regs_flt (s : State) (x : SMap Word) : ({ s with regs := x } : State).flt = s.flt := rfl
theorem State.upd_regs_osc (s : State) (x : SMap Word) : ({ s with regs := x } : State).osc = s.osc := rfl
theorem State.upd_regs_isl (s : State) (x : SMap Word) : ({ s with regs := x } : State).isl = s.isl := rfl
theorem State.upd_regs_alm (s : State) (x : SMap Word) : ({ s with regs := x } : State).alm = s.alm := rfl
theorem State.upd_regs_cap (s : State) (x : SMap Word) : ({ s with regs := x } : State).cap = s.cap := rfl
theorem State.upd_regs_acc (s : State) (x : SMap Word) : ({ s with regs := x } : State).acc = s.acc := rfl
theorem State.upd_regs_cores (s : State) (x : SMap Word) : ({ s with regs := x } : State).cores = s.cores := rfl
theorem State.upd_regs_net (s : State) (x : SMap Word) : ({ s with regs := x } : State).net = s.net := rfl
theorem State.upd_regs_rbt (s : State) (x : SMap Word) : ({ s with regs := x } : State).rbt = s.rbt := rfl
theorem State.upd_regs_xng (s : State) (x : SMap Word) : ({ s with regs := x } : State).xng = s.xng := rfl
theorem State.upd_regs_ic (s : State) (x : SMap Word) : ({ s with regs := x } : State).ic = s.ic := rfl
theorem State.upd_regs_hst (s : State) (x : SMap Word) : ({ s with regs := x } : State).hst = s.hst := rfl
theorem State.upd_regs_err (s : State) (x : SMap Word) : ({ s with regs := x } : State).err = s.err := rfl
theorem State.upd_regs_und (s : State) (x : SMap Word) : ({ s with regs := x } : State).und = s.und := rfl
theorem State.upd_regs_sec (s : State) (x : SMap Word) : ({ s with regs := x } : State).sec = s.sec := rfl
theorem State.upd_regs_free (s : State) (x : SMap Word) : ({ s with regs := x } : State).free = s.free := rfl
theorem State.upd_regs_out (s : State) (x : SMap Word) : ({ s with regs := x } : State).out = s.out := rfl
theorem State.upd_regs_pending (s : State) (x : SMap Word) : ({ s with regs := x } : State).pending = s.pending := rfl
theorem State.upd_saturated_regs (s : State) (x : SMap Bool) : ({ s with saturated := x } : State).regs = s.regs := rfl
theorem State.upd_saturated_uregs (s : State) (x : SMap Bool) : ({ s with saturated := x } : State).uregs = s.uregs := rfl
theorem State.upd_saturated_bank (s : State) (x : SMap Bool) : ({ s with saturated := x } : State).bank = s.bank := rfl
theorem State.upd_saturated_latch (s : State) (x : SMap Bool) : ({ s with saturated := x } : State).latch = s.latch := rfl
theorem State.upd_saturated_wide (s : State) (x : SMap Bool) : ({ s with saturated := x } : State).wide = s.wide := rfl
theorem State.upd_saturated_uwide (s : State) (x : SMap Bool) : ({ s with saturated := x } : State).uwide = s.uwide := rfl
theorem State.upd_saturated_tbl (s : State) (x : SMap Bool) : ({ s with saturated := x } : State).tbl = s.tbl := rfl
theorem State.upd_saturated_held (s : State) (x : SMap Bool) : ({ s with saturated := x } : State).held = s.held := rfl
theorem State.upd_saturated_snapHeld (s : State) (x : SMap Bool) : ({ s with saturated := x } : State).snapHeld = s.snapHeld := rfl
theorem State.upd_saturated_mem (s : State) (x : SMap Bool) : ({ s with saturated := x } : State).mem = s.mem := rfl
theorem State.upd_saturated_mram (s : State) (x : SMap Bool) : ({ s with saturated := x } : State).mram = s.mram := rfl
theorem State.upd_saturated_now (s : State) (x : SMap Bool) : ({ s with saturated := x } : State).now = s.now := rfl
theorem State.upd_saturated_sys (s : State) (x : SMap Bool) : ({ s with saturated := x } : State).sys = s.sys := rfl
theorem State.upd_saturated_tim (s : State) (x : SMap Bool) : ({ s with saturated := x } : State).tim = s.tim := rfl
theorem State.upd_saturated_ing (s : State) (x : SMap Bool) : ({ s with saturated := x } : State).ing = s.ing := rfl
theorem State.upd_saturated_gld (s : State) (x : SMap Bool) : ({ s with saturated := x } : State).gld = s.gld := rfl
theorem State.upd_saturated_flt (s : State) (x : SMap Bool) : ({ s with saturated := x } : State).flt = s.flt := rfl
theorem State.upd_saturated_osc (s : State) (x : SMap Bool) : ({ s with saturated := x } : State).osc = s.osc := rfl
theorem State.upd_saturated_isl (s : State) (x : SMap Bool) : ({ s with saturated := x } : State).isl = s.isl := rfl
theorem State.upd_saturated_alm (s : State) (x : SMap Bool) : ({ s with saturated := x } : State).alm = s.alm := rfl
theorem State.upd_saturated_cap (s : State) (x : SMap Bool) : ({ s with saturated := x } : State).cap = s.cap := rfl
theorem State.upd_saturated_acc (s : State) (x : SMap Bool) : ({ s with saturated := x } : State).acc = s.acc := rfl
theorem State.upd_saturated_cores (s : State) (x : SMap Bool) : ({ s with saturated := x } : State).cores = s.cores := rfl
theorem State.upd_saturated_net (s : State) (x : SMap Bool) : ({ s with saturated := x } : State).net = s.net := rfl
theorem State.upd_saturated_rbt (s : State) (x : SMap Bool) : ({ s with saturated := x } : State).rbt = s.rbt := rfl
theorem State.upd_saturated_xng (s : State) (x : SMap Bool) : ({ s with saturated := x } : State).xng = s.xng := rfl
theorem State.upd_saturated_ic (s : State) (x : SMap Bool) : ({ s with saturated := x } : State).ic = s.ic := rfl
theorem State.upd_saturated_hst (s : State) (x : SMap Bool) : ({ s with saturated := x } : State).hst = s.hst := rfl
theorem State.upd_saturated_err (s : State) (x : SMap Bool) : ({ s with saturated := x } : State).err = s.err := rfl
theorem State.upd_saturated_und (s : State) (x : SMap Bool) : ({ s with saturated := x } : State).und = s.und := rfl
theorem State.upd_saturated_sec (s : State) (x : SMap Bool) : ({ s with saturated := x } : State).sec = s.sec := rfl
theorem State.upd_saturated_free (s : State) (x : SMap Bool) : ({ s with saturated := x } : State).free = s.free := rfl
theorem State.upd_saturated_out (s : State) (x : SMap Bool) : ({ s with saturated := x } : State).out = s.out := rfl
theorem State.upd_saturated_pending (s : State) (x : SMap Bool) : ({ s with saturated := x } : State).pending = s.pending := rfl
theorem State.upd_tbl_regs (s : State) (x : SMap Word) : ({ s with tbl := x } : State).regs = s.regs := rfl
theorem State.upd_tbl_uregs (s : State) (x : SMap Word) : ({ s with tbl := x } : State).uregs = s.uregs := rfl
theorem State.upd_tbl_bank (s : State) (x : SMap Word) : ({ s with tbl := x } : State).bank = s.bank := rfl
theorem State.upd_tbl_latch (s : State) (x : SMap Word) : ({ s with tbl := x } : State).latch = s.latch := rfl
theorem State.upd_tbl_wide (s : State) (x : SMap Word) : ({ s with tbl := x } : State).wide = s.wide := rfl
theorem State.upd_tbl_uwide (s : State) (x : SMap Word) : ({ s with tbl := x } : State).uwide = s.uwide := rfl
theorem State.upd_tbl_saturated (s : State) (x : SMap Word) : ({ s with tbl := x } : State).saturated = s.saturated := rfl
theorem State.upd_tbl_held (s : State) (x : SMap Word) : ({ s with tbl := x } : State).held = s.held := rfl
theorem State.upd_tbl_snapHeld (s : State) (x : SMap Word) : ({ s with tbl := x } : State).snapHeld = s.snapHeld := rfl
theorem State.upd_tbl_mem (s : State) (x : SMap Word) : ({ s with tbl := x } : State).mem = s.mem := rfl
theorem State.upd_tbl_mram (s : State) (x : SMap Word) : ({ s with tbl := x } : State).mram = s.mram := rfl
theorem State.upd_tbl_now (s : State) (x : SMap Word) : ({ s with tbl := x } : State).now = s.now := rfl
theorem State.upd_tbl_sys (s : State) (x : SMap Word) : ({ s with tbl := x } : State).sys = s.sys := rfl
theorem State.upd_tbl_tim (s : State) (x : SMap Word) : ({ s with tbl := x } : State).tim = s.tim := rfl
theorem State.upd_tbl_ing (s : State) (x : SMap Word) : ({ s with tbl := x } : State).ing = s.ing := rfl
theorem State.upd_tbl_gld (s : State) (x : SMap Word) : ({ s with tbl := x } : State).gld = s.gld := rfl
theorem State.upd_tbl_flt (s : State) (x : SMap Word) : ({ s with tbl := x } : State).flt = s.flt := rfl
theorem State.upd_tbl_osc (s : State) (x : SMap Word) : ({ s with tbl := x } : State).osc = s.osc := rfl
theorem State.upd_tbl_isl (s : State) (x : SMap Word) : ({ s with tbl := x } : State).isl = s.isl := rfl
theorem State.upd_tbl_alm (s : State) (x : SMap Word) : ({ s with tbl := x } : State).alm = s.alm := rfl
theorem State.upd_tbl_cap (s : State) (x : SMap Word) : ({ s with tbl := x } : State).cap = s.cap := rfl
theorem State.upd_tbl_acc (s : State) (x : SMap Word) : ({ s with tbl := x } : State).acc = s.acc := rfl
theorem State.upd_tbl_cores (s : State) (x : SMap Word) : ({ s with tbl := x } : State).cores = s.cores := rfl
theorem State.upd_tbl_net (s : State) (x : SMap Word) : ({ s with tbl := x } : State).net = s.net := rfl
theorem State.upd_tbl_rbt (s : State) (x : SMap Word) : ({ s with tbl := x } : State).rbt = s.rbt := rfl
theorem State.upd_tbl_xng (s : State) (x : SMap Word) : ({ s with tbl := x } : State).xng = s.xng := rfl
theorem State.upd_tbl_ic (s : State) (x : SMap Word) : ({ s with tbl := x } : State).ic = s.ic := rfl
theorem State.upd_tbl_hst (s : State) (x : SMap Word) : ({ s with tbl := x } : State).hst = s.hst := rfl
theorem State.upd_tbl_err (s : State) (x : SMap Word) : ({ s with tbl := x } : State).err = s.err := rfl
theorem State.upd_tbl_und (s : State) (x : SMap Word) : ({ s with tbl := x } : State).und = s.und := rfl
theorem State.upd_tbl_sec (s : State) (x : SMap Word) : ({ s with tbl := x } : State).sec = s.sec := rfl
theorem State.upd_tbl_free (s : State) (x : SMap Word) : ({ s with tbl := x } : State).free = s.free := rfl
theorem State.upd_tbl_out (s : State) (x : SMap Word) : ({ s with tbl := x } : State).out = s.out := rfl
theorem State.upd_tbl_pending (s : State) (x : SMap Word) : ({ s with tbl := x } : State).pending = s.pending := rfl
theorem State.upd_tim_regs (s : State) (x : Tim) : ({ s with tim := x } : State).regs = s.regs := rfl
theorem State.upd_tim_uregs (s : State) (x : Tim) : ({ s with tim := x } : State).uregs = s.uregs := rfl
theorem State.upd_tim_bank (s : State) (x : Tim) : ({ s with tim := x } : State).bank = s.bank := rfl
theorem State.upd_tim_latch (s : State) (x : Tim) : ({ s with tim := x } : State).latch = s.latch := rfl
theorem State.upd_tim_wide (s : State) (x : Tim) : ({ s with tim := x } : State).wide = s.wide := rfl
theorem State.upd_tim_uwide (s : State) (x : Tim) : ({ s with tim := x } : State).uwide = s.uwide := rfl
theorem State.upd_tim_tbl (s : State) (x : Tim) : ({ s with tim := x } : State).tbl = s.tbl := rfl
theorem State.upd_tim_saturated (s : State) (x : Tim) : ({ s with tim := x } : State).saturated = s.saturated := rfl
theorem State.upd_tim_held (s : State) (x : Tim) : ({ s with tim := x } : State).held = s.held := rfl
theorem State.upd_tim_snapHeld (s : State) (x : Tim) : ({ s with tim := x } : State).snapHeld = s.snapHeld := rfl
theorem State.upd_tim_mem (s : State) (x : Tim) : ({ s with tim := x } : State).mem = s.mem := rfl
theorem State.upd_tim_mram (s : State) (x : Tim) : ({ s with tim := x } : State).mram = s.mram := rfl
theorem State.upd_tim_now (s : State) (x : Tim) : ({ s with tim := x } : State).now = s.now := rfl
theorem State.upd_tim_sys (s : State) (x : Tim) : ({ s with tim := x } : State).sys = s.sys := rfl
theorem State.upd_tim_ing (s : State) (x : Tim) : ({ s with tim := x } : State).ing = s.ing := rfl
theorem State.upd_tim_gld (s : State) (x : Tim) : ({ s with tim := x } : State).gld = s.gld := rfl
theorem State.upd_tim_flt (s : State) (x : Tim) : ({ s with tim := x } : State).flt = s.flt := rfl
theorem State.upd_tim_osc (s : State) (x : Tim) : ({ s with tim := x } : State).osc = s.osc := rfl
theorem State.upd_tim_isl (s : State) (x : Tim) : ({ s with tim := x } : State).isl = s.isl := rfl
theorem State.upd_tim_alm (s : State) (x : Tim) : ({ s with tim := x } : State).alm = s.alm := rfl
theorem State.upd_tim_cap (s : State) (x : Tim) : ({ s with tim := x } : State).cap = s.cap := rfl
theorem State.upd_tim_acc (s : State) (x : Tim) : ({ s with tim := x } : State).acc = s.acc := rfl
theorem State.upd_tim_cores (s : State) (x : Tim) : ({ s with tim := x } : State).cores = s.cores := rfl
theorem State.upd_tim_net (s : State) (x : Tim) : ({ s with tim := x } : State).net = s.net := rfl
theorem State.upd_tim_rbt (s : State) (x : Tim) : ({ s with tim := x } : State).rbt = s.rbt := rfl
theorem State.upd_tim_xng (s : State) (x : Tim) : ({ s with tim := x } : State).xng = s.xng := rfl
theorem State.upd_tim_ic (s : State) (x : Tim) : ({ s with tim := x } : State).ic = s.ic := rfl
theorem State.upd_tim_hst (s : State) (x : Tim) : ({ s with tim := x } : State).hst = s.hst := rfl
theorem State.upd_tim_err (s : State) (x : Tim) : ({ s with tim := x } : State).err = s.err := rfl
theorem State.upd_tim_und (s : State) (x : Tim) : ({ s with tim := x } : State).und = s.und := rfl
theorem State.upd_tim_sec (s : State) (x : Tim) : ({ s with tim := x } : State).sec = s.sec := rfl
theorem State.upd_tim_free (s : State) (x : Tim) : ({ s with tim := x } : State).free = s.free := rfl
theorem State.upd_tim_out (s : State) (x : Tim) : ({ s with tim := x } : State).out = s.out := rfl
theorem State.upd_tim_pending (s : State) (x : Tim) : ({ s with tim := x } : State).pending = s.pending := rfl
theorem State.upd_und_regs (s : State) (x : Und) : ({ s with und := x } : State).regs = s.regs := rfl
theorem State.upd_und_uregs (s : State) (x : Und) : ({ s with und := x } : State).uregs = s.uregs := rfl
theorem State.upd_und_bank (s : State) (x : Und) : ({ s with und := x } : State).bank = s.bank := rfl
theorem State.upd_und_latch (s : State) (x : Und) : ({ s with und := x } : State).latch = s.latch := rfl
theorem State.upd_und_wide (s : State) (x : Und) : ({ s with und := x } : State).wide = s.wide := rfl
theorem State.upd_und_uwide (s : State) (x : Und) : ({ s with und := x } : State).uwide = s.uwide := rfl
theorem State.upd_und_tbl (s : State) (x : Und) : ({ s with und := x } : State).tbl = s.tbl := rfl
theorem State.upd_und_saturated (s : State) (x : Und) : ({ s with und := x } : State).saturated = s.saturated := rfl
theorem State.upd_und_held (s : State) (x : Und) : ({ s with und := x } : State).held = s.held := rfl
theorem State.upd_und_snapHeld (s : State) (x : Und) : ({ s with und := x } : State).snapHeld = s.snapHeld := rfl
theorem State.upd_und_mem (s : State) (x : Und) : ({ s with und := x } : State).mem = s.mem := rfl
theorem State.upd_und_mram (s : State) (x : Und) : ({ s with und := x } : State).mram = s.mram := rfl
theorem State.upd_und_now (s : State) (x : Und) : ({ s with und := x } : State).now = s.now := rfl
theorem State.upd_und_sys (s : State) (x : Und) : ({ s with und := x } : State).sys = s.sys := rfl
theorem State.upd_und_tim (s : State) (x : Und) : ({ s with und := x } : State).tim = s.tim := rfl
theorem State.upd_und_ing (s : State) (x : Und) : ({ s with und := x } : State).ing = s.ing := rfl
theorem State.upd_und_gld (s : State) (x : Und) : ({ s with und := x } : State).gld = s.gld := rfl
theorem State.upd_und_flt (s : State) (x : Und) : ({ s with und := x } : State).flt = s.flt := rfl
theorem State.upd_und_osc (s : State) (x : Und) : ({ s with und := x } : State).osc = s.osc := rfl
theorem State.upd_und_isl (s : State) (x : Und) : ({ s with und := x } : State).isl = s.isl := rfl
theorem State.upd_und_alm (s : State) (x : Und) : ({ s with und := x } : State).alm = s.alm := rfl
theorem State.upd_und_cap (s : State) (x : Und) : ({ s with und := x } : State).cap = s.cap := rfl
theorem State.upd_und_acc (s : State) (x : Und) : ({ s with und := x } : State).acc = s.acc := rfl
theorem State.upd_und_cores (s : State) (x : Und) : ({ s with und := x } : State).cores = s.cores := rfl
theorem State.upd_und_net (s : State) (x : Und) : ({ s with und := x } : State).net = s.net := rfl
theorem State.upd_und_rbt (s : State) (x : Und) : ({ s with und := x } : State).rbt = s.rbt := rfl
theorem State.upd_und_xng (s : State) (x : Und) : ({ s with und := x } : State).xng = s.xng := rfl
theorem State.upd_und_ic (s : State) (x : Und) : ({ s with und := x } : State).ic = s.ic := rfl
theorem State.upd_und_hst (s : State) (x : Und) : ({ s with und := x } : State).hst = s.hst := rfl
theorem State.upd_und_err (s : State) (x : Und) : ({ s with und := x } : State).err = s.err := rfl
theorem State.upd_und_sec (s : State) (x : Und) : ({ s with und := x } : State).sec = s.sec := rfl
theorem State.upd_und_free (s : State) (x : Und) : ({ s with und := x } : State).free = s.free := rfl
theorem State.upd_und_out (s : State) (x : Und) : ({ s with und := x } : State).out = s.out := rfl
theorem State.upd_und_pending (s : State) (x : Und) : ({ s with und := x } : State).pending = s.pending := rfl
theorem State.upd_uregs_regs (s : State) (x : SMap Word) : ({ s with uregs := x } : State).regs = s.regs := rfl
theorem State.upd_uregs_bank (s : State) (x : SMap Word) : ({ s with uregs := x } : State).bank = s.bank := rfl
theorem State.upd_uregs_latch (s : State) (x : SMap Word) : ({ s with uregs := x } : State).latch = s.latch := rfl
theorem State.upd_uregs_wide (s : State) (x : SMap Word) : ({ s with uregs := x } : State).wide = s.wide := rfl
theorem State.upd_uregs_uwide (s : State) (x : SMap Word) : ({ s with uregs := x } : State).uwide = s.uwide := rfl
theorem State.upd_uregs_tbl (s : State) (x : SMap Word) : ({ s with uregs := x } : State).tbl = s.tbl := rfl
theorem State.upd_uregs_saturated (s : State) (x : SMap Word) : ({ s with uregs := x } : State).saturated = s.saturated := rfl
theorem State.upd_uregs_held (s : State) (x : SMap Word) : ({ s with uregs := x } : State).held = s.held := rfl
theorem State.upd_uregs_snapHeld (s : State) (x : SMap Word) : ({ s with uregs := x } : State).snapHeld = s.snapHeld := rfl
theorem State.upd_uregs_mem (s : State) (x : SMap Word) : ({ s with uregs := x } : State).mem = s.mem := rfl
theorem State.upd_uregs_mram (s : State) (x : SMap Word) : ({ s with uregs := x } : State).mram = s.mram := rfl
theorem State.upd_uregs_now (s : State) (x : SMap Word) : ({ s with uregs := x } : State).now = s.now := rfl
theorem State.upd_uregs_sys (s : State) (x : SMap Word) : ({ s with uregs := x } : State).sys = s.sys := rfl
theorem State.upd_uregs_tim (s : State) (x : SMap Word) : ({ s with uregs := x } : State).tim = s.tim := rfl
theorem State.upd_uregs_ing (s : State) (x : SMap Word) : ({ s with uregs := x } : State).ing = s.ing := rfl
theorem State.upd_uregs_gld (s : State) (x : SMap Word) : ({ s with uregs := x } : State).gld = s.gld := rfl
theorem State.upd_uregs_flt (s : State) (x : SMap Word) : ({ s with uregs := x } : State).flt = s.flt := rfl
theorem State.upd_uregs_osc (s : State) (x : SMap Word) : ({ s with uregs := x } : State).osc = s.osc := rfl
theorem State.upd_uregs_isl (s : State) (x : SMap Word) : ({ s with uregs := x } : State).isl = s.isl := rfl
theorem State.upd_uregs_alm (s : State) (x : SMap Word) : ({ s with uregs := x } : State).alm = s.alm := rfl
theorem State.upd_uregs_cap (s : State) (x : SMap Word) : ({ s with uregs := x } : State).cap = s.cap := rfl
theorem State.upd_uregs_acc (s : State) (x : SMap Word) : ({ s with uregs := x } : State).acc = s.acc := rfl
theorem State.upd_uregs_cores (s : State) (x : SMap Word) : ({ s with uregs := x } : State).cores = s.cores := rfl
theorem State.upd_uregs_net (s : State) (x : SMap Word) : ({ s with uregs := x } : State).net = s.net := rfl
theorem State.upd_uregs_rbt (s : State) (x : SMap Word) : ({ s with uregs := x } : State).rbt = s.rbt := rfl
theorem State.upd_uregs_xng (s : State) (x : SMap Word) : ({ s with uregs := x } : State).xng = s.xng := rfl
theorem State.upd_uregs_ic (s : State) (x : SMap Word) : ({ s with uregs := x } : State).ic = s.ic := rfl
theorem State.upd_uregs_hst (s : State) (x : SMap Word) : ({ s with uregs := x } : State).hst = s.hst := rfl
theorem State.upd_uregs_err (s : State) (x : SMap Word) : ({ s with uregs := x } : State).err = s.err := rfl
theorem State.upd_uregs_und (s : State) (x : SMap Word) : ({ s with uregs := x } : State).und = s.und := rfl
theorem State.upd_uregs_sec (s : State) (x : SMap Word) : ({ s with uregs := x } : State).sec = s.sec := rfl
theorem State.upd_uregs_free (s : State) (x : SMap Word) : ({ s with uregs := x } : State).free = s.free := rfl
theorem State.upd_uregs_out (s : State) (x : SMap Word) : ({ s with uregs := x } : State).out = s.out := rfl
theorem State.upd_uregs_pending (s : State) (x : SMap Word) : ({ s with uregs := x } : State).pending = s.pending := rfl
theorem State.upd_uwide_regs (s : State) (x : SMap DWord) : ({ s with uwide := x } : State).regs = s.regs := rfl
theorem State.upd_uwide_uregs (s : State) (x : SMap DWord) : ({ s with uwide := x } : State).uregs = s.uregs := rfl
theorem State.upd_uwide_bank (s : State) (x : SMap DWord) : ({ s with uwide := x } : State).bank = s.bank := rfl
theorem State.upd_uwide_latch (s : State) (x : SMap DWord) : ({ s with uwide := x } : State).latch = s.latch := rfl
theorem State.upd_uwide_wide (s : State) (x : SMap DWord) : ({ s with uwide := x } : State).wide = s.wide := rfl
theorem State.upd_uwide_tbl (s : State) (x : SMap DWord) : ({ s with uwide := x } : State).tbl = s.tbl := rfl
theorem State.upd_uwide_saturated (s : State) (x : SMap DWord) : ({ s with uwide := x } : State).saturated = s.saturated := rfl
theorem State.upd_uwide_held (s : State) (x : SMap DWord) : ({ s with uwide := x } : State).held = s.held := rfl
theorem State.upd_uwide_snapHeld (s : State) (x : SMap DWord) : ({ s with uwide := x } : State).snapHeld = s.snapHeld := rfl
theorem State.upd_uwide_mem (s : State) (x : SMap DWord) : ({ s with uwide := x } : State).mem = s.mem := rfl
theorem State.upd_uwide_mram (s : State) (x : SMap DWord) : ({ s with uwide := x } : State).mram = s.mram := rfl
theorem State.upd_uwide_now (s : State) (x : SMap DWord) : ({ s with uwide := x } : State).now = s.now := rfl
theorem State.upd_uwide_sys (s : State) (x : SMap DWord) : ({ s with uwide := x } : State).sys = s.sys := rfl
theorem State.upd_uwide_tim (s : State) (x : SMap DWord) : ({ s with uwide := x } : State).tim = s.tim := rfl
theorem State.upd_uwide_ing (s : State) (x : SMap DWord) : ({ s with uwide := x } : State).ing = s.ing := rfl
theorem State.upd_uwide_gld (s : State) (x : SMap DWord) : ({ s with uwide := x } : State).gld = s.gld := rfl
theorem State.upd_uwide_flt (s : State) (x : SMap DWord) : ({ s with uwide := x } : State).flt = s.flt := rfl
theorem State.upd_uwide_osc (s : State) (x : SMap DWord) : ({ s with uwide := x } : State).osc = s.osc := rfl
theorem State.upd_uwide_isl (s : State) (x : SMap DWord) : ({ s with uwide := x } : State).isl = s.isl := rfl
theorem State.upd_uwide_alm (s : State) (x : SMap DWord) : ({ s with uwide := x } : State).alm = s.alm := rfl
theorem State.upd_uwide_cap (s : State) (x : SMap DWord) : ({ s with uwide := x } : State).cap = s.cap := rfl
theorem State.upd_uwide_acc (s : State) (x : SMap DWord) : ({ s with uwide := x } : State).acc = s.acc := rfl
theorem State.upd_uwide_cores (s : State) (x : SMap DWord) : ({ s with uwide := x } : State).cores = s.cores := rfl
theorem State.upd_uwide_net (s : State) (x : SMap DWord) : ({ s with uwide := x } : State).net = s.net := rfl
theorem State.upd_uwide_rbt (s : State) (x : SMap DWord) : ({ s with uwide := x } : State).rbt = s.rbt := rfl
theorem State.upd_uwide_xng (s : State) (x : SMap DWord) : ({ s with uwide := x } : State).xng = s.xng := rfl
theorem State.upd_uwide_ic (s : State) (x : SMap DWord) : ({ s with uwide := x } : State).ic = s.ic := rfl
theorem State.upd_uwide_hst (s : State) (x : SMap DWord) : ({ s with uwide := x } : State).hst = s.hst := rfl
theorem State.upd_uwide_err (s : State) (x : SMap DWord) : ({ s with uwide := x } : State).err = s.err := rfl
theorem State.upd_uwide_und (s : State) (x : SMap DWord) : ({ s with uwide := x } : State).und = s.und := rfl
theorem State.upd_uwide_sec (s : State) (x : SMap DWord) : ({ s with uwide := x } : State).sec = s.sec := rfl
theorem State.upd_uwide_free (s : State) (x : SMap DWord) : ({ s with uwide := x } : State).free = s.free := rfl
theorem State.upd_uwide_out (s : State) (x : SMap DWord) : ({ s with uwide := x } : State).out = s.out := rfl
theorem State.upd_uwide_pending (s : State) (x : SMap DWord) : ({ s with uwide := x } : State).pending = s.pending := rfl
theorem State.upd_wide_regs (s : State) (x : SMap DWord) : ({ s with wide := x } : State).regs = s.regs := rfl
theorem State.upd_wide_uregs (s : State) (x : SMap DWord) : ({ s with wide := x } : State).uregs = s.uregs := rfl
theorem State.upd_wide_bank (s : State) (x : SMap DWord) : ({ s with wide := x } : State).bank = s.bank := rfl
theorem State.upd_wide_latch (s : State) (x : SMap DWord) : ({ s with wide := x } : State).latch = s.latch := rfl
theorem State.upd_wide_uwide (s : State) (x : SMap DWord) : ({ s with wide := x } : State).uwide = s.uwide := rfl
theorem State.upd_wide_tbl (s : State) (x : SMap DWord) : ({ s with wide := x } : State).tbl = s.tbl := rfl
theorem State.upd_wide_saturated (s : State) (x : SMap DWord) : ({ s with wide := x } : State).saturated = s.saturated := rfl
theorem State.upd_wide_held (s : State) (x : SMap DWord) : ({ s with wide := x } : State).held = s.held := rfl
theorem State.upd_wide_snapHeld (s : State) (x : SMap DWord) : ({ s with wide := x } : State).snapHeld = s.snapHeld := rfl
theorem State.upd_wide_mem (s : State) (x : SMap DWord) : ({ s with wide := x } : State).mem = s.mem := rfl
theorem State.upd_wide_mram (s : State) (x : SMap DWord) : ({ s with wide := x } : State).mram = s.mram := rfl
theorem State.upd_wide_now (s : State) (x : SMap DWord) : ({ s with wide := x } : State).now = s.now := rfl
theorem State.upd_wide_sys (s : State) (x : SMap DWord) : ({ s with wide := x } : State).sys = s.sys := rfl
theorem State.upd_wide_tim (s : State) (x : SMap DWord) : ({ s with wide := x } : State).tim = s.tim := rfl
theorem State.upd_wide_ing (s : State) (x : SMap DWord) : ({ s with wide := x } : State).ing = s.ing := rfl
theorem State.upd_wide_gld (s : State) (x : SMap DWord) : ({ s with wide := x } : State).gld = s.gld := rfl
theorem State.upd_wide_flt (s : State) (x : SMap DWord) : ({ s with wide := x } : State).flt = s.flt := rfl
theorem State.upd_wide_osc (s : State) (x : SMap DWord) : ({ s with wide := x } : State).osc = s.osc := rfl
theorem State.upd_wide_isl (s : State) (x : SMap DWord) : ({ s with wide := x } : State).isl = s.isl := rfl
theorem State.upd_wide_alm (s : State) (x : SMap DWord) : ({ s with wide := x } : State).alm = s.alm := rfl
theorem State.upd_wide_cap (s : State) (x : SMap DWord) : ({ s with wide := x } : State).cap = s.cap := rfl
theorem State.upd_wide_acc (s : State) (x : SMap DWord) : ({ s with wide := x } : State).acc = s.acc := rfl
theorem State.upd_wide_cores (s : State) (x : SMap DWord) : ({ s with wide := x } : State).cores = s.cores := rfl
theorem State.upd_wide_net (s : State) (x : SMap DWord) : ({ s with wide := x } : State).net = s.net := rfl
theorem State.upd_wide_rbt (s : State) (x : SMap DWord) : ({ s with wide := x } : State).rbt = s.rbt := rfl
theorem State.upd_wide_xng (s : State) (x : SMap DWord) : ({ s with wide := x } : State).xng = s.xng := rfl
theorem State.upd_wide_ic (s : State) (x : SMap DWord) : ({ s with wide := x } : State).ic = s.ic := rfl
theorem State.upd_wide_hst (s : State) (x : SMap DWord) : ({ s with wide := x } : State).hst = s.hst := rfl
theorem State.upd_wide_err (s : State) (x : SMap DWord) : ({ s with wide := x } : State).err = s.err := rfl
theorem State.upd_wide_und (s : State) (x : SMap DWord) : ({ s with wide := x } : State).und = s.und := rfl
theorem State.upd_wide_sec (s : State) (x : SMap DWord) : ({ s with wide := x } : State).sec = s.sec := rfl
theorem State.upd_wide_free (s : State) (x : SMap DWord) : ({ s with wide := x } : State).free = s.free := rfl
theorem State.upd_wide_out (s : State) (x : SMap DWord) : ({ s with wide := x } : State).out = s.out := rfl
theorem State.upd_wide_pending (s : State) (x : SMap DWord) : ({ s with wide := x } : State).pending = s.pending := rfl

@[simp] theorem State.setReg_bank (s : State) (off : Nat) (v : Word) : (s.setReg off v).bank = s.bank := by unfold State.setReg; split <;> first | exact State.upd_uregs_bank s _ | exact State.upd_regs_bank s _
@[simp] theorem State.setReg_latch (s : State) (off : Nat) (v : Word) : (s.setReg off v).latch = s.latch := by unfold State.setReg; split <;> first | exact State.upd_uregs_latch s _ | exact State.upd_regs_latch s _
@[simp] theorem State.setReg_wide (s : State) (off : Nat) (v : Word) : (s.setReg off v).wide = s.wide := by unfold State.setReg; split <;> first | exact State.upd_uregs_wide s _ | exact State.upd_regs_wide s _
@[simp] theorem State.setReg_uwide (s : State) (off : Nat) (v : Word) : (s.setReg off v).uwide = s.uwide := by unfold State.setReg; split <;> first | exact State.upd_uregs_uwide s _ | exact State.upd_regs_uwide s _
@[simp] theorem State.setReg_tbl (s : State) (off : Nat) (v : Word) : (s.setReg off v).tbl = s.tbl := by unfold State.setReg; split <;> first | exact State.upd_uregs_tbl s _ | exact State.upd_regs_tbl s _
@[simp] theorem State.setReg_saturated (s : State) (off : Nat) (v : Word) : (s.setReg off v).saturated = s.saturated := by unfold State.setReg; split <;> first | exact State.upd_uregs_saturated s _ | exact State.upd_regs_saturated s _
@[simp] theorem State.setReg_held (s : State) (off : Nat) (v : Word) : (s.setReg off v).held = s.held := by unfold State.setReg; split <;> first | exact State.upd_uregs_held s _ | exact State.upd_regs_held s _
@[simp] theorem State.setReg_snapHeld (s : State) (off : Nat) (v : Word) : (s.setReg off v).snapHeld = s.snapHeld := by unfold State.setReg; split <;> first | exact State.upd_uregs_snapHeld s _ | exact State.upd_regs_snapHeld s _
@[simp] theorem State.setReg_mem (s : State) (off : Nat) (v : Word) : (s.setReg off v).mem = s.mem := by unfold State.setReg; split <;> first | exact State.upd_uregs_mem s _ | exact State.upd_regs_mem s _
@[simp] theorem State.setReg_mram (s : State) (off : Nat) (v : Word) : (s.setReg off v).mram = s.mram := by unfold State.setReg; split <;> first | exact State.upd_uregs_mram s _ | exact State.upd_regs_mram s _
@[simp] theorem State.setReg_now (s : State) (off : Nat) (v : Word) : (s.setReg off v).now = s.now := by unfold State.setReg; split <;> first | exact State.upd_uregs_now s _ | exact State.upd_regs_now s _
@[simp] theorem State.setReg_sys (s : State) (off : Nat) (v : Word) : (s.setReg off v).sys = s.sys := by unfold State.setReg; split <;> first | exact State.upd_uregs_sys s _ | exact State.upd_regs_sys s _
@[simp] theorem State.setReg_tim (s : State) (off : Nat) (v : Word) : (s.setReg off v).tim = s.tim := by unfold State.setReg; split <;> first | exact State.upd_uregs_tim s _ | exact State.upd_regs_tim s _
@[simp] theorem State.setReg_ing (s : State) (off : Nat) (v : Word) : (s.setReg off v).ing = s.ing := by unfold State.setReg; split <;> first | exact State.upd_uregs_ing s _ | exact State.upd_regs_ing s _
@[simp] theorem State.setReg_gld (s : State) (off : Nat) (v : Word) : (s.setReg off v).gld = s.gld := by unfold State.setReg; split <;> first | exact State.upd_uregs_gld s _ | exact State.upd_regs_gld s _
@[simp] theorem State.setReg_flt (s : State) (off : Nat) (v : Word) : (s.setReg off v).flt = s.flt := by unfold State.setReg; split <;> first | exact State.upd_uregs_flt s _ | exact State.upd_regs_flt s _
@[simp] theorem State.setReg_osc (s : State) (off : Nat) (v : Word) : (s.setReg off v).osc = s.osc := by unfold State.setReg; split <;> first | exact State.upd_uregs_osc s _ | exact State.upd_regs_osc s _
@[simp] theorem State.setReg_isl (s : State) (off : Nat) (v : Word) : (s.setReg off v).isl = s.isl := by unfold State.setReg; split <;> first | exact State.upd_uregs_isl s _ | exact State.upd_regs_isl s _
@[simp] theorem State.setReg_alm (s : State) (off : Nat) (v : Word) : (s.setReg off v).alm = s.alm := by unfold State.setReg; split <;> first | exact State.upd_uregs_alm s _ | exact State.upd_regs_alm s _
@[simp] theorem State.setReg_cap (s : State) (off : Nat) (v : Word) : (s.setReg off v).cap = s.cap := by unfold State.setReg; split <;> first | exact State.upd_uregs_cap s _ | exact State.upd_regs_cap s _
@[simp] theorem State.setReg_acc (s : State) (off : Nat) (v : Word) : (s.setReg off v).acc = s.acc := by unfold State.setReg; split <;> first | exact State.upd_uregs_acc s _ | exact State.upd_regs_acc s _
@[simp] theorem State.setReg_cores (s : State) (off : Nat) (v : Word) : (s.setReg off v).cores = s.cores := by unfold State.setReg; split <;> first | exact State.upd_uregs_cores s _ | exact State.upd_regs_cores s _
@[simp] theorem State.setReg_net (s : State) (off : Nat) (v : Word) : (s.setReg off v).net = s.net := by unfold State.setReg; split <;> first | exact State.upd_uregs_net s _ | exact State.upd_regs_net s _
@[simp] theorem State.setReg_rbt (s : State) (off : Nat) (v : Word) : (s.setReg off v).rbt = s.rbt := by unfold State.setReg; split <;> first | exact State.upd_uregs_rbt s _ | exact State.upd_regs_rbt s _
@[simp] theorem State.setReg_xng (s : State) (off : Nat) (v : Word) : (s.setReg off v).xng = s.xng := by unfold State.setReg; split <;> first | exact State.upd_uregs_xng s _ | exact State.upd_regs_xng s _
@[simp] theorem State.setReg_ic (s : State) (off : Nat) (v : Word) : (s.setReg off v).ic = s.ic := by unfold State.setReg; split <;> first | exact State.upd_uregs_ic s _ | exact State.upd_regs_ic s _
@[simp] theorem State.setReg_hst (s : State) (off : Nat) (v : Word) : (s.setReg off v).hst = s.hst := by unfold State.setReg; split <;> first | exact State.upd_uregs_hst s _ | exact State.upd_regs_hst s _
@[simp] theorem State.setReg_err (s : State) (off : Nat) (v : Word) : (s.setReg off v).err = s.err := by unfold State.setReg; split <;> first | exact State.upd_uregs_err s _ | exact State.upd_regs_err s _
@[simp] theorem State.setReg_und (s : State) (off : Nat) (v : Word) : (s.setReg off v).und = s.und := by unfold State.setReg; split <;> first | exact State.upd_uregs_und s _ | exact State.upd_regs_und s _
@[simp] theorem State.setReg_sec (s : State) (off : Nat) (v : Word) : (s.setReg off v).sec = s.sec := by unfold State.setReg; split <;> first | exact State.upd_uregs_sec s _ | exact State.upd_regs_sec s _
@[simp] theorem State.setReg_free (s : State) (off : Nat) (v : Word) : (s.setReg off v).free = s.free := by unfold State.setReg; split <;> first | exact State.upd_uregs_free s _ | exact State.upd_regs_free s _
@[simp] theorem State.setReg_out (s : State) (off : Nat) (v : Word) : (s.setReg off v).out = s.out := by unfold State.setReg; split <;> first | exact State.upd_uregs_out s _ | exact State.upd_regs_out s _
@[simp] theorem State.setReg_pending (s : State) (off : Nat) (v : Word) : (s.setReg off v).pending = s.pending := by unfold State.setReg; split <;> first | exact State.upd_uregs_pending s _ | exact State.upd_regs_pending s _
@[simp] theorem State.setFld_bank (s : State) (f : Fld) (v : Nat) : (s.setFld f v).bank = s.bank := State.setReg_bank s _ _
@[simp] theorem State.setFld_latch (s : State) (f : Fld) (v : Nat) : (s.setFld f v).latch = s.latch := State.setReg_latch s _ _
@[simp] theorem State.setFld_wide (s : State) (f : Fld) (v : Nat) : (s.setFld f v).wide = s.wide := State.setReg_wide s _ _
@[simp] theorem State.setFld_uwide (s : State) (f : Fld) (v : Nat) : (s.setFld f v).uwide = s.uwide := State.setReg_uwide s _ _
@[simp] theorem State.setFld_tbl (s : State) (f : Fld) (v : Nat) : (s.setFld f v).tbl = s.tbl := State.setReg_tbl s _ _
@[simp] theorem State.setFld_saturated (s : State) (f : Fld) (v : Nat) : (s.setFld f v).saturated = s.saturated := State.setReg_saturated s _ _
@[simp] theorem State.setFld_held (s : State) (f : Fld) (v : Nat) : (s.setFld f v).held = s.held := State.setReg_held s _ _
@[simp] theorem State.setFld_snapHeld (s : State) (f : Fld) (v : Nat) : (s.setFld f v).snapHeld = s.snapHeld := State.setReg_snapHeld s _ _
@[simp] theorem State.setFld_mem (s : State) (f : Fld) (v : Nat) : (s.setFld f v).mem = s.mem := State.setReg_mem s _ _
@[simp] theorem State.setFld_mram (s : State) (f : Fld) (v : Nat) : (s.setFld f v).mram = s.mram := State.setReg_mram s _ _
@[simp] theorem State.setFld_now (s : State) (f : Fld) (v : Nat) : (s.setFld f v).now = s.now := State.setReg_now s _ _
@[simp] theorem State.setFld_sys (s : State) (f : Fld) (v : Nat) : (s.setFld f v).sys = s.sys := State.setReg_sys s _ _
@[simp] theorem State.setFld_tim (s : State) (f : Fld) (v : Nat) : (s.setFld f v).tim = s.tim := State.setReg_tim s _ _
@[simp] theorem State.setFld_ing (s : State) (f : Fld) (v : Nat) : (s.setFld f v).ing = s.ing := State.setReg_ing s _ _
@[simp] theorem State.setFld_gld (s : State) (f : Fld) (v : Nat) : (s.setFld f v).gld = s.gld := State.setReg_gld s _ _
@[simp] theorem State.setFld_flt (s : State) (f : Fld) (v : Nat) : (s.setFld f v).flt = s.flt := State.setReg_flt s _ _
@[simp] theorem State.setFld_osc (s : State) (f : Fld) (v : Nat) : (s.setFld f v).osc = s.osc := State.setReg_osc s _ _
@[simp] theorem State.setFld_isl (s : State) (f : Fld) (v : Nat) : (s.setFld f v).isl = s.isl := State.setReg_isl s _ _
@[simp] theorem State.setFld_alm (s : State) (f : Fld) (v : Nat) : (s.setFld f v).alm = s.alm := State.setReg_alm s _ _
@[simp] theorem State.setFld_cap (s : State) (f : Fld) (v : Nat) : (s.setFld f v).cap = s.cap := State.setReg_cap s _ _
@[simp] theorem State.setFld_acc (s : State) (f : Fld) (v : Nat) : (s.setFld f v).acc = s.acc := State.setReg_acc s _ _
@[simp] theorem State.setFld_cores (s : State) (f : Fld) (v : Nat) : (s.setFld f v).cores = s.cores := State.setReg_cores s _ _
@[simp] theorem State.setFld_net (s : State) (f : Fld) (v : Nat) : (s.setFld f v).net = s.net := State.setReg_net s _ _
@[simp] theorem State.setFld_rbt (s : State) (f : Fld) (v : Nat) : (s.setFld f v).rbt = s.rbt := State.setReg_rbt s _ _
@[simp] theorem State.setFld_xng (s : State) (f : Fld) (v : Nat) : (s.setFld f v).xng = s.xng := State.setReg_xng s _ _
@[simp] theorem State.setFld_ic (s : State) (f : Fld) (v : Nat) : (s.setFld f v).ic = s.ic := State.setReg_ic s _ _
@[simp] theorem State.setFld_hst (s : State) (f : Fld) (v : Nat) : (s.setFld f v).hst = s.hst := State.setReg_hst s _ _
@[simp] theorem State.setFld_err (s : State) (f : Fld) (v : Nat) : (s.setFld f v).err = s.err := State.setReg_err s _ _
@[simp] theorem State.setFld_und (s : State) (f : Fld) (v : Nat) : (s.setFld f v).und = s.und := State.setReg_und s _ _
@[simp] theorem State.setFld_sec (s : State) (f : Fld) (v : Nat) : (s.setFld f v).sec = s.sec := State.setReg_sec s _ _
@[simp] theorem State.setFld_free (s : State) (f : Fld) (v : Nat) : (s.setFld f v).free = s.free := State.setReg_free s _ _
@[simp] theorem State.setFld_out (s : State) (f : Fld) (v : Nat) : (s.setFld f v).out = s.out := State.setReg_out s _ _
@[simp] theorem State.setFld_pending (s : State) (f : Fld) (v : Nat) : (s.setFld f v).pending = s.pending := State.setReg_pending s _ _
@[simp] theorem State.raise_bank (s : State) (f : Fld) : (s.raise f).bank = s.bank := State.setFld_bank s _ _
@[simp] theorem State.raise_latch (s : State) (f : Fld) : (s.raise f).latch = s.latch := State.setFld_latch s _ _
@[simp] theorem State.raise_wide (s : State) (f : Fld) : (s.raise f).wide = s.wide := State.setFld_wide s _ _
@[simp] theorem State.raise_uwide (s : State) (f : Fld) : (s.raise f).uwide = s.uwide := State.setFld_uwide s _ _
@[simp] theorem State.raise_tbl (s : State) (f : Fld) : (s.raise f).tbl = s.tbl := State.setFld_tbl s _ _
@[simp] theorem State.raise_saturated (s : State) (f : Fld) : (s.raise f).saturated = s.saturated := State.setFld_saturated s _ _
@[simp] theorem State.raise_held (s : State) (f : Fld) : (s.raise f).held = s.held := State.setFld_held s _ _
@[simp] theorem State.raise_snapHeld (s : State) (f : Fld) : (s.raise f).snapHeld = s.snapHeld := State.setFld_snapHeld s _ _
@[simp] theorem State.raise_mem (s : State) (f : Fld) : (s.raise f).mem = s.mem := State.setFld_mem s _ _
@[simp] theorem State.raise_mram (s : State) (f : Fld) : (s.raise f).mram = s.mram := State.setFld_mram s _ _
@[simp] theorem State.raise_now (s : State) (f : Fld) : (s.raise f).now = s.now := State.setFld_now s _ _
@[simp] theorem State.raise_sys (s : State) (f : Fld) : (s.raise f).sys = s.sys := State.setFld_sys s _ _
@[simp] theorem State.raise_tim (s : State) (f : Fld) : (s.raise f).tim = s.tim := State.setFld_tim s _ _
@[simp] theorem State.raise_ing (s : State) (f : Fld) : (s.raise f).ing = s.ing := State.setFld_ing s _ _
@[simp] theorem State.raise_gld (s : State) (f : Fld) : (s.raise f).gld = s.gld := State.setFld_gld s _ _
@[simp] theorem State.raise_flt (s : State) (f : Fld) : (s.raise f).flt = s.flt := State.setFld_flt s _ _
@[simp] theorem State.raise_osc (s : State) (f : Fld) : (s.raise f).osc = s.osc := State.setFld_osc s _ _
@[simp] theorem State.raise_isl (s : State) (f : Fld) : (s.raise f).isl = s.isl := State.setFld_isl s _ _
@[simp] theorem State.raise_alm (s : State) (f : Fld) : (s.raise f).alm = s.alm := State.setFld_alm s _ _
@[simp] theorem State.raise_cap (s : State) (f : Fld) : (s.raise f).cap = s.cap := State.setFld_cap s _ _
@[simp] theorem State.raise_acc (s : State) (f : Fld) : (s.raise f).acc = s.acc := State.setFld_acc s _ _
@[simp] theorem State.raise_cores (s : State) (f : Fld) : (s.raise f).cores = s.cores := State.setFld_cores s _ _
@[simp] theorem State.raise_net (s : State) (f : Fld) : (s.raise f).net = s.net := State.setFld_net s _ _
@[simp] theorem State.raise_rbt (s : State) (f : Fld) : (s.raise f).rbt = s.rbt := State.setFld_rbt s _ _
@[simp] theorem State.raise_xng (s : State) (f : Fld) : (s.raise f).xng = s.xng := State.setFld_xng s _ _
@[simp] theorem State.raise_ic (s : State) (f : Fld) : (s.raise f).ic = s.ic := State.setFld_ic s _ _
@[simp] theorem State.raise_hst (s : State) (f : Fld) : (s.raise f).hst = s.hst := State.setFld_hst s _ _
@[simp] theorem State.raise_err (s : State) (f : Fld) : (s.raise f).err = s.err := State.setFld_err s _ _
@[simp] theorem State.raise_und (s : State) (f : Fld) : (s.raise f).und = s.und := State.setFld_und s _ _
@[simp] theorem State.raise_sec (s : State) (f : Fld) : (s.raise f).sec = s.sec := State.setFld_sec s _ _
@[simp] theorem State.raise_free (s : State) (f : Fld) : (s.raise f).free = s.free := State.setFld_free s _ _
@[simp] theorem State.raise_out (s : State) (f : Fld) : (s.raise f).out = s.out := State.setFld_out s _ _
@[simp] theorem State.raise_pending (s : State) (f : Fld) : (s.raise f).pending = s.pending := State.setFld_pending s _ _
@[simp] theorem State.setBanked_regs (s : State) (q off : Nat) (v : Word) : (s.setBanked q off v).regs = s.regs := State.upd_bank_regs s _
@[simp] theorem State.setBanked_uregs (s : State) (q off : Nat) (v : Word) : (s.setBanked q off v).uregs = s.uregs := State.upd_bank_uregs s _
@[simp] theorem State.setBanked_latch (s : State) (q off : Nat) (v : Word) : (s.setBanked q off v).latch = s.latch := State.upd_bank_latch s _
@[simp] theorem State.setBanked_wide (s : State) (q off : Nat) (v : Word) : (s.setBanked q off v).wide = s.wide := State.upd_bank_wide s _
@[simp] theorem State.setBanked_uwide (s : State) (q off : Nat) (v : Word) : (s.setBanked q off v).uwide = s.uwide := State.upd_bank_uwide s _
@[simp] theorem State.setBanked_tbl (s : State) (q off : Nat) (v : Word) : (s.setBanked q off v).tbl = s.tbl := State.upd_bank_tbl s _
@[simp] theorem State.setBanked_saturated (s : State) (q off : Nat) (v : Word) : (s.setBanked q off v).saturated = s.saturated := State.upd_bank_saturated s _
@[simp] theorem State.setBanked_held (s : State) (q off : Nat) (v : Word) : (s.setBanked q off v).held = s.held := State.upd_bank_held s _
@[simp] theorem State.setBanked_snapHeld (s : State) (q off : Nat) (v : Word) : (s.setBanked q off v).snapHeld = s.snapHeld := State.upd_bank_snapHeld s _
@[simp] theorem State.setBanked_mem (s : State) (q off : Nat) (v : Word) : (s.setBanked q off v).mem = s.mem := State.upd_bank_mem s _
@[simp] theorem State.setBanked_mram (s : State) (q off : Nat) (v : Word) : (s.setBanked q off v).mram = s.mram := State.upd_bank_mram s _
@[simp] theorem State.setBanked_now (s : State) (q off : Nat) (v : Word) : (s.setBanked q off v).now = s.now := State.upd_bank_now s _
@[simp] theorem State.setBanked_sys (s : State) (q off : Nat) (v : Word) : (s.setBanked q off v).sys = s.sys := State.upd_bank_sys s _
@[simp] theorem State.setBanked_tim (s : State) (q off : Nat) (v : Word) : (s.setBanked q off v).tim = s.tim := State.upd_bank_tim s _
@[simp] theorem State.setBanked_ing (s : State) (q off : Nat) (v : Word) : (s.setBanked q off v).ing = s.ing := State.upd_bank_ing s _
@[simp] theorem State.setBanked_gld (s : State) (q off : Nat) (v : Word) : (s.setBanked q off v).gld = s.gld := State.upd_bank_gld s _
@[simp] theorem State.setBanked_flt (s : State) (q off : Nat) (v : Word) : (s.setBanked q off v).flt = s.flt := State.upd_bank_flt s _
@[simp] theorem State.setBanked_osc (s : State) (q off : Nat) (v : Word) : (s.setBanked q off v).osc = s.osc := State.upd_bank_osc s _
@[simp] theorem State.setBanked_isl (s : State) (q off : Nat) (v : Word) : (s.setBanked q off v).isl = s.isl := State.upd_bank_isl s _
@[simp] theorem State.setBanked_alm (s : State) (q off : Nat) (v : Word) : (s.setBanked q off v).alm = s.alm := State.upd_bank_alm s _
@[simp] theorem State.setBanked_cap (s : State) (q off : Nat) (v : Word) : (s.setBanked q off v).cap = s.cap := State.upd_bank_cap s _
@[simp] theorem State.setBanked_acc (s : State) (q off : Nat) (v : Word) : (s.setBanked q off v).acc = s.acc := State.upd_bank_acc s _
@[simp] theorem State.setBanked_cores (s : State) (q off : Nat) (v : Word) : (s.setBanked q off v).cores = s.cores := State.upd_bank_cores s _
@[simp] theorem State.setBanked_net (s : State) (q off : Nat) (v : Word) : (s.setBanked q off v).net = s.net := State.upd_bank_net s _
@[simp] theorem State.setBanked_rbt (s : State) (q off : Nat) (v : Word) : (s.setBanked q off v).rbt = s.rbt := State.upd_bank_rbt s _
@[simp] theorem State.setBanked_xng (s : State) (q off : Nat) (v : Word) : (s.setBanked q off v).xng = s.xng := State.upd_bank_xng s _
@[simp] theorem State.setBanked_ic (s : State) (q off : Nat) (v : Word) : (s.setBanked q off v).ic = s.ic := State.upd_bank_ic s _
@[simp] theorem State.setBanked_hst (s : State) (q off : Nat) (v : Word) : (s.setBanked q off v).hst = s.hst := State.upd_bank_hst s _
@[simp] theorem State.setBanked_err (s : State) (q off : Nat) (v : Word) : (s.setBanked q off v).err = s.err := State.upd_bank_err s _
@[simp] theorem State.setBanked_und (s : State) (q off : Nat) (v : Word) : (s.setBanked q off v).und = s.und := State.upd_bank_und s _
@[simp] theorem State.setBanked_sec (s : State) (q off : Nat) (v : Word) : (s.setBanked q off v).sec = s.sec := State.upd_bank_sec s _
@[simp] theorem State.setBanked_free (s : State) (q off : Nat) (v : Word) : (s.setBanked q off v).free = s.free := State.upd_bank_free s _
@[simp] theorem State.setBanked_out (s : State) (q off : Nat) (v : Word) : (s.setBanked q off v).out = s.out := State.upd_bank_out s _
@[simp] theorem State.setBanked_pending (s : State) (q off : Nat) (v : Word) : (s.setBanked q off v).pending = s.pending := State.upd_bank_pending s _
@[simp] theorem State.setLatch_regs (s : State) (q : Req) (off : Nat) (v : Word) : (s.setLatch q off v).regs = s.regs := State.upd_latch_regs s _
@[simp] theorem State.setLatch_uregs (s : State) (q : Req) (off : Nat) (v : Word) : (s.setLatch q off v).uregs = s.uregs := State.upd_latch_uregs s _
@[simp] theorem State.setLatch_bank (s : State) (q : Req) (off : Nat) (v : Word) : (s.setLatch q off v).bank = s.bank := State.upd_latch_bank s _
@[simp] theorem State.setLatch_wide (s : State) (q : Req) (off : Nat) (v : Word) : (s.setLatch q off v).wide = s.wide := State.upd_latch_wide s _
@[simp] theorem State.setLatch_uwide (s : State) (q : Req) (off : Nat) (v : Word) : (s.setLatch q off v).uwide = s.uwide := State.upd_latch_uwide s _
@[simp] theorem State.setLatch_tbl (s : State) (q : Req) (off : Nat) (v : Word) : (s.setLatch q off v).tbl = s.tbl := State.upd_latch_tbl s _
@[simp] theorem State.setLatch_saturated (s : State) (q : Req) (off : Nat) (v : Word) : (s.setLatch q off v).saturated = s.saturated := State.upd_latch_saturated s _
@[simp] theorem State.setLatch_held (s : State) (q : Req) (off : Nat) (v : Word) : (s.setLatch q off v).held = s.held := State.upd_latch_held s _
@[simp] theorem State.setLatch_snapHeld (s : State) (q : Req) (off : Nat) (v : Word) : (s.setLatch q off v).snapHeld = s.snapHeld := State.upd_latch_snapHeld s _
@[simp] theorem State.setLatch_mem (s : State) (q : Req) (off : Nat) (v : Word) : (s.setLatch q off v).mem = s.mem := State.upd_latch_mem s _
@[simp] theorem State.setLatch_mram (s : State) (q : Req) (off : Nat) (v : Word) : (s.setLatch q off v).mram = s.mram := State.upd_latch_mram s _
@[simp] theorem State.setLatch_now (s : State) (q : Req) (off : Nat) (v : Word) : (s.setLatch q off v).now = s.now := State.upd_latch_now s _
@[simp] theorem State.setLatch_sys (s : State) (q : Req) (off : Nat) (v : Word) : (s.setLatch q off v).sys = s.sys := State.upd_latch_sys s _
@[simp] theorem State.setLatch_tim (s : State) (q : Req) (off : Nat) (v : Word) : (s.setLatch q off v).tim = s.tim := State.upd_latch_tim s _
@[simp] theorem State.setLatch_ing (s : State) (q : Req) (off : Nat) (v : Word) : (s.setLatch q off v).ing = s.ing := State.upd_latch_ing s _
@[simp] theorem State.setLatch_gld (s : State) (q : Req) (off : Nat) (v : Word) : (s.setLatch q off v).gld = s.gld := State.upd_latch_gld s _
@[simp] theorem State.setLatch_flt (s : State) (q : Req) (off : Nat) (v : Word) : (s.setLatch q off v).flt = s.flt := State.upd_latch_flt s _
@[simp] theorem State.setLatch_osc (s : State) (q : Req) (off : Nat) (v : Word) : (s.setLatch q off v).osc = s.osc := State.upd_latch_osc s _
@[simp] theorem State.setLatch_isl (s : State) (q : Req) (off : Nat) (v : Word) : (s.setLatch q off v).isl = s.isl := State.upd_latch_isl s _
@[simp] theorem State.setLatch_alm (s : State) (q : Req) (off : Nat) (v : Word) : (s.setLatch q off v).alm = s.alm := State.upd_latch_alm s _
@[simp] theorem State.setLatch_cap (s : State) (q : Req) (off : Nat) (v : Word) : (s.setLatch q off v).cap = s.cap := State.upd_latch_cap s _
@[simp] theorem State.setLatch_acc (s : State) (q : Req) (off : Nat) (v : Word) : (s.setLatch q off v).acc = s.acc := State.upd_latch_acc s _
@[simp] theorem State.setLatch_cores (s : State) (q : Req) (off : Nat) (v : Word) : (s.setLatch q off v).cores = s.cores := State.upd_latch_cores s _
@[simp] theorem State.setLatch_net (s : State) (q : Req) (off : Nat) (v : Word) : (s.setLatch q off v).net = s.net := State.upd_latch_net s _
@[simp] theorem State.setLatch_rbt (s : State) (q : Req) (off : Nat) (v : Word) : (s.setLatch q off v).rbt = s.rbt := State.upd_latch_rbt s _
@[simp] theorem State.setLatch_xng (s : State) (q : Req) (off : Nat) (v : Word) : (s.setLatch q off v).xng = s.xng := State.upd_latch_xng s _
@[simp] theorem State.setLatch_ic (s : State) (q : Req) (off : Nat) (v : Word) : (s.setLatch q off v).ic = s.ic := State.upd_latch_ic s _
@[simp] theorem State.setLatch_hst (s : State) (q : Req) (off : Nat) (v : Word) : (s.setLatch q off v).hst = s.hst := State.upd_latch_hst s _
@[simp] theorem State.setLatch_err (s : State) (q : Req) (off : Nat) (v : Word) : (s.setLatch q off v).err = s.err := State.upd_latch_err s _
@[simp] theorem State.setLatch_und (s : State) (q : Req) (off : Nat) (v : Word) : (s.setLatch q off v).und = s.und := State.upd_latch_und s _
@[simp] theorem State.setLatch_sec (s : State) (q : Req) (off : Nat) (v : Word) : (s.setLatch q off v).sec = s.sec := State.upd_latch_sec s _
@[simp] theorem State.setLatch_free (s : State) (q : Req) (off : Nat) (v : Word) : (s.setLatch q off v).free = s.free := State.upd_latch_free s _
@[simp] theorem State.setLatch_out (s : State) (q : Req) (off : Nat) (v : Word) : (s.setLatch q off v).out = s.out := State.upd_latch_out s _
@[simp] theorem State.setLatch_pending (s : State) (q : Req) (off : Nat) (v : Word) : (s.setLatch q off v).pending = s.pending := State.upd_latch_pending s _
@[simp] theorem State.setCnt_regs (s : State) (k : Nat) (v : DWord) : (s.setCnt k v).regs = s.regs := by unfold State.setCnt; split <;> first | exact State.upd_uwide_regs s _ | exact State.upd_wide_regs s _
@[simp] theorem State.setCnt_uregs (s : State) (k : Nat) (v : DWord) : (s.setCnt k v).uregs = s.uregs := by unfold State.setCnt; split <;> first | exact State.upd_uwide_uregs s _ | exact State.upd_wide_uregs s _
@[simp] theorem State.setCnt_bank (s : State) (k : Nat) (v : DWord) : (s.setCnt k v).bank = s.bank := by unfold State.setCnt; split <;> first | exact State.upd_uwide_bank s _ | exact State.upd_wide_bank s _
@[simp] theorem State.setCnt_latch (s : State) (k : Nat) (v : DWord) : (s.setCnt k v).latch = s.latch := by unfold State.setCnt; split <;> first | exact State.upd_uwide_latch s _ | exact State.upd_wide_latch s _
@[simp] theorem State.setCnt_tbl (s : State) (k : Nat) (v : DWord) : (s.setCnt k v).tbl = s.tbl := by unfold State.setCnt; split <;> first | exact State.upd_uwide_tbl s _ | exact State.upd_wide_tbl s _
@[simp] theorem State.setCnt_saturated (s : State) (k : Nat) (v : DWord) : (s.setCnt k v).saturated = s.saturated := by unfold State.setCnt; split <;> first | exact State.upd_uwide_saturated s _ | exact State.upd_wide_saturated s _
@[simp] theorem State.setCnt_held (s : State) (k : Nat) (v : DWord) : (s.setCnt k v).held = s.held := by unfold State.setCnt; split <;> first | exact State.upd_uwide_held s _ | exact State.upd_wide_held s _
@[simp] theorem State.setCnt_snapHeld (s : State) (k : Nat) (v : DWord) : (s.setCnt k v).snapHeld = s.snapHeld := by unfold State.setCnt; split <;> first | exact State.upd_uwide_snapHeld s _ | exact State.upd_wide_snapHeld s _
@[simp] theorem State.setCnt_mem (s : State) (k : Nat) (v : DWord) : (s.setCnt k v).mem = s.mem := by unfold State.setCnt; split <;> first | exact State.upd_uwide_mem s _ | exact State.upd_wide_mem s _
@[simp] theorem State.setCnt_mram (s : State) (k : Nat) (v : DWord) : (s.setCnt k v).mram = s.mram := by unfold State.setCnt; split <;> first | exact State.upd_uwide_mram s _ | exact State.upd_wide_mram s _
@[simp] theorem State.setCnt_now (s : State) (k : Nat) (v : DWord) : (s.setCnt k v).now = s.now := by unfold State.setCnt; split <;> first | exact State.upd_uwide_now s _ | exact State.upd_wide_now s _
@[simp] theorem State.setCnt_sys (s : State) (k : Nat) (v : DWord) : (s.setCnt k v).sys = s.sys := by unfold State.setCnt; split <;> first | exact State.upd_uwide_sys s _ | exact State.upd_wide_sys s _
@[simp] theorem State.setCnt_tim (s : State) (k : Nat) (v : DWord) : (s.setCnt k v).tim = s.tim := by unfold State.setCnt; split <;> first | exact State.upd_uwide_tim s _ | exact State.upd_wide_tim s _
@[simp] theorem State.setCnt_ing (s : State) (k : Nat) (v : DWord) : (s.setCnt k v).ing = s.ing := by unfold State.setCnt; split <;> first | exact State.upd_uwide_ing s _ | exact State.upd_wide_ing s _
@[simp] theorem State.setCnt_gld (s : State) (k : Nat) (v : DWord) : (s.setCnt k v).gld = s.gld := by unfold State.setCnt; split <;> first | exact State.upd_uwide_gld s _ | exact State.upd_wide_gld s _
@[simp] theorem State.setCnt_flt (s : State) (k : Nat) (v : DWord) : (s.setCnt k v).flt = s.flt := by unfold State.setCnt; split <;> first | exact State.upd_uwide_flt s _ | exact State.upd_wide_flt s _
@[simp] theorem State.setCnt_osc (s : State) (k : Nat) (v : DWord) : (s.setCnt k v).osc = s.osc := by unfold State.setCnt; split <;> first | exact State.upd_uwide_osc s _ | exact State.upd_wide_osc s _
@[simp] theorem State.setCnt_isl (s : State) (k : Nat) (v : DWord) : (s.setCnt k v).isl = s.isl := by unfold State.setCnt; split <;> first | exact State.upd_uwide_isl s _ | exact State.upd_wide_isl s _
@[simp] theorem State.setCnt_alm (s : State) (k : Nat) (v : DWord) : (s.setCnt k v).alm = s.alm := by unfold State.setCnt; split <;> first | exact State.upd_uwide_alm s _ | exact State.upd_wide_alm s _
@[simp] theorem State.setCnt_cap (s : State) (k : Nat) (v : DWord) : (s.setCnt k v).cap = s.cap := by unfold State.setCnt; split <;> first | exact State.upd_uwide_cap s _ | exact State.upd_wide_cap s _
@[simp] theorem State.setCnt_acc (s : State) (k : Nat) (v : DWord) : (s.setCnt k v).acc = s.acc := by unfold State.setCnt; split <;> first | exact State.upd_uwide_acc s _ | exact State.upd_wide_acc s _
@[simp] theorem State.setCnt_cores (s : State) (k : Nat) (v : DWord) : (s.setCnt k v).cores = s.cores := by unfold State.setCnt; split <;> first | exact State.upd_uwide_cores s _ | exact State.upd_wide_cores s _
@[simp] theorem State.setCnt_net (s : State) (k : Nat) (v : DWord) : (s.setCnt k v).net = s.net := by unfold State.setCnt; split <;> first | exact State.upd_uwide_net s _ | exact State.upd_wide_net s _
@[simp] theorem State.setCnt_rbt (s : State) (k : Nat) (v : DWord) : (s.setCnt k v).rbt = s.rbt := by unfold State.setCnt; split <;> first | exact State.upd_uwide_rbt s _ | exact State.upd_wide_rbt s _
@[simp] theorem State.setCnt_xng (s : State) (k : Nat) (v : DWord) : (s.setCnt k v).xng = s.xng := by unfold State.setCnt; split <;> first | exact State.upd_uwide_xng s _ | exact State.upd_wide_xng s _
@[simp] theorem State.setCnt_ic (s : State) (k : Nat) (v : DWord) : (s.setCnt k v).ic = s.ic := by unfold State.setCnt; split <;> first | exact State.upd_uwide_ic s _ | exact State.upd_wide_ic s _
@[simp] theorem State.setCnt_hst (s : State) (k : Nat) (v : DWord) : (s.setCnt k v).hst = s.hst := by unfold State.setCnt; split <;> first | exact State.upd_uwide_hst s _ | exact State.upd_wide_hst s _
@[simp] theorem State.setCnt_err (s : State) (k : Nat) (v : DWord) : (s.setCnt k v).err = s.err := by unfold State.setCnt; split <;> first | exact State.upd_uwide_err s _ | exact State.upd_wide_err s _
@[simp] theorem State.setCnt_und (s : State) (k : Nat) (v : DWord) : (s.setCnt k v).und = s.und := by unfold State.setCnt; split <;> first | exact State.upd_uwide_und s _ | exact State.upd_wide_und s _
@[simp] theorem State.setCnt_sec (s : State) (k : Nat) (v : DWord) : (s.setCnt k v).sec = s.sec := by unfold State.setCnt; split <;> first | exact State.upd_uwide_sec s _ | exact State.upd_wide_sec s _
@[simp] theorem State.setCnt_free (s : State) (k : Nat) (v : DWord) : (s.setCnt k v).free = s.free := by unfold State.setCnt; split <;> first | exact State.upd_uwide_free s _ | exact State.upd_wide_free s _
@[simp] theorem State.setCnt_out (s : State) (k : Nat) (v : DWord) : (s.setCnt k v).out = s.out := by unfold State.setCnt; split <;> first | exact State.upd_uwide_out s _ | exact State.upd_wide_out s _
@[simp] theorem State.setCnt_pending (s : State) (k : Nat) (v : DWord) : (s.setCnt k v).pending = s.pending := by unfold State.setCnt; split <;> first | exact State.upd_uwide_pending s _ | exact State.upd_wide_pending s _
@[simp] theorem State.bumpBy_regs (s : State) (k n : Nat) : (s.bumpBy k n).regs = s.regs := by unfold State.bumpBy; dsimp only; split <;> exact State.setCnt_regs s k _
@[simp] theorem State.bumpBy_uregs (s : State) (k n : Nat) : (s.bumpBy k n).uregs = s.uregs := by unfold State.bumpBy; dsimp only; split <;> exact State.setCnt_uregs s k _
@[simp] theorem State.bumpBy_bank (s : State) (k n : Nat) : (s.bumpBy k n).bank = s.bank := by unfold State.bumpBy; dsimp only; split <;> exact State.setCnt_bank s k _
@[simp] theorem State.bumpBy_latch (s : State) (k n : Nat) : (s.bumpBy k n).latch = s.latch := by unfold State.bumpBy; dsimp only; split <;> exact State.setCnt_latch s k _
@[simp] theorem State.bumpBy_tbl (s : State) (k n : Nat) : (s.bumpBy k n).tbl = s.tbl := by unfold State.bumpBy; dsimp only; split <;> exact State.setCnt_tbl s k _
@[simp] theorem State.bumpBy_held (s : State) (k n : Nat) : (s.bumpBy k n).held = s.held := by unfold State.bumpBy; dsimp only; split <;> exact State.setCnt_held s k _
@[simp] theorem State.bumpBy_snapHeld (s : State) (k n : Nat) : (s.bumpBy k n).snapHeld = s.snapHeld := by unfold State.bumpBy; dsimp only; split <;> exact State.setCnt_snapHeld s k _
@[simp] theorem State.bumpBy_mem (s : State) (k n : Nat) : (s.bumpBy k n).mem = s.mem := by unfold State.bumpBy; dsimp only; split <;> exact State.setCnt_mem s k _
@[simp] theorem State.bumpBy_mram (s : State) (k n : Nat) : (s.bumpBy k n).mram = s.mram := by unfold State.bumpBy; dsimp only; split <;> exact State.setCnt_mram s k _
@[simp] theorem State.bumpBy_now (s : State) (k n : Nat) : (s.bumpBy k n).now = s.now := by unfold State.bumpBy; dsimp only; split <;> exact State.setCnt_now s k _
@[simp] theorem State.bumpBy_sys (s : State) (k n : Nat) : (s.bumpBy k n).sys = s.sys := by unfold State.bumpBy; dsimp only; split <;> exact State.setCnt_sys s k _
@[simp] theorem State.bumpBy_tim (s : State) (k n : Nat) : (s.bumpBy k n).tim = s.tim := by unfold State.bumpBy; dsimp only; split <;> exact State.setCnt_tim s k _
@[simp] theorem State.bumpBy_ing (s : State) (k n : Nat) : (s.bumpBy k n).ing = s.ing := by unfold State.bumpBy; dsimp only; split <;> exact State.setCnt_ing s k _
@[simp] theorem State.bumpBy_gld (s : State) (k n : Nat) : (s.bumpBy k n).gld = s.gld := by unfold State.bumpBy; dsimp only; split <;> exact State.setCnt_gld s k _
@[simp] theorem State.bumpBy_flt (s : State) (k n : Nat) : (s.bumpBy k n).flt = s.flt := by unfold State.bumpBy; dsimp only; split <;> exact State.setCnt_flt s k _
@[simp] theorem State.bumpBy_osc (s : State) (k n : Nat) : (s.bumpBy k n).osc = s.osc := by unfold State.bumpBy; dsimp only; split <;> exact State.setCnt_osc s k _
@[simp] theorem State.bumpBy_isl (s : State) (k n : Nat) : (s.bumpBy k n).isl = s.isl := by unfold State.bumpBy; dsimp only; split <;> exact State.setCnt_isl s k _
@[simp] theorem State.bumpBy_alm (s : State) (k n : Nat) : (s.bumpBy k n).alm = s.alm := by unfold State.bumpBy; dsimp only; split <;> exact State.setCnt_alm s k _
@[simp] theorem State.bumpBy_cap (s : State) (k n : Nat) : (s.bumpBy k n).cap = s.cap := by unfold State.bumpBy; dsimp only; split <;> exact State.setCnt_cap s k _
@[simp] theorem State.bumpBy_acc (s : State) (k n : Nat) : (s.bumpBy k n).acc = s.acc := by unfold State.bumpBy; dsimp only; split <;> exact State.setCnt_acc s k _
@[simp] theorem State.bumpBy_cores (s : State) (k n : Nat) : (s.bumpBy k n).cores = s.cores := by unfold State.bumpBy; dsimp only; split <;> exact State.setCnt_cores s k _
@[simp] theorem State.bumpBy_net (s : State) (k n : Nat) : (s.bumpBy k n).net = s.net := by unfold State.bumpBy; dsimp only; split <;> exact State.setCnt_net s k _
@[simp] theorem State.bumpBy_rbt (s : State) (k n : Nat) : (s.bumpBy k n).rbt = s.rbt := by unfold State.bumpBy; dsimp only; split <;> exact State.setCnt_rbt s k _
@[simp] theorem State.bumpBy_xng (s : State) (k n : Nat) : (s.bumpBy k n).xng = s.xng := by unfold State.bumpBy; dsimp only; split <;> exact State.setCnt_xng s k _
@[simp] theorem State.bumpBy_ic (s : State) (k n : Nat) : (s.bumpBy k n).ic = s.ic := by unfold State.bumpBy; dsimp only; split <;> exact State.setCnt_ic s k _
@[simp] theorem State.bumpBy_hst (s : State) (k n : Nat) : (s.bumpBy k n).hst = s.hst := by unfold State.bumpBy; dsimp only; split <;> exact State.setCnt_hst s k _
@[simp] theorem State.bumpBy_err (s : State) (k n : Nat) : (s.bumpBy k n).err = s.err := by unfold State.bumpBy; dsimp only; split <;> exact State.setCnt_err s k _
@[simp] theorem State.bumpBy_und (s : State) (k n : Nat) : (s.bumpBy k n).und = s.und := by unfold State.bumpBy; dsimp only; split <;> exact State.setCnt_und s k _
@[simp] theorem State.bumpBy_sec (s : State) (k n : Nat) : (s.bumpBy k n).sec = s.sec := by unfold State.bumpBy; dsimp only; split <;> exact State.setCnt_sec s k _
@[simp] theorem State.bumpBy_free (s : State) (k n : Nat) : (s.bumpBy k n).free = s.free := by unfold State.bumpBy; dsimp only; split <;> exact State.setCnt_free s k _
@[simp] theorem State.bumpBy_out (s : State) (k n : Nat) : (s.bumpBy k n).out = s.out := by unfold State.bumpBy; dsimp only; split <;> exact State.setCnt_out s k _
@[simp] theorem State.bumpBy_pending (s : State) (k n : Nat) : (s.bumpBy k n).pending = s.pending := by unfold State.bumpBy; dsimp only; split <;> exact State.setCnt_pending s k _
@[simp] theorem State.bump_regs (s : State) (k : Nat) : (s.bump k).regs = s.regs := State.bumpBy_regs s k 1
@[simp] theorem State.bump_uregs (s : State) (k : Nat) : (s.bump k).uregs = s.uregs := State.bumpBy_uregs s k 1
@[simp] theorem State.bump_bank (s : State) (k : Nat) : (s.bump k).bank = s.bank := State.bumpBy_bank s k 1
@[simp] theorem State.bump_latch (s : State) (k : Nat) : (s.bump k).latch = s.latch := State.bumpBy_latch s k 1
@[simp] theorem State.bump_tbl (s : State) (k : Nat) : (s.bump k).tbl = s.tbl := State.bumpBy_tbl s k 1
@[simp] theorem State.bump_held (s : State) (k : Nat) : (s.bump k).held = s.held := State.bumpBy_held s k 1
@[simp] theorem State.bump_snapHeld (s : State) (k : Nat) : (s.bump k).snapHeld = s.snapHeld := State.bumpBy_snapHeld s k 1
@[simp] theorem State.bump_mem (s : State) (k : Nat) : (s.bump k).mem = s.mem := State.bumpBy_mem s k 1
@[simp] theorem State.bump_mram (s : State) (k : Nat) : (s.bump k).mram = s.mram := State.bumpBy_mram s k 1
@[simp] theorem State.bump_now (s : State) (k : Nat) : (s.bump k).now = s.now := State.bumpBy_now s k 1
@[simp] theorem State.bump_sys (s : State) (k : Nat) : (s.bump k).sys = s.sys := State.bumpBy_sys s k 1
@[simp] theorem State.bump_tim (s : State) (k : Nat) : (s.bump k).tim = s.tim := State.bumpBy_tim s k 1
@[simp] theorem State.bump_ing (s : State) (k : Nat) : (s.bump k).ing = s.ing := State.bumpBy_ing s k 1
@[simp] theorem State.bump_gld (s : State) (k : Nat) : (s.bump k).gld = s.gld := State.bumpBy_gld s k 1
@[simp] theorem State.bump_flt (s : State) (k : Nat) : (s.bump k).flt = s.flt := State.bumpBy_flt s k 1
@[simp] theorem State.bump_osc (s : State) (k : Nat) : (s.bump k).osc = s.osc := State.bumpBy_osc s k 1
@[simp] theorem State.bump_isl (s : State) (k : Nat) : (s.bump k).isl = s.isl := State.bumpBy_isl s k 1
@[simp] theorem State.bump_alm (s : State) (k : Nat) : (s.bump k).alm = s.alm := State.bumpBy_alm s k 1
@[simp] theorem State.bump_cap (s : State) (k : Nat) : (s.bump k).cap = s.cap := State.bumpBy_cap s k 1
@[simp] theorem State.bump_acc (s : State) (k : Nat) : (s.bump k).acc = s.acc := State.bumpBy_acc s k 1
@[simp] theorem State.bump_cores (s : State) (k : Nat) : (s.bump k).cores = s.cores := State.bumpBy_cores s k 1
@[simp] theorem State.bump_net (s : State) (k : Nat) : (s.bump k).net = s.net := State.bumpBy_net s k 1
@[simp] theorem State.bump_rbt (s : State) (k : Nat) : (s.bump k).rbt = s.rbt := State.bumpBy_rbt s k 1
@[simp] theorem State.bump_xng (s : State) (k : Nat) : (s.bump k).xng = s.xng := State.bumpBy_xng s k 1
@[simp] theorem State.bump_ic (s : State) (k : Nat) : (s.bump k).ic = s.ic := State.bumpBy_ic s k 1
@[simp] theorem State.bump_hst (s : State) (k : Nat) : (s.bump k).hst = s.hst := State.bumpBy_hst s k 1
@[simp] theorem State.bump_err (s : State) (k : Nat) : (s.bump k).err = s.err := State.bumpBy_err s k 1
@[simp] theorem State.bump_und (s : State) (k : Nat) : (s.bump k).und = s.und := State.bumpBy_und s k 1
@[simp] theorem State.bump_sec (s : State) (k : Nat) : (s.bump k).sec = s.sec := State.bumpBy_sec s k 1
@[simp] theorem State.bump_free (s : State) (k : Nat) : (s.bump k).free = s.free := State.bumpBy_free s k 1
@[simp] theorem State.bump_out (s : State) (k : Nat) : (s.bump k).out = s.out := State.bumpBy_out s k 1
@[simp] theorem State.bump_pending (s : State) (k : Nat) : (s.bump k).pending = s.pending := State.bumpBy_pending s k 1
@[simp] theorem State.setTword_regs (s : State) (t i w : Nat) (v : Word) : (s.setTword t i w v).regs = s.regs := State.upd_tbl_regs s _
@[simp] theorem State.setTword_uregs (s : State) (t i w : Nat) (v : Word) : (s.setTword t i w v).uregs = s.uregs := State.upd_tbl_uregs s _
@[simp] theorem State.setTword_bank (s : State) (t i w : Nat) (v : Word) : (s.setTword t i w v).bank = s.bank := State.upd_tbl_bank s _
@[simp] theorem State.setTword_latch (s : State) (t i w : Nat) (v : Word) : (s.setTword t i w v).latch = s.latch := State.upd_tbl_latch s _
@[simp] theorem State.setTword_wide (s : State) (t i w : Nat) (v : Word) : (s.setTword t i w v).wide = s.wide := State.upd_tbl_wide s _
@[simp] theorem State.setTword_uwide (s : State) (t i w : Nat) (v : Word) : (s.setTword t i w v).uwide = s.uwide := State.upd_tbl_uwide s _
@[simp] theorem State.setTword_saturated (s : State) (t i w : Nat) (v : Word) : (s.setTword t i w v).saturated = s.saturated := State.upd_tbl_saturated s _
@[simp] theorem State.setTword_held (s : State) (t i w : Nat) (v : Word) : (s.setTword t i w v).held = s.held := State.upd_tbl_held s _
@[simp] theorem State.setTword_snapHeld (s : State) (t i w : Nat) (v : Word) : (s.setTword t i w v).snapHeld = s.snapHeld := State.upd_tbl_snapHeld s _
@[simp] theorem State.setTword_mem (s : State) (t i w : Nat) (v : Word) : (s.setTword t i w v).mem = s.mem := State.upd_tbl_mem s _
@[simp] theorem State.setTword_mram (s : State) (t i w : Nat) (v : Word) : (s.setTword t i w v).mram = s.mram := State.upd_tbl_mram s _
@[simp] theorem State.setTword_now (s : State) (t i w : Nat) (v : Word) : (s.setTword t i w v).now = s.now := State.upd_tbl_now s _
@[simp] theorem State.setTword_sys (s : State) (t i w : Nat) (v : Word) : (s.setTword t i w v).sys = s.sys := State.upd_tbl_sys s _
@[simp] theorem State.setTword_tim (s : State) (t i w : Nat) (v : Word) : (s.setTword t i w v).tim = s.tim := State.upd_tbl_tim s _
@[simp] theorem State.setTword_ing (s : State) (t i w : Nat) (v : Word) : (s.setTword t i w v).ing = s.ing := State.upd_tbl_ing s _
@[simp] theorem State.setTword_gld (s : State) (t i w : Nat) (v : Word) : (s.setTword t i w v).gld = s.gld := State.upd_tbl_gld s _
@[simp] theorem State.setTword_flt (s : State) (t i w : Nat) (v : Word) : (s.setTword t i w v).flt = s.flt := State.upd_tbl_flt s _
@[simp] theorem State.setTword_osc (s : State) (t i w : Nat) (v : Word) : (s.setTword t i w v).osc = s.osc := State.upd_tbl_osc s _
@[simp] theorem State.setTword_isl (s : State) (t i w : Nat) (v : Word) : (s.setTword t i w v).isl = s.isl := State.upd_tbl_isl s _
@[simp] theorem State.setTword_alm (s : State) (t i w : Nat) (v : Word) : (s.setTword t i w v).alm = s.alm := State.upd_tbl_alm s _
@[simp] theorem State.setTword_cap (s : State) (t i w : Nat) (v : Word) : (s.setTword t i w v).cap = s.cap := State.upd_tbl_cap s _
@[simp] theorem State.setTword_acc (s : State) (t i w : Nat) (v : Word) : (s.setTword t i w v).acc = s.acc := State.upd_tbl_acc s _
@[simp] theorem State.setTword_cores (s : State) (t i w : Nat) (v : Word) : (s.setTword t i w v).cores = s.cores := State.upd_tbl_cores s _
@[simp] theorem State.setTword_net (s : State) (t i w : Nat) (v : Word) : (s.setTword t i w v).net = s.net := State.upd_tbl_net s _
@[simp] theorem State.setTword_rbt (s : State) (t i w : Nat) (v : Word) : (s.setTword t i w v).rbt = s.rbt := State.upd_tbl_rbt s _
@[simp] theorem State.setTword_xng (s : State) (t i w : Nat) (v : Word) : (s.setTword t i w v).xng = s.xng := State.upd_tbl_xng s _
@[simp] theorem State.setTword_ic (s : State) (t i w : Nat) (v : Word) : (s.setTword t i w v).ic = s.ic := State.upd_tbl_ic s _
@[simp] theorem State.setTword_hst (s : State) (t i w : Nat) (v : Word) : (s.setTword t i w v).hst = s.hst := State.upd_tbl_hst s _
@[simp] theorem State.setTword_err (s : State) (t i w : Nat) (v : Word) : (s.setTword t i w v).err = s.err := State.upd_tbl_err s _
@[simp] theorem State.setTword_und (s : State) (t i w : Nat) (v : Word) : (s.setTword t i w v).und = s.und := State.upd_tbl_und s _
@[simp] theorem State.setTword_sec (s : State) (t i w : Nat) (v : Word) : (s.setTword t i w v).sec = s.sec := State.upd_tbl_sec s _
@[simp] theorem State.setTword_free (s : State) (t i w : Nat) (v : Word) : (s.setTword t i w v).free = s.free := State.upd_tbl_free s _
@[simp] theorem State.setTword_out (s : State) (t i w : Nat) (v : Word) : (s.setTword t i w v).out = s.out := State.upd_tbl_out s _
@[simp] theorem State.setTword_pending (s : State) (t i w : Nat) (v : Word) : (s.setTword t i w v).pending = s.pending := State.upd_tbl_pending s _
@[simp] theorem State.setTf_regs (s : State) (f : TF) (i v : Nat) : (s.setTf f i v).regs = s.regs := State.setTword_regs s _ _ _ _
@[simp] theorem State.setTf_uregs (s : State) (f : TF) (i v : Nat) : (s.setTf f i v).uregs = s.uregs := State.setTword_uregs s _ _ _ _
@[simp] theorem State.setTf_bank (s : State) (f : TF) (i v : Nat) : (s.setTf f i v).bank = s.bank := State.setTword_bank s _ _ _ _
@[simp] theorem State.setTf_latch (s : State) (f : TF) (i v : Nat) : (s.setTf f i v).latch = s.latch := State.setTword_latch s _ _ _ _
@[simp] theorem State.setTf_wide (s : State) (f : TF) (i v : Nat) : (s.setTf f i v).wide = s.wide := State.setTword_wide s _ _ _ _
@[simp] theorem State.setTf_uwide (s : State) (f : TF) (i v : Nat) : (s.setTf f i v).uwide = s.uwide := State.setTword_uwide s _ _ _ _
@[simp] theorem State.setTf_saturated (s : State) (f : TF) (i v : Nat) : (s.setTf f i v).saturated = s.saturated := State.setTword_saturated s _ _ _ _
@[simp] theorem State.setTf_held (s : State) (f : TF) (i v : Nat) : (s.setTf f i v).held = s.held := State.setTword_held s _ _ _ _
@[simp] theorem State.setTf_snapHeld (s : State) (f : TF) (i v : Nat) : (s.setTf f i v).snapHeld = s.snapHeld := State.setTword_snapHeld s _ _ _ _
@[simp] theorem State.setTf_mem (s : State) (f : TF) (i v : Nat) : (s.setTf f i v).mem = s.mem := State.setTword_mem s _ _ _ _
@[simp] theorem State.setTf_mram (s : State) (f : TF) (i v : Nat) : (s.setTf f i v).mram = s.mram := State.setTword_mram s _ _ _ _
@[simp] theorem State.setTf_now (s : State) (f : TF) (i v : Nat) : (s.setTf f i v).now = s.now := State.setTword_now s _ _ _ _
@[simp] theorem State.setTf_sys (s : State) (f : TF) (i v : Nat) : (s.setTf f i v).sys = s.sys := State.setTword_sys s _ _ _ _
@[simp] theorem State.setTf_tim (s : State) (f : TF) (i v : Nat) : (s.setTf f i v).tim = s.tim := State.setTword_tim s _ _ _ _
@[simp] theorem State.setTf_ing (s : State) (f : TF) (i v : Nat) : (s.setTf f i v).ing = s.ing := State.setTword_ing s _ _ _ _
@[simp] theorem State.setTf_gld (s : State) (f : TF) (i v : Nat) : (s.setTf f i v).gld = s.gld := State.setTword_gld s _ _ _ _
@[simp] theorem State.setTf_flt (s : State) (f : TF) (i v : Nat) : (s.setTf f i v).flt = s.flt := State.setTword_flt s _ _ _ _
@[simp] theorem State.setTf_osc (s : State) (f : TF) (i v : Nat) : (s.setTf f i v).osc = s.osc := State.setTword_osc s _ _ _ _
@[simp] theorem State.setTf_isl (s : State) (f : TF) (i v : Nat) : (s.setTf f i v).isl = s.isl := State.setTword_isl s _ _ _ _
@[simp] theorem State.setTf_alm (s : State) (f : TF) (i v : Nat) : (s.setTf f i v).alm = s.alm := State.setTword_alm s _ _ _ _
@[simp] theorem State.setTf_cap (s : State) (f : TF) (i v : Nat) : (s.setTf f i v).cap = s.cap := State.setTword_cap s _ _ _ _
@[simp] theorem State.setTf_acc (s : State) (f : TF) (i v : Nat) : (s.setTf f i v).acc = s.acc := State.setTword_acc s _ _ _ _
@[simp] theorem State.setTf_cores (s : State) (f : TF) (i v : Nat) : (s.setTf f i v).cores = s.cores := State.setTword_cores s _ _ _ _
@[simp] theorem State.setTf_net (s : State) (f : TF) (i v : Nat) : (s.setTf f i v).net = s.net := State.setTword_net s _ _ _ _
@[simp] theorem State.setTf_rbt (s : State) (f : TF) (i v : Nat) : (s.setTf f i v).rbt = s.rbt := State.setTword_rbt s _ _ _ _
@[simp] theorem State.setTf_xng (s : State) (f : TF) (i v : Nat) : (s.setTf f i v).xng = s.xng := State.setTword_xng s _ _ _ _
@[simp] theorem State.setTf_ic (s : State) (f : TF) (i v : Nat) : (s.setTf f i v).ic = s.ic := State.setTword_ic s _ _ _ _
@[simp] theorem State.setTf_hst (s : State) (f : TF) (i v : Nat) : (s.setTf f i v).hst = s.hst := State.setTword_hst s _ _ _ _
@[simp] theorem State.setTf_err (s : State) (f : TF) (i v : Nat) : (s.setTf f i v).err = s.err := State.setTword_err s _ _ _ _
@[simp] theorem State.setTf_und (s : State) (f : TF) (i v : Nat) : (s.setTf f i v).und = s.und := State.setTword_und s _ _ _ _
@[simp] theorem State.setTf_sec (s : State) (f : TF) (i v : Nat) : (s.setTf f i v).sec = s.sec := State.setTword_sec s _ _ _ _
@[simp] theorem State.setTf_free (s : State) (f : TF) (i v : Nat) : (s.setTf f i v).free = s.free := State.setTword_free s _ _ _ _
@[simp] theorem State.setTf_out (s : State) (f : TF) (i v : Nat) : (s.setTf f i v).out = s.out := State.setTword_out s _ _ _ _
@[simp] theorem State.setTf_pending (s : State) (f : TF) (i v : Nat) : (s.setTf f i v).pending = s.pending := State.setTword_pending s _ _ _ _
@[simp] theorem State.setCore_regs (s : State) (c : Nat) (k : Core) : (s.setCore c k).regs = s.regs := State.upd_cores_regs s _
@[simp] theorem State.setCore_uregs (s : State) (c : Nat) (k : Core) : (s.setCore c k).uregs = s.uregs := State.upd_cores_uregs s _
@[simp] theorem State.setCore_bank (s : State) (c : Nat) (k : Core) : (s.setCore c k).bank = s.bank := State.upd_cores_bank s _
@[simp] theorem State.setCore_latch (s : State) (c : Nat) (k : Core) : (s.setCore c k).latch = s.latch := State.upd_cores_latch s _
@[simp] theorem State.setCore_wide (s : State) (c : Nat) (k : Core) : (s.setCore c k).wide = s.wide := State.upd_cores_wide s _
@[simp] theorem State.setCore_uwide (s : State) (c : Nat) (k : Core) : (s.setCore c k).uwide = s.uwide := State.upd_cores_uwide s _
@[simp] theorem State.setCore_tbl (s : State) (c : Nat) (k : Core) : (s.setCore c k).tbl = s.tbl := State.upd_cores_tbl s _
@[simp] theorem State.setCore_saturated (s : State) (c : Nat) (k : Core) : (s.setCore c k).saturated = s.saturated := State.upd_cores_saturated s _
@[simp] theorem State.setCore_held (s : State) (c : Nat) (k : Core) : (s.setCore c k).held = s.held := State.upd_cores_held s _
@[simp] theorem State.setCore_snapHeld (s : State) (c : Nat) (k : Core) : (s.setCore c k).snapHeld = s.snapHeld := State.upd_cores_snapHeld s _
@[simp] theorem State.setCore_mem (s : State) (c : Nat) (k : Core) : (s.setCore c k).mem = s.mem := State.upd_cores_mem s _
@[simp] theorem State.setCore_mram (s : State) (c : Nat) (k : Core) : (s.setCore c k).mram = s.mram := State.upd_cores_mram s _
@[simp] theorem State.setCore_now (s : State) (c : Nat) (k : Core) : (s.setCore c k).now = s.now := State.upd_cores_now s _
@[simp] theorem State.setCore_sys (s : State) (c : Nat) (k : Core) : (s.setCore c k).sys = s.sys := State.upd_cores_sys s _
@[simp] theorem State.setCore_tim (s : State) (c : Nat) (k : Core) : (s.setCore c k).tim = s.tim := State.upd_cores_tim s _
@[simp] theorem State.setCore_ing (s : State) (c : Nat) (k : Core) : (s.setCore c k).ing = s.ing := State.upd_cores_ing s _
@[simp] theorem State.setCore_gld (s : State) (c : Nat) (k : Core) : (s.setCore c k).gld = s.gld := State.upd_cores_gld s _
@[simp] theorem State.setCore_flt (s : State) (c : Nat) (k : Core) : (s.setCore c k).flt = s.flt := State.upd_cores_flt s _
@[simp] theorem State.setCore_osc (s : State) (c : Nat) (k : Core) : (s.setCore c k).osc = s.osc := State.upd_cores_osc s _
@[simp] theorem State.setCore_isl (s : State) (c : Nat) (k : Core) : (s.setCore c k).isl = s.isl := State.upd_cores_isl s _
@[simp] theorem State.setCore_alm (s : State) (c : Nat) (k : Core) : (s.setCore c k).alm = s.alm := State.upd_cores_alm s _
@[simp] theorem State.setCore_cap (s : State) (c : Nat) (k : Core) : (s.setCore c k).cap = s.cap := State.upd_cores_cap s _
@[simp] theorem State.setCore_acc (s : State) (c : Nat) (k : Core) : (s.setCore c k).acc = s.acc := State.upd_cores_acc s _
@[simp] theorem State.setCore_net (s : State) (c : Nat) (k : Core) : (s.setCore c k).net = s.net := State.upd_cores_net s _
@[simp] theorem State.setCore_rbt (s : State) (c : Nat) (k : Core) : (s.setCore c k).rbt = s.rbt := State.upd_cores_rbt s _
@[simp] theorem State.setCore_xng (s : State) (c : Nat) (k : Core) : (s.setCore c k).xng = s.xng := State.upd_cores_xng s _
@[simp] theorem State.setCore_ic (s : State) (c : Nat) (k : Core) : (s.setCore c k).ic = s.ic := State.upd_cores_ic s _
@[simp] theorem State.setCore_hst (s : State) (c : Nat) (k : Core) : (s.setCore c k).hst = s.hst := State.upd_cores_hst s _
@[simp] theorem State.setCore_err (s : State) (c : Nat) (k : Core) : (s.setCore c k).err = s.err := State.upd_cores_err s _
@[simp] theorem State.setCore_und (s : State) (c : Nat) (k : Core) : (s.setCore c k).und = s.und := State.upd_cores_und s _
@[simp] theorem State.setCore_sec (s : State) (c : Nat) (k : Core) : (s.setCore c k).sec = s.sec := State.upd_cores_sec s _
@[simp] theorem State.setCore_free (s : State) (c : Nat) (k : Core) : (s.setCore c k).free = s.free := State.upd_cores_free s _
@[simp] theorem State.setCore_out (s : State) (c : Nat) (k : Core) : (s.setCore c k).out = s.out := State.upd_cores_out s _
@[simp] theorem State.setCore_pending (s : State) (c : Nat) (k : Core) : (s.setCore c k).pending = s.pending := State.upd_cores_pending s _
@[simp] theorem State.emit_regs (s : State) (o : Output) : (s.emit o).regs = s.regs := State.upd_out_regs s _
@[simp] theorem State.emit_uregs (s : State) (o : Output) : (s.emit o).uregs = s.uregs := State.upd_out_uregs s _
@[simp] theorem State.emit_bank (s : State) (o : Output) : (s.emit o).bank = s.bank := State.upd_out_bank s _
@[simp] theorem State.emit_latch (s : State) (o : Output) : (s.emit o).latch = s.latch := State.upd_out_latch s _
@[simp] theorem State.emit_wide (s : State) (o : Output) : (s.emit o).wide = s.wide := State.upd_out_wide s _
@[simp] theorem State.emit_uwide (s : State) (o : Output) : (s.emit o).uwide = s.uwide := State.upd_out_uwide s _
@[simp] theorem State.emit_tbl (s : State) (o : Output) : (s.emit o).tbl = s.tbl := State.upd_out_tbl s _
@[simp] theorem State.emit_saturated (s : State) (o : Output) : (s.emit o).saturated = s.saturated := State.upd_out_saturated s _
@[simp] theorem State.emit_held (s : State) (o : Output) : (s.emit o).held = s.held := State.upd_out_held s _
@[simp] theorem State.emit_snapHeld (s : State) (o : Output) : (s.emit o).snapHeld = s.snapHeld := State.upd_out_snapHeld s _
@[simp] theorem State.emit_mem (s : State) (o : Output) : (s.emit o).mem = s.mem := State.upd_out_mem s _
@[simp] theorem State.emit_mram (s : State) (o : Output) : (s.emit o).mram = s.mram := State.upd_out_mram s _
@[simp] theorem State.emit_now (s : State) (o : Output) : (s.emit o).now = s.now := State.upd_out_now s _
@[simp] theorem State.emit_sys (s : State) (o : Output) : (s.emit o).sys = s.sys := State.upd_out_sys s _
@[simp] theorem State.emit_tim (s : State) (o : Output) : (s.emit o).tim = s.tim := State.upd_out_tim s _
@[simp] theorem State.emit_ing (s : State) (o : Output) : (s.emit o).ing = s.ing := State.upd_out_ing s _
@[simp] theorem State.emit_gld (s : State) (o : Output) : (s.emit o).gld = s.gld := State.upd_out_gld s _
@[simp] theorem State.emit_flt (s : State) (o : Output) : (s.emit o).flt = s.flt := State.upd_out_flt s _
@[simp] theorem State.emit_osc (s : State) (o : Output) : (s.emit o).osc = s.osc := State.upd_out_osc s _
@[simp] theorem State.emit_isl (s : State) (o : Output) : (s.emit o).isl = s.isl := State.upd_out_isl s _
@[simp] theorem State.emit_alm (s : State) (o : Output) : (s.emit o).alm = s.alm := State.upd_out_alm s _
@[simp] theorem State.emit_cap (s : State) (o : Output) : (s.emit o).cap = s.cap := State.upd_out_cap s _
@[simp] theorem State.emit_acc (s : State) (o : Output) : (s.emit o).acc = s.acc := State.upd_out_acc s _
@[simp] theorem State.emit_cores (s : State) (o : Output) : (s.emit o).cores = s.cores := State.upd_out_cores s _
@[simp] theorem State.emit_net (s : State) (o : Output) : (s.emit o).net = s.net := State.upd_out_net s _
@[simp] theorem State.emit_rbt (s : State) (o : Output) : (s.emit o).rbt = s.rbt := State.upd_out_rbt s _
@[simp] theorem State.emit_xng (s : State) (o : Output) : (s.emit o).xng = s.xng := State.upd_out_xng s _
@[simp] theorem State.emit_ic (s : State) (o : Output) : (s.emit o).ic = s.ic := State.upd_out_ic s _
@[simp] theorem State.emit_hst (s : State) (o : Output) : (s.emit o).hst = s.hst := State.upd_out_hst s _
@[simp] theorem State.emit_err (s : State) (o : Output) : (s.emit o).err = s.err := State.upd_out_err s _
@[simp] theorem State.emit_und (s : State) (o : Output) : (s.emit o).und = s.und := State.upd_out_und s _
@[simp] theorem State.emit_sec (s : State) (o : Output) : (s.emit o).sec = s.sec := State.upd_out_sec s _
@[simp] theorem State.emit_free (s : State) (o : Output) : (s.emit o).free = s.free := State.upd_out_free s _
@[simp] theorem State.emit_pending (s : State) (o : Output) : (s.emit o).pending = s.pending := State.upd_out_pending s _
@[simp] theorem State.useFree_regs (s : State) : (s.useFree).regs = s.regs := State.upd_free_regs s _
@[simp] theorem State.useFree_uregs (s : State) : (s.useFree).uregs = s.uregs := State.upd_free_uregs s _
@[simp] theorem State.useFree_bank (s : State) : (s.useFree).bank = s.bank := State.upd_free_bank s _
@[simp] theorem State.useFree_latch (s : State) : (s.useFree).latch = s.latch := State.upd_free_latch s _
@[simp] theorem State.useFree_wide (s : State) : (s.useFree).wide = s.wide := State.upd_free_wide s _
@[simp] theorem State.useFree_uwide (s : State) : (s.useFree).uwide = s.uwide := State.upd_free_uwide s _
@[simp] theorem State.useFree_tbl (s : State) : (s.useFree).tbl = s.tbl := State.upd_free_tbl s _
@[simp] theorem State.useFree_saturated (s : State) : (s.useFree).saturated = s.saturated := State.upd_free_saturated s _
@[simp] theorem State.useFree_held (s : State) : (s.useFree).held = s.held := State.upd_free_held s _
@[simp] theorem State.useFree_snapHeld (s : State) : (s.useFree).snapHeld = s.snapHeld := State.upd_free_snapHeld s _
@[simp] theorem State.useFree_mem (s : State) : (s.useFree).mem = s.mem := State.upd_free_mem s _
@[simp] theorem State.useFree_mram (s : State) : (s.useFree).mram = s.mram := State.upd_free_mram s _
@[simp] theorem State.useFree_now (s : State) : (s.useFree).now = s.now := State.upd_free_now s _
@[simp] theorem State.useFree_sys (s : State) : (s.useFree).sys = s.sys := State.upd_free_sys s _
@[simp] theorem State.useFree_tim (s : State) : (s.useFree).tim = s.tim := State.upd_free_tim s _
@[simp] theorem State.useFree_ing (s : State) : (s.useFree).ing = s.ing := State.upd_free_ing s _
@[simp] theorem State.useFree_gld (s : State) : (s.useFree).gld = s.gld := State.upd_free_gld s _
@[simp] theorem State.useFree_flt (s : State) : (s.useFree).flt = s.flt := State.upd_free_flt s _
@[simp] theorem State.useFree_osc (s : State) : (s.useFree).osc = s.osc := State.upd_free_osc s _
@[simp] theorem State.useFree_isl (s : State) : (s.useFree).isl = s.isl := State.upd_free_isl s _
@[simp] theorem State.useFree_alm (s : State) : (s.useFree).alm = s.alm := State.upd_free_alm s _
@[simp] theorem State.useFree_cap (s : State) : (s.useFree).cap = s.cap := State.upd_free_cap s _
@[simp] theorem State.useFree_acc (s : State) : (s.useFree).acc = s.acc := State.upd_free_acc s _
@[simp] theorem State.useFree_cores (s : State) : (s.useFree).cores = s.cores := State.upd_free_cores s _
@[simp] theorem State.useFree_net (s : State) : (s.useFree).net = s.net := State.upd_free_net s _
@[simp] theorem State.useFree_rbt (s : State) : (s.useFree).rbt = s.rbt := State.upd_free_rbt s _
@[simp] theorem State.useFree_xng (s : State) : (s.useFree).xng = s.xng := State.upd_free_xng s _
@[simp] theorem State.useFree_ic (s : State) : (s.useFree).ic = s.ic := State.upd_free_ic s _
@[simp] theorem State.useFree_hst (s : State) : (s.useFree).hst = s.hst := State.upd_free_hst s _
@[simp] theorem State.useFree_err (s : State) : (s.useFree).err = s.err := State.upd_free_err s _
@[simp] theorem State.useFree_und (s : State) : (s.useFree).und = s.und := State.upd_free_und s _
@[simp] theorem State.useFree_sec (s : State) : (s.useFree).sec = s.sec := State.upd_free_sec s _
@[simp] theorem State.useFree_out (s : State) : (s.useFree).out = s.out := State.upd_free_out s _
@[simp] theorem State.useFree_pending (s : State) : (s.useFree).pending = s.pending := State.upd_free_pending s _
@[simp] theorem State.detect_regs (s : State) (code wh req : Nat) : (s.detect code wh req).regs = s.regs := State.upd_err_regs s _
@[simp] theorem State.detect_uregs (s : State) (code wh req : Nat) : (s.detect code wh req).uregs = s.uregs := State.upd_err_uregs s _
@[simp] theorem State.detect_bank (s : State) (code wh req : Nat) : (s.detect code wh req).bank = s.bank := State.upd_err_bank s _
@[simp] theorem State.detect_latch (s : State) (code wh req : Nat) : (s.detect code wh req).latch = s.latch := State.upd_err_latch s _
@[simp] theorem State.detect_wide (s : State) (code wh req : Nat) : (s.detect code wh req).wide = s.wide := State.upd_err_wide s _
@[simp] theorem State.detect_uwide (s : State) (code wh req : Nat) : (s.detect code wh req).uwide = s.uwide := State.upd_err_uwide s _
@[simp] theorem State.detect_tbl (s : State) (code wh req : Nat) : (s.detect code wh req).tbl = s.tbl := State.upd_err_tbl s _
@[simp] theorem State.detect_saturated (s : State) (code wh req : Nat) : (s.detect code wh req).saturated = s.saturated := State.upd_err_saturated s _
@[simp] theorem State.detect_held (s : State) (code wh req : Nat) : (s.detect code wh req).held = s.held := State.upd_err_held s _
@[simp] theorem State.detect_snapHeld (s : State) (code wh req : Nat) : (s.detect code wh req).snapHeld = s.snapHeld := State.upd_err_snapHeld s _
@[simp] theorem State.detect_mem (s : State) (code wh req : Nat) : (s.detect code wh req).mem = s.mem := State.upd_err_mem s _
@[simp] theorem State.detect_mram (s : State) (code wh req : Nat) : (s.detect code wh req).mram = s.mram := State.upd_err_mram s _
@[simp] theorem State.detect_now (s : State) (code wh req : Nat) : (s.detect code wh req).now = s.now := State.upd_err_now s _
@[simp] theorem State.detect_sys (s : State) (code wh req : Nat) : (s.detect code wh req).sys = s.sys := State.upd_err_sys s _
@[simp] theorem State.detect_tim (s : State) (code wh req : Nat) : (s.detect code wh req).tim = s.tim := State.upd_err_tim s _
@[simp] theorem State.detect_ing (s : State) (code wh req : Nat) : (s.detect code wh req).ing = s.ing := State.upd_err_ing s _
@[simp] theorem State.detect_gld (s : State) (code wh req : Nat) : (s.detect code wh req).gld = s.gld := State.upd_err_gld s _
@[simp] theorem State.detect_flt (s : State) (code wh req : Nat) : (s.detect code wh req).flt = s.flt := State.upd_err_flt s _
@[simp] theorem State.detect_osc (s : State) (code wh req : Nat) : (s.detect code wh req).osc = s.osc := State.upd_err_osc s _
@[simp] theorem State.detect_isl (s : State) (code wh req : Nat) : (s.detect code wh req).isl = s.isl := State.upd_err_isl s _
@[simp] theorem State.detect_alm (s : State) (code wh req : Nat) : (s.detect code wh req).alm = s.alm := State.upd_err_alm s _
@[simp] theorem State.detect_cap (s : State) (code wh req : Nat) : (s.detect code wh req).cap = s.cap := State.upd_err_cap s _
@[simp] theorem State.detect_acc (s : State) (code wh req : Nat) : (s.detect code wh req).acc = s.acc := State.upd_err_acc s _
@[simp] theorem State.detect_cores (s : State) (code wh req : Nat) : (s.detect code wh req).cores = s.cores := State.upd_err_cores s _
@[simp] theorem State.detect_net (s : State) (code wh req : Nat) : (s.detect code wh req).net = s.net := State.upd_err_net s _
@[simp] theorem State.detect_rbt (s : State) (code wh req : Nat) : (s.detect code wh req).rbt = s.rbt := State.upd_err_rbt s _
@[simp] theorem State.detect_xng (s : State) (code wh req : Nat) : (s.detect code wh req).xng = s.xng := State.upd_err_xng s _
@[simp] theorem State.detect_ic (s : State) (code wh req : Nat) : (s.detect code wh req).ic = s.ic := State.upd_err_ic s _
@[simp] theorem State.detect_hst (s : State) (code wh req : Nat) : (s.detect code wh req).hst = s.hst := State.upd_err_hst s _
@[simp] theorem State.detect_und (s : State) (code wh req : Nat) : (s.detect code wh req).und = s.und := State.upd_err_und s _
@[simp] theorem State.detect_sec (s : State) (code wh req : Nat) : (s.detect code wh req).sec = s.sec := State.upd_err_sec s _
@[simp] theorem State.detect_free (s : State) (code wh req : Nat) : (s.detect code wh req).free = s.free := State.upd_err_free s _
@[simp] theorem State.detect_out (s : State) (code wh req : Nat) : (s.detect code wh req).out = s.out := State.upd_err_out s _
@[simp] theorem State.detect_pending (s : State) (code wh req : Nat) : (s.detect code wh req).pending = s.pending := State.upd_err_pending s _
@[simp] theorem State.wrByte_regs (s : State) (a : Nat) (b : Byte) : (s.wrByte a b).regs = s.regs := State.upd_mem_regs s _
@[simp] theorem State.wrByte_uregs (s : State) (a : Nat) (b : Byte) : (s.wrByte a b).uregs = s.uregs := State.upd_mem_uregs s _
@[simp] theorem State.wrByte_bank (s : State) (a : Nat) (b : Byte) : (s.wrByte a b).bank = s.bank := State.upd_mem_bank s _
@[simp] theorem State.wrByte_latch (s : State) (a : Nat) (b : Byte) : (s.wrByte a b).latch = s.latch := State.upd_mem_latch s _
@[simp] theorem State.wrByte_wide (s : State) (a : Nat) (b : Byte) : (s.wrByte a b).wide = s.wide := State.upd_mem_wide s _
@[simp] theorem State.wrByte_uwide (s : State) (a : Nat) (b : Byte) : (s.wrByte a b).uwide = s.uwide := State.upd_mem_uwide s _
@[simp] theorem State.wrByte_tbl (s : State) (a : Nat) (b : Byte) : (s.wrByte a b).tbl = s.tbl := State.upd_mem_tbl s _
@[simp] theorem State.wrByte_saturated (s : State) (a : Nat) (b : Byte) : (s.wrByte a b).saturated = s.saturated := State.upd_mem_saturated s _
@[simp] theorem State.wrByte_held (s : State) (a : Nat) (b : Byte) : (s.wrByte a b).held = s.held := State.upd_mem_held s _
@[simp] theorem State.wrByte_snapHeld (s : State) (a : Nat) (b : Byte) : (s.wrByte a b).snapHeld = s.snapHeld := State.upd_mem_snapHeld s _
@[simp] theorem State.wrByte_mram (s : State) (a : Nat) (b : Byte) : (s.wrByte a b).mram = s.mram := State.upd_mem_mram s _
@[simp] theorem State.wrByte_now (s : State) (a : Nat) (b : Byte) : (s.wrByte a b).now = s.now := State.upd_mem_now s _
@[simp] theorem State.wrByte_sys (s : State) (a : Nat) (b : Byte) : (s.wrByte a b).sys = s.sys := State.upd_mem_sys s _
@[simp] theorem State.wrByte_tim (s : State) (a : Nat) (b : Byte) : (s.wrByte a b).tim = s.tim := State.upd_mem_tim s _
@[simp] theorem State.wrByte_ing (s : State) (a : Nat) (b : Byte) : (s.wrByte a b).ing = s.ing := State.upd_mem_ing s _
@[simp] theorem State.wrByte_gld (s : State) (a : Nat) (b : Byte) : (s.wrByte a b).gld = s.gld := State.upd_mem_gld s _
@[simp] theorem State.wrByte_flt (s : State) (a : Nat) (b : Byte) : (s.wrByte a b).flt = s.flt := State.upd_mem_flt s _
@[simp] theorem State.wrByte_osc (s : State) (a : Nat) (b : Byte) : (s.wrByte a b).osc = s.osc := State.upd_mem_osc s _
@[simp] theorem State.wrByte_isl (s : State) (a : Nat) (b : Byte) : (s.wrByte a b).isl = s.isl := State.upd_mem_isl s _
@[simp] theorem State.wrByte_alm (s : State) (a : Nat) (b : Byte) : (s.wrByte a b).alm = s.alm := State.upd_mem_alm s _
@[simp] theorem State.wrByte_cap (s : State) (a : Nat) (b : Byte) : (s.wrByte a b).cap = s.cap := State.upd_mem_cap s _
@[simp] theorem State.wrByte_acc (s : State) (a : Nat) (b : Byte) : (s.wrByte a b).acc = s.acc := State.upd_mem_acc s _
@[simp] theorem State.wrByte_cores (s : State) (a : Nat) (b : Byte) : (s.wrByte a b).cores = s.cores := State.upd_mem_cores s _
@[simp] theorem State.wrByte_net (s : State) (a : Nat) (b : Byte) : (s.wrByte a b).net = s.net := State.upd_mem_net s _
@[simp] theorem State.wrByte_rbt (s : State) (a : Nat) (b : Byte) : (s.wrByte a b).rbt = s.rbt := State.upd_mem_rbt s _
@[simp] theorem State.wrByte_xng (s : State) (a : Nat) (b : Byte) : (s.wrByte a b).xng = s.xng := State.upd_mem_xng s _
@[simp] theorem State.wrByte_ic (s : State) (a : Nat) (b : Byte) : (s.wrByte a b).ic = s.ic := State.upd_mem_ic s _
@[simp] theorem State.wrByte_hst (s : State) (a : Nat) (b : Byte) : (s.wrByte a b).hst = s.hst := State.upd_mem_hst s _
@[simp] theorem State.wrByte_err (s : State) (a : Nat) (b : Byte) : (s.wrByte a b).err = s.err := State.upd_mem_err s _
@[simp] theorem State.wrByte_und (s : State) (a : Nat) (b : Byte) : (s.wrByte a b).und = s.und := State.upd_mem_und s _
@[simp] theorem State.wrByte_sec (s : State) (a : Nat) (b : Byte) : (s.wrByte a b).sec = s.sec := State.upd_mem_sec s _
@[simp] theorem State.wrByte_free (s : State) (a : Nat) (b : Byte) : (s.wrByte a b).free = s.free := State.upd_mem_free s _
@[simp] theorem State.wrByte_out (s : State) (a : Nat) (b : Byte) : (s.wrByte a b).out = s.out := State.upd_mem_out s _
@[simp] theorem State.wrByte_pending (s : State) (a : Nat) (b : Byte) : (s.wrByte a b).pending = s.pending := State.upd_mem_pending s _
@[simp] theorem State.putBytes_regs (s : State) (a : Nat) (l : List Byte) : (s.putBytes a l).regs = s.regs := State.upd_mem_regs s _
@[simp] theorem State.putBytes_uregs (s : State) (a : Nat) (l : List Byte) : (s.putBytes a l).uregs = s.uregs := State.upd_mem_uregs s _
@[simp] theorem State.putBytes_bank (s : State) (a : Nat) (l : List Byte) : (s.putBytes a l).bank = s.bank := State.upd_mem_bank s _
@[simp] theorem State.putBytes_latch (s : State) (a : Nat) (l : List Byte) : (s.putBytes a l).latch = s.latch := State.upd_mem_latch s _
@[simp] theorem State.putBytes_wide (s : State) (a : Nat) (l : List Byte) : (s.putBytes a l).wide = s.wide := State.upd_mem_wide s _
@[simp] theorem State.putBytes_uwide (s : State) (a : Nat) (l : List Byte) : (s.putBytes a l).uwide = s.uwide := State.upd_mem_uwide s _
@[simp] theorem State.putBytes_tbl (s : State) (a : Nat) (l : List Byte) : (s.putBytes a l).tbl = s.tbl := State.upd_mem_tbl s _
@[simp] theorem State.putBytes_saturated (s : State) (a : Nat) (l : List Byte) : (s.putBytes a l).saturated = s.saturated := State.upd_mem_saturated s _
@[simp] theorem State.putBytes_held (s : State) (a : Nat) (l : List Byte) : (s.putBytes a l).held = s.held := State.upd_mem_held s _
@[simp] theorem State.putBytes_snapHeld (s : State) (a : Nat) (l : List Byte) : (s.putBytes a l).snapHeld = s.snapHeld := State.upd_mem_snapHeld s _
@[simp] theorem State.putBytes_mram (s : State) (a : Nat) (l : List Byte) : (s.putBytes a l).mram = s.mram := State.upd_mem_mram s _
@[simp] theorem State.putBytes_now (s : State) (a : Nat) (l : List Byte) : (s.putBytes a l).now = s.now := State.upd_mem_now s _
@[simp] theorem State.putBytes_sys (s : State) (a : Nat) (l : List Byte) : (s.putBytes a l).sys = s.sys := State.upd_mem_sys s _
@[simp] theorem State.putBytes_tim (s : State) (a : Nat) (l : List Byte) : (s.putBytes a l).tim = s.tim := State.upd_mem_tim s _
@[simp] theorem State.putBytes_ing (s : State) (a : Nat) (l : List Byte) : (s.putBytes a l).ing = s.ing := State.upd_mem_ing s _
@[simp] theorem State.putBytes_gld (s : State) (a : Nat) (l : List Byte) : (s.putBytes a l).gld = s.gld := State.upd_mem_gld s _
@[simp] theorem State.putBytes_flt (s : State) (a : Nat) (l : List Byte) : (s.putBytes a l).flt = s.flt := State.upd_mem_flt s _
@[simp] theorem State.putBytes_osc (s : State) (a : Nat) (l : List Byte) : (s.putBytes a l).osc = s.osc := State.upd_mem_osc s _
@[simp] theorem State.putBytes_isl (s : State) (a : Nat) (l : List Byte) : (s.putBytes a l).isl = s.isl := State.upd_mem_isl s _
@[simp] theorem State.putBytes_alm (s : State) (a : Nat) (l : List Byte) : (s.putBytes a l).alm = s.alm := State.upd_mem_alm s _
@[simp] theorem State.putBytes_cap (s : State) (a : Nat) (l : List Byte) : (s.putBytes a l).cap = s.cap := State.upd_mem_cap s _
@[simp] theorem State.putBytes_acc (s : State) (a : Nat) (l : List Byte) : (s.putBytes a l).acc = s.acc := State.upd_mem_acc s _
@[simp] theorem State.putBytes_cores (s : State) (a : Nat) (l : List Byte) : (s.putBytes a l).cores = s.cores := State.upd_mem_cores s _
@[simp] theorem State.putBytes_net (s : State) (a : Nat) (l : List Byte) : (s.putBytes a l).net = s.net := State.upd_mem_net s _
@[simp] theorem State.putBytes_rbt (s : State) (a : Nat) (l : List Byte) : (s.putBytes a l).rbt = s.rbt := State.upd_mem_rbt s _
@[simp] theorem State.putBytes_xng (s : State) (a : Nat) (l : List Byte) : (s.putBytes a l).xng = s.xng := State.upd_mem_xng s _
@[simp] theorem State.putBytes_ic (s : State) (a : Nat) (l : List Byte) : (s.putBytes a l).ic = s.ic := State.upd_mem_ic s _
@[simp] theorem State.putBytes_hst (s : State) (a : Nat) (l : List Byte) : (s.putBytes a l).hst = s.hst := State.upd_mem_hst s _
@[simp] theorem State.putBytes_err (s : State) (a : Nat) (l : List Byte) : (s.putBytes a l).err = s.err := State.upd_mem_err s _
@[simp] theorem State.putBytes_und (s : State) (a : Nat) (l : List Byte) : (s.putBytes a l).und = s.und := State.upd_mem_und s _
@[simp] theorem State.putBytes_sec (s : State) (a : Nat) (l : List Byte) : (s.putBytes a l).sec = s.sec := State.upd_mem_sec s _
@[simp] theorem State.putBytes_free (s : State) (a : Nat) (l : List Byte) : (s.putBytes a l).free = s.free := State.upd_mem_free s _
@[simp] theorem State.putBytes_out (s : State) (a : Nat) (l : List Byte) : (s.putBytes a l).out = s.out := State.upd_mem_out s _
@[simp] theorem State.putBytes_pending (s : State) (a : Nat) (l : List Byte) : (s.putBytes a l).pending = s.pending := State.upd_mem_pending s _
@[simp] theorem State.unpoison_regs (s : State) (a n : Nat) : (s.unpoison a n).regs = s.regs := State.upd_err_regs s _
@[simp] theorem State.unpoison_uregs (s : State) (a n : Nat) : (s.unpoison a n).uregs = s.uregs := State.upd_err_uregs s _
@[simp] theorem State.unpoison_bank (s : State) (a n : Nat) : (s.unpoison a n).bank = s.bank := State.upd_err_bank s _
@[simp] theorem State.unpoison_latch (s : State) (a n : Nat) : (s.unpoison a n).latch = s.latch := State.upd_err_latch s _
@[simp] theorem State.unpoison_wide (s : State) (a n : Nat) : (s.unpoison a n).wide = s.wide := State.upd_err_wide s _
@[simp] theorem State.unpoison_uwide (s : State) (a n : Nat) : (s.unpoison a n).uwide = s.uwide := State.upd_err_uwide s _
@[simp] theorem State.unpoison_tbl (s : State) (a n : Nat) : (s.unpoison a n).tbl = s.tbl := State.upd_err_tbl s _
@[simp] theorem State.unpoison_saturated (s : State) (a n : Nat) : (s.unpoison a n).saturated = s.saturated := State.upd_err_saturated s _
@[simp] theorem State.unpoison_held (s : State) (a n : Nat) : (s.unpoison a n).held = s.held := State.upd_err_held s _
@[simp] theorem State.unpoison_snapHeld (s : State) (a n : Nat) : (s.unpoison a n).snapHeld = s.snapHeld := State.upd_err_snapHeld s _
@[simp] theorem State.unpoison_mem (s : State) (a n : Nat) : (s.unpoison a n).mem = s.mem := State.upd_err_mem s _
@[simp] theorem State.unpoison_mram (s : State) (a n : Nat) : (s.unpoison a n).mram = s.mram := State.upd_err_mram s _
@[simp] theorem State.unpoison_now (s : State) (a n : Nat) : (s.unpoison a n).now = s.now := State.upd_err_now s _
@[simp] theorem State.unpoison_sys (s : State) (a n : Nat) : (s.unpoison a n).sys = s.sys := State.upd_err_sys s _
@[simp] theorem State.unpoison_tim (s : State) (a n : Nat) : (s.unpoison a n).tim = s.tim := State.upd_err_tim s _
@[simp] theorem State.unpoison_ing (s : State) (a n : Nat) : (s.unpoison a n).ing = s.ing := State.upd_err_ing s _
@[simp] theorem State.unpoison_gld (s : State) (a n : Nat) : (s.unpoison a n).gld = s.gld := State.upd_err_gld s _
@[simp] theorem State.unpoison_flt (s : State) (a n : Nat) : (s.unpoison a n).flt = s.flt := State.upd_err_flt s _
@[simp] theorem State.unpoison_osc (s : State) (a n : Nat) : (s.unpoison a n).osc = s.osc := State.upd_err_osc s _
@[simp] theorem State.unpoison_isl (s : State) (a n : Nat) : (s.unpoison a n).isl = s.isl := State.upd_err_isl s _
@[simp] theorem State.unpoison_alm (s : State) (a n : Nat) : (s.unpoison a n).alm = s.alm := State.upd_err_alm s _
@[simp] theorem State.unpoison_cap (s : State) (a n : Nat) : (s.unpoison a n).cap = s.cap := State.upd_err_cap s _
@[simp] theorem State.unpoison_acc (s : State) (a n : Nat) : (s.unpoison a n).acc = s.acc := State.upd_err_acc s _
@[simp] theorem State.unpoison_cores (s : State) (a n : Nat) : (s.unpoison a n).cores = s.cores := State.upd_err_cores s _
@[simp] theorem State.unpoison_net (s : State) (a n : Nat) : (s.unpoison a n).net = s.net := State.upd_err_net s _
@[simp] theorem State.unpoison_rbt (s : State) (a n : Nat) : (s.unpoison a n).rbt = s.rbt := State.upd_err_rbt s _
@[simp] theorem State.unpoison_xng (s : State) (a n : Nat) : (s.unpoison a n).xng = s.xng := State.upd_err_xng s _
@[simp] theorem State.unpoison_ic (s : State) (a n : Nat) : (s.unpoison a n).ic = s.ic := State.upd_err_ic s _
@[simp] theorem State.unpoison_hst (s : State) (a n : Nat) : (s.unpoison a n).hst = s.hst := State.upd_err_hst s _
@[simp] theorem State.unpoison_und (s : State) (a n : Nat) : (s.unpoison a n).und = s.und := State.upd_err_und s _
@[simp] theorem State.unpoison_sec (s : State) (a n : Nat) : (s.unpoison a n).sec = s.sec := State.upd_err_sec s _
@[simp] theorem State.unpoison_free (s : State) (a n : Nat) : (s.unpoison a n).free = s.free := State.upd_err_free s _
@[simp] theorem State.unpoison_out (s : State) (a n : Nat) : (s.unpoison a n).out = s.out := State.upd_err_out s _
@[simp] theorem State.unpoison_pending (s : State) (a n : Nat) : (s.unpoison a n).pending = s.pending := State.upd_err_pending s _
@[simp] theorem State.poisonAt_regs (s : State) (a : Nat) : (s.poisonAt a).regs = s.regs := State.upd_err_regs s _
@[simp] theorem State.poisonAt_uregs (s : State) (a : Nat) : (s.poisonAt a).uregs = s.uregs := State.upd_err_uregs s _
@[simp] theorem State.poisonAt_bank (s : State) (a : Nat) : (s.poisonAt a).bank = s.bank := State.upd_err_bank s _
@[simp] theorem State.poisonAt_latch (s : State) (a : Nat) : (s.poisonAt a).latch = s.latch := State.upd_err_latch s _
@[simp] theorem State.poisonAt_wide (s : State) (a : Nat) : (s.poisonAt a).wide = s.wide := State.upd_err_wide s _
@[simp] theorem State.poisonAt_uwide (s : State) (a : Nat) : (s.poisonAt a).uwide = s.uwide := State.upd_err_uwide s _
@[simp] theorem State.poisonAt_tbl (s : State) (a : Nat) : (s.poisonAt a).tbl = s.tbl := State.upd_err_tbl s _
@[simp] theorem State.poisonAt_saturated (s : State) (a : Nat) : (s.poisonAt a).saturated = s.saturated := State.upd_err_saturated s _
@[simp] theorem State.poisonAt_held (s : State) (a : Nat) : (s.poisonAt a).held = s.held := State.upd_err_held s _
@[simp] theorem State.poisonAt_snapHeld (s : State) (a : Nat) : (s.poisonAt a).snapHeld = s.snapHeld := State.upd_err_snapHeld s _
@[simp] theorem State.poisonAt_mem (s : State) (a : Nat) : (s.poisonAt a).mem = s.mem := State.upd_err_mem s _
@[simp] theorem State.poisonAt_mram (s : State) (a : Nat) : (s.poisonAt a).mram = s.mram := State.upd_err_mram s _
@[simp] theorem State.poisonAt_now (s : State) (a : Nat) : (s.poisonAt a).now = s.now := State.upd_err_now s _
@[simp] theorem State.poisonAt_sys (s : State) (a : Nat) : (s.poisonAt a).sys = s.sys := State.upd_err_sys s _
@[simp] theorem State.poisonAt_tim (s : State) (a : Nat) : (s.poisonAt a).tim = s.tim := State.upd_err_tim s _
@[simp] theorem State.poisonAt_ing (s : State) (a : Nat) : (s.poisonAt a).ing = s.ing := State.upd_err_ing s _
@[simp] theorem State.poisonAt_gld (s : State) (a : Nat) : (s.poisonAt a).gld = s.gld := State.upd_err_gld s _
@[simp] theorem State.poisonAt_flt (s : State) (a : Nat) : (s.poisonAt a).flt = s.flt := State.upd_err_flt s _
@[simp] theorem State.poisonAt_osc (s : State) (a : Nat) : (s.poisonAt a).osc = s.osc := State.upd_err_osc s _
@[simp] theorem State.poisonAt_isl (s : State) (a : Nat) : (s.poisonAt a).isl = s.isl := State.upd_err_isl s _
@[simp] theorem State.poisonAt_alm (s : State) (a : Nat) : (s.poisonAt a).alm = s.alm := State.upd_err_alm s _
@[simp] theorem State.poisonAt_cap (s : State) (a : Nat) : (s.poisonAt a).cap = s.cap := State.upd_err_cap s _
@[simp] theorem State.poisonAt_acc (s : State) (a : Nat) : (s.poisonAt a).acc = s.acc := State.upd_err_acc s _
@[simp] theorem State.poisonAt_cores (s : State) (a : Nat) : (s.poisonAt a).cores = s.cores := State.upd_err_cores s _
@[simp] theorem State.poisonAt_net (s : State) (a : Nat) : (s.poisonAt a).net = s.net := State.upd_err_net s _
@[simp] theorem State.poisonAt_rbt (s : State) (a : Nat) : (s.poisonAt a).rbt = s.rbt := State.upd_err_rbt s _
@[simp] theorem State.poisonAt_xng (s : State) (a : Nat) : (s.poisonAt a).xng = s.xng := State.upd_err_xng s _
@[simp] theorem State.poisonAt_ic (s : State) (a : Nat) : (s.poisonAt a).ic = s.ic := State.upd_err_ic s _
@[simp] theorem State.poisonAt_hst (s : State) (a : Nat) : (s.poisonAt a).hst = s.hst := State.upd_err_hst s _
@[simp] theorem State.poisonAt_und (s : State) (a : Nat) : (s.poisonAt a).und = s.und := State.upd_err_und s _
@[simp] theorem State.poisonAt_sec (s : State) (a : Nat) : (s.poisonAt a).sec = s.sec := State.upd_err_sec s _
@[simp] theorem State.poisonAt_free (s : State) (a : Nat) : (s.poisonAt a).free = s.free := State.upd_err_free s _
@[simp] theorem State.poisonAt_out (s : State) (a : Nat) : (s.poisonAt a).out = s.out := State.upd_err_out s _
@[simp] theorem State.poisonAt_pending (s : State) (a : Nat) : (s.poisonAt a).pending = s.pending := State.upd_err_pending s _
@[simp] theorem State.wrBytes_regs (s : State) (a : Nat) (l : List Byte) : (s.wrBytes a l).regs = s.regs := (State.unpoison_regs _ _ _).trans (State.putBytes_regs s _ _)
@[simp] theorem State.wrBytes_uregs (s : State) (a : Nat) (l : List Byte) : (s.wrBytes a l).uregs = s.uregs := (State.unpoison_uregs _ _ _).trans (State.putBytes_uregs s _ _)
@[simp] theorem State.wrBytes_bank (s : State) (a : Nat) (l : List Byte) : (s.wrBytes a l).bank = s.bank := (State.unpoison_bank _ _ _).trans (State.putBytes_bank s _ _)
@[simp] theorem State.wrBytes_latch (s : State) (a : Nat) (l : List Byte) : (s.wrBytes a l).latch = s.latch := (State.unpoison_latch _ _ _).trans (State.putBytes_latch s _ _)
@[simp] theorem State.wrBytes_wide (s : State) (a : Nat) (l : List Byte) : (s.wrBytes a l).wide = s.wide := (State.unpoison_wide _ _ _).trans (State.putBytes_wide s _ _)
@[simp] theorem State.wrBytes_uwide (s : State) (a : Nat) (l : List Byte) : (s.wrBytes a l).uwide = s.uwide := (State.unpoison_uwide _ _ _).trans (State.putBytes_uwide s _ _)
@[simp] theorem State.wrBytes_tbl (s : State) (a : Nat) (l : List Byte) : (s.wrBytes a l).tbl = s.tbl := (State.unpoison_tbl _ _ _).trans (State.putBytes_tbl s _ _)
@[simp] theorem State.wrBytes_saturated (s : State) (a : Nat) (l : List Byte) : (s.wrBytes a l).saturated = s.saturated := (State.unpoison_saturated _ _ _).trans (State.putBytes_saturated s _ _)
@[simp] theorem State.wrBytes_held (s : State) (a : Nat) (l : List Byte) : (s.wrBytes a l).held = s.held := (State.unpoison_held _ _ _).trans (State.putBytes_held s _ _)
@[simp] theorem State.wrBytes_snapHeld (s : State) (a : Nat) (l : List Byte) : (s.wrBytes a l).snapHeld = s.snapHeld := (State.unpoison_snapHeld _ _ _).trans (State.putBytes_snapHeld s _ _)
@[simp] theorem State.wrBytes_mram (s : State) (a : Nat) (l : List Byte) : (s.wrBytes a l).mram = s.mram := (State.unpoison_mram _ _ _).trans (State.putBytes_mram s _ _)
@[simp] theorem State.wrBytes_now (s : State) (a : Nat) (l : List Byte) : (s.wrBytes a l).now = s.now := (State.unpoison_now _ _ _).trans (State.putBytes_now s _ _)
@[simp] theorem State.wrBytes_sys (s : State) (a : Nat) (l : List Byte) : (s.wrBytes a l).sys = s.sys := (State.unpoison_sys _ _ _).trans (State.putBytes_sys s _ _)
@[simp] theorem State.wrBytes_tim (s : State) (a : Nat) (l : List Byte) : (s.wrBytes a l).tim = s.tim := (State.unpoison_tim _ _ _).trans (State.putBytes_tim s _ _)
@[simp] theorem State.wrBytes_ing (s : State) (a : Nat) (l : List Byte) : (s.wrBytes a l).ing = s.ing := (State.unpoison_ing _ _ _).trans (State.putBytes_ing s _ _)
@[simp] theorem State.wrBytes_gld (s : State) (a : Nat) (l : List Byte) : (s.wrBytes a l).gld = s.gld := (State.unpoison_gld _ _ _).trans (State.putBytes_gld s _ _)
@[simp] theorem State.wrBytes_flt (s : State) (a : Nat) (l : List Byte) : (s.wrBytes a l).flt = s.flt := (State.unpoison_flt _ _ _).trans (State.putBytes_flt s _ _)
@[simp] theorem State.wrBytes_osc (s : State) (a : Nat) (l : List Byte) : (s.wrBytes a l).osc = s.osc := (State.unpoison_osc _ _ _).trans (State.putBytes_osc s _ _)
@[simp] theorem State.wrBytes_isl (s : State) (a : Nat) (l : List Byte) : (s.wrBytes a l).isl = s.isl := (State.unpoison_isl _ _ _).trans (State.putBytes_isl s _ _)
@[simp] theorem State.wrBytes_alm (s : State) (a : Nat) (l : List Byte) : (s.wrBytes a l).alm = s.alm := (State.unpoison_alm _ _ _).trans (State.putBytes_alm s _ _)
@[simp] theorem State.wrBytes_cap (s : State) (a : Nat) (l : List Byte) : (s.wrBytes a l).cap = s.cap := (State.unpoison_cap _ _ _).trans (State.putBytes_cap s _ _)
@[simp] theorem State.wrBytes_acc (s : State) (a : Nat) (l : List Byte) : (s.wrBytes a l).acc = s.acc := (State.unpoison_acc _ _ _).trans (State.putBytes_acc s _ _)
@[simp] theorem State.wrBytes_cores (s : State) (a : Nat) (l : List Byte) : (s.wrBytes a l).cores = s.cores := (State.unpoison_cores _ _ _).trans (State.putBytes_cores s _ _)
@[simp] theorem State.wrBytes_net (s : State) (a : Nat) (l : List Byte) : (s.wrBytes a l).net = s.net := (State.unpoison_net _ _ _).trans (State.putBytes_net s _ _)
@[simp] theorem State.wrBytes_rbt (s : State) (a : Nat) (l : List Byte) : (s.wrBytes a l).rbt = s.rbt := (State.unpoison_rbt _ _ _).trans (State.putBytes_rbt s _ _)
@[simp] theorem State.wrBytes_xng (s : State) (a : Nat) (l : List Byte) : (s.wrBytes a l).xng = s.xng := (State.unpoison_xng _ _ _).trans (State.putBytes_xng s _ _)
@[simp] theorem State.wrBytes_ic (s : State) (a : Nat) (l : List Byte) : (s.wrBytes a l).ic = s.ic := (State.unpoison_ic _ _ _).trans (State.putBytes_ic s _ _)
@[simp] theorem State.wrBytes_hst (s : State) (a : Nat) (l : List Byte) : (s.wrBytes a l).hst = s.hst := (State.unpoison_hst _ _ _).trans (State.putBytes_hst s _ _)
@[simp] theorem State.wrBytes_und (s : State) (a : Nat) (l : List Byte) : (s.wrBytes a l).und = s.und := (State.unpoison_und _ _ _).trans (State.putBytes_und s _ _)
@[simp] theorem State.wrBytes_sec (s : State) (a : Nat) (l : List Byte) : (s.wrBytes a l).sec = s.sec := (State.unpoison_sec _ _ _).trans (State.putBytes_sec s _ _)
@[simp] theorem State.wrBytes_free (s : State) (a : Nat) (l : List Byte) : (s.wrBytes a l).free = s.free := (State.unpoison_free _ _ _).trans (State.putBytes_free s _ _)
@[simp] theorem State.wrBytes_out (s : State) (a : Nat) (l : List Byte) : (s.wrBytes a l).out = s.out := (State.unpoison_out _ _ _).trans (State.putBytes_out s _ _)
@[simp] theorem State.wrBytes_pending (s : State) (a : Nat) (l : List Byte) : (s.wrBytes a l).pending = s.pending := (State.unpoison_pending _ _ _).trans (State.putBytes_pending s _ _)
@[simp] theorem State.wrLe_regs (s : State) (a n v : Nat) : (s.wrLe a n v).regs = s.regs := State.wrBytes_regs s _ _
@[simp] theorem State.wrLe_uregs (s : State) (a n v : Nat) : (s.wrLe a n v).uregs = s.uregs := State.wrBytes_uregs s _ _
@[simp] theorem State.wrLe_bank (s : State) (a n v : Nat) : (s.wrLe a n v).bank = s.bank := State.wrBytes_bank s _ _
@[simp] theorem State.wrLe_latch (s : State) (a n v : Nat) : (s.wrLe a n v).latch = s.latch := State.wrBytes_latch s _ _
@[simp] theorem State.wrLe_wide (s : State) (a n v : Nat) : (s.wrLe a n v).wide = s.wide := State.wrBytes_wide s _ _
@[simp] theorem State.wrLe_uwide (s : State) (a n v : Nat) : (s.wrLe a n v).uwide = s.uwide := State.wrBytes_uwide s _ _
@[simp] theorem State.wrLe_tbl (s : State) (a n v : Nat) : (s.wrLe a n v).tbl = s.tbl := State.wrBytes_tbl s _ _
@[simp] theorem State.wrLe_saturated (s : State) (a n v : Nat) : (s.wrLe a n v).saturated = s.saturated := State.wrBytes_saturated s _ _
@[simp] theorem State.wrLe_held (s : State) (a n v : Nat) : (s.wrLe a n v).held = s.held := State.wrBytes_held s _ _
@[simp] theorem State.wrLe_snapHeld (s : State) (a n v : Nat) : (s.wrLe a n v).snapHeld = s.snapHeld := State.wrBytes_snapHeld s _ _
@[simp] theorem State.wrLe_mram (s : State) (a n v : Nat) : (s.wrLe a n v).mram = s.mram := State.wrBytes_mram s _ _
@[simp] theorem State.wrLe_now (s : State) (a n v : Nat) : (s.wrLe a n v).now = s.now := State.wrBytes_now s _ _
@[simp] theorem State.wrLe_sys (s : State) (a n v : Nat) : (s.wrLe a n v).sys = s.sys := State.wrBytes_sys s _ _
@[simp] theorem State.wrLe_tim (s : State) (a n v : Nat) : (s.wrLe a n v).tim = s.tim := State.wrBytes_tim s _ _
@[simp] theorem State.wrLe_ing (s : State) (a n v : Nat) : (s.wrLe a n v).ing = s.ing := State.wrBytes_ing s _ _
@[simp] theorem State.wrLe_gld (s : State) (a n v : Nat) : (s.wrLe a n v).gld = s.gld := State.wrBytes_gld s _ _
@[simp] theorem State.wrLe_flt (s : State) (a n v : Nat) : (s.wrLe a n v).flt = s.flt := State.wrBytes_flt s _ _
@[simp] theorem State.wrLe_osc (s : State) (a n v : Nat) : (s.wrLe a n v).osc = s.osc := State.wrBytes_osc s _ _
@[simp] theorem State.wrLe_isl (s : State) (a n v : Nat) : (s.wrLe a n v).isl = s.isl := State.wrBytes_isl s _ _
@[simp] theorem State.wrLe_alm (s : State) (a n v : Nat) : (s.wrLe a n v).alm = s.alm := State.wrBytes_alm s _ _
@[simp] theorem State.wrLe_cap (s : State) (a n v : Nat) : (s.wrLe a n v).cap = s.cap := State.wrBytes_cap s _ _
@[simp] theorem State.wrLe_acc (s : State) (a n v : Nat) : (s.wrLe a n v).acc = s.acc := State.wrBytes_acc s _ _
@[simp] theorem State.wrLe_cores (s : State) (a n v : Nat) : (s.wrLe a n v).cores = s.cores := State.wrBytes_cores s _ _
@[simp] theorem State.wrLe_net (s : State) (a n v : Nat) : (s.wrLe a n v).net = s.net := State.wrBytes_net s _ _
@[simp] theorem State.wrLe_rbt (s : State) (a n v : Nat) : (s.wrLe a n v).rbt = s.rbt := State.wrBytes_rbt s _ _
@[simp] theorem State.wrLe_xng (s : State) (a n v : Nat) : (s.wrLe a n v).xng = s.xng := State.wrBytes_xng s _ _
@[simp] theorem State.wrLe_ic (s : State) (a n v : Nat) : (s.wrLe a n v).ic = s.ic := State.wrBytes_ic s _ _
@[simp] theorem State.wrLe_hst (s : State) (a n v : Nat) : (s.wrLe a n v).hst = s.hst := State.wrBytes_hst s _ _
@[simp] theorem State.wrLe_und (s : State) (a n v : Nat) : (s.wrLe a n v).und = s.und := State.wrBytes_und s _ _
@[simp] theorem State.wrLe_sec (s : State) (a n v : Nat) : (s.wrLe a n v).sec = s.sec := State.wrBytes_sec s _ _
@[simp] theorem State.wrLe_free (s : State) (a n v : Nat) : (s.wrLe a n v).free = s.free := State.wrBytes_free s _ _
@[simp] theorem State.wrLe_out (s : State) (a n v : Nat) : (s.wrLe a n v).out = s.out := State.wrBytes_out s _ _
@[simp] theorem State.wrLe_pending (s : State) (a n v : Nat) : (s.wrLe a n v).pending = s.pending := State.wrBytes_pending s _ _
@[simp] theorem State.pllRequest_regs (s : State) : (s.pllRequest).regs = s.regs := by unfold State.pllRequest; split <;> rfl
@[simp] theorem State.pllRequest_uregs (s : State) : (s.pllRequest).uregs = s.uregs := by unfold State.pllRequest; split <;> rfl
@[simp] theorem State.pllRequest_bank (s : State) : (s.pllRequest).bank = s.bank := by unfold State.pllRequest; split <;> rfl
@[simp] theorem State.pllRequest_latch (s : State) : (s.pllRequest).latch = s.latch := by unfold State.pllRequest; split <;> rfl
@[simp] theorem State.pllRequest_wide (s : State) : (s.pllRequest).wide = s.wide := by unfold State.pllRequest; split <;> rfl
@[simp] theorem State.pllRequest_uwide (s : State) : (s.pllRequest).uwide = s.uwide := by unfold State.pllRequest; split <;> rfl
@[simp] theorem State.pllRequest_tbl (s : State) : (s.pllRequest).tbl = s.tbl := by unfold State.pllRequest; split <;> rfl
@[simp] theorem State.pllRequest_saturated (s : State) : (s.pllRequest).saturated = s.saturated := by unfold State.pllRequest; split <;> rfl
@[simp] theorem State.pllRequest_held (s : State) : (s.pllRequest).held = s.held := by unfold State.pllRequest; split <;> rfl
@[simp] theorem State.pllRequest_snapHeld (s : State) : (s.pllRequest).snapHeld = s.snapHeld := by unfold State.pllRequest; split <;> rfl
@[simp] theorem State.pllRequest_mem (s : State) : (s.pllRequest).mem = s.mem := by unfold State.pllRequest; split <;> rfl
@[simp] theorem State.pllRequest_mram (s : State) : (s.pllRequest).mram = s.mram := by unfold State.pllRequest; split <;> rfl
@[simp] theorem State.pllRequest_now (s : State) : (s.pllRequest).now = s.now := by unfold State.pllRequest; split <;> rfl
@[simp] theorem State.pllRequest_tim (s : State) : (s.pllRequest).tim = s.tim := by unfold State.pllRequest; split <;> rfl
@[simp] theorem State.pllRequest_ing (s : State) : (s.pllRequest).ing = s.ing := by unfold State.pllRequest; split <;> rfl
@[simp] theorem State.pllRequest_gld (s : State) : (s.pllRequest).gld = s.gld := by unfold State.pllRequest; split <;> rfl
@[simp] theorem State.pllRequest_flt (s : State) : (s.pllRequest).flt = s.flt := by unfold State.pllRequest; split <;> rfl
@[simp] theorem State.pllRequest_osc (s : State) : (s.pllRequest).osc = s.osc := by unfold State.pllRequest; split <;> rfl
@[simp] theorem State.pllRequest_isl (s : State) : (s.pllRequest).isl = s.isl := by unfold State.pllRequest; split <;> rfl
@[simp] theorem State.pllRequest_alm (s : State) : (s.pllRequest).alm = s.alm := by unfold State.pllRequest; split <;> rfl
@[simp] theorem State.pllRequest_cap (s : State) : (s.pllRequest).cap = s.cap := by unfold State.pllRequest; split <;> rfl
@[simp] theorem State.pllRequest_acc (s : State) : (s.pllRequest).acc = s.acc := by unfold State.pllRequest; split <;> rfl
@[simp] theorem State.pllRequest_cores (s : State) : (s.pllRequest).cores = s.cores := by unfold State.pllRequest; split <;> rfl
@[simp] theorem State.pllRequest_net (s : State) : (s.pllRequest).net = s.net := by unfold State.pllRequest; split <;> rfl
@[simp] theorem State.pllRequest_rbt (s : State) : (s.pllRequest).rbt = s.rbt := by unfold State.pllRequest; split <;> rfl
@[simp] theorem State.pllRequest_xng (s : State) : (s.pllRequest).xng = s.xng := by unfold State.pllRequest; split <;> rfl
@[simp] theorem State.pllRequest_ic (s : State) : (s.pllRequest).ic = s.ic := by unfold State.pllRequest; split <;> rfl
@[simp] theorem State.pllRequest_hst (s : State) : (s.pllRequest).hst = s.hst := by unfold State.pllRequest; split <;> rfl
@[simp] theorem State.pllRequest_err (s : State) : (s.pllRequest).err = s.err := by unfold State.pllRequest; split <;> rfl
@[simp] theorem State.pllRequest_und (s : State) : (s.pllRequest).und = s.und := by unfold State.pllRequest; split <;> rfl
@[simp] theorem State.pllRequest_sec (s : State) : (s.pllRequest).sec = s.sec := by unfold State.pllRequest; split <;> rfl
@[simp] theorem State.pllRequest_free (s : State) : (s.pllRequest).free = s.free := by unfold State.pllRequest; split <;> rfl
@[simp] theorem State.pllRequest_out (s : State) : (s.pllRequest).out = s.out := by unfold State.pllRequest; split <;> rfl
@[simp] theorem State.pllRequest_pending (s : State) : (s.pllRequest).pending = s.pending := by unfold State.pllRequest; split <;> rfl
@[simp] theorem State.elapse_regs (s : State) (n : Nat) : (s.elapse n).regs = s.regs := rfl
@[simp] theorem State.elapse_uregs (s : State) (n : Nat) : (s.elapse n).uregs = s.uregs := rfl
@[simp] theorem State.elapse_bank (s : State) (n : Nat) : (s.elapse n).bank = s.bank := rfl
@[simp] theorem State.elapse_latch (s : State) (n : Nat) : (s.elapse n).latch = s.latch := rfl
@[simp] theorem State.elapse_wide (s : State) (n : Nat) : (s.elapse n).wide = s.wide := rfl
@[simp] theorem State.elapse_uwide (s : State) (n : Nat) : (s.elapse n).uwide = s.uwide := rfl
@[simp] theorem State.elapse_tbl (s : State) (n : Nat) : (s.elapse n).tbl = s.tbl := rfl
@[simp] theorem State.elapse_saturated (s : State) (n : Nat) : (s.elapse n).saturated = s.saturated := rfl
@[simp] theorem State.elapse_held (s : State) (n : Nat) : (s.elapse n).held = s.held := rfl
@[simp] theorem State.elapse_snapHeld (s : State) (n : Nat) : (s.elapse n).snapHeld = s.snapHeld := rfl
@[simp] theorem State.elapse_mem (s : State) (n : Nat) : (s.elapse n).mem = s.mem := rfl
@[simp] theorem State.elapse_mram (s : State) (n : Nat) : (s.elapse n).mram = s.mram := rfl
@[simp] theorem State.elapse_ing (s : State) (n : Nat) : (s.elapse n).ing = s.ing := rfl
@[simp] theorem State.elapse_gld (s : State) (n : Nat) : (s.elapse n).gld = s.gld := rfl
@[simp] theorem State.elapse_flt (s : State) (n : Nat) : (s.elapse n).flt = s.flt := rfl
@[simp] theorem State.elapse_osc (s : State) (n : Nat) : (s.elapse n).osc = s.osc := rfl
@[simp] theorem State.elapse_isl (s : State) (n : Nat) : (s.elapse n).isl = s.isl := rfl
@[simp] theorem State.elapse_alm (s : State) (n : Nat) : (s.elapse n).alm = s.alm := rfl
@[simp] theorem State.elapse_cap (s : State) (n : Nat) : (s.elapse n).cap = s.cap := rfl
@[simp] theorem State.elapse_acc (s : State) (n : Nat) : (s.elapse n).acc = s.acc := rfl
@[simp] theorem State.elapse_cores (s : State) (n : Nat) : (s.elapse n).cores = s.cores := rfl
@[simp] theorem State.elapse_net (s : State) (n : Nat) : (s.elapse n).net = s.net := rfl
@[simp] theorem State.elapse_rbt (s : State) (n : Nat) : (s.elapse n).rbt = s.rbt := rfl
@[simp] theorem State.elapse_xng (s : State) (n : Nat) : (s.elapse n).xng = s.xng := rfl
@[simp] theorem State.elapse_ic (s : State) (n : Nat) : (s.elapse n).ic = s.ic := rfl
@[simp] theorem State.elapse_hst (s : State) (n : Nat) : (s.elapse n).hst = s.hst := rfl
@[simp] theorem State.elapse_err (s : State) (n : Nat) : (s.elapse n).err = s.err := rfl
@[simp] theorem State.elapse_und (s : State) (n : Nat) : (s.elapse n).und = s.und := rfl
@[simp] theorem State.elapse_sec (s : State) (n : Nat) : (s.elapse n).sec = s.sec := rfl
@[simp] theorem State.elapse_free (s : State) (n : Nat) : (s.elapse n).free = s.free := rfl
@[simp] theorem State.elapse_out (s : State) (n : Nat) : (s.elapse n).out = s.out := rfl
@[simp] theorem State.elapse_pending (s : State) (n : Nat) : (s.elapse n).pending = s.pending := rfl
theorem State.ringLog_keeps {α : Type} (g : State → α) (hb : ∀ s k, g (s.bump k) = g s) (hr : ∀ s f, g (s.raise f) = g s)
    (hu : ∀ (s : State) x, g { s with und := x } = g s) (s : State) (t o : Nat) (d : List Byte) : g (s.ringLog t o d) = g s := by
  unfold State.ringLog
  dsimp only
  by_cases h : (s.bump R.UND_U_RL_REQUESTED).und.pending.length < (if ringReserved t then 256 else 248)
  · rw [if_pos h, hu, hb]
  · rw [if_neg h, hu, hr, hb, hb]
@[simp] theorem State.ringLog_bank (s : State) (t o : Nat) (d : List Byte) : (s.ringLog t o d).bank = s.bank := State.ringLog_keeps (·.bank) (fun s k => State.bump_bank s k) (fun s x => State.raise_bank s x) (fun s x => State.upd_und_bank s x) s t o d
@[simp] theorem State.ringLog_latch (s : State) (t o : Nat) (d : List Byte) : (s.ringLog t o d).latch = s.latch := State.ringLog_keeps (·.latch) (fun s k => State.bump_latch s k) (fun s x => State.raise_latch s x) (fun s x => State.upd_und_latch s x) s t o d
@[simp] theorem State.ringLog_tbl (s : State) (t o : Nat) (d : List Byte) : (s.ringLog t o d).tbl = s.tbl := State.ringLog_keeps (·.tbl) (fun s k => State.bump_tbl s k) (fun s x => State.raise_tbl s x) (fun s x => State.upd_und_tbl s x) s t o d
@[simp] theorem State.ringLog_held (s : State) (t o : Nat) (d : List Byte) : (s.ringLog t o d).held = s.held := State.ringLog_keeps (·.held) (fun s k => State.bump_held s k) (fun s x => State.raise_held s x) (fun s x => State.upd_und_held s x) s t o d
@[simp] theorem State.ringLog_snapHeld (s : State) (t o : Nat) (d : List Byte) : (s.ringLog t o d).snapHeld = s.snapHeld := State.ringLog_keeps (·.snapHeld) (fun s k => State.bump_snapHeld s k) (fun s x => State.raise_snapHeld s x) (fun s x => State.upd_und_snapHeld s x) s t o d
@[simp] theorem State.ringLog_mem (s : State) (t o : Nat) (d : List Byte) : (s.ringLog t o d).mem = s.mem := State.ringLog_keeps (·.mem) (fun s k => State.bump_mem s k) (fun s x => State.raise_mem s x) (fun s x => State.upd_und_mem s x) s t o d
@[simp] theorem State.ringLog_mram (s : State) (t o : Nat) (d : List Byte) : (s.ringLog t o d).mram = s.mram := State.ringLog_keeps (·.mram) (fun s k => State.bump_mram s k) (fun s x => State.raise_mram s x) (fun s x => State.upd_und_mram s x) s t o d
@[simp] theorem State.ringLog_now (s : State) (t o : Nat) (d : List Byte) : (s.ringLog t o d).now = s.now := State.ringLog_keeps (·.now) (fun s k => State.bump_now s k) (fun s x => State.raise_now s x) (fun s x => State.upd_und_now s x) s t o d
@[simp] theorem State.ringLog_sys (s : State) (t o : Nat) (d : List Byte) : (s.ringLog t o d).sys = s.sys := State.ringLog_keeps (·.sys) (fun s k => State.bump_sys s k) (fun s x => State.raise_sys s x) (fun s x => State.upd_und_sys s x) s t o d
@[simp] theorem State.ringLog_tim (s : State) (t o : Nat) (d : List Byte) : (s.ringLog t o d).tim = s.tim := State.ringLog_keeps (·.tim) (fun s k => State.bump_tim s k) (fun s x => State.raise_tim s x) (fun s x => State.upd_und_tim s x) s t o d
@[simp] theorem State.ringLog_ing (s : State) (t o : Nat) (d : List Byte) : (s.ringLog t o d).ing = s.ing := State.ringLog_keeps (·.ing) (fun s k => State.bump_ing s k) (fun s x => State.raise_ing s x) (fun s x => State.upd_und_ing s x) s t o d
@[simp] theorem State.ringLog_gld (s : State) (t o : Nat) (d : List Byte) : (s.ringLog t o d).gld = s.gld := State.ringLog_keeps (·.gld) (fun s k => State.bump_gld s k) (fun s x => State.raise_gld s x) (fun s x => State.upd_und_gld s x) s t o d
@[simp] theorem State.ringLog_flt (s : State) (t o : Nat) (d : List Byte) : (s.ringLog t o d).flt = s.flt := State.ringLog_keeps (·.flt) (fun s k => State.bump_flt s k) (fun s x => State.raise_flt s x) (fun s x => State.upd_und_flt s x) s t o d
@[simp] theorem State.ringLog_osc (s : State) (t o : Nat) (d : List Byte) : (s.ringLog t o d).osc = s.osc := State.ringLog_keeps (·.osc) (fun s k => State.bump_osc s k) (fun s x => State.raise_osc s x) (fun s x => State.upd_und_osc s x) s t o d
@[simp] theorem State.ringLog_isl (s : State) (t o : Nat) (d : List Byte) : (s.ringLog t o d).isl = s.isl := State.ringLog_keeps (·.isl) (fun s k => State.bump_isl s k) (fun s x => State.raise_isl s x) (fun s x => State.upd_und_isl s x) s t o d
@[simp] theorem State.ringLog_alm (s : State) (t o : Nat) (d : List Byte) : (s.ringLog t o d).alm = s.alm := State.ringLog_keeps (·.alm) (fun s k => State.bump_alm s k) (fun s x => State.raise_alm s x) (fun s x => State.upd_und_alm s x) s t o d
@[simp] theorem State.ringLog_cap (s : State) (t o : Nat) (d : List Byte) : (s.ringLog t o d).cap = s.cap := State.ringLog_keeps (·.cap) (fun s k => State.bump_cap s k) (fun s x => State.raise_cap s x) (fun s x => State.upd_und_cap s x) s t o d
@[simp] theorem State.ringLog_acc (s : State) (t o : Nat) (d : List Byte) : (s.ringLog t o d).acc = s.acc := State.ringLog_keeps (·.acc) (fun s k => State.bump_acc s k) (fun s x => State.raise_acc s x) (fun s x => State.upd_und_acc s x) s t o d
@[simp] theorem State.ringLog_cores (s : State) (t o : Nat) (d : List Byte) : (s.ringLog t o d).cores = s.cores := State.ringLog_keeps (·.cores) (fun s k => State.bump_cores s k) (fun s x => State.raise_cores s x) (fun s x => State.upd_und_cores s x) s t o d
@[simp] theorem State.ringLog_net (s : State) (t o : Nat) (d : List Byte) : (s.ringLog t o d).net = s.net := State.ringLog_keeps (·.net) (fun s k => State.bump_net s k) (fun s x => State.raise_net s x) (fun s x => State.upd_und_net s x) s t o d
@[simp] theorem State.ringLog_rbt (s : State) (t o : Nat) (d : List Byte) : (s.ringLog t o d).rbt = s.rbt := State.ringLog_keeps (·.rbt) (fun s k => State.bump_rbt s k) (fun s x => State.raise_rbt s x) (fun s x => State.upd_und_rbt s x) s t o d
@[simp] theorem State.ringLog_xng (s : State) (t o : Nat) (d : List Byte) : (s.ringLog t o d).xng = s.xng := State.ringLog_keeps (·.xng) (fun s k => State.bump_xng s k) (fun s x => State.raise_xng s x) (fun s x => State.upd_und_xng s x) s t o d
@[simp] theorem State.ringLog_ic (s : State) (t o : Nat) (d : List Byte) : (s.ringLog t o d).ic = s.ic := State.ringLog_keeps (·.ic) (fun s k => State.bump_ic s k) (fun s x => State.raise_ic s x) (fun s x => State.upd_und_ic s x) s t o d
@[simp] theorem State.ringLog_hst (s : State) (t o : Nat) (d : List Byte) : (s.ringLog t o d).hst = s.hst := State.ringLog_keeps (·.hst) (fun s k => State.bump_hst s k) (fun s x => State.raise_hst s x) (fun s x => State.upd_und_hst s x) s t o d
@[simp] theorem State.ringLog_err (s : State) (t o : Nat) (d : List Byte) : (s.ringLog t o d).err = s.err := State.ringLog_keeps (·.err) (fun s k => State.bump_err s k) (fun s x => State.raise_err s x) (fun s x => State.upd_und_err s x) s t o d
@[simp] theorem State.ringLog_sec (s : State) (t o : Nat) (d : List Byte) : (s.ringLog t o d).sec = s.sec := State.ringLog_keeps (·.sec) (fun s k => State.bump_sec s k) (fun s x => State.raise_sec s x) (fun s x => State.upd_und_sec s x) s t o d
@[simp] theorem State.ringLog_free (s : State) (t o : Nat) (d : List Byte) : (s.ringLog t o d).free = s.free := State.ringLog_keeps (·.free) (fun s k => State.bump_free s k) (fun s x => State.raise_free s x) (fun s x => State.upd_und_free s x) s t o d
@[simp] theorem State.ringLog_out (s : State) (t o : Nat) (d : List Byte) : (s.ringLog t o d).out = s.out := State.ringLog_keeps (·.out) (fun s k => State.bump_out s k) (fun s x => State.raise_out s x) (fun s x => State.upd_und_out s x) s t o d
@[simp] theorem State.ringLog_pending (s : State) (t o : Nat) (d : List Byte) : (s.ringLog t o d).pending = s.pending := State.ringLog_keeps (·.pending) (fun s k => State.bump_pending s k) (fun s x => State.raise_pending s x) (fun s x => State.upd_und_pending s x) s t o d
@[simp] theorem State.refuse_bank (s : State) (q : Req) (c off : Nat) : (s.refuse q c off).bank = s.bank := (State.raise_bank _ _).trans ((State.setReg_bank _ _ _).trans (State.bump_bank s _))
@[simp] theorem State.refuse_latch (s : State) (q : Req) (c off : Nat) : (s.refuse q c off).latch = s.latch := (State.raise_latch _ _).trans ((State.setReg_latch _ _ _).trans (State.bump_latch s _))
@[simp] theorem State.refuse_tbl (s : State) (q : Req) (c off : Nat) : (s.refuse q c off).tbl = s.tbl := (State.raise_tbl _ _).trans ((State.setReg_tbl _ _ _).trans (State.bump_tbl s _))
@[simp] theorem State.refuse_held (s : State) (q : Req) (c off : Nat) : (s.refuse q c off).held = s.held := (State.raise_held _ _).trans ((State.setReg_held _ _ _).trans (State.bump_held s _))
@[simp] theorem State.refuse_snapHeld (s : State) (q : Req) (c off : Nat) : (s.refuse q c off).snapHeld = s.snapHeld := (State.raise_snapHeld _ _).trans ((State.setReg_snapHeld _ _ _).trans (State.bump_snapHeld s _))
@[simp] theorem State.refuse_mem (s : State) (q : Req) (c off : Nat) : (s.refuse q c off).mem = s.mem := (State.raise_mem _ _).trans ((State.setReg_mem _ _ _).trans (State.bump_mem s _))
@[simp] theorem State.refuse_mram (s : State) (q : Req) (c off : Nat) : (s.refuse q c off).mram = s.mram := (State.raise_mram _ _).trans ((State.setReg_mram _ _ _).trans (State.bump_mram s _))
@[simp] theorem State.refuse_now (s : State) (q : Req) (c off : Nat) : (s.refuse q c off).now = s.now := (State.raise_now _ _).trans ((State.setReg_now _ _ _).trans (State.bump_now s _))
@[simp] theorem State.refuse_sys (s : State) (q : Req) (c off : Nat) : (s.refuse q c off).sys = s.sys := (State.raise_sys _ _).trans ((State.setReg_sys _ _ _).trans (State.bump_sys s _))
@[simp] theorem State.refuse_tim (s : State) (q : Req) (c off : Nat) : (s.refuse q c off).tim = s.tim := (State.raise_tim _ _).trans ((State.setReg_tim _ _ _).trans (State.bump_tim s _))
@[simp] theorem State.refuse_ing (s : State) (q : Req) (c off : Nat) : (s.refuse q c off).ing = s.ing := (State.raise_ing _ _).trans ((State.setReg_ing _ _ _).trans (State.bump_ing s _))
@[simp] theorem State.refuse_gld (s : State) (q : Req) (c off : Nat) : (s.refuse q c off).gld = s.gld := (State.raise_gld _ _).trans ((State.setReg_gld _ _ _).trans (State.bump_gld s _))
@[simp] theorem State.refuse_flt (s : State) (q : Req) (c off : Nat) : (s.refuse q c off).flt = s.flt := (State.raise_flt _ _).trans ((State.setReg_flt _ _ _).trans (State.bump_flt s _))
@[simp] theorem State.refuse_osc (s : State) (q : Req) (c off : Nat) : (s.refuse q c off).osc = s.osc := (State.raise_osc _ _).trans ((State.setReg_osc _ _ _).trans (State.bump_osc s _))
@[simp] theorem State.refuse_isl (s : State) (q : Req) (c off : Nat) : (s.refuse q c off).isl = s.isl := (State.raise_isl _ _).trans ((State.setReg_isl _ _ _).trans (State.bump_isl s _))
@[simp] theorem State.refuse_alm (s : State) (q : Req) (c off : Nat) : (s.refuse q c off).alm = s.alm := (State.raise_alm _ _).trans ((State.setReg_alm _ _ _).trans (State.bump_alm s _))
@[simp] theorem State.refuse_cap (s : State) (q : Req) (c off : Nat) : (s.refuse q c off).cap = s.cap := (State.raise_cap _ _).trans ((State.setReg_cap _ _ _).trans (State.bump_cap s _))
@[simp] theorem State.refuse_acc (s : State) (q : Req) (c off : Nat) : (s.refuse q c off).acc = s.acc := (State.raise_acc _ _).trans ((State.setReg_acc _ _ _).trans (State.bump_acc s _))
@[simp] theorem State.refuse_cores (s : State) (q : Req) (c off : Nat) : (s.refuse q c off).cores = s.cores := (State.raise_cores _ _).trans ((State.setReg_cores _ _ _).trans (State.bump_cores s _))
@[simp] theorem State.refuse_net (s : State) (q : Req) (c off : Nat) : (s.refuse q c off).net = s.net := (State.raise_net _ _).trans ((State.setReg_net _ _ _).trans (State.bump_net s _))
@[simp] theorem State.refuse_rbt (s : State) (q : Req) (c off : Nat) : (s.refuse q c off).rbt = s.rbt := (State.raise_rbt _ _).trans ((State.setReg_rbt _ _ _).trans (State.bump_rbt s _))
@[simp] theorem State.refuse_xng (s : State) (q : Req) (c off : Nat) : (s.refuse q c off).xng = s.xng := (State.raise_xng _ _).trans ((State.setReg_xng _ _ _).trans (State.bump_xng s _))
@[simp] theorem State.refuse_ic (s : State) (q : Req) (c off : Nat) : (s.refuse q c off).ic = s.ic := (State.raise_ic _ _).trans ((State.setReg_ic _ _ _).trans (State.bump_ic s _))
@[simp] theorem State.refuse_hst (s : State) (q : Req) (c off : Nat) : (s.refuse q c off).hst = s.hst := (State.raise_hst _ _).trans ((State.setReg_hst _ _ _).trans (State.bump_hst s _))
@[simp] theorem State.refuse_err (s : State) (q : Req) (c off : Nat) : (s.refuse q c off).err = s.err := (State.raise_err _ _).trans ((State.setReg_err _ _ _).trans (State.bump_err s _))
@[simp] theorem State.refuse_und (s : State) (q : Req) (c off : Nat) : (s.refuse q c off).und = s.und := (State.raise_und _ _).trans ((State.setReg_und _ _ _).trans (State.bump_und s _))
@[simp] theorem State.refuse_sec (s : State) (q : Req) (c off : Nat) : (s.refuse q c off).sec = s.sec := (State.raise_sec _ _).trans ((State.setReg_sec _ _ _).trans (State.bump_sec s _))
@[simp] theorem State.refuse_free (s : State) (q : Req) (c off : Nat) : (s.refuse q c off).free = s.free := (State.raise_free _ _).trans ((State.setReg_free _ _ _).trans (State.bump_free s _))
@[simp] theorem State.refuse_out (s : State) (q : Req) (c off : Nat) : (s.refuse q c off).out = s.out := (State.raise_out _ _).trans ((State.setReg_out _ _ _).trans (State.bump_out s _))
@[simp] theorem State.refuse_pending (s : State) (q : Req) (c off : Nat) : (s.refuse q c off).pending = s.pending := (State.raise_pending _ _).trans ((State.setReg_pending _ _ _).trans (State.bump_pending s _))
@[simp] theorem State.setPort_regs (s : State) (p : Nat) (x : NetPort) : (s.setPort p x).regs = s.regs := State.upd_net_regs s _
@[simp] theorem State.setPort_uregs (s : State) (p : Nat) (x : NetPort) : (s.setPort p x).uregs = s.uregs := State.upd_net_uregs s _
@[simp] theorem State.setPort_bank (s : State) (p : Nat) (x : NetPort) : (s.setPort p x).bank = s.bank := State.upd_net_bank s _
@[simp] theorem State.setPort_latch (s : State) (p : Nat) (x : NetPort) : (s.setPort p x).latch = s.latch := State.upd_net_latch s _
@[simp] theorem State.setPort_wide (s : State) (p : Nat) (x : NetPort) : (s.setPort p x).wide = s.wide := State.upd_net_wide s _
@[simp] theorem State.setPort_uwide (s : State) (p : Nat) (x : NetPort) : (s.setPort p x).uwide = s.uwide := State.upd_net_uwide s _
@[simp] theorem State.setPort_tbl (s : State) (p : Nat) (x : NetPort) : (s.setPort p x).tbl = s.tbl := State.upd_net_tbl s _
@[simp] theorem State.setPort_saturated (s : State) (p : Nat) (x : NetPort) : (s.setPort p x).saturated = s.saturated := State.upd_net_saturated s _
@[simp] theorem State.setPort_held (s : State) (p : Nat) (x : NetPort) : (s.setPort p x).held = s.held := State.upd_net_held s _
@[simp] theorem State.setPort_snapHeld (s : State) (p : Nat) (x : NetPort) : (s.setPort p x).snapHeld = s.snapHeld := State.upd_net_snapHeld s _
@[simp] theorem State.setPort_mem (s : State) (p : Nat) (x : NetPort) : (s.setPort p x).mem = s.mem := State.upd_net_mem s _
@[simp] theorem State.setPort_mram (s : State) (p : Nat) (x : NetPort) : (s.setPort p x).mram = s.mram := State.upd_net_mram s _
@[simp] theorem State.setPort_now (s : State) (p : Nat) (x : NetPort) : (s.setPort p x).now = s.now := State.upd_net_now s _
@[simp] theorem State.setPort_sys (s : State) (p : Nat) (x : NetPort) : (s.setPort p x).sys = s.sys := State.upd_net_sys s _
@[simp] theorem State.setPort_tim (s : State) (p : Nat) (x : NetPort) : (s.setPort p x).tim = s.tim := State.upd_net_tim s _
@[simp] theorem State.setPort_ing (s : State) (p : Nat) (x : NetPort) : (s.setPort p x).ing = s.ing := State.upd_net_ing s _
@[simp] theorem State.setPort_gld (s : State) (p : Nat) (x : NetPort) : (s.setPort p x).gld = s.gld := State.upd_net_gld s _
@[simp] theorem State.setPort_flt (s : State) (p : Nat) (x : NetPort) : (s.setPort p x).flt = s.flt := State.upd_net_flt s _
@[simp] theorem State.setPort_osc (s : State) (p : Nat) (x : NetPort) : (s.setPort p x).osc = s.osc := State.upd_net_osc s _
@[simp] theorem State.setPort_isl (s : State) (p : Nat) (x : NetPort) : (s.setPort p x).isl = s.isl := State.upd_net_isl s _
@[simp] theorem State.setPort_alm (s : State) (p : Nat) (x : NetPort) : (s.setPort p x).alm = s.alm := State.upd_net_alm s _
@[simp] theorem State.setPort_cap (s : State) (p : Nat) (x : NetPort) : (s.setPort p x).cap = s.cap := State.upd_net_cap s _
@[simp] theorem State.setPort_acc (s : State) (p : Nat) (x : NetPort) : (s.setPort p x).acc = s.acc := State.upd_net_acc s _
@[simp] theorem State.setPort_cores (s : State) (p : Nat) (x : NetPort) : (s.setPort p x).cores = s.cores := State.upd_net_cores s _
@[simp] theorem State.setPort_rbt (s : State) (p : Nat) (x : NetPort) : (s.setPort p x).rbt = s.rbt := State.upd_net_rbt s _
@[simp] theorem State.setPort_xng (s : State) (p : Nat) (x : NetPort) : (s.setPort p x).xng = s.xng := State.upd_net_xng s _
@[simp] theorem State.setPort_ic (s : State) (p : Nat) (x : NetPort) : (s.setPort p x).ic = s.ic := State.upd_net_ic s _
@[simp] theorem State.setPort_hst (s : State) (p : Nat) (x : NetPort) : (s.setPort p x).hst = s.hst := State.upd_net_hst s _
@[simp] theorem State.setPort_err (s : State) (p : Nat) (x : NetPort) : (s.setPort p x).err = s.err := State.upd_net_err s _
@[simp] theorem State.setPort_und (s : State) (p : Nat) (x : NetPort) : (s.setPort p x).und = s.und := State.upd_net_und s _
@[simp] theorem State.setPort_sec (s : State) (p : Nat) (x : NetPort) : (s.setPort p x).sec = s.sec := State.upd_net_sec s _
@[simp] theorem State.setPort_free (s : State) (p : Nat) (x : NetPort) : (s.setPort p x).free = s.free := State.upd_net_free s _
@[simp] theorem State.setPort_out (s : State) (p : Nat) (x : NetPort) : (s.setPort p x).out = s.out := State.upd_net_out s _
@[simp] theorem State.setPort_pending (s : State) (p : Nat) (x : NetPort) : (s.setPort p x).pending = s.pending := State.upd_net_pending s _
@[simp] theorem State.setGrove_regs (s : State) (g : Nat) (x : GroveSt) : (s.setGrove g x).regs = s.regs := State.upd_gld_regs s _
@[simp] theorem State.setGrove_uregs (s : State) (g : Nat) (x : GroveSt) : (s.setGrove g x).uregs = s.uregs := State.upd_gld_uregs s _
@[simp] theorem State.setGrove_bank (s : State) (g : Nat) (x : GroveSt) : (s.setGrove g x).bank = s.bank := State.upd_gld_bank s _
@[simp] theorem State.setGrove_latch (s : State) (g : Nat) (x : GroveSt) : (s.setGrove g x).latch = s.latch := State.upd_gld_latch s _
@[simp] theorem State.setGrove_wide (s : State) (g : Nat) (x : GroveSt) : (s.setGrove g x).wide = s.wide := State.upd_gld_wide s _
@[simp] theorem State.setGrove_uwide (s : State) (g : Nat) (x : GroveSt) : (s.setGrove g x).uwide = s.uwide := State.upd_gld_uwide s _
@[simp] theorem State.setGrove_tbl (s : State) (g : Nat) (x : GroveSt) : (s.setGrove g x).tbl = s.tbl := State.upd_gld_tbl s _
@[simp] theorem State.setGrove_saturated (s : State) (g : Nat) (x : GroveSt) : (s.setGrove g x).saturated = s.saturated := State.upd_gld_saturated s _
@[simp] theorem State.setGrove_held (s : State) (g : Nat) (x : GroveSt) : (s.setGrove g x).held = s.held := State.upd_gld_held s _
@[simp] theorem State.setGrove_snapHeld (s : State) (g : Nat) (x : GroveSt) : (s.setGrove g x).snapHeld = s.snapHeld := State.upd_gld_snapHeld s _
@[simp] theorem State.setGrove_mem (s : State) (g : Nat) (x : GroveSt) : (s.setGrove g x).mem = s.mem := State.upd_gld_mem s _
@[simp] theorem State.setGrove_mram (s : State) (g : Nat) (x : GroveSt) : (s.setGrove g x).mram = s.mram := State.upd_gld_mram s _
@[simp] theorem State.setGrove_now (s : State) (g : Nat) (x : GroveSt) : (s.setGrove g x).now = s.now := State.upd_gld_now s _
@[simp] theorem State.setGrove_sys (s : State) (g : Nat) (x : GroveSt) : (s.setGrove g x).sys = s.sys := State.upd_gld_sys s _
@[simp] theorem State.setGrove_tim (s : State) (g : Nat) (x : GroveSt) : (s.setGrove g x).tim = s.tim := State.upd_gld_tim s _
@[simp] theorem State.setGrove_ing (s : State) (g : Nat) (x : GroveSt) : (s.setGrove g x).ing = s.ing := State.upd_gld_ing s _
@[simp] theorem State.setGrove_flt (s : State) (g : Nat) (x : GroveSt) : (s.setGrove g x).flt = s.flt := State.upd_gld_flt s _
@[simp] theorem State.setGrove_osc (s : State) (g : Nat) (x : GroveSt) : (s.setGrove g x).osc = s.osc := State.upd_gld_osc s _
@[simp] theorem State.setGrove_isl (s : State) (g : Nat) (x : GroveSt) : (s.setGrove g x).isl = s.isl := State.upd_gld_isl s _
@[simp] theorem State.setGrove_alm (s : State) (g : Nat) (x : GroveSt) : (s.setGrove g x).alm = s.alm := State.upd_gld_alm s _
@[simp] theorem State.setGrove_cap (s : State) (g : Nat) (x : GroveSt) : (s.setGrove g x).cap = s.cap := State.upd_gld_cap s _
@[simp] theorem State.setGrove_acc (s : State) (g : Nat) (x : GroveSt) : (s.setGrove g x).acc = s.acc := State.upd_gld_acc s _
@[simp] theorem State.setGrove_cores (s : State) (g : Nat) (x : GroveSt) : (s.setGrove g x).cores = s.cores := State.upd_gld_cores s _
@[simp] theorem State.setGrove_net (s : State) (g : Nat) (x : GroveSt) : (s.setGrove g x).net = s.net := State.upd_gld_net s _
@[simp] theorem State.setGrove_rbt (s : State) (g : Nat) (x : GroveSt) : (s.setGrove g x).rbt = s.rbt := State.upd_gld_rbt s _
@[simp] theorem State.setGrove_xng (s : State) (g : Nat) (x : GroveSt) : (s.setGrove g x).xng = s.xng := State.upd_gld_xng s _
@[simp] theorem State.setGrove_ic (s : State) (g : Nat) (x : GroveSt) : (s.setGrove g x).ic = s.ic := State.upd_gld_ic s _
@[simp] theorem State.setGrove_hst (s : State) (g : Nat) (x : GroveSt) : (s.setGrove g x).hst = s.hst := State.upd_gld_hst s _
@[simp] theorem State.setGrove_err (s : State) (g : Nat) (x : GroveSt) : (s.setGrove g x).err = s.err := State.upd_gld_err s _
@[simp] theorem State.setGrove_und (s : State) (g : Nat) (x : GroveSt) : (s.setGrove g x).und = s.und := State.upd_gld_und s _
@[simp] theorem State.setGrove_sec (s : State) (g : Nat) (x : GroveSt) : (s.setGrove g x).sec = s.sec := State.upd_gld_sec s _
@[simp] theorem State.setGrove_free (s : State) (g : Nat) (x : GroveSt) : (s.setGrove g x).free = s.free := State.upd_gld_free s _
@[simp] theorem State.setGrove_out (s : State) (g : Nat) (x : GroveSt) : (s.setGrove g x).out = s.out := State.upd_gld_out s _
@[simp] theorem State.setGrove_pending (s : State) (g : Nat) (x : GroveSt) : (s.setGrove g x).pending = s.pending := State.upd_gld_pending s _
@[simp] theorem State.setAccOut_regs (s : State) (n : Nat) (x : AccOut) : (s.setAccOut n x).regs = s.regs := State.upd_acc_regs s _
@[simp] theorem State.setAccOut_uregs (s : State) (n : Nat) (x : AccOut) : (s.setAccOut n x).uregs = s.uregs := State.upd_acc_uregs s _
@[simp] theorem State.setAccOut_bank (s : State) (n : Nat) (x : AccOut) : (s.setAccOut n x).bank = s.bank := State.upd_acc_bank s _
@[simp] theorem State.setAccOut_latch (s : State) (n : Nat) (x : AccOut) : (s.setAccOut n x).latch = s.latch := State.upd_acc_latch s _
@[simp] theorem State.setAccOut_wide (s : State) (n : Nat) (x : AccOut) : (s.setAccOut n x).wide = s.wide := State.upd_acc_wide s _
@[simp] theorem State.setAccOut_uwide (s : State) (n : Nat) (x : AccOut) : (s.setAccOut n x).uwide = s.uwide := State.upd_acc_uwide s _
@[simp] theorem State.setAccOut_tbl (s : State) (n : Nat) (x : AccOut) : (s.setAccOut n x).tbl = s.tbl := State.upd_acc_tbl s _
@[simp] theorem State.setAccOut_saturated (s : State) (n : Nat) (x : AccOut) : (s.setAccOut n x).saturated = s.saturated := State.upd_acc_saturated s _
@[simp] theorem State.setAccOut_held (s : State) (n : Nat) (x : AccOut) : (s.setAccOut n x).held = s.held := State.upd_acc_held s _
@[simp] theorem State.setAccOut_snapHeld (s : State) (n : Nat) (x : AccOut) : (s.setAccOut n x).snapHeld = s.snapHeld := State.upd_acc_snapHeld s _
@[simp] theorem State.setAccOut_mem (s : State) (n : Nat) (x : AccOut) : (s.setAccOut n x).mem = s.mem := State.upd_acc_mem s _
@[simp] theorem State.setAccOut_mram (s : State) (n : Nat) (x : AccOut) : (s.setAccOut n x).mram = s.mram := State.upd_acc_mram s _
@[simp] theorem State.setAccOut_now (s : State) (n : Nat) (x : AccOut) : (s.setAccOut n x).now = s.now := State.upd_acc_now s _
@[simp] theorem State.setAccOut_sys (s : State) (n : Nat) (x : AccOut) : (s.setAccOut n x).sys = s.sys := State.upd_acc_sys s _
@[simp] theorem State.setAccOut_tim (s : State) (n : Nat) (x : AccOut) : (s.setAccOut n x).tim = s.tim := State.upd_acc_tim s _
@[simp] theorem State.setAccOut_ing (s : State) (n : Nat) (x : AccOut) : (s.setAccOut n x).ing = s.ing := State.upd_acc_ing s _
@[simp] theorem State.setAccOut_gld (s : State) (n : Nat) (x : AccOut) : (s.setAccOut n x).gld = s.gld := State.upd_acc_gld s _
@[simp] theorem State.setAccOut_flt (s : State) (n : Nat) (x : AccOut) : (s.setAccOut n x).flt = s.flt := State.upd_acc_flt s _
@[simp] theorem State.setAccOut_osc (s : State) (n : Nat) (x : AccOut) : (s.setAccOut n x).osc = s.osc := State.upd_acc_osc s _
@[simp] theorem State.setAccOut_isl (s : State) (n : Nat) (x : AccOut) : (s.setAccOut n x).isl = s.isl := State.upd_acc_isl s _
@[simp] theorem State.setAccOut_alm (s : State) (n : Nat) (x : AccOut) : (s.setAccOut n x).alm = s.alm := State.upd_acc_alm s _
@[simp] theorem State.setAccOut_cap (s : State) (n : Nat) (x : AccOut) : (s.setAccOut n x).cap = s.cap := State.upd_acc_cap s _
@[simp] theorem State.setAccOut_cores (s : State) (n : Nat) (x : AccOut) : (s.setAccOut n x).cores = s.cores := State.upd_acc_cores s _
@[simp] theorem State.setAccOut_net (s : State) (n : Nat) (x : AccOut) : (s.setAccOut n x).net = s.net := State.upd_acc_net s _
@[simp] theorem State.setAccOut_rbt (s : State) (n : Nat) (x : AccOut) : (s.setAccOut n x).rbt = s.rbt := State.upd_acc_rbt s _
@[simp] theorem State.setAccOut_xng (s : State) (n : Nat) (x : AccOut) : (s.setAccOut n x).xng = s.xng := State.upd_acc_xng s _
@[simp] theorem State.setAccOut_ic (s : State) (n : Nat) (x : AccOut) : (s.setAccOut n x).ic = s.ic := State.upd_acc_ic s _
@[simp] theorem State.setAccOut_hst (s : State) (n : Nat) (x : AccOut) : (s.setAccOut n x).hst = s.hst := State.upd_acc_hst s _
@[simp] theorem State.setAccOut_err (s : State) (n : Nat) (x : AccOut) : (s.setAccOut n x).err = s.err := State.upd_acc_err s _
@[simp] theorem State.setAccOut_und (s : State) (n : Nat) (x : AccOut) : (s.setAccOut n x).und = s.und := State.upd_acc_und s _
@[simp] theorem State.setAccOut_sec (s : State) (n : Nat) (x : AccOut) : (s.setAccOut n x).sec = s.sec := State.upd_acc_sec s _
@[simp] theorem State.setAccOut_free (s : State) (n : Nat) (x : AccOut) : (s.setAccOut n x).free = s.free := State.upd_acc_free s _
@[simp] theorem State.setAccOut_out (s : State) (n : Nat) (x : AccOut) : (s.setAccOut n x).out = s.out := State.upd_acc_out s _
@[simp] theorem State.setAccOut_pending (s : State) (n : Nat) (x : AccOut) : (s.setAccOut n x).pending = s.pending := State.upd_acc_pending s _
@[simp] theorem State.setAccIn_regs (s : State) (n : Nat) (x : AccIn) : (s.setAccIn n x).regs = s.regs := State.upd_acc_regs s _
@[simp] theorem State.setAccIn_uregs (s : State) (n : Nat) (x : AccIn) : (s.setAccIn n x).uregs = s.uregs := State.upd_acc_uregs s _
@[simp] theorem State.setAccIn_bank (s : State) (n : Nat) (x : AccIn) : (s.setAccIn n x).bank = s.bank := State.upd_acc_bank s _
@[simp] theorem State.setAccIn_latch (s : State) (n : Nat) (x : AccIn) : (s.setAccIn n x).latch = s.latch := State.upd_acc_latch s _
@[simp] theorem State.setAccIn_wide (s : State) (n : Nat) (x : AccIn) : (s.setAccIn n x).wide = s.wide := State.upd_acc_wide s _
@[simp] theorem State.setAccIn_uwide (s : State) (n : Nat) (x : AccIn) : (s.setAccIn n x).uwide = s.uwide := State.upd_acc_uwide s _
@[simp] theorem State.setAccIn_tbl (s : State) (n : Nat) (x : AccIn) : (s.setAccIn n x).tbl = s.tbl := State.upd_acc_tbl s _
@[simp] theorem State.setAccIn_saturated (s : State) (n : Nat) (x : AccIn) : (s.setAccIn n x).saturated = s.saturated := State.upd_acc_saturated s _
@[simp] theorem State.setAccIn_held (s : State) (n : Nat) (x : AccIn) : (s.setAccIn n x).held = s.held := State.upd_acc_held s _
@[simp] theorem State.setAccIn_snapHeld (s : State) (n : Nat) (x : AccIn) : (s.setAccIn n x).snapHeld = s.snapHeld := State.upd_acc_snapHeld s _
@[simp] theorem State.setAccIn_mem (s : State) (n : Nat) (x : AccIn) : (s.setAccIn n x).mem = s.mem := State.upd_acc_mem s _
@[simp] theorem State.setAccIn_mram (s : State) (n : Nat) (x : AccIn) : (s.setAccIn n x).mram = s.mram := State.upd_acc_mram s _
@[simp] theorem State.setAccIn_now (s : State) (n : Nat) (x : AccIn) : (s.setAccIn n x).now = s.now := State.upd_acc_now s _
@[simp] theorem State.setAccIn_sys (s : State) (n : Nat) (x : AccIn) : (s.setAccIn n x).sys = s.sys := State.upd_acc_sys s _
@[simp] theorem State.setAccIn_tim (s : State) (n : Nat) (x : AccIn) : (s.setAccIn n x).tim = s.tim := State.upd_acc_tim s _
@[simp] theorem State.setAccIn_ing (s : State) (n : Nat) (x : AccIn) : (s.setAccIn n x).ing = s.ing := State.upd_acc_ing s _
@[simp] theorem State.setAccIn_gld (s : State) (n : Nat) (x : AccIn) : (s.setAccIn n x).gld = s.gld := State.upd_acc_gld s _
@[simp] theorem State.setAccIn_flt (s : State) (n : Nat) (x : AccIn) : (s.setAccIn n x).flt = s.flt := State.upd_acc_flt s _
@[simp] theorem State.setAccIn_osc (s : State) (n : Nat) (x : AccIn) : (s.setAccIn n x).osc = s.osc := State.upd_acc_osc s _
@[simp] theorem State.setAccIn_isl (s : State) (n : Nat) (x : AccIn) : (s.setAccIn n x).isl = s.isl := State.upd_acc_isl s _
@[simp] theorem State.setAccIn_alm (s : State) (n : Nat) (x : AccIn) : (s.setAccIn n x).alm = s.alm := State.upd_acc_alm s _
@[simp] theorem State.setAccIn_cap (s : State) (n : Nat) (x : AccIn) : (s.setAccIn n x).cap = s.cap := State.upd_acc_cap s _
@[simp] theorem State.setAccIn_cores (s : State) (n : Nat) (x : AccIn) : (s.setAccIn n x).cores = s.cores := State.upd_acc_cores s _
@[simp] theorem State.setAccIn_net (s : State) (n : Nat) (x : AccIn) : (s.setAccIn n x).net = s.net := State.upd_acc_net s _
@[simp] theorem State.setAccIn_rbt (s : State) (n : Nat) (x : AccIn) : (s.setAccIn n x).rbt = s.rbt := State.upd_acc_rbt s _
@[simp] theorem State.setAccIn_xng (s : State) (n : Nat) (x : AccIn) : (s.setAccIn n x).xng = s.xng := State.upd_acc_xng s _
@[simp] theorem State.setAccIn_ic (s : State) (n : Nat) (x : AccIn) : (s.setAccIn n x).ic = s.ic := State.upd_acc_ic s _
@[simp] theorem State.setAccIn_hst (s : State) (n : Nat) (x : AccIn) : (s.setAccIn n x).hst = s.hst := State.upd_acc_hst s _
@[simp] theorem State.setAccIn_err (s : State) (n : Nat) (x : AccIn) : (s.setAccIn n x).err = s.err := State.upd_acc_err s _
@[simp] theorem State.setAccIn_und (s : State) (n : Nat) (x : AccIn) : (s.setAccIn n x).und = s.und := State.upd_acc_und s _
@[simp] theorem State.setAccIn_sec (s : State) (n : Nat) (x : AccIn) : (s.setAccIn n x).sec = s.sec := State.upd_acc_sec s _
@[simp] theorem State.setAccIn_free (s : State) (n : Nat) (x : AccIn) : (s.setAccIn n x).free = s.free := State.upd_acc_free s _
@[simp] theorem State.setAccIn_out (s : State) (n : Nat) (x : AccIn) : (s.setAccIn n x).out = s.out := State.upd_acc_out s _
@[simp] theorem State.setAccIn_pending (s : State) (n : Nat) (x : AccIn) : (s.setAccIn n x).pending = s.pending := State.upd_acc_pending s _
@[simp] theorem State.setPoint_regs (s : State) (p : Nat) (x : AlmPoint) : (s.setPoint p x).regs = s.regs := State.upd_alm_regs s _
@[simp] theorem State.setPoint_uregs (s : State) (p : Nat) (x : AlmPoint) : (s.setPoint p x).uregs = s.uregs := State.upd_alm_uregs s _
@[simp] theorem State.setPoint_bank (s : State) (p : Nat) (x : AlmPoint) : (s.setPoint p x).bank = s.bank := State.upd_alm_bank s _
@[simp] theorem State.setPoint_latch (s : State) (p : Nat) (x : AlmPoint) : (s.setPoint p x).latch = s.latch := State.upd_alm_latch s _
@[simp] theorem State.setPoint_wide (s : State) (p : Nat) (x : AlmPoint) : (s.setPoint p x).wide = s.wide := State.upd_alm_wide s _
@[simp] theorem State.setPoint_uwide (s : State) (p : Nat) (x : AlmPoint) : (s.setPoint p x).uwide = s.uwide := State.upd_alm_uwide s _
@[simp] theorem State.setPoint_tbl (s : State) (p : Nat) (x : AlmPoint) : (s.setPoint p x).tbl = s.tbl := State.upd_alm_tbl s _
@[simp] theorem State.setPoint_saturated (s : State) (p : Nat) (x : AlmPoint) : (s.setPoint p x).saturated = s.saturated := State.upd_alm_saturated s _
@[simp] theorem State.setPoint_held (s : State) (p : Nat) (x : AlmPoint) : (s.setPoint p x).held = s.held := State.upd_alm_held s _
@[simp] theorem State.setPoint_snapHeld (s : State) (p : Nat) (x : AlmPoint) : (s.setPoint p x).snapHeld = s.snapHeld := State.upd_alm_snapHeld s _
@[simp] theorem State.setPoint_mem (s : State) (p : Nat) (x : AlmPoint) : (s.setPoint p x).mem = s.mem := State.upd_alm_mem s _
@[simp] theorem State.setPoint_mram (s : State) (p : Nat) (x : AlmPoint) : (s.setPoint p x).mram = s.mram := State.upd_alm_mram s _
@[simp] theorem State.setPoint_now (s : State) (p : Nat) (x : AlmPoint) : (s.setPoint p x).now = s.now := State.upd_alm_now s _
@[simp] theorem State.setPoint_sys (s : State) (p : Nat) (x : AlmPoint) : (s.setPoint p x).sys = s.sys := State.upd_alm_sys s _
@[simp] theorem State.setPoint_tim (s : State) (p : Nat) (x : AlmPoint) : (s.setPoint p x).tim = s.tim := State.upd_alm_tim s _
@[simp] theorem State.setPoint_ing (s : State) (p : Nat) (x : AlmPoint) : (s.setPoint p x).ing = s.ing := State.upd_alm_ing s _
@[simp] theorem State.setPoint_gld (s : State) (p : Nat) (x : AlmPoint) : (s.setPoint p x).gld = s.gld := State.upd_alm_gld s _
@[simp] theorem State.setPoint_flt (s : State) (p : Nat) (x : AlmPoint) : (s.setPoint p x).flt = s.flt := State.upd_alm_flt s _
@[simp] theorem State.setPoint_osc (s : State) (p : Nat) (x : AlmPoint) : (s.setPoint p x).osc = s.osc := State.upd_alm_osc s _
@[simp] theorem State.setPoint_isl (s : State) (p : Nat) (x : AlmPoint) : (s.setPoint p x).isl = s.isl := State.upd_alm_isl s _
@[simp] theorem State.setPoint_cap (s : State) (p : Nat) (x : AlmPoint) : (s.setPoint p x).cap = s.cap := State.upd_alm_cap s _
@[simp] theorem State.setPoint_acc (s : State) (p : Nat) (x : AlmPoint) : (s.setPoint p x).acc = s.acc := State.upd_alm_acc s _
@[simp] theorem State.setPoint_cores (s : State) (p : Nat) (x : AlmPoint) : (s.setPoint p x).cores = s.cores := State.upd_alm_cores s _
@[simp] theorem State.setPoint_net (s : State) (p : Nat) (x : AlmPoint) : (s.setPoint p x).net = s.net := State.upd_alm_net s _
@[simp] theorem State.setPoint_rbt (s : State) (p : Nat) (x : AlmPoint) : (s.setPoint p x).rbt = s.rbt := State.upd_alm_rbt s _
@[simp] theorem State.setPoint_xng (s : State) (p : Nat) (x : AlmPoint) : (s.setPoint p x).xng = s.xng := State.upd_alm_xng s _
@[simp] theorem State.setPoint_ic (s : State) (p : Nat) (x : AlmPoint) : (s.setPoint p x).ic = s.ic := State.upd_alm_ic s _
@[simp] theorem State.setPoint_hst (s : State) (p : Nat) (x : AlmPoint) : (s.setPoint p x).hst = s.hst := State.upd_alm_hst s _
@[simp] theorem State.setPoint_err (s : State) (p : Nat) (x : AlmPoint) : (s.setPoint p x).err = s.err := State.upd_alm_err s _
@[simp] theorem State.setPoint_und (s : State) (p : Nat) (x : AlmPoint) : (s.setPoint p x).und = s.und := State.upd_alm_und s _
@[simp] theorem State.setPoint_sec (s : State) (p : Nat) (x : AlmPoint) : (s.setPoint p x).sec = s.sec := State.upd_alm_sec s _
@[simp] theorem State.setPoint_free (s : State) (p : Nat) (x : AlmPoint) : (s.setPoint p x).free = s.free := State.upd_alm_free s _
@[simp] theorem State.setPoint_out (s : State) (p : Nat) (x : AlmPoint) : (s.setPoint p x).out = s.out := State.upd_alm_out s _
@[simp] theorem State.setPoint_pending (s : State) (p : Nat) (x : AlmPoint) : (s.setPoint p x).pending = s.pending := State.upd_alm_pending s _
@[simp] theorem State.setBatch_regs (s : State) (c : Nat) (x : AlmBatch) : (s.setBatch c x).regs = s.regs := State.upd_alm_regs s _
@[simp] theorem State.setBatch_uregs (s : State) (c : Nat) (x : AlmBatch) : (s.setBatch c x).uregs = s.uregs := State.upd_alm_uregs s _
@[simp] theorem State.setBatch_bank (s : State) (c : Nat) (x : AlmBatch) : (s.setBatch c x).bank = s.bank := State.upd_alm_bank s _
@[simp] theorem State.setBatch_latch (s : State) (c : Nat) (x : AlmBatch) : (s.setBatch c x).latch = s.latch := State.upd_alm_latch s _
@[simp] theorem State.setBatch_wide (s : State) (c : Nat) (x : AlmBatch) : (s.setBatch c x).wide = s.wide := State.upd_alm_wide s _
@[simp] theorem State.setBatch_uwide (s : State) (c : Nat) (x : AlmBatch) : (s.setBatch c x).uwide = s.uwide := State.upd_alm_uwide s _
@[simp] theorem State.setBatch_tbl (s : State) (c : Nat) (x : AlmBatch) : (s.setBatch c x).tbl = s.tbl := State.upd_alm_tbl s _
@[simp] theorem State.setBatch_saturated (s : State) (c : Nat) (x : AlmBatch) : (s.setBatch c x).saturated = s.saturated := State.upd_alm_saturated s _
@[simp] theorem State.setBatch_held (s : State) (c : Nat) (x : AlmBatch) : (s.setBatch c x).held = s.held := State.upd_alm_held s _
@[simp] theorem State.setBatch_snapHeld (s : State) (c : Nat) (x : AlmBatch) : (s.setBatch c x).snapHeld = s.snapHeld := State.upd_alm_snapHeld s _
@[simp] theorem State.setBatch_mem (s : State) (c : Nat) (x : AlmBatch) : (s.setBatch c x).mem = s.mem := State.upd_alm_mem s _
@[simp] theorem State.setBatch_mram (s : State) (c : Nat) (x : AlmBatch) : (s.setBatch c x).mram = s.mram := State.upd_alm_mram s _
@[simp] theorem State.setBatch_now (s : State) (c : Nat) (x : AlmBatch) : (s.setBatch c x).now = s.now := State.upd_alm_now s _
@[simp] theorem State.setBatch_sys (s : State) (c : Nat) (x : AlmBatch) : (s.setBatch c x).sys = s.sys := State.upd_alm_sys s _
@[simp] theorem State.setBatch_tim (s : State) (c : Nat) (x : AlmBatch) : (s.setBatch c x).tim = s.tim := State.upd_alm_tim s _
@[simp] theorem State.setBatch_ing (s : State) (c : Nat) (x : AlmBatch) : (s.setBatch c x).ing = s.ing := State.upd_alm_ing s _
@[simp] theorem State.setBatch_gld (s : State) (c : Nat) (x : AlmBatch) : (s.setBatch c x).gld = s.gld := State.upd_alm_gld s _
@[simp] theorem State.setBatch_flt (s : State) (c : Nat) (x : AlmBatch) : (s.setBatch c x).flt = s.flt := State.upd_alm_flt s _
@[simp] theorem State.setBatch_osc (s : State) (c : Nat) (x : AlmBatch) : (s.setBatch c x).osc = s.osc := State.upd_alm_osc s _
@[simp] theorem State.setBatch_isl (s : State) (c : Nat) (x : AlmBatch) : (s.setBatch c x).isl = s.isl := State.upd_alm_isl s _
@[simp] theorem State.setBatch_cap (s : State) (c : Nat) (x : AlmBatch) : (s.setBatch c x).cap = s.cap := State.upd_alm_cap s _
@[simp] theorem State.setBatch_acc (s : State) (c : Nat) (x : AlmBatch) : (s.setBatch c x).acc = s.acc := State.upd_alm_acc s _
@[simp] theorem State.setBatch_cores (s : State) (c : Nat) (x : AlmBatch) : (s.setBatch c x).cores = s.cores := State.upd_alm_cores s _
@[simp] theorem State.setBatch_net (s : State) (c : Nat) (x : AlmBatch) : (s.setBatch c x).net = s.net := State.upd_alm_net s _
@[simp] theorem State.setBatch_rbt (s : State) (c : Nat) (x : AlmBatch) : (s.setBatch c x).rbt = s.rbt := State.upd_alm_rbt s _
@[simp] theorem State.setBatch_xng (s : State) (c : Nat) (x : AlmBatch) : (s.setBatch c x).xng = s.xng := State.upd_alm_xng s _
@[simp] theorem State.setBatch_ic (s : State) (c : Nat) (x : AlmBatch) : (s.setBatch c x).ic = s.ic := State.upd_alm_ic s _
@[simp] theorem State.setBatch_hst (s : State) (c : Nat) (x : AlmBatch) : (s.setBatch c x).hst = s.hst := State.upd_alm_hst s _
@[simp] theorem State.setBatch_err (s : State) (c : Nat) (x : AlmBatch) : (s.setBatch c x).err = s.err := State.upd_alm_err s _
@[simp] theorem State.setBatch_und (s : State) (c : Nat) (x : AlmBatch) : (s.setBatch c x).und = s.und := State.upd_alm_und s _
@[simp] theorem State.setBatch_sec (s : State) (c : Nat) (x : AlmBatch) : (s.setBatch c x).sec = s.sec := State.upd_alm_sec s _
@[simp] theorem State.setBatch_free (s : State) (c : Nat) (x : AlmBatch) : (s.setBatch c x).free = s.free := State.upd_alm_free s _
@[simp] theorem State.setBatch_out (s : State) (c : Nat) (x : AlmBatch) : (s.setBatch c x).out = s.out := State.upd_alm_out s _
@[simp] theorem State.setBatch_pending (s : State) (c : Nat) (x : AlmBatch) : (s.setBatch c x).pending = s.pending := State.upd_alm_pending s _
@[simp] theorem State.setPub_regs (s : State) (i : Nat) (x : PubSt) : (s.setPub i x).regs = s.regs := State.upd_alm_regs s _
@[simp] theorem State.setPub_uregs (s : State) (i : Nat) (x : PubSt) : (s.setPub i x).uregs = s.uregs := State.upd_alm_uregs s _
@[simp] theorem State.setPub_bank (s : State) (i : Nat) (x : PubSt) : (s.setPub i x).bank = s.bank := State.upd_alm_bank s _
@[simp] theorem State.setPub_latch (s : State) (i : Nat) (x : PubSt) : (s.setPub i x).latch = s.latch := State.upd_alm_latch s _
@[simp] theorem State.setPub_wide (s : State) (i : Nat) (x : PubSt) : (s.setPub i x).wide = s.wide := State.upd_alm_wide s _
@[simp] theorem State.setPub_uwide (s : State) (i : Nat) (x : PubSt) : (s.setPub i x).uwide = s.uwide := State.upd_alm_uwide s _
@[simp] theorem State.setPub_tbl (s : State) (i : Nat) (x : PubSt) : (s.setPub i x).tbl = s.tbl := State.upd_alm_tbl s _
@[simp] theorem State.setPub_saturated (s : State) (i : Nat) (x : PubSt) : (s.setPub i x).saturated = s.saturated := State.upd_alm_saturated s _
@[simp] theorem State.setPub_held (s : State) (i : Nat) (x : PubSt) : (s.setPub i x).held = s.held := State.upd_alm_held s _
@[simp] theorem State.setPub_snapHeld (s : State) (i : Nat) (x : PubSt) : (s.setPub i x).snapHeld = s.snapHeld := State.upd_alm_snapHeld s _
@[simp] theorem State.setPub_mem (s : State) (i : Nat) (x : PubSt) : (s.setPub i x).mem = s.mem := State.upd_alm_mem s _
@[simp] theorem State.setPub_mram (s : State) (i : Nat) (x : PubSt) : (s.setPub i x).mram = s.mram := State.upd_alm_mram s _
@[simp] theorem State.setPub_now (s : State) (i : Nat) (x : PubSt) : (s.setPub i x).now = s.now := State.upd_alm_now s _
@[simp] theorem State.setPub_sys (s : State) (i : Nat) (x : PubSt) : (s.setPub i x).sys = s.sys := State.upd_alm_sys s _
@[simp] theorem State.setPub_tim (s : State) (i : Nat) (x : PubSt) : (s.setPub i x).tim = s.tim := State.upd_alm_tim s _
@[simp] theorem State.setPub_ing (s : State) (i : Nat) (x : PubSt) : (s.setPub i x).ing = s.ing := State.upd_alm_ing s _
@[simp] theorem State.setPub_gld (s : State) (i : Nat) (x : PubSt) : (s.setPub i x).gld = s.gld := State.upd_alm_gld s _
@[simp] theorem State.setPub_flt (s : State) (i : Nat) (x : PubSt) : (s.setPub i x).flt = s.flt := State.upd_alm_flt s _
@[simp] theorem State.setPub_osc (s : State) (i : Nat) (x : PubSt) : (s.setPub i x).osc = s.osc := State.upd_alm_osc s _
@[simp] theorem State.setPub_isl (s : State) (i : Nat) (x : PubSt) : (s.setPub i x).isl = s.isl := State.upd_alm_isl s _
@[simp] theorem State.setPub_cap (s : State) (i : Nat) (x : PubSt) : (s.setPub i x).cap = s.cap := State.upd_alm_cap s _
@[simp] theorem State.setPub_acc (s : State) (i : Nat) (x : PubSt) : (s.setPub i x).acc = s.acc := State.upd_alm_acc s _
@[simp] theorem State.setPub_cores (s : State) (i : Nat) (x : PubSt) : (s.setPub i x).cores = s.cores := State.upd_alm_cores s _
@[simp] theorem State.setPub_net (s : State) (i : Nat) (x : PubSt) : (s.setPub i x).net = s.net := State.upd_alm_net s _
@[simp] theorem State.setPub_rbt (s : State) (i : Nat) (x : PubSt) : (s.setPub i x).rbt = s.rbt := State.upd_alm_rbt s _
@[simp] theorem State.setPub_xng (s : State) (i : Nat) (x : PubSt) : (s.setPub i x).xng = s.xng := State.upd_alm_xng s _
@[simp] theorem State.setPub_ic (s : State) (i : Nat) (x : PubSt) : (s.setPub i x).ic = s.ic := State.upd_alm_ic s _
@[simp] theorem State.setPub_hst (s : State) (i : Nat) (x : PubSt) : (s.setPub i x).hst = s.hst := State.upd_alm_hst s _
@[simp] theorem State.setPub_err (s : State) (i : Nat) (x : PubSt) : (s.setPub i x).err = s.err := State.upd_alm_err s _
@[simp] theorem State.setPub_und (s : State) (i : Nat) (x : PubSt) : (s.setPub i x).und = s.und := State.upd_alm_und s _
@[simp] theorem State.setPub_sec (s : State) (i : Nat) (x : PubSt) : (s.setPub i x).sec = s.sec := State.upd_alm_sec s _
@[simp] theorem State.setPub_free (s : State) (i : Nat) (x : PubSt) : (s.setPub i x).free = s.free := State.upd_alm_free s _
@[simp] theorem State.setPub_out (s : State) (i : Nat) (x : PubSt) : (s.setPub i x).out = s.out := State.upd_alm_out s _
@[simp] theorem State.setPub_pending (s : State) (i : Nat) (x : PubSt) : (s.setPub i x).pending = s.pending := State.upd_alm_pending s _
@[simp] theorem State.setCapSeq_regs (s : State) (k : Nat) (x : CapSeq) : (s.setCapSeq k x).regs = s.regs := State.upd_cap_regs s _
@[simp] theorem State.setCapSeq_uregs (s : State) (k : Nat) (x : CapSeq) : (s.setCapSeq k x).uregs = s.uregs := State.upd_cap_uregs s _
@[simp] theorem State.setCapSeq_bank (s : State) (k : Nat) (x : CapSeq) : (s.setCapSeq k x).bank = s.bank := State.upd_cap_bank s _
@[simp] theorem State.setCapSeq_latch (s : State) (k : Nat) (x : CapSeq) : (s.setCapSeq k x).latch = s.latch := State.upd_cap_latch s _
@[simp] theorem State.setCapSeq_wide (s : State) (k : Nat) (x : CapSeq) : (s.setCapSeq k x).wide = s.wide := State.upd_cap_wide s _
@[simp] theorem State.setCapSeq_uwide (s : State) (k : Nat) (x : CapSeq) : (s.setCapSeq k x).uwide = s.uwide := State.upd_cap_uwide s _
@[simp] theorem State.setCapSeq_tbl (s : State) (k : Nat) (x : CapSeq) : (s.setCapSeq k x).tbl = s.tbl := State.upd_cap_tbl s _
@[simp] theorem State.setCapSeq_saturated (s : State) (k : Nat) (x : CapSeq) : (s.setCapSeq k x).saturated = s.saturated := State.upd_cap_saturated s _
@[simp] theorem State.setCapSeq_held (s : State) (k : Nat) (x : CapSeq) : (s.setCapSeq k x).held = s.held := State.upd_cap_held s _
@[simp] theorem State.setCapSeq_snapHeld (s : State) (k : Nat) (x : CapSeq) : (s.setCapSeq k x).snapHeld = s.snapHeld := State.upd_cap_snapHeld s _
@[simp] theorem State.setCapSeq_mem (s : State) (k : Nat) (x : CapSeq) : (s.setCapSeq k x).mem = s.mem := State.upd_cap_mem s _
@[simp] theorem State.setCapSeq_mram (s : State) (k : Nat) (x : CapSeq) : (s.setCapSeq k x).mram = s.mram := State.upd_cap_mram s _
@[simp] theorem State.setCapSeq_now (s : State) (k : Nat) (x : CapSeq) : (s.setCapSeq k x).now = s.now := State.upd_cap_now s _
@[simp] theorem State.setCapSeq_sys (s : State) (k : Nat) (x : CapSeq) : (s.setCapSeq k x).sys = s.sys := State.upd_cap_sys s _
@[simp] theorem State.setCapSeq_tim (s : State) (k : Nat) (x : CapSeq) : (s.setCapSeq k x).tim = s.tim := State.upd_cap_tim s _
@[simp] theorem State.setCapSeq_ing (s : State) (k : Nat) (x : CapSeq) : (s.setCapSeq k x).ing = s.ing := State.upd_cap_ing s _
@[simp] theorem State.setCapSeq_gld (s : State) (k : Nat) (x : CapSeq) : (s.setCapSeq k x).gld = s.gld := State.upd_cap_gld s _
@[simp] theorem State.setCapSeq_flt (s : State) (k : Nat) (x : CapSeq) : (s.setCapSeq k x).flt = s.flt := State.upd_cap_flt s _
@[simp] theorem State.setCapSeq_osc (s : State) (k : Nat) (x : CapSeq) : (s.setCapSeq k x).osc = s.osc := State.upd_cap_osc s _
@[simp] theorem State.setCapSeq_isl (s : State) (k : Nat) (x : CapSeq) : (s.setCapSeq k x).isl = s.isl := State.upd_cap_isl s _
@[simp] theorem State.setCapSeq_alm (s : State) (k : Nat) (x : CapSeq) : (s.setCapSeq k x).alm = s.alm := State.upd_cap_alm s _
@[simp] theorem State.setCapSeq_acc (s : State) (k : Nat) (x : CapSeq) : (s.setCapSeq k x).acc = s.acc := State.upd_cap_acc s _
@[simp] theorem State.setCapSeq_cores (s : State) (k : Nat) (x : CapSeq) : (s.setCapSeq k x).cores = s.cores := State.upd_cap_cores s _
@[simp] theorem State.setCapSeq_net (s : State) (k : Nat) (x : CapSeq) : (s.setCapSeq k x).net = s.net := State.upd_cap_net s _
@[simp] theorem State.setCapSeq_rbt (s : State) (k : Nat) (x : CapSeq) : (s.setCapSeq k x).rbt = s.rbt := State.upd_cap_rbt s _
@[simp] theorem State.setCapSeq_xng (s : State) (k : Nat) (x : CapSeq) : (s.setCapSeq k x).xng = s.xng := State.upd_cap_xng s _
@[simp] theorem State.setCapSeq_ic (s : State) (k : Nat) (x : CapSeq) : (s.setCapSeq k x).ic = s.ic := State.upd_cap_ic s _
@[simp] theorem State.setCapSeq_hst (s : State) (k : Nat) (x : CapSeq) : (s.setCapSeq k x).hst = s.hst := State.upd_cap_hst s _
@[simp] theorem State.setCapSeq_err (s : State) (k : Nat) (x : CapSeq) : (s.setCapSeq k x).err = s.err := State.upd_cap_err s _
@[simp] theorem State.setCapSeq_und (s : State) (k : Nat) (x : CapSeq) : (s.setCapSeq k x).und = s.und := State.upd_cap_und s _
@[simp] theorem State.setCapSeq_sec (s : State) (k : Nat) (x : CapSeq) : (s.setCapSeq k x).sec = s.sec := State.upd_cap_sec s _
@[simp] theorem State.setCapSeq_free (s : State) (k : Nat) (x : CapSeq) : (s.setCapSeq k x).free = s.free := State.upd_cap_free s _
@[simp] theorem State.setCapSeq_out (s : State) (k : Nat) (x : CapSeq) : (s.setCapSeq k x).out = s.out := State.upd_cap_out s _
@[simp] theorem State.setCapSeq_pending (s : State) (k : Nat) (x : CapSeq) : (s.setCapSeq k x).pending = s.pending := State.upd_cap_pending s _
@[simp] theorem State.setFchan_regs (s : State) (k : Nat) (x : FChan) : (s.setFchan k x).regs = s.regs := State.upd_flt_regs s _
@[simp] theorem State.setFchan_uregs (s : State) (k : Nat) (x : FChan) : (s.setFchan k x).uregs = s.uregs := State.upd_flt_uregs s _
@[simp] theorem State.setFchan_bank (s : State) (k : Nat) (x : FChan) : (s.setFchan k x).bank = s.bank := State.upd_flt_bank s _
@[simp] theorem State.setFchan_latch (s : State) (k : Nat) (x : FChan) : (s.setFchan k x).latch = s.latch := State.upd_flt_latch s _
@[simp] theorem State.setFchan_wide (s : State) (k : Nat) (x : FChan) : (s.setFchan k x).wide = s.wide := State.upd_flt_wide s _
@[simp] theorem State.setFchan_uwide (s : State) (k : Nat) (x : FChan) : (s.setFchan k x).uwide = s.uwide := State.upd_flt_uwide s _
@[simp] theorem State.setFchan_tbl (s : State) (k : Nat) (x : FChan) : (s.setFchan k x).tbl = s.tbl := State.upd_flt_tbl s _
@[simp] theorem State.setFchan_saturated (s : State) (k : Nat) (x : FChan) : (s.setFchan k x).saturated = s.saturated := State.upd_flt_saturated s _
@[simp] theorem State.setFchan_held (s : State) (k : Nat) (x : FChan) : (s.setFchan k x).held = s.held := State.upd_flt_held s _
@[simp] theorem State.setFchan_snapHeld (s : State) (k : Nat) (x : FChan) : (s.setFchan k x).snapHeld = s.snapHeld := State.upd_flt_snapHeld s _
@[simp] theorem State.setFchan_mem (s : State) (k : Nat) (x : FChan) : (s.setFchan k x).mem = s.mem := State.upd_flt_mem s _
@[simp] theorem State.setFchan_mram (s : State) (k : Nat) (x : FChan) : (s.setFchan k x).mram = s.mram := State.upd_flt_mram s _
@[simp] theorem State.setFchan_now (s : State) (k : Nat) (x : FChan) : (s.setFchan k x).now = s.now := State.upd_flt_now s _
@[simp] theorem State.setFchan_sys (s : State) (k : Nat) (x : FChan) : (s.setFchan k x).sys = s.sys := State.upd_flt_sys s _
@[simp] theorem State.setFchan_tim (s : State) (k : Nat) (x : FChan) : (s.setFchan k x).tim = s.tim := State.upd_flt_tim s _
@[simp] theorem State.setFchan_ing (s : State) (k : Nat) (x : FChan) : (s.setFchan k x).ing = s.ing := State.upd_flt_ing s _
@[simp] theorem State.setFchan_gld (s : State) (k : Nat) (x : FChan) : (s.setFchan k x).gld = s.gld := State.upd_flt_gld s _
@[simp] theorem State.setFchan_osc (s : State) (k : Nat) (x : FChan) : (s.setFchan k x).osc = s.osc := State.upd_flt_osc s _
@[simp] theorem State.setFchan_isl (s : State) (k : Nat) (x : FChan) : (s.setFchan k x).isl = s.isl := State.upd_flt_isl s _
@[simp] theorem State.setFchan_alm (s : State) (k : Nat) (x : FChan) : (s.setFchan k x).alm = s.alm := State.upd_flt_alm s _
@[simp] theorem State.setFchan_cap (s : State) (k : Nat) (x : FChan) : (s.setFchan k x).cap = s.cap := State.upd_flt_cap s _
@[simp] theorem State.setFchan_acc (s : State) (k : Nat) (x : FChan) : (s.setFchan k x).acc = s.acc := State.upd_flt_acc s _
@[simp] theorem State.setFchan_cores (s : State) (k : Nat) (x : FChan) : (s.setFchan k x).cores = s.cores := State.upd_flt_cores s _
@[simp] theorem State.setFchan_net (s : State) (k : Nat) (x : FChan) : (s.setFchan k x).net = s.net := State.upd_flt_net s _
@[simp] theorem State.setFchan_rbt (s : State) (k : Nat) (x : FChan) : (s.setFchan k x).rbt = s.rbt := State.upd_flt_rbt s _
@[simp] theorem State.setFchan_xng (s : State) (k : Nat) (x : FChan) : (s.setFchan k x).xng = s.xng := State.upd_flt_xng s _
@[simp] theorem State.setFchan_ic (s : State) (k : Nat) (x : FChan) : (s.setFchan k x).ic = s.ic := State.upd_flt_ic s _
@[simp] theorem State.setFchan_hst (s : State) (k : Nat) (x : FChan) : (s.setFchan k x).hst = s.hst := State.upd_flt_hst s _
@[simp] theorem State.setFchan_err (s : State) (k : Nat) (x : FChan) : (s.setFchan k x).err = s.err := State.upd_flt_err s _
@[simp] theorem State.setFchan_und (s : State) (k : Nat) (x : FChan) : (s.setFchan k x).und = s.und := State.upd_flt_und s _
@[simp] theorem State.setFchan_sec (s : State) (k : Nat) (x : FChan) : (s.setFchan k x).sec = s.sec := State.upd_flt_sec s _
@[simp] theorem State.setFchan_free (s : State) (k : Nat) (x : FChan) : (s.setFchan k x).free = s.free := State.upd_flt_free s _
@[simp] theorem State.setFchan_out (s : State) (k : Nat) (x : FChan) : (s.setFchan k x).out = s.out := State.upd_flt_out s _
@[simp] theorem State.setFchan_pending (s : State) (k : Nat) (x : FChan) : (s.setFchan k x).pending = s.pending := State.upd_flt_pending s _
@[simp] theorem State.setSrc_regs (s : State) (key : Nat) (x : Src) : (s.setSrc key x).regs = s.regs := State.upd_ic_regs s _
@[simp] theorem State.setSrc_uregs (s : State) (key : Nat) (x : Src) : (s.setSrc key x).uregs = s.uregs := State.upd_ic_uregs s _
@[simp] theorem State.setSrc_bank (s : State) (key : Nat) (x : Src) : (s.setSrc key x).bank = s.bank := State.upd_ic_bank s _
@[simp] theorem State.setSrc_latch (s : State) (key : Nat) (x : Src) : (s.setSrc key x).latch = s.latch := State.upd_ic_latch s _
@[simp] theorem State.setSrc_wide (s : State) (key : Nat) (x : Src) : (s.setSrc key x).wide = s.wide := State.upd_ic_wide s _
@[simp] theorem State.setSrc_uwide (s : State) (key : Nat) (x : Src) : (s.setSrc key x).uwide = s.uwide := State.upd_ic_uwide s _
@[simp] theorem State.setSrc_tbl (s : State) (key : Nat) (x : Src) : (s.setSrc key x).tbl = s.tbl := State.upd_ic_tbl s _
@[simp] theorem State.setSrc_saturated (s : State) (key : Nat) (x : Src) : (s.setSrc key x).saturated = s.saturated := State.upd_ic_saturated s _
@[simp] theorem State.setSrc_held (s : State) (key : Nat) (x : Src) : (s.setSrc key x).held = s.held := State.upd_ic_held s _
@[simp] theorem State.setSrc_snapHeld (s : State) (key : Nat) (x : Src) : (s.setSrc key x).snapHeld = s.snapHeld := State.upd_ic_snapHeld s _
@[simp] theorem State.setSrc_mem (s : State) (key : Nat) (x : Src) : (s.setSrc key x).mem = s.mem := State.upd_ic_mem s _
@[simp] theorem State.setSrc_mram (s : State) (key : Nat) (x : Src) : (s.setSrc key x).mram = s.mram := State.upd_ic_mram s _
@[simp] theorem State.setSrc_now (s : State) (key : Nat) (x : Src) : (s.setSrc key x).now = s.now := State.upd_ic_now s _
@[simp] theorem State.setSrc_sys (s : State) (key : Nat) (x : Src) : (s.setSrc key x).sys = s.sys := State.upd_ic_sys s _
@[simp] theorem State.setSrc_tim (s : State) (key : Nat) (x : Src) : (s.setSrc key x).tim = s.tim := State.upd_ic_tim s _
@[simp] theorem State.setSrc_ing (s : State) (key : Nat) (x : Src) : (s.setSrc key x).ing = s.ing := State.upd_ic_ing s _
@[simp] theorem State.setSrc_gld (s : State) (key : Nat) (x : Src) : (s.setSrc key x).gld = s.gld := State.upd_ic_gld s _
@[simp] theorem State.setSrc_flt (s : State) (key : Nat) (x : Src) : (s.setSrc key x).flt = s.flt := State.upd_ic_flt s _
@[simp] theorem State.setSrc_osc (s : State) (key : Nat) (x : Src) : (s.setSrc key x).osc = s.osc := State.upd_ic_osc s _
@[simp] theorem State.setSrc_isl (s : State) (key : Nat) (x : Src) : (s.setSrc key x).isl = s.isl := State.upd_ic_isl s _
@[simp] theorem State.setSrc_alm (s : State) (key : Nat) (x : Src) : (s.setSrc key x).alm = s.alm := State.upd_ic_alm s _
@[simp] theorem State.setSrc_cap (s : State) (key : Nat) (x : Src) : (s.setSrc key x).cap = s.cap := State.upd_ic_cap s _
@[simp] theorem State.setSrc_acc (s : State) (key : Nat) (x : Src) : (s.setSrc key x).acc = s.acc := State.upd_ic_acc s _
@[simp] theorem State.setSrc_cores (s : State) (key : Nat) (x : Src) : (s.setSrc key x).cores = s.cores := State.upd_ic_cores s _
@[simp] theorem State.setSrc_net (s : State) (key : Nat) (x : Src) : (s.setSrc key x).net = s.net := State.upd_ic_net s _
@[simp] theorem State.setSrc_rbt (s : State) (key : Nat) (x : Src) : (s.setSrc key x).rbt = s.rbt := State.upd_ic_rbt s _
@[simp] theorem State.setSrc_xng (s : State) (key : Nat) (x : Src) : (s.setSrc key x).xng = s.xng := State.upd_ic_xng s _
@[simp] theorem State.setSrc_hst (s : State) (key : Nat) (x : Src) : (s.setSrc key x).hst = s.hst := State.upd_ic_hst s _
@[simp] theorem State.setSrc_err (s : State) (key : Nat) (x : Src) : (s.setSrc key x).err = s.err := State.upd_ic_err s _
@[simp] theorem State.setSrc_und (s : State) (key : Nat) (x : Src) : (s.setSrc key x).und = s.und := State.upd_ic_und s _
@[simp] theorem State.setSrc_sec (s : State) (key : Nat) (x : Src) : (s.setSrc key x).sec = s.sec := State.upd_ic_sec s _
@[simp] theorem State.setSrc_free (s : State) (key : Nat) (x : Src) : (s.setSrc key x).free = s.free := State.upd_ic_free s _
@[simp] theorem State.setSrc_out (s : State) (key : Nat) (x : Src) : (s.setSrc key x).out = s.out := State.upd_ic_out s _
@[simp] theorem State.setSrc_pending (s : State) (key : Nat) (x : Src) : (s.setSrc key x).pending = s.pending := State.upd_ic_pending s _
@[simp] theorem State.setConn_regs (s : State) (c : Nat) (x : TcpConn) : (s.setConn c x).regs = s.regs := (State.setTf_regs _ _ _ _).trans rfl
@[simp] theorem State.setConn_uregs (s : State) (c : Nat) (x : TcpConn) : (s.setConn c x).uregs = s.uregs := (State.setTf_uregs _ _ _ _).trans rfl
@[simp] theorem State.setConn_bank (s : State) (c : Nat) (x : TcpConn) : (s.setConn c x).bank = s.bank := (State.setTf_bank _ _ _ _).trans rfl
@[simp] theorem State.setConn_latch (s : State) (c : Nat) (x : TcpConn) : (s.setConn c x).latch = s.latch := (State.setTf_latch _ _ _ _).trans rfl
@[simp] theorem State.setConn_wide (s : State) (c : Nat) (x : TcpConn) : (s.setConn c x).wide = s.wide := (State.setTf_wide _ _ _ _).trans rfl
@[simp] theorem State.setConn_uwide (s : State) (c : Nat) (x : TcpConn) : (s.setConn c x).uwide = s.uwide := (State.setTf_uwide _ _ _ _).trans rfl
@[simp] theorem State.setConn_saturated (s : State) (c : Nat) (x : TcpConn) : (s.setConn c x).saturated = s.saturated := (State.setTf_saturated _ _ _ _).trans rfl
@[simp] theorem State.setConn_held (s : State) (c : Nat) (x : TcpConn) : (s.setConn c x).held = s.held := (State.setTf_held _ _ _ _).trans rfl
@[simp] theorem State.setConn_snapHeld (s : State) (c : Nat) (x : TcpConn) : (s.setConn c x).snapHeld = s.snapHeld := (State.setTf_snapHeld _ _ _ _).trans rfl
@[simp] theorem State.setConn_mem (s : State) (c : Nat) (x : TcpConn) : (s.setConn c x).mem = s.mem := (State.setTf_mem _ _ _ _).trans rfl
@[simp] theorem State.setConn_mram (s : State) (c : Nat) (x : TcpConn) : (s.setConn c x).mram = s.mram := (State.setTf_mram _ _ _ _).trans rfl
@[simp] theorem State.setConn_now (s : State) (c : Nat) (x : TcpConn) : (s.setConn c x).now = s.now := (State.setTf_now _ _ _ _).trans rfl
@[simp] theorem State.setConn_sys (s : State) (c : Nat) (x : TcpConn) : (s.setConn c x).sys = s.sys := (State.setTf_sys _ _ _ _).trans rfl
@[simp] theorem State.setConn_tim (s : State) (c : Nat) (x : TcpConn) : (s.setConn c x).tim = s.tim := (State.setTf_tim _ _ _ _).trans rfl
@[simp] theorem State.setConn_gld (s : State) (c : Nat) (x : TcpConn) : (s.setConn c x).gld = s.gld := (State.setTf_gld _ _ _ _).trans rfl
@[simp] theorem State.setConn_flt (s : State) (c : Nat) (x : TcpConn) : (s.setConn c x).flt = s.flt := (State.setTf_flt _ _ _ _).trans rfl
@[simp] theorem State.setConn_osc (s : State) (c : Nat) (x : TcpConn) : (s.setConn c x).osc = s.osc := (State.setTf_osc _ _ _ _).trans rfl
@[simp] theorem State.setConn_isl (s : State) (c : Nat) (x : TcpConn) : (s.setConn c x).isl = s.isl := (State.setTf_isl _ _ _ _).trans rfl
@[simp] theorem State.setConn_alm (s : State) (c : Nat) (x : TcpConn) : (s.setConn c x).alm = s.alm := (State.setTf_alm _ _ _ _).trans rfl
@[simp] theorem State.setConn_cap (s : State) (c : Nat) (x : TcpConn) : (s.setConn c x).cap = s.cap := (State.setTf_cap _ _ _ _).trans rfl
@[simp] theorem State.setConn_acc (s : State) (c : Nat) (x : TcpConn) : (s.setConn c x).acc = s.acc := (State.setTf_acc _ _ _ _).trans rfl
@[simp] theorem State.setConn_cores (s : State) (c : Nat) (x : TcpConn) : (s.setConn c x).cores = s.cores := (State.setTf_cores _ _ _ _).trans rfl
@[simp] theorem State.setConn_net (s : State) (c : Nat) (x : TcpConn) : (s.setConn c x).net = s.net := (State.setTf_net _ _ _ _).trans rfl
@[simp] theorem State.setConn_rbt (s : State) (c : Nat) (x : TcpConn) : (s.setConn c x).rbt = s.rbt := (State.setTf_rbt _ _ _ _).trans rfl
@[simp] theorem State.setConn_xng (s : State) (c : Nat) (x : TcpConn) : (s.setConn c x).xng = s.xng := (State.setTf_xng _ _ _ _).trans rfl
@[simp] theorem State.setConn_ic (s : State) (c : Nat) (x : TcpConn) : (s.setConn c x).ic = s.ic := (State.setTf_ic _ _ _ _).trans rfl
@[simp] theorem State.setConn_hst (s : State) (c : Nat) (x : TcpConn) : (s.setConn c x).hst = s.hst := (State.setTf_hst _ _ _ _).trans rfl
@[simp] theorem State.setConn_err (s : State) (c : Nat) (x : TcpConn) : (s.setConn c x).err = s.err := (State.setTf_err _ _ _ _).trans rfl
@[simp] theorem State.setConn_und (s : State) (c : Nat) (x : TcpConn) : (s.setConn c x).und = s.und := (State.setTf_und _ _ _ _).trans rfl
@[simp] theorem State.setConn_sec (s : State) (c : Nat) (x : TcpConn) : (s.setConn c x).sec = s.sec := (State.setTf_sec _ _ _ _).trans rfl
@[simp] theorem State.setConn_free (s : State) (c : Nat) (x : TcpConn) : (s.setConn c x).free = s.free := (State.setTf_free _ _ _ _).trans rfl
@[simp] theorem State.setConn_out (s : State) (c : Nat) (x : TcpConn) : (s.setConn c x).out = s.out := (State.setTf_out _ _ _ _).trans rfl
@[simp] theorem State.setConn_pending (s : State) (c : Nat) (x : TcpConn) : (s.setConn c x).pending = s.pending := (State.setTf_pending _ _ _ _).trans rfl
@[simp] theorem State.setTracker_regs (s : State) (j : Nat) (x : Tracker) : (s.setTracker j x).regs = s.regs := State.upd_osc_regs s _
@[simp] theorem State.setTracker_uregs (s : State) (j : Nat) (x : Tracker) : (s.setTracker j x).uregs = s.uregs := State.upd_osc_uregs s _
@[simp] theorem State.setTracker_bank (s : State) (j : Nat) (x : Tracker) : (s.setTracker j x).bank = s.bank := State.upd_osc_bank s _
@[simp] theorem State.setTracker_latch (s : State) (j : Nat) (x : Tracker) : (s.setTracker j x).latch = s.latch := State.upd_osc_latch s _
@[simp] theorem State.setTracker_wide (s : State) (j : Nat) (x : Tracker) : (s.setTracker j x).wide = s.wide := State.upd_osc_wide s _
@[simp] theorem State.setTracker_uwide (s : State) (j : Nat) (x : Tracker) : (s.setTracker j x).uwide = s.uwide := State.upd_osc_uwide s _
@[simp] theorem State.setTracker_tbl (s : State) (j : Nat) (x : Tracker) : (s.setTracker j x).tbl = s.tbl := State.upd_osc_tbl s _
@[simp] theorem State.setTracker_saturated (s : State) (j : Nat) (x : Tracker) : (s.setTracker j x).saturated = s.saturated := State.upd_osc_saturated s _
@[simp] theorem State.setTracker_held (s : State) (j : Nat) (x : Tracker) : (s.setTracker j x).held = s.held := State.upd_osc_held s _
@[simp] theorem State.setTracker_snapHeld (s : State) (j : Nat) (x : Tracker) : (s.setTracker j x).snapHeld = s.snapHeld := State.upd_osc_snapHeld s _
@[simp] theorem State.setTracker_mem (s : State) (j : Nat) (x : Tracker) : (s.setTracker j x).mem = s.mem := State.upd_osc_mem s _
@[simp] theorem State.setTracker_mram (s : State) (j : Nat) (x : Tracker) : (s.setTracker j x).mram = s.mram := State.upd_osc_mram s _
@[simp] theorem State.setTracker_now (s : State) (j : Nat) (x : Tracker) : (s.setTracker j x).now = s.now := State.upd_osc_now s _
@[simp] theorem State.setTracker_sys (s : State) (j : Nat) (x : Tracker) : (s.setTracker j x).sys = s.sys := State.upd_osc_sys s _
@[simp] theorem State.setTracker_tim (s : State) (j : Nat) (x : Tracker) : (s.setTracker j x).tim = s.tim := State.upd_osc_tim s _
@[simp] theorem State.setTracker_ing (s : State) (j : Nat) (x : Tracker) : (s.setTracker j x).ing = s.ing := State.upd_osc_ing s _
@[simp] theorem State.setTracker_gld (s : State) (j : Nat) (x : Tracker) : (s.setTracker j x).gld = s.gld := State.upd_osc_gld s _
@[simp] theorem State.setTracker_flt (s : State) (j : Nat) (x : Tracker) : (s.setTracker j x).flt = s.flt := State.upd_osc_flt s _
@[simp] theorem State.setTracker_isl (s : State) (j : Nat) (x : Tracker) : (s.setTracker j x).isl = s.isl := State.upd_osc_isl s _
@[simp] theorem State.setTracker_alm (s : State) (j : Nat) (x : Tracker) : (s.setTracker j x).alm = s.alm := State.upd_osc_alm s _
@[simp] theorem State.setTracker_cap (s : State) (j : Nat) (x : Tracker) : (s.setTracker j x).cap = s.cap := State.upd_osc_cap s _
@[simp] theorem State.setTracker_acc (s : State) (j : Nat) (x : Tracker) : (s.setTracker j x).acc = s.acc := State.upd_osc_acc s _
@[simp] theorem State.setTracker_cores (s : State) (j : Nat) (x : Tracker) : (s.setTracker j x).cores = s.cores := State.upd_osc_cores s _
@[simp] theorem State.setTracker_net (s : State) (j : Nat) (x : Tracker) : (s.setTracker j x).net = s.net := State.upd_osc_net s _
@[simp] theorem State.setTracker_rbt (s : State) (j : Nat) (x : Tracker) : (s.setTracker j x).rbt = s.rbt := State.upd_osc_rbt s _
@[simp] theorem State.setTracker_xng (s : State) (j : Nat) (x : Tracker) : (s.setTracker j x).xng = s.xng := State.upd_osc_xng s _
@[simp] theorem State.setTracker_ic (s : State) (j : Nat) (x : Tracker) : (s.setTracker j x).ic = s.ic := State.upd_osc_ic s _
@[simp] theorem State.setTracker_hst (s : State) (j : Nat) (x : Tracker) : (s.setTracker j x).hst = s.hst := State.upd_osc_hst s _
@[simp] theorem State.setTracker_err (s : State) (j : Nat) (x : Tracker) : (s.setTracker j x).err = s.err := State.upd_osc_err s _
@[simp] theorem State.setTracker_und (s : State) (j : Nat) (x : Tracker) : (s.setTracker j x).und = s.und := State.upd_osc_und s _
@[simp] theorem State.setTracker_sec (s : State) (j : Nat) (x : Tracker) : (s.setTracker j x).sec = s.sec := State.upd_osc_sec s _
@[simp] theorem State.setTracker_free (s : State) (j : Nat) (x : Tracker) : (s.setTracker j x).free = s.free := State.upd_osc_free s _
@[simp] theorem State.setTracker_out (s : State) (j : Nat) (x : Tracker) : (s.setTracker j x).out = s.out := State.upd_osc_out s _
@[simp] theorem State.setTracker_pending (s : State) (j : Nat) (x : Tracker) : (s.setTracker j x).pending = s.pending := State.upd_osc_pending s _
@[simp] theorem State.setSlot_regs (s : State) (i : Nat) (x : BankSlot) : (s.setSlot i x).regs = s.regs := State.upd_osc_regs s _
@[simp] theorem State.setSlot_uregs (s : State) (i : Nat) (x : BankSlot) : (s.setSlot i x).uregs = s.uregs := State.upd_osc_uregs s _
@[simp] theorem State.setSlot_bank (s : State) (i : Nat) (x : BankSlot) : (s.setSlot i x).bank = s.bank := State.upd_osc_bank s _
@[simp] theorem State.setSlot_latch (s : State) (i : Nat) (x : BankSlot) : (s.setSlot i x).latch = s.latch := State.upd_osc_latch s _
@[simp] theorem State.setSlot_wide (s : State) (i : Nat) (x : BankSlot) : (s.setSlot i x).wide = s.wide := State.upd_osc_wide s _
@[simp] theorem State.setSlot_uwide (s : State) (i : Nat) (x : BankSlot) : (s.setSlot i x).uwide = s.uwide := State.upd_osc_uwide s _
@[simp] theorem State.setSlot_tbl (s : State) (i : Nat) (x : BankSlot) : (s.setSlot i x).tbl = s.tbl := State.upd_osc_tbl s _
@[simp] theorem State.setSlot_saturated (s : State) (i : Nat) (x : BankSlot) : (s.setSlot i x).saturated = s.saturated := State.upd_osc_saturated s _
@[simp] theorem State.setSlot_held (s : State) (i : Nat) (x : BankSlot) : (s.setSlot i x).held = s.held := State.upd_osc_held s _
@[simp] theorem State.setSlot_snapHeld (s : State) (i : Nat) (x : BankSlot) : (s.setSlot i x).snapHeld = s.snapHeld := State.upd_osc_snapHeld s _
@[simp] theorem State.setSlot_mem (s : State) (i : Nat) (x : BankSlot) : (s.setSlot i x).mem = s.mem := State.upd_osc_mem s _
@[simp] theorem State.setSlot_mram (s : State) (i : Nat) (x : BankSlot) : (s.setSlot i x).mram = s.mram := State.upd_osc_mram s _
@[simp] theorem State.setSlot_now (s : State) (i : Nat) (x : BankSlot) : (s.setSlot i x).now = s.now := State.upd_osc_now s _
@[simp] theorem State.setSlot_sys (s : State) (i : Nat) (x : BankSlot) : (s.setSlot i x).sys = s.sys := State.upd_osc_sys s _
@[simp] theorem State.setSlot_tim (s : State) (i : Nat) (x : BankSlot) : (s.setSlot i x).tim = s.tim := State.upd_osc_tim s _
@[simp] theorem State.setSlot_ing (s : State) (i : Nat) (x : BankSlot) : (s.setSlot i x).ing = s.ing := State.upd_osc_ing s _
@[simp] theorem State.setSlot_gld (s : State) (i : Nat) (x : BankSlot) : (s.setSlot i x).gld = s.gld := State.upd_osc_gld s _
@[simp] theorem State.setSlot_flt (s : State) (i : Nat) (x : BankSlot) : (s.setSlot i x).flt = s.flt := State.upd_osc_flt s _
@[simp] theorem State.setSlot_isl (s : State) (i : Nat) (x : BankSlot) : (s.setSlot i x).isl = s.isl := State.upd_osc_isl s _
@[simp] theorem State.setSlot_alm (s : State) (i : Nat) (x : BankSlot) : (s.setSlot i x).alm = s.alm := State.upd_osc_alm s _
@[simp] theorem State.setSlot_cap (s : State) (i : Nat) (x : BankSlot) : (s.setSlot i x).cap = s.cap := State.upd_osc_cap s _
@[simp] theorem State.setSlot_acc (s : State) (i : Nat) (x : BankSlot) : (s.setSlot i x).acc = s.acc := State.upd_osc_acc s _
@[simp] theorem State.setSlot_cores (s : State) (i : Nat) (x : BankSlot) : (s.setSlot i x).cores = s.cores := State.upd_osc_cores s _
@[simp] theorem State.setSlot_net (s : State) (i : Nat) (x : BankSlot) : (s.setSlot i x).net = s.net := State.upd_osc_net s _
@[simp] theorem State.setSlot_rbt (s : State) (i : Nat) (x : BankSlot) : (s.setSlot i x).rbt = s.rbt := State.upd_osc_rbt s _
@[simp] theorem State.setSlot_xng (s : State) (i : Nat) (x : BankSlot) : (s.setSlot i x).xng = s.xng := State.upd_osc_xng s _
@[simp] theorem State.setSlot_ic (s : State) (i : Nat) (x : BankSlot) : (s.setSlot i x).ic = s.ic := State.upd_osc_ic s _
@[simp] theorem State.setSlot_hst (s : State) (i : Nat) (x : BankSlot) : (s.setSlot i x).hst = s.hst := State.upd_osc_hst s _
@[simp] theorem State.setSlot_err (s : State) (i : Nat) (x : BankSlot) : (s.setSlot i x).err = s.err := State.upd_osc_err s _
@[simp] theorem State.setSlot_und (s : State) (i : Nat) (x : BankSlot) : (s.setSlot i x).und = s.und := State.upd_osc_und s _
@[simp] theorem State.setSlot_sec (s : State) (i : Nat) (x : BankSlot) : (s.setSlot i x).sec = s.sec := State.upd_osc_sec s _
@[simp] theorem State.setSlot_free (s : State) (i : Nat) (x : BankSlot) : (s.setSlot i x).free = s.free := State.upd_osc_free s _
@[simp] theorem State.setSlot_out (s : State) (i : Nat) (x : BankSlot) : (s.setSlot i x).out = s.out := State.upd_osc_out s _
@[simp] theorem State.setSlot_pending (s : State) (i : Nat) (x : BankSlot) : (s.setSlot i x).pending = s.pending := State.upd_osc_pending s _
@[simp] theorem State.setBox_regs (s : State) (m : Nat) (b : Mbox) : (s.setBox m b).regs = s.regs := State.upd_rbt_regs s _
@[simp] theorem State.setBox_uregs (s : State) (m : Nat) (b : Mbox) : (s.setBox m b).uregs = s.uregs := State.upd_rbt_uregs s _
@[simp] theorem State.setBox_bank (s : State) (m : Nat) (b : Mbox) : (s.setBox m b).bank = s.bank := State.upd_rbt_bank s _
@[simp] theorem State.setBox_latch (s : State) (m : Nat) (b : Mbox) : (s.setBox m b).latch = s.latch := State.upd_rbt_latch s _
@[simp] theorem State.setBox_wide (s : State) (m : Nat) (b : Mbox) : (s.setBox m b).wide = s.wide := State.upd_rbt_wide s _
@[simp] theorem State.setBox_uwide (s : State) (m : Nat) (b : Mbox) : (s.setBox m b).uwide = s.uwide := State.upd_rbt_uwide s _
@[simp] theorem State.setBox_tbl (s : State) (m : Nat) (b : Mbox) : (s.setBox m b).tbl = s.tbl := State.upd_rbt_tbl s _
@[simp] theorem State.setBox_saturated (s : State) (m : Nat) (b : Mbox) : (s.setBox m b).saturated = s.saturated := State.upd_rbt_saturated s _
@[simp] theorem State.setBox_held (s : State) (m : Nat) (b : Mbox) : (s.setBox m b).held = s.held := State.upd_rbt_held s _
@[simp] theorem State.setBox_snapHeld (s : State) (m : Nat) (b : Mbox) : (s.setBox m b).snapHeld = s.snapHeld := State.upd_rbt_snapHeld s _
@[simp] theorem State.setBox_mem (s : State) (m : Nat) (b : Mbox) : (s.setBox m b).mem = s.mem := State.upd_rbt_mem s _
@[simp] theorem State.setBox_mram (s : State) (m : Nat) (b : Mbox) : (s.setBox m b).mram = s.mram := State.upd_rbt_mram s _
@[simp] theorem State.setBox_now (s : State) (m : Nat) (b : Mbox) : (s.setBox m b).now = s.now := State.upd_rbt_now s _
@[simp] theorem State.setBox_sys (s : State) (m : Nat) (b : Mbox) : (s.setBox m b).sys = s.sys := State.upd_rbt_sys s _
@[simp] theorem State.setBox_tim (s : State) (m : Nat) (b : Mbox) : (s.setBox m b).tim = s.tim := State.upd_rbt_tim s _
@[simp] theorem State.setBox_ing (s : State) (m : Nat) (b : Mbox) : (s.setBox m b).ing = s.ing := State.upd_rbt_ing s _
@[simp] theorem State.setBox_gld (s : State) (m : Nat) (b : Mbox) : (s.setBox m b).gld = s.gld := State.upd_rbt_gld s _
@[simp] theorem State.setBox_flt (s : State) (m : Nat) (b : Mbox) : (s.setBox m b).flt = s.flt := State.upd_rbt_flt s _
@[simp] theorem State.setBox_osc (s : State) (m : Nat) (b : Mbox) : (s.setBox m b).osc = s.osc := State.upd_rbt_osc s _
@[simp] theorem State.setBox_isl (s : State) (m : Nat) (b : Mbox) : (s.setBox m b).isl = s.isl := State.upd_rbt_isl s _
@[simp] theorem State.setBox_alm (s : State) (m : Nat) (b : Mbox) : (s.setBox m b).alm = s.alm := State.upd_rbt_alm s _
@[simp] theorem State.setBox_cap (s : State) (m : Nat) (b : Mbox) : (s.setBox m b).cap = s.cap := State.upd_rbt_cap s _
@[simp] theorem State.setBox_acc (s : State) (m : Nat) (b : Mbox) : (s.setBox m b).acc = s.acc := State.upd_rbt_acc s _
@[simp] theorem State.setBox_cores (s : State) (m : Nat) (b : Mbox) : (s.setBox m b).cores = s.cores := State.upd_rbt_cores s _
@[simp] theorem State.setBox_net (s : State) (m : Nat) (b : Mbox) : (s.setBox m b).net = s.net := State.upd_rbt_net s _
@[simp] theorem State.setBox_xng (s : State) (m : Nat) (b : Mbox) : (s.setBox m b).xng = s.xng := State.upd_rbt_xng s _
@[simp] theorem State.setBox_ic (s : State) (m : Nat) (b : Mbox) : (s.setBox m b).ic = s.ic := State.upd_rbt_ic s _
@[simp] theorem State.setBox_hst (s : State) (m : Nat) (b : Mbox) : (s.setBox m b).hst = s.hst := State.upd_rbt_hst s _
@[simp] theorem State.setBox_err (s : State) (m : Nat) (b : Mbox) : (s.setBox m b).err = s.err := State.upd_rbt_err s _
@[simp] theorem State.setBox_und (s : State) (m : Nat) (b : Mbox) : (s.setBox m b).und = s.und := State.upd_rbt_und s _
@[simp] theorem State.setBox_sec (s : State) (m : Nat) (b : Mbox) : (s.setBox m b).sec = s.sec := State.upd_rbt_sec s _
@[simp] theorem State.setBox_free (s : State) (m : Nat) (b : Mbox) : (s.setBox m b).free = s.free := State.upd_rbt_free s _
@[simp] theorem State.setBox_out (s : State) (m : Nat) (b : Mbox) : (s.setBox m b).out = s.out := State.upd_rbt_out s _
@[simp] theorem State.setBox_pending (s : State) (m : Nat) (b : Mbox) : (s.setBox m b).pending = s.pending := State.upd_rbt_pending s _
@[simp] theorem State.setLock_regs (s : State) (n x : Nat) : (s.setLock n x).regs = s.regs := State.upd_rbt_regs s _
@[simp] theorem State.setLock_uregs (s : State) (n x : Nat) : (s.setLock n x).uregs = s.uregs := State.upd_rbt_uregs s _
@[simp] theorem State.setLock_bank (s : State) (n x : Nat) : (s.setLock n x).bank = s.bank := State.upd_rbt_bank s _
@[simp] theorem State.setLock_latch (s : State) (n x : Nat) : (s.setLock n x).latch = s.latch := State.upd_rbt_latch s _
@[simp] theorem State.setLock_wide (s : State) (n x : Nat) : (s.setLock n x).wide = s.wide := State.upd_rbt_wide s _
@[simp] theorem State.setLock_uwide (s : State) (n x : Nat) : (s.setLock n x).uwide = s.uwide := State.upd_rbt_uwide s _
@[simp] theorem State.setLock_tbl (s : State) (n x : Nat) : (s.setLock n x).tbl = s.tbl := State.upd_rbt_tbl s _
@[simp] theorem State.setLock_saturated (s : State) (n x : Nat) : (s.setLock n x).saturated = s.saturated := State.upd_rbt_saturated s _
@[simp] theorem State.setLock_held (s : State) (n x : Nat) : (s.setLock n x).held = s.held := State.upd_rbt_held s _
@[simp] theorem State.setLock_snapHeld (s : State) (n x : Nat) : (s.setLock n x).snapHeld = s.snapHeld := State.upd_rbt_snapHeld s _
@[simp] theorem State.setLock_mem (s : State) (n x : Nat) : (s.setLock n x).mem = s.mem := State.upd_rbt_mem s _
@[simp] theorem State.setLock_mram (s : State) (n x : Nat) : (s.setLock n x).mram = s.mram := State.upd_rbt_mram s _
@[simp] theorem State.setLock_now (s : State) (n x : Nat) : (s.setLock n x).now = s.now := State.upd_rbt_now s _
@[simp] theorem State.setLock_sys (s : State) (n x : Nat) : (s.setLock n x).sys = s.sys := State.upd_rbt_sys s _
@[simp] theorem State.setLock_tim (s : State) (n x : Nat) : (s.setLock n x).tim = s.tim := State.upd_rbt_tim s _
@[simp] theorem State.setLock_ing (s : State) (n x : Nat) : (s.setLock n x).ing = s.ing := State.upd_rbt_ing s _
@[simp] theorem State.setLock_gld (s : State) (n x : Nat) : (s.setLock n x).gld = s.gld := State.upd_rbt_gld s _
@[simp] theorem State.setLock_flt (s : State) (n x : Nat) : (s.setLock n x).flt = s.flt := State.upd_rbt_flt s _
@[simp] theorem State.setLock_osc (s : State) (n x : Nat) : (s.setLock n x).osc = s.osc := State.upd_rbt_osc s _
@[simp] theorem State.setLock_isl (s : State) (n x : Nat) : (s.setLock n x).isl = s.isl := State.upd_rbt_isl s _
@[simp] theorem State.setLock_alm (s : State) (n x : Nat) : (s.setLock n x).alm = s.alm := State.upd_rbt_alm s _
@[simp] theorem State.setLock_cap (s : State) (n x : Nat) : (s.setLock n x).cap = s.cap := State.upd_rbt_cap s _
@[simp] theorem State.setLock_acc (s : State) (n x : Nat) : (s.setLock n x).acc = s.acc := State.upd_rbt_acc s _
@[simp] theorem State.setLock_cores (s : State) (n x : Nat) : (s.setLock n x).cores = s.cores := State.upd_rbt_cores s _
@[simp] theorem State.setLock_net (s : State) (n x : Nat) : (s.setLock n x).net = s.net := State.upd_rbt_net s _
@[simp] theorem State.setLock_xng (s : State) (n x : Nat) : (s.setLock n x).xng = s.xng := State.upd_rbt_xng s _
@[simp] theorem State.setLock_ic (s : State) (n x : Nat) : (s.setLock n x).ic = s.ic := State.upd_rbt_ic s _
@[simp] theorem State.setLock_hst (s : State) (n x : Nat) : (s.setLock n x).hst = s.hst := State.upd_rbt_hst s _
@[simp] theorem State.setLock_err (s : State) (n x : Nat) : (s.setLock n x).err = s.err := State.upd_rbt_err s _
@[simp] theorem State.setLock_und (s : State) (n x : Nat) : (s.setLock n x).und = s.und := State.upd_rbt_und s _
@[simp] theorem State.setLock_sec (s : State) (n x : Nat) : (s.setLock n x).sec = s.sec := State.upd_rbt_sec s _
@[simp] theorem State.setLock_free (s : State) (n x : Nat) : (s.setLock n x).free = s.free := State.upd_rbt_free s _
@[simp] theorem State.setLock_out (s : State) (n x : Nat) : (s.setLock n x).out = s.out := State.upd_rbt_out s _
@[simp] theorem State.setLock_pending (s : State) (n x : Nat) : (s.setLock n x).pending = s.pending := State.upd_rbt_pending s _
@[simp] theorem State.setKey_regs (s : State) (k : Nat) (x : KeyState) : (s.setKey k x).regs = s.regs := State.upd_rbt_regs s _
@[simp] theorem State.setKey_uregs (s : State) (k : Nat) (x : KeyState) : (s.setKey k x).uregs = s.uregs := State.upd_rbt_uregs s _
@[simp] theorem State.setKey_bank (s : State) (k : Nat) (x : KeyState) : (s.setKey k x).bank = s.bank := State.upd_rbt_bank s _
@[simp] theorem State.setKey_latch (s : State) (k : Nat) (x : KeyState) : (s.setKey k x).latch = s.latch := State.upd_rbt_latch s _
@[simp] theorem State.setKey_wide (s : State) (k : Nat) (x : KeyState) : (s.setKey k x).wide = s.wide := State.upd_rbt_wide s _
@[simp] theorem State.setKey_uwide (s : State) (k : Nat) (x : KeyState) : (s.setKey k x).uwide = s.uwide := State.upd_rbt_uwide s _
@[simp] theorem State.setKey_tbl (s : State) (k : Nat) (x : KeyState) : (s.setKey k x).tbl = s.tbl := State.upd_rbt_tbl s _
@[simp] theorem State.setKey_saturated (s : State) (k : Nat) (x : KeyState) : (s.setKey k x).saturated = s.saturated := State.upd_rbt_saturated s _
@[simp] theorem State.setKey_held (s : State) (k : Nat) (x : KeyState) : (s.setKey k x).held = s.held := State.upd_rbt_held s _
@[simp] theorem State.setKey_snapHeld (s : State) (k : Nat) (x : KeyState) : (s.setKey k x).snapHeld = s.snapHeld := State.upd_rbt_snapHeld s _
@[simp] theorem State.setKey_mem (s : State) (k : Nat) (x : KeyState) : (s.setKey k x).mem = s.mem := State.upd_rbt_mem s _
@[simp] theorem State.setKey_mram (s : State) (k : Nat) (x : KeyState) : (s.setKey k x).mram = s.mram := State.upd_rbt_mram s _
@[simp] theorem State.setKey_now (s : State) (k : Nat) (x : KeyState) : (s.setKey k x).now = s.now := State.upd_rbt_now s _
@[simp] theorem State.setKey_sys (s : State) (k : Nat) (x : KeyState) : (s.setKey k x).sys = s.sys := State.upd_rbt_sys s _
@[simp] theorem State.setKey_tim (s : State) (k : Nat) (x : KeyState) : (s.setKey k x).tim = s.tim := State.upd_rbt_tim s _
@[simp] theorem State.setKey_ing (s : State) (k : Nat) (x : KeyState) : (s.setKey k x).ing = s.ing := State.upd_rbt_ing s _
@[simp] theorem State.setKey_gld (s : State) (k : Nat) (x : KeyState) : (s.setKey k x).gld = s.gld := State.upd_rbt_gld s _
@[simp] theorem State.setKey_flt (s : State) (k : Nat) (x : KeyState) : (s.setKey k x).flt = s.flt := State.upd_rbt_flt s _
@[simp] theorem State.setKey_osc (s : State) (k : Nat) (x : KeyState) : (s.setKey k x).osc = s.osc := State.upd_rbt_osc s _
@[simp] theorem State.setKey_isl (s : State) (k : Nat) (x : KeyState) : (s.setKey k x).isl = s.isl := State.upd_rbt_isl s _
@[simp] theorem State.setKey_alm (s : State) (k : Nat) (x : KeyState) : (s.setKey k x).alm = s.alm := State.upd_rbt_alm s _
@[simp] theorem State.setKey_cap (s : State) (k : Nat) (x : KeyState) : (s.setKey k x).cap = s.cap := State.upd_rbt_cap s _
@[simp] theorem State.setKey_acc (s : State) (k : Nat) (x : KeyState) : (s.setKey k x).acc = s.acc := State.upd_rbt_acc s _
@[simp] theorem State.setKey_cores (s : State) (k : Nat) (x : KeyState) : (s.setKey k x).cores = s.cores := State.upd_rbt_cores s _
@[simp] theorem State.setKey_net (s : State) (k : Nat) (x : KeyState) : (s.setKey k x).net = s.net := State.upd_rbt_net s _
@[simp] theorem State.setKey_xng (s : State) (k : Nat) (x : KeyState) : (s.setKey k x).xng = s.xng := State.upd_rbt_xng s _
@[simp] theorem State.setKey_ic (s : State) (k : Nat) (x : KeyState) : (s.setKey k x).ic = s.ic := State.upd_rbt_ic s _
@[simp] theorem State.setKey_hst (s : State) (k : Nat) (x : KeyState) : (s.setKey k x).hst = s.hst := State.upd_rbt_hst s _
@[simp] theorem State.setKey_err (s : State) (k : Nat) (x : KeyState) : (s.setKey k x).err = s.err := State.upd_rbt_err s _
@[simp] theorem State.setKey_und (s : State) (k : Nat) (x : KeyState) : (s.setKey k x).und = s.und := State.upd_rbt_und s _
@[simp] theorem State.setKey_sec (s : State) (k : Nat) (x : KeyState) : (s.setKey k x).sec = s.sec := State.upd_rbt_sec s _
@[simp] theorem State.setKey_free (s : State) (k : Nat) (x : KeyState) : (s.setKey k x).free = s.free := State.upd_rbt_free s _
@[simp] theorem State.setKey_out (s : State) (k : Nat) (x : KeyState) : (s.setKey k x).out = s.out := State.upd_rbt_out s _
@[simp] theorem State.setKey_pending (s : State) (k : Nat) (x : KeyState) : (s.setKey k x).pending = s.pending := State.upd_rbt_pending s _
@[simp] theorem State.setPtpPort_regs (s : State) (p : Nat) (x : PtpPort) : (s.setPtpPort p x).regs = s.regs := State.upd_tim_regs s _
@[simp] theorem State.setPtpPort_uregs (s : State) (p : Nat) (x : PtpPort) : (s.setPtpPort p x).uregs = s.uregs := State.upd_tim_uregs s _
@[simp] theorem State.setPtpPort_bank (s : State) (p : Nat) (x : PtpPort) : (s.setPtpPort p x).bank = s.bank := State.upd_tim_bank s _
@[simp] theorem State.setPtpPort_latch (s : State) (p : Nat) (x : PtpPort) : (s.setPtpPort p x).latch = s.latch := State.upd_tim_latch s _
@[simp] theorem State.setPtpPort_wide (s : State) (p : Nat) (x : PtpPort) : (s.setPtpPort p x).wide = s.wide := State.upd_tim_wide s _
@[simp] theorem State.setPtpPort_uwide (s : State) (p : Nat) (x : PtpPort) : (s.setPtpPort p x).uwide = s.uwide := State.upd_tim_uwide s _
@[simp] theorem State.setPtpPort_tbl (s : State) (p : Nat) (x : PtpPort) : (s.setPtpPort p x).tbl = s.tbl := State.upd_tim_tbl s _
@[simp] theorem State.setPtpPort_saturated (s : State) (p : Nat) (x : PtpPort) : (s.setPtpPort p x).saturated = s.saturated := State.upd_tim_saturated s _
@[simp] theorem State.setPtpPort_held (s : State) (p : Nat) (x : PtpPort) : (s.setPtpPort p x).held = s.held := State.upd_tim_held s _
@[simp] theorem State.setPtpPort_snapHeld (s : State) (p : Nat) (x : PtpPort) : (s.setPtpPort p x).snapHeld = s.snapHeld := State.upd_tim_snapHeld s _
@[simp] theorem State.setPtpPort_mem (s : State) (p : Nat) (x : PtpPort) : (s.setPtpPort p x).mem = s.mem := State.upd_tim_mem s _
@[simp] theorem State.setPtpPort_mram (s : State) (p : Nat) (x : PtpPort) : (s.setPtpPort p x).mram = s.mram := State.upd_tim_mram s _
@[simp] theorem State.setPtpPort_now (s : State) (p : Nat) (x : PtpPort) : (s.setPtpPort p x).now = s.now := State.upd_tim_now s _
@[simp] theorem State.setPtpPort_sys (s : State) (p : Nat) (x : PtpPort) : (s.setPtpPort p x).sys = s.sys := State.upd_tim_sys s _
@[simp] theorem State.setPtpPort_ing (s : State) (p : Nat) (x : PtpPort) : (s.setPtpPort p x).ing = s.ing := State.upd_tim_ing s _
@[simp] theorem State.setPtpPort_gld (s : State) (p : Nat) (x : PtpPort) : (s.setPtpPort p x).gld = s.gld := State.upd_tim_gld s _
@[simp] theorem State.setPtpPort_flt (s : State) (p : Nat) (x : PtpPort) : (s.setPtpPort p x).flt = s.flt := State.upd_tim_flt s _
@[simp] theorem State.setPtpPort_osc (s : State) (p : Nat) (x : PtpPort) : (s.setPtpPort p x).osc = s.osc := State.upd_tim_osc s _
@[simp] theorem State.setPtpPort_isl (s : State) (p : Nat) (x : PtpPort) : (s.setPtpPort p x).isl = s.isl := State.upd_tim_isl s _
@[simp] theorem State.setPtpPort_alm (s : State) (p : Nat) (x : PtpPort) : (s.setPtpPort p x).alm = s.alm := State.upd_tim_alm s _
@[simp] theorem State.setPtpPort_cap (s : State) (p : Nat) (x : PtpPort) : (s.setPtpPort p x).cap = s.cap := State.upd_tim_cap s _
@[simp] theorem State.setPtpPort_acc (s : State) (p : Nat) (x : PtpPort) : (s.setPtpPort p x).acc = s.acc := State.upd_tim_acc s _
@[simp] theorem State.setPtpPort_cores (s : State) (p : Nat) (x : PtpPort) : (s.setPtpPort p x).cores = s.cores := State.upd_tim_cores s _
@[simp] theorem State.setPtpPort_net (s : State) (p : Nat) (x : PtpPort) : (s.setPtpPort p x).net = s.net := State.upd_tim_net s _
@[simp] theorem State.setPtpPort_rbt (s : State) (p : Nat) (x : PtpPort) : (s.setPtpPort p x).rbt = s.rbt := State.upd_tim_rbt s _
@[simp] theorem State.setPtpPort_xng (s : State) (p : Nat) (x : PtpPort) : (s.setPtpPort p x).xng = s.xng := State.upd_tim_xng s _
@[simp] theorem State.setPtpPort_ic (s : State) (p : Nat) (x : PtpPort) : (s.setPtpPort p x).ic = s.ic := State.upd_tim_ic s _
@[simp] theorem State.setPtpPort_hst (s : State) (p : Nat) (x : PtpPort) : (s.setPtpPort p x).hst = s.hst := State.upd_tim_hst s _
@[simp] theorem State.setPtpPort_err (s : State) (p : Nat) (x : PtpPort) : (s.setPtpPort p x).err = s.err := State.upd_tim_err s _
@[simp] theorem State.setPtpPort_und (s : State) (p : Nat) (x : PtpPort) : (s.setPtpPort p x).und = s.und := State.upd_tim_und s _
@[simp] theorem State.setPtpPort_sec (s : State) (p : Nat) (x : PtpPort) : (s.setPtpPort p x).sec = s.sec := State.upd_tim_sec s _
@[simp] theorem State.setPtpPort_free (s : State) (p : Nat) (x : PtpPort) : (s.setPtpPort p x).free = s.free := State.upd_tim_free s _
@[simp] theorem State.setPtpPort_out (s : State) (p : Nat) (x : PtpPort) : (s.setPtpPort p x).out = s.out := State.upd_tim_out s _
@[simp] theorem State.setPtpPort_pending (s : State) (p : Nat) (x : PtpPort) : (s.setPtpPort p x).pending = s.pending := State.upd_tim_pending s _
@[simp] theorem State.setPc_regs (s : State) (c : Nat) (pc : DWord) : (s.setPc c pc).regs = s.regs := State.upd_cores_regs s _
@[simp] theorem State.setPc_uregs (s : State) (c : Nat) (pc : DWord) : (s.setPc c pc).uregs = s.uregs := State.upd_cores_uregs s _
@[simp] theorem State.setPc_bank (s : State) (c : Nat) (pc : DWord) : (s.setPc c pc).bank = s.bank := State.upd_cores_bank s _
@[simp] theorem State.setPc_latch (s : State) (c : Nat) (pc : DWord) : (s.setPc c pc).latch = s.latch := State.upd_cores_latch s _
@[simp] theorem State.setPc_wide (s : State) (c : Nat) (pc : DWord) : (s.setPc c pc).wide = s.wide := State.upd_cores_wide s _
@[simp] theorem State.setPc_uwide (s : State) (c : Nat) (pc : DWord) : (s.setPc c pc).uwide = s.uwide := State.upd_cores_uwide s _
@[simp] theorem State.setPc_tbl (s : State) (c : Nat) (pc : DWord) : (s.setPc c pc).tbl = s.tbl := State.upd_cores_tbl s _
@[simp] theorem State.setPc_saturated (s : State) (c : Nat) (pc : DWord) : (s.setPc c pc).saturated = s.saturated := State.upd_cores_saturated s _
@[simp] theorem State.setPc_held (s : State) (c : Nat) (pc : DWord) : (s.setPc c pc).held = s.held := State.upd_cores_held s _
@[simp] theorem State.setPc_snapHeld (s : State) (c : Nat) (pc : DWord) : (s.setPc c pc).snapHeld = s.snapHeld := State.upd_cores_snapHeld s _
@[simp] theorem State.setPc_mem (s : State) (c : Nat) (pc : DWord) : (s.setPc c pc).mem = s.mem := State.upd_cores_mem s _
@[simp] theorem State.setPc_mram (s : State) (c : Nat) (pc : DWord) : (s.setPc c pc).mram = s.mram := State.upd_cores_mram s _
@[simp] theorem State.setPc_now (s : State) (c : Nat) (pc : DWord) : (s.setPc c pc).now = s.now := State.upd_cores_now s _
@[simp] theorem State.setPc_sys (s : State) (c : Nat) (pc : DWord) : (s.setPc c pc).sys = s.sys := State.upd_cores_sys s _
@[simp] theorem State.setPc_tim (s : State) (c : Nat) (pc : DWord) : (s.setPc c pc).tim = s.tim := State.upd_cores_tim s _
@[simp] theorem State.setPc_ing (s : State) (c : Nat) (pc : DWord) : (s.setPc c pc).ing = s.ing := State.upd_cores_ing s _
@[simp] theorem State.setPc_gld (s : State) (c : Nat) (pc : DWord) : (s.setPc c pc).gld = s.gld := State.upd_cores_gld s _
@[simp] theorem State.setPc_flt (s : State) (c : Nat) (pc : DWord) : (s.setPc c pc).flt = s.flt := State.upd_cores_flt s _
@[simp] theorem State.setPc_osc (s : State) (c : Nat) (pc : DWord) : (s.setPc c pc).osc = s.osc := State.upd_cores_osc s _
@[simp] theorem State.setPc_isl (s : State) (c : Nat) (pc : DWord) : (s.setPc c pc).isl = s.isl := State.upd_cores_isl s _
@[simp] theorem State.setPc_alm (s : State) (c : Nat) (pc : DWord) : (s.setPc c pc).alm = s.alm := State.upd_cores_alm s _
@[simp] theorem State.setPc_cap (s : State) (c : Nat) (pc : DWord) : (s.setPc c pc).cap = s.cap := State.upd_cores_cap s _
@[simp] theorem State.setPc_acc (s : State) (c : Nat) (pc : DWord) : (s.setPc c pc).acc = s.acc := State.upd_cores_acc s _
@[simp] theorem State.setPc_net (s : State) (c : Nat) (pc : DWord) : (s.setPc c pc).net = s.net := State.upd_cores_net s _
@[simp] theorem State.setPc_rbt (s : State) (c : Nat) (pc : DWord) : (s.setPc c pc).rbt = s.rbt := State.upd_cores_rbt s _
@[simp] theorem State.setPc_xng (s : State) (c : Nat) (pc : DWord) : (s.setPc c pc).xng = s.xng := State.upd_cores_xng s _
@[simp] theorem State.setPc_ic (s : State) (c : Nat) (pc : DWord) : (s.setPc c pc).ic = s.ic := State.upd_cores_ic s _
@[simp] theorem State.setPc_hst (s : State) (c : Nat) (pc : DWord) : (s.setPc c pc).hst = s.hst := State.upd_cores_hst s _
@[simp] theorem State.setPc_err (s : State) (c : Nat) (pc : DWord) : (s.setPc c pc).err = s.err := State.upd_cores_err s _
@[simp] theorem State.setPc_und (s : State) (c : Nat) (pc : DWord) : (s.setPc c pc).und = s.und := State.upd_cores_und s _
@[simp] theorem State.setPc_sec (s : State) (c : Nat) (pc : DWord) : (s.setPc c pc).sec = s.sec := State.upd_cores_sec s _
@[simp] theorem State.setPc_free (s : State) (c : Nat) (pc : DWord) : (s.setPc c pc).free = s.free := State.upd_cores_free s _
@[simp] theorem State.setPc_out (s : State) (c : Nat) (pc : DWord) : (s.setPc c pc).out = s.out := State.upd_cores_out s _
@[simp] theorem State.setPc_pending (s : State) (c : Nat) (pc : DWord) : (s.setPc c pc).pending = s.pending := State.upd_cores_pending s _
@[simp] theorem State.pbump_regs (s : State) (p r : Nat) : (s.pbump p r).regs = s.regs := State.bump_regs s _
@[simp] theorem State.pbump_uregs (s : State) (p r : Nat) : (s.pbump p r).uregs = s.uregs := State.bump_uregs s _
@[simp] theorem State.pbump_bank (s : State) (p r : Nat) : (s.pbump p r).bank = s.bank := State.bump_bank s _
@[simp] theorem State.pbump_latch (s : State) (p r : Nat) : (s.pbump p r).latch = s.latch := State.bump_latch s _
@[simp] theorem State.pbump_tbl (s : State) (p r : Nat) : (s.pbump p r).tbl = s.tbl := State.bump_tbl s _
@[simp] theorem State.pbump_held (s : State) (p r : Nat) : (s.pbump p r).held = s.held := State.bump_held s _
@[simp] theorem State.pbump_snapHeld (s : State) (p r : Nat) : (s.pbump p r).snapHeld = s.snapHeld := State.bump_snapHeld s _
@[simp] theorem State.pbump_mem (s : State) (p r : Nat) : (s.pbump p r).mem = s.mem := State.bump_mem s _
@[simp] theorem State.pbump_mram (s : State) (p r : Nat) : (s.pbump p r).mram = s.mram := State.bump_mram s _
@[simp] theorem State.pbump_now (s : State) (p r : Nat) : (s.pbump p r).now = s.now := State.bump_now s _
@[simp] theorem State.pbump_sys (s : State) (p r : Nat) : (s.pbump p r).sys = s.sys := State.bump_sys s _
@[simp] theorem State.pbump_tim (s : State) (p r : Nat) : (s.pbump p r).tim = s.tim := State.bump_tim s _
@[simp] theorem State.pbump_ing (s : State) (p r : Nat) : (s.pbump p r).ing = s.ing := State.bump_ing s _
@[simp] theorem State.pbump_gld (s : State) (p r : Nat) : (s.pbump p r).gld = s.gld := State.bump_gld s _
@[simp] theorem State.pbump_flt (s : State) (p r : Nat) : (s.pbump p r).flt = s.flt := State.bump_flt s _
@[simp] theorem State.pbump_osc (s : State) (p r : Nat) : (s.pbump p r).osc = s.osc := State.bump_osc s _
@[simp] theorem State.pbump_isl (s : State) (p r : Nat) : (s.pbump p r).isl = s.isl := State.bump_isl s _
@[simp] theorem State.pbump_alm (s : State) (p r : Nat) : (s.pbump p r).alm = s.alm := State.bump_alm s _
@[simp] theorem State.pbump_cap (s : State) (p r : Nat) : (s.pbump p r).cap = s.cap := State.bump_cap s _
@[simp] theorem State.pbump_acc (s : State) (p r : Nat) : (s.pbump p r).acc = s.acc := State.bump_acc s _
@[simp] theorem State.pbump_cores (s : State) (p r : Nat) : (s.pbump p r).cores = s.cores := State.bump_cores s _
@[simp] theorem State.pbump_net (s : State) (p r : Nat) : (s.pbump p r).net = s.net := State.bump_net s _
@[simp] theorem State.pbump_rbt (s : State) (p r : Nat) : (s.pbump p r).rbt = s.rbt := State.bump_rbt s _
@[simp] theorem State.pbump_xng (s : State) (p r : Nat) : (s.pbump p r).xng = s.xng := State.bump_xng s _
@[simp] theorem State.pbump_ic (s : State) (p r : Nat) : (s.pbump p r).ic = s.ic := State.bump_ic s _
@[simp] theorem State.pbump_hst (s : State) (p r : Nat) : (s.pbump p r).hst = s.hst := State.bump_hst s _
@[simp] theorem State.pbump_err (s : State) (p r : Nat) : (s.pbump p r).err = s.err := State.bump_err s _
@[simp] theorem State.pbump_und (s : State) (p r : Nat) : (s.pbump p r).und = s.und := State.bump_und s _
@[simp] theorem State.pbump_sec (s : State) (p r : Nat) : (s.pbump p r).sec = s.sec := State.bump_sec s _
@[simp] theorem State.pbump_free (s : State) (p r : Nat) : (s.pbump p r).free = s.free := State.bump_free s _
@[simp] theorem State.pbump_out (s : State) (p r : Nat) : (s.pbump p r).out = s.out := State.bump_out s _
@[simp] theorem State.pbump_pending (s : State) (p r : Nat) : (s.pbump p r).pending = s.pending := State.bump_pending s _
@[simp] theorem State.praise_bank (s : State) (p : Nat) (f : Fld) : (s.praise p f).bank = s.bank := State.raise_bank s _
@[simp] theorem State.praise_latch (s : State) (p : Nat) (f : Fld) : (s.praise p f).latch = s.latch := State.raise_latch s _
@[simp] theorem State.praise_wide (s : State) (p : Nat) (f : Fld) : (s.praise p f).wide = s.wide := State.raise_wide s _
@[simp] theorem State.praise_uwide (s : State) (p : Nat) (f : Fld) : (s.praise p f).uwide = s.uwide := State.raise_uwide s _
@[simp] theorem State.praise_tbl (s : State) (p : Nat) (f : Fld) : (s.praise p f).tbl = s.tbl := State.raise_tbl s _
@[simp] theorem State.praise_saturated (s : State) (p : Nat) (f : Fld) : (s.praise p f).saturated = s.saturated := State.raise_saturated s _
@[simp] theorem State.praise_held (s : State) (p : Nat) (f : Fld) : (s.praise p f).held = s.held := State.raise_held s _
@[simp] theorem State.praise_snapHeld (s : State) (p : Nat) (f : Fld) : (s.praise p f).snapHeld = s.snapHeld := State.raise_snapHeld s _
@[simp] theorem State.praise_mem (s : State) (p : Nat) (f : Fld) : (s.praise p f).mem = s.mem := State.raise_mem s _
@[simp] theorem State.praise_mram (s : State) (p : Nat) (f : Fld) : (s.praise p f).mram = s.mram := State.raise_mram s _
@[simp] theorem State.praise_now (s : State) (p : Nat) (f : Fld) : (s.praise p f).now = s.now := State.raise_now s _
@[simp] theorem State.praise_sys (s : State) (p : Nat) (f : Fld) : (s.praise p f).sys = s.sys := State.raise_sys s _
@[simp] theorem State.praise_tim (s : State) (p : Nat) (f : Fld) : (s.praise p f).tim = s.tim := State.raise_tim s _
@[simp] theorem State.praise_ing (s : State) (p : Nat) (f : Fld) : (s.praise p f).ing = s.ing := State.raise_ing s _
@[simp] theorem State.praise_gld (s : State) (p : Nat) (f : Fld) : (s.praise p f).gld = s.gld := State.raise_gld s _
@[simp] theorem State.praise_flt (s : State) (p : Nat) (f : Fld) : (s.praise p f).flt = s.flt := State.raise_flt s _
@[simp] theorem State.praise_osc (s : State) (p : Nat) (f : Fld) : (s.praise p f).osc = s.osc := State.raise_osc s _
@[simp] theorem State.praise_isl (s : State) (p : Nat) (f : Fld) : (s.praise p f).isl = s.isl := State.raise_isl s _
@[simp] theorem State.praise_alm (s : State) (p : Nat) (f : Fld) : (s.praise p f).alm = s.alm := State.raise_alm s _
@[simp] theorem State.praise_cap (s : State) (p : Nat) (f : Fld) : (s.praise p f).cap = s.cap := State.raise_cap s _
@[simp] theorem State.praise_acc (s : State) (p : Nat) (f : Fld) : (s.praise p f).acc = s.acc := State.raise_acc s _
@[simp] theorem State.praise_cores (s : State) (p : Nat) (f : Fld) : (s.praise p f).cores = s.cores := State.raise_cores s _
@[simp] theorem State.praise_net (s : State) (p : Nat) (f : Fld) : (s.praise p f).net = s.net := State.raise_net s _
@[simp] theorem State.praise_rbt (s : State) (p : Nat) (f : Fld) : (s.praise p f).rbt = s.rbt := State.raise_rbt s _
@[simp] theorem State.praise_xng (s : State) (p : Nat) (f : Fld) : (s.praise p f).xng = s.xng := State.raise_xng s _
@[simp] theorem State.praise_ic (s : State) (p : Nat) (f : Fld) : (s.praise p f).ic = s.ic := State.raise_ic s _
@[simp] theorem State.praise_hst (s : State) (p : Nat) (f : Fld) : (s.praise p f).hst = s.hst := State.raise_hst s _
@[simp] theorem State.praise_err (s : State) (p : Nat) (f : Fld) : (s.praise p f).err = s.err := State.raise_err s _
@[simp] theorem State.praise_und (s : State) (p : Nat) (f : Fld) : (s.praise p f).und = s.und := State.raise_und s _
@[simp] theorem State.praise_sec (s : State) (p : Nat) (f : Fld) : (s.praise p f).sec = s.sec := State.raise_sec s _
@[simp] theorem State.praise_free (s : State) (p : Nat) (f : Fld) : (s.praise p f).free = s.free := State.raise_free s _
@[simp] theorem State.praise_out (s : State) (p : Nat) (f : Fld) : (s.praise p f).out = s.out := State.raise_out s _
@[simp] theorem State.praise_pending (s : State) (p : Nat) (f : Fld) : (s.praise p f).pending = s.pending := State.raise_pending s _
@[simp] theorem State.setQueue_regs (s : State) (n : Nat) (x : Queue) : (s.setQueue n x).regs = s.regs := State.upd_rbt_regs s _
@[simp] theorem State.setQueue_uregs (s : State) (n : Nat) (x : Queue) : (s.setQueue n x).uregs = s.uregs := State.upd_rbt_uregs s _
@[simp] theorem State.setQueue_bank (s : State) (n : Nat) (x : Queue) : (s.setQueue n x).bank = s.bank := State.upd_rbt_bank s _
@[simp] theorem State.setQueue_latch (s : State) (n : Nat) (x : Queue) : (s.setQueue n x).latch = s.latch := State.upd_rbt_latch s _
@[simp] theorem State.setQueue_wide (s : State) (n : Nat) (x : Queue) : (s.setQueue n x).wide = s.wide := State.upd_rbt_wide s _
@[simp] theorem State.setQueue_uwide (s : State) (n : Nat) (x : Queue) : (s.setQueue n x).uwide = s.uwide := State.upd_rbt_uwide s _
@[simp] theorem State.setQueue_tbl (s : State) (n : Nat) (x : Queue) : (s.setQueue n x).tbl = s.tbl := State.upd_rbt_tbl s _
@[simp] theorem State.setQueue_saturated (s : State) (n : Nat) (x : Queue) : (s.setQueue n x).saturated = s.saturated := State.upd_rbt_saturated s _
@[simp] theorem State.setQueue_held (s : State) (n : Nat) (x : Queue) : (s.setQueue n x).held = s.held := State.upd_rbt_held s _
@[simp] theorem State.setQueue_snapHeld (s : State) (n : Nat) (x : Queue) : (s.setQueue n x).snapHeld = s.snapHeld := State.upd_rbt_snapHeld s _
@[simp] theorem State.setQueue_mem (s : State) (n : Nat) (x : Queue) : (s.setQueue n x).mem = s.mem := State.upd_rbt_mem s _
@[simp] theorem State.setQueue_mram (s : State) (n : Nat) (x : Queue) : (s.setQueue n x).mram = s.mram := State.upd_rbt_mram s _
@[simp] theorem State.setQueue_now (s : State) (n : Nat) (x : Queue) : (s.setQueue n x).now = s.now := State.upd_rbt_now s _
@[simp] theorem State.setQueue_sys (s : State) (n : Nat) (x : Queue) : (s.setQueue n x).sys = s.sys := State.upd_rbt_sys s _
@[simp] theorem State.setQueue_tim (s : State) (n : Nat) (x : Queue) : (s.setQueue n x).tim = s.tim := State.upd_rbt_tim s _
@[simp] theorem State.setQueue_ing (s : State) (n : Nat) (x : Queue) : (s.setQueue n x).ing = s.ing := State.upd_rbt_ing s _
@[simp] theorem State.setQueue_gld (s : State) (n : Nat) (x : Queue) : (s.setQueue n x).gld = s.gld := State.upd_rbt_gld s _
@[simp] theorem State.setQueue_flt (s : State) (n : Nat) (x : Queue) : (s.setQueue n x).flt = s.flt := State.upd_rbt_flt s _
@[simp] theorem State.setQueue_osc (s : State) (n : Nat) (x : Queue) : (s.setQueue n x).osc = s.osc := State.upd_rbt_osc s _
@[simp] theorem State.setQueue_isl (s : State) (n : Nat) (x : Queue) : (s.setQueue n x).isl = s.isl := State.upd_rbt_isl s _
@[simp] theorem State.setQueue_alm (s : State) (n : Nat) (x : Queue) : (s.setQueue n x).alm = s.alm := State.upd_rbt_alm s _
@[simp] theorem State.setQueue_cap (s : State) (n : Nat) (x : Queue) : (s.setQueue n x).cap = s.cap := State.upd_rbt_cap s _
@[simp] theorem State.setQueue_acc (s : State) (n : Nat) (x : Queue) : (s.setQueue n x).acc = s.acc := State.upd_rbt_acc s _
@[simp] theorem State.setQueue_cores (s : State) (n : Nat) (x : Queue) : (s.setQueue n x).cores = s.cores := State.upd_rbt_cores s _
@[simp] theorem State.setQueue_net (s : State) (n : Nat) (x : Queue) : (s.setQueue n x).net = s.net := State.upd_rbt_net s _
@[simp] theorem State.setQueue_xng (s : State) (n : Nat) (x : Queue) : (s.setQueue n x).xng = s.xng := State.upd_rbt_xng s _
@[simp] theorem State.setQueue_ic (s : State) (n : Nat) (x : Queue) : (s.setQueue n x).ic = s.ic := State.upd_rbt_ic s _
@[simp] theorem State.setQueue_hst (s : State) (n : Nat) (x : Queue) : (s.setQueue n x).hst = s.hst := State.upd_rbt_hst s _
@[simp] theorem State.setQueue_err (s : State) (n : Nat) (x : Queue) : (s.setQueue n x).err = s.err := State.upd_rbt_err s _
@[simp] theorem State.setQueue_und (s : State) (n : Nat) (x : Queue) : (s.setQueue n x).und = s.und := State.upd_rbt_und s _
@[simp] theorem State.setQueue_sec (s : State) (n : Nat) (x : Queue) : (s.setQueue n x).sec = s.sec := State.upd_rbt_sec s _
@[simp] theorem State.setQueue_free (s : State) (n : Nat) (x : Queue) : (s.setQueue n x).free = s.free := State.upd_rbt_free s _
@[simp] theorem State.setQueue_out (s : State) (n : Nat) (x : Queue) : (s.setQueue n x).out = s.out := State.upd_rbt_out s _
@[simp] theorem State.setQueue_pending (s : State) (n : Nat) (x : Queue) : (s.setQueue n x).pending = s.pending := State.upd_rbt_pending s _
@[simp] theorem State.setDp_regs (s : State) (k : Nat) (x : DpCtx) : (s.setDp k x).regs = s.regs := State.upd_hst_regs s _
@[simp] theorem State.setDp_uregs (s : State) (k : Nat) (x : DpCtx) : (s.setDp k x).uregs = s.uregs := State.upd_hst_uregs s _
@[simp] theorem State.setDp_bank (s : State) (k : Nat) (x : DpCtx) : (s.setDp k x).bank = s.bank := State.upd_hst_bank s _
@[simp] theorem State.setDp_latch (s : State) (k : Nat) (x : DpCtx) : (s.setDp k x).latch = s.latch := State.upd_hst_latch s _
@[simp] theorem State.setDp_wide (s : State) (k : Nat) (x : DpCtx) : (s.setDp k x).wide = s.wide := State.upd_hst_wide s _
@[simp] theorem State.setDp_uwide (s : State) (k : Nat) (x : DpCtx) : (s.setDp k x).uwide = s.uwide := State.upd_hst_uwide s _
@[simp] theorem State.setDp_tbl (s : State) (k : Nat) (x : DpCtx) : (s.setDp k x).tbl = s.tbl := State.upd_hst_tbl s _
@[simp] theorem State.setDp_saturated (s : State) (k : Nat) (x : DpCtx) : (s.setDp k x).saturated = s.saturated := State.upd_hst_saturated s _
@[simp] theorem State.setDp_held (s : State) (k : Nat) (x : DpCtx) : (s.setDp k x).held = s.held := State.upd_hst_held s _
@[simp] theorem State.setDp_snapHeld (s : State) (k : Nat) (x : DpCtx) : (s.setDp k x).snapHeld = s.snapHeld := State.upd_hst_snapHeld s _
@[simp] theorem State.setDp_mem (s : State) (k : Nat) (x : DpCtx) : (s.setDp k x).mem = s.mem := State.upd_hst_mem s _
@[simp] theorem State.setDp_mram (s : State) (k : Nat) (x : DpCtx) : (s.setDp k x).mram = s.mram := State.upd_hst_mram s _
@[simp] theorem State.setDp_now (s : State) (k : Nat) (x : DpCtx) : (s.setDp k x).now = s.now := State.upd_hst_now s _
@[simp] theorem State.setDp_sys (s : State) (k : Nat) (x : DpCtx) : (s.setDp k x).sys = s.sys := State.upd_hst_sys s _
@[simp] theorem State.setDp_tim (s : State) (k : Nat) (x : DpCtx) : (s.setDp k x).tim = s.tim := State.upd_hst_tim s _
@[simp] theorem State.setDp_ing (s : State) (k : Nat) (x : DpCtx) : (s.setDp k x).ing = s.ing := State.upd_hst_ing s _
@[simp] theorem State.setDp_gld (s : State) (k : Nat) (x : DpCtx) : (s.setDp k x).gld = s.gld := State.upd_hst_gld s _
@[simp] theorem State.setDp_flt (s : State) (k : Nat) (x : DpCtx) : (s.setDp k x).flt = s.flt := State.upd_hst_flt s _
@[simp] theorem State.setDp_osc (s : State) (k : Nat) (x : DpCtx) : (s.setDp k x).osc = s.osc := State.upd_hst_osc s _
@[simp] theorem State.setDp_isl (s : State) (k : Nat) (x : DpCtx) : (s.setDp k x).isl = s.isl := State.upd_hst_isl s _
@[simp] theorem State.setDp_alm (s : State) (k : Nat) (x : DpCtx) : (s.setDp k x).alm = s.alm := State.upd_hst_alm s _
@[simp] theorem State.setDp_cap (s : State) (k : Nat) (x : DpCtx) : (s.setDp k x).cap = s.cap := State.upd_hst_cap s _
@[simp] theorem State.setDp_acc (s : State) (k : Nat) (x : DpCtx) : (s.setDp k x).acc = s.acc := State.upd_hst_acc s _
@[simp] theorem State.setDp_cores (s : State) (k : Nat) (x : DpCtx) : (s.setDp k x).cores = s.cores := State.upd_hst_cores s _
@[simp] theorem State.setDp_net (s : State) (k : Nat) (x : DpCtx) : (s.setDp k x).net = s.net := State.upd_hst_net s _
@[simp] theorem State.setDp_rbt (s : State) (k : Nat) (x : DpCtx) : (s.setDp k x).rbt = s.rbt := State.upd_hst_rbt s _
@[simp] theorem State.setDp_xng (s : State) (k : Nat) (x : DpCtx) : (s.setDp k x).xng = s.xng := State.upd_hst_xng s _
@[simp] theorem State.setDp_ic (s : State) (k : Nat) (x : DpCtx) : (s.setDp k x).ic = s.ic := State.upd_hst_ic s _
@[simp] theorem State.setDp_err (s : State) (k : Nat) (x : DpCtx) : (s.setDp k x).err = s.err := State.upd_hst_err s _
@[simp] theorem State.setDp_und (s : State) (k : Nat) (x : DpCtx) : (s.setDp k x).und = s.und := State.upd_hst_und s _
@[simp] theorem State.setDp_sec (s : State) (k : Nat) (x : DpCtx) : (s.setDp k x).sec = s.sec := State.upd_hst_sec s _
@[simp] theorem State.setDp_free (s : State) (k : Nat) (x : DpCtx) : (s.setDp k x).free = s.free := State.upd_hst_free s _
@[simp] theorem State.setDp_out (s : State) (k : Nat) (x : DpCtx) : (s.setDp k x).out = s.out := State.upd_hst_out s _
@[simp] theorem State.setDp_pending (s : State) (k : Nat) (x : DpCtx) : (s.setDp k x).pending = s.pending := State.upd_hst_pending s _

end Sys2Proof.Machine
end

