-- ==== Sys2Proof/Laws/Access.lean ====
section
/-!
SUPPORT. Numbers in memory, and what an access to a control register comes to once it is known to reach its block.
-/

namespace Sys2Proof.Machine

/-- The number that the little-endian bytes of a number make. -/
theorem leNat_leBytes (n v : Nat) : leNat (leBytes n v) = v % 256 ^ n := by
  induction n generalizing v with
  | zero => simp [leBytes, leNat, Nat.mod_one]
  | succ n ih =>
    have h : (BitVec.ofNat 8 v).toNat = v % 256 := by simp
    rw [leBytes, leNat, ih, h, Nat.pow_succ, Nat.mul_comm (256 ^ n) 256, Nat.mod_mul]

/-- The bytes read where a list of bytes has just been stored. -/
theorem State.rdBytes_wrBytes (s : State) (a : Nat) (l : List Byte) : (s.wrBytes a l).rdBytes a l.length = l := by
  have h : ∀ (t : List Byte) (i : Nat), l.drop i = t → (s.wrBytes a l).rdBytes (a + i) t.length = t := by
    intro t
    induction t with
    | nil => intro i _; rfl
    | cons b t ih =>
      intro i e
      have hi : i < l.length := by
        by_contra hn
        rw [List.drop_eq_nil_of_le (by omega)] at e
        cases e
      have e2 := List.drop_eq_getElem_cons hi
      rw [e] at e2
      have hb : l[i] = b := by injection e2 with h1 h2; exact h1.symm
      have ht : l.drop (i + 1) = t := by injection e2 with h1 h2; exact h2.symm
      simp only [List.length_cons, State.rdBytes]
      rw [State.rdByte_wrBytes, if_pos (by omega)]
      have := ih (i + 1) ht
      rw [show a + i + 1 = a + (i + 1) by omega, this]
      congr 1
      simp [hi, hb]
  simpa using h l 0 rfl

/-- A number read where it has just been stored. -/
theorem State.rdLe_wrLe (s : State) (a n v : Nat) : (s.wrLe a n v).rdLe a n = v % 256 ^ n := by
  have := State.rdBytes_wrBytes s a (leBytes n v)
  rw [leBytes_length] at this
  rw [State.rdLe, State.wrLe, this, leNat_leBytes]

/-! ## Accesses -/

/-- A write that reaches a register outside the journalled blocks and the data port, by a requester that may make it, is the write of
its block. -/
theorem State.busWrite_open (s : State) (q : Req) (off v : Nat) (d : RegD) (h : Safety.WriteOpen s q off) (f : findReg off = some d)
    (hp : isDpReg off = false) (hj : isJournalBlock (off / 0x10000) = false) (hc : off < ctrlSize) :
    s.busWrite q off v = s.blockWrite q false d off v := by
  obtain ⟨r, b, -, -⟩ := h
  have e : s.regWrite q off v = s.blockWrite q false d off v := by
    simp [State.regWrite, State.regStep, f, b, hj, State.shadowSkips]
  have g : s.devWrite q off v = s.blockWrite q false d off v := by simp [State.devWrite, hp, e]
  cases q with
  | host =>
    obtain ⟨m, w⟩ := r
    simp [State.busWrite, m, w, g]
  | core c => simp [State.busWrite, show s.coreAlive c.val = true from r, hc, g]

/-- A read that reaches a register outside the data port hands the word to its requester. -/
theorem State.busRead_open (s : State) (q : Req) (off : Nat) (h : Safety.ReadOpen s q off) (hp : isDpReg off = false)
    (hc : off < ctrlSize) :
    s.busRead q off = (s.regRead q off).1.emit
      (match q with | .host => .completion [(s.regRead q off).2] | .core c => .readData c.val (s.regRead q off).2) := by
  cases q with
  | host =>
    obtain ⟨m, w⟩ := h
    simp [State.busRead, State.busFetch, State.devRead, m, w, hp]
  | core c => simp [State.busRead, State.busFetch, State.devRead, show s.coreAlive c.val = true from h, hp, hc]

end Sys2Proof.Machine
end

