-- ==== Sys2Proof/Laws/Sapor.lean ====
section
/-!
SUPPORT. What the end of an instruction can do, said once: the counters and the sampler of the performance monitor (R596, R602), and
the frame in which an instruction runs.
-/

namespace Sys2Proof.Machine

open Sys2Proof.Safety

/-! ## Counting events -/

/-- What a performance counter's step leaves alone. -/
structure CountsOnly (s t : State) : Prop where
  fields : t = { s with regs := t.regs, uregs := t.uregs, wide := t.wide, uwide := t.uwide, saturated := t.saturated }
  registers : ∀ off, off / 0x10000 ≠ 18 → t.reg off = s.reg off
  counters : ∀ k, cntBlock k ≠ 18 → t.cnt k = s.cnt k
  samplers : ∀ off, 0x122000 ≤ off → 0x100 ≤ off % 0x400 → t.reg off = s.reg off

theorem CountsOnly.refl (s : State) : CountsOnly s s := ⟨rfl, fun _ _ => rfl, fun _ _ => rfl, fun _ _ _ => rfl⟩

theorem CountsOnly.trans {s t u : State} (a : CountsOnly s t) (b : CountsOnly t u) : CountsOnly s u :=
  ⟨by rw [b.fields, a.fields], fun o h => (b.registers o h).trans (a.registers o h),
    fun k h => (b.counters k h).trans (a.counters k h), fun o h g => (b.samplers o h g).trans (a.samplers o h g)⟩

theorem CountsOnly.setCnt (s : State) (k : Nat) (v : DWord) (h : cntBlock k = 18) : CountsOnly s (s.setCnt k v) := by
  refine ⟨?_, fun o _ => ?_, fun j g => ?_, fun o _ _ => ?_⟩
  · unfold State.setCnt; split <;> rfl
  · simp [State.reg]
  · rw [State.cnt_setCnt, if_neg (by rintro rfl; exact g h)]
  · simp [State.reg]

theorem CountsOnly.setFld (s : State) (f : Fld) (v : Nat) (h : f.off / 0x10000 = 18) (l : f.off < 0x122000 ∨ f.off % 0x400 < 0x100) :
    CountsOnly s (s.setFld f v) := by
  refine ⟨?_, fun o g => ?_, fun j _ => ?_, fun o g e => ?_⟩
  · unfold State.setFld State.setReg; split <;> rfl
  · exact State.reg_setFld_ne _ _ _ _ (by rintro rfl; exact g h)
  · simp [State.cnt]
  · exact State.reg_setFld_ne _ _ _ _ (by rintro rfl; omega)

theorem CountsOnly.foldl {α : Type} (f : State → α → State) (l : List α) (h : ∀ x ∈ l, ∀ s, CountsOnly s (f s x)) (s : State) :
    CountsOnly s (l.foldl f s) := by
  induction l generalizing s with
  | nil => exact CountsOnly.refl s
  | cons x t ih =>
    exact (h x (by simp) s).trans (ih (fun y hy => h y (by simp [hy])) (f s x))

/-- A step of a counter whose registers stand at `base`. -/
theorem CountsOnly.perfStep (s : State) (base : Nat) (g : Option Nat) (h : base / 0x10000 = 18)
    (l : base < 0x122000 ∨ base % 0x400 < 0x100) (hb : base % 0x20 = 0) : CountsOnly s (s.perfStep base g) := by
  have hc : cntBlock (base + 0x10) = 18 := by unfold cntBlock; split <;> omega
  unfold State.perfStep
  dsimp only
  split
  · split
    · exact ((setCnt s _ _ hc).trans (setFld _ ⟨base, 30, 30⟩ 1 h l)).trans
        (setFld _ ⟨R.PRF_G_OVF, _, _⟩ 1 (show R.PRF_G_OVF / 0x10000 = 18 from rfl) (Or.inl (show R.PRF_G_OVF < 0x122000 by decide)))
    · exact (setCnt s _ _ hc).trans (setFld _ ⟨base, 30, 30⟩ 1 h l)
  · exact setCnt s _ _ hc

theorem CountsOnly.coreEvent (s : State) (c ev pl cls : Nat) (hc : c < 21) : CountsOnly s (s.coreEvent c ev pl cls) := by
  unfold State.coreEvent
  split
  · exact refl s
  · refine CountsOnly.foldl _ _ ?_ s
    intro k hk s
    have hk := List.mem_range.mp hk
    unfold State.coreEventAt
    dsimp only
    split
    · apply CountsOnly.perfStep <;> unfold coreCtr <;> simp only [show R.PRF_CNT_CTRL = 0x122000 from rfl]
      · omega
      · right; omega
      · omega
    · exact refl s

theorem CountsOnly.coreEvents (s : State) (c ev pl cls n : Nat) (hc : c < 21) : CountsOnly s (s.coreEvents c ev pl cls n) := by
  induction n generalizing s with
  | zero => exact refl s
  | succ n ih => exact (coreEvent s c ev pl cls hc).trans (ih _)

theorem CountsOnly.globalEvent (s : State) (ev r : Nat) (addr : Option Nat) (cls : Nat) :
    CountsOnly s (s.globalEvent ev r addr cls) := by
  unfold State.globalEvent
  split
  · exact refl s
  · refine CountsOnly.foldl _ _ ?_ s
    intro k hk s
    have hk := List.mem_range.mp hk
    unfold State.globalEventAt
    dsimp only
    split
    · apply CountsOnly.perfStep <;> unfold globalCtr <;> simp only [show R.PRF_G_CNT_CTRL = 0x121000 from rfl]
      · omega
      · left; omega
      · omega
    · exact refl s

theorem CountsOnly.core {s t : State} (h : CountsOnly s t) (c : Nat) : t.core c = s.core c := by
  rw [h.fields]; rfl

theorem CountsOnly.mem {s t : State} (h : CountsOnly s t) : t.mem = s.mem := by rw [h.fields]

theorem CountsOnly.apart {s t : State} (h : CountsOnly s t) : Apart s t := by
  refine ⟨?_, h.registers, h.counters⟩
  have := h.fields
  rw [this]

end Sys2Proof.Machine

namespace Sys2Proof.Safety

open Sys2Proof.Machine

/-! ## The frame of a completed instruction -/

theorem Apart.refl (s : State) : Apart s s := ⟨rfl, fun _ _ => rfl, fun _ _ => rfl⟩

theorem Apart.trans {s t u : State} (a : Apart s t) (b : Apart t u) : Apart s u := by
  refine ⟨?_, fun o h => (b.registers o h).trans (a.registers o h), fun k h => (b.counters k h).trans (a.counters k h)⟩
  have hb := b.fields
  have ha := a.fields
  rw [hb, ha]

theorem Apart.setCore (s : State) (c : Nat) (k : Core) : Apart s (s.setCore c k) := ⟨rfl, fun _ _ => rfl, fun _ _ => rfl⟩

theorem Apart.setCnt (s : State) (k : Nat) (v : DWord) (h : cntBlock k = 18) : Apart s (s.setCnt k v) :=
  (CountsOnly.setCnt s k v h).apart

theorem Apart.setFld (s : State) (f : Fld) (v : Nat) (h : f.off / 0x10000 = 18) : Apart s (s.setFld f v) := by
  refine ⟨?_, fun o g => ?_, fun j _ => ?_⟩
  · unfold State.setFld State.setReg; split <;> rfl
  · exact State.reg_setFld_ne _ _ _ _ (by rintro rfl; exact g h)
  · simp [State.cnt]

theorem Apart.bump (s : State) (k : Nat) (h : cntBlock k = 18) : Apart s (s.bump k) := by
  unfold State.bump State.bumpBy
  dsimp only
  split
  · exact Apart.setCnt s k _ h
  · refine (Apart.setCnt s k _ h).trans ⟨rfl, fun _ _ => rfl, fun _ _ => rfl⟩

theorem Apart.useFree (s : State) : Apart s s.useFree := ⟨rfl, fun _ _ => rfl, fun _ _ => rfl⟩

theorem Apart.wrBytes (s : State) (a : Nat) (l : List Byte) : Apart s (s.wrBytes a l) := ⟨rfl, fun _ _ => rfl, fun _ _ => rfl⟩

end Sys2Proof.Safety

namespace Sys2Proof.Machine

open Sys2Proof.Safety

/-! ## The sampler -/

/-- The sampler's offsets, for a core. -/
theorem sampOff_block (r c : Nat) (hc : c < 21) (hr : 0x122000 ≤ r) (h2 : r < 0x122400) : cntBlock (sampOff r c) = 18 := by
  unfold cntBlock sampOff; split <;> omega

theorem sampleRec_length (pc insn lat clk key flags cls : Nat) : (sampleRec pc insn lat clk key flags cls).length = 32 := by
  simp [sampleRec, leBytes_length]

/-- Both arms of a choice have a property. -/
theorem both_arms {α : Type} (P : α → Prop) {c : Prop} [Decidable c] {a b : α} (ha : P a) (hb : P b) : P (if c then a else b) := by
  split
  · exact ha
  · exact hb

/-- A record of a due sample goes to place `w`, and the counters `k1` and `k3` count. -/
theorem sampleWrite_keeps (s : State) (k1 k3 : Nat) (f : Fld) (v a : Nat) (l : List Byte) (h1 : cntBlock k1 = 18)
    (h3 : cntBlock k3 = 18) (hf : f.off / 0x10000 = 18) :
    let t := ((((s.bump k1).useFree.wrBytes a l).setFld f v).bump k3)
    t.cores = s.cores ∧ Apart s t ∧ ∀ x, (x < a ∨ a + l.length ≤ x) → t.rdByte x = s.rdByte x := by
  refine ⟨by simp, ?_, ?_⟩
  · exact ((((Apart.bump s _ h1).trans (Apart.useFree _)).trans (Apart.wrBytes _ _ _)).trans (Apart.setFld _ _ _ hf)).trans
      (Apart.bump _ _ h3)
  · intro x hx
    have e : ∀ t : State, ((t.setFld f v).bump k3).rdByte x = t.rdByte x := by intro t; simp [State.rdByte]
    simp only [e]
    rw [State.rdByte_wrBytes, if_neg (by omega)]
    simp [State.rdByte]

/-- The two ends of a due sample: lost, or written with some latency. A property of the whole state goes through this lemma: after
`unfold`, a projection of the result makes the kernel compare states field by field. -/
theorem sampleDue_arms (s : State) (c pc : Nat) (insn : Word) (clk key flags cls : Nat) (P : State → Prop)
    (lost : P ((s.bump (sampOff R.PRF_S_DUE c)).bump (sampOff R.PRF_S_LOST c)))
    (written : ∀ lat, P (((((s.bump (sampOff R.PRF_S_DUE c)).useFree.wrBytes
      ((s.bump (sampOff R.PRF_S_DUE c)).sampBase c + 32 * ((s.bump (sampOff R.PRF_S_DUE c)).fld (F.PRF_S_WRITE.INDEX.at (0x400 * c))
        % (s.bump (sampOff R.PRF_S_DUE c)).fld (F.PRF_S_SIZE.N.at (0x400 * c))))
      (sampleRec pc insn.toNat lat clk key flags cls)).setFld (F.PRF_S_WRITE.INDEX.at (0x400 * c))
        ((s.bump (sampOff R.PRF_S_DUE c)).fld (F.PRF_S_WRITE.INDEX.at (0x400 * c)) + 1))).bump (sampOff R.PRF_S_WRITTEN c))) :
    P (s.sampleDue c pc insn clk key flags cls) := by
  unfold State.sampleDue
  dsimp only
  split
  · exact lost
  · exact written _

/-- A due sample: the cores stand, memory changes only in the sampler's record, and the rest is the monitor's. -/
theorem sampleDue_keeps (s : State) (c : CoreId) (pc : Nat) (insn : Word) (clk key flags cls : Nat) :
    (s.sampleDue c.val pc insn clk key flags cls).cores = s.cores ∧ Apart s (s.sampleDue c.val pc insn clk key flags cls) ∧
    ∀ a, (∀ w, w = s.fld (F.PRF_S_WRITE.INDEX.at (0x400 * c.val)) % s.fld (F.PRF_S_SIZE.N.at (0x400 * c.val)) →
        ¬ (s.sampBase c.val + 32 * w ≤ a ∧ a < s.sampBase c.val + 32 * w + 32)) →
      (s.sampleDue c.val pc insn clk key flags cls).rdByte a = s.rdByte a := by
  have hc := c.isLt
  have b1 : cntBlock (sampOff R.PRF_S_DUE c) = 18 := sampOff_block _ _ hc (by decide) (by decide)
  have b2 : cntBlock (sampOff R.PRF_S_LOST c) = 18 := sampOff_block _ _ hc (by decide) (by decide)
  have b3 : cntBlock (sampOff R.PRF_S_WRITTEN c) = 18 := sampOff_block _ _ hc (by decide) (by decide)
  have hr : ∀ (k : Nat) (f : Fld), (s.bump k).fld f = s.fld f := fun k f => by simp [State.fld, State.reg]
  have hbase : ∀ k, (s.bump k).sampBase c = s.sampBase c := fun k => by simp [State.sampBase, hr]
  have hoff : (F.PRF_S_WRITE.INDEX.at (0x400 * c.val)).off / 0x10000 = 18 := by
    simp only [Fld.at, F.PRF_S_WRITE.INDEX]; omega
  refine sampleDue_arms s c.val pc insn clk key flags cls (fun t : State => t.cores = s.cores ∧ Apart s t ∧ ∀ a, (∀ w,
    w = s.fld (F.PRF_S_WRITE.INDEX.at (0x400 * c.val)) % s.fld (F.PRF_S_SIZE.N.at (0x400 * c.val)) →
    ¬ (s.sampBase c.val + 32 * w ≤ a ∧ a < s.sampBase c.val + 32 * w + 32)) → t.rdByte a = s.rdByte a) ?_ fun lat => ?_
  · exact ⟨by simp, (Apart.bump s _ b1).trans (Apart.bump _ _ b2), fun a _ => by simp [State.rdByte]⟩
  · rw [hr, hr, hbase]
    have q := sampleWrite_keeps s (sampOff R.PRF_S_DUE c.val) (sampOff R.PRF_S_WRITTEN c.val)
      (F.PRF_S_WRITE.INDEX.at (0x400 * c.val)) (s.fld (F.PRF_S_WRITE.INDEX.at (0x400 * c.val)) + 1)
      (s.sampBase c.val + 32 * (s.fld (F.PRF_S_WRITE.INDEX.at (0x400 * c.val)) % s.fld (F.PRF_S_SIZE.N.at (0x400 * c.val))))
      (sampleRec pc insn.toNat lat clk key flags cls) b1 b3 hoff
    refine ⟨q.1, q.2.1, fun a ha => q.2.2 a ?_⟩
    have := ha _ rfl
    rw [sampleRec_length]
    omega

/-- The sampler on a completed instruction. -/
theorem sampleIns_keeps (s : State) (c : CoreId) (pl cls pc : Nat) (insn : Word) (clk key flags : Nat) :
    (∃ n, ∀ d, (s.sampleIns c.val pl cls pc insn clk key flags).core d
        = if d = c.val then { s.core c.val with sampleRun := n } else s.core d) ∧
    Apart s (s.sampleIns c.val pl cls pc insn clk key flags) ∧
    ∀ a, ¬ InSample s c a → (s.sampleIns c.val pl cls pc insn clk key flags).rdByte a = s.rdByte a := by
  have hc := c.isLt
  have b0 : cntBlock (sampOff R.PRF_S_SELECTED c) = 18 := sampOff_block _ _ hc (by decide) (by decide)
  have self : ∀ d, s.core d = if d = c.val then { s.core c.val with sampleRun := (s.core c.val).sampleRun } else s.core d := by
    intro d; split
    · next h => subst h; rfl
    · rfl
  unfold State.sampleIns
  split
  next h =>
    dsimp only
    generalize hu : (s.bump (sampOff R.PRF_S_SELECTED c.val)).setCore c.val
      { (s.bump (sampOff R.PRF_S_SELECTED c.val)).core c.val with
        sampleRun := if (s.bump (sampOff R.PRF_S_SELECTED c.val)).fld (F.PRF_S_PERIOD.PERIOD.at (0x400 * c.val))
            ≤ ((s.bump (sampOff R.PRF_S_SELECTED c.val)).core c.val).sampleRun + 1
          then 0 else ((s.bump (sampOff R.PRF_S_SELECTED c.val)).core c.val).sampleRun + 1 } = u
    have hub : ∀ d, (s.bump (sampOff R.PRF_S_SELECTED c.val)).core d = s.core d := fun d => by simp [State.core]
    have hcore : ∃ n, ∀ d, u.core d = if d = c.val then { s.core c.val with sampleRun := n } else s.core d := by
      refine ⟨(u.core c.val).sampleRun, fun d => ?_⟩
      rw [← hu, State.core_setCore, State.core_setCore, if_pos rfl]
      split
      · rw [hub]
      · rw [hub]
    have hap : Apart s u := by rw [← hu]; exact (Apart.bump s _ b0).trans (Apart.setCore _ _ _)
    have hmem : ∀ a, u.rdByte a = s.rdByte a := by intro a; rw [← hu]; simp [State.rdByte]
    have hfld : ∀ f, u.fld f = s.fld f := by intro f; rw [← hu]; simp [State.fld, State.reg]
    have hbase : u.sampBase c.val = s.sampBase c.val := by simp [State.sampBase, hfld]
    split
    · have k := sampleDue_keeps u c pc insn clk key flags cls
      refine ⟨?_, hap.trans k.2.1, fun a ha => ?_⟩
      · obtain ⟨n, hn⟩ := hcore
        exact ⟨n, fun d => by rw [show (u.sampleDue c.val pc insn clk key flags cls).core d = u.core d by
          simp only [State.core, k.1]]; exact hn d⟩
      · rw [k.2.2 a ?_, hmem]
        intro w hw
        rw [hfld, hfld] at hw
        rw [hbase, hw]
        intro g
        simp only [Bool.and_eq_true] at h
        exact ha ⟨h.1.1.2, g⟩
    · exact ⟨hcore, hap, fun a _ => hmem a⟩
  next => exact ⟨⟨_, self⟩, Apart.refl s, fun a _ => rfl⟩

theorem InSample_of_CountsOnly {s t : State} (h : CountsOnly s t) (c : CoreId) (a : Nat) : InSample t c a ↔ InSample s c a := by
  have hc := c.isLt
  have key : ∀ f : Fld, f.off = 0x122100 + 0x400 * c.val ∨ f.off = 0x122108 + 0x400 * c.val ∨ f.off = 0x12210C + 0x400 * c.val
      ∨ f.off = 0x122110 + 0x400 * c.val ∨ f.off = 0x122114 + 0x400 * c.val → t.fld f = s.fld f := by
    intro f hf
    unfold State.fld
    rw [h.samplers f.off (by omega) (by omega)]
  unfold InSample State.flag State.sampBase
  rw [key (F.PRF_S_CTRL.S_EN.at (0x400 * c.val)) (Or.inl rfl), key (F.PRF_S_WRITE.INDEX.at (0x400 * c.val)) (by simp [Fld.at, F.PRF_S_WRITE.INDEX]),
    key (F.PRF_S_SIZE.N.at (0x400 * c.val)) (by simp [Fld.at, F.PRF_S_SIZE.N]), key (F.PRF_S_BASE_LO.ADDR_LO.at (0x400 * c.val)) (by simp [Fld.at, F.PRF_S_BASE_LO.ADDR_LO]),
    key (F.PRF_S_BASE_HI.ADDR_HI.at (0x400 * c.val)) (by simp [Fld.at, F.PRF_S_BASE_HI.ADDR_HI])]

/-- The end of a completed instruction leaves the cores as they are, but for the sampler's count. -/
theorem completed_keeps (s : State) (k : Core) (c : CoreId) (clk : Nat) (word : Word) (cls : Nat) :
    Retires s (s.completed k c.val clk word cls) c (s.core c.val) 0 0 := by
  unfold State.completed
  dsimp only
  have e := CountsOnly.coreEvent s c.val 0x02 k.pl cls c.isLt
  generalize s.coreEvent c.val 0x02 k.pl cls = u at *
  have q := sampleIns_keeps u c k.pl cls k.pc.toNat word clk
    (k.taskkey.toNat % 4096 + (if k.task = none then 2 ^ 15 else 0))
    (bitsOf k.status.toNat 5 5 * 8 + bitsOf k.status.toNat 3 3 * 4 + k.pl)
  obtain ⟨⟨n, hn⟩, ha, hm⟩ := q
  refine ⟨?_, ?_, ?_, e.apart.trans ha⟩
  · rw [hn]; simp [e.core]
  · intro d hd; rw [hn, if_neg hd, e.core]
  · intro a _ ns
    rw [hm a (fun g => ns ((InSample_of_CountsOnly e c a).mp g))]
    simp [State.rdByte, e.mem]

/-! ## The frame of an instruction -/

/-- The body completes and the next instruction follows. -/
theorem runIns_ok {s t : State} {c : CoreId} {word : Word} {cls : Nat} {body : State → InsRes} (h : Executes s c)
    (hb : body s = .ok t) : s.runIns c word cls body
      = (t.setPc c.val ((s.core c.val).pc + 4)).completed (s.core c.val) c.val (s.coreClk c.val) word cls := by
  unfold State.runIns
  simp [h.1, h.2, hb]

/-- The body completes at an address. -/
theorem runIns_jump {s t : State} {pc : DWord} {c : CoreId} {word : Word} {cls : Nat} {body : State → InsRes} (h : Executes s c)
    (hb : body s = .jump t pc) : s.runIns c word cls body
      = (t.setPc c.val pc).completed (s.core c.val) c.val (s.coreClk c.val) word cls := by
  unfold State.runIns
  simp [h.1, h.2, hb]

/-- The body raises an exception. -/
theorem runIns_exc {s t : State} {code : Nat} {ev : DWord} {c : CoreId} {word : Word} {cls : Nat} {body : State → InsRes}
    (h : Executes s c) (hb : body s = .exc t code ev) : s.runIns c word cls body = t.excEntry c.val code ev := by
  unfold State.runIns
  simp [h.1, h.2, hb]

/-- The fetch meets a fault. -/
theorem runIns_fetch {s : State} {code : Nat} {p : Bool} {c : CoreId} {word : Word} {cls : Nat} {body : State → InsRes}
    (h : (s.core c.val).run = .run) (hf : s.fetchFault c.val = some (code, p)) : s.runIns c word cls body
      = (if p then s.poisonRead else s).excEntry c.val code (s.core c.val).pc := by
  unfold State.runIns
  simp [h, hf]

/-- The core's registers and the PC change, nothing else. -/
theorem retires_setCore (s : State) (c : CoreId) (k : Core) (clk : Nat) (word : Word) (cls : Nat) (k0 : Core) (pc : DWord) :
    Retires s (((s.setCore c.val k).setPc c.val pc).completed k0 c.val clk word cls) c { k with pc := pc } 0 0 := by
  have q := completed_keeps ((s.setCore c.val k).setPc c.val pc) k0 c clk word cls
  have hcore : ((s.setCore c.val k).setPc c.val pc).core c.val = { k with pc := pc } := by simp [State.setPc]
  rw [hcore] at q
  refine ⟨q.core, ?_, ?_, ?_⟩
  · intro d hd
    rw [q.others d hd]
    simp [State.setPc, hd]
  · intro a h ns
    exact q.memory a h ns
  · exact ((Apart.setCore s _ _).trans (Apart.setCore _ _ _)).trans q.apart

/-- An instruction that only changes its core's registers. -/
theorem runIns_onCore (s : State) (c : CoreId) (word : Word) (cls : Nat) (f : Core → Core) (h : Executes s c) :
    Retires s (s.runIns c word cls fun s => s.onCore c f) c { f (s.core c.val) with pc := (s.core c.val).pc + 4 } 0 0 := by
  rw [runIns_ok (t := s.setCore c.val (f (s.core c.val))) h rfl]
  exact retires_setCore s c _ _ word cls _ _

/-- An instruction that changes registers of its core and goes on at an address. -/
theorem runIns_jumpTo (s : State) (c : CoreId) (word : Word) (cls : Nat) (body : State → InsRes) (k : Core) (pc : DWord)
    (h : Executes s c) (hb : body s = .jump (s.setCore c.val k) pc) :
    Retires s (s.runIns c word cls body) c { k with pc := pc } 0 0 := by
  rw [runIns_jump h hb]
  exact retires_setCore s c _ _ word cls _ _

end Sys2Proof.Machine
end

