-- ==== Sys2Proof/Laws/Vector.lean ====
section
/-!
SUPPORT. Vector registers: what a lane reads after a lane is written, a loop over lanes in closed form, and instructions of one core that
raise events of the performance monitor.
-/

open Sys2Proof Sys2Proof.Machine Sys2Proof.Safety
namespace Sys2Proof.Machine

theorem Core.lane_setLane (k : Core) (r q : Rg) (l m : Nat) (x : Lane) (hl : l < 8) (hm : m < 8) :
    (k.setLane r l x).lane q m = if q = r ∧ m = l then x else k.lane q m := by
  unfold Core.lane Core.setLane
  dsimp only
  rw [mget_mset]
  by_cases h : q = r
  · subst h
    by_cases g : m = l
    · simp [g]
    · rw [if_neg (by omega), if_neg (by tauto)]
  · have : q.toNat ≠ r.toNat := fun e => h (BitVec.eq_of_toNat_eq e)
    rw [if_neg (by omega), if_neg (by tauto)]

@[simp] theorem Core.lane_orFlags (k : Core) (f : Nat) (r : Rg) (l : Nat) : (k.orFlags f).lane r l = k.lane r l := rfl
@[simp] theorem Core.pr_orFlags (k : Core) (f : Nat) (p : Pr) : (k.orFlags f).pr p = k.pr p := rfl
@[simp] theorem Core.pr_setLane (k : Core) (r : Rg) (l : Nat) (x : Lane) (p : Pr) : (k.setLane r l x).pr p = k.pr p := rfl

/-- A loop over lanes, each step writing at most its own lane of one register and the flags, leaves every other lane alone and sees,
at each lane, what stood there before. -/
theorem lanes_fold (d : Rg) (w : Core → Nat → Option Lane) (fl : Core → Nat → Word) (step : Core → Nat → Core)
    (hs : ∀ k l, step k l = { (match w k l with | some x => k.setLane d l x | none => k) with fflags := fl k l })
    (L : List Nat) (hL : ∀ l ∈ L, l < 8) (nd : L.Nodup) (k0 k : Core)
    (hw : ∀ l ∈ L, ∀ k : Core, (∀ r, k.lane r l = k0.lane r l) → k.p = k0.p → k.s = k0.s → w k l = w k0 l)
    (hk : ∀ l ∈ L, ∀ r, k.lane r l = k0.lane r l) (hp : k.p = k0.p) (hg : k.s = k0.s) :
    L.foldl step k = { k with v := (L.foldl step k).v, fflags := (L.foldl step k).fflags } ∧
    ∀ (r : Rg) (l : Nat), l < 8 → (L.foldl step k).lane r l =
      if r = d ∧ l ∈ L then (w k0 l).getD (k.lane r l) else k.lane r l := by
  induction L generalizing k with
  | nil => simp
  | cons a t ih =>
    simp only [List.foldl_cons]
    have ha : a < 8 := hL a (by simp)
    have nd' := List.nodup_cons.mp nd
    have e := hs k a
    have hwa : w k a = w k0 a := hw a (by simp) k (hk a (by simp)) hp hg
    have hlane : ∀ r l, l < 8 → (step k a).lane r l = if r = d ∧ l = a then (w k0 a).getD (k.lane r l) else k.lane r l := by
      intro r l hl
      rw [e, hwa]
      cases h : w k0 a with
      | none =>
        show k.lane r l = _
        simp
      | some x =>
        show (k.setLane d a x).lane r l = _
        rw [Core.lane_setLane _ _ _ _ _ _ ha hl]; simp
    have hrest : (step k a) = { k with v := (step k a).v, fflags := (step k a).fflags } := by
      rw [e]; cases w k a <;> rfl
    have := ih (fun l hl => hL l (by simp [hl])) nd'.2 (step k a) (fun l hl => hw l (by simp [hl]))
      (fun l hl r => by
        rw [hlane r l (hL l (by simp [hl])), if_neg, hk l (by simp [hl])]
        rintro ⟨-, rfl⟩; exact nd'.1 hl)
      (by rw [hrest]; exact hp) (by rw [hrest]; exact hg)
    refine ⟨?_, ?_⟩
    · rw [this.1]; rw [hrest]
    · intro r l hl
      rw [this.2 r l hl, hlane r l hl]
      by_cases hr : r = d
      · by_cases h1 : l = a
        · have h1' : l ∉ t := h1 ▸ nd'.1
          simp only [hr, true_and, h1', if_false, if_pos h1, List.mem_cons]
          rw [if_pos (Or.inl h1), h1]
        · simp [hr, h1]
      · simp [hr]

/-- An instruction whose body sets its core's registers and counts events of the core. -/
theorem runIns_onCore_events (s : State) (c : CoreId) (word : Word) (cls : Nat) (k' : Core) (ev pl cl n : Nat) (h : Executes s c)
    {body : State → InsRes} (hb : body s = .ok ((s.setCore c.val k').coreEvents c.val ev pl cl n)) :
    Retires s (s.runIns c word cls body) c { k' with pc := (s.core c.val).pc + 4 } 0 0 := by
  rw [runIns_ok h hb]
  have e := CountsOnly.coreEvents (s.setCore c.val k') c.val ev pl cl n c.isLt
  generalize (s.setCore c.val k').coreEvents c.val ev pl cl n = u at *
  have q := completed_keeps (u.setPc c.val ((s.core c.val).pc + 4)) (s.core c.val) c (s.coreClk c.val) word cls
  have hcore : (u.setPc c.val ((s.core c.val).pc + 4)).core c.val = { k' with pc := (s.core c.val).pc + 4 } := by
    simp [State.setPc, e.core]
  rw [hcore] at q
  have hin : ∀ a, InSample (u.setPc c.val ((s.core c.val).pc + 4)) c a ↔ InSample s c a := fun a =>
    (InSample_of_CountsOnly e c a)
  refine ⟨q.core, ?_, ?_, ?_⟩
  · intro d hd
    rw [q.others d hd]
    simp [State.setPc, hd, e.core]
  · intro a hr ns
    rw [q.memory a hr (fun g => ns ((hin a).mp g))]
    have : u.mem = s.mem := e.mem
    simp [State.setPc, State.rdByte, this]
  · exact (((Apart.setCore s _ _).trans e.apart).trans (Apart.setCore _ _ _)).trans q.apart
end Sys2Proof.Machine
end

