-- ==== Sys2Proof/Tests/Slice0.lean ====
section
/-!
SUPPORT. Tests: ill-formed commands that `wellFormed` refuses, words of the Sapor encoding, single steps with results from the spec, and
for every obligation a state and operands that meet its hypotheses.
-/

namespace Sys2Proof.Tests

open Sys2Proof.Machine Sys2Proof.Safety

set_option maxRecDepth 100000
set_option Elab.async false

/-! ## Small states -/

/-- The state after reset with a core changed. -/
def core (c : Nat) (k : Core → Core) : State := State.reset.setCore c (k (State.reset.core c))

/-- A core that runs at S from 0x1000. -/
def runS (k : Core) : Core := { k with run := .run, pc := 0x1000, status := 1 }

/-- The same at P, with every address below 2^39 in a region that grants all. -/
def runP (k : Core) : Core := { k with run := .run, pc := 0x1000, status := 0, region := [(0, 0x9C7)] }

/-- The state after reset in a mode, with every Supervisor and Stream Engine core running. -/
def inMode (m : Mode) : State :=
  let s := { State.reset with sys := { State.reset.sys with mode := m, bootStep := 7, prevMode := .boot } }
  (List.range 20).foldl (fun s c => s.setCore c (runS (s.core c))) s

/-- Decidable forms of the premises on accesses. -/
def reachedB (s : State) : Req → Nat → Bool
  | .host, off => s.sys.mode != .keep && s.hostWrites off
  | .core c, _ => s.coreAlive c.val
def readB (s : State) : Req → Nat → Bool
  | .host, off => s.sys.mode != .keep && s.hostReads off
  | .core c, _ => s.coreAlive c.val
def writeB (s : State) (q : Req) (off : Nat) : Bool :=
  reachedB s q off && decide (s.writerBar q off = none) && (!isJournalBlock (off / 0x10000) || s.sys.mode != .shadow)
    && decide ((s.cnt R.SYS_REFUSED_COUNT).toNat < 18446744073709551615)

theorem reached_of {s : State} {q : Req} {off : Nat} (h : reachedB s q off = true) : Reached s q off := by
  cases q <;> simpa [reachedB, Reached] using h
theorem readOpen_of {s : State} {q : Req} {off : Nat} (h : readB s q off = true) : ReadOpen s q off := by
  cases q <;> simpa [readB, ReadOpen] using h
theorem writeOpen_of {s : State} {q : Req} {off : Nat} (h : writeB s q off = true) : WriteOpen s q off := by
  simp only [writeB, Bool.and_eq_true, decide_eq_true_eq] at h
  refine ⟨reached_of h.1.1.1, h.1.1.2, fun j => ?_, h.2⟩
  have := h.1.2
  simpa [j] using this

def runB (s : State) (q : Req) (off v : Nat) : Bool :=
  writeB s q off && decide (s.barOf q false off = none) &&
    match findReg off with
    | some d => !reservedHit s.sys.nominal60 d.fields v
    | none => true
theorem runOpen_of {s : State} {q : Req} {off v : Nat} (h : runB s q off v = true) : RunOpen s q off v := by
  simp only [runB, Bool.and_eq_true, decide_eq_true_eq] at h
  refine ⟨writeOpen_of h.1.1, h.1.2, fun d e => ?_⟩
  have := h.2
  rw [e] at this
  simpa using this
/-! ## Witnesses: Sapor -/

theorem wit_StepRunsFront : (State.reset.withPending [.status]).pending = .status :: [] := by decide
theorem wit_StepIdles : State.reset.pending = [] := by decide

theorem wit_ScalarResults : ∃ f, scalarOp (.add 0 1 2 3) = some (0, 1, f) ∧ Executes (core 0 runS) 0 := ⟨_, rfl, by decide, by decide⟩

/-- A core with s2 = 6 and s3 = -1. -/
def kInt (k : Core) : Core := ((runS k).setGs 2 6).setGs 3 (-1)

theorem wit_SpecialResults : Executes (core 0 kInt) 0 ∧
    (let k := (core 0 kInt).core 0
     k.gs 2 ≠ 0 ∧ ¬ ((k.gs 3).toInt = -9223372036854775808 ∧ (k.gs 2).toInt = -1) ∧ k.gs 4 = 0) := ⟨⟨by decide, by decide⟩, by decide⟩
theorem wit_quotient_overflow : let k := ((runS (State.reset.core 0)).setGs 2 0x8000000000000000).setGs 3 (-1)
    (k.gs 2).toInt = -9223372036854775808 ∧ (k.gs 3).toInt = -1 := by decide

theorem wit_Branches : Executes (core 0 kInt) 0 ∧ (∃ f, branchOp (.bz 0 2 1) = some (0, 1, f)) ∧
    (((core 0 kInt).core 0).gs 2 + BitVec.signExtend 64 (2 : BitVec 14)).toNat % 4 = 0 ∧
    (((core 0 kInt).core 0).gs 2 + BitVec.signExtend 64 (1 : BitVec 14)).toNat % 4 ≠ 0 :=
  ⟨⟨by decide, by decide⟩, ⟨_, rfl⟩, by decide, by decide⟩

/-- A core at S reaches every aligned word of SRAM below the boundary, for one word or 64 bytes from 0x2000. -/
theorem reaches_sram (s : State) (c : CoreId) (perm n : Nat) (hn : n ≤ 64) (h : (s.core c.val).pl ≠ 0) (p : s.err.poison = []) :
    Reaches s c perm 0x2000 n := by
  intro w h8 h1 h2
  refine ⟨by omega, fun e => absurd e h, ?_, .inr (.inl ?_), fun _ => ?_⟩
  · have : w < sramEnd := by unfold sramEnd; omega
    simp [isMemory, this]
  · simp [boundaryStart]; omega
  · simp [State.poisoned, p, mget, mapGet]

/-- A core whose s6 is 0x2000. -/
def kMem (k : Core) : Core := (runS k).setGs 6 0x2000

theorem wit_LoadsFromMemory : loadOp (.ld64 3 5 6 0) = some (3, 5, 6, 0, 8, false) ∧ Executes (core 3 kMem) 3 ∧
    (((core 3 kMem).core 3).gs 6 + BitVec.signExtend 64 (0 : BitVec 12) * 8).toNat = 0x2000 ∧ Reaches (core 3 kMem) 3 0 0x2000 8 :=
  ⟨rfl, ⟨by decide, by decide⟩, by decide, reaches_sram _ _ _ _ (by decide) (by decide) rfl⟩
theorem wit_StoresToMemory : storeOp (.st8 3 5 6 0) = some (3, 5, 6, 0, 1) ∧ Executes (core 3 kMem) 3 ∧
    (((core 3 kMem).core 3).gs 6 + BitVec.signExtend 64 (0 : BitVec 12) * 1).toNat = 0x2000 ∧ Reaches (core 3 kMem) 3 1 0x2000 1 :=
  ⟨rfl, ⟨by decide, by decide⟩, by decide, reaches_sram _ _ _ _ (by decide) (by decide) rfl⟩
theorem wit_VectorLoadStore : Executes (core 3 kMem) 3 ∧
    (((core 3 kMem).core 3).gs 6 + BitVec.signExtend 64 (0 : BitVec 12) * 8).toNat = 0x2000 ∧
    Reaches (core 3 kMem) 3 0 0x2000 64 ∧ Reaches (core 3 kMem) 3 1 0x2000 64 :=
  ⟨⟨by decide, by decide⟩, by decide, reaches_sram _ _ _ _ (by decide) (by decide) rfl,
    reaches_sram _ _ _ _ (by decide) (by decide) rfl⟩

/-- A core whose s6 is the address of the last control register, and s7 that of TIM_NOW_LO. -/
def kCtl (k : Core) : Core := ((runS k).setGs 6 0x8013FFFC).setGs 7 (BitVec.ofNat 64 (ctrlBase + R.TIM_NOW_LO))

theorem wit_ControlRegisterAccess : Executes (core 3 kCtl) 3 ∧
    (let a := (((core 3 kCtl).core 3).gs 6).toNat
     a % 4 = 0 ∧ ctrlBase ≤ a ∧ a < ctrlBase + ctrlSize ∧ ((core 3 kCtl).core 3).pl ≠ 0 ∧ ((core 3 kCtl).core 3).det = false) :=
  ⟨⟨by decide, by decide⟩, by decide⟩

theorem wit_AccessExceptions_det : (∃ x f, accessOp (.ld32u 3 5 7 0) = some (3, x, f) ∧ x.load = true) ∧
    (let s := core 3 fun k => { kCtl k with status := 0x21 }
     Executes s 3 ∧ (s.core 3).det = true ∧ detForbids ((s.core 3).gs 7).toNat = true) :=
  ⟨⟨_, _, rfl, by decide⟩, ⟨by decide, by decide⟩, by decide, by decide⟩
theorem wit_AccessExceptions_align : (∃ x f, accessOp (.ld64 3 5 6 0) = some (3, x, f) ∧ x.align = 8 ∧ x.size = 8) ∧
    0x8013FFFC % 8 ≠ 0 := ⟨⟨_, _, rfl, by decide, by decide⟩, by decide⟩
/-- At P with no region the word at 0x2000 is barred; outside the memory map it is away; a poisoned word is read. -/
theorem wit_AccessExceptions_word :
    (let k := { runP (State.reset.core 3) with region := [] }
     k.pl = 0 ∧ k.permits 0x2000 0 = false) ∧
    isMemory 0x1FFFFFFFF8 = false ∧ isControl 0x1FFFFFFFF8 = false ∧
    (let s := (core 3 kMem).poisonAt 0x2000
     Executes s 3 ∧ s.poisoned 0x2000 = true ∧ isMemory 0x2000 = true ∧ isControl 0x2000 = false) :=
  ⟨by decide, by decide, by decide, ⟨⟨by decide, by decide⟩, by decide, by decide, by decide⟩⟩

theorem wit_LaneRule : (∃ f, vecOp (.cmac 0 1 2 3 4) = some (0, 1, 4, [1, 2, 3], f)) ∧ Executes (core 0 runS) 0 :=
  ⟨⟨_, rfl⟩, by decide, by decide⟩
theorem wit_PredicatesAndMoves : (∃ f, predOp (.vclt 0 1 2 3 4) = some (0, 1, f)) ∧ (∃ f, predOp (.pand 0 0 2 3) = some (0, 0, f)) ∧
    (∃ f, laneOp (.vins 0 1 2 7) = some (0, 1, f)) ∧ Executes (core 0 runS) 0 := ⟨⟨_, rfl⟩, ⟨_, rfl⟩, ⟨_, rfl⟩, by decide, by decide⟩
theorem wit_Reductions : (∃ f g, reduceOp (.crsum 0 1 2 3 4) = some (0, 1, 2, 3, 4, f, g)) ∧ Executes (core 0 runS) 0 :=
  ⟨⟨_, _, rfl⟩, by decide, by decide⟩

/-- A record at 0x3000 with TTAG 5, closed, and one member: stream 9, placed, one channel present. -/
def record : List Host.Cell :=
  [(0x3000, 5), (0x3020, 1), (0x3074, 1), (0x3080, 1), (0x309A, 1), (0x309B, 1), (0x309C, 9)]
def kSet (k : Core) : Core := { (((kMem k).setGs 2 9).setGs 3 8) with setbase := 0x3000, ttag := 5, bound := true }
def sSet : State := { core 3 kSet with mem := (0x2000, 9) :: (0x2003, 0x80) :: record }

theorem wit_SetAccess : Executes sSet 3 ∧ sSet.setBar (sSet.core 3) = none ∧
    sSet.boundSlot (sSet.core 3) (((sSet.core 3).gs 2).toNat % 16384) = .inr (some 0x3080) ∧
    sSet.boundSlot (sSet.core 3) (((sSet.core 3).gs 3).toNat % 16384) = .inr none ∧
    ((sSet.core 3).gs 6).toNat % 32 = 0 ∧ Reaches sSet 3 0 0x2000 32 ∧
    (core 3 kMem).setBar ((core 3 kMem).core 3) = some .access ∧
    (sSet.poisonAt 0x3020).setBar (sSet.core 3) = some (.poison 0x3020) ∧
    (let s := sSet.poisonAt 0x3098
     s.setBar (sSet.core 3) = none ∧ s.boundSlot (sSet.core 3) (((sSet.core 3).gs 2).toNat % 16384) = .inl (.poison 0x3098) ∧
       s.setLane (sSet.core 3) (s.rdLe 0x2000 4) = .inl (.poison 0x3098)) :=
  ⟨⟨by decide, by decide⟩, by decide, by decide, by decide, by decide, reaches_sram _ _ _ _ (by decide) (by decide) rfl, by decide, by decide,
    by decide⟩
theorem wit_SetAccess_lanes : ∃ x : Nat → Lane, ∀ l < 8, ((sSet.core 3).pr 0).getLsbD l = true →
    sSet.setLane (sSet.core 3) (sSet.rdLe (((sSet.core 3).gs 6).toNat + 4 * l) 4) = .inr (x l) :=
  ⟨fun l => if l = 0 then ⟨0, 0, true⟩ else ⟨0, 0, false⟩, by decide +kernel⟩

theorem wit_QueueInstructions : Executes (core 3 kMem) 3 ∧ ((core 3 kMem).core 3).gs 6 = 0x2000 ∧ Reaches (core 3 kMem) 3 0 0x2000 32 ∧
    Reaches (core 3 kMem) 3 1 0x2000 32 ∧ (∀ j < 32, (0 : Entry).extractLsb' (8 * j) 8 = (core 3 kMem).rdByte (0x2000 + j)) :=
  ⟨⟨by decide, by decide⟩, by decide, reaches_sram _ _ _ _ (by decide) (by decide) rfl,
    reaches_sram _ _ _ _ (by decide) (by decide) rfl, by decide +kernel⟩

/-- An entry of a queue. -/
def entry (v : Nat) : QEntry := ⟨BitVec.ofNat 256 v, true, true, true, false, 0⟩

theorem wit_PostsAndWaits : Executes (core 3 kMem) 3 ∧
    (let s := core 3 fun k => { (runS k).setGs 2 1 with status := 0x21 }
     Executes s 3 ∧ (s.core 3).det = true ∧ ((s.core 3).gs 2).toNat % 4294967296 ≠ 0) ∧
    (let s := ((core 3 runS).setReg (R.MBX_DB + 0x40 * 3) 1).setReg (R.MBX_MASK + 0x40 * 3) 1
     (s.reg (R.MBX_DB + 0x40 * 3) &&& s.reg (R.MBX_MASK + 0x40 * 3)) ≠ 0) ∧
    ((core 3 runS).reg (R.MBX_DB + 0x40 * 3) &&& (core 3 runS).reg (R.MBX_MASK + 0x40 * 3)) = 0 ∧
    ((core 3 runS).queue 255).entries = [] ∧
    (((core 3 runS).setQueue 0 { (core 3 runS).queue 0 with entries := [entry 1] }).queue 0).entries ≠ [] :=
  ⟨⟨by decide, by decide⟩, ⟨⟨by decide, by decide⟩, by decide, by decide⟩, by decide, by decide, by decide, by decide +kernel⟩
theorem wit_WaitsEnd : let s := core 3 fun k => { k with run := .waitD 0 1 5 0 }
    (s.core 3).run = .waitD 0 1 5 0 ∧ 1 * 1200 ≤ s.now + 1200 - 0 ∧
    ((core 3 fun k => { k with run := .waitQ 7 0 1 5 0 }).core 3).run = .waitQ 7 0 1 5 0 := by decide
/-! ## Witnesses: control words, exceptions, returns, tasks -/

/-- The base of Grove 0's Set ring. -/
def ring0 (s : State) : Nat := dramStart + (s.setRing 0 0).1
/-- A running Grove whose record starts at v, which s2 holds. -/
def sGrove : State :=
  let s := (core 3 runS).setGrove 0 { (core 3 runS).grove 0 with run := .running }
  let s := (s.setReg R.GLD_RECSIZE 0x4).setReg R.GLD_STORE_RECORDS 0x40
  s.setCore 3 ((s.core 3).setGs 2 (BitVec.ofNat 64 (ring0 s)))

theorem wit_ControlWords : Executes (core 3 runS) 3 ∧ cwListed 9 = false ∧ cwListed 0 = true ∧ cwListed 0x37 = true ∧
    (runS (State.reset.core 3)).pl ≠ 0 ∧
    (let k := runP (State.reset.core 3)
     Executes (core 3 runP) 3 ∧ k.pl = 0 ∧ cwSOnly 2 = true ∧ cwSOnly 0x10 = false ∧ k.det = false ∧ k.pMayWrite 0 0 = false ∧
       k.pMayWrite 0x18 0 = true) ∧
    (let s := core 3 fun k => { runS k with status := 0x21 }
     Executes s 3 ∧ (s.core 3).det = true) ∧
    (core 3 runS).recordGrove 0 = none ∧ (0x37 ≤ 0x37 ∧ regionLegal 0x300 = true ∧ regionLegal 0x2C0 = false) :=
  ⟨⟨by decide, by decide⟩, by decide, by decide, by decide, by decide,
    ⟨⟨by decide, by decide⟩, by decide, by decide, by decide, by decide, by decide, by decide⟩,
    ⟨⟨by decide, by decide⟩, by decide⟩, by decide +kernel, by decide⟩
theorem wit_ControlWords_setbase : Executes sGrove 3 ∧ (sGrove.recordGrove ((sGrove.core 3).gs 2).toNat).isSome ∧
    sGrove.poisoned ((sGrove.core 3).gs 2).toNat = false ∧ sGrove.poisoned (((sGrove.core 3).gs 2).toNat + 0x10) = false ∧
    (let s := sGrove.poisonAt (((sGrove.core 3).gs 2).toNat + 0x10)
     (s.recordGrove ((sGrove.core 3).gs 2).toNat).isSome ∧ s.poisoned (((sGrove.core 3).gs 2).toNat + 0x10) = true) :=
  ⟨⟨by decide, by decide⟩, by decide +kernel, by decide +kernel, by decide +kernel, by decide +kernel⟩

/-- A pending edge on private source 8 of core 3, enabled at priority 8. -/
def pend (s : State) : State :=
  (s.setSrc (3 * 64 + 8) { srcIdle with pending := true }).setReg (srcCtrl (3 * 64 + 8)) 0x84000008

theorem wit_Entries : 31 < 32 ∧ ((core 3 runS).core 3).status.getLsbD 3 = false ∧
    ({ runS (State.reset.core 3) with status := 9 } : Machine.Core).status.getLsbD 3 = true ∧
    (let s := pend (core 3 fun k => { runS k with status := 5 })
     s.winner 3 = some (3 * 64 + 8) ∧ (s.core 3).status.getLsbD 2 = true ∧ (s.core 3).status.getLsbD 3 = false ∧
       (s.core 3).run = .run ∧ s.clocked 3 = true ∧ ({ s with sys := { s.sys with pll := .stopped } } : State).clocked 3 = false) := by
  decide +kernel

theorem wit_TrapsReturnsModes : Executes (core 3 runS) 3 ∧ ((core 3 runS).core 3).pl ≠ 0 ∧ Executes (core 3 runP) 3 ∧
    ((core 3 runP).core 3).pl = 0 ∧ (core 3 runS).tailChains 3 = false ∧ legalWord 3 0 = false ∧
    (let s := pend (core 3 fun k => { runS k with cause := 0x80000000, estatus := 4 })
     Executes s 3 ∧ (s.core 3).pl ≠ 0 ∧ s.tailChains 3 = true) ∧
    Executes (core 16 runS) 16 ∧ ((core 16 runS).core 16).pl ≠ 0 ∧ Executes (core 19 runP) 19 ∧ ((core 19 runP).core 19).pl = 0 :=
  ⟨⟨by decide, by decide⟩, by decide, ⟨by decide, by decide⟩, by decide, by decide +kernel, by decide +kernel,
    ⟨⟨by decide, by decide⟩, by decide, by decide +kernel⟩, ⟨by decide, by decide⟩, by decide, ⟨by decide, by decide⟩, by decide⟩

/-- A task. -/
def task1 : Task := taskOf 0 1

theorem wit_TaskBegins : let s := core 0 fun k => { k with run := .wait, given := some task1 }
    (s.core 0).run = .wait ∧ (s.core 0).given = some task1 ∧ s.clocked 0 = true := by decide +kernel

/-! ## Witnesses: accesses -/

theorem wit_Accesses : Reached (inMode .service) .host R.SYS_INT_EN ∧ Reached (inMode .service) (.core 0) 0xFFFC ∧
    (inMode .service).reqDet .host = false ∧ ReadOpen (inMode .service) .host 0xFFFC ∧ ReadOpen (inMode .service) (.core 19) R.TIM_NOW_LO ∧
    (0x13FFFF < ctrlSize ∧ ¬ (4 = 4 ∧ 0x13FFFF % 4 = 0) ∧ ¬ (2 = 4 ∧ 0 % 4 = 0)) ∧ (inMode .service).sys.mode ≠ .keep ∧
    ((inMode .service).core 0).run = .run ∧ isMemory 0 = true :=
  ⟨reached_of (by decide +kernel), reached_of (by decide +kernel), by decide +kernel, readOpen_of (by decide +kernel),
    readOpen_of (by decide +kernel), by decide, by decide +kernel, by decide +kernel, by decide⟩

/-! ## Witnesses: power, modes, resets -/

theorem wit_PowerAndClock :
    (let s := (List.range 16).foldl (fun s c => s.setCore c { s.core c with run := .wait }) State.reset
     (∀ c < 16, (s.core c).run = .wait ∧ (s.core c).given = none ∧ (s.core c).waitAt ≤ 0) ∧ s.sys.pllUpAt = 0 ∧ s.sys.pll = .running) ∧
    (State.reset.core 0).run ≠ .wait ∧
    ({ State.reset.sys with pll := .restarting 5 } : Sys).pll = .restarting 5 ∧ (inMode .keep).sys.mode = .keep ∧
    (let s := inMode .service
     s.sys.warnAt = none ∧ s.sys.powerGood = true ∧ s.sys.mode ≠ .keep ∧ s.sys.coresOff = false ∧ s.sys.timeWaitUp = false ∧
       s.xng.hb = none) ∧
    (let s := ({ inMode .boot with sys := { (inMode .boot).sys with t7At := some 0, warnAt := some 0 } } : State).setFld F.XNG_CTRL.PAIR_EN 1
     s.sys.t7At = some 0 ∧ s.sys.warnAt = some 0 ∧ s.paired = true) ∧
    (let s := ({ inMode .dormant with und := { State.reset.und with armed := true } } : State).setReg (R.IC_WAKE_SLOT + 4 * 15) 0x80000000
     s.slotDue 15 = true ∧ s.fld F.IC_WAKE_CAUSE.FIRED = 0 ∧ s.sys.mode = .dormant ∧ s.sys.trans = none ∧ s.sys.warnAt = none) ∧
    (let s := (({ inMode .dormant with und := { State.reset.und with armed := true } } : State).setReg (R.IC_WAKE_SLOT + 4 * 15)
        0x80000000).setFld ⟨R.IC_WAKE_CAUSE, 0, 0⟩ 1
     s.slotDue 15 = true ∧ s.fld F.IC_WAKE_CAUSE.FIRED ≠ 0) := by decide +kernel

/-- A unit at a step of its Boot. -/
def atStep (n : Nat) : State := { State.reset with sys := { State.reset.sys with bootStep := n } }
theorem atBoot (n : Nat) : AtBoot (atStep n) n := ⟨rfl, rfl, rfl, rfl⟩

theorem wit_ColdStart : AtBoot (atStep 0) 0 ∧ AtBoot (atStep 6) 6 ∧ (atStep 2).flag F.SEC_TAMPER_LATCH.LOCKDOWN = false ∧
    (atStep 4).bootFailed = false ∧ ((atStep 4).bootImage 2).2 = false := ⟨atBoot 0, atBoot 6, by decide +kernel⟩

theorem wit_ModeTransitions : Reached (inMode .service) .host R.SYS_MODE_REQ ∧
    (0x4D520000 / 65536 = 0x4D52 ∧ (Req.host.id = 24)) ∧
    (let s := inMode .service
     s.sys.trans = none ∧ s.sys.warnAt = none ∧ modeOf 15 = none ∧ modeOf 3 = some .commission ∧
       requestFrom .commission s.sys.mode = true ∧ needsSignature .commission s.sys.mode = true ∧ s.sec.auths = []) ∧
    (let s := inMode .commission
     modeOf 8 = some .test ∧ requestFrom .test s.sys.mode = true ∧ needsSignature .test s.sys.mode = false) ∧
    (State.requestMet (inMode .commission) .service = false ∨ State.requestMet (inMode .commission) .test = true) ∧
    (let s := (inMode .service).beginTrans .lockdown 3
     s.sys.trans = some ⟨.lockdown, false, 3⟩ ∧ s.xng.handover = none) := by
  refine ⟨reached_of (by decide +kernel), by decide, by decide +kernel, by decide +kernel, by decide +kernel, by decide +kernel⟩
/-- The service state, with its Supervisors and Stream Engines running. -/
def sv : State := inMode .service
def sys (f : Sys → Sys) (s : State) : State := { s with sys := f s.sys }
/-- The unit in Recovery, with Supervisor 16 as the holder. -/
def rec16 : State := { inMode .recovery with err := { State.reset.err with holder := 16, recovering := true } }

theorem wit_Resets : Reached sv .host R.SYS_RESET ∧ Reached sv (.core 0) R.SYS_RESET ∧ Reached rec16 (.core 16) R.SYS_CORE_RESET ∧
    Reached rec16 (.core 17) R.SYS_CORE_RESET ∧ sv.mayCommand (.core 0) = false ∧ sv.mayCommand (.core 19) = true ∧
    sv.mayCommand .host = true ∧ 0x52530001 / 65536 = 0x5253 ∧ 0x52530001 % 4 = 1 ∧ sv.mayReset = true ∧
    (inMode .lockdown).mayReset = true ∧ (inMode .keep).sys.mode = .keep ∧ rec16.isHolder (.core 17) = false ∧
    rec16.isHolder (.core 16) = true ∧ (0x80000 : Word).toNat = 2 ^ 19 :=
  ⟨reached_of (by decide +kernel), reached_of (by decide +kernel), reached_of (by decide +kernel), reached_of (by decide +kernel),
    by decide +kernel⟩

/-- A block of the unit in a mode, running or stopped. -/
def block (m : Mode) (b : BlockId) (run stopped : Nat) : State :=
  ((inMode m).setFld (blkRunCtl b).run run).setFld (blkRunCtl b).stopped stopped

theorem wit_BlockControl :
    (let s := block .service .alm 1 0
     RunOpen s .host (blkCtrl .alm) (s.withRun (blkCtrl .alm) false)) ∧
    (let s := block .service .flt 1 0
     RunOpen s .host (blkCtrl .flt) (s.withRun (blkCtrl .flt) false)) ∧
    (let s := block .commission (.port 5) 0 1
     RunOpen s (.core 16) (blkCtrl (.port 5)) (s.withRun (blkCtrl (.port 5)) true)) ∧
    (let s := block .service .alm 1 0
     s.flag (blkRunCtl .alm).run = true ∧ mayStop (blkRunCtl .alm).stops s.sys.mode = false) ∧
    (let s := block .service .flt 1 0
     s.flag (blkRunCtl .flt).run = true ∧ mayStop (blkRunCtl .flt).stops s.sys.mode = true) ∧
    (let s := block .commission (.port 5) 0 1
     s.flag (blkRunCtl (.port 5)).run = false ∧ s.flag (blkRunCtl (.port 5)).stopped = true ∧
       (s.reg (blkCtrl (.port 5))).getLsbD 12 = false ∧ (s.reg (blkCtrl (.port 5))).getLsbD 10 = false) ∧
    (let s := block .commission (.port 5) 0 0
     s.flag (blkRunCtl (.port 5)).run = false ∧ s.flag (blkRunCtl (.port 5)).stopped = false ∧ s.atStopPoint (.port 5) = true) :=
  ⟨runOpen_of (by decide +kernel), runOpen_of (by decide +kernel), runOpen_of (by decide +kernel), by decide +kernel⟩

theorem wit_BlockResets : Reached (block .commission .gld 0 1) .host (blkCtrl .gld) ∧ (block .commission .gld 0 1).resetBar .host .gld = none ∧
    Reached (block .commission .xng 1 0) .host (blkCtrl .xng) ∧ (block .commission .xng 1 0).resetBar .host .xng = some 0 ∧
    (block .commission .acc 0 0).resetBar .host .acc = some 2 :=
  ⟨reached_of (by decide +kernel), by decide +kernel, reached_of (by decide +kernel), by decide +kernel, by decide +kernel⟩

/-- Grove 15 with a configuration that stands: a ring of 100 records and 16 amendments after it. -/
def grove15 : State :=
  let o := 0x40 * 15
  let s := (inMode .commission).setFld (F.GLD_G_CTRL.RATE.at o) 50
  let s := (s.setReg (R.GLD_STORE_RECORDS + o) 100000).setReg (R.GLD_AMEND_RECORDS + o) 16
  (s.setReg (R.GLD_AMEND_BASE + o) 0x1000).setFld (F.GLD_G_STATUS.STOPPED.at o) 1

/-- Grove 0 with too few records. -/
def groveBad : State := ((inMode .commission).setFld F.GLD_G_CTRL.RATE 50).setFld F.GLD_G_STATUS.STOPPED 1

/-- Grove 0 in service, with one open Set. -/
def grove0 : State :=
  let s := (sv.setFld F.GLD_G_CTRL.RATE 50).setFld F.GLD_G_CTRL.RUN 1
  s.setGrove 0 { s.grove 0 with run := .running, sets := [newSet 77 0 true] }

theorem wit_GroveRunControl :
    RunOpen grove15 .host (R.GLD_G_CTRL + 0x40 * 15) (grove15.withRun (R.GLD_G_CTRL + 0x40 * 15) true) ∧
    RunOpen groveBad .host R.GLD_G_CTRL (groveBad.withRun R.GLD_G_CTRL true) ∧
    RunOpen grove0 .host R.GLD_G_CTRL (grove0.withRun R.GLD_G_CTRL false) ∧
    (let s := grove15
     s.flag (F.GLD_G_CTRL.RUN.at (0x40 * 15)) = false ∧ s.flag (F.GLD_G_STATUS.STOPPED.at (0x40 * 15)) = true ∧
       s.rateConflict 15 (s.fld (F.GLD_G_CTRL.RATE.at (0x40 * 15))) = false ∧
       (s.setFld (F.GLD_G_CTRL.RUN.at (0x40 * 15)) 1).badCfg 15 = 0) ∧
    (let s := groveBad
     s.flag F.GLD_G_CTRL.RUN = false ∧ s.flag F.GLD_G_STATUS.STOPPED = true ∧
       s.rateConflict 0 (s.fld F.GLD_G_CTRL.RATE) = false ∧ (s.setFld F.GLD_G_CTRL.RUN 1).badCfg 0 ≠ 0 ∧ (s.grove 0).run = .stopped) ∧
    (let s := grove0
     s.flag F.GLD_G_CTRL.RUN = true ∧ s.rateConflict 0 (s.fld F.GLD_G_CTRL.RATE) = false ∧ mayStop 2 s.sys.mode = true ∧
       (s.grove 0).run = .running ∧ ((s.grove 0).openSets.getLast?).isSome) :=
  ⟨runOpen_of (by decide +kernel), runOpen_of (by decide +kernel), runOpen_of (by decide +kernel), by decide +kernel⟩

/-! ## Witnesses: test sessions, faults, ports, ingest, tables -/

/-- A queue with an enabled table entry, open to every agent for push and pop, 16 entries deep. -/
def openQ (n : Nat) (s : State) : State :=
  (((((s.setTf TF.RBT.Queue.EN n 1).setTf TF.RBT.Queue.MODE n 1).setTf TF.RBT.Queue.PUSH n 0x1F).setTf TF.RBT.Queue.POP n 0x1F).setTf
    TF.RBT.Queue.CAP_LOG2 n 4)
def withEntries (n : Nat) (l : List Entry) (s : State) : State :=
  s.setQueue n { s.queue n with entries := l.map fun e => ⟨e, true, true, true, false, 0⟩ }

/-- A descriptor of 60 bytes at 0x2000 for port 5, at once, and one for port 6, which is none. -/
def inj5 : Entry := BitVec.ofNat 256 (0x2000 + 60 * 2 ^ 64 + 5 * 2 ^ 80)
def inj6 : Entry := BitVec.ofNat 256 (0x2000 + 60 * 2 ^ 64 + 6 * 2 ^ 80)
def session (l : List Entry) (held : Option Entry) : State :=
  let s := withEntries 0 l (openQ 0 ((inMode .test).setFld F.SYS_TEST_CTRL.INJ_EN 1))
  { s with sys := { s.sys with injHeld := held } }

theorem wit_TestSessions :
    (let s := session [inj5] none
     s.injects = true ∧ s.sys.injHeld = none ∧ (s.pop (s.fld F.SYS_TEST_CTRL.INJ_QUEUE) 32).2.2.isSome ∧ injOk inj5 = true ∧
       injOk inj6 = false) ∧
    (let s := session [] (some inj5)
     (s.elapse 0).injects = true ∧ s.sys.injHeld = some inj5 ∧ injAt inj5 = 0 ∧ s.pflag (injPort inj5) F.NET_STATUS.STOPPED = true ∧
       (s.setFld ⟨F.NET_STATUS.STOPPED.off + netWin 5, F.NET_STATUS.STOPPED.hi, F.NET_STATUS.STOPPED.lo⟩ 0).pflag 5
         F.NET_STATUS.STOPPED = false) ∧
    Reached (inMode .test) .host R.SYS_TEST_WDOG ∧ 0x80000E10 / 2147483648 = 1 ∧ 0x80000E10 % 4096 = 3600 ∧
    (inMode .test).sys.mode = .test ∧ (inMode .test).sys.trans = none :=
  ⟨by decide +kernel, by decide +kernel, reached_of (by decide +kernel), by decide +kernel⟩

theorem wit_Watchdogs : sv.wdogRuns 19 = true ∧ sv.wdogRuns 0 = true ∧ (sv.core 19).wdogWarned = false ∧
    sv.wdogPeriod 19 * 1200 ≤ 2 * (sv.now + 60000000 - (sv.core 19).kickAt) ∧
    sv.wdogPeriod 0 * 1200 ≤ sv.now + 1200000000000 - (sv.core 0).kickAt ∧ sv.coreAlive 19 = true ∧ (sv.core 19).pl ≠ 0 := by decide +kernel

theorem wit_FaultsAndScrubbing :
    (let s := (sv.detect 0x01 0x2000 43)
     s.err.detected = [sv.found 0x01 0x2000 43] ∧ faultClass 0x01 = some 0 ∧ faultClass 0x7F = none ∧ s.err.log = [] ∧ s.paired = false) ∧
    isMemory 0x2000 = true ∧ sv.poisoned 0x2000 = false ∧ (sv.poisonAt 0x2000).poisoned 0x2007 = true := by decide +kernel

theorem wit_RecoveryCommands :
    mget false ({ sv.err with contained := [(16383, true)] } : Err).contained 16383 = true ∧
    Reached sv .host R.ERR_LOG_POP ∧ Reached rec16 (.core 16) R.ERR_RECOVER ∧ Reached rec16 (.core 16) R.ERR_RSV_KICK ∧
    Reached (rec16.setReg R.ERR_CORE_UP 0xFFFFE) (.core 0) R.ERR_CORE_UP ∧
    (rec16.isHolder (.core 16) = true ∧ rec16.sys.mode = .recovery ∧ rec16.sys.trans = none ∧ 0x52560000 / 65536 = 0x5256) ∧
    (let s := { rec16 with err := { rec16.err with overrun := true, lastResort := some 7 } }
     s.err.recovering = true ∧ s.err.overrun = true ∧ s.fld F.ERR_CTRL.RSV_TIMEOUT_MS * 1200000 ≤ s.now + 600000000000 - s.err.rsvAt ∧
       s.err.lastResort = some 7 ∧ s.mayReset = true) ∧
    (let s := core 3 fun k => { runS k with task := some task1 }
     s.coreAlive 3 = true ∧ (s.core 3).pl ≠ 0 ∧ (s.core 3).task.isSome) ∧
    (bitOf ((rec16.setReg R.ERR_CORE_UP 0xFFFFE).reg R.ERR_CORE_UP).toNat 0 = false ∧ (Req.core 0).id = 0) :=
  ⟨by decide, reached_of (by decide +kernel), reached_of (by decide +kernel), reached_of (by decide +kernel),
    reached_of (by decide +kernel), by decide +kernel⟩

/-- A port's field set. -/
def setP (p : Nat) (f : Fld) (v : Nat) (s : State) : State := s.setFld (f.at (netWin p)) v
/-- A port that receives, transmits and has link. -/
def portOn (p : Nat) (s : State) : State :=
  setP p F.NET_CTRL.UNTAGGED 1 (setP p F.NET_STATUS.LINK 1 (setP p F.NET_CTRL.RUN 1 (setP p F.NET_CTRL.TX_EN 1
    (setP p F.NET_CTRL.RX_EN 1 (setP p F.NET_STATUS.STOPPED 0 s)))))
/-- A broadcast frame of 60 bytes with a type, and a PTP one. -/
def bcast (type : Nat) : List Byte := List.replicate 6 0xFF ++ [2, 0, 0, 0, 0, 1] ++ beBytes 2 type ++ List.replicate 46 0

theorem wit_FrameReception :
    (let s := portOn 5 sv
     Takes s 5 ∧ s.rxUsed 5 + min (s.pfld 5 F.NET_MAXLEN.BYTES) 64 ≤ rxBuffer 5 ∧ 64 ≤ s.pfld 5 F.NET_MAXLEN.BYTES ∧
       (withFcs (bcast 0x0800)).length = 64 ∧ leNat ((withFcs (bcast 0x0800)).drop 60) = crc32 (bcast 0x0800) ∧
       leNat ((bcast 0x0800 ++ [1, 2, 3, 4]).drop 60) ≠ crc32 (bcast 0x0800) ∧ beAt (bcast 0x0800) 12 2 ≠ 0x8808 ∧
       s.addrOk 5 (bcast 0x0800) = true ∧ s.vlanOk 5 (bcast 0x0800) = true ∧ s.pflag 5 F.NET_CTRL.MACSEC_EN = false ∧
       isPtp (bcast 0x0800) = false ∧ isPtp (bcast 0x88F7) = true ∧
       leNat ((withFcs (bcast 0x88F7)).drop 60) = crc32 (bcast 0x88F7)) ∧
    (let s := { portOn 5 sv with ing := { (portOn 5 sv).ing with eth := [⟨5, List.replicate 1000 0, false, 0⟩] } }
     Takes s 5 ∧ s.rxUsed 5 = 1004) ∧
    ¬ Takes sv 5 := by
  refine ⟨⟨⟨?_, ?_, ?_⟩, ?_⟩, ⟨⟨?_, ?_, ?_⟩, ?_⟩, fun h => absurd h.1 (by decide +kernel)⟩ <;> decide +kernel

/-- Port 5 with frames to send. -/
def tx5 (f : NetPort → NetPort) : State :=
  let s := portOn 5 sv
  s.setPort 5 (f (s.port 5))
def two : List TxFrame := [⟨4, bcast 1, .plain⟩, ⟨1, bcast 2, .plain⟩, ⟨1, bcast 3, .plain⟩]

theorem wit_Transmission :
    (let s := tx5 fun x => { x with tx := two }
     (s.port 5).tx = [⟨4, bcast 1, .plain⟩] ++ ⟨1, bcast 2, .plain⟩ :: [⟨1, bcast 3, .plain⟩] ∧ (s.port 5).cur = none ∧
       s.pflag 5 F.NET_CTRL.RUN = true ∧ s.pflag 5 F.NET_STATUS.STOPPED = false ∧ s.looped 5 = false ∧
       s.pflag 5 F.NET_STATUS.LINK = true ∧ s.pflag 5 F.NET_CTRL.TX_EN = true ∧ (s.port 5).pauseUntil ≤ s.now ∧
       s.pflag 5 F.NET_CTRL.MACSEC_EN = false ∧ (setP 5 F.NET_STATUS.LINK 0 s).pflag 5 F.NET_STATUS.LINK = false) ∧
    ((tx5 fun x => { x with cur := some ⟨1, bcast 2, .heartbeat⟩ }).port 5).cur = some ⟨1, bcast 2, .heartbeat⟩ ∧
    ((tx5 fun x => { x with tx := [⟨1, bcast 2, .pause 7⟩] }).port 5).tx = [] ++ ⟨1, bcast 2, .pause 7⟩ :: [] ∧
    WriteOpen (inMode .commission) .host (R.NET_CTRL + netWin 5) ∧
    (let s := inMode .commission
     s.pflag 5 F.NET_STATUS.STOPPED = true ∧ s.pflag 5 F.NET_CTRL.PROMISC = false ∧
       (s.reg (R.NET_CTRL + netWin 5)).toNat / 32 % 4 ≠ 3 ∧ s.pflag 5 F.NET_CTRL.RUN = false) :=
  ⟨by decide +kernel, by decide +kernel, by decide +kernel, writeOpen_of (by decide +kernel), by decide +kernel⟩

/-- A queue that raises backpressure to port 5 and the parser. -/
def bp0 (s : State) : State :=
  let s := (s.setTf TF.RBT.Queue.PORTS 0 0x20).setTf TF.RBT.Queue.PARSER 0 1
  s.setQueue 0 { s.queue 0 with bp := true }

theorem wit_PortStates :
    (let s := tx5 fun x => { x with holdFrom := some 3, pauseUntil := 9, refreshAt := some 5 }
     (s.port 5).holdFrom = some 3 ∧ (s.port 5).pauseUntil ≤ s.now + 9 ∧ (s.port 5).refreshAt = some 5 ∧ s.portBp 5 = false) ∧
    (let s := bp0 (setP 5 F.NET_CTRL.TX_PAUSE_EN 1 (tx5 fun x => { x with refreshAt := some 5 }))
     (s.port 5).refreshAt = some 5 ∧ s.sendsPause 5 = true ∧ s.portBp 5 = true) ∧
    (let s := bp0 (tx5 fun x => { x with refreshAt := some 5 })
     s.sendsPause 5 = false ∧ s.portBp 5 = true) ∧ 7 ≤ sv.sys.bootStep := by decide +kernel

/-- The parser running, and a frame of port 5 at it. -/
def parses (s : State) : State := s.setFld F.ING_STATUS.STOPPED 0
def heard (l : List Byte) (s : State) : State := { parses s with ing := { s.ing with eth := [⟨5, l, false, 0⟩] } }
def eth1 (tr : Bool) (s : State) : State := { s with ing := { s.ing with eth := [⟨5, bcast 0x0800, tr, 0⟩] } }
/-- A frame pending that was identified as directory entry 9's, with its blocks. -/
def pend1 (data : Bool) (l : List Byte) (blocks : List Nat) (s : State) : State :=
  { s with ing := { s.ing with pend := [⟨0, 5, 0, 4095, 9, false, data, l, blocks⟩] } }
/-- An Ethernet frame from 1.2.3.4, and an IPv4 header of a protocol with the flags and fragment offset given. -/
def from4 (l : List Byte) : List Byte := ethHeader 1 2 0 0 0x0800 ++ l
def v4 (frag proto : Nat) : List Byte :=
  let h (sum : Nat) : List Byte := beBytes 4 0x45000014 ++ beBytes 2 0 ++ beBytes 2 frag ++ beBytes 1 64 ++ beBytes 1 proto ++ beBytes 2 sum ++
    beBytes 4 0x01020304 ++ beBytes 4 5
  h (inetSum (sum16 (h 0)))
/-- A TCP segment from port 10 to port 11, and a datagram from port 10 to port 12. -/
def tcp4 (flags seq : Nat) (load : List Byte) : List Byte :=
  let u (sum : Nat) : List Byte := beBytes 4 0x000A000B ++ beBytes 4 seq ++ beBytes 4 0 ++ beBytes 2 (0x5000 + flags) ++ beBytes 2 9 ++ beBytes 2 sum ++
    beBytes 2 0 ++ load
  let n := 20 + load.length
  from4 (ipv4Header 0x01020304 5 6 n ++ u (inetSum (sum16 (beBytes 4 0x01020304 ++ beBytes 4 5) + 6 + n + sum16 (u 0))))
def udp4 (load : List Byte) : List Byte := from4 (udpPacket false 0x01020304 5 10 12 load)
/-- A C37.118 frame of 18 bytes with a type, an identity and a time: its CRC is right. -/
def c37 (type id soc : Nat) : List Byte :=
  let l := [0xAA, BitVec.ofNat 8 (16 * type + 1)] ++ beBytes 2 18 ++ beBytes 2 id ++ beBytes 4 soc ++ beBytes 4 0 ++ beBytes 2 0
  l ++ beBytes 2 (crcCcitt l)
/-- Source 4095 is 1.2.3.4 on port 5, to port 12; connection 2047 is of it; entry 9 of the directory is its identity 7, one block. -/
def streams (s : State) : State :=
  let s := ((s.setFld F.ING_CTRL.UDP4_EN 1).setFld F.ING_CTRL.TCP_EN 1).setFld F.GLD_CTRL.RUN 1
  let s := (((s.setTf TF.ING.Source.VALID 4095 1).setTf TF.ING.Source.PORTS 4095 0x20).setTf TF.ING.Source.ADDR0 4095 0x01020304).setTf
    TF.ING.Source.DST_PORT 4095 12
  let s := (((s.setTf TF.ING.Connection.OPEN 2047 1).setTf TF.ING.Connection.SOURCE 2047 4095).setTf TF.ING.Connection.LOCAL_PORT 2047 11).setTf
    TF.ING.Connection.REMOTE_PORT 2047 10
  let s := (((s.setTf TF.ING.Directory.VALID 9 1).setTf TF.ING.Directory.SOURCE 9 4095).setTf TF.ING.Directory.NUM_BLOCKS 9 1).setTf
    TF.ING.Directory.IDCODE 9 7
  let s := (((s.setTf TF.ING.ChannelMap.KIND 0 1).setTf TF.ING.ChannelMap.FMT 0 4).setTf TF.ING.ChannelMap.KIND 1 2).setTf
    TF.ING.ChannelMap.FMT 1 4
  (((s.setTf TF.ING.Directory.RATE 9 50).setTf TF.ING.Directory.TIME_BASE 9 1000000).setTf TF.ING.Directory.FRAMESIZE 9 18).setTf
    TF.ING.Directory.BLOCK_OFFSET 9 14

theorem wit_ParserFrames :
    (let s := eth1 true (parses sv)
     s.parserBp = false ∧ (bp0 s).parserBp = true ∧ s.flag F.ING_STATUS.STOPPED = false ∧ s.handGate 0 = true ∧
       (eth1 false sv).flag F.ING_STATUS.STOPPED = true) ∧
    (let s := heard (bcast 0x88B5) ((sv.setFld F.XNG_CTRL.PAIR_EN 1).setFld F.XNG_CTRL.HB_PORT 5)
     s.handGate 0 = true ∧ s.isHeartbeat ⟨5, bcast 0x88B5, false, 0⟩ = true) ∧
    (isV4 (bcast 0x0800) = true ∧ ipHeaderOk (bcast 0x0800) = false ∧ transportOk (from4 (v4 0 6)) = false ∧ (ipProto (from4 (v4 0 6))).2.2 = false ∧
      (heard (bcast 0x0800) sv).isHeartbeat ⟨5, bcast 0x0800, false, 0⟩ = false) ∧
    (ipHeaderOk (from4 (v4 0x2000 17)) = true ∧ (ipProto (from4 (v4 0x2000 17))).2.2 = true) ∧
    (let m := bcast 0x0806
     let s := openQ 0 (heard m sv)
     isV4 m = false ∧ isV6 m = false ∧ isTcp m = false ∧ isUdp m = false ∧ (s.passCopy m).isSome ∧ s.fld F.ING_SV_QUEUE.PASS = 0 ∧
       s.mayPush 0 33 = true ∧ (s.queue 0).intact = true ∧ (s.queue 0).resetting = false ∧ (s.queue 0).level < s.qCap 0 ∧
       ((s.setReg R.ING_PASS_WRITE 0x40000).passCopy m).isNone) := by decide +kernel

theorem wit_MeasurementFrames :
    (let s := streams (heard (bcast 0x0806) sv)
     s.parserBp = false ∧ s.flag F.ING_STATUS.STOPPED = false ∧ s.handGate 0 = true ∧ (∀ l, s.isHeartbeat ⟨5, l, false, 0⟩ = false)) ∧
    (let s := streams sv
     (∀ m ∈ [tcp4 4 9 [], tcp4 0 1 [7], tcp4 0 0 [7]], ipHeaderOk m = true ∧ transportOk m = true ∧ isTcp m = true ∧ s.findConn m = some 2047) ∧
       s.tf TF.ING.Connection.RCV_NXT 2047 = 0 ∧ beAt (tcp4 0 1 [7]) 38 4 = 1 ∧ beAt (tcp4 0 0 [7]) 38 4 = 0 ∧
       bitOf (beAt (tcp4 4 9 []) 47 1) 2 = true ∧ bitOf (beAt (tcp4 0 1 [7]) 47 1) 2 = false) ∧
    (let s := streams sv
     let check (d : List Byte) : Check := checkFrame (fun n => decide (n = d.length)) d
     (∀ d ∈ [[], [7], c37 0 8 0, c37 0 7 0], ipHeaderOk (udp4 d) = true ∧ transportOk (udp4 d) = true ∧ isUdp (udp4 d) = true ∧
       s.findSource 5 (udp4 d) = some 4095 ∧ udpPayload (udp4 d) = d) ∧ s.tf TF.ING.Source.TRANSPORT 4095 = 0 ∧
       check [] = .more ∧ check [7] = .bad R.ING_U_REJ_SYNC ∧ check (c37 0 8 0) = .good 18 ∧ s.identify 4095 8 = none ∧
       check (c37 0 7 0) = .good 18 ∧ s.identify 4095 7 = some 9 ∧ c37Type (c37 0 7 0) = 0 ∧
       ((List.range (s.dir 9 TF.ING.Directory.NUM_BLOCKS)).filter fun j => s.chainOk 9 j) = [0] ∧ s.pendingBlocks + 1 ≤ 32768) := by
  refine ⟨⟨?_, ?_, ?_, fun l => ?_⟩, ?_, ?_⟩
  · decide +kernel
  · decide +kernel
  · decide +kernel
  · have : (streams (heard (bcast 0x0806) sv)).paired = false := by decide +kernel
    simp [State.isHeartbeat, this]
  · decide +kernel
  · decide +kernel

theorem wit_AcknowledgementsAndReleases :
    (let s := sv.setTf TF.ING.Connection.OPEN 2047 1
     let s := { s with ing := { s.ing with conns := [(2047, { s.conn 2047 with unacked := 1, since := 5 })] } }
     s.tflag TF.ING.Connection.OPEN 2047 = true ∧ (s.conn 2047).unacked ≠ 0 ∧ 240000 ≤ s.now + 240005 - (s.conn 2047).since ∧
       s.now + 240004 - (s.conn 2047).since < 240000) ∧
    WriteOpen (sv.setReg R.ING_PASS_WRITE 3) .host R.ING_PASS_RELEASE ∧
    (let s := sv.setReg R.ING_PASS_WRITE 3
     (3 : Word) - s.reg R.ING_PASS_RELEASE ≤ s.reg R.ING_PASS_WRITE - s.reg R.ING_PASS_RELEASE ∧
     s.reg R.ING_PASS_WRITE - s.reg R.ING_PASS_RELEASE < (4 : Word) - s.reg R.ING_PASS_RELEASE) :=
  ⟨by decide +kernel, writeOpen_of (by decide +kernel), by decide +kernel⟩

/-- Block 0 fails without ENABLE, and passes with it where its Grove runs. -/
theorem wit_FrameAcceptance :
    (let s := pend1 true (c37 0 7 0) [0] (streams (parses sv))
     let f : PendFrame := ⟨0, 5, 0, 4095, 9, false, true, c37 0 7 0, [0]⟩
     let on := (s.setTf TF.ING.Directory.ENABLE 9 1).setGrove 0 { s.grove 0 with run := .running }
     s.ing.pend = [f] ∧ (s.elapse 0).accepts = true ∧ f.blocks.Nodup ∧ (∀ i ∈ f.blocks, f.entry + i < 16384) ∧
       (s.blockCheck f (s.rawBlock 9 false (c37 0 7 0) 0)).1 = some 2 ∧ (on.blockCheck f (on.rawBlock 9 false (c37 0 7 0) 0)).1 = none) ∧
    ((pend1 false (c37 2 7 0) [] (streams (parses sv))).elapse 0).accepts = true ∧
    ((pend1 false (c37 2 7 0) [] sv).elapse 0).accepts = false := by decide +kernel

/-- Key 4095 selected, and a queue past the table's end. -/
def tblAt (w : Nat) : State := (inMode .commission).setReg R.RBT_TBL_ADDR (BitVec.ofNat 32 w)

theorem wit_TableCommands : tblAddrOff 2 = R.RBT_TBL_ADDR ∧ tblAddrOff 2 ≠ 0 ∧
    WriteOpen (tblAt 4095) .host (tblAddrOff 2 + 4) ∧ (findTable (2 * 16 + 0)).isSome ∧ (tblAt 256).barOf .host false R.RBT_TBL_CMD = none ∧
    WriteOpen (tblAt (T.RBT.Key % 16 * 536870912 + 4095)) .host R.RBT_TBL_CMD ∧
    ((tblAt (T.RBT.Key % 16 * 536870912 + 4095)).reg R.RBT_TBL_ADDR).toNat / 536870912 + 32 = T.RBT.Key ∧
    ((tblAt (T.RBT.Key % 16 * 536870912 + 4095)).reg R.RBT_TBL_ADDR).toNat % 262144 = 4095 ∧
    (∃ d, findTable (2 * 16 + 0) = some d ∧ d.count ≤ 4095 ∧ 255 < d.count) :=
  ⟨rfl, by decide, writeOpen_of (by decide +kernel), by decide +kernel, by decide +kernel, writeOpen_of (by decide +kernel), by decide +kernel,
    by decide +kernel, _, rfl, by decide +kernel, by decide +kernel⟩
/-! ## Witnesses: time -/

/-- The service state with the timebase running at a Grid Time. -/
def timed (grid : Nat) (f : Tim → Tim) : State :=
  let s := sv.setFld F.TIM_CTRL.RUN 1
  { s with tim := f { s.tim with running := true, grid := grid } }
/-- A Pdelay_Req of domain 0 and version 2. -/
def pdreq : List Byte := List.replicate 6 0xFF ++ [2, 0, 0, 0, 0, 1, 0x88, 0xF7, 2, 2, 0, 54] ++ List.replicate 50 0

theorem wit_PtpExchange :
    (let s := timed 0 fun t => { t with ptpQ := [⟨5, 0, pdreq⟩] }
     s.timRuns = true ∧ s.tim.ptpQ = [⟨5, 0, pdreq⟩] ∧ bitOf (s.fld F.TIM_CTRL.PTP_PORTS) 5 = false) ∧
    (let s := ((timed 0 id).setFld F.TIM_CTRL.PTP_PORTS 0x20).setFld F.TIM_PTP.DOMAIN 0
     let m := pdreq.drop (etherOff pdreq)
     etherType pdreq = 0x88F7 ∧ bitOf (s.fld F.TIM_CTRL.PTP_PORTS) 5 = true ∧ 54 ≤ m.length ∧ beAt m 0 1 = 2 ∧ beAt m 1 1 % 16 = 2 ∧
       beAt m 4 1 = s.fld F.TIM_PTP.DOMAIN ∧ 54 ≤ beAt m 2 2 ∧ beAt m 2 2 ≤ m.length ∧ s.timRuns = true ∧ (s.ptpPort 5).reqAt = none) ∧
    (let s := timed 0 fun t => { t with ptp := [(0, { ptpIdle with sync := some ⟨1, 2, 3, 0, 0⟩, reqAt := some 0 })] }
     (s.ptpPort 0).sync = some ⟨1, 2, 3, 0, 0⟩ ∧ (s.ptpPort 0).reqAt = some 0 ∧ 1200000000 ≤ s.now + 1200000000 - 0) ∧
    (let f : Foreign := ⟨5, 9, 128, 6, 0x21, 0, 128, 9, 0, 0, 37, 0, none⟩
     let s := timed 0 fun t => { t with foreign := [f], best := some (5, 9) }
     s.tim.best = some (5, 9) ∧ s.tim.foreign = [f] ∧ f.port = 5 ∧ f.id = 9 ∧ 3600000000 < s.now + 3600000001 - f.clk) := by decide +kernel

/-- 2000-01-01 00:00:00 in IRIG-B without control functions, and the same with a day 0. -/
def irig1 : List IrigSym := (List.range 100).map fun i => if i = 0 ∨ i % 10 = 9 then .mark else if i = 30 then .one else .zero
def irig0 : List IrigSym := (List.range 100).map fun i => if i = 0 ∨ i % 10 = 9 then .mark else .zero

theorem wit_TimeSources :
    (let s := timed 0x60000000 id
     let stamp := stampLess (s.elapse 0).grid80 (signedOf 32 (s.fld F.TIM_DELAY_PPS_IN.NS))
     s.timRuns = true ∧ s.tim.ppsHeld = none ∧ 1073741824 < gridDist stamp (nearSecond stamp * 4294967296)) ∧
    (let s := (((timed 0x40000000 id).setFld F.TIM_CTRL.XCHK_SRC 3).setFld F.TIM_CTRL.SRC 1).setFld F.TIM_CTRL.XCHK_POLICY 2
     let stamp := stampLess (s.elapse 0).grid80 (signedOf 32 (s.fld F.TIM_DELAY_PPS_IN.NS))
     gridDist stamp (nearSecond stamp * 4294967296) = 1073741824 ∧ s.fld F.TIM_CTRL.XCHK_SRC = 3 ∧ s.fld F.TIM_CTRL.SRC ≤ 1 ∧
       s.fld F.TIM_CTRL.XCHK_POLICY ≠ 0) ∧
    (let s := ((timed 0 fun t => { t with irig := some (100, 0) }).setFld F.TIM_CTRL.SRC 2).setFld F.TIM_STATUS.STATE 2
     let e := s.elapse 0
     let stamp := stampLess e.grid80 (signedOf 32 (s.fld F.TIM_DELAY_PPS_IN.NS))
     gridDist stamp (nearSecond stamp * 4294967296) ≤ 1073741824 ∧ s.fld F.TIM_CTRL.XCHK_SRC = 0 ∧ s.fld F.TIM_CTRL.SRC = 2 ∧
       e.ppsSecond stamp = some 100 ∧ s.servo ≠ 0 ∧ s.flag F.TIM_STATUS.STEP_ARMED = false ∧
       (s.fld F.TIM_JUMP_LIMIT.US : Int) * 16777216000 < ((gridDiff stamp (100 * 4294967296)).natAbs : Int)) ∧
    (let s := (timed 0 id).setFld F.TIM_CTRL.IRIG_MODE 2
     s.timRuns = true ∧ s.fld F.TIM_CTRL.IRIG_MODE ≠ 0 ∧ s.tim.ppsHeld = none ∧ irigGood irig1 (s.fld F.TIM_CTRL.IRIG_MODE != 2) = true ∧
       irigGood irig0 (s.fld F.TIM_CTRL.IRIG_MODE != 2) = false) ∧
    (let s := (timed 0 id).setFld F.TIM_STATUS.STATE 1
     s.timRuns = true ∧ s.servo = 1 ∧ s.fld F.TIM_SRC_TIMEOUT.S * 1200000000 ≤ s.now + 306000000000 - s.tim.freshAt) ∧
    (sv.setFld F.TIM_STATUS.STEP_ARMED 1).flag F.TIM_STATUS.STEP_ARMED = true := by decide +kernel

theorem wit_TimeMarks :
    (let s := (timed 9 id).setFld F.GLD_CTRL.RUN 1
     s.tim.running = true ∧ (s.elapse 0).ownJournal = true ∧ s.flag F.GLD_CTRL.RUN = true ∧ (s.elapse 0).gladeRuns = true ∧
       (s.elapse 0).markDue = true ∧ s.tim.marked = false) ∧
    (let s := (timed 9 fun t => { t with marked := true, mark := 2 ^ 63 / 2 }).setFld F.GLD_CTRL.RUN 1
     (s.elapse 1200000).markDue = true ∧ s.tim.marked = true ∧ gtAfter s.tim.mark (s.elapse 1200000).gt = true) ∧
    (let s := timed 9 id
     ¬ s.flag F.GLD_CTRL.RUN = true ∧ (s.reg R.TIM_TQ).toNat ≠ (s.elapse 0).tqWord ∧
       ((s.setReg R.TIM_TQ (BitVec.ofNat 32 (s.elapse 0).tqWord)).reg R.TIM_TQ).toNat = (s.elapse 0).tqWord) := by decide +kernel

theorem wit_LeapAndCalendar :
    (let s := (((timed (5 * 2 ^ 32) id).setReg R.TIM_LEAP_AT 5).setFld F.TIM_UTC_NOW.LEAP 1).setFld F.TIM_UTC_NOW.OFFSET 37
     s.tim.running = true ∧ s.tim.best = none ∧ s.irigLeapSource = false ∧ s.fld F.TIM_UTC_NOW.FROM ≠ 1 ∧ s.fld F.TIM_UTC_NOW.LEAP = 1 ∧
       (s.setFld F.TIM_UTC_NOW.LEAP 2).fld F.TIM_UTC_NOW.LEAP = 2 ∧ (s.elapse 0).taiSec = 5 ∧ (s.reg R.TIM_LEAP_AT).toNat = 5 ∧ s.utcOffset = 37) ∧
    (sv.tim.running = false ∧ sv.reg R.TIM_LEAP_AT = 0 ∧ sv.fld F.TIM_UTC_NOW.LEAP = 0 ∧
      (let s := (timed 0 id).setReg R.TIM_LEAP_AT 1
       (s.elapse 0).taiSec < (s.reg R.TIM_LEAP_AT).toNat ∧ (s.reg R.TIM_LEAP_AT).toNat < (s.elapse 0).taiSec + 2147483648)) ∧
    (let s := (timed 0 fun t => { t with calAt := some 0 }).setFld F.TIM_STATUS.STATE 2
     s.timRuns = true ∧ s.servo = 2 ∧ s.tim.calAt = some 0 ∧ 4320000000000 ≤ s.now + 4320000000000 - 0 ∧
       (s.elapse 4320000000000).inInserted = false ∧ s.now + 4319999999999 - 0 < 4320000000000) ∧
    (sv.timRuns = false ∧ (timed 0 id).servo ≠ 2) := by decide +kernel

theorem wit_PulsesAndCompares :
    (let s := (timed 0xFFFFFFFF id).setFld F.TIM_CTRL.PPS_OUT_EN 1
     s.timRuns = true ∧ s.flag F.TIM_CTRL.PPS_OUT_EN = true ∧ s.flag F.TIM_CTRL.PPS_SQUELCH = false ∧
       s.ppsOutSecond < (s.elapse 1200000).ppsOutSecond ∧ s.tim.pulsed ≤ (s.elapse 1200000).ppsOutSecond ∧
       s.ppsOutSecond = (s.elapse 0).ppsOutSecond) ∧
    (let s := timed 0 fun t => { t with ppsOn := some 0 }
     s.tim.ppsOn = some 0 ∧ s.fld F.TIM_PPS_OUT.WIDTH_MS * 1200000 ≤ s.now + 1200000000 - 0 ∧ sv.tim.ppsOn = none ∧
       ((s.setFld F.TIM_PPS_OUT.WIDTH_MS 1).now + 1199999 - 0 < (s.setFld F.TIM_PPS_OUT.WIDTH_MS 1).fld F.TIM_PPS_OUT.WIDTH_MS * 1200000)) ∧
    (let s := ((timed 5000 fun t => { t with cmpLate := [3] }).setFld (F.TIM_CMP_CTRL.ARM.at (16 * 15)) 1).setReg (R.TIM_CMP_LO + 16 * 15) 4999
     s.flag (F.TIM_CMP_CTRL.ARM.at (16 * 15)) = true ∧ s.tim.running = true ∧ 15 ∉ s.tim.cmpLate ∧ 3 ∈ s.tim.cmpLate ∧
       gtAtOrAfter (s.elapse 0).gt ((s.reg (R.TIM_CMP_LO + 16 * 15)).toNat + (s.reg (R.TIM_CMP_HI + 16 * 15)).toNat * 4294967296) = true ∧
       gtAfter (s.elapse 0).gt (gtAdd 4999 4295) = false ∧ gtAfter (s.elapse 0).gt (gtAdd 704 4295) = true ∧
       gtAtOrAfter (s.elapse 0).gt 5001 = false) := by decide +kernel


/-! ## Witnesses: engines -/

/-- The service state with the engines started. -/
def engines : State :=
  [F.FLT_CTRL.RUN, F.OSC_CTRL.RUN, F.ISL_CTRL.RUN, F.CAP_CTRL.RUN, F.ACC_CTRL.RUN].foldl (fun s f => s.setFld f 1)
    ([F.FLT_STATUS.STOPPED, F.OSC_STATUS.STOPPED, F.ISL_STATUS.STOPPED, F.CAP_STATUS.STOPPED, F.ACC_STATUS.STOPPED].foldl
      (fun s f => s.setFld f 0) sv)
def out0 : FltOut := ⟨5, 0, 0, 0, 0, 0⟩
def pass0 (l : List FltOut) : FPass := ⟨77, 0, 0, 0, 0, 0, l⟩
def notice0 : Entry := 0

/-- The oldest release, of Grove 63, waits since its decision at 0; the one after it is final. -/
theorem wit_GladeReleases :
    (let p : Pend := ⟨63, 1, 77, 0, 0, 0, 0, some 0⟩
     let q : Pend := ⟨0, 0, 97, 1, 0, 0, 0, none⟩
     let s := { grove0 with gld := { grove0.gld with pend := [p, q] }, tim := { grove0.tim with running := true, grid := 85899 } }
     (s.elapse 0).gladeRuns = true ∧ s.gld.pend = [p, q] ∧ p.kind < 2 ∧ q.kind < 2 ∧
       gtAfter (s.elapse 0).gt (gtAdd (p.t0.getD (s.grove p.grove).lastT1) 85899) = false ∧
       gtAfter (({ s with tim := { s.tim with grid := 85900 } } : State).elapse 0).gt (gtAdd 0 85899) = true) ∧
    ((inMode .keep).elapse 0).gladeRuns = false ∧ sv.gld.pend = [] := by decide +kernel

theorem wit_FilterPasses :
    (let s := { engines with gld := { engines.gld with fltWait := [notice0] } }
     (s.elapse 0).fltRuns = true ∧ s.flt.cur = none ∧ s.gld.fltWait = [notice0] ∧ (sv.elapse 0).fltRuns = false ∧ sv.gld.fltWait = []) ∧
    (let r : FRun := ⟨pass0 [out0], 0, false, 0, 0, 0⟩
     let s := { engines with flt := { engines.flt with cur := some r } }
     (s.elapse 0).fltRuns = true ∧ s.flt.cur = some r ∧ r.pass.outs ≠ [] ∧ s.osc.wait.length < 64 ∧ 64 ≤ (List.replicate 64 (pass0 [])).length ∧
       s.groveChans 0 = [] ∧ ((engines.setTf TF.FLT.FilterChannel.ENABLE 5 1).groveChans 0) = [5]) := by decide +kernel

theorem wit_ModePasses :
    (let s := { engines with osc := { engines.osc with wait := [pass0 [out0]] } }
     (s.elapse 0).oscBegins = true ∧ s.osc.cur = none ∧ s.osc.wait = [pass0 [out0]] ∧ (sv.elapse 0).oscBegins = false ∧ sv.osc.wait = []) ∧
    (let r : OscRun := ⟨pass0 [out0], 0, [15], [7]⟩
     let s := ((engines.setTf TF.OSC.Tracker.ENABLE 15 1).setTf TF.OSC.BankSlot.ENABLE 7 1)
     let s := { s with osc := { s.osc with cur := some r } }
     (s.elapse 0).oscRuns = true ∧ s.osc.cur = some r ∧ r.trk = [15] ∧ r.slots = [7] ∧ s.tflag TF.OSC.Tracker.ENABLE 15 = true ∧
       s.tflag TF.OSC.BankSlot.ENABLE 7 = true ∧ (sv.elapse 0).oscRuns = false) ∧
    (let s := engines.setTf TF.OSC.BankSlot.MAX_ABSENT 7 0
     let s := { s with osc := { s.osc with slots := [(7, { s.slot 7 with win := [(0, 0, false)] })] } }
     s.tf TF.OSC.BankSlot.MAX_ABSENT 7 < ((s.slot 7).win.filter fun v => !v.2.2).length ∧
       ¬ (s.setTf TF.OSC.BankSlot.MAX_ABSENT 7 1).tf TF.OSC.BankSlot.MAX_ABSENT 7 < ((s.slot 7).win.filter fun v => !v.2.2).length) := by
  decide +kernel

theorem wit_Connectivity :
    (let s := { engines with gld := { engines.gld with islWait := [notice0] } }
     (s.elapse 0).islBegins = true ∧ s.isl.startDue = false ∧ s.isl.cur = none ∧ s.gld.islWait = [notice0] ∧ sv.gld.islWait = []) ∧
    (let r : IslRun := ⟨notice0, [], [], 0, 0⟩
     let s := { engines with isl := { engines.isl with cur := some r } }
     (s.elapse 0).islRuns = true ∧ s.isl.cur = some r) ∧
    (let s := { engines with isl := { engines.isl with startDue := true } }
     (s.elapse 0).islBegins = true ∧ s.isl.startDue = true ∧ s.isl.cur = none) ∧
    ((sv.elapse 0).islRuns = false ∧ (sv.elapse 0).islBegins = false) := by decide +kernel

/-! ## Witnesses: alarms, captures, accounting -/

def batch1 (s : State) : State := { s with alm := { s.alm with batches := [(3, ⟨1, [(511, 2)]⟩)] } }
def rec1 : AlmRec :=
  { addr := 0, aseq := 0, ttag := 0, setseq := 0, epoch := 0, grove := 0, rflags := 0, t0 := 0, t4 := 0, paused := 0, counts := [], frames := [] }
def point (p st : Nat) (s : State) : State := { s with alm := { s.alm with points := [(p, { s.point p with status := st })] } }
/-- The service state with the alarm block started. -/
def alarms : State := (sv.setFld F.ALM_STATUS.STOPPED 0).setFld F.ALM_CTRL.RUN 1

theorem wit_DecisionBatches : WriteOpen sv (.core 3) (R.ALM_DEC_CTX + 4 * 4) ∧ WriteOpen sv (.core 3) R.ALM_DEC_CTX ∧
    WriteOpen sv (.core 3) (R.ALM_DEC_CTX + 4) ∧ WriteOpen sv (.core 3) R.ALM_DECIDE ∧ (0x80000000 : Word).toNat / 1073741824 ≠ 3 :=
  ⟨writeOpen_of (by decide +kernel), writeOpen_of (by decide +kernel), writeOpen_of (by decide +kernel), writeOpen_of (by decide +kernel), by decide⟩

theorem wit_DecisionsTaken : WriteOpen sv (.core 3) R.ALM_DECIDE ∧ sv.almRuns = (alarms.almRuns == false) ∧ WriteOpen alarms (.core 3) R.ALM_DECIDE ∧
    (let s := batch1 { alarms with alm := { alarms.alm with lastSeq := [(1, 5)] } }
     let x := ((s.setBanked 3 R.ALM_DEC_CTX 0x40000000).setBanked 3 R.ALM_DEC_SEQ_LO 4).batchCtx 3
     s.almRuns = true ∧ x.grove * 4 + x.basis = 1 ∧ x.setseq < mget 0 s.alm.lastSeq 1) ∧
    (let s := ((batch1 alarms).setTf TF.ALM.Point.EN 511 1).setBanked 3 R.ALM_DEC_CTX 0x40000000
     let x := s.batchCtx 3
     mget 0 s.alm.lastSeq (x.grove * 4 + x.basis) ≤ x.setseq ∧ s.batch 3 = ⟨1, [(511, 2)]⟩ ∧ x.basis = 1 ∧
       s.tflag TF.ALM.Point.EN 511 = true ∧ s.tflag TF.ALM.Point.LATCH 511 = false ∧ (∀ x ∈ s.alm.points, x.2.mark = none) ∧
       (s.point 511).status = 0) ∧
    WriteOpen alarms (.core 19) R.ALM_ACK ∧ ((point 511 2 alarms).point 511).status % 4 = 2 ∧
    (((point 511 1 alarms).point 511).status % 2 = 1 ∧ ((point 511 1 alarms).point 511).status / 4 % 2 = 0) ∧
    ((point 511 5 alarms).point 511).status % 2 = 1 ∧ ((point 511 5 alarms).point 511).status / 4 % 2 = 1 ∧ (alarms.point 511).status % 4 = 0 :=
  ⟨writeOpen_of (by decide +kernel), by decide +kernel, writeOpen_of (by decide +kernel), by decide +kernel, by decide +kernel,
    writeOpen_of (by decide +kernel), by decide +kernel⟩

theorem wit_AlarmFrames :
    (let s := { alarms with alm := { alarms.alm with recs := [rec1] } }
     s.alm.recs = [rec1] ∧ s.almRuns = true ∧ s.t4Known rec1 = true ∧
       rec1.counts.count R.ALM_U_REC_NOTICES = 0 ∧ rec1.counts.count R.ALM_U_REC_NOTICE_REFUSED = 0 ∧
       ({ s with net := [(0, { s.port 0 with tx := [⟨0, [], .alarm 0 0⟩] })] }).t4Known rec1 = false) ∧
    (let r : AlmRepeat := { port := 5, bytes := bcast 1, left := 2, dueAt := 9 }
     let s := { alarms with alm := { alarms.alm with repeats := [r] } }
     (s.elapse 9).drive = .driven ∧ r.dueAt ≤ s.now + 9 ∧ s.now + 8 < r.dueAt ∧ ((inMode .shadow).elapse 0).drive ≠ .driven) ∧
    (let s := sys (fun x => { x with duty := true }) alarms
     s.sys.duty = true ∧ (s.elapse 0).drive = .driven ∧ s.flag F.ALM_CTRL.RUN = true ∧
       s.alm.keepAt + s.fld F.ALM_KEEPALIVE.MS * 1200000 ≤ s.now + 120000000000 ∧
       (s.setTf TF.ALM.Target.EN 15 1).enabledTargets = [15]) := by decide +kernel

/-- A publish stream with a frame at 0x2000 waiting in queue 0. -/
def publishing (frame : List Byte) : State :=
  let s := withEntries 0 [BitVec.ofNat 256 (0x2000 + 16 * 2 ^ 64)] (openQ 0 alarms)
  let s := (s.setTf TF.ALM.Publish.EN 31 1).setTf TF.ALM.Target.EN (s.tf TF.ALM.Publish.TARGET 31) 1
  { s with mem := (List.range 16).filterMap fun i => if frame.getD i 0 = 0 then none else some (0x2000 + i, frame.getD i 0),
           sys := { s.sys with duty := true } }
def pubHeader : List Byte := [0xAA, 0x31, 0, 16]
def pubData : List Byte := [0xAA, 0x01, 0, 16]

theorem wit_OutputsAndPublisher :
    (let s := alarms.setTf TF.ALM.Output.SOURCE 11 1
     let s := { s with alm := { s.alm with outs := [(11, ⟨true, 0, true⟩)] } }
     (s.elapse 0).drive = .driven ∧ s.almRuns = true ∧ s.sys.mode ≠ .test ∧ s.tf TF.ALM.Output.SOURCE 11 = 1 ∧ s.called 11 = false ∧
       (s.outCh 11).asserted = true ∧ sv.almRuns = false) ∧
    (let s := publishing pubHeader
     let r := (s.elapse 0).pop (s.tf TF.ALM.Publish.QUEUE 31) 39
     s.tflag TF.ALM.Publish.EN 31 = true ∧ s.flag F.ALM_CTRL.RUN = true ∧
     (r.2.2.map fun x => (x.marker, pubPtr x.data, pubLen x.data)) = some (false, 0x2000, 16) ∧ r.1.pubMode = true ∧
     r.1.pubFormatOk 31 16 (r.1.rdBytes 0x2000 16) = true ∧ bitsOf (beAt (r.1.rdBytes 0x2000 16) 1 1) 6 4 ≠ 0 ∧
     s.tflag TF.ALM.Publish.TRANSPORT 31 = false ∧ s.tflag TF.ALM.Target.EN (s.tf TF.ALM.Publish.TARGET 31) = true) ∧
    (let s := publishing [0xAA, 0x31]
     let r := (s.elapse 0).pop (s.tf TF.ALM.Publish.QUEUE 31) 39
     r.1.pubMode = true ∧ r.1.pubFormatOk 31 16 (r.1.rdBytes 0x2000 16) = false) ∧
    (let s := publishing pubData
     let s := { s with alm := { s.alm with pubs := [(31, { s.pub 31 with last := 1 })] }, sys := { s.sys with duty := false } }
     let r := (s.elapse 0).pop (s.tf TF.ALM.Publish.QUEUE 31) 39
     let l := r.1.rdBytes 0x2000 16
     r.1.pubMode = false ∧ ({ r.1 with sys := { s.sys with duty := true } } : State).pubFormatOk 31 16 l = true ∧ bitsOf (beAt l 1 1) 6 4 = 0 ∧
       ¬ (r.1.pub 31).last ≤ frameInstant l) ∧
    (let s := (publishing pubHeader).setQueue 0 { (publishing pubHeader).queue 0 with entries := [⟨0, true, true, true, true, 0⟩] }
     (((s.elapse 0).pop (s.tf TF.ALM.Publish.QUEUE 31) 39).2.2.map fun x => x.marker) = some true ∧
       ((alarms.elapse 0).pop (alarms.tf TF.ALM.Publish.QUEUE 31) 39).2.2 = none) := by decide +kernel

theorem wit_CaptureCommands :
    (let s := { engines with gld := { engines.gld with capWait := [notice0] } }
     (s.elapse 0).capRuns = true ∧ s.gld.capWait = [notice0] ∧ s.cap.trigs = [] ∧ s.tf TF.CAP.Sequencer.GROVE 15 = noticeGrove notice0 ∧
       (s.setTf TF.CAP.Sequencer.GROVE 15 1).tf TF.CAP.Sequencer.GROVE 15 ≠ noticeGrove notice0 ∧ (sv.elapse 0).capRuns = false) ∧
    WriteOpen sv .host R.CAP_TRIGGER ∧ (0x8000 : Word).toNat = 2 ^ 15 ∧
    (let s := sv.setTf TF.CAP.Sequencer.ENABLE 15 1
     let s := { s with cap := { s.cap with seqs := [(15, { s.capSeq 15 with phase := 1 })] } }
     s.gld.capWait = [] ∧ s.tflag TF.CAP.Sequencer.ENABLE 15 = true ∧ s.capSteps 15 = true ∧ ¬ sv.tflag TF.CAP.Sequencer.ENABLE 15 = true) ∧
    WriteOpen sv .host R.CAP_RELEASE_HI ∧ (sv.capReleased ≤ 0 ∧ 0 ≤ sv.capWritten ∧ sv.capWritten < 4294967296) :=
  ⟨by decide +kernel, writeOpen_of (by decide +kernel), by decide, by decide +kernel, writeOpen_of (by decide +kernel), by decide +kernel⟩

theorem wit_PulsesAndNotices :
    (let s := ({ engines with gld := { engines.gld with accWait := [notice0] } } : State).setTf TF.ACC.TieLine.EN 63 1
     (s.elapse 0).accRuns = true ∧ s.gld.accWait = [notice0] ∧ s.groveLines (noticeGrove notice0) = [63] ∧ s.tflag TF.ACC.TieLine.EN 63 = true ∧
       (sv.elapse 0).accRuns = false) ∧
    (let s := (sv.setTf TF.ACC.PulseOutput.EN 7 1).setAccOut 7 { sv.accOut 7 with backlog := 1, gapUntil := 5 }
     s.tflag TF.ACC.PulseOutput.EN 7 = true ∧ (s.elapse 5).drive = .driven ∧ (s.accOut 7).on = none ∧ (s.accOut 7).gapUntil ≤ s.now + 5 ∧
       ¬ (s.accOut 7).gapUntil ≤ s.now + 4 ∧ (s.accOut 7).backlog ≠ 0) ∧
    (let s := (sv.setTf TF.ACC.PulseOutput.WIDTH_MS 7 1).setAccOut 7 { sv.accOut 7 with on := some 0 }
     (s.accOut 7).on = some 0 ∧ (s.elapse 1200000).drive = .driven ∧ 0 + s.tf TF.ACC.PulseOutput.WIDTH_MS 7 * 1200000 ≤ s.now + 1200000 ∧
       ¬ 0 + s.tf TF.ACC.PulseOutput.WIDTH_MS 7 * 1200000 ≤ s.now + 1199999) ∧
    (let s := (sv.setTf TF.ACC.PulseInput.EN 15 1).setTf TF.ACC.PulseInput.MIN_MS 15 1
     s.tflag TF.ACC.PulseInput.EN 15 = true ∧ 10 * s.tf TF.ACC.PulseInput.MIN_MS 15 ≤ 10 ∧ ¬ 10 * s.tf TF.ACC.PulseInput.MIN_MS 15 ≤ 9) := by
  decide +kernel

theorem wit_Saves :
    (let s := timed (2 ^ 33) id
     s.tim.running = true ∧ 7 ≤ s.sys.bootStep ∧ s.sys.warnAt = none ∧ s.acc.savedSec ≠ (s.elapse 0).taiSec ∧ s.acc.saving = none) ∧
    sv.tim.running = false ∧ ({ sv.acc with saving := some (sv.accSnapshot 0, 1) } : Acc).saving = some (sv.accSnapshot 0, 1) := by decide +kernel


/-! ## Witnesses: Roundabout, queues, mailboxes, locks, interrupts -/

/-- A descriptor of class 1 without a key, preferred core 5, priority 15. -/
def desc5 : Entry := BitVec.ofNat 256 (0x1000 + 0x8000 * 2 ^ 128 + 5 * 2 ^ 144 + 1 * 2 ^ 152 + 15 * 2 ^ 160)
def class1 (s : State) : State := (s.setFld (F.RBT_CLASS.CORES.at 8) 0x3F).setFld (F.RBT_CREDIT.LIMIT.at 8) 4
def task5 : Task := taskOf desc5 0
/-- Core `c` waits, the others run. -/
def waits (c : Nat) (s : State) : State := s.setCore c { s.core c with run := .wait }
/-- A queue whose pointer copies differ. -/
def torn (n : Nat) (s : State) : State := s.setQueue n { s.queue n with headCopy := 1, tailCopy := 2, head := 0 }

theorem wit_TaskSources :
    (let s := class1 (withEntries 255 [desc5] (openQ 255 sv))
     s.nextTake (s.rbt.rr + 1) 256 = some 255 ∧ s.tf TF.RBT.Queue.MODE 255 = 1 ∧ (s.queue 255).intact = true ∧
       ((s.queue 255).entries.map fun x => (x.data, x.marker)) = [(desc5, false)] ∧ s.badDesc desc5 = false ∧ s.badDesc 1 = true) ∧
    sv.nextTake (sv.rbt.rr + 1) 256 = none ∧
    (let s := torn 255 (class1 (withEntries 255 [desc5] (openQ 255 sv)))
     s.nextTake (s.rbt.rr + 1) 256 = some 255 ∧ (s.queue 255).intact = false) ∧
    (let s := openQ 255 sv
     let s := s.setQueue 255 { s.queue 255 with entries := [s.marker 255 2 3] }
     s.nextTake (s.rbt.rr + 1) 256 = some 255 ∧ (s.marker 255 2 3).marker = true) ∧
    (let s := class1 ((openQ 1 sv).setTf TF.RBT.Queue.MODE 1 2)
     let s := (s.setQueue 1 { s.queue 1 with trigs := [4] }).setTword T.RBT.Template 1 4 0x01000000
     s.nextTake (s.rbt.rr + 1) 256 = some 1 ∧ s.tf TF.RBT.Queue.MODE 1 = 2) := by decide +kernel

theorem wit_TaskPlacing :
    sv.rbt.ready = [] ∧ (task5.nokey = true ∧ task5.prio ≤ 15 ∧ task5.cls ≤ 15) ∧
    (let s := class1 { sv with rbt := { sv.rbt with ready := [task5] } }
     s.rbt.ready = [task5] ∧ s.eligible task5 = [] ∧ task5.pref ∈ (waits 5 s).eligible task5) ∧
    (let s := waits 0 (class1 sv)
     s.eligible task5 = [0] ∧ task5.pref ≠ 0xFF ∧ bitOf (s.classCores task5.cls) task5.pref = true ∧ s.namedOut task5.pref = false ∧
       ¬ s.affWait task5 ≤ s.now - s.now ∧ (s.setTf TF.RBT.Key.AFF_WAIT 0 0).affWait task5 ≤ s.now - s.now ∧
       ({ task5 with pref := 0xFF } : Task).pref = 0xFF) := by decide +kernel

theorem wit_TaskCancels : WriteOpen sv .host R.RBT_CANCEL ∧ sv.rbt.ready = [] ∧
    (let k := { task5 with nokey := false, key := 4095, tag := 9 }
     (!k.nokey && decide (k.key = (0x0FFF0009 : Word).toNat / 65536 % 4096) && ((0x0FFF0009 : Word).getLsbD 31 ||
       decide (k.tag = (0x0FFF0009 : Word).toNat % 65536))) = true) := ⟨writeOpen_of (by decide +kernel), by decide +kernel⟩

/-- Entries of a partly popped packet. -/
theorem wit_QueueUpkeep : WriteOpen sv .host R.RBT_QCMD ∧
    (let x := (withEntries 255 [desc5] (openQ 255 sv)).queue 255
     x.resetting = false ∧ x.openPkt = false ∧ x.midPop = false ∧ x.level = 1 ∧ x.intact = true ∧
       ({ x with openPkt := true } : Queue).openPkt = true ∧ ({ x with resetting := true } : Queue).resetting = true) ∧
    (let x := { (withEntries 255 [desc5] (openQ 255 sv)).queue 255 with midPop := true }
     x.level - (headRest x.entries).length = 0) ∧ ((torn 255 sv).queue 255).intact = false :=
  ⟨writeOpen_of (by decide +kernel), by decide +kernel⟩

theorem wit_HostQueues : WriteOpen sv .host R.RBT_HQ_CMD ∧
    (let s := withEntries 255 [desc5] (openQ 255 sv)
     (s.queue 255).intact = true ∧ (s.queue 255).resetting = false ∧ (s.queue 255).openPkt = false ∧ (s.queue 255).flushWait = false ∧
       (s.queue 255).entries ≠ [] ∧ s.mayPush 255 24 = true ∧ (s.queue 255).level < s.qCap 255 ∧ s.mayPop 255 24 = true ∧
       sv.mayPush 255 24 = false ∧ sv.mayPop 255 24 = false ∧
       ((s.setQueue 255 { s.queue 255 with resetting := true }).queue 255).resetting = true) ∧
    (let s := openQ 255 sv
     (s.queue 255).entries = [] ∧ s.mayPop 255 24 = true ∧ (s.marker 255 2 3).marker = true) ∧
    (let s := withEntries 255 (List.replicate 16 desc5) (openQ 255 sv)
     s.qCap 255 ≤ (s.queue 255).level) := ⟨writeOpen_of (by decide +kernel), by decide +kernel⟩

theorem wit_Mailboxes : WriteOpen sv .host R.MBX_HOST_CMD ∧ WriteOpen sv (.core 19) (R.MBX_RX_POP + 0x40 * 20) ∧
    WriteOpen sv (.core 19) (R.MBX_RX_POP + 0x40 * 19) ∧
    ((20#5).toNat < 21 ∧ 21 ≤ (23#5).toNat ∧ (23#5).toNat < 24 ∧ 24 ≤ (31#5).toNat ∧ (sv.box 20).msgs.length < 16 ∧
      16 ≤ (List.replicate 16 (⟨0, 24, 0⟩ : Msg)).length ∧ boxReader 19 (Req.core 19).id = true ∧ boxReader 20 (Req.core 19).id = false ∧
      (sv.box 19).msgs = []) :=
  ⟨writeOpen_of (by decide +kernel), writeOpen_of (by decide +kernel), writeOpen_of (by decide +kernel), by decide +kernel⟩

theorem wit_Locks :
    ReadOpen sv (.core 3) (R.MBX_LOCK + 4 * 63) ∧ WriteOpen sv (.core 3) (R.MBX_LOCK + 4 * 63) ∧ WriteOpen rec16 (.core 16) R.MBX_LOCK_FORCE ∧
    (sv.readBarred (.core 3) (R.MBX_LOCK + 4 * 63) = false ∧ sv.lock 63 = 0 ∧ 0x4C4B003F / 65536 = 0x4C4B ∧
      (let s := { sv with rbt := { sv.rbt with locks := [(63, 4)] } }
       s.lock 63 = (Req.core 3).id + 1 ∧ s.lock 63 ≠ (Req.core 19).id + 1)) ∧
    (let s := sv.setCore 3 { sv.core 3 with status := 0x21 }
     ReadOpen s (.core 3) (R.MBX_LOCK + 4 * 63) ∧ s.readBarred (.core 3) (R.MBX_LOCK + 4 * 63) = true ∧ (s.core 3).run = .run) :=
  ⟨readOpen_of (by decide +kernel), writeOpen_of (by decide +kernel), writeOpen_of (by decide +kernel), by decide +kernel,
    readOpen_of (by decide +kernel), by decide +kernel, by decide +kernel⟩

theorem wit_Interrupts :
    ReadOpen sv (.core 19) (R.IC_CLAIM + 0x400 * 20) ∧ ReadOpen sv (.core 3) (R.IC_CLAIM + 0x400 * 3) ∧
    WriteOpen sv (.core 3) (R.IC_COMPLETE + 0x400 * 3) ∧ sv.readBarred (.core 3) (R.IC_CLAIM + 0x400 * 3) = false ∧
    (let k := 3 * 64 + 8
     let s := pend (core 3 runS)
     s.winner 3 = some k ∧ sv.winner 3 = none ∧ sv.srcLevel k = (sv.src k).input ∧
       (s.setSrc k { srcIdle with input := true }).srcLevel k ≠ ((s.setSrc k { srcIdle with input := true }).src k).input ∧
       s.srcSense k = 1 ∧
       ((sv.setSrc k { srcIdle with held := true }).src k).held = true ∧ ((sv.setSrc k { srcIdle with held := true }).elapse 0).modDue k = true ∧
       (let t := sv.setSrc k { srcIdle with active := true, activeOn := 3 }
        (t.src k).active = true ∧ (t.src k).activeOn = 3 ∧ srcOfClaim 3 (claimId k) = k)) :=
  ⟨readOpen_of (by decide +kernel), readOpen_of (by decide +kernel), writeOpen_of (by decide +kernel), by decide +kernel, by decide +kernel⟩

/-! ## Witnesses: the Pair -/

/-- A unit of a Pair in a mode with a STATE, link and both paths up. -/
def pair (m : Mode) (st : Nat) (f : Xng → Xng) : State :=
  let s := (((((inMode m).setFld F.XNG_CTRL.PAIR_EN 1).setFld F.XNG_STATUS.STOPPED 0).setFld F.XNG_STATUS.LINK 1).setFld F.XNG_STATUS.XPATH 1).setFld
    F.XNG_STATUS.DPATH 1
  let s := s.setFld F.XNG_STATUS.STATE st
  { s with xng := f s.xng }
/-- A heartbeat of a unit in M4. -/
def hb : List Byte := List.replicate 12 0 ++ [4, 1] ++ List.replicate 54 0
/-- A journal entry with a kind and an ESEQ. -/
def jentry (eseq kind : Nat) : List Byte := leBytes 8 eseq ++ leBytes 1 kind ++ List.replicate 27 0

theorem wit_CrossingLink :
    (let s := pair .shadow 5 fun x => { x with unacked := [(1, 2, hb)] }
     s.xngRuns = true ∧ s.flag F.XNG_STATUS.LINK = true ∧ s.takesEntries = true ∧ 32 ≤ (jentry 1 1).length ∧
       1 = s.xng.rxSeq + 1 ∧ 3 ≠ s.xng.rxSeq + 1 ∧ [(2, hb)] ≠ []) ∧
    (let s := pair .service 1 fun x => { x with msgs := [(2, hb)], hbIn := [hb] }
     s.now + 1199999 - s.xng.hbAt < 1200000 ∧ 1200000 ≤ s.now + 1200000 - s.xng.hbAt ∧ s.xng.msgs = [(2, hb)] ∧ (readHb hb).isSome ∧
       readHb [1] = none ∧ s.xng.hbIn = [hb]) ∧
    (let s := pair .service 1 fun x => { x with hbX := some 0, hbD := some 3720000 }
     s.xng.hbX = some 0 ∧ s.xng.hbD = some 3720000 ∧ 3720000 ≤ s.now + 3720000 - 0 ∧ ¬ 3720000 ≤ s.now + 3720000 - 3720000 ∧
       ¬ 3720000 ≤ s.now + 3719999 - 0) ∧
    (let s := (pair .shadow 5 id).setReg R.XNG_STATUS (BitVec.ofNat 32 (putBits 0 F.XNG_STATUS.STATE.hi F.XNG_STATUS.STATE.lo 5))
     s.xngRuns = true ∧ s.sys.mode = .shadow ∧ s.sys.duty = false ∧ s.pairRow = 2 ∧ s.xngState = 5 ∧ s.sys.trans = none) ∧
    (let s := pair .shadow 8 fun x => { x with guardAt := some 5 }
     s.xng.guardAt = some 5 ∧ s.sys.mode = .shadow ∧ s.sys.trans = none) ∧
    (inMode .service).flag F.XNG_STATUS.LINK = false ∧ WriteOpen sv .host R.XNG_POST_CMD ∧
    (let l := leBytes 1 0 ++ leBytes 1 23 ++ leBytes 8 7
     let s := pair .service 1 fun x => { x with msgs := [(7, l), (7, [1, 0])] }
     s.xng.msgs = (7, l) :: [(7, [1, 0])] ∧ leAt l 0 1 = 0 ∧ leAt l 1 1 % 32 < 24 ∧ (s.box 23).msgs.length < 16 ∧ leAt [1, 0] 0 1 = 1) :=
  ⟨by decide +kernel, by decide +kernel, by decide +kernel, by decide +kernel, by decide +kernel, by decide +kernel,
    writeOpen_of (by decide +kernel), by decide +kernel⟩

theorem wit_JoinAndTakeover :
    (let s := pair .shadow 5 fun x => { x with rx := [jentry 1 1, jentry 2 3] }
     s.xng.rx = jentry 1 1 :: [jentry 2 3] ∧ (s.elapse 0).appliesEntries = true ∧ entryEseq (jentry 1 1) = s.xng.eseq + 1 ∧
       leAt (jentry 1 1) 8 1 = 1 ∧ leAt (jentry 2 3) 8 1 = 3 ∧ entryEseq (jentry 2 3) ≠ s.xng.eseq + 1) ∧
    (let s := pair .shadow 3 id
     s.xngRuns = true ∧ s.isShadow = true ∧ s.xngState = 3 ∧ s.xng.joinAt = none ∧ s.xng.retryAt = none ∧
       s.flag F.XNG_STATUS.XPATH = true ∧ s.joinAgrees = false) ∧
    (let s := sys (fun x => { x with duty := true }) (pair .service 1 fun x => { x with msgs := [(3, [0])] })
     s.isShadow = false ∧ s.sys.duty = true ∧ s.xng.msgs = (3, [0]) :: []) ∧
    (let s := pair .shadow 4 fun x => { x with lagOkAt := some 3, joinAt := some 0 }
     s.isShadow = true ∧ s.xng.lagOkAt = some 3 ∧ s.xngState = 4 ∧ s.xng.joinAt = some 0) ∧
    (let s := pair .shadow 7 fun x => { x with retryAt := some 0, divs := [1, 1, 1] }
     s.xng.retryAt = some 0 ∧ 0 ≤ s.now + 5 ∧ s.xngState = 7 ∧ 3 ≤ (s.elapse 5).recentDivs ∧
       ({ s with xng := { s.xng with divs := [1, 1] } } : State).recentDivs < 3) ∧
    (let l := leBytes 1 0 ++ leBytes 4 0 ++ leBytes 8 0 ++ leBytes 8 0 ++ leBytes 16 9
     let s := pair .shadow 5 fun x => { x with msgs := [(4, l)], own := [⟨0, 0, 0, 9, 0⟩] }
     s.xng.msgs = (4, l) :: [] ∧ s.inLockstep = true ∧ findDigest (leAt l 0 1) (leAt l 1 4) (leAt l 5 8) s.xng.own = some ⟨0, 0, 0, 9, 0⟩ ∧
       (9 : BitVec 128) = BitVec.ofNat 128 (leAt l 21 16) ∧ (8 : BitVec 128) ≠ BitVec.ofNat 128 (leAt l 21 16) ∧
       s.xng.own = [⟨0, 0, 0, 9, 0⟩] ∧ s.xng.peer = []) ∧
    (pair .shadow 5 fun x => { x with msgs := [(1, leBytes 1 0 ++ leBytes 1 3 ++ leBytes 8 4)] }).xng.msgs =
      (1, leBytes 1 0 ++ leBytes 1 3 ++ leBytes 8 4) :: [] ∧
    (let s := pair .takeover 6 id
     s.sys.mode = .takeover ∧ s.xng.tsDone = false ∧ s.xng.rx = [] ∧ s.xng.toDone = false ∧ s.allPastTg = true ∧ s.sys.trans = none ∧
       (pair .takeover 6 fun x => { x with tsDone := true }).xng.tsDone = true) ∧
    (let s := ((pair .shadow 5 id).setFld F.XNG_CTRL.REVERT_EN 1).setFld F.XNG_CTRL.HOME 1
     s.xngRuns = true ∧ s.isShadow = true ∧ s.xngState = 5 ∧ s.flag F.XNG_CTRL.REVERT_EN = true ∧ s.flag F.XNG_CTRL.HOME = true ∧
       s.xng.handover = none ∧ s.flag F.XNG_STATUS.LINK = true) ∧
    (let s := sys (fun x => { x with duty := true }) (pair .service 9 fun x => { x with handover := some (50, .shadow) })
     let s := { s with tim := { s.tim with marked := true, mark := 50 } }
     s.xng.handover = some (50, .shadow) ∧ s.sys.duty = true ∧ s.tim.marked = true ∧ gtAtOrAfter s.tim.mark 50 = true ∧
       gtAtOrAfter s.tim.mark 51 = false) := by
  refine ⟨?_, ?_, ?_, ?_, ?_, ?_, ?_, ?_, ?_, ?_⟩ <;> decide +kernel
/-! ## Witnesses: security -/

/-- The Keeper's request. -/
def kreq (cmd : Nat) (input : List Byte) (out : Nat) : KReq :=
  { cmd := cmd, replyBit := 0, rsv := false, block := 0x2000, input := input, outAddr := 0x3000, outLen := out, inLen := input.length, req := 16 }
/-- A slot that holds a key, its shares the key and zeros. -/
def slotOf (key : List Byte) (kind : Nat) : KeyShares :=
  { mask := key, other := List.replicate key.length 0, place1 := 0, place2 := 1, kind := kind, origin := 1, visited := 0 }
def holding (l : List (Nat × KeyShares)) (s : State) : State := l.foldl (fun s x => s.setKeySlot x.1 (some x.2)) s
def asking (m : Mode) (r : KReq) : State := { inMode m with sec := { State.reset.sec with req := some r } }

/-- The base point of P-256 as a public key: its private scalar is 1. -/
def keyG : List Byte := beBytes 32 p256G.1 ++ beBytes 32 p256G.2
/-- A signed block (R539) of a slot with a COUNTER: its signature is its digest z twice over. With r = s = z the two factors of a
verification are 1, so the key whose point, added to the base point, has the X coordinate z verifies it. -/
def block1 (cmd slot counter : Nat) (params : List Byte) : List Byte :=
  let body := [0x53, 0x43, 0x4D, 0x44] ++ leBytes 2 cmd ++ leBytes 1 slot ++ [0] ++ leBytes 4 params.length ++ leBytes 4 0 ++ leBytes 16 0 ++
    leBytes 8 counter ++ List.replicate 24 0 ++ params
  body ++ sha256 body ++ sha256 body
/-- A state in which a block of a slot is asked for, the slot holding the key with the point given. -/
def signed (m : Mode) (cmd slot counter : Nat) (params : List Byte) (x y : Nat) (out : Nat := 0) : State :=
  holding [(slot, slotOf (beBytes 32 x ++ beBytes 32 y) 0)] (asking m (kreq cmd (block1 cmd slot counter params) out))
/-- The block of a state passes as a command of its slots, with the parameters given. -/
def passesB (s : State) (cmd out : Nat) (slots : List Nat) (params : List Byte) : Bool :=
  match s.sec.req with
  | none => false
  | some r =>
    decide (r.cmd = cmd) && !s.flag F.SEC_STATUS.ERROR && s.kcMode cmd && !r.rsv && decide (out ≤ r.outLen) &&
      match s.checkSigned r.input cmd slots with
      | (_, .good b) => decide (b.params = params)
      | _ => false

def ask_identity : State := signed .provision 0x10 1 3 []
  0x97EA7834E807762A0239B36131A46B35BDE748D0437917A796453D6EBDB6BDF5
  0x93C5758F3599B8BDC845F3A211ABBC0627983FBA91244100EBE04229F1C017EF 128
def ask_owner : State := signed .provision 0x11 1 2 keyG
  0x1274DF749F8AB9489A83490B665448DE07B665CF5B11B2CF03F8377938B5FBAC
  0xD8826263E90A329177DA619D04A059F616E9984BFBAFCF40E938785A7739653B
def ask_provision : State := signed .provision 0x12 2 1 []
  0x16EDB8DD22C33951EB0E98F6F2F34D34EC6ADE6B2E64C86CB1993D2D569A74CB
  0x7ADDCA084772DF9FCB4055B6F54E3150CF2B75A3BDA769A3E5AC2A7432263258
def ask_load : State := signed .commission 0x20 2 1 ([7, 0, 0, 0] ++ keyG)
  0x79E461089BB7C8D64073B47837586E0EB9CE6D8591D8D8AE5C807D0A279FAFFC
  0xA3877412BE1D3CC8318F44F1A05C687239ABACCCC93C4EEA8E87E5FA41CE498D
def ask_erase : State := signed .test 0x22 2 1 (leBytes 4 63)
  0x29FB4D00DAD81CB5BAEFD17816EACEAB9E3EADA2B611E61FEBEDA087A4F7D925
  0xF9CD7D4E37D48318698B9F111829C65A015DE54B66E13F673E466101160FBE4E
def ask_floor : State := signed .commission 0x31 2 1 (leBytes 4 2 ++ leBytes 4 9)
  0xAB576A87A0AA9E292E25C5A67F614AB07C17E4C683CC89C705C89FCBABA9C372
  0xF9A984086E2B57658B69612BE4B830E83F17596D8EA1D525570E9BEFF9A2803E
def ask_config : State := signed .service 0x32 14 2 []
  0x1EF906C8011D86DC3ADC45F4C296E6F5BD6ABFD281137FA00F726BDEBF68FE51
  0x7234A418B3A5EF98DDA0ED6C458288D81BBCB2ADDDD7D5358B74D66CF0BD6F8F
def ask_policy : State := signed .commission 0x33 2 1 (leBytes 4 0x15 ++ leBytes 4 0xFFFF ++ leBytes 4 1000)
  0x5A3F859D579462D70D5FC4C95CDC363B6916CC90F5AF3107D54173F64E638F56
  0xCD1529DA2567AD3E574514E649DA2CF6C81F8597C6FF1E2AC26BD48645A7806A
def ask_auth : State := signed .shadow 0x40 7 1 [11, 24, 0, 0]
  0xAFC30A603EFFCD6B320D520010F41092232BDE0851B777411058A022490614E5
  0x0BED7B1E15E929300858A044517F49C5A1FA77FF88D60D6C13308652BC923991
def ask_step : State := signed .service 0x41 8 1 []
  0x15BDB73DAB04397EE16AB85EDE1B12E00776513453D64D8D463FC56688BD3659
  0xE25AA96C35336BC493DA134CAB346DDA97EAD37B2945BB624E1C400BC93CDE1B
def ask_ring : State := signed .service 0x42 9 3 (leBytes 8 0)
  0x9449A2597BD4DFEE834951838B9CB9308731089DE577E9D4BE3344ABAEBAD499
  0x0A09EFB5580A7AFC9DB4284F2BD3DF61F16AA4BA59E6C90E4C5A6B8BF09B293A
def ask_zeroize : State := signed .provision 0x43 2 1 []
  0x283A0407EB52377F06C5B9FD0551B3D977FAF33830F95E2C60859E96ADC56F3C
  0xD2A8E3C937BB2F556DADAB8258E218E1276C517731912CBD4EC6B6BB18CAC8EA

theorem wit_KeeperRequests :
    (let s := { sv with rbt := { sv.rbt with boxes := [(20, ⟨[⟨0x2000, 16, 0⟩, ⟨0x2001, 16, 0⟩], []⟩)] } }
     s.keeperUp = true ∧ s.sec.req = none ∧ (s.box 20).msgs = ⟨0x2000, 16, 0⟩ :: [⟨0x2001, 16, 0⟩] ∧ 0x2000 % 64 = 0 ∧
       outside 0x2000 64 = true ∧ 0x2001 % 64 ≠ 0 ∧ kcModes (s.readRequest 0x2000 16).cmd = none ∧
       kcModes (({ s with mem := [(0x2000, 1)] } : State).readRequest 0x2000 16).cmd ≠ none) ∧
    (let s := asking .service (kreq 1 [] 44)
     s.sec.req = some (kreq 1 [] 44) ∧ (s.setFld F.SEC_STATUS.ERROR 1).flag F.SEC_STATUS.ERROR = true ∧ s.kcMode 1 = true ∧ s.kcMode 0x10 = false ∧
       s.flag F.SEC_STATUS.ERROR = false) ∧
    (let s := asking .service (kreq 3 (List.replicate 32 0) 880)
     s.kcMode 3 = true ∧ s.slotKey 0 = none ∧ ((holding [(0, slotOf (beBytes 32 1) 3)] s).slotKey 0).isSome ∧ s.sys.mode ≠ .lockdown) ∧
    ((asking .service (kreq 4 [] 0)).kcMode 4 = true ∧ 8 ≤ leAt (leBytes 4 15 ++ List.replicate 32 7) 0 4 ∧
      (leBytes 4 15 ++ List.replicate 32 (7 : Byte)).length = 36) ∧
    (let s := asking .service (kreq 5 (leBytes 8 0) 0)
     s.kcMode 5 = true ∧ s.mram.rlNext ≤ 0 + 65536 ∧ 0 ≤ s.mram.rlNext ∧ s.mram.rlNext < leAt (leBytes 8 4000000000) 0 8) ∧
    ((asking .service (kreq 7 [] 0)).kcMode 7 = true ∧ leAt (leBytes 4 4294967295 ++ List.replicate 160 0) 0 4 = 4294967295 ∧
      (leBytes 4 4294967295 ++ List.replicate 160 (0 : Byte)).length = 164) ∧
    (let s := asking .service (kreq 0x24 (leBytes 4 (5 * 65536 + 16 * 256 + 1)) 0)
     sakTarget (leAt (leBytes 4 (5 * 65536 + 16 * 256 + 1)) 0 4) = some (5, 16, 1) ∧ (s.port 5).sas = [] ∧
       (let a : MacSa := ⟨true, 15, 1, 0, 1⟩
        a.rx = decide (16 ≠ 0) ∧ a.chan = 16 - 1 ∧ a.an = 1)) ∧
    (let s := asking .service (kreq 0x26 (leBytes 4 127) 0)
     s.kcMode 0x26 = true ∧ leAt (leBytes 4 127) 0 4 < 128 ∧ mget none s.ing.rsvKeys 127 = none ∧
       mget none ({ s.ing with rsvKeys := [(127, some ⟨0, 0, []⟩)] } : Ing).rsvKeys 127 ≠ none) ∧
    (let s := holding [(63, slotOf (beBytes 32 1) 3), (32, slotOf (List.replicate 32 1) 2)] (asking .service (kreq 0x27 [] 64))
     s.kcMode 0x27 = true ∧ s.kcMode 0x28 = true ∧ (s.serviceKey 63 3).isSome ∧ (s.serviceKey 32 2).isSome ∧ s.serviceKey 31 3 = none ∧
       s.serviceKey 64 2 = none) ∧
    ((asking .commission (kreq 0x30 [] 0)).kcMode 0x30 = true ∧ (asking .commission (kreq 0x30 [] 0)).imageOk 0 [] = false) := by
  refine ⟨?_, ?_, ?_, ?_, ?_, ?_, ?_, ?_, ?_, ?_⟩ <;> decide +kernel

/-- An image of one empty segment (R395), signed by the private scalar 1 with the secret 1. -/
def image0 : List Byte :=
  let body := [0x53, 0x41, 0x50, 0x52, 1, 0, 0, 1] ++ List.replicate 24 0 ++ sha256 keyG ++ leBytes 8 4096 ++ List.replicate 24 0 ++
    List.replicate 4000 0
  body ++ beBytes 32 p256G.1 ++
    beBytes 32 0x6E38EDEF32037860D72A6FBC74423B6FE4427D6A67B1D1E999E5CE7FDEC098BE
theorem wit_KeeperRequests_image : (holding [(3, slotOf keyG 0)] sv).imageOk 0 image0 = true := by decide +kernel

theorem wit_SignedCommands_identity : passesB ask_identity 0x10 128 (ask_identity.factorySlots ++ [2]) [] = true := by decide +kernel
theorem wit_SignedCommands_owner :
    passesB ask_owner 0x11 0 ask_owner.factorySlots keyG = true ∧ (ecPoint keyG).isSome := by decide +kernel
theorem wit_SignedCommands_provision :
    let s := holding [(0, slotOf (beBytes 32 1) 3), (15, slotOf (beBytes 32 2) 3)] ask_provision
    passesB s 0x12 0 [2] [] = true ∧ s.keySlot 0 ≠ none ∧ s.keySlot 15 ≠ none ∧ s.sys.trans = none := by decide +kernel
theorem wit_SignedCommands_load : let l := [7, 0, 0, 0] ++ keyG
    passesB ask_load 0x20 0 [2] l = true ∧ 4 ≤ l.length ∧ leAt l 2 2 = 0 ∧ slotTakes 7 0 = true ∧
      keyLenOk 0 (l.drop 4).length = true ∧ (ecPoint (l.drop 4)).isSome ∧ (inMode .provision).sys.mode ≠ .commission := by decide +kernel
theorem wit_SignedCommands_erase : let l := leBytes 4 63
    let s := ask_erase
    passesB s 0x22 0 [2] l = true ∧ l.length = 4 ∧ leAt l 0 4 < 64 ∧ (s.mram.key 63).occupied = false ∧
      ((s.mram.setKey 63 { keyEmpty with occupied := true }).key 63).occupied = true := by decide +kernel
theorem wit_SignedCommands_floor : let l := leBytes 4 2 ++ leBytes 4 9
    let s := ask_floor
    let s := { s with sec := { s.sec with booted := [(2, some ⟨false, 9, []⟩)] } }
    passesB s 0x31 0 [2] l = true ∧ leAt l 0 4 = 2 ∧ leAt l 4 4 ≤ s.imageSeq 2 ∧ mget 0 s.mram.floors 2 ≤ leAt l 4 4 := by decide +kernel
theorem wit_SignedCommands_config :
    (let s := ask_config
     passesB s 0x32 0 operatorSlots [] = true ∧ s.sys.mode = .service) ∧
    (asking .test (kreq 0x32 [] 0)).kcMode 0x32 = true := by decide +kernel
theorem wit_SignedCommands_policy : let l := leBytes 4 0x15 ++ leBytes 4 0xFFFF ++ leBytes 4 1000
    let g := leAt l 0 4
    passesB ask_policy 0x33 0 [2] l = true ∧ l.length = 12 ∧ g < 16384 ∧ leAt l 4 4 < 65536 ∧ leAt l 8 4 = 1000 ∧
      (∀ n < 7, bitsOf g (2 * n + 1) (2 * n) ≠ 3) ∧ ∀ n < 3, bitsOf g (2 * n + 1) (2 * n) ≠ 0 := by decide +kernel
theorem wit_SignedCommands_auth :
    passesB ask_auth 0x40 0 operatorSlots [11, 24, 0, 0] = true ∧ authParams [11, 24, 0, 0] = some (11, 24) := by
  decide +kernel
theorem wit_SignedCommands_step : passesB ask_step 0x41 0 operatorSlots [] = true := by decide +kernel
theorem wit_SignedCommands_ring : let s := ask_ring
    passesB s 0x42 0 operatorSlots (leBytes 8 0) = true ∧ leNat (leBytes 8 0) = (s.cnt R.UND_RL_HEAD).toNat ∧ s.und.clearing = none := by
  decide +kernel
theorem wit_SignedCommands_zeroize : let s := ask_zeroize
    passesB s 0x43 0 (2 :: operatorSlots) [] = true ∧ (s.cnt R.SEC_U_ZEROIZES).toNat < 18446744073709551615 ∧ s.mayReset = true := by decide +kernel
/-- A wrap (R550) under slot 31 with the ciphertext and tag given. -/
def kek1 : List Byte := List.replicate 32 5
def wrap1 (kind target keyId len c tag : Nat) : List Byte :=
  [31] ++ leBytes 1 kind ++ leBytes 2 len ++ leBytes 4 target ++ leBytes 8 1 ++ List.replicate 12 3 ++ leBytes 4 keyId ++ beBytes len c ++ beBytes 16 tag
def wrapped (cmd : Nat) (l : List Byte) : State := holding [(31, slotOf kek1 1)] (asking .service (kreq cmd l 0))
def opensB (s : State) (l : List Byte) (kind target : Nat) (key : List Byte) : Bool :=
  match s.unwrap l kind with
  | (_, .good w) => decide (w.target = target ∧ w.key = key ∧ w.kek = 31)
  | _ => false
theorem wit_SignedCommands_wraps :
    (let l := wrap1 0 0x13F 0 32 0x0FF88A4177A5D9FC23BD70C5A65F7F07822C063639EFFDC46849637C55428C6B 0xB24240D11E4574670DCF3FBD1AB3489E
     opensB (wrapped 0x21 l) l 0 0x13F (List.replicate 32 9) = true ∧ l.length = wrapLen l ∧ keyLenOk 3 32 = true ∧
       (wrapped 0x21 l).kcMode 0x21 = true ∧ (wrapped 0x21 l).flag F.SEC_STATUS.ERROR = false) ∧
    (let l := wrap1 1 0x51001 0 32 0x0FF88A4177A5D9FC23BD70C5A65F7F07822C063639EFFDC46849637C55428C6B 0x4030928A67DCC250B2A46356145D652F
     opensB (wrapped 0x23 l) l 1 0x51001 (List.replicate 32 9) = true ∧ l.length = wrapLen l ∧ sakTarget 0x51001 = some (5, 16, 1)) ∧
    (let l := wrap1 2 127 7 13 0x0FF88A4177A5D9FC23BD70C5A6 0xEC3E6A379854B61AE3F20DC61655F72B
     opensB (wrapped 0x25 (l ++ leBytes 4 4095)) (l ++ leBytes 4 4095) 2 127 (List.replicate 13 9) = true ∧ leAt (l ++ leBytes 4 4095) (wrapLen l) 4 = 4095) := by
  refine ⟨?_, ?_, ?_⟩ <;> decide +kernel
/-- A slot 63 that was visited at clk 0. -/
theorem wit_SecurityUpkeep :
    (let s := holding [(63, slotOf (beBytes 32 1) 3)] sv
     (s.elapse 0).nextVisit = some (63, slotOf (beBytes 32 1) 3) ∧ s.keeperUp = true ∧ s.now + 0 - 0 < s.fld F.SEC_REMASK.MS * 1200000 ∧
       s.fld F.SEC_REMASK.MS * 1200000 ≤ s.now + 1200000000 - 0 ∧ (slotOf (beBytes 32 1) 3).key.length ≤ 64 ∧
       (s.elapse 1200000000).nextVisit = some (63, slotOf (beBytes 32 1) 3)) ∧
    (let s := sv.setReg R.SEC_TAMPER_GRADE 0x2000
     s.tamperGrade 6 = 2 ∧ s.tamperGrade 5 = 0 ∧ s.sec.req = none ∧ s.sys.mode ≠ .keep ∧ s.sys.mode ≠ .dormant ∧
       s.sys.mode ≠ .lockdown ∧ s.sys.trans = none) ∧
    sv.und.clearing = none ∧ ({ sv.und with clearing := some [1] } : Und).clearing = some [1] := by decide +kernel

/-! ## Witnesses: Understory, performance, host -/

/-- The service state with a backup source. -/
def backup (src pref : Nat) : State := (sv.setFld F.UND_STATUS.SOURCE src).setFld F.UND_BACKUP_CTRL.BACKUP_PREF pref

theorem wit_BackupSupply :
    (let s := backup 0 1
     s.fld F.UND_STATUS.SOURCE = 0 ∧ s.flag F.UND_BACKUP_CTRL.BACKUP_PREF = true ∧
       2000 + 50 * s.fld F.UND_BACKUP_CTRL.BAT_FLOOR ≤ 5000 ∧ ¬ 2000 + 50 * s.fld F.UND_BACKUP_CTRL.BAT_FLOOR ≤ 1999 ∧
       2000 + 50 * s.fld F.UND_BACKUP_CTRL.CAP_FLOOR ≤ 5000 ∧ ¬ 2000 + 50 * s.fld F.UND_BACKUP_CTRL.CAP_FLOOR ≤ 1999 ∧
       s.und.pending.length < 248) ∧
    ((backup 0 0).flag F.UND_BACKUP_CTRL.BACKUP_PREF = false ∧ (backup 1 0).fld F.UND_STATUS.SOURCE = 1 ∧
      (backup 2 0).fld F.UND_STATUS.SOURCE = 2 ∧ sv.sys.powerGood = true ∧ 12000000000 ≤ sv.now + 12000000000 - sv.und.measuredAt) ∧
    WriteOpen sv .host R.UND_FIRST_BAT_CLR ∧ WriteOpen (inMode .commission) (.core 16) R.UND_FIRST_BAT_CLR ∧
    (sv.reqDet .host = false ∧ (inMode .commission).reqDet (.core 16) = false ∧ 0x46420000 / 65536 = 0x4642 ∧
      sv.sys.mode ≠ .provision ∧ sv.sys.mode ≠ .commission ∧ (inMode .commission).sys.mode = .commission) :=
  ⟨by decide +kernel, by decide +kernel, writeOpen_of (by decide +kernel), writeOpen_of (by decide +kernel), by decide +kernel⟩

/-- The last second of a year, and of the range. -/
def calAt (c : Cal) : State := { sv with und := { sv.und with cal := c } }

theorem wit_CalendarAndRingLog :
    (sv.now + 1199999999 - sv.und.secAt < 1200000000 ∧ 1200000000 ≤ sv.now + 1200000000 - sv.und.secAt ∧
      (⟨2024, 12, 31, 2, 23, 59, 59⟩ : Cal).ok = true ∧ (⟨2024, 12, 31, 2, 23, 59, 59⟩ : Cal).wraps = false) ∧
    (∃ c : Cal, c.wraps = true) ∧
    ReadOpen sv .host R.UND_RTC_SUBSEC ∧ WriteOpen sv .host R.UND_RTC_SET_SEC ∧ WriteOpen sv .host R.UND_RL_INDEX ∧
    WriteOpen sv .host R.UND_RL_APP_CMD ∧ WriteOpen sv (.core 0) R.UND_RL_APP_CMD ∧
    (let s := (sv.setBanked 24 R.UND_RTC_STG_DATE (BitVec.ofNat 32 (2024 * 65536 + 2 * 256 + 29))).setBanked 24 R.UND_RTC_STG_TIME 0x04173B00
     let d := (s.banked 24 R.UND_RTC_STG_DATE).toNat
     let h := (s.banked 24 R.UND_RTC_STG_TIME).toNat
     let n : Cal := { year := d / 65536 % 4096, month := d / 256 % 16, day := d % 32, wday := h / 16777216 % 8, hour := h / 65536 % 32,
                      min := h / 256 % 64, sec := 59 }
     n = ⟨2024, 2, 29, 4, 23, 59, 59⟩ ∧ n.ok = true ∧ { n with sec := 60 }.ok = false ∧ { n with day := 30 }.ok = false ∧
       s.reqDet .host = false ∧ s.und.pending.length < 248) ∧
    (let s := ((sv.setFld F.UND_RTC_ALARM.EN 1).setFld F.UND_RTC_ALARM.MATCH 1).setFld F.UND_RTC_ALARM.SEC 59
     s.alarmMatch ⟨2024, 2, 29, 4, 23, 59, 59⟩ = true ∧ s.alarmMatch s.und.cal = false ∧ s.reqDet (.core 0) = false ∧ s.reqS (.core 16) = true ∧ s.und.clearing = none) ∧
    (let s := sv.setReg R.UND_WAKE_PERIOD (BitVec.ofNat 32 (putBits (putBits 0 F.UND_WAKE_PERIOD.EXP.hi F.UND_WAKE_PERIOD.EXP.lo 0)
       F.UND_WAKE_PERIOD.EN.hi F.UND_WAKE_PERIOD.EN.lo 1))
     s.flag F.UND_WAKE_PERIOD.EN = true ∧ 1171875 * 2 ^ s.fld F.UND_WAKE_PERIOD.EXP ≤ s.now + 1171875 - s.und.wakeAt) ∧
    ((sv.ringLog 3 24 []).und.pending.length = 1 ∧ sv.und.pending = [] ∧ ({ sv.und with lost := 3 } : Und).lost ≠ 0) :=
  ⟨by decide +kernel, ⟨⟨2399, 12, 31, 0, 23, 59, 59⟩, by decide +kernel⟩, readOpen_of (by decide +kernel), writeOpen_of (by decide +kernel),
    writeOpen_of (by decide +kernel), writeOpen_of (by decide +kernel), writeOpen_of (by decide +kernel), by decide +kernel⟩

theorem wit_PerformanceControl : WriteOpen sv .host R.PRF_CTRL ∧ WriteOpen sv (.core 3) (countHi none 31) ∧
    WriteOpen sv (.core 19) (countHi (some 19) 7) ∧ (sv.frozen = false ∧ sv.held = none) ∧
    (∃ t, exec (.perfSnap .host) sv = .next t ∧ t.held.isSome) ∧ ((sv.setFld F.PRF_CTRL.FREEZE 1).freezeBit = 1 ∧
      (sv.setFld F.PRF_CTRL.FREEZE 0).freezeBit = 0 ∧ (sv.setFld F.PRF_STATUS.FROZEN 1).frozen = true) :=
  ⟨writeOpen_of (by decide +kernel), writeOpen_of (by decide +kernel), writeOpen_of (by decide +kernel), by decide +kernel, ⟨_, rfl, by decide +kernel⟩, by decide +kernel⟩

theorem wit_HostInterface : WriteOpen (inMode .dormant) .host R.HST_WAKE ∧ WriteOpen sv .host R.HST_WAKE ∧
    (sv.sys.mode ≠ .keep ∧ (inMode .dormant).sys.mode = .dormant ∧ 0x574B0000 / 65536 = 0x574B ∧ sv.flag F.HST_STATUS.LINK = false ∧
      R.HST_MSIX_TABLE < R.HST_MSIX_PBA + 8) ∧
    (∃ u, exec (.registerWrite .host R.MBX_HOST_VAL_LO 7) sv = .next u ∧ u.sys.mode ≠ .keep) :=
  ⟨writeOpen_of (by decide +kernel), writeOpen_of (by decide +kernel), by decide +kernel, _, rfl, by decide +kernel⟩

/-- A data port context of the host. -/
def dp0 (f : DpCtx → DpCtx) : State := { inMode .commission with hst := { State.reset.hst with ctx := [(0, f dpIdle)] } }

theorem wit_DataPort : reqCtx .host = some 0 ∧
    ReadOpen (dp0 id) .host (R.HST_DP_FIFO + 4 * 1023) ∧ ReadOpen (dp0 id) .host R.HST_DP_DATA ∧ Reached (dp0 id) .host R.HST_DP_DATA ∧
    Reached (dp0 id) .host R.HST_DP_BURST ∧ Reached (dp0 id) .host R.HST_DP_ERASE ∧
    (let s := dp0 fun x => { x with addr := 0x2000 }
     let x := s.dp 0
     x.error = 0 ∧ x.busy = false ∧ x.space1 = false ∧ dpMemory x.addr = true ∧ s.dpOpen 0 false false false = true ∧
       s.poisoned x.addr = false ∧ s.dpOpen 0 false false true = true ∧ x.erasing = none) ∧
    (dpMemory 0x20000 = true ∧ dpMemory 0x40000000 = false ∧ dpCtrl 0x40000000 = false) ∧
    (let x := (dp0 fun x => { x with busy := true, left := 1, ahead := [7] }).dp 0
     x.error = 0 ∧ x.busy = true ∧ x.dirWrite = false ∧ x.left ≠ 0 ∧ x.ahead = 7 :: []) ∧
    ((dp0 fun x => { x with error := 3 }).dp 0).error ≠ 0 ∧ ((dp0 fun x => { x with erasing := some 256 }).dp 0).erasing = some 256 ∧
    ((65537 : BitVec 17).toNat > 65536 ∧ (65536 : BitVec 17) ≠ 0 ∧ (65536 : BitVec 17).toNat % 4096 = 0) ∧
    (let s := dp0 fun x => { x with space1 := true, addr := 16384 }
     let x := s.dp 0
     x.space1 = true ∧ x.addr % 16384 = 0 ∧ s.dpOpen 0 true false true = true ∧
       ((dp0 fun x => { x with space1 := true, addr := 4 }).dp 0).addr % 16384 ≠ 0) ∧
    (let y := (dp0 fun x => { x with busy := true, irq := true }).dp 0
     y.busy = true ∧ y.left = 0 ∧ y.buf = [] ∧ y.page = none ∧ y.irq = true) ∧
    (let y := (dp0 fun x => { x with page := some 65536, buf := List.replicate 4096 0 }).dp 0
     y.page = some 65536 ∧ y.buf.length = 4096) :=
  ⟨rfl, readOpen_of (by decide +kernel), readOpen_of (by decide +kernel), reached_of (by decide +kernel), reached_of (by decide +kernel),
    reached_of (by decide +kernel), by decide +kernel⟩

theorem wit_MemoryInvariant : MemoryOk State.reset ∧ (∀ c ∈ (State.reset.withPending [.vld 0 1 2 3]).pending, wellFormed c = true) ∧
    ∃ t, step (State.reset.withPending [.vld 0 1 2 3]) = .next t :=
  ⟨by unfold MemoryOk; decide, by decide, _, rfl⟩

theorem wit_DecodeEncode : wellFormed (.ld64 3 5 6 2) = true ∧ encode (.ld64 3 5 6 2) ≠ 0 ∧ (decode 3 (encode (.ld64 3 5 6 2))).isSome ∧
    legalWord 3 (encode (.ld64 3 5 6 2)) = true := by decide
/-! ## Ill-formed commands -/

theorem test_ill_formed_register : wellFormed (.registerWrite .host 2 0) = false ∧ wellFormed (.rcRead .host 0x140000) = false ∧
    wellFormed (.badWidthAccess .host 4 4 false) = false ∧ wellFormed (.badWidthAccess .host 4 0 false) = false := by decide
theorem test_ill_formed_frames : wellFormed (.txSubmit 0 0 []) = false ∧ wellFormed (.irigFrame [] 0 0) = false := by decide
theorem test_ill_formed_tables : wellFormed (.tableRead .host 3) = false ∧ wellFormed (.tableWrite .host 31) = false ∧
    wellFormed (.decide 20 true 0) = false := by decide
theorem test_ill_formed_sapor : wellFormed (.vext 0 1 2 3 0) = false ∧ wellFormed (.cwr 0 1 9) = false ∧ wellFormed (.cww 0 1 9) = false ∧
    wellFormed (.modereq 15 1 2) = false ∧ wellFormed (.modereq 20 1 2) = false ∧
    wellFormed (.illegalInstruction 3 0b000001_00011_00001_00010_00000000001) = false := by decide
theorem test_ill_formed_requests : wellFormed (.taskAbort .host 1) = false ∧ wellFormed (.watchdogKick .host 1) = false ∧
    wellFormed (.hostMailboxPost 24 0) = false ∧ wellFormed (.perfCounterPreset .host (some 0) 8 0) = false ∧
    wellFormed (.hostRequest true 0 2 false [0]) = false ∧ wellFormed (.hostLinkUp 3 1) = false ∧ wellFormed (.hostLinkUp 4 5) = false ∧
    wellFormed (.scrub 0x1FFFFFFFF8 none) = false := by decide
theorem test_ill_formed_image : ∀ img : JoinImage, img.mem = [(0, 0)] → wellFormed (.joinImageLoaded img) = false := by
  intro img h
  simp only [wellFormed, wfImage, h]
  decide

/-! ## Words of the Sapor encoding (R402 to R431), written out from its tables -/

theorem test_decode_integer : decode 0 0b000001_11111_00001_00010_00000011010#32 = some (.mulhiu 0 31 1 2) := by decide
theorem test_decode_pchi : decode 0 0b001001_00011_11111_00_11111111111111#32 = some (.pchi 0 3 0x7FFFF) := by decide
theorem test_decode_branch : decode 0 0b010001_1_00111_11111111111111111111#32 = some (.bgez 0 7 0xFFFFF) := by decide
theorem test_decode_store : decode 0 0b011001_00101_00110_0010_100000000000#32 = some (.st32 0 5 6 0x800) := by decide
theorem test_decode_vector : decode 0 0b100000_00001_00010_00011_111_00001010#32 = some (.fdev 0 1 2 3 7) := by decide
theorem test_decode_move : decode 0 0b100001_00111_00110_00101_000_00001011#32 = some (.pandn 0 7 6 5) ∧
    decode 0 0b100001_01111_00110_00101_000_00001011#32 = none := by decide
theorem test_decode_reduce : decode 0 0b100010_00001_00010_00011_100_00000010#32 = some (.rrmin 0 1 2 3 4) := by decide
theorem test_decode_queue : decode 0 0b101000_00001_00010_11111111_00000_001#32 = some (.qpop 0 1 2 (.imm 255)) ∧
    decode 0 0b101000_00001_00010_11111111_00100_001#32 = none := by decide
theorem test_decode_wait : decode 0 0b101001_00001_00010_00000111_00000_010#32 = some (.waitevQ 0 1 2 7) := by decide
theorem test_decode_system : decode 0 0b110000_00000_00000_10_11111111111111#32 = some (.syscall 0 0x3FFF) ∧
    decode 16 0b110000_00001_00010_11_0001_0000000000#32 = some (.modereq 16 1 2) ∧
    legalWord 15 0b110000_00001_00010_11_0001_0000000000#32 = false := by decide

/-! ## Single steps, the results from the spec -/

/-- What a command leaves of a state. -/
def see {α : Type} (i : Instr) (s : State) (f : State → α) : Option α :=
  match exec i s with
  | .next t => some (f t)
  | _ => none

/-- A core with s2 = -7 and s3 = 2. -/
def kDiv (k : Core) : Core := ((runS k).setGs 2 (-7)).setGs 3 2
/-- R406: a quotient is rounded towards zero and the remainder has the dividend's sign; a quotient by zero is all ones (R407). -/
theorem test_quos : see (.quos 0 4 2 3) (core 0 kDiv) (fun t => (t.core 0).gs 4) = some (-3) := by decide
theorem test_mods : see (.mods 0 4 2 3) (core 0 kDiv) (fun t => (t.core 0).gs 4) = some (-1) := by decide
theorem test_shra : see (.shrai 0 2 2 1) (core 0 kDiv) (fun t => (t.core 0).gs 2) = some (-4) := by decide
theorem test_s0 : see (.add 0 0 2 3) (core 0 kDiv) (fun t => ((t.core 0).gs 0, (t.core 0).pc)) = some (0, 0x1004) := by decide
/-- R410: a branch goes to PC + 4 x off. -/
theorem test_bltz : see (.bltz 0 2 (-1)) (core 0 kDiv) (fun t => (t.core 0).pc) = some 0xFFC := by decide

/-- Core 3 at P with execution at 0x1000 and reading at 0x2000, both regions of 4,096 bytes. -/
def regions (k : Core) : Core :=
  { (kMem k) with status := 0, evec := 0x8000, region := [(0, 0x1304), (1, 0x2301)] }
/-- R370, R382: the region grants the read and not the write, whose exception has CODE 0x05. -/
theorem test_region_read : see (.ld64 3 5 6 0) (core 3 regions) (fun t => (t.core 3).pc) = some 0x1004 := by decide +kernel
theorem test_region_write : see (.st64 3 5 6 0) (core 3 regions) (fun t => ((t.core 3).pc, (t.core 3).epc, (t.core 3).eval)) =
    some (0x8000, 0x1000, 0x2000) := by decide +kernel
/-- R414: bytes are little-endian, and LD8S extends the sign. -/
theorem test_ld8s : see (.ld8s 3 5 6 1) { core 3 kMem with mem := [(0x2001, 0x80)] } (fun t => (t.core 3).gs 5) =
    some 0xFFFFFFFFFFFFFF80 := by decide +kernel
theorem test_st16 : see (.st16 3 5 6 0) (core 3 fun k => (kMem k).setGs 5 0x1234) (fun t => t.mem) =
    some [(0x2000, 0x34), (0x2001, 0x12)] := by decide +kernel
/-- R386: SYSCALL saves the address after it, the status and its code. -/
theorem test_syscall : see (.syscall 3 5) (core 3 fun k => { runS k with evec := 0x8000 }) (fun t => ((t.core 3).pc, (t.core 3).status.getLsbD 3)) =
    some (0x8000, true) := by decide +kernel

/-- R59: in M4 a request of M8 is refused, and one of M15 names no mode. -/
theorem test_mode_request : see (.modeRequest .host 0x4D52000F) sv (fun t => t.sys.trans) = some none := by decide +kernel
/-- R577: 28 February 2023 is followed by 1 March. -/
theorem test_calendar : see (.calendarTick 1200000000) (calAt ⟨2023, 2, 28, 2, 23, 59, 59⟩) (fun t => t.und.cal) =
    some ⟨2023, 3, 1, 3, 0, 0, 0⟩ := by decide +kernel
/-- R457, R458: a second read of a lock answers its owner. -/
theorem test_lock : see (.lockAcquire (.core 3) 7) { sv with rbt := { sv.rbt with locks := [(7, 6)] } } (fun t => t.out.head?) =
    some (some (.readData 3 0x80000005)) := by decide +kernel
/-- R82: the FCS of the nine digits is the check value of CRC-32. -/
theorem test_crc32 : crc32 [0x31, 0x32, 0x33, 0x34, 0x35, 0x36, 0x37, 0x38, 0x39] = 0xCBF43926 := by decide +kernel
/-- FIPS 180-4: the digest of "abc" begins ba7816bf. -/
theorem test_sha256 : (sha256 [0x61, 0x62, 0x63]).take 4 = [0xBA, 0x78, 0x16, 0xBF] := by decide +kernel

/-- R522: of one clk the lowest CODE is logged first; a fault of a later clk waits. -/
theorem test_fault_order : (firstFound ⟨9, 0, 1, 5, 0, 0⟩ [⟨3, 0, 2, 5, 0, 0⟩, ⟨1, 0, 0, 6, 0, 0⟩]).1.code = 3 := by decide
/-- R589: of one Understory clk a tamper record goes before a calendar record. -/
theorem test_ring_order :
    let r := fun type tick => ({ gridTime := 0, noGrid := false, cal := 0, calInvalid := false, epoch := 0, type := type, origin := 0,
                                 interrupted := false, data := [], tick := tick } : RingRec)
    (ringInsert (r 7 2) [r 4 1, r 4 2]).map (·.type) = [4, 7, 4] := by decide
/-- R646: in M0 an edge of PPS (code 4) is not sensed, and a tamper event (code 3) is. -/
theorem test_keep_wake :
    let s := fun code => ({ ({ State.reset with und := { State.reset.und with armed := true } }.setReg R.IC_WAKE_SLOT
      (w32 (2 ^ 31 + code * 2 ^ 24))) with sys := { State.reset.sys with mode := .keep } } : State)
    (((s 4).wakeEvent 4).slotFld 0 7 0, ((s 3).wakeEvent 3).slotFld 0 7 0) = (0, 1) := by decide +kernel

end Sys2Proof.Tests
end

section
/-!
SUPPORT. Numbers in memory byte by byte, poison after a store, and the exceptions that a data access does not raise.
-/

namespace Sys2Proof.Machine

open Sys2Proof.Safety

/-! ## Bytes of a number -/

theorem State.rdLe_succ (s : State) (a n : Nat) : s.rdLe a (n + 1) = (s.rdByte a).toNat + 256 * s.rdLe (a + 1) n := rfl

theorem State.rdLe_lt (s : State) (a n : Nat) : s.rdLe a n < 256 ^ n := by
  induction n generalizing a with
  | zero => exact Nat.one_pos
  | succ n ih =>
    have hb := (s.rdByte a).isLt
    have ht := ih (a + 1)
    rw [State.rdLe_succ, Nat.pow_succ]
    omega

/-- A little-endian number gives back each byte it is read from (R13). -/
theorem State.rdLe_byte (s : State) (a n j : Nat) (h : j < n) : s.rdLe a n / 256 ^ j % 256 = (s.rdByte (a + j)).toNat := by
  induction n generalizing a j with
  | zero => omega
  | succ n ih =>
    have hb := (s.rdByte a).isLt
    rw [State.rdLe_succ]
    cases j with
    | zero => simp; omega
    | succ j =>
      have hd : ((s.rdByte a).toNat + 256 * s.rdLe (a + 1) n) / 256 = s.rdLe (a + 1) n := by omega
      rw [Nat.pow_succ, Nat.mul_comm (256 ^ j), ← Nat.div_div_eq_div_mul,
        hd, ih (a + 1) j (by omega), show a + 1 + j = a + (j + 1) by omega]

theorem leBytes_getD (n v j : Nat) (d : Byte) (h : j < n) : (leBytes n v).getD j d = BitVec.ofNat 8 (v / 256 ^ j) := by
  induction n generalizing v j with
  | zero => omega
  | succ n ih =>
    cases j with
    | zero => simp [leBytes]
    | succ j =>
      rw [Nat.pow_succ, Nat.mul_comm, ← Nat.div_div_eq_div_mul, ← ih (v / 256) j (by omega)]
      rfl

theorem pow_256 (j : Nat) : 256 ^ j = 2 ^ (8 * j) := by rw [Nat.pow_mul]

/-- Byte `j` of the number read, as bits `8j + 7` to `8j` of the value loaded. -/
theorem State.rdLe_extract (s : State) (a n j : Nat) (h : j < n) :
    (BitVec.ofNat (8 * n) (s.rdLe a n)).extractLsb' (8 * j) 8 = s.rdByte (a + j) := by
  apply BitVec.eq_of_toNat_eq
  have hlt := s.rdLe_lt a n
  rw [pow_256] at hlt
  rw [BitVec.extractLsb'_toNat, BitVec.toNat_ofNat, Nat.mod_eq_of_lt hlt, Nat.shiftRight_eq_div_pow, ← pow_256]
  exact s.rdLe_byte a n j h

/-- Byte `j` of the low `n` bytes of a register. -/
theorem ofNat_low_byte (x : DWord) (n j : Nat) (h : j < n) :
    BitVec.ofNat 8 (x.toNat % 2 ^ (8 * n) / 256 ^ j) = x.extractLsb' (8 * j) 8 := by
  apply BitVec.eq_of_getLsbD_eq
  intro i hi
  rw [pow_256, ← Nat.shiftRight_eq_div_pow, BitVec.getLsbD_ofNat, Nat.testBit_shiftRight, Nat.testBit_mod_two_pow,
    BitVec.getLsbD_extractLsb']
  simp [show 8 * j + i < 8 * n by omega, BitVec.testBit_toNat]

/-- A byte of a little-endian store reads as that byte of the number. -/
theorem State.rdByte_wrLe (s : State) (a n v j : Nat) (h : j < n) :
    (s.wrLe a n v).rdByte (a + j) = BitVec.ofNat 8 (v / 256 ^ j) := by
  rw [State.wrLe, State.rdByte_wrBytes, leBytes_length, if_pos (by omega), Nat.add_sub_cancel_left, leBytes_getD _ _ _ _ h]

theorem signedOf_eq_toInt (n v : Nat) : signedOf n v = (BitVec.ofNat n v).toInt := by
  simp [signedOf, BitVec.toInt, Nat.mul_comm]

/-- The value a load puts in its register is the number of its bytes, sign- or zero-extended (R411). -/
theorem extendTo64_eq (n v : Nat) (sx : Bool) (h : v < 2 ^ (8 * n)) :
    extendTo64 n sx v = if sx then (BitVec.ofNat (8 * n) v).signExtend 64 else (BitVec.ofNat (8 * n) v).setWidth 64 := by
  cases sx with
  | true => simp [extendTo64, signedOf_eq_toInt, BitVec.signExtend]
  | false =>
    apply BitVec.eq_of_toNat_eq
    simp [extendTo64, w64, Nat.mod_eq_of_lt h]

/-! ## Poison -/

/-- Reading a sparse map with only some keys kept. -/
theorem mget_filter_key {α : Type} (d : α) (m : SMap α) (p : Nat → Bool) (k : Nat) :
    mget d (m.filter fun x => p x.1) k = if p k then mget d m k else d := by
  unfold mget
  induction m with
  | nil => simp [mapGet]
  | cons x t ih =>
    obtain ⟨a, v⟩ := x
    by_cases hp : p a <;> by_cases hk : k = a
    · subst hk; simp [hp, mapGet]
    · simp [hp, mapGet, hk, ih]
    · subst hk; simpa [hp] using ih
    · simp [hp, mapGet, hk, ih]

/-- A store clears the poison of the words it writes whole and of no other (R520). -/
theorem State.poisoned_unpoison (s : State) (a n x : Nat) :
    (s.unpoison a n).poisoned x = (!(decide (a ≤ 8 * (x / 8)) && decide (8 * (x / 8) + 8 ≤ a + n)) && s.poisoned x) := by
  unfold State.poisoned State.unpoison
  rw [mget_filter_key false s.err.poison fun k => !(decide (a ≤ 8 * k) && decide (8 * k + 8 ≤ a + n))]
  cases !(decide (a ≤ 8 * (x / 8)) && decide (8 * (x / 8) + 8 ≤ a + n)) <;> rfl

theorem State.poisoned_wrBytes (s : State) (a : Nat) (l : List Byte) (x : Nat) : (s.wrBytes a l).poisoned x =
    (!(decide (a ≤ 8 * (x / 8)) && decide (8 * (x / 8) + 8 ≤ a + l.length)) && s.poisoned x) :=
  State.poisoned_unpoison (s.putBytes a l) a l.length x

/-- A word with no poison has none after a store. -/
theorem State.poisoned_wrBytes_false (s : State) (a : Nat) (l : List Byte) (x : Nat) (h : s.poisoned x = false) :
    (s.wrBytes a l).poisoned x = false := by rw [State.poisoned_wrBytes, h, Bool.and_false]

theorem State.poisoned_poisonAt (s : State) (a x : Nat) :
    (s.poisonAt a).poisoned x = (decide (x / 8 = a / 8) || s.poisoned x) := by
  unfold State.poisoned State.poisonAt
  rw [mget_mset]
  by_cases h : x / 8 = a / 8 <;> simp [h]

/-- Poison depends on the error state alone. -/
theorem State.poisoned_congr {s t : State} (h : t.err = s.err) (a : Nat) : t.poisoned a = s.poisoned a := by
  unfold State.poisoned; rw [h]

theorem CountsOnly.err {s t : State} (h : CountsOnly s t) : t.err = s.err := by rw [h.fields]

theorem sampleDue_poisoned_false (s : State) (c pc : Nat) (insn : Word) (clk key flags cls a : Nat) (h : s.poisoned a = false) :
    (s.sampleDue c pc insn clk key flags cls).poisoned a = false := by
  refine sampleDue_arms s c pc insn clk key flags cls (fun t => t.poisoned a = false) ?_ fun lat => ?_
  · rw [State.poisoned_congr (s := s) (by simp), h]
  · rw [State.poisoned_congr ((State.bump_err _ _).trans (State.setFld_err _ _ _))]
    apply State.poisoned_wrBytes_false
    rw [State.poisoned_congr (s := s) (by simp [State.useFree]), h]

/-- The end of an instruction poisons nothing: the sampler's record only stores (R602). -/
theorem completed_poisoned_false (s : State) (k : Core) (c : CoreId) (clk : Nat) (word : Word) (cls a : Nat)
    (h : s.poisoned a = false) : (s.completed k c.val clk word cls).poisoned a = false := by
  have hu : (s.coreEvent c.val 0x02 k.pl cls).poisoned a = false := by
    rw [State.poisoned_congr (CountsOnly.coreEvent s c.val 0x02 k.pl cls c.isLt).err, h]
  unfold State.completed State.sampleIns
  dsimp only
  split
  · split
    · apply sampleDue_poisoned_false
      rw [State.poisoned_congr (s := s.coreEvent c.val 0x02 k.pl cls) (by simp [State.setCore]), hu]
    · rw [State.poisoned_congr (s := s.coreEvent c.val 0x02 k.pl cls) (by simp [State.setCore]), hu]
  · exact hu

/-! ## Checks of a data access -/

theorem isMemory_iff (a : Nat) : isMemory a = true ↔ a < 0x3000000 ∨ 0x1000000000 ≤ a ∧ a < 0x1400000000 := by
  simp only [isMemory, Bool.or_eq_true, Bool.and_eq_true, decide_eq_true_eq]
  rfl

theorem isControl_iff (a : Nat) : isControl a = true ↔ 0x80000000 ≤ a ∧ a < 0x80140000 := by
  simp only [isControl, Bool.and_eq_true, decide_eq_true_eq]
  rfl

theorem not_isControl_of_isMemory {a : Nat} (h : isMemory a = true) : isControl a = false := by
  rw [isMemory_iff] at h
  rw [Bool.eq_false_iff, Ne, isControl_iff]
  omega

theorem detForbids_of_not_isControl {a : Nat} (h : isControl a = false) : detForbids a = false := by simp [detForbids, h]

theorem mem_wordsOf {a n w : Nat} (h : w ∈ wordsOf a n) : w % 8 = 0 ∧ a < w + 8 ∧ w < a + n := by
  obtain ⟨i, hi, rfl⟩ := List.mem_map.mp h
  have hi := List.mem_range.mp hi
  omega

theorem wordsOf_within (a n : Nat) (hn : 0 < n) (h : a % 8 + n ≤ 8) : wordsOf a n = [a / 8 * 8] := by
  rw [wordsOf, show (a % 8 + n + 7) / 8 = 1 by omega]
  rfl

/-- Memory is made of whole 64-bit words: with a word, the address in it. -/
theorem isMemory_max {a w : Nat} (h : isMemory w = true) (h8 : w % 8 = 0) (hw : a < w + 8) : isMemory (max w a) = true := by
  rw [isMemory_iff] at *
  omega

/-- An aligned access to memory that the core may reach raises no exception (R386). -/
theorem State.dataFault_memory (s : State) (c : CoreId) (word : Word) (x : Reach) (a : Nat)
    (ha : a % x.align = 0) (h : Reaches s c x.perm a x.size) : s.dataFault c.val word x a = none := by
  have hreach : ∀ w ∈ wordsOf a x.size, _ := fun w hw =>
    have ⟨h8, hlo, hhi⟩ := mem_wordsOf hw
    h w h8 hlo hhi
  have hdet : (wordsOf a x.size).any (fun w => detForbids (max w a)) = false := by
    rw [List.any_eq_false]
    intro w hw
    obtain ⟨h8, hlo, -⟩ := mem_wordsOf hw
    obtain ⟨-, -, hm, -, -⟩ := hreach w hw
    simp [detForbids_of_not_isControl (not_isControl_of_isMemory (isMemory_max hm h8 hlo))]
  have hbarred : (wordsOf a x.size).find? ((s.core c.val).wordBarred x.perm) = none := by
    rw [List.find?_eq_none]
    intro w hw
    obtain ⟨h40, hp, -, -, -⟩ := hreach w hw
    simp only [Core.wordBarred, Bool.or_eq_true, Bool.and_eq_true, decide_eq_true_eq, Bool.not_eq_true']
    rintro (g | ⟨g, e⟩)
    · omega
    · rw [hp g] at e; cases e
  have hbus : (wordsOf a x.size).find? (busBarred c.val x.ctrl) = none := by
    rw [List.find?_eq_none]
    intro w hw
    obtain ⟨-, -, hm, hb, -⟩ := hreach w hw
    simp [busBarred, hm]
    omega
  have hpoison : x.perm = 0 → (wordsOf a x.size).find? s.poisoned = none := by
    intro hp
    rw [List.find?_eq_none]
    intro w hw
    obtain ⟨-, -, -, -, g⟩ := hreach w hw
    simp [g hp]
  unfold State.dataFault
  simp only [hdet, ha, hbarred, hbus, Bool.and_false, Bool.false_eq_true, if_false, bne_self_eq_false]
  split
  · next g =>
    simp only [Bool.and_eq_true, decide_eq_true_eq] at g
    rw [hpoison g.1]
    rfl
  · rfl

/-- An aligned 32-bit access to a control register raises no exception where the core may reach it and DET does not forbid it (R14,
R382, R399). -/
theorem State.dataFault_control (s : State) (c : Nat) (word : Word) (load : Bool) (a : Nat) (ha : a % 4 = 0)
    (hc : isControl a = true) (hp : (s.core c).pl = 0 → (s.core c).permits (a / 8 * 8) (if load then 0 else 1) = true)
    (hd : load = true → (s.core c).det = true → detForbids a = false) : s.dataFault c word (scalarReach 4 load) a = none := by
  have hr := (isControl_iff a).mp hc
  have hword : isControl (a / 8 * 8) = true := by rw [isControl_iff]; omega
  have hmax : max (a / 8 * 8) a = a := by omega
  have hdet : (load && (s.core c).det && detForbids a) = false := by
    cases hl : load <;> cases ht : (s.core c).det <;> simp_all
  have hbarred : (s.core c).wordBarred (if load then 0 else 1) (a / 8 * 8) = false := by
    simp only [Core.wordBarred, Bool.or_eq_false_iff, decide_eq_false_iff_not, Bool.and_eq_false_imp, decide_eq_true_eq]
    exact ⟨by omega, fun g => by rw [hp g]; rfl⟩
  have hbus : busBarred c true (a / 8 * 8) = false := by
    simp [busBarred, hword, show ¬ a / 8 * 8 < sramEnd by unfold sramEnd; omega]
  simp [State.dataFault, scalarReach, wordsOf_within a 4 (by omega) (by omega), hmax, hdet, ha, hbarred, hbus, hc]

/-- An access that raises no exception runs its body. -/
theorem State.checked_of_none {s : State} {c : Nat} {word : Word} {x : Reach} {a : Nat} (h : s.dataFault c word x a = none)
    (body : InsRes) : s.checked c word x a body = body := by simp [State.checked, h]

end Sys2Proof.Machine
end

section
/-!
Loads and stores of a core: memory (O6, O7) and control registers (O9).
-/

namespace Sys2Proof.Machine

open Sys2Proof.Safety

/-! ## Loads and stores from memory -/

/-- Every scalar load is `State.load` of 1, 2, 4 or 8 bytes. -/
theorem exec_of_loadOp {i : Instr} {c : CoreId} {rt rb : Rg} {o : BitVec 12} {n : Nat} {sx : Bool}
    (h : loadOp i = some (c, rt, rb, o, n, sx)) (s : State) : exec i s = s.load c i n sx rt rb o := by
  unfold loadOp at h
  split at h <;> cases h <;> rfl

/-- Every scalar store is `State.store` of 1, 2, 4 or 8 bytes. -/
theorem exec_of_storeOp {i : Instr} {c : CoreId} {rt rb : Rg} {o : BitVec 12} {n : Nat}
    (h : storeOp i = some (c, rt, rb, o, n)) (s : State) : exec i s = s.store c i n rt rb o := by
  unfold storeOp at h
  split at h <;> cases h <;> rfl

theorem storeOp_size_pos {i : Instr} {c : CoreId} {rt rb : Rg} {o : BitVec 12} {n : Nat}
    (h : storeOp i = some (c, rt, rb, o, n)) : 0 < n := by
  unfold storeOp at h
  split at h <;> cases h <;> decide

theorem loadOp_size_pos {i : Instr} {c : CoreId} {rt rb : Rg} {o : BitVec 12} {n : Nat} {sx : Bool}
    (h : loadOp i = some (c, rt, rb, o, n, sx)) : 0 < n := by
  unfold loadOp at h
  split at h <;> cases h <;> decide

theorem isMemory_of_reaches {s : State} {c : CoreId} {perm a n : Nat} (h : Reaches s c perm a n) (hn : 0 < n) :
    isMemory a = true := by
  obtain ⟨-, -, hm, -⟩ := h (a / 8 * 8) (by omega) (by omega) (by omega)
  rw [isMemory_iff] at *
  omega

/-- A load from memory that meets no fault sets its register and retires. -/
theorem State.load_memory {s : State} {c : CoreId} (i : Instr) {n : Nat} (sx : Bool) (rt : Rg) {rb : Rg} {o : BitVec 12}
    (h : Executes s c) (hn : 0 < n) (ha : (s.core c.val).effAddr rb o n % n = 0)
    (hr : Reaches s c 0 ((s.core c.val).effAddr rb o n) n) : ∃ t, s.load c i n sx rt rb o = .next t ∧
      Retires s t c { (s.core c.val).setGs rt (extendTo64 n sx (s.rdLe ((s.core c.val).effAddr rb o n) n)) with
        pc := (s.core c.val).pc + 4 } 0 0 := by
  have hf := s.dataFault_memory c (encode i) (scalarReach n true) _ ha hr
  have hc := not_isControl_of_isMemory (isMemory_of_reaches hr hn)
  refine ⟨_, rfl, ?_⟩
  rw [runIns_ok h (by rw [State.checked_of_none hf, hc]; rfl)]
  exact retires_setCore s c _ _ _ _ _ _

theorem State.core_wrBytes (s : State) (a : Nat) (l : List Byte) (d : Nat) : (s.wrBytes a l).core d = s.core d := rfl

/-- An instruction that stores bytes and changes no register: what stands afterwards. -/
theorem retires_wrBytes (s : State) (c : CoreId) (a : Nat) (l : List Byte) (pc : DWord) (k : Core) (clk : Nat) (word : Word)
    (cls : Nat) : let t := ((s.wrBytes a l).setPc c.val pc).completed k c.val clk word cls
    Retires s t c { s.core c.val with pc := pc } a l.length ∧
      ∀ x, ¬ InSample s c x → t.rdByte x = (s.wrBytes a l).rdByte x := by
  have q := completed_keeps ((s.wrBytes a l).setPc c.val pc) k c clk word cls
  have hcore : ((s.wrBytes a l).setPc c.val pc).core c.val = { s.core c.val with pc := pc } := by
    rw [State.setPc, State.core_setCore_same, State.core_wrBytes]
  rw [hcore] at q
  have hmem : ∀ x, ¬ InSample s c x →
      (((s.wrBytes a l).setPc c.val pc).completed k c.val clk word cls).rdByte x = (s.wrBytes a l).rdByte x :=
    fun x hx => q.memory x (by omega) hx
  refine ⟨⟨q.core, fun d hd => ?_, fun x hx hs => ?_, ?_⟩, hmem⟩
  · rw [q.others d hd]
    rw [State.setPc, State.core_setCore, if_neg hd, State.core_wrBytes]
  · rw [hmem x hs, State.rdByte_wrBytes, if_neg (by omega)]
  · exact ((Apart.wrBytes s a l).trans (Apart.setCore _ _ _)).trans q.apart

/-- A store to memory that meets no fault stores its bytes and retires. -/
theorem State.store_memory {s : State} {c : CoreId} (i : Instr) {n : Nat} (rt : Rg) {rb : Rg} {o : BitVec 12}
    (h : Executes s c) (hn : 0 < n) (ha : (s.core c.val).effAddr rb o n % n = 0)
    (hr : Reaches s c 1 ((s.core c.val).effAddr rb o n) n) : s.store c i n rt rb o = .next
      (((s.wrLe ((s.core c.val).effAddr rb o n) n (((s.core c.val).gs rt).toNat % 2 ^ (8 * n))).setPc c.val
        ((s.core c.val).pc + 4)).completed (s.core c.val) c.val (s.coreClk c.val) (encode i) 2) := by
  have hf := s.dataFault_memory c (encode i) (scalarReach n false) _ ha hr
  have hc := not_isControl_of_isMemory (isMemory_of_reaches hr hn)
  unfold State.store
  dsimp only
  rw [runIns_ok h (by rw [State.checked_of_none hf, hc]; rfl)]

/-- Settles O6: no check of the access raises an exception, so the body runs, and it only sets the target register. -/
theorem loadsFromMemory : Obligations.LoadsFromMemory := by
  unfold Obligations.LoadsFromMemory
  intro s i c rt rb o n sx hi hx k a ha hr
  have hlt : s.rdLe a n < 2 ^ (8 * n) := pow_256 n ▸ s.rdLe_lt a n
  obtain ⟨t, ht, hret⟩ := State.load_memory i sx rt hx (loadOp_size_pos hi) ha hr
  refine ⟨BitVec.ofNat (8 * n) (s.rdLe a n), fun j hj => s.rdLe_extract a n j hj, t, ?_, ?_⟩
  · rw [exec_of_loadOp hi, ht]
  · rw [← extendTo64_eq n _ sx hlt]
    exact hret

/-- Settles O7: the body stores the bytes, and the end of the instruction touches memory only in the sampler's record. -/
theorem storesToMemory : Obligations.StoresToMemory := by
  unfold Obligations.StoresToMemory
  intro s i c rt rb o n hi hx k a ha hr
  have hlen := leBytes_length n ((k.gs rt).toNat % 2 ^ (8 * n))
  obtain ⟨hret, hmem⟩ := retires_wrBytes s c a (leBytes n ((k.gs rt).toNat % 2 ^ (8 * n))) (k.pc + 4) k (s.coreClk c.val)
    (encode i) 2
  rw [hlen] at hret
  refine ⟨_, (exec_of_storeOp hi s).trans (State.store_memory i rt hx (storeOp_size_pos hi) ha hr), hret, fun j hj hs => ?_,
    fun h8 => ?_⟩
  · rw [← ofNat_low_byte _ _ _ hj, ← s.rdByte_wrLe a n _ j hj]
    exact hmem (a + j) hs
  · apply completed_poisoned_false
    show (s.wrLe a n ((k.gs rt).toNat % 2 ^ (8 * n))).poisoned a = false
    have h8a : a % 8 = 0 := h8 ▸ ha
    rw [State.wrLe, State.poisoned_wrBytes, hlen, h8, decide_eq_true (show a ≤ 8 * (a / 8) by omega),
      decide_eq_true (show 8 * (a / 8) + 8 ≤ a + 8 by omega)]
    rfl

/-! ## Control registers -/

/-- A word loaded, as 64 bits. -/
theorem extendTo64_word (w : Word) (sx : Bool) : extendTo64 4 sx w.toNat = if sx then w.signExtend 64 else w.setWidth 64 := by
  rw [extendTo64_eq 4 w.toNat sx w.isLt]
  simp only [Nat.reduceMul, BitVec.ofNat_toNat, BitVec.setWidth_eq]

/-- A 32-bit load of a control register that meets no fault: the read of the register bus, then the register is set. -/
theorem State.load_control {s : State} {c : CoreId} (i : Instr) (sx : Bool) (rt : Rg) {rb : Rg} {o : BitVec 12} {a : Nat}
    {r : State × Word} (h : Executes s c) (he : (s.core c.val).effAddr rb o 4 = a) (hc : isControl a = true)
    (hf : s.dataFault c.val (encode i) (scalarReach 4 true) a = none) (hr : s.devRead (.core c) (a - ctrlBase) = r) :
    ∃ t, s.load c i 4 sx rt rb o = .next t ∧ Retires r.1 t c
      { (r.1.core c.val).setGs rt (if sx then r.2.signExtend 64 else r.2.setWidth 64) with pc := (s.core c.val).pc + 4 } 0 0 := by
  subst hr
  refine ⟨_, rfl, ?_⟩
  rw [runIns_ok h (by rw [he, State.checked_of_none hf, hc]; rfl), ← extendTo64_word]
  exact retires_setCore _ c _ _ _ _ _ _

/-- A 32-bit store of a control register that meets no fault: the PC advances, then the write of the register bus (log 31). -/
theorem State.store_control {s : State} {c : CoreId} (i : Instr) (rt : Rg) {rb : Rg} {o : BitVec 12} {a : Nat}
    (h : Executes s c) (he : (s.core c.val).effAddr rb o 4 = a) (hc : isControl a = true)
    (hf : s.dataFault c.val (encode i) (scalarReach 4 false) a = none) : s.store c i 4 rt rb o = .next
      (((s.setPc c.val ((s.core c.val).pc + 4)).devWrite (.core c) (a - ctrlBase)
        (((s.core c.val).gs rt).toNat % 4294967296)).completed (s.core c.val) c.val (s.coreClk c.val) (encode i) 2) := by
  unfold State.store
  simp [State.runIns, h.1, h.2, he, State.checked_of_none hf, hc, ctrlOff]

theorem effAddr_word (k : Core) (rb : Rg) (o : BitVec 12) : k.effAddr rb o 4 = (k.gs rb + o.signExtend 64 * 4).toNat := rfl

/-- Settles O9: the access raises no exception, so the body runs: one access of the bus, and the load's register. -/
theorem controlRegisterAccess : Obligations.ControlRegisterAccess := by
  unfold Obligations.ControlRegisterAccess
  intro s c rt rb o hx k a ha hlo hhi
  have he : k.effAddr rb o 4 = a := effAddr_word k rb o
  have hc : isControl a = true := by simp [isControl, hlo, hhi]
  refine ⟨fun hp hd => ?_, fun hp => ?_⟩
  · have hf (word : Word) := s.dataFault_control c.val word true a ha hc hp fun _ => hd
    intro r
    have hr : s.devRead (.core c) (a - ctrlBase) = r := rfl
    clear_value r
    exact ⟨State.load_control (.ld32s c rt rb o) true rt hx he hc (hf _) hr,
      State.load_control (.ld32u c rt rb o) false rt hx he hc (hf _) hr⟩
  · intro u
    have hf := s.dataFault_control c.val (encode (.st32 c rt rb o)) false a ha hc hp (by simp)
    exact ⟨_, State.store_control (.st32 c rt rb o) rt hx he hc hf, completed_keeps u k c _ _ _⟩

end Sys2Proof.Machine
end

section
/-!
Register accesses and accesses that fail (O21): what a write does to one-bit fields, and what reaches a register of the map.
-/

namespace Sys2Proof.Machine

open Sys2Proof.Safety

/-! ## One-bit fields (R16) -/

/-- A one-bit field, by its bit and access code, that takes every value. -/
def bitField (acc : Access) (b : Nat) : FieldD := ⟨b, b, acc, .any⟩

theorem bitsOf_one (v b : Nat) : bitsOf v b b = (v.testBit b).toNat := by
  rw [bitsOf, show b + 1 - b = 1 by omega, Nat.shiftRight_eq_div_pow, Nat.pow_one, Nat.toNat_testBit]

theorem testBit_putBits_one (v b i : Nat) (x : Bool) :
    (putBits v b b x.toNat).testBit i = if i = b then x else v.testBit i := by
  rw [testBit_putBits]
  by_cases hi : i = b
  · subst hi
    cases x <;> simp
  · rw [if_neg hi]
    split
    · rfl
    · rw [if_neg (by omega)]

/-- A LIVE bit takes the value written. -/
theorem fieldWrite_live (g : Gate) (b old v : Nat) : (fieldWrite g (bitField .live b) old v).2 = false ∧
    ∀ i, (fieldWrite g (bitField .live b) old v).1.testBit i = if i = b then v.testBit b else old.testBit i := by
  refine ⟨rfl, fun i => ?_⟩
  simp only [fieldWrite, bitField, bitsOf_one, testBit_putBits_one]

/-- A one written to a W1C bit clears it. -/
theorem fieldWrite_w1c (g : Gate) (b old v : Nat) : (fieldWrite g (bitField .w1c b) old v).2 = false ∧
    ∀ i, (fieldWrite g (bitField .w1c b) old v).1.testBit i = if i = b then old.testBit b && !v.testBit b else old.testBit i := by
  have hcleared (x y : Bool) : x.toNat - (x.toNat &&& y.toNat) = (x && !y).toNat := by cases x <;> cases y <;> rfl
  refine ⟨rfl, fun i => ?_⟩
  simp only [fieldWrite, bitField, bitsOf_one, hcleared, testBit_putBits_one]

/-- A write to a register of one-bit fields of one access code: each listed bit becomes `f` of its old and its written value, and every
other bit stays. -/
theorem fieldsWrite_bits (g : Gate) (acc : Access) (f : Bool → Bool → Bool) (hf : ∀ o w, f (f o w) w = f o w) (v : Nat)
    (h : ∀ b old, (fieldWrite g (bitField acc b) old v).2 = false ∧
      ∀ i, (fieldWrite g (bitField acc b) old v).1.testBit i = if i = b then f (old.testBit b) (v.testBit b) else old.testBit i)
    (bs : List Nat) (old : Nat) : (fieldsWrite g v (bs.map (bitField acc)) old).2 = false ∧
      ∀ i, (fieldsWrite g v (bs.map (bitField acc)) old).1.testBit i =
        if i ∈ bs then f (old.testBit i) (v.testBit i) else old.testBit i := by
  induction bs generalizing old with
  | nil => exact ⟨rfl, fun i => by simp [fieldsWrite]⟩
  | cons b t ih =>
    obtain ⟨hb, hbit⟩ := h b old
    obtain ⟨ht, htail⟩ := ih (fieldWrite g (bitField acc b) old v).1
    refine ⟨by simp [fieldsWrite, hb, ht], fun i => ?_⟩
    simp only [List.map_cons, fieldsWrite, htail, hbit, List.mem_cons]
    by_cases hi : i = b
    · subst hi; simp [hf]
    · simp [hi]

/-! ## Interrupt registers of SYS -/

theorem getLsbD_seven (i : Nat) (hi : i < 32) : (7 : Word).getLsbD i = decide (i < 3) := by
  rw [show (7 : Word) = BitVec.ofNat 32 7 from rfl, BitVec.getLsbD_ofNat, decide_eq_true hi, Bool.true_and]
  exact Nat.testBit_two_pow_sub_one 3 i

theorem mem_sysIntBits (i : Nat) : i ∈ [2, 1, 0] ↔ i < 3 := by
  simp only [List.mem_cons, List.not_mem_nil, or_false]
  omega

/-- A write of SYS_INT_EN takes the three bits written. -/
theorem fieldsWrite_sysIntEn (g : Gate) (old v : Word) :
    (fieldsWrite g v.toNat ([2, 1, 0].map (bitField .live)) old.toNat).2 = false ∧
      w32 (fieldsWrite g v.toNat ([2, 1, 0].map (bitField .live)) old.toNat).1 = (old &&& ~~~7) ||| (v &&& 7) := by
  obtain ⟨hheld, hbit⟩ := fieldsWrite_bits g .live (fun _ w => w) (fun _ _ => rfl) v.toNat
    (fun b old => fieldWrite_live g b old v.toNat) [2, 1, 0] old.toNat
  refine ⟨hheld, BitVec.eq_of_getLsbD_eq fun i hi => ?_⟩
  simp only [w32, BitVec.getLsbD_ofNat, hbit, mem_sysIntBits, BitVec.testBit_toNat, BitVec.getLsbD_or, BitVec.getLsbD_and,
    BitVec.getLsbD_not, getLsbD_seven i hi]
  by_cases h : i < 3 <;> simp [h, hi]

/-- A one written to a bit of SYS_INT_STATUS clears it. -/
theorem fieldsWrite_sysIntStatus (g : Gate) (old v : Word) :
    (fieldsWrite g v.toNat ([2, 1, 0].map (bitField .w1c)) old.toNat).2 = false ∧
      w32 (fieldsWrite g v.toNat ([2, 1, 0].map (bitField .w1c)) old.toNat).1 = old &&& ~~~(v &&& 7) := by
  obtain ⟨hheld, hbit⟩ := fieldsWrite_bits g .w1c (fun o w => o && !w) (fun o w => by cases o <;> cases w <;> rfl) v.toNat
    (fun b old => fieldWrite_w1c g b old v.toNat) [2, 1, 0] old.toNat
  refine ⟨hheld, BitVec.eq_of_getLsbD_eq fun i hi => ?_⟩
  simp only [w32, BitVec.getLsbD_ofNat, hbit, mem_sysIntBits, BitVec.testBit_toNat, BitVec.getLsbD_and, BitVec.getLsbD_not,
    getLsbD_seven i hi]
  by_cases h : i < 3 <;> simp [h, hi]

/-! ## What reaches a register -/

/-- A write that reaches the control registers is the write of its block's register. -/
theorem State.busWrite_reached (s : State) (q : Req) (off v : Nat) (h : Reached s q off) (hc : off < ctrlSize) :
    s.busWrite q off v = s.devWrite q off v := by
  cases q with
  | host =>
    obtain ⟨hm, hw⟩ := h
    simp [State.busWrite, hm, hw]
  | core c => simp [State.busWrite, show s.coreAlive c.val = true from h, hc]

/-- Outside the data port and the journalled blocks a write is one step of the register. -/
theorem State.devWrite_regStep (s : State) (q : Req) (off v : Nat) (hp : isDpReg off = false)
    (hj : isJournalBlock (off / 0x10000) = false) : s.devWrite q off v = s.regStep q false off v := by
  simp [State.devWrite, State.regWrite, hp, hj]

/-- A register of SYS is written by any requester. -/
theorem State.regStep_sys (s : State) (q : Req) (off v : Nat) (d : RegD) (hb : off / 0x10000 = 0) (f : findReg off = some d) :
    s.regStep q false off v = s.blockWrite q false d off v := by
  simp [State.regStep, State.shadowSkips, State.writerBar, f, hb, isJournalBlock]

/-- A write of a stored register whose fields all take it. -/
theorem State.plainWrite_taken (s : State) (q : Req) (g : Gate) (d : RegD) (off v : Nat) (w : Word) (hk : d.kind = .plain)
    (hr : reservedHit s.sys.nominal60 d.fields v = false)
    (hw : (fieldsWrite g v d.fields (s.reg off).toNat).2 = false ∧ w32 (fieldsWrite g v d.fields (s.reg off).toNat).1 = w) :
    s.plainWrite q g d off v = s.setReg off w := by
  obtain ⟨hheld, hword⟩ := hw
  simp [State.plainWrite, hk, hr, hheld, hword]

/-- No value of a register of one-bit fields is reserved. -/
theorem reservedHit_bits (nominal60 : Bool) (acc : Access) (bs : List Nat) (v : Nat) :
    reservedHit nominal60 (bs.map (bitField acc)) v = false := by
  simp [reservedHit, bitField, Legal.ok]

/-- SYS_INT_EN and SYS_INT_STATUS in the map: three bits of one access code. -/
def sysIntReg (off : Nat) (acc : Access) : RegD := ⟨off, 1, 0, 1, 0, .plain, [2, 1, 0].map (bitField acc)⟩

/-- A write that reaches SYS_INT_EN or SYS_INT_STATUS sets it to what its fields take: no requester is barred from SYS, and neither
register acts on its write (R16, R71). -/
theorem State.busWrite_sysInt (s : State) (q : Req) (off : Nat) (v w : Word) (acc : Access) (h : Reached s q off)
    (ho : off = R.SYS_INT_EN ∨ off = R.SYS_INT_STATUS) (ha : acc ≠ .wo) (f : findReg off = some (sysIntReg off acc))
    (hw : ∀ g : Gate, (fieldsWrite g v.toNat ([2, 1, 0].map (bitField acc)) (s.reg off).toNat).2 = false ∧
      w32 (fieldsWrite g v.toNat ([2, 1, 0].map (bitField acc)) (s.reg off).toNat).1 = w) :
    s.busWrite q off v.toNat = s.setReg off w := by
  obtain ⟨hblock, hc, hp⟩ : off / 0x10000 = 0 ∧ off < ctrlSize ∧ isDpReg off = false := by rcases ho with rfl | rfl <;> decide
  have hjournal : isJournalBlock (off / 0x10000) = false := by rw [hblock]; rfl
  have hsys (g : Gate) : s.sysWrite q g (sysIntReg off acc) off v.toNat = s.plainWrite q g (sysIntReg off acc) off v.toNat := by
    rcases ho with rfl | rfl <;> rfl
  calc s.busWrite q off v.toNat
      = s.devWrite q off v.toNat := State.busWrite_reached s q off _ h hc
    _ = s.regStep q false off v.toNat := State.devWrite_regStep s q off _ hp hjournal
    _ = s.blockWrite q false (sysIntReg off acc) off v.toNat := State.regStep_sys s q off _ _ hblock f
    _ = s.sysWrite q (s.gateOf q false off) (sysIntReg off acc) off v.toNat := by
      simp [State.blockWrite, hblock, sysIntReg, bitField, ha]
    _ = s.plainWrite q (s.gateOf q false off) (sysIntReg off acc) off v.toNat := hsys _
    _ = s.setReg off w := State.plainWrite_taken s q _ _ off _ w rfl (reservedHit_bits _ _ _ _) (hw _)

/-- A write that reaches a reserved offset is refused with cause 1 (R71). -/
theorem State.busWrite_reserved (s : State) (q : Req) (v : Nat) (h : Reached s q 0xFFFC) :
    s.busWrite q 0xFFFC v = s.refuse q 1 0xFFFC := by
  have f : findReg 0xFFFC = none := by decide
  rw [State.busWrite_reached s q _ _ h (by decide), State.devWrite_regStep s q _ _ (by decide) (by decide)]
  simp [State.regStep, f]

/-- A word that goes back to its requester. -/
def State.answer (s : State) (q : Req) (w : Word) : State :=
  s.emit (match q with | .host => .completion [w] | .core c => .readData c.val w)

/-- A read that DET does not bar hands the register's word to its requester. -/
theorem State.rowRead_open (s : State) (q : Req) (off : Nat) (hd : s.reqDet q = false) (h : ReadOpen s q off)
    (hp : isDpReg off = false) (hc : off < ctrlSize) : s.rowRead q off = (s.regRead q off).1.answer q (s.regRead q off).2 := by
  have hbus := State.busRead_open s q off h hp hc
  have hrow : s.rowRead q off = s.busRead q off := by simp [State.rowRead, State.readBarred, hd]
  cases q <;> exact hrow.trans hbus

theorem State.regRead_reserved (s : State) (q : Req) : s.regRead q 0xFFFC = (s, 0) := by
  have f : findReg 0xFFFC = none := by decide
  simp [State.regRead, f]

/-- The three fields of SYS_REFUSED_ADDR fill its word. -/
theorem readMask_refusedAddr (w : Word) :
    w32 (readMask [⟨31, 24, .ro, .any⟩, ⟨23, 21, .ro, .any⟩, ⟨20, 0, .ro, .any⟩] w.toNat) = w := by
  have hw := w.isLt
  apply BitVec.eq_of_toNat_eq
  simp only [readMask, List.foldl_cons, List.foldl_nil, w32, BitVec.toNat_ofNat, bitsOf, Nat.shiftRight_eq_div_pow, reduceCtorEq,
    if_false, Nat.reduceAdd, Nat.reduceSub, Nat.reducePow]
  omega

theorem State.regRead_refusedAddr (s : State) (q : Req) : s.regRead q R.SYS_REFUSED_ADDR = (s, s.reg R.SYS_REFUSED_ADDR) := by
  have f : findReg R.SYS_REFUSED_ADDR = some ⟨R.SYS_REFUSED_ADDR, 1, 0x0, 1, 0x0, .plain,
    [⟨31, 24, .ro, .any⟩, ⟨23, 21, .ro, .any⟩, ⟨20, 0, .ro, .any⟩]⟩ := by rfl
  have hread : s.regRead q R.SYS_REFUSED_ADDR = (s, w32 (readMask [⟨31, 24, .ro, .any⟩, ⟨23, 21, .ro, .any⟩, ⟨20, 0, .ro, .any⟩]
      (s.reg R.SYS_REFUSED_ADDR).toNat)) := by
    unfold State.regRead
    rw [f]
    rfl
  rw [hread, readMask_refusedAddr]

theorem State.regRead_nowLo (s : State) (q : Req) : s.regRead q R.TIM_NOW_LO =
    ((s.setLatch q R.TIM_NOW_HI (w32 (s.grid80 / 2 ^ 32))).setLatch q R.TIM_NOW_TOP (w32 (s.grid80 / 2 ^ 64)), w32 s.grid80) := by
  have f : findReg R.TIM_NOW_LO = some ⟨R.TIM_NOW_LO, 1, 0x0, 1, 0x0, .plain, [⟨31, 0, .ro, .any⟩]⟩ := by rfl
  unfold State.regRead
  rw [f]
  rfl

/-! ## Accesses that fail (R14, R32, R518, R520) -/

/-- A double-bit error of an engine's flit at an address of memory poisons the word, and nothing else changes but the report. -/
theorem flitDelivered_engine (s : State) (req : Byte) (addr : Nat) (h : 21 ≤ req.toNat) (hm : isMemory addr = true) :
    exec (.flitDelivered req addr .double) s = .next ((s.detect 0x06 addr req.toNat).poisonAt addr) := by
  show execFlitDelivered req addr .double s = _
  simp [execFlitDelivered, show ¬ req.toNat < 21 by omega, hm]

/-- A double-bit error of a core's flit is a bus error of that core. -/
theorem flitDelivered_core (s : State) (req : Byte) (addr : Nat) (h : req.toNat < 21) (hr : (s.core req.toNat).run = .run) :
    exec (.flitDelivered req addr .double) s = .next ((s.detect 0x06 addr req.toNat).excEntry req.toNat 0x08 (w64 addr)) := by
  have hrun : ((s.detect 0x06 addr req.toNat).core req.toNat).run = .run := hr
  show execFlitDelivered req addr .double s = _
  simp [execFlitDelivered, h, hrun]

/-- The check of BAD_WIDTH_ACCESS finds an access of the wrong width or an unaligned one. -/
theorem badWidth_found {addr width : Nat} (ha : addr < ctrlSize) (hw : ¬ (width = 4 ∧ addr % 4 = 0)) :
    ¬ ((width = 4 && addr % 4 = 0) || ctrlSize ≤ addr) = true := by
  simp only [Bool.or_eq_true, Bool.and_eq_true, decide_eq_true_eq]
  omega

/-- Such an access is an Unsupported Request to the host. -/
theorem badWidthAccess_host (s : State) (addr width : Nat) (write : Bool) (ha : addr < ctrlSize)
    (hw : ¬ (width = 4 ∧ addr % 4 = 0)) (hm : s.sys.mode ≠ .keep) :
    exec (.badWidthAccess .host addr width write) s = .next s.urDone :=
  (if_neg (badWidth_found ha hw)).trans (congrArg Host.Outcome.next (if_neg hm))

/-- To a core that executes it is a bus error. -/
theorem badWidthAccess_core (s : State) (c : CoreId) (addr width : Nat) (write : Bool) (ha : addr < ctrlSize)
    (hw : ¬ (width = 4 ∧ addr % 4 = 0)) (hr : (s.core c.val).run = .run) :
    exec (.badWidthAccess (.core c) addr width write) s = .next (s.excEntry c.val 0x08 (w64 (ctrlBase + addr))) :=
  (if_neg (badWidth_found ha hw)).trans (congrArg Host.Outcome.next (if_pos hr))

/-- R14 to R22, R71: accesses that reach their register. -/
theorem registerAccesses : RegisterAccesses := by
  unfold RegisterAccesses
  intro s q answered
  have hans : ∀ t w, answered t w = t.answer q w := fun t w => by cases q <;> rfl
  have hread (off : Nat) (hd : s.reqDet q = false) (h : ReadOpen s q off) (hp : isDpReg off = false) (hc : off < ctrlSize) :
      s.rowRead q off = answered (s.regRead q off).1 (s.regRead q off).2 :=
    (State.rowRead_open s q off hd h hp hc).trans (hans _ _).symm
  refine ⟨fun v h => ⟨_, rfl, ?_⟩, fun v h => ⟨_, rfl, ?_⟩, fun v h => ⟨_, rfl, ?_⟩, fun hd => ⟨fun h => ⟨_, rfl, ?_⟩,
    fun h => ⟨_, rfl, ?_⟩, fun h => ⟨_, rfl, ?_⟩⟩⟩
  · exact State.busWrite_sysInt s q _ v _ .live h (.inl rfl) (by decide) rfl fun g => fieldsWrite_sysIntEn g _ v
  · exact State.busWrite_sysInt s q _ v _ .w1c h (.inr rfl) (by decide) rfl fun g => fieldsWrite_sysIntStatus g _ v
  · exact State.busWrite_reserved s q v.toNat h
  · rw [hread 0xFFFC hd h (by decide) (by decide), State.regRead_reserved]
  · rw [hread _ hd h (by decide) (by decide), State.regRead_refusedAddr]
  · rw [hread _ hd h (by decide) (by decide), State.regRead_nowLo]
    rfl

/-- R14, R32, R518, R520: accesses that fail on their way. -/
theorem failedAccesses : FailedAccesses := by
  unfold FailedAccesses
  intro s
  refine ⟨fun addr width write ha hw => ⟨fun hm => ?_, fun c hr => ?_⟩,
    fun req addr => ⟨⟨s, rfl, rfl⟩, ?_, fun hq hr => ?_, fun hq hm => ?_⟩⟩
  · exact ⟨_, badWidthAccess_host s addr width write ha hw hm, rfl⟩
  · exact ⟨_, badWidthAccess_core s c addr width write ha hw hr, rfl⟩
  · have hcount := CountsOnly.globalEvent (s.detect 0x02 addr req.toNat) 0x48 req.toNat (some addr) 0
    refine ⟨_, rfl, ?_, ?_, ?_, ?_⟩
    · rw [hcount.err]; rfl
    · rw [hcount.fields]; rfl
    · intro a
      rw [State.rdByte, hcount.mem]; rfl
    · intro a
      rw [State.poisoned_congr hcount.err]; rfl
  · exact ⟨_, flitDelivered_core s req addr hq hr, rfl⟩
  · refine ⟨_, flitDelivered_engine s req addr hq hm, rfl, rfl, fun _ => rfl, fun a => ?_⟩
    rw [State.poisoned_poisonAt]
    rfl

/-- Settles O21, by its two halves. -/
theorem accesses : Obligations.Accesses := ⟨registerAccesses, failedAccesses⟩

end Sys2Proof.Machine
end

section
/-!
The step with an empty queue (O2) and the unit after its first power-on reset (O56).
-/

namespace Sys2Proof.Machine

theorem step_of_empty {s : State} (h : s.pending = []) : step s = .next (s.elapse 1) := by
  unfold step
  rw [h]

/-- Settles O2: time alone elapses. -/
theorem stepIdles : Obligations.StepIdles := by
  unfold Obligations.StepIdles
  intro s h
  exact ⟨s.elapse 1, step_of_empty h, rfl, h, rfl, rfl, rfl, rfl, rfl, rfl, rfl⟩

/-- Registers that the Understory does not hold read their Reset column. -/
theorem State.reg_reset {off : Nat} (h : isURegister off = false) : State.reset.reg off = regReset off := by
  unfold State.reg
  rw [if_neg (by simp [h])]
  rfl

/-- Neither store of counters lists one. -/
theorem State.cnt_reset (k : Nat) : State.reset.cnt k = 0 := by
  unfold State.cnt
  split <;> rfl

/-- Settles O56: a reset lists nothing, so each map reads its default. -/
theorem resetState : Obligations.ResetState := by
  unfold Obligations.ResetState
  intro r
  exact ⟨rfl, rfl, rfl, rfl, fun _ => rfl, State.cnt_reset, fun _ => rfl, fun _ => rfl, fun _ => rfl, fun _ => rfl, fun _ => rfl,
    rfl, rfl, rfl, fun _ => State.reg_reset⟩

end Sys2Proof.Machine
end

section
/-!
Entry into an exception or an interrupt handler (O18).
-/

namespace Sys2Proof.Machine

open Sys2Proof.Safety

theorem statusIe_eq_getLsbD (st : Word) : statusIe st = st.getLsbD 2 := rfl
theorem statusExl_eq_getLsbD (st : Word) : statusExl st = st.getLsbD 3 := rfl

/-- STATUS in a handler on each kind of core (R387). -/
theorem handlerStatus_ie_false (c : Nat) : handlerStatus c false = if c = 20 then 0xA else 0x9 := by
  by_cases h : c = 20 <;> simp [handlerStatus, svLevel, h, b2n, w32]

theorem handlerStatus_ie_true (c : Nat) : handlerStatus c true = if c = 20 then 0xE else 0xD := by
  by_cases h : c = 20 <;> simp [handlerStatus, svLevel, h, b2n, w32]

theorem State.core_detect (s : State) (code wh req d : Nat) : (s.detect code wh req).core d = s.core d := rfl

/-- One core's registers change, and an event of it is counted: no other core and no byte of memory changes. -/
theorem coreEvent_setCore_frame (s : State) (c : CoreId) (k : Core) (ev pl cls : Nat) :
    let t := (s.setCore c.val k).coreEvent c.val ev pl cls
    t.core c.val = k ∧ OtherCores s t c.val ∧ SameMemory s t := by
  have hcount := CountsOnly.coreEvent (s.setCore c.val k) c.val ev pl cls c.isLt
  refine ⟨?_, fun d hd => ?_, fun a => ?_⟩
  · rw [hcount.core, State.core_setCore_same]
  · rw [hcount.core, State.core_setCore, if_neg hd]
  · rw [State.rdByte, hcount.mem]
    rfl

/-- With EXL zero an exception starts the handler (R387). -/
theorem excEntry_of_exl_zero (s : State) (c : CoreId) (code : Nat) (ev : DWord) (h : ¬ statusExl (s.core c.val).status = true) :
    let k := s.core c.val
    let t := s.excEntry c.val code ev
    t.core c.val = { k with
      epc := k.pc, estatus := k.status, cause := w32 code, eval := ev, pc := k.evec
      status := if c.val = 20 then 0xA else 0x9 } ∧ OtherCores s t c.val ∧ SameMemory s t := by
  unfold State.excEntry
  dsimp only
  rw [if_neg h, ← handlerStatus_ie_false]
  exact coreEvent_setCore_frame s c _ 0x07 _ 0

/-- With EXL one it stops the core, and the double fault goes to the fault collector (R388). -/
theorem excEntry_of_exl_one (s : State) (c : CoreId) (code : Nat) (ev : DWord) (h : statusExl (s.core c.val).status = true) :
    let k := s.core c.val
    let t := s.excEntry c.val code ev
    (t.core c.val = { k with run := .halted } ∧ t.err.detected = s.err.detected ++ [s.found 0x11 code c.val]) ∧
      OtherCores s t c.val ∧ SameMemory s t := by
  unfold State.excEntry
  dsimp only
  rw [if_pos h]
  refine ⟨⟨?_, rfl⟩, fun d hd => ?_, fun _ => rfl⟩
  · rw [State.core_detect, State.core_setCore_same]
  · rw [State.core_detect, State.core_setCore, if_neg hd]

/-- R387, R388: an exception is entered, or is a double fault. -/
theorem exceptionEntry : ExceptionEntry := by
  unfold ExceptionEntry
  intro s c code ev _ k t
  by_cases hexl : statusExl k.status = true
  · obtain ⟨hdouble, hframe⟩ := excEntry_of_exl_one s c code ev hexl
    exact ⟨fun h => absurd (hexl.symm.trans h) (by decide), fun _ => hdouble, hframe⟩
  · obtain ⟨henters, hframe⟩ := excEntry_of_exl_zero s c code ev hexl
    exact ⟨fun _ => henters, fun h => absurd h hexl, hframe⟩

/-- The controller presents its winner to a core with IE one and EXL zero (R471). -/
theorem presents_of_winner {s : State} {c o : Nat} (hw : s.winner c = some o) (hie : (s.core c).status.getLsbD 2 = true)
    (hexl : (s.core c).status.getLsbD 3 = false) : s.presents c = true := by
  unfold State.presents
  rw [statusIe_eq_getLsbD, statusExl_eq_getLsbD, hw, hie, hexl]
  rfl

/-- A presented interrupt at a core that runs or waits is taken, or asks for the clock first (R34, R471). -/
theorem interruptTaken_of_presents {s : State} {c : CoreId} (hp : s.presents c.val = true)
    (hb : (s.core c.val).atBoundary = true) : exec (.interruptTaken c) s =
      .next (if s.clocked c.val then s.intEntry c.val else s.pllRequest) := by
  show execInterruptTaken c s = _
  cases hc : s.clocked c.val <;> simp [execInterruptTaken, hp, hb, hc]

/-- R34, R387, R389, R471: an interrupt is taken. -/
theorem interruptEntry : InterruptEntry := by
  unfold InterruptEntry
  intro s c o hw hie hexl hrun k
  have hb : k.atBoundary = true := by rcases hrun with h | h <;> simp [k, Core.atBoundary, h]
  have hexec := interruptTaken_of_presents (presents_of_winner hw hie hexl) hb
  refine ⟨fun hc => ⟨s.intEntry c.val, by rw [hexec, if_pos hc], ?_⟩, fun hc => ⟨s.pllRequest, by rw [hexec, if_neg (by simp [hc])], rfl⟩⟩
  obtain ⟨hcore, hothers, hmem⟩ := coreEvent_setCore_frame s c { k with
    run := .run, epc := k.pc, estatus := k.status, cause := w32 (2 ^ 31), status := handlerStatus c.val (statusIe k.status),
    pc := k.evec + 0x40 } 0x08 k.pl 0
  refine ⟨hothers, hmem, hcore.trans ?_⟩
  rw [statusIe_eq_getLsbD, hie, handlerStatus_ie_true]
  rfl

/-- Settles O18, by its two halves. -/
theorem entries : Obligations.Entries := ⟨exceptionEntry, interruptEntry⟩

end Sys2Proof.Machine
end

section
/-!
SUPPORT. What the power sequence's side work leaves alone: pushes and posts, notices, records, the Crossing, outputs, captures and
data port contexts move neither local time, mode control, the clock of Grid Time nor a core.
-/

namespace Sys2Proof.Machine

/-- Local time, mode control, the clock of Grid Time and the cores stand as before. Reducible, so that a `@[simp]` lemma that states it
gives one rule for each of the four fields. -/
@[reducible] def Steady (s t : State) : Prop := t.now = s.now ∧ t.sys = s.sys ∧ t.tim = s.tim ∧ t.cores = s.cores

theorem Steady.refl (s : State) : Steady s s := ⟨rfl, rfl, rfl, rfl⟩

theorem Steady.trans {s t u : State} (a : Steady s t) (b : Steady t u) : Steady s u := by
  obtain ⟨anow, asys, atim, acores⟩ := a
  obtain ⟨bnow, bsys, btim, bcores⟩ := b
  exact ⟨bnow.trans anow, bsys.trans asys, btim.trans atim, bcores.trans acores⟩

/-- An update that is made only in some case. -/
theorem Steady.ite {s a b : State} {c : Prop} [Decidable c] (ha : Steady s a) (hb : Steady s b) : Steady s (if c then a else b) := by
  split
  · exact ha
  · exact hb

theorem Steady.foldl {α : Type} {f : State → α → State} (h : ∀ s x, Steady s (f s x)) (l : List α) (s : State) :
    Steady s (l.foldl f s) := by
  induction l generalizing s with
  | nil => exact refl s
  | cons x t ih => exact (h s x).trans (ih (f s x))

theorem Steady.sys {s t : State} (h : Steady s t) : t.sys = s.sys := h.2.1
theorem Steady.cores {s t : State} (h : Steady s t) : t.cores = s.cores := h.2.2.2

/-! ## Vectors and mailboxes -/

@[simp] theorem State.msix_steady (s : State) (n : Nat) : Steady s (s.msix n) := by
  unfold State.msix
  split <;> simp [Steady]

@[simp] theorem State.bellVector_steady (s : State) (m : Nat) : Steady s (s.bellVector m) := by
  unfold State.bellVector
  split_ifs <;> simp [Steady]

@[simp] theorem State.post_steady (s : State) (m agent : Nat) (v : DWord) (bit : Nat) : Steady s (s.post m agent v bit).1 := by
  unfold State.post
  dsimp only
  split_ifs <;> simp [Steady, State.ringBell]

@[simp] theorem State.keeperDone_steady (s : State) (r : KReq) (res : Nat) (out : List Byte) : Steady s (s.keeperDone r res out) := by
  unfold State.keeperDone
  dsimp only
  split_ifs <;> simp [Steady]

@[simp] theorem State.abandonUpdate_steady (s : State) : Steady s s.abandonUpdate := by
  unfold State.abandonUpdate
  split
  · exact Steady.refl s
  · split <;> simp [Steady]

/-! ## Ports and queues -/

@[simp] theorem State.settleHold_steady (s : State) (p : Nat) : Steady s (s.settleHold p) := by
  unfold State.settleHold
  split <;> simp [Steady]

@[simp] theorem State.armHold_steady (s : State) (p : Nat) : Steady s (s.armHold p) := by
  unfold State.armHold
  dsimp only
  split <;> simp [Steady]

@[simp] theorem State.sendPause_steady (s : State) (p quanta : Nat) : Steady s (s.sendPause p quanta) := by
  simp [Steady, State.sendPause, State.txQueue]

@[simp] theorem State.pauseEdge_steady (s : State) (p : Nat) (up : Bool) : Steady s (s.pauseEdge p up) := by
  unfold State.pauseEdge
  split_ifs <;> simp [Steady, State.armRefresh, State.dropRefresh]

@[simp] theorem State.pauseEdges_steady (s old : State) (l : List Nat) : Steady s (s.pauseEdges old l) := by
  induction l generalizing s with
  | nil => exact Steady.refl s
  | cons p t ih =>
    refine Steady.trans ?_ (ih _)
    split <;> simp [Steady]

@[simp] theorem State.driveBp_steady (s old : State) : Steady s (s.driveBp old) := by
  unfold State.driveBp
  dsimp only
  split <;> simp [Steady]

@[simp] theorem State.raiseBp_steady (s : State) (n : Nat) (up : Bool) : Steady s (s.raiseBp n up) := by
  unfold State.raiseBp
  dsimp only
  split_ifs <;> simp [Steady, State.qEvent]

@[simp] theorem State.setBp_steady (s : State) (n : Nat) (up : Bool) : Steady s (s.setBp n up) := by
  unfold State.setBp
  split <;> simp [Steady]

@[simp] theorem State.judgeLevel_steady (s : State) (n before : Nat) : Steady s (s.judgeLevel n before) := by
  unfold State.judgeLevel
  dsimp only
  split
  · split <;> simp [Steady]
  · split <;> simp [Steady, State.qEvent]

@[simp] theorem State.entryPut_steady (s : State) (n i : Nat) : Steady s (s.entryPut n i) := by
  unfold State.entryPut
  dsimp only
  split <;> simp [Steady]

@[simp] theorem State.passMarker_steady (s : State) (n : Nat) : Steady s (s.passMarker n) := by
  unfold State.passMarker
  split <;> simp [Steady]

@[simp] theorem State.flushNow_steady (s : State) (n : Nat) : Steady s (s.flushNow n) := by
  unfold State.flushNow
  extract_lets q keep gone q' s1
  split <;> simp [Steady, s1]

@[simp] theorem State.resetQueue_steady (s : State) (n cause : Nat) : Steady s (s.resetQueue n cause) := by
  unfold State.resetQueue
  dsimp only
  split_ifs <;> simp [Steady]

@[simp] theorem State.checkQueue_steady (s : State) (n : Nat) : Steady s (s.checkQueue n) := by
  unfold State.checkQueue
  split <;> simp [Steady]

@[simp] theorem State.appendEntry_steady (s : State) (n cause : Nat) (e : Entry) (first last : Bool) :
    Steady s (s.appendEntry n cause e first last) := by
  unfold State.appendEntry
  extract_lets q cut s1 closed q1 s2 s3 q2 before ends s4 s5 s6
  have h1 : Steady s s1 := Steady.ite (by simp [Steady]) (Steady.refl s)
  have h2 : Steady s1 s2 := by simp [Steady, s2]
  have h3 : Steady s2 s3 := Steady.ite (by simp [Steady]) (Steady.refl s2)
  have h4 : Steady s3 s4 := Steady.ite (by simp [Steady]) (Steady.refl s3)
  have h6 : Steady s4 s6 := by simp [Steady, s6, s5]
  have h7 : Steady s6 (if (ends && (s6.queue n).flushWait) = true then s6.flushNow n else s6) :=
    Steady.ite (by simp [Steady]) (Steady.refl s6)
  exact ((((h1.trans h2).trans h3).trans h4).trans h6).trans h7

@[simp] theorem State.push_steady (s : State) (n agent : Nat) (e : Entry) (first last : Bool) :
    Steady s (s.push n agent e first last).1 := by
  unfold State.push
  extract_lets s1 s2
  have h1 : Steady s s1 := by simp [Steady, s1]
  apply h1.trans
  split_ifs <;> simp [Steady, s2]

@[simp] theorem State.pushNotice_steady (s : State) (n agent : Nat) (e : Entry) : Steady s (s.pushNotice n agent e).1 := by
  unfold State.pushNotice
  dsimp only
  split <;> simp [Steady]

/-! ## The Crossing -/

@[simp] theorem State.crossSend_steady (s : State) (kind : Nat) (payload : List Byte) : Steady s (s.crossSend kind payload) := by
  unfold State.crossSend
  dsimp only
  split <;> simp [Steady]

@[simp] theorem State.setXngState_steady (s : State) (n : Nat) : Steady s (s.setXngState n) := by
  unfold State.setXngState
  dsimp only
  split_ifs <;> simp [Steady, State.dropDigests]

@[simp] theorem State.diverge_steady (s : State) (code wh : Nat) : Steady s (s.diverge code wh) := by
  unfold State.diverge
  extract_lets s1 xng s2
  have h2 : Steady s s2 := by simp [Steady, s2, s1]
  exact h2.trans (Steady.ite (State.setXngState_steady s2 7) (Steady.refl s2))

@[simp] theorem State.matchDigests_steady (s : State) (a b : BitVec 128) (idx : Nat) : Steady s (s.matchDigests a b idx) := by
  unfold State.matchDigests
  split <;> simp [Steady]

@[simp] theorem State.digest_steady (s : State) (kind idx seq : Nat) (bytes : List Byte) : Steady s (s.digest kind idx seq bytes) := by
  unfold State.digest
  dsimp only
  split
  · split <;> simp [Steady]
  · exact Steady.refl s

/-! ## Captures -/

@[simp] theorem State.capPut_steady (s : State) (l : List Byte) : Steady s (s.capPut l).1 := by
  unfold State.capPut
  extract_lets pad s1 a
  have h1 : Steady s s1 := Steady.ite (Steady.refl s) (by simp [Steady, State.capAppend])
  exact h1.trans (by simp [Steady, State.capAppend])

@[simp] theorem State.capRecord_steady (s : State) (k : Nat) (c : Capture) (l : List Byte) : Steady s (s.capRecord k c l).1 := by
  simp [Steady, State.capRecord]

@[simp] theorem State.writeGaps_steady (s : State) (k : Nat) (c : Capture) (l : List (Nat × Nat × Nat)) :
    Steady s (s.writeGaps k c l).1 := by
  induction l generalizing s c with
  | nil => exact Steady.refl s
  | cons g t ih => exact (State.capRecord_steady s k c _).trans (ih _ _)

@[simp] theorem State.flushGaps_steady (s : State) (k : Nat) (c : Capture) (seq : Nat) : Steady s (s.flushGaps k c seq).1 :=
  State.writeGaps_steady s k _ _

@[simp] theorem State.capTry_steady (s : State) (k : Nat) (c : Capture) (seq len : Nat) (mk : Capture → List Byte) :
    Steady s (s.capTry k c seq len mk).1 := by
  unfold State.capTry
  dsimp only
  split <;> simp [Steady]

theorem State.addGap_steady (k : Nat) (r : State × Capture) (g : Nat × Nat × Nat) : Steady r.1 (State.addGap k r g).1 := by
  unfold State.addGap
  extract_lets gaps old c s1 s2
  have h1 : Steady r.1 s1 := by simp [Steady, s1]
  have h2 : Steady s1 s2 := Steady.ite (by simp [Steady]) (Steady.refl s1)
  exact (h1.trans h2).trans (by simp [Steady, State.setCapture])

theorem State.addGaps_steady (k : Nat) (r : State × Capture) (l : List (Nat × Nat × Nat)) :
    Steady r.1 (l.foldl (State.addGap k) r).1 := by
  induction l generalizing r with
  | nil => exact Steady.refl r.1
  | cons g t ih => exact (State.addGap_steady k r g).trans (ih _)

/-- The end of an interval: its record was written, or its Sets leave AVERAGED and its gaps are added. -/
theorem averageOut_steady {s : State} {r : State × Capture × Bool} (h : Steady s r.1) (k n : Nat) (runs : List (Nat × Nat × Nat)) :
    Steady s (if r.2.2 then (r.1.setCapture k r.2.1, r.2.1) else runs.foldl (State.addGap k) (r.1.unaverage k n, r.2.1)).1 := by
  apply h.trans
  split
  · simp [Steady, State.setCapture]
  · exact Steady.trans (by simp [Steady, State.unaverage]) (State.addGaps_steady k _ runs)

@[simp] theorem State.putAverage_steady (s : State) (k : Nat) (c : Capture) : Steady s (s.putAverage k c).1 := by
  unfold State.putAverage
  cases c.avg with
  | none => exact Steady.refl s
  | some a => exact averageOut_steady (State.capTry_steady s k _ _ _ _) k a.n a.runs

@[simp] theorem State.capNotice_steady (s : State) (c : Capture) (g addr kind flags : Nat) :
    Steady s (s.capNotice c g addr kind flags) := by
  unfold State.capNotice
  dsimp only
  split <;> simp [Steady]

@[simp] theorem State.capDropFlag_steady (s : State) (k : Nat) : Steady s (s.capDropFlag k) := by
  unfold State.capDropFlag
  dsimp only
  split <;> simp [Steady]

@[simp] theorem State.capClose_steady (s : State) (k cause : Nat) : Steady s (s.capClose k cause) := by
  unfold State.capClose
  split
  · exact Steady.refl s
  · simp [Steady]

@[simp] theorem State.capPowerFail_steady (s : State) : Steady s s.capPowerFail := by
  unfold State.capPowerFail
  extract_lets s1 s2
  have h1 : Steady s s1 := Steady.foldl (fun s k => State.capClose_steady s k 3) _ s
  have h2 : Steady s1 s2 := Steady.foldl (fun s k => by simp [Steady]) _ s1
  exact (h1.trans h2).trans (by simp [Steady])

/-! ## Accounts and outputs -/

@[simp] theorem State.accPowerFail_steady (s : State) : Steady s s.accPowerFail := by
  unfold State.accPowerFail
  dsimp only
  split_ifs <;> simp [Steady, State.startSave]

@[simp] theorem State.accHeld_steady (s : State) : Steady s s.accHeld :=
  Steady.foldl (fun s n => by simp [Steady, State.setPulse]) _ s

@[simp] theorem State.accFrozen_steady (s : State) : Steady s s.accFrozen :=
  Steady.foldl (fun s n => by simp [Steady]) _ s

@[simp] theorem State.accDriven_steady (s : State) : Steady s s.accDriven :=
  Steady.foldl (fun s n => by dsimp only; split <;> simp [Steady]) _ s

@[simp] theorem State.refreshOutputs_steady (s : State) : Steady s s.refreshOutputs := by
  unfold State.refreshOutputs
  extract_lets new alm t
  split <;> simp [Steady, t]

@[simp] theorem State.driveChanged_steady (s : State) (old : Drive) : Steady s (s.driveChanged old) := by
  unfold State.driveChanged
  dsimp only
  split
  · simp [Steady]
  · split <;> simp [Steady]

@[simp] theorem State.linesMoved_steady (s : State) (old : Bool) : Steady s (s.linesMoved old) := by
  unfold State.linesMoved
  split <;> simp [Steady]

/-! ## Data port contexts -/

@[simp] theorem State.dpVector_steady (s : State) (k : Nat) (done : Bool) : Steady s (s.dpVector k done) := by
  unfold State.dpVector
  dsimp only
  split_ifs <;> simp [Steady]

@[simp] theorem State.dpEnded_steady (s : State) (k : Nat) : Steady s (s.dpEnded k) := by
  unfold State.dpEnded
  dsimp only
  split <;> simp [Steady]

@[simp] theorem State.dpError_steady (s : State) (k code : Nat) : Steady s (s.dpError k code) := by
  unfold State.dpError
  dsimp only
  split <;> simp [Steady]

@[simp] theorem State.dpProgram_steady (s : State) (k : Nat) : Steady s (s.dpProgram k) := by
  unfold State.dpProgram
  dsimp only
  split <;> simp [Steady]

@[simp] theorem State.dpAbort_steady (s : State) (k : Nat) : Steady s (s.dpAbort k) := by
  unfold State.dpAbort
  dsimp only
  split <;> simp [Steady]

@[simp] theorem State.dpPowerFail_steady (s : State) : Steady s s.dpPowerFail :=
  Steady.foldl (fun s k => by dsimp only; split <;> simp [Steady]) _ s

/-! ## Mode status and the wake watcher -/

@[simp] theorem State.showMode_steady (s : State) : Steady s s.showMode := by simp [Steady, State.showMode]

@[simp] theorem State.requestResult_steady (s : State) (r : Nat) : Steady s (s.requestResult r) := by
  simp [Steady, State.requestResult]

@[simp] theorem State.riseBp_steady (s : State) : Steady s s.riseBp :=
  Steady.foldl (fun s x => by dsimp only; split <;> simp [Steady]) _ s

@[simp] theorem State.wakeEvent_steady (s : State) (code : Nat) : Steady s (s.wakeEvent code) := by
  unfold State.wakeEvent
  exact Steady.ite (Steady.foldl (fun s k => Steady.ite (by simp [Steady]) (Steady.refl s)) _ s) (Steady.refl s)

@[simp] theorem State.armWatcher_steady (s : State) : Steady s s.armWatcher := by
  unfold State.armWatcher
  extract_lets s1 und s2
  have hfired : Steady s (s.setFld F.IC_WAKE_CAUSE.FIRED 0) := by simp [Steady]
  have h1 : Steady (s.setFld F.IC_WAKE_CAUSE.FIRED 0) s1 := Steady.foldl (fun s k => by simp [Steady]) (List.range 16) _
  have h2 : Steady s1 s2 := by simp [Steady, s2]
  have h3 := Steady.foldl (fun s c => State.wakeEvent_steady s c) s2.wakeHolds s2
  exact ((hfired.trans h1).trans h2).trans h3

end Sys2Proof.Machine
end

section
/-!
SUPPORT. Cores that go off with a mode or with the power, and the entry into M0.
-/

namespace Sys2Proof.Machine

/-! ## Cores that go off -/

theorem State.core_congr {s t : State} (h : t.cores = s.cores) (c : Nat) : t.core c = s.core c := by rw [State.core, h, State.core]

/-- Local time, mode control and the clock of Grid Time stand, and no core that is off comes on. -/
structure NoCoreStarts (s t : State) : Prop where
  now : t.now = s.now
  sys : t.sys = s.sys
  tim : t.tim = s.tim
  off : ∀ c, (s.core c).run = .off → (t.core c).run = .off

theorem Steady.noCoreStarts {s t : State} (h : Steady s t) : NoCoreStarts s t :=
  have ⟨hnow, hsys, htim, hcores⟩ := h
  ⟨hnow, hsys, htim, fun c hc => by rw [State.core_congr hcores, hc]⟩

theorem NoCoreStarts.refl (s : State) : NoCoreStarts s s := (Steady.refl s).noCoreStarts

theorem NoCoreStarts.trans {s t u : State} (a : NoCoreStarts s t) (b : NoCoreStarts t u) : NoCoreStarts s u :=
  ⟨b.now.trans a.now, b.sys.trans a.sys, b.tim.trans a.tim, fun c hc => b.off c (a.off c hc)⟩

@[simp] theorem State.releaseKey_steady (s : State) (x : Task) : Steady s (s.releaseKey x) := by
  unfold State.releaseKey
  split <;> simp [Steady]

/-- The end of a task changes its own core's task alone (R443). -/
theorem State.abortTask_steady (s : State) (c : Nat) :
    Steady (s.setCore c { s.core c with task := none, given := none }) (s.abortTask c) := by
  unfold State.abortTask
  extract_lets k s1 s2 s3
  have h2 : Steady s1 s2 := by dsimp only [s2]; split <;> simp [Steady]
  have h3 : Steady s2 s3 := by dsimp only [s3]; split <;> simp [Steady]
  exact (h2.trans h3).trans (by simp [Steady, State.stamp])

/-- A core goes off: its task ends and its registers are reset. -/
def State.coreDown (s : State) (c : Nat) : State :=
  if (s.core c).run = .off then s else (s.abortTask c).setCore c (coreReset c)

theorem setCore_reset_noCoreStarts (s : State) (c : Nat) : NoCoreStarts s (s.setCore c (coreReset c)) := by
  refine ⟨by simp, by simp, by simp, fun d hd => ?_⟩
  rw [State.core_setCore]
  split
  · rfl
  · exact hd

theorem State.coreDown_noCoreStarts (s : State) (c : Nat) : NoCoreStarts s (s.coreDown c) := by
  unfold State.coreDown
  split
  · exact NoCoreStarts.refl s
  next hrun =>
    obtain ⟨hnow, hsys, htim, hcores⟩ := s.abortTask_steady c
    have hown : NoCoreStarts s (s.abortTask c) := by
      refine ⟨hnow.trans (by simp), hsys.trans (by simp), htim.trans (by simp), fun d hd => ?_⟩
      rw [State.core_congr hcores, State.core_setCore, if_neg (by rintro rfl; exact hrun hd), hd]
    exact hown.trans (setCore_reset_noCoreStarts _ c)

theorem State.coreDown_off (s : State) (c : Nat) : ((s.coreDown c).core c).run = .off := by
  unfold State.coreDown
  split
  next h => exact h
  · rw [State.core_setCore_same]
    rfl

/-- A pass over cores that takes each of them down. -/
theorem foldl_coreDown {f : State → Nat → State} {u : Sys} (h : ∀ s c, s.sys = u → f s c = s.coreDown c) (l : List Nat) {s : State}
    (hs : s.sys = u) : NoCoreStarts s (l.foldl f s) ∧ ∀ c ∈ l, ((l.foldl f s).core c).run = .off := by
  induction l generalizing s with
  | nil => exact ⟨NoCoreStarts.refl s, fun c hc => by simp at hc⟩
  | cons x t ih =>
    have hx : NoCoreStarts s (f s x) := h s x hs ▸ s.coreDown_noCoreStarts x
    obtain ⟨hrest, hoff⟩ := ih (hx.sys.trans hs)
    refine ⟨hx.trans hrest, fun c hc => ?_⟩
    rcases List.mem_cons.mp hc with rfl | hc
    · exact hrest.off c (h s c hs ▸ s.coreDown_off c)
    · exact hoff c hc

/-- In M0, and once the power failure has stopped the cores, all 21 are off (R55, R65). -/
theorem State.modeCores_allOff {s : State} (h : s.sys.mode = .keep ∨ s.sys.coresOff = true) :
    NoCoreStarts s s.modeCores ∧ ∀ c < 21, (s.modeCores.core c).run = .off := by
  unfold State.modeCores
  extract_lets on s1
  have h1 : s1 = s.setCore 20 (coreReset 20) := by
    dsimp only [s1]
    rw [if_pos]
    rcases h with h | h <;> simp [h]
  have hkeeper : NoCoreStarts s s1 := h1 ▸ setCore_reset_noCoreStarts s 20
  have hstep : ∀ (t : State) (c : Nat), t.sys = s.sys → (on.contains c && !t.sys.coresOff) = false := by
    rintro t c ht
    rcases h with h | h
    · simp [on, h, State.coresIn]
    · simp [ht, h]
  suffices hfold : ∀ f : State → Nat → State, (∀ t c, t.sys = s.sys → f t c = t.coreDown c) →
      NoCoreStarts s ((List.range 20).foldl f s1) ∧ ∀ c < 21, (((List.range 20).foldl f s1).core c).run = .off from
    hfold _ fun t c ht => if_neg (by rw [hstep t c ht]; decide)
  intro f hf
  obtain ⟨hrest, hoff⟩ := foldl_coreDown hf (List.range 20) hkeeper.sys
  refine ⟨hkeeper.trans hrest, fun c hc => ?_⟩
  by_cases h20 : c = 20
  · subst h20
    exact hrest.off 20 (by rw [h1, State.core_setCore_same]; rfl)
  · exact hoff c (List.mem_range.mpr (by omega))

/-! ## Entry into M0 -/

theorem State.gladeMayStart_keep {s : State} (h : s.sys.mode = .keep) : s.gladeMayStart = false := by simp [State.gladeMayStart, h]

theorem State.judgeDegraded_keep {s : State} (h : s.sys.mode = .keep) (cause : Nat) : s.judgeDegraded cause = s := by
  simp [State.judgeDegraded, h]

/-- M0: Grid Time stopped and no core on (R55, R66). -/
theorem State.enterMode_keep (s : State) (requested : Bool) (cause : Nat) :
    let t := s.enterMode .keep requested cause
    t.sys.mode = .keep ∧ t.tim.running = false ∧ ∀ c < 21, (t.core c).run = .off := by
  unfold State.enterMode
  extract_lets old drive lines s1 s2 s3 s4 sys alm xng s5 s6 s7 s8 s9 s10 s11 s12 s13 tim s14 t
  have hmode5 : s5.sys.mode = .keep := rfl
  have h8 : Steady s5 s8 := by simp [Steady, s8, s7, s6]
  have h9 : Steady s8 s9 := Steady.ite (State.requestResult_steady s8 2) (Steady.refl s8)
  have h10 : Steady s9 s10 := Steady.ite (State.riseBp_steady s9) (Steady.refl s9)
  have hmode10 : s10.sys.mode = .keep := by rw [((h8.trans h9).trans h10).sys, hmode5]
  obtain ⟨hcores, hoff⟩ := State.modeCores_allOff (.inl hmode10)
  have hmode11 : s11.sys.mode = .keep := by rw [hcores.sys, hmode10]
  have h12 : s12 = s11 := if_neg (by simp [State.gladeMayStart_keep hmode11])
  have h13 : Steady s11 s13 := by simp [Steady, s13, h12]
  have h14 : s14 = ({ s13 with tim := { s13.tim with running := false } } : State).armWatcher := if_pos rfl
  have hsys14 : s14.sys = s11.sys := by rw [h14]; simp [h13.sys]
  have hcores14 : s14.cores = s11.cores := by rw [h14]; simp [h13.cores]
  have ht : t = s14 := (if_neg (by simp)).trans (State.judgeDegraded_keep (by rw [hsys14, hmode11]) _)
  rw [ht]
  refine ⟨by rw [hsys14, hmode11], by rw [h14]; simp, fun c hc => ?_⟩
  rw [State.core_congr hcores14]
  exact hoff c hc

end Sys2Proof.Machine
end

section
/-!
The clock, mains, a loss of power, the waits of a Boot and a wake (O24).
-/

namespace Sys2Proof.Machine

open Sys2Proof.Safety

/-! ## The Stream Engine PLL (R34) -/

/-- The largest of a start and of the values at a list's places. -/
theorem foldl_max_eq (f : Nat → Nat) (l : List Nat) {a b : Nat} (ha : a ≤ b) (hl : ∀ c ∈ l, f c ≤ b)
    (hb : (∃ c ∈ l, f c = b) ∨ a = b) : l.foldl (fun t c => max t (f c)) a = b := by
  induction l generalizing a with
  | nil => simpa using hb
  | cons x t ih =>
    have hx := hl x (by simp)
    refine ih (max_le ha hx) (fun c hc => hl c (by simp [hc])) ?_
    rcases hb with ⟨c, hc, hcb⟩ | rfl
    · rcases List.mem_cons.mp hc with rfl | hc
      · exact .inr (by simpa [hcb] using ha)
      · exact .inl ⟨c, hc, hcb⟩
    · exact .inr (max_eq_left hx)

theorem State.seWait_iff (s : State) : s.seWait = true ↔ ∀ c < 16, (s.core c).run = .wait ∧ (s.core c).given = none := by
  simp [State.seWait]

theorem State.seWaitSince_eq (s : State) {t0 : Nat} (hc : ∀ c < 16, (s.core c).waitAt ≤ t0) (hp : s.sys.pllUpAt ≤ t0)
    (h : (∃ c < 16, (s.core c).waitAt = t0) ∨ s.sys.pllUpAt = t0) : s.seWaitSince = t0 :=
  foldl_max_eq (fun c => (s.core c).waitAt) (List.range 16) hp (fun c h => hc c (List.mem_range.mp h))
    (h.imp_left fun ⟨c, h, e⟩ => ⟨c, List.mem_range.mpr h, e⟩)

/-- The PLL stops once the Stream Engines have waited for 500 µs. -/
theorem pllStop_of_waiting {s : State} (dt : Nat) (hw : s.seWait = true) (hr : s.sys.pll = .running) : exec (.pllStop dt) s =
    .next (if 600000 ≤ s.now + dt - s.seWaitSince then
      { s.elapse dt with sys := { (s.elapse dt).sys with pll := .stopped } } else s.elapse dt) := by
  have hw' : (s.elapse dt).seWait = true := hw
  have hsince : (s.elapse dt).seWaitSince = s.seWaitSince := rfl
  have hnow : (s.elapse dt).now = s.now + dt := rfl
  have hr' : (s.elapse dt).sys.pll = .running := hr
  show execPllStop dt s = _
  unfold execPllStop
  dsimp only
  rw [hw', hsince, hnow, hr']
  by_cases h : 600000 ≤ s.now + dt - s.seWaitSince <;> simp [clkPerUs, h]

/-- It runs on while a Stream Engine is not in WAIT or has a task on its way to it. -/
theorem pllStop_of_busy {s : State} (dt : Nat) (hw : s.seWait ≠ true) : exec (.pllStop dt) s = .next (s.elapse dt) := by
  have hw' : ¬ (s.elapse dt).seWait = true := hw
  show execPllStop dt s = _
  simp [execPllStop, hw']

theorem pllRestartDone_of_restarting {s : State} (dt : Nat) {r : Nat} (h : s.sys.pll = .restarting r) :
    exec (.pllRestartDone dt) s =
      .next { s.elapse dt with sys := { (s.elapse dt).sys with pll := .running, pllUpAt := (s.elapse dt).now } } := by
  have h' : (s.elapse dt).sys.pll = .restarting r := h
  show execPllRestartDone dt s = _
  simp [execPllRestartDone, h']

/-! ## Unit resets (R67) -/

/-- The lines that fall with a reset are recorded as outputs, and change nothing else. -/
theorem State.dropLines_keeps {α : Type} (g : State → α) (he : ∀ s o, g (s.emit o) = g s) (s old : State) :
    g (s.dropLines old) = g s := by
  unfold State.dropLines
  dsimp only
  split_ifs <;> simp only [he]

theorem State.unitReset_sys (s : State) (cause : Option Nat) (step : Nat) : (s.unitReset cause step).sys = { Sys.reset with
    prevMode := s.sys.mode, bootStep := step, powerGood := step != 0, bootFromWake := cause.isNone, nominal60 := s.sys.nominal60 } :=
  State.dropLines_keeps (·.sys) State.emit_sys _ s
theorem State.unitReset_mram (s : State) (cause : Option Nat) (step : Nat) : (s.unitReset cause step).mram = s.mram :=
  State.dropLines_keeps (·.mram) State.emit_mram _ s
theorem State.unitReset_cores (s : State) (cause : Option Nat) (step : Nat) : (s.unitReset cause step).cores = [] :=
  State.dropLines_keeps (·.cores) State.emit_cores _ s
theorem State.unitReset_now (s : State) (cause : Option Nat) (step : Nat) : (s.unitReset cause step).now = s.now :=
  State.dropLines_keeps (·.now) State.emit_now _ s
theorem State.unitReset_pending (s : State) (cause : Option Nat) (step : Nat) : (s.unitReset cause step).pending = s.pending :=
  State.dropLines_keeps (·.pending) State.emit_pending _ s

/-- DRAM outlives the reset of a wake, and no other memory a reset. -/
theorem State.unitReset_rdByte (s : State) (cause : Option Nat) (step a : Nat) :
    (s.unitReset cause step).rdByte a = if (cause.isNone && decide (dramStart ≤ a)) = true then s.rdByte a else 0 :=
  (State.dropLines_keeps (·.rdByte a) (fun _ _ => rfl) _ s).trans
    (mget_filter_key memDefault s.mem (fun a => cause.isNone && decide (dramStart ≤ a)) a)

/-- The cause of a reset is recorded; a wake has none, and the registers of the Understory stand. -/
theorem State.unitReset_ureg (s : State) (cause : Option Nat) (step : Nat) {off : Nat} (h : isURegister off = true) :
    (s.unitReset cause step).reg off = match cause with
      | some c => if off = R.SYS_RESET_CAUSE then w32 c else s.reg off
      | none => s.reg off := by
  refine (State.dropLines_keeps (·.reg off) (fun _ _ => rfl) _ s).trans ?_
  unfold State.reg
  rw [if_pos h, if_pos h]
  cases cause with
  | none => rfl
  | some c => exact mapGet_mapSet regReset s.uregs R.SYS_RESET_CAUSE (w32 c) off

/-- Mains in range for 50 ms takes the unit out of M0 by a power-on reset (R57, R63). -/
theorem mainsInRange_of_keep {s : State} {dt : Nat} (hm : s.sys.mode = .keep) (hd : 60000000 ≤ dt) :
    exec (.mainsInRange dt) s = .next ((s.elapse dt).unitReset (some 1) 0) := by
  have hm' : (s.elapse dt).sys.mode = .keep := hm
  show execMainsInRange dt s = _
  simp [execMainsInRange, hm', hd]

/-- R34, R57, R63, R67: the clock and mains. -/
theorem clockAndMains : ClockAndMains := by
  unfold ClockAndMains
  intro s dt
  refine ⟨fun t0 hse hup hlast hpll => ?_, fun ⟨c, hc, hbusy⟩ hpll => ?_, fun r hpll => ?_, fun hmode hdt => ?_⟩
  · have hwait : s.seWait = true := s.seWait_iff.mpr fun c hc => ⟨(hse c hc).1, (hse c hc).2.1⟩
    have hsince : s.seWaitSince = t0 := s.seWaitSince_eq (fun c hc => (hse c hc).2.2) hup hlast
    refine ⟨_, pllStop_of_waiting dt hwait hpll, ?_⟩
    rw [hsince]
    split
    · exact ⟨rfl, fun _ => rfl, rfl, rfl⟩
    · exact ⟨rfl, fun _ => rfl, rfl, hpll⟩
  · refine ⟨_, pllStop_of_busy dt fun hwait => ?_, rfl⟩
    obtain ⟨hrun, hgiven⟩ := s.seWait_iff.mp hwait c hc
    exact hbusy.elim (· hrun) (· hgiven)
  · exact ⟨_, pllRestartDone_of_restarting dt hpll, rfl, rfl, fun _ => rfl, rfl⟩
  · have hcause : ((s.elapse dt).unitReset (some 1) 0).reg R.SYS_RESET_CAUSE = w32 1 := State.unitReset_ureg _ (some 1) 0 (by decide)
    refine ⟨_, mainsInRange_of_keep hmode hdt, ?_, ?_, ?_, ?_, State.unitReset_mram _ _ _, State.unitReset_cores _ _ _,
      State.unitReset_rdByte _ _ _, State.unitReset_now _ _ _, State.unitReset_pending _ _ _⟩
    · rw [State.unitReset_sys]; rfl
    · rw [State.unitReset_sys]; exact hmode
    · rw [State.unitReset_sys]
    · rw [State.fld, show F.SYS_RESET_CAUSE.CAUSE.off = R.SYS_RESET_CAUSE from rfl, hcause]; rfl

/-! ## The warning and the steps of a power failure (R65, R66) -/

/-- The warning is latched, and steps 1 to 5 begin (R65). -/
theorem powerFailWarning_eq {s : State} (hw : s.sys.warnAt = none) (hp : s.sys.powerGood = true) (hm : s.sys.mode ≠ .keep) :
    ∃ data, exec .powerFailWarning s = .next ((({ s with sys := { s.sys with warnAt := some s.now } } : State).linesMoved
      s.dutyLines).ringLog 0x0002 0xFF data).abandonUpdate.accPowerFail.capPowerFail :=
  ⟨_, if_neg (by simp [hw, hp, hm])⟩

/-- 50 ms after the warning the cores are stopped, with the outputs safe. -/
theorem powerFailOutputsSafe_of_due {s : State} {dt w : Nat} (hw : s.sys.warnAt = some w) (hdue : 60000000 ≤ s.now + dt - w)
    (hon : s.sys.coresOff = false) : ∃ u : State, u.sys = { s.sys with coresOff := true } ∧
      exec (.powerFailOutputsSafe dt) s = .next (u.driveChanged s.drive).modeCores.dpPowerFail := by
  have hw' : (s.elapse dt).sys.warnAt = some w := hw
  have hnow : (s.elapse dt).now = s.now + dt := rfl
  have hon' : (s.elapse dt).sys.coresOff = false := hon
  have hlate : ¬ (decide ((s.elapse dt).now - w < 50 * 1200000) || (s.elapse dt).sys.coresOff) = true := by
    rw [hnow, hon', Bool.or_false, decide_eq_true_eq]
    omega
  refine ⟨{ s.elapse dt with sys := { (s.elapse dt).sys with coresOff := true } }, rfl, ?_⟩
  show execPowerFailOutputsSafe dt s = _
  unfold execPowerFailOutputsSafe
  dsimp only
  split
  next h => exact absurd (hw'.symm.trans h) (by simp)
  next t h =>
    obtain rfl : w = t := Option.some.inj (hw'.symm.trans h)
    exact if_neg hlate

/-- With the cores stopped and the outputs and data ports settled, no core runs and mode control stands. -/
theorem coresStopped_off {u : State} (old : Drive) (h : u.sys.coresOff = true) :
    let t := (u.driveChanged old).modeCores.dpPowerFail
    t.sys = u.sys ∧ ∀ c < 21, (t.core c).run = .off := by
  have hdrive := u.driveChanged_steady old
  obtain ⟨hcores, hoff⟩ := State.modeCores_allOff (s := u.driveChanged old) (.inr (by rw [hdrive.sys, h]))
  have hport := (u.driveChanged old).modeCores.dpPowerFail_steady
  refine ⟨(hport.sys.trans hcores.sys).trans hdrive.sys, fun c hc => ?_⟩
  rw [State.core_congr hport.cores]
  exact hoff c hc

/-- 70 ms after it the unit enters M0, and its rails go. -/
theorem powerGoodLost_of_due {s : State} {dt w : Nat} (hw : s.sys.warnAt = some w) (hdue : 84000000 ≤ s.now + dt - w) :
    ∃ u t : State, exec (.powerGoodLost dt) s = .next t ∧ t.tim = (u.enterMode .keep false 2).tim ∧
      t.cores = (u.enterMode .keep false 2).cores ∧
      t.sys = { (u.enterMode .keep false 2).sys with powerGood := false, warnAt := none } := by
  have hw' : (s.elapse dt).sys.warnAt = some w := hw
  have hnow : (s.elapse dt).now = s.now + dt := rfl
  show ∃ u t : State, execPowerGoodLost dt s = _ ∧ _
  unfold execPowerGoodLost
  dsimp only
  split
  next h => exact absurd (hw'.symm.trans h) (by simp)
  next c h =>
    obtain rfl : w = c := Option.some.inj (hw'.symm.trans h)
    rw [if_neg (by rw [hnow]; omega)]
    exact ⟨_, _, rfl, rfl, rfl, rfl⟩

/-! ## The waits of a Boot (R62, R493) -/

/-- A transition that begins changes nothing else of mode control. -/
theorem State.beginTrans_frame (s : State) (m : Mode) (cause : Nat) : (s.beginTrans m cause).now = s.now ∧
    (s.beginTrans m cause).sys = { s.sys with trans := (s.beginTrans m cause).sys.trans } := by
  unfold State.beginTrans
  dsimp only
  split
  · split <;> simp
  · split_ifs <;> simp

theorem State.bootAct_frame (s : State) : s.bootAct.now = s.now ∧ s.bootAct.sys = { s.sys with trans := s.bootAct.sys.trans } := by
  unfold State.bootAct
  split
  · exact ⟨rfl, rfl⟩
  next m _ =>
    obtain ⟨hnow, hsys⟩ := (s.setFld F.SYS_MODE_STATUS.TARGET m.num).beginTrans_frame m 1
    exact ⟨hnow.trans (by simp), hsys.trans (by simp)⟩

theorem State.startGlade_frame (s : State) : s.startGlade.now = s.now ∧ s.startGlade.sys = { s.sys with gladeUp := true } := by
  unfold State.startGlade
  split
  next h => exact ⟨rfl, by rw [← h]⟩
  · simp

/-- The Glade may start and a transition begin, and nothing else of mode control changes. -/
theorem State.timeReady_frame (s : State) : s.timeReady.now = s.now ∧
    s.timeReady.sys = { s.sys with gladeUp := s.timeReady.sys.gladeUp, trans := s.timeReady.sys.trans } := by
  unfold State.timeReady
  extract_lets t
  obtain ⟨hnow, hsys⟩ := t.bootAct_frame
  have ht : t.now = s.now ∧ t.sys = { s.sys with gladeUp := t.sys.gladeUp } := by
    dsimp only [t]
    split
    · obtain ⟨hnow, hsys⟩ := s.startGlade_frame
      exact ⟨hnow, by rw [hsys]⟩
    · exact ⟨rfl, rfl⟩
  refine ⟨hnow.trans ht.1, ?_⟩
  rw [hsys, ht.2]

theorem bootTimewaitExpire_of_due {s : State} {dt b : Nat} (h7 : s.sys.t7At = some b) (hup : s.sys.timeWaitUp = false)
    (hdue : s.fld F.SYS_BOOT_TIMEWAIT.SECONDS * 1200000000 ≤ s.now + dt - b) : exec (.bootTimewaitExpire dt) s =
      .next ({ s.elapse dt with sys := { (s.elapse dt).sys with timeWaitUp := true } } : State).timeReady := by
  have h7' : (s.elapse dt).sys.t7At = some b := h7
  show execBootTimewaitExpire dt s = _
  unfold execBootTimewaitExpire
  dsimp only
  split
  next h => exact absurd (h7'.symm.trans h) (by simp)
  next c h =>
    obtain rfl : b = c := Option.some.inj (h7'.symm.trans h)
    refine if_pos ?_
    rw [Bool.and_eq_true, decide_eq_true_eq, Bool.not_eq_true']
    exact ⟨hdue, hup⟩

theorem pairBootWaitExpire_of_due {s : State} {dt b : Nat} (h7 : s.sys.t7At = some b) (hp : s.paired = true) (hh : s.xng.hb = none)
    (hdue : s.fld F.XNG_TIMING.BOOT_WAIT_S * 1200000000 ≤ s.now + dt - b) : exec (.pairBootWaitExpire dt) s =
      .next ({ s.elapse dt with sys := { (s.elapse dt).sys with pairWaitUp := true } } : State).bootAct := by
  have h7' : (s.elapse dt).sys.t7At = some b := h7
  show execPairBootWaitExpire dt s = _
  unfold execPairBootWaitExpire
  dsimp only
  split
  next h => exact absurd (h7'.symm.trans h) (by simp)
  next c h =>
    obtain rfl : b = c := Option.some.inj (h7'.symm.trans h)
    refine if_pos ?_
    rw [Bool.and_eq_true, Bool.and_eq_true, decide_eq_true_eq]
    exact ⟨⟨hp, by rw [State.elapse_xng, hh]; rfl⟩, hdue⟩

/-! ## A wake (R64, R481) -/

theorem State.fld_congr {s t : State} {f : Fld} (h : t.reg f.off = s.reg f.off) : t.fld f = s.fld f := by
  rw [State.fld, h, State.fld]

theorem State.flag_congr {s t : State} {f : Fld} (h : t.reg f.off = s.reg f.off) : t.flag f = s.flag f := by
  rw [State.flag, State.fld_congr h, State.flag]

/-- A Ring Log record leaves every register alone but the flag of a lost one. -/
theorem State.reg_ringLog (s : State) (type origin : Nat) (data : List Byte) {off : Nat} (h : off ≠ R.UND_INT_STATUS) :
    (s.ringLog type origin data).reg off = s.reg off := by
  have hbump (s : State) (k : Nat) : (s.bump k).reg off = s.reg off := by simp [State.reg]
  have hund (s : State) (x : Und) : ({ s with und := x } : State).reg off = s.reg off := rfl
  unfold State.ringLog
  dsimp only
  refine both_arms (fun t : State => t.reg off = s.reg off) ?_ ?_
  · rw [hund, hbump]
  · rw [hund, State.raise, State.reg_setFld_ne _ _ _ _ h, hbump, hbump]

theorem State.slotFire_later {s : State} (k : Nat) (h : s.fld F.IC_WAKE_CAUSE.FIRED ≠ 0) :
    s.slotFire k = s.setFld ⟨R.IC_WAKE_CAUSE, k, k⟩ 1 := if_neg h

/-- The first firing latches its slot (R481). -/
theorem State.slotFire_first {s : State} {k : Nat} (hk : k < 16) (h : s.fld F.IC_WAKE_CAUSE.FIRED = 0) :
    (s.slotFire k).fld F.IC_WAKE_CAUSE.FIRST = k ∧ (s.slotFire k).flag F.IC_WAKE_CAUSE.VALID = true := by
  have hlog (t : State) (o : Nat) (d : List Byte) (f : Fld) (hf : f.off ≠ R.UND_INT_STATUS) : (t.ringLog 0x0006 o d).fld f = t.fld f :=
    State.fld_congr (t.reg_ringLog _ _ _ hf)
  unfold State.slotFire
  dsimp only
  rw [if_pos h]
  constructor
  · rw [hlog _ _ _ _ (by decide), State.raise, State.fld_setFld_ne _ _ _ _ (by decide) (.inr (.inl (by decide))),
      State.fld_setFld_same _ _ _ (by decide)]
    exact Nat.mod_eq_of_lt hk
  · rw [State.flag, hlog _ _ _ _ (by decide)]
    exact State.flag_raise _ _ (by decide) rfl

theorem State.slotFire_keeps (s : State) (k : Nat) : (s.slotFire k).sys = s.sys ∧ (s.slotFire k).mem = s.mem := by
  unfold State.slotFire
  dsimp only
  split <;> simp

theorem wakeSourceFired_later {s : State} {k : BitVec 4} (hd : s.slotDue k.toNat = true) (h : s.fld F.IC_WAKE_CAUSE.FIRED ≠ 0) :
    exec (.wakeSourceFired k) s = .next (s.slotFire k.toNat) := by
  show execWakeSourceFired k s = _
  simp [execWakeSourceFired, hd, h]

theorem wakeSourceFired_first {s : State} {k : BitVec 4} (hd : s.slotDue k.toNat = true) (h : s.fld F.IC_WAKE_CAUSE.FIRED = 0)
    (hm : s.sys.mode = .dormant) (ht : s.sys.trans = none) (hw : s.sys.warnAt = none) :
    exec (.wakeSourceFired k) s = .next ((s.slotFire k.toNat).unitReset none 0) := by
  show execWakeSourceFired k s = _
  simp [execWakeSourceFired, hd, h, (s.slotFire_keeps k.toNat).1, hm, ht, hw]

/-- R62, R64 to R66, R481, R493: power loss, the waits of a Boot and a wake. -/
theorem powerLossAndWake : PowerLossAndWake := by
  unfold PowerLossAndWake
  intro s dt
  refine ⟨fun hw hp hm => ?_, fun w hw hdue hon => ?_, fun w hw hdue => ?_, fun b h7 hup hdue => ?_, fun b h7 hp hh hdue => ?_,
    fun k hd => ⟨fun h => ?_, fun h hm ht hw => ?_⟩⟩
  · obtain ⟨data, ht⟩ := powerFailWarning_eq hw hp hm
    exact ⟨_, ht, by simp, by simp, by simp⟩
  · obtain ⟨u, hu, ht⟩ := powerFailOutputsSafe_of_due hw hdue hon
    obtain ⟨hsys, hcores⟩ := coresStopped_off (u := u) s.drive (by rw [hu])
    exact ⟨_, ht, by rw [hsys, hu], hcores, by rw [hsys, hu]⟩
  · obtain ⟨u, t, ht, htim, hcores, hsys⟩ := powerGoodLost_of_due hw hdue
    obtain ⟨hmode, hrunning, hoff⟩ := u.enterMode_keep false 2
    exact ⟨t, ht, by rw [hsys, hmode], by rw [hsys], by rw [hsys], by rw [htim, hrunning], fun c hc => by
      rw [State.core_congr hcores]; exact hoff c hc⟩
  · obtain ⟨hnow, hsys⟩ := State.timeReady_frame { s.elapse dt with sys := { (s.elapse dt).sys with timeWaitUp := true } }
    exact ⟨_, bootTimewaitExpire_of_due h7 hup hdue, by rw [hsys], hnow⟩
  · obtain ⟨hnow, hsys⟩ := State.bootAct_frame { s.elapse dt with sys := { (s.elapse dt).sys with pairWaitUp := true } }
    exact ⟨_, pairBootWaitExpire_of_due h7 hp hh hdue, by rw [hsys], hnow⟩
  · exact ⟨_, wakeSourceFired_later hd h, State.slotFire_later k.toNat h⟩
  · obtain ⟨hfirst, hvalid⟩ := s.slotFire_first k.isLt h
    obtain ⟨-, hmem⟩ := s.slotFire_keeps k.toNat
    have hcause : ((s.slotFire k.toNat).unitReset none 0).reg R.IC_WAKE_CAUSE = (s.slotFire k.toNat).reg R.IC_WAKE_CAUSE :=
      State.unitReset_ureg _ none 0 (by decide)
    refine ⟨_, wakeSourceFired_first hd h hm ht hw, ?_, ?_, ?_, ?_, ?_, fun a ha => ?_⟩
    · rw [State.unitReset_sys]; rfl
    · rw [State.unitReset_sys]
    · rw [State.unitReset_sys]; rfl
    · exact (State.fld_congr (f := F.IC_WAKE_CAUSE.FIRST) hcause).trans hfirst
    · exact (State.flag_congr (f := F.IC_WAKE_CAUSE.VALID) hcause).trans hvalid
    · rw [State.unitReset_rdByte, if_pos (by simp [ha]), State.rdByte, hmem, State.rdByte]

/-- Settles O24, by its two halves. -/
theorem powerAndClock : Obligations.PowerAndClock := ⟨clockAndMains, powerLossAndWake⟩

end Sys2Proof.Machine
end

section
/-!
SUPPORT. Writes that reach a register of SYS, and what a transition that begins and a resource named out leave alone.
-/

namespace Sys2Proof.Machine

open Sys2Proof.Safety

/-! ## Writes of SYS -/

/-- A write that reaches a register of SYS is SYS's own: no requester is barred from the block and no journal carries it. -/
theorem State.busWrite_sys {s : State} {q : Req} {off v : Nat} {d : RegD} (h : Reached s q off) (hb : off / 0x10000 = 0)
    (f : findReg off = some d) (hr : reservedHit s.sys.nominal60 d.fields v = false) :
    s.busWrite q off v = s.sysWrite q (s.gateOf q false off) d off v := by
  have hc : off < ctrlSize := by simp only [ctrlSize]; omega
  have hp : isDpReg off = false := by
    simp [isDpReg, R.HST_DP_ADDR_LO, R.HST_DP_FIFO, show ¬ 0x130100 ≤ off by omega,
      show ¬ 0x131000 ≤ off by omega]
  have hj : isJournalBlock (off / 0x10000) = false := by rw [hb]; rfl
  rw [State.busWrite_reached s q off v h hc, State.devWrite_regStep s q off v hp hj, State.regStep_sys s q off v d hb f]
  simp [State.blockWrite, hb, hr]

/-! ## Transitions and resources named out -/

/-- A transition that begins touches mode control and SYS's own registers of it. -/
theorem State.beginTrans_keeps {α : Type} (g : State → α) (hs : ∀ (s : State) x, g { s with sys := x } = g s)
    (hf : ∀ (s : State) (f : Fld) v, f.off = R.SYS_MODE ∨ f.off = R.SYS_MODE_STATUS ∨ f.off = R.SYS_INT_STATUS → g (s.setFld f v) = g s)
    (s : State) (m : Mode) (cause : Nat) : g (s.beginTrans m cause) = g s := by
  have hresult (s : State) : g (s.requestResult 7) = g s :=
    (hf _ F.SYS_INT_STATUS.REQ_DONE 1 (by decide)).trans (hf _ F.SYS_MODE_STATUS.RESULT 7 (by decide))
  have hstart (s : State) : g (({ s with sys := { s.sys with trans := some ⟨m, false, cause⟩ } } : State).setFld F.SYS_MODE.TRANSIT 1) = g s :=
    (hf _ F.SYS_MODE.TRANSIT 1 (by decide)).trans (hs s _)
  unfold State.beginTrans
  dsimp only
  split
  · exact both_arms (fun t => g t = g s) rfl (hstart s)
  next u _ =>
    refine both_arms (fun t => g t = g s) ?_ rfl
    refine (hstart _).trans (both_arms (fun t => g t = g s) (hresult s) rfl)

theorem State.judgeDegraded_keeps {α : Type} (g : State → α) (hb : ∀ (s : State) m cause, g (s.beginTrans m cause) = g s)
    (s : State) (cause : Nat) : g (s.judgeDegraded cause) = g s := by
  unfold State.judgeDegraded
  split
  · exact both_arms (fun t => g t = g s) (hb s _ _) rfl
  · exact both_arms (fun t => g t = g s) rfl (hb s _ _)
  · rfl

/-- A resource named out or in: SYS_DEGRADED takes its bit, and M7, M4 or a recovery may begin. -/
theorem State.nameOut_keeps {α : Type} (g : State → α) (hb : ∀ (s : State) m cause, g (s.beginTrans m cause) = g s)
    (he : ∀ (s : State) x, g { s with err := x } = g s) (s : State) (bit : Nat) (out : Bool) :
    g (s.nameOut bit out) = g (s.setReg R.SYS_DEGRADED (w32 (putBits (s.reg R.SYS_DEGRADED).toNat bit bit (b2n out)))) := by
  unfold State.nameOut
  extract_lets t
  exact both_arms (fun u => g u = g t) ((hb _ _ _).trans (he t _)) (State.judgeDegraded_keeps g hb t _)

theorem State.beginTrans_cores (s : State) (m : Mode) (cause : Nat) : (s.beginTrans m cause).cores = s.cores :=
  State.beginTrans_keeps (·.cores) (fun _ _ => rfl) (fun s f v _ => State.setFld_cores s f v) s m cause
theorem State.beginTrans_rbt (s : State) (m : Mode) (cause : Nat) : (s.beginTrans m cause).rbt = s.rbt :=
  State.beginTrans_keeps (·.rbt) (fun _ _ => rfl) (fun s f v _ => State.setFld_rbt s f v) s m cause

/-- Every register but those that show a transition reads as before. -/
theorem State.beginTrans_reg (s : State) (m : Mode) (cause : Nat) {off : Nat}
    (h : off ≠ R.SYS_MODE ∧ off ≠ R.SYS_MODE_STATUS ∧ off ≠ R.SYS_INT_STATUS) : (s.beginTrans m cause).reg off = s.reg off := by
  refine State.beginTrans_keeps (·.reg off) (fun _ _ => rfl) (fun s f v hf => State.reg_setFld_ne s f v off ?_) s m cause
  obtain ⟨h1, h2, h3⟩ := h
  rintro rfl
  tauto

theorem State.nameOut_cores (s : State) (bit : Nat) (out : Bool) : (s.nameOut bit out).cores = s.cores :=
  (State.nameOut_keeps (·.cores) State.beginTrans_cores (fun _ _ => rfl) s bit out).trans (State.setReg_cores s _ _)
theorem State.nameOut_rbt (s : State) (bit : Nat) (out : Bool) : (s.nameOut bit out).rbt = s.rbt :=
  (State.nameOut_keeps (·.rbt) State.beginTrans_rbt (fun _ _ => rfl) s bit out).trans (State.setReg_rbt s _ _)

end Sys2Proof.Machine
end

section
/-!
Unit resets by command and after a backup loss, and the reset of a core (O25).
-/

namespace Sys2Proof.Machine

open Sys2Proof.Safety

/-! ## Fields of a written word -/

/-- The key of a command word, its upper half. -/
theorem bitsOf_upper (v : Word) : bitsOf v.toNat 31 16 = v.toNat / 65536 := by
  have hv := v.isLt
  simp only [bitsOf, Nat.shiftRight_eq_div_pow, Nat.reduceAdd, Nat.reduceSub, Nat.reducePow]
  omega

theorem bitsOf_low (v n : Nat) : bitsOf v n 0 = v % 2 ^ (n + 1) := by simp [bitsOf]

/-! ## SYS_RESET and the backup loss (R67, R76, R573) -/

/-- SYS_RESET in the map. -/
def sysResetReg : RegD := ⟨R.SYS_RESET, 1, 0x0, 1, 0x0, .plain, [⟨31, 16, .wo, .any⟩, ⟨1, 0, .wo, .any⟩]⟩

theorem State.busWrite_reset {s : State} {q : Req} (v : Nat) (h : Reached s q R.SYS_RESET) :
    s.busWrite q R.SYS_RESET v = s.resetWrite q v := by
  have hsys (g : Gate) : s.sysWrite q g sysResetReg R.SYS_RESET v = s.resetWrite q v := by
    rw [State.sysWrite, if_neg (by decide), if_pos rfl]
  rw [State.busWrite_sys (d := sysResetReg) h (by decide) (by decide) rfl, hsys]

theorem State.resetWrite_barred {s : State} {q : Req} (v : Word) (h : s.mayCommand q = false) :
    s.resetWrite q v.toNat = s.refuse q 4 R.SYS_RESET := by
  simp [State.resetWrite, h]

theorem State.resetWrite_otherKey {s : State} {q : Req} {v : Word} (h : s.mayCommand q = true) (hk : v.toNat / 65536 ≠ 0x5253) :
    s.resetWrite q v.toNat = s := by
  simp [State.resetWrite, h, bitsOf_upper, hk]

theorem State.resetWrite_taken {s : State} {q : Req} {v : Word} (h : s.mayCommand q = true) (hk : v.toNat / 65536 = 0x5253)
    (hkind : v.toNat % 4 = 1) (hm : s.mayReset = true) :
    s.resetWrite q v.toNat = s.commandedReset (if q = .host then 2 else 3) := by
  have hw : v.toNat / 65536 ≠ 0x5253 ↔ False := by simp [hk]
  cases q <;> simp [State.resetWrite, h, bitsOf_upper, hw, bitsOf_low, hkind, hm]

theorem State.fld_resetCause {s : State} {n : Nat} (h : s.reg R.SYS_RESET_CAUSE = w32 n) (hn : n < 16) :
    s.fld F.SYS_RESET_CAUSE.CAUSE = n := by
  rw [State.fld, show F.SYS_RESET_CAUSE.CAUSE.off = R.SYS_RESET_CAUSE from rfl, h]
  simp only [F.SYS_RESET_CAUSE.CAUSE, bitsOf_low, w32, BitVec.toNat_ofNat]
  omega

/-- A unit reset with a cause of its own records it. -/
theorem State.unitReset_cause (s : State) {n : Nat} (hn : n < 16) (step : Nat) :
    (s.unitReset (some n) step).fld F.SYS_RESET_CAUSE.CAUSE = n :=
  State.fld_resetCause (State.unitReset_ureg s (some n) step (by decide)) hn

/-- What a commanded reset resets from: M10 erases slot 15 and clears the tamper latch first (R564). -/
theorem State.commandedReset_eq (s : State) (cause : Nat) : ∃ u : State, u.sys = s.sys ∧
    u.mram = (if s.sys.mode = .lockdown then s.mram.eraseKey 15 else s.mram) ∧
    s.commandedReset cause = u.unitReset (some (if s.sys.mode = .lockdown then 6 else cause)) 1 := by
  unfold State.commandedReset
  split
  · exact ⟨({ s with mram := s.mram.eraseKey 15 } : State).setReg R.SEC_TAMPER_LATCH 0, State.setReg_sys _ _ _,
      State.setReg_mram _ _ _, rfl⟩
  · exact ⟨s, rfl, rfl, rfl⟩

/-! ## SYS_CORE_RESET (R67, R76, R526) -/

/-- A value that neither the entries of a sparse map nor its default hold is never read. -/
theorem mget_ne_of_entries {α : Type} {d v : α} {m : SMap α} (hm : ∀ x ∈ m, x.2 ≠ v) (hd : d ≠ v) (k : Nat) : mget d m k ≠ v := by
  unfold mget
  induction m with
  | nil => exact hd
  | cons x t ih =>
    obtain ⟨j, w⟩ := x
    have hw : w ≠ v := hm _ (List.mem_cons_self ..)
    have ht := ih fun y hy => hm y (List.mem_cons_of_mem _ hy)
    unfold mapGet
    split_ifs
    · exact hw
    · exact ht

theorem State.lock_releaseLocks_ne (s : State) (agent n : Nat) : (s.releaseLocks agent).lock n ≠ agent + 1 :=
  mget_ne_of_entries (fun _ hx => by simpa using (List.mem_filter.mp hx).2) (Nat.succ_ne_zero agent).symm n

/-- An abort of a context's burst leaves the queues, mailboxes and locks alone. -/
theorem State.dpAbort_rbt (s : State) (k : Nat) : (s.dpAbort k).rbt = s.rbt := by
  have hmsix (s : State) (n : Nat) : (s.msix n).rbt = s.rbt := by unfold State.msix; split <;> simp
  have hvector (s : State) (done : Bool) : (s.dpVector k done).rbt = s.rbt := by
    unfold State.dpVector; dsimp only; split_ifs <;> simp [hmsix]
  have hprogram (s : State) : (s.dpProgram k).rbt = s.rbt := by unfold State.dpProgram; dsimp only; split <;> simp
  have herror (s : State) (code : Nat) : (s.dpError k code).rbt = s.rbt := by
    unfold State.dpError; dsimp only; split <;> simp [hvector]
  have hended (s : State) : (s.dpEnded k).rbt = s.rbt := by unfold State.dpEnded; dsimp only; split <;> simp [hvector]
  unfold State.dpAbort
  dsimp only
  split
  · rfl
  · simp [hended, herror, hprogram]

/-- A core started in its own state leaves every other alone. -/
theorem State.core_startCore (s : State) (c : Nat) (entry : DWord) (d : Nat) : (s.startCore c entry).core d =
    if d = c then { coreReset c with run := .run, pc := entry, upAt := s.now, kickAt := s.now } else s.core d := by
  have hpll : (if c < 16 then s.pllRequest else s).core d = s.core d :=
    State.core_congr (both_arms (fun t : State => t.cores = s.cores) s.pllRequest_cores rfl) d
  unfold State.startCore
  rw [State.core_setCore, hpll]

/-- What a core was doing ends: its task, its locks, its interrupts and its batch. -/
def State.coreEnds (s : State) (c : Nat) : State := (((s.abortTask c).releaseLocks c).icCoreReset c).abandonBatch c

/-- A core is reset, and starts again if it was not off; its data port context is aborted and it is named out. -/
def State.coreRestarts (s : State) (c : Nat) : State :=
  let s1 := (s.setCore c (coreReset c)).setFld ⟨R.ERR_CORE_UP, c, c⟩ 0
  let s2 := if (s.core c).run != .off then s1.startCore c (s1.entryOf c) else s1
  let s3 := if 16 ≤ c then s2.dpAbort (c - 15) else s2
  s3.nameOut (coreOutBit c) true

theorem State.resetCore_eq (s : State) (c : Nat) : s.resetCore c = (s.coreEnds c).coreRestarts c := rfl

/-- Of the cores only their own tasks go, and the core owns no lock. -/
theorem State.coreEnds_effect (s : State) (c : Nat) :
    (s.coreEnds c).cores = (s.setCore c { s.core c with task := none, given := none }).cores ∧
      ∀ n, (s.coreEnds c).lock n ≠ c + 1 := by
  have hic (s : State) : (s.icCoreReset c).cores = s.cores ∧ (s.icCoreReset c).rbt = s.rbt := by
    unfold State.icCoreReset
    dsimp only
    refine List.foldlRecOn (motive := fun t : State => t.cores = s.cores ∧ t.rbt = s.rbt) _ _ (by simp) fun t ht x _ => ?_
    simpa using ht
  have hbatch (s : State) : (s.abandonBatch c).cores = s.cores ∧ (s.abandonBatch c).rbt = s.rbt := by simp [State.abandonBatch]
  obtain ⟨-, -, -, habort⟩ := s.abortTask_steady c
  have hlocks : ((s.abortTask c).releaseLocks c).cores = (s.abortTask c).cores := by simp [State.releaseLocks]
  refine ⟨(hbatch _).1.trans ((hic _).1.trans (hlocks.trans habort)), fun n => ?_⟩
  rw [State.lock, State.coreEnds, (hbatch _).2, (hic _).2]
  exact State.lock_releaseLocks_ne _ c n

theorem State.startCore_rbt (s : State) (c : Nat) (entry : DWord) : (s.startCore c entry).rbt = s.rbt := by
  unfold State.startCore
  rw [State.setCore_rbt]
  split <;> simp

/-- A restarted core is as after reset, running from its image's entry if it was not off; the others and the locks stand. -/
theorem State.coreRestarts_cores (s : State) (c : Nat) : ∃ (pc : DWord) (at' : Nat), ∀ d, (s.coreRestarts c).core d =
    if d = c then (if (s.core c).run = .off then coreReset c
      else { coreReset c with run := .run, pc := pc, upAt := at', kickAt := at' }) else s.core d := by
  unfold State.coreRestarts
  extract_lets s1 s2 s3
  have h1 (d : Nat) : s1.core d = if d = c then coreReset c else s.core d := by
    rw [State.core_congr (State.setFld_cores _ _ _), State.core_setCore]
  have h3 (d : Nat) : s3.core d = s2.core d := by
    dsimp only [s3]
    split
    · exact State.core_congr (s2.dpAbort_steady (c - 15)).cores d
    · rfl
  refine ⟨s1.entryOf c, s1.now, fun d => ?_⟩
  rw [State.core_congr (s3.nameOut_cores _ _), h3]
  by_cases hoff : (s.core c).run = .off
  · rw [if_pos hoff, ← h1]
    simp [s2, hoff]
  · rw [if_neg hoff, show s2 = s1.startCore c (s1.entryOf c) from if_pos (by simpa using hoff), State.core_startCore, h1]
    split <;> rfl

theorem State.coreRestarts_rbt (s : State) (c : Nat) : (s.coreRestarts c).rbt = s.rbt := by
  unfold State.coreRestarts
  dsimp only
  rw [State.nameOut_rbt]
  split_ifs <;> simp [State.dpAbort_rbt, State.startCore_rbt]

/-- A resource named out shows in SYS_DEGRADED, whatever mode that leads to. -/
theorem State.nameOut_shows (s : State) {bit : Nat} (h : bit < 32) :
    bitOf ((s.nameOut bit true).reg R.SYS_DEGRADED).toNat bit = true := by
  have hlt := putBits_lt (s.reg R.SYS_DEGRADED).toNat bit bit (b2n true) 32 h (s.reg R.SYS_DEGRADED).isLt
  have hreg := State.nameOut_keeps (·.reg R.SYS_DEGRADED) (fun s m cause => s.beginTrans_reg m cause (by decide)) (fun _ _ => rfl) s bit true
  simp only [State.reg_setReg_same] at hreg
  rw [hreg, w32, BitVec.toNat_ofNat, Nat.mod_eq_of_lt hlt, bitOf, testBit_putBits]
  simp [b2n]

/-- The reset of a core (R67, R526). -/
theorem State.resetCore_effect (s : State) {c : Nat} (hc : c < 20) : let t := s.resetCore c
    ((t.core c).run = if (s.core c).run = .off then .off else .run) ∧ (t.core c).task = none ∧ (t.core c).given = none ∧
      (∀ n, t.lock n ≠ c + 1) ∧ bitOf (t.reg R.SYS_DEGRADED).toNat (coreOutBit c) = true ∧ ∀ d, d ≠ c → t.core d = s.core d := by
  rw [State.resetCore_eq]
  obtain ⟨hends, hlock⟩ := s.coreEnds_effect c
  obtain ⟨pc, at', hcore⟩ := (s.coreEnds c).coreRestarts_cores c
  have hbit : coreOutBit c < 32 := by unfold coreOutBit; split <;> omega
  have hends (d : Nat) := State.core_congr hends d
  have hrun : ((s.coreEnds c).core c).run = (s.core c).run := by rw [hends, State.core_setCore_same]
  refine ⟨?_, ?_, ?_, fun n => ?_, ?_, fun d hd => ?_⟩
  · rw [hcore, if_pos rfl, hrun]
    split <;> rfl
  · rw [hcore, if_pos rfl]
    split <;> rfl
  · rw [hcore, if_pos rfl]
    split <;> rfl
  · rw [State.lock, State.coreRestarts_rbt]
    exact hlock n
  · exact State.nameOut_shows _ hbit
  · rw [hcore, if_neg hd, hends, State.core_setCore, if_neg hd]

/-- SYS_CORE_RESET in the map. -/
def sysCoreResetReg : RegD := ⟨R.SYS_CORE_RESET, 1, 0x0, 1, 0x0, .plain, [⟨19, 0, .wo, .any⟩]⟩

theorem State.busWrite_coreReset {s : State} {q : Req} (v : Nat) (h : Reached s q R.SYS_CORE_RESET) :
    s.busWrite q R.SYS_CORE_RESET v = s.coreResetWrite q v := by
  have hsys (g : Gate) : s.sysWrite q g sysCoreResetReg R.SYS_CORE_RESET v = s.coreResetWrite q v := rfl
  rw [State.busWrite_sys (d := sysCoreResetReg) h (by decide) (by decide) rfl, hsys]

/-- A write with one core's bit resets that core. -/
theorem State.coreResetWrite_one {s : State} {q : Req} (h : s.isHolder q = true) {c : Nat} (hc : c < 20) :
    s.coreResetWrite q (2 ^ c) = s.resetCore c := by
  have hone : ∀ c < 20, (List.range 20).filter (bitOf (2 ^ c)) = [c] := by decide
  simp only [State.coreResetWrite, h, Bool.not_true, Bool.false_eq_true, if_false]
  rw [← List.foldl_filter, hone c hc]
  rfl

/-- Settles O25: each write is its register's own, and the reset or the core's restart is read off what it does. -/
theorem resets : Obligations.Resets := by
  unfold Obligations.Resets
  intro s q v
  refine ⟨fun h => ⟨fun hm => ?_, fun hm hk => ?_, fun hm hk hkind hr => ?_⟩, fun hmode => ?_,
    fun h => ⟨fun hq => ?_, fun c hc hq hv => ?_⟩⟩
  · exact ⟨_, rfl, (State.busWrite_reset _ h).trans (State.resetWrite_barred v hm)⟩
  · exact ⟨_, rfl, (State.busWrite_reset _ h).trans (State.resetWrite_otherKey hm hk)⟩
  · obtain ⟨u, husys, humram, hu⟩ := s.commandedReset_eq (if q = .host then 2 else 3)
    refine ⟨_, rfl, ?_⟩
    rw [State.busWrite_reset _ h, State.resetWrite_taken hm hk hkind hr, hu]
    refine ⟨?_, ?_, ?_, State.unitReset_cores _ _ _, State.unitReset_rdByte _ _ _, State.unitReset_cause _ ?_ _, ?_⟩
    · rw [State.unitReset_sys]; rfl
    · rw [State.unitReset_sys, husys]
    · rw [State.unitReset_sys]
    · split_ifs <;> decide
    · rw [State.unitReset_mram, humram]
  · refine ⟨_, if_pos hmode, ?_, ?_, ?_, ?_, State.unitReset_mram _ _ _⟩
    · rw [State.backupLoss, State.unitReset_sys]; rfl
    · rw [State.backupLoss, State.unitReset_sys]
    · exact State.unitReset_cause _ (by decide) _
    · exact State.dropLines_keeps (·.und.invalid) (fun _ _ => rfl) _ _
  · refine ⟨_, rfl, (State.busWrite_coreReset _ h).trans ?_⟩
    simp only [State.coreResetWrite, hq, Bool.not_false, if_true]
    rfl
  · refine ⟨_, rfl, ?_⟩
    rw [State.busWrite_coreReset _ h, hv, State.coreResetWrite_one hq hc]
    exact s.resetCore_effect hc

end Sys2Proof.Machine
end

section
/-!
SUPPORT. A frame for side work: local time, mode control and the registers and counters at chosen offsets stand, whatever else changes.
-/

namespace Sys2Proof.Machine

/-- Local time stands, mode control stands but for the PLL and the start of the Glade, and so does every register and counter at an
offset in `K`. -/
structure Leaves (K : Nat → Prop) (s t : State) : Prop where
  now : t.now = s.now
  sys : t.sys = { s.sys with pll := t.sys.pll, gladeUp := t.sys.gladeUp }
  reg : ∀ off, K off → t.reg off = s.reg off
  cnt : ∀ k, K k → t.cnt k = s.cnt k

namespace Leaves

variable {K : Nat → Prop} {s t u : State}

theorem refl (K : Nat → Prop) (s : State) : Leaves K s s := ⟨rfl, rfl, fun _ _ => rfl, fun _ _ => rfl⟩

theorem trans (a : Leaves K s t) (b : Leaves K t u) : Leaves K s u :=
  ⟨b.now.trans a.now, by rw [b.sys, a.sys], fun o h => (b.reg o h).trans (a.reg o h), fun k h => (b.cnt k h).trans (a.cnt k h)⟩

theorem mode (h : Leaves K s t) : t.sys.mode = s.sys.mode := by rw [h.sys]
theorem prevMode (h : Leaves K s t) : t.sys.prevMode = s.sys.prevMode := by rw [h.sys]
theorem noTrans (h : Leaves K s t) : t.sys.trans = s.sys.trans := by rw [h.sys]

theorem fld (h : Leaves K s t) (f : Fld) (hf : K f.off) : t.fld f = s.fld f := State.fld_congr (h.reg f.off hf)
theorem flag (h : Leaves K s t) (f : Fld) (hf : K f.off) : t.flag f = s.flag f := State.flag_congr (h.reg f.off hf)

/-- An update of anything but time, mode control, registers and counters. -/
theorem upd (h : Leaves K s t) (hnow : u.now = t.now := by rfl) (hsys : u.sys = t.sys := by rfl) (hregs : u.regs = t.regs := by rfl)
    (huregs : u.uregs = t.uregs := by rfl) (hwide : u.wide = t.wide := by rfl) (huwide : u.uwide = t.uwide := by rfl) : Leaves K s u :=
  h.trans ⟨hnow, by rw [hsys], fun o _ => by rw [State.reg, State.reg, hregs, huregs], fun k _ => by rw [State.cnt, State.cnt, hwide, huwide]⟩

theorem setReg (h : Leaves K s t) {off : Nat} (hk : ¬ K off) (v : Word) : Leaves K s (t.setReg off v) :=
  h.trans ⟨by simp, by simp, fun o ho => by rw [State.reg_setReg, if_neg (by rintro rfl; exact hk ho)], fun k _ => by simp [State.cnt]⟩

theorem setFld (h : Leaves K s t) {f : Fld} (hk : ¬ K f.off) (v : Nat) : Leaves K s (t.setFld f v) := h.setReg hk _

theorem raise (h : Leaves K s t) {f : Fld} (hk : ¬ K f.off) : Leaves K s (t.raise f) := h.setReg hk _

theorem setCnt (h : Leaves K s t) {k : Nat} (hk : ¬ K k) (v : DWord) : Leaves K s (t.setCnt k v) :=
  h.trans ⟨by simp, by simp, fun o _ => by simp [State.reg], fun j hj => by rw [State.cnt_setCnt, if_neg (by rintro rfl; exact hk hj)]⟩

theorem bumpBy (h : Leaves K s t) {k : Nat} (hk : ¬ K k) (n : Nat) : Leaves K s (t.bumpBy k n) :=
  h.trans ⟨by simp, by simp, fun o _ => by simp [State.reg], fun j hj => by rw [State.cnt_bumpBy, if_neg (by rintro rfl; exact hk hj)]⟩

theorem bump (h : Leaves K s t) {k : Nat} (hk : ¬ K k) : Leaves K s (t.bump k) := h.bumpBy hk 1

theorem ite {c : Prop} [Decidable c] (h : Leaves K s t) (g : Leaves K s u) : Leaves K s (if c then t else u) :=
  both_arms (Leaves K s) h g

/-- A pass whose every step leaves `K` alone. -/
theorem foldl {α : Type} {f : State → α → State} (hf : ∀ {t : State} (x : α), Leaves K s t → Leaves K s (f t x)) (l : List α)
    (h : Leaves K s t) : Leaves K s (l.foldl f t) := by
  induction l generalizing t with
  | nil => exact h
  | cons x l ih => exact ih (hf x h)

/-- A record of the Ring Log touches registers and counters of the Understory alone. -/
theorem ringLog (h : Leaves K s t) (hK : ∀ off, K off → off / 0x10000 ≠ 17) (type origin : Nat) (data : List Byte) :
    Leaves K s (t.ringLog type origin data) := by
  have hund {k : Nat} (hk : k / 0x10000 = 17) : ¬ K k := fun a => hK k a hk
  unfold State.ringLog
  dsimp only
  have h1 : Leaves K s (t.bump R.UND_U_RL_REQUESTED) := h.bump (hund (by decide))
  refine ite h1.upd (upd (t := ((t.bump R.UND_U_RL_REQUESTED).bump R.UND_U_RL_LOST).raise F.UND_INT_STATUS.RL_LOST) ?_)
  exact (h1.bump (hund (by decide))).raise (hund (by decide))

/-! ## Transmit buffers (R88 to R92) -/

theorem settleHold (h : Leaves K s t) (hK : ∀ off, K off → off / 0x10000 ≠ 4) (p : Nat) : Leaves K s (t.settleHold p) := by
  have hp : ¬ K (pcnt R.NET_TX_PAUSED_NS p) := fun a => hK _ a (by
    have : netWin p ≤ 0xC000 := by unfold netWin; split <;> omega
    simp only [pcnt, R.NET_TX_PAUSED_NS]
    omega)
  unfold State.settleHold
  split
  · exact h
  · exact bumpBy h.upd hp _

theorem armHold (h : Leaves K s t) (p : Nat) : Leaves K s (t.armHold p) := ite h.upd h

theorem txQueue (h : Leaves K s t) (hK : ∀ off, K off → off / 0x10000 ≠ 4) (p : Nat) (f : TxFrame) : Leaves K s (t.txQueue p f) :=
  armHold (upd (h.settleHold hK p)) p

end Leaves

end Sys2Proof.Machine
end

section
/-!
SUPPORT. SYS stands while a port receives a frame (R82 to R89): what the receive path counts and flags is NET's and TIM's.
-/

namespace Sys2Proof.Machine

open Sys2Proof.Safety

/-- An offset of SYS. -/
@[reducible] def sysBlock (off : Nat) : Prop := off < 0x10000

theorem sysBlock_apart {b : Nat} (hb : b ≠ 0) : ∀ off, sysBlock off → off / 0x10000 ≠ b := by
  intro off h
  unfold sysBlock at h
  omega

theorem not_sysBlock_add {r : Nat} (h : ¬ sysBlock r) (n : Nat) : ¬ sysBlock (r + n) := fun a => h (by unfold sysBlock at *; omega)

namespace Leaves

variable {s t : State}

theorem pbump (h : Leaves sysBlock s t) {r : Nat} (hr : ¬ sysBlock r) (p : Nat) : Leaves sysBlock s (t.pbump p r) :=
  h.bump (not_sysBlock_add hr _)

theorem praise (h : Leaves sysBlock s t) {f : Fld} (hf : ¬ sysBlock f.off) (p : Nat) : Leaves sysBlock s (t.praise p f) :=
  h.raise (f := f.at (netWin p)) (not_sysBlock_add hf _)

theorem pauseRx (h : Leaves sysBlock s t) (p quanta : Nat) : Leaves sysBlock s (t.pauseRx p quanta) := by
  unfold State.pauseRx
  split
  · extract_lets t1 was x t2 t3
    have h1 : Leaves sysBlock s t1 := h.settleHold (sysBlock_apart (by decide)) p
    have h2 : Leaves sysBlock s t2 := pbump h1.upd (by decide) p
    exact armHold (ite (h2.praise (by decide) p) h2) p
  · exact h.pbump (by decide) p

theorem macControl (h : Leaves sysBlock s t) (p : Nat) (l : List Byte) : Leaves sysBlock s (t.macControl p l) :=
  ite (h.pauseRx p _) (h.pbump (by decide) p)

theorem deliverFrame (h : Leaves sysBlock s t) (p : Nat) (truncated : Bool) (arrival : Nat) (l : List Byte) :
    Leaves sysBlock s (t.deliverFrame p truncated arrival l) :=
  ite (upd (bump (h.pbump (r := R.NET_RX_TO_TIMEBASE) (by decide) p) (k := R.TIM_PTP_RX) (by decide))) h.upd

/-- A frame that MACsec discards is counted by a counter of its port. -/
theorem secReceive_fails_net (t : State) (p : Nat) (truncated : Bool) (l : List Byte) :
    ∀ r, t.secReceive p truncated l = .fail r → ¬ sysBlock r := by
  have hfail {n : Nat} (hn : ¬ sysBlock n) : ∀ r, SecResult.fail n = .fail r → ¬ sysBlock r :=
    fun _ e => SecResult.fail.inj e ▸ hn
  fun_cases State.secReceive t p truncated l
  case case7 => exact fun _ e => SecResult.noConfusion e
  all_goals exact hfail (by decide)

theorem rxFilter (h : Leaves sysBlock s t) (p : Nat) (truncated : Bool) (arrival : Nat) (l : List Byte) :
    Leaves sysBlock s (t.rxFilter p truncated arrival l) := by
  unfold State.rxFilter
  extract_lets vlan
  have hvlan {u : State} (hu : Leaves sysBlock s u) (l : List Byte) : Leaves sysBlock s (vlan u l) :=
    ite (hu.deliverFrame p truncated arrival l) (hu.pbump (by decide) p)
  refine ite (h.pbump (by decide) p) (ite ?_ (hvlan h l))
  split
  next r hr => exact (h.pbump (secReceive_fails_net t p truncated l r hr) p).pbump (by decide) p
  · exact hvlan h.upd _

theorem rxStored (h : Leaves sysBlock s t) (p : Nat) (pcsError : Bool) (arrival : Nat) (wire : List Byte) :
    Leaves sysBlock s (t.rxStored p pcsError arrival wire) := by
  unfold State.rxStored
  extract_lets t1 maxLen truncated kept t2 body
  have h1 : Leaves sysBlock s t1 := h.pbump (by decide) p
  have h2 : Leaves sysBlock s t2 := ite ((h1.pbump (by decide) p).praise (by decide) p) h1
  exact ite ((h1.pbump (by decide) p).praise (by decide) p) (ite (h2.pbump (by decide) p) (ite (h2.pbump (by decide) p)
    (ite (h2.pbump (by decide) p) (ite (h2.macControl p body) (h2.rxFilter p truncated arrival body)))))

end Leaves

end Sys2Proof.Machine
end

section
/-!
Test sessions: injected frames and the session watchdog (O28).
-/

namespace Sys2Proof.Machine

open Sys2Proof.Safety

/-! ## Injection (R73) -/

theorem counted_bump (s : State) (k : Nat) : Counted s (s.bump k) k 1 := by
  have hk := (s.cnt k).isLt
  have hlt : min ((s.cnt k).toNat + 1) (2 ^ 64 - 1) < 2 ^ 64 := by omega
  rw [Counted, State.cnt_bump, if_pos rfl, w64, BitVec.toNat_ofNat, Nat.mod_eq_of_lt hlt, Nat.min_comm]
  rfl

/-- A count stands between states that agree on its counter. -/
theorem counted_of_eq {s s' t t' : State} {k n : Nat} (h : Counted s' t' k n) (hs : s'.cnt k = s.cnt k) (ht : t.cnt k = t'.cnt k) :
    Counted s t k n := by
  rw [Counted, ht, ← hs]
  exact h

theorem injectDescriptor_taken {s : State} {e : QEntry} (hi : s.injects = true) (hh : s.sys.injHeld = none)
    (hp : (s.pop (s.fld F.SYS_TEST_CTRL.INJ_QUEUE) 32).2.2 = some e) (hm : e.marker = false) :
    let u := (s.pop (s.fld F.SYS_TEST_CTRL.INJ_QUEUE) 32).1
    exec .injectDescriptor s =
      .next (if injOk e.data then { u with sys := { u.sys with injHeld := some e.data } } else u.bump R.SYS_TEST_BAD) := by
  show execInjectDescriptor s = _
  unfold execInjectDescriptor
  rw [if_neg (by simp [hi, hh])]
  generalize s.pop (s.fld F.SYS_TEST_CTRL.INJ_QUEUE) 32 = r at hp ⊢
  obtain ⟨u, n, o⟩ := r
  subst hp
  simp only [hm, Bool.false_eq_true, if_false]
  split <;> rfl

/-- The held descriptor's frame is injected when its time has come. -/
theorem injectFrame_due {s : State} {dt : Nat} {e : Entry} (hi : (s.elapse dt).injects = true) (hh : s.sys.injHeld = some e)
    (hdue : injAt e = 0 ∨ gtAtOrAfter (s.elapse dt).gt (injAt e) = true) : exec (.injectFrame dt) s =
      .next (({ s.elapse dt with sys := { (s.elapse dt).sys with injHeld := none } } : State).inject e) := by
  have hh' : (s.elapse dt).sys.injHeld = some e := hh
  show execInjectFrame dt s = _
  unfold execInjectFrame
  dsimp only
  rw [if_pos hi, hh']
  exact if_pos (by simpa using hdue)

/-- A port that is stopped, or that receives nothing, takes no injected frame. -/
theorem State.inject_discarded {s : State} {e : Entry}
    (h : s.pflag (injPort e) F.NET_STATUS.STOPPED = true ∨ s.pflag (injPort e) F.NET_CTRL.RX_EN = false) :
    s.inject e = s.bump R.SYS_TEST_BAD :=
  if_pos (by simpa [State.portRuns] using h)

/-- Any other frame is counted, and its reception leaves SYS alone. -/
theorem State.inject_taken {s : State} {e : Entry} (hs : s.pflag (injPort e) F.NET_STATUS.STOPPED = false)
    (hr : s.pflag (injPort e) F.NET_CTRL.RX_EN = true) :
    Leaves sysBlock ((s.pbump (injPort e) R.NET_RX_INJECTED).bump R.SYS_TEST_INJECTED) (s.inject e) := by
  unfold State.inject
  dsimp only
  rw [if_neg (by simp [State.portRuns, hs, hr])]
  exact (Leaves.refl _ _).rxStored _ _ _ _

/-- The frame of a descriptor enters its port, or is counted as bad; the descriptor is held no longer. -/
theorem State.inject_effect {s : State} {e : Entry} (hh : s.sys.injHeld = none) : let t := s.inject e
    t.sys.injHeld = none ∧ t.now = s.now ∧ (s.pflag (injPort e) F.NET_STATUS.STOPPED = true → Counted s t R.SYS_TEST_BAD 1) ∧
      (s.pflag (injPort e) F.NET_STATUS.STOPPED = false → s.pflag (injPort e) F.NET_CTRL.RX_EN = true →
        Counted s t R.SYS_TEST_INJECTED 1) := by
  intro t
  by_cases hd : s.pflag (injPort e) F.NET_STATUS.STOPPED = true ∨ s.pflag (injPort e) F.NET_CTRL.RX_EN = false
  · have ht : t = s.bump R.SYS_TEST_BAD := State.inject_discarded hd
    rw [ht]
    refine ⟨by rw [State.bump_sys, hh], State.bump_now s _, fun _ => counted_bump s _, fun hs hr => ?_⟩
    simp [hs, hr] at hd
  · obtain ⟨hs, hr⟩ : s.pflag (injPort e) F.NET_STATUS.STOPPED = false ∧ s.pflag (injPort e) F.NET_CTRL.RX_EN = true := by
      simpa using hd
    have hrx := State.inject_taken hs hr
    refine ⟨?_, ?_, fun h => absurd h (by simp [hs]), fun _ _ => ?_⟩
    · rw [hrx.sys]
      simp [State.pbump, hh]
    · rw [hrx.now]
      simp [State.pbump]
    · refine counted_of_eq (counted_bump _ _) (s' := s.pbump (injPort e) R.NET_RX_INJECTED) ?_ (hrx.cnt _ (by decide))
      exact (Leaves.refl sysBlock s).pbump (r := R.NET_RX_INJECTED) (by decide) (injPort e) |>.cnt _ (by decide)

/-! ## The session watchdog (R75) -/

/-- SYS_TEST_WDOG in the map. -/
def testWdogReg : RegD := ⟨R.SYS_TEST_WDOG, 1, 0x0, 1, 0x0, .plain, [⟨31, 31, .wo, .any⟩, ⟨11, 0, .rw, .range 1 3600⟩]⟩

theorem State.sysWrite_testWdog (s : State) (q : Req) (g : Gate) (v : Nat) :
    s.sysWrite q g testWdogReg R.SYS_TEST_WDOG v = let t := s.plainWrite q g testWdogReg R.SYS_TEST_WDOG v
      if bitOf v 31 && s.sys.mode = .test && t.refusals = s.refusals then { t with sys := { t.sys with testWdogAt := t.now } } else t := by
  rw [State.sysWrite, if_neg (by decide), if_neg (by decide), if_neg (by decide), if_neg (by decide), if_pos rfl]

/-- In M8 no mode or requester bars SYS_TEST_WDOG, and no run control governs it. -/
theorem State.gateOf_testWdog {s : State} (h : s.sys.mode = .test) (q : Req) :
    s.gateOf q false R.SYS_TEST_WDOG = { bar := none, run := false, stop := false, runBit := none } := by
  have hbar : s.barOf q false R.SYS_TEST_WDOG = none := by
    simp [State.barOf, State.configBar, h, R.SYS_TEST_WDOG, isWorking, xngFixed, R.XNG_CTRL, R.XNG_TIMING]
  have hgov : s.regGov R.SYS_TEST_WDOG = (false, false, none) := rfl
  rw [State.gateOf, hbar, hgov]

/-- A kick in M8 with a legal SECONDS sets it and starts the watchdog again. -/
theorem State.busWrite_testWdog {s : State} {q : Req} {v : Nat} (h : Reached s q R.SYS_TEST_WDOG) (hm : s.sys.mode = .test)
    (hk : bitOf v 31 = true) (hlo : 1 ≤ v % 4096) (hhi : v % 4096 ≤ 3600) : ∃ t : State,
      s.busWrite q R.SYS_TEST_WDOG v = { t with sys := { t.sys with testWdogAt := t.now } } ∧
        t = s.setFld F.SYS_TEST_WDOG.SECONDS (v % 4096) := by
  have hlegal : reservedHit s.sys.nominal60 testWdogReg.fields v = false := by
    simp [reservedHit, testWdogReg, Access.writes, Legal.ok, bitsOf_low, hlo, hhi]
  have hplain : s.plainWrite q { bar := none, run := false, stop := false, runBit := none } testWdogReg R.SYS_TEST_WDOG v =
      s.setFld F.SYS_TEST_WDOG.SECONDS (v % 4096) := by
    refine State.plainWrite_taken s q _ _ _ v _ rfl hlegal ?_
    simp [testWdogReg, fieldsWrite, fieldWrite, bitsOf_low, F.SYS_TEST_WDOG.SECONDS, R.SYS_TEST_WDOG]
  refine ⟨_, ?_, rfl⟩
  rw [State.busWrite_sys (d := testWdogReg) h (by decide) (by decide) hlegal, State.gateOf_testWdog hm, State.sysWrite_testWdog, hplain]
  exact if_pos (by simp [hk, hm, State.refusals, State.cnt])

theorem testWdogExpire_due {s : State} {dt : Nat} (hm : s.sys.mode = .test) (ht : s.sys.trans = none)
    (hdue : s.fld F.SYS_TEST_WDOG.SECONDS * 1200000000 ≤ s.now + dt - s.sys.testWdogAt) :
    exec (.testWdogExpire dt) s = .next ((s.elapse dt).beginTrans .commission 10) ∧
      (s.elapse dt).beginTrans .commission 10 =
        ({ s.elapse dt with sys := { s.sys with trans := some ⟨.commission, false, 10⟩ } } : State).setFld F.SYS_MODE.TRANSIT 1 := by
  have hm' : (s.elapse dt).sys.mode = .test := hm
  have ht' : (s.elapse dt).sys.trans = none := ht
  constructor
  · show execTestWdogExpire dt s = _
    exact if_pos (by rw [hm', Bool.and_eq_true]; exact ⟨rfl, decide_eq_true hdue⟩)
  · unfold State.beginTrans
    dsimp only
    rw [ht']
    exact if_neg (by rw [hm']; decide)

/-- Settles O28: a descriptor is judged when it is taken, its frame is received at its time, and an expired watchdog begins the way to M3. -/
theorem testSessions : Obligations.TestSessions := by
  unfold Obligations.TestSessions
  intro s dt
  refine ⟨fun e hi hh hp hm => ⟨_, injectDescriptor_taken hi hh hp hm, rfl⟩, fun e hi hh hdue => ?_, fun q v h hm hk hlo hhi => ?_,
    fun hm ht hdue => ?_⟩
  · exact ⟨_, injectFrame_due hi hh hdue, State.inject_effect rfl⟩
  · obtain ⟨t, ht, rfl⟩ := State.busWrite_testWdog h hm (by
      rw [bitOf, Nat.testBit_eq_decide_div_mod_eq, show v.toNat / 2 ^ 31 = 1 from hk]; rfl) hlo hhi
    refine ⟨_, (congrArg Host.Outcome.next ht : _), ?_, ?_⟩
    · exact State.setFld_now s _ _
    · exact (State.fld_setFld_same s F.SYS_TEST_WDOG.SECONDS _ (by decide)).trans (Nat.mod_eq_of_lt (Nat.mod_lt _ (by decide)))
  · obtain ⟨hexec, hbegin⟩ := testWdogExpire_due hm ht hdue
    refine ⟨_, hexec, ?_, ?_⟩
    · rw [hbegin, State.setFld_sys]
    · rw [hbegin, State.setFld_sys, hm]

end Sys2Proof.Machine
end

section
/-!
SUPPORT. What the steps of a cold start leave alone: the Ring Log's head, the journal, key slots, images, the configuration and the
blocks that it starts.
-/

namespace Sys2Proof.Machine

open Sys2Proof.Safety

/-! ## Step t2: the Ring Log's head, EPOCH and the journal -/

/-- Local time, mode control and EPOCH stand. -/
def KeepsEpoch (s t : State) : Prop := t.now = s.now ∧ t.sys = s.sys ∧ t.mram.epoch = s.mram.epoch

theorem KeepsEpoch.trans {s t u : State} (a : KeepsEpoch s t) (b : KeepsEpoch t u) : KeepsEpoch s u := by
  obtain ⟨anow, asys, aepoch⟩ := a
  obtain ⟨bnow, bsys, bepoch⟩ := b
  exact ⟨bnow.trans anow, bsys.trans asys, bepoch.trans aepoch⟩

theorem State.rebuildRing_keepsEpoch (s : State) : KeepsEpoch s s.rebuildRing := by
  have hclear (s : State) : KeepsEpoch s s.ringClearDone := by
    unfold State.ringClearDone
    split <;> simp [KeepsEpoch, State.ringPut]
  unfold State.rebuildRing
  extract_lets t
  have ht : KeepsEpoch s t := both_arms (KeepsEpoch s) ⟨rfl, rfl, rfl⟩ (by simp [KeepsEpoch])
  exact both_arms (KeepsEpoch s) (ht.trans (hclear t)) ht

theorem State.crossSend_mram (s : State) (kind : Nat) (payload : List Byte) : (s.crossSend kind payload).mram = s.mram := by
  unfold State.crossSend
  dsimp only
  split <;> simp

theorem State.setXngState_mram (s : State) (n : Nat) : (s.setXngState n).mram = s.mram := by
  unfold State.setXngState
  dsimp only
  split_ifs <;> simp [State.dropDigests]

theorem State.journal_keepsEpoch (s : State) (kind port source jseq time : Nat) (payload : List Byte) :
    KeepsEpoch s (s.journal kind port source jseq time payload) := by
  unfold State.journal
  dsimp only
  split <;> simp [KeepsEpoch, State.crossSend_mram]

/-- EPOCH rises by one (R516). -/
theorem State.incEpoch_effect (s : State) : s.incEpoch.now = s.now ∧ s.incEpoch.sys = s.sys ∧
    s.incEpoch.mram.epoch = (s.mram.epoch + 1) % 2 ^ 32 := by
  unfold State.incEpoch
  extract_lets e s1 mram t
  have ht : t.now = s.now ∧ t.sys = s.sys ∧ t.mram.epoch = e := by simp [t, s1]
  refine both_arms (fun u : State => u.now = s.now ∧ u.sys = s.sys ∧ u.mram.epoch = e) ?_ ht
  obtain ⟨hnow, hsys, hepoch⟩ := t.journal_keepsEpoch 3 0 0 0 t.tim.mark (leBytes 4 e)
  exact ⟨hnow.trans ht.1, hsys.trans ht.2.1, hepoch.trans ht.2.2⟩

/-! ## Step t3: key slots and measurements -/

/-- The tamper latch. -/
@[reducible] def tamperLatch (off : Nat) : Prop := off = R.SEC_TAMPER_LATCH

theorem State.newShares_leaves {s t : State} (h : Leaves tamperLatch s t) (key : List Byte) (kind origin : Nat) :
    Leaves tamperLatch s (t.newShares key kind origin).1 := by
  have hrandom {t : State} (h : Leaves tamperLatch s t) : Leaves tamperLatch s t.random.1 := h.upd
  exact hrandom (hrandom (hrandom h))

theorem State.openSlot_leaves {s t : State} (h : Leaves tamperLatch s t) (n : Nat) : Leaves tamperLatch s (t.openSlot n) := by
  have hlog (d : List Byte) : Leaves tamperLatch s (t.ringLog 0x000E 20 d) := h.ringLog (by rintro _ rfl; decide) _ _ _
  unfold State.openSlot
  extract_lets k img
  clear_value img
  refine Leaves.ite h ?_
  cases img with
  | some i =>
    have hshares := State.newShares_leaves h i.bytes i.kind k.origin
    exact Leaves.ite hshares.upd (hlog _)
  | none => exact hlog _

theorem State.openSlots_leaves (s : State) : Leaves tamperLatch s s.openSlots := by
  unfold State.openSlots State.showSlots
  extract_lets und t
  have ht : Leaves tamperLatch s t := Leaves.ite (Leaves.refl _ s) (Leaves.refl _ s).upd
  have hfold := Leaves.foldl (fun n h => State.openSlot_leaves h n) (List.range 64) ht
  exact (hfold.setFld (by decide) _).setFld (by decide) _

theorem State.measureTamper_leaves {s t : State} (h : Leaves tamperLatch s t) : Leaves tamperLatch s t.measureTamper := by
  unfold State.measureTamper
  extract_lets u sec
  have hu : Leaves tamperLatch s u := Leaves.foldl (fun _ h => h.upd) t.sec.mr7 h
  exact Leaves.ite h hu.upd

/-! ## Steps t5 and t6: images -/

/-- Local time and the cores stand, and mode control but for the entry addresses. -/
structure BootKeeps (s t : State) : Prop where
  now : t.now = s.now
  sys : t.sys = { s.sys with entries := t.sys.entries }
  cores : t.cores = s.cores

theorem BootKeeps.trans {s t u : State} (a : BootKeeps s t) (b : BootKeeps t u) : BootKeeps s u :=
  ⟨b.now.trans a.now, by rw [b.sys, a.sys], b.cores.trans a.cores⟩

theorem BootKeeps.setEntries {s t : State} (h : BootKeeps s t) (m : SMap DWord) (x : Sec) :
    BootKeeps s { t with sys := { t.sys with entries := m }, sec := x } := by
  refine ⟨h.now, ?_, h.cores⟩
  show ({ t.sys with entries := m } : Sys) = _
  rw [h.sys]

theorem State.loadSegs_steady (s : State) (l : List Byte) : Steady s (s.loadSegs l) :=
  Steady.foldl (fun s g => by simp [Steady, State.zeroFill]) _ s

theorem State.extend_bootKeeps (s : State) (n : Nat) (d : List Byte) : BootKeeps s (s.extend n d) := ⟨rfl, rfl, rfl⟩

theorem State.bootLoad_keeps (s : State) (target : Nat) (alt : Bool) : BootKeeps s (s.bootLoad target alt) := by
  unfold State.bootLoad
  extract_lets l d t
  have ht : BootKeeps s t := by
    obtain ⟨hnow, hsys, -, hcores⟩ := s.loadSegs_steady l
    exact BootKeeps.trans ⟨hnow, by rw [hsys], hcores⟩ (State.extend_bootKeeps _ _ d)
  clear_value t
  exact ht.setEntries _ _

theorem State.bootFail_keeps (s : State) (target : Nat) (alt : Bool) : BootKeeps s (s.bootFail target alt) := by
  unfold State.bootFail
  dsimp only
  exact ⟨by simp, by simp, by simp⟩

/-- The verification of a target's images, whatever it finds. -/
theorem State.bootImage_keeps (s : State) (target : Nat) : BootKeeps s (s.bootImage target).1 := by
  unfold State.bootImage
  extract_lets first s1
  have h1 : BootKeeps s s1 := s.bootFail_keeps target first
  clear_value s1
  split
  · exact s.bootLoad_keeps target first
  split
  · exact h1.trans (s1.bootLoad_keeps target !first)
  · exact h1.trans (s1.bootFail_keeps target !first)

/-! ## Step t7: the configuration, Grid Time and the blocks -/

theorem State.loadConfig_steady (s : State) : Steady s s.loadConfig := by
  have hreg (s : State) (x : Nat × Word) : Steady s (s.setReg x.1 ((s.reg x.1 &&& w32 (2 ^ 32 - 1 - cfgMask x.1)) ||| x.2)) :=
    ⟨s.setReg_now _ _, s.setReg_sys _ _, s.setReg_tim _ _, s.setReg_cores _ _⟩
  have htf (s : State) (x : Nat × Word) : Steady s (s.setTf TF.ING.Directory.CFG_STATE (x.1 % 2 ^ 24 / 32) 1) := by simp [Steady]
  unfold State.loadConfig
  extract_lets t u
  have ht : Steady s t := Steady.foldl hreg s.mram.cfgRegs s
  have hu : Steady t u := Steady.foldl (f := fun (s : State) (x : Nat × Word) =>
      { s with tbl := mapSet tblReset s.tbl x.1 ((mapGet tblReset s.tbl x.1 &&& w32 (2 ^ 32 - 1 - cfgTblMask x.1)) ||| x.2) })
    (fun _ _ => ⟨rfl, rfl, rfl, rfl⟩) t.mram.cfgTbl t
  exact (ht.trans hu).trans (Steady.foldl htf _ u)

theorem State.utcEval_steady (s : State) : Steady s s.utcEval := by
  unfold State.utcEval
  dsimp only
  split
  · split <;> simp [Steady]
  · simp [Steady]

/-- Grid Time is seeded and runs (R155). -/
theorem State.seedTime_runs (s : State) : s.seedTime.now = s.now ∧ s.seedTime.sys = s.sys ∧ s.seedTime.tim.running = true := by
  have htq (s : State) : s.tqEval.now = s.now ∧ s.tqEval.sys = s.sys ∧ s.tqEval.tim.running = s.tim.running := by
    unfold State.tqEval
    dsimp only
    split <;> simp
  have hservo (s : State) (n : Nat) : Steady s (s.setServo n) := by
    unfold State.setServo
    split <;> simp [Steady]
  unfold State.seedTime
  extract_lets sec tim t
  obtain ⟨hnow, hsys, htim, -⟩ := (hservo ((t.setFld F.TIM_CTRL.RUN 1).setFld F.TIM_STATUS.STOPPED 0) 0).trans (State.utcEval_steady _)
  obtain ⟨qnow, qsys, qrun⟩ := htq ((((t.setFld F.TIM_CTRL.RUN 1).setFld F.TIM_STATUS.STOPPED 0).setServo 0).utcEval)
  rw [qnow, qsys, qrun, hnow, hsys, htim]
  simp [t]

theorem State.groveRunReq_steady (s : State) (g : Nat) : Steady s (s.groveRunReq g) := by
  unfold State.groveRunReq
  dsimp only
  split <;> simp [Steady]

theorem State.oscLoaded_steady (s : State) : Steady s s.oscLoaded := by
  unfold State.oscLoaded
  extract_lets t
  have ht : Steady s t := Steady.foldl (fun s x => by simp [Steady]) _ s
  exact ht.trans (Steady.foldl (fun s x => by simp [Steady]) _ t)

/-- The blocks, channels and Groves that the configuration starts. -/
theorem State.startLoaded_steady (s : State) : Steady s s.startLoaded := by
  unfold State.startLoaded
  extract_lets up s1 s2 s3 s4 s5 s6 s7 s8 s9 s10
  have hup (s : State) (run stopped : Fld) : Steady s (up s run stopped) := Steady.ite (by simp [Steady]) (Steady.refl s)
  have h2 : Steady s s2 := (hup s _ _).trans (hup s1 _ _)
  have h3 : Steady s2 s3 := Steady.ite (by simp [Steady, State.islStart]) (Steady.refl s2)
  have h7 : Steady s3 s7 := (((hup s3 _ _).trans (hup s4 _ _)).trans (hup s5 _ _)).trans (hup s6 _ _)
  have h8 : Steady s7 s8 := (Steady.foldl (fun s k => by simp [Steady, State.fltLoaded]) _ s7).trans (State.oscLoaded_steady _)
  have h9 : Steady s8 s9 := Steady.foldl (fun s k => by simp [Steady, State.capEnabled]) _ s8
  have h10 : Steady s9 s10 := Steady.foldl (fun s n => by simp [Steady, State.pulseInEnabled]) _ s9
  refine ((((h2.trans h3).trans h7).trans h8).trans (h9.trans h10)).trans (Steady.foldl (fun s g => ?_) _ s10)
  have hreq := s.groveRunReq_steady g
  exact Steady.ite (Steady.ite hreq (hreq.trans (by simp [Steady]))) (Steady.refl s)

theorem State.showPhy_steady (s : State) (p : Nat) : Steady s (s.showPhy p) := by
  unfold State.showPhy
  dsimp only
  split_ifs <;> simp [Steady]

theorem State.accRestore_steady (s : State) : Steady s s.accRestore := by
  unfold State.accRestore
  extract_lets m held torn nextSeq acc t incomplete
  have hinc (s : State) (seq : Nat) : Steady s (incomplete s seq) := Steady.ite (by simp [Steady]) (Steady.refl s)
  have ht : Steady s t := ⟨rfl, rfl, rfl, rfl⟩
  split
  · exact (ht.trans (by simp [Steady])).trans (hinc _ _)
  · extract_lets a b
    have ha : Steady t a := ⟨rfl, rfl, rfl, rfl⟩
    have hb : Steady a b := Steady.foldl (fun s o => by simp [Steady]) _ a
    exact (((ht.trans ha).trans hb).trans (by simp [Steady])).trans (hinc _ _)

/-- The end of the wait for time keeps whatever neither the Glade's run control nor a transition holds. -/
theorem State.timeReady_keeps {α : Type} (g : State → α) (hs : ∀ (s : State) x, g { s with sys := x } = g s)
    (hf : ∀ (s : State) (f : Fld) v, g (s.setFld f v) = g s) (s : State) : g s.timeReady = g s := by
  have hglade (s : State) : g s.startGlade = g s :=
    both_arms (fun t => g t = g s) rfl ((hf _ F.GLD_STATUS.STOPPED 0).trans ((hf _ F.GLD_CTRL.RUN 1).trans (hs s _)))
  have hboot (s : State) : g s.bootAct = g s := by
    unfold State.bootAct
    split
    · rfl
    · exact (State.beginTrans_keeps g hs (fun s f v _ => hf s f v) _ _ _).trans (hf s _ _)
  exact (hboot _).trans (both_arms (fun t => g t = g s) (hglade s) rfl)

end Sys2Proof.Machine
end

section
/-!
The cold start, step by step (O22).
-/

namespace Sys2Proof.Machine

open Sys2Proof.Safety

theorem Leaves.extend {K : Nat → Prop} {s t : State} (h : Leaves K s t) (n : Nat) (d : List Byte) : Leaves K s (t.extend n d) := h.upd

theorem State.extend_steady (s : State) (n : Nat) (d : List Byte) : Steady s (s.extend n d) := ⟨rfl, rfl, rfl, rfl⟩

theorem State.measureConfig_steady (s : State) : Steady s s.measureConfig := by
  unfold State.measureConfig
  exact (s.extend_steady _ _).trans (State.extend_steady _ _ _)

theorem atStep_of_atBoot {s : State} {n : Nat} (h : AtBoot s n) : s.atStep n = true := by
  obtain ⟨hmode, hstep, htrans, hwarn⟩ := h
  simp [State.atStep, hmode, hstep, htrans, hwarn]

/-! ## Steps t1 to t4 -/

theorem railsUp_eq {s : State} (h : AtBoot s 0) :
    exec .railsUp s = .next { s with sys := { s.sys with powerGood := true, bootStep := 1 } } :=
  if_pos (atStep_of_atBoot h)

/-- Before the Keeper Core starts: M1 is flagged, with step t2 reached and EPOCH raised. -/
theorem keeperResetRelease_eq {s : State} (h : AtBoot s 1) : ∃ u : State, u.now = s.now ∧ u.sys = { s.sys with bootStep := 2 } ∧
    u.mram.epoch = (s.mram.epoch + 1) % 2 ^ 32 ∧
    exec .keeperResetRelease s = .next ((u.raise F.SYS_INT_STATUS.MODE_CHANGE).startCore 20 0) := by
  obtain ⟨rnow, rsys, repoch⟩ := s.rebuildRing_keepsEpoch
  obtain ⟨enow, esys, eepoch⟩ := s.rebuildRing.disarmWatcher.incEpoch_effect
  have hm : s.rebuildRing.disarmWatcher.incEpoch.mram.epoch = (s.mram.epoch + 1) % 2 ^ 32 := eepoch.trans (by rw [← repoch]; rfl)
  have hs : (s.rebuildRing.disarmWatcher.incEpoch.reach 2).sys = { s.sys with bootStep := 2 } := by
    show { s.rebuildRing.disarmWatcher.incEpoch.sys with bootStep := 2 } = _
    rw [esys]
    exact congrArg (fun x : Sys => { x with bootStep := 2 }) rsys
  have hn : (s.rebuildRing.disarmWatcher.incEpoch.reach 2).now = s.now := enow.trans rnow
  refine ⟨_, ?_, ?_, ?_, if_neg (by rw [atStep_of_atBoot h]; decide)⟩
  · simpa [State.showMode] using hn
  · simpa [State.showMode] using hs
  · rw [← hm]
    simp [State.showMode, State.setXngState_mram, State.reach]

theorem selfTestsDone_failed {s : State} (h : AtBoot s 2) : exec (.selfTestsDone false) s = .next s.keeperError := by
  show execSelfTestsDone false s = _
  simp [execSelfTestsDone, atStep_of_atBoot h]

/-- A failed self-test is the error state, and nothing else moves (R566). -/
theorem State.keeperError_effect (s : State) : s.keeperError.sys = s.sys ∧ s.keeperError.fld F.SEC_STATUS.ERROR = 1 := by
  unfold State.keeperError
  dsimp only
  refine ⟨by simp, ?_⟩
  rw [State.fld_congr (State.reg_ringLog _ _ _ _ (by decide)), State.raise, State.fld_setFld_ne _ _ _ _ (by decide) (by decide),
    State.fld_setFld_ne _ _ _ _ (by decide) (by decide), State.fld_setFld_same _ _ _ (by decide)]
  rfl

/-- Self-tests that pass, with no lockdown latched: step t3 is reached and no transition begins. -/
theorem selfTestsDone_passed {s : State} (h : AtBoot s 2) (hl : s.flag F.SEC_TAMPER_LATCH.LOCKDOWN = false) :
    ∃ u : State, exec (.selfTestsDone true) s = .next u ∧ u.sys.bootStep = 3 ∧ u.sys.mode = s.sys.mode ∧ u.sys.trans = s.sys.trans := by
  have hopen : Leaves tamperLatch s (s.openSlots.extend 0 (beBytes 32 Config.romDigest.toNat)) := s.openSlots_leaves.extend _ _
  have hlatch : (s.openSlots.extend 0 (beBytes 32 Config.romDigest.toNat)).flag F.SEC_TAMPER_LATCH.LOCKDOWN = false :=
    (hopen.flag _ rfl).trans hl
  have hmode := hopen.mode
  have htrans := hopen.noTrans
  generalize he : s.openSlots.extend 0 (beBytes 32 Config.romDigest.toNat) = u at *
  have hmeasure := State.measureTamper_leaves (Leaves.refl tamperLatch (u.reach 3))
  refine ⟨(u.reach 3).measureTamper, ?_, by rw [hmeasure.sys]; rfl, hmeasure.mode.trans hmode, hmeasure.noTrans.trans htrans⟩
  show execSelfTestsDone true s = _
  unfold execSelfTestsDone
  rw [if_neg (by rw [atStep_of_atBoot h]; decide), if_neg (by decide), he]
  refine if_neg ?_
  rw [hmeasure.flag _ rfl]
  exact ne_true_of_eq_false hlatch

theorem dramTrained_eq {s : State} (h : AtBoot s 3) :
    exec .dramTrained s = .next { s with sys := { s.sys with bootStep := 4 } } :=
  if_pos (atStep_of_atBoot h)

/-! ## Steps t5 and t6 -/

theorem firmwareVerified_eq {s : State} (h : AtBoot s 4) (hf : s.bootFailed = false) : exec .firmwareVerified s =
    .next (if (s.bootImage 2).2 then
      ((((s.bootImage 2).1.reach 5).startCore 16 (mget 0 (s.bootImage 2).1.sys.entries 2)).startCore 20
        (mget 0 (s.bootImage 2).1.sys.entries 2)) else (s.bootImage 2).1) := by
  show execFirmwareVerified s = _
  unfold execFirmwareVerified
  dsimp only
  rw [if_neg (by rw [atStep_of_atBoot h, hf]; decide)]
  split <;> rfl

theorem imagesVerified_eq {s : State} (h : AtBoot s 5) (hf : s.bootFailed = false) (hv : (s.bootImage 1).2 = true)
    (he : ((s.bootImage 1).1.bootImage 0).2 = true) : exec .imagesVerified s =
      .next ((((s.bootImage 1).1.bootImage 0).1.reach 6).startCore 16 (((s.bootImage 1).1.bootImage 0).1.entryOf 16)) := by
  show execImagesVerified s = _
  unfold execImagesVerified
  dsimp only
  rw [if_neg (by rw [atStep_of_atBoot h, hf]; decide), if_neg (by rw [hv]; decide), if_neg (by rw [he]; decide)]

/-- A core above the Stream Engines starts without a request to their PLL. -/
theorem State.startCore_sys (s : State) {c : Nat} (hc : 16 ≤ c) (entry : DWord) : (s.startCore c entry).sys = s.sys := by
  rw [State.startCore, if_neg (by omega), State.setCore_sys]

theorem State.startCore_now (s : State) (c : Nat) (entry : DWord) : (s.startCore c entry).now = s.now := by
  unfold State.startCore
  rw [State.setCore_now]
  split <;> simp

theorem State.startCore_reg (s : State) (c : Nat) (entry : DWord) (off : Nat) : (s.startCore c entry).reg off = s.reg off := by
  unfold State.startCore
  split <;> simp [State.reg]

/-! ## Step t7 -/

/-- SV0 takes the recovery role, and step t7 is dated. -/
theorem State.setHolder_dated (s : State) :
    ({ s.setHolder 16 with sys := { (s.setHolder 16).sys with t7At := some (s.setHolder 16).now } } : State).sys =
      { s.sys with t7At := some s.now } ∧ (s.setHolder 16).tim = s.tim ∧ (s.setHolder 16).err.holder = 16 := by
  simp [State.setHolder]

/-- The configuration loaded, time, blocks and ports started, and the recovery role with SV0: before the wait for time ends. -/
theorem configLoaded_eq {s : State} (h : AtBoot s 6) : ∃ u : State, u.sys = { s.sys with bootStep := 7, t7At := some s.now } ∧
    u.tim.running = true ∧ u.err.holder = 16 ∧ exec .configLoaded s = .next u.timeReady := by
  obtain ⟨lnow, lsys, -, -⟩ := s.loadConfig_steady
  obtain ⟨gnow, gsys, grun⟩ := (s.loadConfig.reach 7).seedTime_runs
  have hblocks := (s.loadConfig.reach 7).seedTime.startLoaded_steady
  have hports := Steady.foldl (fun s p => s.showPhy_steady p) (List.range 6) (s.loadConfig.reach 7).seedTime.startLoaded
  have hacc := (hblocks.trans hports).trans (State.accRestore_steady _)
  have hmeasured := hacc.trans (State.measureConfig_steady _)
  show ∃ u : State, _ ∧ _ ∧ _ ∧ execConfigLoaded s = .next u.timeReady
  unfold execConfigLoaded
  rw [if_neg (by rw [atStep_of_atBoot h]; decide)]
  dsimp only
  generalize ((List.range 6).foldl (fun s p => s.showPhy p)
    (s.loadConfig.reach 7).seedTime.startLoaded).accRestore.measureConfig = w at hmeasured ⊢
  obtain ⟨wnow, wsys, wtim, -⟩ := hmeasured
  obtain ⟨hsys, htim, hholder⟩ := w.setHolder_dated
  refine ⟨_, hsys.trans ?_, ?_, hholder, rfl⟩
  · rw [wnow, wsys, gnow, gsys]
    show ({ s.loadConfig.sys with bootStep := 7, t7At := some s.loadConfig.now } : Sys) = _
    rw [lnow, lsys]
  · exact (congrArg Tim.running (htim.trans wtim)).trans grun

/-! ## The cold start -/

/-- Settles O22: each step is its command at that step's state, and what it starts is left alone by whatever follows it. -/
theorem coldStart : Obligations.ColdStart := by
  unfold Obligations.ColdStart
  intro s
  refine ⟨fun h => ⟨_, railsUp_eq h, rfl⟩, fun h => ?_, fun h => ?_, fun h hl => ?_, fun h => ⟨_, dramTrained_eq h, rfl⟩, fun h hf hv => ?_,
    fun h hf hv => ?_, fun h hf hv he => ?_, fun h => ?_⟩
  · have ⟨hmode, _, _, _⟩ := h
    obtain ⟨u, unow, usys, uepoch, heq⟩ := keeperResetRelease_eq h
    refine ⟨_, heq, ?_, ?_, ?_, ?_, ?_⟩
    · rw [State.startCore_sys _ (by decide)]
      simp [usys]
    · rw [State.startCore_sys _ (by decide)]
      simp [usys, hmode]
    · refine Eq.trans ?_ uepoch
      simp [State.startCore]
    · exact (State.fld_congr (State.startCore_reg _ _ _ _)).trans (State.fld_setFld_same _ _ _ (by decide))
    · rw [State.core_startCore, if_pos rfl, State.raise_now, unow]
      rfl
  · have ⟨_, hstep, _, _⟩ := h
    obtain ⟨hsys, herr⟩ := s.keeperError_effect
    exact ⟨_, selfTestsDone_failed h, by rw [hsys, hstep], herr⟩
  · have ⟨hmode, _, htrans, _⟩ := h
    obtain ⟨u, heq, ustep, umode, utrans⟩ := selfTestsDone_passed h hl
    exact ⟨u, heq, ustep, umode.trans hmode, utrans.trans htrans⟩
  · have ⟨hmode, _, _, _⟩ := h
    have hk := s.bootImage_keeps 2
    refine ⟨_, firmwareVerified_eq h hf, ?_⟩
    dsimp only
    rw [if_pos hv, State.startCore_sys _ (by decide), State.startCore_sys _ (by decide)]
    refine ⟨rfl, ?_, ?_⟩
    · show (s.bootImage 2).1.sys.mode = _
      rw [hk.sys, hmode]
    · rintro c (rfl | rfl) <;> simp [State.core_startCore, State.startCore_now, hk.now, State.reach]
  · have ⟨_, hstep, _, _⟩ := h
    have hk := s.bootImage_keeps 2
    refine ⟨_, firmwareVerified_eq h hf, ?_⟩
    rw [if_neg (by rw [hv]; decide)]
    exact ⟨by rw [hk.sys, hstep], hk.cores⟩
  · have ⟨hmode, _, _, _⟩ := h
    have hk := (s.bootImage_keeps 1).trans ((s.bootImage 1).1.bootImage_keeps 0)
    refine ⟨_, imagesVerified_eq h hf hv he, ?_⟩
    dsimp only
    rw [State.startCore_sys _ (by decide)]
    refine ⟨rfl, ?_, ?_⟩
    · show ((s.bootImage 1).1.bootImage 0).1.sys.mode = _
      rw [hk.sys, hmode]
    · simp [State.core_startCore, hk.now, State.reach, State.entryOf]
  · have ⟨hmode, _, _, _⟩ := h
    obtain ⟨u, usys, utim, uerr, heq⟩ := configLoaded_eq h
    refine ⟨_, heq, ?_⟩
    obtain ⟨-, tsys⟩ := u.timeReady_frame
    have htim := State.timeReady_keeps State.tim (fun _ _ => rfl) (fun s f v => s.setFld_tim f v) u
    have herr := State.timeReady_keeps State.err (fun _ _ => rfl) (fun s f v => s.setFld_err f v) u
    rw [tsys, htim, herr, usys]
    exact ⟨rfl, hmode, rfl, utim, uerr⟩

end Sys2Proof.Machine
end

section
/-!
SUPPORT. Writes of a register that holds a run control: the journal's entry before the write, the gate, and the one field that moves.
-/

namespace Sys2Proof.Machine

open Sys2Proof.Safety

/-! ## A write and its journal entry (R496) -/

/-- Only the Crossing's own state, what leaves the unit and the counters differ: what a journal entry touches. -/
def Journalled (s t : State) : Prop :=
  ∃ x o w uw sat, t = { s with xng := x, out := o, wide := w, uwide := uw, saturated := sat }

theorem Journalled.refl (s : State) : Journalled s s := ⟨s.xng, s.out, s.wide, s.uwide, s.saturated, rfl⟩

theorem Journalled.trans {s t u : State} (a : Journalled s t) (b : Journalled t u) : Journalled s u := by
  obtain ⟨x, o, w, uw, sat, rfl⟩ := a
  obtain ⟨x', o', w', uw', sat', rfl⟩ := b
  exact ⟨x', o', w', uw', sat', rfl⟩

theorem State.setCnt_journalled (s : State) (k : Nat) (v : DWord) : Journalled s (s.setCnt k v) := by
  unfold State.setCnt
  split
  · exact ⟨s.xng, s.out, s.wide, _, s.saturated, rfl⟩
  · exact ⟨s.xng, s.out, _, s.uwide, s.saturated, rfl⟩

theorem State.bump_journalled (s : State) (k : Nat) : Journalled s (s.bump k) := by
  unfold State.bump State.bumpBy
  extract_lets v t
  split
  · exact s.setCnt_journalled k _
  · exact (s.setCnt_journalled k _ : Journalled s t).trans ⟨t.xng, t.out, t.wide, t.uwide, _, rfl⟩

theorem State.crossSend_journalled (s : State) (kind : Nat) (payload : List Byte) : Journalled s (s.crossSend kind payload) :=
  both_arms (Journalled s) ⟨_, _, s.wide, s.uwide, s.saturated, rfl⟩ (Journalled.refl s)

theorem State.journalWrite_journalled (s : State) (q off : Nat) (value : List Byte) : Journalled s (s.journalWrite q off value) := by
  unfold State.journalWrite State.journal
  extract_lets n x t
  have ht : Journalled s t := ⟨_, s.out, s.wide, s.uwide, s.saturated, rfl⟩
  refine both_arms (Journalled s) (both_arms (Journalled s) ?_ ht) (Journalled.refl s)
  exact ((ht.trans (t.crossSend_journalled _ _)).trans (State.bump_journalled _ _)).trans (State.setCnt_journalled _ _ _)

/-- A write that reaches a register is a step of it, before which the journal may have taken an entry. -/
theorem State.busWrite_steps {P : State → Prop} {s : State} {q : Req} {off v : Nat} (h : Reached s q off) (hc : off < ctrlSize)
    (hp : isDpReg off = false) (hstep : ∀ u, Journalled s u → P (u.regStep q false off v)) : P (s.busWrite q off v) := by
  rw [State.busWrite_reached s q off v h hc]
  simp only [State.devWrite, hp, State.regWrite]
  rw [if_neg (by decide)]
  have hfirst : P (s.regStep q false off v) := hstep s (Journalled.refl s)
  split
  · split
    · exact hstep _ (s.journalWrite_journalled _ _ _)
    · exact hfirst
  · exact hfirst

/-- The top of the count of refused writes is not reached, so a refusal shows in it. -/
theorem State.refusals_refuse {s : State} (hcount : (s.cnt R.SYS_REFUSED_COUNT).toNat < 18446744073709551615) (q : Req) (c off : Nat) :
    (s.refuse q c off).refusals ≠ s.refusals := by
  have hrest : (s.refuse q c off).cnt R.SYS_REFUSED_COUNT = (s.bump R.SYS_REFUSED_COUNT).cnt R.SYS_REFUSED_COUNT := by
    simp [State.refuse, State.cnt]
  rw [State.refusals, State.refusals, hrest, State.cnt_bump, if_pos rfl]
  simp only [w64, BitVec.toNat_ofNat, Nat.reducePow]
  omega

/-- A write that its register refuses leaves no journal entry. -/
theorem State.busWrite_refuses {s : State} {q : Req} {off v c : Nat} (h : Reached s q off) (hc : off < ctrlSize)
    (hp : isDpReg off = false) (hcount : (s.cnt R.SYS_REFUSED_COUNT).toNat < 18446744073709551615)
    (hstep : s.regStep q false off v = s.refuse q c off) : s.busWrite q off v = s.refuse q c off := by
  rw [State.busWrite_reached s q off v h hc]
  simp only [State.devWrite, hp, State.regWrite, hstep]
  simp [State.refusals_refuse hcount]

/-- A step of a register whose requester is not barred is its block's write. -/
theorem State.regStep_open {s u : State} {q : Req} {off v : Nat} {d : RegD} (h : WriteOpen s q off) (hu : Journalled s u)
    (f : findReg off = some d) : u.regStep q false off v = u.blockWrite q false d off v := by
  obtain ⟨-, hbar, hshadow, -⟩ := h
  obtain ⟨x, o, w, uw, sat, rfl⟩ := hu
  have hu : State.writerBar { s with xng := x, out := o, wide := w, uwide := uw, saturated := sat } q off = none := hbar
  unfold State.regStep
  rw [f]
  dsimp only
  rw [if_neg (by decide), hu]
  dsimp only
  rw [if_neg (by simpa using fun hm hj => absurd hm (hshadow hj)), if_neg (by simp [State.shadowSkips]; tauto)]

/-! ## The field RUN of its register -/

/-- A control register whose only field at bit 0 is RUN, and which takes what its gate lets through. -/
def runReg (d : RegD) : Bool :=
  d.kind = .plain && d.fields.getLast? = some ⟨0, 0, .rw, .any⟩ && d.fields.dropLast.all fun f => 0 < f.lo && (f.acc = .rw || f.acc = .wo)

/-- A field that holds what is written to it stays. -/
theorem fieldWrite_same {g : Gate} {f : FieldD} {old v : Nat} (ha : f.acc = .rw ∨ f.acc = .wo)
    (hv : bitsOf v f.hi f.lo = bitsOf old f.hi f.lo) : fieldWrite g f old v = (old, false) := by
  have hput : putBits old f.hi f.lo (bitsOf old f.hi f.lo) = old := by
    refine Nat.eq_of_testBit_eq fun i => ?_
    rw [testBit_putBits, testBit_bitsOf]
    split_ifs with hlo hhi
    · rfl
    · rw [decide_eq_true hhi, Bool.true_and, Nat.add_sub_cancel' (by omega)]
    · rfl
  rcases ha with ha | ha <;> simp [fieldWrite, ha, hv, hput]

/-- Fields that hold what is written to them stay, and the last takes its value. -/
theorem fieldsWrite_last {g : Gate} {v old : Nat} {l : FieldD} (fs : List FieldD)
    (hfs : ∀ f ∈ fs, (f.acc = .rw ∨ f.acc = .wo) ∧ bitsOf v f.hi f.lo = bitsOf old f.hi f.lo) :
    fieldsWrite g v (fs ++ [l]) old = fieldWrite g l old v := by
  induction fs with
  | nil => simp [fieldsWrite]
  | cons f fs ih =>
    obtain ⟨ha, hv⟩ := hfs f (by simp)
    have hrest := ih fun f' hf' => hfs f' (by simp [hf'])
    simp [fieldsWrite, fieldWrite_same ha hv, hrest]

/-- The register written with RUN as given: only RUN moves. -/
theorem State.plainWrite_run {s : State} {q : Req} {g : Gate} {d : RegD} {off : Nat} {run : Bool} (hd : runReg d = true)
    (hbar : g.bar = none) (hstop : g.stop = false) (hbit : g.runBit = some 0)
    (hr : reservedHit s.sys.nominal60 d.fields (s.withRun off run) = false) :
    s.plainWrite q g d off (s.withRun off run) = s.setFld ⟨off, 0, 0⟩ (b2n run) := by
  simp only [runReg, Bool.and_eq_true, decide_eq_true_eq, List.all_eq_true, Bool.or_eq_true] at hd
  obtain ⟨⟨hkind, hlast⟩, hfs⟩ := hd
  refine State.plainWrite_taken s q g d off _ _ hkind hr ?_
  rw [← List.dropLast_append_getLast? _ hlast, fieldsWrite_last]
  · have hx : bitsOf (s.withRun off run) 0 0 = b2n run := by
      rw [State.withRun, bitsOf_putBits]
      cases run <;> rfl
    simp [fieldWrite, hbar, hstop, hbit, hx]
  · intro f hf
    exact ⟨(hfs f hf).2, bitsOf_putBits_ne _ _ _ _ _ _ (.inr (hfs f hf).1)⟩

theorem bitOf_withRun (s : State) (off : Nat) (run : Bool) : bitOf (s.withRun off run) 0 = run := by
  have hbit := testBit_putBits_one (s.reg off).toNat 0 0 run
  rw [if_pos rfl] at hbit
  cases run <;> exact hbit

/-- The write leaves every field but RUN as it stands. -/
theorem bitsOf_withRun {s : State} {off hi lo : Nat} (run : Bool) (h : 0 < lo) :
    bitsOf (s.withRun off run) hi lo = s.fld ⟨off, hi, lo⟩ := bitsOf_putBits_ne _ _ _ _ _ _ (.inr h)

theorem State.flag_setFld_same {s : State} {f : Fld} (b : Bool) (h : f.hi < 32) (e : f.hi = f.lo) : (s.setFld f (b2n b)).flag f = b := by
  rw [State.flag, State.fld_setFld_same _ _ _ h, e, Nat.add_sub_cancel_left]
  cases b <;> rfl

theorem State.flag_setFld_ne {s : State} {f g : Fld} (v : Nat) (h : f.hi < 32) (d : g.off ≠ f.off ∨ g.hi < f.lo ∨ f.hi < g.lo) :
    (s.setFld f v).flag g = s.flag g := by rw [State.flag, State.fld_setFld_ne s f g v h d, State.flag]

/-- The gate of a register that holds its block's run control, where the mode bars nothing. -/
theorem State.gateOf_run {s : State} {q : Req} {off : Nat} {c : RunCtl} (hc : runCtl off = some c) (hoff : c.run.off = off)
    (hbar : s.barOf q false off = none) :
    s.gateOf q false off = ⟨none, s.flag c.run, !s.flag c.run && !s.flag c.stopped, some 0⟩ := by
  simp [State.gateOf, State.regGov, hc, hoff, hbar, State.runOf]

theorem Journalled.setFld {s t : State} (h : Journalled s t) (f : Fld) (v : Nat) : Journalled (s.setFld f v) (t.setFld f v) := by
  obtain ⟨x, o, w, uw, sat, rfl⟩ := h
  unfold State.setFld State.setReg
  split
  · exact ⟨x, o, w, uw, sat, rfl⟩
  · exact ⟨x, o, w, uw, sat, rfl⟩

theorem Journalled.reg {s t : State} (h : Journalled s t) (off : Nat) : t.reg off = s.reg off := by
  obtain ⟨x, o, w, uw, sat, rfl⟩ := h
  rfl

theorem Journalled.flag {s t : State} (h : Journalled s t) (f : Fld) : t.flag f = s.flag f := State.flag_congr (h.reg f.off)

theorem Journalled.sys {s t : State} (h : Journalled s t) : t.sys = s.sys := by
  obtain ⟨x, o, w, uw, sat, rfl⟩ := h
  rfl

theorem Journalled.barOf {s t : State} (h : Journalled s t) (q : Req) (jn : Bool) (off : Nat) : t.barOf q jn off = s.barOf q jn off := by
  obtain ⟨x, o, w, uw, sat, rfl⟩ := h
  rfl

theorem Journalled.withRun {s t : State} (h : Journalled s t) (off : Nat) (run : Bool) : t.withRun off run = s.withRun off run := by
  rw [State.withRun, h.reg, State.withRun]

/-- A refusal touches SYS's own registers. -/
theorem State.reg_refuse {s : State} {q : Req} {c off k : Nat} (h : k / 0x10000 ≠ 0) : (s.refuse q c off).reg k = s.reg k := by
  have hk : k ≠ R.SYS_REFUSED_ADDR ∧ k ≠ R.SYS_INT_STATUS := ⟨by rintro rfl; exact h rfl, by rintro rfl; exact h rfl⟩
  rw [State.refuse, State.raise, State.reg_setFld_ne _ _ _ _ hk.2, State.reg_setReg, if_neg hk.1]
  simp [State.reg]

end Sys2Proof.Machine
end

section
/-!
Starting and stopping a Grove (O27).
-/

namespace Sys2Proof.Machine

open Sys2Proof.Safety

/-- The control register of a Grove. -/
abbrev groveCtrl (g : Grove) : Nat := R.GLD_G_CTRL + 0x40 * g.val

/-- The run control of a Grove. -/
abbrev groveRunCtl (g : Grove) : RunCtl :=
  ⟨F.GLD_G_CTRL.RUN.at (0x40 * g.val), F.GLD_G_STATUS.STOPPED.at (0x40 * g.val), 2, none⟩

/-- GLD_G_CTRL in the map. -/
def groveReg : RegD :=
  ⟨R.GLD_G_CTRL, 64, 0x40, 1, 0x0, .plain,
    [⟨31, 24, .rw, .rate⟩, ⟨23, 22, .rw, .any⟩, ⟨21, 21, .rw, .any⟩, ⟨20, 17, .rw, .any⟩, ⟨0, 0, .rw, .any⟩]⟩

theorem findReg_groveCtrl : ∀ g : Grove, findReg (groveCtrl g) = some groveReg := by decide

theorem runCtl_groveCtrl : ∀ g : Grove, runCtl (groveCtrl g) = some (groveRunCtl g) := by
  intro g
  have hwork : ∀ g : Grove, isWorking (groveCtrl g) = false := by decide
  have hwin : ∀ g : Grove, groveCtrl g / 0x10000 = 7 ∧ ¬ groveCtrl g < 0x071000 ∧ (groveCtrl g - 0x071000) / 0x40 * 0x40 = 0x40 * g.val := by
    decide
  obtain ⟨hblock, hge, hwindow⟩ := hwin g
  unfold runCtl
  rw [hwork g, hblock]
  rw [if_neg (by decide)]
  dsimp only
  rw [if_neg hge, hwindow]
  rfl

theorem groveCtrl_facts : ∀ g : Grove, groveCtrl g < ctrlSize ∧ isDpReg (groveCtrl g) = false ∧ groveCtrl g / 0x10000 = 7 ∧
    groveCtrl g ≠ R.GLD_TBL_CMD ∧ inArray (groveCtrl g) R.GLD_G_CTRL 64 0x40 = true ∧ (groveCtrl g - R.GLD_G_CTRL) / 0x40 = g.val := by
  decide

theorem Journalled.badCfg {s t : State} (h : Journalled s t) (g : Nat) : t.badCfg g = s.badCfg g := by
  obtain ⟨x, o, w, uw, sat, rfl⟩ := h
  have hlist (l : List Nat) (off : Nat) :
      State.memberList { s with xng := x, out := o, wide := w, uwide := uw, saturated := sat } l off = s.memberList l off := by
    induction l generalizing off with
    | nil => rfl
    | cons i l ih => exact congrArg₂ List.cons rfl (ih _)
  simp only [State.badCfg, State.groveUnits, hlist]
  rfl

theorem Journalled.rateConflict {s t : State} (h : Journalled s t) (g rate : Nat) : t.rateConflict g rate = s.rateConflict g rate := by
  obtain ⟨x, o, w, uw, sat, rfl⟩ := h
  rfl

theorem Journalled.grove {s t : State} (h : Journalled s t) (g : Nat) : t.grove g = s.grove g := by
  obtain ⟨x, o, w, uw, sat, rfl⟩ := h
  rfl

/-- A write of RUN of a Grove is GLD_G_CTRL's own, before which the journal may have taken an entry. -/
theorem State.busWrite_grove {P : State → Prop} {s : State} {q : Req} {g : Grove} {run : Bool}
    (h : RunOpen s q (groveCtrl g) (s.withRun (groveCtrl g) run))
    (hgov : s.flag (groveRunCtl g).run = true ∨ s.flag (groveRunCtl g).stopped = true)
    (hstep : ∀ u gt, Journalled s u → u.plainWrite q gt groveReg (groveCtrl g) (s.withRun (groveCtrl g) run) =
        u.setFld (groveRunCtl g).run (b2n run) →
      P (u.groveCtlWrite q false gt groveReg (groveCtrl g) (s.withRun (groveCtrl g) run))) :
    P (s.busWrite q (groveCtrl g) (s.withRun (groveCtrl g) run)) := by
  obtain ⟨hopen, hbar, hres⟩ := h
  obtain ⟨hsize, hdp, hblock, htbl, harr, -⟩ := groveCtrl_facts g
  have hres := hres _ (findReg_groveCtrl g)
  refine State.busWrite_steps hopen.1 hsize hdp fun u hu => ?_
  have hgate := State.gateOf_run (q := q) (runCtl_groveCtrl g) rfl ((hu.barOf q false _).trans hbar)
  have hplain := State.plainWrite_run (s := u) (q := q) (g := u.gateOf q false (groveCtrl g)) (d := groveReg) (off := groveCtrl g)
    (run := run) (by decide) (by rw [hgate]) (by rw [hgate, hu.flag, hu.flag]; rcases hgov with h | h <;> simp [h]) (by rw [hgate])
    (by rw [hu.sys, hu.withRun]; exact hres)
  rw [hu.withRun] at hplain
  rw [State.regStep_open hopen hu (findReg_groveCtrl g)]
  have hwrite := hstep u _ hu hplain
  simpa [State.blockWrite, hblock, hu.sys, hres, State.gldWrite, htbl, harr] using hwrite

/-- A start request leaves the run controls alone and makes the Grove wait for its mark when its configuration stands. -/
theorem State.groveRunReq_effect (s : State) (g : Grove) :
    (s.groveRunReq g.val).flag (groveRunCtl g).run = s.flag (groveRunCtl g).run ∧
      ((s.groveRunReq g.val).grove g.val).run = if s.badCfg g.val = 0 then .starting else (s.grove g.val).run := by
  have hflag (v : Nat) : (s.setFld (F.GLD_G_STATUS.BAD_CFG.at (0x40 * g.val)) v).flag (groveRunCtl g).run = s.flag (groveRunCtl g).run :=
    State.flag_setFld_ne v (show 3 < 32 by decide) (.inl (by simp [Fld.at, F.GLD_G_STATUS.BAD_CFG, F.GLD_G_CTRL.RUN]))
  unfold State.groveRunReq
  extract_lets bad t
  split_ifs with hbad
  · exact ⟨hflag bad, by simp [State.grove, State.setGrove]⟩
  · exact ⟨hflag bad, by simp [t, State.grove]⟩

/-- A running Grove stops after its open Sets: the boundary is the last one's time-tag. -/
theorem State.groveStopReq_running {s : State} {g : Nat} {x : GSet} (hrun : (s.grove g).run = .running)
    (hx : (s.grove g).openSets.getLast? = some x) :
    s.groveStopReq g = s.setGrove g { s.grove g with run := .stopping, boundary := x.ttag } := by
  unfold State.groveStopReq
  dsimp only
  rw [hrun]
  dsimp only
  rw [hx]

section GroveWrite

variable {u : State} {q : Req} {gt : Gate} {g : Grove} {v : Nat}

/-- RUN of a stopped Grove written to one asks for its start. -/
theorem State.groveCtlWrite_starts (hconf : u.rateConflict g.val (bitsOf v 31 24) = false) (hrun : u.flag (groveRunCtl g).run = false)
    (hplain : u.plainWrite q gt groveReg (groveCtrl g) v = u.setFld (groveRunCtl g).run (b2n true)) :
    u.groveCtlWrite q false gt groveReg (groveCtrl g) v =
      (let w := (u.setFld (groveRunCtl g).run 1).groveRunReq g.val
      if (w.grove g.val).run = .starting then w else (w.setReg (groveCtrl g) (u.reg (groveCtrl g))).refuse q 1 (groveCtrl g)) := by
  have hset : (u.setFld (groveRunCtl g).run (b2n true)).flag (groveRunCtl g).run = true :=
    State.flag_setFld_same true (show 0 < 32 by decide) rfl
  obtain ⟨-, -, -, -, -, hidx⟩ := groveCtrl_facts g
  unfold State.groveCtlWrite
  extract_lets g' run t w
  have hg : g' = g.val := hidx
  have ht : t = u.setFld (groveRunCtl g).run (b2n true) := hplain
  clear_value g' t
  subst hg ht
  rw [hconf, if_neg (by decide), hrun, if_neg (by simp), hset, if_pos (by decide)]
  rfl

/-- RUN of a running Grove written to zero, in a mode that lets it stop, asks for its stop. -/
theorem State.groveCtlWrite_stops (hconf : u.rateConflict g.val (bitsOf v 31 24) = false) (hrun : u.flag (groveRunCtl g).run = true)
    (hmay : mayStop 2 u.sys.mode = true)
    (hplain : u.plainWrite q gt groveReg (groveCtrl g) v = u.setFld (groveRunCtl g).run (b2n false)) :
    u.groveCtlWrite q false gt groveReg (groveCtrl g) v = (u.setFld (groveRunCtl g).run 0).groveStopReq g.val := by
  have hclear : (u.setFld (groveRunCtl g).run (b2n false)).flag (groveRunCtl g).run = false :=
    State.flag_setFld_same false (show 0 < 32 by decide) rfl
  obtain ⟨-, -, -, -, -, hidx⟩ := groveCtrl_facts g
  unfold State.groveCtlWrite
  extract_lets g' run t w
  have hg : g' = g.val := hidx
  have ht : t = u.setFld (groveRunCtl g).run (b2n false) := hplain
  clear_value g' t
  subst hg ht
  rw [hconf, if_neg (by decide), hmay, if_neg (by simp), hrun, hclear, if_neg (by decide), if_pos (by decide)]
  rfl

end GroveWrite

/-- Settles O27: RUN moves alone, and what it sets off in the Grove is the start request or the stop. -/
theorem groveRunControl : Obligations.GroveRunControl := by
  unfold Obligations.GroveRunControl
  intro s q g off run rate
  have hrate (b : Bool) : bitsOf (s.withRun (groveCtrl g) b) 31 24 = rate := bitsOf_withRun b (by decide)
  have hblock : run.off / 0x10000 ≠ 0 := by
    obtain ⟨-, -, hblock, -⟩ := groveCtrl_facts g
    exact hblock ▸ (by decide : 7 ≠ 0)
  have hgrove (u : State) (v : Nat) : (u.setFld run v).grove g.val = u.grove g.val := by simp [State.grove]
  have hset (u : State) : (u.setFld run 1).flag run = true := State.flag_setFld_same true (show 0 < 32 by decide) rfl
  refine ⟨fun h hrun hstopped hconf => ⟨fun hbad => ⟨_, rfl, ?_⟩, fun hbad hidle => ⟨_, rfl, ?_⟩⟩,
    fun x h hrun hconf hmay hst hx => ⟨_, rfl, ?_⟩⟩
  · refine State.busWrite_grove (P := fun t => t.flag run = true ∧ (t.grove g.val).run = .starting) h
      (.inr hstopped) fun u gt hu hplain => ?_
    rw [State.groveCtlWrite_starts (by rw [hrate, hu.rateConflict, hconf]) ((hu.flag run).trans hrun) hplain]
    obtain ⟨hflag, hstart⟩ := (u.setFld run 1).groveRunReq_effect g
    rw [(hu.setFld run 1).badCfg, if_pos hbad] at hstart
    dsimp only
    rw [if_pos hstart]
    exact ⟨hflag.trans (hset u), hstart⟩
  · refine State.busWrite_grove (P := fun t => t.flag run = false ∧ (t.grove g.val).run = .stopped) h
      (.inr hstopped) fun u gt hu hplain => ?_
    rw [State.groveCtlWrite_starts (by rw [hrate, hu.rateConflict, hconf]) ((hu.flag run).trans hrun) hplain]
    obtain ⟨-, hstay⟩ := (u.setFld run 1).groveRunReq_effect g
    rw [(hu.setFld run 1).badCfg, if_neg hbad, hgrove, hu.grove, hidle] at hstay
    dsimp only
    rw [if_neg (by rw [hstay]; decide)]
    refine ⟨?_, by rw [State.grove, State.refuse_gld, State.setReg_gld]; exact hstay⟩
    rw [State.flag_congr (State.reg_refuse hblock)]
    exact ((State.flag_congr ((State.reg_setReg _ _ _ _).trans (if_pos rfl))).trans (hu.flag run)).trans hrun
  · refine State.busWrite_grove (P := fun t => t.flag run = false ∧ (t.grove g.val).run = .stopping ∧ (t.grove g.val).boundary = x.ttag)
      h (.inl hrun) fun u gt hu hplain => ?_
    rw [State.groveCtlWrite_stops (by rw [hrate, hu.rateConflict, hconf]) ((hu.flag run).trans hrun) (by rw [hu.sys, hmay]) hplain]
    have hstate : (u.setFld run 0).grove g.val = s.grove g.val := (hgrove u 0).trans (hu.grove g.val)
    rw [State.groveStopReq_running (by rw [hstate, hst]) (by rw [hstate, hx])]
    exact ⟨State.flag_setFld_same false (show 0 < 32 by decide) rfl, by simp [State.grove, State.setGrove],
      by simp [State.grove, State.setGrove]⟩

end Sys2Proof.Machine
end

section
/-!
SUPPORT. The run controls of the filter and the alarm block stand while the pass in progress is brought up and while waiting decisions
are taken (R226, R299 to R304).
-/

namespace Sys2Proof.Machine

open Sys2Proof.Safety

/-- The registers of the run controls of the filter and of the alarm block. -/
@[reducible] def runCtls (off : Nat) : Prop := off = R.FLT_CTRL ∨ off = R.FLT_STATUS ∨ off = R.ALM_CTRL ∨ off = R.ALM_STATUS

theorem not_runCtls_tblCnt (t i q : Nat) : ¬ runCtls (tblCntKey t i q) := by
  simp only [runCtls, R.FLT_CTRL, R.FLT_STATUS, R.ALM_CTRL, R.ALM_STATUS, tblCntKey, Nat.reducePow]
  omega

namespace Leaves

variable {s t : State}

/-! ## The filter's pass -/

theorem setFchan (h : Leaves runCtls s t) (k : Nat) (x : FChan) : Leaves runCtls s (t.setFchan k x) := h.upd

theorem resetChan (h : Leaves runCtls s t) (k : Nat) : Leaves runCtls s (t.resetChan k) := by
  have hreset (x : FChan) : Leaves runCtls s ((t.bump (fltCnt k 4)).setFchan k x) := (h.bump (not_runCtls_tblCnt _ _ _)).setFchan k x
  exact ite (raise (f := F.FLT_INT_STATUS.FADE_ABANDONED) (setCnt (hreset _) (not_runCtls_tblCnt _ _ _) _) (by decide)) (hreset _)

theorem startChange (h : Leaves runCtls s t) (k pass : Nat) : Leaves runCtls s (t.startChange k pass).1 := by
  unfold State.startChange
  extract_lets x new
  split_ifs
  · exact h.upd
  · exact raise (f := F.FLT_INT_STATUS.SWAP) (bump (resetChan (t := t.setFchan k _) h.upd k) (not_runCtls_tblCnt _ _ _)) (by decide)
  · exact h

theorem readyChan (h : Leaves runCtls s t) (k seq epoch pass : Nat) (broken absent : Bool) :
    Leaves runCtls s (t.readyChan k seq epoch pass broken absent) :=
  ite (h.startChange k pass) (ite ((h.startChange k pass).resetChan k) ((ite (h.resetChan k) h).startChange k pass))

theorem takeSample (h : Leaves runCtls s t) (k seq re im : Nat) : Leaves runCtls s (t.takeSample k seq re im).1 := by
  unfold State.takeSample
  extract_lets x ls a n
  clear_value a
  split
  · exact h.setFchan k _
  · extract_lets lb b
    clear_value b
    split_ifs
    · exact h.setFchan k _
    · exact h.setFchan k _
    · exact h.setFchan k _
    · exact raise (f := F.FLT_INT_STATUS.FADE_DONE) (setCnt (h.setFchan k _) (not_runCtls_tblCnt _ _ _) _) (by decide)

theorem chanPass (h : Leaves runCtls s t) (k g addr seq epoch pass : Nat) (broken : Bool) :
    Leaves runCtls s (t.chanPass k g addr seq epoch pass broken).1 := by
  have hcnt {u : State} (hu : Leaves runCtls s u) (q : Nat) : Leaves runCtls s (u.bump (fltCnt k q)) := hu.bump (not_runCtls_tblCnt _ _ _)
  unfold State.chanPass
  extract_lets t1 fresh smp t2 t3
  have h3 : Leaves runCtls s t3 := (ite (hcnt (hcnt h 0) 3) (hcnt h 0)).readyChan k seq epoch pass broken _
  clear_value smp t3
  split
  · exact (hcnt h3 2).setFchan k _
  · exact ((hcnt h3 1).setFchan k _).takeSample k seq _ _

theorem chansPass (g addr seq epoch pass : Nat) (broken : Bool) (ks : List Nat) (h : Leaves runCtls s t) :
    Leaves runCtls s (t.chansPass g addr seq epoch pass broken ks).1 := by
  induction ks generalizing t with
  | nil => exact h
  | cons k ks ih => exact ih (h.chanPass k g addr seq epoch pass broken)

theorem fltCatchUp (h : Leaves runCtls s t) : Leaves runCtls s t.fltCatchUp := by
  unfold State.fltCatchUp
  split
  · exact h
  · exact ite (chansPass _ _ _ _ _ _ _ h).upd h

/-! ## Waiting decisions and acknowledgements -/

theorem crossSend {K : Nat → Prop} {s t : State} (h : Leaves K s t) (kind : Nat) (payload : List Byte) :
    Leaves K s (t.crossSend kind payload) :=
  ite h.upd h

theorem setXngState {K : Nat → Prop} {s t : State} (h : Leaves K s t) (hK : ∀ off, K off → off / 0x10000 ≠ 14) (n : Nat) :
    Leaves K s (t.setXngState n) := by
  have hxng {k : Nat} (hk : k / 0x10000 = 14) : ¬ K k := fun a => hK k a hk
  have hdropped : Leaves K s t.dropDigests := (h.bumpBy (k := R.XNG_U_DIGESTS_TIMED_OUT) (hxng (by decide)) _).upd
  exact ite h (raise (setFld (f := F.XNG_STATUS.STATE) (ite h hdropped) (hxng (by decide)) n) (hxng (by decide)))

theorem matchDigests (h : Leaves runCtls s t) (a b : BitVec 128) (idx : Nat) : Leaves runCtls s (t.matchDigests a b idx) := by
  have hdiverge {u : State} (hu : Leaves runCtls s u) : Leaves runCtls s (u.diverge 0x20 idx) := by
    unfold State.diverge
    extract_lets t1 x t2
    have h2 : Leaves runCtls s t2 := upd (t := u.raise F.XNG_INT_STATUS.DIGEST) (hu.raise (by decide))
    exact ite (h2.setXngState (by rintro _ (rfl | rfl | rfl | rfl) <;> decide) 7).upd h2
  exact ite (h.bump (by decide)) (hdiverge (h.bump (by decide)))

theorem digest (h : Leaves runCtls s t) (kind idx seq : Nat) (bytes : List Byte) : Leaves runCtls s (t.digest kind idx seq bytes) := by
  unfold State.digest
  refine ite ?_ h
  extract_lets d t1
  have h1 : Leaves runCtls s t1 := crossSend (h.bump (by decide)) 4 _
  clear_value d t1
  split
  · exact matchDigests (t := { t1 with xng := _ }) h1.upd _ _ _
  · exact h1.upd

theorem outputMark (h : Leaves runCtls s t) (publish : Bool) (idx val : Nat) : Leaves runCtls s (t.outputMark publish idx val) :=
  ite ((h.crossSend 1 _).bump (by decide)) h

theorem pcount (h : Leaves runCtls s t) {r : Nat} (hr : r < 0x70000) (p : Nat) : Leaves runCtls s (t.pbump p r) := by
  refine h.bump ?_
  have hwin : netWin p ≤ 0xC000 := by unfold netWin; split <;> omega
  simp only [pcnt, runCtls, R.FLT_CTRL, R.FLT_STATUS, R.ALM_CTRL, R.ALM_STATUS]
  omega

theorem alarmSubmit (h : Leaves runCtls s t) (p : Nat) (f : TxFrame) : Leaves runCtls s (t.alarmSubmit p f) :=
  ite ((h.pcount (by decide) p).pcount (by decide) p) ((h.txQueue (by rintro _ (rfl | rfl | rfl | rfl) <;> decide) p f).pcount (by decide) p)

theorem alarmFrame (h : Leaves runCtls s t) (aseq flags : Nat) (i : AlmInfo) (n : Nat) :
    Leaves runCtls s (t.alarmFrame aseq flags i n) := by
  unfold State.alarmFrame
  extract_lets n' x t1 port bytes paused t2 t3
  have h1 : Leaves runCtls s t1 := h.upd
  have h2 : Leaves runCtls s t2 := (h1.bump (by decide)).outputMark false n n'
  have h3 : Leaves runCtls s t3 := ite (h2.alarmSubmit port _) (h2.alarmSubmit port _).upd
  exact ite h3.upd (ite h1.upd h1)

theorem alarmRecord (h : Leaves runCtls s t) (c : AlmCtx) (p new : Nat) (mark : Option (Nat × Nat × Nat)) (flags : Nat)
    (counts : List Nat) : Leaves runCtls s (t.alarmRecord c p new mark flags counts) := by
  unfold State.alarmRecord
  extract_lets x n addr flags' rflags i t1 t2 t3 r y t4
  have h2 : Leaves runCtls s t2 := h.upd
  have h3 : Leaves runCtls s t3 := h2.digest 3 p n _
  clear_value t3
  have h4 : Leaves runCtls s t4 := h3.upd
  exact foldl (fun n h => h.alarmFrame _ _ _ n) _ h4

theorem refreshOutputs {K : Nat → Prop} {s t : State} (h : Leaves K s t) : Leaves K s t.refreshOutputs := ite h.upd h.upd

theorem decidePoint (h : Leaves runCtls s t) (c : AlmCtx) (p : Nat) (value : Bool) : Leaves runCtls s (t.decidePoint c p value) :=
  ite ((h.bump (by decide)).bump (by decide)) (ite (h.alarmRecord _ _ _ _ _ _) (h.alarmRecord _ _ _ _ _ _))

theorem resolvePoint (h : Leaves runCtls s t) (c : AlmCtx) (dec : SMap Nat) (p : Nat) :
    Leaves runCtls s (t.resolvePoint c dec p) := by
  unfold State.resolvePoint
  extract_lets x d
  split
  · exact ite (h.alarmRecord _ _ _ _ _ _) (ite (h.alarmRecord _ _ _ _ _ _) ((h.raise (by decide)).alarmRecord _ _ _ _ _ _))
  · exact h.alarmRecord _ _ _ _ _ _

theorem takeBatch (h : Leaves runCtls s t) (b : AlmBatch) (x : AlmCtx) : Leaves runCtls s (t.takeBatch b x) := by
  unfold State.takeBatch
  extract_lets key y t1 replaced t2 own plain t3
  have h2 : Leaves runCtls s t2 := bumpBy (bumpBy (t := t1) h.upd (by decide) replaced) (by decide) replaced
  have h3 : Leaves runCtls s t3 := foldl (fun d h => h.decidePoint x d.1 _) plain h2
  exact ite (raise (bump (h.bumpBy (by decide) _) (by decide)) (by decide))
    (refreshOutputs (foldl (fun p h => h.resolvePoint x own p) _ h3))

theorem takeAck (h : Leaves runCtls s t) (p : Nat) : Leaves runCtls s (t.takeAck p) :=
  ite (h.bump (by decide)) (ite h (h.alarmRecord _ _ _ _ _ _).refreshOutputs)

theorem takeWaiting (h : Leaves runCtls s t) : Leaves runCtls s t.takeWaiting := by
  refine foldl (fun w h => ?_) _ (upd (u := { t with alm := { t.alm with waiting := [] } }) h)
  cases w with
  | batch b x => exact h.takeBatch b x
  | ack p => exact h.takeAck p

theorem setAccOut {K : Nat → Prop} {s t : State} (h : Leaves K s t) (n : Nat) (x : AccOut) : Leaves K s (t.setAccOut n x) := h.upd

theorem setPulse {K : Nat → Prop} {s t : State} (h : Leaves K s t) (n : Nat) (on : Bool) : Leaves K s (t.setPulse n on) := h.upd

/-- Pulse outputs and levels follow the drive state; counters of pulse outputs rise (R357). -/
theorem driveChanged {K : Nat → Prop} {s t : State} (h : Leaves K s t) (hK : ∀ n q, ¬ K (outCnt n q)) (old : Drive) :
    Leaves K s (t.driveChanged old) := by
  have hheld : Leaves K s t.accHeld := foldl (fun n h => ((h.bumpBy (hK n 2) _).setAccOut n _).setPulse n false) _ h
  have hfrozen : Leaves K s t.accFrozen := foldl (fun n h => h.setAccOut n _) _ h
  have hdriven : Leaves K s t.accDriven := by
    refine foldl (fun n h => ?_) _ h
    dsimp only
    split
    · exact h
    · exact h.setAccOut n _
  unfold State.driveChanged
  refine refreshOutputs (ite h ?_)
  split
  · exact hheld
  · exact hfrozen
  · exact hdriven

end Leaves

end Sys2Proof.Machine
end

section
/-!
Run controls of the blocks: start, stop and stop point (O26).
-/

namespace Sys2Proof.Machine

open Sys2Proof.Safety

/-! ## A block's control register -/

/-- What the map says of a block's control register and of its run control. -/
structure CtrlFacts (off : Nat) (c : RunCtl) : Prop where
  inCtrl : off < ctrlSize
  noDp : isDpReg off = false
  found : (findReg off).any runReg = true
  governs : (runCtl off).isSome = true
  run : c.run = ⟨off, 0, 0⟩
  apart : c.stopped.off ≠ off
  oneBit : c.stopped.hi = c.stopped.lo ∧ c.stopped.hi < 32
  notSys : off / 0x10000 ≠ 0 ∧ c.stopped.off / 0x10000 ≠ 0
  stoppedIn : c.stopped.off < ctrlSize

theorem blkCtrl_facts (b : BlockId) : CtrlFacts (blkCtrl b) (blkRunCtl b) := by
  cases b with
  | port p =>
    have hport : ∀ p : Port, blkCtrl (.port p) < ctrlSize ∧ isDpReg (blkCtrl (.port p)) = false ∧
        (findReg (blkCtrl (.port p))).any runReg = true ∧ (runCtl (blkCtrl (.port p))).isSome = true ∧
        (blkRunCtl (.port p)).run = ⟨blkCtrl (.port p), 0, 0⟩ ∧ (blkRunCtl (.port p)).stopped.off ≠ blkCtrl (.port p) ∧
        ((blkRunCtl (.port p)).stopped.hi = (blkRunCtl (.port p)).stopped.lo ∧ (blkRunCtl (.port p)).stopped.hi < 32) ∧
        (blkCtrl (.port p) / 0x10000 ≠ 0 ∧ (blkRunCtl (.port p)).stopped.off / 0x10000 ≠ 0) ∧
        (blkRunCtl (.port p)).stopped.off < ctrlSize := by decide
    obtain ⟨h1, h2, h3, h4, h5, h6, h7, h8, h9⟩ := hport p
    exact ⟨h1, h2, h3, h4, h5, h6, h7, h8, h9⟩
  | _ => exact ⟨by decide, by decide, by decide, by decide, by decide, by decide, by decide, by decide, by decide⟩

theorem runCtl_blkCtrl (b : BlockId) : runCtl (blkCtrl b) = some (blkRunCtl b) := by
  obtain ⟨c, hc⟩ := Option.isSome_iff_exists.mp (blkCtrl_facts b).governs
  rw [blkRunCtl, hc]
  rfl

theorem findReg_blkCtrl (b : BlockId) : ∃ d, findReg (blkCtrl b) = some d ∧ runReg d = true := by
  simpa [Option.any_eq_true] using (blkCtrl_facts b).found

/-! ## What a run control shows -/

/-- RUN, STOPPED and the mode. -/
def Shows (c : RunCtl) (run stopped : Bool) (m : Mode) (t : State) : Prop :=
  t.flag c.run = run ∧ t.flag c.stopped = stopped ∧ t.sys.mode = m

section

variable {b : BlockId} {run stopped : Bool} {m : Mode} {s t : State}

theorem Shows.keeps (h : Shows (blkRunCtl b) run stopped m s) (hmode : t.sys.mode = s.sys.mode)
    (hreg : ∀ k, k = blkCtrl b ∨ k = (blkRunCtl b).stopped.off → t.reg k = s.reg k) : Shows (blkRunCtl b) run stopped m t := by
  obtain ⟨hrun, hstopped, hm⟩ := h
  have hoff : (blkRunCtl b).run.off = blkCtrl b := by rw [(blkCtrl_facts b).run]
  exact ⟨(State.flag_congr (hreg _ (.inl hoff))).trans hrun, (State.flag_congr (hreg _ (.inr rfl))).trans hstopped, hmode.trans hm⟩

theorem Shows.setRun (h : Shows (blkRunCtl b) run stopped m s) (x : Bool) :
    Shows (blkRunCtl b) x stopped m (s.setFld (blkRunCtl b).run (b2n x)) := by
  obtain ⟨-, hstopped, hm⟩ := h
  have hrun := (blkCtrl_facts b).run
  refine ⟨State.flag_setFld_same x (by rw [hrun]; exact Nat.zero_lt_succ _) (by rw [hrun]), ?_, by rw [State.setFld_sys]; exact hm⟩
  rw [State.flag_setFld_ne _ (by rw [hrun]; exact Nat.zero_lt_succ _) (.inl (by rw [hrun]; exact (blkCtrl_facts b).apart))]
  exact hstopped

theorem Shows.setStopped (h : Shows (blkRunCtl b) run stopped m s) (x : Bool) :
    Shows (blkRunCtl b) run x m (s.setFld (blkRunCtl b).stopped (b2n x)) := by
  obtain ⟨hr, -, hm⟩ := h
  obtain ⟨hbit, hlt⟩ := (blkCtrl_facts b).oneBit
  have hrun := (blkCtrl_facts b).run
  refine ⟨?_, State.flag_setFld_same x hlt hbit, by rw [State.setFld_sys]; exact hm⟩
  rw [State.flag_setFld_ne _ hlt (.inl (by rw [hrun]; exact (blkCtrl_facts b).apart.symm))]
  exact hr

theorem State.beginTrans_mode (s : State) (m : Mode) (cause : Nat) : (s.beginTrans m cause).sys.mode = s.sys.mode := by
  obtain ⟨-, hsys⟩ := s.beginTrans_frame m cause
  rw [hsys]

/-- A resource named in SYS_DEGRADED touches SYS alone and leaves the mode. -/
theorem Shows.nameRun (h : Shows (blkRunCtl b) run stopped m s) (bit : Option Nat) (out : Bool) :
    Shows (blkRunCtl b) run stopped m (s.nameRun bit out) := by
  have hname (n : Nat) : Shows (blkRunCtl b) run stopped m (s.nameOut n out) := by
    refine h.keeps ?_ fun k hk => ?_
    · exact (State.nameOut_keeps (·.sys.mode) State.beginTrans_mode (fun _ _ => rfl) s n out).trans (by rw [State.setReg_sys])
    · have hk : k / 0x10000 ≠ 0 := by
        obtain ⟨hctrl, hstatus⟩ := (blkCtrl_facts b).notSys
        rcases hk with rfl | rfl <;> assumption
      have hne {r : Nat} (hr : r / 0x10000 = 0) : k ≠ r := by
        rintro rfl
        exact hk hr
      have htrans (s : State) (m : Mode) (cause : Nat) := State.beginTrans_reg s m cause ⟨hne rfl, hne rfl, hne rfl⟩
      refine (State.nameOut_keeps (·.reg k) htrans (fun _ _ => rfl) s n out).trans ?_
      rw [State.reg_setReg, if_neg (hne rfl)]
  unfold State.nameRun
  split
  · exact h
  · exact both_arms (Shows _ _ _ _) (hname _) h

/-- The physical state of a port stands in other bits than STOPPED. -/
theorem Shows.showPhy {p : Port} (h : Shows (blkRunCtl (.port p)) run stopped m s) :
    Shows (blkRunCtl (.port p)) run stopped m (s.showPhy p.val) := by
  have hfld {t : State} (ht : Shows (blkRunCtl (.port p)) run stopped m t) (f : Fld) (v : Nat) (hf : f.hi < 32)
      (hrun : f.off ≠ R.NET_CTRL) (hbit : f.off ≠ R.NET_STATUS ∨ 0 < f.lo) :
      Shows (blkRunCtl (.port p)) run stopped m (t.setFld (f.at (netWin p.val)) v) := by
    obtain ⟨hr, hs, hm⟩ := ht
    have hctl : ∀ p : Port, (blkRunCtl (.port p)).run = ⟨R.NET_CTRL + netWin p.val, 0, 0⟩ ∧
        (blkRunCtl (.port p)).stopped = ⟨R.NET_STATUS + netWin p.val, 0, 0⟩ := by decide
    obtain ⟨hctrl, hstatus⟩ := hctl p
    refine ⟨Eq.trans (State.flag_setFld_ne _ hf (.inl ?_)) hr, Eq.trans (State.flag_setFld_ne _ hf ?_) hs, by rw [State.setFld_sys]; exact hm⟩
    · rw [hctrl]
      simpa [Fld.at] using hrun.symm
    · rw [hstatus]
      simpa [Fld.at, eq_comm] using hbit
  unfold State.showPhy
  extract_lets x was fits link t1 t2
  have h1 : Shows (blkRunCtl (.port p)) run stopped m t1 :=
    hfld (hfld h F.NET_STATUS.MODULE _ (by decide) (by decide) (by decide)) F.NET_STATUS.LINK _ (by decide) (by decide) (by decide)
  have h2 : Shows (blkRunCtl (.port p)) run stopped m t2 := hfld h1 F.NET_STATUS.FEC_LOCK _ (by decide) (by decide) (by decide)
  exact both_arms (Shows _ _ _ _) h (both_arms (Shows _ _ _ _) h2 (hfld h2 F.NET_INT_STATUS.LINK 1 (by decide) (by decide) (by decide)))

/-! ## What follows a move of RUN -/

/-- Side work that leaves the two registers alone. -/
theorem Shows.leaves {K : Nat → Prop} (h : Shows (blkRunCtl b) run stopped m s) (hst : Leaves K s t) (hctrl : K (blkCtrl b))
    (hstatus : K (blkRunCtl b).stopped.off) : Shows (blkRunCtl b) run stopped m t :=
  h.keeps hst.mode fun k hk => hst.reg k (by rcases hk with rfl | rfl <;> assumption)

/-- The outputs follow the drive state. -/
theorem Shows.driveChanged (h : Shows (blkRunCtl b) run stopped m s) (old : Drive) :
    Shows (blkRunCtl b) run stopped m (s.driveChanged old).refreshOutputs := by
  have hsmall : blkCtrl b < ctrlSize ∧ (blkRunCtl b).stopped.off < ctrlSize := ⟨(blkCtrl_facts b).inCtrl, (blkCtrl_facts b).stoppedIn⟩
  refine h.leaves (K := (· < ctrlSize)) ((Leaves.refl _ s).driveChanged (fun n q => ?_) old).refreshOutputs hsmall.1 hsmall.2
  simp only [ctrlSize, outCnt, tblCntKey, Nat.reducePow]
  omega

theorem blkCtrl_alm {b : BlockId} (h : blkCtrl b / 0x10000 = 11) : b = .alm := by
  cases b with
  | alm => rfl
  | port p =>
    have hport : ∀ p : Port, blkCtrl (.port p) / 0x10000 ≠ 11 := by decide
    exact absurd h (hport p)
  | _ => exact absurd h (by decide)

/-- What follows a write of zero: the outputs of the alarm block, and nothing of the run control. -/
theorem Shows.runMoved_stop {o : State} (h : Shows (blkRunCtl b) false stopped m s) :
    Shows (blkRunCtl b) false stopped m (s.runMoved o (blkCtrl b) (blkRunCtl b)) := by
  unfold State.runMoved
  extract_lets was is drive t
  have ht : t = s := if_neg (by rw [show is = false from h.1]; simp)
  rw [ht]
  exact both_arms (Shows _ _ _ _) (h.driveChanged drive) h

/-- A block that runs from now on: what waited is taken up, and the resource is named in again. -/
theorem Shows.blockRuns (h : Shows (blkRunCtl b) true stopped m s) :
    Shows (blkRunCtl b) true false m (s.blockRuns (blkCtrl b) (blkRunCtl b)) := by
  unfold State.blockRuns
  extract_lets t u
  have ht : Shows (blkRunCtl b) true false m t := h.setStopped false
  refine Shows.nameRun ?_ _ false
  dsimp only [u]
  split
  · refine ht.keeps ?_ fun k _ => ?_
    all_goals unfold State.fltResume; split <;> rfl
  · exact ht
  next hb =>
    obtain rfl := blkCtrl_alm hb
    exact ht.leaves (Leaves.refl runCtls t).takeWaiting (by decide) (by decide)
  · exact ht

/-- A write of one on a stopped block: it runs. -/
theorem Shows.runMoved_start {o : State} (h : Shows (blkRunCtl b) true stopped m s) (ho : o.flag (blkRunCtl b).run = false) :
    Shows (blkRunCtl b) true false m (s.runMoved o (blkCtrl b) (blkRunCtl b)) := by
  unfold State.runMoved
  extract_lets was is drive t
  have ht : Shows (blkRunCtl b) true false m t := by
    have heq : t = s.blockRuns (blkCtrl b) (blkRunCtl b) := if_pos (by rw [show is = true from h.1, show was = false from ho]; rfl)
    rw [heq]
    exact h.blockRuns
  exact both_arms (Shows _ _ _ _) (ht.driveChanged drive) ht

end

/-! ## The write -/

section

variable {b : BlockId} {run stopped : Bool} {m : Mode} {u : State} {q : Req} {gt : Gate} {d : RegD} {v : Nat}

/-- RUN written to zero in a mode that does not let the block stop is refused. -/
theorem State.ctlWrite_refuses (hrun : u.flag (blkRunCtl b).run = true) (hv : bitOf v 0 = false)
    (hmay : mayStop (blkRunCtl b).stops u.sys.mode = false) :
    u.ctlWrite q false gt d (blkCtrl b) v = u.refuse q 3 (blkCtrl b) := by
  unfold State.ctlWrite
  rw [runCtl_blkCtrl]
  dsimp only
  rw [if_neg (by rw [(blkCtrl_facts b).run]; simp), if_pos (by rw [hrun, hv, hmay]; rfl)]

theorem blkCtrl_flt {b : BlockId} (h : blkCtrl b = R.FLT_CTRL) : b = .flt := by
  cases b with
  | flt => rfl
  | port p =>
    have hport : ∀ p : Port, blkCtrl (.port p) ≠ R.FLT_CTRL := by decide
    exact absurd h (hport p)
  | _ => exact absurd h (by decide)

/-- The state in which RUN moves: the filter's pass brought up to this moment (R226). -/
def State.upToDate (s : State) (b : BlockId) : State := if blkCtrl b = R.FLT_CTRL then s.fltCatchUp else s

theorem Shows.upToDate (h : Shows (blkRunCtl b) run stopped m u) : Shows (blkRunCtl b) run stopped m (u.upToDate b) := by
  unfold State.upToDate
  split
  next hflt =>
    obtain rfl := blkCtrl_flt hflt
    exact h.leaves (Leaves.refl runCtls u).fltCatchUp (by decide) (by decide)
  · exact h

theorem State.upToDate_reg (s : State) (b : BlockId) : (s.upToDate b).reg (blkCtrl b) = s.reg (blkCtrl b) := by
  unfold State.upToDate
  split
  next hflt => exact (Leaves.refl runCtls s).fltCatchUp.reg _ (.inl hflt)
  · rfl

theorem State.upToDate_nominal (s : State) (b : BlockId) : (s.upToDate b).sys.nominal60 = s.sys.nominal60 := by
  unfold State.upToDate
  split
  · rw [(Leaves.refl runCtls s).fltCatchUp.sys]
  · rfl

/-- RUN moves alone. -/
theorem State.ctlWrite_moves (hd : runReg d = true) (hbar : gt.bar = none) (hstop : gt.stop = false) (hbit : gt.runBit = some 0)
    (hr : reservedHit u.sys.nominal60 d.fields (u.withRun (blkCtrl b) run) = false)
    (hgo : u.flag (blkRunCtl b).run = true → run = false → mayStop (blkRunCtl b).stops u.sys.mode = true) :
    u.ctlWrite q false gt d (blkCtrl b) (u.withRun (blkCtrl b) run) =
      ((u.upToDate b).setFld (blkRunCtl b).run (b2n run)).runMoved (u.upToDate b) (blkCtrl b) (blkRunCtl b) := by
  have hword : u.withRun (blkCtrl b) run = (u.upToDate b).withRun (blkCtrl b) run := by
    rw [State.withRun, State.withRun, u.upToDate_reg]
  have hplain : (u.upToDate b).plainWrite q gt d (blkCtrl b) (u.withRun (blkCtrl b) run) =
      (u.upToDate b).setFld (blkRunCtl b).run (b2n run) := by
    rw [hword, (blkCtrl_facts b).run]
    exact State.plainWrite_run hd hbar hstop hbit (by rw [u.upToDate_nominal, ← hword]; exact hr)
  unfold State.ctlWrite
  rw [runCtl_blkCtrl]
  dsimp only
  rw [if_neg (by rw [(blkCtrl_facts b).run]; simp), if_neg, ← hplain]
  · rfl
  · rw [bitOf_withRun]
    intro hcond
    simp only [Bool.not_false, Bool.and_true, Bool.and_eq_true, Bool.not_eq_true'] at hcond
    obtain ⟨⟨hrun, hv⟩, hmay⟩ := hcond
    rw [hgo hrun hv] at hmay
    exact absurd hmay (by decide)

/-- The write of a block's control register is that of its run control; a port shows its physical state after it. -/
theorem State.blockWrite_ctl (hr : reservedHit u.sys.nominal60 d.fields v = false)
    (hport : ∀ p, b = .port p → bitOf v 12 = false ∧ (bitOf v 10 = true → u.sys.mode = .test)) :
    u.blockWrite q false d (blkCtrl b) v =
      (let t := u.ctlWrite q false (u.gateOf q false (blkCtrl b)) d (blkCtrl b) v
      match b with
      | .port p => if t.refusals != u.refusals then t else t.showPhy p.val
      | _ => t) := by
  unfold State.blockWrite
  extract_lets g t
  rw [if_neg (by rw [hr]; simp)]
  cases b with
  | port p =>
    have hwin : ∀ p : Port, blkCtrl (.port p) / 0x10000 = 4 ∧ windowPort (blkCtrl (.port p)) = some p.val ∧
        netNorm (blkCtrl (.port p)) = R.NET_CTRL := by decide
    obtain ⟨hblock, hwindow, hnorm⟩ := hwin p
    obtain ⟨hflush, hloop⟩ := hport p rfl
    rw [hblock]
    dsimp only
    unfold State.netWrite
    rw [hwindow, hnorm, hflush]
    dsimp only
    rw [if_neg (by decide), if_neg (by simpa using hloop), if_neg (by simp)]
    rfl
  | flt => rfl
  | osc => rfl
  | isl => rfl
  | cap => rfl
  | acc => rfl
  | ing => rfl
  | gld => rfl
  | tim => rfl
  | alm => rfl
  | xng => rfl

/-- A port's write of RUN neither flushes nor turns a loop on. -/
theorem withRun_portBits {s : State} {off : Nat} (h : (s.reg off).getLsbD 12 = false ∧ ((s.reg off).getLsbD 10 = true → s.sys.mode = .test)) :
    bitOf (s.withRun off run) 12 = false ∧ (bitOf (s.withRun off run) 10 = true → s.sys.mode = .test) := by
  have hbit (i : Nat) (hi : 0 < i) : bitOf (s.withRun off run) i = (s.reg off).getLsbD i := by
    rw [bitOf, State.withRun, testBit_putBits, if_neg (by omega), if_neg (by omega), BitVec.testBit_toNat]
  rw [hbit 12 (by decide), hbit 10 (by decide)]
  exact h

/-- A step that moves RUN of a block, of a write that may do so. -/
theorem Shows.regStep {s : State} (h : RunOpen s q (blkCtrl b) (s.withRun (blkCtrl b) run)) (hu : Journalled s u)
    (hport : ∀ p, b = .port p → (s.reg (blkCtrl b)).getLsbD 12 = false ∧ ((s.reg (blkCtrl b)).getLsbD 10 = true → s.sys.mode = .test))
    (hgov : s.flag (blkRunCtl b).run = true ∨ s.flag (blkRunCtl b).stopped = true)
    (hgo : s.flag (blkRunCtl b).run = true → run = false → mayStop (blkRunCtl b).stops s.sys.mode = true)
    (hmoved : ∀ w : State, Shows (blkRunCtl b) (s.flag (blkRunCtl b).run) (s.flag (blkRunCtl b).stopped) s.sys.mode w →
      Shows (blkRunCtl b) run stopped m ((w.setFld (blkRunCtl b).run (b2n run)).runMoved w (blkCtrl b) (blkRunCtl b))) :
    Shows (blkRunCtl b) run stopped m (u.regStep q false (blkCtrl b) (s.withRun (blkCtrl b) run)) := by
  obtain ⟨hopen, hbar, hres⟩ := h
  obtain ⟨d, hfind, hd⟩ := findReg_blkCtrl b
  have hres : reservedHit u.sys.nominal60 d.fields (u.withRun (blkCtrl b) run) = false := by
    rw [hu.sys, hu.withRun]
    exact hres d hfind
  have hgate := State.gateOf_run (runCtl_blkCtrl b) (by rw [(blkCtrl_facts b).run]) ((hu.barOf q false _).trans hbar)
  have hmoves := State.ctlWrite_moves (q := q) (gt := u.gateOf q false (blkCtrl b)) hd (by rw [hgate])
    (by rw [hgate, hu.flag, hu.flag]; rcases hgov with h | h <;> simp [h]) (by rw [hgate]) hres (by rw [hu.flag, hu.sys]; exact hgo)
  have hbits : ∀ p, b = .port p → bitOf (u.withRun (blkCtrl b) run) 12 = false ∧
      (bitOf (u.withRun (blkCtrl b) run) 10 = true → u.sys.mode = .test) := by
    intro p hp
    rw [hu.withRun, hu.sys]
    exact withRun_portBits (hport p hp)
  have hstart : Shows (blkRunCtl b) (s.flag (blkRunCtl b).run) (s.flag (blkRunCtl b).stopped) s.sys.mode u :=
    ⟨hu.flag _, hu.flag _, by rw [hu.sys]⟩
  have hdone := hmoved _ hstart.upToDate
  rw [State.regStep_open hopen hu hfind, ← hu.withRun, State.blockWrite_ctl hres hbits, hmoves]
  dsimp only
  split
  next p => exact both_arms (Shows _ _ _ _) hdone hdone.showPhy
  · exact hdone

end

/-- Run controls: the refusal, the write of zero, the stop point and the write of one. -/
theorem blockRunControl : Safety.BlockRunControl := by
  unfold Safety.BlockRunControl
  intro s q b c v word hport
  have hf := blkCtrl_facts b
  refine ⟨fun h hrun hmay => ⟨_, rfl, ?_⟩, fun h hrun hmay => ⟨_, rfl, ?_⟩, fun hrun hstopped hpoint => ?_,
    fun h hrun hstopped => ⟨_, rfl, ?_⟩⟩
  · obtain ⟨hopen, -, hres⟩ := h
    have ⟨hreach, _, _, hcount⟩ := hopen
    obtain ⟨d, hfind, -⟩ := findReg_blkCtrl b
    have hstep : s.regStep q false (blkCtrl b) (v false) = s.refuse q 3 (blkCtrl b) := by
      rw [State.regStep_open hopen (Journalled.refl s) hfind,
        State.blockWrite_ctl (hres d hfind) (fun p hp => withRun_portBits (hport p hp)),
        State.ctlWrite_refuses hrun (bitOf_withRun s _ false) hmay]
      dsimp only
      split
      · exact if_pos (by simpa using State.refusals_refuse hcount q 3 _)
      · rfl
    rw [State.busWrite_refuses hreach hf.inCtrl hf.noDp hcount hstep]
    rfl
  · have ⟨⟨hreach, _⟩, _⟩ := h
    refine State.busWrite_steps (P := Shows c false (s.flag c.stopped) s.sys.mode) hreach hf.inCtrl hf.noDp fun u hu => ?_
    exact Shows.regStep h hu hport (.inl hrun) (fun _ _ => hmay) fun w hw => (hw.setRun false).runMoved_stop
  · have hstart : Shows c false false s.sys.mode s := ⟨hrun, hstopped, rfl⟩
    obtain ⟨hr, hs, hm⟩ := (hstart.setStopped true).nameRun c.bit true
    have hgo : ¬ (s.flag c.run || s.flag c.stopped || !s.atStopPoint b) = true := by
      rw [hrun, hstopped, hpoint]
      decide
    exact ⟨_, if_neg hgo, hs, hr, hm⟩
  · have ⟨⟨hreach, _⟩, _⟩ := h
    refine State.busWrite_steps (P := Shows c true false s.sys.mode) hreach hf.inCtrl hf.noDp fun u hu => ?_
    exact Shows.regStep h hu hport (.inr hstopped) (fun _ hv => absurd hv (by decide)) fun w hw =>
      (hw.setRun true).runMoved_start (hw.1.trans hrun)

end Sys2Proof.Machine
end

section
/-!
Block resets (O26): the engine's own state starts again, and its run control stays where the reset put it.
-/

namespace Sys2Proof.Machine

open Sys2Proof.Safety

/-- The run control, the cores and mode control stand. -/
structure RunKept (c : RunCtl) (s t : State) : Prop where
  run : t.flag c.run = s.flag c.run
  stopped : t.flag c.stopped = s.flag c.stopped
  cores : t.cores = s.cores
  sys : t.sys = s.sys

namespace RunKept

variable {c : RunCtl} {s t u : State}

theorem refl (c : RunCtl) (s : State) : RunKept c s s := ⟨rfl, rfl, rfl, rfl⟩

theorem trans (a : RunKept c s t) (b : RunKept c t u) : RunKept c s u :=
  ⟨b.run.trans a.run, b.stopped.trans a.stopped, b.cores.trans a.cores, b.sys.trans a.sys⟩

theorem ite {p : Prop} [Decidable p] (h : RunKept c s t) (g : RunKept c s u) : RunKept c s (if p then t else u) :=
  both_arms (RunKept c s) h g

theorem foldl {α : Type} {f : State → α → State} (hf : ∀ {t : State} (x : α), RunKept c s t → RunKept c s (f t x)) (l : List α)
    (h : RunKept c s t) : RunKept c s (l.foldl f t) := by
  induction l generalizing t with
  | nil => exact h
  | cons x l ih => exact ih (hf x h)

/-- Registers, cores and mode control untouched. -/
theorem upd (h : RunKept c s t) (hregs : u.regs = t.regs := by rfl) (huregs : u.uregs = t.uregs := by rfl)
    (hcores : u.cores = t.cores := by rfl) (hsys : u.sys = t.sys := by rfl) : RunKept c s u := by
  have hreg (off : Nat) : u.reg off = t.reg off := by rw [State.reg, State.reg, hregs, huregs]
  exact h.trans ⟨State.flag_congr (hreg _), State.flag_congr (hreg _), hcores, hsys⟩

/-- A field in other bits than the run control's. -/
theorem setFld (h : RunKept c s t) {f : Fld} (v : Nat) (hf : f.hi < 32)
    (hrun : c.run.off ≠ f.off ∨ c.run.hi < f.lo ∨ f.hi < c.run.lo)
    (hstopped : c.stopped.off ≠ f.off ∨ c.stopped.hi < f.lo ∨ f.hi < c.stopped.lo) : RunKept c s (t.setFld f v) :=
  h.trans ⟨State.flag_setFld_ne v hf hrun, State.flag_setFld_ne v hf hstopped, t.setFld_cores f v, t.setFld_sys f v⟩

theorem setReg (h : RunKept c s t) {off : Nat} (v : Word) (hrun : c.run.off ≠ off) (hstopped : c.stopped.off ≠ off) :
    RunKept c s (t.setReg off v) :=
  h.trans ⟨State.flag_congr (by rw [State.reg_setReg, if_neg hrun]), State.flag_congr (by rw [State.reg_setReg, if_neg hstopped]),
    t.setReg_cores off v, t.setReg_sys off v⟩

theorem setCnt (h : RunKept c s t) (k : Nat) (v : DWord) : RunKept c s (t.setCnt k v) := h.upd (by simp) (by simp) (by simp) (by simp)

theorem bumpBy (h : RunKept c s t) (k n : Nat) : RunKept c s (t.bumpBy k n) := h.upd (by simp) (by simp) (by simp) (by simp)

theorem ringLog (h : RunKept c s t) (type origin : Nat) (data : List Byte) (hrun : c.run.off ≠ R.UND_INT_STATUS)
    (hstopped : c.stopped.off ≠ R.UND_INT_STATUS) : RunKept c s (t.ringLog type origin data) :=
  h.trans ⟨State.flag_congr (t.reg_ringLog _ _ _ hrun), State.flag_congr (t.reg_ringLog _ _ _ hstopped), by simp, by simp⟩

theorem refreshOutputs (h : RunKept c s t) : RunKept c s t.refreshOutputs := ite h.upd h.upd

end RunKept

/-! ## The engines' own state -/

/-- A tracker or a slot reset is counted and flagged. -/
theorem State.oscFlagged_kept {s t : State} (h : RunKept (blkRunCtl .osc) s t) (k : Nat) :
    RunKept (blkRunCtl .osc) s ((t.bump k).raise F.OSC_INT_STATUS.RESET) :=
  RunKept.setFld (h.bumpBy k 1) 1 (by decide) (by decide) (by decide)

theorem State.resetTracker_kept {s t : State} (h : RunKept (blkRunCtl .osc) s t) (j : Nat) (held : Bool) (n : Nat) :
    RunKept (blkRunCtl .osc) s (t.resetTracker j held n) := by
  unfold State.resetTracker
  extract_lets x u
  have hu : RunKept (blkRunCtl .osc) s u := State.oscFlagged_kept h (trkCnt j 4)
  clear_value u
  exact hu.upd

theorem State.resetSlot_kept {s t : State} (h : RunKept (blkRunCtl .osc) s t) (i : Nat) (held : Bool) (n : Nat) :
    RunKept (blkRunCtl .osc) s (t.resetSlot i held n) := by
  unfold State.resetSlot
  extract_lets x u
  have hu : RunKept (blkRunCtl .osc) s u := State.oscFlagged_kept h (foCnt i 6)
  clear_value u
  exact hu.upd

theorem State.oscReset_kept (s : State) : RunKept (blkRunCtl .osc) s s.oscReset := by
  unfold State.oscReset
  extract_lets e1 trk e2 slots x t u
  have ht : RunKept (blkRunCtl .osc) s t := (RunKept.refl _ s).upd
  have hu : RunKept (blkRunCtl .osc) s u := RunKept.foldl (fun j h => State.resetTracker_kept h j _ _) _ ht
  exact RunKept.foldl (fun i h => State.resetSlot_kept h i _ _) _ hu

theorem State.accRestore_kept {s t : State} (h : RunKept (blkRunCtl .acc) s t) : RunKept (blkRunCtl .acc) s t.accRestore := by
  unfold State.accRestore
  extract_lets m held torn nextSeq acc u incomplete
  have hinc {w : State} (hw : RunKept (blkRunCtl .acc) s w) (seq : Nat) : RunKept (blkRunCtl .acc) s (incomplete w seq) := by
    refine RunKept.ite (RunKept.ringLog ?_ _ _ _ (by decide) (by decide)) hw
    exact (hw.setFld (f := F.ACC_STATUS.INCOMPLETE) 1 (by decide) (by decide) (by decide)).setFld (f := F.ACC_INT_STATUS.INCOMPLETE) 1
      (by decide) (by decide) (by decide)
  have hu : RunKept (blkRunCtl .acc) s u := h.upd
  clear_value u
  split
  · exact hinc ((hu.setFld 2 (by decide) (by decide) (by decide)).ringLog _ _ _ (by decide) (by decide)) _
  · extract_lets a b
    have hb : RunKept (blkRunCtl .acc) s b := RunKept.foldl (fun o h => RunKept.setCnt h.upd _ _) _ hu.upd
    exact hinc ((hb.setFld (f := F.ACC_STATUS.RESTORED) _ (by decide) (by decide) (by decide)).setCnt _ _) _

theorem State.utcEval_kept {s t : State} (h : RunKept (blkRunCtl .tim) s t) : RunKept (blkRunCtl .tim) s t.utcEval := by
  unfold State.utcEval
  extract_lets x old u was at'
  have hu : RunKept (blkRunCtl .tim) s u :=
    (((h.setFld (f := F.TIM_UTC_NOW.OFFSET) _ (by decide) (by decide) (by decide)).setFld (f := F.TIM_UTC_NOW.LEAP) _ (by decide)
      (by decide) (by decide)).setFld (f := F.TIM_UTC_NOW.FROM) _ (by decide) (by decide) (by decide)).setFld _ (by decide) (by decide)
      (by decide)
  exact RunKept.ite (RunKept.ite hu (hu.setReg _ (by decide) (by decide)))
    ((hu.setReg _ (by decide) (by decide)).setFld 1 (by decide) (by decide) (by decide))

theorem State.tqEval_kept {s t : State} (h : RunKept (blkRunCtl .tim) s t) : RunKept (blkRunCtl .tim) s t.tqEval :=
  RunKept.ite h (h.setReg (off := R.TIM_TQ) _ (by decide) (by decide)).upd

/-- The physical state of a port, shown anew. -/
theorem State.showPhy_kept {s t : State} {p : Port} (h : RunKept (blkRunCtl (.port p)) s t) :
    RunKept (blkRunCtl (.port p)) s (t.showPhy p.val) := by
  have hshown : Shows (blkRunCtl (.port p)) (t.flag (blkRunCtl (.port p)).run) (t.flag (blkRunCtl (.port p)).stopped) t.sys.mode t :=
    ⟨rfl, rfl, rfl⟩
  obtain ⟨hrun, hstopped, -⟩ := hshown.showPhy
  have hsteady := t.showPhy_steady p.val
  exact h.trans ⟨hrun, hstopped, hsteady.cores, hsteady.sys⟩

theorem State.setXngState_kept {s t : State} (h : RunKept (blkRunCtl .xng) s t) (n : Nat) : RunKept (blkRunCtl .xng) s (t.setXngState n) := by
  unfold State.setXngState
  extract_lets u
  have hu : RunKept (blkRunCtl .xng) s u := RunKept.ite h (h.bumpBy _ _).upd
  exact RunKept.ite h ((hu.setFld (f := F.XNG_STATUS.STATE) n (by decide) (by decide) (by decide)).setFld
    (f := F.XNG_INT_STATUS.STATE) 1 (by decide) (by decide) (by decide))

/-- A reset of the engine's own state leaves its run control. -/
theorem State.resetEngine_kept (s : State) (b : BlockId) : RunKept (blkRunCtl b) s (s.resetEngine b) := by
  unfold State.resetEngine
  split
  next p =>
    extract_lets x t
    exact State.showPhy_kept (RunKept.refl _ s).upd
  · exact RunKept.foldl (fun k h => h.upd) _ (RunKept.refl _ s).upd
  · exact s.oscReset_kept
  · exact (RunKept.refl _ s).upd
  · exact RunKept.foldl (fun k h => h.upd) _ (RunKept.refl _ s).upd
  · exact RunKept.foldl (fun n h => h.upd) _ (State.accRestore_kept (RunKept.refl _ s).upd).refreshOutputs
  · exact (RunKept.refl _ s).upd
  · exact RunKept.refl _ s
  · exact State.tqEval_kept (State.utcEval_kept (RunKept.refl _ s).upd)
  · exact RunKept.refreshOutputs (RunKept.refl _ s).upd
  · exact State.setXngState_kept (RunKept.refl _ s).upd 0

/-- Registers, counters and tables take their reset or committed values: cores and mode control stand. -/
theorem State.reloadBlock_steady (s : State) (b : BlockId) : Steady s ((s.clearBlock b).reloadBlock b) := by
  have hclear : Steady s (s.clearBlock b) := ⟨rfl, rfl, rfl, rfl⟩
  have hreg (s : State) (x : Nat × Word) : Steady s (s.setReg x.1 ((s.reg x.1 &&& w32 (2 ^ 32 - 1 - cfgMask x.1)) ||| x.2)) :=
    ⟨s.setReg_now _ _, s.setReg_sys _ _, s.setReg_tim _ _, s.setReg_cores _ _⟩
  have htf (s : State) (x : Nat × Word) : Steady s (s.setTf TF.ING.Directory.CFG_STATE (x.1 % 2 ^ 24 / 32) 1) := by simp [Steady]
  refine hclear.trans ?_
  generalize s.clearBlock b = s
  unfold State.reloadBlock
  extract_lets t u
  have ht : Steady s t := Steady.foldl hreg _ s
  have hu : Steady t u := Steady.foldl (f := fun (s : State) (x : Nat × Word) =>
      { s with tbl := mapSet tblReset s.tbl x.1 ((mapGet tblReset s.tbl x.1 &&& w32 (2 ^ 32 - 1 - cfgTblMask x.1)) ||| x.2) })
    (fun _ _ => ⟨rfl, rfl, rfl, rfl⟩) _ t
  exact Steady.ite ((ht.trans hu).trans (Steady.foldl htf _ u)) (ht.trans hu)

/-- A reset block is stopped with RUN zero; the cores and mode control stand. -/
theorem State.blockReset_rests (s : State) (b : BlockId) : (s.blockReset b).flag (blkRunCtl b).run = false ∧
    (s.blockReset b).flag (blkRunCtl b).stopped = true ∧ (s.blockReset b).cores = s.cores ∧ (s.blockReset b).sys = s.sys := by
  have hcleared := s.reloadBlock_steady b
  unfold State.blockReset
  extract_lets c
  generalize (s.clearBlock b).reloadBlock b = t at hcleared
  have hany : Shows (blkRunCtl b) (t.flag c.run) (t.flag c.stopped) t.sys.mode t := ⟨rfl, rfl, rfl⟩
  obtain ⟨hrun, hstopped, -⟩ := (hany.setRun false).setStopped true
  obtain ⟨krun, kstopped, kcores, ksys⟩ := State.resetEngine_kept ((t.setFld c.run 0).setFld c.stopped 1) b
  exact ⟨krun.trans hrun, kstopped.trans hstopped, kcores.trans (by simpa using hcleared.cores), ksys.trans (by simpa using hcleared.sys)⟩

/-- Block resets: a bar refuses them, and a stopped block is reset. -/
theorem blockResets : Safety.BlockResets := by
  unfold Safety.BlockResets
  intro s q b hreach
  have hgo : ¬ (!s.reaches q (blkCtrl b)) = true := by
    cases q with
    | host =>
      obtain ⟨hmode, hwrites⟩ := hreach
      simp [State.reaches, hmode, hwrites]
    | core c =>
      have halive : s.coreAlive c.val = true := hreach
      simp [State.reaches, halive]
  have hexec : exec (.blockReset q b) s = (match s.resetBar q b with
      | some c => .next (s.refuse q c (blkCtrl b))
      | none => .next (s.blockReset b)) := if_neg hgo
  refine ⟨fun c hc => ⟨s.refuse q c (blkCtrl b), by rw [hexec, hc], rfl⟩,
    fun hc => ⟨s.blockReset b, by rw [hexec, hc], s.blockReset_rests b⟩⟩

/-- Settles O26: a write moves RUN alone, and what follows it, or a reset, leaves the run control where it was put. -/
theorem blockControl : Obligations.BlockControl := ⟨blockRunControl, blockResets⟩

end Sys2Proof.Machine
end

section
/-!
Mode requests (O23, R57 and R59): how a request is judged, and what its answer shows.
-/

namespace Sys2Proof.Machine

open Sys2Proof.Safety

/-! ## The answer -/

/-- An announced handover leaves SYS alone. -/
theorem Leaves.announce {s t : State} (h : Leaves sysBlock s t) (m : Mode) : Leaves sysBlock s (t.announce m) := by
  unfold State.announce
  extract_lets at'
  exact (Leaves.setXngState (t := { t with xng := { t.xng with handover := some (at', m) } }) h.upd (sysBlock_apart (by decide)) 9).crossSend 3 _

/-- A request judged `r` shows it with its target and its requester; the mode stands, and judged 1 it begins the transition. -/
theorem State.modeRequest_shows (s : State) {q target r : Nat} {key signed : Bool} (hq : q < 256) (ht : target < 16)
    (hr : s.judgeRequest key signed target = r) (hlt : r < 16) (hone : r = 1 → ∃ m, modeOf target = some m) :
    (s.modeRequest q key signed target).1.fld F.SYS_MODE_STATUS.RESULT = r ∧
      (s.modeRequest q key signed target).1.fld F.SYS_MODE_STATUS.TARGET = target ∧
      (s.modeRequest q key signed target).1.fld F.SYS_MODE_STATUS.REQ_ID = q ∧
      (s.modeRequest q key signed target).1.sys.mode = s.sys.mode ∧
      (s.modeRequest q key signed target).1.sys.trans = if r = 1 then (modeOf target).map fun m => ⟨m, true, 0⟩ else s.sys.trans := by
  unfold State.modeRequest
  extract_lets r' t y
  obtain rfl : r' = r := hr
  have hfields (w : State) (hw : w.reg R.SYS_MODE_STATUS = (t.setFld F.SYS_MODE_STATUS.RESULT r').reg R.SYS_MODE_STATUS) :
      w.fld F.SYS_MODE_STATUS.RESULT = r' ∧ w.fld F.SYS_MODE_STATUS.TARGET = target ∧ w.fld F.SYS_MODE_STATUS.REQ_ID = q := by
    have hword (f : Fld) (hf : f.off = R.SYS_MODE_STATUS) : w.fld f = (t.setFld F.SYS_MODE_STATUS.RESULT r').fld f :=
      State.fld_congr (by rw [hf]; exact hw)
    refine ⟨?_, ?_, ?_⟩
    · rw [hword _ rfl, State.fld_setFld_same _ _ _ (by decide)]
      exact Nat.mod_eq_of_lt hlt
    · rw [hword _ rfl, State.fld_setFld_ne _ _ _ _ (by decide) (by decide), State.fld_setFld_same _ _ _ (by decide)]
      exact Nat.mod_eq_of_lt ht
    · rw [hword _ rfl, State.fld_setFld_ne _ _ _ _ (by decide) (by decide), State.fld_setFld_ne _ _ _ _ (by decide) (by decide),
        State.fld_setFld_same _ _ _ (by decide)]
      exact Nat.mod_eq_of_lt hq
  split
  next m hr1 hm =>
    extract_lets w
    have hw : w.sys = { s.sys with trans := some ⟨m, true, 0⟩ } := by simp [w, y, t, State.showMode]
    have hreg : w.reg R.SYS_MODE_STATUS = (t.setFld F.SYS_MODE_STATUS.RESULT r').reg R.SYS_MODE_STATUS := by
      rw [hr1]
      refine (State.reg_setReg _ _ _ _).trans ((if_neg (by decide)).trans ?_)
      rw [State.setFld, State.setFld, State.reg_setReg, State.reg_setReg]
      rfl
    clear_value w
    have hshown {z : State} (hz : Leaves sysBlock w z) :
        z.fld F.SYS_MODE_STATUS.RESULT = r' ∧ z.fld F.SYS_MODE_STATUS.TARGET = target ∧ z.fld F.SYS_MODE_STATUS.REQ_ID = q ∧
          z.sys.mode = s.sys.mode ∧ z.sys.trans = (modeOf target).map fun m => ⟨m, true, 0⟩ := by
      obtain ⟨h1, h2, h3⟩ := hfields z ((hz.reg _ (by decide)).trans hreg)
      exact ⟨h1, h2, h3, by rw [hz.mode, hw], by rw [hz.noTrans, hw, hm]; rfl⟩
    dsimp only
    split
    · exact hshown ((Leaves.refl _ w).announce m)
    · exact hshown (Leaves.refl _ w)
  next hne =>
    have hr1 : r' ≠ 1 := fun h => by
      obtain ⟨m, hm⟩ := hone h
      exact hne m h hm
    obtain ⟨h1, h2, h3⟩ := hfields (t.requestResult r') (State.reg_setFld_ne _ _ _ _ (by decide))
    exact ⟨h1, h2, h3, by simp [t, State.requestResult], by simp [t, State.requestResult, hr1]⟩

/-! ## The authority -/

/-- The operator's authority for a request to a mode by a requester is held (R541). -/
def State.hasAuth (s : State) (q target : Nat) : Prop := ∃ a ∈ s.sec.auths, a.1 = target ∧ a.2.1 = q ∧ s.now - a.2.2 ≤ 12000000000

/-- The authority found is used up; nothing but the Keeper's state changes. -/
theorem State.useAuth_effect (s : State) (q target : Nat) :
    (∃ x, (s.useAuth q target).1 = { s with sec := x }) ∧ ((s.useAuth q target).2 = true ↔ s.hasAuth q target) := by
  unfold State.useAuth
  extract_lets hit found
  have hfound : found = true ↔ s.hasAuth q target := by
    simp [found, hit, State.hasAuth, and_assoc]
  split
  next hnone => exact ⟨⟨s.sec, rfl⟩, hfound⟩
  next a hsome =>
    refine ⟨⟨_, rfl⟩, ⟨fun _ => hfound.mp ?_, fun _ => rfl⟩⟩
    exact List.any_eq_true.mpr ⟨a, List.mem_of_find?_eq_some hsome, List.find?_some hsome⟩

/-- A write of SYS_MODE_REQ is a request, signed when the mode asks for it and the authority is held. -/
theorem State.modeReqWrite_eq (s : State) (q v : Nat) : ∃ x signed,
    s.modeReqWrite q v = (({ s with sec := x } : State).modeRequest q (bitsOf v 31 16 = 0x4D52 && q = 24) signed (v % 16)).1 ∧
      ∀ m, bitsOf v 31 16 = 0x4D52 → q = 24 → s.sys.trans = none → s.sys.warnAt = none → modeOf (v % 16) = some m →
        requestFrom m s.sys.mode = true → needsSignature m s.sys.mode = true → (signed = true ↔ s.hasAuth q (v % 16)) := by
  obtain ⟨⟨x, hx⟩, hauth⟩ := s.useAuth_effect q (v % 16)
  unfold State.modeReqWrite
  extract_lets target key needs a
  have htarget : target = v % 16 := bitsOf_low v 3
  clear_value target
  subst htarget
  by_cases hcond : (key && needs && s.sys.trans.isNone && s.sys.warnAt.isNone) = true
  · have ha : a = s.useAuth q (v % 16) := if_pos hcond
    refine ⟨x, (s.useAuth q (v % 16)).2, by rw [ha, hx], fun _ _ _ _ _ _ _ _ => hauth⟩
  · have ha : a = (s, false) := if_neg hcond
    refine ⟨s.sec, false, by rw [ha], fun m hword hq htrans hwarn hm hfrom hneeds => absurd ?_ hcond⟩
    simp [key, needs, hword, hq, htrans, hwarn, hm, hfrom, hneeds]

/-! ## The order of the results -/

section

variable {s : State} {key signed : Bool} {target : Nat} {m : Mode}

theorem State.judgeRequest_noKey (hk : key = false) : s.judgeRequest key signed target = 5 := by
  simp [State.judgeRequest, hk]

theorem State.judgeRequest_busy (hk : key = true) (h : s.sys.trans.isSome ∨ s.sys.warnAt.isSome) :
    s.judgeRequest key signed target = 4 := by
  simp [State.judgeRequest, hk, h]

/-- With the key, no transition and no warning, a mode that no row of R57 allows is refused. -/
theorem State.judgeRequest_notAllowed (hk : key = true) (ht : s.sys.trans = none) (hw : s.sys.warnAt = none)
    (h : ∀ m, modeOf target = some m → requestFrom m s.sys.mode = false) : s.judgeRequest key signed target = 3 := by
  unfold State.judgeRequest
  rw [if_neg (by simp [hk]), if_neg (by simp [ht, hw])]
  split
  · rfl
  next m hm => exact if_pos (by simp [h m hm])

/-- A mode that a row of R57 allows is judged by its signature and its conditions. -/
theorem State.judgeRequest_allowed (hk : key = true) (ht : s.sys.trans = none) (hw : s.sys.warnAt = none)
    (hm : modeOf target = some m) (hfrom : requestFrom m s.sys.mode = true) :
    s.judgeRequest key signed target =
      if needsSignature m s.sys.mode = true ∧ signed = false then 5 else if s.requestMet m = false then 6 else 1 := by
  simp [State.judgeRequest, hk, ht, hw, hm, hfrom]

end

/-- SYS_MODE_REQ in the map. -/
def sysModeReqReg : RegD := ⟨R.SYS_MODE_REQ, 1, 0x0, 1, 0x0, .plain, [⟨31, 16, .wo, .any⟩, ⟨3, 0, .wo, .any⟩]⟩

theorem State.busWrite_modeReq {s : State} {q : Req} (v : Nat) (h : Reached s q R.SYS_MODE_REQ) :
    s.busWrite q R.SYS_MODE_REQ v = s.modeReqWrite q.id v := by
  have hsys (g : Gate) : s.sysWrite q g sysModeReqReg R.SYS_MODE_REQ v = s.modeReqWrite q.id v := by
    rw [State.sysWrite, if_pos rfl]
  rw [State.busWrite_sys (d := sysModeReqReg) h (by decide) (by decide) rfl, hsys]

/-- A request's result, in the order of R59. -/
theorem modeRequestResult : Safety.ModeRequestResult := by
  unfold Safety.ModeRequestResult
  intro s q v hreach target key signed gives
  have hq : q.id < 256 := by
    cases q with
    | host => decide
    | core c => exact Nat.lt_trans c.isLt (by decide)
  have htarget : target < 16 := Nat.mod_lt _ (by decide)
  obtain ⟨x, sg, hwrite, hsigned⟩ := s.modeReqWrite_eq q.id v.toNat
  have hgives {r : Nat} (hr : s.judgeRequest (bitsOf v.toNat 31 16 = 0x4D52 && q.id = 24) sg target = r) (hlt : r < 16)
      (hone : r = 1 → ∃ m, modeOf target = some m) : gives r := by
    refine ⟨_, rfl, ?_⟩
    rw [State.busWrite_modeReq _ hreach, hwrite]
    exact State.modeRequest_shows { s with sec := x } hq htarget hr hlt hone
  have hkey (h : key) : (bitsOf v.toNat 31 16 = 0x4D52 && q.id = 24 : Bool) = true := by
    obtain ⟨hword, hid⟩ := h
    rw [bitsOf_upper]
    simp [hword, hid]
  have hauth (h : key) {m : Mode} (ht : s.sys.trans = none) (hw : s.sys.warnAt = none) (hm : modeOf target = some m)
      (hfrom : requestFrom m s.sys.mode = true) (hneeds : needsSignature m s.sys.mode = true) : sg = true ↔ signed := by
    obtain ⟨hword, hid⟩ := h
    exact hsigned m (by rw [bitsOf_upper, hword]) hid ht hw hm hfrom hneeds
  refine ⟨fun hk => ?_, fun hk hbusy => ?_, fun hk ht hw => ⟨fun hno => ?_, fun m hm hfrom =>
    ⟨fun hneeds hun => ?_, fun hsig => ⟨fun hunmet => ?_, fun hmet => ?_⟩⟩⟩⟩
  · refine hgives (State.judgeRequest_noKey ?_) (by decide) (by simp)
    rw [bitsOf_upper]
    simpa [key] using hk
  · exact hgives (State.judgeRequest_busy (hkey hk) hbusy) (by decide) (by simp)
  · exact hgives (State.judgeRequest_notAllowed (hkey hk) ht hw hno) (by decide) (by simp)
  · have hsg : sg = false := Bool.eq_false_iff.mpr fun h => hun ((hauth hk ht hw hm hfrom hneeds).mp h)
    exact hgives ((State.judgeRequest_allowed (hkey hk) ht hw hm hfrom).trans (if_pos ⟨hneeds, hsg⟩)) (by decide) (by simp)
  all_goals
    have hcond : ¬ (needsSignature m s.sys.mode = true ∧ sg = false) := by
      rintro ⟨hneeds, hsg⟩
      exact absurd ((hauth hk ht hw hm hfrom hneeds).mpr (hsig hneeds)) (by simp [hsg])
    have hjudged := (State.judgeRequest_allowed (signed := sg) (hkey hk) ht hw hm hfrom).trans (if_neg hcond)
  · exact hgives (hjudged.trans (if_pos hunmet)) (by decide) (by simp)
  · exact hgives (hjudged.trans (if_neg (by simp [hmet]))) (by decide) fun _ => ⟨m, hm⟩

end Sys2Proof.Machine
end

section
/-!
SUPPORT. SYS stands while a mode takes effect: queues and backpressure, cores, the drive state, the wake watcher and an epoch break
(R58, R61, R451, R525).
-/

namespace Sys2Proof.Machine

open Sys2Proof.Safety

theorem not_sysBlock_tblCnt (t i q : Nat) : ¬ sysBlock (tblCntKey t i q) := by
  simp only [sysBlock, tblCntKey, Nat.reducePow]
  omega

namespace Leaves

variable {s t : State}

/-- A counter of a table's entry rises. -/
theorem tblBump (h : Leaves sysBlock s t) (T i q n : Nat) : Leaves sysBlock s (t.bumpBy (tblCntKey T i q) n) :=
  h.bumpBy (not_sysBlock_tblCnt T i q) n

theorem emit {K : Nat → Prop} {s t : State} (h : Leaves K s t) (o : Output) : Leaves K s (t.emit o) := h.upd

theorem detect {K : Nat → Prop} {s t : State} (h : Leaves K s t) (code wh req : Nat) : Leaves K s (t.detect code wh req) := h.upd

theorem wrBytes {K : Nat → Prop} {s t : State} (h : Leaves K s t) (a : Nat) (l : List Byte) : Leaves K s (t.wrBytes a l) := h.upd

/-! ## Queues and backpressure -/

theorem setQueue {K : Nat → Prop} {s t : State} (h : Leaves K s t) (n : Nat) (q : Queue) : Leaves K s (t.setQueue n q) := h.upd

theorem qEvent (h : Leaves sysBlock s t) (n : Nat) : Leaves sysBlock s (t.qEvent n) :=
  h.raise (f := ⟨R.RBT_QEVENT + 4 * (n / 32), n % 32, n % 32⟩) (not_sysBlock_add (by decide) _)

theorem pauseEdge (h : Leaves sysBlock s t) (p : Nat) (up : Bool) : Leaves sysBlock s (t.pauseEdge p up) := by
  have harm {u : State} (hu : Leaves sysBlock s u) : Leaves sysBlock s (u.armRefresh p) := hu.upd
  have hdrop {u : State} (hu : Leaves sysBlock s u) : Leaves sysBlock s (u.dropRefresh p) := hu.upd
  have hsend (quanta : Nat) : Leaves sysBlock s (t.sendPause p quanta) := h.txQueue (sysBlock_apart (by decide)) p _
  exact ite (ite (harm (hsend _)) (hdrop (hsend 0))) (ite (harm h) (hdrop h))

theorem pauseEdges (old : State) (ps : List Nat) (h : Leaves sysBlock s t) : Leaves sysBlock s (t.pauseEdges old ps) := by
  induction ps generalizing t with
  | nil => exact h
  | cons p ps ih => exact ih (ite h (h.pauseEdge p _))

theorem raiseBp (h : Leaves sysBlock s t) (n : Nat) (up : Bool) : Leaves sysBlock s (t.raiseBp n up) := by
  unfold State.raiseBp
  extract_lets q u
  have hu : Leaves sysBlock s u := h.setQueue n _
  exact ite h (ite ((hu.qEvent n).raise (by decide)) hu)

theorem driveBp (h : Leaves sysBlock s t) (old : State) : Leaves sysBlock s (t.driveBp old) := by
  unfold State.driveBp
  extract_lets u
  have hu : Leaves sysBlock s u := pauseEdges old _ h
  exact ite hu (hu.emit _)

theorem setBp (h : Leaves sysBlock s t) (n : Nat) (up : Bool) : Leaves sysBlock s (t.setBp n up) := by
  unfold State.setBp
  exact ite h ((h.raiseBp n up).driveBp t)

theorem riseBp (h : Leaves sysBlock s t) : Leaves sysBlock s t.riseBp := by
  refine foldl (fun x h => ?_) _ h
  dsimp only
  exact ite (h.setBp x.1 true) h

theorem judgeLevel (h : Leaves sysBlock s t) (n before : Nat) : Leaves sysBlock s (t.judgeLevel n before) := by
  unfold State.judgeLevel
  extract_lets lvl l
  refine ite ?_ (ite ((h.qEvent n).raise (by decide)) h)
  split
  · exact h.setBp n _
  · exact h

theorem passMarker (h : Leaves sysBlock s t) (n : Nat) : Leaves sysBlock s (t.passMarker n) := ite (h.tblBump 0x21 n 12 1) h

theorem entryPut (h : Leaves sysBlock s t) (n i : Nat) : Leaves sysBlock s (t.entryPut n i) := by
  unfold State.entryPut
  extract_lets q
  split
  · exact h
  · exact h.wrBytes _ _

theorem resetQueue (h : Leaves sysBlock s t) (n cause : Nat) : Leaves sysBlock s (t.resetQueue n cause) := by
  unfold State.resetQueue
  extract_lets q lost t1 t2 t3 t4
  have h1 : Leaves sysBlock s t1 := h.tblBump 0x21 n 8 lost
  have h2 : Leaves sysBlock s t2 := ite h1 ((h1.tblBump 0x21 n 6 1).passMarker n)
  have h4 : Leaves sysBlock s t4 := ((h2.setQueue n _).entryPut n 0).judgeLevel n lost
  have hbad : Leaves sysBlock s ((t4.bump R.RBT_U_INTEGRITY_RESETS).raise F.RBT_INT_STATUS.INTEGRITY) :=
    (h4.bump (by decide)).raise (by decide)
  exact ite (hbad.detect _ _ _) h4

theorem flushNow (h : Leaves sysBlock s t) (n : Nat) : Leaves sysBlock s (t.flushNow n) := by
  unfold State.flushNow
  extract_lets q keep gone q' t1
  have h1 : Leaves sysBlock s t1 := ((h.tblBump 0x21 n 7 gone).tblBump 0x21 n 6 1).passMarker n
  exact ite (h.setQueue n q') (((h1.setQueue n _).entryPut n _).judgeLevel n _)

theorem appendEntry (h : Leaves sysBlock s t) (n cause : Nat) (e : Entry) (first last : Bool) :
    Leaves sysBlock s (t.appendEntry n cause e first last) := by
  unfold State.appendEntry
  extract_lets q cut t1 closed q1 t2 t3 q2 before ends t4 t5 t6
  have h1 : Leaves sysBlock s t1 := ite (h.tblBump 0x21 n 11 1) h
  have h2 : Leaves sysBlock s t2 := h1.setQueue n q1
  have h3 : Leaves sysBlock s t3 := ite (h2.flushNow n) h2
  have h4 : Leaves sysBlock s t4 := ite (h3.tblBump 0x21 n 10 1) h3
  have h5 : Leaves sysBlock s t5 := (h4.setQueue n _).tblBump 0x21 n 1 1
  have h6 : Leaves sysBlock s t6 := (h5.entryPut n before).judgeLevel n before
  exact ite (h6.flushNow n) h6

theorem push (h : Leaves sysBlock s t) (n agent : Nat) (e : Entry) (first last : Bool) :
    Leaves sysBlock s (t.push n agent e first last).1 := by
  unfold State.push
  extract_lets t1 t2
  have h1 : Leaves sysBlock s t1 := tblBump (ite h (h.resetQueue n 0)) 0x21 n 0 1
  have h2 : Leaves sysBlock s t2 := h1.tblBump 0x21 n 2 1
  split_ifs
  · exact h1.tblBump 0x21 n 4 1
  · exact h1.tblBump 0x21 n 3 1
  · exact h2.detect _ _ _
  · exact h2
  · exact h1.appendEntry n _ e first last

theorem pushNotice (h : Leaves sysBlock s t) (n agent : Nat) (e : Entry) : Leaves sysBlock s (t.pushNotice n agent e).1 := by
  have hpush := h.push n agent e false false
  unfold State.pushNotice
  dsimp only
  split
  · exact hpush.detect _ _ _
  · exact hpush

end Leaves

end Sys2Proof.Machine
end

section
/-!
SUPPORT. SYS stands while cores start and stop with a mode, while the wake watcher is armed and in an epoch break (R58, R484, R525).
-/

namespace Sys2Proof.Machine

open Sys2Proof.Safety

namespace Leaves

variable {s t : State}

/-! ## Cores and the wake watcher -/

theorem setCore {K : Nat → Prop} {s t : State} (h : Leaves K s t) (c : Nat) (k : Core) : Leaves K s (t.setCore c k) := h.upd

theorem pllRequest {K : Nat → Prop} {s t : State} (h : Leaves K s t) : Leaves K s t.pllRequest := by
  have hpll : Leaves K t t.pllRequest := by
    refine ⟨by simp, ?_, fun off _ => by simp [State.reg], fun k _ => by simp [State.cnt]⟩
    unfold State.pllRequest
    split <;> rfl
  exact h.trans hpll

theorem startCore {K : Nat → Prop} {s t : State} (h : Leaves K s t) (c : Nat) (entry : DWord) : Leaves K s (t.startCore c entry) :=
  setCore (ite h.pllRequest h) c _

theorem releaseKey {K : Nat → Prop} {s t : State} (h : Leaves K s t) (x : Task) : Leaves K s (t.releaseKey x) := ite h h.upd

theorem abortTask (h : Leaves sysBlock s t) (c : Nat) : Leaves sysBlock s (t.abortTask c) := by
  have hended {u : State} (hu : Leaves sysBlock s u) (x : Option Task) :
      Leaves sysBlock s (match x with | none => u | some x => (u.bump (clsCnt x.cls 4)).releaseKey x) := by
    cases x with
    | none => exact hu
    | some x => exact (hu.tblBump 0x24 x.cls 4 1).releaseKey x
  unfold State.abortTask
  extract_lets k t1 t2 t3
  have h1 : Leaves sysBlock s t1 := h.setCore c _
  have h2 : Leaves sysBlock s t2 := hended h1 k.task
  have h3 : Leaves sysBlock s t3 := hended h2 k.given
  clear_value t3
  exact h3.upd

theorem modeCores (h : Leaves sysBlock s t) : Leaves sysBlock s t.modeCores := by
  unfold State.modeCores
  extract_lets on t1
  have h1 : Leaves sysBlock s t1 := ite (h.setCore 20 _) h
  refine foldl (fun c h => ?_) _ h1
  exact ite (ite (h.startCore c _) h) (ite h ((h.abortTask c).setCore c _))

theorem wakeEvent (h : Leaves sysBlock s t) (code : Nat) : Leaves sysBlock s (t.wakeEvent code) :=
  ite (foldl (fun k h => ite (h.setFld (f := ⟨R.IC_WAKE_SLOT + 4 * k, 7, 0⟩) (not_sysBlock_add (by decide) _) _) h) _ h) h

theorem armWatcher (h : Leaves sysBlock s t) : Leaves sysBlock s t.armWatcher := by
  unfold State.armWatcher
  extract_lets t1 und t2
  have h1 : Leaves sysBlock s t1 :=
    foldl (fun k h => h.setFld (f := ⟨R.IC_WAKE_SLOT + 4 * k, 7, 0⟩) (not_sysBlock_add (by decide) _) 0) _ (h.setFld (by decide) 0)
  clear_value t1
  exact foldl (fun c h => h.wakeEvent c) _ (upd (u := t2) h1)

theorem startGlade (h : Leaves sysBlock s t) : Leaves sysBlock s t.startGlade := by
  have hup : Leaves sysBlock t { t with sys := { t.sys with gladeUp := true } } := ⟨rfl, rfl, fun _ _ => rfl, fun _ _ => rfl⟩
  unfold State.startGlade
  exact ite h (((h.trans hup).setFld (by decide) 1).setFld (by decide) 0)

theorem linesMoved (h : Leaves sysBlock s t) (old : Bool) : Leaves sysBlock s (t.linesMoved old) :=
  ite h (((h.setFld (f := F.XNG_STATUS.OWN_DUTY) (by decide) _).raise (f := F.XNG_INT_STATUS.DUTY) (by decide)).emit _)

/-! ## An epoch break -/

theorem setGrove {K : Nat → Prop} {s t : State} (h : Leaves K s t) (g : Nat) (x : GroveSt) : Leaves K s (t.setGrove g x) := h.upd

theorem putSet {K : Nat → Prop} {s t : State} (h : Leaves K s t) (g : Nat) (x : GSet) : Leaves K s (t.putSet g x) := h.setGrove g _

theorem writeHeader {K : Nat → Prop} {s t : State} (h : Leaves K s t) (g : Nat) (x : GSet) : Leaves K s (t.writeHeader g x) :=
  h.wrBytes _ _

theorem blankRecord {K : Nat → Prop} {s t : State} (h : Leaves K s t) (g : Nat) (x : GSet) : Leaves K s (t.blankRecord g x) :=
  h.wrBytes _ _

theorem pendNotice (h : Leaves sysBlock s t) (n : Pend) : Leaves sysBlock s (t.pendNotice n) := by
  have hnotice (g kind : Nat) (e : Entry) : Leaves sysBlock s (t.gladeNotice g kind e) := by
    unfold State.gladeNotice
    extract_lets q r
    have hr : Leaves sysBlock s r.1 := h.pushNotice q 35 e
    exact ite hr ((hr.tblBump 0x71 g 13 1).raise (by decide))
  exact ite h.upd (hnotice _ _ _)

theorem closeSet (h : Leaves sysBlock s t) (g : Nat) (x : GSet) (flags : Nat) : Leaves sysBlock s (t.closeSet g x flags) := by
  unfold State.closeSet
  extract_lets x' t1 t2 t3
  have h1 : Leaves sysBlock s t1 := (h.writeHeader g x').tblBump 0x71 g 9 1
  have h2 : Leaves sysBlock s t2 := ite ((h1.tblBump 0x71 g 11 1).raise (by decide)) h1
  exact (h2.setGrove g _).pendNotice _

theorem closeAll (g flags : Nat) (l : List GSet) (h : Leaves sysBlock s t) : Leaves sysBlock s (t.closeAll g flags l) := by
  induction l generalizing t with
  | nil => exact h
  | cons x l ih => exact ih (h.closeSet g x flags)

theorem groveStopped (h : Leaves sysBlock s t) (g : Nat) : Leaves sysBlock s (t.groveStopped g) := by
  unfold State.groveStopped
  extract_lets t1 e t2
  have h1 : Leaves sysBlock s t1 := closeAll g 2 _ h
  have h2 : Leaves sysBlock s t2 := h1.setGrove g _
  exact ((h2.setFld (f := F.GLD_G_STATUS.STOPPED.at (0x40 * g)) (not_sysBlock_add (by decide) _) 1).raise (by decide)).ringLog
    (sysBlock_apart (by decide)) _ _ _

theorem finalRelease (h : Leaves sysBlock s t) (g : Nat) (x : GSet) (cause : Nat) (t0 : Option Nat) :
    Leaves sysBlock s (t.finalRelease g x cause t0) := by
  have hnote {u : State} (hu : Leaves sysBlock s u) (ttag : Nat) : Leaves sysBlock s (u.noteRelease ttag) :=
    ite (hu.setCnt (k := R.GLD_LAST_REL) (by decide) _) hu
  have hpend {u : State} (hu : Leaves sysBlock s u) (kind : Nat) (x : GSet) : Leaves sysBlock s (u.pendRelease g kind x t0) :=
    hu.pllRequest.pendNotice _
  unfold State.finalRelease
  extract_lets gv x' t1 e t2 t3 t4 t5 t6 t7
  have h2 : Leaves sysBlock s t2 := ((h.putSet g x').setGrove g _).writeHeader g x'
  have h3 : Leaves sysBlock s t3 := h2.tblBump 0x71 g _ 1
  have h4 : Leaves sysBlock s t4 := ite (h3.tblBump 0x71 g 3 1) h3
  have h5 : Leaves sysBlock s t5 := ite (h4.tblBump 0x71 g 15 1) h4
  have h6 : Leaves sysBlock s t6 := ite ((h5.bump (by decide)).raise (by decide)) h5
  have h7 : Leaves sysBlock s t7 := hpend (hnote h6 _) 1 x'
  exact ite (h7.groveStopped g) h7

theorem forceTo (g ttag cause fuel : Nat) (h : Leaves sysBlock s t) : Leaves sysBlock s (t.forceTo g ttag cause fuel) := by
  induction fuel generalizing t with
  | zero => exact h
  | succ fuel ih =>
    unfold State.forceTo
    extract_lets gv tag r
    refine ite h ?_
    split
    · exact ih (h.finalRelease g _ cause _)
    · have hvoid : Leaves sysBlock s r.1 := blankRecord (putSet (closeAll g 1 _ h) g _) g _
      exact ih (hvoid.finalRelease g _ 3 _)

theorem breakGrove (h : Leaves sysBlock s t) (damaged : Bool) (g : Nat) : Leaves sysBlock s (t.breakGrove damaged g) := by
  unfold State.breakGrove
  extract_lets t1 t2
  have h1 : Leaves sysBlock s t1 := ite (foldl (fun x h => (h.putSet g _).blankRecord g _) _ h) h
  have h2 : Leaves sysBlock s t2 := by
    dsimp only [t2]
    split
    · exact h1
    · exact forceTo g _ _ _ h1
  exact closeAll g 1 _ h2

theorem incEpoch (h : Leaves sysBlock s t) : Leaves sysBlock s t.incEpoch := by
  have hjournal {u : State} (hu : Leaves sysBlock s u) (kind port source jseq time : Nat) (payload : List Byte) :
      Leaves sysBlock s (u.journal kind port source jseq time payload) := by
    unfold State.journal
    extract_lets n x u1
    have h1 : Leaves sysBlock s u1 := hu.upd
    exact ite (((h1.crossSend 5 _).bump (by decide)).setCnt (by decide) _) h1
  unfold State.incEpoch
  extract_lets e t1 mram t2
  have h1 : Leaves sysBlock s t1 := h.setReg (by decide) _
  have h2 : Leaves sysBlock s t2 := h1.upd
  exact ite (hjournal h2 3 0 0 0 _ _) h2

theorem epochBreak (h : Leaves sysBlock s t) : Leaves sysBlock s t.epochBreak := by
  unfold State.epochBreak
  extract_lets gs t1 t2
  have h1 : Leaves sysBlock s t1 := foldl (fun g h => h.breakGrove _ g) gs h
  have h2 : Leaves sysBlock s t2 := h1.incEpoch.bump (by decide)
  refine foldl (fun g h => ?_) gs h2
  dsimp only
  split
  · exact h.setGrove g _
  · exact h.groveStopped g
  · exact h

end Leaves

end Sys2Proof.Machine
end

section
/-!
The entry of a mode, and mode transitions (O23).
-/

namespace Sys2Proof.Machine

open Sys2Proof.Safety

/-- With no transition under way, one that begins shows in SYS_MODE alone. -/
theorem State.beginTrans_idle {s : State} (h : s.sys.trans = none) (m : Mode) (cause : Nat) :
    (s.beginTrans m cause).sys.mode = s.sys.mode ∧ (s.beginTrans m cause).sys.prevMode = s.sys.prevMode ∧
      ∀ off, off ≠ R.SYS_MODE → (s.beginTrans m cause).reg off = s.reg off := by
  unfold State.beginTrans
  dsimp only
  rw [h]
  dsimp only
  split
  · exact ⟨rfl, rfl, fun _ _ => rfl⟩
  · exact ⟨by simp, by simp, fun off hoff => State.reg_setFld_ne _ _ _ _ hoff⟩

theorem State.judgeDegraded_idle {s : State} (h : s.sys.trans = none) (cause : Nat) :
    (s.judgeDegraded cause).sys.mode = s.sys.mode ∧ (s.judgeDegraded cause).sys.prevMode = s.sys.prevMode ∧
      ∀ off, off ≠ R.SYS_MODE → (s.judgeDegraded cause).reg off = s.reg off := by
  have hstay : s.sys.mode = s.sys.mode ∧ s.sys.prevMode = s.sys.prevMode ∧ ∀ off, off ≠ R.SYS_MODE → s.reg off = s.reg off :=
    ⟨rfl, rfl, fun _ _ => rfl⟩
  unfold State.judgeDegraded
  split
  · split
    · exact State.beginTrans_idle h _ cause
    · exact hstay
  · split
    · exact hstay
    · exact State.beginTrans_idle h _ cause
  · exact hstay

theorem not_sysBlock_outCnt (n q : Nat) : ¬ sysBlock (outCnt n q) := not_sysBlock_tblCnt 0xD6 n q

/-- A mode entered is recorded with the mode before, flagged, and answers the request for it. -/
theorem State.enterMode_shows (s : State) (m : Mode) (requested : Bool) (cause : Nat) :
    (s.enterMode m requested cause).sys.mode = m ∧ (s.enterMode m requested cause).sys.prevMode = s.sys.mode ∧
      (s.enterMode m requested cause).fld F.SYS_INT_STATUS.MODE_CHANGE = 1 ∧
      (requested = true → (s.enterMode m requested cause).fld F.SYS_MODE_STATUS.RESULT = 2) := by
  unfold State.enterMode
  extract_lets old drive lines s1 s2 s3 s4 sys alm xng s5 s6 s7 s8 s9 s10 s11 s12 s13 tim s14
  have hmode5 : s5.sys.mode = m := rfl
  have hprev5 : s5.sys.prevMode = s.sys.mode := rfl
  have htrans5 : s5.sys.trans = none := rfl
  have h8 : Steady s5 s8 := by simp [Steady, s8, s7, s6]
  have h9 : Steady s8 s9 := Steady.ite (State.requestResult_steady s8 2) (Steady.refl s8)
  have hchange8 : s8.fld F.SYS_INT_STATUS.MODE_CHANGE = 1 := State.fld_setFld_same _ _ _ (by decide)
  have hchange9 : s9.fld F.SYS_INT_STATUS.MODE_CHANGE = 1 := by
    refine both_arms (fun u : State => u.fld F.SYS_INT_STATUS.MODE_CHANGE = 1) ?_ hchange8
    rw [State.requestResult, State.raise, State.fld_setFld_ne _ _ _ _ (by decide) (by decide),
      State.fld_setFld_ne _ _ _ _ (by decide) (by decide), hchange8]
  have hresult9 : requested = true → s9.fld F.SYS_MODE_STATUS.RESULT = 2 := by
    intro hreq
    rw [show s9 = s8.requestResult 2 from if_pos hreq, State.requestResult, State.raise,
      State.fld_setFld_ne _ _ _ _ (by decide) (by decide), State.fld_setFld_same _ _ _ (by decide)]
    rfl
  have hsys9 : s9.sys = s5.sys := (h8.trans h9).sys
  clear_value s9
  have h10 : Leaves sysBlock s9 s10 := Leaves.ite (Leaves.refl _ s9).riseBp (Leaves.refl _ s9)
  have h12 : Leaves sysBlock s9 s12 := Leaves.ite h10.modeCores.startGlade h10.modeCores
  have h13 : Leaves sysBlock s9 s13 := (h12.driveChanged not_sysBlock_outCnt drive).linesMoved lines
  have h14 : Leaves sysBlock s9 s14 :=
    Leaves.ite (Leaves.armWatcher (t := { s13 with tim := { s13.tim with running := false } }) h13.upd) h13
  have hend {t : State} (ht : t.sys.mode = s14.sys.mode ∧ t.sys.prevMode = s14.sys.prevMode ∧
      ∀ off, sysBlock off → off ≠ R.SYS_MODE → t.reg off = s14.reg off) :
      t.sys.mode = m ∧ t.sys.prevMode = s.sys.mode ∧ t.fld F.SYS_INT_STATUS.MODE_CHANGE = 1 ∧
        (requested = true → t.fld F.SYS_MODE_STATUS.RESULT = 2) := by
    obtain ⟨tmode, tprev, treg⟩ := ht
    have hfld (f : Fld) (hf : sysBlock f.off) (hne : f.off ≠ R.SYS_MODE) : t.fld f = s9.fld f :=
      (State.fld_congr (treg f.off hf hne)).trans (h14.fld f hf)
    exact ⟨tmode.trans (h14.mode.trans (by rw [hsys9, hmode5])), tprev.trans (h14.prevMode.trans (by rw [hsys9, hprev5])),
      (hfld _ (by decide) (by decide)).trans hchange9, fun hreq => (hfld _ (by decide) (by decide)).trans (hresult9 hreq)⟩
  split
  · have hbreak := (Leaves.refl sysBlock s14).epochBreak
    exact hend ⟨hbreak.mode, hbreak.prevMode, fun off hoff _ => hbreak.reg off hoff⟩
  · obtain ⟨jmode, jprev, jreg⟩ := State.judgeDegraded_idle (h14.noTrans.trans (by rw [hsys9, htrans5])) (if m = .service then 5 else 6)
    exact hend ⟨jmode, jprev, fun off _ hne => jreg off hne⟩

/-! ## Modes in which no core runs -/

/-- In a mode without cores, every core of ID 0 to 19 goes off. -/
theorem State.modeCores_noneIn {s : State} (h : s.coresIn s.sys.mode = []) :
    NoCoreStarts s s.modeCores ∧ ∀ c < 20, (s.modeCores.core c).run = .off := by
  unfold State.modeCores
  extract_lets on s1
  have hon : on = [] := h
  have hkeeper : NoCoreStarts s s1 := both_arms (NoCoreStarts s) (setCore_reset_noCoreStarts s 20) (NoCoreStarts.refl s)
  clear_value on s1
  subst hon
  suffices hfold : ∀ f : State → Nat → State, (∀ t c, t.sys = s.sys → f t c = t.coreDown c) →
      NoCoreStarts s ((List.range 20).foldl f s1) ∧ ∀ c < 20, (((List.range 20).foldl f s1).core c).run = .off from
    hfold _ fun t c _ => if_neg (by simp)
  intro f hf
  obtain ⟨hrest, hoff⟩ := foldl_coreDown hf (List.range 20) hkeeper.sys
  exact ⟨hkeeper.trans hrest, fun c hc => hoff c (List.mem_range.mpr hc)⟩

/-- M0, M10 and M11 are entered with no core of ID 0 to 19 running. -/
theorem State.enterMode_coresOff (s : State) {m : Mode} (requested : Bool) (cause : Nat)
    (hm : m = .keep ∨ m = .lockdown ∨ m = .dormant) : ∀ c < 20, ((s.enterMode m requested cause).core c).run = .off := by
  have hnone : ∀ u : State, u.sys.mode = m → u.coresIn u.sys.mode = [] ∧ u.gladeMayStart = false ∧ ∀ n, u.judgeDegraded n = u := by
    intro u hu
    rcases hm with rfl | rfl | rfl <;> simp [State.coresIn, State.gladeMayStart, State.judgeDegraded, hu]
  have hrecovery : m ≠ .recovery := by rcases hm with rfl | rfl | rfl <;> decide
  unfold State.enterMode
  extract_lets old drive lines s1 s2 s3 s4 sys alm xng s5 s6 s7 s8 s9 s10 s11 s12 s13 tim s14
  have hmode5 : s5.sys.mode = m := rfl
  have h8 : Steady s5 s8 := by simp [Steady, s8, s7, s6]
  have h9 : Steady s8 s9 := Steady.ite (State.requestResult_steady s8 2) (Steady.refl s8)
  have h10 : Steady s9 s10 := Steady.ite (State.riseBp_steady s9) (Steady.refl s9)
  have hmode10 : s10.sys.mode = m := by rw [((h8.trans h9).trans h10).sys, hmode5]
  obtain ⟨hcores, hoff⟩ := State.modeCores_noneIn (hnone s10 hmode10).1
  have hmode11 : s11.sys.mode = m := by rw [hcores.sys, hmode10]
  have h12 : s12 = s11 := if_neg (by simp [(hnone s11 hmode11).2.1])
  have h13 : Steady s11 s13 := by simp [Steady, s13, h12]
  have h14 : s14.sys = s11.sys ∧ s14.cores = s11.cores :=
    both_arms (fun u : State => u.sys = s11.sys ∧ u.cores = s11.cores) (by simp [h13.sys, h13.cores]) ⟨h13.sys, h13.cores⟩
  obtain ⟨hsys14, hcores14⟩ := h14
  rw [if_neg (by simp [hrecovery]), (hnone s14 (by rw [hsys14, hmode11])).2.2]
  intro c hc
  rw [State.core_congr hcores14]
  exact hoff c hc

/-- A transition completes unless a handover that it asked for is still ahead. -/
theorem modeEntered : Safety.ModeEntered := by
  unfold Safety.ModeEntered
  intro s x htrans hhand
  have hdue : s.transDue = true := by
    unfold State.transDue
    rw [htrans]
    cases hreq : x.requested with
    | false => simp [hreq]
    | true => simp [hhand hreq]
  have hexec : exec .modeEntry s = .next (s.enterMode x.target x.requested x.cause) := by
    show execModeEntry s = _
    unfold execModeEntry
    rw [htrans]
    exact if_pos hdue
  obtain ⟨hmode, hprev, hchange, hresult⟩ := s.enterMode_shows x.target x.requested x.cause
  exact ⟨_, hexec, hmode, hprev, hchange, hresult, s.enterMode_coresOff x.requested x.cause⟩

/-- Settles O23: the order of a request's results, and what stands once a mode is entered. -/
theorem modeTransitions : Obligations.ModeTransitions := ⟨modeRequestResult, modeEntered⟩

end Sys2Proof.Machine
end

section
/-!
SUPPORT. A port's own state and counters: what the pause timer's count of held time moves (R90), and what a frame's way in leaves
alone (R81 to R89).
-/

namespace Sys2Proof.Machine

open Sys2Proof.Safety

/-! ## A port's own state -/

@[simp] theorem State.port_setPort (s : State) (p : Nat) (x : NetPort) (q : Nat) :
    (s.setPort p x).port q = if q = p then x else s.port q := by simp [State.port, State.setPort]

theorem State.port_congr {s t : State} (h : t.net = s.net) (p : Nat) : t.port p = s.port p := by rw [State.port, h, State.port]

@[simp] theorem State.port_elapse (s : State) (n p : Nat) : (s.elapse n).port p = s.port p := rfl
@[simp] theorem State.port_emit (s : State) (o : Output) (p : Nat) : (s.emit o).port p = s.port p := rfl
@[simp] theorem State.port_bumpBy (s : State) (k n p : Nat) : (s.bumpBy k n).port p = s.port p := State.port_congr (by simp) p
@[simp] theorem State.port_bump (s : State) (k p : Nat) : (s.bump k).port p = s.port p := s.port_bumpBy k 1 p
@[simp] theorem State.port_pbump (s : State) (q r p : Nat) : (s.pbump q r).port p = s.port p := s.port_bump _ p
@[simp] theorem State.port_praise (s : State) (q : Nat) (f : Fld) (p : Nat) : (s.praise q f).port p = s.port p :=
  State.port_congr (by simp) p

/-! ## Counters of a port -/

theorem netWin_le (p : Nat) : netWin p ≤ 0xC000 := by unfold netWin; split <;> omega

theorem pcnt_ne {r r' : Nat} (h : r ≠ r') (p : Nat) : pcnt r p ≠ pcnt r' p := fun e => h (Nat.add_right_cancel e)

/-- A counter of a port is none of the timebase's. -/
theorem pcnt_ne_ptpRx {r : Nat} (h : r < 0x42000) (p : Nat) : pcnt r p ≠ R.TIM_PTP_RX := by
  have hwin := netWin_le p
  simp only [pcnt, R.TIM_PTP_RX]
  omega

theorem counted_bumpBy (s : State) (k n : Nat) : Counted s (s.bumpBy k n) k n := by
  have hlt : min ((s.cnt k).toNat + n) (2 ^ 64 - 1) < 2 ^ 64 := by omega
  rw [Counted, State.cnt_bumpBy, if_pos rfl, w64, BitVec.toNat_ofNat, Nat.mod_eq_of_lt hlt, Nat.min_comm]
  rfl

theorem counted_zero {s t : State} {k : Nat} (h : t.cnt k = s.cnt k) : Counted s t k 0 := by
  have hk := (s.cnt k).isLt
  rw [Counted, h]
  omega

theorem State.cnt_pbump_ne (s : State) {r r' : Nat} (h : r' ≠ r) (p : Nat) : (s.pbump p r).cnt (pcnt r' p) = s.cnt (pcnt r' p) :=
  s.cnt_bump_ne _ _ (pcnt_ne h p)

@[simp] theorem State.cnt_setPort (s : State) (p : Nat) (x : NetPort) (k : Nat) : (s.setPort p x).cnt k = s.cnt k := rfl
@[simp] theorem State.cnt_praise (s : State) (p : Nat) (f : Fld) (k : Nat) : (s.praise p f).cnt k = s.cnt k := by simp [State.cnt]

/-! ## Time held by the pause timer (R90) -/

/-- Port `p` stands as `x` but for the hold in progress, and beside it only the count of held time has moved. -/
structure HeldAs (p : Nat) (x : NetPort) (s t : State) : Prop where
  port : ∃ h, t.port p = { x with holdFrom := h }
  cnt : ∀ k, k ≠ pcnt R.NET_TX_PAUSED_NS p → t.cnt k = s.cnt k
  fields : t = { s with net := t.net, wide := t.wide, uwide := t.uwide, saturated := t.saturated }

namespace HeldAs

variable {p : Nat} {x : NetPort} {s t u : State}

theorem refl (p : Nat) (s : State) : HeldAs p (s.port p) s s := ⟨⟨_, rfl⟩, fun _ _ => rfl, rfl⟩

/-- A change of the port that does not read the hold in progress. -/
theorem upd (h : HeldAs p x s t) (g : NetPort → NetPort) (hg : ∀ o, ∃ o', g { x with holdFrom := o } = { g x with holdFrom := o' }) :
    HeldAs p (g x) s (t.setPort p (g (t.port p))) := by
  obtain ⟨⟨o, hport⟩, hcnt, hfields⟩ := h
  refine ⟨?_, hcnt, ?_⟩
  · rw [State.port_setPort, if_pos rfl, hport]
    exact hg o
  · rw [hfields]
    rfl

theorem settleHold (p : Nat) (s : State) : HeldAs p (s.port p) s (s.settleHold p) := by
  unfold State.settleHold
  split
  · exact refl p s
  · refine ⟨⟨none, by simp⟩, fun k hk => ?_, ?_⟩
    · rw [State.cnt_bumpBy, if_neg hk, State.cnt_setPort]
    · unfold State.bumpBy State.setCnt
      dsimp only
      split_ifs <;> rfl

theorem armHold (h : HeldAs p x s t) : HeldAs p x s (t.armHold p) := by
  obtain ⟨hport, hcnt, hfields⟩ := h.upd (fun y => { y with holdFrom := some t.now }) fun o => ⟨some t.now, rfl⟩
  exact both_arms (HeldAs p x s) ⟨hport, hcnt, hfields⟩ h

theorem txQueue (p : Nat) (s : State) (f : TxFrame) :
    HeldAs p { s.port p with tx := (s.port p).tx ++ [f] } s (s.txQueue p f) :=
  ((settleHold p s).upd (fun y => { y with tx := y.tx ++ [f] }) fun o => ⟨o, rfl⟩).armHold

theorem tx (h : HeldAs p x s t) : (t.port p).tx = x.tx := by obtain ⟨o, hport⟩ := h.port; rw [hport]
theorem cur (h : HeldAs p x s t) : (t.port p).cur = x.cur := by obtain ⟨o, hport⟩ := h.port; rw [hport]
theorem pauseUntil (h : HeldAs p x s t) : (t.port p).pauseUntil = x.pauseUntil := by obtain ⟨o, hport⟩ := h.port; rw [hport]
theorem now (h : HeldAs p x s t) : t.now = s.now := by rw [h.fields]
theorem out (h : HeldAs p x s t) : t.out = s.out := by rw [h.fields]
theorem xng (h : HeldAs p x s t) : t.xng = s.xng := by rw [h.fields]
theorem reg (h : HeldAs p x s t) (off : Nat) : t.reg off = s.reg off := by rw [h.fields]; rfl
theorem pfld (h : HeldAs p x s t) (q : Nat) (f : Fld) : t.pfld q f = s.pfld q f := State.fld_congr (h.reg _)
theorem pflag (h : HeldAs p x s t) (q : Nat) (f : Fld) : t.pflag q f = s.pflag q f := State.flag_congr (h.reg _)
theorem looped (h : HeldAs p x s t) (q : Nat) : t.looped q = s.looped q := by rw [h.fields]; rfl

/-- A counter other than that of held time. -/
theorem cnt_pcnt (h : HeldAs p x s t) {r : Nat} (hr : r ≠ R.NET_TX_PAUSED_NS) : t.cnt (pcnt r p) = s.cnt (pcnt r p) :=
  h.cnt _ (pcnt_ne hr p)

end HeldAs

/-! ## A frame's way in -/

/-- The frame in transmission at port `p`, the Crossing and the counts of sent frames stand. -/
structure Receives (p : Nat) (s t : State) : Prop where
  cur : (t.port p).cur = (s.port p).cur
  xng : t.xng = s.xng
  sent : ∀ r, r = R.NET_TX_SENT ∨ r = R.NET_TX_PAUSE_SENT → t.cnt (pcnt r p) = s.cnt (pcnt r p)

namespace Receives

variable {p : Nat} {x : NetPort} {s t u : State}

theorem refl (p : Nat) (s : State) : Receives p s s := ⟨rfl, rfl, fun _ _ => rfl⟩

theorem trans (a : Receives p s t) (b : Receives p t u) : Receives p s u :=
  ⟨b.cur.trans a.cur, b.xng.trans a.xng, fun r h => (b.sent r h).trans (a.sent r h)⟩

theorem ite {c : Prop} [Decidable c] (h : Receives p s t) (g : Receives p s u) : Receives p s (if c then t else u) :=
  both_arms (Receives p s) h g

theorem of_heldAs (h : HeldAs p x t u) (hx : x.cur = (t.port p).cur) : Receives p t u :=
  ⟨h.cur.trans hx, h.xng, fun r hr => h.cnt_pcnt (by rcases hr with rfl | rfl <;> decide)⟩

theorem settleHold (h : Receives p s t) : Receives p s (t.settleHold p) := h.trans (of_heldAs (HeldAs.settleHold p t) rfl)

theorem armHold (h : Receives p s t) : Receives p s (t.armHold p) := h.trans (of_heldAs (HeldAs.refl p t).armHold rfl)

theorem pbump (h : Receives p s t) {r : Nat} (hr : R.NET_TX_SENT ≠ r ∧ R.NET_TX_PAUSE_SENT ≠ r) : Receives p s (t.pbump p r) := by
  refine h.trans ⟨by simp, by simp, fun r' hr' => t.cnt_pbump_ne ?_ p⟩
  rcases hr' with rfl | rfl
  · exact hr.1
  · exact hr.2

theorem praise (h : Receives p s t) (f : Fld) : Receives p s (t.praise p f) := h.trans ⟨by simp, by simp, fun r _ => by simp⟩

theorem setPort (h : Receives p s t) {y : NetPort} (hy : y.cur = (t.port p).cur := by rfl) : Receives p s (t.setPort p y) :=
  h.trans ⟨by simpa using hy, by simp, fun r _ => by simp⟩

theorem pauseRx (h : Receives p s t) (quanta : Nat) : Receives p s (t.pauseRx p quanta) := by
  unfold State.pauseRx
  split
  · extract_lets t1 was x t2 t3
    have h2 : Receives p s t2 := (h.settleHold.setPort).pbump (by decide)
    exact (ite (h2.praise _) h2).armHold
  · exact h.pbump (by decide)

theorem macControl (h : Receives p s t) (l : List Byte) : Receives p s (t.macControl p l) :=
  ite (h.pauseRx _) (h.pbump (by decide))

theorem deliverFrame (h : Receives p s t) (truncated : Bool) (arrival : Nat) (l : List Byte) :
    Receives p s (t.deliverFrame p truncated arrival l) := by
  have hptp : Receives p (t.pbump p R.NET_RX_TO_TIMEBASE) ((t.pbump p R.NET_RX_TO_TIMEBASE).bump R.TIM_PTP_RX) :=
    ⟨by simp, by simp, fun r hr => State.cnt_bump_ne _ _ _ (pcnt_ne_ptpRx (by rcases hr with rfl | rfl <;> decide) p)⟩
  have htim (v : State) (x : Tim) : Receives p v { v with tim := x } := ⟨rfl, rfl, fun _ _ => rfl⟩
  exact ite (((h.pbump (by decide)).trans hptp).trans (htim _ _)) (h.trans ⟨rfl, rfl, fun _ _ => rfl⟩)

/-- A frame that MACsec discards is counted by a counter of reception. -/
theorem secReceive_fails_rx (t : State) (p : Nat) (truncated : Bool) (l : List Byte) :
    ∀ r, t.secReceive p truncated l = .fail r → R.NET_TX_SENT ≠ r ∧ R.NET_TX_PAUSE_SENT ≠ r := by
  have hfail {n : Nat} (hn : R.NET_TX_SENT ≠ n ∧ R.NET_TX_PAUSE_SENT ≠ n) :
      ∀ r, SecResult.fail n = .fail r → R.NET_TX_SENT ≠ r ∧ R.NET_TX_PAUSE_SENT ≠ r := fun _ e => SecResult.fail.inj e ▸ hn
  fun_cases State.secReceive t p truncated l
  case case7 => exact fun _ e => SecResult.noConfusion e
  all_goals exact hfail (by decide)

theorem rxFilter (h : Receives p s t) (truncated : Bool) (arrival : Nat) (l : List Byte) :
    Receives p s (t.rxFilter p truncated arrival l) := by
  unfold State.rxFilter
  extract_lets vlan
  have hvlan {u : State} (hu : Receives p s u) (l : List Byte) : Receives p s (vlan u l) :=
    ite (hu.deliverFrame truncated arrival l) (hu.pbump (by decide))
  refine ite (h.pbump (by decide)) (ite ?_ (hvlan h l))
  split
  next r hr => exact (h.pbump (secReceive_fails_rx t p truncated l r hr)).pbump (by decide)
  · exact hvlan h.setPort _

theorem rxStored (h : Receives p s t) (pcsError : Bool) (arrival : Nat) (wire : List Byte) :
    Receives p s (t.rxStored p pcsError arrival wire) := by
  unfold State.rxStored
  extract_lets t1 maxLen truncated kept t2 body
  have h1 : Receives p s t1 := h.pbump (by decide)
  have h2 : Receives p s t2 := ite ((h1.pbump (by decide)).praise _) h1
  exact ite ((h1.pbump (by decide)).praise _) (ite (h2.pbump (by decide)) (ite (h2.pbump (by decide))
    (ite (h2.pbump (by decide)) (ite (h2.macControl body) (h2.rxFilter truncated arrival body)))))

end Receives

end Sys2Proof.Machine
end

section
/-!
Reception of a frame (O32): the checks in their order, and where a good frame goes.
-/

namespace Sys2Proof.Machine

open Sys2Proof.Safety

/-! ## What the checks read -/

theorem Journalled.pflag {s t : State} (h : Journalled s t) (p : Nat) (f : Fld) : t.pflag p f = s.pflag p f := h.flag _

theorem Journalled.pfld {s t : State} (h : Journalled s t) (p : Nat) (f : Fld) : t.pfld p f = s.pfld p f := State.fld_congr (h.reg _)

theorem Journalled.rxUsed {s t : State} (h : Journalled s t) (p : Nat) : t.rxUsed p = s.rxUsed p := by
  obtain ⟨x, o, w, uw, sat, rfl⟩ := h
  rfl

theorem Journalled.addrOk {s t : State} (h : Journalled s t) (p : Nat) (l : List Byte) : t.addrOk p l = s.addrOk p l := by
  obtain ⟨x, o, w, uw, sat, rfl⟩ := h
  rfl

theorem Journalled.vlanOk {s t : State} (h : Journalled s t) (p : Nat) (l : List Byte) : t.vlanOk p l = s.vlanOk p l := by
  obtain ⟨x, o, w, uw, sat, rfl⟩ := h
  rfl

/-- A counter of a port moves no register and no frame. -/
theorem State.pbump_journalled (s : State) (p r : Nat) : Journalled s (s.pbump p r) := s.bump_journalled _

/-! ## The checks in their order (R83) -/

/-- A port that takes no frames leaves one alone (R74, R86, R107). -/
theorem State.rxMedium_of_not_takes {s : State} {p : Nat} (h : ¬ Takes s p) (pcs : Bool) (wire : List Byte) :
    s.rxMedium p pcs wire = s := by
  refine if_pos ?_
  by_contra hc
  exact h (by simpa [State.portRuns, Takes, and_assoc] using hc)

theorem State.rxMedium_of_takes {s : State} {p : Nat} (h : Takes s p) (pcs : Bool) (wire : List Byte) :
    s.rxMedium p pcs wire = s.rxStored p pcs (s.arrivalStamp p wire.length) wire := by
  obtain ⟨hstop, hrx, hloop⟩ := h
  exact if_neg (by simp [State.portRuns, hstop, hrx, hloop])

/-- A frame for which the receive buffer has no room. -/
theorem State.rxStored_of_full {s : State} {p : Nat} {wire : List Byte}
    (h : ¬ s.rxUsed p + min (s.pfld p F.NET_MAXLEN.BYTES) wire.length ≤ rxBuffer p) (pcs : Bool) (arrival : Nat) :
    s.rxStored p pcs arrival wire =
      ((s.pbump p R.NET_RX_SEEN).pbump p R.NET_RX_OVERFLOW).praise p F.NET_INT_STATUS.OVERFLOW := by
  refine if_pos ?_
  rw [(s.pbump_journalled p _).rxUsed, (s.pbump_journalled p _).pfld, List.length_take]
  omega

/-- A frame within the longest length that finds room: the checks that follow. -/
theorem State.rxStored_of_fits {s : State} {p : Nat} {wire : List Byte}
    (hfits : s.rxUsed p + min (s.pfld p F.NET_MAXLEN.BYTES) wire.length ≤ rxBuffer p)
    (hlen : wire.length ≤ s.pfld p F.NET_MAXLEN.BYTES) (pcs : Bool) (arrival : Nat) :
    s.rxStored p pcs arrival wire =
      (let t := s.pbump p R.NET_RX_SEEN
       let body := wire.take (wire.length - 4)
       if pcs then t.pbump p R.NET_RX_PCS_ERROR
       else if wire.length < 64 then t.pbump p R.NET_RX_RUNT
       else if leNat (wire.drop (wire.length - 4)) ≠ crc32 body then t.pbump p R.NET_RX_FCS_ERROR
       else if beAt body 12 2 = 0x8808 then t.macControl p body
       else t.rxFilter p false arrival body) := by
  have hroom : ¬ rxBuffer p < s.rxUsed p + wire.length := by
    rw [Nat.min_eq_right hlen] at hfits
    omega
  have hwhole : ¬ s.pfld p F.NET_MAXLEN.BYTES < wire.length := Nat.not_lt.mpr hlen
  have hseen := s.pbump_journalled p R.NET_RX_SEEN
  unfold State.rxStored
  simp only [hseen.pfld, hseen.rxUsed, List.take_of_length_le hlen, if_neg hroom, decide_eq_false hwhole, Bool.false_eq_true,
    if_false, Bool.not_false, Bool.true_and, decide_eq_true_eq]

/-- A frame of an accepted address and VLAN on a port without MACsec is delivered (R83, R98, R99). -/
theorem State.rxFilter_of_accepted {s : State} {p : Nat} {l : List Byte} (ha : s.addrOk p l = true) (hv : s.vlanOk p l = true)
    (hm : s.pflag p F.NET_CTRL.MACSEC_EN = false) (arrival : Nat) :
    s.rxFilter p false arrival l = s.deliverFrame p false arrival l := by
  simp [State.rxFilter, State.secures, ha, hv, hm]

theorem State.deliverFrame_of_ptp (s : State) (p arrival : Nat) {l : List Byte} (h : isPtp l = true) :
    s.deliverFrame p false arrival l =
      (let t := (s.pbump p R.NET_RX_TO_TIMEBASE).bump R.TIM_PTP_RX
       { t with tim := { t.tim with ptpQ := t.tim.ptpQ ++ [⟨p, arrival, l⟩] } }) := if_pos (by rw [h]; rfl)

theorem State.deliverFrame_of_not_ptp (s : State) (p arrival : Nat) {l : List Byte} (h : ¬ isPtp l = true) :
    s.deliverFrame p false arrival l = { s with ing := { s.ing with eth := s.ing.eth ++ [⟨p, l, false, arrival⟩] } } :=
  if_neg (by simpa using h)

theorem State.cnt_upd_tim (s : State) (x : Tim) (k : Nat) : ({ s with tim := x } : State).cnt k = s.cnt k := rfl
theorem State.cnt_upd_ing (s : State) (x : Ing) (k : Nat) : ({ s with ing := x } : State).cnt k = s.cnt k := rfl

/-! ## What a frame leaves -/

/-- A frame dropped is seen, and counted by the check that it fails. -/
theorem pbump_seen_drops (s : State) (p : Nat) {r : Nat} (hr : R.NET_RX_SEEN ≠ r) :
    let t := (s.pbump p R.NET_RX_SEEN).pbump p r
    t.ing = s.ing ∧ t.tim = s.tim ∧ Counted s t (pcnt R.NET_RX_SEEN p) 1 ∧ Counted s t (pcnt r p) 1 := by
  refine ⟨by simp, by simp, ?_, ?_⟩
  · exact counted_of_eq (counted_bump s _) rfl (State.cnt_pbump_ne _ hr p)
  · exact counted_of_eq (counted_bump (s.pbump p R.NET_RX_SEEN) _) (State.cnt_pbump_ne s hr.symm p) rfl

theorem State.elapse_ptpQ (s : State) (n : Nat) : (s.elapse n).tim.ptpQ = s.tim.ptpQ := by
  unfold State.elapse
  dsimp only
  split <;> rfl

/-- A good frame goes to the timebase when it is a PTP message, else it waits for the parser (R84, R85). -/
theorem deliverFrame_seen (s : State) (p arrival : Nat) (l : List Byte) :
    let t := (s.pbump p R.NET_RX_SEEN).deliverFrame p false arrival l
    Counted s t (pcnt R.NET_RX_SEEN p) 1 ∧
      if isPtp l then t.ing = s.ing ∧ t.tim = { s.tim with ptpQ := s.tim.ptpQ ++ [⟨p, arrival, l⟩] }
      else t.tim = s.tim ∧ t.ing = { s.ing with eth := s.ing.eth ++ [⟨p, l, false, arrival⟩] } := by
  intro t
  have hseen : Counted s (s.pbump p R.NET_RX_SEEN) (pcnt R.NET_RX_SEEN p) 1 := counted_bump s _
  by_cases hptp : isPtp l = true
  · have ht : t = _ := State.deliverFrame_of_ptp (s.pbump p R.NET_RX_SEEN) p arrival hptp
    rw [if_pos hptp, ht]
    refine ⟨counted_of_eq hseen rfl ?_, by simp, by simp⟩
    rw [State.cnt_upd_tim, State.cnt_bump_ne _ _ _ (pcnt_ne_ptpRx (by decide) p), State.cnt_pbump_ne _ (by decide)]
  · have ht : t = _ := State.deliverFrame_of_not_ptp (s.pbump p R.NET_RX_SEEN) p arrival hptp
    rw [if_neg hptp, ht]
    exact ⟨counted_of_eq hseen rfl (State.cnt_upd_ing _ _ _), by simp, by simp⟩

/-- Settles O32: the first check that fails decides, and a good frame is delivered. -/
theorem frameReception : Obligations.FrameReception := by
  unfold Obligations.FrameReception
  intro s p pcs wire dt u max body fits drops
  have hexec : exec (.rxFrame p pcs wire dt) s = .next (u.rxMedium p.val pcs wire) := rfl
  refine ⟨fun h => ⟨_, hexec, State.rxMedium_of_not_takes (s := u) h pcs wire⟩, fun h => ?_⟩
  rw [State.rxMedium_of_takes (s := u) h] at hexec
  have hdrops {r : Nat} (hr : R.NET_RX_SEEN ≠ r) : drops ((u.pbump p R.NET_RX_SEEN).pbump p r) r := pbump_seen_drops u p hr
  refine ⟨fun hfull => ⟨_, hexec, ?_⟩, fun hfits hlen => ?_⟩
  · rw [State.rxStored_of_full (s := u) hfull]
    obtain ⟨hing, htim, hseen, hcause⟩ := hdrops (r := R.NET_RX_OVERFLOW) (by decide)
    exact ⟨(State.praise_ing _ _ _).trans hing, (State.praise_tim _ _ _).trans htim, counted_of_eq hseen rfl (State.cnt_praise _ _ _ _),
      counted_of_eq hcause rfl (State.cnt_praise _ _ _ _)⟩
  · rw [State.rxStored_of_fits (s := u) hfits hlen] at hexec
    refine ⟨fun hpcs => ⟨_, hexec, ?_⟩, fun hpcs hrunt => ⟨_, hexec, ?_⟩, fun hpcs hrunt hfcs => ⟨_, hexec, ?_⟩,
      fun hpcs hrunt hfcs hmac haddr hvlan hsec => ⟨_, hexec, ?_⟩⟩
    · simp only [hpcs, if_true]
      exact hdrops (by decide)
    · simp only [hpcs, Bool.false_eq_true, if_false, if_pos hrunt]
      exact hdrops (by decide)
    · simp only [hpcs, Bool.false_eq_true, if_false, if_neg (Nat.not_lt.mpr hrunt)]
      rw [if_pos hfcs]
      exact hdrops (by decide)
    · simp only [hpcs, Bool.false_eq_true, if_false, if_neg (Nat.not_lt.mpr hrunt)]
      have hseen := u.pbump_journalled p R.NET_RX_SEEN
      rw [if_neg (not_not.mpr hfcs), if_neg hmac, State.rxFilter_of_accepted ((hseen.addrOk _ _).trans haddr)
        ((hseen.vlanOk _ _).trans hvlan) ((hseen.pflag _ _).trans hsec)]
      rw [← s.elapse_ptpQ dt]
      exact deliverFrame_seen u p.val _ body

end Sys2Proof.Machine
end

section
/-!
The pause timer and the physical state of a port (O34).
-/

namespace Sys2Proof.Machine

open Sys2Proof.Safety

/-! ## Pause (R88 to R91) -/

/-- The pause timer runs out: the time that it held a frame ends with it (R90). -/
theorem State.settleHold_expired {s : State} {p h : Nat} (hh : (s.port p).holdFrom = some h) (hu : (s.port p).pauseUntil ≤ s.now) :
    s.settleHold p = (s.setPort p { s.port p with holdFrom := none }).bumpBy (pcnt R.NET_TX_PAUSED_NS p)
      (((s.port p).pauseUntil - h) * 5 / 6) := by
  unfold State.settleHold
  rw [hh]
  dsimp only
  rw [Nat.min_eq_right hu]

/-- A refresh that is due (R91). -/
theorem pauseRefresh_due {s : State} {p : Port} {dt r : Nat} (hr : (s.port p.val).refreshAt = some r) (hdue : r ≤ s.now + dt) :
    exec (.pauseRefresh p dt) s = .next (let u := s.elapse dt
      if u.portBp p.val then
        (if u.sendsPause p.val then u.sendPause p.val (u.pfld p.val F.NET_PAUSE.TIME) else u).armRefresh p.val
      else u.dropRefresh p.val) := by
  have hr' : ((s.elapse dt).port p.val).refreshAt = some r := hr
  show execPauseRefresh p dt s = _
  unfold execPauseRefresh
  dsimp only
  rw [hr']
  dsimp only
  rw [if_neg (show ¬ (s.elapse dt).now < r from Nat.not_lt.mpr hdue)]
  cases (s.elapse dt).portBp p.val <;> rfl

/-- A pause frame sent, and the next refresh due: the frame joins class 1, and nothing leaves the unit yet (R91, R93). -/
theorem State.sendPause_armRefresh (s : State) (p quanta : Nat) :
    let t := (s.sendPause p quanta).armRefresh p
    (t.port p).tx = (s.port p).tx ++ [⟨1, pauseBytes (s.station p) quanta, .pause quanta⟩] ∧ t.out = s.out ∧
      (t.port p).refreshAt = some (s.now + s.pfld p F.NET_PAUSE.REFRESH * 1200) := by
  have hsent := HeldAs.txQueue p s ⟨1, pauseBytes (s.station p) quanta, .pause quanta⟩
  intro t
  refine ⟨?_, ?_, ?_⟩
  · refine Eq.trans ?_ hsent.tx
    simp [t, State.armRefresh, State.sendPause]
  · rw [← hsent.out]
    simp [t, State.armRefresh, State.sendPause]
  · rw [← hsent.now, ← hsent.pfld]
    simp [t, State.armRefresh, State.sendPause, clkPerUs]

/-- R88 to R91: the pause timer and the refresh of pause frames. -/
theorem pauseTimers : PauseTimers := by
  unfold PauseTimers
  intro s p dt x
  refine ⟨fun h hh hu => ⟨_, if_pos hu, ?_⟩, fun r hr hdue => ⟨fun hsend hbp => ⟨_, pauseRefresh_due hr hdue, ?_⟩,
    fun hsend hbp => ⟨_, pauseRefresh_due hr hdue, ?_⟩, fun hbp => ⟨_, pauseRefresh_due hr hdue, ?_⟩⟩⟩
  · rw [State.settleHold_expired (s := s.elapse dt) hh hu]
    exact ⟨by simp [x], counted_bumpBy ((s.elapse dt).setPort p.val _) _ _⟩
  all_goals dsimp only
  · rw [if_pos (show (s.elapse dt).portBp p.val = true from hbp), if_pos (show (s.elapse dt).sendsPause p.val = true from hsend)]
    exact (s.elapse dt).sendPause_armRefresh p.val _
  · rw [if_pos (show (s.elapse dt).portBp p.val = true from hbp),
      if_neg (show ¬ (s.elapse dt).sendsPause p.val = true from Bool.eq_false_iff.mp hsend)]
    exact ⟨(State.port_setPort _ _ _ _).trans (if_pos rfl), rfl⟩
  · rw [if_neg (show ¬ (s.elapse dt).portBp p.val = true from Bool.eq_false_iff.mp hbp)]
    exact ⟨rfl, (State.port_setPort _ _ _ _).trans (if_pos rfl)⟩

/-! ## The physical state (R632, R650) -/

@[simp] theorem State.showPhy_port (s : State) (p q : Nat) : (s.showPhy p).port q = s.port q := by
  refine State.port_congr ?_ q
  unfold State.showPhy
  dsimp only
  split_ifs <;> simp

@[simp] theorem State.showPhy_cnt (s : State) (p k : Nat) : (s.showPhy p).cnt k = s.cnt k := by
  unfold State.showPhy
  dsimp only
  split_ifs <;> simp [State.cnt]

/-- A flag of a port's window set. -/
theorem State.pflag_setFld_same (s : State) (p : Nat) {f : Fld} (b : Bool) (h : f.hi < 32) (e : f.hi = f.lo) :
    (s.setFld (f.at (netWin p)) (b2n b)).pflag p f = b := State.flag_setFld_same b h e

/-- A field of a port's window set leaves the others. -/
theorem State.pflag_setFld_ne (s : State) (p : Nat) {f g : Fld} (v : Nat) (h : f.hi < 32)
    (d : g.off ≠ f.off ∨ g.hi < f.lo ∨ f.hi < g.lo) : (s.setFld (f.at (netWin p)) v).pflag p g = s.pflag p g :=
  State.flag_setFld_ne v h (d.imp_left fun hne e => hne (Nat.add_right_cancel e))

/-- From step t7 on NET_STATUS shows the module and the link, which a rate and FEC without a physical layer keep down (R78, R650). -/
theorem State.showPhy_shows {s : State} (h : 7 ≤ s.sys.bootStep) (p : Nat) :
    (s.showPhy p).pflag p F.NET_STATUS.MODULE = ((s.port p).moduleIn && decide (p < 4)) ∧
      (s.showPhy p).pflag p F.NET_STATUS.LINK = ((s.port p).link && ((s.port p).moduleOk || decide (4 ≤ p)) && s.phyKnown p) := by
  unfold State.showPhy
  extract_lets x was fits link t u
  have hmodule : u.pflag p F.NET_STATUS.MODULE = (x.moduleIn && decide (p < 4)) := by
    rw [State.pflag_setFld_ne t p _ (by decide) (by decide), State.pflag_setFld_ne _ p _ (by decide) (by decide),
      State.pflag_setFld_same s p _ (by decide) (by decide)]
  have hlink : u.pflag p F.NET_STATUS.LINK = link := by
    rw [State.pflag_setFld_ne t p _ (by decide) (by decide), State.pflag_setFld_same _ p _ (by decide) (by decide)]
  rw [if_neg (Nat.not_lt.mpr h)]
  refine both_arms (fun w : State => w.pflag p F.NET_STATUS.MODULE = _ ∧ w.pflag p F.NET_STATUS.LINK = _) ⟨hmodule, hlink⟩ ?_
  exact ⟨(State.pflag_setFld_ne u p _ (by decide) (by decide)).trans hmodule,
    (State.pflag_setFld_ne u p _ (by decide) (by decide)).trans hlink⟩

/-- An event at the wake watcher keeps what none of its slots' counts holds. -/
theorem State.wakeEvent_keeps {α : Type} (g : State → α)
    (hg : ∀ (t : State) (k v : Nat), k < 16 → g (t.setFld ⟨R.IC_WAKE_SLOT + 4 * k, 7, 0⟩ v) = g t) (s : State) (code : Nat) :
    g (s.wakeEvent code) = g s := by
  refine both_arms (fun t => g t = g s) ?_ rfl
  refine List.foldlRecOn _ _ (motive := fun t => g t = g s) rfl fun t ht k hk => ?_
  exact both_arms (fun t => g t = g s) ((hg t k _ (List.mem_range.mp hk)).trans ht) ht

/-- The wake watcher's slots lie outside NET. -/
theorem State.wakeEvent_phyKnown (s : State) (code p : Nat) : (s.wakeEvent code).phyKnown p = s.phyKnown p := by
  refine State.wakeEvent_keeps (·.phyKnown p) (fun t k v hk => ?_) s code
  have hreg : (t.setFld ⟨R.IC_WAKE_SLOT + 4 * k, 7, 0⟩ v).reg (R.NET_CTRL + netWin p) = t.reg (R.NET_CTRL + netWin p) := by
    refine State.reg_setFld_ne _ _ _ _ ?_
    simp only [R.NET_CTRL, R.IC_WAKE_SLOT]
    omega
  have hspeed := State.flag_congr (f := F.NET_CTRL.SPEED.at (netWin p)) hreg
  have hfec := State.fld_congr (f := F.NET_CTRL.FEC.at (netWin p)) hreg
  simp only [State.phyKnown, State.pflag, State.pfld, hspeed, hfec]

/-- A port's state stored, and shown: the port as stored, and NET_STATUS from t7 on. -/
theorem State.setPort_showPhy {s w : State} {p : Nat} {x : NetPort} (hboot : w.sys.bootStep = s.sys.bootStep)
    (hphy : w.phyKnown p = s.phyKnown p) : let t := (w.setPort p x).showPhy p
    t.port p = x ∧ (7 ≤ s.sys.bootStep →
      t.pflag p F.NET_STATUS.MODULE = (x.moduleIn && decide (p < 4)) ∧
      t.pflag p F.NET_STATUS.LINK = (x.link && (x.moduleOk || decide (4 ≤ p)) && s.phyKnown p)) := by
  have hport : (w.setPort p x).port p = x := by simp
  refine ⟨by simp, fun h => ?_⟩
  obtain ⟨hmodule, hlink⟩ := State.showPhy_shows (s := w.setPort p x) (hboot ▸ h) p
  rw [hport] at hmodule hlink
  exact ⟨hmodule, hphy ▸ hlink⟩

/-- R632, R650: a change of link or module. -/
theorem physicalState : PhysicalState := by
  unfold PhysicalState
  intro s p b f x
  constructor
  · let w := if b && 4 ≤ p.val then s.wakeEvent (4 + p.val) else s
    have hboot : w.sys.bootStep = s.sys.bootStep :=
      both_arms (fun t : State => t.sys.bootStep = s.sys.bootStep) (by rw [(s.wakeEvent_steady _).sys]) rfl
    have hphy : w.phyKnown p.val = s.phyKnown p.val := both_arms (fun t : State => t.phyKnown p.val = _) (s.wakeEvent_phyKnown _ _) rfl
    have hport : w.port p.val = x :=
      both_arms (fun t : State => t.port p.val = _)
        (State.wakeEvent_keeps (·.port p.val) (fun t k v _ => State.port_congr (t.setFld_net _ v) _) s _) rfl
    obtain ⟨hkept, hshown⟩ := State.setPort_showPhy (x := { w.port p.val with link := b, fecLock := f }) hboot hphy
    refine ⟨_, rfl, hkept.trans (by rw [hport]), fun h => (hshown h).2.trans (by rw [hport])⟩
  · obtain ⟨hkept, hshown⟩ := State.setPort_showPhy (s := s) (w := s) (p := p.val)
      (x := { x with moduleIn := b, moduleOk := b && f }) rfl rfl
    exact ⟨_, rfl, hkept, hshown⟩

/-- Settles O34, by its two halves. -/
theorem portStates : Obligations.PortStates := ⟨pauseTimers, physicalState⟩

end Sys2Proof.Machine
end

section
/-!
Transmission: submission, start, end and flush (O33).
-/

namespace Sys2Proof.Machine

open Sys2Proof.Safety

/-! ## The head frame (R93) -/

/-- The first frame of the highest-priority class that has one is the head frame. -/
theorem headFrame_of_first {a b : List TxFrame} {f : TxFrame} (hf : f.cls < 5) (ha : ∀ g ∈ a, f.cls < g.cls)
    (hb : ∀ g ∈ b, f.cls ≤ g.cls) : headFrame (a ++ f :: b) = some (f, a ++ b) := by
  have hown : (a ++ f :: b).findIdx? (fun g => decide (g.cls = f.cls)) = some a.length := by
    have hfront : a.findIdx? (fun g => decide (g.cls = f.cls)) = none :=
      List.findIdx?_eq_none_iff.mpr fun g hg => decide_eq_false (Nat.ne_of_gt (ha g hg))
    simp [List.findIdx?_append, hfront, List.findIdx?_cons]
  have hlower : ∀ c ∈ List.range f.cls, (a ++ f :: b).findIdx? (fun g => decide (g.cls = c)) = none := by
    intro c hc
    have hc : c < f.cls := List.mem_range.mp hc
    have hall : ∀ g ∈ a ++ f :: b, f.cls ≤ g.cls := by
      simp only [List.mem_append, List.mem_cons]
      rintro g (hg | rfl | hg)
      · exact (ha g hg).le
      · exact le_rfl
      · exact hb g hg
    exact List.findIdx?_eq_none_iff.mpr fun g hg => decide_eq_false (Nat.ne_of_gt (hc.trans_le (hall g hg)))
  have hsplit : List.range 5 = List.range f.cls ++ f.cls :: (List.range (4 - f.cls)).map (f.cls + ·.succ) := by
    rw [show 5 = f.cls + (4 - f.cls + 1) by omega, List.range_add, List.range_succ_eq_map]
    simp
  have hfound : (List.range 5).findSome? (fun c => (a ++ f :: b).findIdx? fun g => decide (g.cls = c)) = some a.length :=
    List.findSome?_eq_some_iff.mpr ⟨_, _, _, hsplit, hown, hlower⟩
  unfold headFrame
  rw [hfound]
  simp [List.eraseIdx_append_of_length_le]

/-! ## Submission and start (R92, R93, R95) -/

/-- A frame submitted joins the transmit buffer and is counted (R92). -/
theorem State.txSubmit_joins (s : State) (p : Nat) (f : TxFrame) :
    ((s.txSubmit p f).port p).tx = (s.port p).tx ++ [f] ∧ Counted s (s.txSubmit p f) (pcnt R.NET_TX_SUBMITTED p) 1 := by
  have hqueued := HeldAs.txQueue p s f
  refine ⟨?_, ?_⟩
  · rw [State.txSubmit, State.port_pbump, hqueued.tx]
  · exact counted_of_eq (counted_bump (s.txQueue p f) _) (hqueued.cnt_pcnt (by decide)) rfl

/-- A frame discarded leaves the buffer, and is counted but for a pause frame (R95, R107). -/
theorem State.txDrop_leaves (s : State) (p : Nat) (f : TxFrame) (rest : List TxFrame) {r : Nat} (hr : r ≠ R.NET_TX_PAUSED_NS) :
    let t := s.txDrop p f rest r
    (t.port p).tx = rest ∧ (t.port p).cur = (s.port p).cur ∧ t.out = s.out ∧
      Counted s t (pcnt r p) (if f.tag.isPause then 0 else 1) := by
  intro t
  let u := s.setPort p { s.port p with tx := rest }
  let w := if f.tag.isPause then u else u.pbump p r
  have hport : w.port p = { s.port p with tx := rest } := by
    refine both_arms (fun v : State => v.port p = _) ?_ ?_ <;> simp [u]
  have hout : w.out = s.out := by
    refine both_arms (fun v : State => v.out = _) ?_ ?_ <;> simp [u]
  have hcount : Counted s w (pcnt r p) (if f.tag.isPause then 0 else 1) := by
    dsimp only [w]
    split
    · exact counted_zero rfl
    · exact counted_of_eq (counted_bump u _) rfl rfl
  have hheld : HeldAs p (w.port p) w t := (HeldAs.refl p w).armHold
  refine ⟨?_, ?_, hheld.out.trans hout, counted_of_eq hcount rfl (hheld.cnt_pcnt hr)⟩
  · rw [hheld.tx, hport]
  · rw [hheld.cur, hport]

section

variable {s : State} {p : Nat} {f : TxFrame} {rest : List TxFrame} (hhead : headFrame (s.port p).tx = some (f, rest))
  (hcur : (s.port p).cur = none) (hrun : s.pflag p F.NET_CTRL.RUN = true) (hstop : s.pflag p F.NET_STATUS.STOPPED = false)
  (hloop : s.looped p = false)

include hhead hcur hrun hstop hloop

/-- Without link or transmitter the head frame is discarded (R95). -/
theorem State.txStart_discards (h : s.pflag p F.NET_STATUS.LINK = false ∨ s.pflag p F.NET_CTRL.TX_EN = false) :
    s.txStart p = (s.settleHold p).txDrop p f rest R.NET_TX_LINK_DOWN := by
  have hs := HeldAs.settleHold p s
  unfold State.txStart
  dsimp only
  rw [hs.tx, hhead]
  dsimp only
  rw [if_neg (by simp [hs.cur, hs.pflag, State.portRuns, hcur, hrun, hstop]), if_pos]
  rcases h with h | h <;> simp [hs.looped, hs.pflag, hloop, h]

/-- With both, and no pause, a frame that MACsec need not secure starts as it stands (R93, R99). -/
theorem State.txStart_sends {o : Output} (hlink : s.pflag p F.NET_STATUS.LINK = true) (hen : s.pflag p F.NET_CTRL.TX_EN = true)
    (hpause : (s.port p).pauseUntil ≤ s.now)
    (ho : f.tag = .plain ∧ s.pflag p F.NET_CTRL.MACSEC_EN = false ∧ o = .frame p (withFcs (padded f.bytes)) ∨
      ∃ q, f.tag = .pause q ∧ o = .pause p q) :
    let t := s.txStart p
    (t.port p).tx = rest ∧ (t.port p).cur = some { f with bytes := padded f.bytes } ∧ t.out = o :: s.out := by
  intro t
  have hs := HeldAs.settleHold p s
  suffices hsent : ∃ stamp, t = ((s.settleHold p).setPort p { (s.settleHold p).port p with
      tx := rest, cur := some { f with bytes := padded f.bytes }, curStamp := stamp }).emit o by
    obtain ⟨stamp, hsent⟩ := hsent
    rw [hsent]
    exact ⟨by simp, by simp, congrArg (o :: ·) hs.out⟩
  obtain ⟨cls, bytes, tag⟩ := f
  dsimp only [t]
  unfold State.txStart
  dsimp only
  rw [hs.tx, hhead]
  dsimp only
  rw [if_neg (by simp [hs.cur, hs.pflag, State.portRuns, hcur, hrun, hstop]), if_neg (by simp [hs.pflag, hlink, hen]),
    if_neg (by rw [hs.pauseUntil, hs.now]; exact Nat.not_lt.mpr hpause)]
  have hmedium (y : NetPort) : ¬ ((s.settleHold p).setPort p y).looped p = true := Bool.eq_false_iff.mp ((hs.looped p).trans hloop)
  rcases ho with ⟨rfl, hsec, rfl⟩ | ⟨q, rfl, rfl⟩
  · rw [if_neg (by simp [State.secures, hs.pflag, hsec])]
    exact ⟨_, if_neg (hmedium _)⟩
  · rw [if_neg (by simp [TxTag.isPause])]
    exact ⟨_, if_neg (hmedium _)⟩

end

/-! ## The end of a frame (R94) -/

/-- A stamp that goes back to its submitter moves no port and no counter. -/
theorem State.txStamped_keeps (s : State) (p : Nat) (tag : TxTag) (stamp : Nat) :
    (s.txStamped p tag stamp).net = s.net ∧ ∀ k, (s.txStamped p tag stamp).cnt k = s.cnt k := by
  cases tag <;> exact ⟨rfl, fun _ => rfl⟩

/-- At its end a frame is counted as sent and its stamp goes back; a looped one is received besides (R74, R94). -/
theorem txDone_ends {s : State} {p : Port} {dt : Nat} {f : TxFrame} (hcur : (s.port p.val).cur = some f) :
    ∃ t, exec (.txDone p dt) s = .next t ∧
      Receives p.val ((((s.elapse dt).setPort p.val { s.port p.val with cur := none }).pbump p.val
        (if f.tag.isPause then R.NET_TX_PAUSE_SENT else R.NET_TX_SENT)).txStamped p.val f.tag (s.port p.val).curStamp) t := by
  have hcur' : ((s.elapse dt).port p.val).cur = some f := hcur
  show ∃ t, execTxDone p dt s = _ ∧ _
  unfold execTxDone
  dsimp only
  rw [hcur']
  refine ⟨_, rfl, ?_⟩
  exact (Receives.ite ((Receives.refl _ _).rxStored _ _ _) (Receives.refl _ _)).armHold

/-! ## A flush (R95) -/

/-- The transmit buffer is emptied, and the frames of submitters in it are counted (R95). -/
theorem State.txFlush_empties (s : State) (p : Nat) : ((s.txFlush p).port p).tx = [] ∧
    Counted s (s.txFlush p) (pcnt R.NET_TX_FLUSHED p) (submitted (s.port p).tx) :=
  ⟨by simp [State.txFlush], counted_bumpBy (s.setPort p { s.port p with tx := [], holdFrom := none }) _ _⟩

@[simp] theorem State.cnt_setReg (s : State) (off : Nat) (v : Word) (k : Nat) : (s.setReg off v).cnt k = s.cnt k := by simp [State.cnt]

/-- NET_CTRL in the map. -/
def netCtrlReg : RegD := ⟨R.NET_CTRL, 1, 0x0, 1, 0x0, .plain, [⟨12, 12, .wo, .any⟩, ⟨11, 11, .rw, .any⟩, ⟨10, 10, .rw, .any⟩,
  ⟨9, 9, .rw, .any⟩, ⟨8, 8, .rw, .any⟩, ⟨7, 7, .rw, .any⟩, ⟨6, 5, .rw, .outside 3 3⟩, ⟨4, 4, .rw, .any⟩, ⟨3, 3, .rw, .any⟩,
  ⟨2, 2, .rw, .any⟩, ⟨0, 0, .rw, .any⟩]⟩

/-- A port's control register: its place in the map. -/
theorem findReg_netCtrl : ∀ p : Port, findReg (R.NET_CTRL + netWin p.val) = some netCtrlReg := by decide

/-- Fields that each hold what is written to them stay. -/
theorem fieldsWrite_held {g : Gate} {v old : Nat} {fs : List FieldD} (h : ∀ f ∈ fs, fieldWrite g f old v = (old, false)) :
    fieldsWrite g v fs old = (old, false) := by
  induction fs with
  | nil => rfl
  | cons f fs ih =>
    have hrest := ih fun f' hf' => h f' (List.mem_cons_of_mem f hf')
    simp [fieldsWrite, h f (List.mem_cons_self ..), hrest]

theorem bitsOf_congr {v w hi : Nat} (h : ∀ i ≤ hi, v.testBit i = w.testBit i) (lo : Nat) : bitsOf v hi lo = bitsOf w hi lo := by
  refine Nat.eq_of_testBit_eq fun i => ?_
  rw [testBit_bitsOf, testBit_bitsOf]
  by_cases hi' : i < hi + 1 - lo
  · rw [h (lo + i) (by omega)]
  · rw [decide_eq_false hi', Bool.false_and, Bool.false_and]

/-- NET_CTRL written as it stands, but for a one in TX_FLUSH. -/
def flushWord (old : Nat) : Nat := old % 2 ^ 12 + 2 ^ 12

theorem bitOf_flushWord_flush (old : Nat) : bitOf (flushWord old) 12 = true := by
  have hlow : (old % 2 ^ 12).testBit 12 = false := Nat.testBit_lt_two_pow (Nat.mod_lt _ (by decide))
  rw [bitOf, flushWord, Nat.add_comm, Nat.testBit_two_pow_add_eq, hlow]
  rfl

theorem testBit_flushWord (old : Nat) {i : Nat} (h : i < 12) : (flushWord old).testBit i = old.testBit i := by
  rw [flushWord, Nat.add_comm, Nat.testBit_two_pow_add_gt h, Nat.testBit_mod_two_pow, decide_eq_true h, Bool.true_and]

/-- Every field of NET_CTRL but TX_FLUSH holds what the word carries, so the gate holds nothing back. -/
theorem fieldsWrite_flushWord (g : Gate) (old : Nat) : fieldsWrite g (flushWord old) netCtrlReg.fields old = (old, false) := by
  have hfields : ∀ f ∈ netCtrlReg.fields, f.acc = .wo ∨ f.acc = .rw ∧ f.hi < 12 := by decide
  refine fieldsWrite_held fun f hf => ?_
  rcases hfields f hf with hwo | ⟨hrw, hhi⟩
  · simp [fieldWrite, hwo]
  · exact fieldWrite_same (.inl hrw) (bitsOf_congr (fun i hi => testBit_flushWord old (by omega)) _)

theorem reservedHit_flushWord (nominal60 : Bool) {old : Nat} (h : old / 32 % 4 ≠ 3) :
    reservedHit nominal60 netCtrlReg.fields (flushWord old) = false := by
  have hfield : bitsOf (flushWord old) 6 5 = old / 32 % 4 :=
    (bitsOf_congr (fun i hi => testBit_flushWord old (by omega)) 5).trans (congrArg (· % 4) (Nat.shiftRight_eq_div_pow old 5))
  have hlegal : 3 ≤ bitsOf (flushWord old) 6 5 → 3 < bitsOf (flushWord old) 6 5 := by omega
  simpa [reservedHit, netCtrlReg, Access.writes, Legal.ok] using hlegal

/-- A register stored as it reads. -/
theorem State.reg_setReg_self (s : State) (off k : Nat) : (s.setReg off (s.reg off)).reg k = s.reg k := by
  rw [State.reg_setReg]
  split_ifs with h
  · rw [h]
  · rfl

/-- A write of NET_CTRL that moves no field leaves the register, and no run control moves (R20). -/
theorem State.ctlWrite_flushWord {s : State} {p : Port} (q : Req) (g : Gate) (hrun : s.pflag p.val F.NET_CTRL.RUN = false)
    (hfec : (s.reg (R.NET_CTRL + netWin p.val)).toNat / 32 % 4 ≠ 3) : let off := R.NET_CTRL + netWin p.val
    s.ctlWrite q false g netCtrlReg off (flushWord (s.reg off).toNat) = s.setReg off (s.reg off) := by
  intro off
  have hplain : s.plainWrite q g netCtrlReg off (flushWord (s.reg off).toNat) = s.setReg off (s.reg off) := by
    refine State.plainWrite_taken s q g netCtrlReg off _ _ rfl (reservedHit_flushWord _ hfec) ?_
    rw [fieldsWrite_flushWord]
    exact ⟨rfl, by simp [w32]⟩
  have hctl : ∀ p : Port, (blkRunCtl (.port p)).run = F.NET_CTRL.RUN.at (netWin p.val) ∧ R.NET_CTRL + netWin p.val ≠ R.FLT_CTRL ∧
      (R.NET_CTRL + netWin p.val) / 0x10000 ≠ 11 := by decide
  obtain ⟨hfield, hflt, halm⟩ := hctl p
  have hrun' : s.flag (blkRunCtl (.port p)).run = false := by
    rw [hfield]
    exact hrun
  have hrun'' : (s.setReg off (s.reg off)).flag (blkRunCtl (.port p)).run = false :=
    (State.flag_congr (s.reg_setReg_self off _)).trans hrun'
  unfold State.ctlWrite
  rw [show runCtl off = some (blkRunCtl (.port p)) from runCtl_blkCtrl (.port p)]
  dsimp only
  rw [if_neg (by rw [hfield]; simp [off, Fld.at, F.NET_CTRL.RUN, R.NET_CTRL]), if_neg (by rw [hrun']; simp), if_neg hflt, hplain]
  unfold State.runMoved
  rw [hrun'']
  exact if_neg halm

theorem bitOf_flushWord_promisc (s : State) (p : Nat) :
    bitOf (flushWord (s.reg (R.NET_CTRL + netWin p)).toNat) 10 = s.pflag p F.NET_CTRL.PROMISC := by
  have hbit : s.fld (F.NET_CTRL.PROMISC.at (netWin p)) = _ := bitsOf_one (s.reg (R.NET_CTRL + netWin p)).toNat 10
  rw [bitOf, testBit_flushWord _ (by decide), State.pflag, State.flag, hbit]
  cases (s.reg (R.NET_CTRL + netWin p)).toNat.testBit 10 <;> rfl

/-- A flush of a stopped port reaches its transmit buffer (R95). -/
theorem State.netWrite_flush {s : State} {p : Port} (q : Req) (g : Gate) (hstop : s.pflag p.val F.NET_STATUS.STOPPED = true)
    (hprom : s.pflag p.val F.NET_CTRL.PROMISC = true → s.sys.mode = .test)
    (hfec : (s.reg (R.NET_CTRL + netWin p.val)).toNat / 32 % 4 ≠ 3) (hrun : s.pflag p.val F.NET_CTRL.RUN = false) :
    let off := R.NET_CTRL + netWin p.val
    s.netWrite q false g netCtrlReg off (flushWord (s.reg off).toNat) = ((s.setReg off (s.reg off)).txFlush p.val).showPhy p.val := by
  intro off
  have hwin : ∀ p : Port, windowPort (R.NET_CTRL + netWin p.val) = some p.val ∧ netNorm (R.NET_CTRL + netWin p.val) = R.NET_CTRL := by
    decide
  obtain ⟨hwindow, hnorm⟩ := hwin p
  have hkept : ((s.setReg off (s.reg off)).refusals != s.refusals) = false := by simp [State.refusals]
  unfold State.netWrite
  rw [hwindow, hnorm]
  dsimp only
  rw [if_neg (by simp), if_neg (by rw [bitOf_flushWord_promisc]; simpa using hprom), if_neg (by rw [hstop]; simp),
    State.ctlWrite_flushWord q g hrun hfec, if_neg (by rw [hkept]; decide), if_pos (bitOf_flushWord_flush _)]

/-- A write of NET without a reserved value is its block's. -/
theorem State.blockWrite_net {s : State} {off v : Nat} {d : RegD} (h : off / 0x10000 = 4)
    (hr : reservedHit s.sys.nominal60 d.fields v = false) (q : Req) (jn : Bool) :
    s.blockWrite q jn d off v = s.netWrite q jn (s.gateOf q jn off) d off v := by
  simp [State.blockWrite, hr, h]

theorem State.busWrite_flush {s : State} {p : Port} {q : Req} (h : WriteOpen s q (R.NET_CTRL + netWin p.val))
    (hstop : s.pflag p.val F.NET_STATUS.STOPPED = true) (hprom : s.pflag p.val F.NET_CTRL.PROMISC = true → s.sys.mode = .test)
    (hfec : (s.reg (R.NET_CTRL + netWin p.val)).toNat / 32 % 4 ≠ 3) (hrun : s.pflag p.val F.NET_CTRL.RUN = false) :
    let off := R.NET_CTRL + netWin p.val
    s.busWrite q off (flushWord (s.reg off).toNat) = ((s.setReg off (s.reg off)).txFlush p.val).showPhy p.val := by
  intro off
  have hplace : ∀ p : Port, isDpReg (R.NET_CTRL + netWin p.val) = false ∧ (R.NET_CTRL + netWin p.val) / 0x10000 = 4 ∧
      R.NET_CTRL + netWin p.val < ctrlSize := by decide
  obtain ⟨hdp, hblock, hctrl⟩ := hplace p
  rw [State.busWrite_open s q off _ netCtrlReg h (findReg_netCtrl p) hdp (by rw [hblock]; rfl) hctrl,
    State.blockWrite_net hblock (reservedHit_flushWord _ hfec), State.netWrite_flush q _ hstop hprom hfec hrun]

/-- Settles O33: submission, start, end and flush of frames. -/
theorem transmission : Obligations.Transmission := by
  unfold Obligations.Transmission
  intro s p dt x
  refine ⟨fun cls bytes => ⟨_, rfl, s.txSubmit_joins p.val _⟩, fun a b f htx hcls ha hb hcur hrun hstop hloop => ?_, fun f hcur => ?_,
    fun q hopen hstop hprom hfec hrun => ?_⟩
  · have hhead : headFrame ((s.elapse dt).port p.val).tx = some (f, a ++ b) :=
      (congrArg headFrame htx).trans (headFrame_of_first hcls ha hb)
    have hsettled := HeldAs.settleHold p.val (s.elapse dt)
    refine ⟨fun hdown => ?_, fun hlink hen hpause htag hsec => ?_, fun hlink hen hpause pq htag => ?_⟩
    · obtain ⟨hleft, hidle, hout, hcount⟩ := ((s.elapse dt).settleHold p.val).txDrop_leaves p.val f (a ++ b)
        (r := R.NET_TX_LINK_DOWN) (by decide)
      refine ⟨_, congrArg Host.Outcome.next (State.txStart_discards hhead hcur hrun hstop hloop hdown), hleft,
        hidle.trans (hsettled.cur.trans hcur), hout.trans hsettled.out, counted_of_eq hcount (hsettled.cnt_pcnt (by decide)) rfl⟩
    · obtain ⟨hleft, hstarted, hout⟩ := State.txStart_sends hhead hcur hrun hstop hloop hlink hen hpause (.inl ⟨htag, hsec, rfl⟩)
      exact ⟨_, rfl, hleft, by rw [hstarted, htag], hout⟩
    · obtain ⟨hleft, hstarted, hout⟩ := State.txStart_sends hhead hcur hrun hstop hloop hlink hen hpause (.inr ⟨pq, htag, rfl⟩)
      exact ⟨_, rfl, hleft, by rw [hstarted, htag], hout⟩
  · obtain ⟨t, hexec, hrest⟩ := txDone_ends (dt := dt) hcur
    let u := ((s.elapse dt).setPort p.val { s.port p.val with cur := none }).pbump p.val
      (if f.tag.isPause then R.NET_TX_PAUSE_SENT else R.NET_TX_SENT)
    obtain ⟨hnet, hcnt⟩ := u.txStamped_keeps p.val f.tag x.curStamp
    refine ⟨t, hexec, ?_, ?_, fun htag => ?_⟩
    · rw [hrest.cur, State.port_congr hnet]
      simp [u]
    · refine counted_of_eq (counted_bump ((s.elapse dt).setPort p.val _) _) rfl ((hrest.sent _ ?_).trans (hcnt _))
      cases f.tag.isPause <;> simp
    · rw [hrest.xng, htag]
      rfl
  · let u := s.setReg (R.NET_CTRL + netWin p.val) (s.reg (R.NET_CTRL + netWin p.val))
    obtain ⟨hempty, hcount⟩ := u.txFlush_empties p.val
    have hport : u.port p.val = x := State.port_congr (State.setReg_net s _ _) _
    rw [hport] at hcount
    exact ⟨_, congrArg Host.Outcome.next (State.busWrite_flush hopen hstop hprom hfec hrun),
      (congrArg NetPort.tx (State.showPhy_port _ _ _)).trans hempty,
      counted_of_eq hcount (State.cnt_setReg _ _ _ _) (State.showPhy_cnt _ _ _)⟩

end Sys2Proof.Machine
end

section
/-!
Table commands (O36, R148): the write of a block's TBL_CMD is its table operation, a read fills the data registers, and a write of a
key's entry takes one field.
-/

namespace Sys2Proof.Machine

open Sys2Proof.Safety

/-! ## The registers of a block's tables -/

/-- TBL_CMD of a block with tables, in the map; GLD's alone takes no OP of writing. -/
def tblCmdReg (block : Nat) : RegD :=
  ⟨tblAddrOff block + 4, 1, 0x0, 1, 0x0, .plain, [⟨1, 0, .wo, .range 1 (if block = 7 then 1 else 2)⟩]⟩

theorem tblCmd_facts : ∀ b : BitVec 5, tblAddrOff b.toNat ≠ 0 →
    tblAddrOff b.toNat + 4 < ctrlSize ∧ isDpReg (tblAddrOff b.toNat + 4) = false ∧ (tblAddrOff b.toNat + 4) / 0x10000 = b.toNat ∧
      findReg (tblAddrOff b.toNat + 4) = some (tblCmdReg b.toNat) := by decide

/-- Blocks with tables, by number. -/
theorem block_of_tables : ∀ b : BitVec 5, tblAddrOff b.toNat ≠ 0 →
    b = 2 ∨ b = 5 ∨ b = 7 ∨ b = 8 ∨ b = 9 ∨ b = 10 ∨ b = 11 ∨ b = 12 ∨ b = 13 ∨ b = 14 := by decide

/-- TBL_STATUS, the status of the ingest block's interrupts and a block's data registers are different registers. -/
theorem tblStatus_apart : ∀ b : BitVec 5, tblAddrOff b.toNat ≠ 0 → ∀ w < 32,
    tblDataOff b.toNat w ≠ tblAddrOff b.toNat + 8 ∧ tblDataOff b.toNat w ≠ F.ING_INT_STATUS.TBL_DONE.off ∧
      tblAddrOff b.toNat + 8 ≠ F.ING_INT_STATUS.TBL_DONE.off := by decide

/-! ## From the write of TBL_CMD to the operation -/

/-- A write for which the journal has no entry is one step of its register. -/
theorem State.busWrite_unjournalled {s : State} {q : Req} {off v : Nat} (h : Reached s q off) (hc : off < ctrlSize)
    (hp : isDpReg off = false) (hj : isJournalBlock (off / 0x10000) = false ∨ s.journalValue off v = none) :
    s.busWrite q off v = s.regStep q false off v := by
  rw [State.busWrite_reached s q off v h hc]
  rcases hj with hj | hj
  · exact State.devWrite_regStep s q off v hp hj
  · simp [State.devWrite, hp, State.regWrite, hj]

/-- The operations a command asks for here: a read of any table, or a write of one of Roundabout's. -/
def TblOp (b : BitVec 5) (op : Nat) : Prop := op = 1 ∨ b = 2 ∧ op = 2

theorem TblOp.unjournalled {b : BitVec 5} {op : Nat} (h : TblOp b op) (hb : tblAddrOff b.toNat ≠ 0) (s : State) :
    isJournalBlock ((tblAddrOff b.toNat + 4) / 0x10000) = false ∨ s.journalValue (tblAddrOff b.toNat + 4) op = none := by
  obtain ⟨-, -, hblock, -⟩ := tblCmd_facts b hb
  rcases h with rfl | ⟨rfl, rfl⟩
  · right
    rw [State.journalValue, hblock, if_pos rfl, if_neg (by decide)]
  · left
    decide

theorem TblOp.legal {b : BitVec 5} {op : Nat} (h : TblOp b op) (nominal60 : Bool) :
    reservedHit nominal60 (tblCmdReg b.toNat).fields op = false := by
  rcases h with rfl | ⟨rfl, rfl⟩
  · simp only [tblCmdReg]
    split <;> rfl
  · rfl

/-- The write of TBL_CMD in its block is the table operation, under some gate. -/
theorem State.blockWrite_tblCmd (s : State) (q : Req) {b : BitVec 5} {op : Nat} (h : TblOp b op) (hb : tblAddrOff b.toNat ≠ 0) :
    ∃ bar, s.blockWrite q false (tblCmdReg b.toNat) (tblAddrOff b.toNat + 4) op = s.tblCmd q bar b.toNat op := by
  unfold State.blockWrite
  rw [if_neg (by simp [h.legal])]
  rcases h with rfl | ⟨rfl, rfl⟩
  · rcases block_of_tables b hb with rfl | rfl | rfl | rfl | rfl | rfl | rfl | rfl | rfl | rfl <;> exact ⟨_, rfl⟩
  · exact ⟨_, rfl⟩

/-- A write of TBL_CMD that reaches it is the table operation. -/
theorem State.busWrite_tblCmd {s : State} {q : Req} {b : BitVec 5} {op : Nat} (h : TblOp b op) (hb : tblAddrOff b.toNat ≠ 0)
    (hopen : WriteOpen s q (tblAddrOff b.toNat + 4)) :
    ∃ bar, s.busWrite q (tblAddrOff b.toNat + 4) op = s.tblCmd q bar b.toNat op := by
  obtain ⟨hc, hp, -, hfind⟩ := tblCmd_facts b hb
  rw [State.busWrite_unjournalled hopen.1 hc hp (h.unjournalled hb s), State.regStep_open hopen (Journalled.refl s) hfind]
  exact s.blockWrite_tblCmd q h hb

theorem exec_tableRead {b : BitVec 5} (hb : tblAddrOff b.toNat ≠ 0) (s : State) (q : Req) :
    exec (.tableRead q b) s = .next (s.busWrite q (tblAddrOff b.toNat + 4) 1) := if_pos (by simpa [hasTables] using hb)

theorem exec_tableWrite {b : BitVec 5} (hb : tblAddrOff b.toNat ≠ 0) (s : State) (q : Req) :
    exec (.tableWrite q b) s = .next (s.busWrite q (tblAddrOff b.toNat + 4) 2) := if_pos (by simpa [hasTables] using hb)

/-! ## The selected entry -/

/-- The table that TBL_ADDR selects, by block number x 16 + TABLE. -/
def State.selTable (s : State) (block : Nat) : Nat := block * 16 + (s.reg (tblAddrOff block)).toNat / 536870912

/-- The entry that TBL_ADDR selects. -/
def State.selEntry (s : State) (block : Nat) : Nat := (s.reg (tblAddrOff block)).toNat % 262144

/-- The top field of a word is a quotient. -/
theorem bitsOf_top (w : Word) {lo : Nat} (h : lo < 32) : bitsOf w.toNat 31 lo = w.toNat / 2 ^ lo := by
  rw [bitsOf, Nat.shiftRight_eq_div_pow]
  refine Nat.mod_eq_of_lt ((Nat.div_lt_iff_lt_mul (by positivity)).2 ?_)
  rw [← Nat.pow_add, show 31 + 1 - lo + lo = 32 by omega]
  exact w.isLt

/-- The operation on an entry of a listed table. -/
theorem State.tblCmd_listed {s : State} {block : Nat} {d : TableD} (h : findTable (s.selTable block) = some d) (q : Req)
    (bar : Option Nat) (op : Nat) : s.tblCmd q bar block op =
      if d.count ≤ s.selEntry block then s.tblResult block 4
      else if op = 1 then (s.putData block 0 (s.tblReadWords (s.selTable block) (s.selEntry block))).tblResult block 1
      else s.tblWrite q bar d (s.selEntry block) (tblAddrOff block + 4) (s.tblData block) := by
  have htable : block * 16 + bitsOf (s.reg (tblAddrOff block)).toNat 31 29 = s.selTable block :=
    congrArg (block * 16 + ·) (bitsOf_top _ (by decide))
  have hentry : bitsOf (s.reg (tblAddrOff block)).toNat 17 0 = s.selEntry block := rfl
  unfold State.tblCmd
  dsimp only
  rw [htable, hentry, h]

/-- Past the end of a listed table the command answers 4. -/
theorem State.tblCmd_past {s : State} {block : Nat} {d : TableD} (h : findTable (s.selTable block) = some d)
    (hout : d.count ≤ s.selEntry block) (q : Req) (bar : Option Nat) (op : Nat) : s.tblCmd q bar block op = s.tblResult block 4 :=
  (State.tblCmd_listed h q bar op).trans (if_pos hout)

/-- A read of an entry of a listed table copies it. -/
theorem State.tblCmd_read {s : State} {block : Nat} {d : TableD} (h : findTable (s.selTable block) = some d)
    (hin : s.selEntry block < d.count) (q : Req) (bar : Option Nat) : s.tblCmd q bar block 1 =
      (s.putData block 0 (s.tblReadWords (s.selTable block) (s.selEntry block))).tblResult block 1 :=
  (State.tblCmd_listed h q bar 1).trans (if_neg (Nat.not_le_of_lt hin))

/-- A write of an entry of a listed table takes the data registers. -/
theorem State.tblCmd_write {s : State} {block : Nat} {d : TableD} (h : findTable (s.selTable block) = some d)
    (hin : s.selEntry block < d.count) (q : Req) (bar : Option Nat) : s.tblCmd q bar block 2 =
      s.tblWrite q bar d (s.selEntry block) (tblAddrOff block + 4) (s.tblData block) :=
  (State.tblCmd_listed h q bar 2).trans (if_neg (Nat.not_le_of_lt hin))

/-! ## RESULT -/

@[simp] theorem State.tblResult_tbl (s : State) (block r : Nat) : (s.tblResult block r).tbl = s.tbl :=
  both_arms (fun t : State => t.tbl = s.tbl) (by simp) (by simp)

theorem State.tblResult_reads (s : State) {b : BitVec 5} (hb : tblAddrOff b.toNat ≠ 0) (r : Nat) :
    (s.tblResult b.toNat r).fld ⟨tblAddrOff b.toNat + 8, 2, 0⟩ = r % 8 := by
  have hset := s.fld_setFld_same ⟨tblAddrOff b.toNat + 8, 2, 0⟩ r (show 2 < 32 by decide)
  obtain ⟨-, -, hapart⟩ := tblStatus_apart b hb 0 (by decide)
  exact both_arms (fun t : State => t.fld ⟨tblAddrOff b.toNat + 8, 2, 0⟩ = r % 8)
    ((State.fld_setFld_ne _ _ _ _ (by decide) (.inl hapart)).trans hset) hset

/-- RESULT leaves the data registers alone. -/
theorem State.tblResult_data (s : State) {b : BitVec 5} (hb : tblAddrOff b.toNat ≠ 0) (r : Nat) {w : Nat} (hw : w < 32) :
    (s.tblResult b.toNat r).reg (tblDataOff b.toNat w) = s.reg (tblDataOff b.toNat w) := by
  obtain ⟨hstatus, hdone, -⟩ := tblStatus_apart b hb w hw
  have hset := s.reg_setFld_ne ⟨tblAddrOff b.toNat + 8, 2, 0⟩ r _ hstatus
  exact both_arms (fun t : State => t.reg (tblDataOff b.toNat w) = s.reg (tblDataOff b.toNat w))
    ((State.reg_setFld_ne _ _ _ _ hdone).trans hset) hset

/-! ## Reads -/

@[simp] theorem State.putData_tbl (s : State) (block i : Nat) (l : List Word) : (s.putData block i l).tbl = s.tbl := by
  induction l generalizing s i with
  | nil => rfl
  | cons v l ih => simp [State.putData, ih]

theorem tblDataOff_inj (block i j : Nat) : tblDataOff block i = tblDataOff block j ↔ i = j := by
  unfold tblDataOff
  omega

/-- Words put from data register `i` on leave those before it. -/
theorem State.putData_before (s : State) (block : Nat) {i j : Nat} (l : List Word) (h : j < i) :
    (s.putData block i l).reg (tblDataOff block j) = s.reg (tblDataOff block j) := by
  induction l generalizing s i with
  | nil => rfl
  | cons v l ih =>
    rw [State.putData, ih _ (by omega), State.reg_setReg, if_neg (by rw [tblDataOff_inj]; omega)]

/-- Each word put stands in its data register. -/
theorem State.putData_reads (s : State) (block i : Nat) {l : List Word} {w : Nat} {x : Word} (h : l[w]? = some x) :
    (s.putData block i l).reg (tblDataOff block (i + w)) = x := by
  induction l generalizing s i w with
  | nil => simp at h
  | cons v l ih =>
    rw [State.putData]
    cases w with
    | zero =>
      rw [State.putData_before _ _ _ (show i + 0 < i + 1 by omega), Nat.add_zero, State.reg_setReg_same]
      simpa using h
    | succ w =>
      rw [show i + (w + 1) = i + 1 + w by omega]
      exact ih _ _ (by simpa using h)

/-- No entry has more words than there are data registers. -/
theorem words_le_of_findTable {t : Nat} {d : TableD} (h : findTable t = some d) : d.words ≤ 32 := by
  have hall : ∀ d ∈ tables, d.words ≤ 32 := by decide
  exact hall d (List.mem_of_find?_eq_some h)

theorem State.tblReadWords_entry (s : State) {t w : Nat} {d : TableD} (h : findTable t = some d) (idx : Nat) (hw : w < d.words) :
    (s.tblReadWords t idx)[w]? = some (w32 (s.entryWord t idx w)) := by
  have hlen : w < 32 := hw.trans_le (words_le_of_findTable h)
  unfold State.tblReadWords
  rw [h]
  simp [hlen, hw]

/-! ## Writes of a key's entry -/

/-- Words of entries have keys of their own. -/
theorem tblKey_inj {t i w t' i' w' : Nat} (hi : i < 524288) (hw : w < 32) (hi' : i' < 524288) (hw' : w' < 32)
    (h : tblKey t i w = tblKey t' i' w') : t = t' ∧ i = i' ∧ w = w' := by
  unfold tblKey at h
  omega

/-- A field of an entry set leaves the words of every other entry. -/
theorem State.tword_setTf_ne (s : State) (f : TF) {i v t i' w : Nat} (hf : f.word < 32) (hi : i < 524288) (hi' : i' < 524288)
    (hw : w < 32) (h : t ≠ f.table ∨ i' ≠ i) : (s.setTf f i v).tword t i' w = s.tword t i' w := by
  rw [State.setTf, State.tword_setTword, if_neg]
  intro hkey
  obtain ⟨ht, hi, -⟩ := tblKey_inj hi' hw hi hf hkey
  tauto

theorem State.tword_congr {s t : State} (h : t.tbl = s.tbl) (table i w : Nat) : t.tword table i w = s.tword table i w := by
  rw [State.tword, State.tword, h]

theorem findTable_key : findTable T.RBT.Key = some tableRBTKey := by decide

/-- No field of a key's entry has a reserved value. -/
theorem tblReserved_key (data : List Word) : tblReserved tableRBTKey data = false := rfl

/-- Of a key's one word only AFF_WAIT is written; it is LIVE, so no gate holds it back. -/
theorem State.tblNewWords_key (s : State) (g : Gate) (idx : Nat) (data : List Word) : s.tblNewWords g tableRBTKey idx data =
    ([putBits (s.tword T.RBT.Key idx 0).toNat 31 24 (bitsOf (data.getD 0 0).toNat 31 24)], false) := rfl

theorem State.presetOf_key (s : State) (idx : Nat) (data : List Word) : s.presetOf tableRBTKey.id idx data = none := by
  simp [State.presetOf, tableRBTKey]

/-- A write of a key's entry sets AFF_WAIT and is never refused: the entry has no run control and no check on its content (R461). -/
theorem State.tblWrite_key (s : State) (q : Req) (bar : Option Nat) (idx off : Nat) (data : List Word) :
    s.tblWrite q bar tableRBTKey idx off data =
      (s.setTf TF.RBT.Key.AFF_WAIT idx (bitsOf (data.getD 0 0).toNat 31 24)).tblResult 2 1 := by
  have hbefore : s.beforeWrite tableRBTKey.id idx (data.getD 0 0).toNat bar = s := rfl
  have hcontent (t : State) (rose : Bool) : t.contentOk tableRBTKey.id idx rose = true := rfl
  have hput : s.putWords tableRBTKey.id idx 0
      [putBits (s.tword T.RBT.Key idx 0).toNat 31 24 (bitsOf (data.getD 0 0).toNat 31 24)] =
        s.setTf TF.RBT.Key.AFF_WAIT idx (bitsOf (data.getD 0 0).toNat 31 24) := rfl
  have hwritten (t : State) (rose fell : Bool) : t.entryWritten s tableRBTKey.id idx rose fell false = t := rfl
  simp only [State.tblWrite, tblReserved_key, hbefore, State.presetOf_key, State.tblNewWords_key, hcontent, hwritten,
    hput, Option.isSome_none, Bool.false_and, Bool.not_true, Bool.or_false, Bool.false_eq_true, if_false]
  rfl

/-- The first data register holds AFF_WAIT in its top byte. -/
theorem State.tblData_affWait (s : State) (block : Nat) :
    bitsOf ((s.tblData block).getD 0 0).toNat 31 24 = (s.reg (tblDataOff block 0)).toNat / 16777216 :=
  bitsOf_top (s.reg (tblDataOff block 0)) (by decide)

/-! ## The obligation -/

/-- Settles O36: the command is the table operation on the entry that TBL_ADDR selects. -/
theorem tableCommands : Obligations.TableCommands := by
  unfold Obligations.TableCommands
  intro s q b a id idx
  refine ⟨fun d ha hopen hfind => ?_, fun hb hopen _ hid hidx => ?_⟩
  · obtain ⟨bar, hbus⟩ := State.busWrite_tblCmd (.inl rfl) ha hopen
    have hexec {t : State} (h : s.tblCmd q bar b.toNat 1 = t) : exec (.tableRead q b) s = .next t :=
      (exec_tableRead ha s q).trans (congrArg Host.Outcome.next (hbus.trans h))
    refine ⟨fun hin => ?_, fun hout => ?_⟩
    · refine ⟨_, hexec (State.tblCmd_read hfind hin q bar), State.tblResult_reads _ ha 1, by simp, fun w hw => ?_⟩
      rw [State.tblResult_data _ ha 1 (hw.trans_le (words_le_of_findTable hfind))]
      have hread := s.putData_reads b.toNat 0 (s.tblReadWords_entry hfind idx hw)
      rw [Nat.zero_add] at hread
      exact hread
    · exact ⟨_, hexec (State.tblCmd_past hfind hout q bar 1), s.tblResult_reads ha 4, by simp⟩
  · subst hb
    have ha : tblAddrOff (2 : BitVec 5).toNat ≠ 0 := by decide
    obtain ⟨bar, hbus⟩ := State.busWrite_tblCmd (.inr ⟨rfl, rfl⟩) ha hopen
    have hfind : findTable (s.selTable 2) = some tableRBTKey := (congrArg findTable hid).trans findTable_key
    have hwrite := (State.tblCmd_write hfind hidx q bar).trans (s.tblWrite_key q bar idx _ _)
    rw [State.tblData_affWait] at hwrite
    refine ⟨_, (exec_tableWrite ha s q).trans (congrArg Host.Outcome.next (hbus.trans hwrite)), State.tblResult_reads _ ha 1, ?_,
      fun table i w hne hi hw => ?_⟩
    · have hbyte := (s.reg (tblDataOff 2 0)).isLt
      rw [State.tf, State.tword_congr (State.tblResult_tbl _ _ _)]
      exact (s.tf_setTf_same TF.RBT.Key.AFF_WAIT idx _ (by decide)).trans (Nat.mod_eq_of_lt (show _ < 256 by omega))
    · rw [State.tword_congr (State.tblResult_tbl _ _ _)]
      exact s.tword_setTf_ne _ (by decide) (by omega) hi hw hne

end Sys2Proof.Machine
end

section
/-!
SUPPORT. What the timebase's commands read after time has passed and a wake event was noted: the registers and counters they name, and the
timebase's own state but for Grid Time.
-/

namespace Sys2Proof.Machine

open Sys2Proof.Safety

theorem Steady.tim {s t : State} (h : Steady s t) : t.tim = s.tim := h.2.2.1
theorem Steady.now {s t : State} (h : Steady s t) : t.now = s.now := h.1

/-- Time moves Grid Time and its phase alone. -/
theorem State.elapse_tim (s : State) (n : Nat) :
    (s.elapse n).tim = { s.tim with grid := (s.elapse n).tim.grid, phase := (s.elapse n).tim.phase } := by
  unfold State.elapse
  dsimp only
  split <;> rfl

theorem State.elapse_timRuns (s : State) (n : Nat) : (s.elapse n).timRuns = s.timRuns := by
  rw [State.timRuns, State.elapse_tim]
  rfl

@[simp] theorem State.elapse_ptpPort (s : State) (n p : Nat) : (s.elapse n).ptpPort p = s.ptpPort p := by
  rw [State.ptpPort, State.elapse_tim]
  rfl

/-- The wake watcher's slots are none of the timebase's registers. -/
theorem State.wakeEvent_reg (s : State) (code : Nat) {off : Nat} (h : 0x20000 ≤ off) : (s.wakeEvent code).reg off = s.reg off := by
  refine State.wakeEvent_keeps (·.reg off) (fun t k v hk => State.reg_setFld_ne _ _ _ _ ?_) s code
  simp only [R.IC_WAKE_SLOT]
  omega

theorem State.wakeEvent_cnt (s : State) (code k : Nat) : (s.wakeEvent code).cnt k = s.cnt k :=
  State.wakeEvent_keeps (·.cnt k) (fun _ _ _ _ => State.cnt_setReg _ _ _ _) s code

/-- The end of the wait for time keeps the registers outside SYS and the Glade. -/
theorem State.timeReady_reg (s : State) {off : Nat} (h : 0x10000 ≤ off) (hrun : off ≠ R.GLD_CTRL) (hstopped : off ≠ R.GLD_STATUS) :
    s.timeReady.reg off = s.reg off := by
  have hsys {f : Fld} (hf : f.off < 0x10000) : off ≠ f.off := by omega
  have hglade (s : State) : s.startGlade.reg off = s.reg off := by
    refine both_arms (fun t : State => t.reg off = s.reg off) rfl ?_
    rw [State.reg_setFld_ne _ _ _ _ hstopped, State.reg_setFld_ne _ _ _ _ hrun]
    rfl
  have hboot (s : State) : s.bootAct.reg off = s.reg off := by
    unfold State.bootAct
    split
    · rfl
    next m _ =>
      rw [State.beginTrans_reg _ _ _ ⟨hsys (f := F.SYS_MODE.TRANSIT) (by decide), hsys (f := F.SYS_MODE_STATUS.TARGET) (by decide),
        hsys (f := F.SYS_INT_STATUS.REQ_DONE) (by decide)⟩, State.reg_setFld_ne _ _ _ _ (hsys (by decide))]
  exact (hboot _).trans (both_arms (fun t : State => t.reg off = s.reg off) (hglade s) rfl)

/-- The evaluation of TIM_TQ writes that register, and asks for a mark. -/
theorem State.tqEval_tim (s : State) : s.tqEval.tim = { s.tim with tqMark := s.tqEval.tim.tqMark } := by
  unfold State.tqEval
  dsimp only
  split <;> rfl

theorem State.tqEval_reg (s : State) {off : Nat} (h : off ≠ R.TIM_TQ) : s.tqEval.reg off = s.reg off :=
  both_arms (fun t : State => t.reg off = s.reg off) rfl ((State.reg_setReg _ _ _ _).trans (if_neg h))

theorem State.tqEval_cnt (s : State) (k : Nat) : s.tqEval.cnt k = s.cnt k :=
  both_arms (fun t : State => t.cnt k = s.cnt k) rfl (State.cnt_setReg _ _ _ _)

theorem State.tqEval_servo (s : State) : s.tqEval.servo = s.servo := State.fld_congr (s.tqEval_reg (by decide))

/-- The offset in force writes TIM_UTC_NOW, TIM_LEAP_AT and the interrupt of a leap warning. -/
theorem State.utcEval_reg (s : State) {off : Nat} (hnow : off ≠ R.TIM_UTC_NOW) (hleap : off ≠ R.TIM_LEAP_AT)
    (hint : off ≠ R.TIM_INT_STATUS) : s.utcEval.reg off = s.reg off := by
  have hset (s : State) {f : Fld} (hf : off ≠ f.off) (v : Nat) : (s.setFld f v).reg off = s.reg off := State.reg_setFld_ne _ _ _ _ hf
  have hat (s : State) (v : Word) : (s.setReg R.TIM_LEAP_AT v).reg off = s.reg off := (State.reg_setReg _ _ _ _).trans (if_neg hleap)
  unfold State.utcEval
  extract_lets u old t was at'
  have ht : t.reg off = s.reg off :=
    (hset _ (f := F.TIM_UTC_NOW.VALID) hnow _).trans ((hset _ (f := F.TIM_UTC_NOW.FROM) hnow _).trans
      ((hset _ (f := F.TIM_UTC_NOW.LEAP) hnow _).trans (hset _ (f := F.TIM_UTC_NOW.OFFSET) hnow _)))
  refine both_arms (fun w : State => w.reg off = s.reg off) (both_arms (fun w : State => w.reg off = s.reg off) ht ((hat _ _).trans ht)) ?_
  exact (hset _ (f := F.TIM_INT_STATUS.LEAP) hint _).trans ((hat _ _).trans ht)

theorem State.utcEval_cnt (s : State) (k : Nat) : s.utcEval.cnt k = s.cnt k := by
  unfold State.utcEval
  dsimp only
  split_ifs <;> simp [State.setFld, State.raise]

end Sys2Proof.Machine
end

section
/-!
PTP messages and their timeouts (O37).
-/

namespace Sys2Proof.Machine

open Sys2Proof.Safety

/-! ## Frames of the timebase (R157) -/

/-- A message the timebase sends is counted and joins its port's transmit buffer. -/
theorem State.ptpSend_joins (s : State) (p : Nat) (f : TxFrame) :
    let t := (s.bump R.TIM_PTP_TX).txSubmit p f
    t.tim = s.tim ∧ Counted s t R.TIM_PTP_TX 1 ∧ (∀ k, 0x60000 ≤ k → k ≠ R.TIM_PTP_TX → t.cnt k = s.cnt k) ∧
      (t.port p).tx = (s.port p).tx ++ [f] := by
  intro t
  let u := s.bump R.TIM_PTP_TX
  have hqueued := HeldAs.txQueue p u f
  have hcnt {k : Nat} (hk : 0x60000 ≤ k) : t.cnt k = u.cnt k := by
    have hne {r : Nat} (hr : r < 0x50000) : k ≠ pcnt r p := by
      have := netWin_le p
      simp only [pcnt]
      omega
    exact (State.cnt_bump_ne _ _ _ (hne (r := R.NET_TX_SUBMITTED) (by decide))).trans (hqueued.cnt k (hne (by decide)))
  refine ⟨?_, counted_of_eq (counted_bump s _) rfl (hcnt (by decide)), fun k hk hne => (hcnt hk).trans (s.cnt_bump_ne _ _ hne), ?_⟩
  · exact (State.pbump_tim _ _ _).trans ((congrArg State.tim hqueued.fields).trans (s.bump_tim _))
  · exact (u.txSubmit_joins p f).1.trans (congrArg (·.tx ++ [f]) (s.port_bump _ p))

/-! ## Messages (R157, R174) -/

theorem exec_ptpMessage {s : State} {i : PtpIn} {l : List PtpIn} (hrun : s.timRuns = true) (hq : s.tim.ptpQ = i :: l) :
    exec .ptpMessage s = .next (({ s with tim := { s.tim with ptpQ := l } } : State).ptpHandle i) := by
  show execPtpMessage s = _
  simp [execPtpMessage, hrun, hq]

/-- A message of another Ethernet type, or on a port without PTP, is of the wrong profile. -/
theorem State.ptpHandle_wrongProfile {s : State} {i : PtpIn} (h : etherType i.bytes ≠ 0x88F7 ∨ s.ptpOn i.port = false) :
    s.ptpHandle i = s.bump R.TIM_PTP_WRONG_PROFILE := by
  refine if_pos ?_
  rcases h with h | h <;> simp [h]

/-- A Pdelay_Req of the profile, whole, is used and answered. -/
theorem State.ptpHandle_pdelayReq {s : State} {i : PtpIn} (htype : etherType i.bytes = 0x88F7) (hon : s.ptpOn i.port = true) :
    let m := i.bytes.drop (etherOff i.bytes)
    54 ≤ m.length → beAt m 0 1 = 2 → beAt m 1 1 % 16 = 2 → beAt m 4 1 = s.fld F.TIM_PTP.DOMAIN → 54 ≤ beAt m 2 2 →
      beAt m 2 2 ≤ m.length → s.ptpHandle i = (s.bump R.TIM_PTP_USED).ptpPdelayReq i.port i.stamp m := by
  intro m hlen hkind hversion hdomain hleast hwhole
  unfold State.ptpHandle
  dsimp only
  rw [if_neg (by simp [htype, hon]), if_neg (show ¬ m.length < 34 by omega), if_neg (by simp [m, hkind, hversion, hdomain]),
    show beAt (i.bytes.drop (etherOff i.bytes)) 0 1 % 16 = 2 from congrArg (· % 16) hkind]
  refine if_neg ?_
  simp only [Bool.or_eq_true, decide_eq_true_eq]
  exact not_or.mpr ⟨not_or.mpr ⟨Nat.not_lt.mpr hlen, Nat.not_lt.mpr hleast⟩, Nat.not_lt.mpr hwhole⟩

theorem State.ptpPdelayReq_answers (s : State) (p stamp : Nat) (m : List Byte) :
    ∃ f, f.tag = .pdelayResp stamp ∧ s.ptpPdelayReq p stamp m = (s.bump R.TIM_PTP_TX).txSubmit p f := by
  refine ⟨_, ?_, rfl⟩
  rfl

/-! ## Timers (R157) -/

theorem exec_pdelayReqTimer {s : State} {p : Port} {dt : Nat} (hrun : s.timRuns = true) (hon : s.ptpOn p.val = true)
    (hdue : ∀ a, (s.ptpPort p.val).reqAt = some a → 1200000000 ≤ s.now + dt - a) :
    let x := s.ptpPort p.val
    let u := (s.elapse dt).setPtpPort p.val
      { x with reqSeq := (x.reqSeq + 1) % 65536, reqTx := none, resp := none, reqAt := some (s.now + dt) }
    ∃ f, f.tag = .pdelayReq ∧ exec (.pdelayReqTimer p dt) s = .next ((u.bump R.TIM_PTP_TX).txSubmit p.val f) := by
  intro x u
  have hdue : (match x.reqAt with | none => true | some t => decide (1200000000 ≤ (s.elapse dt).now - t)) = true := by
    split
    · rfl
    next a ha => exact decide_eq_true (hdue a ha)
  let r := (s.elapse dt).ptpFrame p.val 2 x.reqSeq 0 peerDelayMac 0 0x7F (List.replicate 20 0)
  refine ⟨{ cls := 2, bytes := r, tag := .pdelayReq }, rfl, ?_⟩
  show execPdelayReqTimer p dt s = _
  unfold execPdelayReqTimer
  dsimp only
  rw [State.elapse_ptpPort]
  refine if_pos ?_
  rw [State.elapse_timRuns, hrun, Bool.true_and]
  exact Bool.and_eq_true_iff.mpr ⟨hon, hdue⟩

/-- The choice of a source names a qualified transmitter of the table, if it names any, and leaves the table and the servo (R157). -/
theorem State.reselect_chooses (s : State) :
    (∀ b, s.reselect.tim.best = some b → ∃ f ∈ s.tim.foreign, f.port = b.1 ∧ f.id = b.2 ∧ f.qualified s.now = true) ∧
      s.reselect.tim.foreign = s.tim.foreign ∧ s.reselect.servo = s.servo := by
  unfold State.reselect
  extract_lets q best pick _ t _ u
  have hmem : ∀ f, best = some f → f ∈ q := by
    refine List.foldlRecOn q _ (motive := fun a => ∀ f, a = some f → f ∈ q) (fun _ e => nomatch e) fun a ha g hg f e => ?_
    split at e
    · exact Option.some.inj e ▸ hg
    · exact both_arms (fun x : Option Foreign => x = some f → f ∈ q) (fun e => Option.some.inj e ▸ hg) (ha f) e
  have ht : t.tim.best = pick ∧ t.tim.foreign = s.tim.foreign ∧ t.regs = s.regs ∧ t.uregs = s.uregs := by
    dsimp only [t]
    split
    · exact ⟨‹_›, rfl, rfl, rfl⟩
    · exact ⟨rfl, rfl, rfl, rfl⟩
  have hu : u.tim.best = t.tim.best ∧ u.tim.foreign = t.tim.foreign ∧ u.regs = t.regs ∧ u.uregs = t.uregs := by
    dsimp only [u]
    clear_value best
    cases best <;> exact ⟨rfl, rfl, rfl, rfl⟩
  obtain ⟨tbest, tforeign, tregs, turegs⟩ := ht
  obtain ⟨ubest, uforeign, uregs, uuregs⟩ := hu
  have htim (v : Nat) : (u.setFld F.TIM_STATUS.PTP_PORT v).utcEval.tim = u.tim :=
    (State.utcEval_steady _).tim.trans (u.setFld_tim _ _)
  refine ⟨fun b hb => ?_, ?_, ?_⟩
  · rw [State.tqEval_tim, htim, ubest, tbest] at hb
    obtain ⟨f, hf, rfl⟩ := Option.map_eq_some_iff.mp hb
    obtain ⟨hf, hq⟩ := List.mem_filter.mp (hmem f hf)
    exact ⟨f, hf, rfl, rfl, (Bool.and_eq_true_iff.mp hq).1⟩
  · rw [State.tqEval_tim, htim, uforeign, tforeign]
  · rw [State.tqEval_servo, State.servo, State.fld_congr (State.utcEval_reg _ (by decide) (by decide) (by decide)),
      State.fld_setFld_ne u _ _ _ (by decide) (by decide)]
    exact State.fld_congr (by rw [State.reg, uregs, uuregs, tregs, turegs, State.reg])

/-- A transmitter that qualifies was heard within three Announce intervals. -/
theorem Foreign.heard_of_qualified {f : Foreign} {now : Nat} (h : f.qualified now = true) : now - f.clk ≤ 3600000000 := by
  unfold Foreign.qualified at h
  split at h
  · exact nomatch h
  · simp only [Bool.and_eq_true, decide_eq_true_eq] at h
    obtain ⟨⟨-, hheard⟩, -⟩ := h
    exact hheard

theorem State.elapse_bestForeign (s : State) (n : Nat) : (s.elapse n).bestForeign = s.bestForeign := by
  rw [State.bestForeign, State.elapse_tim]
  rfl

/-- A selected transmitter that the table holds is the record a command reads. -/
theorem State.bestForeign_of_mem {s : State} {b : Nat × Nat} (hbest : s.tim.best = some b)
    (h : ∃ f ∈ s.tim.foreign, f.port = b.1 ∧ f.id = b.2) : ∃ f ∈ s.tim.foreign, f.port = b.1 ∧ f.id = b.2 ∧ s.bestForeign = some f := by
  obtain ⟨f, hf, hport, hid⟩ := h
  have hfound : (s.tim.foreign.find? fun f => f.port = b.1 && f.id = b.2).isSome = true :=
    List.find?_isSome.mpr ⟨f, hf, by simp [hport, hid]⟩
  obtain ⟨g, hg⟩ := Option.isSome_iff_exists.mp hfound
  have hkey := List.find?_some hg
  simp only [Bool.and_eq_true, decide_eq_true_eq] at hkey
  refine ⟨g, List.mem_of_find?_eq_some hg, hkey.1, hkey.2, ?_⟩
  rw [State.bestForeign, hbest]
  exact hg

theorem exec_ptpSourceLost {s : State} {f : Foreign} {dt : Nat} (hf : s.bestForeign = some f) (hlate : 3600000000 < s.now + dt - f.clk) :
    exec (.ptpSourceLost dt) s = .next (s.elapse dt).reselect := by
  show execPtpSourceLost dt s = _
  unfold execPtpSourceLost
  dsimp only
  rw [State.elapse_bestForeign, hf]
  exact if_pos hlate

theorem exec_followUpTimeout {s : State} {p : Port} {w : SyncWait} {dt : Nat} (hw : (s.ptpPort p.val).sync = some w) :
    exec (.followUpTimeout p dt) s = .next (if 1200000000 ≤ s.now + dt - w.clk then
      (s.elapse dt).setPtpPort p.val { s.ptpPort p.val with sync := none } else s.elapse dt) := by
  show execFollowUpTimeout p dt s = _
  unfold execFollowUpTimeout
  dsimp only
  rw [State.elapse_ptpPort, hw]
  exact (apply_ite Host.Outcome.next _ _ _).symm

@[simp] theorem State.ptpPort_setPtpPort (s : State) (p : Nat) (x : PtpPort) (q : Nat) :
    (s.setPtpPort p x).ptpPort q = if q = p then x else s.ptpPort q := by simp [State.ptpPort, State.setPtpPort]

/-! ## The obligation -/

/-- Settles O37, by its five commands' effects: what a message is taken for, a request sent, a Sync given up, and a source chosen anew. -/
theorem ptpExchange : Obligations.PtpExchange := by
  unfold Obligations.PtpExchange
  intro s p dt x
  refine ⟨fun i l hrun hq => ?_, fun hrun hon hdue => ?_, fun w hw => ?_, fun b hbest hheld hsilent => ?_⟩
  · intro m
    let v : State := { s with tim := { s.tim with ptpQ := l } }
    have hexec {t : State} (ht : v.ptpHandle i = t) : exec .ptpMessage s = .next t := (exec_ptpMessage hrun hq).trans (congrArg _ ht)
    refine ⟨fun h => ?_, fun htype hon hlen hkind hversion hdomain hleast hwhole => ?_⟩
    · refine ⟨_, hexec (State.ptpHandle_wrongProfile h), v.bump_tim _, v.bump_net _, ?_⟩
      exact counted_of_eq (counted_bump v _) rfl rfl
    · obtain ⟨f, htag, hanswer⟩ := (v.bump R.TIM_PTP_USED).ptpPdelayReq_answers i.port i.stamp m
      obtain ⟨htim, htx, hcnt, hjoins⟩ := (v.bump R.TIM_PTP_USED).ptpSend_joins i.port f
      have hhandle := State.ptpHandle_pdelayReq (s := v) htype hon hlen hkind hversion hdomain hleast hwhole
      refine ⟨_, hexec (hhandle.trans hanswer), htim.trans (v.bump_tim _), ?_, ?_, f, hjoins.trans ?_, htag⟩
      · exact counted_of_eq (counted_bump v _) rfl (hcnt _ (by decide) (by decide))
      · exact counted_of_eq htx (v.cnt_bump_ne _ _ (by decide)) rfl
      · exact congrArg (·.tx ++ [f]) (v.port_bump _ _)
  · let u := (s.elapse dt).setPtpPort p.val
      { x with reqSeq := (x.reqSeq + 1) % 65536, reqTx := none, resp := none, reqAt := some (s.now + dt) }
    obtain ⟨f, htag, hexec⟩ := exec_pdelayReqTimer hrun hon hdue
    obtain ⟨htim, htx, -, hjoins⟩ := u.ptpSend_joins p.val f
    refine ⟨_, hexec, counted_of_eq htx rfl rfl, ?_, f, hjoins, htag⟩
    rw [State.ptpPort, htim]
    exact (State.ptpPort_setPtpPort _ _ _ _).trans (if_pos rfl)
  · refine ⟨_, exec_followUpTimeout hw, ?_⟩
    split
    · exact ⟨(State.ptpPort_setPtpPort _ _ _ _).trans (if_pos rfl), rfl, rfl⟩
    · exact ⟨State.elapse_ptpPort _ _ _, rfl, rfl⟩
  · obtain ⟨f, hmem, hport, hid, hf⟩ := State.bestForeign_of_mem hbest hheld
    obtain ⟨hbest, hforeign, hservo⟩ := (s.elapse dt).reselect_chooses
    have htable : (s.elapse dt).tim.foreign = s.tim.foreign := by rw [State.elapse_tim]
    refine ⟨_, exec_ptpSourceLost hf (hsilent f hmem hport hid), fun hb => ?_, hforeign.trans htable, hservo⟩
    obtain ⟨g, hg, hgport, hgid, hq⟩ := hbest b hb
    have hsilent := hsilent g (htable ▸ hg) hgport hgid
    have hheard : s.now + dt - g.clk ≤ 3600000000 := Foreign.heard_of_qualified hq
    omega

end Sys2Proof.Machine
end

section
/-!
SUPPORT. The servo's states and samples (R161, R162): how HOLDOVER is entered, what a refused sample leaves, and that no sample moves what a
good frame of IRIG-B recorded.
-/

namespace Sys2Proof.Machine

open Sys2Proof.Safety

/-! ## What the servo's steps write -/

theorem State.reg_bump (s : State) (k off : Nat) : (s.bump k).reg off = s.reg off := by simp [State.reg]

theorem State.ringLog_cnt (s : State) (type origin : Nat) (data : List Byte) {k : Nat} (h : k / 0x10000 ≠ 17) :
    (s.ringLog type origin data).cnt k = s.cnt k :=
  (Leaves.ringLog (Leaves.refl (· = k) s) (by rintro _ rfl; exact h) type origin data).cnt k rfl

theorem State.timeReady_tim (s : State) : s.timeReady.tim = s.tim :=
  State.timeReady_keeps State.tim (fun _ _ => rfl) (fun s f v => s.setFld_tim f v) s

theorem State.timeReady_cnt (s : State) (k : Nat) : s.timeReady.cnt k = s.cnt k :=
  State.timeReady_keeps (·.cnt k) (fun _ _ => rfl) (fun s _ _ => s.cnt_setReg _ _ k) s

theorem State.leaveLock_tim (s : State) :
    s.leaveLock.tim = { s.tim with leftLock := s.leaveLock.tim.leftLock, leftEst := s.leaveLock.tim.leftEst } := by
  unfold State.leaveLock
  split <;> rfl

theorem State.leaveLock_cnt (s : State) (k : Nat) : s.leaveLock.cnt k = s.cnt k := both_arms (fun t : State => t.cnt k = s.cnt k) rfl rfl

theorem State.setServo_tim (s : State) (n : Nat) : (s.setServo n).tim = s.tim :=
  both_arms (fun t : State => t.tim = s.tim) rfl ((State.raise_tim _ _).trans (s.setFld_tim _ _))

theorem State.setServo_cnt (s : State) (n k : Nat) : (s.setServo n).cnt k = s.cnt k :=
  both_arms (fun t : State => t.cnt k = s.cnt k) rfl ((State.cnt_setReg _ _ _ _).trans (s.cnt_setReg _ _ _))

theorem State.setServo_servo (s : State) {n : Nat} (h : n < 4) : (s.setServo n).servo = n := by
  unfold State.setServo
  split
  · assumption
  · rw [State.servo, State.raise, State.fld_setFld_ne _ _ _ _ (by decide) (by decide), State.fld_setFld_same _ _ _ (by decide)]
    exact Nat.mod_eq_of_lt h

theorem State.setAdj_tim (s : State) (a : Int) : (s.setAdj a).tim = s.tim := s.setReg_tim _ _

theorem State.setAdj_cnt (s : State) (a : Int) (k : Nat) : (s.setAdj a).cnt k = s.cnt k := s.cnt_setReg _ _ _

theorem State.setAdj_servo (s : State) (a : Int) : (s.setAdj a).servo = s.servo := s.fld_setReg _ _ _

/-! ## HOLDOVER (R162) -/

/-- HOLDOVER is entered once, and nothing but the lock's record and the run to LOCKED moves in the timebase. -/
theorem State.enterHoldover_enters (s : State) :
    let t := s.enterHoldover
    t.servo = 3 ∧ (s.servo ≠ 3 → Counted s t R.TIM_HOLDOVER_ENTRIES 1) ∧
      (∀ k, k ≠ R.TIM_HOLDOVER_ENTRIES → t.cnt k = s.cnt k) ∧
      t.tim = { s.tim with leftLock := t.tim.leftLock, leftEst := t.tim.leftEst, lockRun := t.tim.lockRun } := by
  intro t
  by_cases h : s.servo = 3
  · have ht : t = s := if_pos h
    rw [ht]
    exact ⟨h, fun hne => absurd h hne, fun _ _ => rfl, rfl⟩
  · let u := s.leaveLock.setServo 3
    let v := (u.bump R.TIM_HOLDOVER_ENTRIES).raise F.TIM_INT_STATUS.HOLDOVER
    let w : State := { v with tim := { v.tim with lockRun := 0 } }
    obtain ⟨htim, hcnt, hservo⟩ : t.tim = w.tim ∧ (∀ k, t.cnt k = v.cnt k) ∧ t.servo = v.servo := by
      rw [show t = _ from if_neg h]
      refine both_arms (fun x : State => x.tim = w.tim ∧ (∀ k, x.cnt k = v.cnt k) ∧ x.servo = v.servo) ?_ ⟨rfl, fun _ => rfl, rfl⟩
      exact ⟨w.setAdj_tim _, w.setAdj_cnt _, w.setAdj_servo _⟩
    have hv (k : Nat) : v.cnt k = (u.bump R.TIM_HOLDOVER_ENTRIES).cnt k := State.cnt_setReg _ _ _ k
    have hu (k : Nat) : u.cnt k = s.cnt k := (State.setServo_cnt _ _ k).trans (s.leaveLock_cnt k)
    refine ⟨?_, fun _ => ?_, fun k hk => ?_, ?_⟩
    · calc t.servo = v.servo := hservo
        _ = (u.bump R.TIM_HOLDOVER_ENTRIES).servo := State.fld_setFld_ne _ _ _ _ (by decide) (by decide)
        _ = u.servo := State.fld_congr (State.reg_bump _ _ _)
        _ = 3 := State.setServo_servo _ (by decide)
    · exact counted_of_eq (counted_bump u _) (hu _) ((hcnt _).trans (hv _))
    · rw [hcnt, hv, State.cnt_bump_ne _ _ _ hk, hu]
    · have hu : v.tim = s.leaveLock.tim := (State.raise_tim _ _).trans ((State.bump_tim _ _).trans (State.setServo_tim _ _))
      rw [htim, show w.tim = { v.tim with lockRun := 0 } from rfl, hu, State.leaveLock_tim]

theorem State.timeRecord_reg (s : State) (kind : Nat) (d : Int) {off : Nat} (h : off ≠ R.UND_INT_STATUS) :
    (s.timeRecord kind d).reg off = s.reg off := s.reg_ringLog _ _ _ h

theorem State.timeRecord_cnt (s : State) (kind : Nat) (d : Int) {k : Nat} (h : k / 0x10000 ≠ 17) :
    (s.timeRecord kind d).cnt k = s.cnt k := s.ringLog_cnt _ _ _ h

theorem State.timeRecord_tim (s : State) (kind : Nat) (d : Int) : (s.timeRecord kind d).tim = s.tim := s.ringLog_tim _ _ _

/-- A refused sample leaves Grid Time, keeps its offset, and puts the servo into HOLDOVER (R161). -/
theorem State.servoRefuse_refuses (s : State) (d : Int) :
    let t := s.servoRefuse d
    t.servo = 3 ∧ t.flag F.TIM_STATUS.REFUSED = true ∧ Counted s t R.TIM_JUMPS_REFUSED 1 ∧ t.tim.grid = s.tim.grid ∧
      t.tim.refusedD = d ∧ t.cnt R.TIM_SAMPLES = s.cnt R.TIM_SAMPLES := by
  intro t
  let u := ({ s with tim := { s.tim with refusedD := d, lockRun := 0 } } : State).setCnt R.TIM_REFUSED (w64 (wrapInt 64 (intNear d nsU)))
  let v := u.enterHoldover.bump R.TIM_JUMPS_REFUSED
  let w := (v.raise F.TIM_INT_STATUS.REFUSED).setFld F.TIM_STATUS.REFUSED 1
  obtain ⟨hservo, -, hentered, htim⟩ := u.enterHoldover_enters
  have hreg {f : Fld} (hf : f.off = R.TIM_STATUS) : t.fld f = w.fld f := State.fld_congr (w.timeRecord_reg 0 d (by rw [hf]; decide))
  have hcnt {k : Nat} (hk : k / 0x10000 = 6) : t.cnt k = v.cnt k :=
    (w.timeRecord_cnt 0 d (by omega)).trans ((State.cnt_setReg _ _ _ k).trans (State.cnt_setReg _ _ _ k))
  have hu {k : Nat} (hk : k ≠ R.TIM_REFUSED) : u.cnt k = s.cnt k := (State.cnt_setCnt _ _ _ k).trans (if_neg hk)
  have hutim : u.tim = { s.tim with refusedD := d, lockRun := 0 } := State.setCnt_tim _ _ _
  have htims : t.tim = u.enterHoldover.tim :=
    (w.timeRecord_tim 0 d).trans ((State.setFld_tim _ _ _).trans ((State.raise_tim _ _).trans (State.bump_tim _ _)))
  refine ⟨?_, ?_, ?_, ?_, ?_, ?_⟩
  · calc t.servo = w.servo := hreg rfl
      _ = (v.raise F.TIM_INT_STATUS.REFUSED).servo := State.fld_setFld_ne _ _ _ _ (by decide) (by decide)
      _ = v.servo := State.fld_setFld_ne _ _ _ _ (by decide) (by decide)
      _ = u.enterHoldover.servo := State.fld_congr (State.reg_bump _ _ _)
      _ = 3 := hservo
  · rw [State.flag, hreg rfl]
    exact State.flag_raise _ F.TIM_STATUS.REFUSED (by decide) rfl
  · exact counted_of_eq (counted_bump _ _) ((hentered _ (by decide)).trans (hu (by decide))) (hcnt (by decide))
  · rw [htims, htim, hutim]
  · rw [htims, htim, hutim]
  · exact (hcnt (by decide)).trans ((State.cnt_bump_ne _ _ _ (by decide)).trans ((hentered _ (by decide)).trans (hu (by decide))))

/-- A sample of the primary beyond the jump limit, with no step armed, outside FREERUN, is refused and TIM_TQ follows (R161). -/
theorem State.servoSample_refused {s : State} {d : Int} (hservo : s.servo ≠ 0) (harmed : s.flag F.TIM_STATUS.STEP_ARMED = false)
    (hfar : (s.fld F.TIM_JUMP_LIMIT.US : Int) * 16777216000 < (d.natAbs : Int)) :
    let t := s.servoSample d
    t.servo = 3 ∧ t.flag F.TIM_STATUS.REFUSED = true ∧ Counted s t R.TIM_JUMPS_REFUSED 1 ∧ Counted s t R.TIM_SAMPLES 1 ∧
      t.tim.grid = s.tim.grid ∧ t.tim.refusedD = d := by
  intro t
  let u := (s.bump R.TIM_SAMPLES).setReg R.TIM_OFFSET (w32 (wrapInt 32 (satNs d)))
  have hreg {off : Nat} (h : off ≠ R.TIM_OFFSET) : u.reg off = s.reg off :=
    (State.reg_setReg _ _ _ _).trans ((if_neg h).trans (s.reg_bump _ _))
  have hcnt (k : Nat) : u.cnt k = (s.bump R.TIM_SAMPLES).cnt k := State.cnt_setReg _ _ _ k
  have ht : t = (u.servoRefuse d).tqEval.timeReady := by
    have hlimit : (u.fld F.TIM_JUMP_LIMIT.US : Int) * 1000 * nsU < (d.natAbs : Int) := by
      rw [State.fld_congr (hreg (by decide)), nsU]
      omega
    have hservo : u.servo ≠ 0 := by rwa [State.servo, State.fld_congr (hreg (by decide))]
    have harmed : u.flag F.TIM_STATUS.STEP_ARMED = false := (State.flag_congr (hreg (by decide))).trans harmed
    dsimp only [t, State.servoSample]
    rw [if_neg (by simp [u, hservo]), if_pos hlimit, if_neg (by simp [u, harmed])]
  obtain ⟨hhold, hrefused, hjumps, hgrid, hkept, hsamples⟩ := u.servoRefuse_refuses d
  have hshown {f : Fld} (hf : f.off = R.TIM_STATUS) : t.fld f = (u.servoRefuse d).fld f := by
    rw [ht]
    refine State.fld_congr ?_
    rw [hf, State.timeReady_reg _ (by decide) (by decide) (by decide), State.tqEval_reg _ (by decide)]
  have hcounts (k : Nat) : t.cnt k = (u.servoRefuse d).cnt k := by rw [ht, State.timeReady_cnt, State.tqEval_cnt]
  have htim : t.tim = { (u.servoRefuse d).tim with tqMark := t.tim.tqMark } := by
    rw [ht, State.timeReady_tim]
    exact State.tqEval_tim _
  have hutim : u.tim = s.tim := (State.setReg_tim _ _ _).trans (State.bump_tim _ _)
  refine ⟨(hshown rfl).trans hhold, ?_, ?_, ?_, ?_, ?_⟩
  · rw [State.flag, hshown rfl]
    exact hrefused
  · exact counted_of_eq hjumps ((hcnt _).trans (s.cnt_bump_ne _ _ (by decide))) (hcounts _)
  · exact counted_of_eq (counted_bump s _) rfl ((hcounts _).trans (hsamples.trans (hcnt _)))
  · rw [htim, ← hutim]
    exact hgrid
  · rw [htim]
    exact hkept

/-! ## What a good frame of IRIG-B recorded (R159) -/

/-- The count of good frames, the second of the last one and the edge that waits for its frame stand. -/
structure FrameKept (s t : State) : Prop where
  good : t.cnt R.TIM_IRIG_GOOD = s.cnt R.TIM_IRIG_GOOD
  second : t.tim.irigPrev = s.tim.irigPrev
  edge : t.tim.ppsHeld = s.tim.ppsHeld

namespace FrameKept

variable {s t u : State}

theorem refl (s : State) : FrameKept s s := ⟨rfl, rfl, rfl⟩

theorem ite {c : Prop} [Decidable c] (h : FrameKept s t) (g : FrameKept s u) : FrameKept s (if c then t else u) :=
  both_arms (FrameKept s) h g

theorem trans (a : FrameKept s t) (b : FrameKept t u) : FrameKept s u :=
  ⟨b.good.trans a.good, b.second.trans a.second, b.edge.trans a.edge⟩

/-- The timebase's own state is untouched. -/
theorem of_tim (h : FrameKept s t) (hcnt : u.cnt R.TIM_IRIG_GOOD = t.cnt R.TIM_IRIG_GOOD) (htim : u.tim = t.tim) : FrameKept s u :=
  h.trans ⟨hcnt, by rw [htim], by rw [htim]⟩

/-- The timebase's own state replaced by one with the same record. -/
theorem withTim (h : FrameKept s t) {x y : Tim} (htim : t.tim = y) (hsecond : x.irigPrev = y.irigPrev) (hedge : x.ppsHeld = y.ppsHeld) :
    FrameKept s { t with tim := x } := h.trans ⟨rfl, hsecond.trans (by rw [htim]), hedge.trans (by rw [htim])⟩

theorem setReg (h : FrameKept s t) (off : Nat) (v : Word) : FrameKept s (t.setReg off v) :=
  h.of_tim (t.cnt_setReg _ _ _) (t.setReg_tim _ _)

theorem setFld (h : FrameKept s t) (f : Fld) (v : Nat) : FrameKept s (t.setFld f v) := h.setReg _ _

theorem raise (h : FrameKept s t) (f : Fld) : FrameKept s (t.raise f) := h.setReg _ _

theorem setCnt (h : FrameKept s t) {k : Nat} (hk : R.TIM_IRIG_GOOD ≠ k) (v : DWord) : FrameKept s (t.setCnt k v) :=
  h.of_tim ((t.cnt_setCnt _ _ _).trans (if_neg hk)) (t.setCnt_tim _ _)

theorem bump (h : FrameKept s t) {k : Nat} (hk : R.TIM_IRIG_GOOD ≠ k) : FrameKept s (t.bump k) :=
  h.of_tim (t.cnt_bump_ne _ _ hk) (t.bump_tim _)

theorem timeRecord (h : FrameKept s t) (kind : Nat) (d : Int) : FrameKept s (t.timeRecord kind d) :=
  h.of_tim (t.timeRecord_cnt _ _ (by decide)) (t.timeRecord_tim _ _)

theorem setServo (h : FrameKept s t) (n : Nat) : FrameKept s (t.setServo n) := h.of_tim (t.setServo_cnt _ _) (t.setServo_tim _)

theorem setAdj (h : FrameKept s t) (a : Int) : FrameKept s (t.setAdj a) := h.setReg _ _

theorem timeReady (h : FrameKept s t) : FrameKept s t.timeReady := h.of_tim (t.timeReady_cnt _) t.timeReady_tim

theorem utcEval (h : FrameKept s t) : FrameKept s t.utcEval := h.of_tim (t.utcEval_cnt _) t.utcEval_steady.tim

theorem tqEval (h : FrameKept s t) : FrameKept s t.tqEval :=
  h.trans ⟨t.tqEval_cnt _, by rw [State.tqEval_tim], by rw [State.tqEval_tim]⟩

theorem leaveLock (h : FrameKept s t) : FrameKept s t.leaveLock :=
  h.trans ⟨t.leaveLock_cnt _, by rw [State.leaveLock_tim], by rw [State.leaveLock_tim]⟩

theorem enterHoldover (h : FrameKept s t) : FrameKept s t.enterHoldover := by
  obtain ⟨-, -, hcnt, htim⟩ := t.enterHoldover_enters
  exact h.trans ⟨hcnt _ (by decide), by rw [htim], by rw [htim]⟩

theorem servoRefuse (h : FrameKept s t) (d : Int) : FrameKept s (t.servoRefuse d) := by
  have hkept : FrameKept t { t with tim := { t.tim with refusedD := d, lockRun := 0 } } := ⟨rfl, rfl, rfl⟩
  exact h.trans (((((hkept.setCnt (by decide) _).enterHoldover.bump (by decide)).raise _).setFld _ _).timeRecord _ _)

/-- A step moves Grid Time and what hangs on it (R161). -/
theorem servoStep (h : FrameKept s t) (d : Int) : FrameKept s (t.servoStep d) := by
  unfold State.servoStep
  extract_lets total m p before t1 _ _ t2 t3 last _ t4 t5
  have h1 : FrameKept s t1 := h.leaveLock
  have h2 : FrameKept s t2 := h1.trans ⟨rfl, rfl, rfl⟩
  have h3 : FrameKept s t3 := h2.withTim rfl rfl rfl
  have h4 : FrameKept s t4 := ite (h3.withTim rfl rfl rfl) h3
  have h5 : FrameKept s t5 := ((h4.setServo 1).bump (by decide)).raise _
  exact (h5.setFld _ _).timeRecord _ _

/-- A sample in the loop filter moves the servo's own state (R161). -/
theorem servoApply (h : FrameKept s t) (d : Int) : FrameKept s (t.servoApply d) := by
  unfold State.servoApply
  extract_lets st kp ki dt integral adj mag within run beyond t1 _ _ t2 t3 t4
  have h1 : FrameKept s t1 := ite h.leaveLock h
  have h2 : FrameKept s t2 := (h1.setAdj adj).withTim (t1.setAdj_tim adj) rfl rfl
  have h3 : FrameKept s t3 := ((h2.setFld _ _).setFld _ _).bump (by decide)
  have h4 : FrameKept s t4 := h3.setServo 1
  exact ite (ite h4 h3) (ite ((h4.setServo 2).withTim (t4.setServo_tim 2) rfl rfl) h4)

theorem servoSample (h : FrameKept s t) (d : Int) : FrameKept s (t.servoSample d) := by
  unfold State.servoSample
  extract_lets t1 limit t2
  have h1 : FrameKept s t1 := (h.bump (by decide)).setReg _ _
  have hstep : FrameKept s (t1.servoStep d) := h1.servoStep d
  have h2 : FrameKept s t2 := ite hstep (ite (ite (hstep.setFld _ _) (h1.servoRefuse d))
    (ite ((h1.bump (by decide)).setFld _ _) (h1.servoApply d)))
  exact h2.tqEval.timeReady

theorem crossCheck (h : FrameKept s t) (d : Int) : FrameKept s (t.crossCheck d) :=
  ite h (ite (((h.setFld _ _).bump (by decide)).raise _) (h.setFld _ _))

theorem sourceSample (h : FrameKept s t) (kind : Nat) (primary : Bool) (d : Int) : FrameKept s (t.sourceSample kind primary d) := by
  unfold State.sourceSample
  extract_lets t1
  have h1 : FrameKept s t1 := ite (h.crossCheck d) h
  exact ite (h1.servoSample d) h1

end FrameKept

end Sys2Proof.Machine
end

section
/-!
Pulses, frames of IRIG-B and the servo's timers (O38).
-/

namespace Sys2Proof.Machine

open Sys2Proof.Safety

/-! ## An input's event -/

/-- Time has passed and the wake watcher has noted an input's event (R480). -/
def State.sensed (s : State) (dt code : Nat) : State := (s.elapse dt).wakeEvent code

theorem State.sensed_tim (s : State) (dt code : Nat) : (s.sensed dt code).tim = (s.elapse dt).tim := (State.wakeEvent_steady _ _).tim

theorem State.sensed_now (s : State) (dt code : Nat) : (s.sensed dt code).now = (s.elapse dt).now := (State.wakeEvent_steady _ _).now

theorem State.sensed_reg (s : State) (dt code : Nat) {off : Nat} (h : 0x20000 ≤ off) : (s.sensed dt code).reg off = s.reg off :=
  State.wakeEvent_reg _ _ h

theorem State.sensed_cnt (s : State) (dt code k : Nat) : (s.sensed dt code).cnt k = s.cnt k := State.wakeEvent_cnt _ _ _

theorem State.sensed_timRuns (s : State) (dt code : Nat) : (s.sensed dt code).timRuns = s.timRuns := by
  rw [State.timRuns, State.sensed_tim, State.flag_congr (s.sensed_reg dt code (by decide))]
  exact s.elapse_timRuns dt

theorem State.sensed_ppsHeld (s : State) (dt code : Nat) : (s.sensed dt code).tim.ppsHeld = s.tim.ppsHeld := by
  rw [State.sensed_tim, State.elapse_tim]

theorem State.ppsDropHeld_none {s : State} (h : s.tim.ppsHeld = none) : s.ppsDropHeld = s := by
  unfold State.ppsDropHeld
  rw [h]

/-! ## An edge of PPS (R158) -/

/-- The edge noted and counted. -/
def State.edged (s : State) (dt : Nat) : State := (s.sensed dt 4).bump R.TIM_PPS_EDGES

theorem State.edged_tim (s : State) (dt : Nat) : (s.edged dt).tim = (s.elapse dt).tim := (State.bump_tim _ _).trans (s.sensed_tim dt 4)

theorem State.edged_now (s : State) (dt : Nat) : (s.edged dt).now = (s.elapse dt).now := (State.bump_now _ _).trans (s.sensed_now dt 4)

theorem State.edged_reg (s : State) (dt : Nat) {off : Nat} (h : 0x20000 ≤ off) : (s.edged dt).reg off = s.reg off :=
  (State.reg_bump _ _ _).trans (s.sensed_reg dt 4 h)

theorem State.edged_cnt (s : State) (dt : Nat) {k : Nat} (h : k ≠ R.TIM_PPS_EDGES) : (s.edged dt).cnt k = s.cnt k :=
  (State.cnt_bump_ne _ _ _ h).trans (s.sensed_cnt dt 4 k)

theorem State.edged_counted (s : State) (dt : Nat) : Counted s (s.edged dt) R.TIM_PPS_EDGES 1 :=
  counted_of_eq (counted_bump _ _) (s.sensed_cnt dt 4 _) rfl

/-- The edge's stamp: Grid Time less the input's delay. -/
def State.edgeStamp (s : State) : Nat := stampLess s.grid80 (signedOf 32 (s.fld F.TIM_DELAY_PPS_IN.NS))

/-- The edge after its cross-check. -/
def State.edgeChecked (s : State) (dt : Nat) : State :=
  let stamp := (s.elapse dt).edgeStamp
  if s.fld F.TIM_CTRL.XCHK_SRC = 3 then (s.edged dt).crossCheck (gridDiff stamp (nearSecond stamp * 4294967296)) else s.edged dt

theorem exec_ppsEdge {s : State} (dt : Nat) (hrun : s.timRuns = true) (hheld : s.tim.ppsHeld = none) :
    let stamp := (s.elapse dt).edgeStamp
    let c := s.edgeChecked dt
    exec (.ppsEdge dt) s =
      if 1073741824 < gridDist stamp (nearSecond stamp * 4294967296) then .next ((s.edged dt).bump R.TIM_PPS_BAD)
      else if c.fld F.TIM_CTRL.SRC = 2 || c.fld F.TIM_CTRL.SRC = 3 then .next (c.ppsJudge stamp) else .next c := by
  intro stamp c
  have hdrop : (s.sensed dt 4).ppsDropHeld = s.sensed dt 4 := State.ppsDropHeld_none ((s.sensed_ppsHeld dt 4).trans hheld)
  have hstamp : (s.edged dt).edgeStamp = stamp := by
    rw [State.edgeStamp, State.grid80, State.edged_tim, State.fld_congr (s.edged_reg dt (by decide))]
    rfl
  have hxchk : (s.edged dt).fld F.TIM_CTRL.XCHK_SRC = s.fld F.TIM_CTRL.XCHK_SRC := State.fld_congr (s.edged_reg dt (by decide))
  show execPpsEdge dt s = _
  unfold execPpsEdge
  dsimp only
  rw [← State.sensed, State.sensed_timRuns, hrun, hdrop, if_neg (by decide), ← State.edged, ← State.edgeStamp, hstamp, hxchk]
  rfl

/-- A cross-check in force sets or clears the failure by its limit, and moves nothing else but its count and its interrupt (R160). -/
theorem State.crossCheck_shows {s : State} (d : Int) (hpolicy : s.fld F.TIM_CTRL.XCHK_POLICY ≠ 0) :
    let t := s.crossCheck d
    t.tim = s.tim ∧ (∀ k, k ≠ R.TIM_XCHK_FAILS → t.cnt k = s.cnt k) ∧
      (∀ off, off ≠ R.TIM_STATUS → off ≠ R.TIM_INT_STATUS → t.reg off = s.reg off) ∧
      t.flag F.TIM_STATUS.XCHK_FAIL = decide ((s.fld F.TIM_XCHK_LIMIT.US : Int) * 16777216000 < (d.natAbs : Int)) := by
  intro t
  have hlimit : (s.fld F.TIM_XCHK_LIMIT.US : Int) * 1000 * nsU = (s.fld F.TIM_XCHK_LIMIT.US : Int) * 16777216000 := by
    rw [nsU]
    omega
  have ht : t = if (s.fld F.TIM_XCHK_LIMIT.US : Int) * 16777216000 < (d.natAbs : Int) then
      ((s.setFld F.TIM_STATUS.XCHK_FAIL 1).bump R.TIM_XCHK_FAILS).raise F.TIM_INT_STATUS.XCHK
      else s.setFld F.TIM_STATUS.XCHK_FAIL 0 := by rw [← hlimit]; exact if_neg hpolicy
  by_cases h : (s.fld F.TIM_XCHK_LIMIT.US : Int) * 16777216000 < (d.natAbs : Int)
  · rw [ht, if_pos h, decide_eq_true h]
    refine ⟨?_, fun k hk => ?_, fun off h1 h2 => ?_, ?_⟩
    · exact (State.raise_tim _ _).trans ((State.bump_tim _ _).trans (s.setFld_tim _ _))
    · exact (State.cnt_setReg _ _ _ k).trans ((State.cnt_bump_ne _ _ _ hk).trans (s.cnt_setReg _ _ k))
    · exact (State.reg_setFld_ne _ _ _ _ h2).trans ((State.reg_bump _ _ _).trans (s.reg_setFld_ne _ _ _ h1))
    · refine (State.flag_setFld_ne _ (by decide) (by decide)).trans ((State.flag_congr (State.reg_bump _ _ _)).trans ?_)
      exact s.flag_raise F.TIM_STATUS.XCHK_FAIL (by decide) rfl
  · rw [ht, if_neg h, decide_eq_false h]
    exact ⟨s.setFld_tim _ _, fun k _ => s.cnt_setReg _ _ k, fun off h1 _ => s.reg_setFld_ne _ _ _ h1,
      State.flag_setFld_same false (by decide) rfl⟩

/-- The second named for an edge, of the source's record, Grid Time's and local time alone. -/
theorem State.ppsSecond_congr {s t : State} (htim : t.tim = s.tim) (hnow : t.now = s.now)
    (hreg : ∀ off, off = R.TIM_CTRL ∨ off = R.TIM_SRC_TIMEOUT → t.reg off = s.reg off) (stamp : Nat) :
    t.ppsSecond stamp = s.ppsSecond stamp := by
  have hsrc : t.fld F.TIM_CTRL.SRC = s.fld F.TIM_CTRL.SRC := State.fld_congr (hreg _ (.inl rfl))
  have hout : t.fld F.TIM_SRC_TIMEOUT.S = s.fld F.TIM_SRC_TIMEOUT.S := State.fld_congr (hreg _ (.inr rfl))
  unfold State.ppsSecond
  rw [htim, hnow, hsrc, hout]

theorem State.ppsJudge_named {s : State} {stamp sec : Nat} (h : s.ppsSecond stamp = some sec) :
    s.ppsJudge stamp = s.servoSample (gridDiff stamp (sec * 4294967296)) := by
  unfold State.ppsJudge
  split
  next named hnamed =>
    obtain rfl : named = sec := Option.some.inj (hnamed.symm.trans h)
    rfl
  next hnone => exact nomatch hnone.symm.trans h

section

variable {s : State} {dt : Nat} (hrun : s.timRuns = true) (hheld : s.tim.ppsHeld = none) {stamp : Nat}
  (hstamp : (s.elapse dt).edgeStamp = stamp)

include hrun hheld hstamp

/-- An edge too far from a whole second is counted as bad. -/
theorem ppsEdge_bad (hfar : 1073741824 < gridDist stamp (nearSecond stamp * 4294967296)) :
    Gives (.ppsEdge dt) s fun t => t.tim = (s.elapse dt).tim ∧ Counted s t R.TIM_PPS_EDGES 1 ∧ Counted s t R.TIM_PPS_BAD 1 := by
  subst hstamp
  refine ⟨_, (exec_ppsEdge dt hrun hheld).trans (if_pos hfar), (State.bump_tim _ _).trans (s.edged_tim dt), ?_, ?_⟩
  · exact counted_of_eq (s.edged_counted dt) rfl (State.cnt_bump_ne _ _ _ (by decide))
  · exact counted_of_eq (counted_bump _ _) (s.edged_cnt dt (by decide)) rfl

/-- An edge that cross-checks the primary sets or clears the failure. -/
theorem ppsEdge_crossChecks (hnear : gridDist stamp (nearSecond stamp * 4294967296) ≤ 1073741824)
    (hxchk : s.fld F.TIM_CTRL.XCHK_SRC = 3) (hsrc : s.fld F.TIM_CTRL.SRC ≤ 1) (hpolicy : s.fld F.TIM_CTRL.XCHK_POLICY ≠ 0) :
    let off := gridDiff stamp (nearSecond stamp * 4294967296)
    Gives (.ppsEdge dt) s fun t => t.tim = (s.elapse dt).tim ∧ Counted s t R.TIM_PPS_EDGES 1 ∧
      t.flag F.TIM_STATUS.XCHK_FAIL = decide ((s.fld F.TIM_XCHK_LIMIT.US : Int) * 16777216000 < (off.natAbs : Int)) := by
  subst hstamp
  intro off
  have hctrl {f : Fld} (hf : 0x20000 ≤ f.off) : (s.edged dt).fld f = s.fld f := State.fld_congr (s.edged_reg dt hf)
  have hchecked : s.edgeChecked dt = (s.edged dt).crossCheck off := if_pos hxchk
  obtain ⟨htim, hcnt, hreg, hfail⟩ := State.crossCheck_shows (s := s.edged dt) off (by rwa [hctrl (by decide)])
  have hother : (s.edgeChecked dt).fld F.TIM_CTRL.SRC = s.fld F.TIM_CTRL.SRC := by
    rw [hchecked, State.fld_congr (hreg _ (by decide) (by decide)), hctrl (by decide)]
  refine ⟨s.edgeChecked dt, ?_, ?_, ?_, ?_⟩
  · refine (exec_ppsEdge dt hrun hheld).trans ((if_neg (Nat.not_lt.mpr hnear)).trans (if_neg ?_))
    simp only [hother, Bool.or_eq_true, decide_eq_true_eq]
    omega
  · rw [hchecked, htim, State.edged_tim]
  · exact counted_of_eq (s.edged_counted dt) rfl (by rw [hchecked, hcnt _ (by decide)])
  · rw [hchecked, hfail, hctrl (by decide)]

/-- An edge of the primary beyond the jump limit is refused. -/
theorem ppsEdge_refused {sec : Nat} (hnear : gridDist stamp (nearSecond stamp * 4294967296) ≤ 1073741824)
    (hxchk : s.fld F.TIM_CTRL.XCHK_SRC = 0) (hsrc : s.fld F.TIM_CTRL.SRC = 2 ∨ s.fld F.TIM_CTRL.SRC = 3)
    (hsec : (s.elapse dt).ppsSecond stamp = some sec) (hservo : s.servo ≠ 0) (harmed : s.flag F.TIM_STATUS.STEP_ARMED = false)
    (hfar : (s.fld F.TIM_JUMP_LIMIT.US : Int) * 16777216000 < ((gridDiff stamp (sec * 4294967296)).natAbs : Int)) :
    Gives (.ppsEdge dt) s fun t => t.servo = 3 ∧ t.flag F.TIM_STATUS.REFUSED = true ∧ Counted s t R.TIM_JUMPS_REFUSED 1 ∧
      Counted s t R.TIM_SAMPLES 1 ∧ t.tim.grid = (s.elapse dt).tim.grid ∧
      t.tim.refusedD = gridDiff stamp (sec * 4294967296) := by
  subst hstamp
  have hctrl {f : Fld} (hf : 0x20000 ≤ f.off) : (s.edged dt).fld f = s.fld f := State.fld_congr (s.edged_reg dt hf)
  have hchecked : s.edgeChecked dt = s.edged dt := if_neg (by rw [hxchk]; decide)
  have hnamed : (s.edged dt).ppsSecond (s.elapse dt).edgeStamp = some sec := by
    refine (State.ppsSecond_congr (s.edged_tim dt) (s.edged_now dt) (fun off h => s.edged_reg dt ?_) _).trans hsec
    rcases h with rfl | rfl <;> decide
  have hexec : exec (.ppsEdge dt) s = .next ((s.edged dt).servoSample (gridDiff (s.elapse dt).edgeStamp (sec * 4294967296))) := by
    rw [exec_ppsEdge dt hrun hheld, if_neg (Nat.not_lt.mpr hnear), hchecked, if_pos, State.ppsJudge_named hnamed]
    simp only [hctrl (show 0x20000 ≤ F.TIM_CTRL.SRC.off by decide), Bool.or_eq_true, decide_eq_true_eq]
    exact hsrc
  obtain ⟨hhold, hrefused, hjumps, hsamples, hgrid, hkept⟩ := State.servoSample_refused (s := s.edged dt)
    (d := gridDiff (s.elapse dt).edgeStamp (sec * 4294967296)) (by rwa [State.servo, hctrl (by decide)])
    (by rwa [State.flag, hctrl (by decide)]) (by rwa [hctrl (by decide)])
  refine ⟨_, hexec, hhold, hrefused, ?_, ?_, ?_, hkept⟩
  · exact counted_of_eq hjumps (s.edged_cnt dt (by decide)) rfl
  · exact counted_of_eq hsamples (s.edged_cnt dt (by decide)) rfl
  · rw [hgrid, State.edged_tim]

end

/-! ## A frame of IRIG-B (R159) -/

section

variable {s : State} {f : List IrigSym} (ago dt : Nat) (hrun : s.timRuns = true) (hmode : s.fld F.TIM_CTRL.IRIG_MODE ≠ 0)
  (hheld : s.tim.ppsHeld = none)

include hrun hmode hheld

/-- A frame that fails a check is counted as bad. -/
theorem irigFrame_bad (hbad : irigGood f (s.fld F.TIM_CTRL.IRIG_MODE != 2) = false) :
    Gives (.irigFrame f ago dt) s fun t => t.tim = (s.elapse dt).tim ∧ Counted s t R.TIM_IRIG_BAD 1 := by
  have hctrl : (s.sensed dt 5).fld F.TIM_CTRL.IRIG_MODE = s.fld F.TIM_CTRL.IRIG_MODE := State.fld_congr (s.sensed_reg dt 5 (by decide))
  have hdrop : ((s.sensed dt 5).bump R.TIM_IRIG_BAD).ppsDropHeld = (s.sensed dt 5).bump R.TIM_IRIG_BAD :=
    State.ppsDropHeld_none (by rw [State.bump_tim, State.sensed_ppsHeld, hheld])
  have hexec : exec (.irigFrame f ago dt) s = .next ((s.sensed dt 5).bump R.TIM_IRIG_BAD) := by
    show execIrigFrame f ago dt s = _
    unfold execIrigFrame
    dsimp only
    rw [← State.sensed, State.sensed_timRuns, hctrl, hrun, if_neg (by simp [hmode]), hbad, if_pos (by decide), hdrop]
  exact ⟨_, hexec, (State.bump_tim _ _).trans (s.sensed_tim dt 5), counted_of_eq (counted_bump _ _) (s.sensed_cnt dt 5 _) rfl⟩

/-- A good frame is counted and its second kept, whatever its sample does to the servo. -/
theorem irigFrame_good (hgood : irigGood f (s.fld F.TIM_CTRL.IRIG_MODE != 2) = true) :
    Gives (.irigFrame f ago dt) s fun t => Counted s t R.TIM_IRIG_GOOD 1 ∧
      t.tim.irigPrev = some (irigUtc f (s.fld F.TIM_CTRL.IRIG_MODE != 2)).toNat := by
  show ∃ t, execIrigFrame f ago dt s = .next t ∧ _
  unfold execIrigFrame
  extract_lets u mode cf v utc tai stamp next _ w x y
  have hctrl : mode = s.fld F.TIM_CTRL.IRIG_MODE := State.fld_congr (s.sensed_reg dt 5 (by decide))
  have hruns : u.timRuns = true := (s.sensed_timRuns dt 5).trans hrun
  rw [← hctrl] at hmode hgood ⊢
  have hx : FrameKept w x := (FrameKept.refl w).utcEval
  have hy : FrameKept w y := FrameKept.ite (hx.sourceSample _ _ _) hx
  have hheld : y.tim.ppsHeld = none :=
    hy.edge.trans ((congrArg Tim.ppsHeld (u.bump_tim _)).trans ((s.sensed_ppsHeld dt 5).trans hheld))
  rw [if_neg (by simp [hruns, hmode]), if_neg (by simp [cf, hgood]), hheld]
  obtain ⟨hcount, hsecond, -⟩ := hy.tqEval
  exact ⟨_, rfl, counted_of_eq (counted_bump u _) (s.sensed_cnt dt 5 _) hcount, hsecond⟩

end

/-! ## Timers of the servo (R162, R164) -/

/-- A source that gives no sample in time puts the servo into HOLDOVER. -/
theorem exec_srcTimeout {s : State} {dt : Nat} (hrun : s.timRuns = true) (hservo : s.servo = 1 ∨ s.servo = 2)
    (hlate : s.fld F.TIM_SRC_TIMEOUT.S * 1200000000 ≤ s.now + dt - s.tim.freshAt) :
    exec (.srcTimeout dt) s = .next (s.elapse dt).enterHoldover.tqEval := by
  have hfresh : (s.elapse dt).tim.freshAt = s.tim.freshAt := by rw [State.elapse_tim]
  show execSrcTimeout dt s = _
  unfold execSrcTimeout
  dsimp only
  rw [State.elapse_timRuns, hrun, hfresh]
  refine if_pos ?_
  rw [Bool.true_and, Bool.and_eq_true, Bool.or_eq_true, decide_eq_true_eq, decide_eq_true_eq, decide_eq_true_eq]
  exact ⟨hservo, hlate⟩

/-- An armed step lapses after 60 s. -/
theorem exec_stepArmLapse {s : State} {dt : Nat} (harmed : s.flag F.TIM_STATUS.STEP_ARMED = true) :
    exec (.stepArmLapse dt) s = .next (if 72000000000 ≤ s.now + dt - s.tim.armedAt then (s.elapse dt).disarm else s.elapse dt) := by
  have harmed : (s.elapse dt).flag F.TIM_STATUS.STEP_ARMED = true := harmed
  have hat : (s.elapse dt).tim.armedAt = s.tim.armedAt := by rw [State.elapse_tim]
  show execStepArmLapse dt s = _
  unfold execStepArmLapse
  dsimp only
  rw [harmed, hat, Bool.true_and, apply_ite Host.Outcome.next]
  exact if_congr (by rw [decide_eq_true_eq]; rfl) rfl rfl

/-! ## The obligation -/

/-- Settles O38: edges of PPS, frames of IRIG-B, and the servo's two timers. -/
theorem timeSources : Obligations.TimeSources := by
  unfold Obligations.TimeSources
  intro s dt e stamp off
  refine ⟨fun hrun hheld => ?_, fun f ago hrun hmode hheld => ?_, fun hrun htracks hlate => ?_, fun harmed => ?_⟩
  · exact ⟨ppsEdge_bad hrun hheld rfl, ppsEdge_crossChecks hrun hheld rfl, fun sec => ppsEdge_refused hrun hheld rfl⟩
  · exact ⟨irigFrame_bad ago dt hrun hmode hheld, irigFrame_good ago dt hrun hmode hheld⟩
  · obtain ⟨hhold, hcount, -, htim⟩ := (s.elapse dt).enterHoldover_enters
    have hservo : s.servo ≠ 3 := by omega
    refine ⟨_, exec_srcTimeout hrun htracks hlate, (State.tqEval_servo _).trans hhold, ?_, ?_⟩
    · exact counted_of_eq (hcount hservo) rfl (State.tqEval_cnt _ _)
    · rw [State.tqEval_tim, htim]
  · refine ⟨_, exec_stepArmLapse harmed, ?_⟩
    split
    next h =>
      refine ⟨?_, State.fld_setFld_ne _ _ _ _ (by decide) (by decide), State.setFld_tim _ _ _⟩
      rw [decide_eq_false (Nat.not_lt.mpr h)]
      exact State.flag_setFld_same false (by decide) rfl
    next h =>
      refine ⟨?_, rfl, rfl⟩
      rw [decide_eq_true (Nat.lt_of_not_le h)]
      exact harmed

end Sys2Proof.Machine
end

section
/-!
SUPPORT. How an instruction of a core that executes ends: registers set, an exception raised, lanes of one vector register written.
-/

namespace Sys2Proof.Machine

open Sys2Proof.Safety

/-! ## The frame of a completed instruction -/

/-- The frame from a state with another core of the same number. -/
theorem retires_of_setCore {u t : State} {c : CoreId} {k0 k : Core} {lo n : Nat} (h : Retires (u.setCore c.val k0) t c k lo n) :
    Retires u t c k lo n := by
  refine ⟨h.core, fun d hd => ?_, h.memory, (Apart.setCore u c.val k0).trans h.apart⟩
  rw [h.others d hd, State.core_setCore, if_neg hd]

/-- The frame from a state that has yet to take a free value. -/
theorem retires_of_useFree {u t : State} {c : CoreId} {k : Core} {lo n : Nat} (h : Retires u.useFree t c k lo n) :
    Retires u t c k lo n := ⟨h.core, h.others, h.memory, (Apart.useFree u).trans h.apart⟩

/-! ## Completion and exception -/

/-- The instruction word as an EVAL (R386). -/
theorem wordEval_eq (w : Word) : wordEval w = w.setWidth 64 := by rw [wordEval, w64, BitVec.ofNat_toNat]

section

variable {s : State} {c : CoreId} {i : Instr} {word : Word} {cls : Nat} {body : State → InsRes}

/-- An instruction whose body completes in some state, seen from that state. -/
theorem gives_ok {u : State} (hx : Executes s c)
    (he : exec i s = .next (s.runIns c word cls body)) (hb : body s = .ok u) :
    Gives i s fun t => Retires u t c { u.core c.val with pc := (s.core c.val).pc + 4 } 0 0 := by
  refine ⟨_, he, ?_⟩
  have hret := completed_keeps (u.setPc c.val ((s.core c.val).pc + 4)) (s.core c.val) c (s.coreClk c.val) word cls
  rw [State.setPc, State.core_setCore_same] at hret
  rw [runIns_ok hx hb]
  exact retires_of_setCore hret

/-- An instruction whose body only sets its core's registers. -/
theorem gives_onCore {f : Core → Core} (hx : Executes s c) (he : exec i s = .next (s.runIns c word cls body))
    (hb : body s = s.onCore c f) :
    Gives i s fun t => Retires s t c { f (s.core c.val) with pc := (s.core c.val).pc + 4 } 0 0 := by
  obtain ⟨t, ht, hret⟩ := gives_ok hx he hb
  rw [State.core_setCore_same] at hret
  exact ⟨t, ht, retires_of_setCore hret⟩

/-- An instruction whose body raises an exception, in a state where only counts differ. -/
theorem gives_exc {u : State} {code : Nat} {ev : DWord} (hx : Executes s c) (he : exec i s = .next (s.runIns c word cls body))
    (hb : body s = .exc u code ev) : Gives i s fun t => t = u.excEntry c.val code ev :=
  ⟨_, he, runIns_exc hx hb⟩

/-! ## Lanes -/

theorem core_v_of_retires {t : State} {k : Core} {lo n : Nat} (h : Retires s t c k lo n) : (t.core c.val).v = k.v := by
  have hv := congrArg Core.v h.core
  exact hv

/-- An instruction whose body sets its core's registers, with what the lanes read afterwards: `k'` is the core it leaves, its lanes
apart. -/
theorem gives_lanes {f : Core → Core} {k' : Core} {lanes : Rg → Nat → Lane} (hx : Executes s c)
    (he : exec i s = .next (s.runIns c word cls body)) (hb : body s = s.onCore c f)
    (hf : f (s.core c.val) = { k' with v := (f (s.core c.val)).v })
    (hl : ∀ (r : Rg) (l : Nat), l < 8 → (f (s.core c.val)).lane r l = lanes r l) :
    Gives i s fun t => Retires s t c { k' with v := (t.core c.val).v, pc := (s.core c.val).pc + 4 } 0 0 ∧
      ∀ (r : Rg) (l : Nat), l < 8 → (t.core c.val).lane r l = lanes r l := by
  obtain ⟨t, ht, hret⟩ := gives_onCore hx he hb
  have hv := core_v_of_retires hret
  refine ⟨t, ht, ?_, fun r l h => ?_⟩
  · rw [hv]
    rw [hf] at hret
    exact hret
  · rw [← hl r l h, Core.lane, hv, Core.lane]

end

/-- A loop that writes at most its own lane of one register in each step: the other registers of the core stand, and each lane of that
register is the one written, else as before. -/
theorem lanes_foldl (d : Rg) (w : Core → Nat → Option Lane) (step : Core → Nat → Core)
    (hs : ∀ k l, step k l = match w k l with | some x => k.setLane d l x | none => k) (k : Core)
    (hw : ∀ l < 8, ∀ k', (∀ r, k'.lane r l = k.lane r l) → k'.p = k.p → k'.s = k.s → w k' l = w k l) :
    (List.range 8).foldl step k = { k with v := ((List.range 8).foldl step k).v } ∧
    ∀ (r : Rg) (l : Nat), l < 8 →
      ((List.range 8).foldl step k).lane r l = if r = d then (w k l).getD (k.lane r l) else k.lane r l := by
  have hflags : ∀ (L : List Nat) (k : Core), (L.foldl step k).fflags = k.fflags := by
    intro L
    induction L with
    | nil => exact fun _ => rfl
    | cons a t ih =>
      intro k
      rw [List.foldl_cons, ih, hs]
      cases w k a <;> rfl
  obtain ⟨hrest, hlane⟩ := lanes_fold d w (fun k _ => k.fflags) step (fun k l => by rw [hs]; cases w k l <;> rfl)
    (List.range 8) (fun l h => List.mem_range.mp h) List.nodup_range k k (fun l h => hw l (List.mem_range.mp h))
    (fun _ _ _ => rfl) rfl rfl
  refine ⟨?_, fun r l h => ?_⟩
  · rw [hflags] at hrest
    exact hrest
  · rw [hlane r l h]
    simp only [List.mem_range, h, and_true]

end Sys2Proof.Machine
end

section
/-!
Vector loads and stores (O8).
-/

namespace Sys2Proof.Machine

open Sys2Proof.Safety

/-- Byte `j` of a number in a list of little-endian bytes. -/
theorem leBytes_word (x : Word) {j : Nat} (h : j < 4) (d : Byte) : (leBytes 4 x.toNat).getD j d = x.extractLsb' (8 * j) 8 := by
  rw [leBytes_getD _ _ _ _ h]
  apply BitVec.eq_of_toNat_eq
  rw [BitVec.extractLsb'_toNat, BitVec.toNat_ofNat, Nat.shiftRight_eq_div_pow, ← pow_256]

/-- The lane at an address has the bytes of memory there, re below im (R411). -/
theorem State.laneAt_bytes (s : State) (a j : Nat) (h : j < 4) :
    (s.laneAt a).re.extractLsb' (8 * j) 8 = s.rdByte (a + j) ∧ (s.laneAt a).im.extractLsb' (8 * j) 8 = s.rdByte (a + 4 + j) :=
  ⟨s.rdLe_extract a 4 j h, s.rdLe_extract (a + 4) 4 j h⟩

theorem laneBytes_length (x : Lane) : (laneBytes x).length = 8 := by
  rw [laneBytes, List.length_append, leBytes_length, leBytes_length]

/-- The bytes of a lane: re below im. -/
theorem laneBytes_getD (x : Lane) {j : Nat} (h : j < 4) (d : Byte) :
    (laneBytes x).getD j d = x.re.extractLsb' (8 * j) 8 ∧ (laneBytes x).getD (4 + j) d = x.im.extractLsb' (8 * j) 8 := by
  have hlen := leBytes_length 4 x.re.toNat
  refine ⟨?_, ?_⟩
  · rw [laneBytes, List.getD_append _ _ _ _ (by omega), leBytes_word _ h]
  · rw [laneBytes, List.getD_append_right _ _ _ _ (by omega), hlen, Nat.add_sub_cancel_left, leBytes_word _ h]

/-- Element `j` of part `l` in a list joined from `n` parts of 8 elements. -/
theorem getD_flatMap_range (f : Nat → List Byte) (hf : ∀ l, (f l).length = 8) (n l j : Nat) (hl : l < n) (hj : j < 8) (d : Byte) :
    ((List.range n).flatMap f).getD (8 * l + j) d = (f l).getD j d := by
  have hlen : ∀ n, ((List.range n).flatMap f).length = 8 * n := fun n => by simp [List.length_flatMap, hf, Nat.mul_comm]
  induction n with
  | zero => omega
  | succ n ih =>
    rw [List.range_succ, List.flatMap_append, List.flatMap_singleton]
    by_cases h : l < n
    · rw [List.getD_append _ _ _ _ (by rw [hlen]; omega), ih h]
    · obtain rfl : l = n := by omega
      rw [List.getD_append_right _ _ _ _ (by rw [hlen]; omega), hlen, Nat.add_sub_cancel_left]

theorem effAddr_lanes (k : Core) (rb : Rg) (o : BitVec 12) : k.effAddr rb o 8 = (k.gs rb + o.signExtend 64 * 8).toNat := rfl

/-- The bytes VST stores. -/
theorem vstBytes_length (k : Core) (vt : Rg) : ((List.range 8).flatMap fun l => laneBytes (k.lane vt l)).length = 64 := by
  simp [List.length_flatMap, laneBytes_length]

section

variable {s : State} {c : CoreId} {vt rb : Rg} {o : BitVec 12} {a : Nat}

/-- A VLD that meets no fault writes the lanes it reads, all present. -/
theorem exec_vld_lanes (hx : Executes s c) (ha : (s.core c.val).effAddr rb o 8 = a) (h8 : a % 8 = 0) (hr : Reaches s c 0 a 64) :
    Gives (.vld c vt rb o) s fun t =>
      Retires s t c { s.core c.val with v := (t.core c.val).v, pc := (s.core c.val).pc + 4 } 0 0 ∧
      ∀ (r : Rg) (l : Nat), l < 8 →
        (t.core c.val).lane r l = if r = vt then s.laneAt (a + 8 * l) else (s.core c.val).lane r l := by
  have hf := s.dataFault_memory c (encode (.vld c vt rb o)) (vectorReach true) a h8 hr
  obtain ⟨hrest, hlane⟩ := lanes_foldl vt (fun _ l => some (s.laneAt (a + 8 * l)))
    (fun k l => k.setLane vt l (s.laneAt (a + 8 * l))) (fun _ _ => rfl) (s.core c.val) fun _ _ _ _ _ _ => rfl
  exact gives_lanes hx (show exec (.vld c vt rb o) s = _ from rfl) (by rw [ha, State.checked_of_none hf]) hrest hlane

/-- A VST that meets no fault stores the bytes of its lanes. -/
theorem exec_vst_bytes (hx : Executes s c) (ha : (s.core c.val).effAddr rb o 8 = a) (h8 : a % 8 = 0) (hr : Reaches s c 1 a 64) :
    Gives (.vst c vt rb o) s fun t => Retires s t c { s.core c.val with pc := (s.core c.val).pc + 4 } a 64 ∧
      ∀ x, ¬ InSample s c x →
        t.rdByte x = (s.wrBytes a ((List.range 8).flatMap fun l => laneBytes ((s.core c.val).lane vt l))).rdByte x := by
  subst ha
  have hf := s.dataFault_memory c (encode (.vst c vt rb o)) (vectorReach false) _ h8 hr
  have hst := retires_wrBytes s c ((s.core c.val).effAddr rb o 8)
    ((List.range 8).flatMap fun l => laneBytes ((s.core c.val).lane vt l)) ((s.core c.val).pc + 4) (s.core c.val) (s.coreClk c.val)
    (encode (.vst c vt rb o)) 2
  rw [vstBytes_length] at hst
  refine ⟨_, rfl, ?_⟩
  rw [runIns_ok hx (State.checked_of_none hf _)]
  exact hst

end

/-- A byte of the lane stored `8 l` above the address. -/
theorem rdByte_vstBytes (s : State) (k : Core) (vt : Rg) (a l j : Nat) (hl : l < 8) (hj : j < 8) :
    (s.wrBytes a ((List.range 8).flatMap fun l => laneBytes (k.lane vt l))).rdByte (a + 8 * l + j)
      = (laneBytes (k.lane vt l)).getD j memDefault := by
  rw [State.rdByte_wrBytes, vstBytes_length, if_pos (by omega), Nat.add_assoc, Nat.add_sub_cancel_left,
    getD_flatMap_range _ (fun l => laneBytes_length _) 8 l j hl hj]

/-- Settles O8: the access raises no exception; VLD writes the 8 lanes it reads, VST stores the bytes of its 8 lanes. -/
theorem vectorLoadStore : Obligations.VectorLoadStore := by
  unfold Obligations.VectorLoadStore
  intro s c vt rb o hx k a h8
  have ha : k.effAddr rb o 8 = a := effAddr_lanes k rb o
  refine ⟨fun hr => ?_, fun hr => ?_⟩
  · obtain ⟨t, ht, hret, hlane⟩ := exec_vld_lanes (vt := vt) hx ha h8 hr
    refine ⟨t, ht, hret, fun r l hl => ?_⟩
    rw [hlane r l hl]
    split
    · exact ⟨rfl, fun j hj => s.laneAt_bytes _ j hj⟩
    · rfl
  · obtain ⟨t, ht, hret, hmem⟩ := exec_vst_bytes (vt := vt) hx ha h8 hr
    refine ⟨t, ht, hret, fun l hl j hj => ?_⟩
    obtain ⟨hre, him⟩ := laneBytes_getD (k.lane vt l) hj memDefault
    refine ⟨fun hs => ?_, fun hs => ?_⟩
    · rw [hmem _ hs, rdByte_vstBytes s k vt a l j hl (by omega), hre]
    · rw [hmem _ hs, Nat.add_assoc _ 4 j, rdByte_vstBytes s k vt a l (4 + j) hl (by omega), him]

end Sys2Proof.Machine
end

section
/-!
Exceptions of data accesses (O10).
-/

namespace Sys2Proof.Machine

open Sys2Proof.Safety

/-! ## Words of an access -/

/-- `n` bytes from `a` touch the 64-bit word at `w`. -/
def Touches (a n w : Nat) : Prop := w % 8 = 0 ∧ a < w + 8 ∧ w < a + n

theorem mem_wordsOf_iff {a n w : Nat} : w ∈ wordsOf a n ↔ Touches a n w := by
  refine ⟨mem_wordsOf, fun ⟨h8, hlo, hhi⟩ => List.mem_map.mpr ⟨w / 8 - a / 8, List.mem_range.mpr ?_, ?_⟩⟩ <;> omega

theorem wordsOf_pairwise_lt (a n : Nat) : (wordsOf a n).Pairwise (· < ·) :=
  List.pairwise_map.mpr (List.pairwise_lt_range.imp fun h => by omega)

/-- In a rising list the first element with a property is the least one. -/
theorem find?_eq_some_of_least {l : List Nat} {p : Nat → Bool} {w : Nat} (hl : l.Pairwise (· < ·)) (hw : w ∈ l) (hp : p w = true)
    (hleast : ∀ v ∈ l, p v = true → w ≤ v) : l.find? p = some w := by
  obtain ⟨as, bs, rfl⟩ := List.append_of_mem hw
  obtain ⟨-, -, hrise⟩ := List.pairwise_append.mp hl
  refine List.find?_eq_some_iff_append.mpr ⟨hp, as, bs, rfl, fun v hv => ?_⟩
  rw [Bool.not_eq_true', Bool.eq_false_iff]
  exact fun h => Nat.not_le.mpr (hrise v hv w List.mem_cons_self) (hleast v (List.mem_append_left _ hv) h)

section

variable {a n : Nat} {p : Nat → Bool} {P : Nat → Prop} (hp : ∀ w, p w = true ↔ P w)

include hp

/-- The lowest word of an access with a property. -/
theorem find?_wordsOf_least {w : Nat} (hw : Touches a n w) (hP : P w) (hmin : ∀ v, Touches a n v → P v → w ≤ v) :
    (wordsOf a n).find? p = some w :=
  find?_eq_some_of_least (wordsOf_pairwise_lt a n) (mem_wordsOf_iff.mpr hw) ((hp w).mpr hP) fun v hv hpv =>
    hmin v (mem_wordsOf_iff.mp hv) ((hp v).mp hpv)

theorem find?_wordsOf_none (h : ∀ w, Touches a n w → ¬ P w) : (wordsOf a n).find? p = none :=
  List.find?_eq_none.mpr fun w hw hpw => h w (mem_wordsOf_iff.mp hw) ((hp w).mp hpw)

end

/-! ## Words that are barred -/

theorem Core.wordBarred_iff (k : Core) (perm w : Nat) :
    k.wordBarred perm w = true ↔ 1099511627776 ≤ w ∨ (k.pl = 0 ∧ k.permits w perm = false) := by
  simp [Core.wordBarred]

theorem busBarred_iff (c : Nat) (ctrl : Bool) (w : Nat) : busBarred c ctrl w = true ↔
    ¬ (isMemory w = true ∨ (ctrl = true ∧ isControl w = true)) ∨ (c ≠ 20 ∧ boundaryStart ≤ w ∧ w < sramEnd) := by
  simp only [busBarred, Bool.or_eq_true, Bool.not_eq_true', Bool.and_eq_true, bne_iff_ne, decide_eq_true_eq, and_assoc,
    ← Bool.not_eq_true]

/-! ## The checks in the order of R386 -/

section

variable {s : State} {c : Nat} {x : Reach} {a : Nat}

/-- A load that DET forbids in some word it touches. -/
theorem State.dataFault_det (word : Word) (hl : x.load = true) (hd : (s.core c).det = true)
    (hw : ∃ w ∈ wordsOf a x.size, detForbids (max w a) = true) : s.dataFault c word x a = some (0x05, wordEval word) := by
  have hany : (wordsOf a x.size).any (fun w => detForbids (max w a)) = true := List.any_eq_true.mpr hw
  simp [State.dataFault, hl, hd, hany]

variable {word : Word} (hdet : ¬ (x.load = true ∧ (s.core c).det = true ∧ ∃ w ∈ wordsOf a x.size, detForbids (max w a) = true))

include hdet

/-- Without a word that DET forbids the checks go on with the alignment. -/
theorem State.dataFault_of_not_det : s.dataFault c word x a =
    if a % x.align != 0 then some (0x06, w64 a) else
      match (wordsOf a x.size).find? ((s.core c).wordBarred x.perm) with
      | some w => some (0x07, w64 (max w a))
      | none =>
        match (wordsOf a x.size).find? (busBarred c x.ctrl) with
        | some w => some (x.bus, w64 (max w a))
        | none =>
          if x.perm = 0 && !isControl a then ((wordsOf a x.size).find? s.poisoned).map fun w => (0x09, w64 (max w a)) else none := by
  refine if_neg ?_
  rw [Bool.and_eq_true, Bool.and_eq_true, List.any_eq_true, and_assoc]
  exact hdet

theorem State.dataFault_misaligned (ha : a % x.align ≠ 0) : s.dataFault c word x a = some (0x06, w64 a) := by
  rw [State.dataFault_of_not_det hdet, if_pos (bne_iff_ne.mpr ha)]

variable (ha : a % x.align = 0)

include ha

/-- An aligned access whose lowest barred word is `w`. -/
theorem State.dataFault_barred {w : Nat} (hw : (wordsOf a x.size).find? ((s.core c).wordBarred x.perm) = some w) :
    s.dataFault c word x a = some (0x07, w64 (max w a)) := by
  rw [State.dataFault_of_not_det hdet, if_neg (by simp [ha]), hw]

variable (hbar : (wordsOf a x.size).find? ((s.core c).wordBarred x.perm) = none)

include hbar

/-- A permitted access whose lowest word with a bus error is `w`. -/
theorem State.dataFault_bus {w : Nat} (hw : (wordsOf a x.size).find? (busBarred c x.ctrl) = some w) :
    s.dataFault c word x a = some (x.bus, w64 (max w a)) := by
  rw [State.dataFault_of_not_det hdet, if_neg (by simp [ha]), hbar, hw]

/-- A read of memory whose lowest poisoned word is `w`. -/
theorem State.dataFault_poison (hbus : (wordsOf a x.size).find? (busBarred c x.ctrl) = none) (hp : x.perm = 0)
    (hc : isControl a = false) {w : Nat} (hw : (wordsOf a x.size).find? s.poisoned = some w) :
    s.dataFault c word x a = some (0x09, w64 (max w a)) := by
  rw [State.dataFault_of_not_det hdet, if_neg (by simp [ha]), hbar, hbus]
  simp [hp, hc, hw]

end

/-! ## Instructions that reach memory -/

/-- Every such instruction checks its access first; what its body does then is left open. -/
theorem exec_of_accessOp {i : Instr} {c : CoreId} {x : Reach} {f : Core → DWord} (h : accessOp i = some (c, x, f)) :
    x.bus ≠ 0x09 ∧ ∃ (cls : Nat) (rest : State → InsRes), ∀ s, exec i s = .next (s.runIns c (encode i) cls fun s =>
      s.checked c.val (encode i) x (f (s.core c.val)).toNat (rest s)) := by
  unfold accessOp at h
  split at h
  case h_7 =>
    split at h
    next hload =>
      cases h
      exact ⟨by simp [scalarReach], 2, _, exec_of_loadOp hload⟩
    next hstore _ =>
      cases h
      exact ⟨by simp [scalarReach], 2, _, exec_of_storeOp hstore⟩
    next => cases h
  all_goals
    cases h
    exact ⟨by decide, _, _, fun _ => rfl⟩

section

variable {i : Instr} {c : CoreId} {x : Reach} {f : Core → DWord} {s : State} {ev : DWord}

/-- An access that a check stops raises the exception and leaves the unit as it was. -/
theorem exec_accessOp_exc {code : Nat} (h : accessOp i = some (c, x, f)) (hx : Executes s c) (hcode : code ≠ 0x09)
    (hf : s.dataFault c.val (encode i) x (f (s.core c.val)).toNat = some (code, ev)) :
    Gives i s fun t => t = s.excEntry c.val code ev := by
  obtain ⟨-, cls, rest, he⟩ := exec_of_accessOp h
  refine gives_exc hx (he s) ?_
  rw [State.checked, hf]
  exact congrArg (InsRes.exc · code ev) (if_neg hcode)

/-- An access that reads a poisoned word counts it (R520). -/
theorem exec_accessOp_poison (h : accessOp i = some (c, x, f)) (hx : Executes s c)
    (hf : s.dataFault c.val (encode i) x (f (s.core c.val)).toNat = some (0x09, ev)) :
    Gives i s fun t => t = (s.bump R.ERR_U_POISON_READS).excEntry c.val 0x09 ev := by
  obtain ⟨-, cls, rest, he⟩ := exec_of_accessOp h
  refine gives_exc hx (he s) ?_
  rw [State.checked, hf]
  rfl

end

/-- Settles O10: the first check of R386 that an access does not pass gives the exception. -/
theorem accessExceptions : Obligations.AccessExceptions := by
  unfold Obligations.AccessExceptions
  intro s i c x f hi hx k a stays bars away barred
  have hbars (w : Nat) : k.wordBarred x.perm w = true ↔ bars w := k.wordBarred_iff x.perm w
  have haway (w : Nat) : busBarred c.val x.ctrl w = true ↔ away w := busBarred_iff c.val x.ctrl w
  have hbarred : (x.load = true ∧ k.det = true ∧ ∃ w ∈ wordsOf a x.size, detForbids (max w a) = true) ↔ barred := by
    simp only [mem_wordsOf_iff]
    exact Iff.rfl
  refine ⟨fun hdet => ?_, fun hdet => ?_⟩
  · obtain ⟨hl, hd, hw⟩ := hbarred.mpr hdet
    rw [← wordEval_eq]
    exact exec_accessOp_exc hi hx (by decide) (State.dataFault_det (encode i) hl hd hw)
  rw [← hbarred] at hdet
  refine ⟨fun ha => ?_, fun ha => ⟨fun w hw hb hmin => ?_, fun hpermits => ?_⟩⟩
  · have hev : w64 a = f k := (BitVec.ofNat_toNat 64 (f k)).trans (BitVec.setWidth_eq (f k))
    rw [← hev]
    exact exec_accessOp_exc hi hx (by decide) (State.dataFault_misaligned hdet ha)
  · exact exec_accessOp_exc hi hx (by decide) (State.dataFault_barred hdet ha (find?_wordsOf_least hbars hw hb hmin))
  have hbar := find?_wordsOf_none hbars hpermits
  refine ⟨fun w hw hb hmin => ?_, fun hreaches hp hc w hw hb hmin => ?_⟩
  · obtain ⟨hbus, -⟩ := exec_of_accessOp hi
    exact exec_accessOp_exc hi hx hbus (State.dataFault_bus hdet ha hbar (find?_wordsOf_least haway hw hb hmin))
  · exact exec_accessOp_poison hi hx (State.dataFault_poison hdet ha hbar (find?_wordsOf_none haway hreaches) hp hc
      (find?_wordsOf_least (fun _ => Iff.rfl) hw hb hmin))

end Sys2Proof.Machine
end

section
/-!
Compares, predicates and lane moves (O12).
-/

namespace Sys2Proof.Machine

open Sys2Proof.Safety

/-! ## Predicates -/

theorem testBit_b2n (b : Bool) (i : Nat) : (b2n b).testBit i = (decide (i = 0) && b) := by
  cases b <;> cases i <;> simp [b2n, Nat.testBit_succ]

/-- The number with bits `f 0` to `f (n - 1)`. -/
theorem testBit_bitSum (f : Nat → Bool) (n : Nat) :
    let a := (List.range n).foldl (fun a l => a + b2n (f l) * 2 ^ l) 0
    a < 2 ^ n ∧ ∀ i, a.testBit i = (decide (i < n) && f i) := by
  induction n with
  | zero => simp
  | succ n ih =>
    obtain ⟨hlt, hbit⟩ := ih
    rw [List.range_succ, List.foldl_append, List.foldl_cons, List.foldl_nil]
    generalize (List.range n).foldl (fun a l => a + b2n (f l) * 2 ^ l) 0 = a at *
    have hb : b2n (f n) ≤ 1 := by cases f n <;> decide
    refine ⟨by rw [Nat.pow_succ]; nlinarith, fun i => ?_⟩
    rw [Nat.add_comm, Nat.mul_comm, Nat.testBit_two_pow_mul_add _ hlt]
    split
    next h => simp [hbit, h, Nat.lt_succ_of_lt h]
    next h =>
      rw [testBit_b2n]
      by_cases hi : i = n
      · simp [hi]
      · simp [show i - n ≠ 0 by omega, show ¬ i < n + 1 by omega]

/-- Bit `l` of a predicate made from a function of the lane. -/
theorem predOf_getLsbD (f : Nat → Bool) {l : Nat} (h : l < 8) : (predOf f).getLsbD l = f l := by
  rw [predOf, BitVec.getLsbD_ofNat, (testBit_bitSum f 8).2]
  simp [h]

theorem Core.prBit_eq (k : Core) (p : Pr) (l : Nat) : k.prBit p l = (k.pr p).getLsbD l := rfl

theorem Core.prBit_congr {k k' : Core} (h : k'.p = k.p) (p : Pr) (l : Nat) : k'.prBit p l = k.prBit p l := by
  rw [Core.prBit, Core.pr, h]
  rfl

/-- Every instruction of `predOp` writes one predicate register, with the bits given. -/
theorem exec_of_predOp {i : Instr} {c : CoreId} {d : Pr} {f : Core → Nat → Bool} (h : predOp i = some (c, d, f)) :
    ∃ v : Core → Byte, (∀ k, ∀ l < 8, (v k).getLsbD l = f k l) ∧
      ∀ s, exec i s = .next (s.runIns c (encode i) 3 fun s => s.onCore c fun k => k.setPr d (v k)) := by
  unfold predOp at h
  split at h <;> cases h
  case h_1 | h_2 | h_3 | h_4 => exact ⟨_, fun k l hl => predOf_getLsbD _ hl, fun s => rfl⟩
  case h_5 => exact ⟨_, fun k l hl => BitVec.getLsbD_and, fun s => rfl⟩
  case h_6 => exact ⟨_, fun k l hl => BitVec.getLsbD_or, fun s => rfl⟩
  case h_7 => exact ⟨_, fun k l hl => BitVec.getLsbD_xor, fun s => rfl⟩
  case h_8 => exact ⟨fun k => k.pr _ &&& ~~~(k.pr _), fun k l hl => by simp [hl], fun s => rfl⟩
  case h_9 => exact ⟨fun k => BitVec.ofNat 8 (k.gs _).toNat, fun k l hl => by simp [hl], fun s => rfl⟩

theorem core_p_of_retires {s t : State} {c : CoreId} {k : Core} {lo n : Nat} (h : Retires s t c k lo n) :
    (t.core c.val).p = k.p := by
  have hp := congrArg Core.p h.core
  exact hp

/-- A predicate written changes the predicate registers alone. -/
theorem Core.setPr_eq (k : Core) (d : Pr) (v : Byte) : k.setPr d v = { k with p := (k.setPr d v).p } := by
  unfold Core.setPr
  split <;> rfl

theorem predicateResults : PredicateResults := by
  intro s c hx
  refine ⟨fun i d f hi => ?_, fun rd a => ?_⟩
  · obtain ⟨v, hv, he⟩ := exec_of_predOp hi
    obtain ⟨t, ht, hret⟩ := gives_onCore hx (he s) rfl
    have hp := core_p_of_retires hret
    have hpr (q : Pr) : (t.core c.val).pr q = ((s.core c.val).setPr d (v (s.core c.val))).pr q := by
      rw [Core.pr, hp, Core.pr]
    refine ⟨t, ht, ?_, rfl, fun hd l hl => ?_, fun q hq => ?_⟩
    · rw [hp]
      rw [Core.setPr_eq] at hret
      exact hret
    · rw [hpr, Core.pr_setPr, if_neg hd, if_pos rfl, hv _ l hl]
    · rw [hpr, Core.pr_setPr, if_neg hq]
      split
      next h => rw [h]; rfl
      next => rfl
  · have hw : w64 ((s.core c.val).pr a).toNat = ((s.core c.val).pr a).setWidth 64 := BitVec.ofNat_toNat _ _
    obtain ⟨t, ht, hret⟩ := gives_onCore (i := .pmovs c rd a) hx rfl rfl
    rw [hw] at hret
    exact ⟨t, ht, hret⟩

/-! ## Lanes and scalars -/

/-- A present lane from 64 bits: re low. -/
theorem laneOf_eq (v : DWord) : laneOf v = ⟨v.setWidth 32, v.extractLsb' 32 32, true⟩ := by
  have him : w32 (v.toNat / 2 ^ 32) = v.extractLsb' 32 32 := by
    rw [BitVec.extractLsb', Nat.shiftRight_eq_div_pow]
    rfl
  rw [laneOf, him, w32, BitVec.ofNat_toNat]

/-- The 64 bits of a lane: im above re. -/
theorem Lane.bits_eq (x : Lane) : x.bits = x.im ++ x.re := by
  apply BitVec.eq_of_toNat_eq
  have hre := x.re.isLt
  have him := x.im.isLt
  rw [Lane.bits, w64, BitVec.toNat_ofNat, Nat.mod_eq_of_lt (by omega), BitVec.toNat_append, Nat.shiftLeft_eq,
    ← Nat.mul_comm (2 ^ 32), ← Nat.two_pow_add_eq_or_of_lt hre, Nat.add_comm]

/-- A loop over the enabled lanes. -/
theorem Core.putLanes_writes (k : Core) (d : Rg) (g : Pr) (f : Nat → Lane) :
    k.putLanes d g f = { k with v := (k.putLanes d g f).v } ∧ ∀ (r : Rg) (l : Nat), l < 8 → (k.putLanes d g f).lane r l =
      if r = d then (if (k.pr g).getLsbD l then some (f l) else none).getD (k.lane d l) else k.lane r l := by
  obtain ⟨hrest, hlane⟩ := lanes_foldl d (fun k l => if k.prBit g l then some (f l) else none)
    (fun k l => if k.prBit g l then k.setLane d l (f l) else k) (fun k l => by cases k.prBit g l <;> rfl) k
    (fun l _ k' _ hp _ => by rw [Core.prBit_congr hp])
  refine ⟨hrest, fun r l hl => (hlane r l hl).trans ?_⟩
  split
  next h => rw [h, Core.prBit_eq]
  next => rfl

theorem Core.setLane_writes (k : Core) (d : Rg) {n : Nat} (hn : n < 8) (x : Lane) (r : Rg) (l : Nat) (hl : l < 8) :
    (k.setLane d n x).lane r l = if r = d then (if l = n then some x else none).getD (k.lane d l) else k.lane r l := by
  rw [Core.lane_setLane k d r n l x hn hl]
  by_cases hr : r = d <;> by_cases h : l = n <;> simp [hr, h]

/-- Every instruction of `laneOp` writes lanes of one vector register, as given. -/
theorem exec_of_laneOp {i : Instr} {c : CoreId} {d : Rg} {f : Core → Nat → Option Lane} (h : laneOp i = some (c, d, f)) :
    ∃ m : Core → Core, (∀ s, exec i s = .next (s.runIns c (encode i) 3 fun s => s.onCore c m)) ∧
      ∀ k, m k = { k with v := (m k).v } ∧
        ∀ (r : Rg) (l : Nat), l < 8 → (m k).lane r l = if r = d then (f k l).getD (k.lane d l) else k.lane r l := by
  unfold laneOp at h
  split at h <;> cases h
  case h_1 =>
    refine ⟨_, fun s => rfl, fun k => ?_⟩
    simp only [← laneOf_eq]
    exact k.putLanes_writes _ _ _
  case h_2 n =>
    refine ⟨_, fun s => rfl, fun k => ⟨rfl, ?_⟩⟩
    simp only [← laneOf_eq]
    exact k.setLane_writes _ n.isLt _
  case h_3 => exact ⟨_, fun s => rfl, fun k => k.putLanes_writes _ _ _⟩

theorem laneMoves : LaneMoves := by
  intro s c hx k
  refine ⟨fun i d f hi => ?_, fun rd va n g hg => ?_, fun rd va n => ?_⟩
  · obtain ⟨m, he, hm⟩ := exec_of_laneOp hi
    obtain ⟨hrest, hlane⟩ := hm k
    exact gives_lanes hx (he s) rfl hrest hlane
  · simp only [← Lane.bits_eq]
    exact gives_onCore (i := .vext c rd va n g) hx rfl (if_neg hg)
  · rw [← wordEval_eq]
    exact gives_exc (i := .vext c rd va n 0) hx rfl (if_pos rfl)

/-- Settles O12: each instruction only sets registers of its core, and the value set has the bits or lanes given. -/
theorem predicatesAndMoves : Obligations.PredicatesAndMoves := ⟨predicateResults, laneMoves⟩

end Sys2Proof.Machine
end

section
/-!
Reductions (O13).
-/

namespace Sys2Proof.Machine

open Sys2Proof.Safety

/-! ## The lanes combined -/

/-- One step of a reduction: the lane rounded, and the conditions so far (R377). -/
def reduceStep (f : Lane → Lane → LaneRes) (r : Lane × Word) (x : Lane) : Lane × Word :=
  (⟨BitVec.ofNat 32 (f r.1 x).re, BitVec.ofNat 32 (f r.1 x).im, true⟩, r.2 ||| BitVec.ofNat 32 (f r.1 x).flags)

/-- The lane and the conditions of a reduction of a list of lanes, absent where there are none. -/
def reduction (first : Lane → Lane) (f : Lane → Lane → LaneRes) : List Lane → Lane × Word
  | [] => (laneAbsent, 0)
  | x :: l => l.foldl (reduceStep f) (first x, 0)

theorem reduceFrom_eq (f : Lane → Lane → LaneRes) (l : List Lane) (a : Lane) (fl : Nat) :
    ((reduceFrom f a fl l).1, w32 (reduceFrom f a fl l).2) = l.foldl (reduceStep f) (a, w32 fl) := by
  induction l generalizing a fl with
  | nil => rfl
  | cons x t ih =>
    have hstep : reduceStep f (a, w32 fl) x = (⟨w32 (f a x).re, w32 (f a x).im, true⟩, w32 (fl ||| (f a x).flags)) :=
      congrArg (Prod.mk _) BitVec.ofNat_or.symm
    rw [reduceFrom, ih, List.foldl_cons, hstep]

/-! ## The registers written -/

/-- The core after a reduction: lane 0 and the conditions `r`, lanes 1 to 7 absent, and the count `n`. -/
def Core.reduceTo (k : Core) (d b : Rg) (n : Nat) (r : Lane × Word) : Core :=
  let k1 := (List.range 8).foldl (fun k l => k.setLane d l (if l = 0 then r.1 else laneAbsent)) k
  { k1 with fflags := k1.fflags ||| r.2 }.setGs b (BitVec.ofNat 64 n)

theorem Core.reduceTo_writes (k : Core) (d b : Rg) (n : Nat) (r : Lane × Word) :
    k.reduceTo d b n r =
        { k.setGs b (BitVec.ofNat 64 n) with fflags := k.fflags ||| r.2, v := (k.reduceTo d b n r).v } ∧
      ∀ (q : Rg) (l : Nat), l < 8 →
        (k.reduceTo d b n r).lane q l = if q = d then (if l = 0 then r.1 else laneAbsent) else k.lane q l := by
  obtain ⟨hrest, hlane⟩ := lanes_foldl d (fun _ l => some (if l = 0 then r.1 else laneAbsent))
    (fun k l => k.setLane d l (if l = 0 then r.1 else laneAbsent)) (fun _ _ => rfl) k fun _ _ _ _ _ _ => rfl
  unfold Core.reduceTo
  generalize (List.range 8).foldl (fun k l => k.setLane d l (if l = 0 then r.1 else laneAbsent)) k = k1 at *
  refine ⟨?_, fun q l hl => ?_⟩
  · rw [hrest]
    unfold Core.setGs
    split <;> rfl
  · rw [← Option.getD_some (a := if l = 0 then r.1 else laneAbsent) (b := k.lane q l), ← hlane q l hl]
    unfold Core.setGs
    split <;> rfl

/-- Every reduction combines its lanes as `reduction` does and writes the result. -/
theorem exec_of_reduceOp {i : Instr} {c : CoreId} {d a b : Rg} {g : Pr} {first : Lane → Lane} {f : Lane → Lane → LaneRes}
    (h : reduceOp i = some (c, d, a, b, g, first, f)) (s : State) :
    exec i s = .next (s.runIns c (encode i) 3 fun s => s.onCore c fun k =>
      k.reduceTo d b (k.combined a g).length (reduction first f (k.combined a g))) := by
  have hreduce : exec i s = s.reduce c i d a b g first f := by
    unfold reduceOp at h
    split at h <;> cases h <;> rfl
  rw [hreduce]
  refine congrArg (fun m => Host.Outcome.next (s.runIns c (encode i) 3 fun s => s.onCore c m)) (funext fun k => ?_)
  dsimp only
  cases k.combined a g with
  | nil => rfl
  | cons x l =>
    have hr : reduction first f (x :: l) = ((reduceFrom f (first x) 0 l).1, w32 (reduceFrom f (first x) 0 l).2) :=
      (reduceFrom_eq f l (first x) 0).symm
    rw [hr]
    rfl

/-- Settles O13: the loop of the rule is that of the model, and the lanes, the conditions and the count are all it writes. -/
theorem reductions : Obligations.Reductions := by
  unfold Obligations.Reductions
  intro s i c d a b g first f hi hx k xs step r
  have hr : reduction first f xs = r := by
    clear_value xs
    cases xs <;> rfl
  obtain ⟨hrest, hlane⟩ := k.reduceTo_writes d b xs.length (reduction first f xs)
  rw [← hr]
  exact gives_lanes (k' := { k.setGs b (BitVec.ofNat 64 xs.length) with fflags := k.fflags ||| (reduction first f xs).2 }) hx
    (exec_of_reduceOp hi s) rfl hrest hlane

end Sys2Proof.Machine
end

section
/-!
The bound Set (O14).
-/

namespace Sys2Proof.Machine

open Sys2Proof.Safety

/-! ## The lanes of SETLD -/

/-- A lane of SETLD written where it is enabled. -/
def Core.setldStep (k0 : Core) (d : Rg) (g : Pr) (x : Nat → Lane) (k : Core) (l : Nat) : Core :=
  if k0.prBit g l then k.setLane d l (x l) else k

/-- With no bar on the way, SETLD writes each enabled lane. -/
theorem State.setLanes_inr {s : State} {k0 : Core} {d : Rg} {g : Pr} {a : Nat} {x : Nat → Lane} (L : List Nat) (k : Core)
    (h : ∀ l ∈ L, k0.prBit g l = true → s.setLane k0 (s.rdLe (a + 4 * l) 4) = .inr (x l)) :
    s.setLanes d g k0 a L k = .inr (L.foldl (k0.setldStep d g x) k) := by
  induction L generalizing k with
  | nil => rfl
  | cons l t ih =>
    have ht := fun m hm => h m (List.mem_cons_of_mem l hm)
    rw [State.setLanes, List.foldl_cons, Core.setldStep]
    split
    next hg =>
      rw [h l List.mem_cons_self hg]
      exact ih _ ht
    next => exact ih _ ht

/-- The first enabled lane that meets a bar ends SETLD with it. -/
theorem State.setLanes_inl {s : State} {k0 : Core} {d : Rg} {g : Pr} {a l : Nat} {b : SetBar} (hg : k0.prBit g l = true)
    (hb : s.setLane k0 (s.rdLe (a + 4 * l) 4) = .inl b) (n m : Nat) (k : Core) (hm : m ≤ l) (hl : l < m + n)
    (hbefore : ∀ j < l, k0.prBit g j = true → ∃ x, s.setLane k0 (s.rdLe (a + 4 * j) 4) = .inr x) :
    s.setLanes d g k0 a (List.range' m n) k = .inl b := by
  induction n generalizing m k with
  | zero => omega
  | succ n ih =>
    rw [List.range'_succ, State.setLanes]
    by_cases h : m = l
    · rw [h, if_pos hg, hb]
    · split
      next hgm =>
        obtain ⟨x, hx⟩ := hbefore m (by omega) hgm
        rw [hx]
        exact ih (m + 1) _ (by omega) (by omega)
      next => exact ih (m + 1) _ (by omega) (by omega)

/-- The core after a SETLD: the enabled lanes of one register are written, and nothing else. -/
theorem Core.setldStep_writes (k : Core) (d : Rg) (g : Pr) (x : Nat → Lane) :
    (List.range 8).foldl (k.setldStep d g x) k = { k with v := ((List.range 8).foldl (k.setldStep d g x) k).v } ∧
    ∀ (r : Rg) (l : Nat), l < 8 → ((List.range 8).foldl (k.setldStep d g x) k).lane r l =
      if r = d ∧ (k.pr g).getLsbD l = true then x l else k.lane r l := by
  obtain ⟨hrest, hlane⟩ := lanes_foldl d (fun _ l => if k.prBit g l then some (x l) else none) (k.setldStep d g x)
    (fun k' l => by rw [Core.setldStep]; split <;> rfl) k fun _ _ _ _ _ _ => rfl
  refine ⟨hrest, fun r l hl => ?_⟩
  rw [hlane r l hl, Core.prBit_eq]
  by_cases hr : r = d <;> cases (k.pr g).getLsbD l <;> simp [hr]

/-! ## SETQ and SETLD -/

/-- What SETQ gives for a stream's slot, or for a stream that is no member (R422). -/
def State.slotSummary (s : State) (k : Core) : Option Nat → DWord
  | none => 0
  | some p => w64 (s.slotWord k p)

section

variable {s : State} {c : CoreId} (hx : Executes s c) {sd sa : Rg}

include hx

/-- What bars the bound record, or the way to the stream's slot, ends SETQ (R423). -/
theorem exec_setq_barred {b : SetBar} (h : s.setBar (s.core c.val) = some b ∨
      (s.setBar (s.core c.val) = none ∧ s.boundSlot (s.core c.val) (((s.core c.val).gs sa).toNat % 2 ^ 14) = .inl b))
    {u : State} {code : Nat} {ev : DWord} (he : s.setExc (s.core c.val) b = .exc u code ev) :
    Gives (.setq c sd sa) s fun t => t = u.excEntry c.val code ev := by
  refine gives_exc (i := .setq c sd sa) hx rfl (Eq.trans ?_ he)
  obtain h | ⟨h, hslot⟩ := h
  · simp only [h]
  · simp only [h, hslot]

/-- SETQ gives the slot's summary, zero where the stream is no member (R422). -/
theorem exec_setq_slot {o : Option Nat} (h : s.setBar (s.core c.val) = none)
    (hslot : s.boundSlot (s.core c.val) (((s.core c.val).gs sa).toNat % 2 ^ 14) = .inr o) :
    Gives (.setq c sd sa) s fun t => Retires s t c { (s.core c.val).setGs sd
      (s.slotSummary (s.core c.val) o) with pc := (s.core c.val).pc + 4 } 0 0 := by
  refine gives_onCore (i := .setq c sd sa) (f := fun k => k.setGs sd (s.slotSummary k o)) hx rfl ?_
  cases o <;> simp only [h, hslot] <;> rfl

variable {g : Pr} {a : Nat} (hgs : ((s.core c.val).gs sa).toNat = a) (ha : a % 32 = 0) (hr : Reaches s c 0 a 32)

include hgs ha hr

/-- What bars the bound record, or a lane on the way, ends SETLD (R423). -/
theorem exec_setld_barred {b : SetBar} (h : s.setBar (s.core c.val) = some b ∨
      (s.setBar (s.core c.val) = none ∧ s.setLanes sd g (s.core c.val) a (List.range 8) (s.core c.val) = .inl b))
    {u : State} {code : Nat} {ev : DWord} (he : s.setExc (s.core c.val) b = .exc u code ev) :
    Gives (.setld c sd sa g) s fun t => t = u.excEntry c.val code ev := by
  have hf := s.dataFault_memory c (encode (.setld c sd sa g)) descReach a ha hr
  refine gives_exc (i := .setld c sd sa g) hx rfl (Eq.trans ?_ he)
  obtain h | ⟨h, hlanes⟩ := h
  · simp only [hgs, State.checked_of_none hf, h]
  · simp only [hgs, State.checked_of_none hf, h, hlanes]

/-- SETLD writes each enabled lane from its descriptor (R421). -/
theorem exec_setld_lanes (h : s.setBar (s.core c.val) = none) {x : Nat → Lane}
    (hlanes : s.setLanes sd g (s.core c.val) a (List.range 8) (s.core c.val) =
      .inr ((List.range 8).foldl ((s.core c.val).setldStep sd g x) (s.core c.val))) :
    Gives (.setld c sd sa g) s fun t =>
      Retires s t c { s.core c.val with v := (t.core c.val).v, pc := (s.core c.val).pc + 4 } 0 0 ∧
      ∀ (r : Rg) (l : Nat), l < 8 → (t.core c.val).lane r l =
        if r = sd ∧ ((s.core c.val).pr g).getLsbD l = true then x l else (s.core c.val).lane r l := by
  have hf := s.dataFault_memory c (encode (.setld c sd sa g)) descReach a ha hr
  obtain ⟨hrest, hlane⟩ := (s.core c.val).setldStep_writes sd g x
  refine gives_lanes (i := .setld c sd sa g) (f := fun k => (List.range 8).foldl (k.setldStep sd g x) k) hx rfl ?_ hrest hlane
  simp only [hgs, State.checked_of_none hf, h, hlanes]
  rfl

end

/-- Settles O14: a bar gives its exception; else SETQ sets a scalar and SETLD the enabled lanes of a vector register. -/
theorem setAccess : Obligations.SetAccess := by
  unfold Obligations.SetAccess
  intro s c hx k
  refine ⟨fun rd ra => ⟨fun h => ?_, fun p h => ?_, fun h o hslot => ?_⟩,
    fun vd ra g ha hr => ⟨fun h => ?_, fun p h => ?_, fun h x hlanes => ?_⟩⟩
  · exact exec_setq_barred hx (.inl h) rfl
  · exact exec_setq_barred hx h rfl
  · cases o <;> exact exec_setq_slot hx h hslot
  · exact exec_setld_barred hx rfl ha hr (.inl h) rfl
  · refine exec_setld_barred hx rfl ha hr (h.imp_right fun ⟨hbar, l, hl, hg, hbad, hbefore⟩ => ⟨hbar, ?_⟩) rfl
    rw [List.range_eq_range']
    exact State.setLanes_inl hg hbad 8 0 k (Nat.zero_le l) (by omega) hbefore
  · exact exec_setld_lanes hx rfl ha hr h (State.setLanes_inr (List.range 8) k fun l hl => hlanes l (List.mem_range.mp hl))

end Sys2Proof.Machine
end

section
/-!
Control words (O17).
-/

namespace Sys2Proof.Machine

open Sys2Proof.Safety

/-! ## The binding of a Set -/

theorem State.rdBytes_congr {s t : State} (h : t.mem = s.mem) (a n : Nat) : t.rdBytes a n = s.rdBytes a n := by
  induction n generalizing a with
  | zero => rfl
  | succ n ih => rw [State.rdBytes, State.rdBytes, ih, State.rdByte, State.rdByte, h]

theorem State.rdLe_congr {s t : State} (h : t.mem = s.mem) (a n : Nat) : t.rdLe a n = s.rdLe a n :=
  congrArg leNat (State.rdBytes_congr h a n)

theorem State.core_bump (s : State) (k c : Nat) : (s.bump k).core c = s.core c := by rw [State.core, State.bump_cores, State.core]

/-- The state in which a Set is bound: a poisoned word of its header has been counted (R520). -/
def State.headerRead (s : State) (v : Nat) : State :=
  if s.poisoned v || s.poisoned (v + 0x10) then s.bump R.ERR_U_POISON_READS else s

theorem State.headerRead_core (s : State) (v c : Nat) : (s.headerRead v).core c = s.core c := by
  unfold State.headerRead
  split
  · exact s.core_bump _ c
  · rfl

theorem State.headerRead_err (s : State) (v : Nat) : (s.headerRead v).err = s.err := by
  unfold State.headerRead
  split
  · exact s.bump_err _
  · rfl

theorem State.headerRead_mem (s : State) (v : Nat) : (s.headerRead v).mem = s.mem := by
  unfold State.headerRead
  split
  · exact s.bump_mem _
  · rfl

/-- The Grove of a bound Set: that of its header, or of the ring where the word is poisoned (log 31). -/
def State.headerGrove (s : State) (v g : Nat) : Nat := if s.poisoned (v + 0x10) then g else (s.rdByte (v + 0x14)).toNat

/-- A write of SETBASE with the address of no record (R432). -/
theorem State.setbaseWrite_none {s : State} {v : Nat} (c : CoreId) (h : s.recordGrove v = none) :
    s.setbaseWrite c v = .exc s 0x0A (s.core c.val).setbase := by
  rw [State.setbaseWrite, h]

/-- A write of SETBASE with the address of a record binds its Set: TTAG is the header's where that word is sound, else a free value,
which is then taken. -/
theorem State.setbaseWrite_some {s : State} {v g : Nat} (c : CoreId) (h : s.recordGrove v = some g) :
    ∃ (u : State) (tt : Nat), (u = s.headerRead v ∨ u = (s.headerRead v).useFree) ∧ (s.poisoned v = false → tt = s.rdLe v 8) ∧
      s.setbaseWrite c v = u.onCore c fun k => k.bind v tt (s.headerGrove v g) := by
  have hp : (s.headerRead v).poisoned v = s.poisoned v := State.poisoned_congr (s.headerRead_err v) v
  have hwrite : s.setbaseWrite c v = if (s.headerRead v).poisoned v
      then (s.headerRead v).useFree.onCore c fun k => k.bind v (s.headerRead v).freeVal.toNat (s.headerGrove v g)
      else (s.headerRead v).onCore c fun k => k.bind v ((s.headerRead v).rdLe v 8) (s.headerGrove v g) := by
    rw [State.setbaseWrite, h]
    rfl
  rw [hp] at hwrite
  cases hv : s.poisoned v with
  | true => exact ⟨_, _, .inr rfl, by simp, hwrite.trans (if_pos hv)⟩
  | false =>
    refine ⟨_, _, .inl rfl, fun _ => State.rdLe_congr (s.headerRead_mem v) v 8, hwrite.trans (if_neg ?_)⟩
    rw [hv]
    exact Bool.false_ne_true

/-- The core's registers after a binding. -/
theorem Core.bind_eq (k : Core) (v : DWord) (tt grove : Nat) : k.bind v.toNat tt grove = { k with
    setbase := v, ttag := w64 tt, bound := true, setctx := BitVec.ofNat 32 (grove % 64 * 256 + k.setctx.toNat % 2) } := by
  have hv : w64 v.toNat = v := (BitVec.ofNat_toNat 64 v).trans (BitVec.setWidth_eq v)
  rw [Core.bind, hv]
  rfl

/-! ## The arms of CWR and CWW -/

theorem State.regionRefused_core (s : State) (c : CoreId) (d : Nat) : (s.regionRefused c).core d = s.core d := by
  rw [State.core, State.regionRefused, State.refuse_cores, State.useFree_cores, State.core]

theorem Core.atS_eq_false {k : Core} : k.atS = false ↔ k.pl = 0 := by simp [Core.atS]

/-- The privilege check passes where what is asked needs no S level at P. -/
theorem Core.priv_false {k : Core} {b : Bool} (h : k.pl = 0 → b = false) : (!k.atS && b) = false := by
  rw [Bool.and_eq_false_imp, Bool.not_eq_true', Core.atS_eq_false]
  exact h

theorem cwLocal_iff (n : Nat) : cwLocal n = true ↔ n = 0x10 ∨ n = 0x20 ∨ n = 0x21 := by simp [cwLocal, or_assoc]

section

variable {s : State} {c : CoreId} {r : Rg} {cw : BitVec 10} (hx : Executes s c)

include hx

/-- A control word that is not listed is illegal, read or written (R403). -/
theorem exec_cwr_unlisted (h : cwListed cw.toNat = false) :
    Gives (.cwr c r cw) s fun t => t = s.excEntry c.val 0x03 (wordEval (encode (.cwr c r cw))) :=
  gives_exc (i := .cwr c r cw) hx rfl (if_pos (by rw [h]; rfl))

theorem exec_cww_unlisted (h : cwListed cw.toNat = false) :
    Gives (.cww c r cw) s fun t => t = s.excEntry c.val 0x03 (wordEval (encode (.cww c r cw))) :=
  gives_exc (i := .cww c r cw) hx rfl (if_pos (by rw [h]; rfl))

variable (hl : cwListed cw.toNat = true)

include hl

/-- At P a word only S may read raises the privilege exception. -/
theorem exec_cwr_privileged (hp : (s.core c.val).pl = 0) (hs : cwSOnly cw.toNat = true) :
    Gives (.cwr c r cw) s fun t => t = s.excEntry c.val 0x04 (wordEval (encode (.cwr c r cw))) :=
  gives_exc (i := .cwr c r cw) hx rfl (by simp only [hl, Core.atS_eq_false.mpr hp, hs]; rfl)

/-- Under DET the words that tell a core's place or time raise 0x05 (R399). -/
theorem exec_cwr_local (hp : (s.core c.val).pl = 0 → cwSOnly cw.toNat = false) (hd : (s.core c.val).det = true)
    (hn : cwLocal cw.toNat = true) :
    Gives (.cwr c r cw) s fun t => t = s.excEntry c.val 0x05 (wordEval (encode (.cwr c r cw))) := by
  have hpriv := Core.priv_false hp
  exact gives_exc (i := .cwr c r cw) hx rfl (by simp only [hl, hpriv, hd, hn]; rfl)

/-- Else CWR gives the word's value (R429). -/
theorem exec_cwr_value (hp : (s.core c.val).pl = 0 → cwSOnly cw.toNat = false)
    (hn : ¬ ((s.core c.val).det = true ∧ cwLocal cw.toNat = true)) : Gives (.cwr c r cw) s fun t =>
      Retires s t c { (s.core c.val).setGs r (s.cwRead c.val cw.toNat) with pc := (s.core c.val).pc + 4 } 0 0 := by
  have hpriv := Core.priv_false hp
  rw [← Bool.and_eq_true, Bool.not_eq_true] at hn
  exact gives_onCore (i := .cwr c r cw) (f := fun k => k.setGs r (s.cwRead c.val cw.toNat)) hx rfl
    (by simp only [hl, hpriv, hn]; rfl)

/-- At P a write that only S may make raises the privilege exception. -/
theorem exec_cww_privileged (hp : (s.core c.val).pl = 0)
    (hw : (s.core c.val).pMayWrite cw.toNat ((s.core c.val).gs r) = false) :
    Gives (.cww c r cw) s fun t => t = s.excEntry c.val 0x04 (wordEval (encode (.cww c r cw))) :=
  gives_exc (i := .cww c r cw) hx rfl (by simp only [hl, Core.atS_eq_false.mpr hp, hw]; rfl)

variable (hw : (s.core c.val).pl ≠ 0 ∨ (s.core c.val).pMayWrite cw.toNat ((s.core c.val).gs r) = true)

include hw

omit hx in
/-- A CWW that is allowed: SETBASE binds a Set, a reserved REGION value is refused, any other word is written. -/
theorem exec_cww_allowed : ∃ body : State → InsRes, exec (.cww c r cw) s = .next (s.runIns c (encode (.cww c r cw)) 7 body) ∧
    body s = if cw.toNat = 0x13 then s.setbaseWrite c ((s.core c.val).gs r).toNat
      else if 0x30 ≤ cw.toNat ∧ cw.toNat ≤ 0x37 ∧ !regionLegal ((s.core c.val).gs r) then .ok (s.regionRefused c)
      else s.onCore c fun k => k.cwWrite c.val cw.toNat ((s.core c.val).gs r) := by
  have hpriv : (!(s.core c.val).atS && !(s.core c.val).pMayWrite cw.toNat ((s.core c.val).gs r)) = false :=
    Core.priv_false fun h => congrArg Bool.not (hw.resolve_left fun hne => hne h)
  exact ⟨_, rfl, by simp only [hl, hpriv]; rfl⟩

theorem exec_cww_plain (hn : cw.toNat ≠ 0x13)
    (hres : ¬ (0x30 ≤ cw.toNat ∧ cw.toNat ≤ 0x37 ∧ regionLegal ((s.core c.val).gs r) = false)) : Gives (.cww c r cw) s fun t =>
      Retires s t c { (s.core c.val).cwWrite c.val cw.toNat ((s.core c.val).gs r) with pc := (s.core c.val).pc + 4 } 0 0 := by
  obtain ⟨body, he, hb⟩ := exec_cww_allowed hl hw
  rw [if_neg hn, if_neg (by rwa [Bool.not_eq_true'])] at hb
  exact gives_onCore hx he hb

/-- A REGION word keeps its value where the value written is reserved (R382). -/
theorem exec_cww_refused (hlo : 0x30 ≤ cw.toNat) (hhi : cw.toNat ≤ 0x37) (hres : regionLegal ((s.core c.val).gs r) = false) :
    Gives (.cww c r cw) s fun t => Retires (s.regionRefused c) t c { s.core c.val with pc := (s.core c.val).pc + 4 } 0 0 := by
  obtain ⟨body, he, hb⟩ := exec_cww_allowed hl hw
  rw [if_neg (by omega), if_pos ⟨hlo, hhi, by rw [hres]; rfl⟩] at hb
  have hg := gives_ok hx he hb
  rw [State.regionRefused_core] at hg
  exact hg

variable (hn : cw.toNat = 0x13)

include hn

theorem exec_cww_unbound (h : s.recordGrove ((s.core c.val).gs r).toNat = none) :
    Gives (.cww c r cw) s fun t => t = s.excEntry c.val 0x0A (s.core c.val).setbase := by
  obtain ⟨body, he, hb⟩ := exec_cww_allowed hl hw
  rw [if_pos hn, State.setbaseWrite_none c h] at hb
  exact gives_exc hx he hb

theorem exec_cww_bound {g : Nat} (h : s.recordGrove ((s.core c.val).gs r).toNat = some g) :
    ∃ tt : Nat, (s.poisoned ((s.core c.val).gs r).toNat = false → tt = s.rdLe ((s.core c.val).gs r).toNat 8) ∧
      Gives (.cww c r cw) s fun t => Retires (s.headerRead ((s.core c.val).gs r).toNat) t c
        { (s.core c.val).bind ((s.core c.val).gs r).toNat tt (s.headerGrove ((s.core c.val).gs r).toNat g) with
          pc := (s.core c.val).pc + 4 } 0 0 := by
  obtain ⟨body, he, hb⟩ := exec_cww_allowed hl hw
  obtain ⟨u, tt, hu, htt, hwrite⟩ := State.setbaseWrite_some c h
  rw [if_pos hn, hwrite] at hb
  obtain ⟨t, ht, hret⟩ := gives_ok hx he hb
  have hcore : u.core c.val = s.core c.val := by
    obtain rfl | rfl := hu <;> exact s.headerRead_core _ _
  rw [State.core_setCore_same, hcore] at hret
  have hret := retires_of_setCore hret
  refine ⟨tt, htt, t, ht, ?_⟩
  obtain rfl | rfl := hu
  · exact hret
  · exact retires_of_useFree hret

end

/-- Settles O17: the arms of CWR and CWW in the order of R380 and R429. -/
theorem controlWords : Obligations.ControlWords := by
  unfold Obligations.ControlWords
  intro s c r cw hx k v n
  simp only [← wordEval_eq, ← cwLocal_iff]
  refine ⟨fun hl => ⟨exec_cwr_unlisted hx hl, exec_cww_unlisted hx hl⟩, fun hl => ⟨exec_cwr_privileged hx hl,
    exec_cwr_local hx hl, exec_cwr_value hx hl, exec_cww_privileged hx hl, fun hw => ⟨exec_cww_plain hx hl hw,
      fun ⟨hlo, hhi, hres⟩ => exec_cww_refused hx hl hw hlo hhi hres, exec_cww_unbound hx hl hw, fun g hn hg => ?_⟩⟩⟩
  obtain ⟨tt, htt, hgives⟩ := exec_cww_bound hx hl hw hn hg
  refine ⟨w64 tt, fun hp => congrArg w64 (htt hp), ?_⟩
  rw [Core.bind_eq] at hgives
  exact hgives

end Sys2Proof.Machine
end

section
/-!
The begin of a task (O20).
-/

namespace Sys2Proof.Machine

open Sys2Proof.Safety

/-- The core with a task begun on it (R383). -/
def Core.begun (k : Core) (c epoch : Nat) (x : Task) : Core :=
  { k with
    run := .run, given := none, task := some x, pc := w64 x.handler
    s := mset 0 [] 1 x.arg, v := [], p := [], fflags := 0
    setbase := 0, bound := false, setctx := 0, ttag := 0
    epoch := w32 epoch, taskarg := x.arg, taskkey := w32 (if x.nokey then 0 else x.key)
    status := w32 (b2n (decide (c < 16) || x.det) * 32 + bitsOf k.status.toNat 2 2 * 4) }

/-- A core in WAIT, given a task and clocked, begins it. -/
theorem State.beginTask_given {s : State} {c : Nat} {x : Task} (hrun : (s.core c).run = .wait) (hgiven : (s.core c).given = some x)
    (hclock : s.clocked c = true) : s.beginTask c = s.setCore c ((s.core c).begun c s.epoch x) := by
  unfold State.beginTask
  simp only [hclock, hgiven, hrun, if_true]
  rfl

/-- Copying carried memory touches the Crossing's own state and what leaves the unit (R500). -/
theorem State.copyCarry_eq (s : State) : ∃ x o, s.copyCarry = { s with xng := x, out := o } := by
  unfold State.copyCarry
  split
  · exact ⟨s.xng, s.out, rfl⟩
  · dsimp only
    split <;> exact ⟨_, _, rfl⟩

/-! ## What the core holds -/

section

variable (k : Core) (c epoch : Nat) (x : Task)

/-- STATUS at the begin of a task: level P, DET as given, IE as it was. -/
theorem Core.begun_status :
    (k.begun c epoch x).status.toNat = b2n (decide (c < 16) || x.det) * 32 + bitsOf k.status.toNat 2 2 * 4 := by
  have hbit : bitsOf k.status.toNat 2 2 < 2 := bitsOf_lt _ 2 2
  have hdet : b2n (decide (c < 16) || x.det) ≤ 1 := by cases decide (c < 16) || x.det <;> decide
  exact Nat.mod_eq_of_lt (by omega)

theorem Core.begun_pl : (k.begun c epoch x).pl = 0 := by
  rw [Core.pl, Core.begun_status]
  omega

theorem Core.begun_det : (k.begun c epoch x).det = (decide (c < 16) || x.det) := by
  have hbit : bitsOf k.status.toNat 2 2 < 2 := bitsOf_lt _ 2 2
  rw [Core.det, Core.begun_status, Nat.mul_comm, Nat.testBit_two_pow_mul_add (i := 5) _ (by omega), if_neg (Nat.lt_irrefl 5),
    Nat.sub_self, testBit_b2n]
  rfl

theorem Core.begun_gs (r : Rg) : (k.begun c epoch x).gs r = if r = 1 then x.arg else 0 := by
  rw [Core.gs, show (k.begun c epoch x).s = mset 0 [] 1 x.arg from rfl, mget_mset]
  by_cases h : r = 1
  · subst h
    rfl
  · have hne : r.toNat ≠ 1 := fun e => h (BitVec.eq_of_toNat_eq e)
    rw [if_neg h, if_neg hne]
    exact ite_self _

theorem Core.begun_lane (r : Rg) (l : Nat) : (k.begun c epoch x).lane r l = laneAbsent := rfl

theorem Core.begun_pr {p : Pr} (h : p ≠ 0) : (k.begun c epoch x).pr p = 0 := if_neg h

end

/-- TASK_BEGIN on a core given a task: the core begins it; every other core, and memory, stands. -/
theorem exec_taskBegin {s : State} {c : CoreId} {x : Task} (hrun : (s.core c.val).run = .wait)
    (hgiven : (s.core c.val).given = some x) (hclock : s.clocked c.val = true) : Gives (.taskBegin c) s fun t =>
      t.core c.val = (s.core c.val).begun c.val s.epoch x ∧ OtherCores s t c.val ∧ SameMemory s t := by
  obtain ⟨y, o, hcarry⟩ := s.copyCarry_eq
  have hbegin : s.copyCarry.beginTask c.val = s.copyCarry.setCore c.val ((s.core c.val).begun c.val s.epoch x) := by
    rw [hcarry]
    exact State.beginTask_given hrun hgiven hclock
  have hcore (d : Nat) : s.copyCarry.core d = s.core d := by
    rw [hcarry]
    rfl
  have hcount := CountsOnly.coreEvent (s.copyCarry.beginTask c.val) c.val 0x09 0 0 c.isLt
  refine ⟨_, show execTaskBegin c s = _ from congrArg Host.Outcome.next (if_pos ?_), ?_, fun d hd => ?_, fun a => ?_⟩
  · rw [hbegin, State.core_setCore_same, hgiven]
    rfl
  · rw [hcount.core, hbegin, State.core_setCore_same]
  · rw [hcount.core, hbegin, State.core_setCore, if_neg hd, hcore]
  · rw [State.rdByte, hcount.mem, hbegin, hcarry]
    rfl

/-- Settles O20: what the core then holds, register by register. -/
theorem taskBegins : Obligations.TaskBegins := by
  unfold Obligations.TaskBegins
  intro s c x hrun hgiven hclock
  obtain ⟨t, ht, hcore, hothers, hmem⟩ := exec_taskBegin hrun hgiven hclock
  refine ⟨t, ht, ?_⟩
  dsimp only
  rw [hcore]
  exact ⟨rfl, rfl, Core.begun_pl .., (Core.begun_gs ..).trans (if_pos rfl), fun r hr => (Core.begun_gs ..).trans (if_neg hr),
    fun r l _ => Core.begun_lane .., fun p hp => Core.begun_pr _ _ _ _ hp, rfl, rfl, rfl, rfl, rfl, rfl, Core.begun_det .., rfl, rfl,
    hothers, hmem⟩

end Sys2Proof.Machine
end

section
/-!
SUPPORT. The words of the Sapor encoding: the fields that each format has, and what stands in them (R402).
-/

namespace Sys2Proof.Machine

/-! ## The formats and their fields (R402) -/

theorem bitsOf_eq_div (v hi lo : Nat) : bitsOf v hi lo = v / 2 ^ lo % 2 ^ (hi + 1 - lo) := by
  rw [bitsOf, Nat.shiftRight_eq_div_pow]

theorem extract_eq_iff {w : Word} {lo n : Nat} {x : BitVec n} : w.extractLsb' lo n = x ↔ w.toNat / 2 ^ lo % 2 ^ n = x.toNat := by
  rw [← BitVec.toNat_inj, BitVec.extractLsb'_toNat, Nat.shiftRight_eq_div_pow]

theorem testBit_eq_iff {v n : Nat} {b : Bool} : v.testBit n = b ↔ v / 2 ^ n % 2 = b2n b := by
  rw [Nat.testBit_eq_decide_div_mod_eq]
  cases b <;> simp [b2n]

section

variable {w : Word} {op func : Nat}

/-- A word is one of Format A exactly with the fields it has; so it is with each format below. -/
theorem fmtA_eq_iff {rd a b : Rg} (ho : op < 64) (hf : func < 2048) : fmtA op rd a b func = w ↔
    bitsOf w.toNat 31 26 = op ∧ wRd w = rd ∧ wRs1 w = a ∧ wRs2 w = b ∧ w.toNat % 2 ^ 11 = func := by
  rw [← BitVec.toNat_inj, fmtA, w32, BitVec.toNat_ofNat, bitsOf_eq_div, wRd, wRs1, wRs2, extract_eq_iff, extract_eq_iff,
    extract_eq_iff]
  omega

theorem fmtI_eq_iff {rd a : Rg} {sub imm : Nat} (ho : op < 64) (hs : sub < 4) (hi : imm < 16384) : fmtI op rd a sub imm = w ↔
    bitsOf w.toNat 31 26 = op ∧ wRd w = rd ∧ wRs1 w = a ∧ bitsOf w.toNat 15 14 = sub ∧ w.toNat % 2 ^ 14 = imm := by
  rw [← BitVec.toNat_inj, fmtI, w32, BitVec.toNat_ofNat, bitsOf_eq_div, bitsOf_eq_div, wRd, wRs1, extract_eq_iff, extract_eq_iff]
  omega

theorem fmtM_eq_iff {rt rb : Rg} {sub : Nat} {off : BitVec 12} (ho : op < 64) (hs : sub < 16) : fmtM op rt rb sub off = w ↔
    bitsOf w.toNat 31 26 = op ∧ wRd w = rt ∧ wRs1 w = rb ∧ bitsOf w.toNat 15 12 = sub ∧ w.extractLsb' 0 12 = off := by
  rw [← BitVec.toNat_inj, fmtM, w32, BitVec.toNat_ofNat, bitsOf_eq_div, bitsOf_eq_div, wRd, wRs1, extract_eq_iff, extract_eq_iff,
    extract_eq_iff]
  omega

theorem fmtB_eq_iff {rs : Rg} {n : Bool} {off : BitVec 20} (ho : op < 64) : fmtB op (b2n n) rs off = w ↔
    bitsOf w.toNat 31 26 = op ∧ w.toNat.testBit 25 = n ∧ w.extractLsb' 20 5 = rs ∧ w.extractLsb' 0 20 = off := by
  have hn : b2n n < 2 := by cases n <;> decide
  rw [← BitVec.toNat_inj, fmtB, w32, BitVec.toNat_ofNat, bitsOf_eq_div, testBit_eq_iff, extract_eq_iff, extract_eq_iff]
  omega

theorem fmtV_eq_iff {vd va vb : Rg} {pg : Pr} (ho : op < 64) (hf : func < 256) : fmtV op vd va vb pg func = w ↔
    bitsOf w.toNat 31 26 = op ∧ wRd w = vd ∧ wRs1 w = va ∧ wRs2 w = vb ∧ wPg w = pg ∧ w.toNat % 256 = func := by
  rw [← BitVec.toNat_inj, fmtV, w32, BitVec.toNat_ofNat, bitsOf_eq_div, wRd, wRs1, wRs2, wPg, extract_eq_iff, extract_eq_iff,
    extract_eq_iff, extract_eq_iff]
  omega

theorem fmtQ_eq_iff {rd rs : Rg} {n b : Nat} (ho : op < 64) (hn : n < 256) (hb : b < 32) (hf : func < 8) :
    fmtQ op rd rs n b func = w ↔ bitsOf w.toNat 31 26 = op ∧ wRd w = rd ∧ wRs1 w = rs ∧ bitsOf w.toNat 15 8 = n ∧
      bitsOf w.toNat 7 3 = b ∧ w.toNat % 8 = func := by
  rw [← BitVec.toNat_inj, fmtQ, w32, BitVec.toNat_ofNat, bitsOf_eq_div, bitsOf_eq_div, bitsOf_eq_div, wRd, wRs1, extract_eq_iff,
    extract_eq_iff]
  omega

end

/-! ## Predicates and queues in their fields -/

theorem pred5_eq_some_iff {r : Rg} {p : Pr} : pred5 r = some p ↔ pr5 p = r := by
  unfold pred5 pr5
  rw [← BitVec.toNat_inj, BitVec.toNat_ofNat]
  split
  next h =>
    rw [Option.some_inj, ← BitVec.toNat_inj, BitVec.toNat_ofNat]
    omega
  next h => simp; omega

theorem decQsel_eq_some_iff {w : Word} {q : QSel} : decQsel w = some q ↔
    bitsOf w.toNat 15 8 = qselN q ∧ 16 * b2n (w.toNat.testBit 7) = qselB q := by
  unfold decQsel
  rw [bitsOf_eq_div, bitsOf_eq_div]
  cases q with
  | imm n =>
    cases hb : w.toNat.testBit 7 <;> simp [qselN, qselB, b2n, extract_eq_iff]
  | reg r =>
    cases hb : w.toNat.testBit 7
    · simp [qselN, qselB, b2n]
    · simp [qselN, qselB, b2n, extract_eq_iff]
      omega

@[simp] theorem pred5_pr5 (p : Pr) : pred5 (pr5 p) = some p := pred5_eq_some_iff.mpr rfl

theorem b2n_lt_two (b : Bool) : b2n b < 2 := by cases b <;> decide

section

variable {w : Word} {op func : Nat}

/-- Format I with a 14-bit immediate. -/
theorem fmtI_imm_eq_iff {rd a : Rg} {sub : Nat} {imm : BitVec 14} (ho : op < 64) (hs : sub < 4) : fmtI op rd a sub imm.toNat = w ↔
    bitsOf w.toNat 31 26 = op ∧ wRd w = rd ∧ wRs1 w = a ∧ bitsOf w.toNat 15 14 = sub ∧ w.extractLsb' 0 14 = imm := by
  rw [fmtI_eq_iff ho hs imm.isLt, extract_eq_iff, Nat.pow_zero, Nat.div_one]

/-- Format I with a 6-bit shift count (R408). -/
theorem fmtI_shift_eq_iff {rd a : Rg} {sub : Nat} {n : BitVec 6} (ho : op < 64) (hs : sub < 4) : fmtI op rd a sub n.toNat = w ↔
    bitsOf w.toNat 31 26 = op ∧ wRd w = rd ∧ wRs1 w = a ∧ bitsOf w.toNat 15 14 = sub ∧ (w.extractLsb' 0 14).toNat < 64 ∧
      (w.extractLsb' 0 14).extractLsb' 0 6 = n := by
  have hn : w.toNat % 2 ^ 14 = n.toNat ↔ (w.extractLsb' 0 14).toNat < 64 ∧ (w.extractLsb' 0 14).extractLsb' 0 6 = n := by
    simp only [← BitVec.toNat_inj, BitVec.extractLsb'_toNat, Nat.shiftRight_zero]
    omega
  rw [fmtI_eq_iff ho hs (by omega), hn]

/-- Format I with a 19-bit immediate, whose upper bits stand in rs1 (R408). -/
theorem fmtI_upper_eq_iff {rd : Rg} {imm : BitVec 19} (ho : op < 64) :
    fmtI op rd (BitVec.ofNat 5 (imm.toNat / 2 ^ 14)) 0 (imm.toNat % 2 ^ 14) = w ↔ bitsOf w.toNat 31 26 = op ∧ wRd w = rd ∧
      bitsOf w.toNat 15 14 = 0 ∧ BitVec.ofNat 19 ((wRs1 w).toNat * 2 ^ 14 + (w.extractLsb' 0 14).toNat) = imm := by
  have himm : BitVec.ofNat 19 ((wRs1 w).toNat * 2 ^ 14 + (w.extractLsb' 0 14).toNat) = imm ↔
      wRs1 w = BitVec.ofNat 5 (imm.toNat / 2 ^ 14) ∧ w.toNat % 2 ^ 14 = imm.toNat % 2 ^ 14 := by
    rw [← BitVec.toNat_inj, ← BitVec.toNat_inj, BitVec.toNat_ofNat, BitVec.toNat_ofNat, BitVec.extractLsb'_toNat,
      Nat.shiftRight_zero]
    omega
  rw [fmtI_eq_iff ho (by decide) (by omega), himm, and_left_comm (b := bitsOf w.toNat 15 14 = 0)]

/-- A control word's number below 1,024 in a 14-bit immediate (R429). -/
theorem extract_cw_toNat (h : w.toNat % 2 ^ 14 < 1024) : (w.extractLsb' 0 10).toNat = w.toNat % 2 ^ 14 := by
  rw [BitVec.extractLsb'_toNat, Nat.shiftRight_zero]
  omega

/-- Format B of BP: the predicate and the choice of ANY or ALL stand in the register field (R409). -/
theorem fmtB_bp_eq_iff {all neg : Bool} {p : Pr} {off : BitVec 20} (ho : op < 64) :
    fmtB op (b2n neg) (BitVec.ofNat 5 (b2n all * 8 + p.toNat)) off = w ↔ bitsOf w.toNat 31 26 = op ∧ w.toNat.testBit 25 = neg ∧
      ((w.extractLsb' 20 5).toNat < 16 ∧ (w.extractLsb' 20 5).toNat.testBit 3 = all ∧ (w.extractLsb' 20 5).extractLsb' 0 3 = p) ∧
      w.extractLsb' 0 20 = off := by
  have hrs (r : Rg) : r = BitVec.ofNat 5 (b2n all * 8 + p.toNat) ↔
      r.toNat < 16 ∧ r.toNat.testBit 3 = all ∧ r.extractLsb' 0 3 = p := by
    have hall := b2n_lt_two all
    rw [← BitVec.toNat_inj, ← BitVec.toNat_inj, BitVec.toNat_ofNat, testBit_eq_iff, BitVec.extractLsb'_toNat, Nat.shiftRight_zero]
    omega
  rw [fmtB_eq_iff ho, hrs]

theorem qselN_lt (q : QSel) : qselN q < 256 := by
  cases q <;> simp only [qselN] <;> omega

theorem qselB_cases (q : QSel) : qselB q = 0 ∨ qselB q = 16 := by
  cases q
  · exact .inl rfl
  · exact .inr rfl

/-- Format Q of QPUSH: the queue, FIRST and LAST (R425). -/
theorem fmtQ_push_eq_iff {rd rs : Rg} {q : QSel} {first last : Bool} (ho : op < 64) (hf : func < 8) :
    fmtQ op rd rs (qselN q) (qselB q + b2n first * 8 + b2n last * 4) func = w ↔ bitsOf w.toNat 31 26 = op ∧ wRd w = rd ∧
      wRs1 w = rs ∧ decQsel w = some q ∧ (bitsOf w.toNat 4 3 = 0 ∧ w.toNat.testBit 6 = first ∧ w.toNat.testBit 5 = last) ∧
      w.toNat % 8 = func := by
  have hfirst := b2n_lt_two first
  have hlast := b2n_lt_two last
  have hq := qselB_cases q
  have hb : bitsOf w.toNat 7 3 = qselB q + b2n first * 8 + b2n last * 4 ↔ 16 * b2n (w.toNat.testBit 7) = qselB q ∧
      bitsOf w.toNat 4 3 = 0 ∧ w.toNat.testBit 6 = first ∧ w.toNat.testBit 5 = last := by
    have h7 := testBit_eq_iff.mp (rfl : w.toNat.testBit 7 = _)
    rw [testBit_eq_iff, testBit_eq_iff, bitsOf_eq_div, bitsOf_eq_div]
    omega
  rw [fmtQ_eq_iff ho (qselN_lt q) (by omega) hf, decQsel_eq_some_iff, hb]
  simp only [and_assoc]

/-- Format Q of QPOP and QPEEK. -/
theorem fmtQ_pop_eq_iff {rd rs : Rg} {q : QSel} (ho : op < 64) (hf : func < 8) :
    fmtQ op rd rs (qselN q) (qselB q) func = w ↔ bitsOf w.toNat 31 26 = op ∧ wRd w = rd ∧
      wRs1 w = rs ∧ decQsel w = some q ∧ bitsOf w.toNat 6 3 = 0 ∧ w.toNat % 8 = func := by
  have hq := qselB_cases q
  have hb : bitsOf w.toNat 7 3 = qselB q ↔ 16 * b2n (w.toNat.testBit 7) = qselB q ∧ bitsOf w.toNat 6 3 = 0 := by
    have h7 := testBit_eq_iff.mp (rfl : w.toNat.testBit 7 = _)
    rw [bitsOf_eq_div, bitsOf_eq_div]
    omega
  rw [fmtQ_eq_iff ho (qselN_lt q) (by omega) hf, decQsel_eq_some_iff, hb, and_assoc, and_assoc]

/-- Format Q with a number of 8 bits and one of 5 (R427, R428). -/
theorem fmtQ_num_eq_iff {rd rs : Rg} {n : Byte} {b : BitVec 5} (ho : op < 64) (hf : func < 8) :
    fmtQ op rd rs n.toNat b.toNat func = w ↔ bitsOf w.toNat 31 26 = op ∧ wRd w = rd ∧ wRs1 w = rs ∧ w.extractLsb' 8 8 = n ∧
      w.extractLsb' 3 5 = b ∧ w.toNat % 8 = func := by
  rw [fmtQ_eq_iff ho n.isLt b.isLt hf, extract_eq_iff, extract_eq_iff, bitsOf_eq_div _ 15 8, bitsOf_eq_div _ 7 3]

end

end Sys2Proof.Machine
end

section
/-!
Decoding and encoding of Sapor words (O59, O60).
-/

namespace Sys2Proof.Machine

/-! ## Every instruction is read back from its word -/

/-- A well-formed instruction is read back from its word: the fields of its format lead the decoder to it, operand by operand. -/
theorem decode_encode {i : Instr} {w : Word} (hwf : wellFormed i = true) (hw : encode i = w) (h0 : w ≠ 0) :
    ∃ c, decode c w = some i := by
  unfold encode at hw
  split at hw
  -- Opcode 0x01: integer and logical instructions
  iterate 25
    · obtain ⟨ho, hd, ha, hb, hf⟩ := (fmtA_eq_iff (by decide) (by decide)).mp hw
      exact ⟨‹CoreId›, by simp only [decode, decInt, ho, hd, ha, hb, hf, if_true]⟩
  -- Opcodes 0x02 to 0x0C: immediates, JALR, conversions and times
  iterate 4
    · obtain ⟨ho, hd, ha, hs, hi⟩ := (fmtI_imm_eq_iff (by decide) (by decide)).mp hw
      exact ⟨‹CoreId›, by simp only [decode, decImm, ho, hd, ha, hs, hi, if_true]⟩
  iterate 3
    · obtain ⟨ho, hd, ha, hs, hlt, hi⟩ := (fmtI_shift_eq_iff (by decide) (by decide)).mp hw
      exact ⟨‹CoreId›, by simp only [decode, decImm, ho, hd, ha, hs, hlt, hi, if_true]⟩
  iterate 2
    · obtain ⟨ho, hd, ha, hs, hi⟩ := (fmtI_imm_eq_iff (by decide) (by decide)).mp hw
      exact ⟨‹CoreId›, by simp only [decode, decImm, ho, hd, ha, hs, hi]⟩
  iterate 2
    · obtain ⟨ho, hd, hs, hi⟩ := (fmtI_upper_eq_iff (by decide)).mp hw
      exact ⟨‹CoreId›, by simp only [decode, decImm, ho, hd, hs, hi, if_true]⟩
  · obtain ⟨ho, hd, ha, hs, hi⟩ := (fmtI_imm_eq_iff (by decide) (by decide)).mp hw
    exact ⟨‹CoreId›, by simp only [decode, decImm, ho, hd, ha, hs, hi, if_true]⟩
  iterate 6
    · obtain ⟨ho, hd, ha, hb, hf⟩ := (fmtA_eq_iff (by decide) (by decide)).mp hw
      exact ⟨‹CoreId›, by simp only [decode, decImm, ho, hd, ha, hb, hf]⟩
  -- Opcodes 0x10 to 0x13: branches and JAL
  case h_44 | h_46 | h_49 =>
    obtain ⟨ho, hn, hs, hi⟩ := (fmtB_eq_iff (n := false) (by decide)).mp hw
    exact ⟨‹CoreId›, by simp only [decode, decBranch, ho, hn, hs, hi, Bool.false_eq_true, if_false]⟩
  case h_45 | h_47 =>
    obtain ⟨ho, hn, hs, hi⟩ := (fmtB_eq_iff (n := true) (by decide)).mp hw
    exact ⟨‹CoreId›, by simp only [decode, decBranch, ho, hn, hs, hi, if_true]⟩
  case h_48 =>
    obtain ⟨ho, hn, ⟨hlt, ha, hp⟩, hi⟩ := (fmtB_bp_eq_iff (by decide)).mp hw
    exact ⟨‹CoreId›, by simp only [decode, decBranch, ho, hn, hlt, ha, hp, hi, if_true]⟩
  -- Opcodes 0x18 to 0x1B: loads and stores
  iterate 13
    · obtain ⟨ho, hd, ha, hs, hi⟩ := (fmtM_eq_iff (by decide) (by decide)).mp hw
      exact ⟨‹CoreId›, by simp only [decode, decMem, ho, hd, ha, hs, hi]⟩
  -- Opcode 0x20: vector arithmetic and compares
  iterate 19
    · obtain ⟨ho, hd, ha, hb, hg, hf⟩ := (fmtV_eq_iff (by decide) (by decide)).mp hw
      exact ⟨‹CoreId›, by simp only [decode, decVec, ho, hd, ha, hb, hg, hf, if_true, pred5_pr5, Option.map_some]⟩
  -- Opcode 0x21: moves and predicates; VEXT has a predicate other than p0
  case h_85 =>
    obtain ⟨ho, hd, ha, hb, hg, hf⟩ := (fmtV_eq_iff (by decide) (by decide)).mp hw
    have hpg := bne_iff_ne.mp hwf
    exact ⟨‹CoreId›, by simp only [decode, decMove, ho, hd, ha, hb, hg, hf, hpg, if_false, pred5_pr5, Option.map_some]⟩
  iterate 11
    · obtain ⟨ho, hd, ha, hb, hg, hf⟩ := (fmtV_eq_iff (by decide) (by decide)).mp hw
      exact ⟨‹CoreId›, by simp only [decode, decMove, ho, hd, ha, hb, hg, hf, and_self, if_true, pred5_pr5,
        Option.map_some, Option.bind_some]⟩
  -- Opcodes 0x22 and 0x23: reductions and the bound Set
  iterate 5
    · obtain ⟨ho, hd, ha, hb, hg, hf⟩ := (fmtV_eq_iff (by decide) (by decide)).mp hw
      exact ⟨‹CoreId›, by simp only [decode, decSet, ho, hd, ha, hb, hg, hf, and_self, if_true]⟩
  -- Opcodes 0x28 and 0x29: queues, mailboxes and waits
  · obtain ⟨ho, hd, ha, hq, ⟨hz, hfi, hl⟩, hf⟩ := (fmtQ_push_eq_iff (by decide) (by decide)).mp hw
    exact ⟨‹CoreId›, by simp only [decode, decQueue, ho, hd, ha, hq, hz, hfi, hl, hf, if_true, Option.map_some]⟩
  iterate 2
    · obtain ⟨ho, hd, ha, hq, hz, hf⟩ := (fmtQ_pop_eq_iff (by decide) (by decide)).mp hw
      exact ⟨‹CoreId›, by simp only [decode, decQueue, ho, hd, ha, hq, hz, hf, if_true, Option.map_some]⟩
  · obtain ⟨ho, hd, ha, hn, hb, hf⟩ := (fmtQ_num_eq_iff (by decide) (by decide)).mp hw
    exact ⟨‹CoreId›, by simp only [decode, decQueue, ho, hd, ha, hn, hb, hf]⟩
  · obtain ⟨ho, hd, ha, hn, hb, hf⟩ := (fmtQ_num_eq_iff (n := 0) (b := 0) (by decide) (by decide)).mp hw
    exact ⟨‹CoreId›, by simp only [decode, decQueue, ho, hd, ha, hn, hb, hf, and_self, if_true]⟩
  · obtain ⟨ho, hd, ha, hn, hb, hf⟩ := (fmtQ_num_eq_iff (b := 0) (by decide) (by decide)).mp hw
    exact ⟨‹CoreId›, by simp only [decode, decQueue, ho, hd, ha, hn, hb, hf, if_true]⟩
  -- Opcode 0x30: control words, traps, MODEREQ and fences
  case h_105 cw | h_106 cw =>
    obtain ⟨ho, hd, ha, hs, hi⟩ := (fmtI_eq_iff (by decide) (by decide) (by omega)).mp hw
    have hlt : w.toNat % 2 ^ 14 < 1024 := hi ▸ cw.isLt
    have hcw : w.extractLsb' 0 10 = cw := BitVec.eq_of_toNat_eq ((extract_cw_toNat hlt).trans hi)
    have hl : cwListed cw.toNat = true := hwf
    exact ⟨‹CoreId›, by simp only [decode, decSys, ho, hd, ha, hs, hi ▸ hlt, hcw, hi, hl, and_self, if_true]⟩
  · obtain ⟨ho, hd, ha, hs, hi⟩ := (fmtI_imm_eq_iff (by decide) (by decide)).mp hw
    exact ⟨‹CoreId›, by simp only [decode, decSys, ho, hd, ha, hs, hi, and_self, if_true]⟩
  iterate 8
    · obtain ⟨ho, hd, ha, hs, hi⟩ := (fmtI_eq_iff (by decide) (by decide) (by decide)).mp hw
      exact ⟨‹CoreId›, by simp only [decode, decSys, ho, hd, ha, hs, hi, Nat.reduceEqDiff, reduceCtorEq, and_self, if_true,
        if_false]⟩
  -- The other commands have no word
  exact absurd hw.symm h0

/-! ## A word that decodes is the word of its instruction -/

/-- Whether a decoded instruction is legal on the core that meets it: MODEREQ is a Supervisor Core's (R431). -/
def legalOn (c : CoreId) : Instr → Bool
  | .modereq .. => decide (16 ≤ c.val) && decide (c.val < 20)
  | _ => true

theorem legalWord_eq (c : CoreId) (w : Word) : legalWord c w = (decode c w).elim false (legalOn c) := by
  unfold legalWord
  cases decode c w with
  | none => rfl
  | some i => cases i <;> rfl

/-- The instruction has the word, and is well formed exactly where it is legal. -/
structure Spells (c : CoreId) (w : Word) (i : Instr) : Prop where
  word : encode i = w
  legal : wellFormed i = legalOn c i

section

variable {c : CoreId} {w : Word} {i : Instr} {op : Nat}

theorem spells_of_decInt (ho : bitsOf w.toNat 31 26 = 0x01) (h : decInt c w = some i) : Spells c w i := by
  unfold decInt at h
  split at h
  case h_26 => cases h
  case h_23 | h_24 | h_25 =>
    obtain ⟨hb, hi⟩ := Option.ite_none_right_eq_some.mp h
    cases hi
    exact ⟨(fmtA_eq_iff (by decide) (by decide)).mpr ⟨ho, rfl, rfl, hb, ‹_›⟩, rfl⟩
  all_goals
    cases h
    exact ⟨(fmtA_eq_iff (by decide) (by decide)).mpr ⟨ho, rfl, rfl, rfl, ‹_›⟩, rfl⟩

theorem spells_of_decImm (ho : bitsOf w.toNat 31 26 = op) (h : decImm c op w = some i) : Spells c w i := by
  unfold decImm at h
  dsimp only at h
  split at h
  case h_1 | h_2 | h_3 | h_4 | h_9 =>
    obtain ⟨hs, hi⟩ := Option.ite_none_right_eq_some.mp h
    cases hi
    exact ⟨(fmtI_imm_eq_iff (by decide) (by decide)).mpr ⟨ho, rfl, rfl, hs, rfl⟩, rfl⟩
  case h_5 =>
    obtain ⟨hlt, hi⟩ := Option.ite_none_right_eq_some.mp h
    split at hi <;> cases hi
    all_goals exact ⟨(fmtI_shift_eq_iff (by decide) (by decide)).mpr ⟨ho, rfl, rfl, ‹_›, hlt, rfl⟩, rfl⟩
  case h_6 =>
    split at h <;> cases h
    all_goals exact ⟨(fmtI_imm_eq_iff (by decide) (by decide)).mpr ⟨ho, rfl, rfl, ‹_›, rfl⟩, rfl⟩
  case h_7 | h_8 =>
    obtain ⟨hs, hi⟩ := Option.ite_none_right_eq_some.mp h
    cases hi
    exact ⟨(fmtI_upper_eq_iff (by decide)).mpr ⟨ho, rfl, hs, rfl⟩, rfl⟩
  case h_10 | h_11 =>
    split at h <;> cases h
    all_goals exact ⟨(fmtA_eq_iff (by decide) (by decide)).mpr ⟨ho, rfl, rfl, rfl, ‹_›⟩, rfl⟩
  case h_12 => cases h

theorem spells_of_decBranch (ho : bitsOf w.toNat 31 26 = op) (h : decBranch c op w = some i) : Spells c w i := by
  unfold decBranch at h
  split at h
  case h_1 | h_2 =>
    cases hn : w.toNat.testBit 25 <;> simp only [hn, Bool.false_eq_true, if_false, if_true] at h <;> cases h
    · exact ⟨(fmtB_eq_iff (n := false) (by decide)).mpr ⟨ho, hn, rfl, rfl⟩, rfl⟩
    · exact ⟨(fmtB_eq_iff (n := true) (by decide)).mpr ⟨ho, hn, rfl, rfl⟩, rfl⟩
  case h_3 =>
    obtain ⟨hlt, hi⟩ := Option.ite_none_right_eq_some.mp h
    cases hi
    exact ⟨(fmtB_bp_eq_iff (by decide)).mpr ⟨ho, rfl, ⟨hlt, rfl, rfl⟩, rfl⟩, rfl⟩
  case h_4 =>
    obtain ⟨hn, hi⟩ := Option.ite_none_left_eq_some.mp h
    cases hi
    exact ⟨(fmtB_eq_iff (n := false) (by decide)).mpr ⟨ho, Bool.eq_false_iff.mpr hn, rfl, rfl⟩, rfl⟩
  case h_5 => cases h

theorem spells_of_decMem (ho : bitsOf w.toNat 31 26 = op) (h : decMem c op w = some i) : Spells c w i := by
  unfold decMem at h
  split at h <;> cases h
  all_goals exact ⟨(fmtM_eq_iff (by decide) (by decide)).mpr ⟨ho, rfl, rfl, ‹_›, rfl⟩, rfl⟩

theorem spells_of_decVec (ho : bitsOf w.toNat 31 26 = 0x20) (h : decVec c w = some i) : Spells c w i := by
  unfold decVec at h
  split at h
  case h_20 => cases h
  case h_11 | h_12 | h_13 | h_14 =>
    obtain ⟨hb, hi⟩ := Option.ite_none_right_eq_some.mp h
    cases hi
    exact ⟨(fmtV_eq_iff (by decide) (by decide)).mpr ⟨ho, rfl, rfl, hb, rfl, ‹_›⟩, rfl⟩
  case h_17 | h_18 | h_19 =>
    obtain ⟨pd, hd, hi⟩ := Option.map_eq_some_iff.mp h
    cases hi
    exact ⟨(fmtV_eq_iff (by decide) (by decide)).mpr ⟨ho, (pred5_eq_some_iff.mp hd).symm, rfl, rfl, rfl, ‹_›⟩, rfl⟩
  all_goals
    cases h
    exact ⟨(fmtV_eq_iff (by decide) (by decide)).mpr ⟨ho, rfl, rfl, rfl, rfl, ‹_›⟩, rfl⟩

theorem spells_of_decMove (ho : bitsOf w.toNat 31 26 = 0x21) (h : decMove c w = some i) : Spells c w i := by
  unfold decMove at h
  split at h
  case h_1 | h_2 =>
    obtain ⟨hb, hi⟩ := Option.ite_none_right_eq_some.mp h
    cases hi
    exact ⟨(fmtV_eq_iff (by decide) (by decide)).mpr ⟨ho, rfl, rfl, hb, rfl, ‹_›⟩, rfl⟩
  case h_3 =>
    obtain ⟨hg, hi⟩ := Option.ite_none_right_eq_some.mp h
    obtain ⟨l, hb, hi⟩ := Option.map_eq_some_iff.mp hi
    cases hi
    exact ⟨(fmtV_eq_iff (by decide) (by decide)).mpr ⟨ho, rfl, rfl, (pred5_eq_some_iff.mp hb).symm, hg, ‹_›⟩, rfl⟩
  case h_4 =>
    obtain ⟨hg, hi⟩ := Option.ite_none_left_eq_some.mp h
    obtain ⟨l, hb, hi⟩ := Option.map_eq_some_iff.mp hi
    cases hi
    exact ⟨(fmtV_eq_iff (by decide) (by decide)).mpr ⟨ho, rfl, rfl, (pred5_eq_some_iff.mp hb).symm, rfl, ‹_›⟩, bne_iff_ne.mpr hg⟩
  case h_5 =>
    obtain ⟨hb, hi⟩ := Option.ite_none_right_eq_some.mp h
    obtain ⟨pd, hd, hi⟩ := Option.map_eq_some_iff.mp hi
    cases hi
    exact ⟨(fmtV_eq_iff (by decide) (by decide)).mpr ⟨ho, (pred5_eq_some_iff.mp hd).symm, rfl, hb, rfl, ‹_›⟩, rfl⟩
  case h_6 =>
    obtain ⟨hb, hi⟩ := Option.ite_none_right_eq_some.mp h
    obtain ⟨pa, ha, hi⟩ := Option.map_eq_some_iff.mp hi
    cases hi
    exact ⟨(fmtV_eq_iff (by decide) (by decide)).mpr ⟨ho, rfl, (pred5_eq_some_iff.mp ha).symm, hb, rfl, ‹_›⟩, rfl⟩
  case h_7 | h_8 | h_9 | h_10 =>
    obtain ⟨hg, hi⟩ := Option.ite_none_right_eq_some.mp h
    obtain ⟨pd, hd, hi⟩ := Option.bind_eq_some_iff.mp hi
    obtain ⟨pa, ha, hi⟩ := Option.bind_eq_some_iff.mp hi
    obtain ⟨pb, hb, hi⟩ := Option.map_eq_some_iff.mp hi
    cases hi
    exact ⟨(fmtV_eq_iff (by decide) (by decide)).mpr ⟨ho, (pred5_eq_some_iff.mp hd).symm, (pred5_eq_some_iff.mp ha).symm,
      (pred5_eq_some_iff.mp hb).symm, hg, ‹_›⟩, rfl⟩
  case h_11 =>
    obtain ⟨⟨hg, hb⟩, hi⟩ := Option.ite_none_right_eq_some.mp h
    obtain ⟨pa, ha, hi⟩ := Option.map_eq_some_iff.mp hi
    cases hi
    exact ⟨(fmtV_eq_iff (by decide) (by decide)).mpr ⟨ho, rfl, (pred5_eq_some_iff.mp ha).symm, hb, hg, ‹_›⟩, rfl⟩
  case h_12 =>
    obtain ⟨⟨hg, hb⟩, hi⟩ := Option.ite_none_right_eq_some.mp h
    obtain ⟨pd, hd, hi⟩ := Option.map_eq_some_iff.mp hi
    cases hi
    exact ⟨(fmtV_eq_iff (by decide) (by decide)).mpr ⟨ho, (pred5_eq_some_iff.mp hd).symm, rfl, hb, hg, ‹_›⟩, rfl⟩
  case h_13 => cases h

theorem spells_of_decSet (ho : bitsOf w.toNat 31 26 = op) (h : decSet c op w = some i) : Spells c w i := by
  unfold decSet at h
  split at h
  case h_1 | h_2 | h_3 =>
    cases h
    exact ⟨(fmtV_eq_iff (by decide) (by decide)).mpr ⟨ho, rfl, rfl, rfl, rfl, ‹_›⟩, rfl⟩
  case h_4 =>
    obtain ⟨hb, hi⟩ := Option.ite_none_right_eq_some.mp h
    cases hi
    exact ⟨(fmtV_eq_iff (by decide) (by decide)).mpr ⟨ho, rfl, rfl, hb, rfl, ‹_›⟩, rfl⟩
  case h_5 =>
    obtain ⟨⟨hb, hg⟩, hi⟩ := Option.ite_none_right_eq_some.mp h
    cases hi
    exact ⟨(fmtV_eq_iff (by decide) (by decide)).mpr ⟨ho, rfl, rfl, hb, hg, ‹_›⟩, rfl⟩
  case h_6 => cases h

theorem spells_of_decQueue (ho : bitsOf w.toNat 31 26 = op) (h : decQueue c op w = some i) : Spells c w i := by
  unfold decQueue at h
  split at h
  case h_1 =>
    obtain ⟨hz, hi⟩ := Option.ite_none_right_eq_some.mp h
    obtain ⟨q, hq, hi⟩ := Option.map_eq_some_iff.mp hi
    cases hi
    exact ⟨(fmtQ_push_eq_iff (by decide) (by decide)).mpr ⟨ho, rfl, rfl, hq, ⟨hz, rfl, rfl⟩, ‹_›⟩, rfl⟩
  case h_2 | h_3 =>
    obtain ⟨hz, hi⟩ := Option.ite_none_right_eq_some.mp h
    obtain ⟨q, hq, hi⟩ := Option.map_eq_some_iff.mp hi
    cases hi
    exact ⟨(fmtQ_pop_eq_iff (by decide) (by decide)).mpr ⟨ho, rfl, rfl, hq, hz, ‹_›⟩, rfl⟩
  case h_4 =>
    cases h
    exact ⟨(fmtQ_num_eq_iff (by decide) (by decide)).mpr ⟨ho, rfl, rfl, rfl, rfl, ‹_›⟩, rfl⟩
  case h_5 =>
    obtain ⟨⟨hn, hb⟩, hi⟩ := Option.ite_none_right_eq_some.mp h
    cases hi
    exact ⟨(fmtQ_num_eq_iff (n := 0) (b := 0) (by decide) (by decide)).mpr ⟨ho, rfl, rfl, hn, hb, ‹_›⟩, rfl⟩
  case h_6 =>
    obtain ⟨hb, hi⟩ := Option.ite_none_right_eq_some.mp h
    cases hi
    exact ⟨(fmtQ_num_eq_iff (b := 0) (by decide) (by decide)).mpr ⟨ho, rfl, rfl, rfl, hb, ‹_›⟩, rfl⟩
  case h_7 => cases h

theorem spells_of_decSys (ho : bitsOf w.toNat 31 26 = 0x30) (h : decSys c w = some i) : Spells c w i := by
  unfold decSys at h
  dsimp only at h
  split at h
  case h_1 hs =>
    obtain ⟨⟨ha, hlt, hl⟩, hi⟩ := Option.ite_none_right_eq_some.mp h
    cases hi
    have hcw := extract_cw_toNat hlt
    exact ⟨(fmtI_eq_iff (by decide) (by decide) (by omega)).mpr ⟨ho, rfl, ha, hs, hcw.symm⟩, (congrArg cwListed hcw).trans hl⟩
  case h_2 hs =>
    obtain ⟨⟨hd, hlt, hl⟩, hi⟩ := Option.ite_none_right_eq_some.mp h
    cases hi
    have hcw := extract_cw_toNat hlt
    exact ⟨(fmtI_eq_iff (by decide) (by decide) (by omega)).mpr ⟨ho, hd, rfl, hs, hcw.symm⟩, (congrArg cwListed hcw).trans hl⟩
  case h_3 hs =>
    obtain ⟨⟨hd, ha⟩, hi⟩ := Option.ite_none_right_eq_some.mp h
    cases hi
    exact ⟨(fmtI_imm_eq_iff (by decide) (by decide)).mpr ⟨ho, hd, ha, hs, rfl⟩, rfl⟩
  case h_4 h0 h1 h2 =>
    have hs : bitsOf w.toNat 15 14 = 3 := by
      have hlt : bitsOf w.toNat 15 14 < 4 := bitsOf_lt ..
      rw [imp_false] at h0 h1 h2
      omega
    split at h
    next hi =>
      cases h
      exact ⟨(fmtI_eq_iff (by decide) (by decide) (by decide)).mpr ⟨ho, rfl, rfl, hs, hi⟩, rfl⟩
    next =>
      obtain ⟨⟨hd, ha⟩, hi⟩ := Option.ite_none_right_eq_some.mp h
      split at hi <;> cases hi
      all_goals exact ⟨(fmtI_eq_iff (by decide) (by decide) (by decide)).mpr ⟨ho, hd, ha, hs, ‹_›⟩, rfl⟩

end

theorem spells_of_decode {c : CoreId} {w : Word} {i : Instr} (h : decode c w = some i) : Spells c w i := by
  unfold decode at h
  dsimp only at h
  split at h
  case h_1 ho => exact spells_of_decInt ho h
  case h_2 | h_3 | h_4 | h_5 => exact spells_of_decBranch rfl h
  case h_6 | h_7 | h_8 | h_9 => exact spells_of_decMem rfl h
  case h_10 ho => exact spells_of_decVec ho h
  case h_11 ho => exact spells_of_decMove ho h
  case h_12 | h_13 => exact spells_of_decSet rfl h
  case h_14 | h_15 => exact spells_of_decQueue rfl h
  case h_16 ho => exact spells_of_decSys ho h
  case h_17 => exact spells_of_decImm rfl h

/-- A word is legal exactly where it decodes to a well-formed instruction. -/
theorem legalWord_iff (c : CoreId) (w : Word) : legalWord c w = true ↔ ∃ i, decode c w = some i ∧ wellFormed i = true := by
  rw [legalWord_eq]
  cases h : decode c w with
  | none => simp
  | some i =>
    have hlegal := (spells_of_decode h).legal
    rw [Option.elim_some, ← hlegal]
    exact ⟨fun hl => ⟨i, rfl, hl⟩, fun ⟨j, hj, hl⟩ => Option.some_inj.mp hj ▸ hl⟩

/-- Settles O60: each format's word is characterised by its fields, and the decoder and the encoder agree on the fields. -/
theorem decodeEncode : Obligations.DecodeEncode :=
  ⟨fun _ hwf h0 => decode_encode hwf rfl h0, fun _ _ _ h => (spells_of_decode h).word, legalWord_iff⟩

/-- Settles O59: each word is closed, and the decoder evaluates it. -/
theorem decodeWords : Obligations.DecodeWords := by
  unfold Obligations.DecodeWords
  decide

end Sys2Proof.Machine
end

section
/-!
Integer, logical, immediate and time instructions (O3).
-/

namespace Sys2Proof.Machine

open Sys2Proof.Safety

/-! ## The values in the words of the rules -/

/-- A count of 64 or more shifts in copies of the sign bit (R406). -/
theorem sra64_eq (a : DWord) (n : Nat) : sra64 a n = if n < 64 then a.sshiftRight n else if a.msb then -1 else 0 := by
  unfold sra64
  split
  next h => rw [Nat.min_eq_left (by omega)]
  next h =>
    rw [Nat.min_eq_right (by omega)]
    have hlo := BitVec.le_toInt a
    have hhi := BitVec.toInt_lt (x := a)
    have hdiv : a.toInt / (2 ^ 63 : Nat) = if a.toInt < 0 then -1 else 0 := by
      split <;> omega
    rw [BitVec.sshiftRight, Int.shiftRight_eq_div_pow, hdiv, BitVec.msb_eq_toInt]
    by_cases hneg : a.toInt < 0 <;> simp [hneg]

theorem boolW_slt (a b : DWord) : boolW (a.slt b) = if a.toInt < b.toInt then 1 else 0 := by
  simp only [boolW, BitVec.slt_iff_toInt_lt]

theorem boolW_ult (a b : DWord) : boolW (a.ult b) = if a.toNat < b.toNat then 1 else 0 := by
  simp only [boolW, BitVec.ult_iff_toNat_lt]

theorem ite_slt {α : Type} (a b : DWord) (x y : α) : (if a.slt b then x else y) = if b.toInt ≤ a.toInt then y else x := by
  simp only [BitVec.slt_iff_toInt_lt, ← Int.not_lt, ite_not]

theorem ite_ult {α : Type} (a b : DWord) (x y : α) : (if a.ult b then x else y) = if b.toNat ≤ a.toNat then y else x := by
  simp only [BitVec.ult_iff_toNat_lt, ← Nat.not_lt, ite_not]

theorem ite_slt_max (a b : DWord) : (if a.slt b then b else a) = if a.toInt ≤ b.toInt then b else a := by
  rw [ite_slt]
  split <;> split
  next h g => exact BitVec.eq_of_toInt_eq (by omega)
  next => rfl
  next => rfl
  next h g => omega

theorem ite_ult_max (a b : DWord) : (if a.ult b then b else a) = if a.toNat ≤ b.toNat then b else a := by
  rw [ite_ult]
  split <;> split
  next h g => exact BitVec.eq_of_toNat_eq (by omega)
  next => rfl
  next => rfl
  next h g => omega

/-- The difference of two times is that of the registers, signed (R153). -/
theorem gtDiff_eq (a b : DWord) : gtDiff a.toNat b.toNat = (a - b).toInt := by
  rw [gtDiff, signedOf_eq_toInt]
  congr 1
  apply BitVec.eq_of_toNat_eq
  rw [BitVec.toNat_ofNat, BitVec.toNat_sub]
  omega

/-- Durations in ns and in µs as the rule writes them (R420). -/
theorem durRound_ns (v : Int) : durRound v 1000000000 = BitVec.ofInt 64 ((v * 4294967296 * 2 + 1000000000) / 2000000000) := by
  rw [durRound]
  congr 1
  omega

theorem durRound_us (v : Int) : durRound v 1000000 = BitVec.ofInt 64 ((v * 4294967296 * 2 + 1000000) / 2000000) := by
  rw [durRound]
  congr 1
  omega

theorem ofInt_sign (v : Int) : BitVec.ofInt 64 v.sign = if v = 0 then 0 else if 0 < v then 1 else -1 := by
  rcases Int.lt_trichotomy v 0 with h | h | h
  · rw [Int.sign_eq_neg_one_of_neg h, if_neg (by omega), if_neg (by omega)]
    rfl
  · rw [h]
    rfl
  · rw [Int.sign_eq_one_of_pos h, if_neg (by omega), if_pos h]
    rfl

/-- Every instruction of `scalarOp` sets one register of its core to the value given. -/
theorem exec_of_scalarOp {i : Instr} {c : CoreId} {rd : Rg} {f : Core → DWord} (h : scalarOp i = some (c, rd, f)) :
    ∃ cls, ∀ s, exec i s = s.alu c i cls rd f := by
  unfold scalarOp at h
  split at h <;> cases h
  case h_9 => exact ⟨_, fun s => congrArg (s.alu _ _ _ _) (funext fun k => sra64_eq _ _)⟩
  case h_27 => exact ⟨_, fun s => congrArg (s.alu _ _ _ _) (funext fun k => (sra64_eq _ _).trans (if_pos (BitVec.isLt _)))⟩
  case h_10 | h_28 => exact ⟨_, fun s => congrArg (s.alu _ _ _ _) (funext fun k => boolW_slt _ _)⟩
  case h_11 | h_29 => exact ⟨_, fun s => congrArg (s.alu _ _ _ _) (funext fun k => boolW_ult _ _)⟩
  case h_12 => exact ⟨_, fun s => congrArg (s.alu _ _ _ _) (funext fun k => ite_slt _ _ _ _)⟩
  case h_13 => exact ⟨_, fun s => congrArg (s.alu _ _ _ _) (funext fun k => ite_slt_max _ _)⟩
  case h_14 => exact ⟨_, fun s => congrArg (s.alu _ _ _ _) (funext fun k => ite_ult _ _ _ _)⟩
  case h_15 => exact ⟨_, fun s => congrArg (s.alu _ _ _ _) (funext fun k => ite_ult_max _ _)⟩
  case h_25 | h_26 => exact ⟨_, fun s => congrArg (s.alu _ _ _ _) (funext fun k => if_pos (BitVec.isLt _))⟩
  case h_31 => exact ⟨_, fun s => congrArg (s.alu _ _ _ _) (funext fun k => BitVec.add_comm _ _)⟩
  case h_32 => exact ⟨_, fun s => congrArg (s.alu _ _ _ _) (funext fun k => by rw [gtDiff_eq, ofInt_sign])⟩
  case h_34 => exact ⟨_, fun s => congrArg (s.alu _ _ _ _) (funext fun k => congrArg (_ + ·) (durRound_ns _))⟩
  case h_35 => exact ⟨_, fun s => congrArg (s.alu _ _ _ _) (funext fun k => congrArg (_ + ·) (durRound_us _))⟩
  all_goals exact ⟨_, fun s => rfl⟩

/-- Settles O3: each instruction sets one register, and the model's function of its operands has the value of the rules. -/
theorem scalarResults : Obligations.ScalarResults := by
  unfold Obligations.ScalarResults
  intro s i c rd f hi hx
  obtain ⟨cls, he⟩ := exec_of_scalarOp hi
  exact gives_onCore hx (he s) rfl

end Sys2Proof.Machine
end

section
/-!
Bit counts, quotients and scalar conversions (O4).
-/

namespace Sys2Proof.Machine

open Sys2Proof.Safety

/-! ## Bit counts -/

theorem testBit_log2 {n : Nat} (h : n ≠ 0) : n.testBit n.log2 = true :=
  Nat.testBit_of_two_pow_le_and_two_pow_add_one_gt (Nat.log2_self_le h) Nat.lt_log2_self

/-- The bits above the highest one are zero. -/
theorem clz64_spec (a : DWord) : clz64 a ≤ 64 ∧ (∀ j < clz64 a, a.getMsbD j = false) ∧
    (clz64 a < 64 → a.getMsbD (clz64 a) = true) := by
  unfold clz64
  split
  next h =>
    rw [h]
    exact ⟨Nat.le_refl 64, fun j _ => BitVec.getMsbD_zero, fun hlt => absurd hlt (Nat.lt_irrefl 64)⟩
  next h =>
    have ha : a.toNat ≠ 0 := fun e => h (BitVec.eq_of_toNat_eq e)
    have hlog : a.toNat.log2 < 64 := (Nat.log2_lt ha).mpr a.isLt
    refine ⟨by omega, fun j hj => ?_, fun _ => ?_⟩
    · rw [BitVec.getMsbD, Bool.and_eq_false_imp]
      intro _
      exact Nat.testBit_lt_two_pow ((Nat.log2_lt ha).mp (by omega))
    · rw [BitVec.getMsbD, decide_eq_true (by omega), Bool.true_and, show 64 - 1 - (63 - a.toNat.log2) = a.toNat.log2 by omega]
      exact testBit_log2 ha

/-- The first number of a list with a property, by the loop of `ctz64`. -/
theorem foldr_first (p : Nat → Bool) (d : Nat) (l : List Nat) :
    l.foldr (fun i r => if p i then i else r) d = (l.find? p).getD d := by
  induction l with
  | nil => rfl
  | cons a t ih =>
    rw [List.foldr_cons, ih, List.find?_cons]
    cases p a <;> rfl

/-- The bits below the lowest one are zero. -/
theorem ctz64_spec (a : DWord) : ctz64 a ≤ 64 ∧ (∀ j < ctz64 a, a.getLsbD j = false) ∧
    (ctz64 a < 64 → a.getLsbD (ctz64 a) = true) := by
  have hfirst : ctz64 a = ((List.range 64).find? a.getLsbD).getD 64 := foldr_first _ _ _
  rw [hfirst]
  cases h : (List.range 64).find? a.getLsbD with
  | none =>
    refine ⟨Nat.le_refl 64, fun j hj => ?_, fun hlt => absurd hlt (Nat.lt_irrefl 64)⟩
    exact Bool.eq_false_iff.mpr (List.find?_eq_none.mp h j (List.mem_range.mpr hj))
  | some n =>
    obtain ⟨hn, hmem, hbelow⟩ := List.find?_range_eq_some.mp h
    exact ⟨Nat.le_of_lt (List.mem_range.mp hmem), fun j hj => by simpa using hbelow j hj, fun _ => hn⟩

theorem foldl_add_b2n (p : Nat → Bool) (l : List Nat) (m : Nat) :
    l.foldl (fun n i => n + b2n (p i)) m = m + l.countP p := by
  induction l generalizing m with
  | nil => rfl
  | cons a t ih =>
    rw [List.foldl_cons, ih, List.countP_cons, b2n]
    omega

/-- The loop of POPC counts the bits that are one. -/
theorem popc64_eq (a : DWord) : popc64 a = (List.range 64).countP fun j => a.getLsbD j :=
  (foldl_add_b2n a.getLsbD (List.range 64) 0).trans (Nat.zero_add _)

theorem bitCounts : BitCounts := by
  intro s c rd a hx
  obtain ⟨hclz, hlead, hone⟩ := clz64_spec ((s.core c.val).gs a)
  obtain ⟨hctz, htrail, hlow⟩ := ctz64_spec ((s.core c.val).gs a)
  refine ⟨⟨_, hclz, hlead, hone, gives_onCore (i := .clz c rd a) hx rfl rfl⟩,
    ⟨_, hctz, htrail, hlow, gives_onCore (i := .ctz c rd a) hx rfl rfl⟩, ?_⟩
  rw [← popc64_eq]
  exact gives_onCore (i := .popc c rd a) hx rfl rfl

/-! ## Quotients -/

section

variable {x y : DWord}

theorem toInt_eq_min_iff : x.toInt = -9223372036854775808 ↔ x = w64 (2 ^ 63) := by
  rw [← BitVec.toInt_inj]
  rfl

theorem toInt_eq_neg_one_iff : y.toInt = -1 ↔ y = -1 := by
  rw [← BitVec.toInt_inj]
  rfl

/-- A quotient that has 64 bits is exact. -/
theorem quoS_exact (hy : y ≠ 0) (h : ¬ (x.toInt = -9223372036854775808 ∧ y.toInt = -1)) :
    quoS x y = (BitVec.ofInt 64 (x.toInt.tdiv y.toInt), false) := by
  rw [toInt_eq_min_iff, toInt_eq_neg_one_iff] at h
  rw [quoS, if_neg hy, if_neg h]

/-- Any other quotient saturates. -/
theorem quoS_saturated (h : y = 0 ∨ (x.toInt = -9223372036854775808 ∧ y.toInt = -1)) :
    quoS x y = (if y = 0 ∧ x.toInt < 0 then 0x8000000000000000 else 0x7FFFFFFFFFFFFFFF, true) := by
  rw [toInt_eq_min_iff, toInt_eq_neg_one_iff] at h
  unfold quoS
  by_cases hy : y = 0
  · simp only [hy, if_true, true_and, BitVec.slt_iff_toInt_lt]
    rfl
  · rw [if_neg hy, if_pos (h.resolve_left hy), if_neg fun hn => hy hn.1]
    rfl

end

/-- A quotient goes to its register, with DIVSAT where it saturated. -/
theorem exec_quo {s : State} {c : CoreId} {i : Instr} {rd : Rg} {f : Core → DWord × Bool} {v : DWord} {sat : Bool}
    (hx : Executes s c) (he : exec i s = s.quo c i rd f) (hf : f (s.core c.val) = (v, sat)) : Gives i s fun t =>
      Retires s t c { (if sat then (s.core c.val).orFlags fDivsat else s.core c.val).setGs rd v with
        pc := (s.core c.val).pc + 4 } 0 0 := by
  have hg := gives_onCore hx he rfl
  rw [hf] at hg
  exact hg

theorem quotientsSaturate : QuotientsSaturate := by
  intro s c rd a b hx k x y
  refine ⟨fun hy h => ?_, fun h => ?_, fun hy => ?_, fun hy => ?_⟩
  · exact exec_quo (i := .quos c rd a b) hx rfl (quoS_exact hy h)
  · exact exec_quo (i := .quos c rd a b) hx rfl (quoS_saturated h)
  · exact exec_quo (i := .quou c rd a b) hx rfl (if_neg hy)
  · exact exec_quo (i := .quou c rd a b) hx rfl (if_pos hy)

/-! ## Conversions -/

theorem scalarConversions : ScalarConversions := by
  intro s c rd a f hx k x y
  exact ⟨gives_onCore (i := .cvtif c rd a f) hx rfl rfl, gives_onCore (i := .cvtfi c rd a f) hx rfl rfl⟩

/-- Settles O4: each part is one register set, with the model's function brought to the words of the rules. -/
theorem specialResults : Obligations.SpecialResults := ⟨bitCounts, quotientsSaturate, scalarConversions⟩

end Sys2Proof.Machine
end

section
/-!
SUPPORT. Further ends of an instruction: at an address, in a wait or at the end of a task, and after an event of its core was counted.
-/

namespace Sys2Proof.Machine

open Sys2Proof.Safety

section

variable {s u : State} {c : CoreId} {i : Instr} {word : Word} {cls : Nat} {body : State → InsRes} {pc : DWord}

/-- An instruction whose body completes at an address. -/
theorem gives_jump (hx : Executes s c) (he : exec i s = .next (s.runIns c word cls body)) (hb : body s = .jump u pc) :
    Gives i s fun t => Retires u t c { u.core c.val with pc := pc } 0 0 := by
  refine ⟨_, he, ?_⟩
  have hret := completed_keeps (u.setPc c.val pc) (s.core c.val) c (s.coreClk c.val) word cls
  rw [State.setPc, State.core_setCore_same] at hret
  rw [runIns_jump hx hb]
  exact retires_of_setCore hret

/-- The same where the body has set the core's registers. -/
theorem gives_jump_setCore {k : Core} (hx : Executes s c) (he : exec i s = .next (s.runIns c word cls body))
    (hb : body s = .jump (u.setCore c.val k) pc) : Gives i s fun t => Retires u t c { k with pc := pc } 0 0 := by
  obtain ⟨t, ht, hret⟩ := gives_jump hx he hb
  rw [State.core_setCore_same] at hret
  exact ⟨t, ht, retires_of_setCore hret⟩

/-- The same as `gives_onCore`, seen from the state in which the body sets the core's registers. -/
theorem gives_ok_setCore {k : Core} (hx : Executes s c) (he : exec i s = .next (s.runIns c word cls body))
    (hb : body s = .ok (u.setCore c.val k)) : Gives i s fun t => Retires u t c { k with pc := (s.core c.val).pc + 4 } 0 0 := by
  obtain ⟨t, ht, hret⟩ := gives_ok hx he hb
  rw [State.core_setCore_same] at hret
  exact ⟨t, ht, retires_of_setCore hret⟩

/-- An instruction that completes and leaves the PC where its body put it. -/
theorem gives_stay (hx : Executes s c) (he : exec i s = .next (s.runIns c word cls body)) (hb : body s = .stay u true) :
    Gives i s fun t => Retires u t c (u.core c.val) 0 0 := by
  obtain ⟨hrun, hfetch⟩ := hx
  refine ⟨_, he, ?_⟩
  have hret := completed_keeps u (s.core c.val) c (s.coreClk c.val) word cls
  simp only [State.runIns, hrun, hfetch, hb, ne_eq, not_true_eq_false, if_false, if_true]
  exact hret

/-- An instruction that does not complete: the core goes into a wait. -/
theorem gives_wait (hx : Executes s c) (he : exec i s = .next (s.runIns c word cls body)) (hb : body s = .stay u false) :
    Gives i s fun t => t = u := by
  obtain ⟨hrun, hfetch⟩ := hx
  refine ⟨_, he, ?_⟩
  simp only [State.runIns, hrun, hfetch, hb, ne_eq, not_true_eq_false, if_false, Bool.false_eq_true]

end

/-- An event of the core that is counted only in some case. -/
theorem countsOnly_event_unless (s : State) (c : CoreId) (ev pl cls : Nat) (p : Prop) [Decidable p] :
    CountsOnly s (if p then s else s.coreEvent c.val ev pl cls) := by
  split
  · exact CountsOnly.refl s
  · exact CountsOnly.coreEvent s c.val ev pl cls c.isLt

/-- The frame from a state whose performance counters have yet to count. -/
theorem retires_of_countsOnly {s u t : State} {c : CoreId} {k : Core} {lo n : Nat} (hc : CountsOnly s u)
    (h : Retires u t c k lo n) : Retires s t c k lo n := by
  refine ⟨h.core, fun d hd => (h.others d hd).trans (hc.core d), fun a ha hs => ?_, hc.apart.trans h.apart⟩
  rw [h.memory a ha fun g => hs ((InSample_of_CountsOnly hc c a).mp g), State.rdByte, hc.mem, State.rdByte]

end Sys2Proof.Machine
end

section
/-!
Branches and jumps (O5).
-/

namespace Sys2Proof.Machine

open Sys2Proof.Safety

/-! ## The conditions of branches -/

theorem slt_zero (x : DWord) : x.slt 0 = decide (x.toInt < 0) := rfl

theorem not_slt_zero (x : DWord) : (!x.slt 0) = decide (0 ≤ x.toInt) := by
  rw [slt_zero, ← decide_not, decide_eq_decide]
  omega

theorem all_bits_eq (v : Byte) : (List.range 8).all (fun j => v.getLsbD j) = decide (v = 0xFF) := by
  revert v
  decide

theorem any_bit_eq (v : Byte) : (List.range 8).any (fun j => v.getLsbD j) = decide (v ≠ 0) := by
  revert v
  decide

/-- BP's condition bit by bit (R409). -/
theorem bpTaken_eq (k : Core) (all neg : Bool) (p : Pr) : bpTaken k all neg p = xor neg
    (if all then (List.range 8).all (fun j => (k.pr p).getLsbD j) else (List.range 8).any fun j => (k.pr p).getLsbD j) := by
  rw [all_bits_eq, any_bit_eq, bpTaken, Bool.xor_comm]
  cases all <;> rfl

/-- Every conditional branch is `State.branchIns` with its condition. -/
theorem exec_of_branchOp {i : Instr} {c : CoreId} {off : BitVec 20} {taken : Core → Bool} (h : branchOp i = some (c, off, taken))
    (s : State) : exec i s = s.branchIns c i off taken := by
  unfold branchOp at h
  split at h <;> cases h
  case h_1 | h_2 => rfl
  case h_3 r => exact congrArg (s.branchIns c (.bltz c r off) off) (funext fun k => slt_zero (k.gs r))
  case h_4 r => exact congrArg (s.branchIns c (.bgez c r off) off) (funext fun k => not_slt_zero (k.gs r))
  case h_5 all neg p => exact congrArg (s.branchIns c (.bp c all neg p off) off) (funext fun k => bpTaken_eq k all neg p)

section

variable {s : State} {c : CoreId} (hx : Executes s c)

include hx

theorem exec_branch {i : Instr} {off : BitVec 20} {taken : Core → Bool} (hi : branchOp i = some (c, off, taken)) :
    Gives i s fun t => Retires s t c { s.core c.val with
      pc := (s.core c.val).pc + (if taken (s.core c.val) then off.signExtend 64 * 4 else 4) } 0 0 := by
  have he := exec_of_branchOp hi s
  cases ht : taken (s.core c.val) with
  | true => exact gives_jump hx he (if_pos ht)
  | false => exact gives_ok hx he (if_neg (ne_true_of_eq_false ht))

theorem exec_jal (rd : Rg) (off : BitVec 20) : Gives (.jal c rd off) s fun t => Retires s t c
    { (s.core c.val).setGs rd ((s.core c.val).pc + 4) with pc := (s.core c.val).pc + off.signExtend 64 * 4 } 0 0 :=
  gives_jump_setCore (i := .jal c rd off) hx rfl rfl

variable {rd a : Rg} {i : BitVec 14}

theorem exec_jalr_aligned (h : ((s.core c.val).gs a + i.signExtend 64).toNat % 4 = 0) :
    Gives (.jalr c rd a i) s fun t => Retires s t c
      { (s.core c.val).setGs rd ((s.core c.val).pc + 4) with pc := (s.core c.val).gs a + i.signExtend 64 } 0 0 :=
  gives_jump_setCore (i := .jalr c rd a i) hx rfl (if_neg (by rw [h]; decide))

/-- A misaligned target has no effect but the exception (R410). -/
theorem exec_jalr_misaligned (h : ((s.core c.val).gs a + i.signExtend 64).toNat % 4 ≠ 0) :
    Gives (.jalr c rd a i) s fun t => t = s.excEntry c.val 0x02 ((s.core c.val).gs a + i.signExtend 64) :=
  gives_exc (i := .jalr c rd a i) hx rfl (if_pos (bne_iff_ne.mpr h))

end

/-- Settles O5: a branch goes on at one of two addresses, a jump writes its link and goes to its target. -/
theorem branches : Obligations.Branches := by
  unfold Obligations.Branches
  exact fun s c hx => ⟨fun _ _ _ hi => exec_branch hx hi, exec_jal hx, fun _ _ _ h => exec_jalr_aligned hx h,
    fun _ _ _ h => exec_jalr_misaligned hx h⟩

end Sys2Proof.Machine
end

section
/-!
The lane rule of vector instructions (O11).
-/

namespace Sys2Proof.Machine

open Sys2Proof.Safety

/-! ## One lane (R413) -/

/-- The result of an instruction in a lane depends on that lane of the registers alone. -/
def LaneLocal (f : Core → Nat → LaneRes) : Prop :=
  ∀ (k k' : Core) (l : Nat), (∀ r, k'.lane r l = k.lane r l) → f k' l = f k l

/-- The lane is active and its sources are all present. -/
def Core.liveLane (k : Core) (g : Pr) (srcs : List Rg) (l : Nat) : Bool := k.prBit g l && k.allPresent srcs l

/-- What the lane rule writes in a lane, if anything. -/
def Core.laneWritten (g : Pr) (srcs : List Rg) (f : Core → Nat → LaneRes) (k : Core) (l : Nat) : Option Lane :=
  if k.prBit g l then some (if k.liveLane g srcs l then ⟨w32 (f k l).re, w32 (f k l).im, true⟩ else laneAbsent) else none

/-- FFLAGS after the lane rule was applied to a lane. -/
def Core.laneFlags (g : Pr) (srcs : List Rg) (f : Core → Nat → LaneRes) (k : Core) (l : Nat) (a : Word) : Word :=
  if k.liveLane g srcs l then a ||| w32 (f k l).flags else a

section

variable (d : Rg) (g : Pr) (srcs : List Rg) {f : Core → Nat → LaneRes}

theorem Core.vecLane_eq (k : Core) (l : Nat) : Core.vecLane d g srcs f k l =
    { (match Core.laneWritten g srcs f k l with | some x => k.setLane d l x | none => k) with
      fflags := Core.laneFlags g srcs f k l k.fflags } := by
  unfold Core.vecLane Core.laneWritten Core.laneFlags Core.liveLane
  cases k.prBit g l <;> cases k.allPresent srcs l <;> rfl

theorem Core.vecLane_fflags (k : Core) (l : Nat) :
    (Core.vecLane d g srcs f k l).fflags = Core.laneFlags g srcs f k l k.fflags := by rw [Core.vecLane_eq]

theorem Core.vecLane_p (k : Core) (l : Nat) : (Core.vecLane d g srcs f k l).p = k.p := by
  rw [Core.vecLane_eq]
  cases Core.laneWritten g srcs f k l <;> rfl

theorem Core.vecLane_lane_ne (k : Core) (r : Rg) {l m : Nat} (hl : l < 8) (hm : m < 8) (h : m ≠ l) :
    (Core.vecLane d g srcs f k l).lane r m = k.lane r m := by
  rw [Core.vecLane_eq]
  cases Core.laneWritten g srcs f k l with
  | none => rfl
  | some x => exact (Core.lane_setLane k d r l m x hl hm).trans (if_neg fun e => h e.2)

variable (hf : LaneLocal f) {k k0 : Core} {l : Nat} (hlane : ∀ r, k.lane r l = k0.lane r l) (hp : k.p = k0.p)

include hlane hp

theorem Core.liveLane_congr : k.liveLane g srcs l = k0.liveLane g srcs l := by
  simp only [Core.liveLane, Core.allPresent, hlane, Core.prBit_congr hp]

include hf

theorem Core.laneWritten_congr : Core.laneWritten g srcs f k l = Core.laneWritten g srcs f k0 l := by
  simp only [Core.laneWritten, Core.liveLane_congr g srcs hlane hp, hf k0 k l hlane, Core.prBit_congr hp]

theorem Core.laneFlags_congr (a : Word) : Core.laneFlags g srcs f k l a = Core.laneFlags g srcs f k0 l a := by
  simp only [Core.laneFlags, Core.liveLane_congr g srcs hlane hp, hf k0 k l hlane]

end

/-! ## All lanes -/

/-- The loop over lanes collects the conditions that each lane raises as it stood before the instruction. -/
theorem fflags_foldl_vecLane (d : Rg) (g : Pr) (srcs : List Rg) {f : Core → Nat → LaneRes} (hf : LaneLocal f) (k0 : Core)
    (L : List Nat) (hL : ∀ l ∈ L, l < 8) (nd : L.Nodup) (k : Core) (hk : ∀ l ∈ L, ∀ r, k.lane r l = k0.lane r l) (hp : k.p = k0.p) :
    (L.foldl (Core.vecLane d g srcs f) k).fflags = L.foldl (fun a l => Core.laneFlags g srcs f k0 l a) k.fflags := by
  induction L generalizing k with
  | nil => rfl
  | cons a t ih =>
    obtain ⟨hne, hnd⟩ := List.nodup_cons.mp nd
    have ha := hL a List.mem_cons_self
    have ht (l : Nat) (h : l ∈ t) : l < 8 := hL l (List.mem_cons_of_mem _ h)
    have hrest (l : Nat) (h : l ∈ t) (r : Rg) : (Core.vecLane d g srcs f k a).lane r l = k0.lane r l := by
      rw [Core.vecLane_lane_ne d g srcs k r ha (ht l h) fun e => hne (e ▸ h), hk l (List.mem_cons_of_mem _ h)]
    rw [List.foldl_cons, List.foldl_cons, ih ht hnd _ hrest ((Core.vecLane_p d g srcs k a).trans hp), Core.vecLane_fflags,
      Core.laneFlags_congr g srcs hf (hk a List.mem_cons_self) hp]

/-- What the loop over lanes writes: lanes of one register, and FFLAGS. -/
theorem foldl_vecLane (k : Core) (d : Rg) (g : Pr) (srcs : List Rg) {f : Core → Nat → LaneRes} (hf : LaneLocal f) :
    let k' := (List.range 8).foldl (Core.vecLane d g srcs f) k
    k' = { k with v := k'.v, fflags := (List.range 8).foldl (fun a l => Core.laneFlags g srcs f k l a) k.fflags } ∧
      ∀ (r : Rg) (l : Nat), l < 8 → k'.lane r l = if r = d then (Core.laneWritten g srcs f k l).getD (k.lane r l) else k.lane r l := by
  have hmem (l : Nat) (h : l ∈ List.range 8) : l < 8 := List.mem_range.mp h
  have hflags := fflags_foldl_vecLane d g srcs hf k _ hmem List.nodup_range k (fun _ _ _ => rfl) rfl
  obtain ⟨hrest, hlane⟩ := lanes_fold d (Core.laneWritten g srcs f) (fun k l => Core.laneFlags g srcs f k l k.fflags) _
    (Core.vecLane_eq d g srcs) _ hmem List.nodup_range k k (fun l _ k' hk hp _ => Core.laneWritten_congr g srcs hf hk hp)
    (fun _ _ _ => rfl) rfl rfl
  refine ⟨?_, fun r l hl => ?_⟩
  · rw [← hflags]
    exact hrest
  · rw [hlane r l hl]
    simp only [List.mem_range, hl, and_true]

/-! ## The instructions -/

/-- The lane as a signed integer, and an integer in a lane. -/
theorem signedOf_lane (x : Lane) : signedOf 32 x.x = x.re.toInt := by
  rw [signedOf_eq_toInt, Lane.x, BitVec.ofNat_toNat, BitVec.setWidth_eq]

theorem wrapInt_eq (v : Int) : wrapInt 32 v = (BitVec.ofInt 32 v).toNat := (BitVec.toNat_ofInt ..).symm

/-- Every instruction of `vecOp` is `State.vec` with its result, which depends on the lane alone. -/
theorem exec_of_vecOp {i : Instr} {c : CoreId} {d : Rg} {g : Pr} {srcs : List Rg} {f : Core → Nat → LaneRes}
    (h : vecOp i = some (c, d, g, srcs, f)) : LaneLocal f ∧ ∀ s, exec i s = s.vec c i d g srcs f := by
  unfold vecOp at h
  split at h <;> cases h
  case h_16 a n =>
    refine ⟨fun k k' l h => by simp only [h], fun s => ?_⟩
    simp only [← signedOf_lane]
    rfl
  case h_17 a n =>
    refine ⟨fun k k' l h => by simp only [h], fun s => ?_⟩
    simp only [← wrapInt_eq]
    rfl
  all_goals exact ⟨fun k k' l h => by simp only [h], fun s => rfl⟩

/-- An instruction under the lane rule runs the loop over lanes and counts an event for each lane it makes absent. -/
theorem exec_vecOp {s : State} {i : Instr} {c : CoreId} {d : Rg} {g : Pr} {srcs : List Rg} {f : Core → Nat → LaneRes}
    (he : exec i s = s.vec c i d g srcs f) (hx : Executes s c) : Gives i s fun t => Retires s t c
      { (List.range 8).foldl (Core.vecLane d g srcs f) (s.core c.val) with pc := (s.core c.val).pc + 4 } 0 0 :=
  ⟨_, he, runIns_onCore_events s c _ 3 _ 0x0A _ 3 _ hx rfl⟩

/-- Settles O11: the loop over lanes writes what the rule says, and events of the performance monitor are all that is added. -/
theorem laneRule : Obligations.LaneRule := by
  unfold Obligations.LaneRule
  intro s i c d g srcs f hi hx k live
  obtain ⟨hf, he⟩ := exec_of_vecOp hi
  obtain ⟨hrest, hlane⟩ := foldl_vecLane k d g srcs hf
  obtain ⟨t, ht, hret⟩ := exec_vecOp (he s) hx
  have hv := core_v_of_retires hret
  refine ⟨t, ht, ?_, fun r l hl => ?_⟩
  · rw [hv]
    rw [hrest] at hret
    exact hret
  · rw [Core.lane, hv]
    refine (hlane r l hl).trans ?_
    rw [Core.laneWritten, Core.prBit_eq, ite_and]
    cases (k.pr g).getLsbD l <;> rfl

end Sys2Proof.Machine
end

section
/-!
Queue instructions (O15).
-/

namespace Sys2Proof.Machine

open Sys2Proof.Safety

/-! ## Entries in memory -/

/-- Two entries with the same bytes are the same. -/
theorem entry_eq_of_bytes {x y : Entry} (h : ∀ j < 32, x.extractLsb' (8 * j) 8 = y.extractLsb' (8 * j) 8) : x = y := by
  apply BitVec.eq_of_getLsbD_eq
  intro i hi
  have hbyte := congrArg (BitVec.getLsbD · (i % 8)) (h (i / 8) (by omega))
  have hlt : i % 8 < 8 := by omega
  simpa only [BitVec.getLsbD_extractLsb', hlt, decide_true, Bool.true_and, Nat.div_add_mod] using hbyte

/-- The entry read from 32 bytes of memory has those bytes. -/
theorem State.entry_of_bytes {s : State} {a : Nat} {e : Entry} (h : ∀ j < 32, e.extractLsb' (8 * j) 8 = s.rdByte (a + j)) :
    BitVec.ofNat 256 (s.rdLe a 32) = e :=
  entry_eq_of_bytes fun j hj => (s.rdLe_extract a 32 j hj).trans (h j hj).symm

theorem entryBytes_length (e : Entry) : (entryBytes e).length = 32 := leBytes_length 32 _

theorem entryBytes_getD (e : Entry) {j : Nat} (h : j < 32) (d : Byte) : (entryBytes e).getD j d = e.extractLsb' (8 * j) 8 := by
  rw [entryBytes, leBytes_getD _ _ _ _ h]
  apply BitVec.eq_of_toNat_eq
  rw [BitVec.extractLsb'_toNat, BitVec.toNat_ofNat, Nat.shiftRight_eq_div_pow, ← pow_256]

/-- The frame after an entry was delivered: its bytes stand in memory, with no entry nothing is written. -/
theorem retires_deliver {u t : State} {c : CoreId} {k : Core} {a : Nat} {e : Option QEntry}
    (h : Retires (u.deliver a e) t c k 0 0) : Retires u t c k a (if e.isSome then 32 else 0) ∧
      ∀ x, e = some x → ∀ j < 32, ¬ InSample u c (a + j) → t.rdByte (a + j) = x.data.extractLsb' (8 * j) 8 := by
  obtain ⟨hcore, hothers, hmem, hapart⟩ := h
  cases e with
  | none => exact ⟨⟨hcore, hothers, fun b _ hs => hmem b (by omega) hs, hapart⟩, fun x hx => by cases hx⟩
  | some x =>
    have hbyte (b : Nat) (hs : ¬ InSample u c b) : t.rdByte b = (u.wrBytes a (entryBytes x.data)).rdByte b := hmem b (by omega) hs
    refine ⟨⟨hcore, hothers, fun b hb hs => ?_, (Apart.wrBytes u a _).trans hapart⟩, fun y hy j hj hs => ?_⟩
    · rw [hbyte b hs, State.rdByte_wrBytes, entryBytes_length, if_neg]
      simp only [Option.isSome_some, if_true] at hb
      omega
    · cases hy
      rw [hbyte _ hs, State.rdByte_wrBytes, entryBytes_length, if_pos (by omega), Nat.add_sub_cancel_left, entryBytes_getD _ hj]

/-! ## The end of a queue instruction -/

/-- The status goes to its register, after an event of the performance monitor where the result is not zero. -/
theorem State.queueEnd_eq (u : State) (c : CoreId) (rd : Rg) (n result : Nat) (e : Option QEntry) :
    ∃ v, CountsOnly u v ∧ u.queueEnd c rd n result e =
      .ok (v.setCore c.val ((u.core c.val).setGs rd (queueStatus (u.queue n).level result e))) := by
  have hcount := countsOnly_event_unless u c 0x0B (u.core c.val).pl 6 (result = 0)
  refine ⟨_, hcount, ?_⟩
  unfold State.queueEnd State.onCore
  dsimp only
  generalize (if result = 0 then u else u.coreEvent c.val 0x0B (u.core c.val).pl 6) = v at *
  have hqueue : v.queue n = u.queue n := by
    rw [hcount.fields]
    rfl
  rw [hcount.core, hqueue]

section

variable {s : State} {c : CoreId} {i : Instr} {cls : Nat} {x : Reach} {a : Nat} {u : State} {rd : Rg} {n result : Nat}
  {e : Option QEntry} {rest : State → InsRes} {acc : State → Nat}

/-- A queue instruction whose access raises no exception. -/
theorem gives_queueEnd (hx : Executes s c) (he : exec i s = .next (s.runIns c (encode i) cls fun s =>
      s.checked c.val (encode i) x (acc s) (rest s)))
    (ha : acc s % x.align = 0) (hr : Reaches s c x.perm (acc s) x.size) (hrest : rest s = u.queueEnd c rd n result e) :
    Gives i s fun t => Retires u t c
      { (u.core c.val).setGs rd (queueStatus (u.queue n).level result e) with pc := (s.core c.val).pc + 4 } 0 0 := by
  obtain ⟨v, hcount, hend⟩ := u.queueEnd_eq c rd n result e
  have hf := s.dataFault_memory c (encode i) x (acc s) ha hr
  obtain ⟨t, ht, hret⟩ := gives_ok_setCore hx he ((State.checked_of_none hf _).trans (hrest.trans hend))
  exact ⟨t, ht, retires_of_countsOnly hcount hret⟩

/-- The same where the entry `e` is delivered to memory first. -/
theorem gives_deliver (hx : Executes s c) (he : exec i s = .next (s.runIns c (encode i) cls fun s =>
      s.checked c.val (encode i) x (acc s) (rest s)))
    (ha : acc s % x.align = 0) (hr : Reaches s c x.perm (acc s) x.size)
    (hrest : rest s = (u.deliver (acc s) e).queueEnd c rd n result e) :
    Gives i s fun t => Retires u t c
        { (u.core c.val).setGs rd (queueStatus (u.queue n).level result e) with pc := (s.core c.val).pc + 4 }
        (acc s) (if e.isSome then 32 else 0) ∧
      ∀ y, e = some y → ∀ j < 32, ¬ InSample u c (acc s + j) → t.rdByte (acc s + j) = y.data.extractLsb' (8 * j) 8 := by
  obtain ⟨t, ht, hret⟩ := gives_queueEnd hx he ha hr hrest
  have hcore : (u.deliver (acc s) e).core c.val = u.core c.val := by cases e <;> rfl
  have hqueue : (u.deliver (acc s) e).queue n = u.queue n := by cases e <;> rfl
  rw [hcore, hqueue] at hret
  exact ⟨t, ht, retires_deliver hret⟩

end

/-- Settles O15: with its entry within reach, each instruction is the queue's operation, its delivery and its status. -/
theorem queueInstructions : Obligations.QueueInstructions := by
  unfold Obligations.QueueInstructions
  intro s c rd rs n hx k a m ha
  have hm : m = k.queueNo n := by cases n <;> rfl
  clear_value m
  subst hm
  refine ⟨fun hr first last e he => ?_, fun hr => ⟨?_, ?_⟩⟩
  · rw [← State.entry_of_bytes he]
    exact gives_queueEnd (i := .qpush c rd rs n first last) (x := entryReach true) (acc := fun s => ((s.core c.val).gs rs).toNat)
      hx rfl ha hr rfl
  · exact gives_deliver (i := .qpop c rd rs n) (x := entryReach false) (acc := fun s => ((s.core c.val).gs rs).toNat) hx rfl ha hr rfl
  · exact gives_deliver (i := .qpeek c rd rs n) (x := entryReach false) (acc := fun s => ((s.core c.val).gs rs).toNat) hx rfl ha hr rfl

end Sys2Proof.Machine
end

section
/-!
Posts, waits and the end of a wait (O16).
-/

namespace Sys2Proof.Machine

open Sys2Proof.Safety

theorem State.bellHolds_iff (s : State) (c : Nat) :
    s.bellHolds c = true ↔ (s.reg (R.MBX_DB + 0x40 * c) &&& s.reg (R.MBX_MASK + 0x40 * c)) ≠ 0 := decide_eq_true_iff

theorem State.queueHolds_iff (s : State) (n : Nat) : s.queueHolds n = true ↔ (s.queue n).entries ≠ [] := by
  rw [State.queueHolds, Bool.not_eq_true', ← Bool.not_eq_true, List.isEmpty_iff]

/-- Both forms of WAITEV wait for an event of their own. -/
theorem exec_waitevD (s : State) (c : CoreId) (rd rs : Rg) : exec (.waitevD c rd rs) s =
    s.waitev c (.waitevD c rd rs) rd rs (fun s => s.bellHolds c.val) fun t us w => .waitD t us rd w := rfl

theorem exec_waitevQ (s : State) (c : CoreId) (rd rs : Rg) (n : Byte) : exec (.waitevQ c rd rs n) s =
    s.waitev c (.waitevQ c rd rs n) rd rs (fun s => s.queueHolds n.toNat) fun t us w => .waitQ n.toNat t us rd w := rfl

section

variable {s : State} {c : CoreId} (hx : Executes s c)

include hx

/-- DBELL writes the result of the post, and counts an event where the post was refused (R427). -/
theorem exec_dbell (rd rs : Rg) (n : Byte) (b : BitVec 5) :
    let r := s.post n.toNat c.val ((s.core c.val).gs rs) b.toNat
    Gives (.dbell c rd rs n b) s fun t =>
      Retires r.1 t c { (r.1.core c.val).setGs rd (BitVec.ofNat 64 r.2) with pc := (s.core c.val).pc + 4 } 0 0 := by
  intro r
  have hcount := countsOnly_event_unless r.1 c 0x0B (s.core c.val).pl 6 (r.2 = 0)
  obtain ⟨t, ht, hret⟩ := gives_ok_setCore (i := .dbell c rd rs n b) hx rfl rfl
  rw [hcount.core] at hret
  exact ⟨t, ht, retires_of_countsOnly hcount hret⟩

variable {i : Instr} {rd rs : Rg} {holds : State → Bool} {wait : Nat → Nat → Word → CoreRun}
  (he : exec i s = s.waitev c i rd rs holds wait)

include he

/-- Under DET a WAITEV may have no timeout (R399). -/
theorem exec_waitev_det (hd : ((s.core c.val).det && ((s.core c.val).gs rs).toNat % 2 ^ 32 != 0) = true) :
    Gives i s fun t => t = s.excEntry c.val 0x05 ((encode i).setWidth 64) := by
  rw [← wordEval_eq]
  exact gives_exc hx he (if_pos hd)

variable (hd : ((s.core c.val).det && ((s.core c.val).gs rs).toNat % 2 ^ 32 != 0) = false)

include hd

theorem exec_waitev_holds (h : holds s = true) : Gives i s fun t =>
    Retires s t c { (s.core c.val).setGs rd 0 with pc := (s.core c.val).pc + 4 } 0 0 :=
  gives_onCore (f := fun k => k.setGs rd 0) hx he ((if_neg (ne_true_of_eq_false hd)).trans (if_pos h))

theorem exec_waitev_waits (h : holds s = false) : Gives i s fun t => t = s.setCore c.val { s.core c.val with
    run := wait s.now (((s.core c.val).gs rs).toNat % 2 ^ 32) (encode i), kickAt := s.now, wdogWarned := false } :=
  gives_wait hx he ((if_neg (ne_true_of_eq_false hd)).trans (if_neg (ne_true_of_eq_false h)))

end

/-- R427, R428: the post, and WAITEV by its three arms. -/
theorem postAndWait : PostAndWait := by
  intro s c rd rs hx k us
  refine ⟨exec_dbell hx rd rs, fun hdet hus n => ?_, fun hdet => ?_⟩
  · have hd : (k.det && us != 0) = true := by rw [hdet, bne_iff_ne.mpr hus]; rfl
    exact ⟨exec_waitev_det hx (exec_waitevD s c rd rs) hd, exec_waitev_det hx (exec_waitevQ s c rd rs n) hd⟩
  · have hd : (k.det && us != 0) = false := by
      rcases hdet with h | h
      · rw [h, Bool.false_and]
      · rw [h, bne_self_eq_false, Bool.and_false]
    have hbell := s.bellHolds_iff c.val
    refine ⟨fun h => exec_waitev_holds hx (exec_waitevD s c rd rs) hd (hbell.mpr h), fun h =>
      exec_waitev_waits hx (exec_waitevD s c rd rs) hd (Bool.eq_false_iff.mpr fun g => hbell.mp g h), fun n => ?_⟩
    have hqueue := s.queueHolds_iff n.toNat
    exact ⟨fun h => exec_waitev_holds hx (exec_waitevQ s c rd rs n) hd (hqueue.mpr h), fun h =>
      exec_waitev_waits hx (exec_waitevQ s c rd rs n) hd (Bool.eq_false_iff.mpr fun g => hqueue.mp g h)⟩

/-! ## The end of a wait -/

/-- The core that waited runs on after its WAITEV. -/
theorem retires_endWait (s : State) (c : CoreId) (rd : Rg) (w : Word) (v : DWord) : Retires s (s.endWait c rd w v) c
    { (s.core c.val).setGs rd v with run := .run, pc := (s.core c.val).pc + 4 } 0 0 := by
  have hret := completed_keeps (s.setCore c.val { (s.core c.val).setGs rd v with run := .run, pc := (s.core c.val).pc + 4 })
    (s.core c.val) c (s.coreClk c.val) w 6
  rw [State.core_setCore_same] at hret
  exact retires_of_setCore hret

section

variable {s : State} {c : CoreId} {t0 us n dt : Nat} {rd : Rg} {w : Word}

theorem exec_waitevEvent_bell (hrun : (s.core c.val).run = .waitD t0 us rd w) (h : s.bellHolds c.val = true) :
    exec (.waitevEvent c) s = .next (s.endWait c rd w 0) := by
  show execWaitevEvent c s = _
  rw [execWaitevEvent, hrun]
  exact congrArg _ (if_pos h)

theorem exec_waitevEvent_queue (hrun : (s.core c.val).run = .waitQ n t0 us rd w) (h : s.queueHolds n = true) :
    exec (.waitevEvent c) s = .next (s.endWait c rd w 0) := by
  show execWaitevEvent c s = _
  rw [execWaitevEvent, hrun]
  exact congrArg _ (if_pos h)

theorem exec_waitevTimeout_over (hrun : (s.core c.val).run = .waitD t0 us rd w ∨ ∃ n, (s.core c.val).run = .waitQ n t0 us rd w)
    (h : (s.elapse dt).waitOver t0 us = true) : exec (.waitevTimeout c dt) s = .next ((s.elapse dt).endWait c rd w 2) := by
  have hcore : (s.elapse dt).core c.val = s.core c.val := rfl
  show execWaitevTimeout c dt s = _
  unfold execWaitevTimeout
  rcases hrun with hrun | ⟨n, hrun⟩
  · simp only [hcore, hrun, h, if_true]
  · simp only [hcore, hrun, h, if_true]

end

theorem waitsEnd : WaitsEnd := by
  intro s c t0 us rd w ends
  refine ⟨fun hrun h => ?_, fun n hrun h => ?_, fun dt hrun hus hover => ?_⟩
  · exact ⟨_, exec_waitevEvent_bell hrun ((s.bellHolds_iff c.val).mpr h), retires_endWait ..⟩
  · exact ⟨_, exec_waitevEvent_queue hrun ((s.queueHolds_iff n).mpr h), retires_endWait ..⟩
  · have hov : (s.elapse dt).waitOver t0 us = true := by
      rw [State.waitOver, bne_iff_ne.mpr hus, Bool.true_and, decide_eq_true_eq]
      exact hover
    exact ⟨_, exec_waitevTimeout_over hrun hov, retires_endWait ..⟩

/-- Settles O16, by its two halves. -/
theorem postsAndWaits : Obligations.PostsAndWaits := ⟨postAndWait, waitsEnd⟩

end Sys2Proof.Machine
end

section
/-!
Traps, returns, illegal words, fences and mode requests (O19).
-/

namespace Sys2Proof.Machine

open Sys2Proof.Safety

/-! ## The end of a task -/

/-- The core after its task has ended (R384). -/
def Core.afterTask (k : Core) (now : Nat) : Core :=
  { k with run := .wait, waitAt := now, task := none, kickAt := now, wdogWarned := false }

theorem State.keyState_stamp (s : State) (n : Nat) : s.stamp.keyState n = s.keyState n := rfl

theorem State.core_stamp (s : State) (d : Nat) : s.stamp.core d = s.core d := rfl

theorem State.core_releaseKey (s : State) (x : Task) (d : Nat) : (s.releaseKey x).core d = s.core d := by
  unfold State.releaseKey
  split <;> rfl

theorem State.keyState_releaseKey (s : State) {x : Task} (h : x.nokey = false) :
    ((s.releaseKey x).keyState x.key).running = false := by
  rw [State.releaseKey, if_neg (ne_true_of_eq_false h), State.keyState, State.setKey, mget_mset, if_pos rfl]

theorem State.endTask_core (s : State) (c : Nat) : (s.endTask c).core c = (s.core c).afterTask s.now := by
  unfold State.endTask
  dsimp only
  split
  · exact State.core_setCore_same ..
  · rw [State.core_stamp, State.core_releaseKey, State.core_bump]
    exact State.core_setCore_same ..

/-- The key of the task that ended is released (R443). -/
theorem State.endTask_releases {s : State} {c : Nat} {x : Task} (hx : (s.core c).task = some x) (hk : x.nokey = false) :
    ((s.endTask c).keyState x.key).running = false := by
  unfold State.endTask
  simp only [hx]
  rw [State.keyState_stamp]
  exact State.keyState_releaseKey _ hk

theorem keyState_of_retires {s t : State} {c : CoreId} {k : Core} {lo n : Nat} (h : Retires s t c k lo n) (key : Nat) :
    t.keyState key = s.keyState key := by
  rw [State.keyState, h.apart.fields]
  rfl

/-! ## The instructions -/

theorem State.setCnt_setCore (s : State) (c n : Nat) (k : Core) (v : DWord) :
    (s.setCore c k).setCnt n v = (s.setCnt n v).setCore c k := by
  unfold State.setCnt
  split <;> rfl

/-- A count and a core's registers are apart. -/
theorem State.bump_setCore (s : State) (c n : Nat) (k : Core) : (s.setCore c k).bump n = (s.bump n).setCore c k := by
  have hcnt : (s.setCore c k).cnt n = s.cnt n := rfl
  unfold State.bump State.bumpBy
  simp only [hcnt, State.setCnt_setCore]
  split <;> rfl

theorem Core.not_atS_of_pl {k : Core} (h : k.pl ≠ 0) : ¬ (!k.atS) = true := by
  rw [Bool.not_eq_true', Core.atS_eq_false]
  exact h


/-- STATUS as ERET restores it: on the Keeper Core level K (R368). -/
theorem eretStatus_eq (c : Nat) (st : Word) : eretStatus c st = if c = 20 then (st &&& ~~~3) ||| 2 else st := by
  unfold eretStatus
  split
  · apply BitVec.eq_of_getLsbD_eq
    intro i hi
    rw [w32, BitVec.getLsbD_ofNat, testBit_putBits, if_neg (Nat.not_lt_zero i), Nat.sub_zero]
    rw [BitVec.getLsbD_or, BitVec.getLsbD_and, BitVec.getLsbD_not, decide_eq_true hi]
    by_cases h : i < 2
    · obtain rfl | rfl : i = 0 ∨ i = 1 := by omega
      · simp
      · cases st.getLsbD 1 <;> rfl
    · have hbit (n : Nat) (hn : n < 2 ^ 2) : n.testBit i = false :=
        Nat.testBit_lt_two_pow (Nat.lt_of_lt_of_le hn (Nat.pow_le_pow_right (by decide) (by omega)))
      have h3 : (3 : Word).getLsbD i = false := hbit 3 (by decide)
      have h2 : (2 : Word).getLsbD i = false := hbit 2 (by decide)
      rw [if_neg h, h3, h2, BitVec.testBit_toNat, Bool.not_false, Bool.and_true, Bool.and_true, Bool.or_false, Bool.true_and]
  · rfl

section

variable {s : State} {c : CoreId} (hx : Executes s c)

include hx

theorem exec_syscall_raises {code : BitVec 14} (h : code ≠ 0 ∨ (s.core c.val).pl ≠ 0) :
    Gives (.syscall c code) s fun t => t = s.excEntry c.val 0x0B (code.setWidth 64) := by
  have hcode : w64 code.toNat = code.setWidth 64 := BitVec.ofNat_toNat _ _
  rw [← hcode]
  refine gives_exc (i := .syscall c code) hx rfl (if_neg ?_)
  rw [Bool.and_eq_true, Bool.not_eq_true', Core.atS_eq_false, decide_eq_true_eq]
  exact fun ⟨hp, h0⟩ => h.elim (fun g => g h0) (fun g => g hp)

/-- A task ends by SYSCALL 0 at P, and by TASK_END (R384, R430). -/
theorem exec_task_ends (hp : (s.core c.val).pl = 0) {i : Instr} (hi : i = .syscall c 0 ∨ i = .taskEnd c) : Gives i s fun t =>
    Retires (s.endTask c.val) t c ((s.core c.val).afterTask s.now) 0 0 ∧
      ∀ x, (s.core c.val).task = some x → x.nokey = false → (t.keyState x.key).running = false := by
  have hS := Core.atS_eq_false.mpr hp
  have hgives : Gives i s fun t => Retires (s.endTask c.val) t c ((s.endTask c.val).core c.val) 0 0 := by
    rcases hi with rfl | rfl
    · exact gives_stay (i := .syscall c 0) hx rfl (if_pos (by rw [hS]; rfl))
    · exact gives_stay (i := .taskEnd c) hx (if_neg (ne_true_of_eq_false hS)) rfl
  obtain ⟨t, ht, hret⟩ := hgives
  refine ⟨t, ht, s.endTask_core c.val ▸ hret, fun x hx hk => ?_⟩
  rw [keyState_of_retires hret]
  exact State.endTask_releases hx hk

theorem exec_eret_privileged (hp : (s.core c.val).pl = 0) :
    Gives (.eret c) s fun t => t = s.excEntry c.val 0x04 (wordEval (encode (.eret c))) :=
  gives_exc (i := .eret c) hx rfl (if_pos (by rw [Core.atS_eq_false.mpr hp]; rfl))

theorem exec_illegal {w : Word} (h : legalWord c w = false) :
    Gives (.illegalInstruction c w) s fun t => t = s.excEntry c.val 0x03 (wordEval w) :=
  gives_exc (i := .illegalInstruction c w) hx (if_neg (ne_true_of_eq_false h)) rfl

theorem exec_fence {i : Instr} (he : exec i s = s.fence c i) :
    Gives i s fun t => Retires s t c { s.core c.val with pc := (s.core c.val).pc + 4 } 0 0 := gives_ok hx he rfl

variable (hp : (s.core c.val).pl ≠ 0)

include hp

theorem exec_eret_returns (ht : s.tailChains c.val = false) : Gives (.eret c) s fun t => Retires s t c { s.core c.val with
    pc := (s.core c.val).epc, status := eretStatus c.val (s.core c.val).estatus } 0 0 :=
  gives_jump_setCore (i := .eret c) (u := s) (k := (s.core c.val).eretTo c.val) (pc := (s.core c.val).epc) hx rfl
    ((if_neg (Core.not_atS_of_pl hp)).trans (if_neg (ne_true_of_eq_false ht)))

theorem exec_eret_tailChains (ht : s.tailChains c.val = true) : Gives (.eret c) s fun t =>
    Retires (s.bump R.IC_U_TAILCHAINS) t c { s.core c.val with
      pc := (s.core c.val).evec + 0x40, cause := 0x80000000, status := handlerStatus c.val true } 0 0 := by
  obtain ⟨t, hexec, hret⟩ := gives_jump (i := .eret c) hx rfl ((if_neg (Core.not_atS_of_pl hp)).trans (if_pos ht))
  have hcount := CountsOnly.coreEvent ((s.bump R.IC_U_TAILCHAINS).setCore c.val
    { s.core c.val with status := handlerStatus c.val true, cause := w32 (2 ^ 31) }) c.val 0x08 (s.core c.val).pl 0 c.isLt
  rw [State.bump_setCore, hcount.core, State.core_setCore_same] at hret
  exact ⟨t, hexec, retires_of_setCore (retires_of_countsOnly hcount hret)⟩

end

theorem trapsAndReturns : TrapsAndReturns := by
  intro s c hx k
  refine ⟨fun code => exec_syscall_raises hx, fun hp i hi => exec_task_ends hx hp hi, fun hp => ?_, fun hp ht => ?_,
    fun hp ht => ?_, fun w h => ?_, fun i hi => ?_⟩
  · rw [← wordEval_eq]
    exact exec_eret_privileged hx hp
  · rw [← eretStatus_eq]
    exact exec_eret_returns hx hp ht
  · rw [← handlerStatus_ie_true]
    exact exec_eret_tailChains hx hp ht
  · rw [← wordEval_eq]
    exact exec_illegal hx h
  · rcases hi with rfl | rfl | rfl | rfl | rfl | rfl <;> exact exec_fence hx rfl

/-! ## MODEREQ (R431) -/

theorem modeRequestInstruction : ModeRequestInstruction := by
  intro s c rd rs hx k w v
  have hw : wordEval (encode (.modereq c rd rs)) = w := wordEval_eq _
  have haddr : bitsOf v 39 6 = v / 64 % 17179869184 := bitsOf_eq_div v 39 6
  refine ⟨fun hc => ?_, fun hlo hhi hp => ?_, fun hlo hhi hp => ?_⟩
  · rw [← hw]
    exact gives_exc (i := .modereq c rd rs) hx rfl (if_pos (by simpa using hc))
  · have hsv : ¬ (decide (c.val < 16) || decide (c.val = 20)) = true := by simp; omega
    rw [← hw]
    exact gives_exc (i := .modereq c rd rs) hx rfl ((if_neg hsv).trans (if_pos (by rw [Core.atS_eq_false.mpr hp]; rfl)))
  · have hsv : ¬ (decide (c.val < 16) || decide (c.val = 20)) = true := by simp; omega
    rw [← haddr]
    exact gives_ok_setCore (i := .modereq c rd rs) hx rfl ((if_neg hsv).trans (if_neg (Core.not_atS_of_pl hp)))

/-- Settles O19, by its two halves. -/
theorem trapsReturnsModes : Obligations.TrapsReturnsModes := ⟨trapsAndReturns, modeRequestInstruction⟩

end Sys2Proof.Machine
end

section
/-!
SUPPORT. The Crossing's own operations (chapter 17): messages sent and taken, STATE, the paths and the choice at the end of a Boot, with
what each leaves alone.
-/

namespace Sys2Proof.Machine

open Sys2Proof.Safety

/-! ## Counts -/

theorem counted_add {s t u : State} {k m n : Nat} (a : Counted s t k m) (b : Counted t u k n) : Counted s u k (m + n) := by
  unfold Counted at *
  omega

/-! ## Messages (R487) -/

/-- With the link up and the Crossing running, a message takes the next sequence number and waits for its acknowledgement. -/
theorem State.crossSend_open {s : State} (hlink : s.flag F.XNG_STATUS.LINK = true) (hrun : s.flag F.XNG_STATUS.STOPPED = false)
    (kind : Nat) (payload : List Byte) : s.crossSend kind payload = { s.emit (.crossing kind payload) with
      xng := { s.xng with txSeq := s.xng.txSeq + 1, unacked := s.xng.unacked ++ [(s.xng.txSeq + 1, kind, payload)] } } := by
  simp [State.crossSend, hlink, hrun]

/-- A message touches the Crossing's transmit side alone. -/
theorem State.crossSend_xng (s : State) (kind : Nat) (payload : List Byte) :
    ∃ n u, (s.crossSend kind payload).xng = { s.xng with txSeq := n, unacked := u } :=
  both_arms (fun t : State => ∃ n u, t.xng = { s.xng with txSeq := n, unacked := u }) ⟨_, _, rfl⟩ ⟨_, _, rfl⟩

theorem State.crossSend_reg (s : State) (kind : Nat) (payload : List Byte) (off : Nat) : (s.crossSend kind payload).reg off = s.reg off :=
  (s.crossSend_journalled kind payload).reg off

theorem State.crossSend_cnt (s : State) (kind : Nat) (payload : List Byte) (k : Nat) : (s.crossSend kind payload).cnt k = s.cnt k :=
  both_arms (fun t : State => t.cnt k = s.cnt k) rfl rfl

theorem State.crossSend_net (s : State) (kind : Nat) (payload : List Byte) : (s.crossSend kind payload).net = s.net :=
  both_arms (fun t : State => t.net = s.net) rfl rfl

theorem State.crossSend_rbt (s : State) (kind : Nat) (payload : List Byte) : (s.crossSend kind payload).rbt = s.rbt :=
  both_arms (fun t : State => t.rbt = s.rbt) rfl rfl

/-- The first waiting message is taken when it passes the test. -/
theorem State.crossTake_head {s : State} {p : Nat × List Byte → Bool} {m : Nat × List Byte} {r : List (Nat × List Byte)}
    (h : s.xng.msgs = m :: r) (hp : p m = true) : s.crossTake p = some (m.2, { s with xng := { s.xng with msgs := r } }) := by
  simp [State.crossTake, h, takeMsg, hp]

/-! ## STATE (R501, R513) -/

theorem State.dropDigests_xng (s : State) : s.dropDigests.xng = { s.xng with own := [], peer := [] } := rfl

/-- A new STATE may give up the digests that wait, and leaves the rest of the Crossing's own state. -/
theorem State.setXngState_xng (s : State) (n : Nat) :
    ∃ own peer, (s.setXngState n).xng = { s.xng with own := own, peer := peer } := by
  refine both_arms (fun t : State => ∃ own peer, t.xng = { s.xng with own := own, peer := peer }) ⟨_, _, rfl⟩ ?_
  rw [State.raise_xng, State.setFld_xng]
  exact both_arms (fun t : State => ∃ own peer, t.xng = { s.xng with own := own, peer := peer }) ⟨_, _, rfl⟩ ⟨_, _, s.dropDigests_xng⟩

/-- Fields other than STATE and its flag read as before. -/
theorem State.setXngState_fld (s : State) (n : Nat) {f : Fld} (hint : f.off ≠ R.XNG_INT_STATUS ∨ f.hi < 1 ∨ 1 < f.lo)
    (hf : f.off ≠ R.XNG_STATUS ∨ f.hi < 1 ∨ 4 < f.lo) : (s.setXngState n).fld f = s.fld f := by
  have hdrop (s : State) : s.dropDigests.fld f = s.fld f := State.fld_congr (by simp [State.dropDigests, State.reg])
  refine both_arms (fun t : State => t.fld f = s.fld f) rfl ?_
  rw [State.raise, State.fld_setFld_ne _ _ _ _ (by decide) hint, State.fld_setFld_ne _ _ _ _ (by decide) hf]
  exact both_arms (fun t : State => t.fld f = s.fld f) rfl (hdrop s)

theorem State.setXngState_flag (s : State) (n : Nat) {f : Fld} (hint : f.off ≠ R.XNG_INT_STATUS ∨ f.hi < 1 ∨ 1 < f.lo)
    (hf : f.off ≠ R.XNG_STATUS ∨ f.hi < 1 ∨ 4 < f.lo) : (s.setXngState n).flag f = s.flag f := by
  rw [State.flag, s.setXngState_fld n hint hf, State.flag]

theorem State.setXngState_cnt (s : State) (n : Nat) {k : Nat} (hk : k ≠ R.XNG_U_DIGESTS_TIMED_OUT) :
    (s.setXngState n).cnt k = s.cnt k := by
  have hdrop : s.dropDigests.cnt k = s.cnt k :=
    (State.cnt_bumpBy s R.XNG_U_DIGESTS_TIMED_OUT s.xng.own.length k).trans (if_neg hk)
  refine both_arms (fun t : State => t.cnt k = s.cnt k) rfl ?_
  rw [State.raise, State.setFld, State.setFld, State.cnt_setReg, State.cnt_setReg]
  exact both_arms (fun t : State => t.cnt k = s.cnt k) rfl hdrop

theorem State.xngState_setXngState (s : State) {n : Nat} (hn : n < 16) : (s.setXngState n).xngState = n := by
  unfold State.setXngState
  split
  · assumption
  · rw [State.xngState, State.raise, State.fld_setFld_ne _ _ _ _ (by decide) (.inl (by decide)),
      State.fld_setFld_same _ _ _ (by decide)]
    exact Nat.mod_eq_of_lt hn

/-! ## Paths (R491) -/

/-- The field that shows a path. -/
def pathFld (xpath : Bool) : Fld := if xpath then F.XNG_STATUS.XPATH else F.XNG_STATUS.DPATH

@[simp] theorem State.setPath_xng (s : State) (xpath up : Bool) : (s.setPath xpath up).xng = s.xng :=
  both_arms (fun t : State => t.xng = s.xng) rfl ((State.ringLog_xng _ _ _ _).trans (by simp))

theorem State.setPath_shows (s : State) (xpath up : Bool) : (s.setPath xpath up).flag (pathFld xpath) = up := by
  unfold State.setPath
  extract_lets f
  split
  next h => exact h
  · rw [State.flag_congr (State.reg_ringLog _ _ _ _ (by cases xpath <;> decide)), State.raise,
      State.flag_setFld_ne _ (by decide) (.inl (by cases xpath <;> decide))]
    exact State.flag_setFld_same up (by cases xpath <;> decide) (by cases xpath <;> decide)

/-- A path's change leaves the other fields of the status alone. -/
theorem State.setPath_flag_ne (s : State) (xpath up : Bool) {g : Fld} (hoff : g.off = R.XNG_STATUS)
    (hg : g.hi < (pathFld xpath).lo ∨ (pathFld xpath).hi < g.lo) : (s.setPath xpath up).flag g = s.flag g := by
  refine both_arms (fun t : State => t.flag g = s.flag g) rfl ?_
  rw [State.flag_congr (State.reg_ringLog _ _ _ _ (by rw [hoff]; decide)), State.raise,
    State.flag_setFld_ne _ (by decide) (.inl (by rw [hoff]; decide))]
  exact State.flag_setFld_ne _ (by cases xpath <;> decide) (.inr hg)

theorem State.setPath_cnt (s : State) (xpath up : Bool) {k : Nat} (hk : k / 0x10000 ≠ 17) : (s.setPath xpath up).cnt k = s.cnt k := by
  refine both_arms (fun t : State => t.cnt k = s.cnt k) rfl ?_
  exact (State.ringLog_cnt _ _ _ _ hk).trans (by simp [State.setFld, State.raise])

/-! ## The choice at the end of a Boot (R57, R493) -/

theorem State.beginTrans_xng (s : State) (m : Mode) (cause : Nat) : (s.beginTrans m cause).xng = s.xng :=
  State.beginTrans_keeps (·.xng) (fun _ _ => rfl) (fun s f v _ => State.setFld_xng s f v) s m cause

/-- The choice acts on mode control and SYS's registers alone. -/
theorem State.bootAct_keeps {α : Type} (g : State → α) (hs : ∀ (s : State) x, g { s with sys := x } = g s)
    (hf : ∀ (s : State) (f : Fld) v, f.off < 0x10000 → g (s.setFld f v) = g s) (s : State) : g s.bootAct = g s := by
  have hbegin (t : State) (m : Mode) : g (t.beginTrans m 1) = g t :=
    State.beginTrans_keeps g hs (fun t f v h => hf t f v (by rcases h with h | h | h <;> rw [h] <;> decide)) t m 1
  unfold State.bootAct
  split
  · rfl
  · exact (hbegin _ _).trans (hf s _ _ (by decide))

theorem State.bootAct_xng (s : State) : s.bootAct.xng = s.xng :=
  State.bootAct_keeps (·.xng) (fun _ _ => rfl) (fun s f v _ => State.setFld_xng s f v) s

theorem State.bootAct_cnt (s : State) (k : Nat) : s.bootAct.cnt k = s.cnt k :=
  State.bootAct_keeps (·.cnt k) (fun _ _ => rfl) (fun s f v _ => by simp [State.setFld]) s

theorem State.bootAct_flag (s : State) {f : Fld} (h : 0x10000 ≤ f.off) : s.bootAct.flag f = s.flag f :=
  State.bootAct_keeps (·.flag f) (fun _ _ => rfl) (fun s g v hg => State.flag_congr (State.reg_setFld_ne s g v _ (by omega))) s

end Sys2Proof.Machine
end

section
/-!
SUPPORT. Work aside from the engines: queues, ports, cores and the start of the Glade leave the Crossing's own state, the Glade's and the
alarm block's alone.
-/

namespace Sys2Proof.Machine

/-- The Crossing's own state, the Glade's and the alarm block's stand as before. Reducible, so that a `@[simp]` lemma that states it gives
one rule for each of the three fields. -/
@[reducible] def Aside (s t : State) : Prop := t.xng = s.xng ∧ t.gld = s.gld ∧ t.alm = s.alm

theorem Aside.refl (s : State) : Aside s s := ⟨rfl, rfl, rfl⟩

theorem Aside.trans {s t u : State} (a : Aside s t) (b : Aside t u) : Aside s u := by
  obtain ⟨axng, agld, aalm⟩ := a
  obtain ⟨bxng, bgld, balm⟩ := b
  exact ⟨bxng.trans axng, bgld.trans agld, balm.trans aalm⟩

/-- An update that is made only in some case. -/
theorem Aside.ite {s a b : State} {c : Prop} [Decidable c] (ha : Aside s a) (hb : Aside s b) : Aside s (if c then a else b) :=
  both_arms (Aside s) ha hb

theorem Aside.foldl {α : Type} {f : State → α → State} (h : ∀ s x, Aside s (f s x)) (l : List α) (s : State) : Aside s (l.foldl f s) := by
  induction l generalizing s with
  | nil => exact refl s
  | cons x t ih => exact (h s x).trans (ih (f s x))

/-! ## Ports and backpressure -/

@[simp] theorem State.settleHold_aside (s : State) (p : Nat) : Aside s (s.settleHold p) := by
  unfold State.settleHold
  split <;> simp [Aside]

@[simp] theorem State.armHold_aside (s : State) (p : Nat) : Aside s (s.armHold p) := by
  unfold State.armHold
  dsimp only
  split <;> simp [Aside]

@[simp] theorem State.txQueue_aside (s : State) (p : Nat) (f : TxFrame) : Aside s (s.txQueue p f) := by simp [Aside, State.txQueue]

@[simp] theorem State.txSubmit_aside (s : State) (p : Nat) (f : TxFrame) : Aside s (s.txSubmit p f) := by simp [Aside, State.txSubmit]

@[simp] theorem State.pauseEdge_aside (s : State) (p : Nat) (up : Bool) : Aside s (s.pauseEdge p up) := by
  unfold State.pauseEdge
  split_ifs <;> simp [Aside, State.armRefresh, State.dropRefresh, State.sendPause]

@[simp] theorem State.pauseEdges_aside (s old : State) (l : List Nat) : Aside s (s.pauseEdges old l) := by
  induction l generalizing s with
  | nil => exact Aside.refl s
  | cons p t ih =>
    refine Aside.trans ?_ (ih _)
    split <;> simp [Aside]

@[simp] theorem State.driveBp_aside (s old : State) : Aside s (s.driveBp old) := by
  unfold State.driveBp
  dsimp only
  split <;> simp [Aside]

@[simp] theorem State.raiseBp_aside (s : State) (n : Nat) (up : Bool) : Aside s (s.raiseBp n up) := by
  unfold State.raiseBp
  dsimp only
  split_ifs <;> simp [Aside, State.qEvent]

@[simp] theorem State.setBp_aside (s : State) (n : Nat) (up : Bool) : Aside s (s.setBp n up) := by
  unfold State.setBp
  split <;> simp [Aside]

@[simp] theorem State.riseBp_aside (s : State) : Aside s s.riseBp :=
  Aside.foldl (fun s x => by dsimp only; split <;> simp [Aside]) _ s

/-! ## Queues -/

@[simp] theorem State.judgeLevel_aside (s : State) (n before : Nat) : Aside s (s.judgeLevel n before) := by
  unfold State.judgeLevel
  dsimp only
  split
  · split <;> simp [Aside]
  · split <;> simp [Aside, State.qEvent]

@[simp] theorem State.entryPut_aside (s : State) (n i : Nat) : Aside s (s.entryPut n i) := by
  unfold State.entryPut
  dsimp only
  split <;> simp [Aside]

@[simp] theorem State.passMarker_aside (s : State) (n : Nat) : Aside s (s.passMarker n) := by
  unfold State.passMarker
  split <;> simp [Aside]

@[simp] theorem State.flushNow_aside (s : State) (n : Nat) : Aside s (s.flushNow n) := by
  unfold State.flushNow
  extract_lets q keep gone q' s1
  split <;> simp [Aside, s1]

@[simp] theorem State.resetQueue_aside (s : State) (n cause : Nat) : Aside s (s.resetQueue n cause) := by
  unfold State.resetQueue
  dsimp only
  split_ifs <;> simp [Aside]

@[simp] theorem State.checkQueue_aside (s : State) (n : Nat) : Aside s (s.checkQueue n) := by
  unfold State.checkQueue
  split <;> simp [Aside]

@[simp] theorem State.appendEntry_aside (s : State) (n cause : Nat) (e : Entry) (first last : Bool) :
    Aside s (s.appendEntry n cause e first last) := by
  unfold State.appendEntry
  extract_lets q cut s1 closed q1 s2 s3 q2 before ends s4 s5 s6
  have h1 : Aside s s1 := Aside.ite (by simp [Aside]) (Aside.refl s)
  have h2 : Aside s1 s2 := by simp [Aside, s2]
  have h3 : Aside s2 s3 := Aside.ite (by simp [Aside]) (Aside.refl s2)
  have h4 : Aside s3 s4 := Aside.ite (by simp [Aside]) (Aside.refl s3)
  have h6 : Aside s4 s6 := by simp [Aside, s6, s5]
  have h7 : Aside s6 (if (ends && (s6.queue n).flushWait) = true then s6.flushNow n else s6) :=
    Aside.ite (by simp [Aside]) (Aside.refl s6)
  exact ((((h1.trans h2).trans h3).trans h4).trans h6).trans h7

@[simp] theorem State.push_aside (s : State) (n agent : Nat) (e : Entry) (first last : Bool) :
    Aside s (s.push n agent e first last).1 := by
  unfold State.push
  extract_lets s1 s2
  have h1 : Aside s s1 := by simp [Aside, s1]
  apply h1.trans
  split_ifs <;> simp [Aside, s2]

/-! ## Cores and the start of the Glade -/

@[simp] theorem State.startCore_aside (s : State) (c : Nat) (entry : DWord) : Aside s (s.startCore c entry) := by
  unfold State.startCore
  split <;> simp [Aside]

@[simp] theorem State.releaseKey_aside (s : State) (x : Task) : Aside s (s.releaseKey x) := by
  unfold State.releaseKey
  split <;> simp [Aside]

@[simp] theorem State.abortTask_aside (s : State) (c : Nat) : Aside s (s.abortTask c) := by
  unfold State.abortTask
  extract_lets k s1 s2 s3
  have h2 : Aside s1 s2 := by dsimp only [s2]; split <;> simp [Aside]
  have h3 : Aside s2 s3 := by dsimp only [s3]; split <;> simp [Aside]
  have h1 : Aside s s1 := by simp [Aside, s1]
  exact ((h1.trans h2).trans h3).trans (by simp [Aside, State.stamp])

@[simp] theorem State.modeCores_aside (s : State) : Aside s s.modeCores := by
  unfold State.modeCores
  extract_lets on s1
  have h1 : Aside s s1 := Aside.ite (by simp [Aside]) (Aside.refl s)
  exact h1.trans (Aside.foldl (fun s c => by split_ifs <;> simp [Aside]) _ s1)

@[simp] theorem State.startGlade_aside (s : State) : Aside s s.startGlade := by
  unfold State.startGlade
  split <;> simp [Aside]

@[simp] theorem State.linesMoved_aside (s : State) (old : Bool) : Aside s (s.linesMoved old) := by
  unfold State.linesMoved
  split <;> simp [Aside]

@[simp] theorem State.showMode_aside (s : State) : Aside s s.showMode := by simp [Aside, State.showMode]

@[simp] theorem State.requestResult_aside (s : State) (r : Nat) : Aside s (s.requestResult r) := by simp [Aside, State.requestResult]

end Sys2Proof.Machine
end

section
/-!
SUPPORT. The timebase stands while the Glade acts on a mark (R179, R186 to R196).
-/

namespace Sys2Proof.Machine

/-! ## Notices and closes (R194, R196) -/

@[simp] theorem State.gladeNotice_tim (s : State) (g kind : Nat) (e : Entry) : (s.gladeNotice g kind e).tim = s.tim := by
  unfold State.gladeNotice
  extract_lets q r
  have hr : r.1.tim = s.tim := (s.pushNotice_steady q 35 e).tim
  exact both_arms (fun t : State => t.tim = s.tim) hr ((State.raise_tim _ _).trans ((State.bump_tim _ _).trans hr))

@[simp] theorem State.pendNotice_tim (s : State) (n : Pend) : (s.pendNotice n).tim = s.tim :=
  both_arms (fun t : State => t.tim = s.tim) rfl (s.gladeNotice_tim _ _ _)

@[simp] theorem State.putSet_tim (s : State) (g : Nat) (x : GSet) : (s.putSet g x).tim = s.tim := rfl

@[simp] theorem State.writeHeader_tim (s : State) (g : Nat) (x : GSet) : (s.writeHeader g x).tim = s.tim := State.wrBytes_tim _ _ _

@[simp] theorem State.blankRecord_tim (s : State) (g : Nat) (x : GSet) : (s.blankRecord g x).tim = s.tim := State.wrBytes_tim _ _ _

@[simp] theorem State.closeSet_tim (s : State) (g : Nat) (x : GSet) (flags : Nat) : (s.closeSet g x flags).tim = s.tim := by
  unfold State.closeSet
  rw [State.pendNotice_tim, State.setGrove_tim]
  split <;> simp

@[simp] theorem State.closeAll_tim (g flags : Nat) (l : List GSet) (s : State) : (s.closeAll g flags l).tim = s.tim := by
  induction l generalizing s with
  | nil => rfl
  | cons x t ih => exact (ih _).trans (s.closeSet_tim g x flags)

@[simp] theorem State.freePlace_tim (s : State) (g seq : Nat) : (s.freePlace g seq).tim = s.tim := State.closeAll_tim _ _ _ _

@[simp] theorem State.closesDue_tim (s : State) (g : Nat) : (s.closesDue g).tim = s.tim := State.closeAll_tim _ _ _ _

@[simp] theorem State.groveStopped_tim (s : State) (g : Nat) : (s.groveStopped g).tim = s.tim := by simp [State.groveStopped]

/-! ## Releases (R186 to R191) -/

@[simp] theorem State.noteRelease_tim (s : State) (ttag : Nat) : (s.noteRelease ttag).tim = s.tim :=
  both_arms (fun t : State => t.tim = s.tim) (State.setCnt_tim _ _ _) rfl

@[simp] theorem State.pendRelease_tim (s : State) (g kind : Nat) (x : GSet) (t0 : Option Nat) :
    (s.pendRelease g kind x t0).tim = s.tim := by simp [State.pendRelease]

@[simp] theorem State.provRelease_tim (s : State) (g : Nat) (x : GSet) (t0 : Option Nat) : (s.provRelease g x t0).tim = s.tim := by
  unfold State.provRelease
  rw [State.pendRelease_tim, State.noteRelease_tim]
  split <;> simp

@[simp] theorem State.finalRelease_tim (s : State) (g : Nat) (x : GSet) (cause : Nat) (t0 : Option Nat) :
    (s.finalRelease g x cause t0).tim = s.tim := by
  unfold State.finalRelease
  extract_lets gv x' s1 e s2 s3 s4 s5 s6 s7
  have h3 : s3.tim = s.tim := by simp [s3, s2, s1]
  have h4 : s4.tim = s3.tim := both_arms (fun t : State => t.tim = s3.tim) (State.bump_tim _ _) rfl
  have h5 : s5.tim = s4.tim := both_arms (fun t : State => t.tim = s4.tim) (State.bump_tim _ _) rfl
  have h6 : s6.tim = s5.tim := both_arms (fun t : State => t.tim = s5.tim) ((State.raise_tim _ _).trans (State.bump_tim _ _)) rfl
  have h7 : s7.tim = s.tim := by rw [State.pendRelease_tim, State.noteRelease_tim, h6, h5, h4, h3]
  exact both_arms (fun t : State => t.tim = s.tim) ((State.groveStopped_tim _ _).trans h7) h7

@[simp] theorem State.voidSet_tim (s : State) (g : Nat) : (s.voidSet g).1.tim = s.tim := by simp [State.voidSet]

theorem State.finals_tim (g : Nat) (ev : Event) (t : Nat) (chained : Bool) (fuel : Nat) (s : State) :
    (s.finals g ev t chained fuel).tim = s.tim := by
  induction fuel generalizing s chained with
  | zero => rfl
  | succ fuel ih =>
    unfold State.finals
    extract_lets gv tag due cur held t0 r
    have hfinal (x : GSet) (cause : Nat) : ((s.finalRelease g x cause t0).finals g ev t true fuel).tim = s.tim :=
      (ih _ _).trans (s.finalRelease_tim g x cause t0)
    refine both_arms (fun u : State => u.tim = s.tim) rfl (both_arms (fun u : State => u.tim = s.tim) rfl ?_)
    clear_value t0 held cur
    split
    · exact both_arms (fun u : State => u.tim = s.tim) (hfinal _ 0) (both_arms (fun u : State => u.tim = s.tim) (hfinal _ 1) rfl)
    · exact both_arms (fun u : State => u.tim = s.tim)
        ((ih _ _).trans ((State.finalRelease_tim _ _ _ _ _).trans (s.voidSet_tim g))) rfl

theorem State.provs_tim (g : Nat) (ev : Event) (t tag : Nat) (chained : Bool) (fuel : Nat) (s : State) :
    (s.provs g ev t tag chained fuel).tim = s.tim := by
  induction fuel generalizing s tag chained with
  | zero => rfl
  | succ fuel ih =>
    unfold State.provs
    extract_lets gv nx
    refine both_arms (fun u : State => u.tim = s.tim) rfl ?_
    split
    · rfl
    · exact both_arms (fun u : State => u.tim = s.tim) (ih _ _ _)
        (both_arms (fun u : State => u.tim = s.tim) ((ih _ _ _).trans (s.provRelease_tim _ _ _)) rfl)

@[simp] theorem State.releases_tim (s : State) (g : Nat) (ev : Event) (t : Nat) (chained : Bool) :
    (s.releases g ev t chained).tim = s.tim := (State.provs_tim _ _ _ _ _ _ _).trans (State.finals_tim _ _ _ _ _ _)

/-! ## Marks (R165, R189) -/

@[simp] theorem State.groveStart_tim (s : State) (g mark : Nat) : (s.groveStart g mark).tim = s.tim := by
  unfold State.groveStart
  dsimp only
  split <;> simp

theorem State.groveMark_tim (s : State) (old t g : Nat) : (s.groveMark old t g).tim = s.tim := by
  unfold State.groveMark
  split <;> simp

theorem State.gladeMark_tim (old t : Nat) (l : List Nat) (s : State) : (s.gladeMark old t l).tim = s.tim := by
  induction l generalizing s with
  | nil => rfl
  | cons g l ih => exact (ih _).trans (s.groveMark_tim old t g)

/-- A mark taken is the latest, from now on. -/
theorem State.takeMark_marks (s : State) (value word : Nat) :
    (s.takeMark value word).tim.mark = value ∧ (s.takeMark value word).tim.markAt = s.now := by
  unfold State.takeMark
  extract_lets old held s1 tim s2
  have hnow : s1.now = s.now := both_arms (fun t : State => t.now = s.now) rfl ((State.raise_now _ _).trans (State.setFld_now _ _ _))
  have h2 : s2.tim.mark = value ∧ s2.tim.markAt = s1.now := ⟨rfl, rfl⟩
  rw [State.gladeMark_tim, ← hnow]
  exact h2

end Sys2Proof.Machine
end

section
/-!
The Crossing's link and its heartbeats (O46): frames taken, acknowledged and sent again, heartbeats sent and taken.
-/

namespace Sys2Proof.Machine

open Sys2Proof.Safety

/-! ## The link (R487) -/

/-- A frame not acknowledged is sent again. -/
def State.resend (s : State) (u : Nat × Nat × List Byte) : State := (s.emit (.crossing u.2.1 u.2.2)).bump R.XNG_U_RETRANSMITS

theorem State.resend_all (l : List (Nat × Nat × List Byte)) (s : State) :
    (l.foldl State.resend s).xng = s.xng ∧ (l.foldl State.resend s).out.length = s.out.length + l.length ∧
      Counted s (l.foldl State.resend s) R.XNG_U_RETRANSMITS l.length := by
  induction l generalizing s with
  | nil => exact ⟨rfl, rfl, counted_zero rfl⟩
  | cons u l ih =>
    obtain ⟨hxng, hout, hcnt⟩ := ih (s.resend u)
    have hlen : (s.resend u).out.length = s.out.length + 1 := by simp [State.resend, State.emit]
    refine ⟨hxng.trans (by simp [State.resend]), ?_, ?_⟩
    · rw [List.foldl_cons, hout, hlen, List.length_cons]
      omega
    · rw [List.length_cons, Nat.add_comm]
      exact counted_add (counted_bump (s.emit (.crossing u.2.1 u.2.2)) R.XNG_U_RETRANSMITS) hcnt

section

variable {s : State} (hrun : s.xngRuns = true) (hlink : s.flag F.XNG_STATUS.LINK = true)

include hrun hlink

theorem exec_xngRetransmit : exec .xngRetransmit s = .next (s.xng.unacked.foldl State.resend s) := if_neg (by simp [hrun, hlink])

/-- A good frame with no message only acknowledges. -/
theorem exec_xngFrame_ack (seq ack : Nat) : exec (.xngFrame seq ack true []) s =
    .next { s with xng := { s.xng with unacked := s.xng.unacked.filter fun u => decide (ack < u.1) } } := by
  show execXngFrame _ _ _ _ _ = _
  simp [execXngFrame, hrun, hlink]

/-- A frame in sequence is acknowledged, and its message is taken. -/
theorem exec_xngFrame_next {seq : Nat} (hseq : seq = s.xng.rxSeq + 1) (ack : Nat) (m : Nat × List Byte) :
    exec (.xngFrame seq ack true [m]) s = .next (State.crossMessage { s with
      out := .crossing 0 (leBytes 8 seq) :: s.out
      xng := { s.xng with unacked := s.xng.unacked.filter fun u => decide (ack < u.1), rxSeq := seq } } m) := by
  show execXngFrame _ _ _ _ _ = _
  simp [execXngFrame, hrun, hlink, hseq, State.emit]

end

/-- A frame that is damaged or out of order is not taken. -/
theorem exec_xngFrame_dropped (s : State) {seq ack : Nat} {good : Bool} {msgs : List (Nat × List Byte)}
    (h : good = false ∨ msgs ≠ [] ∧ seq ≠ s.xng.rxSeq + 1) : exec (.xngFrame seq ack good msgs) s = .next s := by
  refine if_pos ?_
  rcases h with rfl | ⟨hmsgs, hseq⟩
  · simp
  · simp [hmsgs, hseq]

theorem State.crossMessage_waits (s : State) {k : Nat} (l : List Byte) (h3 : k ≠ 3) (h5 : k ≠ 5) :
    s.crossMessage (k, l) = { s with xng := { s.xng with msgs := s.xng.msgs ++ [(k, l)] } } := by
  unfold State.crossMessage
  split <;> simp_all

theorem State.crossMessage_entry {s : State} {l : List Byte} (hl : 32 ≤ l.length) (ht : s.takesEntries = true) :
    (s.crossMessage (5, l)).xng = { s.xng with rx := s.xng.rx ++ [l] } ∧ Counted s (s.crossMessage (5, l)) R.XNG_U_ENTRIES_RX 1 := by
  have hentry : s.crossMessage (5, l) = { s.bump R.XNG_U_ENTRIES_RX with xng := { s.xng with rx := s.xng.rx ++ [l] } } := by
    simp [State.crossMessage, ht, Nat.not_lt.mpr hl]
  rw [hentry]
  exact ⟨rfl, counted_bump s R.XNG_U_ENTRIES_RX⟩

/-! ## Heartbeats (R490, R491) -/

theorem State.elapse_pairRuns (s : State) (dt : Nat) : (s.elapse dt).pairRuns = s.pairRuns := rfl

theorem exec_heartbeatSend_early {s : State} {dt : Nat} (h : s.now + dt - s.xng.hbAt < 1200000) :
    exec (.heartbeatSend dt) s = .next (s.elapse dt) := by
  have hnow : (s.elapse dt).now = s.now + dt := rfl
  refine if_pos ?_
  simp only [clkPerMs, hnow, State.elapse_xng, Bool.not_eq_true', Bool.and_eq_false_iff, decide_eq_false_iff_not]
  omega

/-- The next heartbeat is numbered and dated. -/
def State.hbNext (s : State) : State := { s with xng := { s.xng with hbSeq := s.xng.hbSeq + 1, hbAt := s.now } }

/-- A heartbeat that is due goes out on the Crossing, and as a frame of its port. -/
theorem exec_heartbeatSend_due {s : State} {dt : Nat} (hpair : s.pairRuns = true) (h : 1200000 ≤ s.now + dt - s.xng.hbAt) :
    ∃ bytes frame, exec (.heartbeatSend dt) s =
      .next (((s.elapse dt).hbNext.crossSend 2 bytes).txSubmit (s.fld F.XNG_CTRL.HB_PORT) ⟨3, frame, .heartbeat⟩) := by
  have hnow : (s.elapse dt).now = s.now + dt := rfl
  exact ⟨_, _, if_neg (by simp [State.elapse_pairRuns, hpair, clkPerMs, hnow, h])⟩

theorem heartbeatSend_due {s : State} {dt : Nat} (hpair : s.pairRuns = true) (h : 1200000 ≤ s.now + dt - s.xng.hbAt) :
    Gives (.heartbeatSend dt) s fun t => t.xng.hbSeq = s.xng.hbSeq + 1 ∧ t.xng.hbAt = s.now + dt ∧
      ∃ f, (t.port (s.fld F.XNG_CTRL.HB_PORT)).tx = (s.port (s.fld F.XNG_CTRL.HB_PORT)).tx ++ [f] ∧ f.tag = .heartbeat := by
  obtain ⟨bytes, frame, hexec⟩ := exec_heartbeatSend_due hpair h
  let u := (s.elapse dt).hbNext
  obtain ⟨m, l, hsend⟩ := u.crossSend_xng 2 bytes
  have hxng : ∀ p f, ((u.crossSend 2 bytes).txSubmit p f).xng = { u.xng with txSeq := m, unacked := l } := fun p f =>
    (State.pbump_xng _ _ _).trans ((HeldAs.txQueue p _ f).xng.trans hsend)
  refine ⟨_, hexec, by rw [hxng]; rfl, by rw [hxng]; rfl, ⟨3, frame, .heartbeat⟩, ?_, rfl⟩
  rw [((u.crossSend 2 bytes).txSubmit_joins _ _).1, State.port_congr (u.crossSend_net 2 bytes)]
  rfl

theorem State.heartbeat_bad (s : State) (xpath : Bool) {l : List Byte} (h : readHb l = none) :
    (s.heartbeat xpath l).xng = s.xng ∧ Counted s (s.heartbeat xpath l) R.XNG_U_HB_BAD 1 := by
  unfold State.heartbeat
  rw [h]
  refine ⟨by simp, counted_of_eq (counted_bump _ _) (State.cnt_bump_ne _ _ _ ?_) rfl⟩
  cases xpath <;> decide

/-- STATE alone may follow the peer's. -/
theorem State.followPeer_keeps {α : Type} (g : State → α) (hg : ∀ (s : State) n, g (s.setXngState n) = g s) (s : State) (h : HbInfo) :
    g (s.followPeer h) = g s := both_arms (fun t => g t = g s) (hg s _) rfl

/-- A heartbeat is kept with its time. -/
def State.hbTaken (s : State) (xpath : Bool) (h : HbInfo) : State :=
  { s with xng := { s.xng with hb := some h, hbX := if xpath then some s.now else s.xng.hbX, hbD := if xpath then s.xng.hbD else some s.now } }

/-- Its path comes up, the Crossing's only with the link. -/
def State.hbPath (s : State) (xpath : Bool) : State := if xpath && !s.flag F.XNG_STATUS.LINK then s else s.setPath xpath true

/-- A conflict of the home units shows, and the count of entries applied follows on the unit holding duty. -/
def State.hbShown (s : State) (h : HbInfo) : State :=
  let t := s.setFld F.XNG_STATUS.HOME_CONFLICT (b2n (h.home = s.flag F.XNG_CTRL.HOME))
  if t.sys.duty then t.setCnt R.XNG_APPLIED (w64 h.applied) else t

/-- The counter of heartbeats received by a path. -/
def hbRxCnt (xpath : Bool) : Nat := if xpath then R.XNG_U_HB_RX_CROSSING else R.XNG_U_HB_RX_PORT

theorem State.heartbeat_eq (s : State) (xpath : Bool) {l : List Byte} {h : HbInfo} (hl : readHb l = some h) : s.heartbeat xpath l =
    ((((((s.bump (hbRxCnt xpath)).bump R.XNG_U_HB_ACCEPTED).hbTaken xpath h).hbPath xpath).hbShown h).followPeer h).bootAct := by
  unfold State.heartbeat
  rw [hl]
  rfl

theorem State.hbTaken_cnt (s : State) (xpath : Bool) (h : HbInfo) (k : Nat) : (s.hbTaken xpath h).cnt k = s.cnt k := rfl

theorem State.hbPath_xng (s : State) (xpath : Bool) : (s.hbPath xpath).xng = s.xng :=
  both_arms (fun t : State => t.xng = s.xng) rfl (s.setPath_xng xpath true)

theorem State.hbShown_xng (s : State) (h : HbInfo) : (s.hbShown h).xng = s.xng :=
  both_arms (fun t : State => t.xng = s.xng) ((State.setCnt_xng _ _ _).trans (State.setFld_xng _ _ _)) (State.setFld_xng _ _ _)

theorem State.followPeer_xng (s : State) (h : HbInfo) : ∃ own peer, (s.followPeer h).xng = { s.xng with own := own, peer := peer } :=
  both_arms (fun t : State => ∃ own peer, t.xng = { s.xng with own := own, peer := peer }) (s.setXngState_xng _) ⟨_, _, rfl⟩

/-- A heartbeat accepted is kept, with its time. -/
theorem State.heartbeat_xng (s : State) (xpath : Bool) {l : List Byte} {h : HbInfo} (hl : readHb l = some h) :
    ∃ own peer, (s.heartbeat xpath l).xng = { s.xng with
      hb := some h, hbX := if xpath then some s.now else s.xng.hbX, hbD := if xpath then s.xng.hbD else some s.now
      own := own, peer := peer } := by
  rw [s.heartbeat_eq xpath hl, State.bootAct_xng]
  obtain ⟨own, peer, hfollow⟩ := State.followPeer_xng
    (((((s.bump (hbRxCnt xpath)).bump R.XNG_U_HB_ACCEPTED).hbTaken xpath h).hbPath xpath).hbShown h) h
  refine ⟨own, peer, ?_⟩
  rw [hfollow, State.hbShown_xng, State.hbPath_xng]
  simp [State.hbTaken]

/-- It is counted as accepted. -/
theorem State.heartbeat_counted (s : State) (xpath : Bool) {l : List Byte} {h : HbInfo} (hl : readHb l = some h) :
    Counted s (s.heartbeat xpath l) R.XNG_U_HB_ACCEPTED 1 := by
  have hpath (s : State) : (s.hbPath xpath).cnt R.XNG_U_HB_ACCEPTED = s.cnt R.XNG_U_HB_ACCEPTED :=
    both_arms (fun t : State => t.cnt R.XNG_U_HB_ACCEPTED = s.cnt R.XNG_U_HB_ACCEPTED) rfl (State.setPath_cnt _ _ _ (by decide))
  have hshown (s : State) : (s.hbShown h).cnt R.XNG_U_HB_ACCEPTED = s.cnt R.XNG_U_HB_ACCEPTED :=
    both_arms (fun t : State => t.cnt R.XNG_U_HB_ACCEPTED = s.cnt R.XNG_U_HB_ACCEPTED)
      ((State.cnt_setCnt _ _ _ _).trans ((if_neg (by decide)).trans (State.cnt_setReg _ _ _ _))) (State.cnt_setReg _ _ _ _)
  refine counted_of_eq (counted_bump (s.bump (hbRxCnt xpath)) _) (State.cnt_bump_ne _ _ _ (by cases xpath <;> decide)) ?_
  rw [s.heartbeat_eq xpath hl, State.bootAct_cnt,
    State.followPeer_keeps (·.cnt R.XNG_U_HB_ACCEPTED) fun t n => t.setXngState_cnt n (by decide), hshown, hpath, State.hbTaken_cnt]

/-- It brings its path up, the Crossing's only with the link. -/
theorem State.heartbeat_path (s : State) (xpath : Bool) {l : List Byte} {h : HbInfo} (hl : readHb l = some h)
    (hup : xpath = true → s.flag F.XNG_STATUS.LINK = true) : (s.heartbeat xpath l).flag (pathFld xpath) = true := by
  have hpath (s : State) (hup : xpath = true → s.flag F.XNG_STATUS.LINK = true) : (s.hbPath xpath).flag (pathFld xpath) = true := by
    rw [State.hbPath, if_neg (by simpa using hup)]
    exact s.setPath_shows xpath true
  have hshown (s : State) : (s.hbShown h).flag (pathFld xpath) = s.flag (pathFld xpath) := by
    unfold State.hbShown
    extract_lets t
    have ht : t.flag (pathFld xpath) = s.flag (pathFld xpath) :=
      State.flag_setFld_ne _ (by decide) (.inr (by cases xpath <;> decide))
    exact both_arms (fun u : State => u.flag (pathFld xpath) = s.flag (pathFld xpath))
      ((State.flag_congr (by simp [State.reg])).trans ht) ht
  rw [s.heartbeat_eq xpath hl, State.bootAct_flag _ (by cases xpath <;> decide),
    State.followPeer_keeps (·.flag (pathFld xpath))
      (fun t n => t.setXngState_flag n (.inl (by cases xpath <;> decide)) (.inr (by cases xpath <;> decide))), hshown]
  exact hpath _ fun hx => (State.flag_congr (by simp [State.hbTaken, State.reg])).trans (hup hx)

/-! ## Heartbeats taken (R490) -/

section

variable {s : State} (hpair : s.pairRuns = true)

include hpair

/-- The oldest heartbeat that waits is taken from the Crossing. -/
theorem exec_heartbeatRx_crossing {l : List Byte} {r : List (Nat × List Byte)} (hrun : s.flag F.XNG_STATUS.STOPPED = false)
    (hmsgs : s.xng.msgs = (2, l) :: r) :
    ∃ u : State, u = { s with xng := { s.xng with msgs := r } } ∧ exec (.heartbeatRx true) s = .next (u.heartbeat true l) := by
  have hx : s.xngRuns = true := by simp [State.xngRuns, hpair, hrun]
  refine ⟨_, rfl, ?_⟩
  show execHeartbeatRx true s = _
  rw [execHeartbeatRx, if_pos rfl, if_pos hx, State.crossTake_head hmsgs (by simp)]

/-- The oldest that the parser passed is taken from the data path. -/
theorem exec_heartbeatRx_port {l : List Byte} {r : List (List Byte)} (hin : s.xng.hbIn = l :: r) :
    ∃ u : State, u = { s with xng := { s.xng with hbIn := r } } ∧ exec (.heartbeatRx false) s = .next (u.heartbeat false l) := by
  refine ⟨_, rfl, ?_⟩
  show execHeartbeatRx false s = _
  rw [execHeartbeatRx, if_neg (by decide), if_neg (by simp [hpair]), hin]

theorem heartbeatRx_bad {l : List Byte} {r : List (Nat × List Byte)} (hrun : s.flag F.XNG_STATUS.STOPPED = false)
    (hmsgs : s.xng.msgs = (2, l) :: r) (hbad : readHb l = none) :
    Gives (.heartbeatRx true) s fun t => t.xng.msgs = r ∧ t.xng.hb = s.xng.hb ∧ Counted s t R.XNG_U_HB_BAD 1 := by
  obtain ⟨u, hu, hexec⟩ := exec_heartbeatRx_crossing hpair hrun hmsgs
  obtain ⟨hxng, hcnt⟩ := u.heartbeat_bad true hbad
  exact ⟨_, hexec, by rw [hxng, hu], by rw [hxng, hu], counted_of_eq hcnt (by rw [hu]; rfl) rfl⟩

theorem heartbeatRx_crossing {l : List Byte} {r : List (Nat × List Byte)} {h : HbInfo} (hrun : s.flag F.XNG_STATUS.STOPPED = false)
    (hmsgs : s.xng.msgs = (2, l) :: r) (hgood : readHb l = some h) :
    Gives (.heartbeatRx true) s fun t => t.xng.msgs = r ∧ t.xng.hb = some h ∧ t.xng.hbX = some s.now ∧
      Counted s t R.XNG_U_HB_ACCEPTED 1 ∧ (s.flag F.XNG_STATUS.LINK = true → t.flag F.XNG_STATUS.XPATH = true) := by
  obtain ⟨u, hu, hexec⟩ := exec_heartbeatRx_crossing hpair hrun hmsgs
  obtain ⟨own, peer, hxng⟩ := u.heartbeat_xng true hgood
  have hlink : u.flag F.XNG_STATUS.LINK = s.flag F.XNG_STATUS.LINK := by rw [hu]; rfl
  exact ⟨_, hexec, by rw [hxng, hu], by rw [hxng], by rw [hxng, hu]; rfl,
    counted_of_eq (u.heartbeat_counted true hgood) (by rw [hu]; rfl) rfl, fun h => u.heartbeat_path true hgood fun _ => hlink.trans h⟩

theorem heartbeatRx_port {l : List Byte} {r : List (List Byte)} {h : HbInfo} (hin : s.xng.hbIn = l :: r) (hgood : readHb l = some h) :
    Gives (.heartbeatRx false) s fun t =>
      t.xng.hbIn = r ∧ t.xng.hb = some h ∧ t.xng.hbD = some s.now ∧ t.flag F.XNG_STATUS.DPATH = true := by
  obtain ⟨u, hu, hexec⟩ := exec_heartbeatRx_port hpair hin
  obtain ⟨own, peer, hxng⟩ := u.heartbeat_xng false hgood
  exact ⟨_, hexec, by rw [hxng, hu], by rw [hxng], by rw [hxng, hu]; rfl, u.heartbeat_path false hgood (by simp)⟩

end

end Sys2Proof.Machine
end

section
/-!
The Crossing's paths, duty and posts (O46): duty lines, the rows of R494, the guard time, the link and the peer mailbox.
-/

namespace Sys2Proof.Machine

open Sys2Proof.Safety

/-! ## Paths and duty lines (R489, R491) -/

/-- A path has had no heartbeat for 3.1 ms. -/
def hbSilent (now : Nat) (x : Option Nat) : Bool := match x with | some a => decide (3720000 ≤ now - a) | none => true

theorem hbSilent_iff {now : Nat} {x : Option Nat} : hbSilent now x = true ↔ ∀ a, x = some a → 3720000 ≤ now - a := by
  cases x <;> simp [hbSilent]

/-- The Crossing's path is judged first, then the data path's. -/
theorem exec_pathDown (s : State) (dt : Nat) : ∃ u,
    u = (if hbSilent (s.now + dt) s.xng.hbX then (s.elapse dt).setPath true false else s.elapse dt) ∧
    exec (.pathDown dt) s = .next (if hbSilent (s.now + dt) s.xng.hbD then u.setPath false false else u) := by
  let u := if hbSilent (s.now + dt) s.xng.hbX then (s.elapse dt).setPath true false else s.elapse dt
  have hxng : u.xng = s.xng := both_arms (fun t : State => t.xng = s.xng) (State.setPath_xng _ _ _) rfl
  have hexec : exec (.pathDown dt) s = .next (if hbSilent (s.now + dt) u.xng.hbD then u.setPath false false else u) := rfl
  exact ⟨u, rfl, by rw [hexec, hxng]⟩

theorem pathDown_crossing {s : State} {dt : Nat} (h : ∀ a, s.xng.hbX = some a → 3720000 ≤ s.now + dt - a) :
    Gives (.pathDown dt) s fun t => t.flag F.XNG_STATUS.XPATH = false := by
  obtain ⟨u, hu, hexec⟩ := exec_pathDown s dt
  rw [if_pos (hbSilent_iff.mpr h)] at hu
  have hdown : u.flag F.XNG_STATUS.XPATH = false := by
    rw [hu]
    exact State.setPath_shows _ true false
  exact ⟨_, hexec, both_arms (fun t : State => t.flag F.XNG_STATUS.XPATH = false)
    ((State.setPath_flag_ne u false false rfl (.inr (by decide))).trans hdown) hdown⟩

theorem pathDown_port {s : State} {dt : Nat} (h : ∀ a, s.xng.hbD = some a → 3720000 ≤ s.now + dt - a) :
    Gives (.pathDown dt) s fun t => t.flag F.XNG_STATUS.DPATH = false := by
  obtain ⟨u, -, hexec⟩ := exec_pathDown s dt
  rw [if_pos (hbSilent_iff.mpr h)] at hexec
  exact ⟨_, hexec, State.setPath_shows u false false⟩

theorem pathDown_neither {s : State} {dt : Nat} (hx : ¬ ∀ a, s.xng.hbX = some a → 3720000 ≤ s.now + dt - a)
    (hd : ¬ ∀ a, s.xng.hbD = some a → 3720000 ≤ s.now + dt - a) : Gives (.pathDown dt) s fun t => t = s.elapse dt := by
  obtain ⟨u, hu, hexec⟩ := exec_pathDown s dt
  rw [if_neg (mt hbSilent_iff.mp hx)] at hu
  rw [if_neg (mt hbSilent_iff.mp hd)] at hexec
  exact ⟨_, hexec, hu⟩

/-- The levels of the peer's lines show, and touch no mode. -/
theorem dutyInputChange_shows (s : State) (a b : Bool) : Gives (.dutyInputChange a b) s fun t =>
    t.fld F.XNG_STATUS.PEER_DUTY = (if b then 2 else 0) + (if a then 1 else 0) ∧ t.sys = s.sys := by
  have hlevel : (if b then 2 else 0) + (if a then 1 else 0) = b2n b * 2 + b2n a := by cases a <;> cases b <;> rfl
  have hfits : b2n b * 2 + b2n a < 4 := by cases a <;> cases b <;> decide
  rw [hlevel]
  let u := (s.setFld F.XNG_STATUS.PEER_DUTY (b2n b * 2 + b2n a)).raise F.XNG_INT_STATUS.DUTY
  have hu : u.fld F.XNG_STATUS.PEER_DUTY = b2n b * 2 + b2n a := by
    refine (State.fld_setFld_ne _ _ _ _ (by decide) (.inl (by decide))).trans ?_
    rw [State.fld_setFld_same _ _ _ (by decide)]
    exact Nat.mod_eq_of_lt hfits
  show ∃ t, execDutyInputChange a b s = .next t ∧ _
  unfold execDutyInputChange
  dsimp only
  split
  next h => exact ⟨s, rfl, h, rfl⟩
  · refine ⟨_, rfl, ?_⟩
    refine both_arms (fun t : State => t.fld F.XNG_STATUS.PEER_DUTY = b2n b * 2 + b2n a ∧ t.sys = s.sys) ⟨?_, by simp⟩ ⟨hu, by simp⟩
    exact (State.fld_congr (State.wakeEvent_reg u 6 (by decide))).trans hu

/-! ## The rows of R494 -/

theorem State.setXngState_row (s : State) (n : Nat) : (s.setXngState n).xng.row = s.xng.row := by
  obtain ⟨own, peer, h⟩ := s.setXngState_xng n
  rw [h]

theorem State.isolate_row (s : State) : s.isolate.xng.row = s.xng.row := by
  unfold State.isolate
  dsimp only
  split
  · rw [State.beginTrans_xng, (State.linesMoved_aside _ _).1]
  · rw [(State.showMode_aside _).1, State.setXngState_row]

theorem State.takeBy508_row (s : State) : s.takeBy508.xng.row = s.xng.row := by rw [State.takeBy508, State.beginTrans_xng]

theorem State.rejoinIsolated_row (s : State) : s.rejoinIsolated.xng.row = s.xng.row :=
  both_arms (fun t : State => t.xng.row = s.xng.row) (by rw [(State.showMode_aside _).1, State.setXngState_row]) rfl

theorem State.startGuard_row (s : State) : s.startGuard.xng.row = s.xng.row := by
  unfold State.startGuard
  dsimp only
  split
  · exact s.setXngState_row 3
  · rfl

/-- What a unit does by the row leaves the row. -/
theorem State.shadowRow_row (s : State) (row : Nat) : (s.shadowRow row).xng.row = s.xng.row := by
  have htake : s.decideTakeover.xng.row = s.xng.row :=
    both_arms (fun t : State => t.xng.row = s.xng.row) (by rw [State.beginTrans_xng]) s.takeBy508_row
  unfold State.shadowRow
  split
  · exact htake
  · exact htake
  · split_ifs
    · exact s.startGuard_row
    · rfl
    · exact s.isolate_row
  · exact s.rejoinIsolated_row
  · exact s.rejoinIsolated_row
  · rfl

theorem State.dutyRow_row (s : State) (row : Nat) : (s.dutyRow row).xng.row = s.xng.row := by
  have hactive : (if s.xngState = 1 then s.setXngState 2 else s).xng.row = s.xng.row :=
    both_arms (fun t : State => t.xng.row = s.xng.row) (s.setXngState_row 2) rfl
  unfold State.dutyRow
  split
  · exact hactive
  · exact hactive
  · split_ifs
    · exact s.setXngState_row 2
    · rfl
    · rfl
    · exact s.isolate_row
  · rfl

/-- A row without a fault of its own reports none. -/
theorem State.rowFault_none (s : State) {row : Nat} (h3 : row ≠ 3) (h5 : row ≠ 5) : s.rowFault row = s := by
  simp [State.rowFault, h3, h5]

/-- The row is acted on, and the reports and waits of the other rows end. -/
def State.rowTaken (s : State) (row : Nat) : State :=
  { s with xng := { s.xng with row := row, row3At := if row = 3 then s.xng.row3At else none
                               guardAt := if row = 4 then s.xng.guardAt else none } }

theorem exec_pairEvaluate {s : State} {dt : Nat} (hpair : s.pairRuns = true) (h : s.sys.mode = .shadow ∨ s.sys.duty = true) :
    ∃ t, t = ((s.elapse dt).rowFault s.pairRow).rowTaken s.pairRow ∧
      exec (.pairEvaluate dt) s = .next (if t.sys.duty then t.dutyRow s.pairRow else t.shadowRow s.pairRow) := by
  have hsys : (s.elapse dt).sys = s.sys := rfl
  exact ⟨_, rfl, if_neg (by rcases h with h | h <;> simp [State.elapse_pairRuns, hpair, hsys, h])⟩

/-- The row evaluated is the one acted on, and a shadow in step whose holder is gone begins its takeover. -/
theorem pairEvaluate_acts {s : State} {dt : Nat} (hpair : s.pairRuns = true) (h : s.sys.mode = .shadow ∨ s.sys.duty = true) :
    Gives (.pairEvaluate dt) s fun t => t.xng.row = s.pairRow ∧
      (s.sys.duty = false → s.pairRow = 1 ∨ s.pairRow = 2 → s.xngState = 5 → s.sys.trans = none →
        t.sys.trans = some ⟨.takeover, false, 7⟩) := by
  obtain ⟨u, rfl, hexec⟩ := exec_pairEvaluate (dt := dt) hpair h
  refine ⟨_, hexec, both_arms (fun t : State => t.xng.row = s.pairRow) (State.dutyRow_row _ _) (State.shadowRow_row _ _), ?_⟩
  intro hduty hrow hstate htrans
  have hshadow : s.sys.mode = .shadow := h.resolve_right (by simp [hduty])
  rw [State.rowFault_none _ (by omega) (by omega)]
  have hacts (u : State) (hs : u.xngState = 5) : u.shadowRow s.pairRow = u.beginTrans .takeover 7 := by
    rcases hrow with hrow | hrow <;> rw [hrow] <;> exact if_pos hs
  have hsys : ((s.elapse dt).rowTaken s.pairRow).sys = s.sys := rfl
  have hu : ((s.elapse dt).rowTaken s.pairRow).xngState = 5 := hstate
  rw [if_neg (by rw [hsys, hduty]; decide), hacts _ hu]
  simp [State.beginTrans, hsys, htrans, hshadow]

/-- After its guard time the home unit takes duty by way of M9. -/
theorem guardExpire_takes {s : State} {a dt : Nat} (hguard : s.xng.guardAt = some a) (hmode : s.sys.mode = .shadow)
    (htrans : s.sys.trans = none) : Gives (.guardExpire dt) s fun t =>
      if s.fld F.XNG_LIMITS.GUARD_MS * 1200000 ≤ s.now + dt - a then
        t.sys.trans = some ⟨.recovery, false, 15⟩ ∧ t.xng.guardAt = none ∧ t.xng.via508 = true
      else t = s.elapse dt := by
  have hguard' : (s.elapse dt).xng.guardAt = some a := hguard
  have htaken : (s.elapse dt).takeBy508.sys.trans = some ⟨.recovery, false, 15⟩ ∧ (s.elapse dt).takeBy508.xng.guardAt = none ∧
      (s.elapse dt).takeBy508.xng.via508 = true := by
    have hsys : (s.elapse dt).sys = s.sys := rfl
    refine ⟨?_, by rw [State.takeBy508, State.beginTrans_xng], by rw [State.takeBy508, State.beginTrans_xng]⟩
    simp [State.takeBy508, State.beginTrans, hsys, htrans, hmode]
  have hdue : (decide ((s.elapse dt).sys.mode = .shadow) &&
      decide ((s.elapse dt).fld F.XNG_LIMITS.GUARD_MS * clkPerMs ≤ (s.elapse dt).now - a)) = true ↔
      s.fld F.XNG_LIMITS.GUARD_MS * 1200000 ≤ s.now + dt - a := by
    show (decide (s.sys.mode = .shadow) && decide (s.fld F.XNG_LIMITS.GUARD_MS * 1200000 ≤ s.now + dt - a)) = true ↔ _
    simp [hmode]
  show ∃ t, execGuardExpire dt s = .next t ∧ _
  unfold execGuardExpire
  dsimp only
  rw [hguard']
  dsimp only
  by_cases h : s.fld F.XNG_LIMITS.GUARD_MS * 1200000 ≤ s.now + dt - a
  · exact ⟨_, if_pos (hdue.mpr h), by rw [if_pos h]; exact htaken⟩
  · exact ⟨_, if_neg (mt hdue.mp h), by rw [if_neg h]⟩

/-! ## The link (R491) -/

/-- A link that comes up starts its sequence numbers anew. -/
def State.linkUp (s : State) : State := { s with xng := { s.xng with txSeq := 0, rxSeq := 0, unacked := [] } }

theorem State.linkUp_flag (s : State) (f : Fld) : s.linkUp.flag f = s.flag f := rfl

theorem State.wakeEvent_xng (s : State) (code : Nat) : (s.wakeEvent code).xng = s.xng :=
  State.wakeEvent_keeps (·.xng) (fun _ _ _ _ => State.setFld_xng _ _ _) s code

theorem State.link_setFld (s : State) (up : Bool) : (s.setFld F.XNG_STATUS.LINK (b2n up)).flag F.XNG_STATUS.LINK = up :=
  State.flag_setFld_same up (by decide) rfl

theorem exec_crossingLinkChange_up {s : State} (h : s.flag F.XNG_STATUS.LINK = false) :
    exec (.crossingLinkChange true) s = .next ((s.setFld F.XNG_STATUS.LINK (b2n true)).linkUp.wakeEvent 7) :=
  if_neg (by rw [h]; decide)

theorem crossingLinkChange_up {s : State} (h : s.flag F.XNG_STATUS.LINK = false) : Gives (.crossingLinkChange true) s fun t =>
    t.flag F.XNG_STATUS.LINK = true ∧ t.xng = { s.xng with txSeq := 0, rxSeq := 0, unacked := [] } := by
  refine ⟨_, exec_crossingLinkChange_up h, ?_, ?_⟩
  · rw [State.flag_congr (State.wakeEvent_reg _ 7 (by decide)), State.linkUp_flag]
    exact s.link_setFld true
  · rw [State.wakeEvent_xng, State.linkUp, State.setFld_xng]

theorem crossingLinkChange_down {s : State} (h : s.flag F.XNG_STATUS.LINK = true) : Gives (.crossingLinkChange false) s fun t =>
    t.flag F.XNG_STATUS.LINK = false ∧ t.flag F.XNG_STATUS.XPATH = false ∧ t.xng = s.xng := by
  show ∃ t, execCrossingLinkChange false s = .next t ∧ _
  rw [execCrossingLinkChange, if_neg (by rw [h]; decide)]
  refine ⟨_, rfl, ?_, State.setPath_shows _ true false, by rw [State.setPath_xng, State.setFld_xng]⟩
  rw [State.setPath_flag_ne _ true false rfl (.inr (by decide))]
  exact s.link_setFld false

/-! ## The peer mailbox (R511) -/

/-- XNG_POST_CMD in the map. -/
def xngPostReg : RegD := ⟨R.XNG_POST_CMD, 1, 0x0, 1, 0x0, .plain, [⟨4, 0, .wo, .any⟩]⟩

/-- A write of XNG without a reserved value is its block's. -/
theorem State.blockWrite_xng {s : State} {off v : Nat} {d : RegD} (h : off / 0x10000 = 14)
    (hr : reservedHit s.sys.nominal60 d.fields v = false) (q : Req) (jn : Bool) :
    s.blockWrite q jn d off v = s.xngWrite q jn (s.gateOf q jn off) d off v := by
  simp [State.blockWrite, hr, h]

theorem State.xngWrite_post (s : State) (q : Req) (g : Gate) (v : Nat) :
    s.xngWrite q false g xngPostReg R.XNG_POST_CMD v = s.peerPost (bitsOf v 4 0) := by
  rw [State.xngWrite, if_neg (by decide), if_pos rfl]

theorem State.busWrite_peerPost {s : State} {q : Req} (b : BitVec 5) (h : WriteOpen s q R.XNG_POST_CMD) :
    s.busWrite q R.XNG_POST_CMD b.toNat = s.peerPost (bitsOf b.toNat 4 0) := by
  have hlegal : reservedHit s.sys.nominal60 xngPostReg.fields b.toNat = false := by simp [xngPostReg, reservedHit, Legal.ok]
  rw [s.busWrite_open q _ _ xngPostReg h (by decide) (by decide) (by decide) (by decide),
    State.blockWrite_xng (by decide) hlegal, State.xngWrite_post]

/-- A post shows BUSY, and goes out while the link carries it. -/
theorem peerPost_sends {s : State} {q : Req} (b : BitVec 5) (h : WriteOpen s q R.XNG_POST_CMD) : Gives (.peerPost q b) s fun t =>
    t.flag F.XNG_POST_RESULT.BUSY = true ∧
      t.xng.txSeq = s.xng.txSeq + (if s.flag F.XNG_STATUS.LINK = true ∧ s.flag F.XNG_STATUS.STOPPED = false then 1 else 0) := by
  let u := s.setFld F.XNG_POST_RESULT.BUSY 1
  have hu (f : Fld) (hf : f.off ≠ R.XNG_POST_RESULT) : u.flag f = s.flag f := State.flag_setFld_ne _ (by decide) (.inl hf)
  refine ⟨_, rfl, ?_⟩
  rw [s.busWrite_peerPost b h, State.peerPost]
  refine ⟨?_, ?_⟩
  · rw [State.flag_congr (u.crossSend_reg _ _ _)]
    exact State.flag_setFld_same (s := s) (f := F.XNG_POST_RESULT.BUSY) true (by decide) rfl
  · unfold State.crossSend
    rw [hu _ (by decide), hu _ (by decide)]
    by_cases hopen : s.flag F.XNG_STATUS.LINK = true ∧ s.flag F.XNG_STATUS.STOPPED = false
    · rw [if_pos (by simpa using hopen), if_pos hopen]
      simp
    · rw [if_neg (by simpa using hopen), if_neg hopen]
      simp

/-- A post moves its mailbox, the interrupts and what leaves the unit. -/
theorem State.bellVector_keeps {α : Type} (g : State → α) (hm : ∀ (s : State) n, g (s.msix n) = g s) (s : State) (m : Nat) :
    g (s.bellVector m) = g s := by
  refine both_arms (fun t => g t = g s) ?_ rfl
  exact both_arms (fun t => g t = g s) (hm s 0) (both_arms (fun t => g t = g s) (hm s 1) rfl)

theorem State.msix_xng (s : State) (n : Nat) : (s.msix n).xng = s.xng :=
  both_arms (fun t : State => t.xng = s.xng) (State.setFld_xng _ _ _) rfl

theorem State.msix_rbt (s : State) (n : Nat) : (s.msix n).rbt = s.rbt :=
  both_arms (fun t : State => t.rbt = s.rbt) (State.setFld_rbt _ _ _) rfl

/-- A post with room is delivered. -/
theorem State.post_delivers {s : State} {m agent bit : Nat} (v : DWord) (hmay : mayPost m agent = true) (hbit : bit < 24)
    (hroom : (s.box m).msgs.length < 16) :
    ((s.post m agent v bit).1.box m).msgs = (s.box m).msgs ++ [⟨v, agent, bit⟩] ∧ (s.post m agent v bit).1.xng = s.xng := by
  unfold State.post
  rw [if_neg (by simp [hmay]), if_neg (by omega), if_neg (by omega)]
  dsimp only
  refine ⟨?_, ?_⟩
  · have hbox (t u : State) (h : t.rbt = u.rbt) : t.box m = u.box m := by rw [State.box, h, State.box]
    rw [hbox _ _ (State.bellVector_keeps (·.rbt) State.msix_rbt _ m), hbox _ _ (State.bump_rbt _ _), State.ringBell,
      hbox _ _ (State.raise_rbt _ _)]
    simp [State.box, State.setBox]
  · rw [State.bellVector_keeps (·.xng) State.msix_xng, State.bump_xng, State.ringBell, State.raise_xng]
    rfl

/-- A post of the peer reaches mailbox 23. -/
theorem peerPostRx_delivers {s : State} {l : List Byte} {r : List (Nat × List Byte)} (hmsgs : s.xng.msgs = (7, l) :: r)
    (hkind : leAt l 0 1 = 0) (hbit : leAt l 1 1 % 32 < 24) (hroom : (s.box 23).msgs.length < 16) :
    Gives .peerPostRx s fun t => t.xng.msgs = r ∧
      (t.box 23).msgs = (s.box 23).msgs ++ [⟨BitVec.ofNat 64 (leAt l 2 8), 25, leAt l 1 1 % 32⟩] := by
  let u : State := { s with xng := { s.xng with msgs := r } }
  let p := u.post 23 25 (w64 (leAt l 2 8)) (leAt l 1 1 % 32)
  obtain ⟨hbox, hxng⟩ : (p.1.box 23).msgs = (s.box 23).msgs ++ [⟨w64 (leAt l 2 8), 25, leAt l 1 1 % 32⟩] ∧ p.1.xng = u.xng :=
    State.post_delivers (s := u) (w64 (leAt l 2 8)) (by decide) hbit hroom
  obtain ⟨n, v, hsend⟩ := p.1.crossSend_xng 7 (leBytes 1 1 ++ leBytes 1 p.2)
  refine ⟨p.1.crossSend 7 (leBytes 1 1 ++ leBytes 1 p.2), ?_, by rw [hsend, hxng], ?_⟩
  · show execPeerPostRx s = _
    rw [execPeerPostRx, State.crossTake_head hmsgs (by simp [hkind])]
  · rw [State.box, State.crossSend_rbt]
    exact hbox

theorem leNat_lt (l : List Byte) : leNat l < 256 ^ l.length := by
  induction l with
  | nil => exact Nat.one_pos
  | cons b l ih =>
    have hb := b.isLt
    rw [leNat, List.length_cons, Nat.pow_succ]
    omega

theorem leAt_lt (l : List Byte) (off n : Nat) : leAt l off n < 256 ^ n :=
  (leNat_lt _).trans_le (Nat.pow_le_pow_right (by decide) (List.length_take_le _ _))

/-- The result of a post shows, and BUSY ends. -/
theorem peerPostResult_shows {s : State} {l : List Byte} {r : List (Nat × List Byte)} (hmsgs : s.xng.msgs = (7, l) :: r)
    (hkind : leAt l 0 1 = 1) : Gives .peerPostResult s fun t => t.xng.msgs = r ∧ t.flag F.XNG_POST_RESULT.BUSY = false ∧
      t.fld F.XNG_POST_RESULT.RESULT = leAt l 1 1 := by
  let u : State := { s with xng := { s.xng with msgs := r } }
  refine ⟨(u.setFld F.XNG_POST_RESULT.BUSY 0).setFld F.XNG_POST_RESULT.RESULT (leAt l 1 1), ?_, by simp [u], ?_, ?_⟩
  · show execPeerPostResult s = _
    rw [execPeerPostResult, State.crossTake_head hmsgs (by simp [hkind])]
  · rw [State.flag_setFld_ne _ (by decide) (.inr (by decide))]
    exact State.flag_setFld_same (s := u) (f := F.XNG_POST_RESULT.BUSY) false (by decide) rfl
  · rw [State.fld_setFld_same _ _ _ (by decide)]
    exact Nat.mod_eq_of_lt (leAt_lt l 1 1)

/-! ## The obligation -/

/-- Settles O46: frames, heartbeats, paths, rows and posts each by the command's own equation. -/
theorem crossingLink : Obligations.CrossingLink := by
  unfold Obligations.CrossingLink
  intro s dt e kept
  refine ⟨?_, ?_, ⟨pathDown_crossing, pathDown_port, pathDown_neither⟩, dutyInputChange_shows s, pairEvaluate_acts,
    fun a => guardExpire_takes, crossingLinkChange_up, crossingLinkChange_down, fun q b => peerPost_sends b,
    fun l r hmsgs => ⟨peerPostRx_delivers hmsgs, peerPostResult_shows hmsgs⟩⟩
  · intro seq ack msgs hrun hlink
    refine ⟨⟨_, exec_xngFrame_dropped s (.inl rfl), rfl⟩, ⟨_, exec_xngFrame_ack hrun hlink seq ack, rfl⟩,
      fun hmsgs hseq => ⟨_, exec_xngFrame_dropped s (.inr ⟨hmsgs, hseq⟩), rfl⟩, ?_,
      ⟨_, exec_xngRetransmit hrun hlink, State.resend_all _ s⟩⟩
    rintro k l rfl hseq
    have hnext := exec_xngFrame_next hrun hlink hseq ack (k, l)
    refine ⟨fun h3 h5 => ⟨_, hnext, State.crossMessage_waits _ l h3 h5⟩, ?_⟩
    rintro rfl hl ht
    obtain ⟨hxng, hcnt⟩ := State.crossMessage_entry hl (s := { s with
      out := .crossing 0 (leBytes 8 seq) :: s.out, xng := { s.xng with unacked := kept ack, rxSeq := seq } }) ht
    exact ⟨_, hnext, hxng, counted_of_eq hcnt rfl rfl⟩
  · intro hpair
    exact ⟨fun h => ⟨_, exec_heartbeatSend_early h, rfl⟩, heartbeatSend_due hpair,
      fun l r hrun hmsgs => ⟨heartbeatRx_bad hpair hrun hmsgs, fun h => heartbeatRx_crossing hpair hrun hmsgs⟩,
      fun l r h => heartbeatRx_port hpair⟩

end Sys2Proof.Machine
end

section
/-!
The journal on a shadow and its join (O47): entries applied, the join's steps and the image loaded.
-/

namespace Sys2Proof.Machine

open Sys2Proof.Safety

/-! ## The journal on the shadow (R497, R498) -/

/-- An entry about to be applied is counted, and is the last of the journal. -/
def State.entryCounted (s : State) (n : Nat) : State :=
  let t := (s.bump R.XNG_U_ENTRIES_APPLIED).setCnt R.XNG_APPLIED (w64 n)
  { t with xng := { t.xng with eseq := n } }

theorem State.entryCounted_counts (s : State) (n : Nat) : Counted s (s.entryCounted n) R.XNG_U_ENTRIES_APPLIED 1 := by
  refine counted_of_eq (counted_bump s _) rfl ?_
  exact (State.cnt_setCnt _ _ _ _).trans (if_neg (by decide))

theorem State.entryCounted_xng (s : State) (n : Nat) : (s.entryCounted n).xng = { s.xng with eseq := n } := by simp [State.entryCounted]

/-- The lag at application as it shows, with the time since when it is small. -/
def State.lagShown (s : State) (us : Nat) : State :=
  let t := s.setReg R.XNG_LAG (w32 (min (2 ^ 32 - 1) us))
  { t with xng := { t.xng with lagOkAt := if us ≤ 2000 then some (t.xng.lagOkAt.getD t.now) else none } }

/-- A shadow that lags is in step no more. -/
def State.lagLost (s : State) : State :=
  { (s.setXngState 4).raise F.XNG_INT_STATUS.LAG with xng := { (s.setXngState 4).xng with joinAt := some s.now, lagOkAt := none } }

/-- The lag noted shows, and a shadow in step that lags too far is in step no more. -/
theorem State.noteLag_eq (s : State) (time : Nat) : ∃ us, s.noteLag time = s.lagShown us ∨ s.noteLag time = (s.lagShown us).lagLost := by
  let us := usOfGt (gtDiff s.gt time)
  have h : s.noteLag time =
      if (s.lagShown us).xngState = 5 && decide ((s.lagShown us).fld F.XNG_LIMITS.LAG_MS * 1000 < us) then (s.lagShown us).lagLost
      else s.lagShown us := rfl
  exact ⟨us, (ite_eq_or_eq _ _ _).symm.imp h.trans h.trans⟩

/-- The timebase, MRAM, the journal's place and the counts but those of digests stand. -/
structure JournalKept (s t : State) : Prop where
  tim : t.tim = s.tim
  mram : t.mram = s.mram
  rx : t.xng.rx = s.xng.rx
  eseq : t.xng.eseq = s.xng.eseq
  cnt : ∀ k, k ≠ R.XNG_U_DIGESTS_TIMED_OUT → t.cnt k = s.cnt k

theorem JournalKept.trans {s t u : State} (a : JournalKept s t) (b : JournalKept t u) : JournalKept s u :=
  ⟨b.tim.trans a.tim, b.mram.trans a.mram, b.rx.trans a.rx, b.eseq.trans a.eseq, fun k hk => (b.cnt k hk).trans (a.cnt k hk)⟩

theorem State.crossSend_journalKept (s : State) (kind : Nat) (payload : List Byte) : JournalKept s (s.crossSend kind payload) := by
  obtain ⟨n, l, hxng⟩ := s.crossSend_xng kind payload
  exact ⟨(s.crossSend_steady kind payload).tim, s.crossSend_mram kind payload, by rw [hxng], by rw [hxng],
    fun k _ => s.crossSend_cnt kind payload k⟩

theorem State.lagShown_journalKept (s : State) (us : Nat) : JournalKept s (s.lagShown us) :=
  ⟨by simp [State.lagShown], by simp [State.lagShown], by simp [State.lagShown], by simp [State.lagShown],
    fun k _ => State.cnt_setReg s _ _ k⟩

theorem State.lagLost_journalKept (s : State) : JournalKept s s.lagLost := by
  obtain ⟨own, peer, hxng⟩ := s.setXngState_xng 4
  exact ⟨(State.raise_tim _ _).trans (s.setXngState_steady 4).tim, (State.raise_mram _ _).trans (s.setXngState_mram 4),
    by rw [State.lagLost, hxng], by rw [State.lagLost, hxng], fun k hk => (State.cnt_setReg _ _ _ k).trans (s.setXngState_cnt 4 hk)⟩

/-- The lag noted may take the shadow out of IN_STEP, and leaves the journal alone. -/
theorem State.noteLag_journalKept (s : State) (time : Nat) : JournalKept s (s.noteLag time) := by
  obtain ⟨us, h | h⟩ := s.noteLag_eq time <;> rw [h]
  · exact s.lagShown_journalKept us
  · exact (s.lagShown_journalKept us).trans (State.lagLost_journalKept _)

/-- An entry is its effect, and what leaves the journal alone. -/
theorem State.applyEntry_effect (s : State) (e : List Byte) :
    JournalKept ((s.entryCounted (entryEseq e)).applyKind e) (s.applyEntry e) :=
  (State.crossSend_journalKept _ _ _).trans (State.noteLag_journalKept _ _)

/-- The oldest entry received is taken. -/
def State.entryTaken (s : State) (l : List (List Byte)) : State := { s with xng := { s.xng with rx := l } }

section

variable {s : State} {x : List Byte} {l : List (List Byte)} (hrx : s.xng.rx = x :: l) (dt : Nat)

include hrx

theorem exec_journalApply_waits (h : entryEseq x ≠ s.xng.eseq + 1) : exec (.journalApply dt) s = .next (s.elapse dt) := by
  show execJournalApply dt s = _
  unfold execJournalApply
  dsimp only
  rw [State.elapse_xng, hrx]
  exact if_neg (by simp [h])

theorem exec_journalApply_next (happ : (s.elapse dt).appliesEntries = true) (h : entryEseq x = s.xng.eseq + 1) :
    exec (.journalApply dt) s = .next (((s.elapse dt).entryTaken l).applyEntry x) := by
  show execJournalApply dt s = _
  unfold execJournalApply
  dsimp only
  rw [State.elapse_xng, hrx]
  exact if_pos (by simp [happ, h])

/-- A mark of the journal becomes the shadow's mark. -/
theorem journalApply_mark (happ : (s.elapse dt).appliesEntries = true) (h : entryEseq x = s.xng.eseq + 1) (hkind : leAt x 8 1 = 1) :
    Gives (.journalApply dt) s fun t => t.tim.mark = leAt x 24 8 ∧ t.tim.markAt = s.now + dt := by
  refine ⟨_, exec_journalApply_next hrx dt happ h, ?_⟩
  let u := ((s.elapse dt).entryTaken l).entryCounted (entryEseq x)
  let v := u.noteStep (bitOf (leAt (x.drop 32) 2 1) 0) (leAt x 24 8)
  have hu : u.now = s.now + dt := (State.setCnt_now _ _ _).trans (State.bump_now _ _)
  have hv : v.now = u.now := by
    unfold v State.noteStep
    split <;> rfl
  have happly : u.applyKind x = v.takeMark (leAt x 24 8) (leAt (x.drop 32) 0 2) := by simp [State.applyKind, hkind, v]
  obtain ⟨hmark, hat⟩ := v.takeMark_marks (leAt x 24 8) (leAt (x.drop 32) 0 2)
  have htim := (((s.elapse dt).entryTaken l).applyEntry_effect x).tim
  beta_reduce
  rw [htim, happly]
  exact ⟨hmark, hat.trans (hv.trans hu)⟩

/-- An epoch of the journal becomes the shadow's EPOCH. -/
theorem journalApply_epoch (happ : (s.elapse dt).appliesEntries = true) (h : entryEseq x = s.xng.eseq + 1) (hkind : leAt x 8 1 = 3) :
    Gives (.journalApply dt) s fun t => t.xng.rx = l ∧ t.xng.eseq = s.xng.eseq + 1 ∧ t.mram.epoch = leAt (x.drop 32) 0 4 ∧
      Counted s t R.XNG_U_ENTRIES_APPLIED 1 := by
  refine ⟨_, exec_journalApply_next hrx dt happ h, ?_⟩
  let w := (s.elapse dt).entryTaken l
  let u := w.entryCounted (entryEseq x)
  let v := u.setReg R.ERR_EPOCH (w32 (leAt (x.drop 32) 0 4))
  have happly : u.applyKind x = { v with mram := { u.mram with epoch := leAt (x.drop 32) 0 4 } } := by
    simp [State.applyKind, hkind, v]
  have hxng : (u.applyKind x).xng = { w.xng with eseq := entryEseq x } := by
    rw [happly]
    exact (State.setReg_xng _ _ _).trans (w.entryCounted_xng _)
  have heffect := w.applyEntry_effect x
  refine ⟨?_, ?_, ?_, ?_⟩
  · rw [heffect.rx, hxng]
    rfl
  · rw [heffect.eseq, hxng, h]
  · rw [heffect.mram, happly]
  · refine counted_of_eq (w.entryCounted_counts (entryEseq x)) rfl ?_
    rw [heffect.cnt _ (by decide), happly]
    exact State.cnt_setReg u _ _ _

end

/-! ## The steps of a join (R501) -/

/-- A shadow in JOINING asks, unless the units differ. -/
theorem joinStart_asks {s : State} (hrun : s.xngRuns = true) (hshadow : s.isShadow = true) (hstate : s.xngState = 3)
    (hjoin : s.xng.joinAt = none) (hretry : s.xng.retryAt = none) (hpath : s.flag F.XNG_STATUS.XPATH = true) :
    Gives .joinStart s fun t => t.xng.joinAt = some s.now ∧ (s.joinAgrees = false → t.out = s.out) := by
  let u : State := { s with xng := { s.xng with joinAt := some s.now } }
  have hexec : exec .joinStart s = .next (if s.joinAgrees then u.crossSend 3 (leBytes 1 0) else u) := by
    show execJoinStart s = _
    rw [execJoinStart, if_neg (by simp [hrun]), if_pos hshadow, if_pos (by simp [hstate, hjoin, hretry, hpath])]
    rfl
  obtain ⟨n, l, hsend⟩ := u.crossSend_xng 3 (leBytes 1 0)
  refine ⟨_, hexec, both_arms (fun t : State => t.xng.joinAt = some s.now) (by rw [hsend]) rfl, fun hdiffer => ?_⟩
  rw [if_neg (by simp [hdiffer])]

/-- The unit that holds duty takes the request: its next mark is the join mark. -/
theorem joinStart_takes {s : State} {l : List Byte} {r : List (Nat × List Byte)} (hrun : s.xngRuns = true) (hshadow : s.isShadow = false)
    (hduty : s.sys.duty = true) (hmsgs : s.xng.msgs = (3, l) :: r) :
    Gives .joinStart s fun t => t.xng.msgs = r ∧ t.xng.joinWant = (s.joinAgrees || s.xng.joinWant) := by
  let u : State := { s with xng := { s.xng with msgs := r } }
  have hexec : exec .joinStart s =
      .next (if s.sys.duty && s.joinAgrees then { u with xng := { u.xng with joinWant := true, cut := none } } else u) := by
    show execJoinStart s = _
    rw [execJoinStart, if_neg (by simp [hrun]), if_neg (by simp [hshadow]), State.crossTake_head hmsgs (by simp)]
    exact (apply_ite Host.Outcome.next _ _ _).symm
  refine ⟨_, hexec, ?_⟩
  cases hagree : s.joinAgrees <;> simp [hduty, u]

/-- A shadow whose lag has stayed small for 1 s is in step. -/
theorem joinInStep_joins {s : State} {a dt : Nat} (hshadow : s.isShadow = true) (hlag : s.xng.lagOkAt = some a) (hstate : s.xngState = 4) :
    Gives (.joinInStep dt) s fun t => if 1200000000 ≤ s.now + dt - a then
      t.xngState = 5 ∧ t.xng.inStepAt = s.now + dt ∧ Counted s t R.XNG_U_JOINS 1 else t = s.elapse dt := by
  have hdue : ((s.elapse dt).isShadow && decide ((s.elapse dt).xngState = 4) && decide (clkPerS ≤ (s.elapse dt).now - a)) = true ↔
      1200000000 ≤ s.now + dt - a := by
    show (s.isShadow && decide (s.xngState = 4) && decide (1200000000 ≤ s.now + dt - a)) = true ↔ _
    simp [hshadow, hstate]
  show ∃ t, execJoinInStep dt s = .next t ∧ _
  unfold execJoinInStep
  dsimp only
  rw [State.elapse_xng, hlag]
  dsimp only
  by_cases h : 1200000000 ≤ s.now + dt - a
  · rw [if_pos (hdue.mpr h)]
    refine ⟨_, rfl, (if_pos h).mpr ⟨?_, rfl, ?_⟩⟩
    · exact (State.fld_congr (by simp [State.reg])).trans ((s.elapse dt).xngState_setXngState (by decide : 5 < 16))
    · exact counted_of_eq (counted_bump ((s.elapse dt).setXngState 5) R.XNG_U_JOINS) ((s.elapse dt).setXngState_cnt 5 (by decide)) rfl
  · rw [if_neg (mt hdue.mp h)]
    exact ⟨_, rfl, (if_neg h).mpr rfl⟩

end Sys2Proof.Machine
end

section
/-!
The end of a join (O47): its timeout, its retry, and the image that is loaded.
-/

namespace Sys2Proof.Machine

open Sys2Proof.Safety

/-! ## A join that fails, and the next one (R501) -/

/-- A failed join is flagged, and starts again after 10 s. -/
theorem State.joinFail_shows (s : State) : s.joinFail.xngState = 3 ∧ s.joinFail.xng.joinAt = none ∧
    s.joinFail.xng.retryAt = some (s.now + 12000000000) ∧ s.joinFail.flag F.XNG_INT_STATUS.JOIN_FAIL = true := by
  unfold State.joinFail
  extract_lets u
  have hnow : u.now = s.now := (State.ringLog_now _ _ _ _).trans (State.raise_now _ _)
  have hflag : u.flag F.XNG_INT_STATUS.JOIN_FAIL = true :=
    (State.flag_congr (State.reg_ringLog _ _ _ _ (by decide))).trans (State.flag_raise s _ (by decide) rfl)
  refine ⟨?_, rfl, ?_, ?_⟩
  · exact u.xngState_setXngState (by decide : 3 < 16)
  · exact congrArg (fun n => some (n + 12000000000)) hnow
  · exact (u.setXngState_flag 3 (.inr (.inr (by decide))) (.inl (by decide))).trans hflag

/-- A join that takes JOIN_S has failed. -/
theorem joinTimeout_fails {s : State} {a dt : Nat} (hshadow : s.isShadow = true) (hjoin : s.xng.joinAt = some a)
    (hstate : s.xngState = 3 ∨ s.xngState = 4) : Gives (.joinTimeout dt) s fun t =>
      if s.fld F.XNG_LIMITS.JOIN_S * 1200000000 ≤ s.now + dt - a then
        t.xngState = 3 ∧ t.xng.joinAt = none ∧ t.xng.retryAt = some (s.now + dt + 12000000000) ∧ t.flag F.XNG_INT_STATUS.JOIN_FAIL = true
      else t = s.elapse dt := by
  let e := s.elapse dt
  have hdue : (e.isShadow && (decide (e.xngState = 3) || decide (e.xngState = 4)) &&
      decide (e.fld F.XNG_LIMITS.JOIN_S * clkPerS ≤ e.now - a)) = true ↔ s.fld F.XNG_LIMITS.JOIN_S * 1200000000 ≤ s.now + dt - a := by
    show (s.isShadow && (decide (s.xngState = 3) || decide (s.xngState = 4)) &&
      decide (s.fld F.XNG_LIMITS.JOIN_S * 1200000000 ≤ s.now + dt - a)) = true ↔ _
    simp [hshadow, hstate]
  have hexec : exec (.joinTimeout dt) s =
      if e.isShadow && (decide (e.xngState = 3) || decide (e.xngState = 4)) && decide (e.fld F.XNG_LIMITS.JOIN_S * clkPerS ≤ e.now - a)
      then .next e.joinFail else .next e := by
    show execJoinTimeout dt s = _
    unfold execJoinTimeout
    dsimp only
    rw [State.elapse_xng, hjoin]
  rw [Gives, hexec]
  by_cases h : s.fld F.XNG_LIMITS.JOIN_S * 1200000000 ≤ s.now + dt - a
  · rw [if_pos (hdue.mpr h)]
    exact ⟨_, rfl, (if_pos h).mpr e.joinFail_shows⟩
  · rw [if_neg (mt hdue.mp h)]
    exact ⟨_, rfl, (if_neg h).mpr rfl⟩

section

variable {s : State} {a dt : Nat} (hshadow : s.isShadow = true) (hretry : s.xng.retryAt = some a) (hdue : a ≤ s.now + dt)

include hshadow hretry hdue

/-- The unit joins again when its time has come, unless it has diverged too often. -/
theorem exec_joinRetry : exec (.joinRetry dt) s =
    if s.xngState = 3 ∨ (s.xngState = 7 ∧ (s.elapse dt).recentDivs < 3) then
      .next { (s.elapse dt).setXngState 3 with
        xng := { ((s.elapse dt).setXngState 3).xng with retryAt := none, joinAt := none, lagOkAt := none } }
    else .next (s.elapse dt) := by
  let e := s.elapse dt
  have hcond : (e.isShadow && decide (a ≤ e.now) &&
      (decide (e.xngState = 3) || (decide (e.xngState = 7) && decide (e.recentDivs < 3)))) = true ↔
      s.xngState = 3 ∨ (s.xngState = 7 ∧ e.recentDivs < 3) := by
    show (s.isShadow && decide (a ≤ s.now + dt) &&
      (decide (s.xngState = 3) || (decide (s.xngState = 7) && decide (e.recentDivs < 3)))) = true ↔ _
    simp [hshadow, hdue]
  show execJoinRetry dt s = _
  unfold execJoinRetry
  dsimp only
  rw [State.elapse_xng, hretry]
  exact if_congr hcond rfl rfl

theorem joinRetry_joins (h : s.xngState = 3 ∨ (s.xngState = 7 ∧ (s.elapse dt).recentDivs < 3)) :
    Gives (.joinRetry dt) s fun t => t.xngState = 3 ∧ t.xng.retryAt = none :=
  ⟨_, (exec_joinRetry hshadow hretry hdue).trans (if_pos h), (s.elapse dt).xngState_setXngState (by decide : 3 < 16), rfl⟩

/-- Not after the third divergence. -/
theorem joinRetry_stays (hstate : s.xngState = 7) (hdivs : 3 ≤ (s.elapse dt).recentDivs) :
    Gives (.joinRetry dt) s fun t => t = s.elapse dt :=
  ⟨_, (exec_joinRetry hshadow hretry hdue).trans (if_neg (by omega)), rfl⟩

end

/-! ## The image (R499, R501) -/

/-- What the image gives of the sequence, the timebase and the engines. -/
structure Restores (img : JoinImage) (t : State) : Prop where
  eseq : t.xng.eseq = img.eseq
  epoch : t.mram.epoch = img.epoch
  mark : t.tim.mark = img.mark
  gld : t.gld = img.gld
  flt : t.flt = img.flt
  osc : t.osc = img.osc
  isl : t.isl = img.isl
  cap : t.cap = img.cap
  points : t.alm.points = img.alm.points

/-- Such parts stand. -/
structure SameParts (s t : State) : Prop where
  xng : t.xng.eseq = s.xng.eseq
  mram : t.mram = s.mram
  tim : t.tim = s.tim
  gld : t.gld = s.gld
  flt : t.flt = s.flt
  osc : t.osc = s.osc
  isl : t.isl = s.isl
  cap : t.cap = s.cap
  alm : t.alm = s.alm

theorem SameParts.refl (s : State) : SameParts s s := ⟨rfl, rfl, rfl, rfl, rfl, rfl, rfl, rfl, rfl⟩

theorem SameParts.trans {s t u : State} (a : SameParts s t) (b : SameParts t u) : SameParts s u :=
  ⟨b.xng.trans a.xng, b.mram.trans a.mram, b.tim.trans a.tim, b.gld.trans a.gld, b.flt.trans a.flt, b.osc.trans a.osc,
    b.isl.trans a.isl, b.cap.trans a.cap, b.alm.trans a.alm⟩

theorem SameParts.foldl {α : Type} {f : State → α → State} (h : ∀ s x, SameParts s (f s x)) (l : List α) (s : State) :
    SameParts s (l.foldl f s) :=
  List.foldlRecOn l f (motive := SameParts s) (.refl s) fun t ht x _ => ht.trans (h t x)

theorem Restores.of_same {img : JoinImage} {s t : State} (h : Restores img s) (k : SameParts s t) : Restores img t :=
  ⟨k.xng.trans h.eseq, (congrArg (·.epoch) k.mram).trans h.epoch, (congrArg (·.mark) k.tim).trans h.mark, k.gld.trans h.gld,
    k.flt.trans h.flt, k.osc.trans h.osc, k.isl.trans h.isl, k.cap.trans h.cap, (congrArg (·.points) k.alm).trans h.points⟩

theorem State.setCnt_sameParts (s : State) (k : Nat) (v : DWord) : SameParts s (s.setCnt k v) := by
  constructor <;> simp

theorem State.joinCounts_sameParts (s o : State) : SameParts s (s.joinCounts o) := by
  unfold State.joinCounts
  extract_lets move t
  have ht : SameParts s t := SameParts.foldl (fun s _ => s.setCnt_sameParts _ _) _ s
  exact ht.trans (SameParts.foldl (fun s _ => s.setCnt_sameParts _ _) _ t)

/-- The state's parts are the image's once these are loaded. -/
theorem State.loadParts_restores (s : State) (img : JoinImage) : Restores img (s.loadParts img) := by
  unfold State.loadParts
  extract_lets o mram t xng tim alm sys u
  have hu : Restores img u := ⟨rfl, rfl, rfl, rfl, rfl, rfl, rfl, rfl, rfl⟩
  exact hu.of_same (u.joinCounts_sameParts o)

theorem State.entryPut_sameParts (s : State) (n i : Nat) : SameParts s (s.entryPut n i) := by
  unfold State.entryPut
  extract_lets q
  split
  · exact .refl s
  · constructor <;> simp

/-- Memory and queues are none of these parts. -/
theorem State.loadMemory_sameParts (s : State) (img : JoinImage) : SameParts s (s.loadMemory img) := by
  unfold State.loadMemory
  extract_lets r rbt t
  have ht : SameParts s t := ⟨rfl, rfl, rfl, rfl, rfl, rfl, rfl, rfl, rfl⟩
  exact ht.trans (SameParts.foldl (fun s _ => SameParts.foldl (fun s i => s.entryPut_sameParts _ i) _ s) _ t)

theorem State.dropEntries_sameParts (s : State) (j : Nat) : SameParts s (s.dropEntries j) := by
  unfold State.dropEntries
  constructor <;> simp

theorem State.setXngState_sameParts (s : State) (n : Nat) : SameParts s (s.setXngState n) := by
  have hdrop : SameParts s (if lockstepState n then s else s.dropDigests) :=
    both_arms (SameParts s) (.refl s) (by unfold State.dropDigests; constructor <;> simp)
  exact both_arms (SameParts s) (.refl s) (hdrop.trans (by constructor <;> simp))

/-- The image a shadow asked for is loaded, and it catches up from there. -/
theorem joinImageLoaded_restores {s : State} (img : JoinImage) (hrun : s.xngRuns = true) (hshadow : s.isShadow = true)
    (hstate : s.xngState = 3) (hjoin : s.xng.joinAt ≠ none) :
    Gives (.joinImageLoaded img) s fun t => t.xngState = 4 ∧ Restores img t := by
  let u := ((s.loadParts img).loadMemory img).dropEntries img.eseq
  have hexec : exec (.joinImageLoaded img) s = .next (u.setXngState 4) := by
    show execJoinImageLoaded img s = _
    exact if_pos (by simp [hrun, hshadow, hstate, Option.isSome_iff_ne_none, hjoin])
  have hu : Restores img u :=
    ((s.loadParts_restores img).of_same (State.loadMemory_sameParts _ img)).of_same (State.dropEntries_sameParts _ img.eseq)
  exact ⟨_, hexec, u.xngState_setXngState (by decide : 4 < 16), hu.of_same (u.setXngState_sameParts 4)⟩

end Sys2Proof.Machine
end

section
/-!
Digests, output marks and the request of duty (O47).
-/

namespace Sys2Proof.Machine

open Sys2Proof.Safety

/-! ## A divergence (R503) -/

/-- What a fault records depends on the clocks and the epoch alone. -/
theorem State.found_congr {s t : State} (hnow : t.now = s.now) (htim : t.tim = s.tim) (hepoch : t.reg R.ERR_EPOCH = s.reg R.ERR_EPOCH)
    (code wh req : Nat) : t.found code wh req = s.found code wh req := by
  have hgt : t.gt = s.gt := by rw [State.gt, htim, State.gt]
  have hep : t.epoch = s.epoch := State.fld_congr hepoch
  rw [State.found, hnow, hgt, hep, State.found]

/-- A divergence as it is detected, before the shadow's STATE follows. -/
def State.divergeFound (s : State) (code wh : Nat) : State :=
  let t := (s.raise F.XNG_INT_STATUS.DIGEST).detect code wh 0xFF
  { t with xng := { t.xng with inStepAt := t.now } }

theorem State.divergeFound_xngState (s : State) (code wh : Nat) : (s.divergeFound code wh).xngState = s.xngState :=
  State.fld_setFld_ne s F.XNG_INT_STATUS.DIGEST F.XNG_STATUS.STATE 1 (by decide) (.inl (by decide))

theorem State.divergeFound_cnt (s : State) (code wh k : Nat) : (s.divergeFound code wh).cnt k = s.cnt k :=
  State.cnt_setReg s _ _ k

theorem State.divergeFound_own (s : State) (code wh : Nat) : (s.divergeFound code wh).xng.own = s.xng.own :=
  congrArg (·.own) (State.raise_xng s F.XNG_INT_STATUS.DIGEST)

theorem State.divergeFound_detected (s : State) (code wh : Nat) :
    (s.divergeFound code wh).err.detected = s.err.detected ++ [s.found code wh 0xFF] := by
  let u := s.raise F.XNG_INT_STATUS.DIGEST
  have hfound : u.found code wh 0xFF = s.found code wh 0xFF :=
    State.found_congr (State.raise_now _ _) (State.raise_tim _ _) (State.reg_setFld_ne _ _ _ _ (by decide)) _ _ _
  have herr : u.err = s.err := State.raise_err _ _
  show u.err.detected ++ [u.found code wh 0xFF] = _
  rw [hfound, herr]

/-- The shadow's STATE after a divergence. -/
def State.diverged (s : State) : State :=
  { s.setXngState 7 with xng := { s.xng with divs := s.now :: s.xng.divs, retryAt := some (s.now + 10 * 1200000000) } }

theorem State.diverge_eq (s : State) (code wh : Nat) : s.diverge code wh =
    if s.xngState = 5 then (s.divergeFound code wh).diverged else s.divergeFound code wh := by
  rw [← s.divergeFound_xngState code wh]
  rfl

/-- What neither a register nor the digests that wait bear on stands in a new STATE. -/
theorem State.setXngState_keeps {α : Type} (g : State → α) {s : State} (hdrop : g s.dropDigests = g s)
    (hfld : ∀ (t : State) f v, g (t.setFld f v) = g t) (n : Nat) : g (s.setXngState n) = g s := by
  have h : g (if lockstepState n then s else s.dropDigests) = g s := both_arms (fun t : State => g t = g s) rfl hdrop
  exact both_arms (fun t : State => g t = g s) rfl ((hfld _ _ _).trans ((hfld _ _ _).trans h))

theorem State.setXngState_err (s : State) (n : Nat) : (s.setXngState n).err = s.err :=
  State.setXngState_keeps (·.err) (State.bumpBy_err s _ _) (fun t f v => State.setFld_err t f v) n

theorem State.diverge_detected (s : State) (code wh : Nat) :
    (s.diverge code wh).err.detected = s.err.detected ++ [s.found code wh 0xFF] := by
  rw [State.diverge_eq, ← s.divergeFound_detected code wh]
  exact both_arms (fun t : State => t.err.detected = (s.divergeFound code wh).err.detected)
    (congrArg (·.detected) (State.setXngState_err _ 7)) rfl

theorem State.diverge_xngState (s : State) (code wh : Nat) :
    (s.diverge code wh).xngState = if s.xngState = 5 then 7 else s.xngState := by
  rw [State.diverge_eq]
  split
  · exact State.xngState_setXngState _ (by decide : 7 < 16)
  · exact s.divergeFound_xngState code wh

theorem State.diverge_own (s : State) (code wh : Nat) : (s.diverge code wh).xng.own = s.xng.own := by
  rw [State.diverge_eq, ← s.divergeFound_own code wh]
  exact both_arms (fun t : State => t.xng.own = (s.divergeFound code wh).xng.own) rfl rfl

theorem State.diverge_cnt (s : State) (code wh : Nat) {k : Nat} (hk : k ≠ R.XNG_U_DIGESTS_TIMED_OUT) :
    (s.diverge code wh).cnt k = s.cnt k := by
  rw [State.diverge_eq, ← s.divergeFound_cnt code wh]
  exact both_arms (fun t : State => t.cnt k = (s.divergeFound code wh).cnt k) (State.setXngState_cnt _ 7 hk) rfl

/-- With none of its own digests waiting, a new STATE counts none as timed out. -/
theorem State.setXngState_cnt_of_own {s : State} (h : s.xng.own = []) (n k : Nat) : (s.setXngState n).cnt k = s.cnt k := by
  have hdrop : s.dropDigests.cnt k = s.cnt k := by
    show (s.bumpBy R.XNG_U_DIGESTS_TIMED_OUT s.xng.own.length).cnt k = s.cnt k
    rw [State.cnt_bumpBy, h]
    split
    next hk =>
      subst hk
      have hlt := (s.cnt R.XNG_U_DIGESTS_TIMED_OUT).isLt
      rw [List.length_nil, Nat.add_zero, Nat.min_eq_left (by omega), w64, BitVec.ofNat_toNat, BitVec.setWidth_eq]
    · rfl
  exact State.setXngState_keeps (·.cnt k) hdrop (fun t f v => State.cnt_setReg t _ _ k) n

theorem State.diverge_cnt_of_own {s : State} (h : s.xng.own = []) (code wh k : Nat) : (s.diverge code wh).cnt k = s.cnt k := by
  rw [State.diverge_eq, ← s.divergeFound_cnt code wh]
  exact both_arms (fun t : State => t.cnt k = (s.divergeFound code wh).cnt k)
    (State.setXngState_cnt_of_own ((s.divergeFound_own code wh).trans h) 7 k) rfl

/-! ## Digests of one item (R503) -/

section

variable {s : State} {l : List Byte} {r : List (Nat × List Byte)} {o : DigestRec} (hmsgs : s.xng.msgs = (4, l) :: r)
  (hlock : s.inLockstep = true) (hfound : findDigest (leAt l 0 1) (leAt l 1 4) (leAt l 5 8) s.xng.own = some o)

/-- The peer's digest is taken, and the unit's own of that item waits no more. -/
def State.digestTaken (s : State) (l : List Byte) (r : List (Nat × List Byte)) : State :=
  { s with xng := { s.xng with msgs := r, own := dropDigest (leAt l 0 1) (leAt l 1 4) (leAt l 5 8) s.xng.own } }

include hmsgs hlock hfound

theorem exec_digestRx : exec .digestRx s =
    .next ((s.digestTaken l r).matchDigests o.digest (BitVec.ofNat 128 (leAt l 21 16)) (leAt l 1 4)) := by
  have hlock' : ({ s with xng := { s.xng with msgs := r } } : State).inLockstep = true := hlock
  show execDigestRx s = _
  rw [execDigestRx, State.crossTake_head hmsgs (by simp)]
  dsimp only
  rw [State.digestIn, hlock']
  dsimp only [Bool.not_true, Bool.false_eq_true, if_false]
  rw [hfound]
  rfl

theorem digestRx_matches (heq : o.digest = BitVec.ofNat 128 (leAt l 21 16)) : Gives .digestRx s fun t =>
    t.xng.msgs = r ∧ Counted s t R.XNG_U_DIGESTS_MATCHED 1 ∧ t.xngState = s.xngState := by
  refine ⟨_, exec_digestRx hmsgs hlock hfound, ?_⟩
  beta_reduce
  rw [State.matchDigests, if_pos heq]
  exact ⟨congrArg (·.msgs) (State.bump_xng _ _), counted_bump (s.digestTaken l r) _,
    State.fld_congr (State.reg_bump (s.digestTaken l r) _ _)⟩

theorem digestRx_differs (hne : o.digest ≠ BitVec.ofNat 128 (leAt l 21 16)) : Gives .digestRx s fun t =>
    Counted s t R.XNG_U_DIGESTS_MISMATCHED 1 ∧ t.err.detected = s.err.detected ++ [s.found 0x20 (leAt l 1 4) 0xFF] ∧
      t.xngState = if s.xngState = 5 then 7 else s.xngState := by
  let u := (s.digestTaken l r).bump R.XNG_U_DIGESTS_MISMATCHED
  have hstate : u.xngState = s.xngState := State.fld_congr (State.reg_bump (s.digestTaken l r) _ _)
  have herr : u.err = s.err := State.bump_err (s.digestTaken l r) _
  have hrec (wh : Nat) : u.found 0x20 wh 0xFF = s.found 0x20 wh 0xFF :=
    State.found_congr (State.bump_now (s.digestTaken l r) _) (State.bump_tim (s.digestTaken l r) _)
      (State.reg_bump (s.digestTaken l r) _ _) _ _ _
  refine ⟨_, exec_digestRx hmsgs hlock hfound, ?_⟩
  beta_reduce
  rw [State.matchDigests, if_neg hne]
  refine ⟨counted_of_eq (counted_bump (s.digestTaken l r) _) rfl (State.diverge_cnt u _ _ (by decide)), ?_, ?_⟩
  · rw [State.diverge_detected u, herr, hrec]
  · rw [State.diverge_xngState u, hstate]

end

/-- The unit's own digests that still wait. -/
def State.ownLeft (s : State) (l : List DigestRec) : State := { s with xng := { s.xng with own := l } }

/-- An own digest that waits DIGEST_MS for its match is counted as timed out, and reported. -/
theorem digestTimeout_reports {s : State} {d : DigestRec} {dt : Nat} (hlock : s.inLockstep = true) (hown : s.xng.own = [d])
    (hpeer : s.xng.peer = []) : Gives (.digestTimeout dt) s fun t =>
      if s.fld F.XNG_LIMITS.DIGEST_MS * 1200000 ≤ s.now + dt - d.clk then Counted s t R.XNG_U_DIGESTS_TIMED_OUT 1 ∧
        t.err.detected = s.err.detected ++ [(s.elapse dt).found 0x21 d.idx 0xFF] ∧ t.xng.own = []
      else t = s.elapse dt := by
  let e := s.elapse dt
  let w := e.ownLeft []
  let u := w.bump R.XNG_U_DIGESTS_TIMED_OUT
  have hold : e.digestOld d = true ↔ s.fld F.XNG_LIMITS.DIGEST_MS * 1200000 ≤ s.now + dt - d.clk := decide_eq_true_iff
  have hexec : exec (.digestTimeout dt) s = .next (if e.digestOld d then u.diverge 0x21 d.idx else e) := by
    have hlock' : (s.elapse dt).inLockstep = true := hlock
    show execDigestTimeout dt s = _
    have hfind : e.xng.own.find? e.digestOld = if e.digestOld d then some d else none :=
      (congrArg (List.find? e.digestOld) hown).trans List.find?_singleton
    have hpeers : e.xng.peer.find? e.digestOld = none := congrArg (List.find? e.digestOld) hpeer
    have hdrop : dropDigest d.kind d.idx d.seq e.xng.own = [] :=
      (congrArg (dropDigest d.kind d.idx d.seq) hown).trans (by simp [dropDigest])
    unfold execDigestTimeout
    dsimp only
    rw [hlock', show (s.elapse dt).xng.own.find? (s.elapse dt).digestOld = _ from hfind]
    cases e.digestOld d with
    | true =>
      show Host.Outcome.next (((e.ownLeft (dropDigest d.kind d.idx d.seq e.xng.own)).bump R.XNG_U_DIGESTS_TIMED_OUT).diverge 0x21 d.idx) = _
      rw [hdrop]
      rfl
    | false =>
      rw [show (s.elapse dt).xng.peer.find? (s.elapse dt).digestOld = none from hpeers]
      rfl
  have huown : u.xng.own = [] := congrArg (·.own) (State.bump_xng w _)
  refine ⟨_, hexec, ?_⟩
  beta_reduce
  by_cases h : e.digestOld d = true
  · rw [if_pos (hold.mp h), if_pos h]
    refine ⟨counted_of_eq (counted_bump w _) rfl (State.diverge_cnt_of_own huown _ _ _), ?_, (State.diverge_own u _ _).trans huown⟩
    have hrec : u.found 0x21 d.idx 0xFF = e.found 0x21 d.idx 0xFF :=
      State.found_congr (State.bump_now w _) (State.bump_tim w _) (State.reg_bump w _ _) _ _ _
    have herr : u.err = s.err := State.bump_err w _
    rw [State.diverge_detected u, herr, hrec]
  · rw [if_neg (mt hold.mpr h), if_neg h]

/-! ## Output marks (R505) -/

theorem State.pub_setPub_same (s : State) (i : Nat) (x : PubSt) : (s.setPub i x).pub i = x  :=
  (mget_mset _ _ _ _ _).trans (if_pos rfl)

/-- The last output marked of a target or a stream is known, and the frames held up to it go. -/
theorem outputMarkRx_notes {s : State} {l : List Byte} {r : List (Nat × List Byte)} (hmsgs : s.xng.msgs = (1, l) :: r) :
    Gives .outputMarkRx s fun t => t.xng.msgs = r ∧
      if leAt l 0 1 = 0 then t.alm.held = s.alm.held.filter fun f => !(decide (f.1 = leAt l 1 1) && decide (f.2.1 ≤ leAt l 2 8))
      else (t.pub (leAt l 1 1)).last = leAt l 2 8 + 1 := by
  show ∃ t, execOutputMarkRx s = .next t ∧ _
  rw [execOutputMarkRx, State.crossTake_head hmsgs (by simp)]
  dsimp only
  split
  next h => exact ⟨_, rfl, rfl, rfl⟩
  next h =>
    exact ⟨_, rfl, rfl, congrArg (·.last) (State.pub_setPub_same _ _ _)⟩

/-! ## The request of duty (R509) -/

/-- The home unit in step for REVERT_S asks for duty. -/
theorem revertRequest_asks {s : State} {dt : Nat} (hrun : s.xngRuns = true) (hshadow : s.isShadow = true) (hstate : s.xngState = 5)
    (hrevert : s.flag F.XNG_CTRL.REVERT_EN = true) (hhome : s.flag F.XNG_CTRL.HOME = true) (hnone : s.xng.handover = none)
    (hlink : s.flag F.XNG_STATUS.LINK = true) : Gives (.revertRequest dt) s fun t =>
      if s.fld F.XNG_TIMING.REVERT_S * 1200000000 ≤ s.now + dt - s.xng.inStepAt then
        t.xng.unacked = s.xng.unacked ++ [(s.xng.txSeq + 1, 3, [1])] ∧ t.sys.mode = .shadow
      else t = s.elapse dt := by
  let e := s.elapse dt
  have hmode : s.sys.mode = .shadow := by simp_all [State.isShadow]
  have hstop : s.flag F.XNG_STATUS.STOPPED = false := by simp_all [State.xngRuns]
  have hdue : (e.xngRuns && e.isShadow && decide (e.xngState = 5) && e.flag F.XNG_CTRL.REVERT_EN && e.flag F.XNG_CTRL.HOME &&
      e.xng.handover.isNone && decide (e.fld F.XNG_TIMING.REVERT_S * clkPerS ≤ e.now - e.xng.inStepAt)) = true ↔
      s.fld F.XNG_TIMING.REVERT_S * 1200000000 ≤ s.now + dt - s.xng.inStepAt := by
    show (s.xngRuns && s.isShadow && decide (s.xngState = 5) && s.flag F.XNG_CTRL.REVERT_EN && s.flag F.XNG_CTRL.HOME &&
      s.xng.handover.isNone && decide (s.fld F.XNG_TIMING.REVERT_S * 1200000000 ≤ s.now + dt - s.xng.inStepAt)) = true ↔ _
    simp [hrun, hshadow, hstate, hrevert, hhome, hnone]
  have hexec : exec (.revertRequest dt) s = .next (if s.fld F.XNG_TIMING.REVERT_S * 1200000000 ≤ s.now + dt - s.xng.inStepAt then
      e.crossSend 3 (leBytes 1 1) else e) := by
    show execRevertRequest dt s = _
    exact (if_congr hdue rfl rfl).trans (apply_ite Host.Outcome.next _ _ _).symm
  refine ⟨_, hexec, ?_⟩
  beta_reduce
  split
  · rw [State.crossSend_open (s := e) hlink hstop]
    exact ⟨rfl, hmode⟩
  · rfl

end Sys2Proof.Machine
end

section
/-!
Takeover and handover (O47): duty taken, the outputs driven, the frames held sent, and duty given up.
-/

namespace Sys2Proof.Machine

open Sys2Proof.Safety

/-! ## Duty and the journal -/

theorem State.setDuty_duty (s : State) (on : Bool) : (s.setDuty on).sys.duty = on := by
  unfold State.setDuty
  split
  next h => exact h
  · rfl

theorem State.setDuty_mode (s : State) (on : Bool) : (s.setDuty on).sys.mode = s.sys.mode :=
  both_arms (fun t : State => t.sys.mode = s.sys.mode) rfl rfl

theorem State.setDuty_xng (s : State) (on : Bool) : (s.setDuty on).xng = s.xng :=
  both_arms (fun t : State => t.xng = s.xng) rfl rfl

/-- An entry raises ESEQ by one, and may go out over the Crossing. -/
theorem State.journal_xng (s : State) (kind port source jseq time : Nat) (payload : List Byte) : ∃ n u,
    (s.journal kind port source jseq time payload).xng = { s.xng with eseq := s.xng.eseq + 1, txSeq := n, unacked := u } := by
  unfold State.journal
  extract_lets n xng t
  split
  · rw [State.setCnt_xng, State.bump_xng]
    exact t.crossSend_xng 5 _
  · exact ⟨_, _, rfl⟩

/-! ## The outputs and what the alarm block holds -/

/-- Mode control, the Glade and the frames held stand, and so does whether a takeover has driven its outputs. -/
structure HoldKept (s t : State) : Prop where
  sys : t.sys = s.sys
  gld : t.gld = s.gld
  held : t.alm.held = s.alm.held
  toDone : t.xng.toDone = s.xng.toDone

namespace HoldKept

variable {s t u : State}

theorem refl (s : State) : HoldKept s s := ⟨rfl, rfl, rfl, rfl⟩

theorem trans (a : HoldKept s t) (b : HoldKept t u) : HoldKept s u :=
  ⟨b.sys.trans a.sys, b.gld.trans a.gld, b.held.trans a.held, b.toDone.trans a.toDone⟩

theorem of_aside (hsys : t.sys = s.sys) (h : Aside s t) : HoldKept s t := by
  obtain ⟨hxng, hgld, halm⟩ := h
  exact ⟨hsys, hgld, by rw [halm], by rw [hxng]⟩

theorem foldl {α : Type} {f : State → α → State} (h : ∀ s x, HoldKept s (f s x)) (l : List α) (s : State) : HoldKept s (l.foldl f s) :=
  List.foldlRecOn l f (motive := HoldKept s) (refl s) fun t ht x _ => ht.trans (h t x)

theorem ite {a b : State} {c : Prop} [Decidable c] (ha : HoldKept s a) (hb : HoldKept s b) : HoldKept s (if c then a else b) :=
  both_arms (HoldKept s) ha hb

end HoldKept

theorem State.bump_holdKept (s : State) (k : Nat) : HoldKept s (s.bump k) := .of_aside (by simp) (by simp [Aside])

theorem State.pubRefused_holdKept (s : State) (i q : Nat) : HoldKept s (s.pubRefused i q) := by
  unfold State.pubRefused
  exact .of_aside (by simp) (by simp [Aside])

theorem State.txSubmit_holdKept (s : State) (p : Nat) (f : TxFrame) : HoldKept s (s.txSubmit p f) :=
  .of_aside (by simp [State.txSubmit, State.txQueue]) (s.txSubmit_aside p f)

theorem State.alarmSubmit_holdKept (s : State) (p : Nat) (f : TxFrame) : HoldKept s (s.alarmSubmit p f) :=
  .ite ((s.bump_holdKept _).trans (State.bump_holdKept _ _)) (s.txSubmit_holdKept p f)

theorem State.addRepeats_holdKept (s : State) (t port : Nat) (bytes : List Byte) : HoldKept s (s.addRepeats t port bytes) :=
  .ite (.refl s) ⟨rfl, rfl, rfl, rfl⟩

theorem State.outputMark_holdKept (s : State) (publish : Bool) (idx val : Nat) : HoldKept s (s.outputMark publish idx val) := by
  have hsend (kind : Nat) (payload : List Byte) : HoldKept s (s.crossSend kind payload) :=
    both_arms (HoldKept s) ⟨rfl, rfl, rfl, rfl⟩ (.refl s)
  exact .ite ((hsend _ _).trans (State.bump_holdKept _ _)) (.refl s)

theorem State.setPub_holdKept (s : State) (i : Nat) (x : PubSt) : HoldKept s (s.setPub i x) := ⟨rfl, rfl, rfl, rfl⟩

/-- A frame submitted, sent or refused, is none that the alarm block holds. -/
theorem State.publish_holdKept (s : State) (i : Nat) (e : Entry) : HoldKept s (s.publish i e) := by
  unfold State.publish
  extract_lets s1 addr len l data inst s2 x s3 body frame s4 t s5
  have h1 : HoldKept s s1 := s.bump_holdKept _
  apply h1.trans
  clear_value s1
  have h2 : HoldKept s1 s2 := s1.pubRefused_holdKept i 3
  have h3 : HoldKept s1 s3 := .ite (s1.setPub_holdKept i _) (.refl s1)
  clear_value s2 s3
  have h4 : HoldKept s3 s4 := .ite (s3.outputMark_holdKept _ _ _) (.refl s3)
  clear_value s4
  have h5 : HoldKept s4 s5 := .ite (s4.txSubmit_holdKept _ _) (.refl s4)
  clear_value s5
  have hqueue : HoldKept s4 (((s4.wrBytes addr frame).push (s4.tf TF.ALM.Publish.RETURN_QUEUE i) 39 e false false).1.bump (pubCnt i 2)) :=
    .of_aside (by simp) (by simp [Aside])
  split
  · exact .ite (h2.trans (s2.setPub_holdKept i _)) h2
  split
  · exact s1.pubRefused_holdKept i 4
  split
  · exact s1.pubRefused_holdKept i 5
  exact (h3.trans h4).trans (.ite hqueue (h5.trans (s5.bump_holdKept _)))

/-- The alarm block with no frame held. -/
def State.heldGone (s : State) : State := { s with alm := { s.alm with held := [] } }

/-- A frame held is sent to its target. -/
def State.heldSent (s : State) (f : Nat × Nat × Nat × List Byte) : State :=
  ((s.alarmSubmit f.2.2.1 ⟨0, f.2.2.2, .plain⟩).bump R.ALM_U_FRAMES_SENT).addRepeats f.1 f.2.2.1 f.2.2.2

/-- The data frames held of a stream are submitted again. -/
def State.heldPublished (s : State) (i : Nat) : State :=
  (s.pub i).hold.foldl (fun t h => if (s.pub i).last ≤ h.1 then t.publish i h.2 else t) (s.setPub i { s.pub i with hold := [] })

theorem State.sendHeld_eq (s : State) :
    s.sendHeld = (List.range 32).foldl State.heldPublished (s.alm.held.foldl State.heldSent s.heldGone) := rfl

theorem State.heldSent_holdKept (s : State) (f : Nat × Nat × Nat × List Byte) : HoldKept s (s.heldSent f) :=
  ((s.alarmSubmit_holdKept _ _).trans (State.bump_holdKept _ _)).trans (State.addRepeats_holdKept _ _ _ _)

theorem State.heldPublished_holdKept (s : State) (i : Nat) : HoldKept s (s.heldPublished i) := by
  have hset := s.setPub_holdKept i { s.pub i with hold := [] }
  unfold State.heldPublished
  generalize s.setPub i { s.pub i with hold := [] } = u at hset ⊢
  refine hset.trans (.foldl (fun t h => ?_) _ u)
  exact .ite (t.publish_holdKept i h.2) (.refl t)

/-- Every frame held goes. -/
theorem State.sendHeld_holdKept (s : State) : HoldKept s.heldGone s.sendHeld := by
  rw [State.sendHeld_eq]
  have hsent : HoldKept s.heldGone (s.alm.held.foldl State.heldSent s.heldGone) := HoldKept.foldl State.heldSent_holdKept _ _
  generalize s.alm.held.foldl State.heldSent s.heldGone = u at hsent
  exact hsent.trans (HoldKept.foldl State.heldPublished_holdKept _ u)

/-- The Crossing's own state, the Glade's and the frames held stand. -/
structure OutputsOnly (s t : State) : Prop where
  xng : t.xng = s.xng
  gld : t.gld = s.gld
  held : t.alm.held = s.alm.held

namespace OutputsOnly

theorem refl (s : State) : OutputsOnly s s := ⟨rfl, rfl, rfl⟩

theorem trans {s t u : State} (a : OutputsOnly s t) (b : OutputsOnly t u) : OutputsOnly s u :=
  ⟨b.xng.trans a.xng, b.gld.trans a.gld, b.held.trans a.held⟩

theorem foldl {α : Type} {f : State → α → State} (h : ∀ s x, OutputsOnly s (f s x)) (l : List α) (s : State) :
    OutputsOnly s (l.foldl f s) :=
  List.foldlRecOn l f (motive := OutputsOnly s) (refl s) fun t ht x _ => ht.trans (h t x)

end OutputsOnly

theorem State.setAccOut_outputsOnly (s : State) (n : Nat) (x : AccOut) : OutputsOnly s (s.setAccOut n x) := ⟨rfl, rfl, rfl⟩

theorem State.bumpBy_outputsOnly (s : State) (k n : Nat) : OutputsOnly s (s.bumpBy k n) :=
  ⟨s.bumpBy_xng k n, s.bumpBy_gld k n, congrArg (·.held) (s.bumpBy_alm k n)⟩

theorem State.setPulse_outputsOnly (s : State) (n : Nat) (on : Bool) : OutputsOnly s (s.setPulse n on) := ⟨rfl, rfl, rfl⟩

theorem State.accHeld_outputsOnly (s : State) : OutputsOnly s s.accHeld :=
  .foldl (fun s _ => ((s.bumpBy_outputsOnly _ _).trans (State.setAccOut_outputsOnly _ _ _)).trans (State.setPulse_outputsOnly _ _ _)) _ s

theorem State.accFrozen_outputsOnly (s : State) : OutputsOnly s s.accFrozen := .foldl (fun s n => s.setAccOut_outputsOnly n _) _ s

theorem State.accDriven_outputsOnly (s : State) : OutputsOnly s s.accDriven := by
  refine .foldl (fun s n => ?_) _ s
  dsimp only
  split
  · exact .refl s
  · exact s.setAccOut_outputsOnly n _

theorem State.refreshOutputs_outputsOnly (s : State) : OutputsOnly s s.refreshOutputs := by
  unfold State.refreshOutputs
  extract_lets new alm t
  exact both_arms (OutputsOnly s) ⟨rfl, rfl, rfl⟩ ⟨rfl, rfl, rfl⟩

theorem State.driveChanged_outputsOnly (s : State) (old : Drive) : OutputsOnly s (s.driveChanged old) := by
  unfold State.driveChanged
  extract_lets t
  have ht : OutputsOnly s t := by
    refine both_arms (OutputsOnly s) (.refl s) ?_
    cases s.drive with
    | held => exact s.accHeld_outputsOnly
    | frozen => exact s.accFrozen_outputsOnly
    | driven => exact s.accDriven_outputsOnly
  exact ht.trans t.refreshOutputs_outputsOnly

/-! ## Takeover (R506) -/

theorem State.beginTrans_of_none {s : State} {m : Mode} (htrans : s.sys.trans = none) (hmode : s.sys.mode ≠ m) (cause : Nat) :
    (s.beginTrans m cause).sys.trans = some ⟨m, false, cause⟩ := by
  simp [State.beginTrans, htrans, hmode]

/-- A takeover with every entry applied takes duty, and its own journal goes on from there. -/
theorem takeoverApplied_takes {s : State} (hmode : s.sys.mode = .takeover) (hts : s.xng.tsDone = false) (hrx : s.xng.rx = []) :
    Gives .takeoverApplied s fun t => t.xng.tsDone = true ∧ t.sys.duty = true ∧ t.xng.eseq = s.xng.eseq + 1 ∧ t.sys.mode = .takeover := by
  refine ⟨s.takeoverStart, if_pos (by simp [hmode, hts, hrx]), ?_⟩
  unfold State.takeoverStart
  extract_lets lines xng gld acc u
  have humode : u.sys.mode = .takeover := hmode
  have huxng : u.xng.tsDone = true ∧ u.xng.eseq = s.xng.eseq := ⟨rfl, rfl⟩
  clear_value u
  let v := u.setDuty true
  let w := v.journal 6 0 0 0 u.tim.mark []
  obtain ⟨n, l, hxng⟩ := v.journal_xng 6 0 0 0 u.tim.mark []
  obtain ⟨-, hsys, -⟩ := v.journal_keepsEpoch 6 0 0 0 u.tim.mark []
  have hend : (w.showMode.linesMoved lines).sys = v.sys :=
    (State.linesMoved_steady _ _).sys.trans ((State.showMode_steady w).sys.trans hsys)
  have hxngEnd : (w.showMode.linesMoved lines).xng = w.xng := by simp
  beta_reduce
  rw [hend, hxngEnd, hxng, State.setDuty_xng]
  exact ⟨huxng.1, u.setDuty_duty true, by rw [huxng.2], (u.setDuty_mode true).trans humode⟩

/-- A takeover that drives its outputs. -/
def State.outputsOn (s : State) : State := { s with xng := { s.xng with toDone := true } }

theorem exec_takeoverOutputs {s : State} (hmode : s.sys.mode = .takeover) (hts : s.xng.tsDone = true) (hto : s.xng.toDone = false) :
    exec .takeoverOutputs s =
      .next (if ((s.outputsOn.driveChanged s.drive).sendHeld).allPastTg then ((s.outputsOn.driveChanged s.drive).sendHeld).beginTrans .service 8
        else (s.outputsOn.driveChanged s.drive).sendHeld) := by
  show execTakeoverOutputs s = _
  rw [execTakeoverOutputs, if_pos (by simp [hmode, hts, hto])]
  rfl

/-- With the outputs driven, mode control and the Glade stand and no frame is held. -/
theorem State.outputsOn_sent (s : State) (old : Drive) : ((s.outputsOn.driveChanged old).sendHeld).xng.toDone = true ∧
    ((s.outputsOn.driveChanged old).sendHeld).alm.held = [] ∧ ((s.outputsOn.driveChanged old).sendHeld).gld = s.gld ∧
    ((s.outputsOn.driveChanged old).sendHeld).sys = s.sys := by
  obtain ⟨hxng, hgld, -⟩ := s.outputsOn.driveChanged_outputsOnly old
  have hsys := (s.outputsOn.driveChanged_steady old).sys
  generalize s.outputsOn.driveChanged old = u at hxng hgld hsys ⊢
  obtain ⟨vsys, vgld, vheld, vdone⟩ := u.sendHeld_holdKept
  exact ⟨vdone.trans (congrArg (·.toDone) hxng), vheld, vgld.trans hgld, vsys.trans hsys⟩

/-- The outputs are driven and no frame is held longer; M6 ends when no Grove has a Set from before. -/
theorem takeoverOutputs_drives {s : State} (hmode : s.sys.mode = .takeover) (hts : s.xng.tsDone = true) (hto : s.xng.toDone = false) :
    Gives .takeoverOutputs s fun t => t.xng.toDone = true ∧ t.alm.held = [] ∧
      (s.allPastTg = true → s.sys.trans = none → t.sys.trans = some ⟨.service, false, 8⟩) := by
  obtain ⟨hdone, hheld, hgld, hsys⟩ := s.outputsOn_sent s.drive
  have hexec := exec_takeoverOutputs hmode hts hto
  generalize (s.outputsOn.driveChanged s.drive).sendHeld = v at hexec hdone hheld hgld hsys
  have hpast : v.allPastTg = s.allPastTg := by rw [State.allPastTg, hgld, State.allPastTg]
  have halm : (v.beginTrans .service 8).alm = v.alm :=
    State.beginTrans_keeps (·.alm) (fun _ _ => rfl) (fun s f x _ => State.setFld_alm s f x) v _ _
  refine ⟨_, hexec, ?_, ?_, fun hall htrans => ?_⟩
  · exact both_arms (fun t : State => t.xng.toDone = true) (by rw [State.beginTrans_xng, hdone]) hdone
  · exact both_arms (fun t : State => t.alm.held = []) (by rw [halm, hheld]) hheld
  · rw [if_pos (hpast.trans hall)]
    exact State.beginTrans_of_none (by rw [hsys, htrans]) (by rw [hsys, hmode]; decide) 8

/-! ## Handover (R509) -/

/-- As a shadow the unit holds no duty, and no handover waits. -/
theorem State.enterMode_shadow (s : State) (requested : Bool) (cause : Nat) :
    (s.enterMode .shadow requested cause).sys.duty = false ∧ (s.enterMode .shadow requested cause).xng.handover = none := by
  unfold State.enterMode
  extract_lets old drive lines s1 s2 s3 s4 sys alm xng s5 s6 s7 s8 s9 s10 s11 s12 s13 tim s14
  have hduty5 : s5.sys.duty = false := s3.setDuty_duty _
  have hmode5 : s5.sys.mode = .shadow := rfl
  have hxng5 : s5.xng.handover = none := rfl
  clear_value s5
  have h8 : Steady s5 s8 := by simp [Steady, s8, s7, s6]
  have hxng8 : s8.xng.handover = none := by
    obtain ⟨own, peer, hset⟩ := s5.setXngState_xng (s5.pairState .shadow)
    simp [s8, s7, s6, hset, hxng5]
  clear_value s8
  have h9 : Steady s8 s9 := Steady.ite (State.requestResult_steady s8 2) (Steady.refl s8)
  have ha9 : Aside s8 s9 := Aside.ite (s8.requestResult_aside 2) (Aside.refl s8)
  have hsys9 : s9.sys = s5.sys := (h8.trans h9).sys
  clear_value s9
  have h10 : Leaves sysBlock s9 s10 := Leaves.ite (Leaves.refl _ s9).riseBp (Leaves.refl _ s9)
  have ha10 : Aside s9 s10 := Aside.ite s9.riseBp_aside (Aside.refl s9)
  clear_value s10
  have h11 : Leaves sysBlock s9 s11 := h10.modeCores
  have ha11 : Aside s10 s11 := s10.modeCores_aside
  clear_value s11
  have h12 : Leaves sysBlock s9 s12 := Leaves.ite h11.startGlade h11
  have ha12 : Aside s11 s12 := Aside.ite s11.startGlade_aside (Aside.refl s11)
  clear_value s12
  have h13 : Leaves sysBlock s9 s13 := (h12.driveChanged not_sysBlock_outCnt drive).linesMoved lines
  have hx13 : s13.xng = s12.xng := (State.linesMoved_aside _ lines).1.trans (s12.driveChanged_outputsOnly drive).xng
  have h14 : s14 = s13 := if_neg (by decide)
  have hsys : s13.sys = { s5.sys with pll := s13.sys.pll, gladeUp := s13.sys.gladeUp } := by rw [h13.sys, hsys9]
  have hmode13 : s13.sys.mode = .shadow := by rw [hsys, hmode5]
  have hjudge (c : Nat) : s13.judgeDegraded c = s13 := by rw [State.judgeDegraded, hmode13]
  rw [if_neg (by simp), h14, hjudge, hsys, hx13, ha12.1, ha11.1, ha10.1, ha9.1]
  exact ⟨hduty5, hxng8⟩

theorem State.elapse_marks (s : State) (dt : Nat) : (s.elapse dt).tim.mark = s.tim.mark ∧ (s.elapse dt).tim.marked = s.tim.marked := by
  rw [State.elapse_tim]
  exact ⟨rfl, rfl⟩

/-- At the holder's first mark at or after the time agreed, duty is given up and the mode changes. -/
theorem handoverTime_gives {s : State} {a dt : Nat} (hhand : s.xng.handover = some (a, .shadow)) (hduty : s.sys.duty = true)
    (hmarked : s.tim.marked = true) (hdue : gtAtOrAfter s.tim.mark a = true) : Gives (.handoverTime dt) s fun t =>
      t.sys.mode = .shadow ∧ t.sys.duty = false ∧ t.sys.prevMode = s.sys.mode ∧ t.xng.handover = none := by
  let e := s.elapse dt
  let v := e.journal 5 0 0 0 e.tim.mark []
  obtain ⟨-, hvsys, -⟩ := e.journal_keepsEpoch 5 0 0 0 e.tim.mark []
  let u := (v.setDuty false).linesMoved e.dutyLines
  have humode : u.sys.mode = s.sys.mode := by
    rw [(State.linesMoved_steady (v.setDuty false) e.dutyLines).sys, State.setDuty_mode, hvsys]
    rfl
  let requested := match e.sys.trans with | some u => u.requested | none => false
  have hexec : exec (.handoverTime dt) s = .next (u.enterMode .shadow requested 12) := by
    obtain ⟨hmarkE, hmarkedE⟩ := s.elapse_marks dt
    have hcond : (s.elapse dt).sys.duty && (s.elapse dt).tim.marked && gtAtOrAfter (s.elapse dt).tim.mark a := by
      simp [hmarkedE, hmarkE, hmarked, hdue, show (s.elapse dt).sys.duty = true from hduty]
    show execHandoverTime dt s = _
    unfold execHandoverTime
    dsimp only
    rw [State.elapse_xng, hhand]
    exact if_pos hcond
  obtain ⟨hmode, hprev, -, -⟩ := u.enterMode_shows .shadow requested 12
  obtain ⟨hdutyEnd, hnone⟩ := u.enterMode_shadow requested 12
  exact ⟨_, hexec, hmode, hdutyEnd, hprev.trans humode, hnone⟩

theorem handoverTime_waits {s : State} {a dt : Nat} (hhand : s.xng.handover = some (a, .shadow))
    (hdue : gtAtOrAfter s.tim.mark a = false) : Gives (.handoverTime dt) s fun t => t = s.elapse dt := by
  refine ⟨_, ?_, rfl⟩
  show execHandoverTime dt s = _
  unfold execHandoverTime
  dsimp only
  rw [State.elapse_xng, hhand]
  exact if_neg (by simp [(s.elapse_marks dt).1, hdue])

/-! ## The obligation -/

/-- Settles O47: the journal, a join, a takeover and a handover each by their steps (R497 to R509, R531). -/
theorem joinAndTakeover : Obligations.JoinAndTakeover := by
  intro s dt
  refine ⟨fun x l hrx => ⟨fun hseq => ⟨_, exec_journalApply_waits hrx dt hseq, rfl⟩, fun happ hseq =>
      ⟨journalApply_mark hrx dt happ hseq, journalApply_epoch hrx dt happ hseq⟩⟩,
    fun hrun => ⟨joinStart_asks hrun, fun l r hshadow hduty => joinStart_takes hrun hshadow hduty, fun img hshadow hstate hjoin => ?_⟩,
    fun hshadow => ⟨fun a hlag => joinInStep_joins hshadow hlag, fun a hjoin => joinTimeout_fails hshadow hjoin, fun a hretry hdue =>
      ⟨joinRetry_joins hshadow hretry hdue, joinRetry_stays hshadow hretry hdue⟩⟩,
    fun l r hmsgs hlock => ⟨fun o hfound => digestRx_matches hmsgs hlock hfound, fun o hfound => digestRx_differs hmsgs hlock hfound⟩,
    fun d => digestTimeout_reports, fun l r => outputMarkRx_notes, takeoverApplied_takes, takeoverOutputs_drives, revertRequest_asks,
    fun a hhand hduty hmarked => ⟨handoverTime_waits hhand, handoverTime_gives hhand hduty hmarked⟩⟩
  obtain ⟨t, hexec, hstate', h⟩ := joinImageLoaded_restores img hrun hshadow hstate hjoin
  exact ⟨t, hexec, hstate', h.eseq, h.epoch, h.mark, h.gld, h.flt, h.osc, h.isl, h.cap, h.points⟩

end Sys2Proof.Machine
end

section
/-!
Core watchdogs (O29): the warning, the expiry and the kick.
-/

namespace Sys2Proof.Machine

open Sys2Proof.Safety

/-! ## The period (R519) -/

/-- Time that passes neither stops a watchdog nor changes its core or its period. -/
theorem State.elapse_watchdog (s : State) (dt c : Nat) :
    (s.elapse dt).wdogRuns c = s.wdogRuns c ∧ (s.elapse dt).wdogPeriod c = s.wdogPeriod c ∧
      (s.elapse dt).core c = s.core c ∧ (s.elapse dt).now = s.now + dt := ⟨rfl, rfl, rfl, rfl⟩

theorem exec_watchdogWarning_due {s : State} {c : CoreId} {dt : Nat} (hrun : s.wdogRuns c.val = true)
    (hfirst : (s.core c.val).wdogWarned = false) (hdue : s.wdogPeriod c.val * 1200 ≤ 2 * (s.now + dt - (s.core c.val).kickAt)) :
    exec (.watchdogWarning c dt) s = .next ((s.elapse dt).setCore c.val { s.core c.val with wdogWarned := true }) := by
  obtain ⟨hrun', hperiod, hcore, hnow⟩ := s.elapse_watchdog dt c.val
  exact if_pos (by simp [hrun', hperiod, hcore, hnow, hrun, hfirst, hdue])

theorem exec_watchdogExpire_due {s : State} {c : CoreId} {dt : Nat} (hrun : s.wdogRuns c.val = true)
    (hdue : s.wdogPeriod c.val * 1200 ≤ s.now + dt - (s.core c.val).kickAt) : exec (.watchdogExpire c dt) s =
      .next (((s.elapse dt).setCore c.val { s.core c.val with wdogExpired := true }).detect 0x10 c.val c.val) := by
  obtain ⟨hrun', hperiod, hcore, hnow⟩ := s.elapse_watchdog dt c.val
  exact if_pos (by simp [hrun', hperiod, hcore, hnow, hrun, hdue])

/-! ## The kick (R71, R519) -/

/-- ERR_KICK in the map. -/
def errKickReg : RegD := ⟨R.ERR_KICK, 1, 0x0, 1, 0x0, .banked, [⟨0, 0, .wo, .any⟩]⟩

/-- ERR_KICK takes a write by a core of ID 0 to 19 at S. -/
theorem State.writerBar_kick {s : State} {c : CoreId} (hc : c.val < 20) (hpl : (s.core c.val).pl ≠ 0) :
    s.writerBar (.core c) R.ERR_KICK = none := by
  have hblock : R.ERR_KICK / 0x10000 = 15 := rfl
  have hother : ¬ (R.ERR_KICK = R.ERR_RSV_KICK ∨ R.ERR_KICK = R.ERR_RECOVER) := by decide
  simp [State.writerBar, hblock, hother, reqIsCore, State.reqS, hc, hpl]

theorem State.blockWrite_kick (s : State) (q : Req) (v : Nat) :
    s.blockWrite q false errKickReg R.ERR_KICK v = if bitOf v 0 then s.wdogKick q.id else s := by
  have hlegal : reservedHit s.sys.nominal60 errKickReg.fields v = false := by simp [errKickReg, reservedHit, Legal.ok]
  have herr (g : Gate) : s.errWrite q g errKickReg R.ERR_KICK v = if bitOf v 0 then s.wdogKick q.id else s := by
    rw [State.errWrite, if_neg (by decide), if_pos rfl]
  have hblock : R.ERR_KICK / 0x10000 = 15 := rfl
  simp [State.blockWrite, hblock, hlegal, herr]

/-- A write of ERR_KICK by a core at S kicks the writer's own watchdog; no journal carries it and no mode bars it. -/
theorem State.busWrite_kick {s : State} {c : CoreId} (v : Nat) (hc : c.val < 20) (halive : s.coreAlive c.val = true)
    (hpl : (s.core c.val).pl ≠ 0) :
    s.busWrite (.core c) R.ERR_KICK v = if bitOf v 0 then s.wdogKick c.val else s := by
  have hjournal : isJournalBlock (R.ERR_KICK / 0x10000) = false := by decide
  have hfind : findReg R.ERR_KICK = some errKickReg := by decide
  calc s.busWrite (.core c) R.ERR_KICK v
      = s.regStep (.core c) false R.ERR_KICK v :=
        State.busWrite_unjournalled (q := .core c) halive (by decide) (by decide) (.inl hjournal)
    _ = s.blockWrite (.core c) false errKickReg R.ERR_KICK v := by
      simp [State.regStep, State.shadowSkips, hfind, State.writerBar_kick hc hpl, hjournal]
    _ = if bitOf v 0 then s.wdogKick c.val else s := s.blockWrite_kick (.core c) v

/-- Settles O29: the core's warning, the fault of its expiry, and the kick by a core at S (R519). -/
theorem watchdogs : Obligations.Watchdogs := by
  intro s c dt k
  refine ⟨fun hrun hfirst hdue => ⟨_, exec_watchdogWarning_due hrun hfirst hdue, rfl⟩,
    fun hrun hdue => ⟨_, exec_watchdogExpire_due hrun hdue, ?_, fun d hd => ?_, rfl⟩,
    fun v hc halive hpl => ⟨_, congrArg Host.Outcome.next (State.busWrite_kick v.toNat hc halive hpl), rfl⟩⟩
  · rw [State.core_detect, State.core_setCore_same]
  · rw [State.core_detect, State.core_setCore, if_neg hd]
    rfl

end Sys2Proof.Machine
end

section
/-!
SUPPORT. What a message to or from a mailbox touches (R453 to R456, R610): the mailboxes, their registers, and the host's interrupts.
-/

namespace Sys2Proof.Machine

open Sys2Proof.Safety

/-- Memory and the blocks that the Keeper's commands work on stand as before. Reducible, so that a `@[simp]` lemma that states it gives
one rule for each of the ten fields. -/
@[reducible] def Still (s t : State) : Prop :=
  t.mram = s.mram ∧ t.sys = s.sys ∧ t.und = s.und ∧ t.net = s.net ∧ t.ing = s.ing ∧ t.tim = s.tim ∧ t.hst = s.hst ∧
    t.cores = s.cores ∧ t.sec = s.sec ∧ t.mem = s.mem

theorem Still.refl (s : State) : Still s s := ⟨rfl, rfl, rfl, rfl, rfl, rfl, rfl, rfl, rfl, rfl⟩

theorem Still.trans {s t u : State} (a : Still s t) (b : Still t u) : Still s u := by
  obtain ⟨amram, asys, aund, anet, aing, atim, ahst, acores, asec, amem⟩ := a
  obtain ⟨bmram, bsys, bund, bnet, bing, btim, bhst, bcores, bsec, bmem⟩ := b
  exact ⟨bmram.trans amram, bsys.trans asys, bund.trans aund, bnet.trans anet, bing.trans aing, btim.trans atim, bhst.trans ahst,
    bcores.trans acores, bsec.trans asec, bmem.trans amem⟩

theorem Still.mem {s t : State} (h : Still s t) : t.mem = s.mem := by
  obtain ⟨-, -, -, -, -, -, -, -, -, hmem⟩ := h
  exact hmem

theorem Still.rdByte {s t : State} (h : Still s t) (a : Nat) : t.rdByte a = s.rdByte a := by rw [State.rdByte, h.mem, State.rdByte]

/-- An offset of neither the mailboxes nor the host's endpoint. -/
@[reducible] def offMail (off : Nat) : Prop := off / 0x10000 ≠ 3 ∧ off / 0x10000 ≠ 19

/-! ## Posts -/

@[simp] theorem State.msix_still (s : State) (n : Nat) : Still s (s.msix n) := by
  unfold State.msix
  split <;> simp [Still]

@[simp] theorem State.bellVector_still (s : State) (m : Nat) : Still s (s.bellVector m) := by
  unfold State.bellVector
  split_ifs <;> simp [Still]

@[simp] theorem State.post_still (s : State) (m agent : Nat) (v : DWord) (bit : Nat) : Still s (s.post m agent v bit).1 := by
  unfold State.post
  dsimp only
  split_ifs <;> simp [Still, State.ringBell]

theorem mayPost_lt {m agent : Nat} (h : mayPost m agent = true) : m < 24 := by
  unfold mayPost at h
  split_ifs at h
  · omega
  · omega
  · omega
  · simp only [Bool.and_eq_true, decide_eq_true_eq] at h
    omega

namespace Leaves

variable {K : Nat → Prop} {s t : State}

theorem msix (h : Leaves K s t) (hK : ∀ off, K off → offMail off) (n : Nat) : Leaves K s (t.msix n) :=
  ite (h.setFld (f := ⟨R.HST_MSIX_PBA, n, n⟩) (fun a => (hK R.HST_MSIX_PBA a).2 (by decide)) 1) h.upd

theorem bellVector (h : Leaves K s t) (hK : ∀ off, K off → offMail off) (m : Nat) : Leaves K s (t.bellVector m) :=
  ite (ite (h.msix hK 0) (ite (h.msix hK 1) h)) h

/-- A post rings the doorbell of its mailbox and counts there. -/
theorem post (h : Leaves K s t) (hK : ∀ off, K off → offMail off) (m agent : Nat) (v : DWord) (bit : Nat) :
    Leaves K s (t.post m agent v bit).1 := by
  unfold State.post
  split
  · exact h
  next hmay =>
    have hm : m < 24 := mayPost_lt (by simpa using hmay)
    have hmail {r : Nat} (hr : 0x30000 ≤ r ∧ r < 0x30100) : ¬ K (r + 0x40 * m) := fun a => (hK _ a).1 (by omega)
    have hbell {u : State} (hu : Leaves K s u) : Leaves K s (u.ringBell m bit) :=
      hu.raise (f := ⟨R.MBX_DB + 0x40 * m, bit, bit⟩) (hmail (by decide))
    split
    · exact ((hbell h).bump (hmail (by decide))).bellVector hK m
    · split
      · exact h.bump (hmail (by decide))
      · exact ((hbell h.upd).bump (hmail (by decide))).bellVector hK m

end Leaves

/-! ## The Keeper takes its oldest message -/

theorem State.box_congr {s t : State} (h : t.rbt = s.rbt) (m : Nat) : t.box m = s.box m := by rw [State.box, h, State.box]

theorem State.emptyVector_still (s : State) (a : Nat) : Still s (s.emptyVector a) ∧ (s.emptyVector a).rbt = s.rbt :=
  both_arms (fun t : State => Still s t ∧ t.rbt = s.rbt) ⟨s.msix_still 2, s.msix_rbt 2⟩ ⟨Still.refl s, rfl⟩

/-- The bits shown to the posters touch no mailbox. -/
theorem State.markEmpty_still (s : State) (m : Nat) (l : List Nat) : Still s (s.markEmpty m l) ∧ (s.markEmpty m l).rbt = s.rbt := by
  induction l generalizing s with
  | nil => exact ⟨Still.refl s, rfl⟩
  | cons a l ih =>
    unfold State.markEmpty
    extract_lets v t
    have ht : Still s t ∧ t.rbt = s.rbt := ⟨Still.refl s, rfl⟩
    obtain ⟨hvector, hrbt⟩ := t.emptyVector_still a
    obtain ⟨hrest, hrest'⟩ := ih (t.emptyVector a)
    exact ⟨(ht.1.trans hvector).trans hrest, hrest'.trans hrbt⟩

theorem Leaves.markEmpty {K : Nat → Prop} {s t : State} (h : Leaves K s t) (hK : ∀ off, K off → offMail off) (m : Nat) (l : List Nat) :
    Leaves K s (t.markEmpty m l) := by
  induction l generalizing t with
  | nil => exact h
  | cons a l ih => exact ih (Leaves.ite (h.upd.msix hK 2) h.upd)

/-- The Keeper takes the oldest message of mailbox 20, and only the mailboxes and their registers move. -/
theorem State.boxPop_keeper {s : State} {m : Msg} {l : List Msg} (hmsgs : (s.box 20).msgs = m :: l) :
    ((s.boxPop 20 20).box 20).msgs = l ∧ Still s (s.boxPop 20 20) ∧ Leaves offMail s (s.boxPop 20 20) := by
  have hcount : Still s (s.bump (R.MBX_POPS + 0x40 * 20)) := by simp [Still]
  have hleaves : Leaves offMail s (s.bump (R.MBX_POPS + 0x40 * 20)) := (Leaves.refl offMail s).bump (by decide)
  have hset (b : Mbox) : ((s.bump (R.MBX_POPS + 0x40 * 20)).setBox 20 b).box 20 = b := by simp [State.box, State.setBox]
  have hstill (b : Mbox) : Still s ((s.bump (R.MBX_POPS + 0x40 * 20)).setBox 20 b) := by simp [Still]
  unfold State.boxPop
  rw [if_neg (by decide), hmsgs]
  dsimp only
  split
  next hempty =>
    obtain ⟨hmark, hrbt⟩ := ((s.bump (R.MBX_POPS + 0x40 * 20)).setBox 20 ⟨[], []⟩).markEmpty_still 20 (s.bump (R.MBX_POPS + 0x40 * 20) |>.box 20).posters
    refine ⟨?_, (hstill _).trans hmark, Leaves.markEmpty hleaves.upd (fun _ h => h) _ _⟩
    rw [State.box_congr hrbt, hset, List.isEmpty_iff.mp hempty]
  · exact ⟨by rw [hset], hstill _, hleaves.upd⟩

end Sys2Proof.Machine
end

section
/-!
SUPPORT. How the Keeper serves a request and ends it (R537, R540, R567): the checks that come first, the answer in memory, and what the end
of a request leaves alone.
-/

namespace Sys2Proof.Machine

open Sys2Proof.Safety

/-! ## The answer in memory -/

/-- A read of bytes depends on those bytes alone. -/
theorem State.rdBytes_ext {s t : State} {a n : Nat} (h : ∀ x, a ≤ x → x < a + n → t.rdByte x = s.rdByte x) :
    t.rdBytes a n = s.rdBytes a n := by
  induction n generalizing a with
  | zero => rfl
  | succ n ih =>
    rw [State.rdBytes, State.rdBytes, h a (Nat.le_refl a) (by omega), ih fun x hx hlt => h x (by omega) (by omega)]

/-- A request's output, RESULT and OUT_USED stored. -/
def State.putAnswer (s : State) (r : KReq) (res : Nat) (out : List Byte) : State :=
  ((s.wrBytes r.outAddr out).wrLe (r.block + 0x20) 4 res).wrLe (r.block + 0x24) 4 out.length

theorem State.putAnswer_result (s : State) (r : KReq) (res : Nat) (out : List Byte) :
    (s.putAnswer r res out).rdLe (r.block + 0x20) 4 = res % 4294967296 := by
  have hused : (s.putAnswer r res out).rdLe (r.block + 0x20) 4 =
      ((s.wrBytes r.outAddr out).wrLe (r.block + 0x20) 4 res).rdLe (r.block + 0x20) 4 :=
    congrArg leNat (State.rdBytes_ext fun x _ hx => State.rdByte_wrLe_ne _ _ _ _ _ (.inl (by omega)))
  rw [hused, State.rdLe_wrLe]
  norm_num

theorem State.putAnswer_used (s : State) (r : KReq) (res : Nat) (out : List Byte) :
    (s.putAnswer r res out).rdLe (r.block + 0x24) 4 = out.length % 4294967296 := by
  rw [State.putAnswer, State.rdLe_wrLe]
  norm_num

/-- Beside RESULT and OUT_USED the answer stores the output alone. -/
theorem State.putAnswer_beside (s : State) (r : KReq) (res : Nat) (out : List Byte) {a : Nat}
    (h : a < r.block + 0x20 ∨ r.block + 0x28 ≤ a) : (s.putAnswer r res out).rdByte a = (s.wrBytes r.outAddr out).rdByte a := by
  rw [State.putAnswer, State.rdByte_wrLe_ne _ _ _ _ _ (by omega), State.rdByte_wrLe_ne _ _ _ _ _ (by omega)]

theorem State.putAnswer_output (s : State) (r : KReq) (res : Nat) (out : List Byte)
    (h : r.outAddr + out.length ≤ r.block + 0x20 ∨ r.block + 0x28 ≤ r.outAddr) :
    (s.putAnswer r res out).rdBytes r.outAddr out.length = out :=
  (State.rdBytes_ext fun _ _ _ => s.putAnswer_beside r res out (by omega)).trans (s.rdBytes_wrBytes r.outAddr out)

theorem State.putAnswer_outside (s : State) (r : KReq) (res : Nat) (out : List Byte) {a : Nat}
    (h : a < r.block + 0x20 ∨ r.block + 0x28 ≤ a) (ho : a < r.outAddr ∨ r.outAddr + out.length ≤ a) :
    (s.putAnswer r res out).rdByte a = s.rdByte a := by
  rw [s.putAnswer_beside r res out h, State.rdByte_wrBytes, if_neg (by omega)]

/-! ## The end of a request -/

/-- The counters and the interrupt of a request that has ended. -/
def State.countAnswer (s : State) (res : Nat) : State :=
  let t := s.bump (if res ≤ 1 then R.SEC_U_DONE else if res = 7 || res = 10 then R.SEC_U_ABORTED else R.SEC_U_REFUSED)
  if 2 ≤ res then t.raise F.SEC_INT_STATUS.REFUSED else t

/-- A request ends: BUSY falls, the answer is stored and counted, and the block's address is posted back. -/
theorem State.keeperDone_eq (s : State) (r : KReq) (res : Nat) (out : List Byte) :
    s.keeperDone r res out = ((((({ s with sec := { s.sec with req := none } } : State).setFld F.SEC_STATUS.BUSY 0).putAnswer r res
      (if res ≤ 1 then out else [])).countAnswer res).post (replyBox r.req) 20 (w64 r.block) r.replyBit).1 := rfl

theorem State.countAnswer_mem (s : State) (res : Nat) : (s.countAnswer res).mem = s.mem := by
  have hbump (k : Nat) : (s.bump k).mem = s.mem := State.bump_mem s k
  exact both_arms (fun t : State => t.mem = s.mem) ((State.raise_mem _ _).trans (hbump _)) (hbump _)

theorem State.putAnswer_mem {s t : State} (h : t.mem = s.mem) (r : KReq) (res : Nat) (out : List Byte) :
    (t.putAnswer r res out).mem = (s.putAnswer r res out).mem := by
  simp [State.putAnswer, State.wrLe, State.wrBytes, State.putBytes, State.unpoison, h]

/-- A request that fails has no output: its end stores the answer. -/
theorem State.keeperDone_mem (s : State) (r : KReq) (res : Nat) {out : List Byte} (h : 2 ≤ res → out = []) :
    (s.keeperDone r res out).mem = (s.putAnswer r res out).mem := by
  have hout : (if res ≤ 1 then out else []) = out := by
    split
    · rfl
    · rw [h (by omega)]
  rw [State.keeperDone_eq, hout, (State.post_still _ _ _ _ _).mem, State.countAnswer_mem]
  exact State.putAnswer_mem (by simp) r res out

@[simp] theorem State.keeperDone_keeps (s : State) (r : KReq) (res : Nat) (out : List Byte) :
    let t := s.keeperDone r res out
    t.mram = s.mram ∧ t.und = s.und ∧ t.net = s.net ∧ t.ing = s.ing ∧ t.hst = s.hst ∧ t.sec = { s.sec with req := none } := by
  unfold State.keeperDone
  dsimp only
  split_ifs <;> simp

/-- An offset that the end of a request does not write, SEC_STATUS apart. -/
@[reducible] def offAnswer (off : Nat) : Prop :=
  offMail off ∧ off ≠ R.SEC_INT_STATUS ∧ off ≠ R.SEC_U_DONE ∧ off ≠ R.SEC_U_ABORTED ∧ off ≠ R.SEC_U_REFUSED

/-- The end of a request clears BUSY, flags a refusal, and counts. -/
theorem State.keeperDone_leaves (s : State) (r : KReq) (res : Nat) (out : List Byte) :
    Leaves offAnswer (s.setFld F.SEC_STATUS.BUSY 0) (s.keeperDone r res out) := by
  rw [State.keeperDone_eq]
  refine Leaves.post ?_ (fun _ h => h.1) _ _ _ _
  have hput : Leaves offAnswer (s.setFld F.SEC_STATUS.BUSY 0)
      ((({ s with sec := { s.sec with req := none } } : State).setFld F.SEC_STATUS.BUSY 0).putAnswer r res (if res ≤ 1 then out else [])) :=
    (Leaves.refl _ _).upd
  have hcount := hput.bump (k := if res ≤ 1 then R.SEC_U_DONE else if res = 7 || res = 10 then R.SEC_U_ABORTED else R.SEC_U_REFUSED)
    (by split_ifs <;> decide)
  exact Leaves.ite (hcount.raise (by decide)) hcount

theorem State.keeperDone_cnt (s : State) (r : KReq) (res : Nat) (out : List Byte) {k : Nat} (h : offAnswer k) :
    (s.keeperDone r res out).cnt k = s.cnt k :=
  ((s.keeperDone_leaves r res out).cnt k h).trans (State.cnt_setReg _ _ _ _)

theorem State.keeperDone_reg (s : State) (r : KReq) (res : Nat) (out : List Byte) {off : Nat} (h : offAnswer off)
    (hs : off ≠ R.SEC_STATUS) : (s.keeperDone r res out).reg off = s.reg off :=
  ((s.keeperDone_leaves r res out).reg off h).trans (State.reg_setFld_ne _ _ _ _ hs)

/-- The other flags of SEC_STATUS stand. -/
theorem State.keeperDone_status (s : State) (r : KReq) (res : Nat) (out : List Byte) {f : Fld} (h : f.off = R.SEC_STATUS) (hlo : 0 < f.lo) :
    (s.keeperDone r res out).flag f = s.flag f := by
  rw [(s.keeperDone_leaves r res out).flag f (by rw [h]; decide)]
  exact State.flag_setFld_ne _ (by decide) (.inr (.inr hlo))

/-- How a request ends. -/
theorem State.keeperDone_ended (s : State) (r : KReq) {res : Nat} {out : List Byte} (hres : res < 4294967296) (hout : 2 ≤ res → out = []) :
    Ended (s.keeperDone r res out) r res := by
  refine ⟨by simp, ?_, ?_⟩
  · rw [(s.keeperDone_leaves r res out).flag F.SEC_STATUS.BUSY (by decide)]
    exact State.flag_setFld_same (f := F.SEC_STATUS.BUSY) false (by decide) rfl
  · rw [State.rdLe_congr (s.keeperDone_mem r res hout), State.putAnswer_result, Nat.mod_eq_of_lt hres]

/-- The end of a request answers it, and nothing but the answer moves. -/
theorem State.keeperDone_answered (s : State) (r : KReq) {res : Nat} {out : List Byte} (hres : res < 4294967296)
    (hout : 2 ≤ res → out = []) : Answered s (s.keeperDone r res out) r res out := by
  obtain ⟨hmram, hund, hnet, hing, hhst, hsec⟩ := s.keeperDone_keeps r res out
  obtain ⟨-, hsys, htim, hcores⟩ := s.keeperDone_steady r res out
  have hmem := s.keeperDone_mem r res hout
  have hbyte (a : Nat) : (s.keeperDone r res out).rdByte a = (s.putAnswer r res out).rdByte a := by rw [State.rdByte, hmem, State.rdByte]
  refine ⟨s.keeperDone_ended r hres hout, hsec, hmram, hsys, hund, hnet, hing, htim, hhst, hcores, ?_, fun h => ?_, fun a h ho => ?_⟩
  · rw [State.rdLe_congr hmem, State.putAnswer_used]
  · rw [State.rdBytes_congr hmem, State.putAnswer_output _ _ _ _ h]
  · rw [hbyte, State.putAnswer_outside _ _ _ _ h ho]

theorem State.keeperDone_done (s : State) (r : KReq) (out : List Byte) : Answered s (s.keeperDone r 0 out) r 0 out :=
  s.keeperDone_answered r (by decide) fun h => absurd h (by decide)

theorem State.keeperDone_refused (s : State) (r : KReq) {res : Nat} (h : res < 4294967296) : Answered s (s.keeperDone r res []) r res [] :=
  s.keeperDone_answered r h fun _ => rfl

/-- An answer counts from any state that differs from the one it was made in only by what an answer does not show. -/
theorem answered_of_still {s u t : State} {r : KReq} {res : Nat} {out : List Byte} {x : Option KReq} (h : Answered u t r res out)
    (hs : Still { s with sec := { s.sec with req := x } } u) : Answered s t r res out := by
  obtain ⟨hended, hsec, hmram, hsys, hund, hnet, hing, htim, hhst, hcores, hused, hout, hbyte⟩ := h
  have hsbyte (a : Nat) : u.rdByte a = s.rdByte a := hs.rdByte a
  obtain ⟨smram, ssys, sund, snet, sing, stim, shst, scores, ssec, -⟩ := hs
  exact ⟨hended, hsec.trans (by rw [ssec]), hmram.trans smram, hsys.trans ssys, hund.trans sund, hnet.trans snet, hing.trans sing,
    htim.trans stim, hhst.trans shst, hcores.trans scores, hused, hout, fun a h ho => (hbyte a h ho).trans (hsbyte a)⟩

/-! ## Service -/

section
variable {s : State} {r : KReq} {i : Instr} {cmd out : Nat} {run : KReq → State → Answer}

theorem State.keeper_unhealthy (h : Asked s r i cmd) (hbad : ¬ Healthy s cmd) : s.keeper cmd out run = s.keeperDone r 8 [] := by
  obtain ⟨-, hreq, hcmd⟩ := h
  unfold Healthy at hbad
  push Not at hbad
  obtain ⟨herr, h1, h2, h5⟩ := hbad
  simp [State.keeper, hreq, hcmd, herr, h1, h2, h5]

theorem healthy_iff : Healthy s cmd ↔ (s.flag F.SEC_STATUS.ERROR && !([0x01, 0x02, 0x05].contains cmd)) = false := by
  cases h : s.flag F.SEC_STATUS.ERROR <;> simp [Healthy, h]
  tauto

theorem State.keeper_wrongMode (h : Asked s r i cmd) (hok : Healthy s cmd) (hmode : s.kcMode cmd = false) :
    s.keeper cmd out run = s.keeperDone r 3 [] := by
  obtain ⟨-, hreq, hcmd⟩ := h
  unfold State.keeper
  rw [hreq]
  dsimp only
  rw [if_neg (by simp [hcmd]), healthy_iff.mp hok, if_neg (by decide), hmode, if_pos (by decide)]

theorem State.keeper_reserved (h : Asked s r i cmd) (hok : Healthy s cmd) (hmode : s.kcMode cmd = true) (hrsv : r.rsv = true) :
    s.keeper cmd out run = s.keeperDone r 4 [] := by
  obtain ⟨-, hreq, hcmd⟩ := h
  unfold State.keeper
  rw [hreq]
  dsimp only
  rw [if_neg (by simp [hcmd]), healthy_iff.mp hok, if_neg (by decide), hmode, if_neg (by decide), hrsv, if_pos (by simp)]

/-- A request that passes the checks is carried out, and ends with what its command answers. -/
theorem State.keeper_serves (h : Serves s r i cmd out) :
    s.keeper cmd out run = (run r s).1.keeperDone r (run r s).2.1 (run r s).2.2 := by
  obtain ⟨⟨-, hreq, hcmd⟩, hok, hmode, hrsv, hout⟩ := h
  unfold State.keeper
  rw [hreq]
  dsimp only
  rw [if_neg (by simp [hcmd]), healthy_iff.mp hok, if_neg (by decide), hmode, if_neg (by decide), hrsv, if_neg (by simpa using hout)]

theorem gives_served {P : State → Prop} {a : Answer} (hexec : exec i s = .next (s.keeper cmd out run)) (h : Serves s r i cmd out)
    (ha : run r s = a) (hP : P (a.1.keeperDone r a.2.1 a.2.2)) : Gives i s P :=
  ⟨_, hexec.trans (congrArg _ ((State.keeper_serves h).trans (by rw [ha]))), hP⟩

theorem gives_done {u : State} {o : List Byte} (hexec : exec i s = .next (s.keeper cmd out run)) (h : Serves s r i cmd out)
    (ha : run r s = (u, 0, o)) : Gives i s fun t => Answered u t r 0 o :=
  gives_served hexec h ha (u.keeperDone_done r o)

theorem gives_failed {u : State} {res : Nat} (hexec : exec i s = .next (s.keeper cmd out run)) (h : Serves s r i cmd out)
    (ha : run r s = (u, res, [])) (hres : res < 4294967296) : Gives i s fun t => Answered u t r res [] :=
  gives_served hexec h ha (u.keeperDone_refused r hres)

theorem gives_mono {P Q : State → Prop} (h : Gives i s P) (hPQ : ∀ t, P t → Q t) : Gives i s Q := by
  obtain ⟨t, hexec, hP⟩ := h
  exact ⟨t, hexec, hPQ t hP⟩

end

/-! ## All commands -/

/-- A ZEROIZE request served, before the unit reset that follows a zeroize (R563). -/
def State.serveZeroize (s : State) : State :=
  s.keeper 0x43 0 fun r s => s.asRole r (officerSlots ++ operatorSlots) fun b s =>
    if b.params.isEmpty then ((s.extend 6 b.digest).zeroize false, 0, []) else (s, 4, [])

theorem exec_zeroize_uncounted {s : State} (h : s.serveZeroize.cnt R.SEC_U_ZEROIZES = s.cnt R.SEC_U_ZEROIZES) :
    exec .zeroize s = .next s.serveZeroize := by
  have hdone : decide (s.cnt R.SEC_U_ZEROIZES ≠ s.serveZeroize.cnt R.SEC_U_ZEROIZES) = false := by simp [h]
  show Host.Outcome.next (if decide (s.cnt R.SEC_U_ZEROIZES ≠ s.serveZeroize.cnt R.SEC_U_ZEROIZES) && s.serveZeroize.mayReset
    then s.serveZeroize.commandedReset 5 else s.serveZeroize) = _
  rw [hdone]
  rfl

/-- Every command of the Keeper is its service, as long as no zeroize is counted. -/
theorem exec_keeperCommand {i : Instr} {cmd : Nat} (h : keeperCode i = some cmd) (s : State) :
    ∃ out run, (s.keeper cmd out run).cnt R.SEC_U_ZEROIZES = s.cnt R.SEC_U_ZEROIZES → exec i s = .next (s.keeper cmd out run) := by
  unfold keeperCode at h
  split at h
  case h_27 => cases h; exact ⟨_, _, exec_zeroize_uncounted⟩
  case h_28 => cases h
  all_goals
    cases h
    exact ⟨_, _, fun _ => rfl⟩

/-- A command that is refused before it is carried out answers its RESULT. -/
theorem gives_refused {s : State} {r : KReq} {i : Instr} {cmd res : Nat} (h : Asked s r i cmd) (hres : res < 4294967296)
    (hkeeper : ∀ out run, s.keeper cmd out run = s.keeperDone r res []) : Gives i s fun t => Answered s t r res [] := by
  obtain ⟨out, run, hexec⟩ := exec_keeperCommand h.1 s
  rw [hkeeper out run] at hexec
  exact ⟨_, hexec (s.keeperDone_cnt r res [] (by decide)), s.keeperDone_refused r hres⟩

end Sys2Proof.Machine

/-! ## What an answered request shows -/

namespace Sys2Proof.Safety

open Sys2Proof.Machine

section
variable {u t : State} {r : KReq} {res : Nat} {out : List Byte} (h : Answered u t r res out)
include h

theorem Answered.ended : Ended t r res := by
  obtain ⟨hended, -⟩ := h
  exact hended

theorem Answered.sec_eq : t.sec = { u.sec with req := none } := by
  obtain ⟨-, hsec, -⟩ := h
  exact hsec

theorem Answered.mram_eq : t.mram = u.mram := by
  obtain ⟨-, -, hmram, -⟩ := h
  exact hmram

theorem Answered.sys_eq : t.sys = u.sys := by
  obtain ⟨-, -, -, hsys, -⟩ := h
  exact hsys

theorem Answered.und_eq : t.und = u.und := by
  obtain ⟨-, -, -, -, hund, -⟩ := h
  exact hund

theorem Answered.net_eq : t.net = u.net := by
  obtain ⟨-, -, -, -, -, hnet, -⟩ := h
  exact hnet

theorem Answered.ing_eq : t.ing = u.ing := by
  obtain ⟨-, -, -, -, -, -, hing, -⟩ := h
  exact hing

theorem Answered.tim_eq : t.tim = u.tim := by
  obtain ⟨-, -, -, -, -, -, -, htim, -⟩ := h
  exact htim

theorem Answered.hst_eq : t.hst = u.hst := by
  obtain ⟨-, -, -, -, -, -, -, -, hhst, -⟩ := h
  exact hhst

theorem Answered.mr_eq (n : Nat) : t.mr n = u.mr n := by rw [State.mr, h.sec_eq, State.mr]
theorem Answered.slots_eq : t.sec.slots = u.sec.slots := by rw [h.sec_eq]
theorem Answered.keySlot_eq (n : Nat) : t.keySlot n = u.keySlot n := by rw [State.keySlot, h.slots_eq, State.keySlot]
theorem Answered.port_eq (p : Nat) : t.port p = u.port p := State.port_congr h.net_eq p

end

end Sys2Proof.Safety
end

section
/-!
The Keeper's requests and the commands that carry no signature (O48).
-/

namespace Sys2Proof.Machine

open Sys2Proof.Safety

/-! ## The post that makes a request (R537) -/

/-- The oldest post of mailbox 20 taken, and counted as a command. -/
def State.takePost (s : State) : State := (s.boxPop 20 20).bump R.SEC_U_COMMANDS

/-- The Keeper holds a request. -/
def State.holdRequest (s : State) (q : KReq) : State := ({ s with sec := { s.sec with req := some q } } : State).setFld F.SEC_STATUS.BUSY 1

theorem State.takePost_still {s : State} {m : Msg} {l : List Msg} (h : (s.box 20).msgs = m :: l) : Still s s.takePost := by
  obtain ⟨-, hstill, -⟩ := State.boxPop_keeper h
  exact hstill.trans (by simp [Still, State.takePost])

theorem State.takePost_box {s : State} {m : Msg} {l : List Msg} (h : (s.box 20).msgs = m :: l) : (s.takePost.box 20).msgs = l := by
  obtain ⟨hbox, -, -⟩ := State.boxPop_keeper h
  rw [State.takePost, State.box_congr (State.bump_rbt _ _), hbox]

theorem State.takePost_leaves {s : State} {m : Msg} {l : List Msg} (h : (s.box 20).msgs = m :: l) :
    Leaves offMail s (s.boxPop 20 20) := by
  obtain ⟨-, -, hleaves⟩ := State.boxPop_keeper h
  exact hleaves

theorem State.readRequest_congr {s t : State} (h : t.mem = s.mem) (b q : Nat) : t.readRequest b q = s.readRequest b q := by
  unfold State.readRequest
  simp only [State.rdBytes_congr h]

theorem State.holdRequest_still {s u : State} (h : Still s u) (q : KReq) :
    Still { s with sec := { s.sec with req := some q } } (u.holdRequest q) := by
  obtain ⟨hmram, hsys, hund, hnet, hing, htim, hhst, hcores, hsec, hmem⟩ := h
  simp [State.holdRequest, Still, *]

section
variable {s : State} {m : Msg} {l : List Msg} (hup : s.keeperUp = true) (hfree : s.sec.req = none) (hmsgs : (s.box 20).msgs = m :: l)
include hup hfree hmsgs

/-- The oldest post decides: its block is refused, held as a request, or answered at once for want of such a command. -/
theorem exec_keeperRequest_head :
    let u := s.takePost
    let q := s.readRequest m.val.toNat m.sender
    exec .keeperRequest s = .next
      (if m.val.toNat % 64 ≠ 0 || !outside m.val.toNat 64 then (u.bump R.SEC_U_REFUSED).raise F.SEC_INT_STATUS.REFUSED
      else if (kcModes q.cmd).isNone then
        (u.holdRequest q).keeperDone q (if (u.holdRequest q).flag F.SEC_STATUS.ERROR then 8 else 4) []
      else u.holdRequest q) := by
  show execKeeperRequest s = _
  unfold execKeeperRequest
  rw [if_neg (by simp [hup, hfree]), hmsgs, ← State.readRequest_congr (State.takePost_still hmsgs).mem m.val.toNat m.sender]
  show (if _ then Host.Outcome.next _ else if _ then Host.Outcome.next _ else Host.Outcome.next _) = _
  rw [← apply_ite Host.Outcome.next, ← apply_ite Host.Outcome.next]
  rfl

theorem keeperRequest_refuses (hb : m.val.toNat % 64 ≠ 0 ∨ outside m.val.toNat 64 = false) : Gives .keeperRequest s fun t =>
    (t.box 20).msgs = l ∧ t.sec = s.sec ∧ SameMemory s t ∧ Counted s t R.SEC_U_REFUSED 1 := by
  have hstill := State.takePost_still hmsgs
  refine ⟨_, exec_keeperRequest_head hup hfree hmsgs, ?_⟩
  rw [if_pos (by simpa using hb)]
  refine ⟨?_, ?_, fun a => ?_, ?_⟩
  · rw [State.box_congr (State.raise_rbt _ _), State.box_congr (State.bump_rbt _ _), State.takePost_box hmsgs]
  · obtain ⟨-, -, -, -, -, -, -, -, hsec, -⟩ := hstill
    simpa using hsec
  · rw [State.rdByte, State.raise_mem, State.bump_mem, ← State.rdByte, hstill.rdByte]
  · refine counted_of_eq (counted_bump s.takePost R.SEC_U_REFUSED) ?_ (State.cnt_setReg _ _ _ _)
    rw [State.takePost, State.cnt_bump_ne _ _ _ (by decide), (State.takePost_leaves hmsgs).cnt _ (by decide)]

theorem keeperRequest_holds (hb : m.val.toNat % 64 = 0) (ho : outside m.val.toNat 64 = true)
    (hcmd : kcModes (s.readRequest m.val.toNat m.sender).cmd ≠ none) : Gives .keeperRequest s fun t =>
    (t.box 20).msgs = l ∧ t.sec = { s.sec with req := some (s.readRequest m.val.toNat m.sender) } ∧ t.flag F.SEC_STATUS.BUSY = true ∧
      SameMemory s t ∧ Counted s t R.SEC_U_COMMANDS 1 := by
  have hstill := State.holdRequest_still (State.takePost_still hmsgs) (s.readRequest m.val.toNat m.sender)
  refine ⟨_, exec_keeperRequest_head hup hfree hmsgs, ?_⟩
  rw [if_neg (by simp [hb, ho]), if_neg (by simpa using hcmd)]
  refine ⟨?_, ?_, ?_, fun a => hstill.rdByte a, ?_⟩
  · rw [State.holdRequest, State.box_congr (State.setFld_rbt _ _ _)]
    exact State.takePost_box hmsgs
  · obtain ⟨-, -, -, -, -, -, -, -, hsec, -⟩ := hstill
    exact hsec
  · exact State.flag_setFld_same (f := F.SEC_STATUS.BUSY) true (by decide) rfl
  · exact counted_of_eq (counted_bump (s.boxPop 20 20) R.SEC_U_COMMANDS) ((State.takePost_leaves hmsgs).cnt _ (by decide))
      (State.cnt_setReg _ _ _ _)

theorem keeperRequest_unknown (hb : m.val.toNat % 64 = 0) (ho : outside m.val.toNat 64 = true)
    (hcmd : kcModes (s.readRequest m.val.toNat m.sender).cmd = none) : Gives .keeperRequest s fun t =>
    Answered s t (s.readRequest m.val.toNat m.sender) (if s.flag F.SEC_STATUS.ERROR = true then 8 else 4) [] := by
  have hstill := State.holdRequest_still (State.takePost_still hmsgs) (s.readRequest m.val.toNat m.sender)
  have herr : (s.takePost.holdRequest (s.readRequest m.val.toNat m.sender)).flag F.SEC_STATUS.ERROR = s.flag F.SEC_STATUS.ERROR := by
    refine (State.flag_setFld_ne _ (by decide) (by decide)).trans (State.flag_congr ?_)
    exact (State.reg_bump _ _ _).trans ((State.takePost_leaves hmsgs).reg _ (by decide))
  have hexec := exec_keeperRequest_head hup hfree hmsgs
  dsimp only at hexec
  rw [if_neg (by simp [hb, ho]), if_pos (by simp [hcmd]), herr] at hexec
  exact ⟨_, hexec, answered_of_still (State.keeperDone_refused _ _ (by split_ifs <;> decide)) hstill⟩

end

/-! ## The Keeper's own state: STATUS, SELF_TEST, ATTEST (R540, R558, R567) -/

section
variable {s : State} {r : KReq}

theorem status_answers (h : Serves s r .status 1 44) : Gives .status s fun t =>
    Answered s t r 0 (leBytes 16 s.mram.serial.toNat ++ leBytes 4 (s.reg R.SEC_STATUS).toNat ++ leBytes 8 s.slotBits ++
      leBytes 16 s.originBits) :=
  gives_done rfl h rfl

theorem selfTest_passes (h : Serves s r (.selfTest true) 2 0) : Gives (.selfTest true) s fun t =>
    Answered s t r 0 [] ∧ t.flag F.SEC_STATUS.ERROR = false := by
  refine gives_served rfl h rfl ⟨?_, ?_⟩
  · exact answered_of_still (x := s.sec.req) (State.keeperDone_done _ r _) (by simp [Still])
  · rw [State.keeperDone_status _ _ _ _ rfl (by decide)]
    exact State.flag_setFld_same (f := F.SEC_STATUS.ERROR) false (by decide) rfl

theorem selfTest_fails (h : Serves s r (.selfTest false) 2 0) : Gives (.selfTest false) s fun t =>
    Ended t r 8 ∧ t.flag F.SEC_STATUS.ERROR = true := by
  refine gives_served (a := (s.keeperError, 8, [])) rfl h rfl ⟨(s.keeperError.keeperDone_refused r (res := 8) (by decide)).ended, ?_⟩
  obtain ⟨-, herr⟩ := s.keeperError_effect
  rw [State.keeperDone_status _ _ _ _ rfl (by decide), State.flag, herr]
  rfl

theorem attest_noKey (h : Serves s r .attest 3 880) (hkey : s.slotKey (if s.sys.mode = .lockdown then 15 else 0) = none) :
    Gives .attest s fun t => Answered s t r 6 [] :=
  gives_failed rfl h (by simp only [hkey]) (by decide)

theorem attest_signs (h : Serves s r .attest 3 880) {k : List Byte} (hkey : s.slotKey (if s.sys.mode = .lockdown then 15 else 0) = some k)
    (hlen : r.inLen = 32) : ∃ n, Gives .attest s fun t =>
      Answered { s with sec := { s.sec with drawn := s.sec.drawn + 1 } } t r 0
        (s.statement k r.input ++ ecdsaSign (beNat k) n (sha256 (s.statement k r.input))) :=
  ⟨beNat s.random.2, gives_done (u := s.random.1) rfl h (by simp only [hkey, hlen]; rfl)⟩

/-! ## Measurement and the Ring Log: EXTEND, RING_READ (R540, R554) -/

theorem extend_extends (h : Serves s r .extend 4 0) (hlen : r.inLen = 36) (hlo : 8 ≤ leAt r.input 0 4) (hhi : leAt r.input 0 4 ≤ 15) :
    Gives .extend s fun t => Ended t r 0 ∧
      t.mr (leAt r.input 0 4) = sha256 (s.mr (leAt r.input 0 4) ++ r.input.drop 4) ∧
      ∀ m, m ≠ leAt r.input 0 4 → t.mr m = s.mr m := by
  refine gives_mono (gives_done rfl h (if_neg (by simp only [Bool.or_eq_true, decide_eq_true_eq]; omega)))
    fun t hanswer => ⟨hanswer.ended, ?_, fun m hm => ?_⟩
  · rw [hanswer.mr_eq]
    simp [State.mr, State.extend]
  · rw [hanswer.mr_eq]
    simp [State.mr, State.extend, hm]

theorem ringRead_reads (h : Serves s r .ringRead 5 0) (hlen : r.inLen = 8) (hlo : s.mram.rlNext ≤ leAt r.input 0 8 + 65536)
    (hhi : leAt r.input 0 8 ≤ s.mram.rlNext) : Gives .ringRead s fun t =>
      Answered s t r 0 ((List.range (min (s.mram.rlNext - leAt r.input 0 8) (r.outLen / 64))).flatMap
        fun i => s.ringPlace ((leAt r.input 0 8 + i) % 65536)) :=
  gives_done rfl h (if_neg (by simp only [Bool.or_eq_true, decide_eq_true_eq]; omega))

theorem ringRead_refuses (h : Serves s r .ringRead 5 0)
    (hq : leAt r.input 0 8 + 65536 < s.mram.rlNext ∨ s.mram.rlNext < leAt r.input 0 8) :
    Gives .ringRead s fun t => Answered s t r 4 [] :=
  gives_failed rfl h (if_pos (by simp only [Bool.or_eq_true, decide_eq_true_eq]; omega)) (by decide)

/-! ## Functions: HASH, VERIFY, SIGN, MAC (R540, R565) -/

theorem hash_answers (h : Serves s r .hash 6 32) : Gives .hash s fun t => Answered s t r 0 (sha256 r.input) :=
  gives_done rfl h rfl

/-- VERIFY under the key that the input carries. -/
theorem verify_ownKey (h : Serves s r .verify 7 0) (hslot : leAt r.input 0 4 = 4294967295) (hlen : r.input.length = 164) :
    Gives .verify s fun t =>
      Answered s t r (if ecdsaVerify (slice r.input 4 64) (slice r.input 68 32) (r.input.drop 100) = true then 0 else 2) [] := by
  refine gives_failed rfl h ?_ (by split_ifs <;> decide)
  simp [hslot, hlen, slice]
  rfl

theorem sign_noKey (h : Serves s r .sign 0x27 64) (hlen : r.inLen = 36) (hkey : s.serviceKey (leAt r.input 0 4) 3 = none) :
    Gives .sign s fun t => Answered s t r 6 [] :=
  gives_failed rfl h (by simp only [hkey, hlen]; rfl) (by decide)

theorem sign_signs (h : Serves s r .sign 0x27 64) (hlen : r.inLen = 36) {k : List Byte} (hkey : s.serviceKey (leAt r.input 0 4) 3 = some k) :
    ∃ n, Gives .sign s fun t =>
      Answered { s with sec := { s.sec with drawn := s.sec.drawn + 1 } } t r 0 (ecdsaSign (beNat k) n (r.input.drop 4)) :=
  ⟨beNat s.random.2, gives_done (u := s.random.1) rfl h (by simp only [hkey, hlen]; rfl)⟩

theorem mac_noKey (h : Serves s r .mac 0x28 32) (hlen : 4 ≤ r.inLen) (hkey : s.serviceKey (leAt r.input 0 4) 2 = none) :
    Gives .mac s fun t => Answered s t r 6 [] :=
  gives_failed rfl h (by simp only [hkey, if_neg (Nat.not_lt.mpr hlen)]) (by decide)

theorem mac_answers (h : Serves s r .mac 0x28 32) (hlen : 4 ≤ r.inLen) {k : List Byte} (hkey : s.serviceKey (leAt r.input 0 4) 2 = some k) :
    Gives .mac s fun t => Answered s t r 0 (hmac256 k (r.input.drop 4)) :=
  gives_done rfl h (by simp only [hkey, if_neg (Nat.not_lt.mpr hlen)])

/-! ## Keys taken away: REMOVE_SAK, REMOVE_RSV (R540, R550) -/

theorem mem_dropSak {l : List MacSa} {ch an : Nat} {a : MacSa} :
    a ∈ dropSak l ch an ↔ a ∈ l ∧ ¬ (a.rx = decide (ch ≠ 0) ∧ a.chan = ch - 1 ∧ a.an = an) := by
  simp only [dropSak, List.mem_filter, Bool.not_eq_true', Bool.and_eq_false_iff, decide_eq_false_iff_not]
  tauto

theorem dropSak_length_eq {l : List MacSa} {ch an : Nat} :
    (dropSak l ch an).length = l.length ↔ ∀ a ∈ l, ¬ (a.rx = decide (ch ≠ 0) ∧ a.chan = ch - 1 ∧ a.an = an) := by
  rw [dropSak, List.length_filter_eq_length_iff]
  refine forall₂_congr fun a _ => ?_
  simp only [Bool.not_eq_true', Bool.and_eq_false_iff, decide_eq_false_iff_not]
  tauto

section
variable {p ch an : Nat} (h : Serves s r .removeSak 0x24 0) (hlen : r.inLen = 4) (htarget : sakTarget (leAt r.input 0 4) = some (p, ch, an))
include h hlen htarget

theorem removeSak_absent (hnone : ∀ a ∈ (s.port p).sas, ¬ (a.rx = decide (ch ≠ 0) ∧ a.chan = ch - 1 ∧ a.an = an)) :
    Gives .removeSak s fun t => Answered s t r 6 [] := by
  refine gives_failed rfl h ?_ (by decide)
  rw [if_pos hlen, htarget]
  exact if_pos (dropSak_length_eq.mpr hnone)

theorem removeSak_removes (hsome : ∃ a ∈ (s.port p).sas, a.rx = decide (ch ≠ 0) ∧ a.chan = ch - 1 ∧ a.an = an) :
    Gives .removeSak s fun t => Ended t r 0 ∧
      ∀ a, a ∈ (t.port p).sas ↔ a ∈ (s.port p).sas ∧ ¬ (a.rx = decide (ch ≠ 0) ∧ a.chan = ch - 1 ∧ a.an = an) := by
  refine gives_mono (gives_done (u := s.setPort p { s.port p with sas := dropSak (s.port p).sas ch an }) (o := []) rfl h ?_)
    fun t hanswer => ⟨hanswer.ended, fun a => ?_⟩
  · rw [if_pos hlen, htarget]
    refine if_neg fun hall => ?_
    obtain ⟨a, ha, his⟩ := hsome
    exact dropSak_length_eq.mp hall a ha his
  · rw [hanswer.port_eq, State.port_setPort, if_pos rfl]
    exact mem_dropSak

end

/-- An entry of the R-SV key table set reads back, and the others read as before. -/
theorem State.rsvKeys_setRsvKey (s : State) (i : Nat) (k : Option RsvKey) (j : Nat) :
    mget none (s.setRsvKey i k).ing.rsvKeys j = if j = i then k else mget none s.ing.rsvKeys j := by
  simp [State.setRsvKey]

theorem removeRsv_absent (h : Serves s r .removeRsv 0x26 0) (hlen : r.inLen = 4) (hi : leAt r.input 0 4 < 128)
    (hold : mget none s.ing.rsvKeys (leAt r.input 0 4) = none) : Gives .removeRsv s fun t => Answered s t r 6 [] := by
  refine gives_failed rfl h ?_ (by decide)
  dsimp only
  rw [if_neg (by simp [hlen, hi]), hold]
  rfl

theorem removeRsv_removes (h : Serves s r .removeRsv 0x26 0) (hlen : r.inLen = 4) (hi : leAt r.input 0 4 < 128)
    (hold : mget none s.ing.rsvKeys (leAt r.input 0 4) ≠ none) : Gives .removeRsv s fun t =>
      Ended t r 0 ∧ mget none t.ing.rsvKeys (leAt r.input 0 4) = none ∧
        ∀ j, j ≠ leAt r.input 0 4 → mget none t.ing.rsvKeys j = mget none s.ing.rsvKeys j := by
  refine gives_mono (gives_done (u := s.setRsvKey (leAt r.input 0 4) none) (o := []) rfl h ?_)
    fun t hanswer => ⟨hanswer.ended, ?_, fun j hj => ?_⟩
  · dsimp only
    rw [if_neg (by simp [hlen, hi]), if_neg (by simpa using hold)]
  · rw [hanswer.ing_eq, State.rsvKeys_setRsvKey, if_pos rfl]
  · rw [hanswer.ing_eq, State.rsvKeys_setRsvKey, if_neg hj]

/-! ## LOAD_IMAGE (R555) -/

theorem loadImage_loads (h : Serves s r .loadImage 0x30 0) (hn : leAt r.input 6 1 ≤ 2) (hok : s.imageOk (leAt r.input 6 1) r.input = true) :
    Gives .loadImage s fun t => Ended t r 0 ∧ t.mram = s.mram ∧
      mget [] t.hst.images (2 * leAt r.input 6 1 + (if s.loadSlot (leAt r.input 6 1) = true then 1 else 0)) = r.input := by
  refine gives_mono (gives_done rfl h (if_neg ?_)) fun t hanswer => ⟨hanswer.ended, hanswer.mram_eq, ?_⟩
  · rw [hok]
    simpa using hn
  · rw [hanswer.hst_eq]
    exact (mget_mset _ _ _ _ _).trans (if_pos rfl)

theorem loadImage_refuses (h : Serves s r .loadImage 0x30 0) (hbad : 2 < leAt r.input 6 1 ∨ s.imageOk (leAt r.input 6 1) r.input = false) :
    Gives .loadImage s fun t => Answered s t r 9 [] :=
  gives_failed rfl h (if_pos (by simpa using hbad)) (by decide)

end

/-- Settles O48: a post becomes a request, the checks that come first refuse it, and each command answers what it computes. -/
theorem keeperRequests : Obligations.KeeperRequests := by
  intro s r
  refine ⟨fun m l hup hfree hmsgs => ⟨keeperRequest_refuses hup hfree hmsgs, keeperRequest_holds hup hfree hmsgs,
      keeperRequest_unknown hup hfree hmsgs⟩,
    fun i cmd hasked => ⟨fun hbad => gives_refused hasked (by decide) fun _ _ => State.keeper_unhealthy hasked hbad,
      fun hok hmode => gives_refused hasked (by decide) fun _ _ => State.keeper_wrongMode hasked hok hmode,
      fun hok hmode hrsv => gives_refused hasked (by decide) fun _ _ => State.keeper_reserved hasked hok hmode hrsv⟩,
    status_answers, selfTest_passes, selfTest_fails, fun h => ⟨attest_noKey h, fun k hkey hlen => attest_signs h hkey hlen⟩,
    fun h hlen hlo hhi => extend_extends h hlen hlo hhi,
    fun h hlen => ⟨ringRead_reads h hlen, ringRead_refuses h⟩, hash_answers, verify_ownKey,
    fun h hlen p ch an htarget => ⟨removeSak_absent h hlen htarget, removeSak_removes h hlen htarget⟩,
    fun h hlen hi => ⟨removeRsv_absent h hlen hi, removeRsv_removes h hlen hi⟩,
    fun h hlen => ⟨sign_noKey h hlen, fun k hkey => sign_signs h hlen hkey⟩,
    fun h hlen => ⟨mac_noKey h hlen, fun k hkey => mac_answers h hlen hkey⟩,
    fun h => ⟨loadImage_loads h, loadImage_refuses h⟩⟩

end Sys2Proof.Machine
end

section
/-!
SUPPORT. Signed blocks, wrapped keys and key slots (R539, R542 to R550): what a check that passes has found, and what a key that is written
or erased leaves alone.
-/

namespace Sys2Proof.Machine

open Sys2Proof.Safety

/-! ## Signed blocks (R539) -/

/-- The command counter of a slot stored. -/
def State.storeCounter (s : State) (slot n : Nat) : State :=
  { s with mram := { s.mram with counters := mset 0 s.mram.counters slot n } }

theorem State.counter_storeCounter (s : State) (slot n : Nat) : mget 0 (s.storeCounter slot n).mram.counters slot = n :=
  (mget_mset _ _ _ _ _).trans (if_pos rfl)

/-- What a check of a signed block finds: it fails and changes nothing, or it passes, with the signature of its role's key over the block
and a COUNTER above the one stored, which is then stored. -/
def SignedOutcome (s : State) (l : List Byte) (slots : List Nat) : State × Checked Signed → Prop
  | (u, .bad c) => u = s ∧ c < 4294967296
  | (u, .good b) => u = s.storeCounter b.slot b.counter ∧ b.slot ∈ slots ∧ mget 0 s.mram.counters b.slot < b.counter ∧
      b.digest = sha256 (l.take (0x40 + b.params.length)) ∧ slice l 0x10 16 = leBytes 16 s.mram.serial.toNat ∧
      ∃ k, s.slotKey b.slot = some k ∧ ecdsaVerify k b.digest (l.drop (0x40 + b.params.length)) = true

theorem State.checkSigned_outcome (s : State) (l : List Byte) (cmd : Nat) (slots : List Nat) :
    SignedOutcome s l slots (s.checkSigned l cmd slots) := by
  have hbad (c : Nat) (hc : c < 4294967296) : SignedOutcome s l slots (s, .bad c) := ⟨rfl, hc⟩
  unfold State.checkSigned
  extract_lets len slot counter body
  split
  · exact hbad 4 (by decide)
  next hform =>
    split
    · exact hbad 2 (by decide)
    next hrole =>
      split
      · exact hbad 2 (by decide)
      next k hk =>
        split
        · exact hbad 2 (by decide)
        next hsig =>
          split
          · exact hbad 5 (by decide)
          next hcount =>
            simp only [Bool.or_eq_true, decide_eq_true_eq, not_or, Decidable.not_not] at hform
            simp only [Bool.or_eq_true, Bool.not_eq_true', decide_eq_true_eq, not_or, Bool.not_eq_false, Decidable.not_not,
              List.contains_iff_mem] at hrole
            obtain ⟨hslot, hserial⟩ := hrole
            have hparams : (slice l 0x40 len).length = len := by
              simp only [slice, List.length_take, List.length_drop]
              omega
            refine ⟨rfl, hslot, Nat.lt_of_not_le hcount, ?_, hserial, k, hk, ?_⟩
            · rw [hparams]
            · rw [hparams]
              simpa using hsig

/-! ## Wrapped keys (R550) -/

/-- What a check of a wrap finds: it fails and changes nothing, or its key lies under a KEK, whose COUNTER is then stored. -/
def WrapOutcome (s : State) : State × Checked Wrapped → Prop
  | (u, .bad c) => u = s ∧ c < 4294967296
  | (u, .good w) => ∃ n, u = s.storeCounter w.kek n ∧ 16 ≤ w.kek ∧ w.kek < 32 ∧ mget 0 s.mram.counters w.kek < n

theorem State.unwrap_outcome (s : State) (l : List Byte) (kind : Nat) : WrapOutcome s (s.unwrap l kind) := by
  have hbad (c : Nat) (hc : c < 4294967296) : WrapOutcome s (s, .bad c) := ⟨rfl, hc⟩
  unfold State.unwrap
  extract_lets kek len counter
  split
  · exact hbad 4 (by decide)
  next hform =>
    simp only [Bool.or_eq_true, decide_eq_true_eq, not_or] at hform
    have hkek : 16 ≤ kek ∧ kek < 32 := by omega
    split
    · exact hbad 6 (by decide)
    · split
      · exact hbad 2 (by decide)
      · split
        · exact hbad 5 (by decide)
        next hcount => exact ⟨counter, rfl, hkek.1, hkek.2, Nat.lt_of_not_le hcount⟩

/-! ## Shares of a key (R544) -/

theorem zipWith_xor_cancel (key m : List Byte) (h : key.length ≤ m.length) :
    List.zipWith (· ^^^ ·) m (List.zipWith (· ^^^ ·) key m) = key := by
  induction key generalizing m with
  | nil => simp
  | cons a key ih =>
    cases m with
    | nil => simp at h
    | cons b m =>
      have hab : b ^^^ (a ^^^ b) = a := by rw [BitVec.xor_comm a b, ← BitVec.xor_assoc, BitVec.xor_self, BitVec.zero_xor]
      simp only [List.zipWith_cons_cons, hab, ih m (by simpa using h)]

/-- Shares drawn anew make the key they were drawn for. -/
theorem State.newShares_key (s : State) {key : List Byte} (kind origin : Nat) (h : key.length ≤ 64) :
    (s.newShares key kind origin).2.key = key := by
  refine zipWith_xor_cancel _ _ ?_
  show key.length ≤ ((beBytes 32 _ ++ beBytes 32 _).take key.length).length
  simp only [List.length_take, List.length_append, beBytes, List.length_reverse, leBytes_length]
  omega

/-- Shares drawn anew take three random numbers. -/
theorem State.newShares_state (s : State) (key : List Byte) (kind origin : Nat) :
    (s.newShares key kind origin).1 = { s with sec := { s.sec with drawn := s.sec.drawn + 3 } } := rfl

/-! ## Slots -/

@[simp] theorem State.keySlot_setKeySlot (s : State) (n : Nat) (k : Option KeyShares) (m : Nat) :
    (s.setKeySlot n k).keySlot m = if m = n then k else s.keySlot m := mget_mset _ _ _ _ _

@[simp] theorem Mram.key_setKey (x : Mram) (n : Nat) (k : KeyStore) (m : Nat) : (x.setKey n k).key m = if m = n then k else x.key m :=
  mget_mset _ _ _ _ _

theorem State.showSlots_slots (s : State) : s.showSlots.sec = s.sec ∧ s.showSlots.mram = s.mram := by simp [State.showSlots]

/-- SEC_STATUS shows the slots of the identity and of the owner (R569). -/
theorem State.showSlots_flags (s : State) :
    s.showSlots.flag F.SEC_STATUS.IDENTITY = ((s.keySlot 0).isSome && (s.keySlot 15).isSome) ∧
      s.showSlots.flag F.SEC_STATUS.OWNER = (s.keySlot 2).isSome := by
  refine ⟨?_, State.flag_setFld_same (f := F.SEC_STATUS.OWNER) _ (by decide) rfl⟩
  exact (State.flag_setFld_ne _ (by decide) (by decide)).trans (State.flag_setFld_same (f := F.SEC_STATUS.IDENTITY) _ (by decide) rfl)

/-- A slot holds a key, opened and in MRAM. -/
def HoldsKey (t : State) (n kind origin : Nat) (key : List Byte) : Prop :=
  ∃ k, t.keySlot n = some k ∧ k.key = key ∧ k.kind = kind ∧ k.origin = origin ∧ (t.mram.key n).occupied = true

theorem HoldsKey.of_eq {s t : State} {n kind origin : Nat} {key : List Byte} (h : HoldsKey s n kind origin key)
    (hslot : t.keySlot n = s.keySlot n) (hkey : t.mram.key n = s.mram.key n) : HoldsKey t n kind origin key := by
  unfold HoldsKey
  rw [hslot, hkey]
  exact h

section
variable (s : State) (n kind origin : Nat) {key : List Byte}

/-- A key update stores the key in its slot (R547). -/
theorem State.writeKey_holds (h : key.length ≤ 64) : HoldsKey (s.writeKey n kind origin key) n kind origin key := by
  unfold State.writeKey
  extract_lets k img sel k1 k2 t r
  obtain ⟨hsec, hmram⟩ := ((r.1.setKeySlot n (some r.2)).extend 5 (keyMeasure n origin kind key)).showSlots_slots
  refine ⟨r.2, ?_, t.newShares_key kind origin h, rfl, rfl, ?_⟩
  · rw [State.keySlot, hsec]
    exact (State.keySlot_setKeySlot r.1 n (some r.2) n).trans (if_pos rfl)
  · rw [hmram]
    show ((s.mram.setKey n k2).key n).occupied = true
    rw [Mram.key_setKey, if_pos rfl]

/-- A key update leaves every other slot alone. -/
theorem State.writeKey_others {m : Nat} (h : m ≠ n) : (s.writeKey n kind origin key).keySlot m = s.keySlot m ∧
    (s.writeKey n kind origin key).mram.key m = s.mram.key m := by
  unfold State.writeKey
  extract_lets k img sel k1 k2 t r
  obtain ⟨hsec, hmram⟩ := ((r.1.setKeySlot n (some r.2)).extend 5 (keyMeasure n origin kind key)).showSlots_slots
  refine ⟨?_, ?_⟩
  · rw [State.keySlot, hsec]
    exact (State.keySlot_setKeySlot r.1 n (some r.2) m).trans (if_neg h)
  · rw [hmram]
    exact (Mram.key_setKey _ _ _ _).trans (if_neg h)

theorem State.writeKey_flags : (s.writeKey n kind origin key).flag F.SEC_STATUS.IDENTITY =
      (((s.writeKey n kind origin key).keySlot 0).isSome && ((s.writeKey n kind origin key).keySlot 15).isSome) ∧
    (s.writeKey n kind origin key).flag F.SEC_STATUS.OWNER = ((s.writeKey n kind origin key).keySlot 2).isSome := by
  unfold State.writeKey
  extract_lets k img sel k1 k2 t r
  obtain ⟨hsec, -⟩ := ((r.1.setKeySlot n (some r.2)).extend 5 (keyMeasure n origin kind key)).showSlots_slots
  simp only [State.keySlot, hsec]
  exact State.showSlots_flags _

end

/-! ## Slots erased (R549, R563) -/

/-- Mode control, the Understory and the request stand, with every counter and every register but SEC_STATUS. -/
structure KeysOnly (s t : State) : Prop where
  sys : t.sys = s.sys
  und : t.und = s.und
  req : t.sec.req = s.sec.req
  reg : ∀ off, off ≠ R.SEC_STATUS → t.reg off = s.reg off
  cnt : ∀ k, t.cnt k = s.cnt k

namespace KeysOnly

variable {s t u : State}

theorem refl (s : State) : KeysOnly s s := ⟨rfl, rfl, rfl, fun _ _ => rfl, fun _ => rfl⟩

theorem trans (a : KeysOnly s t) (b : KeysOnly t u) : KeysOnly s u :=
  ⟨b.sys.trans a.sys, b.und.trans a.und, b.req.trans a.req, fun off h => (b.reg off h).trans (a.reg off h),
    fun k => (b.cnt k).trans (a.cnt k)⟩

/-- An update of a field of SEC_STATUS. -/
theorem setStatus (h : KeysOnly s t) {f : Fld} (hf : f.off = R.SEC_STATUS) (v : Nat) : KeysOnly s (t.setFld f v) :=
  h.trans ⟨by simp, by simp, by simp, fun _ ho => State.reg_setFld_ne _ _ _ _ (hf ▸ ho), fun _ => State.cnt_setReg _ _ _ _⟩

/-- An update of keys, measurements, ports and the parser. -/
theorem upd (h : KeysOnly s t) (hsys : u.sys = t.sys := by rfl) (hund : u.und = t.und := by rfl) (hreq : u.sec.req = t.sec.req := by rfl)
    (hregs : u.regs = t.regs := by rfl) (huregs : u.uregs = t.uregs := by rfl) (hwide : u.wide = t.wide := by rfl)
    (huwide : u.uwide = t.uwide := by rfl) : KeysOnly s u :=
  h.trans ⟨hsys, hund, hreq, fun o _ => by rw [State.reg, State.reg, hregs, huregs], fun k => by rw [State.cnt, State.cnt, hwide, huwide]⟩

theorem showSlots (h : KeysOnly s t) : KeysOnly s t.showSlots := (h.setStatus rfl _).setStatus rfl _

end KeysOnly

/-- What a slot held is measured before the slot is erased. -/
def State.measureErased (s : State) (n : Nat) : State :=
  match s.keySlot n with
  | some k => s.extend 5 (keyMeasure n k.origin k.kind k.key)
  | none => s

theorem State.eraseSlot_eq (s : State) (n : Nat) : s.eraseSlot n =
    (({ s.measureErased n with mram := (s.measureErased n).mram.eraseKey n } : State).setKeySlot n none).showSlots := rfl

theorem State.measureErased_keeps (s : State) (n : Nat) :
    (s.measureErased n).sec.slots = s.sec.slots ∧ (s.measureErased n).mram = s.mram ∧ KeysOnly s (s.measureErased n) := by
  unfold State.measureErased
  split
  · exact ⟨rfl, rfl, (KeysOnly.refl s).upd⟩
  · exact ⟨rfl, rfl, KeysOnly.refl s⟩

theorem State.eraseSlot_keysOnly (s : State) (n : Nat) : KeysOnly s (s.eraseSlot n) := by
  obtain ⟨-, -, hkeys⟩ := s.measureErased_keeps n
  rw [State.eraseSlot_eq]
  exact hkeys.upd.showSlots

theorem State.keySlot_eraseSlot (s : State) (n m : Nat) : (s.eraseSlot n).keySlot m = if m = n then none else s.keySlot m := by
  obtain ⟨hslots, -, -⟩ := s.measureErased_keeps n
  rw [State.eraseSlot_eq, State.keySlot, (State.showSlots_slots _).1]
  refine (State.keySlot_setKeySlot _ _ _ _).trans ?_
  rw [State.keySlot, State.keySlot, ← hslots]

theorem State.mram_eraseSlot (s : State) (n : Nat) : (s.eraseSlot n).mram = s.mram.eraseKey n := by
  obtain ⟨-, hmram, -⟩ := s.measureErased_keeps n
  rw [State.eraseSlot_eq, (State.showSlots_slots _).2]
  exact congrArg (Mram.eraseKey · n) hmram

theorem Mram.eraseKey_empty (x : Mram) (n : Nat) : ((x.eraseKey n).key n).occupied = false := by
  simp [Mram.eraseKey]

theorem Mram.eraseKey_others (x : Mram) {n m : Nat} (h : m ≠ n) : (x.eraseKey n).key m = x.key m := by
  simp [Mram.eraseKey, h]

/-- A slot erased if it holds a key. -/
def State.eraseHeld (s : State) (n : Nat) : State := if (s.mram.key n).occupied || (s.keySlot n).isSome then s.eraseSlot n else s

theorem State.eraseHeld_empty (s : State) (n : Nat) : ((s.eraseHeld n).mram.key n).occupied = false := by
  unfold State.eraseHeld
  split
  · rw [State.mram_eraseSlot, Mram.eraseKey_empty]
  next h =>
    simp only [Bool.or_eq_true, not_or, Bool.not_eq_true] at h
    exact h.1

theorem State.eraseHeld_others (s : State) {n m : Nat} (h : m ≠ n) : (s.eraseHeld n).mram.key m = s.mram.key m :=
  both_arms (fun t : State => t.mram.key m = s.mram.key m) (by rw [State.mram_eraseSlot, Mram.eraseKey_others _ h]) rfl

theorem State.eraseHeld_keysOnly (s : State) (n : Nat) : KeysOnly s (s.eraseHeld n) :=
  both_arms (KeysOnly s) (s.eraseSlot_keysOnly n) (KeysOnly.refl s)

/-- Slots of a list erased, one after the other. -/
def State.eraseAll (s : State) (l : List Nat) : State := l.foldl State.eraseHeld s

theorem State.eraseAll_keysOnly (s : State) (l : List Nat) : KeysOnly s (s.eraseAll l) := by
  induction l generalizing s with
  | nil => exact KeysOnly.refl s
  | cons n l ih => exact (s.eraseHeld_keysOnly n).trans (ih _)

theorem State.eraseAll_others (s : State) {l : List Nat} {m : Nat} (h : m ∉ l) : (s.eraseAll l).mram.key m = s.mram.key m := by
  induction l generalizing s with
  | nil => rfl
  | cons n l ih =>
    obtain ⟨hn, hl⟩ := List.ne_and_not_mem_of_not_mem_cons h
    exact (ih (s.eraseHeld n) hl).trans (s.eraseHeld_others hn)

theorem State.eraseAll_empty (s : State) {l : List Nat} {m : Nat} (h : m ∈ l) : ((s.eraseAll l).mram.key m).occupied = false := by
  induction l generalizing s with
  | nil => cases h
  | cons n l ih =>
    by_cases hl : m ∈ l
    · exact ih _ hl
    · obtain rfl : m = n := (List.mem_cons.mp h).resolve_right hl
      show (((s.eraseHeld m).eraseAll l).mram.key m).occupied = false
      rw [State.eraseAll_others _ hl, State.eraseHeld_empty]

/-! ## Zeroize (R563) -/

/-- The slots that a zeroize erases. -/
def zeroizedSlots (lockdown : Bool) : List Nat := (0 :: (List.range 48).map (· + 16)) ++ (if lockdown then [] else [15])

theorem mem_zeroizedSlots {lockdown : Bool} {n : Nat} :
    n ∈ zeroizedSlots lockdown ↔ n = 0 ∨ (16 ≤ n ∧ n < 64) ∨ (lockdown = false ∧ n = 15) := by
  have hrange : (∃ a < 48, a + 16 = n) ↔ 16 ≤ n ∧ n < 64 :=
    ⟨by rintro ⟨a, ha, rfl⟩; omega, fun h => ⟨n - 16, by omega, by omega⟩⟩
  cases lockdown <;> simp [zeroizedSlots, hrange]

theorem State.clearKeyStores_keeps (s : State) : s.clearKeyStores.mram = s.mram ∧ KeysOnly s s.clearKeyStores := by
  unfold State.clearKeyStores
  extract_lets t
  have ht : t.mram = s.mram ∧ KeysOnly s t :=
    List.foldlRecOn _ _ (motive := fun t : State => t.mram = s.mram ∧ KeysOnly s t) ⟨rfl, KeysOnly.refl s⟩
      fun u hu p _ => ⟨hu.1, hu.2.upd⟩
  exact ⟨by simpa using ht.1, ht.2.upd.setStatus rfl _⟩

/-- The keys of a zeroize, before it is flagged and counted: the storage key, the key stores, the slots. -/
def State.wipeKeys (s : State) (lockdown : Bool) : State :=
  ({ s with und := { s.und with storageKey := false } } : State).clearKeyStores.eraseAll (zeroizedSlots lockdown)

theorem State.zeroize_eq (s : State) (lockdown : Bool) : s.zeroize lockdown =
    (((s.wipeKeys lockdown).setFld F.SEC_STATUS.ZEROIZED 1).raise F.SEC_INT_STATUS.ZEROIZED).bump R.SEC_U_ZEROIZES := rfl

theorem State.wipeKeys_keysOnly (s : State) (lockdown : Bool) :
    KeysOnly { s with und := { s.und with storageKey := false } } (s.wipeKeys lockdown) := by
  obtain ⟨-, hclear⟩ := ({ s with und := { s.und with storageKey := false } } : State).clearKeyStores_keeps
  exact hclear.trans (State.eraseAll_keysOnly _ (zeroizedSlots lockdown))

/-- A zeroize moves keys, its flags and its count. -/
theorem State.zeroize_frame (s : State) (lockdown : Bool) :
    (s.zeroize lockdown).und = { s.und with storageKey := false } ∧ (s.zeroize lockdown).sys = s.sys ∧
      (s.zeroize lockdown).sec.req = s.sec.req ∧
      (∀ off, off ≠ R.SEC_STATUS → off ≠ R.SEC_INT_STATUS → (s.zeroize lockdown).reg off = s.reg off) ∧
      (∀ k, k ≠ R.SEC_U_ZEROIZES → (s.zeroize lockdown).cnt k = s.cnt k) ∧ Counted s (s.zeroize lockdown) R.SEC_U_ZEROIZES 1 := by
  have hkeys := s.wipeKeys_keysOnly lockdown
  have hcnt (k : Nat) : (((s.wipeKeys lockdown).setFld F.SEC_STATUS.ZEROIZED 1).raise F.SEC_INT_STATUS.ZEROIZED).cnt k = s.cnt k := by
    rw [State.raise, State.setFld, State.cnt_setReg, State.setFld, State.cnt_setReg]
    exact hkeys.cnt k
  rw [State.zeroize_eq]
  refine ⟨?_, ?_, ?_, fun off h h' => ?_, fun k hk => ?_, counted_of_eq (counted_bump _ _) (hcnt _) rfl⟩
  · simpa using hkeys.und
  · simpa using hkeys.sys
  · simpa using hkeys.req
  · rw [State.reg_bump, State.raise, State.reg_setFld_ne _ _ _ _ h', State.reg_setFld_ne _ _ _ _ h]
    exact hkeys.reg off h
  · rw [State.cnt_bump_ne _ _ _ hk, hcnt]

/-- Slot 0, the KEKs and the service keys are erased, and slot 15 unless M10 is entered. -/
theorem State.zeroize_keys (s : State) (lockdown : Bool) (n : Nat) :
    (n ∈ zeroizedSlots lockdown → ((s.zeroize lockdown).mram.key n).occupied = false) ∧
      (n ∉ zeroizedSlots lockdown → (s.zeroize lockdown).mram.key n = s.mram.key n) := by
  obtain ⟨hclear, -⟩ := ({ s with und := { s.und with storageKey := false } } : State).clearKeyStores_keeps
  have hmram : (s.zeroize lockdown).mram = (s.wipeKeys lockdown).mram := by
    rw [State.zeroize_eq]
    simp
  rw [hmram]
  exact ⟨fun h => State.eraseAll_empty _ h, fun h => (State.eraseAll_others _ h).trans (by rw [hclear])⟩

end Sys2Proof.Machine
end

section
/-!
Signed commands and wrapped keys (O49).
-/

namespace Sys2Proof.Machine

open Sys2Proof.Safety

/-! ## What a command that passes runs on -/

section
variable {s u : State} {r : KReq} {i : Instr} {cmd out : Nat}

theorem State.asRole_good {slots : List Nat} {b : Signed} {act : Signed → State → Answer} (h : Serves s r i cmd out)
    (hcheck : s.checkSigned r.input cmd slots = (u, .good b)) : s.asRole r slots act = act b u := by
  obtain ⟨⟨-, -, hcmd⟩, -⟩ := h
  rw [State.asRole, hcmd, hcheck]

theorem State.asRole_bad {slots : List Nat} {c : Nat} {act : Signed → State → Answer} (h : Serves s r i cmd out)
    (hcheck : s.checkSigned r.input cmd slots = (s, .bad c)) : s.asRole r slots act = (s, c, []) := by
  obtain ⟨⟨-, -, hcmd⟩, -⟩ := h
  rw [State.asRole, hcmd, hcheck]

theorem State.asHolder_good {kind : Nat} {w : Wrapped} {act : Wrapped → State → Answer}
    (hcheck : s.unwrap r.input kind = (u, .good w)) : s.asHolder r.input kind act = act w u := by
  rw [State.asHolder, hcheck]

theorem State.asHolder_bad {kind c : Nat} {act : Wrapped → State → Answer} (hcheck : s.unwrap r.input kind = (s, .bad c)) :
    s.asHolder r.input kind act = (s, c, []) := by
  rw [State.asHolder, hcheck]

/-- What passed leaves the unit as it was but for the counter of the signer's slot. -/
theorem State.checkSigned_state {l : List Byte} {slots : List Nat} {b : Signed} (h : s.checkSigned l cmd slots = (u, .good b)) :
    u = s.storeCounter b.slot b.counter := by
  have houtcome := s.checkSigned_outcome l cmd slots
  rw [h] at houtcome
  exact houtcome.1

theorem State.checkSigned_bad {l : List Byte} {slots : List Nat} {c : Nat} (h : (s.checkSigned l cmd slots).2 = .bad c) :
    s.checkSigned l cmd slots = (s, .bad c) ∧ c < 4294967296 := by
  have houtcome := s.checkSigned_outcome l cmd slots
  generalize s.checkSigned l cmd slots = x at *
  obtain ⟨t, y⟩ := x
  subst h
  exact ⟨congrArg (·, Checked.bad c) houtcome.1, houtcome.2⟩

theorem State.unwrap_state {l : List Byte} {kind : Nat} {w : Wrapped} (h : s.unwrap l kind = (u, .good w)) :
    ∃ n, u = s.storeCounter w.kek n ∧ 16 ≤ w.kek ∧ w.kek < 32 ∧ mget 0 s.mram.counters w.kek < n := by
  have houtcome := s.unwrap_outcome l kind
  rw [h] at houtcome
  exact houtcome

theorem State.unwrap_bad {l : List Byte} {kind c : Nat} (h : (s.unwrap l kind).2 = .bad c) :
    s.unwrap l kind = (s, .bad c) ∧ c < 4294967296 := by
  have houtcome := s.unwrap_outcome l kind
  generalize s.unwrap l kind = x at *
  obtain ⟨t, y⟩ := x
  subst h
  exact ⟨congrArg (·, Checked.bad c) houtcome.1, houtcome.2⟩

/-- The modes that serve a command. -/
theorem State.kcMode_listed {l : List Nat} (h : s.kcMode cmd = true) (hl : kcModes cmd = some l) : s.sys.mode.num ∈ l := by
  unfold State.kcMode at h
  rw [hl] at h
  simp only [Bool.and_eq_true, List.contains_iff_mem] at h
  exact h.1.1

end

/-! ## Blocks and wraps that fail -/

/-- The signed commands: code, space for the output, and the slots of their role. -/
def signedBy (s : State) (i : Instr) : Option (Nat × Nat × List Nat) :=
  match i with
  | .genIdentity => some (0x10, 128, s.factorySlots ++ [2])
  | .installOwner => some (0x11, 0, s.factorySlots)
  | .provisionDone => some (0x12, 0, [2])
  | .loadClear => some (0x20, 0, [2])
  | .eraseSlot => some (0x22, 0, [2])
  | .setFloor => some (0x31, 0, [2])
  | .securityPolicy => some (0x33, 0, [2])
  | .modeAuth => some (0x40, 0, operatorSlots)
  | .admitStep => some (0x41, 0, operatorSlots)
  | .ringClear => some (0x42, 0, operatorSlots)
  | .zeroize => some (0x43, 0, 2 :: operatorSlots)
  | _ => none

/-- The commands that take a wrapped key: code, and kind of the wrap. -/
def wrappedAs (i : Instr) : Option (Nat × Nat) :=
  match i with
  | .loadWrapped => some (0x21, 0)
  | .installSak => some (0x23, 1)
  | .loadRsv => some (0x25, 2)
  | _ => none

/-- A signed command is served by what its block carries, as long as no zeroize is counted. -/
theorem exec_signedBy {s : State} {i : Instr} {cmd out : Nat} {slots : List Nat} (h : signedBy s i = some (cmd, out, slots)) :
    ∃ run : KReq → State → Answer, (∀ r, ∃ act, run r s = s.asRole r slots act) ∧
      ((s.keeper cmd out run).cnt R.SEC_U_ZEROIZES = s.cnt R.SEC_U_ZEROIZES → exec i s = .next (s.keeper cmd out run)) := by
  unfold signedBy at h
  split at h
  case h_11 => cases h; exact ⟨_, fun _ => ⟨_, rfl⟩, exec_zeroize_uncounted⟩
  case h_12 => cases h
  all_goals
    cases h
    exact ⟨_, fun _ => ⟨_, rfl⟩, fun _ => rfl⟩

theorem exec_wrappedAs {i : Instr} {cmd kind : Nat} (h : wrappedAs i = some (cmd, kind)) (s : State) :
    ∃ run : KReq → State → Answer, (∀ r, ∃ act, run r s = s.asHolder r.input kind act) ∧ exec i s = .next (s.keeper cmd 0 run) := by
  unfold wrappedAs at h
  split at h
  case h_4 => cases h
  all_goals
    cases h
    exact ⟨_, fun _ => ⟨_, rfl⟩, rfl⟩

theorem signed_fails {s : State} {r : KReq} {i : Instr} {cmd out c : Nat} {slots : List Nat} (h : signedBy s i = some (cmd, out, slots))
    (hs : Serves s r i cmd out) (hbad : (s.checkSigned r.input cmd slots).2 = .bad c) : Gives i s fun t => Answered s t r c [] := by
  obtain ⟨hcheck, hc⟩ := State.checkSigned_bad hbad
  obtain ⟨run, hrun, hexec⟩ := exec_signedBy h
  obtain ⟨act, hact⟩ := hrun r
  have hkeeper : s.keeper cmd out run = s.keeperDone r c [] := by rw [State.keeper_serves hs, hact, State.asRole_bad hs hcheck]
  rw [hkeeper] at hexec
  exact ⟨_, hexec (s.keeperDone_cnt r c [] (by decide)), s.keeperDone_refused r hc⟩

theorem wrapped_fails {s : State} {r : KReq} {i : Instr} {cmd kind c : Nat} (h : wrappedAs i = some (cmd, kind))
    (hs : Serves s r i cmd 0) (hbad : (s.unwrap r.input kind).2 = .bad c) : Gives i s fun t => Answered s t r c [] := by
  obtain ⟨hcheck, hc⟩ := State.unwrap_bad hbad
  obtain ⟨run, hrun, hexec⟩ := exec_wrappedAs h s
  obtain ⟨act, hact⟩ := hrun r
  exact gives_failed hexec hs (by rw [hact, State.asHolder_bad hcheck]) hc

/-! ## Identity, owner and provisioning (R547, R548) -/

theorem HoldsKey.answered {u t : State} {r : KReq} {res n kind origin : Nat} {out key : List Byte} (h : HoldsKey u n kind origin key)
    (ha : Answered u t r res out) : HoldsKey t n kind origin key := h.of_eq (ha.keySlot_eq n) (by rw [ha.mram_eq])

theorem newPrivate_length (s : State) : s.newPrivate.2.length = 32 := by
  simp [State.newPrivate, beBytes, leBytes_length]

section
variable {s u : State} {r : KReq} {b : Signed}

theorem genIdentity_gives (hs : Serves s r .genIdentity 0x10 128)
    (hc : s.checkSigned r.input 0x10 (s.factorySlots ++ [2]) = (u, .good b)) (hp : b.params = []) :
    Gives .genIdentity s fun t => Ended t r 0 ∧ t.flag F.SEC_STATUS.IDENTITY = true ∧
      ∃ k0 k15, HoldsKey t 0 3 0 k0 ∧ HoldsKey t 15 3 0 k15 := by
  let k0 := u.newPrivate
  let k15 := k0.1.newPrivate
  let v := k15.1.writeKey 0 3 0 k0.2
  let w := v.writeKey 15 3 0 k15.2
  have hv : HoldsKey v 0 3 0 k0.2 := State.writeKey_holds _ _ _ _ (by rw [newPrivate_length]; decide)
  have h15 : HoldsKey w 15 3 0 k15.2 := State.writeKey_holds _ _ _ _ (by rw [newPrivate_length]; decide)
  obtain ⟨hslot, hkey⟩ := v.writeKey_others 15 3 0 (key := k15.2) (m := 0) (by decide)
  have h0 : HoldsKey w 0 3 0 k0.2 := hv.of_eq hslot hkey
  refine gives_served rfl hs ((State.asRole_good hs hc).trans (if_neg (by simp [hp]))) ?_
  have ha := w.keeperDone_done r (ecPublic (beNat k0.2) ++ ecPublic (beNat k15.2))
  refine ⟨ha.ended, ?_, k0.2, k15.2, h0.answered ha, h15.answered ha⟩
  obtain ⟨hflag, -⟩ := v.writeKey_flags 15 3 0 (key := k15.2)
  obtain ⟨x0, hx0, -⟩ := h0
  obtain ⟨x15, hx15, -⟩ := h15
  rw [State.keeperDone_status _ _ _ _ rfl (by decide)]
  refine hflag.trans ?_
  rw [hx0, hx15]
  rfl

theorem ecPoint_length {key : List Byte} (h : ecPoint key ≠ none) : key.length = 64 := by
  by_contra hlen
  exact h (if_neg fun hall => hlen hall.1)

theorem installOwner_gives (hs : Serves s r .installOwner 0x11 0) (hc : s.checkSigned r.input 0x11 s.factorySlots = (u, .good b))
    (hp : ecPoint b.params ≠ none) : Gives .installOwner s fun t =>
      Ended t r 0 ∧ HoldsKey t 2 0 1 b.params ∧ t.flag F.SEC_STATUS.OWNER = true ∧ ∀ m, m ≠ 2 → t.keySlot m = s.keySlot m := by
  obtain rfl := State.checkSigned_state hc
  have h2 := State.writeKey_holds (s.storeCounter b.slot b.counter) 2 0 1 (key := b.params) (by rw [ecPoint_length hp])
  refine gives_served rfl hs ((State.asRole_good hs hc).trans (if_neg (by simpa using hp))) ?_
  have ha := State.keeperDone_done ((s.storeCounter b.slot b.counter).writeKey 2 0 1 b.params) r []
  refine ⟨ha.ended, h2.answered ha, ?_, fun m hm => (ha.keySlot_eq m).trans ?_⟩
  · obtain ⟨-, hflag⟩ := (s.storeCounter b.slot b.counter).writeKey_flags 2 0 1 (key := b.params)
    obtain ⟨x, hx, -⟩ := h2
    rw [State.keeperDone_status _ _ _ _ rfl (by decide)]
    refine hflag.trans ?_
    rw [hx]
    rfl
  · exact (State.writeKey_others _ _ _ _ hm).1

theorem provisionDone_gives (hs : Serves s r .provisionDone 0x12 0) (hc : s.checkSigned r.input 0x12 [2] = (u, .good b))
    (hp : b.params = []) (h0 : s.keySlot 0 ≠ none) (h15 : s.keySlot 15 ≠ none) (htrans : s.sys.trans = none) :
    Gives .provisionDone s fun t => Ended t r 0 ∧ t.sys = { s.sys with trans := some ⟨.commission, false, 13⟩ } := by
  obtain rfl := State.checkSigned_state hc
  have hmode : s.sys.mode ≠ .commission := by
    obtain ⟨-, -, hmode, -⟩ := hs
    have hnum := State.kcMode_listed hmode (l := [2]) rfl
    intro e
    rw [e] at hnum
    exact absurd hnum (by decide)
  refine gives_mono (gives_done (u := (s.storeCounter b.slot b.counter).beginTrans .commission 13) (o := []) rfl hs
    ((State.asRole_good hs hc).trans ?_)) fun t ha => ⟨ha.ended, ?_⟩
  · rw [if_neg (by simp [hp]), if_neg]
    simpa [State.keySlot, State.storeCounter] using And.intro h0 h15
  · obtain ⟨-, hsys⟩ := (s.storeCounter b.slot b.counter).beginTrans_frame .commission 13
    have hbegun := State.beginTrans_of_none (s := s.storeCounter b.slot b.counter) (m := .commission) htrans hmode 13
    rw [ha.sys_eq, hsys, hbegun]
    rfl

end

/-! ## Keys loaded and erased (R542, R549 to R552) -/

/-- A key that suits its slot is written there. -/
theorem State.putKey_suits (s : State) {n kind : Nat} (origin : Nat) {key : List Byte} (hn : n < 64) (htype : slotTakes n kind = true)
    (h0 : n ≠ 0) (h1 : n ≠ 1) (h15 : n ≠ 15) (hlen : keyLenOk kind key.length = true) (hpoint : kind = 0 → ecPoint key ≠ none) :
    s.putKey n kind origin key = (s.writeKey n kind origin key, 0, []) := by
  unfold State.putKey
  rw [if_neg (by omega), if_neg (by simp [htype, h0, h1, h15]), if_neg]
  simpa [hlen] using hpoint

theorem keyLenOk_le {kind n : Nat} (h : keyLenOk kind n = true) : n ≤ 64 := by
  unfold keyLenOk at h
  split at h <;> simp at h <;> omega

section
variable {s u : State} {r : KReq} {b : Signed} {w : Wrapped}

theorem loadClear_owner (hs : Serves s r .loadClear 0x20 0) (hc : s.checkSigned r.input 0x20 [2] = (u, .good b))
    (hlen : 4 ≤ b.params.length) (hzero : leAt b.params 2 2 = 0) (hn : leAt b.params 0 1 = 2) (hmode : s.sys.mode ≠ .commission) :
    Gives .loadClear s fun t => Ended t r 3 ∧ t.sec.slots = s.sec.slots := by
  obtain rfl := State.checkSigned_state hc
  refine gives_mono (gives_failed (u := s.storeCounter b.slot b.counter) (res := 3) rfl hs ((State.asRole_good hs hc).trans ?_) (by decide))
    fun t ha => ⟨ha.ended, ha.slots_eq⟩
  have hm : (s.storeCounter b.slot b.counter).sys.mode ≠ .commission := hmode
  dsimp only
  rw [if_neg (by simp [hzero, hlen]), if_pos (by simp [hn, hm])]

theorem loadClear_loads (hs : Serves s r .loadClear 0x20 0) (hc : s.checkSigned r.input 0x20 [2] = (u, .good b))
    (hlen : 4 ≤ b.params.length) (hzero : leAt b.params 2 2 = 0) (hmode : leAt b.params 0 1 = 2 → s.sys.mode = .commission)
    (hn : leAt b.params 0 1 < 64) (htype : slotTakes (leAt b.params 0 1) (leAt b.params 1 1) = true) (h0 : leAt b.params 0 1 ≠ 0)
    (h1 : leAt b.params 0 1 ≠ 1) (h15 : leAt b.params 0 1 ≠ 15)
    (hkey : keyLenOk (leAt b.params 1 1) (b.params.drop 4).length = true)
    (hpoint : leAt b.params 1 1 = 0 → ecPoint (b.params.drop 4) ≠ none) :
    Gives .loadClear s fun t => Ended t r 0 ∧ HoldsKey t (leAt b.params 0 1) (leAt b.params 1 1) 1 (b.params.drop 4) ∧
      ∀ m, m ≠ leAt b.params 0 1 → t.keySlot m = s.keySlot m := by
  obtain rfl := State.checkSigned_state hc
  have hm : leAt b.params 0 1 = 2 → (s.storeCounter b.slot b.counter).sys.mode = .commission := hmode
  refine gives_mono (gives_done (u := (s.storeCounter b.slot b.counter).writeKey (leAt b.params 0 1) (leAt b.params 1 1) 1
    (b.params.drop 4)) (o := []) rfl hs ((State.asRole_good hs hc).trans ?_)) fun t ha => ⟨ha.ended, ?_, fun m hm' => ?_⟩
  · dsimp only
    rw [if_neg (by simp [hzero, hlen]), if_neg (by simpa using hm)]
    exact State.putKey_suits _ 1 hn htype h0 h1 h15 hkey hpoint
  · exact (State.writeKey_holds _ _ _ _ (keyLenOk_le hkey)).answered ha
  · exact (ha.keySlot_eq m).trans (State.writeKey_others _ _ _ _ hm').1

theorem loadWrapped_role (hs : Serves s r .loadWrapped 0x21 0) (hc : s.unwrap r.input 0 = (u, .good w))
    (hlen : r.inLen = wrapLen r.input) (htarget : w.target < 512) (hn : w.target % 256 < 16) :
    Gives .loadWrapped s fun t => Ended t r 6 ∧ t.sec.slots = s.sec.slots := by
  obtain ⟨n, rfl, -⟩ := State.unwrap_state hc
  refine gives_mono (gives_failed (u := s.storeCounter w.kek n) (res := 6) rfl hs ((State.asHolder_good hc).trans ?_) (by decide))
    fun t ha => ⟨ha.ended, ha.slots_eq⟩
  dsimp only
  rw [if_neg (by simp [hlen, htarget]), if_pos hn]

/-- The kind of key that TARGET names, by its slot and bit 8. -/
def wrappedKind (target : Nat) : Nat := if target % 256 < 32 then 1 else if target < 256 then 2 else 3

theorem wrappedKind_eq {target : Nat} (h : target < 512) :
    (if target % 256 < 32 then 1 else if bitOf target 8 then 3 else 2) = wrappedKind target := by
  have hbit : bitOf target 8 = true ↔ ¬ target < 256 := by
    rw [bitOf, Nat.testBit_eq_decide_div_mod_eq, decide_eq_true_eq]
    omega
  unfold wrappedKind
  split
  · rfl
  · split <;> simp_all

theorem slotTakes_wrappedKind {target : Nat} (hlo : 16 ≤ target % 256) :
    slotTakes (target % 256) (wrappedKind target) = true := by
  have htype : slotType (target % 256) = if target % 256 < 32 then 1 else 2 := by
    unfold slotType
    rw [if_neg (by simp; omega), if_neg (by omega)]
  unfold slotTakes wrappedKind
  rw [htype]
  split_ifs <;> simp_all

theorem loadWrapped_loads (hs : Serves s r .loadWrapped 0x21 0) (hc : s.unwrap r.input 0 = (u, .good w))
    (hlen : r.inLen = wrapLen r.input) (htarget : w.target < 512) (hlo : 16 ≤ w.target % 256) (hhi : w.target % 256 < 64)
    (hkey : keyLenOk (wrappedKind w.target) w.key.length = true) :
    Gives .loadWrapped s fun t => Ended t r 0 ∧ HoldsKey t (w.target % 256) (wrappedKind w.target) 2 w.key ∧
      ∀ m, m ≠ w.target % 256 → t.keySlot m = s.keySlot m ∧ t.mram.key m = s.mram.key m := by
  obtain ⟨n, rfl, -⟩ := State.unwrap_state hc
  have hkind : wrappedKind w.target ≠ 0 := by unfold wrappedKind; split_ifs <;> decide
  refine gives_mono (gives_done (u := (s.storeCounter w.kek n).writeKey (w.target % 256) (wrappedKind w.target) 2 w.key) (o := []) rfl hs
    ((State.asHolder_good hc).trans ?_)) fun t ha => ⟨ha.ended, ?_, fun m hm => ?_⟩
  · dsimp only
    rw [if_neg (by simp [hlen, htarget]), if_neg (by omega), wrappedKind_eq htarget]
    exact State.putKey_suits _ 2 hhi (slotTakes_wrappedKind hlo) (by omega) (by omega) (by omega) hkey fun h => absurd h hkind
  · exact (State.writeKey_holds _ _ _ _ (keyLenOk_le hkey)).answered ha
  · obtain ⟨hslot, hmram⟩ := (s.storeCounter w.kek n).writeKey_others (w.target % 256) (wrappedKind w.target) 2 (key := w.key) hm
    exact ⟨(ha.keySlot_eq m).trans hslot, (congrArg (Mram.key · m) ha.mram_eq).trans hmram⟩

end

end Sys2Proof.Machine
end

section
/-!
Signed commands and wrapped keys (O49): slots erased, keys of ports and streams, floors, configuration, policy, authorities, ZEROIZE.
-/

namespace Sys2Proof.Machine

open Sys2Proof.Safety

section
variable {s u : State} {r : KReq} {b : Signed} {w : Wrapped}

/-! ## ERASE_SLOT (R549) -/

section
variable (hs : Serves s r .eraseSlot 0x22 0) (hc : s.checkSigned r.input 0x22 [2] = (u, .good b)) (hlen : b.params.length = 4)
  (hn : leAt b.params 0 4 < 64)
include hs hc hlen hn

theorem eraseSlot_erases (hheld : (s.mram.key (leAt b.params 0 4)).occupied = true) : Gives .eraseSlot s fun t =>
    Ended t r 0 ∧ t.keySlot (leAt b.params 0 4) = none ∧ (t.mram.key (leAt b.params 0 4)).occupied = false ∧
      ∀ m, m ≠ leAt b.params 0 4 → t.keySlot m = s.keySlot m ∧ t.mram.key m = s.mram.key m := by
  obtain rfl := State.checkSigned_state hc
  have hheld' : ((s.storeCounter b.slot b.counter).mram.key (leAt b.params 0 4)).occupied = true := hheld
  refine gives_mono (gives_done (u := (s.storeCounter b.slot b.counter).eraseSlot (leAt b.params 0 4)) (o := []) rfl hs
    ((State.asRole_good hs hc).trans ?_)) fun t ha => ⟨ha.ended, ?_, ?_, fun m hm => ⟨?_, ?_⟩⟩
  · dsimp only
    rw [if_neg (by simp [hlen, hn]), if_neg (by simp [hheld'])]
  · rw [ha.keySlot_eq, State.keySlot_eraseSlot, if_pos rfl]
  · rw [ha.mram_eq, State.mram_eraseSlot, Mram.eraseKey_empty]
  · rw [ha.keySlot_eq, State.keySlot_eraseSlot, if_neg hm]
    rfl
  · rw [ha.mram_eq, State.mram_eraseSlot, Mram.eraseKey_others _ hm]
    rfl

theorem eraseSlot_absent (hfree : (s.mram.key (leAt b.params 0 4)).occupied = false) : Gives .eraseSlot s fun t =>
    Ended t r 6 ∧ t.sec.slots = s.sec.slots := by
  obtain rfl := State.checkSigned_state hc
  have hfree' : ((s.storeCounter b.slot b.counter).mram.key (leAt b.params 0 4)).occupied = false := hfree
  refine gives_mono (gives_failed (u := s.storeCounter b.slot b.counter) (res := 6) rfl hs ((State.asRole_good hs hc).trans ?_) (by decide))
    fun t ha => ⟨ha.ended, ha.slots_eq⟩
  dsimp only
  rw [if_neg (by simp [hlen, hn]), if_pos (by simp [hfree'])]

end

/-! ## Keys of ports and of streams (R550, R552) -/

theorem installSak_installs (hs : Serves s r .installSak 0x23 0) (hc : s.unwrap r.input 1 = (u, .good w))
    (hlen : r.inLen = wrapLen r.input) {p ch an : Nat} (htarget : sakTarget w.target = some (p, ch, an)) (hkey : w.key.length = 32) :
    Gives .installSak s fun t => Ended t r 0 ∧ (t.port p).sas = dropSak (s.port p).sas ch an ++
      [{ rx := decide (ch ≠ 0), chan := ch - 1, an := an, key := BitVec.ofNat 256 (beNat w.key), nextPn := 1 }] := by
  obtain ⟨n, rfl, -⟩ := State.unwrap_state hc
  refine gives_mono (gives_done (u := (s.storeCounter w.kek n).setPort p { s.port p with sas := dropSak (s.port p).sas ch an ++
    [{ rx := decide (ch ≠ 0), chan := ch - 1, an := an, key := BitVec.ofNat 256 (beNat w.key), nextPn := 1 }] }) (o := []) rfl hs
    ((State.asHolder_good hc).trans ?_)) fun t ha => ⟨ha.ended, ?_⟩
  · dsimp only
    rw [htarget]
    exact if_neg (by simp [hkey, hlen])
  · rw [ha.port_eq, State.port_setPort, if_pos rfl]

/-- A key for a stream's datagrams; one shorter than 14 bytes is taken with RESULT 1 (R568). -/
theorem loadRsv_loads (hs : Serves s r .loadRsv 0x25 0) (hc : s.unwrap r.input 2 = (u, .good w))
    (hlen : r.inLen = wrapLen r.input + 4) (htarget : w.target < 128) (hsrc : leAt r.input (wrapLen r.input) 4 < 4096) :
    Gives .loadRsv s fun t => Ended t r (if w.key.length < 14 then 1 else 0) ∧
      mget none t.ing.rsvKeys w.target = some ⟨w.keyId, leAt r.input (wrapLen r.input) 4, w.key⟩ ∧
      ∀ j, j ≠ w.target → mget none t.ing.rsvKeys j = mget none s.ing.rsvKeys j := by
  obtain ⟨n, rfl, -⟩ := State.unwrap_state hc
  let v := (s.storeCounter w.kek n).setRsvKey w.target (some ⟨w.keyId, leAt r.input (wrapLen r.input) 4, w.key⟩)
  let v' := if w.key.length < 14 then v.bump R.SEC_U_NONAPPROVED else v
  have hing : v'.ing = v.ing := both_arms (fun x : State => x.ing = v.ing) (State.bump_ing _ _) rfl
  refine gives_mono (gives_failed (u := v') (res := if w.key.length < 14 then 1 else 0) rfl hs
    ((State.asHolder_good hc).trans ?_) (by split_ifs <;> decide)) fun t ha => ⟨ha.ended, ?_, fun j hj => ?_⟩
  · dsimp only
    rw [if_neg (by simp [hlen, htarget, hsrc])]
    dsimp only [v']
    split <;> rfl
  · rw [ha.ing_eq, hing, State.rsvKeys_setRsvKey, if_pos rfl]
  · rw [ha.ing_eq, hing, State.rsvKeys_setRsvKey, if_neg hj]
    rfl

/-! ## SET_FLOOR and COMMIT_CONFIG (R555 to R557) -/

theorem setFloor_sets (hs : Serves s r .setFloor 0x31 0) (hc : s.checkSigned r.input 0x31 [2] = (u, .good b))
    (hlen : b.params.length = 8) (hn : leAt b.params 0 4 ≤ 2) (hseq : leAt b.params 4 4 ≤ s.imageSeq (leAt b.params 0 4))
    (hfloor : mget 0 s.mram.floors (leAt b.params 0 4) ≤ leAt b.params 4 4) : Gives .setFloor s fun t => Ended t r 0 ∧
      mget 0 t.mram.floors (leAt b.params 0 4) = leAt b.params 4 4 ∧
      ∀ m, m ≠ leAt b.params 0 4 → mget 0 t.mram.floors m = mget 0 s.mram.floors m := by
  obtain rfl := State.checkSigned_state hc
  have hseq' : leAt b.params 4 4 ≤ (s.storeCounter b.slot b.counter).imageSeq (leAt b.params 0 4) := hseq
  have hfloor' : mget 0 (s.storeCounter b.slot b.counter).mram.floors (leAt b.params 0 4) ≤ leAt b.params 4 4 := hfloor
  refine gives_mono (gives_done (o := []) rfl hs ((State.asRole_good hs hc).trans (if_neg ?_))) fun t ha => ⟨ha.ended, ?_, fun m hm => ?_⟩
  · simp only [Bool.or_eq_true, decide_eq_true_eq]
    omega
  · rw [ha.mram_eq]
    exact (mget_mset _ _ _ _ _).trans (if_pos rfl)
  · rw [ha.mram_eq]
    exact (mget_mset _ _ _ _ _).trans (if_neg hm)

theorem commitConfig_unsigned (hs : Serves s r .commitConfig 0x32 0) (hservice : s.sys.mode ≠ .service) (hdegraded : s.sys.mode ≠ .degraded)
    (hlen : r.inLen = 0) : Gives .commitConfig s fun t => Ended t r 0 ∧ t.mram = s.copyConfig.mram := by
  refine gives_mono (gives_done (u := s.copyConfig.measureConfig) (o := []) rfl hs ?_) fun t ha => ⟨ha.ended, ha.mram_eq⟩
  exact (if_neg (by simp [hservice, hdegraded])).trans (if_pos hlen)

theorem commitConfig_signed (hs : Serves s r .commitConfig 0x32 0) (hmode : s.sys.mode = .service ∨ s.sys.mode = .degraded)
    (hc : s.checkSigned r.input 0x32 operatorSlots = (u, .good b)) (hp : b.params = []) :
    Gives .commitConfig s fun t => Ended t r 0 ∧ t.mram = u.copyConfig.mram := by
  refine gives_mono (gives_done (u := u.copyConfig.measureConfig) (o := []) rfl hs ?_) fun t ha => ⟨ha.ended, ha.mram_eq⟩
  refine (if_pos (by simpa using hmode)).trans ((State.asRole_good hs hc).trans (if_pos ?_))
  rw [hp]
  rfl

/-! ## SECURITY_POLICY (R561) -/

theorem securityPolicy_sets (hs : Serves s r .securityPolicy 0x33 0) (hc : s.checkSigned r.input 0x33 [2] = (u, .good b))
    (hlen : b.params.length = 12) (hgrade : leAt b.params 0 4 < 16384) (htemp : leAt b.params 4 4 < 65536) (hlo : 10 ≤ leAt b.params 8 4)
    (hhi : leAt b.params 8 4 ≤ 1000) (hthree : ∀ n < 7, bitsOf (leAt b.params 0 4) (2 * n + 1) (2 * n) ≠ 3)
    (hzero : ∀ n < 3, bitsOf (leAt b.params 0 4) (2 * n + 1) (2 * n) ≠ 0) : Gives .securityPolicy s fun t => Ended t r 0 ∧
      t.reg R.SEC_TAMPER_GRADE = BitVec.ofNat 32 (leAt b.params 0 4) ∧ t.reg R.SEC_TAMPER_TEMP = BitVec.ofNat 32 (leAt b.params 4 4) ∧
      t.reg R.SEC_REMASK = BitVec.ofNat 32 (leAt b.params 8 4) := by
  let v := ((u.setReg R.SEC_TAMPER_GRADE (w32 (leAt b.params 0 4))).setReg R.SEC_TAMPER_TEMP (w32 (leAt b.params 4 4))).setReg
    R.SEC_REMASK (w32 (leAt b.params 8 4))
  have hseven : (List.range 7).any (fun n => decide (bitsOf (leAt b.params 0 4) (2 * n + 1) (2 * n) = 3)) = false := by
    simpa using hthree
  have hthird : [0, 1, 2].any (fun n => decide (bitsOf (leAt b.params 0 4) (2 * n + 1) (2 * n) = 0)) = false := by
    simpa using ⟨hzero 0 (by decide), hzero 1 (by decide), hzero 2 (by decide)⟩
  have hreg {off : Nat} (h : offAnswer off) (h' : off ≠ R.SEC_STATUS) : (v.keeperDone r 0 []).reg off = v.reg off :=
    v.keeperDone_reg r 0 [] h h'
  refine gives_served (a := (v, 0, [])) rfl hs ((State.asRole_good hs hc).trans (if_neg ?_))
    ⟨(v.keeperDone_done r []).ended, (hreg (by decide) (by decide)).trans ?_, (hreg (by decide) (by decide)).trans ?_,
      (hreg (by decide) (by decide)).trans ?_⟩
  · rw [hseven, hthird]
    simp only [Bool.or_false, Bool.or_eq_true, decide_eq_true_eq]
    omega
  · simp [v, w32, R.SEC_TAMPER_GRADE, R.SEC_TAMPER_TEMP, R.SEC_REMASK]
  · simp [v, w32, R.SEC_TAMPER_TEMP, R.SEC_REMASK]
  · simp [v, w32]

/-! ## What an Operator authorises (R164, R541, R592) -/

theorem modeAuth_holds (hs : Serves s r .modeAuth 0x40 0) (hc : s.checkSigned r.input 0x40 operatorSlots = (u, .good b)) {x : Nat × Nat}
    (hx : authParams b.params = some x) : Gives .modeAuth s fun t =>
      Ended t r 0 ∧ t.sec.auths = s.sec.auths ++ [(x.1, x.2, s.now)] ∧ t.mr 6 = sha256 (s.mr 6 ++ b.digest) := by
  obtain rfl := State.checkSigned_state hc
  let v := s.storeCounter b.slot b.counter
  refine gives_mono (gives_done (u := ({ v with sec := { v.sec with auths := v.sec.auths ++ [(x.1, x.2, v.now)] } } : State).extend 6 b.digest)
    (o := []) rfl hs ((State.asRole_good hs hc).trans ?_)) fun t ha => ⟨ha.ended, ?_, ?_⟩
  · dsimp only
    rw [hx]
  · rw [ha.sec_eq]
    rfl
  · rw [ha.mr_eq]
    exact (mget_mset _ _ _ _ _).trans (if_pos rfl)

theorem admitStep_arms (hs : Serves s r .admitStep 0x41 0) (hc : s.checkSigned r.input 0x41 operatorSlots = (u, .good b))
    (hp : b.params = []) : Gives .admitStep s fun t =>
      Ended t r 0 ∧ t.flag F.TIM_STATUS.STEP_ARMED = true ∧ t.tim = { s.tim with armedAt := s.now } := by
  obtain rfl := State.checkSigned_state hc
  let v : State := { s.storeCounter b.slot b.counter with tim := { s.tim with armedAt := s.now } }
  let w := v.setFld F.TIM_STATUS.STEP_ARMED 1
  have ha := (w.extend 6 b.digest).keeperDone_done r []
  have hreg := State.keeperDone_reg (w.extend 6 b.digest) r 0 [] (off := R.TIM_STATUS) (by decide) (by decide)
  have harmed : w.flag F.TIM_STATUS.STEP_ARMED = true := State.flag_setFld_same (s := v) true (by decide) rfl
  refine gives_served rfl hs ((State.asRole_good hs hc).trans (if_neg (by simp [hp]))) ⟨ha.ended, ?_, ?_⟩
  · exact (State.flag_congr (f := F.TIM_STATUS.STEP_ARMED) hreg).trans harmed
  · exact ha.tim_eq.trans (State.setFld_tim v _ _)

theorem ringClear_starts (hs : Serves s r .ringClear 0x42 0) (hc : s.checkSigned r.input 0x42 operatorSlots = (u, .good b))
    (hlen : b.params.length = 8) (hhead : leNat b.params = (s.cnt R.UND_RL_HEAD).toNat) (hfree : s.und.clearing = none) :
    Gives .ringClear s fun t => Ended t r 0 ∧ t.und = { s.und with
      clearing := some (b.params ++ leBytes 4 b.slot ++ leBytes 8 b.counter ++ b.digest.take 8) } := by
  obtain rfl := State.checkSigned_state hc
  have hhead' : leNat b.params = ((s.storeCounter b.slot b.counter).cnt R.UND_RL_HEAD).toNat := hhead
  have hfree' : (s.storeCounter b.slot b.counter).und.clearing = none := hfree
  exact gives_mono (gives_done (o := []) rfl hs ((State.asRole_good hs hc).trans (if_neg (by simp [hlen, hhead', hfree']))))
    fun t ha => ⟨ha.ended, ha.und_eq⟩

/-! ## ZEROIZE (R563) -/

theorem State.unitReset_und (s : State) (cause : Option Nat) (step : Nat) : (s.unitReset cause step).und = s.und :=
  State.dropLines_keeps (·.und) State.emit_und _ s

/-- A zeroize that is counted ends with a unit reset of cause 5, where the mode lets one be made. -/
theorem exec_zeroize_counted {s : State} (hcnt : s.serveZeroize.cnt R.SEC_U_ZEROIZES ≠ s.cnt R.SEC_U_ZEROIZES)
    (hmay : s.serveZeroize.mayReset = true) : exec .zeroize s = .next (s.serveZeroize.commandedReset 5) := by
  have hdone : decide (s.cnt R.SEC_U_ZEROIZES ≠ s.serveZeroize.cnt R.SEC_U_ZEROIZES) = true := by simp [Ne.symm hcnt]
  show Host.Outcome.next (if decide (s.cnt R.SEC_U_ZEROIZES ≠ s.serveZeroize.cnt R.SEC_U_ZEROIZES) && s.serveZeroize.mayReset
    then s.serveZeroize.commandedReset 5 else s.serveZeroize) = _
  rw [hdone, hmay]
  rfl

theorem State.mayReset_congr {s t : State} (hsys : t.sys = s.sys) (hmode : s.sys.mode ≠ .lockdown) : t.mayReset = s.mayReset := by
  unfold State.mayReset
  rw [hsys]
  cases h : s.sys.mode with
  | lockdown => exact absurd h hmode
  | _ => rfl

theorem zeroize_resets (hs : Serves s r .zeroize 0x43 0) (hc : s.checkSigned r.input 0x43 (2 :: operatorSlots) = (u, .good b))
    (hp : b.params = []) (hcount : (s.cnt R.SEC_U_ZEROIZES).toNat < 18446744073709551615) (hmay : s.mayReset = true) :
    Gives .zeroize s fun t => (∀ n, n = 0 ∨ (15 ≤ n ∧ n < 64) → (t.mram.key n).occupied = false) ∧
      (∀ n, 1 ≤ n → n < 15 → t.mram.key n = s.mram.key n) ∧ t.und.storageKey = false ∧ t.sys.mode = .boot ∧
      t.fld F.SYS_RESET_CAUSE.CAUSE = 5 := by
  obtain rfl := State.checkSigned_state hc
  have hmode : s.sys.mode ≠ .lockdown := by
    obtain ⟨-, -, hmode, -⟩ := hs
    have hnum := State.kcMode_listed hmode (l := [2, 3, 4, 5, 6, 7, 8, 9]) rfl
    intro e
    rw [e] at hnum
    exact absurd hnum (by decide)
  let v := (s.storeCounter b.slot b.counter).extend 6 b.digest
  obtain ⟨hund, hsys, -, -, -, hcounted⟩ := v.zeroize_frame false
  have hserve : s.serveZeroize = (v.zeroize false).keeperDone r 0 [] := by
    have hslots : officerSlots ++ operatorSlots = 2 :: operatorSlots := rfl
    rw [State.serveZeroize, State.keeper_serves hs, hslots, State.asRole_good hs hc, if_pos (List.isEmpty_iff.mpr hp)]
  have ha := (v.zeroize false).keeperDone_done r []
  rw [← hserve] at ha
  have hsys' : s.serveZeroize.sys = s.sys := ha.sys_eq.trans hsys
  have hcnt : s.serveZeroize.cnt R.SEC_U_ZEROIZES ≠ s.cnt R.SEC_U_ZEROIZES := by
    rw [hserve, State.keeperDone_cnt _ _ _ _ (by decide)]
    have hv : v.cnt R.SEC_U_ZEROIZES = s.cnt R.SEC_U_ZEROIZES := rfl
    intro e
    rw [Counted, e, hv] at hcounted
    omega
  have hmode' : s.serveZeroize.sys.mode ≠ .lockdown := by rw [hsys']; exact hmode
  have hreset : s.serveZeroize.commandedReset 5 = s.serveZeroize.unitReset (some 5) 1 := if_neg hmode'
  refine ⟨_, exec_zeroize_counted hcnt ((State.mayReset_congr hsys' hmode).trans hmay), ?_⟩
  dsimp only
  rw [hreset, State.unitReset_mram, ha.mram_eq, State.unitReset_und, ha.und_eq, hund, State.unitReset_sys]
  refine ⟨fun n hn => (v.zeroize_keys false n).1 ?_, fun n hlo hhi => (v.zeroize_keys false n).2 ?_, rfl, rfl,
    State.unitReset_cause _ (by decide) _⟩
  · simp only [mem_zeroizedSlots, true_and]
    omega
  · simp only [mem_zeroizedSlots, true_and]
    omega

end

/-! ## All clauses -/

/-- What passes as a given command is a block that its check finds good. -/
theorem signed_inv {s : State} {r : KReq} {i : Instr} {cmd out : Nat} {slots : List Nat} {b : Signed} {sig : Option (Nat × Nat × List Nat)}
    (hsig : sig = some (cmd, out, slots)) (h : ∃ cmd' out' slots' u, sig = some (cmd', out', slots') ∧ Serves s r i cmd' out' ∧
      s.checkSigned r.input cmd' slots' = (u, .good b)) :
    Serves s r i cmd out ∧ ∃ u, s.checkSigned r.input cmd slots = (u, .good b) := by
  obtain ⟨cmd', out', slots', u, hsig', hs, hc⟩ := h
  rw [hsig] at hsig'
  cases hsig'
  exact ⟨hs, u, hc⟩

theorem wrapped_inv {s : State} {r : KReq} {i : Instr} {cmd kind : Nat} {w : Wrapped} {wrap : Option (Nat × Nat)}
    (hwrap : wrap = some (cmd, kind)) (h : ∃ cmd' kind' u, wrap = some (cmd', kind') ∧ Serves s r i cmd' 0 ∧
      s.unwrap r.input kind' = (u, .good w) ∧ r.inLen = wrapLen r.input) :
    Serves s r i cmd 0 ∧ ∃ u, s.unwrap r.input kind = (u, .good w) ∧ r.inLen = wrapLen r.input := by
  obtain ⟨cmd', kind', u, hwrap', hs, hc⟩ := h
  rw [hwrap] at hwrap'
  cases hwrap'
  exact ⟨hs, u, hc⟩

theorem checkSigned_passes {s u : State} {l : List Byte} {cmd : Nat} {slots : List Nat} {b : Signed}
    (h : s.checkSigned l cmd slots = (u, .good b)) :
    b.slot ∈ slots ∧ mget 0 s.mram.counters b.slot < b.counter ∧ mget 0 u.mram.counters b.slot = b.counter ∧
      b.digest = sha256 (l.take (0x40 + b.params.length)) ∧ slice l 0x10 16 = leBytes 16 s.mram.serial.toNat ∧
      ∃ k, s.slotKey b.slot = some k ∧ ecdsaVerify k b.digest (l.drop (0x40 + b.params.length)) = true := by
  have houtcome := s.checkSigned_outcome l cmd slots
  rw [h] at houtcome
  obtain ⟨rfl, hslot, hcount, hrest⟩ := houtcome
  exact ⟨hslot, hcount, s.counter_storeCounter _ _, hrest⟩

theorem unwrap_passes {s u : State} {l : List Byte} {kind : Nat} {w : Wrapped} (h : s.unwrap l kind = (u, .good w)) :
    16 ≤ w.kek ∧ w.kek < 32 ∧ mget 0 s.mram.counters w.kek < mget 0 u.mram.counters w.kek := by
  obtain ⟨n, rfl, hlo, hhi, hcount⟩ := State.unwrap_state h
  exact ⟨hlo, hhi, by rw [State.counter_storeCounter]; exact hcount⟩

/-- Settles O49: a check that fails changes nothing, and each command that passes does its own work on the state it was checked in. -/
theorem signedCommands : Obligations.SignedCommands := by
  intro s r signer wrapped passes opens holds others
  refine ⟨fun cmd slots u b h => checkSigned_passes h, fun i cmd out slots c hsig hs hbad => signed_fails (i := i) hsig hs hbad,
    fun i cmd kind c hwrap hs hbad => wrapped_fails (i := i) hwrap hs hbad, ?_, ?_, ?_, ?_, ?_, ?_, ?_,
    fun w kind u h => unwrap_passes h, fun w u hs hc => loadRsv_loads hs hc, ?_,
    fun hs => ⟨commitConfig_unsigned hs, fun b u hmode => commitConfig_signed hs hmode⟩, ?_, ?_, ?_, ?_, ?_⟩
  · intro b h
    obtain ⟨hs, u, hc⟩ := signed_inv rfl h
    exact genIdentity_gives hs hc
  · intro b h
    obtain ⟨hs, u, hc⟩ := signed_inv rfl h
    exact installOwner_gives hs hc
  · intro b h
    obtain ⟨hs, u, hc⟩ := signed_inv rfl h
    exact provisionDone_gives hs hc
  · intro b h hlen hzero
    obtain ⟨hs, u, hc⟩ := signed_inv rfl h
    exact ⟨loadClear_owner hs hc hlen hzero, loadClear_loads hs hc hlen hzero⟩
  · intro w h htarget
    obtain ⟨hs, u, hc, hlen⟩ := wrapped_inv rfl h
    exact ⟨loadWrapped_role hs hc hlen htarget, loadWrapped_loads hs hc hlen htarget⟩
  · intro b h hlen hn
    obtain ⟨hs, u, hc⟩ := signed_inv rfl h
    exact ⟨eraseSlot_erases hs hc hlen hn, eraseSlot_absent hs hc hlen hn⟩
  · intro w p ch an h
    obtain ⟨hs, u, hc, hlen⟩ := wrapped_inv rfl h
    exact installSak_installs hs hc hlen
  · intro b h
    obtain ⟨hs, u, hc⟩ := signed_inv rfl h
    exact setFloor_sets hs hc
  · intro b h
    obtain ⟨hs, u, hc⟩ := signed_inv rfl h
    exact securityPolicy_sets hs hc
  · intro b x h
    obtain ⟨hs, u, hc⟩ := signed_inv rfl h
    exact modeAuth_holds hs hc
  · intro b h
    obtain ⟨hs, u, hc⟩ := signed_inv rfl h
    exact admitStep_arms hs hc
  · intro b h
    obtain ⟨hs, u, hc⟩ := signed_inv rfl h
    exact ringClear_starts hs hc
  · intro b h
    obtain ⟨hs, u, hc⟩ := signed_inv rfl h
    exact zeroize_resets hs hc

end Sys2Proof.Machine
end

section
/-!
What the Keeper does unasked (O50): authorities that lapse, re-masking, tamper, and the end of a Ring Log clear.
-/

namespace Sys2Proof.Machine

open Sys2Proof.Safety

/-! ## Re-masking (R544) -/

section
variable {s : State} {dt n : Nat} {k : KeyShares}

/-- The visit of a slot counted, as a late one where two periods have passed. -/
def State.visitCounted (s : State) (k : KeyShares) : State :=
  let u := s.bump R.SEC_U_REMASKS
  if 2 * (s.fld F.SEC_REMASK.MS * 1200000) < u.now - k.visited then u.bump R.SEC_U_REMASK_LATE else u

/-- A slot takes new shares of its key. -/
def State.remasked (s : State) (n : Nat) (k : KeyShares) : State :=
  let r := s.newShares k.key k.kind k.origin
  r.1.setKeySlot n (some r.2)

theorem exec_remask (hnext : (s.elapse dt).nextVisit = some (n, k)) (hup : s.keeperUp = true) : exec (.remask dt) s =
    .next (if s.now + dt - k.visited < s.fld F.SEC_REMASK.MS * 1200000 then s.elapse dt else ((s.elapse dt).visitCounted k).remasked n k) := by
  have hup' : (s.elapse dt).keeperUp = true := hup
  show execRemask dt s = _
  unfold execRemask
  dsimp only
  rw [hnext]
  dsimp only
  rw [hup']
  by_cases hdue : s.now + dt - k.visited < s.fld F.SEC_REMASK.MS * 1200000
  · rw [if_pos hdue]
    exact if_pos (Bool.or_eq_true_iff.mpr (.inl (decide_eq_true hdue)))
  · rw [if_neg hdue]
    refine (if_neg ?_).trans (by rw [State.remasked, State.visitCounted])
    rw [Bool.not_true, Bool.or_false, decide_eq_true_eq]
    exact hdue

theorem State.visitCounted_counts (s : State) (k : KeyShares) : Counted s (s.visitCounted k) R.SEC_U_REMASKS 1 ∧
    (s.visitCounted k).sec = s.sec ∧ (s.visitCounted k).now = s.now := by
  unfold State.visitCounted
  extract_lets u
  have hu : Counted s u R.SEC_U_REMASKS 1 ∧ u.sec = s.sec ∧ u.now = s.now :=
    ⟨counted_bump s R.SEC_U_REMASKS, State.bump_sec _ _, State.bump_now _ _⟩
  obtain ⟨hcounted, hsec, hnow⟩ := hu
  clear_value u
  have hlate : (u.bump R.SEC_U_REMASK_LATE).cnt R.SEC_U_REMASKS = u.cnt R.SEC_U_REMASKS := State.cnt_bump_ne _ _ _ (by decide)
  exact both_arms (fun t : State => Counted s t R.SEC_U_REMASKS 1 ∧ t.sec = s.sec ∧ t.now = s.now)
    ⟨counted_of_eq hcounted rfl hlate, (State.bump_sec _ _).trans hsec, (State.bump_now _ _).trans hnow⟩ ⟨hcounted, hsec, hnow⟩

/-- New shares make the key they were drawn for, and no other slot is touched. -/
theorem State.remasked_masks (s : State) (n : Nat) {k : KeyShares} (hlen : k.key.length ≤ 64) :
    (∀ j, (s.remasked n k).cnt j = s.cnt j) ∧
      (∃ k', (s.remasked n k).keySlot n = some k' ∧ k'.key = k.key ∧ k'.kind = k.kind ∧ k'.origin = k.origin ∧ k'.visited = s.now) ∧
      ∀ j, j ≠ n → (s.remasked n k).keySlot j = s.keySlot j := by
  unfold State.remasked
  extract_lets r
  have hshares (j : Nat) : r.1.cnt j = s.cnt j :=
    (congrArg (fun t : State => t.cnt j) (s.newShares_state k.key k.kind k.origin)).trans (by rw [State.cnt, State.cnt])
  have hput (j : Nat) : (r.1.setKeySlot n (some r.2)).cnt j = r.1.cnt j := by rw [State.setKeySlot, State.cnt, State.cnt]
  exact ⟨fun j => (hput j).trans (hshares j),
    ⟨r.2, (State.keySlot_setKeySlot r.1 n _ n).trans (if_pos rfl), s.newShares_key _ _ hlen, rfl, rfl, rfl⟩,
    fun j hj => (State.keySlot_setKeySlot r.1 n _ j).trans (if_neg hj)⟩

theorem remask_waits (hnext : (s.elapse dt).nextVisit = some (n, k)) (hup : s.keeperUp = true)
    (hearly : s.now + dt - k.visited < s.fld F.SEC_REMASK.MS * 1200000) : Gives (.remask dt) s fun t => t = s.elapse dt :=
  ⟨_, (exec_remask hnext hup).trans (congrArg Host.Outcome.next (if_pos hearly)), rfl⟩

theorem remask_masks (hnext : (s.elapse dt).nextVisit = some (n, k)) (hup : s.keeperUp = true)
    (hdue : s.fld F.SEC_REMASK.MS * 1200000 ≤ s.now + dt - k.visited) (hlen : k.key.length ≤ 64) : Gives (.remask dt) s fun t =>
      Counted s t R.SEC_U_REMASKS 1 ∧
      (∃ k', t.keySlot n = some k' ∧ k'.key = k.key ∧ k'.kind = k.kind ∧ k'.origin = k.origin ∧ k'.visited = s.now + dt) ∧
      ∀ j, j ≠ n → t.keySlot j = s.keySlot j := by
  obtain ⟨hcounted, hsec, hnow⟩ := (s.elapse dt).visitCounted_counts k
  obtain ⟨hcnt, ⟨k', hk', hkey, hkind, horigin, hvisited⟩, hothers⟩ := ((s.elapse dt).visitCounted k).remasked_masks n hlen
  refine ⟨_, (exec_remask hnext hup).trans (congrArg Host.Outcome.next (if_neg (by omega))), counted_of_eq hcounted rfl (hcnt _),
    ⟨k', hk', hkey, hkind, horigin, hvisited.trans hnow⟩, fun j hj => (hothers j hj).trans ?_⟩
  exact congrArg (fun x : Sec => mget none x.slots j) hsec

end

/-! ## One-bit fields of the tamper latch -/

theorem State.testBit_setFld_bit (s : State) (off : Nat) {b : Nat} (hb : b < 32) (x : Bool) (i : Nat) :
    ((s.setFld ⟨off, b, b⟩ x.toNat).reg off).toNat.testBit i = if i = b then x else (s.reg off).toNat.testBit i := by
  have hlt := putBits_lt (s.reg off).toNat b b x.toNat 32 hb (s.reg off).isLt
  rw [State.setFld, State.reg_setReg, if_pos rfl, w32, BitVec.toNat_ofNat, Nat.mod_eq_of_lt hlt, testBit_putBits_one]

theorem tamperSensorClear_clears (s : State) (n : Fin 7) : Gives (.tamperSensorClear n) s fun t =>
    t.reg R.SEC_TAMPER_LATCH = s.reg R.SEC_TAMPER_LATCH &&& ~~~(BitVec.ofNat 32 (256 * 2 ^ n.val)) ∧
    ∀ off, off ≠ R.SEC_TAMPER_LATCH → t.reg off = s.reg off := by
  refine ⟨_, rfl, BitVec.eq_of_getLsbD_eq fun i hi => ?_, fun off hoff => State.reg_setFld_ne _ _ _ _ hoff⟩
  have hmask : 256 * 2 ^ n.val = 2 ^ (8 + n.val) := by rw [Nat.pow_add]
  have hbit := s.testBit_setFld_bit R.SEC_TAMPER_LATCH (b := 8 + n.val) (by omega) false i
  rw [BitVec.getLsbD_and, BitVec.getLsbD_not, BitVec.getLsbD_ofNat, hmask, Nat.testBit_two_pow]
  refine hbit.trans ?_
  by_cases h : i = 8 + n.val
  · simp [h]
  · rw [if_neg h]
    simp [hi, Ne.symm h, BitVec.getLsbD]

/-! ## A sensor that fires (R560) -/

/-- The sensor latched, recorded in the Ring Log and counted. -/
def State.tamperCounted (s : State) (n : Fin 7) : State :=
  (((s.raise ⟨R.SEC_TAMPER_LATCH, n.val, n.val⟩).raise ⟨R.SEC_TAMPER_LATCH, 8 + n.val, 8 + n.val⟩).ringLog 0x0007 0xFF
    (leBytes 1 n.val ++ leBytes 1 (s.tamperGrade n.val) ++ leBytes 6 0 ++ leBytes 8 (packCal s.und.cal s.subsec s.und.invalid))).bump
    R.SEC_U_TAMPER_EVENTS

/-- An event kept for MR7. -/
def State.noteTamper (s : State) (m : Nat × Nat × Nat) : State := { s with sec := { s.sec with mr7 := s.sec.mr7 ++ [m] } }

/-- The interrupt, the record for MR7 and the wake event follow the count. -/
def State.tamperNoted (s : State) (n : Fin 7) : State :=
  let u := (s.tamperCounted n).raise F.SEC_INT_STATUS.TAMPER
  let m := (n.val, s.tamperGrade n.val, packCal s.und.cal s.subsec s.und.invalid)
  let v := (u.noteTamper m).measureTamper
  if s.tamperGrade n.val = 0 then v.wakeEvent 3 else v

theorem exec_tamperFire (n : Fin 7) (s : State) :
    exec (.tamperFire n) s = .next ((s.tamperNoted n).tamperAbort.tamperAct (s.tamperGrade n.val)) := by
  show execTamperFire n s = _
  rw [execTamperFire, State.tamperNoted, State.noteTamper, State.tamperCounted]

theorem State.tamperCounted_core (s : State) (n : Fin 7) :
    (s.tamperCounted n).sys = s.sys ∧ (s.tamperCounted n).mram = s.mram ∧ (s.tamperCounted n).sec = s.sec := by
  simp [State.tamperCounted]

theorem State.tamperCounted_counted (s : State) (n : Fin 7) : Counted s (s.tamperCounted n) R.SEC_U_TAMPER_EVENTS 1 := by
  refine counted_of_eq (counted_bump _ _) ((State.ringLog_cnt _ _ _ _ (by decide)).trans ?_) rfl
  rw [State.raise, State.setFld, State.cnt_setReg, State.raise, State.setFld, State.cnt_setReg]

theorem State.tamperCounted_latched (s : State) (n : Fin 7) :
    ((s.tamperCounted n).reg R.SEC_TAMPER_LATCH).toNat.testBit n.val = true ∧
      ((s.tamperCounted n).reg R.SEC_TAMPER_LATCH).toNat.testBit (8 + n.val) = true := by
  let u := s.raise ⟨R.SEC_TAMPER_LATCH, n.val, n.val⟩
  have hreg : (s.tamperCounted n).reg R.SEC_TAMPER_LATCH =
      (u.raise ⟨R.SEC_TAMPER_LATCH, 8 + n.val, 8 + n.val⟩).reg R.SEC_TAMPER_LATCH :=
    (State.reg_bump _ _ _).trans (State.reg_ringLog _ _ _ _ (by decide))
  have hfired := s.testBit_setFld_bit R.SEC_TAMPER_LATCH (b := n.val) (by omega) true n.val
  have hnow := u.testBit_setFld_bit R.SEC_TAMPER_LATCH (b := 8 + n.val) (by omega) true
  rw [if_pos rfl] at hfired
  rw [hreg]
  exact ⟨(hnow n.val).trans ((if_neg (by omega)).trans hfired), (hnow (8 + n.val)).trans (if_pos rfl)⟩

/-- FIRED and NOW of the sensors stand, with the count of events. -/
structure SensorsStand (s t : State) : Prop where
  fired : t.fld F.SEC_TAMPER_LATCH.FIRED = s.fld F.SEC_TAMPER_LATCH.FIRED
  now : t.fld F.SEC_TAMPER_LATCH.NOW = s.fld F.SEC_TAMPER_LATCH.NOW
  events : t.cnt R.SEC_U_TAMPER_EVENTS = s.cnt R.SEC_U_TAMPER_EVENTS

theorem SensorsStand.refl (s : State) : SensorsStand s s := ⟨rfl, rfl, rfl⟩

theorem SensorsStand.trans {s t u : State} (a : SensorsStand s t) (b : SensorsStand t u) : SensorsStand s u :=
  ⟨b.fired.trans a.fired, b.now.trans a.now, b.events.trans a.events⟩

theorem SensorsStand.of_eq {s t : State} (hreg : t.reg R.SEC_TAMPER_LATCH = s.reg R.SEC_TAMPER_LATCH)
    (hcnt : t.cnt R.SEC_U_TAMPER_EVENTS = s.cnt R.SEC_U_TAMPER_EVENTS) : SensorsStand s t :=
  ⟨State.fld_congr hreg, State.fld_congr hreg, hcnt⟩

/-- A sensor counted reads as fired and firing, whatever follows that lets the sensors stand. -/
theorem State.tamperCounted_shows {s t : State} {n : Fin 7} (h : SensorsStand (s.tamperCounted n) t) :
    bitOf (t.fld F.SEC_TAMPER_LATCH.FIRED) n.val = true ∧ bitOf (t.fld F.SEC_TAMPER_LATCH.NOW) n.val = true ∧
      Counted s t R.SEC_U_TAMPER_EVENTS 1 := by
  obtain ⟨hfired, hnow⟩ := s.tamperCounted_latched n
  have hn : n.val < 7 := n.isLt
  refine ⟨?_, ?_, counted_of_eq (s.tamperCounted_counted n) rfl h.events⟩
  · rw [h.fired, bitOf, State.fld, testBit_bitsOf, Bool.and_eq_true_iff]
    exact ⟨decide_eq_true hn, (Nat.zero_add n.val).symm ▸ hfired⟩
  · rw [h.now, bitOf, State.fld, testBit_bitsOf, Bool.and_eq_true_iff]
    exact ⟨decide_eq_true hn, hnow⟩

/-! ## What the notes, an aborted command and a grade leave alone -/

/-- Mode control, MRAM, the key slots and the request stand, with the sensors. -/
structure KeepsKeys (s t : State) : Prop where
  sensors : SensorsStand s t
  sys : t.sys = s.sys
  mram : t.mram = s.mram
  slots : t.sec.slots = s.sec.slots
  req : t.sec.req = s.sec.req

theorem KeepsKeys.trans {s t u : State} (a : KeepsKeys s t) (b : KeepsKeys t u) : KeepsKeys s u :=
  ⟨a.sensors.trans b.sensors, b.sys.trans a.sys, b.mram.trans a.mram, b.slots.trans a.slots, b.req.trans a.req⟩

theorem State.raise_keepsKeys (s : State) {f : Fld} (h : R.SEC_TAMPER_LATCH ≠ f.off) : KeepsKeys s (s.raise f) :=
  ⟨SensorsStand.of_eq (State.reg_setFld_ne _ _ _ _ h) (State.cnt_setReg _ _ _ _), by simp, by simp, by simp, by simp⟩

theorem State.noteTamper_keepsKeys (s : State) (m : Nat × Nat × Nat) : KeepsKeys s (s.noteTamper m) :=
  ⟨SensorsStand.of_eq rfl rfl, rfl, rfl, rfl, rfl⟩

theorem State.measureTamper_keepsKeys (s : State) : KeepsKeys s s.measureTamper := by
  have hrefl : KeepsKeys s s := ⟨SensorsStand.refl s, rfl, rfl, rfl, rfl⟩
  unfold State.measureTamper
  extract_lets u sec
  have hu : KeepsKeys s u := List.foldlRecOn _ _ (motive := KeepsKeys s) hrefl
    fun t ht m _ => ht.trans ⟨SensorsStand.of_eq rfl rfl, rfl, rfl, rfl, rfl⟩
  exact both_arms (KeepsKeys s) hrefl (hu.trans ⟨SensorsStand.of_eq rfl rfl, rfl, rfl, rfl, rfl⟩)

theorem State.wakeEvent_keepsKeys (s : State) (code : Nat) : KeepsKeys s (s.wakeEvent code) := by
  obtain ⟨-, hsys, -, -⟩ := s.wakeEvent_steady code
  exact ⟨SensorsStand.of_eq (s.wakeEvent_reg code (by decide)) (s.wakeEvent_cnt code _), hsys,
    State.wakeEvent_keeps (·.mram) (fun t k v _ => State.setFld_mram t _ _) s code,
    State.wakeEvent_keeps (·.sec.slots) (fun t k v _ => by simp) s code,
    State.wakeEvent_keeps (·.sec.req) (fun t k v _ => by simp) s code⟩

theorem State.tamperNoted_keepsKeys (s : State) (n : Fin 7) : KeepsKeys (s.tamperCounted n) (s.tamperNoted n) := by
  unfold State.tamperNoted
  extract_lets u m v
  have hraised : KeepsKeys (s.tamperCounted n) u := State.raise_keepsKeys _ (by decide)
  have hv : KeepsKeys (s.tamperCounted n) v :=
    (hraised.trans (u.noteTamper_keepsKeys m)).trans (State.measureTamper_keepsKeys _)
  exact both_arms (KeepsKeys (s.tamperCounted n)) (hv.trans (v.wakeEvent_keepsKeys 3)) hv

/-- With no request nothing is aborted. -/
theorem State.tamperAbort_idle {s : State} (h : s.sec.req = none) : s.tamperAbort = s := by
  rw [State.tamperAbort, h]

/-- An aborted command erases slots and ends: mode control and the sensors stand. -/
theorem State.tamperAbort_keeps (s : State) : s.tamperAbort.sys = s.sys ∧ SensorsStand s s.tamperAbort := by
  unfold State.tamperAbort
  split
  · exact ⟨rfl, SensorsStand.refl s⟩
  next r _ =>
    extract_lets l
    have herase : KeysOnly s (s.eraseAll l) := s.eraseAll_keysOnly l
    obtain ⟨-, hsys, -, -⟩ := (s.eraseAll l).keeperDone_steady r 7 []
    have hreg := (s.eraseAll l).keeperDone_reg r 7 [] (off := R.SEC_TAMPER_LATCH) (by decide) (by decide)
    have hcnt := (s.eraseAll l).keeperDone_cnt r 7 [] (k := R.SEC_U_TAMPER_EVENTS) (by decide)
    exact both_arms (fun t : State => t.sys = s.sys ∧ SensorsStand s t) ⟨rfl, SensorsStand.refl s⟩
      ⟨hsys.trans herase.sys, SensorsStand.of_eq (hreg.trans (herase.reg _ (by decide))) (hcnt.trans (herase.cnt _))⟩

theorem State.zeroize_sensors (s : State) (lockdown : Bool) : SensorsStand s (s.zeroize lockdown) := by
  obtain ⟨-, -, -, hreg, hcnt, -⟩ := s.zeroize_frame lockdown
  exact SensorsStand.of_eq (hreg _ (by decide) (by decide)) (hcnt _ (by decide))

theorem State.beginTrans_sensors (s : State) (m : Mode) (cause : Nat) : SensorsStand s (s.beginTrans m cause) :=
  SensorsStand.of_eq (s.beginTrans_reg m cause (by decide))
    (State.beginTrans_keeps (·.cnt R.SEC_U_TAMPER_EVENTS) (fun _ _ => rfl) (fun _ _ _ _ => State.cnt_setReg _ _ _ _) s m cause)

/-- LOCKDOWN latched. -/
def State.latchLockdown (s : State) : State := s.setFld F.SEC_TAMPER_LATCH.LOCKDOWN 1

theorem State.latchLockdown_sensors (s : State) : SensorsStand s s.latchLockdown :=
  ⟨State.fld_setFld_ne _ _ _ _ (by decide) (by decide), State.fld_setFld_ne _ _ _ _ (by decide) (by decide), State.cnt_setReg _ _ _ _⟩

/-- A running unit under a grade: nothing at 0, a zeroize at 1, the way to M10 from 2 on (R561). -/
theorem State.tamperAct_running {s : State} (hkeep : s.sys.mode ≠ .keep) (hdormant : s.sys.mode ≠ .dormant)
    (hlockdown : s.sys.mode ≠ .lockdown) (grade : Nat) : s.tamperAct grade =
      if 2 ≤ grade then (s.latchLockdown.zeroize true).beginTrans .lockdown 3 else if grade = 1 then s.zeroize false else s := by
  unfold State.tamperAct
  split
  · contradiction
  · contradiction
  · contradiction
  · rfl

theorem State.tamperAct_none (s : State) : s.tamperAct 0 = s := by
  unfold State.tamperAct
  split <;> rfl

theorem State.tamperAct_sensors (s : State) (grade : Nat) : SensorsStand s (s.tamperAct grade) := by
  have hasleep (h : s.sys.mode = .keep ∨ s.sys.mode = .dormant) : SensorsStand s (s.tamperAct grade) := by
    have hu : SensorsStand s (if 1 ≤ grade then { s with und := { s.und with storageKey := false } } else s) :=
      both_arms (SensorsStand s) (SensorsStand.of_eq rfl rfl) (SensorsStand.refl s)
    have hlatch := hu.trans (State.latchLockdown_sensors _)
    have htrans := hlatch.trans (State.beginTrans_sensors _ .lockdown 3)
    unfold State.tamperAct
    obtain h | h := h <;> rw [h] <;> exact both_arms (SensorsStand s) (both_arms (SensorsStand s) htrans hlatch) hu
  by_cases hkeep : s.sys.mode = .keep
  · exact hasleep (.inl hkeep)
  by_cases hdormant : s.sys.mode = .dormant
  · exact hasleep (.inr hdormant)
  by_cases hlockdown : s.sys.mode = .lockdown
  · rw [State.tamperAct, hlockdown]
    exact SensorsStand.refl s
  · rw [State.tamperAct_running hkeep hdormant hlockdown]
    have hgoes := (s.latchLockdown_sensors.trans (State.zeroize_sensors _ true)).trans (State.beginTrans_sensors _ .lockdown 3)
    exact both_arms (SensorsStand s) hgoes (both_arms (SensorsStand s) (s.zeroize_sensors false) (SensorsStand.refl s))

/-! ## The grades (R561) -/

/-- On its way to M10 the unit has lost its keys and latched LOCKDOWN. -/
theorem State.lockdown_takes (s : State) (hmode : s.sys.mode ≠ .lockdown) :
    let t := (s.latchLockdown.zeroize true).beginTrans .lockdown 3
    t.flag F.SEC_TAMPER_LATCH.LOCKDOWN = true ∧ t.und.storageKey = false ∧
      (∀ j, j = 0 ∨ (16 ≤ j ∧ j < 64) → (t.mram.key j).occupied = false) ∧
      (s.sys.trans = none → t.sys.trans = some ⟨.lockdown, false, 3⟩) := by
  obtain ⟨hund, hsys, -, hreg, -, -⟩ := s.latchLockdown.zeroize_frame true
  have hkeys (j : Nat) := (s.latchLockdown.zeroize_keys true j).1
  have hlatched : s.latchLockdown.flag F.SEC_TAMPER_LATCH.LOCKDOWN = true := State.flag_setFld_same (s := s) true (by decide) rfl
  have hlatch := hreg R.SEC_TAMPER_LATCH (by decide) (by decide)
  have hsys' : s.latchLockdown.sys = s.sys := State.setFld_sys _ _ _
  generalize s.latchLockdown.zeroize true = z at *
  refine ⟨?_, ?_, fun j hj => ?_, fun htrans => State.beginTrans_of_none (by rw [hsys, hsys', htrans]) (by rwa [hsys, hsys']) 3⟩
  · rw [State.flag_congr (f := F.SEC_TAMPER_LATCH.LOCKDOWN) (State.beginTrans_reg z .lockdown 3 (by decide)),
      State.flag_congr (f := F.SEC_TAMPER_LATCH.LOCKDOWN) hlatch, hlatched]
  · rw [State.beginTrans_keeps (·.und) (fun _ _ => rfl) (fun s f v _ => State.setFld_und s f v) z, hund]
  · rw [State.beginTrans_keeps (·.mram) (fun _ _ => rfl) (fun s f v _ => State.setFld_mram s f v) z]
    exact hkeys j (mem_zeroizedSlots.mpr (hj.imp_right .inl))

theorem tamperFire_acts (s : State) (n : Fin 7) :
    Gives (.tamperFire n) s fun t => bitOf (t.fld F.SEC_TAMPER_LATCH.FIRED) n.val = true ∧
      bitOf (t.fld F.SEC_TAMPER_LATCH.NOW) n.val = true ∧ Counted s t R.SEC_U_TAMPER_EVENTS 1 ∧
      (s.tamperGrade n.val = 0 → s.sec.req = none → t.mram = s.mram ∧ t.sys = s.sys ∧ t.sec.slots = s.sec.slots) ∧
      (s.tamperGrade n.val = 2 → s.sys.mode ≠ .keep → s.sys.mode ≠ .dormant → s.sys.mode ≠ .lockdown →
        t.flag F.SEC_TAMPER_LATCH.LOCKDOWN = true ∧ t.und.storageKey = false ∧
        (∀ j, j = 0 ∨ (16 ≤ j ∧ j < 64) → (t.mram.key j).occupied = false) ∧
        (s.sys.trans = none → t.sys.trans = some ⟨.lockdown, false, 3⟩)) := by
  obtain ⟨hsys, hmram, hsec⟩ := s.tamperCounted_core n
  have hnoted := s.tamperNoted_keepsKeys n
  obtain ⟨habort, hsensors⟩ := (s.tamperNoted n).tamperAbort_keeps
  have hsys' : (s.tamperNoted n).tamperAbort.sys = s.sys := habort.trans (hnoted.sys.trans hsys)
  have hstand := (hnoted.sensors.trans hsensors).trans (State.tamperAct_sensors _ (s.tamperGrade n.val))
  obtain ⟨hfired, hnow, hcounted⟩ := State.tamperCounted_shows hstand
  refine ⟨_, exec_tamperFire n s, hfired, hnow, hcounted, fun hgrade hidle => ?_, fun hgrade hkeep hdormant hlockdown => ?_⟩
  · have hidle' : (s.tamperNoted n).sec.req = none := by rw [hnoted.req, hsec, hidle]
    rw [hgrade, State.tamperAct_none, State.tamperAbort_idle hidle']
    exact ⟨hnoted.mram.trans hmram, hnoted.sys.trans hsys, hnoted.slots.trans (by rw [hsec])⟩
  · rw [← hsys'] at hkeep hdormant hlockdown ⊢
    rw [hgrade, State.tamperAct_running hkeep hdormant hlockdown, if_pos (Nat.le_refl 2)]
    exact State.lockdown_takes _ hlockdown

/-! ## The end of a Ring Log clear (R592) -/

/-- A record's bytes start with its SEQ. -/
theorem RingRec.bytes_seq (r : RingRec) (seq : Nat) : (r.bytes seq).take 8 = leBytes 8 seq := by
  simp only [RingRec.bytes, List.append_assoc]
  exact List.take_left' (leBytes_length 8 seq)

/-- A record's data stand at bytes 32 to 59. -/
theorem RingRec.bytes_data {r : RingRec} (h : r.data.length = 28) (seq : Nat) : ((r.bytes seq).drop 32).take 28 = r.data := by
  unfold RingRec.bytes
  dsimp only
  rw [List.append_assoc _ r.data, List.drop_left' (by simp [leBytes_length]), List.take_left' h]

theorem ringClearDone_idle {s : State} (h : s.und.clearing = none) : Gives .ringClearDone s fun t => t = s := by
  refine ⟨s.ringClearDone, rfl, ?_⟩
  rw [State.ringClearDone, h]

/-- The record of a clear that ends. -/
def State.clearRecord (s : State) (data : List Byte) : RingRec :=
  { gridTime := s.gt, noGrid := !s.tim.running, cal := packCal s.und.cal s.subsec s.und.invalid, calInvalid := s.und.invalid,
    epoch := s.epoch, type := 0x00FF, origin := 20, interrupted := s.und.clearCut, data := (data ++ List.replicate 28 0).take 28,
    tick := s.undTick }

/-- The log emptied, with no clear under way. -/
def State.emptyRing (s : State) : State :=
  let t := s.bump R.UND_U_RL_REQUESTED
  { t with mram := { t.mram with rlNext := 0, ring := [] }, und := { t.und with clearing := none, clearCut := false } }

theorem State.ringClearDone_eq {s : State} {data : List Byte} (h : s.und.clearing = some data) :
    s.ringClearDone = s.emptyRing.ringPut (s.clearRecord data) := by
  rw [State.ringClearDone, h]
  rfl

/-- The first record of an empty log stands at place 0, and the other places read as erased. -/
theorem State.ringPut_first {s : State} (hnext : s.mram.rlNext = 0) (hring : s.mram.ring = []) (r : RingRec) :
    (s.ringPut r).mram.rlNext = 1 ∧ (s.ringPut r).cnt R.UND_RL_HEAD = 0 ∧
      ∀ p, (s.ringPut r).ringPlace p = if p = 0 then r.bytes 0 else ringErased := by
  unfold State.ringPut
  rw [hnext, hring]
  refine ⟨by simp, (State.cnt_setCnt _ _ _ _).trans (if_pos rfl), fun p => ?_⟩
  simp only [State.ringPlace, State.setCnt_mram, State.bump_mram, mget_mset, Nat.zero_mod]
  rfl

/-- The log holds one record, that of the clear, at place 0. -/
theorem ringClearDone_clears {s : State} {data : List Byte} (h : s.und.clearing = some data) : Gives .ringClearDone s fun t =>
    t.und.clearing = none ∧ t.mram.rlNext = 1 ∧ t.cnt R.UND_RL_HEAD = 0 ∧
    (∀ p, p ≠ 0 → t.ringPlace p = List.replicate 64 0xFF) ∧
    (t.ringPlace 0).take 8 = List.replicate 8 0 ∧ ((t.ringPlace 0).drop 32).take 28 = (data ++ List.replicate 28 0).take 28 := by
  obtain ⟨hnext, hhead, hplace⟩ := State.ringPut_first (s := s.emptyRing) rfl rfl (s.clearRecord data)
  have hdata : (s.clearRecord data).data.length = 28 := by simp [State.clearRecord]
  have hclearing : (s.emptyRing.ringPut (s.clearRecord data)).und.clearing = none := by simp [State.ringPut, State.emptyRing]
  refine ⟨_, congrArg Host.Outcome.next (State.ringClearDone_eq h), hclearing, hnext, hhead, fun p hp => ?_, ?_, ?_⟩
  · rw [hplace, if_neg hp, ringErased]
  · rw [hplace, if_pos rfl, RingRec.bytes_seq]
    rfl
  · rw [hplace, if_pos rfl, RingRec.bytes_data hdata, State.clearRecord]

/-! ## All clauses -/

/-- Settles O50: each upkeep instruction of the Keeper does its own work, and a sensor's action follows its grade and the mode. -/
theorem securityUpkeep : Obligations.SecurityUpkeep := by
  intro s dt e
  refine ⟨⟨_, rfl, rfl⟩,
    fun n k hnext hup => ⟨fun hearly => remask_waits hnext hup hearly, fun hdue hlen => remask_masks hnext hup hdue hlen⟩,
    fun n => ⟨tamperFire_acts s n, tamperSensorClear_clears s n⟩, fun h => ringClearDone_idle h, fun data h => ringClearDone_clears h⟩

end Sys2Proof.Machine
end
